-- ==== Sys2Proof/Word.lean ====
section
/-! DEFINITION. The words of the engine and the sparse maps its stores are held in (R8, R10: bit 0 is the least
significant bit of a field, byte 0 holds bits [7:0]). -/

namespace Sys2Proof

/-- One byte of any memory-resident structure. -/
abbrev Byte := BitVec 8

/-- One register of the 1 MiB towpath window (R426: every access is 32 bits wide). -/
abbrev Word := BitVec 32

/-- A lock mask: bit i is lock id i (R118). -/
abbrev LockMask := BitVec 16

/-- A sparse map from numbers, in one canonical form: keys strictly rising, no entry equal to what an unlisted key
reads as. -/
abbrev SMap (α : Type) := List (Nat × α)

/-- A byte-addressed store; an unlisted byte reads as zero. -/
abbrev Mem := SMap Byte

/-- The field [hi:lo] of a word, as the manual's field tables write it. -/
def fld {n : Nat} (w : BitVec n) (hi lo : Nat) : Nat := (w.extractLsb' lo (hi + 1 - lo)).toNat

/-- Bit `i` of a word. -/
def bitOf {n : Nat} (w : BitVec n) (i : Nat) : Bool := w.getLsbD i

end Sys2Proof
end

