-- ==== Sys2Proof/Syntax.lean ====
section
/-! DEFINITION. The commands of the engine: one constructor for each row of spec/opcode_table.json, with the operands
the row's event brings from outside the engine (assumption 1). -/

namespace Sys2Proof

/-- A fabric packet: the transaction header of R328, field by field, and the payload bytes that follow it. LEN is the
number of those bytes, except in a READ request, where it is the number of bytes asked for (R318). -/
structure Packet where
  /-- local address at DEST -/
  addr : Nat := 0
  /-- destination engine id -/
  dest : Nat := 0
  /-- source engine id -/
  src : Nat := 0
  /-- requester's tag -/
  tag : Nat := 0
  /-- tag generation -/
  gen : Nat := 0
  /-- virtual channel -/
  vc : Nat := 0
  /-- operation (R329) -/
  op : Nat := 0
  /-- response status (R331) -/
  status : Nat := 0
  /-- ring direction in force (R335) -/
  rdir : Nat := 0
  /-- bits [7:0] of the requester's reset total -/
  epoch : Nat := 0
  /-- poisoned 64-byte units of the payload -/
  poison : BitVec 64 := 0
  /-- addend, or the old value -/
  imm : BitVec 64 := 0
  /-- LEN -/
  len : Nat := 0
  /-- the payload -/
  payload : List Byte := []
deriving DecidableEq, Repr

/-- A unit whose control state can fail parity (R408): a tile, a region, or an engine-level unit named by the index of
its page. -/
inductive CtrlUnit where
  | tile (t : Nat)
  | region (r : Nat)
  | engine (page : Nat)
deriving DecidableEq, Repr

/-- A clock that can fail at engine level (R384). -/
inductive ClockLoss where
  | aoClk
  | enginePll
  | fabricPll
  | engineWindow
  | fabricWindow
  | mclkWindow (port : Nat)
deriving DecidableEq, Repr

/-- What a memory controller returns for one sector (R433, R436), as the sector's codes judge it (R402): the 512 data
bytes with byte 0 in bits [7:0], the byte symbols found in error in each of the four codewords, whether a burst came
with mpx_rd_err, and whether the tag passes its check. -/
structure SectorData where
  data : BitVec 4096 := 0
  errs : List Nat := [0, 0, 0, 0]
  rdErr : Bool := false
  tagOk : Bool := true
  /-- every codeword bears the poison syndrome (R405) -/
  poisoned : Bool := false
deriving DecidableEq, Repr

/-- The commands. An operand `j` is a journal index (the item the row acts on), `b` a barge and `i` the index of one of
its op records, `m` a mooring, `r` a region, `p` a port or a packet, as the docstring of each row's meaning says. -/
inductive Instr where
  -- queues and items (spec/03)
  | sqDoorbell (queue pointer : Nat)
  | cqDoorbell (queue pointer : Nat)
  | sqFetch
  | nop (j : Nat)
  | submitBarge (j : Nat)
  | admitRequest (j : Nat)
  | cancelRequest (j : Nat)
  | configEpoch (j : Nat)
  | configEpochComplete (j : Nat)
  | fence (j : Nat)
  | fenceComplete (j : Nat)
  -- table operations and flips (spec/07, spec/08)
  | create (j : Nat)
  | replace (j : Nat)
  | replaceTakeEffect (j : Nat)
  | delete (j : Nat)
  | deleteTakeEffect (j : Nat)
  | writeRows (j : Nat)
  | readRows (j : Nat)
  | adapterFlip (j : Nat)
  | flipTakeEffect (j : Nat)
  | flipComplete (j : Nat)
  | trainHoldRelease (j : Nat)
  | cqRecordWrite (cq : Nat)
  | coalTimeExpiry (cq : Nat)
  | maintEntry
  -- op records (spec/04)
  | mm (b i : Nat)
  | delta (b i : Nat)
  | deltaBackward (b i : Nat)
  | attn (b i : Nat)
  | kvAppend (b i : Nat)
  | kvCommit (b i : Nat)
  | vec (b i : Nat)
  | conv (b i : Nat)
  | gather (b i : Nat)
  | prefetch (b i : Nat)
  | pool (b i : Nat)
  | sgrad (b i : Nat)
  | update (b i : Nat)
  | coll (b i : Nat)
  | sealColl (b i : Nat)
  | barrier (b i : Nat)
  | lockMark (b i : Nat)
  | confirm (b i : Nat)
  | savePoint (b i : Nat)
  | opFence (b i : Nat)
  | wait (b i : Nat)
  | waitLimitExpiry (b i : Nat)
  | signal (b i : Nat)
  | opComplete (b i : Nat)
  | commitUnit (b i u : Nat)
  -- lock-keeper, placement, pre-emption, tollhouse (spec/11, spec/12)
  | manifestClose (m : Nat)
  | bargePlacement
  | wakeComplete (r : Nat)
  | imageLoadComplete (b : Nat)
  | bargeEnd (b : Nat)
  | napEntry (r : Nat)
  | offEntry (r : Nat)
  | preempt (mask : BitVec 8)
  | hold (mask : BitVec 8)
  | release (mask : BitVec 8)
  | saveComplete (b : Nat)
  | restoreComplete (b : Nat)
  | preemptOverdue (b : Nat)
  | tollRefill
  | tollReport
  -- the row store's windows, reads, updates and moves (spec/08 to spec/10)
  | skewWindowEnd
  | formerExpiry (table : Nat)
  | goneExpiry (table row : Nat)
  | provisionalProbe (table row : Nat)
  | rowRead (p : Packet)
  | versionProbe (p : Packet)
  | row (p : Packet)
  | current (p : Packet)
  | forward (p : Packet)
  | notOwner (p : Packet)
  | rowUpdate (p : Packet)
  | merged (p : Packet)
  | stale (p : Packet)
  | route (p : Packet)
  | rowOffer (p : Packet)
  | state (p : Packet)
  | moveConfirm (p : Packet)
  | query (p : Packet)
  | accept (p : Packet)
  | refuse (p : Packet)
  | stored (p : Packet)
  | held (p : Packet)
  | notHeld (p : Packet)
  -- the fabric (spec/13)
  | read (p : Packet)
  | write (p : Packet)
  | fetchAdd (p : Packet)
  | test (p : Packet)
  | response (p : Packet)
  | packetForward (port : Nat) (p : Packet)
  | transactionTimeout (tag : Nat)
  | tagQuarantineExpiry (tag : Nat)
  | heldRequestDiscard (k : Nat)
  | data (port : Nat) (flit : BitVec 512) (mark : Bool)
  | nak (port : Nat) (flit : BitVec 512)
  | credit (port : Nat) (flit : BitVec 512)
  | idle (port : Nat) (flit : BitVec 512)
  | linkInit (port : Nat) (flit : BitVec 512)
  | replayTimeout (port : Nat)
  | pcsLock (port : Nat)
  | pcsLockLoss (port : Nat)
  | retrainRelease (port : Nat)
  -- collectives and the bell (spec/14)
  | arrive (p : Packet)
  | grant (p : Packet)
  | offer (p : Packet)
  | segment (p : Packet)
  | bellBarrier (p : Packet)
  | scalar (p : Packet)
  | bellSeal (p : Packet)
  | abort (p : Packet)
  | abandon (p : Packet)
  | collPiece (p : Packet)
  | pieceTimeout (ctx : Nat)
  | sealTimeout (level seq : Nat)
  | bellResend (k : Nat)
  | collLimitExpiry (b i : Nat)
  -- reset, clocks, faults and blocks (spec/16, spec/17)
  | powerOn
  | brownOut
  | pinReset
  | watchdog
  | swReset (data : Word)
  | engReset
  | clockFailure (c : ClockLoss)
  | lockUp
  | resetRelease (strapMv : Nat)
  | pllLock (clock : Nat)
  | monitorWindow (clock count : Nat)
  | memPortReady (port : Nat)
  | ctrlParityError (u : CtrlUnit)
  | wdtKick (data : Word)
  | isolate (page : Nat)
  | plankIn (page : Nat)
  | resetReq (page : Nat)
  -- ports (spec/18)
  | sectorReadComplete (sector : Nat) (d : SectorData)
  | sectorWriteResponse (port : Nat) (err : Bool)
  | hostReadData (addr : Nat) (data : BitVec 512) (err : Bool)
  | hostWriteAck (tag : Nat) (err : Bool)
  | vectorUnmask (v : Nat)
  | imHoldRelease
  -- register pages (spec/19)
  | configCommit (page : Nat) (seq : Word)
  | commitTakeEffect (page : Nat)
  | rowInitClearDone
  | injectSram (page : Nat) (data : Word)
  | injectSector (data : Word)
  | injectTag (data : Word)
  | injectFlitCrc (data : Word)
  | injectPiece (data : Word)
  | injectCtrl (page : Nat) (data : Word)
  | injectClock (page : Nat) (data : Word)
  | keeperEnable
  | imemDataWrite (data : Word)
  | imemDataRead
  | peek (data : Word)
  | peekComplete
  | towpath (dr : BitVec 64)
  | idcode
  | bypass (ir : Byte)
  | unmappedAccess (addr : Nat) (we : Bool)
  | counterReadClear (addr : Nat)
  | registerWrite (addr : Nat) (data : Word)
  | vbakLoss
  | regionPllLockLoss (r : Nat)
  | errWindowEnd
  | w1cWrite (addr : Nat) (data : Word)
  | watchdogEnable (data : Word)
  | tapReset
deriving DecidableEq, Repr

end Sys2Proof
end

