-- ==== Sys2Proof/Decode.lean ====
section
/-! DEFINITION. The words of the command table. No row of spec/opcode_table.json gives bits, so no word spells a
command: the commands reach the engine through its ports, each in the form its port gives it (spec/18). -/

namespace Sys2Proof

/-- The command that `w`, read as a word of `nbits` bits, spells by the table's bits: none, for no row gives bits. -/
def decodeTableWord (_nbits _w : Nat) : Option Instr := none

end Sys2Proof
end

