-- ==== Sys2Proof/Config.lean ====
section
/-! DEFINITION. What the manual leaves open and every engine settles for itself: free values, constants without a body,
so that no proof can lean on a value of one. -/

namespace Sys2Proof

/-- R36: the order of additions is not fixed. The n-th addition of the machine picks its operands among `k` waiting
terms by this number, taken modulo `k` (assumption 3). -/
opaque Config.addPick : Nat → Nat

/-- R40: the n-th 16-bit draw since a seed was taken, from the 64-bit seed in force, of a stochastic-rounding generator:
0 a region's, 1 the update engine's. Regions of one seed draw alike (assumption 4). -/
opaque Config.srDraw : Nat → BitVec 64 → Nat → BitVec 16

/-- R376: which of the values within the accuracy of vector function `f` its result on `a` is (assumption 5). -/
opaque Config.vecFn : Nat → BitVec 32 → BitVec 32

/-- R375, R376: which of the values within its accuracy EXPNORM's result on a, b and c is (assumption 5). -/
opaque Config.expNorm : BitVec 32 → BitVec 32 → BitVec 32 → BitVec 32

/-- R35: which of the binary32 values within 2 units in the last place of the exact product the multipass product of two
operands is (assumption 6). -/
opaque Config.multipass : BitVec 32 → BitVec 32 → Nat

/-- R261: which of the binary32 values within 2 units in the last place of `beta ** count` the engine takes
(assumption 7). -/
opaque Config.powFn : BitVec 32 → Nat → Nat

/-- R28: the payload and sign of the NaNs the engine makes (assumption 9). -/
opaque Config.nanBits : BitVec 32

/-- R96: the exponential of a binary32 value below 0 in a softmax, as a binary32 code, taken modulo 1.0's code plus 1
(assumption 21). -/
opaque Config.softExp : BitVec 32 → Nat

/-- R96: element `j` of an output row whose query attends to no position (assumption 21). -/
opaque Config.noScore : Nat → BitVec 32

/-- R359: how SEQ, ATTEMPT, STAGE, STEP, PIECE and the sender's rank are laid out in front of a piece's bytes when its
digest is taken (assumption 25). -/
opaque Config.digestHead : Nat → Nat → Nat → Nat → Nat → Nat → List Byte

/-- R453: the version that the running firmware reports for itself, by the length and check value of its image
(assumption 27). -/
opaque Config.fwVersion : Nat → Nat → BitVec 32

/-- Word `k` of a merge entry in its region's pool: the index entry (word 0) and its data, whose bytes R251 does not lay out
and whose partial sums R36 leaves in any order (assumption 87). -/
opaque Config.mergeWord (table row step mult ofs : Nat) (grads : List (List Word)) (k : Nat) : BitVec 512

/-- Word `k` of the weir header, whose layout is private (R458, assumption 87): LAST_APPLIED, the APPLYING mark and the highest
step merged. -/
opaque Config.weirWord (applied : Nat) (applying highest : Option Nat) (k : Nat) : BitVec 512

/-- A warm reset at a time finds the descriptor of an adapter already rewritten by the flip in progress on a mooring (R189: any
subset may have been; assumption 95). -/
opaque Config.flipWritten (us mooring adapter : Nat) : Bool

/-- A byte at a local address that a KV transfer asked for at or above the committed length: R130 gives the reader the
positions below that length only, and says nothing of the bytes in the others' places (assumption 94). -/
opaque Config.kvHidden : Nat → Byte

/-- The buffer class of a packet that a failover has turned round (R336): which links it crossed before is not in its header
(assumption 91). By SRC, DEST, RDIR and the port it arrived on. -/
opaque Config.turnedClass (src dest rdir port : Nat) : Bool

end Sys2Proof
end

