-- ==== Sys2Proof/Machine/Sparse.lean ====
section
/-! DEFINITION. Sparse maps and byte stores in one canonical form: keys strictly rising, and no entry equal to what an
unlisted key reads as. Every store of the engine is read and written through these. -/

namespace Sys2Proof

/-- The entry of key `k`, or what an unlisted key reads as. -/
def SMap.get {α : Type} (d : Nat → α) : SMap α → Nat → α
  | [], k => d k
  | (k', v) :: m, k => if k' = k then v else SMap.get d m k

/-- The map without key `k`. -/
def SMap.erase {α : Type} : SMap α → Nat → SMap α
  | [], _ => []
  | (k', v) :: m, k => if k' = k then SMap.erase m k else (k', v) :: SMap.erase m k

/-- A new key put before the first greater one. -/
def SMap.insert {α : Type} : SMap α → Nat → α → SMap α
  | [], k, v => [(k, v)]
  | (k', v') :: m, k, v => if k < k' then (k, v) :: (k', v') :: m else (k', v') :: SMap.insert m k v

/-- Key `k` reads as `v` from now on. -/
def SMap.put {α : Type} [DecidableEq α] (d : Nat → α) (m : SMap α) (k : Nat) (v : α) : SMap α :=
  if v = d k then m.erase k else (m.erase k).insert k v

/-- The canonical form, as a check. -/
def SMap.wf {α : Type} [DecidableEq α] (d : Nat → α) : SMap α → Bool
  | [] => true
  | [(k, v)] => decide (v ≠ d k)
  | (k, v) :: (k', v') :: m => decide (v ≠ d k) && decide (k < k') && SMap.wf d ((k', v') :: m)

/-- Key `k` through a function. -/
def SMap.upd {α : Type} [DecidableEq α] (d : Nat → α) (m : SMap α) (k : Nat) (f : α → α) : SMap α :=
  m.put d k (f (m.get d k))

/-- What an unlisted byte reads as (assumption 12). -/
def Mem.dflt : Nat → Byte := fun _ => 0

/-- A store's canonical form. -/
def Mem.wf (m : Mem) : Bool := SMap.wf Mem.dflt m

/-- One byte of a store. -/
def Mem.get (m : Mem) (a : Nat) : Byte := SMap.get Mem.dflt m a

/-- One byte written. -/
def Mem.put (m : Mem) (a : Nat) (b : Byte) : Mem := SMap.put Mem.dflt m a b

/-- `n` bytes from `a` on. -/
def Mem.read (m : Mem) (a : Nat) : Nat → List Byte
  | 0 => []
  | n + 1 => m.get a :: Mem.read m (a + 1) n

/-- The bytes written from `a` on. -/
def Mem.write (m : Mem) (a : Nat) : List Byte → Mem
  | [] => m
  | b :: bs => Mem.write (m.put a b) (a + 1) bs

/-- Little-endian value of bytes (R10). -/
def leNat : List Byte → Nat
  | [] => 0
  | b :: bs => b.toNat + 256 * leNat bs

/-- The low `n` bytes of a value, least significant first (R10). -/
def leBytes : Nat → Nat → List Byte
  | 0, _ => []
  | n + 1, v => BitVec.ofNat 8 v :: leBytes n (v / 256)

/-- `n` bytes at `a` as a number. -/
def Mem.nat (m : Mem) (a n : Nat) : Nat := leNat (m.read a n)

/-- A number stored in `n` bytes at `a`. -/
def Mem.putNat (m : Mem) (a n v : Nat) : Mem := m.write a (leBytes n v)

/-- The field [hi:lo] of a number read as a structure. -/
def nfld (w hi lo : Nat) : Nat := w / 2 ^ lo % 2 ^ (hi + 1 - lo)

/-- `w` with the field [hi:lo] replaced by `v`. -/
def setFld (w hi lo v : Nat) : Nat :=
  w - nfld w hi lo * 2 ^ lo + v % 2 ^ (hi + 1 - lo) * 2 ^ lo

/-- Bit `i` of a number. -/
def nbit (w i : Nat) : Bool := w / 2 ^ i % 2 == 1

/-- Truth as a bit. -/
def bit (b : Bool) : Nat := if b then 1 else 0

/-- The bits of `w` that are set, below `n`. -/
def bitsOf (w n : Nat) : List Nat := (List.range n).filter (nbit w ·)

/-- The number with the bits of the list set. -/
def ofBits (l : List Nat) : Nat := l.foldl (fun a i => a ||| 2 ^ i) 0

/-- Division rounded up. -/
def divUp (a b : Nat) : Nat := (a + b - 1) / b

/-- A number rounded up to a multiple. -/
def upTo (a b : Nat) : Nat := divUp a b * b

/-- A counter of `n` bits that saturates. -/
def satAdd (n a b : Nat) : Nat := min (a + b) (2 ^ n - 1)

/-- A list with its entry `i` replaced. -/
def setAt {α : Type} (l : List α) (i : Nat) (f : α → α) : List α :=
  l.zipIdx.map fun (x, k) => if k = i then f x else x

/-- Each element through `f` where `p` holds. -/
def mapIf {α : Type} (l : List α) (p : α → Bool) (f : α → α) : List α :=
  l.map fun x => if p x then f x else x

/-- Serial arithmetic of R177: `a` is greater than `b` when (a − b) mod 2^32 is 1 to 2^31 − 1. -/
def serialGt (a b : Word) : Bool :=
  let d := (a - b).toNat
  decide (1 ≤ d) && decide (d ≤ 2 ^ 31 - 1)

end Sys2Proof
end

