-- ==== Sys2Proof/Machine/Float.lean ====
section
/-! DEFINITION. Number formats (R27 to R30), rounding and saturation (R37 to R43), sums in no fixed order (R35, R36), and
draught encodings (R44 to R46). Values are exact fractions until they are rounded. -/

namespace Sys2Proof.Machine

open Sys2Proof

/-- A value: a signed fraction with a positive denominator, an infinity, or a NaN. -/
inductive Num where
  | fin (neg : Bool) (n d : Nat)
  | inf (neg : Bool)
  | nan
deriving DecidableEq, Repr

/-- Zero. -/
def Num.zero : Num := .fin false 0 1

/-- A whole number. -/
def Num.ofInt (i : Int) : Num := .fin (decide (i < 0)) i.natAbs 1

/-- The value is neither an infinity nor a NaN. -/
def Num.finite : Num → Bool
  | .fin _ _ _ => true
  | _ => false

def Num.isNan : Num → Bool
  | .nan => true
  | _ => false

def Num.isNeg : Num → Bool
  | .fin s n _ => s && n != 0
  | .inf s => s
  | .nan => false

/-- Zero of either sign. -/
def Num.isZero : Num → Bool
  | .fin _ n _ => n == 0
  | _ => false

def Num.neg : Num → Num
  | .fin s n d => .fin (!s) n d
  | .inf s => .inf (!s)
  | .nan => .nan

def Num.abs : Num → Num
  | .fin _ n d => .fin false n d
  | .inf _ => .inf false
  | .nan => .nan

/-- The numerator with its sign. -/
def signed (s : Bool) (n : Nat) : Int := if s then -(n : Int) else n

/-- The exact sum. An exact zero is negative only when both terms are. -/
def Num.add : Num → Num → Num
  | .nan, _ => .nan
  | _, .nan => .nan
  | .inf s, .inf t => if s = t then .inf s else .nan
  | .inf s, _ => .inf s
  | _, .inf t => .inf t
  | .fin s n d, .fin t m e =>
    let x := signed s (n * e) + signed t (m * d)
    .fin (if x = 0 then s && t else decide (x < 0)) x.natAbs (d * e)

def one32 : Num := .fin false 1 1

def Num.sub (a b : Num) : Num := a.add b.neg

/-- The exact product. -/
def Num.mul : Num → Num → Num
  | .nan, _ => .nan
  | _, .nan => .nan
  | .inf s, .inf t => .inf (s != t)
  | .inf s, .fin t n _ => if n = 0 then .nan else .inf (s != t)
  | .fin s n _, .inf t => if n = 0 then .nan else .inf (s != t)
  | .fin s n d, .fin t m e => .fin (s != t) (n * m) (d * e)

/-- The exact quotient. -/
def Num.div : Num → Num → Num
  | .nan, _ => .nan
  | _, .nan => .nan
  | .inf _, .inf _ => .nan
  | .inf s, .fin t _ _ => .inf (s != t)
  | .fin s _ _, .inf t => .fin (s != t) 0 1
  | .fin s n d, .fin t m e => if m = 0 then (if n = 0 then .nan else .inf (s != t)) else .fin (s != t) (n * e) (d * m)

/-- `a < b` for values that are no NaN. -/
def Num.lt : Num → Num → Bool
  | .nan, _ => false
  | _, .nan => false
  | .inf s, .inf t => s && !t
  | .inf s, _ => s
  | _, .inf t => !t
  | .fin s n d, .fin t m e => decide (signed s (n * e) < signed t (m * d))

/-- Equal values; zeros of either sign are equal. -/
def Num.eqv : Num → Num → Bool
  | .inf s, .inf t => s == t
  | .fin s n d, .fin t m e => decide (signed s (n * e) = signed t (m * d))
  | _, _ => false

/-- Multiplied by a power of two. -/
def Num.scale2 (x : Num) (e : Int) : Num :=
  match x with
  | .fin s n d => if e < 0 then .fin s n (d * 2 ^ e.natAbs) else .fin s (n * 2 ^ e.toNat) d
  | y => y

/-! ### Formats -/

/-- A floating-point element format (R28): fraction bits, exponent bias, code of the largest finite magnitude, whether
the codes above it hold infinity and NaNs, and for E4M3 the one NaN code. -/
structure Fmt where
  width : Nat
  frac : Nat
  bias : Nat
  top : Nat
  hasInf : Bool
  hasNan : Bool
deriving DecidableEq, Repr

def fB32 : Fmt := ⟨32, 23, 127, 0x7F7FFFFF, true, true⟩
def fB16 : Fmt := ⟨16, 10, 15, 0x7BFF, true, true⟩
def fBF16 : Fmt := ⟨16, 7, 127, 0x7F7F, true, true⟩
def fE4M3 : Fmt := ⟨8, 3, 7, 0x7E, false, true⟩
def fE5M2 : Fmt := ⟨8, 2, 15, 0x7B, true, true⟩
def fE3M2 : Fmt := ⟨6, 2, 3, 0x1F, false, false⟩
def fE2M3 : Fmt := ⟨6, 3, 1, 0x1F, false, false⟩
def fE2M1 : Fmt := ⟨4, 1, 1, 0x7, false, false⟩

/-- The element format of a format code (R27); none for the integers and the reserved codes. -/
def fmt? : Nat → Option Fmt
  | 0 => some fB32
  | 1 => some fB16
  | 2 => some fBF16
  | 3 => some fE4M3
  | 4 => some fE5M2
  | 5 => some fE4M3
  | 6 => some fE5M2
  | 7 => some fE3M2
  | 8 => some fE2M3
  | 9 => some fE2M1
  | _ => none

/-- Bits of an element of a format code (R27, R30). -/
def fmtBits (c : Nat) : Nat :=
  match fmt? c with
  | some f => f.width
  | none => if c = 12 then 4 else 8

/-- Format codes that R27 lists. -/
def fmtOk (c : Nat) : Bool := c ≤ 12
def fmtMX (c : Nat) : Bool := 5 ≤ c && c ≤ 9
def fmtInt (c : Nat) : Bool := 10 ≤ c && c ≤ 12

/-- The value of an element's bits. -/
def Fmt.decode (f : Fmt) (w : Nat) : Num :=
  let s := nbit w (f.width - 1)
  let m := w % 2 ^ (f.width - 1)
  let e := m / 2 ^ f.frac
  let q := m % 2 ^ f.frac
  if m > f.top then (if f.hasInf && m == f.top + 1 then .inf s else .nan)
  else
    let sig := if e = 0 then q else q + 2 ^ f.frac
    let x := (if e = 0 then 1 else e) -- biased exponent in effect
    if f.bias + f.frac ≤ x then .fin s (sig * 2 ^ (x - (f.bias + f.frac))) 1
    else .fin s sig (2 ^ (f.bias + f.frac - x))

/-- The value of an integer element. -/
def decodeInt (c w : Nat) : Int :=
  if c = 11 then w else if c = 10 then (if w < 128 then w else (w : Int) - 256) else (if w < 8 then w else (w : Int) - 16)

/-- The value of an element of any format, its block scale not applied. -/
def decodeElem (c w : Nat) : Num :=
  match fmt? c with
  | some f => f.decode w
  | none => .ofInt (decodeInt c w)

/-- How a value between two neighbours is rounded (R37, R39): to nearest even, or stochastically with a 16-bit draw. -/
inductive RMode where
  | rne
  | sr (draw : Nat)
deriving DecidableEq, Repr

/-- A quotient of whole numbers rounded to a whole number. -/
def roundQ (mode : RMode) (n d : Nat) : Nat :=
  let q := n / d
  let r := n % d
  match mode with
  | .rne => if 2 * r > d || (2 * r = d && q % 2 = 1) then q + 1 else q
  | .sr draw => if r * 65536 / d + draw % 65536 ≥ 65536 then q + 1 else q

/-- The floor of log2 of n/d, for positive n and d. -/
def flog2 (n d : Nat) : Int :=
  let e : Int := (Nat.log2 n : Int) - Nat.log2 d
  let below := if e < 0 then n * 2 ^ e.natAbs < d else n < d * 2 ^ e.toNat
  if below then e - 1 else e

/-- The magnitude code that n/d rounds to, before any overflow rule. -/
def Fmt.code (f : Fmt) (mode : RMode) (n d : Nat) : Nat :=
  if n = 0 then 0 else
    let emin : Int := 1 - f.bias
    let e := max emin (flog2 n d)
    let u : Int := e - f.frac          -- the exponent of the last retained bit
    let q := if u < 0 then roundQ mode (n * 2 ^ u.natAbs) d else roundQ mode n (d * 2 ^ u.toNat)
    q + (e - emin).toNat * 2 ^ f.frac

/-- The bits of the format's NaN (assumption 9). -/
def Fmt.nan (f : Fmt) : Nat :=
  let s := if bitOf Config.nanBits 31 then 2 ^ (f.width - 1) else 0
  if f.hasInf then s + (f.top + 1) + 2 ^ (f.frac - 1) + Config.nanBits.toNat % 2 ^ (f.frac - 1) else s + (f.top + 1)

/-- A narrowed element: its bits, and what it adds to NUM_OVF_COUNT and NUM_NAN_COUNT (R42, R43). -/
structure Narrowed where
  bits : Nat
  ovf : Nat := 0
  nan : Nat := 0
deriving DecidableEq, Repr

/-- A value narrowed into a floating-point format (R37, R39, R42). -/
def Fmt.narrow (f : Fmt) (sat : Bool) (mode : RMode) (x : Num) : Narrowed :=
  let sg (s : Bool) (c : Nat) := c + (if s then 2 ^ (f.width - 1) else 0)
  match x with
  | .nan => { bits := f.nan }
  | .inf s =>
    if sat then { bits := sg s f.top, ovf := 1 }
    else if f.hasInf then { bits := sg s (f.top + 1) }
    else { bits := f.nan, nan := 1 }
  | .fin s n d =>
    let c := f.code mode n d
    if c ≤ f.top then { bits := sg s c }
    else if sat then { bits := sg s f.top, ovf := 1 }
    else if f.hasInf then { bits := sg s (f.top + 1), ovf := 1 }
    else { bits := f.nan, ovf := 1, nan := 1 }

/-- The range of an integer format. -/
def intRange (c : Nat) : Int × Int := if c = 10 then (-128, 127) else if c = 11 then (0, 255) else (-8, 7)

/-- A value narrowed into an integer format: rounded, then clamped (R42). -/
def narrowInt (c : Nat) (mode : RMode) (x : Num) : Narrowed :=
  let (lo, hi) := intRange c
  let code (i : Int) : Nat := (if i < 0 then i + 2 ^ fmtBits c else i).toNat
  match x with
  | .nan => { bits := 0, nan := 1 }
  | .inf s => { bits := code (if s then lo else hi), ovf := 1 }
  | .fin s n d =>
    let i := signed s (roundQ mode n d)
    if i < lo then { bits := code lo, ovf := 1 } else if i > hi then { bits := code hi, ovf := 1 } else { bits := code i }

/-- A value narrowed into any element format (R37, R42). -/
def narrow (c : Nat) (sat : Bool) (mode : RMode) (x : Num) : Narrowed :=
  match fmt? c with
  | some f => f.narrow sat mode x
  | none => narrowInt c mode x

/-! ### binary32 arithmetic -/

/-- A value rounded to nearest even in binary32, overflow to infinity (R35). -/
def b32 (x : Num) : Word := BitVec.ofNat 32 (fB32.narrow false .rne x).bits

/-- The value of a binary32 word. -/
def Word.num (w : Word) : Num := fB32.decode w.toNat

/-- A value as binary32 holds it. -/
def r32 (x : Num) : Num := Word.num (b32 x)

/-- A value rounded to nearest even into BF16. -/
def rBF16 (x : Num) : Num := fBF16.decode (fBF16.narrow false .rne x).bits

/-- The value of a binary32 magnitude code with a sign. -/
def codeVal (s : Bool) (c : Nat) : Num := fB32.decode (c + if s then 2 ^ 31 else 0)

/-- A magnitude code's value, an infinity's code standing for 2^128, where the values leave off. -/
def codeEdge (i : Int) : Num :=
  if fB32.top < i.natAbs then .fin (decide (i < 0)) (2 ^ 128) 1 else codeVal (decide (i < 0)) i.natAbs

/-- A binary32 value within `k` units in the last place of the exact `x`, an infinity for one of 2^128 or more; which of
them is free, by `pick` (R35, R261, R376; assumptions 5 to 7). -/
def nearUlps (k pick : Nat) (x : Num) : Num :=
  match x with
  | .fin s n d =>
    if n = 0 then x
    else
      let c := fB32.code .rne n d
      let m : Num := .fin false n d
      let far := (Num.ofInt k).scale2 (max (-126) (flog2 n d) - 23)
      let cs := ((List.range (3 * k + 1)).map fun (j : Nat) => (c : Int) - 2 * k + j).filter fun i =>
        decide (i.natAbs ≤ fB32.top + 1) && !far.lt ((codeEdge i).sub m).abs
      let i := cs.getD (pick % max 1 cs.length) c
      codeVal (s != decide (i < 0)) (min i.natAbs (fB32.top + 1))
  | y => y

/-- The square root of a fraction, rounded to nearest even in binary32: the root's floor at 64 more bits than needed, with
a sticky bit below it. -/
def sqrt32 : Num → Num
  | .nan => .nan
  | .inf s => if s then .nan else .inf false
  | .fin s n d =>
    if n = 0 then .fin s 0 1 else if s then .nan else
      let m := n * d * 2 ^ 400
      let q := Nat.sqrt m
      r32 (.fin false (2 * q + (if q * q = m then 0 else 1)) (2 * d * 2 ^ 200))

/-- Terms added in an order that only `Config.addPick` knows: each addition takes two waiting terms and rounds their sum
in binary32 (R35, R36). `base` numbers the additions. -/
def sumTree : Nat → Nat → List Num → Num
  | _, _, [] => .zero
  | _, _, [x] => x
  | 0, _, x :: _ => x
  | fuel + 1, base, xs =>
    let i := Config.addPick base % xs.length
    let a := xs.getD i .zero
    let ys := xs.eraseIdx i
    let j := Config.addPick (base + 1) % ys.length
    sumTree fuel (base + 2) (r32 (a.add (ys.getD j .zero)) :: ys.eraseIdx j)

/-- The sum of terms in no fixed order (R36). -/
def sumFree (base : Nat) (xs : List Num) : Num := sumTree xs.length base xs

/-- Choices that a sum of `k` terms takes. -/
def sumPicks (k : Nat) : Nat := 2 * k

/-! ### Draught encodings (R44 to R46) -/

/-- Bytes of a row image of draught `dr` and dimension `d` (R44). -/
def imageBytes (dr d : Nat) : Nat := if dr = 0 then 4 * d else if dr = 1 then 2 * d else if dr = 2 then d + 4 else d / 2 + 4

/-- Little-endian groups of `k` bytes as numbers. -/
def groups (k : Nat) : Nat → List Byte → List Nat
  | 0, _ => []
  | n + 1, bs => leNat (bs.take k) :: groups k n (bs.drop k)

/-- The 4-bit elements of packed bytes, low half first (R30). -/
def nibbles (n : Nat) (bs : List Byte) : List Nat :=
  (bs.flatMap fun b => [b.toNat % 16, b.toNat / 16]).take n

/-- Packed bytes of 4-bit elements (R30). -/
def packNibbles : List Nat → List Byte
  | [] => []
  | [a] => [BitVec.ofNat 8 (a % 16)]
  | a :: b :: r => BitVec.ofNat 8 (a % 16 + 16 * (b % 16)) :: packNibbles r

/-- A row image decoded into binary32 words (R44). -/
def decodeRow (dr d : Nat) (img : List Byte) : List Word :=
  if dr = 0 then (groups 4 d img).map (BitVec.ofNat 32)
  else if dr = 1 then (groups 2 d img).map fun w => b32 (fBF16.decode w)
  else if dr = 2 then
    let sc := fB32.decode (leNat (img.take 4))
    (groups 1 d (img.drop 4)).map fun w => b32 ((fE4M3.decode w).mul sc)
  else
    let sc := fBF16.decode (leNat (img.take 2))
    let off := fBF16.decode (leNat ((img.drop 2).take 2))
    (nibbles d (img.drop 4)).map fun w => b32 ((Num.ofInt (decodeInt 12 w)).mul sc |>.add off)

/-- The largest and the smallest of values that are no NaN. -/
def numMax : List Num → Num
  | [] => .zero
  | x :: xs => xs.foldl (fun a b => if a.lt b then b else a) x
def numMin : List Num → Num
  | [] => .zero
  | x :: xs => xs.foldl (fun a b => if b.lt a then b else a) x

/-- An encoded row: its image, none when R46 refuses it, and its narrowing events (R43). -/
structure Encoded where
  image : Option (List Byte)
  ovf : Nat := 0
  nan : Nat := 0
deriving DecidableEq, Repr

/-- The narrowing events of elements, summed. -/
def events (ns : List Narrowed) : Nat × Nat := ns.foldl (fun (o, n) x => (o + x.ovf, n + x.nan)) (0, 0)

/-- Rows whose scale is zero: amax 0, or a scale that rounds to zero (R45). -/
def encodeD2 (xs : List Num) (mode : Nat → RMode) : Encoded :=
  let amax := numMax (xs.map Num.abs)
  let sc := r32 (amax.div (.ofInt 448))
  if sc.isZero then { image := some (leBytes 4 0 ++ xs.map fun _ => 0) } else
    let es := xs.zipIdx.map fun (x, i) => fE4M3.narrow true (mode i) (x.div sc)
    let (o, n) := events es
    { image := some (leBytes 4 (b32 sc).toNat ++ es.map fun e => BitVec.ofNat 8 e.bits), ovf := o, nan := n }

/-- R45 for D3. An offset or minimum that rounds beyond BF16's largest finite value is stored as an infinity, whatever the
op's SAT field says (assumption 79). -/
def encodeD3 (xs : List Num) (mode : Nat → RMode) : Encoded :=
  let lo := numMin xs
  let hi := numMax xs
  let bf (x : Num) := (fBF16.narrow false .rne x).bits
  let sc := fBF16.decode (bf ((hi.sub lo).div (.ofInt 15)))
  if sc.isZero then { image := some (leBytes 2 0 ++ leBytes 2 (bf lo) ++ packNibbles (xs.map fun _ => 0)) } else
    let off := fBF16.decode (bf (lo.add ((Num.ofInt 8).mul sc)))
    let es := xs.zipIdx.map fun (x, i) => narrowInt 12 (mode i) ((x.sub off).div sc)
    let (o, n) := events es
    { image := some (leBytes 2 (bf sc) ++ leBytes 2 (bf off) ++ packNibbles (es.map (·.bits))), ovf := o, nan := n }

/-- A binary32 row encoded at a draught under a rounding mode for each element and a saturation field (R45, R46). An
infinity of a D1 row follows R42 under SAT (assumption 79). -/
def encodeRow (dr : Nat) (sat : Bool) (mode : Nat → RMode) (ws : List Word) : Encoded :=
  let xs := ws.map Word.num
  if dr = 0 then { image := some (ws.flatMap fun w => leBytes 4 w.toNat) }
  else if dr = 1 then
    let es := xs.zipIdx.map fun (x, i) => fBF16.narrow sat (mode i) x
    let (o, n) := events es
    { image := some (es.flatMap fun e => leBytes 2 e.bits), ovf := o, nan := n }
  else if !xs.all Num.finite then { image := none, nan := 1 }
  else if dr = 2 then encodeD2 xs mode else encodeD3 xs mode

end Sys2Proof.Machine
end

