-- ==== Sys2Proof/Machine/Crc.lean ====
section
/-! DEFINITION. The check values: CRC-32C (R449) and the CRC-64 digest of a collective piece (R359), computed bit by
bit. -/

namespace Sys2Proof.Machine

/-- One bit of a reflected CRC-32C (polynomial 0x1EDC_6F41; assumption 13). -/
def crc32Bit (c : BitVec 32) : BitVec 32 := if c.getLsbD 0 then (c >>> 1) ^^^ 0x82F63B78#32 else c >>> 1

/-- One byte of CRC-32C. -/
def crc32Byte (c : BitVec 32) (b : Byte) : BitVec 32 :=
  Nat.rec (c ^^^ b.setWidth 32) (fun _ x => crc32Bit x) 8

/-- CRC-32C with initial value and final XOR 0xFFFF_FFFF (R449). -/
def crc32c (bs : List Byte) : BitVec 32 := (bs.foldl crc32Byte 0xFFFFFFFF#32) ^^^ 0xFFFFFFFF#32

/-- One bit of the reflected CRC-64 of ECMA-182 (R359). -/
def crc64Bit (c : BitVec 64) : BitVec 64 :=
  if c.getLsbD 0 then (c >>> 1) ^^^ 0xC96C5795D7870F42#64 else c >>> 1

/-- One byte of CRC-64. -/
def crc64Byte (c : BitVec 64) (b : Byte) : BitVec 64 :=
  Nat.rec (c ^^^ b.setWidth 64) (fun _ x => crc64Bit x) 8

/-- CRC-64 with initial value and final XOR all ones (R359). -/
def crc64 (bs : List Byte) : BitVec 64 :=
  (bs.foldl crc64Byte 0xFFFFFFFFFFFFFFFF#64) ^^^ 0xFFFFFFFFFFFFFFFF#64

end Sys2Proof.Machine
end

