-- ==== Sys2Proof/Machine/State.lean ====
section
/-! DEFINITION. The state of one engine as plain data, and the state right after reset. Registers lie in one sparse
map under their window addresses (R443); what the manual keeps in memory lies there as bytes; what it keeps on chip
without a register has a field of its own. Each field's docstring names its rule. -/

namespace Sys2Proof.Machine

open Sys2Proof

/-- Why a step stops with a fault. -/
inductive Fault where
  /-- Raised by a command that writes external memory at an address that comes from a request's descriptor and lies at
  or above the populated size, where no memory exists (R23, R317): no rule checks that address. Safe: the model
  stops. -/
  | beyondPopulated
deriving DecidableEq, Repr

/-- Why a step is refused. -/
inductive Refusal where
  /-- Raised by an arm of `exec` that has no meaning yet. Safe: nothing is claimed of the command. -/
  | notModelled (mnemonic : String)
deriving DecidableEq, Repr

/-! ### Tie-offs and time -/

/-- The integration parameters as tied (R418): inputs of the block, no register. -/
structure Params where
  /-- cfg_vlanes code -/
  vlanes : Nat := 1
  /-- populated memory ports -/
  memPorts : Nat := 16
  /-- populated size in GiB -/
  memGib : Nat := 64
  /-- nominal mclk in MHz -/
  mclkMhz : Nat := 2000
  /-- populated fabric ports -/
  fabPorts : Nat := 24
  /-- JTAG manufacturer code -/
  jtagMfr : Nat := 0
deriving DecidableEq, Repr

/-- The reset sources of R384, in the order of their bits in LAST_CAUSE. -/
inductive ResetSource where
  | powerOn | brownOut | pin | watchdog | software | debug | clkFail | lockUp
deriving DecidableEq, Repr

/-- Reset, clocks and the backup domain's loss (spec/16). -/
structure ResetState where
  /-- a reset event is in progress: from its first source to RESET_RELEASE (R385) -/
  active : Bool := true
  /-- sources that joined the event -/
  sources : List ResetSource := [.powerOn]
  /-- VBAK was lost since the last event (R388) -/
  vbakLost : Bool := false
  /-- the last step of the release sequence reached (R392) -/
  step : Nat := 0
  /-- the event of this release was a full one (R384) -/
  full : Bool := true
  /-- PLLs that are locked, by clock number of CLK.MON_SEL -/
  locked : List Nat := []
  /-- counts of the last windows, by clock number (R393) -/
  counts : SMap Nat := []
  /-- memory ports released (R392 step 6) -/
  portsReady : List Nat := []
  /-- the engine halted on a fatal error (R412) -/
  halted : Bool := false
  /-- ao_clk is lost, so ao_us stands still (R384) -/
  aoLost : Bool := false
  /-- ao_us at the last watchdog kick or enable (R399) -/
  wdtSince : Nat := 0
deriving DecidableEq, Repr

/-! ### Queues and items (spec/03) -/

/-- The state of one submission queue beyond its bank fields (R50, R63, R64). -/
structure Sq where
  head : Nat := 0
  tail : Nat := 0
  /-- the FENCE or CONFIG_EPOCH item that holds the queue -/
  holdBy : Option Nat := none
deriving DecidableEq, Repr

/-- The kinds of CQ record (R67). -/
inductive RecKind where
  | entry | request | token | barge
deriving DecidableEq, Repr

/-- A record whose content is determined, or, for TOKEN, will be at its write (R67, R267). -/
structure Rec where
  kind : RecKind
  fate : Nat := 0
  detail : Nat := 0
  cookie : Nat := 0
  sq : Nat := 0
  sqIndex : Nat := 0
  sqHead : Nat := 0
  berth : Nat := 0
  value0 : Nat := 0
  value1 : Nat := 0
  aoUs : Nat := 0
  irq : Bool := false
  /-- journal entry whose final record this is -/
  journal : Option Nat := none
  /-- TOKEN: the deadline in force when the step's manifest closed (R267) -/
  deadline : Option Nat := none
  /-- berth freed when the record is written (R271) -/
  frees : Option Nat := none
deriving DecidableEq, Repr

/-- The state of one completion queue beyond its bank fields (R53, R54). -/
structure Cq where
  head : Nat := 0
  tail : Nat := 0
  /-- phase written into the next record -/
  phase : Bool := true
  /-- records not yet written, oldest first -/
  pending : List Rec := []
  /-- a record is held back for want of a free slot -/
  full : Bool := false
  /-- journal entries of the records between head and tail, oldest first -/
  written : List (Option Nat) := []
  /-- records written since the last interrupt message -/
  unsignalled : Nat := 0
  /-- ao_us of the first of them -/
  firstUnsignalled : Option Nat := none
deriving DecidableEq, Repr

/-- Where an accepted item stands. -/
inductive Stage where
  /-- accepted; its entry not yet processed -/
  | accepted
  /-- processed; waiting for what gives it its fate -/
  | waiting
  /-- an ADMIT_REQUEST in a berth -/
  | admitted
deriving DecidableEq, Repr

/-- An item without its fate (R51). -/
structure Item where
  /-- journal index -/
  j : Nat
  sq : Nat
  sqIndex : Nat
  /-- order of acceptance over all SQs -/
  order : Nat
  /-- the 64-byte entry -/
  entry : BitVec 512
  stage : Stage := .accepted
  /-- CONFIG_EPOCH: the listed banks that are neither active nor rejected yet, as (page, 0 for bank A or 1 for bank B) (R63) -/
  banks : List (Nat × Nat) := []
  /-- CONFIG_EPOCH: a listed bank was rejected -/
  rejected : Bool := false
  /-- CONFIG_EPOCH: the barges running or saved when the last listed bank became active -/
  awaits : List Nat := []
  /-- CANCEL_REQUEST: the berth whose request waits for its boundary (R62); READ_ROWS: the lowest row whose write to host
  memory failed (R215) -/
  target : Option Nat := none
  /-- fate that stopped a READ_ROWS, told once its host writes are acknowledged (R215) -/
  stop : Option Nat := none
deriving DecidableEq, Repr

/-- A key of the duplicate window with what a DUPLICATE record refers to (R73, R68). -/
structure DupKey where
  tenant : Nat
  client : Nat
  attempt : Nat
  j : Nat
  sq : Nat
  sqIndex : Nat
  berth : Nat := 0
  fate : Option Nat := none
  /-- place in the window's 32 MiB, in units of 32 bytes (R457; assumption 17) -/
  slot : Nat := 0
deriving DecidableEq, Repr

/-- Who a host DMA write belongs to (R432). -/
inductive DmaOwner where
  /-- a CQ record -/
  | record (cq : Nat)
  /-- an output buffer write of the request in a berth, with the request's journal index -/
  | output (berth j : Nat)
  /-- a READ_ROWS data row of item `j`, its index in the run -/
  | rowData (j index : Nat)
deriving DecidableEq, Repr

/-- A host DMA write not yet acknowledged (R430). -/
structure DmaWrite where
  tag : Nat
  addr : Nat
  bytes : List Byte
  owner : DmaOwner
deriving DecidableEq, Repr

/-- The queues, items, journal's in-flight part and the host DMA port. -/
structure Queues where
  sqs : SMap Sq := []
  cqs : SMap Cq := []
  /-- next SQ of the round robin (R51) -/
  rrNext : Nat := 0
  items : List Item := []
  /-- acceptances so far -/
  orders : Nat := 0
  /-- the duplicate window, oldest key first (R73) -/
  dup : List DupKey := []
  /-- the window that they lie in (R457) -/
  dupBase : Nat := 0
  /-- banks whose last commit was rejected, as page × 2 + bank (R450) -/
  rejBanks : List Nat := []
  /-- by page × 2 + bank: the serial number of the bank's last activation, and the barges then running or saved (R63) -/
  activations : SMap (Nat × List Nat) := []
  /-- activations so far -/
  activationNo : Nat := 0
  /-- maintenance mode is in effect (R80) -/
  maint : Bool := false
  /-- a committed MAINT waits for its boundary (R80) -/
  maintPending : Bool := false
  /-- number of the next lock-keeper barge (R68) -/
  bargeNo : Nat := 0
  /-- an HQ commit took effect since the last reset -/
  configured : Bool := false
  /-- fetching is stopped for want of a journal entry (R75) -/
  journalFull : Bool := false
  /-- host DMA writes in flight (R430) -/
  dmaWrites : List DmaWrite := []
  /-- vectors to raise once the listed write tags are acknowledged (R429) -/
  irqWait : List (Nat × List Nat) := []
  /-- host units that arrived with an error, by address / 64 (R432) -/
  badUnits : List Nat := []
  /-- interrupt messages taken, oldest first: vector, address, data (R429) -/
  messages : List (Nat × BitVec 64 × Word) := []
  /-- im_hold is high (R429) -/
  imHold : Bool := false
deriving DecidableEq, Repr

/-! ### Barges (spec/04, spec/05, spec/12) -/

/-- A manifest row (R60) as executed. -/
structure ManRow where
  /-- 0 decode, 1 prefill, 2 training -/
  kind : Nat
  draft : Nat := 0
  adapter : Nat := 0
  tenant : Nat := 0
  berth : Nat := 0
  position : Nat := 0
  segment : Nat := 0
  /-- the row is left out of later commits (R116) -/
  out : Bool := false
  /-- the row reached KV_COMMIT (R288) -/
  committed : Bool := false
  /-- its correction is poisoned: its next commit is refused (R174) -/
  poison : Bool := false
deriving DecidableEq, Repr

/-- A segment table entry (R154). -/
structure Seg where
  adapter : Nat
  tenant : Nat
  vslot : Nat := 0
  count : Nat
  first : Nat
deriving DecidableEq, Repr

/-- States of a lock chamber (R119). -/
inductive LockSt where
  | closed | opened | confirmed | failed
deriving DecidableEq, Repr

/-- A lock chamber that the running barge has opened (R119). -/
structure Chamber where
  /-- logical region -/
  region : Nat
  lock : Nat
  st : LockSt
  /-- program index of its LOCK_MARK -/
  mark : Nat
  attempts : Nat := 0
  /-- program index of the record that settles it, once fetched -/
  settler : Option Nat := none
  /-- settled by a SEAL -/
  bySeal : Bool := false
deriving DecidableEq, Repr

/-- Where an op record of a running barge stands (R88, R89, R125). -/
inductive RecSt where
  /-- fetched and checked, not issued -/
  | waiting
  /-- issued and running -/
  | running
  /-- complete on every instance -/
  | complete
deriving DecidableEq, Repr

/-- A fetched op record. -/
structure OpRun where
  /-- the record as it was fetched (R88) -/
  word : Nat := 0
  st : RecSt := .waiting
  /-- keys of its commit units already committed (R125) -/
  done : List Nat := []
  /-- messages or reads it still waits for -/
  outstanding : Nat := 0
  /-- ao_us of its issue -/
  issued : Nat := 0
  /-- its token was set early by the COLL rules (R133) -/
  signalled : Bool := false
  /-- union of the pending sets of its results and commit units (R120) -/
  pend : LockMask := 0
  /-- reads of a PREFETCH not yet issued: region, key, MULT (R232) -/
  todo : List (Nat × Nat × Nat) := []
  /-- what the committed rows of a KV_COMMIT emitted, by berth: EMIT total and tokens delivered (R99, R279) -/
  emits : List (Nat × Nat × Nat) := []
deriving DecidableEq, Repr

/-- What a commit unit does when it commits (R121). -/
inductive UnitAct where
  /-- class 1: write of bytes to external memory -/
  | memWrite (addr : Nat) (bytes : List Byte)
  /-- class 1: a local SIGNAL add, or the local fetch-add of a remote SIGNAL to this engine (R115) -/
  | addWord (addr : Nat) (addend : BitVec 64)
  /-- class 2: the fetch-add of a remote SIGNAL -/
  | fetchAdd (dest addr : Nat) (addend : BitVec 64)
  /-- class 2: an update message of SGRAD: table, row, MULT, gradient -/
  | gradient (table row mult : Nat) (grad : List Word)
  /-- class 4: KV_COMMIT of a manifest row: COMMIT, the tokens to emit -/
  | kvCommit (row commit : Nat) (tokens : List Nat)
  /-- class 5: the whole UPDATE for a step -/
  | applyStep (step : Nat) (rnd sat : Nat)
  /-- class 6: an output row of a request -/
  | output (row addr : Nat) (bytes : List Byte)
  /-- a fault that a commit-class op found in confirmed data: a row's item receives a fate, or the barge does (R123) -/
  | fails (row : Option Nat) (fate : Nat)
deriving DecidableEq, Repr

/-- A commit unit that is not yet made (R121). -/
structure CUnit where
  b : Nat
  i : Nat
  key : Nat
  act : UnitAct
  pend : LockMask := 0
  poison : Bool := false
  /-- manifest rows the unit belongs to (R406) -/
  rows : List Nat := []
deriving DecidableEq, Repr

/-- How far a barge has come (R302 to R309). -/
inductive BargeSt where
  | waiting | loading | running | saving | saved | restoring | ending
deriving DecidableEq, Repr

/-- A SPEC KV position of a running barge: berth, position, its pending set, discarded by a lock failure (R118, R124). -/
structure SpecPos where
  berth : Nat
  layer : Nat
  position : Nat
  pend : LockMask := 0
  poison : Bool := false
  discarded : Bool := false
deriving DecidableEq, Repr

/-- A factor row in a region's fetch window, for record `rec`: its elements' codes in FACTOR_FMT (R150, R163). -/
structure FactorRow where
  region : Nat
  rec_ : Nat
  row : Nat
  elems : List Nat
  poison : Bool
deriving DecidableEq, Repr

/-- An adapter moored in a region: the factor rows of its slot still to be read, and those of its copy (R161, R162). -/
structure Moored where
  mooring : Nat
  adapter : Nat
  slot : Nat
  todo : List Nat := []
  rows : List FactorRow := []
deriving DecidableEq, Repr

/-- An executed barge (R57, R84, R302). -/
structure Barge where
  id : Nat
  /-- a SOLO barge; its item is `carried` -/
  solo : Bool := false
  /-- journal entry of the BARGE record, for a barge the lock-keeper built -/
  journal : Option Nat := none
  /-- barge number (R68) -/
  number : Nat := 0
  mooring : Nat := 0
  /-- the submitted barge carried, by journal index -/
  carried : Option Nat := none
  /-- training step of the carried barge -/
  step : Nat := 0
  program : Nat := 0
  progLen : Nat := 0
  /-- pool offset of the program copy that records are fetched from (R298) -/
  progPool : Option Nat := none
  /-- logical regions the program needs -/
  need : Nat := 0
  /-- physical regions, logical i first to last -/
  regions : List Nat := []
  /-- the physical regions of its last placement, as a mask (R68) -/
  mask : Nat := 0
  maxGap : Nat := 0
  rows : List ManRow := []
  segs : List Seg := []
  /-- the manifest holds LC rows (R302) -/
  lc : Bool := false
  st : BargeSt := .waiting
  /-- order of closing or acceptance, and of placement -/
  order : Nat := 0
  placed : Nat := 0
  ops : List OpRun := []
  /-- dependency tokens (R89) -/
  tokens : List Nat := []
  chambers : List Chamber := []
  specs : List SpecPos := []
  /-- descriptor copies by adapter id; none for one that could not be read (R149) -/
  copies : List (Nat × Option (BitVec 512)) := []
  /-- factor rows in the fetch windows (R163, R164) -/
  factors : List FactorRow := []
  /-- factor rows as the forward direction first read them, which it keeps through the barge (R165, R183) -/
  firstRows : List FactorRow := []
  /-- factor rows that could not be read: record, region, row, fate (R174) -/
  factorFails : List (Nat × Nat × Nat × Nat) := []
  /-- segments already counted in DESC_FAULTS, by first row (R174) -/
  segFaults : List Nat := []
  /-- fate of a barge-scope failure (R116) -/
  failed : Option Nat := none
  /-- every record has been fetched -/
  fetchedAll : Bool := false
  slots : Nat := 0
  closedAt : Nat := 0
  /-- µs of running time spent saved -/
  savedUs : Nat := 0
  savedAt : Nat := 0
  saveSlot : Option Nat := none
  savePoint : Nat := 0
  /-- the live ranges of that SAVE_POINT, as its list held them -/
  liveWords : List Nat := []
  /-- ao_us at which a pre-emption request arose -/
  preempt : Option Nat := none
  overdue : Bool := false
  /-- start and bound of the gap being measured (R306) -/
  gapFrom : Nat := 0
  gapBound : Nat := 0
  /-- pieces still to load, as (physical region, logical index) -/
  toLoad : List (Nat × Nat) := []
  /-- its load has copied its blocks and begun to moor adapters (R161, R301) -/
  moorBegun : Bool := false
  /-- no barge of another mooring has run during this one (R291) -/
  alone : Bool := true
  /-- a BARRIER of the barge is in flight (R305) -/
  barrier : Option Nat := none
deriving DecidableEq, Repr

/-! ### Regions and on-chip marks -/

/-- Power states of a region (R398). -/
inductive Power where
  | run | doze | nap | off
deriving DecidableEq, Repr

/-- A mooring's piece in a region (R300). -/
structure Piece where
  mooring : Nat
  logical : Nat
  lastUse : Nat := 0
deriving DecidableEq, Repr

/-- A row-cache entry (R231). -/
structure CacheEnt where
  table : Nat
  row : Nat
  draught : Nat
  readStep : Nat
  closed : Nat
  image : List Byte
  poison : Bool := false
  /-- fetched by PREFETCH and not used since -/
  prefetched : Bool := false
deriving DecidableEq, Repr

/-- A region (R11). -/
structure Region where
  power : Power := .off
  /-- the state it is waking from, while it wakes -/
  waking : Option Power := none
  quarantined : Bool := false
  idleSince : Nat := 0
  pieces : List Piece := []
  /-- mooring of the last barge that ran (R303) -/
  ranLast : Option Nat := none
  /-- row cache, most recently used first -/
  cache : List CacheEnt := []
  /-- stochastic-rounding seed in force and draws taken (R40) -/
  seed : BitVec 64 := 0
  draws : Nat := 0
  /-- a commit changed SR_SEED since the last barge boundary (R40) -/
  reseed : Bool := false
  /-- row reads that have waited for a cache entry: barge, record, table, row (R231) -/
  waited : List (Nat × Nat × Nat × Nat) := []
  /-- gradient-list count (R170) -/
  uses : Nat := 0
  /-- adapters moored in the region (R161) -/
  moored : List Moored := []
deriving DecidableEq, Repr

/-- The state kept beside each 64-byte word on chip (R118, R139, R405). -/
structure Mark where
  pend : LockMask := 0
  void : Bool := false
  poison : Bool := false
deriving DecidableEq, Repr

/-- A sector's tag (R199) and what its codes hold. -/
structure Tag where
  kind : Nat := 0
  table : Nat := 0
  owner : Nat := 0
  draught : Nat := 0
  slotBase : Nat := 0
  step : Nat := 0
  poison : Bool := false
  /-- TAG_CHECK was stored inverted (R414) -/
  bad : Bool := false
  /-- symbols inverted in codeword 0 and not yet read (R414) -/
  latent : Nat := 0
deriving DecidableEq, Repr

/-! ### Serving (spec/07, spec/11) -/

/-- Berth states (R271). -/
inductive BerthSt where
  | free | queued | prefill | decode | ending
deriving DecidableEq, Repr

/-- Where KV_APPEND put one position of a layer: its key and its value, as addresses and lengths (R97, R129). -/
structure KvPos where
  layer : Nat
  position : Nat
  ranges : List (Nat × Nat)
deriving DecidableEq, Repr

/-- A berth and its request (R268, R271). -/
structure Berth where
  st : BerthSt := .free
  j : Nat := 0
  tenant : Nat := 0
  client : Nat := 0
  attempt : Nat := 0
  /-- best-effort class -/
  be : Bool := false
  mooring : Nat := 0
  fallback : Option Nat := none
  adapter : Nat := 0
  /-- pinned version slot (R178) -/
  pin : Option Nat := none
  outAddr : Nat := 0
  outExt : Bool := false
  pageTable : Nat := 0
  pagesPerLayer : Nat := 0
  startPos : Nat := 0
  promptLen : Nat := 0
  maxTokens : Nat := 0
  stopToken : Nat := 0
  ttft : Nat := 0
  tbt : Nat := 0
  chunkLog2 : Nat := 0
  draftMax : Nat := 0
  cancelLate : Bool := false
  committed : Nat := 0
  delivered : Nat := 0
  admitUs : Nat := 0
  /-- AO_US of the latest TOKEN record -/
  lastToken : Option Nat := none
  /-- a late step's deadline, until the boundary where LATE_POLICY decides (R284) -/
  overdue : Option Nat := none
  /-- a passed deadline that stays in force until the next TOKEN record (R284) -/
  kept : Option Nat := none
  cancel : Bool := false
  late : Bool := false
  routed : Bool := false
  deferSince : Option Nat := none
  /-- barge that carries its rows -/
  barge : Option Nat := none
  /-- a row of it was placed once (R290) -/
  placed : Bool := false
  /-- the deadline in force when the running step's manifest closed -/
  closeDeadline : Option Nat := none
  /-- the request has ended under R279, and its fate waits for its last TOKEN record (R285) -/
  finished : Bool := false
  /-- positions written at or above the committed length (R129, R130) -/
  kv : List KvPos := []
deriving DecidableEq, Repr

/-- A tollhouse account (R286, R287, R290). -/
structure Account where
  valid : Bool := false
  policy : Nat := 0
  tenant : Nat := 0
  rate : Nat := 0
  burst : Nat := 0
  deferLimit : Nat := 0
  /-- balance in 1/256 token -/
  balance : Int := 0
  waitSum : Nat := 0
  waitMax : Nat := 0
  outTokens : Nat := 0
  prefillTokens : Nat := 0
  draftsRejected : Nat := 0
  ttftMisses : Nat := 0
  tbtMisses : Nat := 0
  preemptions : Nat := 0
  admitted : Nat := 0
  rejected : Nat := 0
  overdrawn : Nat := 0
deriving DecidableEq, Repr

/-- A mooring's serving state (R273, R280, R282, R291, R314). -/
structure Mooring where
  /-- E of R282 in 1/16 µs -/
  est : Nat := 0
  framePos : Nat := 0
  solo : Option Nat := none
  shared : Option Nat := none
  bargesEnded : Nat := 0
  lateSteps : Nat := 0
  routed : Nat := 0
  loads : Nat := 0
  loadKib : Nat := 0
  preempts : Nat := 0
  savedUs : Nat := 0
  /-- submitted barges not yet carried, in acceptance order -/
  trainQueue : List Nat := []
  /-- flips naming the mooring, in acceptance order -/
  flips : List Nat := []
  /-- the descriptors are being rewritten by the first of them (R185) -/
  rewriting : Bool := false
  /-- adapters that the running rewrite flips -/
  flipping : List Nat := []
  /-- the directory header could not be read (R175) -/
  headerFault : Bool := false
  /-- the layer entries of the directory header as read at the commit in force (R146) -/
  layers : List (BitVec 64) := []
  /-- MOOR_COUNT and MOOR_LIST as read then -/
  moorCount : Nat := 0
  moorList : Nat := 0
  /-- OR of every TILE_MASK of the program in force (R409) -/
  tileUnion : BitVec 16 := 0
  /-- the mooring image's descriptor as read at the commit in force (R315) -/
  image : BitVec 512 := 0
deriving DecidableEq, Repr

/-- A pin-table entry (R179). -/
structure Pin where
  mooring : Nat
  adapter : Nat
  slot : Nat
  count : Nat
  seq : Nat
  aRow : Nat
  bRow : Nat
deriving DecidableEq, Repr

/-- The lock-keeper, tollhouse and pin table. -/
structure Serving where
  berths : SMap Berth := []
  moorings : SMap Mooring := []
  accounts : SMap Account := []
  pins : List Pin := []
  /-- SOLO barges accepted and not yet placed or held, by journal index -/
  soloQueue : List Nat := []
  /-- submitted barges held under R182, and those counted in TRAIN_HOLDS, by journal index -/
  trainHeld : List Nat := []
  trainCounted : List Nat := []
  barges : List Barge := []
  units : List CUnit := []
  /-- next barge id of the model, and orders of closing and placement -/
  nextBarge : Nat := 0
  orders : Nat := 0
  /-- regions held by PREEMPT_CMD -/
  heldRegions : BitVec 8 := 0
  /-- barges that must end before a serving commit takes effect, by page -/
  boundary : List (Nat × List Nat) := []
  /-- multiples of REFILL_US already refilled, and report windows -/
  refills : Nat := 0
  reportNo : Nat := 0
  reportStart : Nat := 0
  /-- save slots in use -/
  saveSlots : List Nat := []
  /-- tenths of a µs of wakes not yet a whole µs in PWR.WAKE_US -/
  wakeTenths : Nat := 0
deriving DecidableEq, Repr

/-! ### The row store (spec/08 to spec/10) -/

/-- A table's part of the running skew window (R213). -/
structure Skew where
  reads : Nat := 0
  bytes : Nat := 0
  updates : Nat := 0
  defaults : Nat := 0
  forwards : Nat := 0
  promotions : Nat := 0
  demotions : Nat := 0
deriving DecidableEq, Repr

/-- A merge-buffer entry (R251). -/
structure MergeEnt where
  table : Nat
  row : Nat
  step : Nat
  /-- region of the buffer, place in its index, and offset of its data in the half of its step -/
  region : Nat
  place : Nat
  ofs : Nat := 0
  mult : Nat
  /-- the gradients merged, summed in no fixed order when they are used (R36) -/
  grads : List (List Word)
  poison : Bool := false
deriving DecidableEq, Repr

/-- An update message as held in the weir (R253). -/
structure WeirMsg where
  table : Nat
  row : Nat
  step : Nat
  mult : Nat
  grad : List Word
  poison : Bool := false
  /-- where its bytes lie in external memory, and how many they are -/
  addr : Nat := 0
  bytes : Nat := 0
deriving DecidableEq, Repr

/-- One row on its way to a new owner (R210, R330), at the old owner. -/
structure Move where
  table : Nat
  row : Nat
  dest : Nat
  /-- OFFER and STATE packets not yet answered -/
  unanswered : Nat
  /-- the row was OWNED in this engine's migration basin -/
  wasOwned : Bool
deriving DecidableEq, Repr

/-- A row arriving from an old owner before its last packet is answered (R330). -/
structure Inbound where
  table : Nat
  row : Nat
  src : Nat
  image : List Byte
  stateBytes : Nat
  state : List Byte
  step : Nat
  /-- units of the image and of the state so far arrived poisoned (R331), and when the last packet arrived -/
  bad : Bool := false
  stateBad : Bool := false
  since : Nat := 0
deriving DecidableEq, Repr

/-- A table operation that pauses barges (R216, R218). -/
structure TablePause where
  j : Nat
  table : Nat
  /-- REPLACE, else DELETE -/
  replace : Bool
  since : Nat
  /-- barges of the paused moorings running at acceptance, by mask -/
  moorings : BitVec 16
deriving DecidableEq, Repr

/-- The row store, its look-ups and updates beyond what memory and registers hold. -/
structure Rows where
  /-- promotion candidates, oldest first (R205) -/
  promote : List (Nat × Nat) := []
  demote : List (Nat × Nat) := []
  /-- a step closed during the running window (R205) -/
  closedInWindow : Bool := false
  skew : SMap Skew := []
  windowNo : Nat := 0
  windowStart : Nat := 0
  /-- a ROW commit has taken effect since the last reset (R220) -/
  adopted : Bool := false
  /-- the INIT clearing of a ROW commit is running (R220) -/
  clearing : Bool := false
  /-- FORMER slots and the time they become FREE (R217) -/
  former : List (Nat × Nat) := []
  /-- exception entries that a FORMER entry's table had at its REPLACE: table, row, entry (R217) -/
  formerRows : List (Nat × Nat × Nat) := []
  pauses : List TablePause := []
  moves : List Move := []
  /-- entries of the running migration list for rows whose move is not yet settled -/
  migRest : List Nat := []
  inbound : List Inbound := []
  /-- migration-basin sectors in use, as (first, count) -/
  basin : List (Nat × Nat) := []
  /-- a committed migration list waits for its step close -/
  migPending : Bool := false
  /-- ROUTE notices of the list not yet acknowledged -/
  notices : Nat := 0
  /-- PROVISIONAL entries and the time each was written (R212) -/
  provisional : List (Nat × Nat × Nat) := []
  merge : List MergeEnt := []
  weir : List WeirMsg := []
  /-- weir header (R458): its check holds, LAST_APPLIED, APPLYING, highest merged step -/
  weirGood : Bool := false
  weirApplied : Nat := 0
  weirApplying : Option Nat := none
  weirHighest : Option Nat := none
  /-- the weir that the header was last written to or read from (R265) -/
  weirBase : Nat := 0
  /-- bytes of the weir used in each half -/
  weirUsed : List Nat := [0, 0]
  /-- steps whose messages are no longer taken, their half of the weir being full (R253) -/
  weirShut : List Nat := []
  /-- highest (EPOCH, SEQUENCE) merged per (SOURCE, STEP) (R250) -/
  marks : List ((Nat × Nat) × (Nat × Nat)) := []
  /-- next SEQUENCE per (owner, STEP, EPOCH) (R249) -/
  seqs : List ((Nat × Nat × Nat) × Nat) := []
  /-- a UPD commit has taken effect since the last reset (R265) -/
  updAdopted : Bool := false
  /-- update engine's generator: seed in force and draws taken (R262) -/
  seed : BitVec 64 := 0
  draws : Nat := 0
  /-- a commit changed UPD.SR_SEED since the last UPDATE (R262) -/
  reseed : Bool := false
deriving DecidableEq, Repr

/-- One slot of a gather image being filled (R225, R227). -/
structure Slot where
  table : Nat
  row : Nat
  mult : Nat
  dflt : Bool := false
  /-- fate of a failed key -/
  failed : Option Nat := none
  /-- 0 cache, 1 cache after CURRENT, 2 local, 3 remote -/
  source : Nat := 0
  step : Nat := 0
  filled : Bool := false
  pend : LockMask := 0
  /-- the image as served, at its draught -/
  draught : Nat := 0
  image : List Byte := []
  poison : Bool := false
deriving DecidableEq, Repr

/-- A GATHER whose rows are on their way (R227). -/
structure GatherRun where
  b : Nat
  i : Nat
  /-- physical region -/
  region : Nat
  /-- C.ADDR, stride in 64-byte units, format -/
  addr : Nat
  stride : Nat
  format : Nat
  sat : Nat
  dim : Nat
  rowsOfs : Nat
  keysOfs : Nat
  slots : List Slot
  /-- unique slot of each index position -/
  positions : List Nat
  /-- (manifest row, length) of each bag -/
  bags : List (Nat × Nat)
  /-- USE_PREFETCH -/
  useCache : Bool := false
  /-- pending sets: of the whole list, of each bag, of each position's key -/
  headPend : LockMask := 0
  bagPends : List LockMask := []
  keyPends : List LockMask := []
deriving DecidableEq, Repr

/-! ### The fabric (spec/13) -/

/-- What a tag was taken for. -/
inductive TagUse where
  /-- a READ or PROBE of a row for a region's row cache, with the PREFETCH that made it: barge and record -/
  | row (region table row mult : Nat) (probe : Bool) (prefetch : Option (Nat × Nat))
  /-- an update message of op `i` of barge `b`, for the listed manifest rows -/
  | update (b i : Nat) (rows : List Nat)
  /-- the fetch-add of a remote SIGNAL -/
  | fetchAdd (b i : Nat)
  /-- an OFFER or STATE packet of a move, the last of its row or not -/
  | move (table row : Nat) (last : Bool)
  /-- the CONFIRM of a move -/
  | moveConfirm (table row : Nat)
  /-- a QUERY about a PROVISIONAL row -/
  | query (table row : Nat)
  /-- a ROUTE notice -/
  | notice
  /-- gradients passed on with a moved row -/
  | passOn
deriving DecidableEq, Repr

/-- A fabric tag (R332). -/
structure TagSt where
  gen : Nat := 0
  use : Option TagUse := none
  /-- the FORWARD retry has been made (R211) -/
  retried : Bool := false
  /-- ao_us when the request was queued -/
  since : Nat := 0
  request : Packet := {}
  /-- quarantined after a timeout until this time -/
  quarantine : Option Nat := none
deriving DecidableEq, Repr

/-- States of a fabric port (R343). -/
inductive PortSt where
  | off | training | init | up | down | miswired
deriving DecidableEq, Repr

/-- A DATA flit in the replay buffer (R324). -/
structure ReplayFlit where
  seq : Nat
  vc : Nat
  frame : Nat
  content : List Byte
  sends : Nat := 1
  since : Nat := 0
deriving DecidableEq, Repr

/-- A packet queued at an output port, with its buffer class at the next hop (R336). -/
structure Queued where
  p : Packet
  cls : Nat := 0
deriving DecidableEq, Repr

/-- A fabric port (R323 to R327, R343, R437). -/
structure Port where
  st : PortSt := .off
  peer : Nat := 0
  peerPort : Nat := 0
  /-- peer's strap code and FAULT bit as announced (R391) -/
  peerStrap : Nat := 0
  rxExpect : Nat := 0
  /-- a NAK is out and every flit is discarded until the expected one arrives -/
  nakked : Bool := false
  txSeq : Nat := 0
  replay : List ReplayFlit := []
  /-- flits freed and not yet returned, and credits held, by 2 × VC + class -/
  credits : SMap Nat := []
  owed : SMap Nat := []
  queue : List Queued := []
  deficit : SMap Nat := []
  /-- VC of the round robin, and whether its turn has begun -/
  turn : Nat := 1
  inTurn : Bool := false
  /-- NAK, CREDIT and LINK_INIT flits sent, oldest first -/
  control : List (BitVec 512) := []
  /-- content bytes of the packets being received, by VC -/
  receiving : List (Nat × List Byte) := []
  replays : Nat := 0
  crcErrs : Nat := 0
  /-- time at which fpn_rst_n may be released (R437) -/
  retrain : Option Nat := none
  /-- the next DATA flit carries an inverted CRC (R414) -/
  badCrc : Bool := false
  /-- the port has been DOWN since its bit was last cleared -/
  wasDown : Bool := false
deriving DecidableEq, Repr

/-- A request that a responder holds (R333). -/
structure HeldReq where
  p : Packet
  since : Nat
deriving DecidableEq, Repr

/-- The fabric unit's transaction layer. -/
structure Fabric where
  ports : SMap Port := []
  tags : SMap TagSt := []
  /-- requests that wait for a free tag (R22), oldest first -/
  waiting : List (TagUse × Packet) := []
  /-- packets received for this engine and not yet settled -/
  inbox : List Packet := []
  /-- the ports that packets received by flits came in on, whose buffers they hold (R326) -/
  arrivals : List (Packet × Nat) := []
  heldReqs : List HeldReq := []
  /-- every packet that this engine originated, oldest first -/
  sent : List Packet := []
  /-- the next forwarded collective piece is altered (R414) -/
  badPiece : Bool := false
  /-- the position that the last evaluation made board master; none before the first (R391) -/
  master : Option Nat := none
deriving DecidableEq, Repr

/-! ### Collectives and the bell (spec/14) -/

/-- A key of the bell (R353). -/
structure BellKey where
  cls : Nat
  barrier : Bool
  collId : Nat
  use : Nat
  level : Nat
deriving DecidableEq, Repr

/-- Where a member's collective stands (R354): ARRIVE sent; OFFER sent; open, its data not yet moving; its pieces moving,
or its SCALAR message sent; C complete; its SEAL contributed; over, its barge about to end. -/
inductive CtxPhase where
  | arriving | offered | opened | moving | complete | sealing | closed
deriving DecidableEq, Repr

/-- Where the two segment buffers of a collective lie, in KiB (R355, R356). -/
inductive Claim where
  | none
  | pound (kib : Nat)
  | poolSpill (region kib : Nat)
  | extSpill (kib : Nat)
deriving DecidableEq, Repr

/-- A collective context (R357). -/
structure Ctx where
  slot : Nat
  b : Nat
  i : Nat
  key : BellKey
  /-- CKIND, RED_OP and the format code of A -/
  kind : Nat
  redOp : Nat
  format : Nat
  bytes : Nat
  segLog2 : Nat
  early : Bool
  lockId : Nat
  /-- bytes that C receives (R348) -/
  outBytes : Nat := 0
  seq : Option Nat := none
  attempt : Nat := 0
  phase : CtxPhase := .arriving
  claim : Claim := .none
  /-- the agreed segment size in KiB -/
  segKib : Nat := 0
  /-- the working data of the member, chunk after chunk (R349) -/
  work : List Byte := []
  /-- poisoned 64-byte units of the working data -/
  workPoison : List Nat := []
  /-- stage code of R358 and ring step being received -/
  stage : Nat := 0
  step : Nat := 0
  /-- bytes of that piece received so far, as they arrived -/
  got : List Byte := []
  sent : BitVec 64 := 0
  recv : BitVec 64 := 0
  fail : Bool := false
  /-- ao_us since which the piece is awaited without a packet -/
  lastRx : Nat := 0
  /-- the SEAL record, once issued -/
  sealRec : Option Nat := none
deriving DecidableEq, Repr

/-- A tier's collection of contributions to one key and upward kind (R363). -/
structure Tier where
  key : BellKey
  kind : Nat
  /-- 0 the board master's, 1 the rack master's, 2 the hall master's -/
  tier : Nat
  attempt : Nat := 0
  seq : Nat := 0
  /-- members that the contributions carry -/
  count : Nat := 0
  /-- sources whose message is held -/
  from_ : List Nat := []
  /-- the value bytes of each -/
  values : List (List Byte) := []
  fail : Bool := false
  poison : Bool := false
  /-- complete, and passed up or decided -/
  passed : Bool := false
  since : Nat := 0
deriving DecidableEq, Repr

/-- What a tier keeps of a key whose ARRIVE it has passed up: the values, and the sources below it (R354). -/
structure Arrived where
  key : BellKey
  tier : Nat
  from_ : List Nat
  value : List Byte
deriving DecidableEq, Repr

/-- A bell message waiting for its answer (R363). -/
structure BellWait where
  p : Packet
  key : BellKey
  kind : Nat
  since : Nat
deriving DecidableEq, Repr

/-- A BARRIER in flight (R255, R365). -/
structure BarrierRun where
  b : Nat
  i : Nat
  key : BellKey
  /-- the step it closes -/
  close : Option Nat
  /-- its bell message has been sent -/
  entered : Bool := false
deriving DecidableEq, Repr

/-- The fabric unit's collectives. -/
structure Coll where
  ctxs : List Ctx := []
  /-- COLLs issued, per (CLASS, COLL_ID), and BARRIERs issued, per CLASS (R353) -/
  uses : List ((Nat × Nat) × Nat) := []
  barrierUses : SMap Nat := []
  tiers : List Tier := []
  arrived : List Arrived := []
  waits : List BellWait := []
  /-- next sequence number of each level, as master -/
  nextSeq : SMap Nat := []
  /-- next sequence number to be admitted at each level, as member -/
  admitSeq : SMap Nat := []
  /-- sequence numbers that wait for an earlier one: level, number, key -/
  grants : List (Nat × Nat × BellKey) := []
  /-- the 256 most recent results of each level, newest first (R363) -/
  results : List (Nat × Packet) := []
  barriers : List BarrierRun := []
deriving DecidableEq, Repr

/-! ### The TAP, the debug page and the whole engine -/

/-- The TAP (R438, R439). -/
structure Tap where
  ir : Byte := 1
  done : Bool := true
  err : Bool := false
  rdata : Word := 0
  /-- the data register last loaded by Capture-DR -/
  dr : BitVec 64 := 0
deriving DecidableEq, Repr

/-- The host register port's last answer (R426). -/
structure RegPort where
  rdata : Word := 0
  err : Bool := false
deriving DecidableEq, Repr

/-- Errors armed by ERR_INJECT (R414). -/
structure Armed where
  /-- (page, symbols): the next word that tile or region writes -/
  sram : List (Nat × Nat) := []
  /-- (port, symbols): the next sector written through the port -/
  sector : List (Nat × Nat) := []
  /-- ports whose next row sector gets an inverted TAG_CHECK -/
  tag : List Nat := []
  /-- regions whose next monitor window fails -/
  clock : List Nat := []
  /-- stored SRAM words with inverted symbols not yet read: (word address of the chip store, symbols) -/
  latent : List (Nat × Nat) := []
deriving DecidableEq, Repr

/-- The engine. -/
structure State where
  /-- commands waiting, first in, first out -/
  pending : List Instr := []
  params : Params := {}
  /-- the 48-bit microsecond counter -/
  aoUs : BitVec 48 := 0
  rst : ResetState := {}
  /-- every register, by window address; an unlisted one reads its reset value (R444) -/
  regs : SMap Word := []
  /-- external memory data bytes, by local address (R317) -/
  ext : Mem := []
  /-- sector tags and poison, by sector number (R199) -/
  tags : SMap Tag := []
  /-- host memory as the host DMA port has seen it (R430) -/
  hostMem : Mem := []
  /-- scratchpads: tile × 4 MiB + address -/
  scratch : Mem := []
  /-- region pools: region × 24 MiB + address -/
  pool : Mem := []
  /-- the pound -/
  pound : Mem := []
  /-- marks of on-chip words: scratch word w at w, pool word w at 2^23 + w, pound at 2^24 + w -/
  marks : SMap Mark := []
  /-- keeper memory -/
  imem : Mem := []
  hq : Queues := {}
  regions : SMap Region := []
  /-- window counts of poisonings and corrections per tile (R408) -/
  tileErrs : SMap (Nat × Nat) := []
  /-- ao_us at which that window began -/
  errWindowFrom : Nat := 0
  sv : Serving := {}
  rows : Rows := {}
  gathers : List GatherRun := []
  fab : Fabric := {}
  col : Coll := {}
  tap : Tap := {}
  port : RegPort := {}
  armed : Armed := {}
  /-- per-port memory counters are registers of the selected port: (port × 16 + offset / 4) -/
  memCounts : SMap Nat := []
  /-- the model's own counter behind the free order of additions (assumption 3) -/
  picks : Nat := 0
deriving DecidableEq, Repr

/-- The engine right after reset has struck and before its release (R387, R392): every register at its reset value,
the power-on event not yet released, no store holding anything. -/
def State.reset : State := {}

end Sys2Proof.Machine
end

