-- ==== Sys2Proof/Machine/Regs.lean ====
section
/-! DEFINITION. The register map (R443, R444 and every chapter's register table): each register's page, offset, access,
the bits it has, and its reset value; and the raw reading and writing of registers. -/

namespace Sys2Proof.Machine

open Sys2Proof

/-- The access types of the scope chapter. -/
inductive Acc where
  | ro | rw | w1c | w1s | wo | rc
deriving DecidableEq, Repr

/-- One row of a register table: `count` registers, `stride` apart. `mask` holds the bits that are not rsvd and that the
access type lets software change. -/
structure RegDef where
  ofs : Nat
  acc : Acc
  mask : Nat := 0xFFFFFFFF
  reset : Nat := 0
  count : Nat := 1
  stride : Nat := 4
deriving DecidableEq, Repr

/-! ### Page indexes (R443) -/

def pGLB : Nat := 0x00
def pRST : Nat := 0x01
def pCLK : Nat := 0x02
def pPWR : Nat := 0x03
def pERR : Nat := 0x04
def pHQ : Nat := 0x05
def pLKP : Nat := 0x06
def pTOLL : Nat := 0x07
def pSPD : Nat := 0x08
def pROW : Nat := 0x09
def pGSU : Nat := 0x0A
def pUPD : Nat := 0x0B
def pFAB : Nat := 0x0C
def pVCH : Nat := 0x0D
def pCOL : Nat := 0x0E
def pMEM : Nat := 0x0F
def pREGION : Nat := 0x10
def pKEEP : Nat := 0x18
def pDBG : Nat := 0x19
def pTILE : Nat := 0x20

/-- The page index of region `r`. -/
abbrev rPage (r : Nat) : Nat := pREGION + r

/-- The page index of tile `t`. -/
abbrev tPage (t : Nat) : Nat := pTILE + t

/-- A page index that R443 lists. -/
def pageExists (page : Nat) : Bool := page ≤ 0x19 || (0x20 ≤ page && page ≤ 0x9F)

/-- Pages that hold configuration fields. -/
def hasConfig (page : Nat) : Bool := (0x03 ≤ page && page ≤ 0x0E) || (0x10 ≤ page && page ≤ 0x17)

/-! ### Offsets of the common layout (R444) -/

def oCTRL : Nat := 0x010
def oSTATUS : Nat := 0x014
def oERR_STATUS : Nat := 0x020
def oERR_MASK : Nat := 0x024
def oERR_FIRST : Nat := 0x028
def oERR_COUNT : Nat := 0x02C
def oERR_INJECT : Nat := 0x030
def oCFG_SEQ_A : Nat := 0x040
def oCFG_CRC_A : Nat := 0x044
def oCFG_SEQ_B : Nat := 0x048
def oCFG_CRC_B : Nat := 0x04C
def oCFG_COMMIT : Nat := 0x050

/-- The ERR_STATUS bits that a page's chapter names and that writing 1 clears. -/
def errBits (page : Nat) : Nat :=
  if page = pGLB then 0b011
  else if page = pRST then 0b1111
  else if page = pCLK then 0b11
  else if page = pERR then 0b11111
  else if page = pHQ then 0b11111
  else if page = pLKP then 0b11
  else if page = pTOLL then 0b1
  else if page = pSPD then 0b111
  else if page = pROW then 0b11111
  else if page = pGSU then 0b1111
  else if page = pUPD then 0b1111111
  else if page = pFAB then 0b111111
  else if page = pCOL then 0b1111
  else if page = pMEM then 0b1111
  else if pREGION ≤ page && page < pKEEP then 0b11111
  else if page = pKEEP || page = pDBG then 0b1
  else if pTILE ≤ page then 0b1110
  else 0

/-- The common registers (R444, R445, R451). CTRL and CFG_COMMIT list the bits that a plain write changes. -/
def commonRegs (page : Nat) : List RegDef :=
  [ ⟨0x000, .ro, 0, 0, 1, 4⟩, ⟨0x004, .ro, 0, 0x201, 1, 4⟩, ⟨0x008, .ro, 0, 0, 1, 4⟩,
    ⟨0x010, .rw, 0b010, 0, 1, 4⟩, ⟨0x014, .ro, 0, 0, 1, 4⟩,
    ⟨0x020, .w1c, errBits page, 0, 1, 4⟩, ⟨0x024, .rw, 0xFFFFFFFF, 0, 1, 4⟩,
    ⟨0x028, .ro, 0, 0, 1, 4⟩, ⟨0x02C, .ro, 0, 0, 1, 4⟩, ⟨0x030, .wo, 0, 0, 1, 4⟩,
    ⟨0x040, .rw, 0xFFFFFFFF, 0, 4, 4⟩, ⟨0x050, .w1c, 0x80000000, 0, 1, 4⟩ ]

/-- R452, R440. -/
def glbRegs : List RegDef :=
  [ ⟨0xF00, .ro, 0, 0x0C070201, 1, 4⟩, ⟨0xF04, .ro, 0, 0, 4, 4⟩, ⟨0xF80, .rc, 0, 0, 4, 4⟩ ]

/-- R399. -/
def rstRegs : List RegDef :=
  [ ⟨0x060, .wo, 0, 0, 1, 4⟩, ⟨0x064, .rw, 0x0000FFFF, 0, 1, 4⟩, ⟨0x068, .wo, 0, 0, 1, 4⟩,
    ⟨0x06C, .w1c, 0x80000000, 0, 1, 4⟩, ⟨0xF00, .w1c, 0x1FF, 0, 1, 4⟩, ⟨0xF04, .w1c, 0xFFFFFFFF, 0, 5, 4⟩,
    ⟨0xF18, .ro, 0, 0, 2, 4⟩ ]

/-- R400. -/
def clkRegs : List RegDef :=
  [ ⟨0x060, .rw, 0xFF, 0, 1, 4⟩, ⟨0x064, .rw, 0x1F, 0, 1, 4⟩, ⟨0xF00, .ro, 0, 0, 2, 4⟩, ⟨0xF08, .rc, 0, 0, 1, 4⟩ ]

/-- R401. -/
def pwrRegs : List RegDef :=
  [ ⟨0x100, .rw, 0xFFFF, 0xAAAA, 1, 4⟩, ⟨0x104, .rw, 0xFFFFFF, 0xC8, 1, 4⟩, ⟨0x108, .rw, 0xFFFFFF, 0xF4240, 1, 4⟩,
    ⟨0xF00, .ro, 0, 0xFFFF, 1, 4⟩, ⟨0xF04, .rc, 0, 0, 2, 4⟩ ]

/-- R415. -/
def errRegs : List RegDef :=
  [ ⟨0x100, .rw, 0xFFFF00FF, 4, 1, 4⟩, ⟨0x104, .rw, 0xFFFFFF, 0xF4240, 1, 4⟩, ⟨0x108, .rw, 0xFF07, 0, 1, 4⟩,
    ⟨0xF00, .ro, 0, 0, 5, 4⟩, ⟨0xF14, .rc, 0, 0, 3, 4⟩, ⟨0xF20, .ro, 0, 0, 5, 4⟩, ⟨0xF34, .rc, 0, 0, 1, 4⟩ ]

/-- R81. -/
def hqRegs : List RegDef :=
  [ ⟨0x060, .wo, 0, 0, 1, 4⟩, ⟨0x064, .rw, 0x7F, 0, 1, 4⟩, ⟨0x068, .ro, 0, 0, 2, 4⟩,
    ⟨0x100, .rw, 0xFFFFFFFF, 0, 64, 12⟩, ⟨0x104, .rw, 0xFFFFFFFF, 0, 64, 12⟩, ⟨0x108, .rw, 0xC01F003F, 0, 64, 12⟩,
    ⟨0x400, .rw, 0xFFFFFFFF, 0, 64, 12⟩, ⟨0x404, .rw, 0xFFFFFFFF, 0, 64, 12⟩, ⟨0x408, .rw, 0xDFFFFFFF, 0, 64, 12⟩,
    ⟨0x700, .rw, 0xFFFFFFFF, 0, 1, 4⟩, ⟨0x704, .rw, 0xFFFF, 0, 1, 4⟩, ⟨0x708, .rw, 0x1F, 0, 1, 4⟩,
    ⟨0x70C, .rw, 0xFFFFFFFF, 0, 1, 4⟩, ⟨0x710, .rw, 0xFFFF, 0, 1, 4⟩, ⟨0x714, .rw, 0x3F03, 0, 1, 4⟩,
    ⟨0xF00, .rc, 0, 0, 2, 4⟩, ⟨0xF08, .ro, 0, 0, 3, 4⟩ ]

/-- R294, R314, R315. -/
def lkpRegs : List RegDef :=
  [ ⟨0x070, .wo, 0, 0, 1, 4⟩, ⟨0x074, .rw, 0xF, 0, 1, 4⟩,
    ⟨0x100, .rw, 0x80000000, 0, 16, 32⟩, ⟨0x104, .rw, 0xFFFF, 0, 16, 32⟩, ⟨0x108, .rw, 0xFFFF, 0, 16, 32⟩,
    ⟨0x10C, .rw, 0xFFFF, 0, 16, 32⟩, ⟨0x110, .rw, 0xFFFFFFFF, 0, 16, 32⟩, ⟨0x114, .rw, 0xFFFF, 0, 16, 32⟩,
    ⟨0x118, .rw, 0xFFFFFF, 0, 16, 32⟩, ⟨0x300, .rw, 0x8F0FFFFF, 0, 4, 4⟩, ⟨0x310, .rw, 0x71FF, 0, 1, 4⟩,
    ⟨0x314, .rw, 0xFFFFFFFF, 0, 1, 4⟩, ⟨0x318, .rw, 0xFFFF, 0, 1, 4⟩, ⟨0x31C, .rw, 0xFFFF, 0x190, 1, 4⟩,
    ⟨0x320, .rw, 0xFFFFFFFF, 0, 1, 4⟩, ⟨0x324, .rw, 0xFFFF, 0, 1, 4⟩, ⟨0x328, .rw, 0x0FFF003F, 0, 1, 4⟩,
    ⟨0x32C, .rw, 0x8000FF01, 0, 1, 4⟩, ⟨0x400, .rw, 0xFFFFFFFF, 0, 256, 4⟩,
    ⟨0xF00, .ro, 0, 0, 32, 4⟩, ⟨0xF80, .ro, 0, 0, 1, 4⟩, ⟨0xF84, .rc, 0, 0, 5, 4⟩, ⟨0xF98, .ro, 0, 0, 1, 4⟩,
    ⟨0xF9C, .rc, 0, 0, 1, 4⟩, ⟨0xFA0, .ro, 0, 0, 1, 4⟩, ⟨0xFA4, .rc, 0, 0, 6, 4⟩, ⟨0xFBC, .ro, 0, 0, 1, 4⟩,
    ⟨0xFC0, .rc, 0, 0, 1, 4⟩, ⟨0xFC4, .ro, 0, 0, 2, 4⟩, ⟨0xFCC, .rc, 0, 0, 1, 4⟩, ⟨0xFD0, .ro, 0, 0, 1, 4⟩,
    ⟨0xFD4, .rc, 0, 0, 1, 4⟩ ]

/-- R296. -/
def tollRegs : List RegDef :=
  [ ⟨0x070, .rw, 0x3FFF, 0, 1, 4⟩, ⟨0x074, .ro, 0, 0, 2, 4⟩,
    ⟨0x100, .rw, 0xFFFFFFFF, 0, 1, 4⟩, ⟨0x104, .rw, 0xFFFF, 0, 1, 4⟩, ⟨0x108, .rw, 0xFFFFFFFF, 0, 1, 4⟩,
    ⟨0x10C, .rw, 0xFFFFFF, 0, 1, 4⟩, ⟨0x110, .rw, 0xFFFFFFFF, 0x00800040, 1, 4⟩, ⟨0x114, .rw, 0xFFFFFFFF, 0, 1, 4⟩,
    ⟨0x118, .rw, 0xFFFF, 0, 1, 4⟩, ⟨0x11C, .rw, 0xFFFFFFFF, 0, 1, 4⟩, ⟨0x120, .rw, 0xFF03, 0, 1, 4⟩,
    ⟨0xF00, .ro, 0, 0, 1, 4⟩, ⟨0xF04, .rc, 0, 0, 3, 4⟩, ⟨0xF10, .ro, 0, 0, 1, 4⟩ ]

/-- R175, R191. -/
def spdRegs : List RegDef :=
  [ ⟨0x070, .rw, 0x01FFFFFF, 0, 1, 4⟩, ⟨0x074, .ro, 0, 0, 2, 4⟩,
    ⟨0x100, .rw, 0xFFFFFFFF, 0, 16, 16⟩, ⟨0x104, .rw, 0xFFFF, 0, 16, 16⟩,
    ⟨0x108, .rw, 0x8FFFF01F, 0x02000000, 16, 16⟩, ⟨0x10C, .rw, 0x3FFF, 0, 16, 16⟩,
    ⟨0x200, .rw, 0x3FFF, 0x1000, 1, 4⟩, ⟨0x204, .rw, 0xFFF, 0x200, 1, 4⟩, ⟨0x208, .rw, 0x01FFFFFF, 0, 1, 4⟩,
    ⟨0x20C, .rw, 0x3FFF, 0x800, 1, 4⟩, ⟨0xF00, .rc, 0, 0, 10, 4⟩, ⟨0xF28, .ro, 0, 0, 1, 4⟩ ]

/-- R219. -/
def rowRegs : List RegDef :=
  [ ⟨0x100, .rw, 0xFFFFFFFF, 0, 6, 8⟩, ⟨0x104, .rw, 0xFFFF, 0, 6, 8⟩, ⟨0x130, .rw, 0x1F, 0, 2, 4⟩,
    ⟨0x138, .rw, 0x1FFF, 0, 1, 4⟩, ⟨0x13C, .rw, 0x0FFFFFFF, 0, 1, 4⟩, ⟨0x140, .rw, 0xFFFFFFFF, 0, 1, 4⟩,
    ⟨0x144, .rw, 0xFFFFFF01, 0, 1, 4⟩, ⟨0x148, .rw, 0xFFFF, 0, 1, 4⟩, ⟨0x14C, .rw, 0x1FFFF, 0, 1, 4⟩,
    ⟨0x150, .rw, 0xFF03, 0, 1, 4⟩, ⟨0xF00, .ro, 0, 0, 4, 4⟩, ⟨0xF10, .rc, 0, 0, 13, 4⟩ ]

/-- R241. -/
def gsuRegs : List RegDef :=
  [ ⟨0x100, .rw, 0x01FFFFFF, 0, 1, 4⟩, ⟨0x104, .rw, 0x3FFF, 0x400, 1, 4⟩, ⟨0xF00, .rc, 0, 0, 15, 4⟩ ]

/-- R264. -/
def updRegs : List RegDef :=
  [ ⟨0x100, .rw, 0x01FFFFFF, 0, 1, 4⟩, ⟨0x104, .rw, 0x3FFF, 0x800, 1, 4⟩, ⟨0x108, .rw, 0xFFFFFFFF, 0, 1, 4⟩,
    ⟨0x10C, .rw, 0xFFFF, 0, 1, 4⟩, ⟨0x110, .rw, 0xFFFF, 0, 1, 4⟩, ⟨0x114, .rw, 0xFFFFFFFF, 0, 1, 4⟩,
    ⟨0x118, .rw, 0xFFFF, 0, 1, 4⟩, ⟨0x11C, .rw, 0x3FFF, 0, 1, 4⟩, ⟨0x120, .rw, 0xFFFFFFFF, 0, 3, 4⟩,
    ⟨0x12C, .rw, 0x1, 0, 1, 4⟩, ⟨0xF00, .ro, 0, 0, 2, 4⟩, ⟨0xF08, .rc, 0, 0, 3, 4⟩, ⟨0xF14, .ro, 0, 0, 1, 4⟩,
    ⟨0xF18, .rc, 0, 0, 8, 4⟩, ⟨0xF38, .ro, 0, 0, 2, 4⟩, ⟨0xF40, .rc, 0, 0, 1, 4⟩ ]

/-- R343, R344. -/
def fabRegs : List RegDef :=
  [ ⟨0x070, .rw, 0x1F, 0, 1, 4⟩, ⟨0x074, .ro, 0, 0, 1, 4⟩, ⟨0x078, .rc, 0, 0, 2, 4⟩,
    ⟨0x100, .rw, 0x1FF8, 0, 1, 4⟩, ⟨0x104, .rw, 0x1F7F0F, 0, 1, 4⟩, ⟨0x108, .rw, 0x1FFF, 0, 2, 4⟩,
    ⟨0x110, .rw, 0xFFFFF, 0x3E8, 1, 4⟩, ⟨0x114, .rw, 0xF, 0xC, 1, 4⟩, ⟨0x118, .rw, 0xFF, 0xD4, 1, 4⟩,
    ⟨0x11C, .rw, 0xFFFFFF, 0, 1, 4⟩, ⟨0x120, .rw, 0xFF01, 0, 1, 4⟩, ⟨0xF00, .ro, 0, 0, 2, 4⟩,
    ⟨0xF08, .ro, 0, 0x3E8, 1, 4⟩, ⟨0xF0C, .rc, 0, 0, 7, 4⟩, ⟨0xF28, .ro, 0, 0, 1, 4⟩, ⟨0xF2C, .rc, 0, 0, 1, 4⟩ ]

/-- R345. -/
def vchRegs : List RegDef :=
  [ ⟨0x100, .rw, 0xFFFFFFFF, 0x40204020, 1, 4⟩, ⟨0x104, .rw, 0xFFFFFF, 0x1030, 1, 4⟩, ⟨0xF00, .rc, 0, 0, 16, 4⟩ ]

/-- R368. -/
def colRegs : List RegDef :=
  [ ⟨0x100, .rw, 0x1FFFF, 0x4000, 1, 4⟩, ⟨0x104, .rw, 0x1FFFF, 0x6000, 2, 4⟩, ⟨0x10C, .rw, 0x01FFFFFF, 0, 1, 4⟩,
    ⟨0x110, .rw, 0x3FFF, 0, 1, 4⟩, ⟨0x114, .rw, 0xFFFFFFFF, 0, 1, 4⟩, ⟨0x118, .rw, 0xFFFF, 0, 2, 4⟩,
    ⟨0x120, .rw, 0xFFFF, 0x10, 1, 4⟩, ⟨0x124, .rw, 0xFFFFFF, 0, 1, 4⟩, ⟨0x128, .rw, 0x1, 0, 1, 4⟩,
    ⟨0xF00, .ro, 0, 0, 2, 4⟩, ⟨0xF08, .rc, 0, 0, 10, 4⟩, ⟨0xF30, .ro, 0, 0, 1, 4⟩ ]

/-- R441. -/
def memRegs : List RegDef :=
  [ ⟨0x070, .rw, 0xF, 0, 1, 4⟩, ⟨0x074, .ro, 0, 0, 1, 4⟩, ⟨0x078, .rc, 0, 0, 7, 4⟩ ]

/-- R47, R141, R382. -/
def regionRegs : List RegDef :=
  [ ⟨0x1C0, .rw, 0xFFFFFFFF, 0, 2, 4⟩, ⟨0x1C8, .rw, 0x1, 0, 1, 4⟩, ⟨0xF40, .rc, 0, 0, 2, 4⟩, ⟨0xF48, .ro, 0, 0, 1, 4⟩,
    ⟨0xF4C, .rc, 0, 0, 4, 4⟩ ]

/-- R453. -/
def keepRegs : List RegDef :=
  [ ⟨0x060, .rw, 0x3FFFC, 0, 1, 4⟩, ⟨0x064, .rw, 0, 0, 1, 4⟩, ⟨0xF00, .ro, 0, 0, 3, 4⟩ ]

/-- R140, R454. -/
def dbgRegs : List RegDef :=
  [ ⟨0x060, .rw, 0x07FF0000, 0, 1, 4⟩, ⟨0x064, .rw, 0xFFFFFFC0, 0, 1, 4⟩, ⟨0x068, .rw, 0xFFF, 0, 1, 4⟩,
    ⟨0xF00, .ro, 0, 0, 1, 4⟩, ⟨0xF40, .ro, 0, 0, 16, 4⟩ ]

/-- R455. -/
def tileRegs : List RegDef := [ ⟨0xF00, .rc, 0, 0, 3, 4⟩ ]

/-- The page-specific registers of a page. -/
def ownRegs (page : Nat) : List RegDef :=
  if page = pGLB then glbRegs else if page = pRST then rstRegs else if page = pCLK then clkRegs
  else if page = pPWR then pwrRegs else if page = pERR then errRegs else if page = pHQ then hqRegs
  else if page = pLKP then lkpRegs else if page = pTOLL then tollRegs else if page = pSPD then spdRegs
  else if page = pROW then rowRegs else if page = pGSU then gsuRegs else if page = pUPD then updRegs
  else if page = pFAB then fabRegs else if page = pVCH then vchRegs else if page = pCOL then colRegs
  else if page = pMEM then memRegs else if pREGION ≤ page && page < pKEEP then regionRegs
  else if page = pKEEP then keepRegs else if page = pDBG then dbgRegs
  else if pTILE ≤ page && page ≤ 0x9F then tileRegs else []

/-- Row `d` of a table covers offset `o`. -/
def RegDef.covers (d : RegDef) (o : Nat) : Bool :=
  d.ofs ≤ o && (o - d.ofs) % d.stride == 0 && (o - d.ofs) / d.stride < d.count

/-- The bank-A offset of an offset of either bank (R444). -/
def bankA (o : Nat) : Nat := if 0x800 ≤ o && o < 0xF00 then o - 0x700 else o

/-- The table row of the register at offset `o` of a page; none for a rsvd register (R444). -/
def regDef? (page o : Nat) : Option RegDef :=
  if o < 0x060 then (commonRegs page).find? (·.covers o) else (ownRegs page).find? (·.covers (bankA o))

/-- The vector table and pending bit array (R428), by window address. -/
def tableDef? (a : Nat) : Option RegDef :=
  if 0xF0000 ≤ a && a < 0xF1000 then
    (if a % 16 = 0 then some ⟨a, .rw, 0xFFFFFFFC, 0, 1, 4⟩
     else if a % 16 = 4 || a % 16 = 8 then some ⟨a, .rw, 0xFFFFFFFF, 0, 1, 4⟩
     else if a % 16 = 12 then some ⟨a, .rw, 1, 1, 1, 4⟩ else none)
  else if 0xF1000 ≤ a && a < 0xF1020 && a % 4 = 0 then some ⟨a, .ro, 0, 0, 1, 4⟩
  else none

/-- The register at a window address. -/
def windowDef? (a : Nat) : Option RegDef :=
  if a < 0xA0000 then (if pageExists (a / 0x1000) then regDef? (a / 0x1000) (a % 0x1000) else none) else tableDef? a

/-- An address that no page and no table holds (R427, R443). -/
def unmapped (a : Nat) : Bool :=
  !((a < 0xA0000 && pageExists (a / 0x1000)) || (0xF0000 ≤ a && a < 0xF1020))

/-- What a register reads as before anything is written to it. -/
def regReset (a : Nat) : Word :=
  match windowDef? a with
  | some d => BitVec.ofNat 32 d.reset
  | none => 0

/-- The register at offset `o` of a page, as held. -/
def State.reg (s : State) (page o : Nat) : Word := SMap.get regReset s.regs (page * 0x1000 + o)

/-- The register as a number. -/
def State.regN (s : State) (page o : Nat) : Nat := (s.reg page o).toNat

/-- A register set. -/
def State.setReg (s : State) (page o : Nat) (v : Word) : State :=
  { s with regs := SMap.put regReset s.regs (page * 0x1000 + o) v }

/-- A register set to a number. -/
def State.setRegN (s : State) (page o v : Nat) : State := s.setReg page o (BitVec.ofNat 32 v)

/-- A counter of a page advanced, saturating at 0xFFFF_FFFF. -/
def State.count (s : State) (page o : Nat) (n : Nat := 1) : State :=
  if n = 0 then s else s.setRegN page o (satAdd 32 (s.regN page o) n)

/-- STATUS.ACTIVE_BANK: bank B is in force (R446). -/
def State.bankB (s : State) (page : Nat) : Bool := bitOf (s.reg page oSTATUS) 3

/-- The field register at bank-A offset `o` of the bank in force. -/
def State.cfg (s : State) (page o : Nat) : Word :=
  if s.bankB page then s.reg page (o + 0x700) else s.reg page o

/-- It as a number. -/
def State.cfgN (s : State) (page o : Nat) : Nat := (s.cfg page o).toNat

/-- An address whose low word lies at `o` and whose high half lies above it. -/
def State.cfgAddr (s : State) (page o : Nat) : Nat := (s.cfg page (o + 4) ++ s.cfg page o).toNat

/-- The inactive bank's field register. -/
def State.cfgNew (s : State) (page o : Nat) : Word :=
  if s.bankB page then s.reg page o else s.reg page (o + 0x700)

/-- It as a number. -/
def State.cfgNewN (s : State) (page o : Nat) : Nat := (s.cfgNew page o).toNat

/-- An address of the inactive bank. -/
def State.cfgNewAddr (s : State) (page o : Nat) : Nat := (s.cfgNew page (o + 4) ++ s.cfgNew page o).toNat

end Sys2Proof.Machine
end

