-- ==== Sys2Proof/Machine/Flags.lean ====
section
/-! DEFINITION. Error flags (R415, R416, R444, R447), interrupt messages (R429), and the two summaries. -/

namespace Sys2Proof.Machine

open Sys2Proof

/-! ### Interrupt messages -/

/-- A register of the vector table (R428). -/
def State.vec (s : State) (v o : Nat) : Word := SMap.get regReset s.regs (0xF0000 + 16 * v + o)

/-- The pending bit of vector `v`. -/
def State.irqPending (s : State) (v : Nat) : Bool :=
  bitOf (SMap.get regReset s.regs (0xF1000 + 4 * (v / 32))) (v % 32)

/-- It set or cleared. -/
def State.setIrqPending (s : State) (v : Nat) (b : Bool) : State :=
  let a := 0xF1000 + 4 * (v / 32)
  let w := SMap.get regReset s.regs a
  let m := BitVec.ofNat 32 (2 ^ (v % 32))
  { s with regs := SMap.put regReset s.regs a (if b then w ||| m else w &&& ~~~m) }

/-- The message of vector `v` is offered, and the integrator takes it (R429; assumption 14). -/
def State.sendIrq (s : State) (v : Nat) : State :=
  { s with hq := { s.hq with messages := s.hq.messages ++ [(v, s.vec v 4 ++ s.vec v 0, s.vec v 8)] } }.count pGLB 0xF8C

/-- MASK is 1 or im_hold is high (R429). -/
def State.irqHeld (s : State) (v : Nat) : Bool := bitOf (s.vec v 12) 0 || s.hq.imHold

/-- An event raises vector `v` with every write it reports acknowledged (R429). -/
def State.raiseNow (s : State) (v : Nat) : State :=
  if s.irqHeld v then s.setIrqPending v true else s.sendIrq v

/-- An event raises vector `v`; it waits for the acknowledges of the host writes with the listed tags (R429). -/
def State.raise (s : State) (v : Nat) (tags : List Nat := []) : State :=
  if tags.isEmpty then s.raiseNow v else { s with hq := { s.hq with irqWait := s.hq.irqWait ++ [(v, tags)] } }

/-- A pending vector that nothing holds any more is offered once, and its bit clears (R429). -/
def State.offerPending (s : State) (v : Nat) : State :=
  if s.irqPending v && !s.irqHeld v then (s.setIrqPending v false).sendIrq v else s

/-! ### Error flags -/

/-- A page's ERR_STATUS. -/
def State.errStatus (s : State) (page : Nat) : Word := s.reg page oERR_STATUS

/-- An event that a page's ERR_STATUS records under bit `b` (R416, R447). -/
def State.err (s : State) (page b : Nat) : State :=
  let old := s.errStatus page
  let s1 := s.setReg page oERR_STATUS (old ||| BitVec.ofNat 32 (2 ^ b))
  let s2 := if old = 0 then s1.setReg page oERR_FIRST (BitVec.ofNat 32 (b * 2 ^ 24 + s.aoUs.toNat % 2 ^ 24)) else s1
  let s3 := s2.count page oERR_COUNT
  if !bitOf old b && !bitOf (s.reg page oERR_MASK) b && bitOf (s.cfg pERR 0x108) 1 then
    s3.raise (fld (s.cfg pERR 0x108) 15 8)
  else s3

/-- ERR_STATUS bits cleared by writing 1; `err` writes ERR_FIRST anew once all are zero (R416). -/
def State.clearErr (s : State) (page : Nat) (ones : Word) : State :=
  s.setReg page oERR_STATUS (s.errStatus page &&& ~~~(ones &&& BitVec.ofNat 32 (errBits page)))

/-- A page has an unmasked ERR_STATUS bit set (R415). -/
def State.errUnmasked (s : State) (page : Nat) : Bool := s.errStatus page &&& ~~~(s.reg page oERR_MASK) ≠ 0

/-- ERR.SUMMARY (R415). -/
def State.summary (s : State) : Nat := ofBits ((List.range 26).filter s.errUnmasked)

/-- ERR.TILE_SUMMARYn (R415). -/
def State.tileSummary (s : State) (n : Nat) : Nat := ofBits ((List.range 32).filter fun j => s.errUnmasked (tPage (32 * n + j)))

/-- Tile `t` is quarantined (R408). -/
def State.tileQuar (s : State) (t : Nat) : Bool := bitOf (s.reg pERR (0xF20 + 4 * (t / 32))) (t % 32)

/-- The bit of ERR.QUAR_TILEn. -/
def State.setTileQuar (s : State) (t : Nat) (b : Bool) : State :=
  let w := s.reg pERR (0xF20 + 4 * (t / 32))
  let m := BitVec.ofNat 32 (2 ^ (t % 32))
  s.setReg pERR (0xF20 + 4 * (t / 32)) (if b then w ||| m else w &&& ~~~m)

/-- A correction in a unit's store (R403). -/
def State.corrected (s : State) (page b : Nat) : State := (s.count pERR 0xF14).err page b

/-- A poisoning event in a store that page's unit owns, recorded there under bit `b` (R405). -/
def State.poisoning (s : State) (page b : Nat) : State := ((s.count pERR 0xF18).err page b).err pERR 0

/-- A poisoning event in a store without a UE bit of its own: the pound (R405, R407). -/
def State.poisoningEngine (s : State) : State := (s.count pERR 0xF18).err pERR 0

/-- A commit unit refused for poison (R406). -/
def State.refusePoison (s : State) : State := s.count pERR 0xF1C

end Sys2Proof.Machine
end

