-- ==== Sys2Proof/Machine/Store.lean ====
section
/-! DEFINITION. The engine's stores: external memory and its sectors (R199, R402, R405), the on-chip SRAM with the marks
beside its 64-byte words (R118, R139, R405), and the host DMA port (R430 to R432). -/

namespace Sys2Proof.Machine

open Sys2Proof

/-! ### The maps of State, with what an unlisted key reads as -/

def State.tag (s : State) (k : Nat) : Tag := SMap.get (fun _ => {}) s.tags k
def State.setTag (s : State) (k : Nat) (t : Tag) : State := { s with tags := SMap.put (fun _ => {}) s.tags k t }
def State.mark (s : State) (k : Nat) : Mark := SMap.get (fun _ => {}) s.marks k
def State.setMark (s : State) (k : Nat) (m : Mark) : State := { s with marks := SMap.put (fun _ => {}) s.marks k m }
def State.region (s : State) (r : Nat) : Region := SMap.get (fun _ => {}) s.regions r
def State.setRegion (s : State) (r : Nat) (x : Region) : State :=
  { s with regions := SMap.put (fun _ => {}) s.regions r x }
def State.updRegion (s : State) (r : Nat) (f : Region → Region) : State := s.setRegion r (f (s.region r))

/-! ### External memory -/

/-- The populated size in bytes (R419). -/
def State.populated (s : State) : Nat := s.params.memGib * 2 ^ 30

/-- The memory port of a sector (R434). -/
def State.portOf (s : State) (sector : Nat) : Nat := sector % s.params.memPorts

/-- A counter of memory port `p`: index 0 PORT_RD_SECTORS to 6 PORT_WR_ERRS (R441). -/
def State.memCount (s : State) (p k : Nat) (n : Nat := 1) : State :=
  let key := p * 16 + k
  { s with memCounts := SMap.put (fun _ => 0) s.memCounts key (satAdd 32 (SMap.get (fun _ => 0) s.memCounts key) n) }

/-- The sectors that `n` bytes from `a` touch. -/
def sectorsOf (a n : Nat) : List Nat :=
  if n = 0 then [] else (List.range ((a + n - 1) / 512 - a / 512 + 1)).map (a / 512 + ·)

/-- The 64-byte words that `n` bytes from `a` touch. -/
def wordsOf (a n : Nat) : List Nat :=
  if n = 0 then [] else (List.range ((a + n - 1) / 64 - a / 64 + 1)).map (a / 64 + ·)

/-- Bytes of external memory. -/
def State.ext? (s : State) (a n : Nat) : List Byte := Mem.read s.ext a n

/-- A number in external memory (R10). -/
def State.extNat (s : State) (a n : Nat) : Nat := Mem.nat s.ext a n

/-- A sector that the bytes touch reads poisoned. -/
def State.extPoison (s : State) (a n : Nat) : Bool := (sectorsOf a n).any fun k => (s.tag k).poison

/-- The addresses of the units of `u` bytes, from `base` on within `n` bytes, that hold a byte other than zero. -/
def State.listed (s : State) (base n u : Nat) : List Nat :=
  ((s.ext.filter fun (a, _) => base ≤ a && a < base + n).map fun (a, _) => base + (a - base) / u * u).eraseDups

/-- The first item of a list that meets `p`, and the list without it. -/
def takeFirst {α : Type} (p : α → Bool) : List α → Option α × List α
  | [] => (none, [])
  | x :: xs => if p x then (some x, xs) else let (o, r) := takeFirst p xs; (o, x :: r)

/-- The mark of one sector after a write of the bytes (R199, R405), with the errors armed for its port (R414). `new` is
the tag the write leaves. -/
def State.writeTag (s : State) (a n : Nat) (new : Tag) (poison : Bool) (k : Nat) : State :=
  let old := s.tag k
  let whole := decide (a ≤ 512 * k) && decide (512 * k + 512 ≤ a + n)
  let p := s.portOf k
  let (inj, restS) := takeFirst (·.1 == p) s.armed.sector
  let (injT, restT) := if new.kind = 0 then (none, s.armed.tag) else takeFirst (· == p) s.armed.tag
  let s := { s with armed := { s.armed with sector := restS, tag := restT } }
  let s := if injT.isSome then s.count pERR 0xF34 else s
  let s := match inj with
    | some (_, 0) => (s.count pERR 0xF34).poisoning pMEM 1
    | some _ => s.count pERR 0xF34
    | none => s
  s.setTag k { new with
    poison := poison || (old.poison && !whole) || inj == some (p, 0)
    bad := injT.isSome
    latent := match inj with | some (_, n) => n | none => 0 }

/-- A write of bytes to external memory that leaves the given tag on every sector it touches (R199). -/
def State.extWriteTag (s : State) (a : Nat) (bs : List Byte) (new : Tag) (poison : Bool := false) : State :=
  (sectorsOf a bs.length).foldl (fun s k => s.writeTag a bs.length new poison k) { s with ext := Mem.write s.ext a bs }

/-- This engine's id: FAB.SELF_ID as in force (R344). -/
def State.selfId (s : State) : Nat := s.regN pFAB 0xF00 % 2 ^ 13

/-- A write of bytes to external memory that holds no rows (R199). -/
def State.extWrite (s : State) (a : Nat) (bs : List Byte) (poison : Bool := false) : State :=
  s.extWriteTag a bs { kind := 0, owner := s.selfId } poison

/-- A number written to external memory. -/
def State.extPutNat (s : State) (a n v : Nat) : State := s.extWrite a (leBytes n v)

/-! ### On-chip stores -/

/-- A store of 64-byte words that ops name (R86, R316). -/
inductive Store where
  | scratch (tile : Nat)
  | pool (region : Nat)
  | pound
  | ext
deriving DecidableEq, Repr

/-- Bytes of one scratchpad and one region pool (R11). -/
def scratchBytes : Nat := 0x400000
def poolBytes : Nat := 0x1800000
def poundBytes : Nat := 0x4000000

/-- The page of the unit that owns a store. -/
def Store.page : Store → Nat
  | .scratch t => tPage t
  | .pool r => rPage r
  | .pound => pCOL
  | .ext => pMEM

/-- The key of a store's word in the map of marks. -/
def Store.key : Store → Nat → Nat
  | .scratch t, w => t * 0x10000 + w
  | .pool r, w => 2 ^ 23 + r * 0x60000 + w
  | .pound, w => 2 ^ 24 + w
  | .ext, w => 2 ^ 25 + w

/-- Bytes of a store. -/
def State.rd (s : State) (st : Store) (a n : Nat) : List Byte :=
  match st with
  | .scratch t => Mem.read s.scratch (t * scratchBytes + a) n
  | .pool r => Mem.read s.pool (r * poolBytes + a) n
  | .pound => Mem.read s.pound a n
  | .ext => Mem.read s.ext a n

/-- A number in a store. -/
def State.rdNat (s : State) (st : Store) (a n : Nat) : Nat := leNat (s.rd st a n)

/-- A word that the bytes touch is poisoned. -/
def State.poisonAt (s : State) (st : Store) (a n : Nat) : Bool :=
  match st with
  | .ext => s.extPoison a n
  | _ => (wordsOf a n).any fun w => (s.mark (st.key w)).poison

/-- The union of the pending sets of the words that the bytes touch (R118). -/
def State.pendAt (s : State) (st : Store) (a n : Nat) : LockMask :=
  (wordsOf a n).foldl (fun m w => m ||| (s.mark (st.key w)).pend) 0

/-- A word that the bytes touch is VOID (R139). -/
def State.voidAt (s : State) (st : Store) (a n : Nat) : Bool := (wordsOf a n).any fun w => (s.mark (st.key w)).void

/-- A tile's counts of poisonings and corrections in the running window (R408). -/
def State.tileErr (s : State) (t : Nat) : Nat × Nat := SMap.get (fun _ => (0, 0)) s.tileErrs t

/-- A tile is quarantined: its bit is set, and its region and the engine record it (R408). Barges that name it fail under
`State.failNamed`. -/
def State.markTileQuar (s : State) (t : Nat) : State :=
  if s.tileQuar t then s else ((s.setTileQuar t true).err (rPage (t / 16)) 4).err pERR 1

/-- A count reaches a threshold of ERR.THRESH; a threshold of 0 is none (R408). -/
def State.tooMany (s : State) (x : Nat × Nat) : Bool :=
  let th := s.cfg pERR 0x100
  (fld th 7 0 != 0 && decide (fld th 7 0 ≤ x.1)) || (fld th 31 16 != 0 && decide (fld th 31 16 ≤ x.2))

/-- One more poisoning or correction in a tile's scratchpad (R408). -/
def State.countTileErr (s : State) (st : Store) (ue : Bool) : State :=
  match st with
  | .scratch t =>
    let (u, c) := s.tileErr t
    let x := if ue then (u + 1, c) else (u, c + 1)
    let s := { s with tileErrs := SMap.put (fun _ => (0, 0)) s.tileErrs t x }
    if s.tooMany x then s.markTileQuar t else s
  | _ => s

/-- An error armed for a unit's SRAM strikes the word it writes (R414). -/
def State.strike (s : State) (st : Store) (w : Nat) : State :=
  match st with
  | .scratch _ | .pool _ =>
    match takeFirst (·.1 == st.page) s.armed.sram with
    | (some (_, n), rest) =>
      let s := { s with armed := { s.armed with sram := rest } }.count pERR 0xF34
      if n = 0 then
        ((s.poisoning st.page 2).countTileErr st true).setMark (st.key w) { s.mark (st.key w) with poison := true }
      else { s with armed := { s.armed with latent := (st.key w, n) :: s.armed.latent } }
    | (none, _) => s
  | _ => s

/-- The marks of one word after a write of bytes that touch it (R118, R139, R405): a whole word takes the value's own
marks, a part of a word adds to them. -/
def State.writeMark (s : State) (st : Store) (a n : Nat) (pend : LockMask) (poison : Bool) (w : Nat) : State :=
  let old := s.mark (st.key w)
  let whole := decide (a ≤ 64 * w) && decide (64 * w + 64 ≤ a + n)
  let s := s.setMark (st.key w)
    (if whole then { pend := pend, void := false, poison := poison && st != .ext }
     else { pend := old.pend ||| pend, void := old.void, poison := (old.poison || poison) && st != .ext })
  let s := { s with armed := { s.armed with latent := s.armed.latent.filter (·.1 != st.key w) } }
  s.strike st w

/-- Bytes written to a store with the marks of the value (R118, R405). -/
def State.wr (s : State) (st : Store) (a : Nat) (bs : List Byte) (pend : LockMask := 0) (poison : Bool := false) : State :=
  let s := match st with
    | .scratch t => { s with scratch := Mem.write s.scratch (t * scratchBytes + a) bs }
    | .pool r => { s with pool := Mem.write s.pool (r * poolBytes + a) bs }
    | .pound => { s with pound := Mem.write s.pound a bs }
    | .ext => s.extWrite a bs poison
  (wordsOf a bs.length).foldl (fun s w => s.writeMark st a bs.length pend poison w) s

/-- A number written to a store. -/
def State.wrNat (s : State) (st : Store) (a n v : Nat) (pend : LockMask := 0) : State := s.wr st a (leBytes n v) pend

/-- A read of one word meets the error stored in it (R402, R403, R405): up to 5 symbols are corrected and written back,
more are uncorrectable (assumption 15). -/
def State.seeWord (s : State) (st : Store) (w : Nat) : State :=
  match takeFirst (·.1 == st.key w) s.armed.latent with
  | (none, _) => s
  | (some (_, n), rest) =>
    let s := { s with armed := { s.armed with latent := rest } }
    if n ≤ 5 then (s.corrected st.page 1).countTileErr st false
    else ((s.poisoning st.page 2).countTileErr st true).setMark (st.key w) { s.mark (st.key w) with poison := true }

/-- A read of on-chip bytes meets the errors stored in their words. -/
def State.see (s : State) (st : Store) (a n : Nat) : State :=
  match st with
  | .ext => s
  | _ => if s.armed.latent.isEmpty then s else (wordsOf a n).foldl (fun s w => s.seeWord st w) s

/-! ### Host memory -/

/-- Bytes of host memory as last read through the host DMA port (R430; assumption 16). -/
def State.host? (s : State) (a n : Nat) : List Byte := Mem.read s.hostMem a n

/-- A unit that the bytes touch arrived with hd_rdat_err (R432). -/
def State.hostBad (s : State) (a n : Nat) : Bool := (wordsOf a n).any fun w => s.hq.badUnits.contains w

/-- The lowest number that no element of the list bears. -/
def lowestFree (used : List Nat) : Nat := ((List.range (used.length + 1)).find? fun k => !used.contains k).getD 0

/-- Bytes cut where a request would cross a 4 KiB boundary (R431), as (address, bytes). -/
def pieces4K : Nat → Nat → List Byte → List (Nat × List Byte)
  | 0, _, _ => []
  | fuel + 1, a, bs =>
    if bs.isEmpty then [] else
      let n := 4096 - a % 4096
      (a, bs.take n) :: pieces4K fuel (a + n) (bs.drop n)

/-- One host write request. It takes the lowest free tag; tags from 256 on wait for a free one (R431). -/
def State.hostWrite1 (s : State) (owner : DmaOwner) (p : Nat × List Byte) : State :=
  { s with hq := { s.hq with dmaWrites := s.hq.dmaWrites ++
      [{ tag := lowestFree (s.hq.dmaWrites.map (·.tag)), addr := p.1, bytes := p.2, owner := owner }] } }

/-- Bytes written to host memory (R430, R431). -/
def State.hostWrite (s : State) (a : Nat) (bs : List Byte) (owner : DmaOwner) : State :=
  (pieces4K (bs.length / 4096 + 2) a bs).foldl (fun s p => s.hostWrite1 owner p) s

/-- Bytes from host memory or external memory. -/
def State.loc? (s : State) (inExt : Bool) (a n : Nat) : List Byte := if inExt then s.ext? a n else s.host? a n

/-- They read poisoned or arrived with an error. -/
def State.locBad (s : State) (inExt : Bool) (a n : Nat) : Bool := if inExt then s.extPoison a n else s.hostBad a n

/-- They cannot be had: they lie outside the populated memory, read poisoned, or came with an error. -/
def State.locUnreadable (s : State) (inExt : Bool) (a n : Nat) : Bool :=
  s.locBad inExt a n || (inExt && decide (s.populated < a + n))

/-- Bytes written to host memory or external memory. -/
def State.locWrite (s : State) (inExt : Bool) (a : Nat) (bs : List Byte) (owner : DmaOwner) : State :=
  if inExt then s.extWrite a bs else s.hostWrite a bs owner

/-! ### The live engine -/

/-- The towpath answers (R392 step 3, R427). -/
def State.live (s : State) : Bool := decide (3 ≤ s.rst.step) && !s.rst.active

/-- The engine domain runs: past step 5 of R392, in no reset event, and not halted by a fatal error (R412). -/
def State.up (s : State) : Bool := decide (5 ≤ s.rst.step) && !s.rst.active && !s.rst.halted

/-- Engine time (R384). -/
def State.now (s : State) : Nat := s.aoUs.toNat

end Sys2Proof.Machine
end

