-- ==== Sys2Proof/Machine/Ops.lean ====
section
/-! DEFINITION. The queues' shared operations: queue configuration (R81), records (R67), the journal (R74, R75, R456), the
duplicate window (R73), and the settling of a fate (R71, R72). -/

namespace Sys2Proof.Machine

open Sys2Proof

/-! ### Fates (R71) -/

def fDONE : Nat := 0x00
def fDONE_LATE : Nat := 0x01
def fDONE_FALLBACK : Nat := 0x02
def fZERO : Nat := 0x03
def fDUPLICATE : Nat := 0x04
def fCANCELLED : Nat := 0x08
def fFLIP_BUSY : Nat := 0x09
def fECC : Nat := 0x10
def fTIMEOUT : Nat := 0x11
def fSEAL : Nat := 0x12
def fRESET : Nat := 0x13
def fCFG : Nat := 0x14
def fBUDGET : Nat := 0x15
def fCAPACITY : Nat := 0x16
def fISOLATED : Nat := 0x17
def fQUARANTINE : Nat := 0x18
def fFORWARD : Nat := 0x19
def fINTERNAL : Nat := 0x1F

/-! ### Queues -/

def State.sq (s : State) (n : Nat) : Sq := SMap.get (fun _ => {}) s.hq.sqs n
def State.setSq (s : State) (n : Nat) (q : Sq) : State :=
  { s with hq := { s.hq with sqs := SMap.put (fun _ => {}) s.hq.sqs n q } }
def State.cq (s : State) (n : Nat) : Cq := SMap.get (fun _ => {}) s.hq.cqs n
def State.setCq (s : State) (n : Nat) (q : Cq) : State :=
  { s with hq := { s.hq with cqs := SMap.put (fun _ => {}) s.hq.cqs n q } }

/-- SQn_CTRL and CQn_CTRL of the bank in force (R81). -/
def State.sqCtrl (s : State) (n : Nat) : Word := s.cfg pHQ (0x108 + 12 * n)
def State.cqCtrl (s : State) (n : Nat) : Word := s.cfg pHQ (0x408 + 12 * n)
def State.sqOn (s : State) (n : Nat) : Bool := bitOf (s.sqCtrl n) 31
def State.cqOn (s : State) (n : Nat) : Bool := bitOf (s.cqCtrl n) 31
def State.sqSize (s : State) (n : Nat) : Nat := 2 ^ fld (s.sqCtrl n) 20 16
def State.cqSize (s : State) (n : Nat) : Nat := 2 ^ fld (s.cqCtrl n) 28 24
def State.sqBase (s : State) (n : Nat) : Nat := s.cfgAddr pHQ (0x100 + 12 * n)
def State.cqBase (s : State) (n : Nat) : Nat := s.cfgAddr pHQ (0x400 + 12 * n)

/-- The CQ of an SQ's records. -/
def State.cqOf (s : State) (q : Nat) : Nat := fld (s.sqCtrl q) 5 0

/-- HQ_MODE.LK_CQ (R70). -/
def State.lkCq (s : State) : Nat := fld (s.cfg pHQ 0x714) 13 8

/-! ### The journal -/

def State.journalBase (s : State) : Nat := s.cfgAddr pHQ 0x700
def State.journalLog2 (s : State) : Nat := fld (s.cfg pHQ 0x708) 4 0
def State.journalAddr (s : State) (j : Nat) : Nat := s.journalBase + 4096 + 32 * j

/-- A journal entry as stored (R74). -/
def State.journalEntry (s : State) (j : Nat) : Nat := s.extNat (s.journalAddr j) 32

/-- The state bits of a journal entry: 0 FREE, 1 OPEN, 2 FATED, 3 RETIRED. -/
def State.journalState (s : State) (j : Nat) : Nat := nfld (s.journalEntry j) 27 26

/-- The index of a record kind (R67). -/
def RecKind.code : RecKind → Nat
  | .entry => 0
  | .request => 1
  | .token => 2
  | .barge => 3

/-- A record's 256 bits (R67), with its phase, or with the journal state of R74. -/
def Rec.bits (r : Rec) (phase : Bool) (jstate : Nat) : Nat :=
  r.value1 % 2 ^ 32 * 2 ^ 224 + r.value0 % 2 ^ 32 * 2 ^ 192 + r.aoUs % 2 ^ 48 * 2 ^ 128 + r.berth % 2 ^ 16 * 2 ^ 112
    + r.cookie % 2 ^ 32 * 2 ^ 64 + r.fate % 2 ^ 8 * 2 ^ 56 + r.detail % 2 ^ 8 * 2 ^ 48 + r.sqHead % 2 ^ 16 * 2 ^ 32
    + bit phase * 2 ^ 31 + r.kind.code * 2 ^ 28 + jstate * 2 ^ 26 + r.sq % 2 ^ 6 * 2 ^ 20 + r.sqIndex % 2 ^ 16

/-- A journal entry written (R75). -/
def State.journalWrite (s : State) (j : Nat) (r : Rec) (jstate : Nat) : State :=
  s.extPutNat (s.journalAddr j) 32 (r.bits false jstate)

/-- The state bits of a journal entry changed. -/
def State.journalMark (s : State) (j jstate : Nat) : State :=
  s.extPutNat (s.journalAddr j) 32 (setFld (s.journalEntry j) 27 26 jstate)

/-- The first FREE or RETIRED entry of `n`, from `j` on, modulo `n` (R75). -/
def State.journalFind (s : State) (n : Nat) : Nat → Nat → Option Nat
  | 0, _ => none
  | fuel + 1, j =>
    if s.journalState (j % n) = 0 || s.journalState (j % n) = 3 then some (j % n) else s.journalFind n fuel (j + 1)

/-- The journal index that the next allocation takes; none when every entry is OPEN or FATED (R75). -/
def State.journalNext (s : State) : Option Nat :=
  let n := 2 ^ s.journalLog2
  s.journalFind n n (s.extNat (s.journalBase + 4) 4 + 1)

/-- The header's check value stored anew (R456). -/
def State.sealHeader (s : State) : State :=
  s.extPutNat (s.journalBase + 0xFC) 4 (crc32c (s.ext? s.journalBase 0xFC)).toNat

/-- The heads of every SQ stored in the header (R75). -/
def State.storeHeads (s : State) : State :=
  (s.extWrite (s.journalBase + 0x10) ((List.range 64).flatMap fun n => leBytes 2 (s.sq n).head)).sealHeader

/-- Entry `j` allocated: written OPEN, and noted in the header as the last one (R75). -/
def State.journalOpen (s : State) (j : Nat) (r : Rec) : State :=
  ((s.journalWrite j { r with fate := 0xFF } 1).extPutNat (s.journalBase + 4) 4 j).sealHeader

/-- Journal entries OPEN or FATED (R81). -/
def State.journalOpenCount (s : State) : Nat :=
  if s.hq.configured then
    ((s.listed (s.journalBase + 4096) (32 * 2 ^ s.journalLog2) 32).filter fun a =>
      let st := nfld (s.extNat a 32) 27 26
      st = 1 || st = 2).length
  else 0

/-- A record appended to those a CQ still has to write, in the order of determination (R53). -/
def State.queueRec (s : State) (cq : Nat) (r : Rec) : State :=
  s.setCq cq { s.cq cq with pending := (s.cq cq).pending ++ [r] }

/-! ### Items -/

def State.item? (s : State) (j : Nat) : Option Item := s.hq.items.find? (·.j == j)

/-- An item changed. -/
def State.updItem (s : State) (j : Nat) (f : Item → Item) : State :=
  { s with hq := { s.hq with items := mapIf s.hq.items (·.j == j) f } }

/-- Fields of the 64-byte entry (R55). -/
def Item.f (it : Item) (hi lo : Nat) : Nat := fld it.entry hi lo
def Item.type (it : Item) : Nat := it.f 7 0
def Item.cookie (it : Item) : Nat := it.f 63 32
def Item.irq (it : Item) : Bool := bitOf it.entry 8

/-- Every listed field of an entry is zero: the rsvd fields of its type (R56). -/
def Item.zeroAt (it : Item) (fs : List (Nat × Nat)) : Bool := fs.all fun (hi, lo) => it.f hi lo == 0

/-- The key of a request in the duplicate window learns its fate (R73). -/
def State.dupFate (s : State) (j fate : Nat) : State :=
  { s with hq := { s.hq with dup := mapIf s.hq.dup (fun k => k.j == j && k.fate.isNone) fun k => { k with fate := some fate } } }

/-- FAILED_INTERNAL sets ERR.ERR_STATUS.INTERNAL (R415). -/
def State.noteFate (s : State) (fate : Nat) : State := if fate = fINTERNAL then s.err pERR 4 else s

/-- CONFIG_EPOCH records bear EPOCH whatever their fate; others the value given (R68). -/
def Item.value0 (it : Item) (v : Nat) : Nat := if it.type = 4 then it.f 95 64 else v

/-- An item leaves: its SQ is no longer held by it (R63, R64). -/
def State.dropItem (s : State) (j : Nat) : State :=
  { s with hq := { s.hq with
      items := s.hq.items.filter (·.j != j)
      sqs := s.hq.sqs.filterMap fun (n, q) =>
        let q := if q.holdBy = some j then { q with holdBy := none } else q
        if q = {} then none else some (n, q) } }

/-- The item `it` receives its one fate: its journal entry becomes FATED, and then its final record is determined
(R71, R72, R75). -/
def State.settle (s : State) (it : Item) (fate : Nat) (v0 : Nat := 0) (v1 : Nat := 0) (detail : Nat := 0)
    (berth : Nat := 0) (frees : Option Nat := none) : State :=
  let r : Rec :=
    { kind := if it.type = 2 then .request else .entry, fate := fate, detail := detail, cookie := it.cookie, sq := it.sq
      sqIndex := it.sqIndex, sqHead := (s.sq it.sq).head, berth := berth, value0 := it.value0 v0, value1 := v1, aoUs := s.now
      irq := it.irq, journal := some it.j, frees := frees }
  let s := (s.noteFate fate).journalWrite it.j r 2
  let s := if it.type = 2 then s.dupFate it.j fate else s
  (s.queueRec (s.cqOf it.sq) r).dropItem it.j

/-- The item with journal index `j` receives a fate, if it has none yet (R72). -/
def State.settleJ (s : State) (j fate : Nat) (v0 : Nat := 0) : State :=
  match s.item? j with
  | some it => s.settle it fate v0
  | none => s

/-! ### Running barges -/

def State.barge? (s : State) (b : Nat) : Option Barge := s.sv.barges.find? (·.id == b)

/-- A barge changed. -/
def State.updBarge (s : State) (b : Nat) (f : Barge → Barge) : State :=
  { s with sv := { s.sv with barges := mapIf s.sv.barges (·.id == b) f } }

/-- A barge that has started and not ended: loading, running, being saved, saved or being restored. -/
def Barge.started (b : Barge) : Bool := b.st != .waiting

/-- The barges running or saved now (R63, R451). -/
def State.startedIds (s : State) : List Nat := (s.sv.barges.filter (·.started)).map (·.id)

/-- A bank becomes active, or is rejected: the CONFIG_EPOCH items that list it take note (R63). -/
def State.noteBank (s : State) (page bank : Nat) (ok : Bool) : State :=
  { s with
    hq := { s.hq with
      items := mapIf s.hq.items (·.banks.contains (page, bank)) fun it => { it with
        banks := it.banks.filter (· != (page, bank)), rejected := it.rejected || !ok
        awaits := if ok then s.startedIds else it.awaits } } }

def State.mooring (s : State) (m : Nat) : Mooring := SMap.get (fun _ => {}) s.sv.moorings m
def State.setMooring (s : State) (m : Nat) (x : Mooring) : State :=
  { s with sv := { s.sv with moorings := SMap.put (fun _ => {}) s.sv.moorings m x } }
def State.updMooring (s : State) (m : Nat) (f : Mooring → Mooring) : State := s.setMooring m (f (s.mooring m))
def State.berth (s : State) (n : Nat) : Berth := SMap.get (fun _ => {}) s.sv.berths n
def State.setBerth (s : State) (n : Nat) (x : Berth) : State :=
  { s with sv := { s.sv with berths := SMap.put (fun _ => {}) s.sv.berths n x } }
def State.updBerth (s : State) (n : Nat) (f : Berth → Berth) : State := s.setBerth n (f (s.berth n))
def State.account (s : State) (n : Nat) : Account := SMap.get (fun _ => {}) s.sv.accounts n
def State.setAccount (s : State) (n : Nat) (x : Account) : State :=
  { s with sv := { s.sv with accounts := SMap.put (fun _ => {}) s.sv.accounts n x } }
def State.updAccount (s : State) (n : Nat) (f : Account → Account) : State := s.setAccount n (f (s.account n))

end Sys2Proof.Machine
end

