-- ==== Sys2Proof/Machine/Operands.lean ====
section
/-! DEFINITION. Op records and operand descriptors (R82 to R87): their fields, the checks that every record passes when it
is fetched, and the reading and writing of operands as rows of elements. A record is held as its 512-bit number. -/

namespace Sys2Proof.Machine

open Sys2Proof

/-! ### The header (R83) -/

def recOp (w : Nat) : Nat := nfld w 7 0
def recClass (w : Nat) : Nat := nfld w 10 8
def recRnd (w : Nat) : Nat := nfld w 13 12
def recSat (w : Nat) : Bool := nbit w 14
def recRegions (w : Nat) : Nat := nfld w 23 16
def recTiles (w : Nat) : Nat := nfld w 39 24
def recLocks (w : Nat) : LockMask := BitVec.ofNat 16 (nfld w 55 40)
def recWait0 (w : Nat) : Nat := nfld w 65 56
def recWait1 (w : Nat) : Nat := nfld w 75 66
def recSignal (w : Nat) : Nat := nfld w 85 76

/-- The parameter field P[hi:lo] (R82). -/
def recP (w hi lo : Nat) : Nat := nfld w (384 + hi) (384 + lo)

/-! ### Operands (R86) -/

structure Opd where
  space : Nat
  fmt : Nat
  scaleOfs : Nat
  stride : Nat
  addr : Nat
  /-- the two rsvd fields -/
  rsvd : Nat
deriving DecidableEq, Repr

/-- An operand descriptor read from its 96 bits. -/
def opdOf (x : Nat) : Opd :=
  { space := nfld x 95 93, fmt := nfld x 92 89, scaleOfs := nfld x 83 64, stride := nfld x 63 48, addr := nfld x 43 0
    rsvd := nfld x 88 84 + nfld x 47 44 }

def recA (w : Nat) : Opd := opdOf (nfld w 191 96)
def recB (w : Nat) : Opd := opdOf (nfld w 287 192)
def recC (w : Nat) : Opd := opdOf (nfld w 383 288)
/-- The output stream of a VEC record (R100). -/
def recOut (w : Nat) : Opd := opdOf (recP w 95 0)

def spNONE : Nat := 0
def spSCRATCH : Nat := 1
def spPOOL : Nat := 2
def spEXT : Nat := 3
def spOUT : Nat := 4

def Opd.none (o : Opd) : Bool := o.space = spNONE

/-- Bytes of a space (R86). For operands, a scratchpad ends where its U store begins (R159), and a pool where its fetch
window begins (R164). -/
def State.spaceBytes (s : State) (space : Nat) : Nat :=
  if space = spSCRATCH then scratchBytes - 1024 * s.cfgN pSPD 0x204 else if space = spPOOL then poolBytes - 1024 * s.cfgN pSPD 0x200
  else if space = spEXT then s.populated else 0

/-- Reserved values and rsvd fields of a descriptor (R86, R92). -/
def Opd.fieldsOk (o : Opd) : Bool :=
  o.rsvd == 0 && o.space ≤ 4 && o.addr % 64 == 0 && fmtOk o.fmt
    && (fmtMX o.fmt || o.scaleOfs == 0) && (!fmtMX o.fmt || o.scaleOfs != 0)
    && (o.space != spNONE || (o.fmt == 0 && o.stride == 0 && o.addr == 0 && o.scaleOfs == 0))
    && (o.space != spOUT || (o.addr == 0 && o.stride == 0 && o.scaleOfs == 0))

/-- Bytes of a packed row of `n` elements (R30). -/
def rowBytes (fmt n : Nat) : Nat :=
  let b := fmtBits fmt
  if b = 6 then 3 * divUp n 4 else if b = 4 then divUp n 2 else n * (b / 8)

/-- Blocks of 32 elements in a row (R29). -/
def rowBlocks (n : Nat) : Nat := divUp n 32

/-- Rows of an operand that are read: with STRIDE 0 every row is row 0 (R86). -/
def Opd.rowsRead (o : Opd) (rows : Nat) : Nat := if o.stride = 0 then min rows 1 else rows

/-- The rows of an operand, `n` bytes each, and its scale array, lie in its space, and its stride holds a row (R87). -/
def State.rowsFit (s : State) (o : Opd) (rows n blocks : Nat) : Bool :=
  let size := s.spaceBytes o.space
  rows == 0 || n == 0 ||
    (decide (o.addr + (rows - 1) * o.stride * 64 + n ≤ size)
      && (o.stride == 0 || decide (upTo n 64 ≤ o.stride * 64))
      && (!fmtMX o.fmt || decide (o.addr + 64 * o.scaleOfs + o.rowsRead rows * blocks ≤ size)))

/-- A raw operand of `n` bytes: FORMAT 0, STRIDE 0, inside its space (R87). -/
def State.rawFits (s : State) (o : Opd) (n : Nat) : Bool :=
  o.fmt == 0 && o.stride == 0 && decide (o.addr + n ≤ s.spaceBytes o.space)

/-- The address of row `m` of an operand (R86). -/
def Opd.row (o : Opd) (m : Nat) : Nat := o.addr + m * o.stride * 64

/-- The store an operand names, for the instance on physical region `r` and tile `j` of it (R84). -/
def Opd.store (o : Opd) (r j : Nat) : Store :=
  if o.space = spSCRATCH then .scratch (r * 16 + j) else if o.space = spPOOL then .pool r else .ext

/-- The elements of packed bytes, without block scales. -/
def unpack (fmt n : Nat) (bs : List Byte) : List Nat :=
  let x := leNat bs
  let b := fmtBits fmt
  (List.range n).map fun k => x / 2 ^ (k * b) % 2 ^ b

/-- Elements packed into bytes. -/
def pack (fmt : Nat) (es : List Nat) : List Byte :=
  let b := fmtBits fmt
  leBytes (rowBytes fmt es.length) (es.zipIdx.foldl (fun a (e, k) => a + e % 2 ^ b * 2 ^ (k * b)) 0)

/-- A block scale (R29): none for NaN. -/
def scaleExp (c : Nat) : Option Int := if c = 255 then none else some ((c : Int) - 127)

/-- The scale exponents of row `m` of an MX operand, `n` elements a row; for other formats zeros. -/
def State.scales (s : State) (o : Opd) (st : Store) (m n : Nat) : List (Option Int) :=
  if fmtMX o.fmt then
    let row := if o.stride = 0 then 0 else m
    (s.rd st (o.addr + 64 * o.scaleOfs + row * rowBlocks n) (rowBlocks n)).map fun b => scaleExp b.toNat
  else List.replicate (rowBlocks n) (some 0)

/-- The elements of row `m`, `n` of them, without block scales. -/
def State.rawRow (s : State) (o : Opd) (st : Store) (m n : Nat) : List Num :=
  (unpack o.fmt n (s.rd st (o.row m) (rowBytes o.fmt n))).map (decodeElem o.fmt)

/-- Elements with their block scales applied (R29). -/
def applyScales (sc : List (Option Int)) (xs : List Num) : List Num :=
  xs.zipIdx.map fun (x, k) => match sc.getD (k / 32) (some 0) with
    | some e => x.scale2 e
    | none => .nan

/-- The values of row `m`. -/
def State.rowVals (s : State) (o : Opd) (st : Store) (m n : Nat) : List Num :=
  applyScales (s.scales o st m n) (s.rawRow o st m n)

/-- Byte ranges that row `m` of an operand touches: its elements, and its scales. -/
def Opd.ranges (o : Opd) (m n : Nat) : List (Nat × Nat) :=
  let row := if o.stride = 0 then 0 else m
  (o.row m, rowBytes o.fmt n) ::
    (if fmtMX o.fmt then [(o.addr + 64 * o.scaleOfs + row * rowBlocks n, rowBlocks n)] else [])

/-- The bytes of an operand in external memory: none for one that lies elsewhere. -/
def Opd.extBytes (o : Opd) (n : Nat) : List (Nat × Nat) := if o.space = spEXT then [(o.addr, n)] else []

/-- The rows of an operand in external memory. -/
def Opd.extRows (o : Opd) (rows n : Nat) : List (Nat × Nat) :=
  if o.space = spEXT then (List.range rows).flatMap fun m => o.ranges m n else []

/-- Reads of several ranges of one store meet the errors stored there (R402, R403). -/
def State.seeIn (s : State) (st : Store) (rs : List (Nat × Nat)) : State :=
  if s.armed.latent.isEmpty then s else rs.foldl (fun s (a, n) => s.see st a n) s

/-- Reads of the first `rows` rows of an operand, `n` elements each, meet the errors stored there. -/
def State.seeRows (s : State) (o : Opd) (st : Store) (rows n : Nat) : State :=
  if s.armed.latent.isEmpty then s else s.seeIn st ((List.range rows).flatMap fun m => o.ranges m n)

/-! ### Marks of inputs (R118, R120, R123, R139) -/

/-- What a result inherits from its inputs. -/
structure Taint where
  pend : LockMask := 0
  poison : Bool := false
deriving DecidableEq, Repr

def Taint.join (a b : Taint) : Taint := { pend := a.pend ||| b.pend, poison := a.poison || b.poison }

/-- The marks of bytes read: a VOID word reads as poisoned (R139). -/
def State.taint (s : State) (st : Store) (a n : Nat) : Taint :=
  { pend := s.pendAt st a n, poison := s.poisonAt st a n || s.voidAt st a n }

/-- The marks of several ranges of one store. -/
def State.taintOf (s : State) (st : Store) (rs : List (Nat × Nat)) : Taint :=
  rs.foldl (fun t (a, n) => t.join (s.taint st a n)) {}

/-- The marks of row `m` of an operand. -/
def State.rowTaint (s : State) (o : Opd) (st : Store) (m n : Nat) : Taint := s.taintOf st (o.ranges m n)

/-- The rounding mode of an op that honours stochastic rounding, for the element with draw number `k` of physical region
`r` (R38 to R41). -/
def State.roundMode (s : State) (w r k : Nat) : RMode :=
  if recRnd w = 1 && !bitOf (s.cfg (rPage r) 0x1C8) 0 then
    .sr (Config.srDraw 0 (s.region r).seed ((s.region r).draws + k)).toNat
  else .rne

/-- Draws taken from a region's generator (R40). -/
def State.takeDraws (s : State) (r n : Nat) : State := s.updRegion r fun x => { x with draws := x.draws + n }

/-- Narrowing events counted in a region (R43). -/
def State.countNum (s : State) (r : Nat) (e : Nat × Nat) : State :=
  (s.count (rPage r) 0xF40 e.1).count (rPage r) 0xF44 e.2

/-! ### Writing rows (R31, R37, R42) -/

/-- Elements narrowed into a format, with block scales where the format has them, and their events. -/
structure Packed where
  bits : List Nat
  scales : List Nat := []
  ovf : Nat := 0
  nan : Nat := 0
deriving DecidableEq, Repr

def Packed.append (a b : Packed) : Packed :=
  { bits := a.bits ++ b.bits, scales := a.scales ++ b.scales, ovf := a.ovf + b.ovf, nan := a.nan + b.nan }

/-- emax of an MX element format (R31). -/
def mxEmax (fmt : Nat) : Int := if fmt = 5 then 8 else if fmt = 6 then 15 else if fmt = 7 then 4 else 2

/-- The largest finite binary32 value. -/
def maxB32 : Num := fB32.decode 0x7F7FFFFF

/-- The elements of a block whose scale is NaN (assumption 9). -/
def mxNanBits (fmt n : Nat) : List Nat := List.replicate n (Config.nanBits.toNat % 2 ^ fmtBits fmt)

/-- A finite value of 2^128 or more, which binary32 does not hold (R380). -/
def overB32 (x : Num) : Bool := x.finite && !x.abs.lt (.fin false (2 ^ 128) 1)

/-- One block converted into an MX format (R31, R43); `mode k` rounds its element `k`. A value that binary32 does not hold
is an infinity here (R380). A block of a NaN and an infinity is a NaN's, and counts nothing (assumption 79). -/
def mxBlock (fmt : Nat) (sat : Bool) (mode : Nat → RMode) (xs : List Num) : Packed :=
  let big := fun (x : Num) => overB32 x || (!x.finite && !x.isNan)
  if xs.any Num.isNan then { bits := mxNanBits fmt xs.length, scales := [255] }
  else if xs.any big && !sat then { bits := mxNanBits fmt xs.length, scales := [255], ovf := bit (xs.any overB32), nan := 1 }
  else
    let ys := xs.map fun x => if !big x then x else if x.isNeg then maxB32.neg else maxB32
    match numMax (ys.map Num.abs) with
    | .fin _ n d =>
      if n = 0 then { bits := xs.map fun _ => 0, scales := [0] }
      else
        let e := max (-127) (min 127 (flog2 n d - mxEmax fmt))
        let es := ys.zipIdx.map fun (y, k) => narrow fmt true (mode k) (y.scale2 (-e))
        { bits := es.map (·.bits), scales := [(e + 127).toNat]
          ovf := ((xs.zip es).filter fun (x, y) => big x || y.ovf != 0).length, nan := (events es).2 }
    | _ => { bits := [] }

/-- Values in blocks of 32. -/
def mxBlocks (fmt : Nat) (sat : Bool) (mode : Nat → RMode) : Nat → Nat → List Num → Packed
  | 0, _, _ => { bits := [] }
  | fuel + 1, base, xs =>
    if xs.isEmpty then { bits := [] }
    else (mxBlock fmt sat (fun k => mode (base + k)) (xs.take 32)).append
      (mxBlocks fmt sat mode fuel (base + 32) (xs.drop 32))

/-- Values narrowed into any format (R31, R37, R42). -/
def encVals (fmt : Nat) (sat : Bool) (mode : Nat → RMode) (xs : List Num) : Packed :=
  if fmtMX fmt then mxBlocks fmt sat mode (rowBlocks xs.length) 0 xs
  else
    let es := xs.zipIdx.map fun (x, k) => narrow fmt sat (mode k) x
    { bits := es.map (·.bits), ovf := (events es).1, nan := (events es).2 }

/-- Row `m` of an output operand written with the marks of its value, its events counted in physical region `r`. -/
def State.writeRow (s : State) (o : Opd) (st : Store) (r m : Nat) (sat : Bool) (mode : Nat → RMode) (xs : List Num)
    (t : Taint) : State :=
  let p := encVals o.fmt sat mode xs
  let s := s.wr st (o.row m) (pack o.fmt p.bits) t.pend t.poison
  let s := if fmtMX o.fmt then
      s.wr st (o.addr + 64 * o.scaleOfs + m * rowBlocks xs.length) (p.scales.map (BitVec.ofNat 8)) t.pend t.poison
    else s
  s.countNum r (p.ovf, p.nan)

/-- Choices of sums taken. -/
def State.takePicks (s : State) (n : Nat) : State := { s with picks := s.picks + n }

/-! ### Locks (R90, R119) -/

/-- Lock `l` is confirmed: in every region that opened it (R119). -/
def Barge.confirmed (b : Barge) (l : Nat) : Bool :=
  let cs := b.chambers.filter (·.lock == l)
  !cs.isEmpty && cs.all (·.st == .confirmed)

/-- A set of locks without those already confirmed, which add nothing (R90). -/
def Barge.openLocks (b : Barge) (m : LockMask) : LockMask :=
  BitVec.ofNat 16 (ofBits ((bitsOf m.toNat 16).filter fun l => !b.confirmed l))

/-- What a record's LOCK_SET adds to its results' pending sets (R90). -/
def Barge.lockSet (b : Barge) (w : Nat) : LockMask := b.openLocks (recLocks w)

/-! ### Executors (R84, R85) -/

inductive Executor where
  | tile | region | engine
deriving DecidableEq, Repr

/-- Opcodes with their executors (R85). -/
def executor? (w : Nat) : Option Executor :=
  let o := recOp w
  if o = 0x01 || o = 0x02 || o = 0x03 || o = 0x30 then some .tile
  else if o = 0x10 || o = 0x11 || (0x20 ≤ o && o ≤ 0x23) || o = 0x31 || o = 0x50 || o = 0x51 then some .region
  else if o = 0x24 || (0x40 ≤ o && o ≤ 0x42) || o = 0x60 || o = 0x71 || o = 0x72 then some .engine
  else if o = 0x70 then some (if recP w 0 0 = 0 then .region else .engine)
  else none

/-- The operand that sets the commit class: C, or a VEC's output stream (R85, R100). -/
def recDest (w : Nat) : Opd := if recOp w = 0x10 then recOut w else recC w

/-- The operands a record holds. -/
def recOperands (w : Nat) : List Opd :=
  [recA w, recB w, recC w] ++ (if recOp w = 0x10 then [recOut w] else [])

/-- CCLASS is a value that R85 allows. -/
def classOk (w : Nat) : Bool :=
  let o := recOp w
  let c := recClass w
  let d := (recDest w).space
  if o = 0x10 || o = 0x11 then c == (if d = spEXT then 1 else if d = spOUT then 6 else 0)
  else if o = 0x22 then c == (if d = spEXT then 1 else 0)
  else if o = 0x23 then c == 2
  else if o = 0x24 then c == 5
  else if o = 0x31 then c == 4
  else if o = 0x72 then c == (if recP w 77 77 = 1 then 2 else 1)
  else c == 0

/-- The masks follow R84. -/
def masksOk (w : Nat) : Bool :=
  let sp := (recOperands w).map (·.space)
  match executor? w with
  | some .tile => true
  | some .region => sp.contains spSCRATCH || recTiles w == 0
  | some .engine =>
    recTiles w == 0 && !sp.contains spSCRATCH
      && (if sp.contains spPOOL then (bitsOf (recRegions w) 8).length == 1 else recRegions w == 0)
  | none => false

end Sys2Proof.Machine
end

