-- ==== Sys2Proof/Machine/Barges.lean ====
section
/-! DEFINITION. Running barges: their programs (R82 to R93), the issue of records (R88, R89), failures and their scope
(R116, R139), and locks: confirmation, failure, discard and resume (R119, R124 to R127). -/

namespace Sys2Proof.Machine

open Sys2Proof

/-! ### Programs -/

/-- Where record `i` of a barge's program is fetched from: external memory, or the program copy in the pool of its first
region (R298, R301). -/
def Barge.recAt (b : Barge) (i : Nat) : Store × Nat :=
  match b.progPool with
  | some o => (.pool (b.regions.getD 0 0), o + 64 * i)
  | none => (.ext, b.program + 64 * i)

/-- Record `i` of a barge's program as it stands in memory. -/
def State.storedRec (s : State) (b : Barge) (i : Nat) : Nat := s.rdNat (b.recAt i).1 (b.recAt i).2 64

/-- Record `i` of a barge's program: as it was fetched, or as it stands in memory if it has not been (R88). -/
def State.progRec (s : State) (b : Barge) (i : Nat) : Nat := (b.ops[i]?).elim (s.storedRec b i) (·.word)

/-- The first `n` records of a barge's program. -/
def State.progRecs (s : State) (b : Barge) (n : Nat) : List Nat := (List.range n).map (s.progRec b)

/-- INDEX_COUNT and BAG_COUNT of a GATHER (R102). -/
def gIndices (w : Nat) : Nat := recP w 24 0
def gBags (w : Nat) : Nat := recP w 63 32

/-- Indices that the GATHERs of a list of records add to the barge's running total (R222). -/
def indexTotal (recs : List Nat) : Nat :=
  ((recs.filter (recOp · == 0x20)).map fun w => gIndices w * (bitsOf (recRegions w) 8).length).foldl (· + ·) 0

/-- The physical region of logical region `i` (R84). -/
def Barge.phys (b : Barge) (i : Nat) : Nat := b.regions.getD i 0

/-- The physical regions of a mask of logical ones. -/
def Barge.physOf (b : Barge) (mask : Nat) : List Nat := (bitsOf mask 8).map b.phys

/-- The logical regions that a record names for the lock rules: all of the barge's for an engine op without a mask
(R90). -/
def Barge.lockRegions (b : Barge) (w : Nat) : List Nat :=
  if executor? w == some .engine && recRegions w == 0 then List.range b.need else bitsOf (recRegions w) 8

/-- The tile instances of a record, as (physical region, tile) (R84). -/
def Barge.tiles (b : Barge) (w : Nat) : List (Nat × Nat) :=
  (b.physOf (recRegions w)).flatMap fun r => (bitsOf (recTiles w) 16).map fun j => (r, j)

/-- Some operand lies in SCRATCH, so a region op runs once for each tile of its mask (R84). -/
def recOnTiles (w : Nat) : Bool := (recOperands w).any (·.space == spSCRATCH)

/-- The instances of a region op: its tiles where an operand lies in SCRATCH, else its regions (R84). -/
def Barge.regionInstances (b : Barge) (w : Nat) : List (Nat × Nat) :=
  if recOnTiles w then b.tiles w else (b.physOf (recRegions w)).map fun r => (r, 0)

/-- Two records share an executor instance (R84, R88). -/
def shareExecutor (w v : Nat) : Bool :=
  match executor? w, executor? v with
  | some .tile, some .tile => (recRegions w &&& recRegions v) != 0 && (recTiles w &&& recTiles v) != 0
  | some .region, some .region => (recRegions w &&& recRegions v) != 0
  | some .engine, some .engine => true
  | _, _ => false

def Barge.op (b : Barge) (i : Nat) : OpRun := b.ops.getD i {}

/-- Record `i` is fetched and stands as `st`. -/
def Barge.opIs (b : Barge) (i : Nat) (st : RecSt) : Bool := i < b.ops.length && (b.op i).st == st

/-- A token is set; token 0 means none (R89). -/
def Barge.tokenSet (b : Barge) (t : Nat) : Bool := t == 0 || b.tokens.contains t

/-- The tokens a record waits for are set. -/
def Barge.waitsMet (b : Barge) (w : Nat) : Bool := b.tokenSet (recWait0 w) && b.tokenSet (recWait1 w)

/-- An earlier record leaves its executor free for a later one: it has completed, or is a COLL or SEAL that has issued
(R88), or a region's commit-class op that has only its commits to make (assumption 90). -/
def Barge.leavesFree (b : Barge) (w k : Nat) : Bool :=
  b.opIs k .complete
    || ((recOp w == 0x40 || recOp w == 0x41 || (executor? w == some .region && recClass w != 0)) && !b.opIs k .waiting)

/-- A barge's op holds the engine executor: one that runs, and is no COLL or SEAL (R88). -/
def State.holdsEngine (s : State) (b : Barge) : Bool :=
  b.failed.isNone && (List.range b.ops.length).any fun k =>
    let v := s.progRec b k
    b.opIs k .running && executor? v == some .engine && recOp v != 0x40 && recOp v != 0x41

/-- Record `i` may issue: the barge runs, earlier records on its executor instances are out of the way, no other barge's op
holds the one engine executor, and its tokens are set (R88). -/
def State.mayIssue (s : State) (b : Barge) (i : Nat) : Bool :=
  let w := s.progRec b i
  b.st == .running && b.failed.isNone && b.opIs i .waiting && b.waitsMet w
    && (executor? w != some .engine || s.sv.barges.all fun x => x.id == b.id || !s.holdsEngine x)
    && (List.range i).all fun k => let v := s.progRec b k; !shareExecutor w v || b.leavesFree v k

/-- A fetched record changed. -/
def Barge.setOp (b : Barge) (i : Nat) (f : OpRun → OpRun) : Barge := { b with ops := setAt b.ops i f }

/-- A record issues. The barge's first record opens its first gap (R306). -/
def State.issue (s : State) (b i : Nat) : State :=
  s.updBarge b fun x =>
    let x := if x.ops.all (·.st == .waiting) then { x with gapFrom := s.now, gapBound := x.maxGap } else x
    x.setOp i fun o => { o with st := .running, issued := s.now }

/-- A record has sent one more message that it waits for the answer of. -/
def State.sentOne (s : State) (b i : Nat) : State := s.updBarge b (·.setOp i fun o => { o with outstanding := o.outstanding + 1 })

/-- What one of a record's messages waited for has come. -/
def State.arrived (s : State) (b i : Nat) : State := s.updBarge b (·.setOp i fun o => { o with outstanding := o.outstanding - 1 })

/-- The pending set of what a record produced is noted with it. -/
def State.notePend (s : State) (b i : Nat) (m : LockMask) : State :=
  s.updBarge b (·.setOp i fun o => { o with pend := o.pend ||| m })

/-- A record completes: its SIGNAL token is set (R89). -/
def State.finishOp (s : State) (b i : Nat) : State :=
  s.updBarge b fun x =>
    let t := recSignal (s.progRec x i)
    { x.setOp i (fun o => { o with st := .complete }) with
      tokens := if t = 0 || x.tokens.contains t then x.tokens else t :: x.tokens }

/-- A commit unit added, unless it was made before a resume (R125). -/
def State.addUnit (s : State) (u : CUnit) : State :=
  match s.barge? u.b with
  | some b =>
    if (b.op u.i).done.contains u.key then s
    else
      let u := { u with poison := u.poison || u.rows.any fun k => ((b.rows[k]?).map (·.poison)).getD false }
      { s with sv := { s.sv with units := s.sv.units ++ [u] } }.notePend u.b u.i u.pend
  | none => s

/-- The commit units of a record that are not yet made. -/
def State.unitsOf (s : State) (b i : Nat) : List CUnit := s.sv.units.filter fun u => u.b == b && u.i == i

/-! ### Marks over a barge's regions -/

/-- The marks whose keys meet `p` changed. -/
def State.mapMarks (s : State) (p : Nat → Bool) (f : Mark → Mark) : State :=
  { s with
    marks := s.marks.filterMap fun (k, m) =>
      if p k then (if f m = {} then none else some (k, f m)) else some (k, m) }

/-- A key of a word in a scratchpad or the pool of region `r`. -/
def inRegion (r k : Nat) : Bool :=
  (r * 0x100000 ≤ k && k < (r + 1) * 0x100000) || (2 ^ 23 + r * 0x60000 ≤ k && k < 2 ^ 23 + (r + 1) * 0x60000)

/-- The words of the C range of an open collective that lie in external memory (R135). -/
def State.ctxRange (s : State) (c : Ctx) : Option (Nat × Nat) :=
  match s.barge? c.b with
  | some b => let o := recC (s.progRec b c.i); if o.space = spEXT then some (o.addr, c.outBytes) else none
  | none => none

/-- Bytes of an open collective's C range in external memory (R135). -/
def State.rangeOpen (s : State) (a n : Nat) : Bool :=
  s.col.ctxs.any fun c => match s.ctxRange c with
    | some (b, m) => decide (a < b + m) && decide (b < a + n)
    | none => false

/-- A key of a word whose pending set belongs to barge `b`: in its regions, or in the EXT range of one of its
collectives (R118). -/
def State.bargeKey (s : State) (b : Barge) (k : Nat) : Bool :=
  b.regions.any (inRegion · k)
    || s.col.ctxs.any fun c => c.b == b.id && match s.ctxRange c with
      | some (a, n) => 2 ^ 25 + a / 64 ≤ k && k < 2 ^ 25 + divUp (a + n) 64
      | none => false

/-- A word discarded: VOID, with an empty pending set (R124, R139). -/
def Mark.discard (m : Mark) : Mark := { m with pend := 0, void := true }

/-! ### The end of items (R71, R72, R116, R271) -/

/-- The cancellations that wait for the request in berth `n` learn their outcome: each finds the request cancelled, if it is,
or final (R62). -/
def State.resolveCancels (s : State) (n fate : Nat) : State :=
  let its := s.hq.items.filter fun it => it.type == 3 && it.target == some n
  its.foldl (fun s it => s.settle it fDONE (detail := if fate = fCANCELLED && (s.berth n).cancel then 0 else 1)) s

/-- The request in a berth receives its fate, and its berth is ENDING until the REQUEST record is written (R271). -/
def State.fateRequest (s : State) (n fate : Nat) : State :=
  let be := s.berth n
  if be.st == .free || be.st == .ending then s else
    match s.item? be.j with
    | some it =>
      ((s.setBerth n { be with st := .ending }).settle it fate be.committed 0 0 n (some n)).resolveCancels n fate
    | none => s

/-- It receives a fate other than that of R279, unless it has ended under R279 already (R72). -/
def State.endRequest (s : State) (n fate : Nat) : State := if (s.berth n).finished then s else s.fateRequest n fate

/-- The item that owns a row receives a fate, if it has none, and its rows are left out of later commits (R116). -/
def State.failRowOf (s : State) (b : Barge) (r : ManRow) (fate : Nat) : State :=
  let s := if r.kind = 2 then (match b.carried with | some j => s.settleJ j fate | none => s) else s.endRequest r.berth fate
  s.updBarge b.id fun x =>
    { x with
      rows := mapIf x.rows (fun q => if r.kind = 2 then q.kind == 2 else q.kind != 2 && q.berth == r.berth)
        fun q => { q with out := true } }

/-- A failure at barge scope (R116, R139): no further record issues, uncommitted units are abandoned, pending words are
discarded, and every carried item without a fate receives this one. -/
def State.failBarge (s : State) (id fate : Nat) : State :=
  match s.barge? id with
  | none => s
  | some b =>
    if b.failed.isSome then s else
    let s := s.mapMarks (fun k => s.bargeKey b k) fun m => if m.pend = 0 then m else m.discard
    let s := { s with
      sv := { s.sv with units := s.sv.units.filter (·.b != id) }
      gathers := s.gathers.filter (·.b != id) }
    let s := s.updBarge id fun x => { x with failed := some fate, specs := x.specs.map fun p => { p with discarded := true } }
    let s := b.rows.foldl (fun s r => if r.kind = 2 then s else s.endRequest r.berth fate) s
    let s := match b.carried with | some j => s.settleJ j fate | none => s
    s.noteFate fate

/-- A failure at row scope of manifest row `row`; in a barge without a manifest the barge owns every unit (R116, R233,
R406). -/
def State.failRow (s : State) (id row fate : Nat) : State :=
  match s.barge? id with
  | none => s
  | some b =>
    match b.rows[row]? with
    | some r => if r.out then s else s.failRowOf b r fate
    | none => s.failBarge id fate

/-- Failures at row scope of several rows. -/
def State.failRows (s : State) (id : Nat) (rows : List Nat) (fate : Nat) : State :=
  rows.foldl (fun s r => s.failRow id r fate) s

/-! ### Locks (R119, R124 to R127) -/

/-- Every lock of a pending set is confirmed (R121). -/
def Barge.allConfirmed (b : Barge) (m : LockMask) : Bool := (bitsOf m.toNat 16).all b.confirmed

/-- The state of lock `l` in logical region `r`. -/
def Barge.chamber? (b : Barge) (r l : Nat) : Option Chamber := b.chambers.find? fun c => c.region == r && c.lock == l

/-- Some opened lock of the barge is not CONFIRMED (R138). -/
def Barge.lockBusy (b : Barge) : Bool := b.chambers.any (·.st != .confirmed)

/-- The pending sets that a running gather has noted, changed. -/
def GatherRun.mapPends (g : GatherRun) (f : LockMask → LockMask) : GatherRun :=
  { g with
    headPend := f g.headPend, bagPends := g.bagPends.map f, keyPends := g.keyPends.map f
    slots := g.slots.map fun x => { x with pend := f x.pend } }

/-- A lock leaves every pending set once it is confirmed everywhere (R118). -/
def State.clearLock (s : State) (id l : Nat) : State :=
  match s.barge? id with
  | none => s
  | some b =>
    let m : LockMask := ~~~(BitVec.ofNat 16 (2 ^ l))
    let s := s.mapMarks (fun k => s.bargeKey b k) fun x => { x with pend := x.pend &&& m }
    let s := { s with
      sv := { s.sv with units := mapIf s.sv.units (·.b == id) fun u => { u with pend := u.pend &&& m } }
      gathers := mapIf s.gathers (·.b == id) fun g => g.mapPends (· &&& m) }
    s.updBarge id fun x => { x with
      specs := x.specs.map fun p => { p with pend := p.pend &&& m }
      ops := x.ops.map fun o => { o with pend := o.pend &&& m } }

/-- Lock `l` is settled as confirmed in the listed logical regions (R111, R119). -/
def State.confirmLock (s : State) (id l : Nat) (regions : List Nat) : State :=
  let s := s.updBarge id fun x =>
    { x with chambers := mapIf x.chambers (fun c => c.lock == l && regions.contains c.region) fun c => { c with st := .confirmed } }
  match s.barge? id with
  | some b => if b.confirmed l then s.clearLock id l else s
  | none => s

/-- A record settles lock `l`: its CONFIRMs, and the SEAL that names it (R108, R111). -/
def settles (l w : Nat) : Bool := (recOp w == 0x51 && recP w 3 0 == l) || (recOp w == 0x41 && recP w 11 8 == l)

/-- The records that the resume of lock `l` re-issues: issued, after the lock's mark, with a result pending on it, or
settling it (R125). -/
def State.reissued (s : State) (b : Barge) (l mark : Nat) : List Nat :=
  (List.range b.ops.length).filter fun k =>
    mark < k && (b.op k).st != .waiting && ((b.op k).pend &&& BitVec.ofNat 16 (2 ^ l) != 0 || settles l (s.progRec b k))

/-- A lock's failure counts in every region that opened it (R141). -/
def State.countLockFail (s : State) (b : Barge) (l : Nat) : State :=
  (b.chambers.filter (·.lock == l)).foldl (fun s c => s.count (rPage (b.phys c.region)) 0xF4C) s

/-- Lock `l` fails for the second time: it stays FAILED until the barge ends (R119, R126). -/
def State.failAgain (s : State) (b : Barge) (l fate : Nat) : State :=
  ((s.countLockFail b l).updBarge b.id fun x => { x with
    chambers := mapIf x.chambers (·.lock == l) fun c => { c with st := .failed } }).failBarge b.id fate

/-- Lock `l` fails: its work is discarded, its tokens are cleared, and issue restarts after its mark (R124, R125). It is
FAILED and OPEN again in the same step (R119). -/
def State.failLock (s : State) (id l : Nat) : State :=
  match s.barge? id with
  | none => s
  | some b =>
    let m : LockMask := BitVec.ofNat 16 (2 ^ l)
    let cs := b.chambers.filter (·.lock == l)
    let mark := (cs.map (·.mark)).foldl min (cs.head?.elim 0 (·.mark))
    let again := s.reissued b l mark
    let toks := again.map fun k => recSignal (s.progRec b k)
    let s := s.mapMarks (fun k => s.bargeKey b k) fun x => if x.pend &&& m = 0 then x else x.discard
    let s := { s with
      sv := { s.sv with units := s.sv.units.filter fun u => !(u.b == id && u.pend &&& m != 0) }
      gathers := s.gathers.filter fun g => !(g.b == id && again.contains g.i) }
    let s := s.updBarge id fun x => { x with
      specs := x.specs.map fun p => if p.pend &&& m = 0 then p else { p with discarded := true, pend := 0 }
      tokens := x.tokens.filter fun t => !toks.contains t
      ops := x.ops.zipIdx.map fun (o, k) => if again.contains k then { o with st := .waiting, pend := 0, signalled := false, todo := [] } else o
      chambers := mapIf x.chambers (·.lock == l) fun c => { c with st := .opened, attempts := c.attempts + 1 } }
    let s := s.countLockFail b l
    again.foldl (fun s k =>
      (b.lockRegions (s.progRec b k)).foldl (fun s r => s.count (rPage (b.phys r)) 0xF50) s) s

/-- LOCK_STATE of physical region `r` (R141). -/
def State.lockState (s : State) (r : Nat) : Nat :=
  match s.sv.barges.find? fun b => b.started && b.st != .saved && b.regions.contains r with
  | none => 0
  | some b => (b.chambers.filter fun c => b.phys c.region == r).foldl (fun a c =>
      a + (match c.st with | .closed => 0 | .opened => 1 | .confirmed => 2 | .failed => 3) * 4 ^ c.lock) 0

end Sys2Proof.Machine
end

