-- ==== Sys2Proof/Machine/Records.lean ====
section
/-! DEFINITION. The fetching, checking and issuing of an op record (R88, R89, R90, R92, R93), shared by every opcode. -/

namespace Sys2Proof.Machine

open Sys2Proof

/-- A unit's plank is set or in: CTRL.ISOLATE of its page (R397). -/
def State.isolated (s : State) (page : Nat) : Bool := bitOf (s.reg page oCTRL) 1

/-- The token rules of R89, against the earlier records. -/
def tokensOk (earlier : List Nat) (w : Nat) : Bool :=
  (recSignal w == 0 || !(earlier.any fun v => recSignal v == recSignal w))
    && [recWait0 w, recWait1 w].all fun t => t == 0 || earlier.any fun v => recSignal v == t

/-- An earlier LOCK_MARK opens lock `l` in logical region `r` (R90). -/
def marked (earlier : List Nat) (l r : Nat) : Bool :=
  earlier.any fun v => recOp v == 0x50 && recP v 3 0 == l && nbit (recRegions v) r

/-- Every lock of LOCK_SET is opened earlier in every region the record names (R90). -/
def locksOk (b : Barge) (earlier : List Nat) (w : Nat) : Bool :=
  (bitsOf (recLocks w).toNat 16).all fun l => (b.lockRegions w).all fun r => marked earlier l r

/-- A forward DELTA follows its MM, and nothing else does (R95). -/
def pairOk (prev : Option Nat) (w : Nat) : Bool :=
  let fwd := recOp w == 0x02 && recP w 41 40 == 0
  match prev with
  | some v => if recOp v == 0x01 && recP v 49 49 == 1 then fwd else !fwd
  | none => !fwd

/-- The checks of R92 that do not depend on the opcode's own parameters. -/
def generalOk (b : Barge) (earlier : List Nat) (w : Nat) : Bool :=
  decide (recRegions w < 2 ^ b.need) && nfld w 95 86 == 0 && nfld w 15 15 == 0 && nfld w 11 11 == 0 && recRnd w ≤ 1
    && (executor? w).isSome && (recOperands w).all Opd.fieldsOk && classOk w && masksOk w
    && tokensOk earlier w && locksOk b earlier w && pairOk earlier.getLast? w

/-- Each lock that a LOCK_MARK of the program opens in a region is settled there by a CONFIRM or a SEAL (R116). -/
def allSettled (b : Barge) (recs : List Nat) : Bool :=
  recs.all fun v => recOp v != 0x50 || (bitsOf (recRegions v) 8).all fun r => recs.any fun w =>
    (recOp w == 0x51 && recP w 3 0 == recP v 3 0 && nbit (recRegions w) r)
      || (recOp w == 0x41 && recP w 11 8 == recP v 3 0 && (b.lockRegions w).contains r)

/-- Record `i` of a running barge, the next in program order, is fetched and checked (R88, R92). Nothing happens unless it
bears opcode `code`; one that bears a reserved opcode is taken by any op's command, and fails (R85, R9). -/
def State.fetchRec (s : State) (id i code : Nat) (own : State → Barge → List Nat → Nat → Bool) : State :=
  match s.barge? id with
  | none => s
  | some b =>
    if b.st != .running || b.failed.isSome || i != b.ops.length || b.progLen ≤ i then s
    else
    let s := s.seeIn (b.recAt i).1 [((b.recAt i).2, 64)]
    if s.poisonAt (b.recAt i).1 (b.recAt i).2 64 then s.failBarge id fECC
    else
      let w := s.storedRec b i
      let earlier := s.progRecs b i
      if recOp w != code && (executor? w).isSome then s
      else if !(generalOk b earlier w && own s b earlier w) then s.failBarge id fCFG
      else
        let last := i + 1 == b.progLen
        let s1 := s.updBarge id fun x => { x with ops := x.ops ++ [{ word := w }], fetchedAll := last }
        if last && !(allSettled b (earlier ++ [w]) && !(recOp w == 0x01 && recP w 49 49 == 1)) then s1.failBarge id fCFG
        else s1

/-- The tiles, as page numbers, and the regions that a record runs on. -/
def Barge.pages (b : Barge) (w : Nat) : List Nat :=
  (b.physOf (recRegions w)).map rPage
    ++ (if executor? w == some .tile || recOnTiles w then (b.tiles w).map fun (r, j) => tPage (r * 16 + j) else [])

/-- The stop plank of a unit is in (R397): STATUS holds it beside ISOLATE. -/
def State.plank (s : State) (page : Nat) : Bool := s.isolated page && bitOf (s.reg page oSTATUS) 0

/-- A barge on regions has fetched a record that names a quarantined tile. -/
def State.namesQuar (s : State) (b : Barge) : Bool :=
  b.st != .waiting && b.st != .saved && (List.range b.ops.length).any fun i => (b.pages (s.progRec b i)).any fun p => decide (pTILE ≤ p) && s.tileQuar (p - pTILE)

/-- Some tile is quarantined. -/
def State.anyTileQuar (s : State) : Bool := (List.range 4).any fun n => s.regN pERR (0xF20 + 4 * n) != 0

/-- Every barge that names a quarantined tile ends with FAILED_QUARANTINE (R408). -/
def State.failNamed (s : State) : State :=
  if !s.anyTileQuar then s
  else (s.sv.barges.filter s.namesQuar).foldl (fun s b => s.failBarge b.id fQUARANTINE) s

/-- A unit that the record names stands behind a plank, or is quarantined (R116). -/
def State.blocked (s : State) (b : Barge) (w : Nat) : Option Nat :=
  if (b.pages w).any s.plank then some fISOLATED
  else if (b.pages w).any fun p => (p < pTILE && (s.region (p - pREGION)).quarantined) || (pTILE ≤ p && s.tileQuar (p - pTILE))
  then some fQUARANTINE
  else none

/-- Some of the ranges of external memory meet the open C range of another barge's collective (R135). -/
def State.rangesHeld (s : State) (id : Nat) (rs : List (Nat × Nat)) : Bool :=
  s.col.ctxs.any fun c => c.b != id && match s.ctxRange c with
    | some (x, m) => rs.any fun (a, n) => decide (a < x + m) && decide (x < a + n)
    | none => false

/-- Record `i` of barge `id`, of opcode `code`: fetched and checked if it is next, and issued if it may. `zero` says that
it has a count of 0 and completes at once (R93); `effect` is what its issue does; `ext` gives the ranges of external memory
that it reads or writes at its issue, which wait for other barges' collectives (R135). -/
def State.runRec (s : State) (id i code : Nat) (own : State → Barge → List Nat → Nat → Bool) (zero : Nat → Bool)
    (effect : State → Barge → Nat → State) (ext : State → Barge → Nat → List (Nat × Nat) := fun _ _ _ => []) : State :=
  let s := s.fetchRec id i code own
  let s := match s.barge? id with
    | none => s
    | some b =>
      let w := s.progRec b i
      if recOp w != code || !s.mayIssue b i then s
      else match s.blocked b w with
        | some f => s.failBarge id f
        | none =>
          if zero w then (s.issue id i).finishOp id i
          else if s.rangesHeld id (ext s b w) then s else effect (s.issue id i) b w
  s.failNamed

/-- A command of the engine domain acts only while that domain runs (R386, R392, R412; assumption 10). -/
def State.engine (s : State) (f : State → State) : Host.Outcome State Fault Refusal := .next (if s.up then f s else s)

/-- A command of the always-on domain acts only while the towpath is live (R427; assumption 10). -/
def State.always (s : State) (f : State → State) : Host.Outcome State Fault Refusal := .next (if s.live then f s else s)

end Sys2Proof.Machine
end

