-- ==== Sys2Proof/Machine/Serving.lean ====
section
/-! DEFINITION. What the serving commands share: adapter descriptors (R145 to R148), the pin table (R178 to R180), the
tollhouse's accounts (R286 to R289), deadlines (R267, R283), and what a mooring's barge boundary does (R62, R284, R289). -/

namespace Sys2Proof.Machine

open Sys2Proof

/-! ### Moorings (R294) -/

def State.moorOn (s : State) (m : Nat) : Bool := bitOf (s.cfg pLKP (0x100 + 32 * m)) 31
def State.tokenBudget (s : State) (m : Nat) : Nat := s.cfgN pLKP (0x104 + 32 * m)
def State.prefillBudget (s : State) (m : Nat) : Nat := s.cfgN pLKP (0x108 + 32 * m)
def State.beFloor (s : State) (m : Nat) : Nat := s.cfgN pLKP (0x10C + 32 * m)
def State.areaOf (s : State) (m : Nat) : Nat := s.cfgAddr pLKP (0x110 + 32 * m)

/-- A mooring's running barge: from the close of its manifest to the barge's end, saved or not (R273, R309). -/
def State.moorBarge? (s : State) (m : Nat) : Option Barge := s.sv.barges.find? fun b => !b.solo && b.mooring == m

/-- The mooring is at a barge boundary (R273). -/
def State.atBoundary (s : State) (m : Nat) : Bool := (s.moorBarge? m).isNone

/-! ### Adapter descriptors -/

def State.sideCtrl (s : State) (m : Nat) : Word := s.cfg pSPD (0x108 + 16 * m)
def State.sideOn (s : State) (m : Nat) : Bool := bitOf (s.sideCtrl m) 31
def State.dirSize (s : State) (m : Nat) : Nat := 2 ^ fld (s.sideCtrl m) 4 0
def State.factorTable (s : State) (m : Nat) : Nat := fld (s.sideCtrl m) 23 12
def State.factorFmt (s : State) (m : Nat) : Nat := fld (s.sideCtrl m) 27 24
def State.dirBase (s : State) (m : Nat) : Nat := s.cfgAddr pSPD (0x100 + 16 * m)

/-- The address of the descriptor of adapter `a`. -/
def State.descAddr (s : State) (m a : Nat) : Nat := s.dirBase m + 4096 + 64 * a

/-- The descriptor as it stands in memory. -/
def State.desc (s : State) (m a : Nat) : BitVec 512 := BitVec.ofNat 512 (s.extNat (s.descAddr m a) 64)

def dActive (d : BitVec 512) : Nat := fld d 146 146
def dValid (d : BitVec 512) (v : Nat) : Bool := bitOf d (144 + v)
def dSeq (d : BitVec 512) (v : Nat) : Nat := if v = 0 then fld d 399 368 else fld d 511 480
def dARow (d : BitVec 512) (v : Nat) : Nat := if v = 0 then fld d 327 288 else fld d 439 400
def dBRow (d : BitVec 512) (v : Nat) : Nat := if v = 0 then fld d 367 328 else fld d 479 440
def dRankQ (d : BitVec 512) : Nat := fld d 47 40
def dRank (d : BitVec 512) : Nat := 4 * dRankQ d
def dScale (d : BitVec 512) : Nat := fld d 63 48
def dMask (d : BitVec 512) : Nat := fld d 127 64
def dTenant (d : BitVec 512) : Nat := fld d 39 20

/-- R148 without its tenant and VALID checks. -/
def descBase (d : BitVec 512) (a : Nat) : Bool :=
  fld d 19 0 == a && dRankQ d ≤ 64 && (fBF16.decode (dScale d)).finite && fld d 143 128 == 0 && fld d 287 147 == 0

/-- The slot selected holds factors, or none are needed (R148). -/
def descValid (d : BitVec 512) (v : Nat) : Bool := dRankQ d == 0 || dValid d v

/-- Adapter id `a` has a descriptor in mooring `m`'s directory (R145, R175). -/
def State.hasDesc (s : State) (m a : Nat) : Bool := s.sideOn m && decide (a < s.dirSize m) && !(s.mooring m).headerFault

/-! ### The pin table -/

def State.pin? (s : State) (m a v : Nat) : Option Pin :=
  s.sv.pins.find? fun p => p.mooring == m && p.adapter == a && p.slot == v

/-- What admission to mooring `m` asks of the request's adapter (R178): a fate, or the slot to pin, if any. -/
def State.pinCheck (s : State) (m a tenant : Nat) : Nat ⊕ Option Nat :=
  if a = 0 then .inr none
  else if !s.hasDesc m a then .inl fCFG
  else if s.extPoison (s.descAddr m a) 64 then .inl fECC
  else
    let d := s.desc m a
    if !(descBase d a && dTenant d == tenant && descValid d (dActive d)) then .inl fCFG
    else if dRankQ d = 0 then .inr none
    else .inr (some (dActive d))

/-- What an admission's look at a descriptor leaves in SPD.ERR_STATUS: poison, or an unusable descriptor (R175, R178). -/
def State.notePinCheck (s : State) (m a tenant : Nat) : State :=
  if a = 0 || !s.hasDesc m a then s
  else match s.pinCheck m a tenant with
    | .inl f => s.err pSPD (if f = fECC then 1 else 0)
    | .inr _ => s

/-- One more berth pinned to a slot; a new entry captures the slot's fields (R179). -/
def State.takePin (s : State) (m a v : Nat) : State :=
  match s.pin? m a v with
  | some _ =>
    { s with
      sv := { s.sv with
        pins := mapIf s.sv.pins (fun p => p.mooring == m && p.adapter == a && p.slot == v) fun p => { p with count := p.count + 1 } } }
  | none =>
    let d := s.desc m a
    { s with sv := { s.sv with pins := s.sv.pins ++
        [{ mooring := m, adapter := a, slot := v, count := 1, seq := dSeq d v, aRow := dARow d v, bRow := dBRow d v }] } }

/-- One berth fewer; the entry goes with its last berth (R179). -/
def State.dropPin (s : State) (m a v : Nat) : State :=
  { s with
    sv := { s.sv with
      pins := s.sv.pins.filterMap fun p =>
      if p.mooring == m && p.adapter == a && p.slot == v then (if p.count ≤ 1 then none else some { p with count := p.count - 1 })
      else some p } }

/-- The pin of a berth released. -/
def State.releasePin (s : State) (n : Nat) : State :=
  let be := s.berth n
  match be.pin with
  | some v => (s.dropPin be.mooring be.adapter v).setBerth n { be with pin := none }
  | none => s

/-- A berth becomes FREE: its REQUEST record is written (R271). -/
def State.freeBerth (s : State) (n : Nat) : State := (s.releasePin n).setBerth n {}

/-- The training slot of an adapter: the one that is not active (R182). -/
def State.trainSlot (s : State) (m a : Nat) : Nat := 1 - dActive (s.desc m a)

/-- A training segment's slot holds a pin-table entry (R182). -/
def State.trainPinned (s : State) (m a : Nat) : Bool := a != 0 && s.hasDesc m a && (s.pin? m a (s.trainSlot m a)).isSome

/-! ### The tollhouse -/

/-- The account charged for a tenant: its own valid entry, else entry 0 (R286). -/
def State.acctOf (s : State) (tenant : Nat) : Nat :=
  (s.sv.accounts.find? fun (n, a) => n != 0 && a.valid && a.tenant == tenant).elim 0 (·.1)

def Account.isOverdrawn (a : Account) : Bool := decide (a.balance < 0)

/-- The request in a berth is deferred (R289). -/
def State.deferred (s : State) (be : Berth) : Bool :=
  (be.st == .queued || be.st == .prefill || be.st == .decode) && !be.finished && be.barge.isNone
    && (let a := s.account (s.acctOf be.tenant); a.isOverdrawn && a.policy == 1)

/-- The time since which each request has been deferred without a break (R289). -/
def State.noteDefers (s : State) : State :=
  { s with
    sv := { s.sv with
      berths := s.sv.berths.map fun (n, be) => (n, if s.deferred be then (if be.deferSince.isNone then { be with deferSince := some s.now } else be)
          else { be with deferSince := none }) } }

/-- A balance saturates (R287). -/
def satBalance (x : Int) : Int := max (-(2 ^ 47)) (min (2 ^ 47 - 1) x)

/-- A balance changed by some units of 1/256 token; each move into overdraft is counted (R287). -/
def State.balance (s : State) (n : Nat) (units : Int) : State :=
  let a := s.account n
  let b := satBalance (a.balance + units)
  let s := s.setAccount n { a with balance := b }
  (if 0 ≤ a.balance && b < 0 then s.count pTOLL 0xF04 else s).noteDefers

/-- WP and WD (R288). -/
def State.wp (s : State) : Nat := fld (s.cfg pTOLL 0x110) 31 16
def State.wd (s : State) : Nat := fld (s.cfg pTOLL 0x110) 15 0

/-- An account's counts changed. -/
def State.acctCount (s : State) (tenant : Nat) (f : Account → Account) : State := s.updAccount (s.acctOf tenant) f

/-! ### Deadlines -/

/-- The deadline that a request's targets give it (R267). -/
def Berth.target (be : Berth) : Option Nat :=
  match be.lastToken with
  | none => if be.ttft = 0 then none else some (be.admitUs + be.ttft)
  | some t => if be.tbt = 0 then none else some (t + be.tbt)

/-- The deadline in force of a request: its target's (R267), unless a passed one is kept (R284; assumption 96). -/
def Berth.deadline (be : Berth) : Option Nat := be.kept <|> be.target

/-- The deadline that LATE_POLICY judges at a boundary: a late step's, or one that has passed (R284). -/
def Berth.missed (be : Berth) (now : Nat) : Option Nat := be.overdue <|> be.deadline.filter (decide <| · < now)

/-- Deadlines in order, requests without one last. -/
def deadlineBefore : Option Nat → Option Nat → Option Bool
  | some x, some y => if x < y then some true else if y < x then some false else none
  | some _, none => some true
  | none, some _ => some false
  | none, none => none

/-- Deadline order of R275. -/
def State.deadlineLe (s : State) (n k : Nat) : Bool :=
  let x := s.berth n
  let y := s.berth k
  match deadlineBefore x.deadline y.deadline with
  | some r => r
  | none => decide (x.admitUs < y.admitUs) || (x.admitUs == y.admitUs && decide (n ≤ k))

/-- Admission order of R275. -/
def State.admissionLe (s : State) (n k : Nat) : Bool :=
  let x := s.berth n
  let y := s.berth k
  decide (x.admitUs < y.admitUs) || (x.admitUs == y.admitUs && decide (n ≤ k))

/-- An element put into an ordered list. -/
def insertBy {α : Type} (le : α → α → Bool) (x : α) : List α → List α
  | [] => [x]
  | y :: ys => if le x y then x :: y :: ys else y :: insertBy le x ys

/-- A list sorted. -/
def sortBy {α : Type} (le : α → α → Bool) (l : List α) : List α := l.foldr (insertBy le) []

/-- Lexicographic order. -/
def lexLe : List Nat → List Nat → Bool
  | x :: xs, y :: ys => decide (x < y) || (x == y && lexLe xs ys)
  | [], _ => true
  | _, [] => false

/-- Prompt positions not yet committed. -/
def Berth.uncommitted (be : Berth) : Nat := be.startPos + be.promptLen - be.committed

/-- The occupied berths of a mooring, in order. -/
def State.berthsOf (s : State) (m : Nat) : List Nat :=
  (s.sv.berths.filter fun (_, be) => be.st != .free && be.mooring == m).map (·.1)

/-- A request can be placed but for deferral (R274). -/
def Berth.placeable (be : Berth) : Bool :=
  (be.st == .queued || be.st == .prefill || be.st == .decode) && be.barge.isNone && !be.cancel && !be.finished

/-- The request in berth `n` is ready for a manifest (R274). -/
def State.ready (s : State) (n : Nat) : Bool := (s.berth n).placeable && !s.deferred (s.berth n)

/-- The request fills as latency-critical: its class, unless its account is demoted (R275, R289). -/
def State.fillsLc (s : State) (n : Nat) : Bool :=
  !(s.berth n).be && !(let a := s.account (s.acctOf (s.berth n).tenant); a.isOverdrawn && a.policy != 1)

/-- The predicted time of the first token, in 1/16 µs (R283). -/
def State.predicted (s : State) (n : Nat) : Nat :=
  let be := s.berth n
  let m := be.mooring
  let before := (s.berthsOf m).filter fun k => k != n && s.ready k && s.fillsLc k && s.deadlineLe k n
  let a := (before.map fun k => (s.berth k).uncommitted).foldl (· + ·) 0
  16 * s.now + divUp (a + be.uncommitted) (s.prefillBudget m) * (s.mooring m).est

/-- R283: a QUEUED request whose prediction misses its target moves to its fallback mooring and is pinned afresh. -/
def State.monitor (s : State) (n : Nat) : State :=
  let be := s.berth n
  match be.fallback with
  | none => s
  | some fb =>
    if be.st == .queued && be.ttft != 0 && !be.routed && s.moorOn fb && decide (16 * (be.admitUs + be.ttft) < s.predicted n) then
      let s := (s.count pLKP 0xF88).updMooring be.mooring fun x => { x with routed := x.routed + 1 }
      let s := s.releasePin n
      let s := s.updBerth n fun x => { x with mooring := fb, routed := true, pin := none }
      match s.pinCheck fb be.adapter be.tenant with
      | .inl fate => (s.notePinCheck fb be.adapter be.tenant).endRequest n fate
      | .inr none => s
      | .inr (some v) => (s.takePin fb be.adapter v).updBerth n fun x => { x with pin := some v }
    else s

/-! ### A barge boundary -/

/-- What a boundary of its mooring does to the request in berth `n`: cancellation (R62, R272), the deadline policy (R284)
and the deferral limit (R289). -/
def State.boundaryOf (s : State) (n : Nat) : State :=
  let be := s.berth n
  if !(be.st == .queued || be.st == .prefill || be.st == .decode) || be.barge.isSome || be.finished then s
  else if be.cancel then s.endRequest n fCANCELLED
  else
    let missed := be.missed s.now
    if missed.isSome && be.cancelLate then (s.count pLKP 0xF90).endRequest n fCANCELLED
    else
      let s := if missed.isSome then s.updBerth n fun x => { x with kept := missed, overdue := none } else s
      let limit := (s.account (s.acctOf be.tenant)).deferLimit
      match be.deferSince with
      | some t =>
        if limit != 0 && decide (t + limit ≤ s.now) then
          (if be.delivered = 0 then
            ((s.count pTOLL 0xF08).acctCount be.tenant fun a => { a with rejected := satAdd 32 a.rejected 1 }).endRequest n fBUDGET
           else s.endRequest n fCANCELLED)
        else s
      | none => s

/-- A barge boundary of mooring `m`: the requests in berth order, then the deadline monitor in deadline order (R273,
R283). -/
def State.boundary (s : State) (m : Nat) : State :=
  if !s.atBoundary m then s else
    let s := (s.berthsOf m).foldl State.boundaryOf s
    (sortBy s.deadlineLe (s.berthsOf m)).foldl State.monitor s

/-! ### Averages of barge times (R282, R291) -/

/-- One step of the EWMA rule, on whole numbers: `e` moves towards `t` by 2^-shift of the difference. -/
def ewma (shift e t : Nat) : Nat := if e ≤ t then e + (t - e) / 2 ^ shift else e - (e - t) / 2 ^ shift

def State.ewmaShift (s : State) : Nat := fld (s.cfg pLKP 0x310) 14 12

/-- SLOWDOWN: shared divided by solo in 1/256, 0 until both have a sample (R291). -/
def Mooring.slowdown (x : Mooring) : Nat :=
  match x.solo, x.shared with
  | some a, some b => if a = 0 then 0xFFFF else min 0xFFFF (b * 256 / a)
  | _, _ => 0

/-! ### Maintenance mode (R80) -/

/-- MAINT is in force, or committed and waiting for its boundary. -/
def State.maintComing (s : State) : Bool := s.hq.maint || s.hq.maintPending

end Sys2Proof.Machine
end

