-- ==== Sys2Proof/Machine/Queues.lean ====
section
/-! DEFINITION. Doorbells, fetching and the plain items of the queues (R50 to R64, R79), the writing of CQ records (R53, R54,
R67, R75), and maintenance mode (R80). -/

namespace Sys2Proof.Machine

open Sys2Proof

/-! ### Doorbells (R50) -/

def State.doorbellSq (s : State) (q p : Nat) : State :=
  if !s.sqOn q || s.sqSize q ≤ p then s.err pHQ 0 else s.setSq q { s.sq q with tail := p }

/-- SQ_DOORBELL: the new tail of an SQ (R50). -/
def execSqDoorbell (q p : Nat) (s : State) : Host.Outcome State Fault Refusal := s.always fun s => s.doorbellSq q p

/-- Journal entries whose records a CQ head has passed become RETIRED (R75). -/
def State.retire (s : State) (js : List (Option Nat)) : State :=
  js.foldl (fun s j => match j with
    | some j => { s.journalMark j 3 with hq := { (s.journalMark j 3).hq with journalFull := false } }
    | none => s) s

def State.doorbellCq (s : State) (c p : Nat) : State :=
  if !s.cqOn c || s.cqSize c ≤ p then s.err pHQ 0
  else
    let q := s.cq c
    let n := (p + s.cqSize c - q.head) % s.cqSize c
    (s.setCq c { q with head := p, written := q.written.drop n }).retire (q.written.take n)

/-- CQ_DOORBELL: the new head of a CQ (R50, R75). -/
def execCqDoorbell (q p : Nat) (s : State) : Host.Outcome State Fault Refusal := s.always fun s => s.doorbellCq q p

/-! ### Fetching (R51, R52, R55, R56) -/

/-- SQ `n` has an entry to fetch. -/
def State.sqReady (s : State) (n : Nat) : Bool :=
  s.sqOn n && (s.sq n).head != (s.sq n).tail && (s.sq n).holdBy.isNone

/-- The next SQ of the round robin (R51). -/
def State.nextSq (s : State) : Option Nat :=
  ((List.range 64).map fun k => (s.hq.rrNext + k) % 64).find? s.sqReady

/-- The entry holds its SQ until it has its fate: FENCE, and CONFIG_EPOCH with pages to wait for (R63, R64, R79). -/
def holds (it : Item) : Bool := it.type == 7 || (it.type == 4 && it.f 98 96 != 0)

/-- The TYPE, and for a TABLE_OP the SUBOP, is one that some command processes (R55, R65). -/
def typeKnown (it : Item) : Bool := it.type ≤ 7 && (it.type != 5 || (1 ≤ it.f 71 64 && it.f 71 64 ≤ 5))

/-- The entry of SQ `n` at its head is accepted under journal index `j`. -/
def State.acceptEntry (s : State) (n j : Nat) : State :=
  let q := s.sq n
  let a := s.sqBase n + 64 * q.head
  let inExt := bitOf (s.sqCtrl n) 30
  let bad := s.locUnreadable inExt a 64
  let entry : BitVec 512 := if bad then 0 else BitVec.ofNat 512 (leNat (s.loc? inExt a 64))
  let it : Item := { j := j, sq := n, sqIndex := q.head, order := s.hq.orders, entry := entry }
  let head := (q.head + 1) % s.sqSize n
  let r : Rec :=
    { kind := if !bad && it.type = 2 then .request else .entry, cookie := it.cookie, sq := n, sqIndex := q.head, sqHead := head
      value0 := it.value0 0, aoUs := s.now }
  let s := s.journalOpen j r
  let s := s.setSq n { q with head := head, holdBy := if !bad && holds it then some j else none }
  let s := { s with hq := { s.hq with rrNext := (n + 1) % 64, orders := s.hq.orders + 1, items := s.hq.items ++ [it] } }
  let s := s.storeHeads
  if bad then (s.settle it fECC).err pHQ 2 else if !typeKnown it then s.settle it fCFG else s

def State.fetch (s : State) : State :=
  if !s.hq.configured || (s.hq.maint && s.sv.heldRegions == 0xFF) then s else
    match s.nextSq with
    | none => s
    | some n =>
      match s.journalNext with
      | some j => s.acceptEntry n j
      | none => if s.hq.journalFull then s else { s with hq := { s.hq with journalFull := true } }.err pHQ 3

/-- SQ_FETCH: the next entry in round-robin order is accepted (R51, R52, R75). -/
def execSqFetch (s : State) : Host.Outcome State Fault Refusal := s.engine fun s => s.fetch

/-- The common rsvd field of an entry (R55). -/
def Item.plain (it : Item) : Bool := it.f 31 9 == 0

/-- The accepted item `j` of TYPE `t` is processed. -/
def State.process (s : State) (j t : Nat) (f : State → Item → State) : State :=
  match s.item? j with
  | some it => if it.type = t && it.stage == .accepted then f s it else s
  | none => s

/-- No item of the same TYPE accepted before `it` is still to be processed: requests, submitted barges and flips are taken
in the order of their acceptance (R58, R73, R184). -/
def State.inTurn (s : State) (it : Item) : Bool :=
  !(s.hq.items.any fun x => x.type == it.type && x.stage == .accepted && decide (x.order < it.order))

/-- The accepted item `j` of TYPE `t` is processed in its turn. -/
def State.processInTurn (s : State) (j t : Nat) (f : State → Item → State) : State :=
  s.process j t fun s it => if s.inTurn it then f s it else s

/-- NOP: item `j` (R55). -/
def execNop (j : Nat) (s : State) : Host.Outcome State Fault Refusal :=
  s.engine fun s => s.process j 0 fun s it => s.settle it (if it.plain then fDONE else fCFG)

/-! ### SUBMIT_BARGE (R57, R58, R60, R154, R155) -/

/-- A manifest row's 16 bytes. -/
def State.manRaw (s : State) (a i : Nat) : Nat := s.extNat (a + 16 * i) 16

/-- A manifest row read (R60). -/
def manRow (w : Nat) : ManRow :=
  { kind := nfld w 127 126, draft := nfld w 125 122, adapter := nfld w 119 100, tenant := nfld w 99 80, berth := nfld w 79 64
    position := nfld w 63 32, segment := nfld w 13 0 }

/-- A segment table entry read (R154). -/
def segEntry (w : Nat) : Seg :=
  { adapter := nfld w 127 108, tenant := nfld w 107 88, vslot := nfld w 64 64, count := nfld w 29 16, first := nfld w 13 0 }

/-- The list without repeats, first occurrences kept. -/
def uniq {α : Type} [BEq α] (l : List α) : List α := l.foldl (fun a x => if a.contains x then a else a ++ [x]) []

/-- Neighbours of a list are related. -/
def chainBy {α : Type} (p : α → α → Bool) : List α → Bool
  | x :: y :: r => p x y && chainBy p (y :: r)
  | _ => true

/-- Rows of a submitted barge (R60): training only, ordered by segment. -/
def submittedRowsOk (raw : List Nat) (segs adapters : Nat) : Bool :=
  let rows := raw.map manRow
  raw.all (fun w => nfld w 121 120 == 0 && nfld w 31 14 == 0)
    && rows.all (fun r => r.kind == 2 && r.draft == 0 && r.berth == 0 && decide (r.segment < segs))
    && chainBy (fun a b => decide (a.segment ≤ b.segment)) rows
    && (uniq (rows.map (·.adapter))).length ≤ adapters

/-- Segments of a submitted barge (R155). -/
def submittedSegsOk (raw : List Nat) (rows : List ManRow) : Bool :=
  let segs := raw.map segEntry
  raw.all (fun w => nfld w 87 65 == 0 && nfld w 63 30 == 0 && nfld w 15 14 == 0)
    && segs.all (fun g => g.count != 0)
    && (match segs with | g :: _ => g.first == 0 | [] => rows.isEmpty)
    && chainBy (fun a b => b.first == a.first + a.count) segs
    && (segs.map (·.count)).foldl (· + ·) 0 == rows.length
    && (segs.zipIdx.all fun (g, k) => ((rows.drop g.first).take g.count).all fun r =>
          r.segment == k && r.adapter == g.adapter && r.tenant == g.tenant)

/-- The header's fields on their own (R57). -/
def State.bargeHeaderOk (s : State) (it : Item) : Bool :=
  let solo := it.f 76 76 == 1
  it.plain && it.zeroAt [(511, 416), (383, 368), (319, 304), (255, 240), (191, 176), (79, 77)]
    && it.f 71 64 == 1 && it.f 95 80 ≤ 8192 && it.f 111 96 ≤ 16384 && it.f 127 112 ≤ 8192 && it.f 415 384 ≤ 2 ^ 20
    && it.f 303 256 % 16 == 0 && it.f 239 192 % 64 == 0
    && [it.f 367 320, it.f 303 256, it.f 239 192].all (fun a => decide (a < s.populated))
    && (it.f 95 80 == 0 || (it.f 111 96 != 0 && it.f 127 112 != 0))
    && (if solo then 1 ≤ it.f 175 160 && it.f 175 160 ≤ 200 else it.f 239 192 == 0 && it.f 415 384 == 0 && it.f 175 160 == 0)

/-- The manifest and segment table (R60, R155). -/
def State.bargeRowsOk (s : State) (it : Item) : Bool :=
  let raw := (List.range (it.f 95 80)).map (s.manRaw (it.f 303 256))
  let segRaw := (List.range (it.f 111 96)).map (s.manRaw (it.f 367 320))
  submittedRowsOk raw (it.f 111 96) (it.f 127 112) && submittedSegsOk segRaw (raw.map manRow)

/-- Rows or segments read poisoned. Those beyond the populated size read as zeros and are judged as such (assumption 80). -/
def State.bargeRowsBad (s : State) (it : Item) : Bool :=
  s.extPoison (it.f 303 256) (16 * it.f 95 80) || s.extPoison (it.f 367 320) (16 * it.f 111 96)

def State.submit (s : State) (it : Item) : State :=
  let solo := it.f 76 76 == 1
  let m := it.f 75 72
  if !s.bargeHeaderOk it then s.settle it fCFG
  else if !solo && (s.hq.maint || !s.moorOn m) then s.settle it fCFG
  else if (if solo then it.f 415 384 else it.f 95 80) = 0 then s.settle it fZERO
  else if s.bargeRowsBad it then s.settle it fECC
  else if !s.bargeRowsOk it then s.settle it fCFG
  else if !solo && s.tokenBudget m < it.f 95 80 then s.settle it fCAPACITY
  else
    let s := s.updItem it.j fun x => { x with stage := .waiting }
    if solo then { s with sv := { s.sv with soloQueue := s.sv.soloQueue ++ [it.j] } }
    else s.updMooring m fun x => { x with trainQueue := x.trainQueue ++ [it.j] }

/-- SUBMIT_BARGE: item `j` (R57, R58, R277). -/
def execSubmitBarge (j : Nat) (s : State) : Host.Outcome State Fault Refusal :=
  s.engine fun s => s.processInTurn j 1 State.submit

/-! ### ADMIT_REQUEST (R61, R73, R268 to R270) -/

/-- The entry of the duplicate window that matches (TENANT, CLIENT_ID). -/
def State.dupMatch? (s : State) (tenant client : Nat) : Option DupKey :=
  s.hq.dup.find? fun k => k.tenant == tenant && k.client == client

/-- A window entry reads poisoned (R457). -/
def State.dupBad (s : State) (k : DupKey) : Bool := s.extPoison (s.cfgAddr pHQ 0x70C + 32 * k.slot) 32

/-- A request that the window settles as DUPLICATE (R73). -/
def isDuplicate (k : DupKey) (attempt : Nat) : Bool :=
  !(decide (k.attempt < attempt) && (match k.fate with | some f => decide (8 ≤ f) | none => false))

/-- A key enters the window as its newest; the oldest leaves a full one, and a matching one is replaced (R73; assumption
80). -/
def State.dupEnter (s : State) (k : DupKey) : State :=
  let rest := s.hq.dup.filter fun x => !(x.tenant == k.tenant && x.client == k.client)
  let rest := if 2 ^ 20 ≤ rest.length then rest.tail else rest
  { s with hq := { s.hq with dup := rest ++ [{ k with slot := lowestFree (rest.map (·.slot)) }] } }

/-- The request descriptor's 128 bytes as a number (R268). -/
def State.reqDesc (s : State) (it : Item) : Nat := leNat (s.loc? (it.f 272 272 == 1) (it.f 255 192) 128)

/-- A field of the descriptor: `n` bytes at `o`. -/
def reqField (d o n : Nat) : Nat := d / 2 ^ (8 * o) % 2 ^ (8 * n)

/-- The ranges of R268, and the alignments. -/
def reqOk (d : Nat) : Bool :=
  let f := reqField d
  f 0x00 8 % 64 == 0 && f 0x08 8 % 64 == 0 && f 0x10 8 % 64 == 0 && f 0x18 4 ≤ 2 ^ 24
    && 1 ≤ f 0x1C 4 && f 0x1C 4 ≤ 2 ^ 24 && f 0x20 4 ≤ 2 ^ 24 && 1 ≤ f 0x30 2
    && 6 ≤ f 0x32 1 / 16 && f 0x32 1 / 16 ≤ 11 && f 0x32 1 % 16 ≤ 8 && f 0x33 1 / 4 == 0 && f 0x34 76 == 0

/-- The pages hold every position the request may write (R269). -/
def reqFits (d : Nat) : Bool :=
  reqField d 0x18 4 + reqField d 0x1C 4 + reqField d 0x20 4 ≤ 64 * reqField d 0x30 2

/-- The berth of an admitted request (R268, R271). -/
def berthOf (it : Item) (d now : Nat) : Berth :=
  let f := reqField d
  { st := .queued, j := it.j, tenant := it.f 83 64, client := it.f 143 96, attempt := it.f 151 144, be := it.f 93 93 == 1
    mooring := it.f 87 84, fallback := if it.f 92 92 = 1 then some (it.f 91 88) else none, adapter := it.f 171 152
    outAddr := f 0x08 8, outExt := nbit (f 0x33 1) 0, pageTable := f 0x10 8, pagesPerLayer := f 0x30 2, startPos := f 0x18 4
    promptLen := f 0x1C 4, maxTokens := f 0x20 4, stopToken := f 0x24 4, ttft := f 0x28 4, tbt := f 0x2C 4
    chunkLog2 := f 0x32 1 / 16, draftMax := f 0x32 1 % 16, cancelLate := nbit (f 0x33 1) 1, committed := f 0x18 4
    admitUs := now }

/-- Steps 7 and 8 of R270. -/
def State.takeBerth (s : State) (it : Item) (d n : Nat) (pin : Option Nat) : State :=
  let be := berthOf it d s.now
  let s := s.setBerth n { be with pin := pin }
  let s := s.updItem it.j fun x => { x with stage := .admitted }
  let s := s.extPutNat (s.journalAddr it.j) 32 (setFld (s.journalEntry it.j) 127 112 n)
  let s := { s with hq := { s.hq with dup := mapIf s.hq.dup (fun k => k.j == it.j && k.fate.isNone) fun k => { k with berth := n } } }
  let s := s.count pLKP 0xF84
  let s := s.acctCount be.tenant fun a => { a with admitted := satAdd 32 a.admitted 1 }
  let s := if s.acctOf be.tenant = 0 then s.count pTOLL 0xF0C else s
  let s := match pin with | some v => s.takePin be.mooring be.adapter v | none => s
  s.noteDefers.monitor n

/-- Steps 3 to 8 of R270. -/
def State.admitRun (s : State) (it : Item) : State :=
  let inExt := it.f 272 272 == 1
  let a := it.f 255 192
  let m := it.f 87 84
  let tenant := it.f 83 64
  if s.maintComing then s.settle it fCFG
  else if s.locUnreadable inExt a 128 then s.settle it fECC
  else
    let d := s.reqDesc it
    let acct := s.account (s.acctOf tenant)
    if !reqOk d then s.settle it fCFG
    else if !reqFits d then s.settle it fCAPACITY
    else if reqField d 0x20 4 = 0 then s.settle it fZERO
    else if !s.moorOn m || (it.f 92 92 = 1 && (it.f 91 88 = m || !s.moorOn (it.f 91 88))) then s.settle it fCFG
    else match s.pinCheck m (it.f 171 152) tenant with
      | .inl fate => (s.notePinCheck m (it.f 171 152) tenant).settle it fate
      | .inr pin =>
        if acct.isOverdrawn && acct.policy = 2 then
          ((s.count pTOLL 0xF08).acctCount tenant fun x => { x with rejected := satAdd 32 x.rejected 1 }).settle it fBUDGET
        else
          let n := lowestFree ((s.sv.berths.filter fun (_, b) => b.st != .free).map (·.1))
          if 65536 ≤ n then ((s.count pLKP 0xF94).err pLKP 0).settle it fCAPACITY
          else s.takeBerth it d n pin

/-- R270, from its first step. -/
def State.admitReq (s : State) (it : Item) : State :=
  if !(it.plain && it.zeroAt [(511, 273), (191, 172), (95, 94)] && it.f 255 192 % 64 == 0
      && (it.f 271 256 == 128 || it.f 271 256 == 0)) then s.settle it fCFG
  else if it.f 271 256 = 0 then s.settle it fZERO
  else
    let key : DupKey := { tenant := it.f 83 64, client := it.f 143 96, attempt := it.f 151 144, j := it.j, sq := it.sq, sqIndex := it.sqIndex }
    match s.dupMatch? key.tenant key.client with
    | some k =>
      if s.dupBad k then ((s.err pHQ 4).dupEnter key).admitRun it
      else if isDuplicate k key.attempt then
        (s.count pHQ 0xF00).settle it fDUPLICATE (k.sq * 2 ^ 16 + k.sqIndex) (k.fate.getD 0xFF) 0 k.berth
      else (s.dupEnter key).admitRun it
    | none => (s.dupEnter key).admitRun it

/-- ADMIT_REQUEST: item `j` (R61, R270). -/
def execAdmitRequest (j : Nat) (s : State) : Host.Outcome State Fault Refusal :=
  s.engine fun s => s.processInTurn j 2 State.admitReq

/-! ### CANCEL_REQUEST (R62, R272) -/

/-- The berth that a cancellation names: a live request first, else one whose record is still to be written. -/
def State.cancelTarget (s : State) (it : Item) : Option Nat :=
  if it.f 176 176 = 1 then (if (s.berth (it.f 79 64)).st == .free then none else some (it.f 79 64))
  else
    let match_ := s.sv.berths.filter fun (_, b) => b.st != .free && b.tenant == it.f 115 96 && b.client == it.f 175 128
    match match_.find? fun (_, b) => b.st != .ending with
    | some (n, _) => some n
    | none => match_.head?.map (·.1)

def State.cancel (s : State) (it : Item) : State :=
  if !(it.plain && it.zeroAt [(511, 177), (127, 116), (95, 80)]) then s.settle it fCFG
  else if s.hq.maint then s.settle it fDONE (detail := 2)
  else match s.cancelTarget it with
    | none => s.settle it fDONE (detail := 2)
    | some n =>
      let be := s.berth n
      if be.st == .ending then s.settle it fDONE (detail := 1)
      else
        let s := s.updBerth n fun x => { x with cancel := true }
        if be.barge.isNone && !be.finished && (be.st == .queued || s.deferred be || s.atBoundary be.mooring) then
          (s.endRequest n fCANCELLED).settle it fDONE
        else s.updItem it.j fun x => { x with stage := .waiting, target := some n }

/-- CANCEL_REQUEST: item `j` (R62, R272). -/
def execCancelRequest (j : Nat) (s : State) : Host.Outcome State Fault Refusal :=
  s.engine fun s => s.process j 3 State.cancel

/-! ### CONFIG_EPOCH and FENCE (R63, R64) -/

/-- Slot `i` of a CONFIG_EPOCH: its page index, its rsvd bits and its SEQ. -/
def epochPage (it : Item) (i : Nat) : Nat := it.f (128 + 64 * i + 7) (128 + 64 * i)
def epochRsvd (it : Item) (i : Nat) : Nat := it.f (128 + 64 * i + 31) (128 + 64 * i + 8)
def epochSeq (it : Item) (i : Nat) : Nat := it.f (128 + 64 * i + 63) (128 + 64 * i + 32)

/-- The bank of a page that holds SEQ: 0 bank A, 1 bank B; the bank in force first. -/
def State.bankWith (s : State) (page seq : Nat) : Option Nat :=
  let act := bit (s.bankB page)
  let reg (k : Nat) := s.regN page (if k = 0 then oCFG_SEQ_A else oCFG_SEQ_B)
  if reg act = seq then some act else if reg (1 - act) = seq then some (1 - act) else none

/-- CFG_COMMIT.PENDING of a page (R451). -/
def State.commitPending (s : State) (page : Nat) : Bool := bitOf (s.reg page oCFG_COMMIT) 28

/-- A listed bank still waits for its boundary. -/
def State.bankWaits (s : State) (p : Nat × Nat) : Bool := s.commitPending p.1 && p.2 != bit (s.bankB p.1)

/-- The barges that were running or saved when the last of the listed banks became active (R63). -/
def State.epochBarges (s : State) (banks : List (Nat × Nat)) : List Nat :=
  ((banks.map fun (p, k) => SMap.get (fun _ => (0, [])) s.hq.activations (2 * p + k)).foldl
    (fun a x => if a.1 < x.1 then x else a) (0, [])).2

def State.configEpoch (s : State) (it : Item) : State :=
  let n := it.f 98 96
  let slots := List.range n
  let banks := slots.map fun i => (epochPage it i, s.bankWith (epochPage it i) (epochSeq it i))
  if !(it.plain && it.f 127 99 == 0 && n ≤ 6 && slots.all fun i => epochRsvd it i == 0) then s.settle it fCFG
  else if n = 0 then s.settle it fZERO
  else if !(banks.all fun (p, b) => pageExists p && b.isSome) then s.settle it fCFG
  else
    let all := banks.map fun (p, b) => (p, b.getD 0)
    s.updItem it.j fun x => { x with
      stage := .waiting, banks := all.filter s.bankWaits, rejected := all.any fun (p, k) => s.hq.rejBanks.contains (2 * p + k)
      awaits := s.epochBarges all }

/-- CONFIG_EPOCH: item `j` (R63). -/
def execConfigEpoch (j : Nat) (s : State) : Host.Outcome State Fault Refusal :=
  s.engine fun s => s.process j 4 State.configEpoch

def State.epochComplete (s : State) (it : Item) : State :=
  if !it.banks.isEmpty then s
  else if it.rejected then s.settle it fCFG
  else if it.awaits.any s.startedIds.contains then s
  else (s.setRegN pHQ 0x06C (it.f 95 64)).settle it fDONE

/-- CONFIG_EPOCH_COMPLETE: item `j` (R63). -/
def execConfigEpochComplete (j : Nat) (s : State) : Host.Outcome State Fault Refusal :=
  s.engine fun s => match s.item? j with
    | some it => if it.type = 4 && it.stage == .waiting then s.epochComplete it else s
    | none => s

/-- FENCE: item `j` (R64). -/
def execFence (j : Nat) (s : State) : Host.Outcome State Fault Refusal :=
  s.engine fun s => s.process j 7 fun s it =>
    if it.plain && it.f 511 66 == 0 then s.updItem j fun x => { x with stage := .waiting } else s.settle it fCFG

/-- Every earlier entry that a FENCE waits for is finished (R64). -/
def State.fenceItemMet (s : State) (it : Item) : Bool :=
  s.hq.items.all fun x =>
    !decide (x.order < it.order) || !(x.sq == it.sq || it.f 64 64 == 1)
      || (it.f 65 65 == 1 && x.type == 2 && x.stage == .admitted)

/-- FENCE_COMPLETE: item `j` (R64). -/
def execFenceComplete (j : Nat) (s : State) : Host.Outcome State Fault Refusal :=
  s.engine fun s => match s.item? j with
    | some it => if it.type = 7 && it.stage == .waiting && s.fenceItemMet it then s.settle it fDONE else s
    | none => s

/-! ### CQ records (R53, R54, R67, R69, R75, R267, R271, R285) -/

/-- The message of a CQ, after the writes it reports (R54, R429). -/
def State.signalCq (s : State) (c : Nat) : State :=
  let tags := (s.hq.dmaWrites.filter fun w => w.owner == .record c).map (·.tag)
  (s.setCq c { s.cq c with unsignalled := 0, firstUnsignalled := none }).raise (fld (s.cqCtrl c) 23 16) tags

/-- The fate of a request that ends under R279 (R285). -/
def Berth.endFate (be : Berth) : Nat := if be.late then fDONE_LATE else if be.routed then fDONE_FALLBACK else fDONE

/-- A TOKEN record is late (R267). -/
def Rec.lateAt (r : Rec) (now : Nat) : Bool := r.kind == .token && match r.deadline with | some d => decide (d < now) | none => false

/-- What a late TOKEN record counts (R267, R290, R294). -/
def State.noteLate (s : State) (n : Nat) : State :=
  let be := s.berth n
  let s := (s.count pLKP 0xF8C).err pLKP 1
  let s := s.updMooring be.mooring fun x => { x with lateSteps := satAdd 32 x.lateSteps 1 }
  let s := s.acctCount be.tenant fun a =>
    if be.lastToken.isNone then { a with ttftMisses := satAdd 32 a.ttftMisses 1 } else { a with tbtMisses := satAdd 32 a.tbtMisses 1 }
  s.updBerth n fun x => { x with late := true }

/-- What the writing of a record brings with it. -/
def State.recWritten (s : State) (r : Rec) : State :=
  if r.kind == .token then
    let be := s.berth r.berth
    let s := s.extPutNat (s.journalAddr be.j) 32 (setFld (s.journalEntry be.j) 223 192 r.value0)
    let s := if r.lateAt s.now then s.noteLate r.berth else s
    let s := s.updBerth r.berth fun x => { x with
      lastToken := some s.now, kept := none
      overdue := if r.lateAt s.now && x.kept.isNone then r.deadline else none }
    let more := (s.cq (s.cqOf r.sq)).pending.any fun x => x.kind == .token && x.berth == r.berth
    if be.finished && !more then s.fateRequest r.berth (s.berth r.berth).endFate else s
  else match r.frees with
    | some n => s.freeBerth n
    | none => s

/-- The CQ has no free slot (R50). -/
def State.cqIsFull (s : State) (c : Nat) : Bool := ((s.cq c).tail + 1) % s.cqSize c = (s.cq c).head

/-- The oldest record of a CQ written into its tail slot (R53), be the ring's end beyond the populated size or not
(assumption 80). -/
def State.writeRec (s : State) (c : Nat) (r : Rec) (rest : List Rec) : State :=
  let q := s.cq c
  let r := if r.kind == .token then { r with aoUs := s.now, fate := if r.lateAt s.now then fDONE_LATE else fDONE } else r
  let s := s.locWrite (bitOf (s.cqCtrl c) 30) (s.cqBase c + 32 * q.tail) (leBytes 32 (r.bits q.phase 0)) (.record c)
  let tail := (q.tail + 1) % s.cqSize c
  let s := s.setCq c { q with
    tail := tail, phase := if tail = 0 then !q.phase else q.phase, pending := rest, full := q.full && !rest.isEmpty
    written := q.written ++ [r.journal], unsignalled := q.unsignalled + 1
    firstUnsignalled := some (q.firstUnsignalled.getD s.now) }
  let s := s.recWritten r
  let n := fld (s.cqCtrl c) 15 8
  if r.irq || (s.cq c).unsignalled ≥ n || fld (s.cqCtrl c) 7 0 = 0 then s.signalCq c else s

def State.cqWrite (s : State) (c : Nat) : State :=
  match (s.cq c).pending with
  | [] => s
  | r :: rest =>
    if !s.cqOn c then s
    else if s.cqIsFull c then (if (s.cq c).full then s else (s.setCq c { s.cq c with full := true }).err pHQ 1)
    else s.writeRec c r rest

/-- CQ_RECORD_WRITE: the oldest record of CQ `c` is written, or held for want of room (R53). -/
def execCqRecordWrite (c : Nat) (s : State) : Host.Outcome State Fault Refusal := s.engine fun s => s.cqWrite c

/-- COAL_TIME µs have passed since the first record not yet signalled (R54). -/
def State.coalExpired (s : State) (c : Nat) : Bool :=
  match (s.cq c).firstUnsignalled with
  | some t => decide (t + fld (s.cqCtrl c) 7 0 ≤ s.now)
  | none => false

/-- COAL_TIME_EXPIRY: of CQ `c` (R54). -/
def execCoalTimeExpiry (c : Nat) (s : State) : Host.Outcome State Fault Refusal :=
  s.engine fun s => if s.coalExpired c then s.signalCq c else s

/-! ### Maintenance mode (R80, R300) -/

/-- Every piece in every region is absent (R300). -/
def State.dropPieces (s : State) : State :=
  { s with
    regions := s.regions.filterMap fun (r, x) =>
      let y := { x with pieces := [], moored := [] }
      if y = {} then none else some (r, y) }

def State.enterMaint (s : State) : State :=
  { s.dropPieces with hq := { s.hq with maint := true, maintPending := false } }

/-- A committed MAINT may take effect: no berth is occupied, and no barge has started and not ended (R80; assumption 81). -/
def State.maintMayEnter (s : State) : Bool :=
  s.hq.maintPending && (s.sv.berths.all fun (_, b) => b.st == .free) && s.sv.barges.all fun b => b.solo && !b.started

/-- MAINT_ENTRY (R80). -/
def execMaintEntry (s : State) : Host.Outcome State Fault Refusal :=
  s.engine fun s => if s.maintMayEnter then s.enterMaint else s

end Sys2Proof.Machine
end

