-- ==== Sys2Proof/Machine/LockKeeper.lean ====
section
/-! DEFINITION. Filling and closing manifests (R273 to R281, R288, R289), training holds (R182), and the tollhouse's clock:
refills (R287) and reports (R290). -/

namespace Sys2Proof.Machine

open Sys2Proof

/-! ### Filling (R274 to R277) -/

/-- A manifest being filled: slots left, prefill slots left, rows with their version slots, and what was placed. -/
structure Fill where
  left : Nat
  pre : Nat
  rows : List (ManRow × Nat) := []
  placed : List Nat := []
  train : Option Nat := none
deriving DecidableEq, Repr

/-- Decode, prefill, training (R278). -/
def ManRow.part (r : ManRow) : Nat := r.kind

/-- What rows of one segment share (R156, R278). -/
def segKey (x : ManRow × Nat) : List Nat := [x.1.part, x.1.adapter, x.1.tenant, x.2]

/-- The limits of R277. -/
def fillLimits (rows : List (ManRow × Nat)) : Bool :=
  rows.length ≤ 8192 && (uniq (rows.map (·.1.adapter))).length ≤ 8192 && (uniq (rows.map segKey)).length ≤ 16384

/-- A decode row placed in up to `cap` slots (R276). -/
def State.placeDecode (s : State) (cap : Nat) (f : Fill) (n : Nat) : Fill × Nat :=
  let be := s.berth n
  if cap = 0 || f.placed.contains n || be.st != .decode then (f, cap)
  else
    let d := min (min be.draftMax (be.maxTokens - be.delivered - 1)) (cap - 1)
    let row : ManRow := { kind := 0, draft := d, adapter := be.adapter, tenant := be.tenant, berth := n, position := be.committed }
    let rows := f.rows ++ [(row, be.pin.getD 0)]
    if fillLimits rows then ({ f with left := f.left - (d + 1), rows := rows, placed := f.placed ++ [n] }, cap - (d + 1)) else (f, cap)

/-- A prefill chunk placed whole or not at all in up to `cap` slots (R276). -/
def State.placeChunk (s : State) (cap : Nat) (f : Fill) (n : Nat) : Fill × Nat :=
  let be := s.berth n
  let c := min (2 ^ be.chunkLog2) be.uncommitted
  if f.placed.contains n || !(be.st == .queued || be.st == .prefill) || c = 0 || cap < c || f.pre < c then (f, cap)
  else
    let new := (List.range c).map fun k =>
      (({ kind := 1, adapter := be.adapter, tenant := be.tenant, berth := n, position := be.committed + k } : ManRow), be.pin.getD 0)
    let rows := f.rows ++ new
    if fillLimits rows then ({ f with left := f.left - c, pre := f.pre - c, rows := rows, placed := f.placed ++ [n] }, cap - c)
    else (f, cap)

/-- Requests placed one after another in up to `cap` slots; what is left of `cap`. -/
def fillAll (place : Nat → Fill → Nat → Fill × Nat) (cap : Nat) (f : Fill) (ns : List Nat) : Fill × Nat :=
  ns.foldl (fun (f, cap) n => place cap f n) (f, cap)

/-- The same in all the slots left. -/
def fillRest (place : Nat → Fill → Nat → Fill × Nat) (f : Fill) (ns : List Nat) : Fill :=
  ns.foldl (fun f n => (place f.left f n).1) f

/-- Reserved rows of cyclic tenant `k`: LC decode, LC prefill, then BE, whatever the account's state (R275, R280, R281). -/
def State.fillCyclic (s : State) (m : Nat) (f : Fill) (k : Nat) : Fill :=
  let c := s.cfg pLKP (0x300 + 4 * k)
  if !bitOf c 31 || fld c 27 24 != m then f
  else
    let entry := s.cfgN pLKP (0x400 + 4 * (s.mooring m).framePos)
    let r := min (32 * nfld entry (8 * k + 7) (8 * k)) f.left
    let ns := (s.berthsOf m).filter fun n => (s.berth n).placeable && (s.berth n).tenant == fld c 19 0
    let lc := sortBy s.deadlineLe (ns.filter fun n => !(s.berth n).be)
    let be := sortBy s.admissionLe (ns.filter fun n => (s.berth n).be)
    let (f, r) := fillAll s.placeDecode r f lc
    let (f, r) := fillAll s.placeChunk r f lc
    let (f, r) := fillAll s.placeDecode r f be
    (fillAll s.placeChunk r f be).1

/-- The rows of a submitted barge with their training slots (R182). -/
def State.trainRows (s : State) (m : Nat) (it : Item) : List (ManRow × Nat) :=
  (List.range (it.f 95 80)).map fun i =>
    let r := manRow (s.manRaw (it.f 303 256) i)
    (r, if r.adapter != 0 && s.hasDesc m r.adapter then s.trainSlot m r.adapter else 0)

/-- A training segment's slot is pinned (R182). -/
def State.trainHeldNow (s : State) (m : Nat) (it : Item) : Bool :=
  (List.range (it.f 111 96)).any fun i => s.trainPinned m (segEntry (s.manRaw (it.f 367 320) i)).adapter

/-- Step 6 of R275: the oldest submitted barge, if it is not held and fits. -/
def State.fillTrain (s : State) (m : Nat) (f : Fill) : Fill :=
  match (s.mooring m).trainQueue.head?.bind s.item? with
  | none => f
  | some it =>
    let rows := f.rows ++ s.trainRows m it
    if s.sv.trainHeld.contains it.j || s.trainHeldNow m it || f.left < it.f 95 80 || !fillLimits rows then f
    else { f with left := f.left - it.f 95 80, rows := rows, train := some it.j }

/-- FRAME_LEN (R280). -/
def State.frameLen (s : State) : Nat := fld (s.cfg pLKP 0x310) 8 0

/-- R275. -/
def State.fill (s : State) (m : Nat) : Fill :=
  let f : Fill := { left := s.tokenBudget m - s.beFloor m, pre := s.prefillBudget m }
  let f := if s.frameLen = 0 then f else (List.range 4).foldl (s.fillCyclic m) f
  let ns := (s.berthsOf m).filter s.ready
  let lc := sortBy s.deadlineLe (ns.filter s.fillsLc)
  let be := sortBy s.admissionLe (ns.filter fun n => !s.fillsLc n)
  let f := fillRest s.placeDecode f lc
  let f := fillRest s.placeChunk f lc
  let f := { f with left := f.left + s.beFloor m }
  let f := fillRest s.placeDecode f be
  let f := fillRest s.placeChunk f be
  s.fillTrain m f

/-! ### The manifest as written (R278) -/

/-- The order of rows: by segment, then by berth and position; training rows keep their order (R278). -/
def rowLe (a b : ManRow × Nat) : Bool :=
  let key (x : ManRow × Nat) := segKey x ++ (if x.1.kind = 2 then [] else [x.1.berth, x.1.position])
  lexLe (key a) (key b)

/-- Ordered rows numbered by segment. -/
def numberRows : Nat → Option (List Nat) → List (ManRow × Nat) → List (ManRow × Nat)
  | _, _, [] => []
  | k, prev, x :: xs =>
    let k' := match prev with
      | none => 0
      | some p => if p = segKey x then k else k + 1
    ({ x.1 with segment := k' }, x.2) :: numberRows k' (some (segKey x)) xs

/-- The segment table of ordered, numbered rows (R154). -/
def segsOf (rows : List (ManRow × Nat)) : List Seg :=
  (uniq (rows.map (·.1.segment))).map fun k =>
    let mine := rows.filter (·.1.segment == k)
    { adapter := (mine.head?.map (·.1.adapter)).getD 0, tenant := (mine.head?.map (·.1.tenant)).getD 0
      vslot := (mine.head?.map (·.2)).getD 0, count := mine.length, first := (rows.takeWhile (·.1.segment != k)).length }

/-- A manifest row's bits (R60). -/
def ManRow.bits (r : ManRow) : Nat :=
  r.kind * 2 ^ 126 + r.draft * 2 ^ 122 + r.adapter * 2 ^ 100 + r.tenant * 2 ^ 80 + r.berth * 2 ^ 64 + r.position * 2 ^ 32 + r.segment

/-- A segment table entry's bits (R154). -/
def Seg.bits (g : Seg) : Nat :=
  g.adapter * 2 ^ 108 + g.tenant * 2 ^ 88 + g.vslot * 2 ^ 64 + g.count * 2 ^ 16 + g.first

/-- The summary's bytes (R278). -/
def summaryBytes (rows : List ManRow) (segs : List Seg) (step slots : Nat) : List Byte :=
  let n (k : Nat) := (rows.filter (·.kind == k)).length
  let g (k : Nat) := (segs.filter fun x => (rows.drop x.first).head?.elim false (·.kind == k)).length
  leBytes 2 (n 0) ++ leBytes 2 (n 1) ++ leBytes 2 (n 2) ++ leBytes 2 segs.length ++ leBytes 2 (g 0) ++ leBytes 2 (g 1)
    ++ leBytes 2 (uniq (rows.map (·.adapter))).length ++ leBytes 2 0 ++ leBytes 4 step ++ leBytes 4 slots ++ leBytes 40 0

/-! ### Closing (R273, R288 to R290) -/

/-- A commit of a serving page waits for its boundary (R451). -/
def State.servingPending (s : State) : Bool := s.commitPending pLKP || s.commitPending pTOLL || s.commitPending pSPD

/-- Mooring `m` may close a manifest (R273, R75, R80). -/
def State.mayClose (s : State) (m : Nat) : Bool :=
  s.moorOn m && s.atBoundary m && !s.hq.maint && !(s.rows.pauses.any fun p => bitOf p.moorings m) && !(s.mooring m).rewriting
    && !s.servingPending && s.journalNext.isSome

/-- The charge of a row at close, in 1/256 token (R288). -/
def State.rowCharge (s : State) (r : ManRow) : Nat :=
  if r.kind = 0 then 256 * (r.draft + 1) else if r.kind = 1 then s.wp else 0

/-- A placed request: it leaves QUEUED, its first placement is noted, and its rows are charged (R271, R288, R290). -/
def State.placeRequest (s : State) (id : Nat) (rows : List ManRow) (n : Nat) : State :=
  let be := s.berth n
  let wait := s.now - be.admitUs
  let s := if be.placed then s else s.acctCount be.tenant fun a =>
    { a with waitSum := satAdd 64 a.waitSum wait, waitMax := max a.waitMax (min wait (2 ^ 32 - 1)) }
  let s := s.updBerth n fun x => { x with
    st := if x.st == .queued then .prefill else x.st
    barge := some id, placed := true, closeDeadline := be.deadline }
  s.balance (s.acctOf be.tenant) (-(((rows.filter fun r => r.kind != 2 && r.berth == n).map s.rowCharge).foldl (· + ·) 0 : Nat))

/-- A closed manifest counts for an account that is overdrawn (R290). -/
def Account.noteClose (a : Account) : Account :=
  if a.isOverdrawn then { a with overdrawn := satAdd 32 a.overdrawn 1 } else a

/-- The counts of a manifest close: overdrawn accounts, and requests left out (R290). -/
def State.closeCounts (s : State) (m : Nat) (f : Fill) : State :=
  let ns := (s.berthsOf m).filter fun n => (s.berth n).placeable
  let s : State := { s with sv := { s.sv with accounts := s.sv.accounts.map fun x => (x.1, x.2.noteClose) } }
  (ns.filter fun n => s.ready n && !f.placed.contains n).foldl
    (fun s n => s.acctCount (s.berth n).tenant fun a => { a with preemptions := satAdd 32 a.preemptions 1 }) s

/-- A submitted barge held under R182 counts once. -/
def State.noteHold (s : State) (m : Nat) : State :=
  match (s.mooring m).trainQueue.head?.bind s.item? with
  | some it =>
    if !s.trainHeldNow m it || s.sv.trainHeld.contains it.j then s
    else
      let s := if s.sv.trainCounted.contains it.j then s else s.count pSPD 0xF24
      { s with sv := { s.sv with trainHeld := s.sv.trainHeld ++ [it.j], trainCounted := uniq (s.sv.trainCounted ++ [it.j]) } }
  | none => s

/-- The image descriptor's fields (R298). -/
def imgProgram (d : BitVec 512) : Nat := fld d 63 0
def imgLen (d : BitVec 512) : Nat := fld d 95 64
def imgGap (d : BitVec 512) : Nat := fld d 111 96
def imgRegions (d : BitVec 512) : Nat := fld d 115 112
def imgInPool (d : BitVec 512) : Bool := bitOf d 120
def imgList (d : BitVec 512) : Nat := fld d 191 128
def imgCount (d : BitVec 512) : Nat := fld d 223 192
def imgProgOfs (d : BitVec 512) : Nat := fld d 255 224
def imgMoorOfs (d : BitVec 512) : Nat := fld d 287 256
def imgGen (d : BitVec 512) : Nat := fld d 319 288

/-- The manifest closed: written, its barge made an item, its rows charged (R70, R75, R278, R288). -/
def State.close (s : State) (m j : Nat) (f : Fill) : State :=
  let s := s.closeCounts m f
  let num := numberRows 0 none (sortBy rowLe f.rows)
  let rows := num.map (·.1)
  let segs := segsOf num
  let it? := f.train.bind s.item?
  let step := it?.elim 0 (·.f 159 128)
  let slots := (rows.map fun r => r.draft + 1).foldl (· + ·) 0
  let img := (s.mooring m).image
  let id := s.sv.nextBarge
  let b : Barge :=
    { id := id, journal := some j, number := s.hq.bargeNo, mooring := m, carried := f.train, step := step
      program := imgProgram img, progLen := imgLen img, progPool := if imgInPool img then some (imgProgOfs img) else none
      need := imgRegions img, maxGap := imgGap img, rows := rows, segs := segs
      lc := rows.any fun r => r.kind != 2 && s.fillsLc r.berth, order := s.hq.orders, slots := slots, closedAt := s.now }
  let a := s.areaOf m
  let s := s.extWrite a (summaryBytes rows segs step slots)
  let s := s.extWrite (a + 0x1000) (rows.flatMap fun r => leBytes 16 r.bits)
  let s := s.extWrite (a + 0x21000) (segs.flatMap fun g => leBytes 16 g.bits)
  let s := s.journalOpen j { kind := .barge, value0 := b.number, value1 := m * 2 ^ 16 + rows.length, aoUs := s.now }
  let s := { s with
    sv := { s.sv with barges := s.sv.barges ++ [b], nextBarge := id + 1, trainCounted := s.sv.trainCounted.filter fun x => some x != f.train }
    hq := { s.hq with bargeNo := s.hq.bargeNo + 1, orders := s.hq.orders + 1 } }
  let s := s.updMooring m fun x => { x with
    trainQueue := x.trainQueue.filter fun x => some x != f.train
    framePos := (x.framePos + 1) % max s.frameLen 1 }
  let s := f.placed.foldl (fun s n => s.placeRequest id rows n) s
  s.count pLKP 0xF9C

def State.manifestClose (s : State) (m : Nat) : State :=
  if !s.mayClose m then s else
    let s := (s.boundary m).noteHold m
    let f := s.fill m
    match s.journalNext with
    | some j => if f.rows.isEmpty then s else s.close m j f
    | none => s

/-- MANIFEST_CLOSE: mooring `m` (R273, R275, R278, R288). -/
def execManifestClose (m : Nat) (s : State) : Host.Outcome State Fault Refusal := s.engine fun s => s.manifestClose m

/-- The held submitted barge `j` finds every pin-table entry of its training slots gone (R182). -/
def State.releaseTrain (s : State) (j : Nat) : State :=
  match s.item? j with
  | some it =>
    if s.sv.trainHeld.contains j && !s.trainHeldNow (it.f 75 72) it then
      { s with sv := { s.sv with trainHeld := s.sv.trainHeld.filter (· != j) } }
    else s
  | none => s

/-- TRAIN_HOLD_RELEASE: the held submitted barge `j` (R182). -/
def execTrainHoldRelease (j : Nat) (s : State) : Host.Outcome State Fault Refusal := s.engine fun s => s.releaseTrain j

/-! ### Refills and reports (R287, R290) -/

/-- One account's balance refilled (R287). -/
def Account.refill (a : Account) : Account :=
  if a.valid then { a with balance := min (satBalance (a.balance + 256 * (a.rate : Int))) (256 * (a.burst : Int)) } else a

/-- Every account's balance refilled. -/
def State.refill (s : State) : State :=
  let t : State := { s with sv := { s.sv with accounts := s.sv.accounts.map fun x => (x.1, x.2.refill) } }
  t.noteDefers

/-- The multiples of REFILL_US that ao_us has reached. -/
def State.refillsDue (s : State) : Nat := if s.cfgN pTOLL 0x10C = 0 then 0 else s.now / s.cfgN pTOLL 0x10C

/-- TOLL_REFILL: the next multiple of REFILL_US is reached (R287). -/
def execTollRefill (s : State) : Host.Outcome State Fault Refusal :=
  s.engine fun s =>
    if s.sv.refills < s.refillsDue then { s.refill with sv := { s.refill.sv with refills := s.sv.refills + 1 } } else s

/-- A balance as 64 bits, sign-extended. -/
def balanceNat (x : Int) : Nat := (BitVec.ofInt 64 x).toNat

/-- An account record of a report (R290). -/
def Account.bytes (a : Account) : List Byte :=
  leBytes 8 (balanceNat a.balance) ++ leBytes 8 a.waitSum
    ++ ([a.waitMax, a.outTokens, a.prefillTokens, a.draftsRejected, a.ttftMisses, a.tbtMisses, a.preemptions, a.admitted, a.rejected,
        a.overdrawn, a.tenant].flatMap (leBytes 4)) ++ leBytes 4 0

/-- A mooring record of a report (R290). -/
def State.moorBytes (s : State) (m : Nat) : List Byte :=
  let x := s.mooring m
  [x.est, x.solo.getD 0, x.shared.getD 0, x.slowdown, x.bargesEnded, (s.berthsOf m).length, x.routed, x.lateSteps].flatMap (leBytes 4)

/-- Report `w`, whole (R290). -/
def State.reportBytes (s : State) (w : Nat) : List Byte :=
  leBytes 8 w ++ leBytes 8 s.sv.reportStart ++ leBytes 8 s.now ++ leBytes 2 s.selfId ++ leBytes 38 0
    ++ (List.range 16).flatMap s.moorBytes ++ leBytes (4096 - 0x240) 0
    ++ (List.range 16384).flatMap fun n => (s.account n).bytes

/-- The window has run REPORT_US µs under a committed TOLL bank. -/
def State.reportDue (s : State) : Bool :=
  s.cfgN pTOLL 0x11C != 0 && decide (s.sv.reportStart + s.cfgN pTOLL 0x11C ≤ s.now)

def State.report (s : State) : State :=
  let w := s.sv.reportNo
  let s := s.extWrite (s.cfgAddr pTOLL 0x114 + 0x101000 * (w % 2)) (s.reportBytes w)
  let s := s.setRegN pTOLL 0xF00 (w % 2 ^ 32)
  let s := { s with sv := { s.sv with reportNo := w + 1, reportStart := s.now } }
  if bitOf (s.cfg pTOLL 0x120) 1 then s.raise (fld (s.cfg pTOLL 0x120) 15 8) else s

/-- TOLL_REPORT (R290). -/
def execTollReport (s : State) : Host.Outcome State Fault Refusal :=
  s.engine fun s => if s.reportDue then s.report else s

end Sys2Proof.Machine
end

