-- ==== Sys2Proof/Machine/Fabric.lean ====
section
/-! DEFINITION. The Pukulek fabric's shared operations: ids and neighbours (R316, R319, R320), packets and their suiting
(R328 to R330), routes (R335, R336), the link layer's sending side (R324 to R326, R334), tags (R332), and responses
(R329, R331). -/

namespace Sys2Proof.Machine

open Sys2Proof

/-! ### Ids and neighbours -/

def idPos (id : Nat) : Nat := id % 8
def idBoard (id : Nat) : Nat := id / 8 % 64
def idRack (id : Nat) : Nat := id / 512 % 16
def idOf (rack board pos : Nat) : Nat := rack * 512 + board * 8 + pos

/-- GEOMETRY (R343). -/
def State.hallRacks (s : State) : Nat := fld (s.cfg pFAB 0x104) 20 16
def State.rackBoards (s : State) : Nat := fld (s.cfg pFAB 0x104) 14 8
def State.boardEngines (s : State) : Nat := fld (s.cfg pFAB 0x104) 3 0

/-- An engine id inside the geometry. -/
def State.inHall (s : State) (id : Nat) : Bool :=
  idRack id < s.hallRacks && idBoard id < s.rackBoards && idPos id < s.boardEngines && id < 2 ^ 13

/-- The effective timeout (R340). -/
def State.fabTimeout (s : State) : Nat := max (s.cfgN pFAB 0x110) 64

/-- EPOCH (R389). -/
def State.epoch (s : State) : Nat := s.regN pRST 0xF14 % 256

/-- The stages of a route (R335), as the levels of the ports that serve them: 4 the board, 3 the inner ring, 2 the outer
ring, 1 the hall ring. -/
def portStage (port : Nat) : Nat := if port < 14 then 4 else if port < 18 then 3 else if port < 22 then 2 else 1

/-- The size of a stage's ring. -/
def State.ringSize (s : State) (stage : Nat) : Nat :=
  if stage = 1 then s.hallRacks
  else if stage = 2 then (if s.rackBoards ≤ 8 then 1 else s.rackBoards / 8)
  else min s.rackBoards 8

/-- The index of an engine on a stage's ring. -/
def State.ringIndex (s : State) (stage id : Nat) : Nat :=
  if stage = 1 then idRack id
  else if stage = 2 then (if s.rackBoards ≤ 8 then 0 else idBoard id / 8)
  else if s.rackBoards ≤ 8 then idBoard id else idBoard id % 8

/-- The ports towards the next and the previous neighbour of a ring. -/
def ringPorts (stage : Nat) (next : Bool) : List Nat :=
  if stage = 1 then (if next then [22] else [23])
  else if stage = 2 then (if next then [18, 19] else [20, 21])
  else if next then [14, 15] else [16, 17]

/-- The board ports towards position `q` from position `p` (R319). -/
def boardPorts (p q : Nat) : List Nat := let j := if q < p then q else q - 1; [2 * j, 2 * j + 1]

/-- The peer that a port expects: its id and its port (R319, R320). -/
def State.expectedPeer (s : State) (port : Nat) : Option (Nat × Nat) :=
  let me := s.selfId
  let p := idPos me
  let b := idBoard me
  let stage := portStage port
  if stage = 4 then
    let j := port / 2
    let q := if j < p then j else j + 1
    if q < s.boardEngines then some (idOf (idRack me) b q, 2 * (if p < q then p else p - 1) + port % 2) else none
  else
    let n := s.ringSize stage
    if n ≤ 1 then none
    else
      let i := s.ringIndex stage me
      let next := (ringPorts stage true).contains port
      let t := if next then (i + 1) % n else (i + n - 1) % n
      let id := if stage = 1 then idOf t b p
        else if stage = 2 then idOf (idRack me) (t * 8 + b % 8) p
        else idOf (idRack me) (if s.rackBoards ≤ 8 then t else b / 8 * 8 + t) p
      let back := (ringPorts stage (!next)).getD ((ringPorts stage next).idxOf port) 0
      some (id, back)

/-! ### Packets -/

/-- Requests that have a response (R329). -/
def hasResponse (op : Nat) : Bool := (1 ≤ op && op ≤ 6) || op == 9

/-- The VCs on which an OP travels (R329). -/
def opVcs (op : Nat) : List Nat :=
  if op = 1 then [1, 5] else if op = 2 then [5, 6] else if op = 3 || op = 4 then [1] else if op = 5 then [3]
  else if op = 6 then [6] else if op = 7 then [4] else if op = 8 then [0] else if op = 9 then [7]
  else if (0x81 ≤ op && op ≤ 0x86) || op = 0x89 then [2] else []

/-! Fields of an update message (R249, R329). -/

def mStep (p : Packet) : Nat := nfld (leNat (p.payload.take 32)) 223 192
def mSequence (p : Packet) : Nat := nfld (leNat (p.payload.take 32)) 191 160
def mEpoch (p : Packet) : Nat := nfld (leNat (p.payload.take 32)) 159 152
def mSource (p : Packet) : Nat := nfld (leNat (p.payload.take 32)) 151 139
def mKind (p : Packet) : Nat := nfld (leNat (p.payload.take 32)) 135 128
def mMult (p : Packet) : Nat := nfld (leNat (p.payload.take 32)) 127 88
def mDim (p : Packet) : Nat := 16 * nfld (leNat (p.payload.take 32)) 87 81
def mTable (p : Packet) : Nat := nfld (leNat (p.payload.take 32)) 51 40
def mRow (p : Packet) : Nat := nfld (leNat (p.payload.take 32)) 39 0
def mSeq (p : Packet) : Word := BitVec.ofNat 32 (nfld (leNat (p.payload.take 32)) 255 224)
def mGrad (p : Packet) : List Word := (groups 4 (mDim p) (p.payload.drop 32)).map (BitVec.ofNat 32)

def kUPDATE : Nat := 0x10
def kNOTICE : Nat := 0x11

/-! Fields of a ROW_MOVE (R330). -/

def mvKind (p : Packet) : Nat := leNat (p.payload.take 1)
def mvNum (p : Packet) : Nat := leNat ((p.payload.drop 4).take 4)
def mvRow (p : Packet) : Nat := nfld (leNat ((p.payload.drop 8).take 8)) 39 0
def mvTable (p : Packet) : Nat := nfld (leNat ((p.payload.drop 8).take 8)) 51 40

/-! Fields of a response to a row request or an update message (R228, R247). -/

def kROW : Nat := 0x81
def kCURRENT : Nat := 0x82
def kFORWARD : Nat := 0x83
def kNOT_OWNER : Nat := 0x84
def kMERGED : Nat := 0x85
def kSTALE : Nat := 0x86

def respHdr (p : Packet) : Nat := leNat (p.payload.take 32)
def respKind (p : Packet) : Nat := nfld (respHdr p) 207 200
def respOwner (p : Packet) : Nat := nfld (respHdr p) 223 211
def respStep (p : Packet) : Nat := nfld (respHdr p) 255 224
def respDr (p : Packet) : Nat := nfld (respHdr p) 193 192
def respLen (p : Packet) : Nat := nfld (respHdr p) 191 176

/-- LEN suits the OP (R228, R249, R328 to R330, R358, R362). The alignment rules of R318 are a responder's (BAD_ADDR). -/
def lenSuits (p : Packet) : Bool :=
  let n := p.len
  n ≤ 4160 &&
    (if p.op = 4 || p.op = 0x85 then n == 32
     else if p.op = 5 then (if mKind p = kUPDATE then 16 ≤ mDim p && mDim p ≤ 1024 && n == upTo (32 + 4 * mDim p) 64 else mKind p == kNOTICE && n == 64)
     else if p.op = 0x84 then (if respKind p = kROW then n == 32 + respLen p else n == 32)
     else if p.op = 6 then (if mvKind p = 1 || mvKind p = 4 then 16 < n && n ≤ 16 + 4096 else (mvKind p == 2 || mvKind p == 3) && n == 16)
     else if p.op = 7 then 64 ≤ n else if p.op = 8 then 16 ≤ n && n ≤ 80
     else if p.op = 9 || p.op = 0x89 || p.op = 0x81 then n ≤ 4096
     else if p.op = 0x82 || p.op = 0x83 then n == 0 else if p.op = 0x86 then 1 ≤ n else true)

/-- A packet is well formed (R328, R329); any other is dropped under BAD_PACKET. -/
def packetOk (p : Packet) : Bool :=
  (opVcs p.op).contains p.vc && (lenSuits p || (p.status != 0 && 0x80 ≤ p.op && p.len == 0))
    && p.payload.length == (if p.op = 1 then 0 else p.len)

/-- A malformed packet is dropped (R329). -/
def State.badPacket (s : State) : State := s.err pFAB 1

/-- The header's 256 bits (R328). -/
def pktHeader (p : Packet) : Nat :=
  p.addr % 2 ^ 44 * 2 ^ 212 + p.dest % 2 ^ 13 * 2 ^ 199 + p.src % 2 ^ 13 * 2 ^ 186 + p.tag % 2 ^ 17 * 2 ^ 169
    + p.gen % 8 * 2 ^ 166 + p.vc % 8 * 2 ^ 163 + p.op % 256 * 2 ^ 155 + p.len % 2 ^ 13 * 2 ^ 142 + p.status % 16 * 2 ^ 138
    + p.rdir % 4 * 2 ^ 136 + p.epoch % 256 * 2 ^ 128 + p.poison.toNat * 2 ^ 64 + p.imm.toNat

/-- A packet as it travels. -/
def pktBytes (p : Packet) : List Byte := leBytes 32 (pktHeader p) ++ p.payload

/-- A packet read from its bytes; what follows its payload is padding (R323). -/
def packetOf (bs : List Byte) : Packet :=
  let h := leNat (bs.take 32)
  let op := nfld h 162 155
  let len := nfld h 154 142
  { addr := nfld h 255 212, dest := nfld h 211 199, src := nfld h 198 186, tag := nfld h 185 169, gen := nfld h 168 166
    vc := nfld h 165 163, op := op, len := len, status := nfld h 141 138, rdir := nfld h 137 136, epoch := nfld h 135 128
    poison := BitVec.ofNat 64 (nfld h 127 64), imm := BitVec.ofNat 64 (nfld h 63 0)
    payload := if op = 1 then [] else (bs.drop 32).take len }

/-- Flits of a packet (R323). -/
def pktFlits (p : Packet) : Nat := divUp (32 + p.payload.length) 56

/-- Poisoned units of a payload: unit `i` is marked by bit `min i 63` (R328). -/
def unitBad (p : Packet) (i : Nat) : Bool := bitOf p.poison (min i 63)
def anyBad (p : Packet) : Bool := p.poison != 0

/-- POISON_MAP of the listed units. -/
def poisonMap (units : List Nat) : BitVec 64 := BitVec.ofNat 64 (ofBits (units.map (min · 63)))

/-! ### Routes -/

def State.fport (s : State) (n : Nat) : Port := SMap.get (fun _ => {}) s.fab.ports n
def State.setPort (s : State) (n : Nat) (x : Port) : State :=
  { s with fab := { s.fab with ports := SMap.put (fun _ => {}) s.fab.ports n x } }
def State.updPort (s : State) (n : Nat) (f : Port → Port) : State := s.setPort n (f (s.fport n))

/-- The first of the links of a pair that is UP, the one PAIR_SEL selects for the VC first (R319, R335). -/
def State.linkOf (s : State) (ports : List Nat) (vc : Nat) : Option Nat :=
  let order := if bitOf (s.cfg pFAB 0x118) vc then ports.reverse else ports
  order.find? fun n => (s.fport n).st == .up

/-- The next stage towards an engine; 0 when it is this one. -/
def State.stageTo (s : State) (dest : Nat) : Nat :=
  let me := s.selfId
  if idRack dest != idRack me then 1
  else if s.ringIndex 2 dest != s.ringIndex 2 me then 2
  else if idBoard dest != idBoard me then 3
  else if idPos dest != idPos me then 4 else 0

/-- Where a packet leaves: the port and its RDIR from there on; none when it finds no route (R335). `from_` is the port it
arrived on. -/
def State.route (s : State) (p : Packet) (from_ : Option Nat) : Option (Nat × Nat) :=
  let stage := s.stageTo p.dest
  if stage = 4 then (s.linkOf (boardPorts (idPos s.selfId) (idPos p.dest)) p.vc).map fun n => (n, 0)
  else
    let n := s.ringSize stage
    let d := (s.ringIndex stage p.dest + n - s.ringIndex stage s.selfId) % n
    let rd := if from_.map portStage == some stage then p.rdir else 0
    let next := if rd = 1 then true else if rd = 2 then false else decide (d ≤ n - d)
    match s.linkOf (ringPorts stage next) p.vc with
    | some k => some (k, rd)
    | none =>
      if rd = 1 || rd = 2 then none
      else (s.linkOf (ringPorts stage (!next)) p.vc).map fun k => (k, if next then 2 else 1)

/-- The buffer class of a packet that has arrived on a port: 1 once it has crossed its ring's wrap link (R336). Where a
failover has turned it round, what it crossed before is known to the engine that turned it alone (assumption 91). -/
def State.classIn (s : State) (p : Packet) (port : Nat) : Nat :=
  let stage := portStage port
  if stage = 4 then 0
  else if p.rdir = 1 || p.rdir = 2 then bit (Config.turnedClass p.src p.dest p.rdir port)
  else
    let i := s.ringIndex stage s.selfId
    let a := s.ringIndex stage p.src
    if (ringPorts stage true).contains port then bit (a < i) else bit (i < a)

/-- A port leads over its ring's wrap link, between the highest and the lowest index (R336). -/
def State.wraps (s : State) (port : Nat) : Bool :=
  let stage := portStage port
  let i := s.ringIndex stage s.selfId
  if (ringPorts stage true).contains port then i + 1 == s.ringSize stage else i == 0

/-- The buffer class of a packet at the far end of a port (R336); `from_` is the port it arrived on. -/
def State.classOut (s : State) (p : Packet) (from_ : Option Nat) (port : Nat) : Nat :=
  if portStage port = 4 then 0
  else if s.wraps port then 1
  else match from_ with
    | some n => if portStage n = portStage port then s.classIn p n else 0
    | none => 0

/-! ### Flits (R323) -/

def kDATA : Nat := 0
def kNAK : Nat := 1
def kCREDIT : Nat := 2
def kIDLE : Nat := 3
def kINIT : Nat := 4

/-- A flit from its parts. -/
def flitOf (seq ack vc frame kind : Nat) (content : List Byte) : BitVec 512 :=
  let lcw := seq % 4096 * 2 ^ 20 + ack % 4096 * 2 ^ 8 + vc % 8 * 2 ^ 5 + frame % 4 * 2 ^ 3 + kind % 8
  let body := leBytes 4 lcw ++ (content ++ List.replicate 56 0).take 56
  BitVec.ofNat 512 (leNat (body ++ leBytes 4 (crc32c body).toNat))

def flitSeq (f : BitVec 512) : Nat := fld f 31 20
def flitAck (f : BitVec 512) : Nat := fld f 19 8
def flitVc (f : BitVec 512) : Nat := fld f 7 5
def flitFrame (f : BitVec 512) : Nat := fld f 4 3
def flitKind (f : BitVec 512) : Nat := fld f 2 0
def flitContent (f : BitVec 512) : List Byte := (leBytes 60 f.toNat).drop 4

/-- The flit's CRC is good and its kind is not reserved (R323). -/
def flitGood (f : BitVec 512) : Bool := (crc32c (leBytes 60 f.toNat)).toNat == fld f 511 480 && flitKind f ≤ 4

/-- The number that acknowledges everything received in order on a port. -/
def Port.ack (x : Port) : Nat := (x.rxExpect + 4095) % 4096

/-- The last DATA SEQ sent. -/
def Port.lastSeq (x : Port) : Nat := (x.txSeq + 4095) % 4096

/-- A control flit is sent. -/
def State.sendControl (s : State) (n kind : Nat) (content : List Byte) : State :=
  s.updPort n fun x => { x with control := x.control ++ [flitOf x.lastSeq x.ack 0 0 kind content] }

/-! ### Sending packets (R326, R334) -/

/-- Flits of buffer that a port holds credit for, by VC and class (R326). -/
def Port.credit (x : Port) (vc cls : Nat) : Nat := SMap.get (fun _ => 256) x.credits (2 * vc + cls)

/-- The weight of a VC (R345). -/
def State.weight (s : State) (vc : Nat) : Nat :=
  if vc = 0 then 0 else if vc ≤ 4 then fld (s.cfg pVCH 0x100) (8 * vc - 1) (8 * vc - 8)
  else fld (s.cfg pVCH 0x104) (8 * vc - 33) (8 * vc - 40)

/-- The head packet of a VC at a port. -/
def Port.head? (x : Port) (vc : Nat) : Option Queued := x.queue.find? (·.p.vc == vc)

/-- It may be sent: credits for all of its flits, and room in the replay buffer (R324, R326). -/
def Port.canSend (x : Port) (q : Queued) : Bool :=
  pktFlits q.p ≤ x.credit q.p.vc q.cls && x.replay.length + pktFlits q.p ≤ 256

/-- FRAME of flit `k` of `n` (R323). -/
def frameOf (k n : Nat) : Nat := if n = 1 then 3 else if k = 0 then 1 else if k + 1 = n then 2 else 0

/-- The flits of a packet, from a sequence number on. -/
def flitsOf (p : Packet) (seq now : Nat) : List ReplayFlit :=
  (List.range (pktFlits p)).map fun k =>
    { seq := (seq + k) % 4096, vc := p.vc, frame := frameOf k (pktFlits p), content := ((pktBytes p).drop (56 * k)).take 56, since := now }

/-- DATA flits leave a port: they count on their VC, and the first takes an armed CRC error (R414). -/
def State.flitsLeave (s : State) (n vc k : Nat) : State :=
  let s := s.count pVCH (0xF00 + 4 * vc) k
  if (s.fport n).badCrc && k != 0 then (s.updPort n fun x => { x with badCrc := false }).count pERR 0xF34 else s

/-- The head packet of a VC is sent whole. -/
def State.sendHead (s : State) (n vc : Nat) : State :=
  let x := s.fport n
  match takeFirst (·.p.vc == vc) x.queue with
  | (some q, rest) =>
    let k := pktFlits q.p
    let x := { x with
      queue := rest
      replay := x.replay ++ flitsOf q.p x.txSeq s.now
      txSeq := (x.txSeq + k) % 4096
      credits := SMap.upd (fun _ => 256) x.credits (2 * vc + q.cls) (· - k)
      deficit := if vc = 0 then x.deficit
        else if rest.any (·.p.vc == vc) then SMap.upd (fun _ => 0) x.deficit vc (· - k) else SMap.put (fun _ => 0) x.deficit vc 0
      inTurn := x.inTurn && (vc != x.turn || rest.any (·.p.vc == vc)) }
    (s.setPort n x).flitsLeave n vc k
  | (none, _) => s

/-- Some packet may be sent. -/
def State.sendable (s : State) (n : Nat) : Bool :=
  (s.fport n).st == .up && (List.range 8).any fun vc =>
    (vc == 0 || s.weight vc != 0) && match (s.fport n).head? vc with
      | some q => (s.fport n).canSend q
      | none => false

/-- One step of the round robin over VC1 to VC7. -/
def State.arbTurn (s : State) (n : Nat) : State :=
  let x := s.fport n
  let vc := x.turn
  let pass := fun (y : Port) => { y with turn := if vc = 7 then 1 else vc + 1, inTurn := false }
  match x.head? vc with
  | none => s.setPort n (pass { x with deficit := SMap.put (fun _ => 0) x.deficit vc 0 })
  | some q =>
    let x := if x.inTurn then x else { x with deficit := SMap.upd (fun _ => 0) x.deficit vc (· + s.weight vc), inTurn := true }
    if pktFlits q.p ≤ SMap.get (fun _ => 0) x.deficit vc && x.canSend q then (s.setPort n x).sendHead n vc
    else s.setPort n (pass x)

/-- One step of the output port's arbiter: VC0 first, else the VC whose turn it is (R334). -/
def State.arbStep (s : State) (n : Nat) : State :=
  let x := s.fport n
  match x.head? 0 with
  | some q => if x.canSend q then s.sendHead n 0 else s.arbTurn n
  | none => s.arbTurn n

/-- The arbiter runs while some packet may be sent. -/
def State.pumpFuel (n : Nat) : Nat → State → State
  | 0, s => s
  | fuel + 1, s => if s.sendable n then State.pumpFuel n fuel (s.arbStep n) else s

/-- An output port sends what it may. A head packet of at most 75 flits waits at most 75 rounds of 7 turns. -/
def State.pump (s : State) (n : Nat) : State := State.pumpFuel n (600 * ((s.fport n).queue.length + 1)) s

/-- A packet that arrived on a port, or was made here, is queued at a port. -/
def State.queuePacket (s : State) (from_ : Option Nat) (n : Nat) (p : Packet) : State :=
  (s.updPort n fun x => { x with queue := x.queue ++ [{ p := p, cls := s.classOut p from_ n }] }).pump n

/-- A packet finds no route (R335). -/
def State.unroutable (s : State) : State := (s.count pFAB 0xF20).err pFAB 5

/-- A packet leaves by its route, or waits among those received where it is for this engine. -/
def State.sendOut (s : State) (p : Packet) (from_ : Option Nat) : State :=
  if s.stageTo p.dest = 0 then { s with fab := { s.fab with inbox := s.fab.inbox ++ [p] } }
  else match s.route p from_ with
    | some (n, rd) => s.queuePacket from_ n { p with rdir := rd }
    | none => s.unroutable

/-- A packet that this engine originates. -/
def State.send (s : State) (p : Packet) : State :=
  { s with fab := { s.fab with sent := s.fab.sent ++ [p] } }.sendOut p none

/-! ### Tags (R332) -/

def State.tagSt (s : State) (k : Nat) : TagSt := SMap.get (fun _ => {}) s.fab.tags k
def State.setTagSt (s : State) (k : Nat) (x : TagSt) : State :=
  { s with fab := { s.fab with tags := SMap.put (fun _ => {}) s.fab.tags k x } }

def TagSt.taken (x : TagSt) : Bool := x.use.isSome || x.quarantine.isSome

/-- Tags allocated or quarantined. -/
def State.tagsTaken (s : State) : List Nat := (s.fab.tags.filter fun (_, x) => x.taken).map (·.1)

/-- A request takes a tag and is queued (R332, R340). -/
def State.launch (s : State) (use : TagUse) (p : Packet) : State :=
  let k := lowestFree s.tagsTaken
  let g := ((s.tagSt k).gen + 1) % 8
  let p := { p with src := s.selfId, tag := k, gen := g, epoch := s.epoch }
  (s.setTagSt k { gen := g, use := some use, since := s.now, request := p }).send p

/-- Requests are held back: no tag is free (R22), or the fabric unit accepts no new work (R397). -/
def State.tagsFull (s : State) : Bool := 131072 ≤ s.tagsTaken.length || s.isolated pFAB

/-- A request that has a response. -/
def State.request (s : State) (use : TagUse) (p : Packet) : State :=
  if s.tagsFull then { s with fab := { s.fab with waiting := s.fab.waiting ++ [(use, p)] } } else s.launch use p

/-- Requests that waited for a tag go, oldest first. -/
def State.sendWaiting (s : State) : State :=
  s.fab.waiting.foldl (fun s (u, p) =>
    if s.tagsFull then s else { s with fab := { s.fab with waiting := s.fab.waiting.drop 1 } }.launch u p) s

/-- A tag is freed by its response. -/
def State.freeTag (s : State) (k : Nat) : State :=
  (s.setTagSt k { gen := (s.tagSt k).gen }).sendWaiting

/-- The response matches a tag in use (R332). -/
def State.matches (s : State) (p : Packet) : Bool :=
  (s.tagSt p.tag).use.isSome && (s.tagSt p.tag).gen == p.gen && p.epoch == s.epoch

/-- A response with a stale tag, generation or epoch (R332). -/
def State.lateDrop (s : State) : State := s.count pFAB 0xF10

/-! ### Receiving packets -/

/-- Buffer space of a packet is freed; credits are returned once 16 flits are owed (R326). -/
def State.freeFlits (s : State) (n vc cls k : Nat) : State :=
  let x := s.fport n
  if x.st != .up then s else
  let x := { x with owed := SMap.upd (fun _ => 0) x.owed (2 * vc + cls) (· + k) }
  if 16 ≤ (x.owed.map (·.2)).foldl (· + ·) 0 then
    (s.setPort n { x with owed := [] }).sendControl n kCREDIT
      ((List.range 16).flatMap fun i => leBytes 2 (SMap.get (fun _ => 0) x.owed i))
  else s.setPort n x

/-- A packet is taken from those received, and its buffer space freed. -/
def State.take (s : State) (p : Packet) : State :=
  let t : State := { s with fab := { s.fab with inbox := s.fab.inbox.erase p } }
  match s.fab.arrivals.find? (·.1 == p) with
  | some (_, n) =>
    ({ t with fab := { t.fab with arrivals := t.fab.arrivals.erase (p, n) } } : State).freeFlits n p.vc (s.classIn p n) (pktFlits p)
  | none => t

/-- No packet of the same flow has been received before `p` and still waits (R18, R336). -/
def State.packetTurn (s : State) (p : Packet) (flow : Packet → Bool) : Bool := (s.fab.inbox.find? fun q => q == p || flow q).elim true (· == p)

/-- A packet that must wait for an earlier one of its flow joins those received. -/
def State.waitTurn (s : State) (p : Packet) : State :=
  if s.fab.inbox.contains p then s else { s with fab := { s.fab with inbox := s.fab.inbox ++ [p] } }

/-- Packets for this engine from the source of `p` on its VC (R18). -/
def State.flowOf (s : State) (p q : Packet) : Bool := q.dest == s.selfId && q.src == p.src && q.vc == p.vc

/-- The packet `p` is for this engine and bears one of the listed OPs: in its turn it is taken, dropped if it is malformed
(R329), and otherwise acted on. -/
def State.receive (s : State) (p : Packet) (ops : List Nat) (f : State → State) : State :=
  if !ops.contains p.op || p.dest != s.selfId then s
  else if !s.packetTurn p (s.flowOf p) then s.waitTurn p
  else if !packetOk p then (s.take p).badPacket
  else f (s.take p)

/-- The response to a request (R329, R331). -/
def response (s : State) (p : Packet) (status : Nat) (payload : List Byte) (imm : BitVec 64 := 0) (poison : BitVec 64 := 0) :
    Packet :=
  { dest := p.src, src := s.selfId, tag := p.tag, gen := p.gen, vc := 2, op := p.op + 0x80, status := status, epoch := p.epoch
    poison := poison, imm := imm, len := payload.length, payload := payload }

/-- A request is answered. -/
def State.answer (s : State) (p : Packet) (status : Nat) (payload : List Byte) (imm : BitVec 64 := 0) (poison : BitVec 64 := 0) :
    State := s.send (response s p status payload imm poison)

/-- A request from another rack that may not cross racks is answered REFUSED (R331, R338). -/
def State.refusedLevel (s : State) (p : Packet) : Bool := idRack p.src != idRack s.selfId && !(p.op == 4 || p.op == 5 || p.op == 7 || p.op == 8)

/-- A response arrives: the use of its tag is handed on, and the tag freed, unless it is dropped (R332). -/
def State.respond (s : State) (p : Packet) (f : State → TagUse → State) : State :=
  if !s.matches p then s.lateDrop
  else match (s.tagSt p.tag).use with
    | some u => f (s.freeTag p.tag) u
    | none => s

/-! ### The board master (R17, R391) -/

def State.strapCode (s : State) : Nat := fld (s.reg pRST 0xF18) 3 0
def State.strapFault (s : State) : Bool := bitOf (s.reg pRST 0xF18) 7

/-- Positions of the board that claim master: this engine's, and those of the peers whose board links are UP. -/
def State.claimants (s : State) : List Nat :=
  let mine := if 8 ≤ s.strapCode && !s.strapFault then [idPos s.selfId] else []
  let theirs := (List.range 14).filterMap fun n =>
    let x := s.fport n
    if x.st == .up && 8 ≤ x.peerStrap % 16 && x.peerStrap < 128 then some (idPos x.peer) else none
  (mine ++ theirs).eraseDups

/-- The board master's position by the claims that stand now: the lowest claimant, or 0. -/
def State.claimedPos (s : State) : Nat := match s.claimants with | [] => 0 | x :: xs => xs.foldl min x

/-- The position that acts as board master: as last evaluated. -/
def State.masterPos (s : State) : Nat := s.fab.master.getD s.claimedPos

/-- The board master's id. -/
def State.boardMaster (s : State) : Nat := s.selfId / 8 * 8 + s.masterPos

/-- The role is evaluated anew when a board link reaches UP (R391). -/
def State.settleMaster (s : State) : State :=
  let conflict := 2 ≤ s.claimants.length && s.claimants.contains (idPos s.selfId)
  let nobody := s.claimants.isEmpty
  let acts := s.claimedPos == idPos s.selfId
  let w := setFld (setFld (setFld (s.regN pRST 0xF18) 6 6 (bit conflict)) 5 5 (bit nobody)) 4 4 (bit acts)
  let s : State := { s with fab := { s.fab with master := some s.claimedPos } }
  let s := s.setRegN pRST 0xF18 w
  let s := if conflict then s.err pRST 1 else s
  if nobody then s.err pRST 2 else s

end Sys2Proof.Machine
end

