-- ==== Sys2Proof/Machine/RowStore.lean ====
section
/-! DEFINITION. The row store's own structures: the table directory (R192, R193), shard maps and owners (R195 to R198), row
images with their tags (R198 to R202), the hot directory (R203), popularity (R204), the exception table (R208), and the
optimizer's state arrays (R258, R260). -/

namespace Sys2Proof.Machine

open Sys2Proof

/-- `n` bytes at offset `o` of a structure read as a number (R10). -/
def bfld (w o n : Nat) : Nat := w / 2 ^ (8 * o) % 2 ^ (8 * n)

/-! ### The table directory -/

/-- A directory entry: its table, its slot, and its 128 bytes. -/
structure Tab where
  id : Nat
  slot : Nat
  raw : Nat
deriving DecidableEq, Repr

def Tab.geo (t : Tab) : Nat := bfld t.raw 0 8
def Tab.rows (t : Tab) : Nat := nfld t.geo 39 0
def Tab.dim (t : Tab) : Nat := 16 * nfld t.geo 46 40
def Tab.homeDr (t : Tab) : Nat := nfld t.geo 49 48
def Tab.hotDr (t : Tab) : Nat := nfld t.geo 51 50
def Tab.hotEn (t : Tab) : Bool := nbit t.geo 52
def Tab.updDefault (t : Tab) : Bool := nbit t.geo 53
def Tab.seq (t : Tab) : Word := BitVec.ofNat 32 (bfld t.raw 0x08 4)
def Tab.shardCount (t : Tab) : Nat := bfld t.raw 0x0C 4
def Tab.shardAddr (t : Tab) : Nat := bfld t.raw 0x10 8
def Tab.memberCount (t : Tab) : Nat := bfld t.raw 0x18 4
def Tab.defaultOwner (t : Tab) : Nat := bfld t.raw 0x1C 2 % 2 ^ 13
def Tab.moorMask (t : Tab) : BitVec 16 := BitVec.ofNat 16 (bfld t.raw 0x1E 2)
def Tab.memberAddr (t : Tab) : Nat := bfld t.raw 0x20 8
def Tab.homeBase (t : Tab) : Nat := bfld t.raw 0x28 8
def Tab.hotBase (t : Tab) : Nat := bfld t.raw 0x30 8
def Tab.hotSlots (t : Tab) : Nat := bfld t.raw 0x38 4
def Tab.popBase (t : Tab) : Nat := bfld t.raw 0x40 8
def Tab.defaultAddr (t : Tab) : Nat := bfld t.raw 0x48 8
def Tab.paramAddr (t : Tab) : Nat := bfld t.raw 0x50 8
def Tab.stateBase (t : Tab) : Nat := bfld t.raw 0x58 8
def Tab.hotStateBase (t : Tab) : Nat := bfld t.raw 0x60 8
def Tab.optCtrl (t : Tab) : Nat := bfld t.raw 0x68 4

/-- The address of slot `k` of table `t` (R192). -/
def State.dirSlot (s : State) (t k : Nat) : Nat := s.cfgAddr pROW 0x100 + 256 * t + 128 * k

/-- A slot's 128 bytes. -/
def State.slotRaw (s : State) (t k : Nat) : Nat := s.extNat (s.dirSlot t k) 128

/-- A slot's STATE: none where it cannot be read (R192). -/
def State.slotSt (s : State) (t k : Nat) : Option Nat :=
  if s.extPoison (s.dirSlot t k) 128 then none else some (bfld (s.slotRaw t k) 0x70 1)

/-- CHECK of an entry or descriptor (R193). -/
def checkOk (raw : Nat) : Bool := bfld raw 0x7C 4 == (crc32c (leBytes 124 raw)).toNat

/-- A slot written whole, in state `st`, with its CHECK anew (R192, R193). -/
def State.putSlot (s : State) (t k raw st : Nat) : State :=
  let body := leBytes 0x70 raw ++ leBytes 1 st ++ leBytes 11 (bfld raw 0x71 11)
  s.extWrite (s.dirSlot t k) (body ++ leBytes 4 (crc32c body).toNat)

/-- The state of a slot changed. -/
def State.markSlot (s : State) (t k st : Nat) : State := s.putSlot t k (s.slotRaw t k) st

/-- A shard map range: first row, owner, first local index (R196). -/
structure Shard where
  first : Nat
  owner : Nat
  loc : Nat
deriving DecidableEq, Repr

def shardOf (w : Nat) : Shard := { first := nfld w 39 0, owner := nfld w 52 40, loc := nfld w 103 64 }

/-- The shard map an entry names. -/
def State.shardRaw (s : State) (t : Tab) : List Nat := (List.range t.shardCount).map fun k => s.extNat (t.shardAddr + 16 * k) 16
def State.shards (s : State) (t : Tab) : List Shard := (s.shardRaw t).map shardOf

/-- The member list an entry names. -/
def State.members (s : State) (t : Tab) : List Nat := (List.range t.memberCount).map fun k => s.extNat (t.memberAddr + 2 * k) 2 % 2 ^ 13

/-- Rows past the last of range `k`. -/
def rangeEnd (rows : Nat) (l : List Shard) (k : Nat) : Nat := match l[k + 1]? with | some n => n.first | none => rows

/-- The local ranges of an owner, as (first, end). -/
def localRanges (rows : Nat) (l : List Shard) (owner : Nat) : List (Nat × Nat) :=
  (l.zipIdx.filter fun (x, _) => x.owner == owner).map fun (x, k) => (x.loc, x.loc + (rangeEnd rows l k - x.first))

/-- No two of the ranges meet. -/
def disjoint : List (Nat × Nat) → Bool
  | [] => true
  | (a, b) :: r => r.all (fun (c, d) => decide (b ≤ c) || decide (d ≤ a)) && disjoint r

/-- R196. -/
def shardsOk (rows : Nat) (raw : List Nat) : Bool :=
  let l := raw.map shardOf
  raw.all (fun w => nfld w 127 104 == 0 && nfld w 63 53 == 0)
    && (match l with | x :: _ => x.first == 0 | [] => false)
    && l.all (fun x => decide (x.first < rows))
    && (l.zipIdx.all fun (x, k) => match l[k + 1]? with | some n => decide (x.first < n.first) | none => true)
    && ((l.map (·.owner)).eraseDups.all fun o => disjoint (localRanges rows l o))

/-- Every engine that an entry needs is in its member list (R193, R194). -/
def State.membersOk (s : State) (t : Tab) : Bool :=
  let ms := s.members t
  ms.contains s.selfId && ms.contains t.defaultOwner && (s.shards t).all fun x => ms.contains x.owner

/-- The shard map and member list can be read. -/
def State.mapsReadable (s : State) (t : Tab) : Bool :=
  !s.extPoison t.shardAddr (16 * t.shardCount) && !s.extPoison t.memberAddr (2 * t.memberCount)

/-- An entry passes R193's judgement. -/
def State.entryOk (s : State) (t : Tab) : Bool :=
  checkOk t.raw && s.mapsReadable t && shardsOk t.rows (s.shardRaw t) && s.membersOk t

/-- What a table id names (R192, R193, R195). -/
inductive TabRes where
  | none
  | bad
  | ok (t : Tab)
deriving DecidableEq, Repr

/-- The slot of a table in state `st`. -/
def State.slotIn (s : State) (t st : Nat) : Option Nat := [0, 1].find? fun k => s.slotSt t k == some st

/-- A slot that makes its table unusable: unreadable, in a reserved state, or with a CHECK that fails; a FREE one is not
judged (R192, R193). -/
def State.dirSlotBad (s : State) (t k : Nat) : Bool :=
  match s.slotSt t k with
  | some st => st != 0 && (decide (3 < st) || !checkOk (s.slotRaw t k))
  | none => true

/-- The entry of a table id. -/
def State.tab (s : State) (t : Nat) : TabRes :=
  if s.dirSlotBad t 0 || s.dirSlotBad t 1 then .bad
  else match s.slotIn t 1 with
    | some k => let e : Tab := { id := t, slot := k, raw := s.slotRaw t k }; if s.entryOk e then .ok e else .bad
    | none => .none

/-- A slot in another state, as an entry. -/
def State.tabIn (s : State) (t st : Nat) : Option Tab :=
  (s.slotIn t st).map fun k => { id := t, slot := k, raw := s.slotRaw t k }

/-- A table found unusable (R193). -/
def State.dirFault (s : State) : State := s.err pROW 0

/-! ### Entries placed by hash (R203, R208) -/

/-- The hash of (table, row) (R203). -/
def keyHash (t x : Nat) : Nat := (crc32c (leBytes 8 (x + t * 2 ^ 40))).toNat

/-- The 16 places of (table, row) in a structure of 2^log2 buckets. -/
def placesOf (base log2 t x : Nat) : List Nat :=
  (List.range 16).map fun k => base + 64 * ((keyHash t x + k / 4) % 2 ^ log2) + 16 * (k % 4)

/-- The region that a key selects (R251). -/
def mergeRegion (t x : Nat) : Nat := keyHash t x % 8

/-- Words encoded into the draught `dr` of row `x` of table `t` outside any barge: its events count in the region that the
row's key selects (R43, R46; assumption 88). -/
def State.encodeInto (s : State) (t x dr : Nat) (sat : Bool) (mode : Nat → RMode) (ws : List Word) : Option (List Byte) × State :=
  let e := encodeRow dr sat mode ws
  (e.image, s.countNum (mergeRegion t x) (e.ovf, e.nan))

def State.excBase (s : State) : Nat := s.cfgAddr pROW 0x108
def State.excLog2 (s : State) : Nat := fld (s.cfg pROW 0x130) 4 0
def State.hotDirBase (s : State) : Nat := s.cfgAddr pROW 0x110
def State.hotLog2 (s : State) : Nat := fld (s.cfg pROW 0x134) 4 0

/-- The address and value of the exception entry of a row (R208). -/
def State.exc? (s : State) (t x : Nat) : Option (Nat × Nat) :=
  ((placesOf s.excBase s.excLog2 t x).map fun a => (a, s.extNat a 16)).find? fun (_, w) =>
    nfld w 54 52 != 0 && nfld w 51 40 == t && nfld w 39 0 == x

def excState (w : Nat) : Nat := nfld w 54 52
def excOwner (w : Nat) : Nat := nfld w 67 55
def excSlot (w : Nat) : Nat := nfld w 95 68
def excExpiry (w : Nat) : Word := BitVec.ofNat 32 (nfld w 127 96)
def eFREE : Nat := 0
def eOWNED : Nat := 1
def ePROV : Nat := 2
def eGONE : Nat := 3
def eROUTE : Nat := 4

/-- An exception entry's bits. -/
def excBits (t x st owner slot expiry : Nat) : Nat :=
  expiry % 2 ^ 32 * 2 ^ 96 + slot * 2 ^ 68 + owner * 2 ^ 55 + st * 2 ^ 52 + t * 2 ^ 40 + x

/-- A row's exception entry removed. -/
def State.excDel (s : State) (t x : Nat) : State :=
  match s.exc? t x with
  | some (a, _) => s.extPutNat a 16 0
  | none => s

/-- A row's exception entry written in place, or inserted at the first free of its places; none when they are full. -/
def State.excPut (s : State) (t x w : Nat) : Option State :=
  match s.exc? t x with
  | some (a, _) => some (s.extPutNat a 16 w)
  | none => ((placesOf s.excBase s.excLog2 t x).find? fun a => nfld (s.extNat a 16) 54 52 == 0).map fun a => s.extPutNat a 16 w

/-- The hot directory entry of a row: its address and hot slot (R203). -/
def State.hot? (s : State) (t x : Nat) : Option (Nat × Nat) :=
  (((placesOf s.hotDirBase s.hotLog2 t x).map fun a => (a, s.extNat a 16)).find? fun (_, w) =>
    nbit w 52 && nfld w 51 40 == t && nfld w 39 0 == x).map fun (a, w) => (a, nfld w 95 64)

/-- Every hot directory entry in use: address and value. -/
def State.hotEntries (s : State) : List (Nat × Nat) :=
  ((s.listed s.hotDirBase (64 * 2 ^ s.hotLog2) 16).map fun a => (a, s.extNat a 16)).filter fun (_, w) => nbit w 52

/-- Every exception entry in use. -/
def State.excEntries (s : State) : List (Nat × Nat) :=
  ((s.listed s.excBase (64 * 2 ^ s.excLog2) 16).map fun a => (a, s.extNat a 16)).filter fun (_, w) => nfld w 54 52 != 0

/-! ### Where a row lies (R197, R198, R202, R206, R210) -/

/-- The missing-index sentinel, the key of the default row. -/
def sentinel : Nat := 2 ^ 40 - 1

/-- A copy of a row. -/
structure Loc where
  addr : Nat
  dr : Nat
  kind : Nat
  base : Nat
  bytes : Nat
  /-- local index in the home basin -/
  local_ : Option Nat := none
  hotSlot : Option Nat := none
  /-- first sector in the migration basin -/
  mig : Option Nat := none
deriving DecidableEq, Repr

/-- Slot `i` of a basin: its address, and the SLOT_BASE of its sectors (R198, R199). -/
def slotAt (base size i : Nat) : Nat × Nat :=
  if size ≤ 512 then
    let per := 512 / size
    (base + 512 * (i / per) + size * (i % per), per * (i / per))
  else (base + 512 * divUp size 512 * i, i)

/-- The home slot of local index `i`. -/
def Tab.homeLoc (t : Tab) (i : Nat) : Loc :=
  let n := imageBytes t.homeDr t.dim
  { addr := (slotAt t.homeBase n i).1, dr := t.homeDr, kind := 1, base := (slotAt t.homeBase n i).2, bytes := n, local_ := some i }

/-- The hot slot `h` of the row with local index `i`. -/
def Tab.hotLoc (t : Tab) (i h : Nat) : Loc :=
  let n := imageBytes t.hotDr t.dim
  { addr := (slotAt t.hotBase n h).1, dr := t.hotDr, kind := 2, base := (slotAt t.hotBase n h).2, bytes := n, local_ := some i, hotSlot := some h }

def State.migBase (s : State) : Nat := s.cfgAddr pROW 0x118

/-- A row in the migration basin, from sector `k` on. -/
def State.migLoc (s : State) (t : Tab) (x k : Nat) : Loc :=
  { addr := s.migBase + 512 * k, dr := t.homeDr, kind := 3, base := x, bytes := imageBytes t.homeDr t.dim, mig := some k }

/-- The default row's image. -/
def Tab.defaultLoc (t : Tab) : Loc := { addr := t.defaultAddr, dr := 0, kind := 4, base := 0, bytes := imageBytes 0 t.dim }

/-- The shard map range that contains row `x`. -/
def rangeOf (l : List Shard) (x : Nat) : Option Shard := (l.filter fun r => r.first ≤ x).getLast?

/-- A row id resolved by a requester: its key and its owner (R197). -/
def State.ownerOf (s : State) (t : Tab) (x : Nat) : Nat × Nat :=
  if t.rows ≤ x then (sentinel, t.defaultOwner)
  else
    let byMap := ((rangeOf (s.shards t) x).map (·.owner)).getD 0
    match s.exc? t.id x with
    | some (_, w) => (x, if excState w = eOWNED || excState w = eGONE || excState w = eROUTE then excOwner w else byMap)
    | none => (x, byMap)

/-- How this engine stands to a row (R206, R211). -/
inductive Hold where
  | own (l : Loc)
  | gone (owner : Nat)
  | other
deriving DecidableEq, Repr

/-- The home or hot copy of row `x` of a table that the shard map gives this engine. -/
def State.mapLoc (s : State) (t : Tab) (x : Nat) (useHot : Bool) : Option Loc :=
  match rangeOf (s.shards t) x with
  | some r =>
    if r.owner != s.selfId then none
    else
      let i := r.loc + (x - r.first)
      some (match if useHot then s.hot? t.id x else none with | some (_, h) => t.hotLoc i h | none => t.homeLoc i)
  | none => none

/-- How this engine stands to the row that a request names (R211). -/
def State.holdOf (s : State) (t : Tab) (x : Nat) : Hold :=
  if t.rows ≤ x then (if t.defaultOwner = s.selfId then .own t.defaultLoc else .other)
  else match s.exc? t.id x with
    | some (_, w) =>
      if excState w = eOWNED || excState w = ePROV then .own (s.migLoc t x (excSlot w))
      else if excState w = eGONE then .gone (excOwner w) else .other
    | none => match s.mapLoc t x true with | some l => .own l | none => .other

/-! ### Row images (R199 to R201) -/

/-- The tag that the sectors of a row carry. -/
def State.rowTag (s : State) (t : Tab) (l : Loc) (step : Nat) : Tag :=
  { kind := l.kind, table := t.id, owner := s.selfId, draught := l.dr, slotBase := if l.kind = 4 then 0 else l.base
    step := if l.kind = 4 then 0 else step }

/-- A sector's tag differs from what was expected, or fails its check (R200). -/
def tagBad (want got : Tag) : Bool :=
  got.bad || !(got.kind == want.kind && got.table == want.table && got.owner == want.owner && got.draught == want.draught
    && got.slotBase == want.slotBase)

/-- A row read from its copy: the image, whether it is poisoned, and its version step (R200). -/
structure RowRd where
  image : List Byte
  poison : Bool
  step : Nat
deriving DecidableEq, Repr

/-- A sector whose tag fails is poisoned, and counts once (R200, R405). -/
def State.tagFault (s : State) (k : Nat) : State :=
  (((s.count pROW 0xF40).err pROW 1).poisoning pMEM 1).setTag k { s.tag k with poison := true }

def State.readRow (s : State) (t : Tab) (l : Loc) : RowRd × State :=
  let bad := (sectorsOf l.addr l.bytes).filter fun k => tagBad (s.rowTag t l 0) (s.tag k)
  ({ image := s.ext? l.addr l.bytes, poison := !bad.isEmpty || s.extPoison l.addr l.bytes
     step := (s.tag (l.addr / 512)).step },
   (bad.filter fun k => !(s.tag k).poison).foldl State.tagFault s)

/-- A row image written to its copy, and the space behind the last slot of its sector as zero (R198, R199). -/
def State.writeRowImage (s : State) (t : Tab) (l : Loc) (image : List Byte) (step : Nat) (poison : Bool := false) : State :=
  let tag := s.rowTag t l step
  let stop := if l.bytes ≤ 512 && (l.kind = 1 || l.kind = 2) then l.addr / 512 * 512 + 512 / l.bytes * l.bytes else l.addr + l.bytes
  let pad := leBytes ((512 - stop % 512) % 512) 0
  if stop = l.addr + l.bytes then s.extWriteTag l.addr (image ++ pad) tag poison
  else ({ s with ext := Mem.write s.ext stop pad } : State).extWriteTag l.addr image tag poison

/-! ### Popularity (R204, R213) -/

def State.skew (s : State) (t : Nat) (f : Skew → Skew) : State :=
  { s with rows := { s.rows with skew := SMap.upd (fun _ => {}) s.rows.skew t f } }

/-- The address of the counter of local index `i`. -/
def State.popAddr (s : State) (t : Tab) (i : Nat) : Nat := t.popBase + 2 * (i / 2 ^ fld (s.cfg pROW 0x144) 15 12)

/-- A row read served by this engine as owner (R204, R205, R213). -/
def State.noteServed (s : State) (t : Tab) (x : Nat) (l : Loc) (mult : Nat) : State :=
  let s := s.skew t.id fun k => { k with reads := satAdd 32 k.reads 1, bytes := satAdd 64 k.bytes l.bytes }
  match l.local_ with
  | some i =>
    if !t.hotEn then s
    else
      let a := s.popAddr t i
      let n := min 0xFFFF (s.extNat a 2 + max 1 mult)
      let s := s.extPutNat a 2 n
      let ctrl := s.cfg pROW 0x144
      if l.kind = 1 && bitOf ctrl 0 && fld ctrl 31 16 ≤ n && !s.rows.promote.contains (t.id, x) then
        (if 65536 ≤ s.rows.promote.length then s.count pROW 0xF2C
         else { s with rows := { s.rows with promote := s.rows.promote ++ [(t.id, x)] } })
      else s
  | none => s

/-! ### Optimizer state (R258, R260) -/

def optOf (c : Nat) : Nat := nfld c 2 0
def coldOpt (c : Nat) : Nat := nfld c 4 3
def fullState (c : Nat) : Bool := nbit c 5

/-- Bytes of the full state of an optimizer at dimension `d` (R260). -/
def optBytes (opt d : Nat) : Nat := if opt = 1 then 4 * d else if opt = 2 then 4 else if opt = 3 then 8 * d + 64 else 0

/-- The rule of a copy: 0 SGD, 1 momentum, 2 row-wise Adagrad, 3 Adam (R257, R260). -/
def ruleOf (t : Tab) (l : Loc) : Nat :=
  let c := t.optCtrl
  if l.kind = 4 then 0
  else if fullState c || l.hotSlot.isSome then optOf c
  else if coldOpt c = 1 then 2 else 0

/-- Where migrated rows keep their state (R260). -/
def State.migStateAddr (s : State) (k : Nat) : Nat := s.cfgAddr pUPD 0x114 + s.cfgN pUPD 0x11C * k

/-- The address of the scalar beside a row, or of its state in the migration basin. -/
def State.scalarAddr (s : State) (t : Tab) (l : Loc) : Nat :=
  match l.mig with
  | some k => s.migStateAddr k
  | none => t.stateBase + 4 * l.local_.getD 0

/-- Where a copy's state lies, and its bytes (R260). -/
def State.stateOf (s : State) (t : Tab) (l : Loc) : Nat × Nat :=
  let c := t.optCtrl
  let rule := ruleOf t l
  let e := optBytes rule t.dim
  if e = 0 then (0, 0)
  else match l.mig with
    | some k => (s.migStateAddr k, e)
    | none =>
      if fullState c then (t.stateBase + e * l.local_.getD 0, e)
      else if rule = 2 then (s.scalarAddr t l, 4)
      else (t.hotStateBase + e * l.hotSlot.getD 0, e)

/-- A scalar is kept beside the rule: a hot row of a table whose cold rule is row-wise Adagrad (R260). -/
def scalarBeside (t : Tab) (l : Loc) : Bool :=
  l.hotSlot.isSome && !fullState t.optCtrl && coldOpt t.optCtrl == 1 && (optOf t.optCtrl == 1 || optOf t.optCtrl == 3)

/-- A copy's state zeroed. -/
def State.zeroState (s : State) (t : Tab) (l : Loc) : State :=
  let (a, n) := s.stateOf t l
  let s := if n = 0 then s else s.extWrite a (leBytes n 0)
  if scalarBeside t l then s.extWrite (s.scalarAddr t l) (leBytes 4 0) else s

end Sys2Proof.Machine
end

