-- ==== Sys2Proof/Machine/RowReads.lean ====
section
/-! DEFINITION. Row reads and version probes: keys (R223), the owner's service (R211, R217, R229), the row cache (R137,
R231), and the gather images that wait for rows (R225, R227, R230, R233). -/

namespace Sys2Proof.Machine

open Sys2Proof

def State.lastClosed (s : State) : Nat := s.regN pUPD 0xF00
def State.lastApplied (s : State) : Nat := s.regN pUPD 0xF04

/-- Steps compare in 32-bit serial arithmetic, as the step before BASE_STEP 0 shows (R177, R263; assumption 26). -/
def stepGt (a b : Nat) : Bool := serialGt (BitVec.ofNat 32 a) (BitVec.ofNat 32 b)

/-! ### Keys -/

/-- A key settled against the table directory (R223). -/
inductive KeyRes where
  | fail (fate : Nat)
  | ok (t : Tab) (x : Nat)
deriving DecidableEq, Repr

def State.settleKey (s : State) (w : Nat) : KeyRes :=
  if nfld w 63 52 != 0 then .fail fCFG
  else match s.tab (nfld w 51 40) with
    | .bad => .fail fECC
    | .none => .fail fCFG
    | .ok t => .ok t (if t.rows ≤ nfld w 39 0 then sentinel else nfld w 39 0)

/-- Default substitutions made as requester (R206). -/
def State.noteDefaults (s : State) (t n : Nat) : State :=
  if n = 0 then s else (s.count pROW 0xF10 n).skew t fun k => { k with defaults := satAdd 32 k.defaults n }

/-! ### The owner's service -/

/-- What an owner answers (R228). -/
inductive Served where
  | row (image : List Byte) (dr step : Nat) (poison : Bool)
  | current (step : Nat)
  | forward (owner : Nat)
  | notOwner
  | held
deriving DecidableEq, Repr

/-- NOT_OWNER is answered (R211). -/
def State.noteNotOwner (s : State) : State := (s.count pROW 0xF20).err pROW 2

/-- FORWARD is answered (R211, R213). -/
def State.noteForward (s : State) (t : Nat) : State :=
  (s.count pROW 0xF14).skew t fun k => { k with forwards := satAdd 32 k.forwards 1 }

/-- A copy of a row served to a READ, or to a PROBE that carries `readStep` (R229). -/
def State.serveCopy (s : State) (t : Tab) (x : Nat) (l : Loc) (probe : Option Nat) (mult : Nat) : Served × State :=
  let (r, s) := s.readRow t l
  let row := Served.row r.image l.dr r.step r.poison
  match probe with
  | none => (row, s.noteServed t x l mult)
  | some step =>
    if stepGt r.step step then
      (row, s.skew t.id fun k => { k with reads := satAdd 32 k.reads 1, bytes := satAdd 64 k.bytes l.bytes })
    else (.current r.step, s)

/-- A row of the FORMER entry, from its migration basin, its home basin or its default row, or forwarded to the engine that
it had gone to (R217; assumption 18). -/
def State.serveFormer (s : State) (t : Tab) (x : Nat) (probe : Option Nat) (mult : Nat) : Served × State :=
  let no := (Served.notOwner, s.noteNotOwner)
  if t.rows ≤ x then (if t.defaultOwner = s.selfId then s.serveCopy t x t.defaultLoc probe mult else no)
  else match s.rows.formerRows.find? fun (a, y, _) => a == t.id && y == x with
    | some (_, _, w) =>
      if excState w = eOWNED || excState w = ePROV then s.serveCopy t x (s.migLoc t x (excSlot w)) probe mult
      else if excState w = eGONE then (.forward (excOwner w), s.noteForward t.id) else no
    | none => match s.mapLoc t x false with
      | some l => s.serveCopy t x l probe mult
      | none => no

/-- What an unusable table's rows are served as: an image that is poisoned throughout (R193; assumption 19). -/
def State.serveBad (s : State) (tid : Nat) : Served × State :=
  let t : Tab := { id := tid, slot := 0, raw := s.slotRaw tid ((s.slotIn tid 1).getD 0) }
  (.row (List.replicate (imageBytes t.homeDr t.dim) 0) t.homeDr 0 true, s.dirFault)

/-- TABLE_SEQ of a request settled (R217). -/
inductive SeqRes where
  | active (t : Tab)
  | former (t : Tab)
  | held
  | notOwner
  | bad
deriving DecidableEq, Repr

def State.settleSeq (s : State) (tid : Nat) (seq : Word) : SeqRes :=
  let old := match s.tabIn tid 3 with
    | some f => if f.seq = seq then SeqRes.former f else .notOwner
    | none => .notOwner
  match s.tab tid with
  | .bad => .bad
  | .none => .notOwner
  | .ok t => if t.seq = seq then .active t else match old with
    | .former f => .former f
    | _ => if serialGt seq t.seq then .held else .notOwner

/-- An owner serves a READ (`probe` none) or a PROBE (R229). -/
def State.ownerServe (s : State) (tid x : Nat) (seq : Word) (probe : Option Nat) (mult : Nat) : Served × State :=
  match s.settleSeq tid seq with
  | .bad => s.serveBad tid
  | .held => (.held, s)
  | .notOwner => (.notOwner, s.noteNotOwner)
  | .former f => s.serveFormer f x probe mult
  | .active t => match s.holdOf t x with
    | .own l => s.serveCopy t x l probe mult
    | .gone o => (.forward o, s.noteForward tid)
    | .other => (.notOwner, s.noteNotOwner)

/-! ### Messages (R228) -/

def reqTable (p : Packet) : Nat := nfld (leNat p.payload) 51 40
def reqRow (p : Packet) : Nat := nfld (leNat p.payload) 39 0
def reqSeq (p : Packet) : Word := BitVec.ofNat 32 (nfld (leNat (p.payload.take 32)) 255 224)
def reqStep (p : Packet) : Nat := nfld (leNat (p.payload.take 32)) 223 192
def reqKind (p : Packet) : Nat := nfld (leNat (p.payload.take 32)) 175 168
def reqMult (p : Packet) : Nat := nfld (leNat (p.payload.take 32)) 152 128

/-- A row request. -/
def rowRequest (self owner : Nat) (t : Tab) (x : Nat) (probe : Option Nat) (mult : Nat) : Packet :=
  { dest := owner, vc := 1, op := 4, len := 32
    payload := leBytes 32 (t.seq.toNat * 2 ^ 224 + probe.getD 0 * 2 ^ 192 + self * 2 ^ 179 + (if probe.isNone then 1 else 2) * 2 ^ 168
      + mult * 2 ^ 128 + t.id * 2 ^ 40 + x) }

/-- A response header. -/
def respHeader (step owner kind dr len tid x : Nat) : List Byte :=
  leBytes 32 (step * 2 ^ 224 + owner * 2 ^ 211 + kind * 2 ^ 200 + dr * 2 ^ 192 + len * 2 ^ 176 + tid * 2 ^ 40 + x)

/-- A request held until the owner can settle it (R217, R253, R333). -/
def State.holdReq (s : State) (p : Packet) (since : Nat) : State :=
  { s with fab := { s.fab with heldReqs := s.fab.heldReqs ++ [{ p := p, since := since }] } }

/-- The time since which a request has been held, and the engine without it among those held. -/
def State.unhold (s : State) (p : Packet) : Nat × State :=
  match takeFirst (·.p == p) s.fab.heldReqs with
  | (some h, rest) => (h.since, { s with fab := { s.fab with heldReqs := rest } })
  | (none, _) => (s.now, s)

/-- A row request answered. -/
def State.answerRow (s : State) (p : Packet) (since : Nat) (r : Served) : State :=
  let tid := reqTable p
  let x := reqRow p
  match r with
  | .row img dr step bad =>
    s.answer p 0 (respHeader step s.selfId kROW dr img.length tid x ++ img) 0
      (if bad then poisonMap (List.range (divUp (32 + img.length) 64)) else 0)
  | .current step => s.answer p 0 (respHeader step s.selfId kCURRENT 0 0 tid x)
  | .forward o => s.answer p 0 (respHeader 0 o kFORWARD 0 0 tid x)
  | .notOwner => s.answer p 0 (respHeader 0 s.selfId kNOT_OWNER 0 0 tid x)
  | .held => s.holdReq p since

/-! ### The row cache (R231) -/

def State.cacheBytes (s : State) : Nat := 1024 * s.cfgN pGSU 0x104

/-- Bytes of an entry. -/
def entryBytes (n : Nat) : Nat := 64 + upTo n 64

def State.cached? (s : State) (r t x : Nat) : Option CacheEnt := (s.region r).cache.find? fun e => e.table == t && e.row == x

/-- Bytes that entries take. -/
def entriesBytes (l : List CacheEnt) : Nat := (l.map fun e => entryBytes e.image.length).foldl (· + ·) 0

/-- Entries kept and dropped: those pinned stay, the others from the most recently used on as far as they fit. -/
def fitEntries (pinned : CacheEnt → Bool) : Nat → List CacheEnt → List CacheEnt × List CacheEnt
  | _, [] => ([], [])
  | room, e :: es =>
    let n := entryBytes e.image.length
    if pinned e then let (k, d) := fitEntries pinned room es; (e :: k, d)
    else if n ≤ room then let (k, d) := fitEntries pinned (room - n) es; (e :: k, d)
    else let (k, d) := fitEntries pinned 0 es; (k, e :: d)

/-- Row reads and probes of a region in flight, or waiting for a tag: table and row. -/
def State.flights (s : State) (r : Nat) : List (Nat × Nat) :=
  ((s.fab.tags.filterMap fun (_, x) => x.use) ++ s.fab.waiting.map (·.1)).filterMap fun u => match u with
    | .row r' t x _ _ _ => if r' = r then some (t, x) else none
    | _ => none

/-- A row enters a region's cache; the least recently used entries leave for it, but for those with a probe in flight
(R231). -/
def State.cacheFill (s : State) (r : Nat) (e : CacheEnt) : State :=
  let es := e :: (s.region r).cache.filter fun o => !(o.table == e.table && o.row == e.row)
  let pinned := fun (o : CacheEnt) => (o.table == e.table && o.row == e.row) || (s.flights r).contains (o.table, o.row)
  let (keep, gone) := fitEntries pinned (s.cacheBytes - entriesBytes (es.filter pinned)) es
  (s.updRegion r fun x => { x with cache := keep }).count pGSU 0xF24 (gone.filter (·.prefetched)).length

/-- An entry is used: it is the most recently used, and refreshed. A GATHER's use of a prefetched one counts, once
(R232). -/
def State.cacheUse (s : State) (r : Nat) (e : CacheEnt) (gather : Bool) : State :=
  let s := if gather && e.prefetched then s.count pGSU 0xF1C else s
  s.updRegion r fun x =>
    { x with
      cache := { e with closed := s.lastClosed, prefetched := e.prefetched && !gather }
        :: x.cache.filter fun o => !(o.table == e.table && o.row == e.row) }

def State.inFlight (s : State) (r t x : Nat) : Bool := (s.flights r).contains (t, x)

/-- The largest entry that a read of the row can bring. -/
def Tab.entryMax (t : Tab) (x : Nat) : Nat :=
  entryBytes (if t.rows ≤ x then imageBytes 0 t.dim else max (imageBytes t.homeDr t.dim) (imageBytes t.hotDr t.dim))

/-- Bytes that the reads in flight of a region have pinned. -/
def State.flightBytes (s : State) (r : Nat) : Nat :=
  ((s.flights r).map fun (t, x) => match s.tab t with | .ok t => t.entryMax x | _ => 0).foldl (· + ·) 0

/-- An entry can be found for one more read: those in flight pin theirs (R231). -/
def State.cacheRoom (s : State) (r : Nat) (t : Tab) (x : Nat) : Bool := s.flightBytes r + t.entryMax x ≤ s.cacheBytes

/-- A request that finds every entry pinned waits, and counts once (R231). -/
def State.noteWait (s : State) (r : Nat) (k : Nat × Nat × Nat × Nat) : State :=
  if (s.region r).waited.contains k then s
  else (s.count pGSU 0xF34).updRegion r fun x => { x with waited := k :: x.waited }

/-! ### Acquiring a row for a region (R227) -/

/-- A row as it comes to a region. -/
structure RowGot where
  source : Nat
  step : Nat
  dr : Nat
  image : List Byte
  poison : Bool
deriving DecidableEq, Repr

inductive Acq where
  | got (g : RowGot)
  | fail (fate : Nat)
  /-- on its way -/
  | waits
  /-- every cache entry is pinned -/
  | full
deriving DecidableEq, Repr

def CacheEnt.got (e : CacheEnt) (source : Nat) : RowGot :=
  { source := source, step := e.readStep, dr := e.draught, image := e.image, poison := e.poison }

/-- A row served from the cache; a GATHER's slot counts (R241). -/
def State.cacheHit (s : State) (r : Nat) (e : CacheEnt) (gather : Bool) : State :=
  (if gather then s.count pGSU 0xF08 else s).cacheUse r e gather

/-- A row received for a region enters its cache. -/
def State.received (s : State) (r t x : Nat) (g : RowGot) (prefetched : Bool) : State :=
  s.cacheFill r { table := t, row := x, draught := g.dr, readStep := g.step, closed := s.lastClosed, image := g.image
                  poison := g.poison, prefetched := prefetched }

/-- A read or probe of a row owned by this engine itself, for a GATHER or not: served by its owner logic with no message. -/
def State.readLocal (s : State) (r : Nat) (t : Tab) (x : Nat) (old : Option CacheEnt) (mult : Nat) (gather : Bool) : Acq × State :=
  match s.ownerServe t.id x t.seq (old.map (·.readStep)) mult with
  | (.row img dr step bad, s) =>
    let g : RowGot := { source := if old.isSome then 3 else 2, step := step, dr := dr, image := img, poison := bad }
    let s := match old with
      | some e => if gather && e.prefetched then s.count pGSU 0xF20 else s
      | none => s
    (.got g, (s.count pGSU 0xF0C).received r t.id x g (!gather && old.any (·.prefetched)))
  | (.current _, s) =>
    match old with
    | some e => (.got (e.got 1), (s.count pGSU 0xF18).cacheHit r e gather)
    | none => (.fail fINTERNAL, s)
  | (_, s) => (.fail fCFG, s)

/-- A read or probe sent to a remote owner. -/
def State.readRemote (s : State) (r : Nat) (t : Tab) (x owner : Nat) (old : Option CacheEnt) (mult : Nat)
    (prefetch : Option (Nat × Nat)) : State :=
  let s := if old.isNone then s.count pGSU 0xF10 else s
  s.request (.row r t.id x mult old.isSome prefetch)
    (rowRequest s.selfId owner t x (old.map (·.readStep)) (if old.isNone then mult else 0))

/-- A read (`old` none) or a probe of the cached entry `old`. -/
def State.readOwner (s : State) (r : Nat) (t : Tab) (x : Nat) (old : Option CacheEnt) (mult : Nat) (gather : Bool) : Acq × State :=
  let (key, owner) := s.ownerOf t x
  if old.isNone && !s.cacheRoom r t x then (.full, s)
  else if owner = s.selfId then s.readLocal r t key old mult gather
  else (.waits, s.readRemote r t key owner old mult none)

/-- The first source of R227 that applies, for a GATHER or for a factor row. -/
def State.acquire (s : State) (r : Nat) (t : Tab) (x mult : Nat) (useCache gather : Bool) : Acq × State :=
  match (if useCache then s.cached? r t.id x else none) with
  | some e =>
    if e.closed = s.lastClosed then (.got (e.got 0), s.cacheHit r e gather)
    else if s.inFlight r t.id x then (.waits, s)
    else (s.count pGSU 0xF14).readOwner r t x (some e) mult gather
  | none => if s.inFlight r t.id x then (.waits, s) else s.readOwner r t x none mult gather

/-! ### Gather images -/

/-- The gather `g` changed. -/
def GatherRun.same (g h : GatherRun) : Bool := g.b == h.b && g.i == h.i && g.region == h.region

def State.updGather (s : State) (g : GatherRun) (f : GatherRun → GatherRun) : State :=
  { s with gathers := mapIf s.gathers (·.same g) f }

/-- The bag that each position belongs to. -/
def bagOfPositions (bags : List (Nat × Nat)) : List Nat := bags.zipIdx.flatMap fun (x, k) => List.replicate x.2 k

/-- The manifest rows that own the positions of a slot. -/
def GatherRun.slotRows (g : GatherRun) (u : Nat) : List Nat :=
  ((g.positions.zip (bagOfPositions g.bags)).filterMap fun (v, k) => if v = u then some (g.bags.getD k (0, 0)).1 else none).eraseDups

/-- A slot's key fails (R233). -/
def State.failSlot (s : State) (g : GatherRun) (u fate : Nat) : State :=
  let s := s.updGather g fun h => { h with slots := setAt h.slots u fun x => { x with failed := some fate, source := 4 } }
  ((s.count pGSU 0xF30).err pGSU 1).failRows g.b (g.slotRows u) fate

def Slot.fill (x : Slot) (g : RowGot) : Slot :=
  { x with source := g.source, step := g.step, draught := g.dr, image := g.image, poison := g.poison, filled := true }

/-- One slot still without its row looks for it. -/
def State.advanceSlot (s : State) (g : GatherRun) (u : Nat) : State :=
  match s.gathers.find? (·.same g) with
  | none => s
  | some h => match h.slots[u]? with
    | none => s
    | some x =>
      if x.filled || x.failed.isSome then s
      else match s.tab x.table with
        | .bad => s.dirFault.failSlot h u fECC
        | .none => s.failSlot h u fCFG
        | .ok t => match s.acquire h.region t x.row x.mult h.useCache true with
          | (.got r, s) => s.updGather h fun h => { h with slots := setAt h.slots u (·.fill r) }
          | (.fail f, s) => s.failSlot h u f
          | (.waits, s) => s
          | (.full, s) => s.noteWait h.region (h.b, h.i, t.id, x.row)

def State.advanceGather (s : State) (g : GatherRun) : State := (List.range g.slots.length).foldl (fun s u => s.advanceSlot g u) s

def GatherRun.ready (g : GatherRun) : Bool := g.slots.all fun x => x.filled || x.failed.isSome

/-- The union of pending sets. -/
def joinAll (l : List LockMask) : LockMask := l.foldl (· ||| ·) 0

/-- Entries of `n` bytes written to the pool in words of 64 bytes, each with the union of its entries' pending sets. -/
def State.putEntries (s : State) (st : Store) (n : Nat) : Nat → Nat → List (Nat × LockMask) → State
  | 0, _, _ => s
  | fuel + 1, a, es =>
    if es.isEmpty then s else
      let now := es.take (64 / n)
      let bs := now.flatMap fun (v, _) => leBytes n v
      (s.wr st a ((bs ++ List.replicate 64 0).take 64) (joinAll (now.map (·.2)))).putEntries st n fuel (a + 64) (es.drop (64 / n))

def State.putTable (s : State) (st : Store) (n a : Nat) (es : List (Nat × LockMask)) : State := s.putEntries st n es.length a es

/-- A bag entry of the image (R221): EMPTY and FAILED set by the engine. -/
def GatherRun.bagEntries (g : GatherRun) : List (Nat × LockMask) :=
  let owner := bagOfPositions g.bags
  let failed := (g.positions.zip owner).filterMap fun (u, k) => if ((g.slots[u]?).bind (·.failed)).isSome then some k else none
  (g.bags.zipIdx.zip g.bagPends).map fun (((row, len), k), m) =>
    (bit (len == 0) * 2 ^ 31 + bit (failed.contains k) * 2 ^ 30 + row * 2 ^ 16 + len, m)

/-- A key table entry (R225). -/
def Slot.entry (x : Slot) : Nat :=
  (if x.failed.isSome then 0 else x.step) * 2 ^ 96 + x.source * 2 ^ 89 + x.mult * 2 ^ 64 + bit x.failed.isSome * 2 ^ 54
    + bit x.dflt * 2 ^ 53 + x.table * 2 ^ 40 + x.row

/-- The header (R225). -/
def GatherRun.header (g : GatherRun) : Nat :=
  g.stride * 2 ^ 192 + g.rowsOfs * 2 ^ 160 + g.keysOfs * 2 ^ 128 + g.format * 2 ^ 112 + g.dim * 2 ^ 96 + g.slots.length * 2 ^ 64
    + g.bags.length * 2 ^ 32 + g.positions.length

/-- A slot's row written, decoded from its image and rounded into C's format (R230); a failed slot's row is zero and
poisoned. -/
def State.putSlotRow (s : State) (g : GatherRun) (u : Nat) (x : Slot) : State :=
  let st := Store.pool g.region
  let a := g.addr + g.rowsOfs + 64 * g.stride * u
  if g.dim = 0 then s
  else if x.failed.isSome then s.wr st a (List.replicate (upTo (rowBytes g.format g.dim) 64) 0) x.pend true
  else
    let p := encVals g.format (g.sat == 1) (fun _ => .rne) ((decodeRow x.draught g.dim x.image).map Word.num)
    let bs := pack g.format p.bits
    (s.wr st a (bs ++ List.replicate (upTo bs.length 64 - bs.length) 0) x.pend x.poison).countNum g.region (p.ovf, p.nan)

/-- The whole image written (R225). -/
def State.putImage (s : State) (g : GatherRun) : State :=
  let st := Store.pool g.region
  let s := s.wr st g.addr (leBytes 64 g.header) g.headPend
  let s := s.putTable st 4 (g.addr + 64) g.bagEntries
  let s := s.putTable st 4 (g.addr + 64 + upTo (4 * g.bags.length) 64) (g.positions.zip g.keyPends)
  let s := s.putTable st 16 (g.addr + g.keysOfs) (g.slots.map fun x => (x.entry, x.pend))
  (g.slots.zipIdx).foldl (fun s (x, u) => s.putSlotRow g u x) s

/-- A gather whose rows have all come, or failed, writes its image; the record completes with its last region. -/
def State.finishGather (s : State) (g : GatherRun) : State :=
  match s.gathers.find? (·.same g) with
  | none => s
  | some h =>
    if !h.ready then s
    else
      let s := { s.putImage h with gathers := s.gathers.filter fun o => !o.same h }
      let s := (s.count pGSU 0xF04 h.slots.length).notePend h.b h.i (h.headPend ||| joinAll (h.slots.map (·.pend)))
      if s.gathers.any fun o => o.b == h.b && o.i == h.i then s else s.finishOp h.b h.i

/-! ### PREFETCH's reads (R232) -/

/-- A key of a PREFETCH, record `i` of barge `id`: true where its read has to wait for a cache entry. -/
def State.prefetchKey (s : State) (id i r key mult : Nat) : Bool × State :=
  let tid := key / 2 ^ 40
  let x := key % 2 ^ 40
  match s.tab tid with
  | .ok t =>
    let fresh := match s.cached? r tid x with | some e => e.closed == s.lastClosed | none => false
    if fresh || s.inFlight r tid x then (false, s)
    else if !s.cacheRoom r t x then (true, s.noteWait r (id, i, tid, x))
    else
      let (k, owner) := s.ownerOf t x
      if owner = s.selfId then
        match s.readLocal r t k none mult false with
        | (.got g, s) => (false, s.received r tid k g true)
        | (_, s) => (false, s.count pGSU 0xF28)
      else (false, (s.readRemote r t k owner none mult (some (id, i))).sentOne id i)
  | _ => (false, s.count pGSU 0xF28)

/-- The reads that a PREFETCH has still to issue: region, key and MULT. The record completes once every one is issued. -/
def State.prefetchReads (s : State) (id i : Nat) (ks : List (Nat × Nat × Nat)) : State :=
  let (left, s) := ks.foldl (fun (p : List (Nat × Nat × Nat) × State) k =>
    let (wait, s) := p.2.prefetchKey id i k.1 k.2.1 k.2.2
    (if wait then p.1 ++ [k] else p.1, s)) ([], s)
  let s := s.updBarge id (·.setOp i fun o => { o with todo := left })
  if left.isEmpty then s.finishOp id i else s

/-- The PREFETCHes of a barge that wait for cache entries of region `r` go on. -/
def State.pumpPrefetch (s : State) (r : Nat) (b : Barge) : State :=
  if b.failed.isSome || b.st != .running then s
  else b.ops.zipIdx.foldl (fun s (o, i) =>
    if o.st == .running && o.todo.any (·.1 == r) then s.prefetchReads b.id i o.todo else s) s

/-- The response to a PREFETCH's read has come, or its read has failed (R113). -/
def State.prefetchDone (s : State) (p : Option (Nat × Nat)) : State := match p with | some (b, i) => s.arrived b i | none => s

/-- A region's reads go on: slots and keys that found every cache entry pinned try again, and images that are ready are
written. -/
def State.pumpRegion (s : State) (r : Nat) : State :=
  let gs := s.gathers.filter (·.region == r)
  let s := gs.foldl (fun s g => s.advanceGather g) s
  let s := gs.foldl (fun s g => s.finishGather g) s
  s.sv.barges.foldl (fun s b => s.pumpPrefetch r b) s

/-! ### Rows arriving for a region -/

/-- Some gather of region `r` waits for the row. -/
def State.awaited (s : State) (r t x : Nat) : Bool :=
  s.gathers.any fun g => g.region == r && g.slots.any fun y => !y.filled && y.failed.isNone && y.table == t && y.row == x

/-- Every slot of region `r` that waits for the row takes it. -/
def State.fillSlots (s : State) (r t x : Nat) (g : RowGot) : State :=
  { s with
    gathers := mapIf s.gathers (·.region == r) fun h =>
      { h with slots := mapIf h.slots (fun y => !y.filled && y.failed.isNone && y.table == t && y.row == x) (·.fill g) } }

/-- The DELTAs of a barge that are fetched and have not issued. -/
def State.waitingDeltas (s : State) (b : Barge) : List Nat :=
  (List.range b.ops.length).filter fun k => b.opIs k .waiting && recOp (s.progRec b k) == 0x02

/-- A factor row that cannot be read is noted with the DELTAs on region `r` that may wait for it (R174), and an adapter being
moored there that needs it is moored no more. -/
def State.noteFactorFail (s : State) (r t x fate : Nat) : State :=
  let s : State := { s with
    sv := { s.sv with
      barges := mapIf s.sv.barges (fun b => b.regions.contains r && s.factorTable b.mooring == t) fun b =>
        { b with factorFails := b.factorFails ++ (s.waitingDeltas b).map fun k => (k, r, x, fate) } } }
  s.updRegion r fun g => { g with moored := g.moored.filter fun y => !(s.factorTable y.mooring == t && y.todo.contains x) }

/-- Every slot of region `r` that waits for the row fails (R233). -/
def State.failSlots (s : State) (r t x fate : Nat) : State :=
  s.gathers.foldl (fun s g =>
    if g.region != r then s
    else g.slots.zipIdx.foldl (fun s (y, u) =>
      if !y.filled && y.failed.isNone && y.table == t && y.row == x then s.failSlot g u fate else s) s) s

/-- A read or probe fails: its slots, or its factor row; a prefetched key is dropped (R232, R233). -/
def State.rowFailed (s : State) (r t x fate : Nat) (prefetch : Option (Nat × Nat)) : State :=
  let s := s.prefetchDone prefetch
  let s := if prefetch.isSome && fate != fTIMEOUT then s.count pGSU 0xF28 else s
  (((s.failSlots r t x fate).noteFactorFail r t x fate)).pumpRegion r

/-- An image is consistent with its table (R230). -/
def rowConsistent (t : Tab) (x dr len n : Nat) : Bool :=
  (if t.rows ≤ x then dr == 0 else dr == t.homeDr || dr == t.hotDr) && len == imageBytes dr t.dim && n == 32 + len

/-- A ROW response is used (R230, R231). -/
def State.rowCame (s : State) (r tid x : Nat) (probe : Bool) (prefetch : Option (Nat × Nat)) (p : Packet) : State :=
  match s.tab tid with
  | .ok t =>
    if !rowConsistent t x (respDr p) (respLen p) p.payload.length then s.rowFailed r tid x fINTERNAL prefetch
    else
      let g : RowGot := { source := 3, step := respStep p, dr := respDr p, image := p.payload.drop 32, poison := anyBad p }
      let s := s.prefetchDone prefetch
      let early := (probe && (s.cached? r tid x).any (·.prefetched)) || prefetch.isSome
      let used := s.awaited r tid x
      let s := if used && early then s.count pGSU (if probe then 0xF20 else 0xF1C) else s
      ((s.received r tid x g (early && !used)).fillSlots r tid x g).pumpRegion r
  | _ => s.rowFailed r tid x fINTERNAL prefetch

/-- A CURRENT answer refreshes the entry, and the entry is used (R231). -/
def State.currentCame (s : State) (r tid x : Nat) : State :=
  let s := s.count pGSU 0xF18
  match s.cached? r tid x with
  | some e =>
    let n := (s.gathers.map fun g => if g.region = r then (g.slots.filter fun y => !y.filled && y.failed.isNone && y.table == tid && y.row == x).length else 0).foldl (· + ·) 0
    (((s.count pGSU 0xF08 n).cacheUse r e (n != 0)).fillSlots r tid x (e.got 1)).pumpRegion r
  | none => s.pumpRegion r

end Sys2Proof.Machine
end

