-- ==== Sys2Proof/Machine/Moored.lean ====
section
/-! DEFINITION. The layers of an adapter directory and where an adapter's factors lie (R146, R151, R152, R180), factor rows as
the side pond takes them (R150), and the moored copies that a region holds (R161, R162). -/

namespace Sys2Proof.Machine

open Sys2Proof

/-! ### Layers and rows -/

/-- The layer's geometry in the directory header: K, N, N_TILE (R146). -/
def State.layerOf (s : State) (m l : Nat) : Nat × Nat × Nat :=
  let e := (s.mooring m).layers.getD l 0
  (fld e 15 0, fld e 31 16, fld e 47 32)

/-- A directory header is in force. -/
def State.headerOn (s : State) (m : Nat) : Bool := s.sideOn m && !(s.mooring m).headerFault

/-- Rows of factors over the adapted layers below `l` (R151). -/
def State.rowsBelow (s : State) (m l dF : Nat) (d : BitVec 512) (pick : Nat × Nat × Nat → Nat) : Nat :=
  (((List.range l).filter (nbit (dMask d) ·)).map fun j => divUp (pick (s.layerOf m j)) dF).foldl (· + ·) 0

/-- Where a version slot's factors start, A and B: as its pin-table entry captured them, else as the descriptor's fields say
where its VALID bit is set (R148, R180). -/
def State.slotHandle (s : State) (m a v : Nat) (d : BitVec 512) : Option (Nat × Nat) :=
  match s.pin? m a v with
  | some p => some (p.aRow, p.bRow)
  | none => if dValid d v then some (dARow d v, dBRow d v) else none

/-- Every factor row of a slot that starts at `h`, all adapted layers, A then B (R151). -/
def State.slotRows (s : State) (m dF : Nat) (d : BitVec 512) (h : Nat × Nat) : List Nat :=
  (List.range (dRank d * s.rowsBelow m 64 dF d (·.1))).map (h.1 + ·)
    ++ (List.range (dRank d * s.rowsBelow m 64 dF d (·.2.1))).map (h.2 + ·)

/-- Factor elements held by the row `off` rows into a block of factors: `parts` gives the vectors and the length of each adapted
layer, and each vector takes whole rows of `dF` (R151). -/
def chunkWidth (dF : Nat) : List (Nat × Nat) → Nat → Option Nat
  | [], _ => none
  | (r, n) :: rest, off =>
    let per := divUp n dF
    if off < r * per then some (min dF (n - off % per * dF)) else chunkWidth dF rest (off - r * per)

/-- Factor elements held by row `x`, if the slot that starts at `h` has it. -/
def State.slotWidth (s : State) (m dF : Nat) (d : BitVec 512) (h : Nat × Nat) (x : Nat) : Option Nat :=
  let ls := (List.range 64).filter (nbit (dMask d) ·)
  let part (start : Nat) (pick : Nat × Nat × Nat → Nat) :=
    if start ≤ x then chunkWidth dF (ls.map fun l => (dRank d, pick (s.layerOf m l))) (x - start) else none
  (part h.1 (·.1)).orElse fun _ => part h.2 (·.2.1)

/-- Factor elements held by row `x` of table `t`: the rest of the row lies beyond K or N (R151). None where no slot of an enabled
mooring's adapters has the row. -/
def State.factorWidth (s : State) (t : Tab) (x : Nat) : Option Nat :=
  ((List.range 16).filter fun m => s.headerOn m && s.factorTable m == t.id).findSome? fun m =>
    ((List.range (s.dirSize m)).drop 1).findSome? fun a =>
      let d := s.desc m a
      if s.hasDesc m a && !s.extPoison (s.descAddr m a) 64 && descBase d a then
        [0, 1].findSome? fun v => (s.slotHandle m a v d).bind fun h => s.slotWidth m t.dim d h x
      else none

/-- A row as the update path writes it: elements beyond K or N are zero (R151). -/
def State.clearTail (s : State) (t : Tab) (x : Nat) (ws : List Word) : List Word :=
  match s.factorWidth t x with
  | some n => ws.take n ++ List.replicate (ws.length - n) 0
  | none => ws

/-- A factor row as it enters the side pond's reach for record `i`: decoded and rounded into FACTOR_FMT, saturating; each clamp
counts (R150). -/
def State.factorRow (s : State) (m r i x : Nat) (t : Tab) (g : RowGot) : FactorRow × State :=
  let es := (decodeRow g.dr t.dim g.image).map fun v => narrow (s.factorFmt m) true .rne (Word.num v)
  let s := s.countNum r ((events es).1, 0)
  ({ region := r, rec_ := i, row := x, elems := es.map (·.bits), poison := g.poison }, if g.poison then s.err pSPD 1 else s)

/-! ### Moored copies -/

/-- Bytes of a moored adapter in one region: (K + N) × rank elements over its adapted layers (R161). -/
def State.adapterBytes (s : State) (m : Nat) (d : BitVec 512) : Nat :=
  let el := divUp (fmtBits (s.factorFmt m)) 8
  (((s.mooring m).layers.zipIdx.filter fun (_, l) => nbit (dMask d) l).map fun (x, _) => (fld x 15 0 + fld x 31 16) * dRank d * el).foldl
    (· + ·) 0

/-- SPD.Mm_MOOR_KIB in bytes. -/
def State.moorBytesMax (s : State) (m : Nat) : Nat := 1024 * s.cfgN pSPD (0x10C + 16 * m)

/-- The moor list worked through: what each region of a load moors, and what is counted (R161). -/
structure MoorPlan where
  moored : List Moored := []
  used : Nat := 0
  spill : Nat := 0
  faults : Nat := 0
  seen : List Nat := []
  /-- a descriptor read poisoned -/
  poison : Bool := false
deriving DecidableEq, Repr

/-- An adapter's copy still to be read, in the slot that ACTIVE selects; none where its factors cannot be told or lie beyond
the factor table (R148, R152). -/
def State.moorable (s : State) (m a : Nat) : Option Moored :=
  let d := s.desc m a
  match s.slotHandle m a (dActive d) d, s.tab (s.factorTable m) with
  | some h, .ok t =>
    let rows := s.slotRows m t.dim d h
    if rows.any (t.rows ≤ ·) then none else some { mooring := m, adapter := a, slot := dActive d, todo := rows }
  | _, _ => none

/-- One id of the moor list. -/
def State.moorOne (s : State) (m : Nat) (p : MoorPlan) (a : Nat) : MoorPlan :=
  let d := s.desc m a
  let q := { p with seen := a :: p.seen }
  if p.seen.contains a || a = 0 || !s.hasDesc m a then { q with faults := p.faults + 1 }
  else if s.extPoison (s.descAddr m a) 64 then { q with faults := p.faults + 1, poison := true }
  else if !descBase d a then { q with faults := p.faults + 1 }
  else if dRankQ d = 0 then q
  else match s.moorable m a with
    | none => { q with faults := p.faults + 1 }
    | some x =>
      if s.moorBytesMax m < p.used + s.adapterBytes m d then { q with spill := p.spill + 1 }
      else { q with moored := p.moored ++ [x], used := p.used + s.adapterBytes m d }

/-- The moor list of a mooring as its header names it. -/
def State.moorIds (s : State) (m : Nat) : List Nat :=
  (List.range (s.mooring m).moorCount).map fun k => s.extNat ((s.mooring m).moorList + 4 * k) 4 % 2 ^ 20

/-- The moor list reads poisoned. -/
def State.moorListBad (s : State) (m : Nat) : Bool :=
  (s.mooring m).moorCount != 0 && s.extPoison (s.mooring m).moorList (4 * (s.mooring m).moorCount)

def State.moorPlan (s : State) (m : Nat) : MoorPlan :=
  if s.moorListBad m then {} else (s.moorIds m).foldl (s.moorOne m) {}

/-- What a load's moor list counts, once for the load (R161, R175). -/
def State.notePlan (s : State) (p : MoorPlan) : State :=
  let s := (s.count pSPD 0xF14 p.spill).count pSPD 0xF18 p.faults
  let s := if p.faults = 0 then s else s.err pSPD 0
  if p.poison then s.err pSPD 1 else s

/-- A mooring's moored adapters in region `r` replaced. -/
def State.setMoored (s : State) (r m : Nat) (l : List Moored) : State :=
  s.updRegion r fun x => { x with moored := x.moored.filter (·.mooring != m) ++ l }

/-- One moored adapter of a region changed, or dropped. -/
def State.updMoored (s : State) (r m a : Nat) (f : Moored → Option Moored) : State :=
  s.updRegion r fun x => { x with moored := x.moored.filterMap fun y => if y.mooring == m && y.adapter == a then f y else some y }

/-- A load has read a poisoned word: the piece is absent (R300). -/
def State.pieceFault (s : State) (m r : Nat) : State :=
  if (s.region r).pieces.any (·.mooring == m) then
    (s.updRegion r fun x => { x with
      pieces := x.pieces.filter (·.mooring != m), moored := x.moored.filter (·.mooring != m) }).count pLKP 0xFD4
  else s

/-- A row of a moored copy is read as a GATHER's would be (R163); true while it is on its way. An adapter one of whose rows
cannot be read is served as fetched (assumption 85). -/
def State.fillRow (s : State) (m r a x : Nat) : Bool × State :=
  match s.tab (s.factorTable m) with
  | .ok t => match s.acquire r t x 1 true false with
    | (.got g, s) =>
      let (f, s) := s.factorRow m r 0 x t g
      let s := s.updMoored r m a fun y => some { y with todo := y.todo.filter (· != x), rows := y.rows ++ [f] }
      (false, if g.poison then s.pieceFault m r else s)
    | (.fail _, s) => (false, s.updMoored r m a fun _ => none)
    | (.waits, s) => (true, s)
    | (.full, s) => (true, s.noteWait r (2 ^ 32 + m, a, t.id, x))
  | _ => (false, s.updMoored r m a fun _ => none)

/-- The rows that region `r`'s copies of a mooring's adapters still lack are looked for; true while some are on their way. -/
def State.fillMoored (s : State) (m r : Nat) : Bool × State :=
  ((s.region r).moored.filter (·.mooring == m)).foldl (fun p y =>
    y.todo.foldl (fun p x => let (w, s) := p.2.fillRow m r y.adapter x; (p.1 || w, s)) p) (false, s)

/-- An adapter moored in a region with its whole copy, in the slot that a segment reads (R162). -/
def State.moored? (s : State) (r m a v : Nat) : Option Moored :=
  (s.region r).moored.find? fun y => y.mooring == m && y.adapter == a && y.slot == v && y.todo.isEmpty

/-- The copies of flipped adapters are reloaded from the slot that ACTIVE now selects (R162). -/
def State.remoor (s : State) (m : Nat) (ids : List Nat) : State :=
  (List.range 8).foldl (fun s r =>
    let s := s.updRegion r fun x => { x with
      moored := x.moored.filterMap fun y => if y.mooring == m && ids.contains y.adapter then s.moorable m y.adapter else some y }
    (s.fillMoored m r).2) s

end Sys2Proof.Machine
end

