-- ==== Sys2Proof/Machine/TableOps.lean ====
section
/-! DEFINITION. TABLE_OP and ADAPTER_FLIP: CREATE, REPLACE, DELETE, WRITE_ROWS, READ_ROWS (R65, R192 to R196, R214 to R218,
R259) and flips (R66, R184 to R187). -/

namespace Sys2Proof.Machine

open Sys2Proof

/-! ### Shared by the table operations (R65) -/

def Item.table (it : Item) : Nat := it.f 83 72
def Item.subop (it : Item) : Nat := it.f 71 64
def Item.opCount (it : Item) : Nat := it.f 127 96
def Item.opSeq (it : Item) : Word := BitVec.ofNat 32 (it.f 255 224)
def Item.descAddr (it : Item) : Nat := it.f 191 128
def Item.descExt (it : Item) : Bool := it.f 192 192 == 1

/-- rsvd fields of a TABLE_OP, and its alignment. -/
def tableOpPlain (it : Item) : Bool := it.plain && it.zeroAt [(511, 256), (223, 193), (95, 84)] && it.descAddr % 64 == 0

/-- An earlier CREATE, REPLACE or DELETE of the same table is unfinished (R214, R216). -/
def State.tableBusy (s : State) (it : Item) : Bool :=
  s.hq.items.any fun x => x.type == 5 && x.table == it.table && x.subop ≤ 3 && x.order < it.order

/-- The table is the factor table of an enabled mooring (R216, R218). -/
def State.isFactorTable (s : State) (t : Nat) : Bool := (List.range 16).any fun m => s.sideOn m && s.factorTable m == t

/-! ### CREATE (R194, R214, R259) -/

/-- Local indices that this engine's ranges span (R198). -/
def State.ownSpan (s : State) (t : Tab) : Nat := ((localRanges t.rows (s.shards t) s.selfId).map (·.2)).foldl max 0

/-- Bytes of a basin of `n` slots of `size` bytes. -/
def basinBytes (size n : Nat) : Nat := if size = 0 then 0 else if size ≤ 512 then 512 * divUp n (512 / size) else 512 * divUp size 512 * n

/-- The structures an entry names on this engine: address and length (R194, R259, R260). -/
def State.tabAreas (s : State) (t : Tab) : List (Nat × Nat) :=
  let span := s.ownSpan t
  let c := t.optCtrl
  let per := if fullState c then optBytes (optOf c) t.dim else if coldOpt c = 1 then 4 else 0
  let hotPer := if !fullState c && t.hotEn && (optOf c = 1 || optOf c = 3) then optBytes (optOf c) t.dim else 0
  [(t.shardAddr, 16 * t.shardCount), (t.memberAddr, 2 * t.memberCount), (t.homeBase, basinBytes (imageBytes t.homeDr t.dim) span),
   (t.hotBase, basinBytes (imageBytes t.hotDr t.dim) t.hotSlots),
   (t.popBase, if t.hotEn then 2 * divUp span (2 ^ fld (s.cfg pROW 0x144) 15 12) else 0),
   (t.defaultAddr, if t.defaultOwner = s.selfId then 4 * t.dim else 0), (t.paramAddr, 64), (t.stateBase, per * span),
   (t.hotStateBase, hotPer * t.hotSlots)]

/-- The 64-byte header. -/
structure RowsHdr where
  first : Nat
  source : Bool
  staged : Bool
  resetState : Bool
  srcFirst : Nat
  data : Nat
  rsvd : Nat
deriving DecidableEq, Repr

def rowsHdr (w : Nat) : RowsHdr :=
  { first := nfld w 39 0, source := nbit w 40, staged := nbit w 41, resetState := nbit w 42, srcFirst := nfld w 103 64
    data := nfld w 191 128, rsvd := nfld w 511 192 + nfld w 127 104 + nfld w 63 43 }

/-- What a table operation reads or writes of external memory: its descriptor or header with its row data, and the slots
and structures of its table. -/
def State.opRanges (s : State) (it : Item) : List (Nat × Nat) :=
  let ts := [1, 2].filterMap (s.tabIn it.table)
  let own := if it.descExt then
      let h := rowsHdr (s.extNat it.descAddr 64)
      if it.subop ≤ 3 then [(it.descAddr, 128)]
      else [(it.descAddr, 64), (h.data, it.opCount * (ts.map (4 * ·.dim)).foldl max 0)]
    else []
  own ++ (s.dirSlot it.table 0, 256) :: ts.flatMap s.tabAreas

/-- A table operation meets the C range of an open collective, and waits (R135). -/
def State.opHeld (s : State) (it : Item) : Bool := tableOpPlain it && (s.opRanges it).any fun (a, n) => s.rangeOpen a n

/-- Item `j` is a TABLE_OP of a sub-operation, not yet processed. -/
def State.processOp (s : State) (j sub : Nat) (f : State → Item → State) : State :=
  s.process j 5 fun s it => if it.subop = sub && !s.opHeld it then f s it else s

/-- The fields of a descriptor that R193, R194 and R259 judge on their own. -/
def descFieldsOk (t : Tab) : Bool :=
  let r := t.raw
  let c := t.optCtrl
  checkOk r && bfld r 0x70 1 == 0 && nfld t.geo 63 54 == 0 && nfld t.geo 47 47 == 0 && bfld r 0x1C 2 / 2 ^ 13 == 0
    && bfld r 0x3C 4 == 0 && bfld r 0x71 11 == 0 && c / 2 ^ 10 == 0 && bfld r 0x6C 4 == 0
    && t.rows != 0 && 16 ≤ t.dim && t.dim ≤ 1024 && t.hotDr ≤ 1 && 2 ≤ t.homeDr
    && (!t.hotEn || t.hotSlots != 0) && (t.hotEn || (t.hotBase == 0 && t.hotSlots == 0 && t.popBase == 0))
    && 1 ≤ t.shardCount && t.shardCount ≤ 65536 && 1 ≤ t.memberCount && t.memberCount ≤ 8192
    && t.shardAddr % 64 == 0 && t.memberAddr % 64 == 0 && t.homeBase % 512 == 0 && t.hotBase % 512 == 0 && t.popBase % 64 == 0
    && t.defaultAddr % 512 == 0 && t.paramAddr % 64 == 0 && t.stateBase % 64 == 0 && t.hotStateBase % 64 == 0
    && optOf c ≤ 3 && coldOpt c ≤ 1
    && (fullState c || !(optOf c == 0 || optOf c == 2) || (if coldOpt c = 1 then 2 else 0) == optOf c) && t.paramAddr != 0

/-- The state bases stand where R260 gives the structure, and nowhere else (R259). -/
def stateBasesOk (t : Tab) : Bool :=
  let c := t.optCtrl
  let wantState := if fullState c then optOf c != 0 else coldOpt c == 1
  let wantHot := !fullState c && t.hotEn && (optOf c == 1 || optOf c == 3)
  (t.stateBase != 0) == wantState && (t.hotStateBase != 0) == wantHot

/-- A descriptor that CREATE accepts. -/
def State.descOk (s : State) (t : Tab) : Bool :=
  descFieldsOk t && shardsOk t.rows (s.shardRaw t) && s.membersOk t
    && (s.ownSpan t == 0 || t.homeBase != 0) && stateBasesOk t
    && (s.tabAreas t).all fun (a, n) => n == 0 || decide (a + n ≤ s.populated)

/-- The counters of a new entry zeroed (R204, R214). -/
def State.zeroPop (s : State) (t : Tab) : State :=
  if t.hotEn then s.extWrite t.popBase (leBytes (2 * divUp (s.ownSpan t) (2 ^ fld (s.cfg pROW 0x144) 15 12)) 0) else s

/-- The descriptor written to a slot in the state R214 gives it. -/
def State.createInto (s : State) (it : Item) (t : Tab) (k st : Nat) : State :=
  ((s.putSlot it.table k t.raw st).zeroPop t).settle it fDONE

def State.create (s : State) (it : Item) : State :=
  if !(tableOpPlain it) || 1 < it.opCount || it.opSeq != 0 then s.settle it fCFG
  else if it.opCount = 0 then s.settle it fZERO
  else if s.tableBusy it || ((s.slotIn it.table 3).isSome && (s.slotIn it.table 0).isNone) then s
  else if s.locUnreadable it.descExt it.descAddr 128 then s.settle it fECC
  else
    let t : Tab := { id := it.table, slot := 0, raw := leNat (s.loc? it.descExt it.descAddr 128) }
    if !descFieldsOk t then s.settle it fCFG
    else if !s.mapsReadable t then s.settle it fECC
    else if !s.descOk t then s.settle it fCFG
    else match s.tab it.table, s.slotIn it.table 2, s.slotIn it.table 0 with
      | .none, none, some k => s.createInto it t k 1
      | .ok u, none, some k => if serialGt t.seq u.seq then s.createInto it t k 2 else s.settle it fCFG
      | .bad, _, _ => s.dirFault.settle it fCFG
      | _, _, _ => s.settle it fCFG

/-- CREATE: item `j` (R214). It waits while the slot beside the ACTIVE one is FORMER. -/
def execCreate (j : Nat) (s : State) : Host.Outcome State Fault Refusal :=
  s.engine fun s => s.processOp j 1 State.create

/-! ### REPLACE and DELETE (R216 to R218) -/

/-- The pause begins (R216 step 1). -/
def State.pause (s : State) (it : Item) (replace : Bool) (moorings : BitVec 16) : State :=
  let s := s.updItem it.j fun x => { x with stage := .waiting }
  { s with rows := { s.rows with
      pauses := s.rows.pauses ++ [{ j := it.j, table := it.table, replace := replace, since := s.now, moorings := moorings }] } }

/-- The moorings that an entry names, and those of the entry beside it. -/
def State.maskOf (s : State) (t st : Nat) : BitVec 16 := ((s.tabIn t st).map (·.moorMask)).getD 0

def State.replace (s : State) (it : Item) : State :=
  if !(tableOpPlain it) || 1 < it.opCount || it.descAddr != 0 then s.settle it fCFG
  else if it.opCount = 0 then s.settle it fZERO
  else match s.tab it.table, s.tabIn it.table 2 with
    | .none, _ => s.settle it fCFG
    | .bad, _ => s.dirFault.settle it fECC
    | .ok _, none => s.settle it fCFG
    | .ok _, some t =>
      if t.seq != it.opSeq || s.isFactorTable it.table then s.settle it fCFG
      else if s.tableBusy it then s
      else s.pause it true (s.maskOf it.table 1 ||| s.maskOf it.table 2)

/-- REPLACE: item `j` (R216). Checked at acceptance, it may wait behind an earlier operation of the same table, and is checked
again when its turn comes. -/
def execReplace (j : Nat) (s : State) : Host.Outcome State Fault Refusal :=
  s.engine fun s => s.processOp j 2 State.replace

def State.deleteTable (s : State) (it : Item) : State :=
  if !(tableOpPlain it) || 1 < it.opCount || it.descAddr != 0 || it.opSeq != 0 then s.settle it fCFG
  else if it.opCount = 0 then s.settle it fZERO
  else match s.tab it.table with
    | .none => s.settle it fCFG
    | .bad => s.dirFault.settle it fECC
    | .ok _ =>
      if s.isFactorTable it.table then s.settle it fCFG
      else if s.tableBusy it then s
      else match s.slotIn it.table 2 with
        | some k => (s.markSlot it.table k 0).settle it fDONE
        | none => s.pause it false (s.maskOf it.table 1)

/-- DELETE: item `j` (R218). -/
def execDelete (j : Nat) (s : State) : Host.Outcome State Fault Refusal :=
  s.engine fun s => s.processOp j 3 State.deleteTable

/-- No barge that the pause concerns runs: of a paused mooring, or SOLO (R216). -/
def State.pauseDrained (s : State) (p : TablePause) : Bool :=
  s.sv.barges.all fun b => b.st == .waiting || !(b.solo || bitOf p.moorings b.mooring)

/-- A hot row written back to its home copy and no longer hot; a row that R46 refuses is not written back (R205, R216). -/
def State.demote (s : State) (t : Tab) (a : Nat) (x h : Nat) : Bool × State :=
  match s.mapLoc t x false with
  | none => (false, s)
  | some home =>
    let hot := t.hotLoc (home.local_.getD 0) h
    let (r, s) := s.readRow t hot
    if r.poison then (false, s)
    else match s.encodeInto t.id x t.homeDr false (fun _ => .rne) (decodeRow t.hotDr t.dim r.image) with
      | (none, s) => (false, s)
      | (some img, s) =>
        let s := s.writeRowImage t home img (s.regN pUPD 0xF00)
        let s := (s.extPutNat a 16 0).count pROW 0xF28
        (true, s.skew t.id fun k => { k with demotions := satAdd 16 k.demotions 1 })

/-- The hot directory entries of a table: address, row and hot slot. -/
def State.hotOf (s : State) (t : Nat) : List (Nat × Nat × Nat) :=
  (s.hotEntries.filter fun (_, w) => nfld w 51 40 == t).map fun (a, w) => (a, nfld w 39 0, nfld w 95 64)

/-- The exception entries of a table: table, row and entry. -/
def State.tableExc (s : State) (t : Nat) : List (Nat × Nat × Nat) :=
  (s.excEntries.filter fun (_, w) => nfld w 51 40 == t).map fun (_, w) => (t, nfld w 39 0, w)

/-- Step 2 of R216: hot rows go home, merged gradients and cached rows of the table go, and its entries are removed. -/
def State.drainTable (s : State) (t : Tab) : State :=
  let s := (s.hotOf t.id).foldl (fun s (a, x, h) => (s.demote t a x h).2) s
  let s := (s.hotOf t.id).foldl (fun s (a, _, _) => s.extPutNat a 16 0) s
  let exc := s.tableExc t.id
  let s := exc.foldl (fun s (_, x, _) => s.excDel t.id x) s
  let keys := ((s.rows.merge.filter (·.table == t.id)).map fun e => (e.step, e.row))
    ++ ((s.rows.weir.filter (·.table == t.id)).map fun e => (e.step, e.row))
  let s := s.count pROW 0xF38 keys.eraseDups.length
  let s := { s with rows := { s.rows with
    merge := s.rows.merge.filter (·.table != t.id)
    weir := s.rows.weir.filter (·.table != t.id)
    promote := s.rows.promote.filter (·.1 != t.id)
    demote := s.rows.demote.filter (·.1 != t.id)
    moves := s.rows.moves.filter (·.table != t.id)
    inbound := s.rows.inbound.filter (·.table != t.id)
    provisional := s.rows.provisional.filter (·.1 != t.id) } }
  { s with regions := s.regions.map fun (r, x) => (r, { x with cache := x.cache.filter (·.table != t.id) }) }

/-- The migration-basin sectors of exception entries are free again. -/
def State.freeEntries (s : State) (l : List (Nat × Nat × Nat)) : State :=
  let ks := (l.filter fun (_, _, w) => excState w == eOWNED || excState w == ePROV).map fun (_, _, w) => excSlot w
  { s with rows := { s.rows with basin := s.rows.basin.filter fun (k, _) => !ks.contains k } }

/-- The pause ends, and its length is counted. -/
def State.endPause (s : State) (p : TablePause) : State :=
  { s with rows := { s.rows with pauses := s.rows.pauses.filter (·.j != p.j) } }.count pROW 0xF3C (s.now - p.since)

/-- Steps 2 and 3 of R216, or the end of a DELETE. -/
def State.pauseTakeEffect (s : State) (p : TablePause) (it : Item) : State :=
  match s.tab p.table with
  | .ok t =>
    let exc := s.tableExc t.id
    let s := s.drainTable t
    if p.replace then
      match s.slotIn p.table 2 with
      | some k =>
        let s := (s.markSlot p.table k 1).markSlot p.table t.slot 3
        let s := { s with rows := { s.rows with
          former := s.rows.former ++ [(p.table, s.now + s.cfgN pROW 0x140)], formerRows := s.rows.formerRows ++ exc } }
        (s.endPause p).settle it fDONE
      | none => (s.endPause p).settle it fCFG
    else (((s.freeEntries exc).markSlot p.table t.slot 0).endPause p).settle it fDONE
  | .none => (s.endPause p).settle it fCFG
  | .bad => (s.dirFault.endPause p).settle it fECC

/-- The pause of item `j` has drained. -/
def State.tableTakeEffect (s : State) (j : Nat) (replace : Bool) : State :=
  match s.rows.pauses.find? (fun p => p.j == j && p.replace == replace), s.item? j with
  | some p, some it => if s.pauseDrained p && !s.opHeld it then s.pauseTakeEffect p it else s
  | _, _ => s

/-- REPLACE_TAKE_EFFECT: item `j` (R216 steps 2 and 3). -/
def execReplaceTakeEffect (j : Nat) (s : State) : Host.Outcome State Fault Refusal := s.engine fun s => s.tableTakeEffect j true

/-- DELETE_TAKE_EFFECT: item `j` (R218). -/
def execDeleteTakeEffect (j : Nat) (s : State) : Host.Outcome State Fault Refusal := s.engine fun s => s.tableTakeEffect j false

/-- FORMER_EXPIRY: the FORMER slot of a table becomes FREE, and what it held of the migration basin with it (R217). -/
def State.formerExpire (s : State) (t : Nat) : State :=
  match s.rows.former.find? fun (x, due) => x == t && decide (due ≤ s.now), s.slotIn t 3 with
  | some p, some k =>
    let s := (s.markSlot t k 0).freeEntries (s.rows.formerRows.filter (·.1 == t))
    { s with rows := { s.rows with former := s.rows.former.filter (· != p), formerRows := s.rows.formerRows.filter (·.1 != t) } }
  | _, _ => s

def execFormerExpiry (t : Nat) (s : State) : Host.Outcome State Fault Refusal := s.engine fun s => s.formerExpire t

/-! ### WRITE_ROWS and READ_ROWS (R215) -/

/-- The entry an operation reaches: ACTIVE or STAGED; or the fate it gives before any row. -/
def State.rowsTab (s : State) (it : Item) (staged : Bool) : Nat ⊕ Tab :=
  match s.tab it.table with
  | .none => .inl fCFG
  | .bad => .inl fECC
  | .ok t =>
    if !staged then .inr t
    else match s.tabIn it.table 2 with
      | some u => if s.entryOk u then .inr u else .inl fECC
      | none => .inl fCFG

/-- Where an owned row of the entry lies; none where this engine does not own it (R215). -/
def State.ownedAt (s : State) (t : Tab) (staged : Bool) (single : Bool) (x : Nat) : Option Loc :=
  if t.rows ≤ x then (if single && x = sentinel && t.defaultOwner = s.selfId then some t.defaultLoc else none)
  else if staged then s.mapLoc t x false
  else match s.holdOf t x with
    | .own l => some l
    | _ => none

/-- The words of one row from the data buffer, or the fate that stops the operation. -/
def State.dataRow (s : State) (t : Tab) (it : Item) (h : RowsHdr) (k : Nat) : Nat ⊕ List Word :=
  let a := h.data + 4 * t.dim * k
  if s.locUnreadable it.descExt a (4 * t.dim) then .inl fECC
  else .inr ((groups 4 t.dim (s.loc? it.descExt a (4 * t.dim))).map (BitVec.ofNat 32))

/-- The words of one stored row, or the fate that stops the operation. -/
def State.storedRow (s : State) (t : Tab) (l : Option Loc) : (Nat ⊕ List Word) × State :=
  match l with
  | none => (.inl fCFG, s)
  | some l =>
    let (r, s) := s.readRow t l
    (if r.poison then .inl fECC else .inr (decodeRow l.dr t.dim r.image), s)

/-- One row of a WRITE_ROWS: the fate that stops it, or the state after the row. -/
def State.writeOne (s : State) (t : Tab) (it : Item) (h : RowsHdr) (k : Nat) : Option Nat × State :=
  let single := it.opCount == 1
  match s.ownedAt t h.staged single (h.first + k) with
  | none => (some fCFG, s)
  | some l =>
    let (src, s) := if h.source then s.storedRow t (s.ownedAt t h.staged single (h.srcFirst + k)) else (s.dataRow t it h k, s)
    match src with
    | .inl f => (some f, s)
    | .inr ws =>
      if !(ws.map Word.num).all Num.finite then (some fCFG, s)
      else match s.encodeInto t.id (h.first + k) l.dr false (fun _ => .rne) ws with
        | (none, s) => (some fCFG, s)
        | (some img, s) =>
          let s := s.writeRowImage t l img (s.regN pUPD 0xF00)
          (none, if h.resetState then s.zeroState t l else s)

/-- Rows `k` on, `n` of them; the rows completed, and the fate that stopped the operation, if any. -/
def State.writeMany (s : State) (t : Tab) (it : Item) (h : RowsHdr) : Nat → Nat → Nat × Option Nat × State
  | 0, k => (k, none, s)
  | n + 1, k =>
    match s.writeOne t it h k with
    | (some f, s) => (k, some f, s)
    | (none, s) => s.writeMany t it h n (k + 1)

/-- What WRITE_ROWS and READ_ROWS check before any row is touched. -/
def State.rowsStart (s : State) (it : Item) (read : Bool) (run : State → Tab → RowsHdr → State) : State :=
  if !tableOpPlain it then s.settle it fCFG
  else if it.opCount = 0 then s.settle it fZERO
  else if s.locUnreadable it.descExt it.descAddr 64 then s.settle it fECC
  else
    let h := rowsHdr (leNat (s.loc? it.descExt it.descAddr 64))
    if h.rsvd != 0 || h.data % 64 != 0 || (read && h.source) then s.settle it fCFG
    else match s.rowsTab it h.staged with
      | .inl f => (if f = fECC then s.dirFault else s).settle it f
      | .inr t => run s t h

/-- WRITE_ROWS: item `j` (R215). -/
def execWriteRows (j : Nat) (s : State) : Host.Outcome State Fault Refusal :=
  s.engine fun s => s.processOp j 4 fun s it => s.rowsStart it false fun s t h =>
    let (n, f, s) := s.writeMany t it h it.opCount 0
    s.settle it (f.getD fDONE) n

/-- One row of a READ_ROWS. -/
def State.readOne (s : State) (t : Tab) (it : Item) (h : RowsHdr) (k : Nat) : Option Nat × State :=
  let (src, s) := s.storedRow t (s.ownedAt t h.staged (it.opCount == 1) (h.first + k))
  match src with
  | .inl f => (some f, s)
  | .inr ws => (none, s.locWrite it.descExt (h.data + 4 * t.dim * k) (ws.flatMap fun w => leBytes 4 w.toNat) (.rowData it.j k))

def State.readMany (s : State) (t : Tab) (it : Item) (h : RowsHdr) : Nat → Nat → Nat × Option Nat × State
  | 0, k => (k, none, s)
  | n + 1, k =>
    match s.readOne t it h k with
    | (some f, s) => (k, some f, s)
    | (none, s) => s.readMany t it h n (k + 1)

/-- READ_ROWS: item `j` (R215). Rows in host memory complete with their acknowledges (R432). -/
def execReadRows (j : Nat) (s : State) : Host.Outcome State Fault Refusal :=
  s.engine fun s => s.processOp j 5 fun s it => s.rowsStart it true fun s t h =>
    let (n, f, s) := s.readMany t it h it.opCount 0
    if it.descExt || n = 0 then s.settle it (f.getD fDONE) n
    else s.updItem j fun x => { x with stage := .waiting, stop := f, target := f.map fun _ => n }

/-! ### Flips (R66, R184 to R187) -/

/-- The listed ids of a SCOPE 0b10 flip. -/
def State.flipList (s : State) (it : Item) : List Nat :=
  (List.range (it.f 159 128)).map fun k => s.extNat (it.f 223 160 + 4 * k) 4 % 2 ^ 20

/-- R184's table of valid values. -/
def State.flipOk (s : State) (it : Item) : Bool :=
  let m := it.f 69 66
  let scope := it.f 65 64
  let id := it.f 91 72
  let n := it.f 159 128
  let a := it.f 223 160
  it.plain && it.zeroAt [(511, 224), (95, 92), (71, 70)] && s.sideOn m && scope != 3
    && (if scope = 0 then 1 ≤ id && id < s.dirSize m else id == 0)
    && (if scope = 2 then n ≤ 2 ^ 20 && a % 64 == 0 && decide (a + 4 * n ≤ s.populated) else n == 0 && a == 0)

def State.flip (s : State) (it : Item) : State :=
  let m := it.f 69 66
  if !s.flipOk it || s.hq.maint then s.settle it fCFG
  else if it.f 65 64 = 2 && it.f 159 128 = 0 then s.settle it fZERO
  else if it.f 65 64 = 2 && s.extPoison (it.f 223 160) (4 * it.f 159 128) then s.settle it fECC
  else if it.f 65 64 = 2 && !((s.flipList it).all fun a => decide (1 ≤ a) && decide (a < s.dirSize m)) then s.settle it fCFG
  else (s.updItem it.j fun x => { x with stage := .waiting }).updMooring m fun x => { x with flips := x.flips ++ [it.j] }

/-- ADAPTER_FLIP: item `j` (R66, R184). -/
def execAdapterFlip (j : Nat) (s : State) : Host.Outcome State Fault Refusal := s.engine fun s => s.processInTurn j 6 State.flip

/-- A descriptor is usable apart from its VALID bits (R148, R185). -/
def State.descUsable (s : State) (m a : Nat) : Bool :=
  s.hasDesc m a && !s.extPoison (s.descAddr m a) 64 && descBase (s.desc m a) a

/-- The adapters that a flip names, in ascending order (R187). -/
def State.flipNames (s : State) (it : Item) : List Nat :=
  let m := it.f 69 66
  let seq := it.f 127 96
  if it.f 65 64 = 0 then [it.f 91 72]
  else if it.f 65 64 = 2 then sortBy (fun x y => decide (x ≤ y)) (s.flipList it).eraseDups
  else (List.range (s.dirSize m)).filter fun a =>
    a != 0 && s.descUsable m a && (dSeq (s.desc m a) 0 == seq || dSeq (s.desc m a) 1 == seq)

/-- Outcomes of one adapter at the boundary (R185). -/
inductive FlipRes where
  | already | cfg | busy | flips
deriving DecidableEq, Repr

/-- R185's table, first row that applies. -/
def State.judgeFlip (s : State) (m seq a : Nat) : FlipRes :=
  let d := s.desc m a
  let act := dActive d
  let sh := 1 - act
  if !s.descUsable m a then .cfg
  else if dSeq d act = seq then .already
  else if dSeq d sh != seq || !serialGt (BitVec.ofNat 32 seq) (BitVec.ofNat 32 (dSeq d act)) then .cfg
  else if !dValid d sh && dRankQ d != 0 then .cfg
  else if (s.pin? m a sh).isSome then .busy
  else .flips

/-- The flip leaves its mooring's queue. -/
def State.flipLeaves (s : State) (m j : Nat) : State := s.updMooring m fun x => { x with flips := x.flips.filter (· != j) }

/-- A descriptor rewritten with ACTIVE inverted, every other field as read (R185). -/
def State.invertActive (s : State) (m a : Nat) : State :=
  s.extWrite (s.descAddr m a) (leBytes 64 (setFld (s.desc m a).toNat 146 146 (1 - dActive (s.desc m a))))

def State.flipEffect (s : State) (it : Item) : State :=
  let m := it.f 69 66
  let judged := (s.flipNames it).map fun a => (a, s.judgeFlip m (it.f 127 96) a)
  let go := (judged.filter fun (_, r) => r == .flips).map (·.1)
  if judged.any fun (_, r) => r == .cfg then (s.flipLeaves m it.j).settle it fCFG (detail := 2)
  else match judged.find? fun (_, r) => r == .busy with
    | some (a, _) => ((s.flipLeaves m it.j).count pSPD 0xF20).settle it fFLIP_BUSY a (detail := 2)
    | none =>
      if go.isEmpty then (s.flipLeaves m it.j).settle it fDONE (detail := 1)
      else
        (go.foldl (fun s a => s.invertActive m a) s).updMooring m fun x => { x with rewriting := true, flipping := go }

/-- The first flip of its mooring, at a barge boundary of the mooring (R184). -/
def State.flipMay (s : State) (it : Item) : Bool :=
  let m := it.f 69 66
  it.type = 6 && (s.mooring m).flips.head? == some it.j && s.atBoundary m && !(s.mooring m).rewriting

/-- FLIP_TAKE_EFFECT: item `j` (R184, R185). -/
def execFlipTakeEffect (j : Nat) (s : State) : Host.Outcome State Fault Refusal :=
  s.engine fun s => match s.item? j with
    | some it => if s.flipMay it then s.flipEffect it else s
    | none => s

/-- FLIP_COMPLETE: the descriptor writes of item `j` are complete (R185, R187). -/
def State.flipDone (s : State) (it : Item) : State :=
  let m := it.f 69 66
  let x := s.mooring m
  if it.type != 6 || x.flips.head? != some it.j || !x.rewriting then s
  else
    let s := (s.remoor m x.flipping).count pSPD 0xF1C x.flipping.length
    ((s.flipLeaves m it.j).updMooring m fun x => { x with rewriting := false, flipping := [] }).settle it fDONE

def execFlipComplete (j : Nat) (s : State) : Host.Outcome State Fault Refusal :=
  s.engine fun s => match s.item? j with
    | some it => s.flipDone it
    | none => s

end Sys2Proof.Machine
end

