-- ==== Sys2Proof/Machine/Gather.lean ====
section
/-! DEFINITION. Look-up and pooling: GATHER (R102, R221 to R227, R233, R234), PREFETCH (R103, R232) and POOL (R104, R235 to
R237). -/

namespace Sys2Proof.Machine

open Sys2Proof

/-- binary32 or BF16. -/
def fmtRow (c : Nat) : Bool := c == 0 || c == 2

/-- An operand in POOL or EXT. -/
def Opd.poolOrExt (o : Opd) : Bool := o.space == spPOOL || o.space == spEXT

/-! ### GATHER -/

/-- Bytes of the image up to its key table (R225). -/
def gHead (w : Nat) : Nat := 64 + upTo (4 * gBags w) 64 + upTo (4 * gIndices w) 64

/-- R87, R102, R117, R221, R222, R226. -/
def gatherOk (s : State) (_ : Barge) (earlier : List Nat) (w : Nat) : Bool :=
  recP w 127 65 == 0 && recP w 31 25 == 0 && gBags w ≤ 2 ^ 24 && gIndices w ≤ 2 ^ 24
    && (recA w).poolOrExt && s.rawFits (recA w) (upTo (4 * gBags w) 64 + 8 * gIndices w)
    && (recB w).none && (recC w).space == spPOOL && fmtRow (recC w).fmt && (recC w).stride != 0
    && decide ((recC w).addr + gHead w ≤ s.spaceBytes spPOOL)
    && decide (indexTotal (earlier ++ [w]) ≤ 2 ^ 24)

def gatherZero (w : Nat) : Bool := gBags w == 0 || gIndices w == 0

/-- A key of the list as the sort sees it (R223, R234): it passes, fails by itself, or cannot be read. -/
inductive PosKey where
  | ok (key : Nat)
  | bad (w fate : Nat)
  | poison (at_ : Nat)
deriving DecidableEq, Repr

/-- What one region read from its bag list. -/
structure BagList where
  entries : List Nat
  keys : List Nat
  entryPends : List LockMask
  keyPends : List LockMask
  entryBad : Bool
  keyBad : List Bool
deriving DecidableEq, Repr

def State.bagList (s : State) (b : Barge) (o : Opd) (r : Nat) (w : Nat) : BagList :=
  let st := o.store r 0
  let ka := o.addr + upTo (4 * gBags w) 64
  let bad := fun a n => s.poisonAt st a n || s.voidAt st a n
  { entries := groups 4 (gBags w) (s.rd st o.addr (4 * gBags w))
    keys := groups 8 (gIndices w) (s.rd st ka (8 * gIndices w))
    entryPends := (List.range (gBags w)).map fun k => b.lockSet w ||| s.pendAt st (o.addr + 4 * k) 4
    keyPends := (List.range (gIndices w)).map fun k => b.lockSet w ||| s.pendAt st (ka + 8 * k) 8
    entryBad := bad o.addr (4 * gBags w)
    keyBad := (List.range (gIndices w)).map fun k => bad (ka + 8 * k) 8 }

/-- The keys settled, in position order. -/
def State.posKeys (s : State) (bl : BagList) : List PosKey :=
  (bl.keys.zip bl.keyBad).zipIdx.map fun ((w, bad), k) =>
    if bad then .poison k
    else match s.settleKey w with
      | .fail f => .bad w f
      | .ok t x => .ok (x + t.id * 2 ^ 40)

/-- The dimension of a table. -/
def State.dimOf (s : State) (tid : Nat) : Nat := match s.tab tid with | .ok t => t.dim | _ => 0

/-- Ascending, without repeats. -/
def sortUniq (l : List Nat) : List Nat := sortBy (fun a b => decide (a ≤ b)) l.eraseDups

/-- The slots of the image in order: keys that pass, failing keys, then each poisoned one (R223, R234). -/
def slotKeys (ps : List PosKey) : List PosKey :=
  (sortUniq (ps.filterMap fun p => match p with | .ok k => some k | _ => none)).map PosKey.ok
    ++ (sortUniq (ps.filterMap fun p => match p with | .bad w _ => some w | _ => none)).filterMap (fun w =>
      ps.find? fun p => match p with | .bad v _ => v == w | _ => false)
    ++ ps.filter fun p => match p with | .poison _ => true | _ => false

/-- The pool's own structures that an image may not reach: the hot-directory cache and the fetch window above it, the
gradient list, the row cache (R226), as (start, bytes). -/
def State.poolStructures (s : State) : List (Nat × Nat) :=
  let fetch := 1024 * s.cfgN pSPD 0x200
  let hot := 1024 * s.cfgN pROW 0x138
  [ (poolBytes - fetch - hot, fetch + hot), (s.cfgN pSPD 0x208, 1024 * s.cfgN pSPD 0x20C), (s.cfgN pGSU 0x100, s.cacheBytes) ]

/-- Two ranges meet. -/
def rangesMeet (x y : Nat × Nat) : Bool := x.1 < y.1 + y.2 && y.1 < x.1 + x.2

/-- The slots of an image from their keys and the keys of its positions. -/
def slotsOf (ks ps : List PosKey) (pends : List LockMask) : List Slot :=
  ks.map fun k =>
    let at_ := (ps.zip pends).filter fun (p, _) => p == k
    let m := joinAll (at_.map (·.2))
    match k with
    | .ok v => { table := v / 2 ^ 40, row := v % 2 ^ 40, mult := at_.length, dflt := v % 2 ^ 40 == sentinel, pend := m }
    | .bad w f => { table := nfld w 51 40, row := nfld w 39 0, mult := at_.length, failed := some f, source := 4, pend := m }
    | .poison _ => { table := 0, row := 0, mult := 1, failed := some fECC, source := 4, pend := m }

/-- Substitutions and unusable tables noted for the keys of one region. -/
def State.noteKeys (s : State) (ps : List PosKey) (bl : BagList) : State :=
  let dflts := ps.filterMap fun p => match p with | .ok k => if k % 2 ^ 40 = sentinel then some (k / 2 ^ 40) else none | _ => none
  let s := dflts.eraseDups.foldl (fun s t => s.noteDefaults t (dflts.count t)) s
  let s := if ps.any (fun p => match p with | .bad _ f => f == fECC | _ => false) then s.dirFault else s
  let s := if bl.keyBad.any id then s.err pGSU 0 else s
  s

/-- cclk that the sort of `n` keys takes (R224). -/
def sortCclk (n : Nat) : Nat := if n ≤ 65536 then divUp n 64 else 2 * divUp n 64

/-- A gather is set up, and what it will produce is pending from then on (R124); its failing keys (slot and fate) end their
items, and poisoned ones wait for a commit (R234). -/
def State.openGather (s : State) (g : GatherRun) (bad : List (Nat × Nat)) : State :=
  let s : State := { s with gathers := s.gathers ++ [g] }
  let s := s.notePend g.b g.i (g.headPend ||| joinAll (g.slots.map (·.pend)))
  let n := (g.slots.filter (·.failed.isSome)).length
  let s := (List.range n).foldl (fun s _ => (s.count pGSU 0xF30).err pGSU 1) s
  bad.foldl (fun s (u, f) => s.failRows g.b (g.slotRows u) f) s

/-- One region gathers the list into its pool. -/
def State.gatherIn (i : Nat) (w : Nat) (s : State) (b : Barge) (r : Nat) : State :=
  let s := s.seeIn ((recA w).store r 0) [((recA w).addr, upTo (4 * gBags w) 64 + 8 * gIndices w)]
  let bl := s.bagList b (recA w) r w
  let bags := bl.entries.map fun e => (nfld e 29 16, nfld e 15 0)
  if bl.entryBad then (s.err pGSU 0).failBarge b.id fECC
  else if (bags.map (·.2)).foldl (· + ·) 0 != gIndices w || (!b.rows.isEmpty && bags.any fun x => b.rows.length ≤ x.1) then
    (s.err pGSU 2).failBarge b.id fCFG
  else
    let ps := s.posKeys bl
    let dims := (ps.filterMap fun p => match p with | .ok k => some (s.dimOf (k / 2 ^ 40)) | _ => none).eraseDups
    let s := ((s.count pGSU 0xF00 (gIndices w)).count pGSU 0xF38 (sortCclk (gIndices w))).count pGSU 0xF2C (bags.filter (·.2 == 0)).length
    let s := s.noteKeys ps bl
    if 1 < dims.length then (s.err pGSU 2).failBarge b.id fCFG
    else
      let dim := dims.headD 0
      let c := recC w
      let ks := slotKeys ps
      let keysOfs := gHead w
      let rowsOfs := keysOfs + upTo (16 * ks.length) 64
      let all := (c.addr, rowsOfs + ks.length * 64 * c.stride)
      if decide (poolBytes < all.1 + all.2) || s.poolStructures.any (rangesMeet all) then (s.err pGSU 3).failBarge b.id fCAPACITY
      else if dim != 0 && decide (64 * c.stride < upTo (rowBytes c.fmt dim) 64) then s.failBarge b.id fCFG
      else
        let owner := bagOfPositions bags
        s.openGather
          { b := b.id, i := i, region := r, addr := c.addr, stride := c.stride, format := c.fmt, sat := bit (recSat w), dim := dim
            rowsOfs := rowsOfs, keysOfs := keysOfs, slots := slotsOf ks ps bl.keyPends
            positions := ps.map fun p => ks.idxOf p, bags := bags, useCache := recP w 64 64 == 1
            headPend := joinAll (bl.entryPends ++ bl.keyPends)
            bagPends := bl.entryPends.zipIdx.map fun (m, k) =>
              m ||| joinAll ((bl.keyPends.zip owner).filterMap fun (n, o) => if o = k then some n else none)
            keyPends := bl.keyPends }
          (ks.zipIdx.filterMap fun (k, u) => match k with | .bad _ f => some (u, f) | _ => none)

/-- Each region named sets up its gather, while the barge goes on; then they look for their rows, and those that have them
all write their images. -/
def gatherEffect (i : Nat) (s : State) (b : Barge) (w : Nat) : State :=
  let s := (b.physOf (recRegions w)).foldl (fun s r => match s.barge? b.id with
    | some x => if x.failed.isSome then s else s.gatherIn i w x r
    | none => s) s
  let gs := s.gathers.filter fun g => g.b == b.id && g.i == i
  gs.foldl (fun s g => s.finishGather g) (gs.foldl (fun s g => s.advanceGather g) s)

/-- GATHER: record `i` of barge `b` (R102). It completes when every region has written its image. -/
def execGather (b i : Nat) (s : State) : Host.Outcome State Fault Refusal :=
  s.engine fun s => s.runRec b i 0x20 gatherOk gatherZero (gatherEffect i) fun _ _ w =>
    (recA w).extBytes (upTo (4 * gBags w) 64 + 8 * gIndices w)

/-! ### PREFETCH -/

/-- R103. -/
def prefetchOk (s : State) (_ : Barge) (_ : List Nat) (w : Nat) : Bool :=
  recP w 127 25 == 0 && gIndices w ≤ 2 ^ 24 && (recA w).poolOrExt && s.rawFits (recA w) (8 * gIndices w)
    && (recB w).none && (recC w).none

/-- One region's keys: those that pass, sorted, each with its MULT; the others are dropped (R232). -/
def State.prefetchIn (s : State) (w r : Nat) : List (Nat × Nat × Nat) × State :=
  let st := (recA w).store r 0
  let s := s.seeIn st [((recA w).addr, 8 * gIndices w)]
  let ks := groups 8 (gIndices w) (s.rd st (recA w).addr (8 * gIndices w))
  let ps := ks.zipIdx.map fun (k, n) =>
    if s.poisonAt st ((recA w).addr + 8 * n) 8 || s.voidAt st ((recA w).addr + 8 * n) 8 then PosKey.poison n
    else match s.settleKey k with
      | .fail f => .bad k f
      | .ok t x => .ok (x + t.id * 2 ^ 40)
  let good := ps.filterMap fun p => match p with | .ok k => some k | _ => none
  let dflts := (good.filter (· % 2 ^ 40 == sentinel)).map (· / 2 ^ 40)
  let s := dflts.eraseDups.foldl (fun s t => s.noteDefaults t (dflts.count t)) s
  let s := if ps.any (fun p => match p with | .bad _ f => f == fECC | _ => false) then s.dirFault else s
  let s := if ps.any (fun p => match p with | .poison _ => true | _ => false) then s.err pGSU 0 else s
  let s := (s.count pGSU 0xF28 (ps.length - good.length)).count pGSU 0xF38 (sortCclk ps.length)
  ((sortUniq good).map fun k => (r, k, good.count k), s)

/-- Every region named; the record completes once every read has been issued. -/
def prefetchEffect (i : Nat) (s : State) (b : Barge) (w : Nat) : State :=
  let (ks, s) := (b.physOf (recRegions w)).foldl (fun (p : List (Nat × Nat × Nat) × State) r =>
    let (l, s) := p.2.prefetchIn w r
    (p.1 ++ l, s)) ([], s)
  s.prefetchReads b.id i ks

/-- A PREFETCH that waits for cache entries goes on. -/
def State.prefetchAgain (s : State) (id i : Nat) : State :=
  match s.barge? id with
  | some b =>
    if (b.op i).todo.isEmpty || !b.opIs i .running || b.failed.isSome || b.st != .running then s
    else s.prefetchReads id i (b.op i).todo
  | none => s

/-- PREFETCH: record `i` of barge `b` (R103), or, where it waits for cache entries, its going on. -/
def execPrefetch (b i : Nat) (s : State) : Host.Outcome State Fault Refusal :=
  s.engine fun s =>
    (s.runRec b i 0x21 prefetchOk (fun w => gIndices w == 0) (prefetchEffect i) fun _ _ w => (recA w).extBytes (8 * gIndices w)).prefetchAgain b i

/-! ### Reading a gather image (R225) -/

structure Img where
  r : Nat
  addr : Nat
  h : Nat
deriving DecidableEq, Repr

def State.img (s : State) (r a : Nat) : Img := { r := r, addr := a, h := s.rdNat (.pool r) a 64 }

def Img.stride (g : Img) : Nat := nfld g.h 207 192
def Img.rowsOfs (g : Img) : Nat := nfld g.h 191 160
def Img.keysOfs (g : Img) : Nat := nfld g.h 159 128
def Img.format (g : Img) : Nat := nfld g.h 115 112
def Img.dim (g : Img) : Nat := nfld g.h 111 96
def Img.unique (g : Img) : Nat := nfld g.h 95 64
def Img.bags (g : Img) : Nat := nfld g.h 63 32
def Img.indices (g : Img) : Nat := nfld g.h 31 0
def Img.posAddr (g : Img) (p : Nat) : Nat := g.addr + 64 + upTo (4 * g.bags) 64 + 4 * p
def Img.keyAddr (g : Img) (u : Nat) : Nat := g.addr + g.keysOfs + 16 * u
def Img.rowAddr (g : Img) (u : Nat) : Nat := g.addr + g.rowsOfs + 64 * g.stride * u

/-- Its header or bag table reads poisoned (R235, R243). -/
def State.imgBad (s : State) (g : Img) : Bool :=
  let bad := fun a n => s.poisonAt (.pool g.r) a n || s.voidAt (.pool g.r) a n
  bad g.addr 64 || bad (g.addr + 64) (4 * g.bags)

/-- Its bag entries, as (manifest row, LEN). -/
def State.imgBags (s : State) (g : Img) : List (Nat × Nat) :=
  (groups 4 g.bags (s.rd (.pool g.r) (g.addr + 64) (4 * g.bags))).map fun e => (nfld e 29 16, nfld e 15 0)

/-- The unique slot of each position. -/
def State.imgSlots (s : State) (g : Img) : List Nat := (groups 4 g.indices (s.rd (.pool g.r) (g.posAddr 0) (4 * g.indices))).map fun e => nfld e 24 0

/-- The elements of a slot's row. -/
def State.imgRow (s : State) (g : Img) (u : Nat) : List Num :=
  (unpack g.format g.dim (s.rd (.pool g.r) (g.rowAddr u) (rowBytes g.format g.dim))).map (decodeElem g.format)

/-! ### POOL -/

def poolDim (w : Nat) : Nat := 16 * recP w 38 32

/-- R87, R104, R235. -/
def poolOk (s : State) (_ : Barge) (_ : List Nat) (w : Nat) : Bool :=
  let n := recP w 24 0
  let c := recC w
  recP w 127 41 == 0 && recP w 39 39 == 0 && recP w 31 25 == 0 && n ≤ 2 ^ 24 && 1 ≤ recP w 38 32 && recP w 38 32 ≤ 64
    && (recA w).space == spPOOL && decide ((recA w).addr + 64 ≤ s.spaceBytes spPOOL)
    && ((recB w).none || ((recB w).poolOrExt && fmtRow (recB w).fmt && (recB w).stride == 0))
    && (c.space == spSCRATCH || c.poolOrExt) && fmtRow c.fmt && c.stride != 0 && s.rowsFit c n (rowBytes c.fmt (poolDim w)) 0

/-- The header's conditions (R235). -/
def State.poolHeaderOk (s : State) (w : Nat) (g : Img) : Bool :=
  recP w 24 0 == g.bags && (g.dim == 0 || g.dim == poolDim w) && fmtRow g.format
    && ((recB w).none || decide ((recB w).addr + rowBytes (recB w).fmt g.indices ≤ s.spaceBytes (recB w).space))

/-- The terms of a bag over positions `p0` to `p0 + len - 1`, position by position (R236). -/
def State.poolTerms (s : State) (w : Nat) (g : Img) (p0 len : Nat) : List (List Num) :=
  let slots := ((s.imgSlots g).drop p0).take len
  let ws := if (recB w).none then [] else
    ((unpack (recB w).fmt g.indices (s.rd ((recB w).store g.r 0) (recB w).addr (rowBytes (recB w).fmt g.indices))).map
      (decodeElem (recB w).fmt)).drop p0
  slots.zipIdx.map fun (u, k) =>
    (s.imgRow g u).map fun e => if (recB w).none then e else r32 ((ws.getD k .zero).mul e)

/-- The marks of what a bag reads: it is pending on its rows and weights (R120, R236), and poisoned by its positions
too. -/
def State.poolTaint (s : State) (b : Barge) (w : Nat) (g : Img) (p0 len : Nat) : Taint :=
  let st := Store.pool g.r
  let slots := (((s.imgSlots g).drop p0).take len).eraseDups
  let t := s.taintOf st (slots.map fun u => (g.rowAddr u, rowBytes g.format g.dim))
  let t := if len = 0 then t else { t with poison := t.poison || (s.taint st (g.posAddr p0) (4 * len)).poison }
  let t := if (recB w).none || len = 0 then t else
    let e := fmtBits (recB w).fmt / 8
    t.join (s.taint ((recB w).store g.r 0) ((recB w).addr + e * p0) (e * len))
  { t with pend := t.pend ||| b.lockSet w }

/-- A pooled row (R236, R237). -/
def poolRow (base : Nat) (mean : Bool) (dim : Nat) (terms : List (List Num)) : List Num :=
  if terms.isEmpty then List.replicate dim .zero
  else (List.range dim).map fun d =>
    let t := sumFree (base + d * sumPicks terms.length) (terms.map fun r => r.getD d .zero)
    if mean then r32 (t.div (Num.ofInt terms.length)) else t

/-- The words of bytes written to external memory at `a`, as commit units of record `i` for a manifest row (R121). `inst`
tells the record's instances apart. -/
def State.addWords (s : State) (b i inst a : Nat) (bs : List Byte) (t : Taint) (rows : List Nat) : State :=
  (wordsOf a bs.length).foldl (fun s x =>
    let lo := max a (64 * x)
    let hi := min (a + bs.length) (64 * x + 64)
    s.addUnit { b := b, i := i, key := inst * 2 ^ 48 + x, act := .memWrite lo ((bs.drop (lo - a)).take (hi - lo)), pend := t.pend
                poison := t.poison, rows := rows }) s

/-- One output row, in every tile named where C is SCRATCH (R235). SR is not honoured (R38). -/
def State.putPooled (s : State) (b : Barge) (i w r k row : Nat) (xs : List Num) (t : Taint) : State :=
  let c := recC w
  let p := encVals c.fmt (recSat w) (fun _ => .rne) xs
  let bs := pack c.fmt p.bits
  let s := (s.countNum r (p.ovf, p.nan)).notePend b.id i t.pend
  if c.space = spEXT then s.addWords b.id i r (c.row k) bs t [row]
  else if c.space = spPOOL then s.wr (.pool r) (c.row k) bs t.pend t.poison
  else (bitsOf (recTiles w) 16).foldl (fun s j => s.wr (.scratch (r * 16 + j)) (c.row k) bs t.pend t.poison) s

/-- The bags with their first positions. -/
def bagStarts : Nat → List (Nat × Nat) → List (Nat × Nat × Nat)
  | _, [] => []
  | p, (row, len) :: r => (row, p, len) :: bagStarts (p + len) r

/-- A read of a whole gather image meets the errors stored in it. -/
def State.seeImg (s : State) (r a : Nat) : State :=
  let s := s.seeIn (.pool r) [(a, 64)]
  let g := s.img r a
  s.seeIn (.pool r) [(a, g.rowsOfs + g.unique * 64 * g.stride)]

/-- One region pools its image. -/
def State.poolIn (i w : Nat) (s : State) (b : Barge) (r : Nat) : State :=
  let s := s.seeImg r (recA w).addr
  let g := s.img r (recA w).addr
  let s := if (recB w).none then s else s.seeIn ((recB w).store r 0) [((recB w).addr, rowBytes (recB w).fmt g.indices)]
  if s.imgBad g then s.failBarge b.id fECC
  else if !s.poolHeaderOk w g then (s.err pGSU 2).failBarge b.id fCFG
  else (bagStarts 0 (s.imgBags g)).zipIdx.foldl (fun s ((row, p0, len), k) =>
    let t := s.poolTaint b w g p0 len
    if g.dim = 0 then
      s.putPooled b i w r k row (List.replicate (poolDim w) .zero) { t with poison := t.poison || len != 0 }
    else
      let terms := s.poolTerms w g p0 len
      let xs := poolRow s.picks (recP w 40 40 == 1) (poolDim w) terms
      (s.takePicks (poolDim w * sumPicks len)).putPooled b i w r k row xs t) s

def poolEffect (i : Nat) (s : State) (b : Barge) (w : Nat) : State :=
  (b.physOf (recRegions w)).foldl (fun s r => match s.barge? b.id with
    | some x => if x.failed.isSome then s else s.poolIn i w x r
    | none => s) s

/-- The weights that a POOL reads from external memory. -/
def poolExt (s : State) (b : Barge) (w : Nat) : List (Nat × Nat) :=
  (b.physOf (recRegions w)).flatMap fun r => (recB w).extBytes (rowBytes (recB w).fmt (s.img r (recA w).addr).indices)

/-- POOL: record `i` of barge `b` (R104). -/
def execPool (b i : Nat) (s : State) : Host.Outcome State Fault Refusal :=
  s.engine fun s => s.runRec b i 0x22 poolOk (fun w => recP w 24 0 == 0) (poolEffect i) poolExt

end Sys2Proof.Machine
end

