-- ==== Sys2Proof/Machine/Placement.lean ====
section
/-! DEFINITION. Placing barges on regions (R298 to R303), pre-emption (R304, R305, R310, R312), saves and restores (R306 to
R309), and the SAVE_POINT record (R112). -/

namespace Sys2Proof.Machine

open Sys2Proof

/-! ### Regions -/

/-- The physical regions that a barge occupies now (R302). -/
def Barge.holds (b : Barge) : List Nat := if b.st == .waiting || b.st == .saved then [] else b.regions

/-- A barge, save, restore or image load runs on region `r`. -/
def State.busyRegion (s : State) (r : Nat) : Bool := s.sv.barges.any fun b => b.holds.contains r

/-- A region that takes no barge because of itself or of a tile that the barge's union names (R409). -/
def State.quarFor (s : State) (tiles : BitVec 16) (r : Nat) : Bool :=
  (s.region r).quarantined || (List.range 16).any fun j => bitOf tiles j && s.tileQuar (r * 16 + j)

/-- A region free for a barge with that tile union (R302). -/
def State.freeFor (s : State) (tiles : BitVec 16) (r : Nat) : Bool :=
  !s.busyRegion r && !bitOf s.sv.heldRegions r && !s.quarFor tiles r && !s.isolated (rPage r)

/-- PWR.DEEPEST of a region: 0 RUN to 3 OFF (R401). -/
def State.deepest (s : State) (r : Nat) : Nat := fld (s.cfg pPWR 0x100) (2 * r + 1) (2 * r)

/-- A region that sleeps starts waking (R398). -/
def State.wake (s : State) (r : Nat) : State :=
  let x := s.region r
  if x.power == .run || x.waking.isSome || x.quarantined || s.isolated (rPage r) then s
  else (s.setRegion r { x with waking := some x.power }).count pPWR 0xF04

/-- The region runs. -/
def State.awake (s : State) (r : Nat) : Bool := (s.region r).power == .run && (s.region r).waking.isNone

/-- Wake time in tenths of a µs (R398). -/
def Power.wakeTenths : Power → Nat
  | .run => 0
  | .doze => 2
  | .nap => 200
  | .off => 610

/-- A region that has become idle: its idle timers start, and it dozes where DEEPEST allows it (R398). -/
def State.idle (s : State) (r : Nat) : State :=
  if s.busyRegion r then s
  else s.updRegion r fun x =>
    { x with idleSince := s.now, power := if x.power == .run && x.waking.isNone && 1 ≤ s.deepest r && !x.quarantined && !s.isolated (rPage r) then .doze else x.power }

/-! ### Images (R298 to R301) -/

/-- A load-list entry (R299). -/
structure LoadEnt where
  shard : Bool
  pool : Bool
  lregions : Nat
  tiles : Nat
  dest : Nat
  len : Nat
  src : Nat
deriving DecidableEq, Repr

def loadEnt (w : Nat) : LoadEnt :=
  { shard := nbit w 122, pool := nfld w 121 120 == 2, lregions := nfld w 119 112, tiles := nfld w 111 96, dest := 64 * nfld w 95 72
    len := 64 * nfld w 71 48, src := nfld w 47 0 }

/-- A mooring's load list. -/
def State.loadList (s : State) (img : BitVec 512) : List LoadEnt :=
  (List.range (imgCount img)).map fun k => loadEnt (s.extNat (imgList img + 16 * k) 16)

/-- The ranges of piece `i` of an image with `moor` bytes of moored factors: (tile, or 16 for the pool; start; length). -/
def State.imageRanges (s : State) (img : BitVec 512) (moor i : Nat) : List (Nat × Nat × Nat) :=
  ((s.loadList img).flatMap fun e =>
    if !nbit e.lregions i then [] else if e.pool then [(16, e.dest, e.len)] else (bitsOf e.tiles 16).map fun t => (t, e.dest, e.len))
    ++ (if imgInPool img then [(16, imgProgOfs img, 64 * imgLen img)] else [])
    ++ (if moor = 0 then [] else [(16, imgMoorOfs img, moor)])

/-- The ranges of piece `i` of mooring `m`'s image in force. -/
def State.pieceRanges (s : State) (m i : Nat) : List (Nat × Nat × Nat) :=
  s.imageRanges (s.mooring m).image (s.moorBytesMax m) i

/-- Two ranges overlap. -/
def overlap (x y : Nat × Nat × Nat) : Bool := x.1 == y.1 && decide (x.2.1 < y.2.1 + y.2.2) && decide (y.2.1 < x.2.1 + x.2.2)

/-- Region `r` holds mooring `m`'s piece `i` (R300). -/
def State.inPlace (s : State) (m i r : Nat) : Bool := (s.region r).pieces.any fun p => p.mooring == m && p.logical == i

/-- The pieces that a load of piece `i` of mooring `m` into region `r` makes absent (R300). -/
def State.evicted (s : State) (m i r : Nat) : List Piece :=
  let rs := s.pieceRanges m i
  (s.region r).pieces.filter fun p => p.mooring == m || (s.pieceRanges p.mooring p.logical).any fun x => rs.any (overlap x)

/-- The instances of a load-list entry in logical region `i`, as (instance number, tile). -/
def LoadEnt.instances (e : LoadEnt) (i : Nat) : List (Nat × Nat) :=
  if !nbit e.lregions i then []
  else
    let before := ((bitsOf e.lregions 8).filter (· < i)).length
    if e.pool then [(before, 0)]
    else (bitsOf e.tiles 16).zipIdx.map fun (t, k) => (before * (bitsOf e.tiles 16).length + k, t)

/-- A block of external memory copied to an on-chip store, sector poison with it. -/
def State.copyIn (s : State) (st : Store) (dest src n : Nat) : State :=
  (List.range (divUp n 64)).foldl (fun s k =>
    let m := min 64 (n - 64 * k)
    s.wr st (dest + 64 * k) (s.ext? (src + 64 * k) m) 0 (s.extPoison (src + 64 * k) m)) s

/-- The blocks that a load of piece `i` copies: destination store, address, source and length. -/
def State.loadBlocks (s : State) (img : BitVec 512) (i r : Nat) : List (Store × Nat × Nat × Nat) :=
  ((s.loadList img).flatMap fun e => (e.instances i).map fun (k, t) =>
    (if e.pool then Store.pool r else Store.scratch (r * 16 + t), e.dest, if e.shard then e.src + e.len * k else e.src, e.len))
    ++ (if imgInPool img then [(Store.pool r, imgProgOfs img, imgProgram img, 64 * imgLen img)] else [])

/-- Piece `i` of mooring `m` loaded into region `r`, with the adapters of `plan` to be moored there (R300, R301). -/
def State.loadPiece (s : State) (m i r : Nat) (plan : MoorPlan) : State :=
  let img := (s.mooring m).image
  let blocks := s.loadBlocks img i r
  let gone := s.evicted m i r
  let bad := blocks.any (fun (_, _, src, n) => s.extPoison src n) || s.moorListBad m
  let bytes := (blocks.map fun (_, _, _, n) => n).foldl (· + ·) 0 + plan.used
  let s := blocks.foldl (fun s (st, dest, src, n) => s.copyIn st dest src n) s
  let s := s.updRegion r fun g => { g with
    pieces := (g.pieces.filter fun p => !gone.contains p) ++ [{ mooring := m, logical := i, lastUse := s.now }]
    moored := g.moored.filter fun y => y.mooring == m || !(gone.any fun p => p.mooring == y.mooring) }
  let s := s.setMoored r m plan.moored
  let s := s.updMooring m fun x => { x with loads := satAdd 32 x.loads 1, loadKib := satAdd 32 x.loadKib (bytes / 1024) }
  if bad then s.pieceFault m r else s

/-! ### Choosing regions (R303) -/

/-- The sublists of length `k`, in order. -/
def combos : Nat → List Nat → List (List Nat)
  | 0, _ => [[]]
  | _ + 1, [] => []
  | k + 1, x :: xs => (combos k xs).map (x :: ·) ++ combos (k + 1) xs

/-- The key of a set of regions for a barge, smaller being better (R303). -/
def State.placeKey (s : State) (b : Barge) (rs : List Nat) : List Nat :=
  let here := (rs.zipIdx.filter fun (r, i) => !b.solo && s.inPlace b.mooring i r).length
  let ran := (rs.filter fun r => !b.solo && (s.region r).ranLast == some b.mooring).length
  let wake := (rs.map fun r => (s.region r).power.wakeTenths).foldl max 0
  let out := rs.zipIdx.flatMap fun (r, i) =>
    if b.solo then (s.region r).pieces else if s.inPlace b.mooring i r then [] else s.evicted b.mooring i r
  [8 - here, 8 - ran, wake, (out.map (·.lastUse)).foldl max 0, ofBits rs]

/-- The best set of `b.need` free regions, if there is one. -/
def State.choose (s : State) (b : Barge) (free : List Nat) : Option (List Nat) :=
  (combos b.need free).foldl (fun best rs => match best with
    | none => some rs
    | some q => if lexLe (s.placeKey b q) (s.placeKey b rs) then best else some rs) none

/-! ### Placing (R302) -/

/-- USES of a region's gradient list, in its pool too (R170). -/
def State.setUses (s : State) (r n : Nat) : State :=
  (s.updRegion r fun x => { x with uses := n }).wr (.pool r) (s.cfgN pSPD 0x208) (leBytes 64 n)

/-- A barge starts on its regions: no word there is pending, gradient lists are empty, and generators take a changed seed
(R40, R118, R170). A word that an earlier barge left pending is discarded (R139; assumption 84). -/
def State.startRegions (s : State) (b : Barge) : State :=
  b.regions.foldl (fun s r =>
    let s := s.mapMarks (inRegion r) fun m => if m.pend = 0 then m else m.discard
    let s := s.setUses r 0
    s.updRegion r fun x =>
      if x.reseed then { x with reseed := false, draws := 0, seed := s.cfg (rPage r) 0x1C4 ++ s.cfg (rPage r) 0x1C0 } else x) s

/-- Barge `id` starts or goes on beside the others that run: none of two of different moorings has run alone (R291). -/
def State.startBeside (s : State) (id : Nat) : State :=
  match s.barge? id with
  | some b =>
    let others := (s.sv.barges.filter fun x => x.st == .running && x.id != id && x.mooring != b.mooring).map (·.id)
    if others.isEmpty then s else (id :: others).foldl (fun s k => s.updBarge k fun x => { x with alone := false }) s
  | none => s

/-- A placed barge whose regions are awake and whose pieces are in place may issue its first record (R301). -/
def State.tryStart (s : State) (id : Nat) : State :=
  match s.barge? id with
  | some b =>
    if b.st == .loading && b.failed.isNone && b.toLoad.isEmpty && b.regions.all s.awake then
      let s := s.startRegions b
      (s.updBarge id fun x => { x with st := .running, gapFrom := s.now, gapBound := x.maxGap }).startBeside id
    else s
  | none => s

/-- A SOLO barge's training slots are fixed, and written into its segment table (R155, R182). -/
def State.fixSlots (s : State) (b : Barge) : State :=
  match b.carried.bind s.item? with
  | some it =>
    let segs := b.segs.map fun g =>
      { g with vslot := if g.adapter != 0 && s.hasDesc b.mooring g.adapter then s.trainSlot b.mooring g.adapter else 0 }
    let s := segs.zipIdx.foldl (fun s (g, i) => s.extPutNat (it.f 367 320 + 16 * i) 16 g.bits) s
    s.updBarge b.id fun x => { x with segs := segs }
  | none => s

/-- The regions of the latest placement in the barge's journal entry, which its recovery reports (R68, R76). -/
def State.journalMask (s : State) (b : Barge) (rs : List Nat) : State :=
  match b.journal with
  | some j => s.extPutNat (s.journalAddr j) 32 (setFld (s.journalEntry j) 251 244 (ofBits rs))
  | none => s

/-- A barge placed on a set of regions: they wake, pieces to load are noted, a SOLO barge clears them and has its training slots
fixed, and copies of adapters that a flip made stale are read (R162, R182, R300 to R302, R398). -/
def State.place (s : State) (id : Nat) (rs : List Nat) : State :=
  match s.barge? id with
  | none => s
  | some b =>
    let need := if b.solo then [] else rs.zipIdx.filter fun (r, i) => !s.inPlace b.mooring i r
    let s := if b.solo then rs.foldl (fun s r => s.updRegion r fun x => { x with pieces := [], moored := [] }) s else s
    let s := if b.solo then (if b.st == .waiting then s.fixSlots b else s) else rs.foldl (fun s r => (s.fillMoored b.mooring r).2) s
    let s := (rs.foldl State.wake s).journalMask b rs
    let s := s.updBarge id fun x => { x with
      regions := rs, mask := ofBits rs, toLoad := need, moorBegun := false, placed := s.sv.orders
      st := if x.st == .saved then .restoring else .loading }
    let s := { s with sv := { s.sv with orders := s.sv.orders + 1 } }
    s.tryStart id

/-- The save slot of a saved barge (R307). -/
def State.slotAddr (s : State) (k : Nat) : Nat := s.cfgAddr pLKP 0x320 + fld (s.cfg pLKP 0x328) 27 16 * 2 ^ 20 * k

/-- The header of a slot fails its check (R309). -/
def State.slotBad (s : State) (k : Nat) : Bool :=
  let a := s.slotAddr k
  s.extPoison a 0x178 || s.extNat (a + 0x174) 4 != (crc32c (s.ext? a 0x174)).toNat

/-- The tile union of a barge (R409). -/
def State.unionOf (s : State) (b : Barge) : BitVec 16 := if b.solo then 0xFFFF else (s.mooring b.mooring).tileUnion

/-- The SOLO barge of a submitted item, waiting to be placed (R58, R84). -/
def State.makeSolo (s : State) (it : Item) : State :=
  let m := it.f 75 72
  let n := it.f 415 384
  let recs := (List.range n).map fun i => s.extNat (it.f 239 192 + 64 * i) 64
  let mask := recs.foldl (fun a w => a ||| recRegions w) 0
  let rows := (s.trainRows m it).map (·.1)
  let segs := (List.range (it.f 111 96)).map fun i => segEntry (s.manRaw (it.f 367 320) i)
  let id := s.sv.nextBarge
  let b : Barge :=
    { id := id, solo := true, mooring := m, carried := some it.j, step := it.f 159 128, program := it.f 239 192, progLen := n
      need := if mask = 0 then 0 else Nat.log2 mask + 1, maxGap := it.f 175 160, rows := rows, segs := segs, order := it.order
      slots := rows.length, closedAt := s.now }
  { s with sv := { s.sv with
      barges := s.sv.barges ++ [b], nextBarge := id + 1, soloQueue := s.sv.soloQueue.filter (· != it.j) } }

/-- A SOLO barge held under R182 counts once, and later ones wait behind it. -/
def State.noteSoloHold (s : State) (it : Item) : State :=
  if s.sv.trainHeld.contains it.j then s
  else
    let s := if s.sv.trainCounted.contains it.j then s else s.count pSPD 0xF24
    { s with sv := { s.sv with trainHeld := s.sv.trainHeld ++ [it.j], trainCounted := uniq (s.sv.trainCounted ++ [it.j]) } }

/-- A waiting SOLO barge is held: a training slot of it is pinned, or it has not been released since one was (R182). -/
def State.soloHeld (s : State) (b : Barge) : Bool :=
  b.solo && b.st == .waiting && b.failed.isNone
    && (b.carried.bind s.item?).any fun it => s.sv.trainHeld.contains it.j || s.trainHeldNow b.mooring it

/-- A waiting SOLO barge waits for its own hold, or behind an earlier one that is held (R182). -/
def State.soloWaits (s : State) (b : Barge) : Bool :=
  b.solo && b.st == .waiting && s.sv.barges.any fun x => decide (x.order ≤ b.order) && s.soloHeld x

/-- One waiting or saved barge placed if it can be (R302, R309, R312). -/
def State.placeBarge (s : State) (id : Nat) : State :=
  match s.barge? id with
  | none => s
  | some b =>
    let tiles := s.unionOf b
    if s.soloWaits b then (match b.carried.bind s.item? with | some it => if s.soloHeld b then s.noteSoloHold it else s | none => s)
    else if b.st == .waiting && (s.rows.pauses.any fun p => b.solo || bitOf p.moorings b.mooring) then s
    else if ((List.range 8).filter fun r => !s.quarFor tiles r).length < b.need then s.failBarge id fQUARANTINE
    else if s.hq.maint && s.sv.barges.any (fun x => x.id != id && x.st != .waiting) then s
    else match s.choose b ((List.range 8).filter (s.freeFor tiles)) with
      | none => s
      | some rs =>
        if b.st == .saved && (b.saveSlot.elim false s.slotBad) then s.failBarge id fECC else s.place id rs

/-- Every SOLO item becomes a barge that waits. -/
def State.soloReady (s : State) : List Nat → State
  | [] => s
  | j :: js => match s.item? j with
    | none => s.soloReady js
    | some it => (s.makeSolo it).soloReady js

/-- Work that waits for regions, in R302's order. -/
def State.workOrder (s : State) : List Nat :=
  let key (b : Barge) : List Nat :=
    if b.st == .saved then [1, b.savedAt, b.id] else if b.lc then [0, b.order, b.id] else [2, b.order, b.id]
  (sortBy (fun x y => lexLe (key x) (key y)) (s.sv.barges.filter fun b => (b.st == .waiting || b.st == .saved) && b.failed.isNone)).map (·.id)

/-- Candidates for automatic pre-emption: barges that run without LC rows, SOLO first, latest placement first (R304). -/
def State.preemptable (s : State) : List Barge :=
  let key (b : Barge) : List Nat := [if b.solo then 0 else 1, s.sv.orders - b.placed]
  sortBy (fun x y => lexLe (key x) (key y)) (s.sv.barges.filter fun b => (b.st == .running || b.st == .loading || b.st == .restoring) && !b.lc)

/-- The candidates to take until `free` and theirs number `need`; none where even all of them do not reach it. -/
def takeUntil (need : Nat) : Nat → List Barge → Option (List Barge)
  | free, bs => if need ≤ free then some [] else match bs with
    | [] => none
    | b :: bs => (takeUntil need (free + b.regions.length) bs).map (b :: ·)

/-- What a pre-emption counts (R290, R308, R314). -/
def State.countPreempt (s : State) (b : Barge) : State :=
  let s := s.updMooring b.mooring fun x => { x with preempts := satAdd 32 x.preempts 1 }
  (uniq (b.rows.map fun r => s.acctOf r.tenant)).foldl
    (fun s a => s.updAccount a fun x => { x with preemptions := satAdd 32 x.preemptions 1 }) s

/-- µs that a pre-emption request has waited. -/
def State.waited (s : State) (b : Barge) : Nat := b.preempt.elim 0 fun t => s.now - t

/-- The barge whose overdue request is the oldest. -/
def State.overdueOldest (s : State) : Option Barge :=
  (sortBy (fun x y => decide (x.preempt.getD 0 ≤ y.preempt.getD 0)) (s.sv.barges.filter (·.overdue))).head?

/-- OVERDUE_BARGE's encoding (R314). -/
def State.overdueId (s : State) (b : Barge) : Nat :=
  if b.solo then
    let it? := b.carried.bind s.item?
    2 ^ 31 + it?.elim 0 (fun it => it.sq * 2 ^ 16 + it.sqIndex)
  else b.number % 2 ^ 31

/-- OVERDUE_BARGE names the barge whose overdue request is the oldest (R310). -/
def State.nameOverdue (s : State) : State :=
  match s.overdueOldest with | some o => s.setRegN pLKP 0xFC8 (s.overdueId o) | none => s

/-- A pre-emption request is satisfied or lapses; OVERDUE_STATUS keeps the total, and OVERDUE_BARGE turns to the oldest that is
left (R310). -/
def State.endRequestOf (s : State) (id : Nat) : State :=
  match s.barge? id with
  | some b =>
    let s := if b.overdue then s.setRegN pLKP 0xFC4 (min (s.waited b) (2 ^ 24 - 1)) else s
    let s := s.updBarge id fun x => { x with preempt := none, overdue := false }
    if b.overdue then s.nameOverdue else s
  | none => s

/-- A placed barge that has issued no record is unplaced at once; a piece partly loaded is absent (R305). -/
def State.unplace (s : State) (b : Barge) : State :=
  let s := (s.countPreempt b).endRequestOf b.id
  let s := if b.moorBegun then b.toLoad.foldl (fun s (r, _) => s.updRegion r fun x => { x with
      pieces := x.pieces.filter (·.mooring != b.mooring), moored := x.moored.filter (·.mooring != b.mooring) }) s else s
  let s := s.updBarge b.id fun x => { x with
    regions := [], toLoad := [], ops := [], fetchedAll := false, st := .waiting }
  b.regions.foldl State.idle s

/-- A pre-emption request for a barge (R304, R305, R312). -/
def State.requestPreempt (s : State) (b : Barge) : State :=
  if b.preempt.isSome then s
  else
    let fresh := b.st == .loading || (b.st == .running && b.ops.all (·.st == .waiting))
    if fresh && !s.hq.maint then s.unplace { b with preempt := some s.now }
    else s.updBarge b.id fun x => { x with preempt := some s.now }

/-- R304, automatic: an LC manifest that cannot be placed asks for regions. -/
def State.autoPreempt (s : State) (id : Nat) : State :=
  match s.barge? id with
  | some b =>
    if b.st == .waiting && b.lc && b.failed.isNone && bitOf (s.cfg pLKP 0x32C) 31 then
      match takeUntil b.need ((List.range 8).filter (s.freeFor (s.unionOf b))).length s.preemptable with
      | some bs => bs.foldl State.requestPreempt s
      | none => s
    else s
  | none => s

def State.placeAll (s : State) : State :=
  let s := s.soloReady s.sv.soloQueue
  let order := s.workOrder
  let s := order.foldl State.placeBarge s
  order.foldl State.autoPreempt s

/-- BARGE_PLACEMENT: waiting work is placed on free regions in R302's order, and an LC manifest that finds none asks for
pre-emption (R302 to R304). -/
def execBargePlacement (s : State) : Host.Outcome State Fault Refusal := s.engine fun s => s.placeAll

/-- The first part of a load: the blocks of the missing pieces, and the moor list, which counts once (R161, R301). -/
def State.loadBegin (s : State) (b : Barge) : State :=
  if b.moorBegun || b.toLoad.isEmpty then s
  else
    let plan := s.moorPlan b.mooring
    let s := b.toLoad.foldl (fun s (r, i) => s.loadPiece b.mooring i r plan) (s.notePlan plan)
    s.updBarge b.id fun x => { x with moorBegun := true }

/-- A block of an image that a load reads lies in an open C range (R135). -/
def State.loadHeld (s : State) (b : Barge) : Bool :=
  b.toLoad.any fun (r, i) => s.rangesHeld b.id ((s.loadBlocks (s.mooring b.mooring).image i r).map fun (_, _, src, n) => (src, n))

/-- IMAGE_LOAD_COMPLETE: the missing pieces of barge `b` are loaded into its regions, which are awake; the load goes on while
factor rows to be moored are on their way, and the command is given again (R161, R301). -/
def State.loadDone (s : State) (id : Nat) : State :=
  match s.barge? id with
  | some b =>
    if (b.st == .loading || b.st == .restoring) && b.failed.isNone && b.regions.all s.awake && !s.loadHeld b then
      let s := s.loadBegin b
      let (wait, s) := b.toLoad.foldl (fun p (r, _) => let (w, s) := p.2.fillMoored b.mooring r; (p.1 || w, s)) (false, s)
      if wait then s else (s.updBarge id fun x => { x with toLoad := [] }).tryStart id
    else s
  | none => s

def execImageLoadComplete (b : Nat) (s : State) : Host.Outcome State Fault Refusal := s.engine fun s => s.loadDone b

/-! ### PREEMPT_CMD (R304, R305, R312, R314) -/

/-- PREEMPT_CMD with OP PREEMPT. -/
def State.preemptMask (s : State) (mask : BitVec 8) : State :=
  (s.sv.barges.filter fun b => (b.st == .running || b.st == .loading || b.st == .restoring) && b.regions.any (bitOf mask ·)).foldl
    State.requestPreempt s

def execPreempt (mask : BitVec 8) (s : State) : Host.Outcome State Fault Refusal := s.engine fun s => s.preemptMask mask

/-- PREEMPT_CMD with OP HOLD. -/
def State.holdMask (s : State) (mask : BitVec 8) : State :=
  { s with sv := { s.sv with heldRegions := s.sv.heldRegions ||| mask } }

def execHold (mask : BitVec 8) (s : State) : Host.Outcome State Fault Refusal := s.engine fun s => s.holdMask mask

/-- PREEMPT_CMD with OP RELEASE. -/
def State.releaseMask (s : State) (mask : BitVec 8) : State :=
  { s with sv := { s.sv with heldRegions := s.sv.heldRegions &&& ~~~mask } }

def execRelease (mask : BitVec 8) (s : State) : Host.Outcome State Fault Refusal := s.engine fun s => s.releaseMask mask

/-- A write of PREEMPT_CMD. -/
def State.preemptCmd (s : State) (w : Word) : State :=
  let mask := BitVec.ofNat 8 (fld w 7 0)
  let op := fld w 31 30
  if op = 1 then s.preemptMask mask else if op = 2 then s.holdMask mask else if op = 3 then s.releaseMask mask else s

def State.overdueNow (s : State) (id : Nat) : State :=
  match s.barge? id with
  | some b =>
    if b.preempt.isSome && !b.overdue && s.cfgN pLKP 0x31C ≤ s.waited b then
      let s := ((s.updBarge id fun x => { x with overdue := true }).count pLKP 0xFC0).nameOverdue
      if bitOf (s.cfg pLKP 0x32C) 0 then s.raise (fld (s.cfg pLKP 0x32C) 15 8) else s
    else s
  | none => s

/-- PREEMPT_OVERDUE: PREEMPT_WAIT µs have passed since barge `b`'s request arose (R310). -/
def execPreemptOverdue (b : Nat) (s : State) : Host.Outcome State Fault Refusal := s.engine fun s => s.overdueNow b

/-! ### SAVE_POINT (R112, R305, R306) -/

/-- A live range (R112). -/
structure LiveRange where
  pool : Bool
  regions : Nat
  tiles : Nat
  len : Nat
  start : Nat
deriving DecidableEq, Repr

def liveRange (w : Nat) : LiveRange :=
  { pool := nfld w 63 56 == 2, regions := nfld w 55 48, tiles := nfld w 47 32, len := 64 * nfld w 31 16
    start := nfld w 15 0 * (if nfld w 63 56 = 2 then 384 else 64) }

/-- The raw range list of a SAVE_POINT: in the pool of its logical region, or in external memory. -/
def State.rangeWords (s : State) (b : Barge) (w : Nat) : List Nat :=
  let st := (recA w).store (b.phys (((bitsOf (recRegions w) 8).head?).getD 0)) 0
  (List.range (recP w 7 0)).map fun k => s.rdNat st ((recA w).addr + 8 * k) 8

/-- Instances of a live range, as stores (R299, R307). -/
def LiveRange.stores (l : LiveRange) (b : Barge) : List Store :=
  if l.pool then (b.physOf l.regions).map Store.pool
  else (b.physOf l.regions).flatMap fun r => (bitsOf l.tiles 16).map fun t => .scratch (r * 16 + t)

/-- Bytes that the ranges take in a slot. -/
def liveBytes (b : Barge) (ls : List LiveRange) : Nat := (ls.map fun l => l.len * (l.stores b).length).foldl (· + ·) 0

/-- An entry's values (R112). -/
def rangeOk (b : Barge) (w : Nat) : Bool :=
  let l := liveRange w
  (nfld w 63 56 == 1 || nfld w 63 56 == 2) && l.len != 0 && decide (l.regions < 2 ^ b.need) && (!l.pool || l.tiles == 0)
    && decide (l.start + l.len ≤ if l.pool then poolBytes else scratchBytes)

/-- Bytes of a save slot (R306). -/
def State.slotBytes (s : State) : Nat := fld (s.cfg pLKP 0x328) 27 16 * 2 ^ 20

/-- R112, R306. -/
def savePointOk (s : State) (b : Barge) (_ : List Nat) (w : Nat) : Bool :=
  let n := recP w 7 0
  let ws := s.rangeWords b w
  recP w 15 8 == 0 && recP w 127 24 == 0 && 1 ≤ recP w 23 16 && recP w 23 16 ≤ 200 && recP w 23 16 ≤ b.maxGap
    && (recB w).none && (recC w).none
    && (if n = 0 && (recA w).none then true else ((recA w).space == spPOOL || (recA w).space == spEXT) && s.rawFits (recA w) (8 * n))
    && ws.all (rangeOk b)
    && (fld (s.cfg pLKP 0x328) 5 0 == 0 || decide (liveBytes b (ws.map liveRange) ≤ s.slotBytes))

/-- No collective or barrier of the barge is open (R305). -/
def State.noneOpen (s : State) (b : Barge) : Bool := b.barrier.isNone && !(s.col.ctxs.any (·.b == b.id))

/-- The SAVE_POINT is eligible (R305). -/
def State.eligible (s : State) (b : Barge) (i : Nat) : Bool :=
  ((List.range i).all fun k => b.opIs k .complete && (b.op k).outstanding == 0 && (s.unitsOf b.id k).isEmpty)
    && !b.lockBusy && s.noneOpen b && decide (liveBytes b ((s.rangeWords b (s.progRec b i)).map liveRange) + 0x1000 ≤ s.slotBytes)
    && decide (lowestFree s.sv.saveSlots < fld (s.cfg pLKP 0x328) 5 0)

/-- A gap ends: longer than its bound, it is counted (R306). -/
def State.endGap (s : State) (b : Barge) : State := if b.gapBound < s.now - b.gapFrom then s.count pLKP 0xFCC else s

/-- The records after record `i` will issue again: what they left undone is dropped, and their tokens are not set
(R307, R309; assumption 86). Commits that they made stand, and are not made twice. -/
def State.dropLater (s : State) (id i : Nat) : State :=
  let s : State := { s with
    sv := { s.sv with units := s.sv.units.filter fun u => !(u.b == id && i < u.i) }
    gathers := s.gathers.filter fun g => !(g.b == id && i < g.i) }
  s.updBarge id fun x =>
    let late := ((List.range x.ops.length).filter (i < ·)).map fun k => recSignal (s.progRec x k)
    { x with
      tokens := x.tokens.filter fun t => !late.contains t
      ops := x.ops.zipIdx.map fun (o, k) =>
        if k ≤ i then o else { o with st := .waiting, pend := 0, outstanding := 0, signalled := false, todo := [] } }

def savePointEffect (i : Nat) (s : State) (b : Barge) (w : Nat) : State :=
  let s := s.endGap b
  let s := (s.updBarge b.id fun x => { x with gapFrom := s.now, gapBound := recP w 23 16 }).finishOp b.id i
  match s.barge? b.id with
  | some x =>
    if x.preempt.isSome && !s.hq.maint && s.eligible x i then
      let k := lowestFree s.sv.saveSlots
      let s := (s.countPreempt x).endRequestOf b.id
      let s := { s with sv := { s.sv with saveSlots := s.sv.saveSlots ++ [k] } }
      (s.dropLater b.id i).updBarge b.id fun y => { y with
        st := .saving, saveSlot := some k, savePoint := i, factors := [], liveWords := s.rangeWords x w }
    else s
  | none => s

/-- SAVE_POINT: record `i` of barge `b` (R112, R305, R306). -/
def execSavePoint (b i : Nat) (s : State) : Host.Outcome State Fault Refusal :=
  s.engine fun s => s.runRec b i 0x60 savePointOk (fun _ => false) (savePointEffect i) fun _ _ w => (recA w).extBytes (8 * recP w 7 0)

/-! ### Saves and restores (R307 to R309) -/

/-- Lock states of logical region `j` (R141). -/
def Barge.lockWord (b : Barge) (j : Nat) : Nat :=
  (b.chambers.filter (·.region == j)).foldl (fun a c =>
    a + (match c.st with | .closed => 0 | .opened => 1 | .confirmed => 2 | .failed => 3) * 4 ^ c.lock) 0

/-- The slot header without its check (R307). -/
def State.slotHeader (s : State) (b : Barge) : List Byte :=
  let it? := b.carried.bind s.item?
  leBytes 128 (ofBits b.tokens)
    ++ (List.range 8).flatMap (fun j => leBytes 4 (b.lockWord j))
    ++ (List.range 8).flatMap (fun j => (List.range 16).map fun l => BitVec.ofNat 8 ((b.chamber? j l).elim 0 (·.attempts)))
    ++ leBytes 8 b.savePoint ++ leBytes 4 (indexTotal (s.progRecs b b.ops.length)) ++ leBytes 8 (1000 * (s.now - b.closedAt - b.savedUs))
    ++ (List.range 8).flatMap (fun j => leBytes 4 (if j < b.need then (s.region (b.phys j)).uses else 0))
    ++ (if b.solo then leBytes 8 (it?.elim 0 fun it => it.sq * 2 ^ 16 + it.sqIndex) else leBytes 8 b.number)
    ++ leBytes 4 b.mooring ++ leBytes 4 b.need ++ leBytes 16 0

/-- The live ranges of a saved barge's SAVE_POINT, laid out behind the header: store, address, length, slot offset. -/
def layRanges (b : Barge) : Nat → List LiveRange → List (Store × Nat × Nat × Nat)
  | _, [] => []
  | o, l :: ls =>
    ((l.stores b).zipIdx.map fun (st, k) => (st, l.start, l.len, o + l.len * k)) ++ layRanges b (o + l.len * (l.stores b).length) ls

/-- The ranges of the SAVE_POINT a barge is saved at. -/
def Barge.savedRanges (b : Barge) : List (Store × Nat × Nat × Nat) :=
  layRanges b 0x1000 (b.liveWords.map liveRange)

/-- One instance of a live range written to external memory: a word that is poisoned or VOID poisons its sector there (R139,
R405). -/
def State.saveRange (s : State) (st : Store) (x n dest : Nat) : State :=
  let t := s.extWrite dest (s.rd st x n)
  (List.range (n / 64)).foldl (fun t k =>
    let p := x + 64 * k
    if s.poisonAt st p 64 || s.voidAt st p 64 then t.extWrite (dest + 64 * k) (s.rd st p 64) true else t) t

/-- The slot written, and the barge's regions free (R307, R308). -/
def State.saveDone (s : State) (id : Nat) : State :=
  match s.barge? id with
  | some b =>
    match b.saveSlot with
    | some k =>
      if b.st != .saving || b.failed.isSome || s.rangesHeld id [(s.slotAddr k, s.slotBytes)] then s else
        let a := s.slotAddr k
        let s := (b.savedRanges.foldl (fun s (st, x, n, _) => s.seeIn st [(x, n)]) s).failNamed
        let hdr := s.slotHeader b
        let s := s.extWrite a (hdr ++ leBytes 4 (crc32c hdr).toNat)
        let s := b.savedRanges.foldl (fun s (st, x, n, o) => s.saveRange st x n (a + o)) s
        let s := s.updBarge id fun x => { x with st := .saved, savedAt := s.now }
        let s := b.regions.foldl (fun s r =>
          (s.updRegion r fun x => { x with
            ranLast := if b.solo then none else some b.mooring
            pieces := mapIf x.pieces (·.mooring == b.mooring) fun p => { p with lastUse := s.now } }).idle r) s
        s.count pLKP 0xFB4
    | none => s
  | none => s

/-- SAVE_COMPLETE: of barge `b` (R307, R308). -/
def execSaveComplete (b : Nat) (s : State) : Host.Outcome State Fault Refusal := s.engine fun s => s.saveDone b

/-- The time that a barge has been saved counts with its mooring (R314). -/
def State.countSaved (s : State) (b : Barge) : State :=
  s.updMooring b.mooring fun x => { x with savedUs := satAdd 32 x.savedUs (s.now - b.savedAt) }

/-- The records after record `i` of a barge restored are fetched again (R307); one that reads poisoned ends it (R116). -/
def State.refetch (s : State) (id i : Nat) : State :=
  match s.barge? id with
  | some b =>
    let late := (List.range b.ops.length).filter (i < ·)
    let s := s.updBarge id fun x => { x with
      ops := x.ops.zipIdx.map fun (o, k) => if k ≤ i then o else { o with word := s.storedRec b k } }
    if late.any fun k => s.poisonAt (b.recAt k).1 (b.recAt k).2 64 then s.failBarge id fECC else s
  | none => s

/-- The ranges copied back, the slot freed, issue resumed after the SAVE_POINT (R309). -/
def State.restoreDone (s : State) (id : Nat) : State :=
  match s.barge? id with
  | some b =>
    match b.saveSlot with
    | some k =>
      if b.st != .restoring || b.failed.isSome || !b.toLoad.isEmpty || !b.regions.all s.awake
          || s.rangesHeld id [(s.slotAddr k, s.slotBytes)] then s else
        let a := s.slotAddr k
        let uses := (List.range 8).map fun j => s.extNat (a + 0x134 + 4 * j) 4
        let s := b.savedRanges.foldl (fun s (st, x, n, o) => s.copyIn st x (a + o) n) s
        let s := (b.regions.zipIdx).foldl (fun s (r, j) => s.setUses r (uses.getD j 0)) s
        let s := s.updBarge id fun x => { x with
          st := .running, saveSlot := none, savedUs := x.savedUs + (s.now - b.savedAt), gapFrom := x.gapFrom + (s.now - b.savedAt) }
        let s := (s.countSaved b).startBeside id
        let s := { s with sv := { s.sv with saveSlots := s.sv.saveSlots.filter (· != k) } }
        (s.count pLKP 0xFB8).refetch id b.savePoint
    | none => s
  | none => s

/-- RESTORE_COMPLETE: of barge `b` (R308, R309). -/
def execRestoreComplete (b : Nat) (s : State) : Host.Outcome State Fault Refusal := s.engine fun s => s.restoreDone b

end Sys2Proof.Machine
end

