-- ==== Sys2Proof/Machine/Updates.lean ====
section
/-! DEFINITION. Sparse updates up to the merge: SGRAD (R105, R243 to R248), update messages (R249), their settling at the
owner (R250 to R254, R459), and the answers at the source (R247). -/

namespace Sys2Proof.Machine

open Sys2Proof

/-! ### Messages (R249) -/

/-- The next SEQUENCE towards an owner (R249). -/
def State.takeSeq (s : State) (owner step : Nat) : Nat × State :=
  let k := (owner, step, s.epoch)
  match takeFirst (·.1 == k) s.rows.seqs with
  | (some (_, n), rest) => (n, { s with rows := { s.rows with seqs := (k, n + 1) :: rest } })
  | (none, _) => (0, { s with rows := { s.rows with seqs := (k, 1) :: s.rows.seqs } })

/-- Bytes padded with zeros to a multiple of 64. -/
def pad64 (bs : List Byte) : List Byte := bs ++ List.replicate (upTo bs.length 64 - bs.length) 0

/-- A message's payload: SEQUENCE and the row's key in its header, MULT or a notice's owner, and the gradient. -/
def updPayload (seq : Word) (step n epoch self kind mult dimq tid x : Nat) (grad : List Word) : List Byte :=
  pad64 (leBytes 32 (seq.toNat * 2 ^ 224 + step * 2 ^ 192 + n % 2 ^ 32 * 2 ^ 160 + epoch * 2 ^ 152 + self * 2 ^ 139 + kind * 2 ^ 128
    + mult * 2 ^ 88 + dimq * 2 ^ 81 + tid * 2 ^ 40 + x) ++ grad.flatMap fun w => leBytes 4 w.toNat)

/-- A message on VC3. -/
def State.sendVc3 (s : State) (use : TagUse) (t : Tab) (x owner step kind mult dimq : Nat) (grad : List Word) : State :=
  let (n, s) := s.takeSeq owner step
  let bs := updPayload t.seq step n s.epoch s.selfId kind mult dimq t.id x grad
  s.request use { dest := owner, vc := 3, op := 5, len := bs.length, payload := bs }

/-- An update message. -/
def State.sendUpdate (s : State) (use : TagUse) (t : Tab) (x owner step mult : Nat) (grad : List Word) : State :=
  s.sendVc3 use t x owner step kUPDATE mult (grad.length / 16) grad

/-! ### The accepted window and replays -/

/-- The accepted window (R252). -/
def State.inWindow (s : State) (step : Nat) : Bool := stepGt step s.lastClosed && !stepGt step ((s.lastApplied + 2) % 2 ^ 32)

/-- `a` is greater than `b` in 8-bit serial arithmetic (R250). -/
def epochGt (a b : Nat) : Bool := let d := (a + 256 - b) % 256; 1 ≤ d && d ≤ 127

/-- A message is not above its source's high mark (R250). -/
def State.isReplay (s : State) (p : Packet) : Bool :=
  match s.rows.marks.find? (·.1 == (mSource p, mStep p)) with
  | some (_, (e, n)) => !(epochGt (mEpoch p) e || (mEpoch p == e && n < mSequence p))
  | none => false

/-- `a` comes before `b` among the messages of a source (R250). -/
def mBefore (a b : Packet) : Bool := epochGt (mEpoch b) (mEpoch a) || (mEpoch b == mEpoch a && mSequence a < mSequence b)

/-- An earlier message of the same source and step is held: this one may not pass it (R18, R250). -/
def State.heldBefore (s : State) (p : Packet) : Bool :=
  s.fab.heldReqs.any fun h => h.p.op == 5 && mSource h.p == mSource p && mStep h.p == mStep p && mBefore h.p p

/-- The high mark rises. -/
def State.setHighMark (s : State) (p : Packet) : State :=
  { s with
    rows := { s.rows with
      marks := ((mSource p, mStep p), (mEpoch p, mSequence p)) :: s.rows.marks.filter (·.1 != (mSource p, mStep p)) } }

/-- An answer to a message (R247). -/
def State.answerUpd (s : State) (p : Packet) (kind owner : Nat) : State :=
  s.answer p 0 (respHeader 0 owner kind 0 0 (mTable p) (mRow p))

/-- The answer to a message for a table that cannot be used: a header that arrives poisoned, so that its gradient fails with
FAILED_ECC (R193; assumption 19). -/
def State.answerBad (s : State) (p : Packet) : State :=
  s.dirFault.answer p 0 (respHeader 0 s.selfId kNOT_OWNER 0 0 (mTable p) (mRow p)) 0 (poisonMap [0])

/-! ### The merge buffer and the weir (R251, R253, R254) -/

/-- The 16 places of a key in its region's index. -/
def State.mergePlaces (s : State) (t x : Nat) : List Nat :=
  let buckets := max 1 (1024 * s.cfgN pUPD 0x104 / 8 / 64)
  (List.range 16).map fun k => 4 * ((keyHash t x / 8 + k / 4) % buckets) + k % 4

/-- Bytes of an entry's data: its block and DIM binary32 elements. -/
def MergeEnt.bytes (e : MergeEnt) : Nat := 64 + 4 * (e.grads.headD []).length

/-- Bytes of the data half of a step in a region's buffer. -/
def State.halfBytes (s : State) : Nat := (1024 * s.cfgN pUPD 0x104 - 1024 * s.cfgN pUPD 0x104 / 8) / 2

/-- The first `n` free bytes in the half of a step, as an offset. -/
def State.mergeGap (s : State) (r parity n : Nat) : Option Nat :=
  let es := s.rows.merge.filter fun e => e.region == r && e.step % 2 == parity
  (0 :: es.map fun e => e.ofs + e.bytes).find? fun k =>
    decide (k + n ≤ s.halfBytes) && es.all fun e => decide (k + n ≤ e.ofs) || decide (e.ofs + e.bytes ≤ k)

/-- Pool addresses of an entry's index place and of its data (R251). -/
def State.mergeIndexAt (s : State) (e : MergeEnt) : Nat := s.cfgN pUPD 0x100 + 16 * e.place
def State.mergeDataAt (s : State) (e : MergeEnt) : Nat :=
  s.cfgN pUPD 0x100 + 1024 * s.cfgN pUPD 0x104 / 8 + e.step % 2 * s.halfBytes + e.ofs

/-- The errors stored in an entry's words are met. -/
def State.seeEntry (s : State) (e : MergeEnt) : State :=
  (s.see (.pool e.region) (s.mergeIndexAt e) 16).see (.pool e.region) (s.mergeDataAt e) e.bytes

/-- An entry cannot be read (R254). -/
def State.entryBad (s : State) (e : MergeEnt) : Bool :=
  e.poison || s.poisonAt (.pool e.region) (s.mergeIndexAt e) 16 || s.poisonAt (.pool e.region) (s.mergeDataAt e) e.bytes

/-- An entry's bytes in the pool, its index entry where it is new (assumption 87). -/
def State.putEntry (s : State) (e : MergeEnt) (new : Bool) : State :=
  let w := Config.mergeWord e.table e.row e.step e.mult e.ofs e.grads
  let s := if new then s.wr (.pool e.region) (s.mergeIndexAt e) ((leBytes 16 (w 0).toNat)) else s
  s.wr (.pool e.region) (s.mergeDataAt e) ((List.range (e.bytes / 64)).flatMap fun k => leBytes 64 (w (k + 1)).toNat) 0 e.poison

/-- The region takes no merge entries (R254). -/
def State.mergeShut (s : State) (r : Nat) : Bool := (s.region r).quarantined || s.isolated (rPage r)

/-- A place and data room for a new entry. -/
def State.mergeRoom (s : State) (r t x step dim : Nat) : Option (Nat × Nat) :=
  match s.mergeGap r (step % 2) (64 + 4 * dim) with
  | none => none
  | some o => ((s.mergePlaces t x).find? fun k => !(s.rows.merge.any fun e => e.region == r && e.place == k)).map (·, o)

def State.weirHalf (s : State) : Nat := (2 ^ 20 * s.cfgN pUPD 0x110 - 4096) / 2

/-- The weir header written to the first 4 KiB of the weir (R458). -/
def State.writeWeir (s : State) : State :=
  s.extWrite (s.cfgAddr pUPD 0x108)
    ((List.range 64).flatMap fun k => leBytes 64 (Config.weirWord s.rows.weirApplied s.rows.weirApplying s.rows.weirHighest k).toNat)

/-- A gradient joins the weir half of its step; none when the half is full (R253). -/
def State.toWeir (s : State) (m : WeirMsg) (bytes : List Byte) : Option State :=
  let h := m.step % 2
  let used := s.rows.weirUsed.getD h 0
  let bs := pad64 bytes
  if s.weirHalf < used + bs.length then none
  else
    let a := s.cfgAddr pUPD 0x108 + 4096 + h * s.weirHalf + used
    let s := s.extWrite a bs m.poison
    some ({ s with
      rows := { s.rows with
        weir := s.rows.weir ++ [{ m with addr := a, bytes := bs.length }]
        weirUsed := setAt s.rows.weirUsed h fun _ => used + bs.length } }.count pUPD 0xF18)

/-- A weir message as its half holds it now (R253, R256). -/
def State.weirRead (s : State) (m : WeirMsg) : WeirMsg :=
  let p : Packet := { payload := s.ext? m.addr m.bytes }
  { m with mult := mMult p, grad := (groups 4 m.grad.length (p.payload.drop 32)).map (BitVec.ofNat 32), poison := s.extPoison m.addr m.bytes }

/-- The weir header notes the highest step merged, before the first message of a new step is (R458). -/
def State.noteHighest (s : State) (step : Nat) : State :=
  match s.rows.weirHighest with
  | some h => if stepGt step h then ({ s with rows := { s.rows with weirHighest := some step } } : State).writeWeir else s
  | none => ({ s with rows := { s.rows with weirHighest := some step } } : State).writeWeir

/-- The merge entries after one more message, which made or changed the entry `e`. -/
def State.setMerge (s : State) (es : List MergeEnt) (e : MergeEnt) (new : Bool) : State :=
  let t : State := { s.noteHighest e.step with rows := { (s.noteHighest e.step).rows with merge := es } }
  (t.count pUPD 0xF08).putEntry e new

/-- What merging a gradient comes to. -/
inductive MergeRes where
  | held (s : State)
  | full
  | asleep (region : Nat)

/-- A gradient is merged into the buffer, or goes to the weir (R251, R253, R254). -/
def State.mergeGrad (s : State) (m : WeirMsg) (bytes : List Byte) : MergeRes :=
  let r := mergeRegion m.table m.row
  let same := fun (e : MergeEnt) => e.table == m.table && e.row == m.row && e.step == m.step
  let weir := (((s.noteHighest m.step).toWeir m bytes).map MergeRes.held).getD .full
  if s.mergeShut r then weir
  else if !s.awake r then .asleep r
  else match s.rows.merge.find? same with
    | some e =>
      let s := s.seeEntry e
      let e' := { e with mult := (e.mult + m.mult) % 2 ^ 40, grads := e.grads ++ [m.grad], poison := s.entryBad e || m.poison }
      .held (s.setMerge (mapIf s.rows.merge same fun _ => e') e' false)
    | none => match s.mergeRoom r m.table m.row m.step m.grad.length with
      | some (k, o) =>
        let e : MergeEnt :=
          { table := m.table, row := m.row, step := m.step, region := r, place := k, ofs := o, mult := m.mult, grads := [m.grad], poison := m.poison }
        .held (s.setMerge (s.rows.merge ++ [e]) e true)
      | none => weir

/-- The weir half is full: the message is held without an answer, and no more of its step are taken (R253). -/
def State.weirFull (s : State) (p : Packet) (since : Nat) : State :=
  let t : State := { s with rows := { s.rows with weirShut := mStep p :: s.rows.weirShut.filter (· != mStep p) } }
  (t.err pUPD 2).holdReq p since

/-- Regions whose merge buffers hold entries of a step. -/
def State.mergeRegions (s : State) (step : Nat) : List Nat := ((s.rows.merge.filter (·.step == step)).map (·.region)).eraseDups

/-- PEEK_CTRL.GO. -/
def State.peeking (s : State) : Bool := bitOf (s.reg pDBG 0x060) 31

/-- The store that PEEK_CTRL names, with its bytes; none for a reserved SPACE or an INSTANCE out of range. -/
def State.peekStore (s : State) : Option (Store × Nat) :=
  let c := s.reg pDBG 0x060
  let i := fld c 23 16
  let sp := fld c 26 24
  if sp = 1 && i < 128 then some (.scratch i, scratchBytes)
  else if sp = 2 && i < 8 then some (.pool i, poolBytes)
  else if sp = 3 && i = 0 then some (.ext, s.populated)
  else if sp = 6 && i = 0 then some (.pound, poundBytes)
  else none

/-- The byte address of the read. -/
def State.peekAddr (s : State) : Nat := (s.reg pDBG 0x068 ++ s.reg pDBG 0x064).toNat

/-- The target of the read; none where it lies out of range. -/
def State.peekTarget (s : State) : Option Store :=
  s.peekStore.bind fun (st, n) => if s.peekAddr + 64 ≤ n then some st else none

/-- The region whose SRAM a store lies in. -/
def Store.region? : Store → Option Nat
  | .scratch t => some (t / 16)
  | .pool r => some r
  | _ => none

/-- The region that the running debug read reads. -/
def State.peekRegion (s : State) : Option Nat := if s.peeking then s.peekTarget.bind Store.region? else none

/-- An update message that waits for region `r`'s merge buffer is held, or an UPDATE is to read it (R398). -/
def State.regionAwaited (s : State) (r : Nat) : Bool :=
  (s.fab.heldReqs.any fun h => h.p.op == 5 && mKind h.p == kUPDATE && mergeRegion (mTable h.p) (mRow h.p) == r)
    || (s.sv.units.any fun u => match u.act with | .applyStep step _ _ => (s.mergeRegions step).contains r | _ => false) || s.peekRegion == some r

/-- An access from outside to region `r` is complete: its idle timers resume once no other waits (R398). -/
def State.accessDone (s : State) (r : Nat) : State := if s.regionAwaited r then s else s.idle r

/-- What follows a merge: the answer, or the message held for room or for its region (R252, R253). -/
def State.afterMerge (s : State) (p : Packet) (since : Nat) : MergeRes → State
  | .held t => ((t.setHighMark p).answerUpd p kMERGED t.selfId).accessDone (mergeRegion (mTable p) (mRow p))
  | .full => s.weirFull p since
  | .asleep r => (s.wake r).holdReq p since

/-- Steps 3 to 5 of R459 for a row that this engine owns. -/
def State.mergeMsg (s : State) (p : Packet) (since : Nat) : State :=
  if !s.inWindow (mStep p) then ((s.count pUPD 0xF10).err pUPD 1).answerUpd p kSTALE s.selfId
  else if s.rows.weirShut.contains (mStep p) || s.heldBefore p then s.holdReq p since
  else if s.isReplay p then (s.count pUPD 0xF0C).answerUpd p kMERGED s.selfId
  else
    let m : WeirMsg := { table := mTable p, row := mRow p, step := mStep p, mult := mMult p, grad := mGrad p, poison := anyBad p }
    s.afterMerge p since (s.mergeGrad m p.payload)

/-- An update message settled (R459). -/
def State.settleUpdate (s : State) (p : Packet) (since : Nat) : State :=
  match s.settleSeq (mTable p) (mSeq p) with
  | .bad => s.answerBad p
  | .former _ => (s.count pROW 0xF38).answerUpd p kMERGED s.selfId
  | .held => s.holdReq p since
  | .notOwner => s.noteNotOwner.answerUpd p kNOT_OWNER s.selfId
  | .active t =>
    if mDim p != t.dim then s.badPacket
    else match s.holdOf t (mRow p) with
      | .gone o => (s.noteForward t.id).answerUpd p kFORWARD o
      | .other => s.noteNotOwner.answerUpd p kNOT_OWNER s.selfId
      | .own _ => s.mergeMsg p since

/-- ROW_UPDATE: an update message arrives, or is taken up again where it was held (R459). -/
def execRowUpdate (p : Packet) (s : State) : Host.Outcome State Fault Refusal :=
  s.engine fun s => if p.op = 5 && mKind p = kNOTICE then s else s.receive p [5] fun s =>
    let (since, s) := s.unhold p
    if mKind p != kUPDATE || p.payload.length < 32 + 4 * mDim p then s.badPacket else s.settleUpdate p since

/-! ### SGRAD -/

def gradTarget1 (w : Nat) : Bool := recP w 40 40 == 1
def gradUses (w : Nat) : Nat := recP w 24 0
def gradDim (w : Nat) : Nat := 16 * recP w 38 32

/-- R105, R172, R243. -/
def sgradOk (s : State) (_ : Barge) (_ : List Nat) (w : Nat) : Bool :=
  let a := recA w
  recP w 127 41 == 0 && recP w 39 39 == 0 && recP w 31 25 == 0 && gradUses w ≤ 2 ^ 24 && (recC w).none
    && (if gradTarget1 w then a.space == spPOOL && a.fmt == 0 && a.stride == 0 && a.addr == s.cfgN pSPD 0x208 && (recB w).none
        else a.poolOrExt && fmtRow a.fmt && 1 ≤ recP w 38 32 && recP w 38 32 ≤ 64 && s.rowsFit a (gradUses w) (rowBytes a.fmt (gradDim w)) 0
          && (recB w).space == spPOOL && s.rawFits (recB w) 64)

/-- The item of a manifest row has its fate, or its rows are left out (R244). -/
def State.rowOver (s : State) (b : Barge) (row : Nat) : Bool :=
  match b.rows[row]? with
  | some r => r.out || (if r.kind = 2 then (b.carried.bind s.item?).isNone else !((s.berth r.berth).st == .prefill || (s.berth r.berth).st == .decode))
  | none => !b.rows.isEmpty

/-- A fault in the data that a position depends on, of marks `m`, fails its item once that data is confirmed (R123, R244);
`key` tells the units of record `i` apart, and a poisoned position counts as a refused unit (R406). -/
def State.leaveOut (s : State) (b : Barge) (i w key : Nat) (m : LockMask) (row fate : Nat) (poison : Bool) : State :=
  s.addUnit
    { b := b.id, i := i, key := 2 ^ 60 + key, act := .fails (some row) fate, pend := b.lockSet w ||| m, rows := [row], poison := poison }

/-- The positions of slot `u` that are summed, after those left out have had their effect (R244): position and row. -/
def State.slotPositions (s : State) (b : Barge) (i w : Nat) (g : Img) (u : Nat) (ps : List (Nat × Nat)) :
    List (Nat × Nat) × State :=
  let out := fun (m : Nat → LockMask) (fate : Nat) (poison : Bool) (s : State) (l : List (Nat × Nat)) =>
    l.foldl (fun s (p, row) => s.leaveOut b i w (g.r * 2 ^ 32 + p) (m p) row fate poison) s
  let st := Store.pool g.r
  let e := s.rdNat st (g.keyAddr u) 16
  let bad := fun a n => s.poisonAt st a n || s.voidAt st a n
  if nbit e 54 then ([], s)
  else if bad (g.keyAddr u) 16 then ([], out (fun _ => s.pendAt st (g.keyAddr u) 16) fECC true s ps)
  else
    let ps := ps.filter fun (_, row) => !s.rowOver b row
    match s.tab (nfld e 51 40) with
    | .ok t =>
      if nbit e 53 && !t.updDefault then ([], s.count pUPD 0xF20 ps.length)
      else
        let a := recA w
        let rowBad := fun p => s.poisonAt (a.store g.r 0) (a.row p) (rowBytes a.fmt (gradDim w)) || s.voidAt (a.store g.r 0) (a.row p) (rowBytes a.fmt (gradDim w))
        let (no, yes) := ps.partition fun (p, _) => rowBad p
        (yes, out (fun p => s.pendAt (a.store g.r 0) (a.row p) (rowBytes a.fmt (gradDim w))) fECC true s no)
    | .bad => ([], out (fun _ => s.pendAt st (g.keyAddr u) 16) fECC false s.dirFault ps)
    | .none => ([], out (fun _ => s.pendAt st (g.keyAddr u) 16) fCFG false s ps)

/-- The message of one slot (R244): its positions' gradients summed. -/
def State.slotGradient (s : State) (b : Barge) (i w : Nat) (g : Img) (u : Nat) (ps : List (Nat × Nat)) : State :=
  let (ps, s) := s.slotPositions b i w g u ps
  if ps.isEmpty then s
  else
    let a := recA w
    let st := a.store g.r 0
    let n := gradDim w
    let rows := ps.map fun (p, _) => s.rowVals a st p n
    let sums := (List.range n).map fun d => b32 (sumFree (s.picks + d * sumPicks rows.length) (rows.map fun x => x.getD d .zero))
    let s := s.takePicks (n * sumPicks rows.length)
    let e := s.rdNat (.pool g.r) (g.keyAddr u) 16
    let t := (ps.map fun (p, _) => s.rowTaint a st p n).foldl Taint.join (s.taint (.pool g.r) (g.keyAddr u) 16)
    s.addUnit { b := b.id, i := i, key := g.r * 2 ^ 32 + u, pend := b.lockSet w ||| t.pend, rows := (ps.map (·.2)).eraseDups
                act := .gradient (nfld e 51 40) (nfld e 39 0) ps.length sums }

/-- Positions whose word in the image reads poisoned are left out (R244); the others with their slot. -/
def State.readPositions (s : State) (b : Barge) (i w : Nat) (g : Img) : List (Nat × Nat × Nat) × State :=
  let owner := bagOfPositions (s.imgBags g)
  let bags := s.imgBags g
  let all := (s.imgSlots g).zipIdx.map fun (u, p) => (p, (bags.getD (owner.getD p 0) (0, 0)).1, u)
  let bad := fun (p : Nat) => s.poisonAt (.pool g.r) (g.posAddr p) 4 || s.voidAt (.pool g.r) (g.posAddr p) 4
  let (no, yes) := all.partition fun (p, _, _) => bad p
  (yes, no.foldl (fun s (p, row, _) => s.leaveOut b i w (g.r * 2 ^ 32 + p) (s.pendAt (.pool g.r) (g.posAddr p) 4) row fECC true) s)

/-- The embedding gradients of one region. -/
def State.sgradIn (i w : Nat) (s : State) (b : Barge) (r : Nat) : State :=
  let s := (s.seeImg r (recB w).addr).seeRows (recA w) ((recA w).store r 0) (gradUses w) (gradDim w)
  let g := s.img r (recB w).addr
  if s.imgBad g then
    s.addUnit { b := b.id, i := i, key := 2 ^ 61 + r, act := .fails none fECC
                pend := b.lockSet w ||| s.pendAt (.pool r) g.addr 64 ||| s.pendAt (.pool r) (g.addr + 64) (4 * g.bags) }
  else if !(gradUses w == g.indices && (g.dim == 0 || g.dim == gradDim w) && fmtRow g.format) then s.failBarge b.id fCFG
  else if g.dim = 0 then s
  else
    let (ps, s) := s.readPositions b i w g
    (List.range g.unique).foldl (fun s u =>
      s.slotGradient b i w g u ((ps.filter fun (_, _, v) => v == u).map fun (p, row, _) => (p, row))) s

/-- The dimension D_F of a mooring's factor table. -/
def State.factorDim (s : State) (m : Nat) : Nat := s.dimOf (s.factorTable m)

/-- The gradient list of one region (R172, R245). -/
def State.listIn (i w : Nat) (s : State) (b : Barge) (r : Nat) : State :=
  let s := s.seeIn (.pool r) [(s.cfgN pSPD 0x208, 64 + (64 + 4 * s.factorDim b.mooring) * (s.region r).uses)]
  if gradUses w != (s.region r).uses then s.failBarge b.id fCFG
  else
    let d := s.factorDim b.mooring
    let st := Store.pool r
    let rows := (List.range b.rows.length).filter fun k => ((b.rows[k]?).map (·.kind)) == some 2
    (List.range (gradUses w)).foldl (fun s k =>
      let a := s.cfgN pSPD 0x208 + 64 + (64 + 4 * d) * k
      let e := s.rdNat st a 64
      let t := s.taint st a (64 + 4 * d)
      s.addUnit { b := b.id, i := i, key := r * 2 ^ 32 + k, pend := b.lockSet w ||| t.pend, poison := t.poison, rows := rows
                  act := .gradient (nfld e 11 0) (nfld e 55 16) 1 ((groups 4 d (s.rd st (a + 64) (4 * d))).map (BitVec.ofNat 32)) }) s

/-- R243, R248. -/
def sgradEffect (i : Nat) (s : State) (b : Barge) (w : Nat) : State :=
  if !s.inWindow b.step then s.failBarge b.id fCFG
  else (b.physOf (recRegions w)).foldl (fun s r => match s.barge? b.id with
    | some x => if x.failed.isSome then s else if gradTarget1 w then s.listIn i w x r else s.sgradIn i w x r
    | none => s) s

/-- SGRAD: record `i` of barge `b` (R105). -/
def execSgrad (b i : Nat) (s : State) : Host.Outcome State Fault Refusal :=
  s.engine fun s => s.runRec b i 0x23 sgradOk (fun w => gradUses w == 0) (sgradEffect i) fun _ _ w =>
    if gradTarget1 w then [] else (recA w).extRows (gradUses w) (gradDim w)

/-- A gradient unit commits: the message goes to its row's owner (R121, R249). -/
def State.sendGradient (s : State) (b : Barge) (i tid x mult : Nat) (grad : List Word) (rows : List Nat) : State :=
  match s.tab tid with
  | .ok t =>
    let (key, owner) := s.ownerOf t x
    (s.sentOne b.id i).sendUpdate (.update b.id i rows) t key owner b.step mult grad
  | .bad => s.dirFault.failRows b.id rows fECC
  | .none => s.failRows b.id rows fCFG

end Sys2Proof.Machine
end

