-- ==== Sys2Proof/Machine/Migration.lean ====
section
/-! DEFINITION. Rows that move: promotion and demotion (R205), migration between owners (R209, R210, R212, R330), route
notices (R210, R329), and the skew window (R204, R205, R213). -/

namespace Sys2Proof.Machine

open Sys2Proof

/-! ### Promotion and demotion (R205) -/

/-- A hot slot of a table that no row holds. -/
def State.freeHotSlot (s : State) (t : Tab) : Option Nat :=
  let k := lowestFree ((s.hotOf t.id).map fun (_, _, h) => h)
  if k < t.hotSlots then some k else none

/-- A free place for a row's hot directory entry. -/
def State.freeHotPlace (s : State) (t x : Nat) : Option Nat :=
  (placesOf s.hotDirBase s.hotLog2 t x).find? fun a => !nbit (s.extNat a 16) 52

/-- A row takes a hot slot: image, directory entry, and zeroed hot state. -/
def State.makeHot (s : State) (t : Tab) (x a h : Nat) (home : Loc) (img : List Byte) : State :=
  let l := t.hotLoc (home.local_.getD 0) h
  let s := s.writeRowImage t l img s.lastClosed
  let s := s.extPutNat a 16 (h * 2 ^ 64 + 2 ^ 52 + t.id * 2 ^ 40 + x)
  let e := optBytes (optOf t.optCtrl) t.dim
  let s := if !fullState t.optCtrl && (optOf t.optCtrl = 1 || optOf t.optCtrl = 3) then s.extWrite (t.hotStateBase + e * h) (leBytes e 0) else s
  (s.count pROW 0xF24).skew t.id fun k => { k with promotions := satAdd 16 k.promotions 1 }

/-- A candidate is promoted, or counts as a miss; a row that is no longer at home, or reads poisoned, stays as it is. -/
def State.promote (s : State) (c : Nat × Nat) : State :=
  match s.tab c.1 with
  | .ok t =>
    match s.mapLoc t c.2 true, s.exc? t.id c.2 with
    | some home, none =>
      if home.kind != 1 || !t.hotEn then s
      else match s.freeHotSlot t, s.freeHotPlace t.id c.2 with
        | some h, some a =>
          let (r, s) := s.readRow t home
          if r.poison then s
          else match s.encodeInto t.id c.2 t.hotDr false (fun _ => .rne) (decodeRow t.homeDr t.dim r.image) with
            | (some img, s) => s.makeHot t c.2 a h home img
            | (none, s) => s
        | _, _ => s.count pROW 0xF2C
    | _, _ => s
  | _ => s

/-- A demotion candidate goes home. -/
def State.demoteRow (s : State) (c : Nat × Nat) : Bool × State :=
  match s.tab c.1, s.hot? c.1 c.2 with
  | .ok t, some (a, h) => s.demote t a c.2 h
  | _, _ => (false, s)

/-! ### Migration from the old owner (R209, R210, R330) -/

def moveHeader (kind n tid x : Nat) : List Byte := leBytes 1 kind ++ leBytes 3 0 ++ leBytes 4 n ++ leBytes 8 (x + tid * 2 ^ 40)

/-- A ROW_MOVE packet. -/
def movePacket (dest kind n tid x : Nat) (body : List Byte) (bad : Bool := false) : Packet :=
  let bs := moveHeader kind n tid x ++ body
  { dest := dest, vc := 6, op := 6, len := bs.length, payload := bs, poison := if bad then poisonMap (List.range (divUp bs.length 64)) else 0 }

/-- STATE packets of a row's optimizer state, in ascending OFFSET. -/
def State.sendState (s : State) (tid x dest : Nat) (st : List Byte) (bad : Nat → Nat → Bool) : State :=
  (List.range (divUp st.length 4096)).foldl (fun s k =>
    let bs := (st.drop (4096 * k)).take 4096
    s.request (.move tid x (k + 1 == divUp st.length 4096)) (movePacket dest 4 (4096 * k) tid x bs (bad (4096 * k) bs.length))) s

/-- A row is offered to its new owner. -/
def State.offerRow (s : State) (t : Tab) (x dest : Nat) (l : Loc) (r : RowRd) : State :=
  let (a, n) := s.stateOf t l
  let st := s.ext? a n
  let s : State := { s with
    rows := { s.rows with
      moves := s.rows.moves ++ [{ table := t.id, row := x, dest := dest, unanswered := 1 + divUp n 4096, wasOwned := l.mig.isSome }] } }
  (s.request (.move t.id x (n == 0)) (movePacket dest 1 n t.id x r.image r.poison)).sendState t.id x dest st fun o m => s.extPoison (a + o) m

/-- The move of a row that this engine has under way. -/
def State.move? (s : State) (tid x : Nat) : Option Move := s.rows.moves.find? fun m => m.table == tid && m.row == x

/-- An entry waits for an earlier move of its row. -/
def State.migLater (s : State) (w : Nat) : State := { s with rows := { s.rows with migRest := s.rows.migRest ++ [w] } }

/-- An entry of the migration list is carried out, or skipped (R209); it waits where its row is already on its way. -/
def State.moveEntry (s : State) (w : Nat) : State :=
  let x := nfld w 39 0
  let dest := nfld w 76 64
  let skip := fun (s : State) => s.count pROW 0xF30
  if (s.move? (nfld w 51 40) x).isSome then s.migLater w
  else match s.tab (nfld w 51 40) with
  | .ok t =>
    if t.rows ≤ x || dest = s.selfId || !(s.members t).contains dest || idRack dest != idRack s.selfId
        || ((s.exc? t.id x).map fun e => excState e.2) == some ePROV then skip s
    else
      let s := if (s.hot? t.id x).isSome && (s.exc? t.id x).isNone then (s.demoteRow (t.id, x)).2 else s
      match s.holdOf t x with
      | .own l =>
        let (r, s) := s.readRow t l
        if l.hotSlot.isSome then skip s else s.offerRow t x dest l r
      | _ => skip s
  | _ => skip s

/-- MIG_STATUS. -/
def State.migStatus (s : State) : Nat := s.regN pROW 0xF04
def State.setMig (s : State) (busy done : Bool) (moved : Nat) : State :=
  s.setRegN pROW 0xF04 (bit busy * 2 ^ 31 + bit done * 2 ^ 30 + min moved (2 ^ 17 - 1))

/-- The running list goes on: entries that waited for an earlier one of their row are carried out once its move is settled,
and the list is finished once every move is settled and every notice acknowledged. -/
def State.migCheck (s : State) : State :=
  let go (w : Nat) : Bool := (s.move? (nfld w 51 40) (nfld w 39 0)).isNone
  let t : State := { s with rows := { s.rows with migRest := [] } }
  let s := s.rows.migRest.foldl (fun t w => if go w then t.moveEntry w else t.migLater w) t
  if nbit s.migStatus 31 && s.rows.migRest.isEmpty && s.rows.moves.isEmpty && s.rows.notices = 0 then s.setMig false true (nfld s.migStatus 16 0) else s

/-- The committed list starts (R209). -/
def State.startMigration (s : State) : State :=
  if !s.rows.migPending then s
  else
    let n := s.cfgN pROW 0x14C
    let s := ({ s with rows := { s.rows with migPending := false } } : State)
    let ws := (List.range n).map fun k => s.extNat (s.cfgAddr pROW 0x128 + 16 * k) 16
    (ws.foldl (fun s w => s.moveEntry w) (s.setMig true false 0)).migCheck

/-- Demotions, then promotions (R205). -/
def State.movePoint (s : State) : State :=
  let s := s.rows.demote.foldl (fun s c => (s.demoteRow c).2) s
  let s := s.rows.promote.foldl (fun s c => s.promote c) s
  { s with rows := { s.rows with promote := [], demote := [] } }

/-- A step close: migrations come last (R205, R209). -/
def State.stepPoint (s : State) : State := s.movePoint.startMigration

/-- A move is settled. -/
def State.dropMove (s : State) (tid x : Nat) : State :=
  { s with rows := { s.rows with moves := s.rows.moves.filter fun m => !(m.table == tid && m.row == x) } }

/-- The engine that the shard map names for a row. -/
def State.mapOwner (s : State) (tid x : Nat) : Option Nat :=
  match s.tab tid with | .ok t => (rangeOf (s.shards t) x).map (·.owner) | _ => none

/-- An exception entry naming an owner is written, or deleted where the shard map names that owner already (R208). -/
def State.putRoute (s : State) (tid x st owner expiry : Nat) : Option State :=
  if s.mapOwner tid x = some owner then some (s.excDel tid x) else s.excPut tid x (excBits tid x st owner 0 expiry)

/-- The migration-basin sectors from `k` on are free again. -/
def State.freeBasin (s : State) (k : Nat) : State := { s with rows := { s.rows with basin := s.rows.basin.filter (·.1 != k) } }

/-- Gradients already merged for a moved row follow it, with this engine's own tags (R210). -/
def State.passOn (s : State) (t : Tab) (x dest : Nat) : State :=
  let es := s.rows.merge.filter fun e => e.table == t.id && e.row == x
  let ws := s.rows.weir.filter fun e => e.table == t.id && e.row == x
  let s := { s with
    rows := { s.rows with
      merge := s.rows.merge.filter fun e => !(e.table == t.id && e.row == x)
      weir := s.rows.weir.filter fun e => !(e.table == t.id && e.row == x) } }
  let s := es.foldl State.seeEntry s
  let (lostE, es) := es.partition s.entryBad
  let (lostW, ws) := (ws.map s.weirRead).partition (·.poison)
  let lost := lostE.length + lostW.length
  let s := if lost = 0 then s else (s.count pUPD 0xF34 lost).err pUPD 0
  let s := es.foldl (fun s e =>
    let g := (List.range t.dim).map fun d =>
      b32 (sumFree (s.picks + d * sumPicks e.grads.length) (e.grads.map fun g => Word.num (g.getD d 0)))
    (s.takePicks (t.dim * sumPicks e.grads.length)).sendUpdate .passOn t x dest e.step e.mult g) s
  ws.foldl (fun s e => s.sendUpdate .passOn t x dest e.step e.mult e.grad) s

/-- ROUTE notices to every other member (R210, R329). -/
def State.sendNotices (s : State) (t : Tab) (x owner : Nat) : State :=
  let ms := (s.members t).filter fun m => m != s.selfId && m != owner
  ms.foldl (fun s m =>
    let s : State := { s with rows := { s.rows with notices := s.rows.notices + 1 } }
    s.sendVc3 .notice t x m ((s.lastClosed + 1) % 2 ^ 32) kNOTICE owner 0 []) s

/-- Steps 3 to 5 of R210 at the old owner. -/
def State.moveAccepted (s : State) (m : Move) : State :=
  match s.tab m.table with
  | .ok t =>
    let old := s.exc? m.table m.row
    let expiry := (s.now + s.cfgN pROW 0x140) % 2 ^ 32
    match s.putRoute m.table m.row eGONE m.dest expiry with
    | some s' =>
      let s' := match old with
        | some (_, w) => if m.wasOwned then s'.freeBasin (excSlot w) else s'
        | none => s'
      let s' := (s'.dropMove m.table m.row).passOn t m.row m.dest
      let s' := s'.request (.moveConfirm m.table m.row) (movePacket m.dest 2 0 m.table m.row [])
      let s' := s'.sendNotices t m.row m.dest
      (s'.setMig (nbit s'.migStatus 31) (nbit s'.migStatus 30) (nfld s'.migStatus 16 0 + 1)).migCheck
    | none => (((s.err pROW 3).count pROW 0xF34).dropMove m.table m.row).migCheck
  | _ => (s.dropMove m.table m.row).migCheck

/-- A move that the new owner refuses, or that is never answered, leaves the row here (R330). -/
def State.moveFailed (s : State) (tid x : Nat) (refused : Bool) : State :=
  if (s.move? tid x).isSome then ((if refused then s.count pROW 0xF34 else s).dropMove tid x).migCheck else s

/-- The answer byte of a ROW_MOVE response (R329). -/
def mvAnswer (p : Packet) : Nat := leNat (p.payload.take 1)
def aACCEPT : Nat := 0x81
def aREFUSE : Nat := 0x82
def aHELD : Nat := 0x83
def aNOT_HELD : Nat := 0x84
def aSTORED : Nat := 0x85

/-- A response to a ROW_MOVE with one of the listed answers. -/
def State.moveReply (s : State) (p : Packet) (answer : Nat) (f : State → TagUse → State) : State :=
  if p.op = 0x86 && (if p.status = 0 then mvAnswer p = answer else answer = aREFUSE) then s.receive p [0x86] fun s => s.respond p f else s

/-- ACCEPT: the new owner has taken a row (R210). -/
def execAccept (p : Packet) (s : State) : Host.Outcome State Fault Refusal :=
  s.engine fun s => s.moveReply p aACCEPT fun s u => match u with
    | .move t x _ => match s.move? t x with | some m => s.moveAccepted m | none => s
    | _ => s

/-- REFUSE: the new owner has refused a row, or answered with a status other than OK (R210, R331). -/
def execRefuse (p : Packet) (s : State) : Host.Outcome State Fault Refusal :=
  s.engine fun s => s.moveReply p aREFUSE fun s u => match u with
    | .move t x _ => s.moveFailed t x true
    | _ => s

/-- STORED: the new owner holds a packet of a row (R330). -/
def execStored (p : Packet) (s : State) : Host.Outcome State Fault Refusal :=
  s.engine fun s => s.moveReply p aSTORED fun s u => match u with
    | .move t x _ =>
      { s with
        rows := { s.rows with
          moves := mapIf s.rows.moves (fun m => m.table == t && m.row == x) fun m => { m with unanswered := m.unanswered - 1 } } }
    | _ => s

/-! ### Migration at the new owner -/

/-- The first run of `n` free sectors of the migration basin. -/
def State.basinRun (s : State) (n : Nat) : Option Nat :=
  let size := s.cfgN pROW 0x13C
  let ends := 0 :: s.rows.basin.map fun (k, m) => k + m
  (sortBy (fun a b => decide (a ≤ b)) ends).find? fun k =>
    k + n ≤ size && s.rows.basin.all fun (j, m) => k + n ≤ j || j + m ≤ k

/-- Step 2 of R210: the row is stored under a PROVISIONAL entry, or refused. -/
def State.takeRow (s : State) (i : Inbound) : Bool × State :=
  match s.tab i.table with
  | .ok t =>
    let n := imageBytes t.homeDr t.dim
    if i.image.length != n then (false, s)
    else match (if s.cfgN pUPD 0x11C < i.stateBytes then none else s.basinRun (divUp n 512)) with
      | none => (false, s.err pROW 4)
      | some k => match s.excPut i.table i.row (excBits i.table i.row ePROV i.src k 0) with
        | none => (false, s.err pROW 3)
        | some s =>
          let s := s.writeRowImage t (s.migLoc t i.row k) i.image s.lastClosed i.bad
          let s := if i.state.isEmpty then s else s.extWrite (s.migStateAddr k) i.state i.stateBad
          (true, { s with
            rows := { s.rows with
              basin := s.rows.basin ++ [(k, divUp n 512)]
              provisional := s.rows.provisional.filter (fun (t, x, _) => !(t == i.table && x == i.row)) ++ [(i.table, i.row, s.now)] } })
  | _ => (false, s)

def State.answerMove (s : State) (p : Packet) (a : Nat) : State := s.answer p 0 (leBytes 1 a)

/-- The last packet of a row is answered (R330). -/
def State.lastPacket (s : State) (p : Packet) (i : Inbound) : State :=
  let (ok, s) := s.takeRow i
  s.answerMove p (if ok then aACCEPT else aREFUSE)

/-- What was stored of rows whose next packet has not come within a timeout is freed: a packet of theirs has failed (R330;
assumption 48). -/
def State.dropStale (s : State) : State :=
  { s with rows := { s.rows with inbound := s.rows.inbound.filter fun i => decide (s.now < i.since + s.fabTimeout) } }

/-- A ROW_MOVE of one kind arrives (R330, R338). -/
def State.receiveMove (s : State) (p : Packet) (kind : Nat) (f : State → State) : State :=
  if p.op = 6 && mvKind p != kind && 1 ≤ mvKind p && mvKind p ≤ 4 then s
  else s.receive p [6] fun s =>
    if s.refusedLevel p then ((s.count pFAB 0xF1C).err pFAB 4).answer p 2 []
    else if mvKind p != kind then s.badPacket
    else f s.dropStale

/-- What an earlier offer of the row by the same source brought is dropped. -/
def State.dropInbound (s : State) (p : Packet) : State :=
  { s with rows := { s.rows with inbound := s.rows.inbound.filter fun i => !(i.table == mvTable p && i.row == mvRow p && i.src == p.src) } }

/-- ROW_OFFER: a row is offered (R330). -/
def execRowOffer (p : Packet) (s : State) : Host.Outcome State Fault Refusal :=
  s.engine fun s => s.receiveMove p 1 fun s =>
    let i : Inbound := { table := mvTable p, row := mvRow p, src := p.src, image := p.payload.drop 16, stateBytes := mvNum p, state := [], step := 0
                         bad := anyBad p, since := s.now }
    let s := s.dropInbound p
    if mvNum p = 0 then s.lastPacket p i
    else ({ s with rows := { s.rows with inbound := s.rows.inbound ++ [i] } } : State).answerMove p aSTORED

/-- A STATE packet joins its row; the last one settles it. -/
def State.joinState (s : State) (p : Packet) : State :=
  match s.rows.inbound.find? fun i => i.table == mvTable p && i.row == mvRow p && i.src == p.src with
  | none => s.answerMove p aREFUSE
  | some i =>
    let i := { i with state := i.state ++ p.payload.drop 16, stateBad := i.stateBad || anyBad p, since := s.now }
    if i.state.length - (p.payload.drop 16).length != mvNum p then (s.dropInbound p).answerMove p aREFUSE
    else if i.stateBytes ≤ i.state.length then (s.dropInbound p).lastPacket p { i with state := i.state.take i.stateBytes }
    else
      let s := s.dropInbound p
      ({ s with rows := { s.rows with inbound := s.rows.inbound ++ [i] } } : State).answerMove p aSTORED

/-- STATE: optimizer state of an offered row arrives (R330). -/
def execState (p : Packet) (s : State) : Host.Outcome State Fault Refusal :=
  s.engine fun s => s.receiveMove p 4 fun s => s.joinState p

/-- A PROVISIONAL row becomes OWNED; where the shard map gives it to this engine, it goes to its home slot and the entry
goes (R208, R210). -/
def State.settleRow (s : State) (tid x : Nat) : State :=
  match s.exc? tid x, s.tab tid with
  | some (_, w), .ok t =>
    if excState w != ePROV then s
    else
      let k := excSlot w
      let s : State := { s with rows := { s.rows with provisional := s.rows.provisional.filter fun (a, y, _) => !(a == tid && y == x) } }
      match s.mapLoc t x false with
      | some home =>
        let (r, s) := s.readRow t (s.migLoc t x k)
        let (a, n) := s.stateOf t home
        let s := s.writeRowImage t home r.image r.step r.poison
        let s := if n = 0 then s else s.extWrite a (s.ext? (s.migStateAddr k) n) (s.extPoison (s.migStateAddr k) n)
        (s.excDel tid x).freeBasin k
      | none => (s.excPut tid x (excBits tid x eOWNED s.selfId k 0)).getD s
  | _, _ => s

/-- A PROVISIONAL row is given up (R212). -/
def State.giveUpRow (s : State) (tid x : Nat) : State :=
  match s.exc? tid x with
  | some (_, w) =>
    if excState w != ePROV then s
    else
      let s : State := { s with rows := { s.rows with provisional := s.rows.provisional.filter fun (a, y, _) => !(a == tid && y == x) } }
      (s.excDel tid x).freeBasin (excSlot w)
  | none => s

/-- MOVE_CONFIRM: the old owner confirms a move (R210). -/
def execMoveConfirm (p : Packet) (s : State) : Host.Outcome State Fault Refusal :=
  s.engine fun s => s.receiveMove p 2 fun s => (s.settleRow (mvTable p) (mvRow p)).answerMove p aSTORED

/-- This engine gave the row to `who` (R212). -/
def State.gaveTo (s : State) (tid x who : Nat) : Bool :=
  match s.exc? tid x with
  | some (_, w) => (excState w == eGONE || excState w == eROUTE) && excOwner w == who
  | none => false

/-- QUERY: a new owner asks about a row (R212). -/
def execQuery (p : Packet) (s : State) : Host.Outcome State Fault Refusal :=
  s.engine fun s => s.receiveMove p 3 fun s => s.answerMove p (if s.gaveTo (mvTable p) (mvRow p) p.src then aHELD else aNOT_HELD)

/-- HELD: the old owner gave the row to this engine (R212). -/
def execHeld (p : Packet) (s : State) : Host.Outcome State Fault Refusal :=
  s.engine fun s => s.moveReply p aHELD fun s u => match u with
    | .query t x => s.settleRow t x
    | _ => s

/-- NOT_HELD: it did not (R212). -/
def execNotHeld (p : Packet) (s : State) : Host.Outcome State Fault Refusal :=
  s.engine fun s => s.moveReply p aNOT_HELD fun s u => match u with
    | .query t x => s.giveUpRow t x
    | _ => s

/-- A PROVISIONAL entry is still unconfirmed after a transaction timeout: its old owner is asked (R212). -/
def State.probeRow (s : State) (tid x : Nat) : State :=
  match s.exc? tid x, s.rows.provisional.find? fun (a, y, _) => a == tid && y == x with
  | some (_, w), some (_, _, t) =>
    if excState w = ePROV && t + s.fabTimeout ≤ s.now then
      let s : State := { s with
        rows := { s.rows with provisional := mapIf s.rows.provisional (fun (a, y, _) => a == tid && y == x) fun (a, y, _) => (a, y, s.now) } }
      s.request (.query tid x) (movePacket (excOwner w) 3 0 tid x [])
    else s
  | _, _ => s

/-- PROVISIONAL_PROBE of a row (R212). -/
def execProvisionalProbe (table row : Nat) (s : State) : Host.Outcome State Fault Refusal := s.engine fun s => s.probeRow table row

/-- A GONE entry's EXPIRY has passed (R208, R210). -/
def State.expireGone (s : State) (tid x : Nat) : State :=
  match s.exc? tid x with
  | some (a, w) =>
    let passed := (BitVec.ofNat 32 s.now - excExpiry w).toNat < 2 ^ 31
    if excState w = eGONE && passed then s.extPutNat a 16 (excBits tid x eROUTE (excOwner w) 0 0) else s
  | none => s

/-- GONE_EXPIRY of a row (R210). -/
def execGoneExpiry (table row : Nat) (s : State) : Host.Outcome State Fault Refusal := s.engine fun s => s.expireGone table row

/-! ### Route notices (R210, R329, R459) -/

/-- The new owner that a notice names: MULT bits [100:88]. -/
def noticeOwner (p : Packet) : Nat := nfld (leNat (p.payload.take 32)) 100 88

/-- A notice is recorded. -/
def State.recordRoute (s : State) (tid x owner : Nat) : State :=
  match s.putRoute tid x eROUTE owner 0 with
  | some s => s
  | none => s.err pROW 3

/-- Steps 1 and 4 of R459, then the recording. A row that this engine itself holds keeps its entry. -/
def State.settleNotice (s : State) (p : Packet) (since : Nat) : State :=
  match s.settleSeq (mTable p) (mSeq p) with
  | .bad => s.answerBad p
  | .former _ => (s.count pROW 0xF38).answerUpd p kMERGED s.selfId
  | .held => s.holdReq p since
  | .notOwner => s.noteNotOwner.answerUpd p kNOT_OWNER s.selfId
  | .active t =>
    if s.rows.weirShut.contains (mStep p) || s.heldBefore p then s.holdReq p since
    else if s.isReplay p then (s.count pUPD 0xF0C).answerUpd p kMERGED s.selfId
    else ((s.setHighMark p).recordRoute t.id (mRow p) (noticeOwner p)).answerUpd p kMERGED s.selfId

/-- ROUTE: a notice arrives (R329). -/
def execRoute (p : Packet) (s : State) : Host.Outcome State Fault Refusal :=
  s.engine fun s => if p.op = 5 && mKind p != kNOTICE then s else s.receive p [5] fun s =>
    let (since, s) := s.unhold p
    s.settleNotice p since

/-! ### The skew window (R204, R205, R213) -/

/-- Bytes of external memory from a sector boundary on set to zero, as sectors that hold no rows. -/
def State.extClear (s : State) (a n : Nat) : State :=
  let s : State := { s with ext := s.ext.filter fun (k, _) => !(a ≤ k && k < a + n) }
  (sectorsOf a n).foldl (fun s k => s.setTag k { kind := 0, owner := s.selfId }) s

/-- Table ids with an ACTIVE slot. -/
def State.tables (s : State) : List Nat :=
  let base := s.cfgAddr pROW 0x100
  ((s.listed base 0x100000 256).map fun a => (a - base) / 256).filter fun t => (s.slotIn t 1).isSome

/-- A table's record of the report. -/
def State.skewRecord (s : State) (t : Nat) : List Byte :=
  let k := SMap.get (fun _ => ({} : Skew)) s.rows.skew t
  leBytes 4 k.reads ++ leBytes 8 k.bytes ++ leBytes 4 k.updates ++ leBytes 4 k.defaults ++ leBytes 4 k.forwards ++ leBytes 2 k.promotions
    ++ leBytes 2 k.demotions ++ leBytes 4 (s.hotOf t).length

/-- The report of the window that ends. -/
def State.skewReport (s : State) : State :=
  let w := s.rows.windowNo
  let a := s.cfgAddr pROW 0x120 + 0x21000 * (w % 2)
  let s := s.extClear a 0x21000
  let s := s.extWrite a (leBytes 8 w ++ leBytes 8 s.rows.windowStart ++ leBytes 8 (s.rows.windowStart + s.cfgN pROW 0x140) ++ leBytes 2 s.selfId)
  let s := s.tables.foldl (fun s t => s.extWrite (a + 64 + 32 * t) (s.skewRecord t)) s
  let s := s.setRegN pROW 0xF00 w
  let mode := s.cfg pROW 0x150
  if bitOf mode 1 then s.raise (fld mode 15 8) else s

/-- Every directory entry that passes its check, in whatever state it stands. -/
def State.entries (s : State) : List Tab :=
  let base := s.cfgAddr pROW 0x100
  ((s.listed base 0x100000 128).map fun a => (a - base) / 128).filterMap fun k =>
    if (s.slotSt (k / 2) (k % 2)).elim true (· == 0) || s.dirSlotBad (k / 2) (k % 2) then none
    else some { id := k / 2, slot := k % 2, raw := s.slotRaw (k / 2) (k % 2) }

/-- Every popularity counter shifted right (R204). -/
def State.decay (s : State) : State :=
  let d := fld (s.cfg pROW 0x144) 11 8
  s.entries.foldl (fun s t =>
    if !t.hotEn || d = 0 then s
    else (s.listed t.popBase (2 * divUp (s.ownSpan t) (2 ^ fld (s.cfg pROW 0x144) 15 12)) 2).foldl
      (fun s a => s.extPutNat a 2 (s.extNat a 2 / 2 ^ d)) s) s

/-- Hot rows whose group counter lies below DEMOTE_THRESH (R205). -/
def State.demoteScan (s : State) : List (Nat × Nat) :=
  s.hotEntries.filterMap fun (_, w) =>
    let tid := nfld w 51 40
    let x := nfld w 39 0
    match s.tab tid with
    | .ok t => match s.mapLoc t x false with
      | some l => if s.extNat (s.popAddr t (l.local_.getD 0)) 2 < fld (s.cfg pROW 0x148) 15 0 then some (tid, x) else none
      | none => none
    | _ => none

/-- A skew window ends. -/
def State.windowEnd (s : State) : State :=
  let len := s.cfgN pROW 0x140
  if !s.rows.adopted || len = 0 || s.now < s.rows.windowStart + len then s
  else
    let s := s.decay
    let new := s.demoteScan
    let s : State := { s with rows := { s.rows with demote := s.rows.demote ++ new.filter fun c => !s.rows.demote.contains c } }
    let s := (if s.rows.closedInWindow then s else s.movePoint).skewReport
    { s with rows := { s.rows with windowNo := s.rows.windowNo + 1, windowStart := s.rows.windowStart + len, closedInWindow := false, skew := [] } }

/-- SKEW_WINDOW_END (R213). -/
def execSkewWindowEnd (s : State) : Host.Outcome State Fault Refusal := s.engine fun s => s.windowEnd

end Sys2Proof.Machine
end

