-- ==== Sys2Proof/Machine/Transactions.lean ====
section
/-! DEFINITION. The fabric's transactions as a responder and a forwarder sees them: READ, WRITE, FETCH_ADD and TEST (R317,
R318, R329, R331), forwarding (R335, R336, R338), the response of this engine's own fetch-adds, and the expiry of
quarantines (R332). -/

namespace Sys2Proof.Machine

open Sys2Proof

/-- A local address that exists (R317). -/
def State.addrOk (s : State) (a n : Nat) : Bool := a + n ≤ s.populated

/-- A request waits until the collective that covers its words closes (R135). -/
def State.putBack (s : State) (p : Packet) : State := { s with fab := { s.fab with inbox := p :: s.fab.inbox } }

/-- An address-based request: judged by its level (R338), its address (R317) and its alignment (R318), and held back by an
open collective (R135). -/
def State.serve (s : State) (p : Packet) (n : Nat) (aligned : Bool) (f : State → State) : State :=
  if s.refusedLevel p then ((s.count pFAB 0xF1C).err pFAB 4).answer p 2 []
  else if !aligned || !s.addrOk p.addr n then s.answer p 1 []
  else if s.rangeOpen p.addr n then s.putBack p
  else f s

/-- LEN of a READ or WRITE (R318). -/
def lenAligned (p : Packet) : Bool := p.addr % 64 == 0 && 64 ≤ p.len && p.len ≤ 4096 && p.len % 64 == 0

/-- The poisoned units of bytes of external memory. -/
def State.extBadUnits (s : State) (a n : Nat) : List Nat := (List.range (n / 64)).filter fun i => s.extPoison (a + 64 * i) 64

/-- What lies at or above a request's committed length of some bytes of external memory: its berth, address and length. -/
def State.kvAbove (s : State) (a n : Nat) : List (Nat × Nat × Nat) :=
  s.sv.berths.flatMap fun (k, be) => be.kv.flatMap fun x =>
    if be.committed ≤ x.position then (x.ranges.filter fun (b, m) => decide (a < b + m) && decide (b < a + n)).map fun y => (k, y) else []

/-- READ: a request arrives (R318). A KV transfer receives no position at or above the committed length, and is told that
length (R130; assumption 94). -/
def execRead (p : Packet) (s : State) : Host.Outcome State Fault Refusal :=
  s.engine fun s => s.receive p [1] fun s => s.serve p p.len (lenAligned p) fun s =>
    let hid := if p.vc = 5 then s.kvAbove p.addr p.len else []
    let bs := (s.ext? p.addr p.len).zipIdx.map fun (x, k) =>
      if hid.any fun (_, b, m) => b ≤ p.addr + k && p.addr + k < b + m then Config.kvHidden (p.addr + k) else x
    let imm := hid.head?.elim 0 fun (k, _) => BitVec.ofNat 64 (s.berth k).committed
    s.answer p 0 bs imm (poisonMap (s.extBadUnits p.addr p.len))

/-- The bytes of a WRITE stored sector by sector, each poisoned where a unit of it is marked (R328, R331, R405). -/
def State.storeUnits (s : State) (p : Packet) : State :=
  (sectorsOf p.addr p.len).foldl (fun s k =>
    let lo := max p.addr (512 * k) - p.addr
    let hi := min (p.addr + p.len) (512 * k + 512) - p.addr
    s.extWrite (p.addr + lo) ((p.payload.drop lo).take (hi - lo)) ((List.range 64).any fun i => lo < 64 * i + 64 && 64 * i < hi && unitBad p i)) s

/-- The bytes of a WRITE stored: at one stroke where no unit of it is poisoned. -/
def State.storeWrite (s : State) (p : Packet) : State := if anyBad p then s.storeUnits p else s.extWrite p.addr p.payload

/-- WRITE: a request arrives (R318). -/
def execWrite (p : Packet) (s : State) : Host.Outcome State Fault Refusal :=
  s.engine fun s => s.receive p [2] fun s => s.serve p p.len (lenAligned p) fun s => (s.storeWrite p).answer p 0 []

/-- A 64-bit word incremented. -/
def State.addAt (s : State) (a : Nat) (v : BitVec 64) : State := s.extPutNat a 8 ((s.extNat a 8 + v.toNat) % 2 ^ 64)

/-- FETCH_ADD: a request arrives (R318). The old value is marked where its word is poisoned. -/
def execFetchAdd (p : Packet) (s : State) : Host.Outcome State Fault Refusal :=
  s.engine fun s => s.receive p [3] fun s => s.serve p 8 (p.addr % 8 == 0 && p.len == 0) fun s =>
    (s.addAt p.addr p.imm).answer p 0 [] (BitVec.ofNat 64 (s.extNat p.addr 8)) (poisonMap (if s.extPoison p.addr 8 then [0] else []))

/-- TEST: a request arrives (R329, R334). -/
def execTest (p : Packet) (s : State) : Host.Outcome State Fault Refusal :=
  s.engine fun s => s.receive p [9] fun s =>
    if s.refusedLevel p then ((s.count pFAB 0xF1C).err pFAB 4).answer p 2 []
    else if s.weight 7 = 0 then s.answer p 3 [] else s.answer p 0 p.payload 0 p.poison

/-- RESPONSE: the response to a READ, WRITE, FETCH_ADD or TEST arrives (R115, R331, R332). A status other than OK ends the
SIGNAL's barge. -/
def execResponse (p : Packet) (s : State) : Host.Outcome State Fault Refusal :=
  s.engine fun s => s.receive p [0x81, 0x82, 0x83, 0x89] fun s => s.respond p fun s u => match u with
    | .fetchAdd b i => if p.status = 0 then s.arrived b i else (s.arrived b i).failBarge b fCFG
    | _ => s

/-- The OP may cross racks (R19, R338). -/
def crossesRacks (op : Nat) : Bool := op == 4 || op == 0x84 || op == 5 || op == 0x85 || op == 7 || op == 8

/-- Packets for other engines that came in on port `n`, on the VC of `p` and bound for the same port (R336). -/
def State.flowThrough (s : State) (n : Nat) (p q : Packet) : Bool :=
  q.dest != s.selfId && q.vc == p.vc && s.fab.arrivals.contains (q, n) && (s.route q (some n)).map (·.1) == (s.route p (some n)).map (·.1)

/-- A packet for another engine goes on, in its turn (R335, R336, R338, R397). -/
def State.forwardPacket (s : State) (n : Nat) (p : Packet) : State :=
  if p.dest = s.selfId then s
  else if !s.packetTurn p (s.flowThrough n p) then s.waitTurn p
  else if !packetOk p then (s.take p).badPacket
  else if s.isolated pFAB then s.take p
  else if portStage n = 1 && !crossesRacks p.op then ((s.take p).count pFAB 0xF1C).err pFAB 4
  else ((s.take p).count pFAB 0xF18).sendOut p (some n)

/-- PACKET_FORWARD: a packet for another engine that arrived on a port goes on (R336). -/
def execPacketForward (port : Nat) (p : Packet) (s : State) : Host.Outcome State Fault Refusal :=
  s.engine fun s => s.forwardPacket port p

/-- A tag's quarantine ends (R332). -/
def State.endQuarantine (s : State) (k : Nat) : State :=
  match (s.tagSt k).quarantine with
  | some t => if t ≤ s.now then s.freeTag k else s
  | none => s

/-- TAG_QUARANTINE_EXPIRY of a tag (R332). -/
def execTagQuarantineExpiry (tag : Nat) (s : State) : Host.Outcome State Fault Refusal := s.engine fun s => s.endQuarantine tag

end Sys2Proof.Machine
end

