-- ==== Sys2Proof/Machine/RowMessages.lean ====
section
/-! DEFINITION. The messages about rows (R228, R247) on either side: a READ and a PROBE at the owner (R211, R217, R229), the
answers at the requester (R211, R230, R231, R233, R247), the timeout of any transaction (R332, R340), and the
expiry of held requests (R333). -/

namespace Sys2Proof.Machine

open Sys2Proof

/-! ### At the owner -/

/-- KIND of a row request that is listed (R228). -/
def reqKindOk (k : Nat) : Bool := k == 1 || k == 2

/-- A row request of one kind arrives, or is taken up again where it was held. -/
def State.receiveReq (s : State) (p : Packet) (kind : Nat) : State :=
  if p.op = 4 && reqKind p != kind && reqKindOk (reqKind p) then s
  else s.receive p [4] fun s =>
    if reqKind p != kind then s.badPacket
    else
      let (since, s) := s.unhold p
      let (r, s) := s.ownerServe (reqTable p) (reqRow p) (reqSeq p) (if kind = 2 then some (reqStep p) else none) (reqMult p)
      s.answerRow p since r

/-- ROW_READ: a READ of a row arrives (R228, R229). -/
def execRowRead (p : Packet) (s : State) : Host.Outcome State Fault Refusal := s.engine fun s => s.receiveReq p 1

/-- VERSION_PROBE: a PROBE of a row arrives (R228, R229). -/
def execVersionProbe (p : Packet) (s : State) : Host.Outcome State Fault Refusal := s.engine fun s => s.receiveReq p 2

/-! ### At the requester -/

/-- The kinds of answer that an OP's response may bear (R228, R247). -/
def ansKinds (op : Nat) : List Nat := if op = 0x84 then [kROW, kCURRENT, kFORWARD, kNOT_OWNER] else [kMERGED, kFORWARD, kNOT_OWNER, kSTALE]

/-- The answer that a response gives: a status other than OK stands as NOT_OWNER; none for a reserved KIND (R228, R331). -/
def answerOf (p : Packet) : Option Nat :=
  if p.status != 0 then some kNOT_OWNER else if (ansKinds p.op).contains (respKind p) then some (respKind p) else none

/-- A response of one kind to a row request or an update message arrives; one of a reserved kind is dropped. -/
def State.receiveAns (s : State) (p : Packet) (kind : Nat) (f : State → State) : State :=
  if (p.op == 0x84 || p.op == 0x85) && answerOf p != some kind && (answerOf p).isSome then s
  else s.receive p ((if (ansKinds 0x84).contains kind then [0x84] else []) ++ (if (ansKinds 0x85).contains kind then [0x85] else []))
    fun s => if answerOf p != some kind then s.badPacket else f s

/-- What a tag was taken for has failed (R233, R247, R332). -/
def State.useFailed (s : State) (u : TagUse) (fate : Nat) : State :=
  match u with
  | .row r t x _ _ pf => s.rowFailed r t x fate pf
  | .update b i rows => (s.arrived b i).failRows b rows fate
  | .fetchAdd b i => (s.arrived b i).failBarge b fate
  | .move t x _ => s.moveFailed t x false
  | .moveConfirm _ _ | .query _ _ | .passOn => s
  | .notice => ({ s with rows := { s.rows with notices := s.rows.notices - 1 } } : State).migCheck

/-- ROW: the owner's copy of a row arrives (R228, R230). -/
def execRow (p : Packet) (s : State) : Host.Outcome State Fault Refusal :=
  s.engine fun s => s.receiveAns p kROW fun s => s.respond p fun s u => match u with
    | .row r t x _ probe pf => s.rowCame r t x probe pf p
    | _ => s

/-- CURRENT: the cached copy is as new as the owner's (R228, R231). -/
def execCurrent (p : Packet) (s : State) : Host.Outcome State Fault Refusal :=
  s.engine fun s => s.receiveAns p kCURRENT fun s => s.respond p fun s u => match u with
    | .row r t x _ _ pf => (s.prefetchDone pf).currentCame r t x
    | _ => s

/-- A message resent to another owner bears the next SEQUENCE towards it (R247). -/
def State.reseq (s : State) (p : Packet) (owner : Nat) : Packet × State :=
  if p.op = 5 then
    let (n, s) := s.takeSeq owner (mStep p)
    ({ p with dest := owner, payload := p.payload.take 20 ++ leBytes 4 n ++ p.payload.drop 24 }, s)
  else ({ p with dest := owner }, s)

/-- The retry of R211, with the same tag and generation. -/
def State.forwardRetry (s : State) (p : Packet) : State :=
  let x := s.tagSt p.tag
  let (q, s) := (s.count pROW 0xF18).reseq x.request (respOwner p)
  (s.setTagSt p.tag { x with retried := true, request := q }).send q

/-- A FORWARD at the requester (R211). -/
def State.forwarded (s : State) (p : Packet) : State :=
  if !s.matches p then s.lateDrop
  else if (s.tagSt p.tag).retried then
    s.respond p fun s u => (s.count pROW 0xF1C).useFailed u fFORWARD
  else s.forwardRetry p

/-- FORWARD: the row has moved (R211). -/
def execForward (p : Packet) (s : State) : Host.Outcome State Fault Refusal :=
  s.engine fun s => s.receiveAns p kFORWARD fun s => s.forwarded p

/-- NOT_OWNER: the engine asked does not own the row (R211, R233, R247). -/
def execNotOwner (p : Packet) (s : State) : Host.Outcome State Fault Refusal :=
  s.engine fun s => s.receiveAns p kNOT_OWNER fun s => s.respond p fun s u =>
    s.useFailed u (if p.op = 0x85 && anyBad p then fECC else fCFG)

/-- MERGED: the owner has merged a gradient, or taken up a notice (R247, R329). -/
def execMerged (p : Packet) (s : State) : Host.Outcome State Fault Refusal :=
  s.engine fun s => s.receiveAns p kMERGED fun s => s.respond p fun s u => match u with
    | .update b i _ => s.arrived b i
    | .notice => ({ s with rows := { s.rows with notices := s.rows.notices - 1 } } : State).migCheck
    | _ => s

/-- STALE: the gradient's step lies outside the owner's accepted window (R247, R252). -/
def execStale (p : Packet) (s : State) : Host.Outcome State Fault Refusal :=
  s.engine fun s => s.receiveAns p kSTALE fun s => s.respond p fun s u => s.useFailed u fCFG

/-! ### Timeouts -/

/-- A request is still unanswered after the effective timeout: its tag is quarantined for one more (R332, R340). -/
def State.tagTimeout (s : State) (k : Nat) : State :=
  let x := s.tagSt k
  match x.use with
  | some u =>
    if x.since + s.fabTimeout ≤ s.now then
      (((s.setTagSt k { gen := x.gen, quarantine := some (s.now + s.fabTimeout) }).count pFAB 0xF0C).err pFAB 3).useFailed u fTIMEOUT
    else s
  | none => s

/-- TRANSACTION_TIMEOUT of a tag (R332, R340). -/
def execTransactionTimeout (tag : Nat) (s : State) : Host.Outcome State Fault Refusal := s.engine fun s => s.tagTimeout tag

/-- The `k`-th held request has been held for an effective timeout (R333). A region that was awake for it alone is idle
again (R398). -/
def State.dropHeld (s : State) (k : Nat) : State :=
  match s.fab.heldReqs[k]? with
  | some h =>
    if h.since + s.fabTimeout ≤ s.now then
      let t := { s with fab := { s.fab with heldReqs := s.fab.heldReqs.eraseIdx k } }.count pFAB 0xF24
      if h.p.op = 5 then t.accessDone (mergeRegion (mTable h.p) (mRow h.p)) else t
    else s
  | none => s

/-- HELD_REQUEST_DISCARD of the `k`-th held request (R333). -/
def execHeldRequestDiscard (k : Nat) (s : State) : Host.Outcome State Fault Refusal := s.engine fun s => s.dropHeld k

end Sys2Proof.Machine
end

