-- ==== Sys2Proof/Machine/Apply.lean ====
section
/-! DEFINITION. UPDATE: a closed step applied to every touched row (R106, R256 to R262). -/

namespace Sys2Proof.Machine

open Sys2Proof

/-! ### Optimizer arithmetic in binary32 (R261) -/

def fAdd (a b : Num) : Num := r32 (a.add b)
def fSub (a b : Num) : Num := r32 (a.sub b)
def fMul (a b : Num) : Num := r32 (a.mul b)
def fDiv (a b : Num) : Num := r32 (a.div b)

/-- A whole number times 2^e, cut to its leading 256 bits. -/
def cut256 (x : Nat × Int) : Nat × Int :=
  let k := Nat.log2 x.1 - 255
  (x.1 / 2 ^ k, x.2 + k)

/-- `b ^ n` times `acc`, every product cut to 256 bits. -/
def powCut : Nat → Nat × Int → Nat → Nat × Int → Nat × Int
  | 0, _, _, acc => acc
  | fuel + 1, b, n, acc =>
    powCut fuel (cut256 (b.1 * b.1, b.2 + b.2)) (n / 2) (if n % 2 = 1 then cut256 (acc.1 * b.1, acc.2 + b.2) else acc)

/-- `beta ** count` for a finite `beta` not below 0, to 256 bits; a power far outside binary32's range only as far outside
it. -/
def powNum (b : Num) (n : Nat) : Num :=
  match b with
  | .fin _ p d =>
    if p = 0 then (if n = 0 then one32 else .zero)
    else
      let (m, e) := powCut 40 (p, -(Nat.log2 d : Int)) n (1, 0)
      let top := e + Nat.log2 m
      if top < -400 then one32.scale2 (-400) else if 400 < top then one32.scale2 400 else (Num.fin false m 1).scale2 e
  | x => x

/-- `beta ** count` within 2 units in the last place (R261; assumption 7). -/
def fPow (b : Num) (n : Nat) : Num := nearUlps 2 (Config.powFn (b32 b) n) (powNum b n)

/-- The optimizer record (R258). -/
structure OptPar where
  lr : Num
  beta1 : Num
  beta2 : Num
  eps : Num
  decay : Num
  clip : Num
deriving DecidableEq, Repr

/-- One binary32 value of a record of 64 bytes. -/
def parWord (w o : Nat) : Num := fB32.decode (bfld w o 4)

def optPar (w : Nat) : OptPar :=
  { lr := parWord w 0x00, beta1 := parWord w 0x04, beta2 := parWord w 0x08, eps := parWord w 0x0C, decay := parWord w 0x10, clip := parWord w 0x14 }

/-- The record passes its check and holds no NaN, infinity or negative value (R258). -/
def parOk (w : Nat) : Bool :=
  bfld w 0x3C 4 == (crc32c (leBytes 60 w)).toNat
    && [0x00, 0x04, 0x08, 0x0C, 0x10, 0x14].all fun o => (parWord w o).finite && !(parWord w o).isNeg

/-- A row's optimizer state: velocity or first moment, second moment, scalar, count (R260). -/
structure OptSt where
  m : List Num := []
  v : List Num := []
  acc : Num := .zero
  count : Nat := 0
deriving DecidableEq, Repr

/-- What an update of one row comes to. -/
structure OptRes where
  w : List Num
  st : OptSt
  clipped : Bool
  /-- the sum of squares of the gradient in use after decay -/
  sq : Num
deriving DecidableEq, Repr

/-- OPT_CTRL's switches (R258). -/
def meanGrad (c : Nat) : Bool := nbit c 6
def clipEn (c : Nat) : Bool := nbit c 7
def decoupled (c : Nat) : Bool := nbit c 8
def biasCorr (c : Nat) : Bool := nbit c 9

/-- The sum of squares of a row, its additions in no fixed order from choice `base` on. -/
def sumSq (base : Nat) (g : List Num) : Num := sumFree base (g.map fun x => fMul x x)

/-- Element-wise pairs. -/
def zipNum (f : Num → Num → Num) (a b : List Num) : List Num := List.zipWith f a b

/-- The gradient after MEAN_GRAD, CLIP_EN and coupled decay, and whether it was clipped. -/
def preGrad (p : OptPar) (c mult base : Nat) (w g : List Num) : List Num × Bool :=
  let g := if meanGrad c then g.map fun x => fDiv x (r32 (.ofInt mult)) else g
  let n := sqrt32 (sumSq base g)
  let clipped := clipEn c && p.clip.lt n
  let g := if clipped then (let k := fDiv p.clip n; g.map fun x => fMul x k) else g
  (if !p.decay.isZero && !decoupled c then zipNum (fun x y => fAdd x (fMul p.decay y)) g w else g, clipped)

/-- The rule itself. -/
def ruleStep (p : OptPar) (c rule : Nat) (w g : List Num) (sq : Num) (st : OptSt) : List Num × OptSt :=
  if rule = 0 then (zipNum (fun x y => fSub x (fMul p.lr y)) w g, st)
  else if rule = 1 then
    let vel := zipNum (fun v x => fAdd (fMul p.beta1 v) x) st.m g
    (zipNum (fun x v => fSub x (fMul p.lr v)) w vel, { st with m := vel })
  else if rule = 2 then
    let acc := fAdd st.acc (fDiv sq (r32 (.ofInt g.length)))
    let den := fAdd (sqrt32 acc) p.eps
    (zipNum (fun x y => fSub x (fDiv (fMul p.lr y) den)) w g, { st with acc := acc })
  else
    let one := Num.ofInt 1
    let k := (st.count + 1) % 2 ^ 32
    let m := zipNum (fun v x => fAdd (fMul p.beta1 v) (fMul (fSub one p.beta1) x)) st.m g
    let v := zipNum (fun v x => fAdd (fMul p.beta2 v) (fMul (fMul (fSub one p.beta2) x) x)) st.v g
    let mh := if biasCorr c then m.map fun x => fDiv x (fSub one (fPow p.beta1 k)) else m
    let vh := if biasCorr c then v.map fun x => fDiv x (fSub one (fPow p.beta2 k)) else v
    let d := zipNum (fun a b => fDiv (fMul p.lr a) (fAdd (sqrt32 b) p.eps)) mh vh
    (zipNum fSub w d, { st with m := m, v := v, count := k })

/-- R261 for one row; choices of sums from `base` on. -/
def optRow (p : OptPar) (c rule mult base : Nat) (beside : Bool) (w g : List Num) (st : OptSt) : OptRes :=
  let (g, clipped) := preGrad p c mult base w g
  let sq := sumSq (base + sumPicks g.length) g
  let (x, st) := ruleStep p c rule w g sq st
  let x := if !p.decay.isZero && decoupled c then zipNum (fun a b => fSub a (fMul (fMul p.lr p.decay) b)) x w else x
  { w := x, clipped := clipped, sq := sq
    st := if beside then { st with acc := fAdd st.acc (fDiv sq (r32 (.ofInt g.length))) } else st }

/-! ### State in memory (R260) -/

def State.b32s (s : State) (a n : Nat) : List Num := (groups 4 n (s.ext? a (4 * n))).map fB32.decode

/-- A copy's optimizer state. -/
def State.loadOpt (s : State) (t : Tab) (l : Loc) : OptSt :=
  let (a, _) := s.stateOf t l
  let d := t.dim
  let rule := ruleOf t l
  let acc := if rule = 2 then fB32.decode (s.extNat a 4) else if scalarBeside t l then fB32.decode (s.extNat (s.scalarAddr t l) 4) else .zero
  if rule = 1 then { m := s.b32s a d, acc := acc }
  else if rule = 3 then { m := s.b32s a d, v := s.b32s (a + 4 * d) d, count := s.extNat (a + 8 * d) 4, acc := acc }
  else { acc := acc }

/-- A state word of the copy cannot be read. -/
def State.optBad (s : State) (t : Tab) (l : Loc) : Bool :=
  let (a, n) := s.stateOf t l
  (n != 0 && s.extPoison a n) || (scalarBeside t l && s.extPoison (s.scalarAddr t l) 4)

def numBytes (l : List Num) : List Byte := l.flatMap fun x => leBytes 4 (b32 x).toNat

/-- It stored (R262). -/
def State.storeOpt (s : State) (t : Tab) (l : Loc) (o : OptSt) : State :=
  let (a, _) := s.stateOf t l
  let rule := ruleOf t l
  let s := if rule = 1 then s.extWrite a (numBytes o.m)
    else if rule = 2 then s.extWrite a (numBytes [o.acc])
    else if rule = 3 then s.extWrite a (numBytes o.m ++ numBytes o.v ++ leBytes 4 o.count)
    else s
  if scalarBeside t l then s.extWrite (s.scalarAddr t l) (numBytes [o.acc]) else s

/-! ### The touched rows (R256) -/

/-- A row with the gradients merged for it. -/
structure Touched where
  table : Nat
  row : Nat
  mult : Nat
  grads : List (List Word)
  /-- its merge entry or a weir message of it reads uncorrectable -/
  lost : Bool
deriving DecidableEq, Repr

/-- A further gradient of a touched row. -/
def Touched.join (a b : Touched) : Touched :=
  { a with mult := (a.mult + b.mult) % 2 ^ 40, grads := a.grads ++ b.grads, lost := a.lost || b.lost }

def joinTouched (l : List Touched) (x : Touched) : List Touched :=
  if l.any fun y => y.table == x.table && y.row == x.row then mapIf l (fun y => y.table == x.table && y.row == x.row) (·.join x) else l ++ [x]

/-- The rows touched in step `k`: merge entries, and weir messages folded into them. -/
def State.touched (s : State) (k : Nat) : List Touched :=
  let es := (s.rows.merge.filter (·.step == k)).map fun e : MergeEnt =>
    ({ table := e.table, row := e.row, mult := e.mult, grads := e.grads, lost := s.entryBad e } : Touched)
  let ws := ((s.rows.weir.filter (·.step == k)).map s.weirRead).map fun m : WeirMsg =>
    ({ table := m.table, row := m.row, mult := m.mult, grads := [m.grad], lost := m.poison } : Touched)
  (es ++ ws).foldl joinTouched []

/-- Entries that are lost at the UPDATE (R254). -/
def State.loseRow (s : State) : State := (s.count pUPD 0xF34).err pUPD 0

/-! ### One row applied -/

/-- The rounding of the update engine's write-back (R38, R262). -/
def State.updMode (s : State) (rnd k : Nat) : RMode :=
  if rnd = 1 then .sr (Config.srDraw 1 s.rows.seed (s.rows.draws + k)).toNat else .rne

def State.takeUpdDraws (s : State) (n : Nat) : State := { s with rows := { s.rows with draws := s.rows.draws + n } }

/-- The result of a row written back, or refused under R46 (R262). -/
def State.writeBack (s : State) (t : Tab) (x step rnd sat : Nat) (l : Loc) (r : OptRes) : State :=
  let s := if r.clipped then s.count pUPD 0xF24 else s
  let (img, s) := s.encodeInto t.id x l.dr (sat == 1) (s.updMode rnd) (s.clearTail t x (r.w.map b32))
  let s := if rnd = 1 && l.dr != 0 then s.takeUpdDraws t.dim else s
  match img with
  | none => s.count pUPD 0xF2C
  | some img =>
    let s := (s.writeRowImage t l img step).storeOpt t l r.st
    (s.count pUPD 0xF1C).skew t.id fun k => { k with updates := satAdd 32 k.updates 1 }

/-- A touched row with its optimizer record in hand (R257, R261). -/
def State.applyAt (s : State) (t : Tab) (y : Touched) (p : OptPar) (step rnd sat : Nat) (l : Loc) : State :=
  let n := y.grads.length
  let g := (List.range t.dim).map fun d => sumFree (s.picks + d * sumPicks n) (y.grads.map fun v => Word.num (v.getD d 0))
  let s := s.takePicks (t.dim * sumPicks n)
  if !g.all Num.finite then s.count pUPD 0xF28
  else
    let (r, s) := s.readRow t l
    if r.poison then (s.count pUPD 0xF40).err pUPD 6
    else if s.optBad t l then s.err pUPD 3
    else
      let res := optRow p t.optCtrl (ruleOf t l) y.mult s.picks (scalarBeside t l) ((decodeRow l.dr t.dim r.image).map Word.num) g (s.loadOpt t l)
      (s.takePicks (2 * sumPicks t.dim)).writeBack t y.row step rnd sat l res

/-- The optimizer record of a table: none where it cannot be used (R258). -/
def State.parOf (s : State) (t : Tab) : Option OptPar :=
  let w := s.extNat t.paramAddr 64
  if s.extPoison t.paramAddr 64 || !parOk w then none else some (optPar w)

/-- The tables whose records are faulty count once each. -/
def State.noteParams (s : State) (ids : List Nat) : State :=
  ids.foldl (fun s tid => match s.tab tid with
    | .ok t => if (s.parOf t).isNone then (s.count pUPD 0xF30).err pUPD 4 else s
    | .bad => s.dirFault
    | .none => s) s

/-- A touched row of step `step` (R256 step 4). -/
def State.applyRow (s : State) (step rnd sat : Nat) (y : Touched) : State :=
  if y.lost then s.loseRow
  else match s.tab y.table with
    | .ok t => match s.parOf t, s.holdOf t y.row with
      | some p, .own l => s.applyAt t y p step rnd sat l
      | _, _ => s
    | _ => s

/-- The update engine's generator takes a changed seed (R262). -/
def State.reseedUpd (s : State) : State :=
  if s.rows.reseed then
    { s with rows := { s.rows with reseed := false, draws := 0, seed := s.cfg pUPD 0x128 ++ s.cfg pUPD 0x124 } }
  else s

/-- Step 5 of R256: the step is applied, its entries and marks freed. -/
def State.closeApplied (s : State) (step : Nat) : State :=
  let s : State := { s with
    rows := { s.rows with
      merge := s.rows.merge.filter (·.step != step)
      weir := s.rows.weir.filter (·.step != step)
      weirUsed := setAt s.rows.weirUsed (step % 2) fun _ => 0
      weirShut := s.rows.weirShut.filter (· != step)
      weirApplied := step
      weirApplying := none
      marks := s.rows.marks.filter fun ((_, k), _) => stepGt k step } }
  s.writeWeir.setRegN pUPD 0xF04 step

/-- Steps 1 to 6 of R256. -/
def State.applyStep (s : State) (step rnd sat : Nat) : State :=
  let s : State := ({ s with rows := { s.rows with weirApplying := some step } } : State).writeWeir
  let s := (s.rows.merge.filter (·.step == step)).foldl State.seeEntry s
  let ys := s.touched step
  let s := (s.reseedUpd.noteParams (ys.map (·.table)).eraseDups)
  let s := ys.foldl (fun s y => s.applyRow step rnd sat y) s
  ((s.mergeRegions step).foldl State.accessDone (s.closeApplied step)).stepPoint

/-! ### The record -/

def updStep (w : Nat) : Nat := recP w 31 0

def updateOk (_ : State) (_ : Barge) (_ : List Nat) (w : Nat) : Bool :=
  recP w 127 32 == 0 && (recA w).none && (recB w).none && (recC w).none

/-- R106: its one commit unit is the whole step (R121). -/
def updateEffect (i : Nat) (s : State) (b : Barge) (w : Nat) : State :=
  if stepGt (updStep w) s.lastClosed then s.failBarge b.id fCFG
  else if !stepGt (updStep w) s.lastApplied then s.finishOp b.id i
  else (s.mergeRegions (updStep w)).foldl State.wake
    (s.addUnit { b := b.id, i := i, key := 0, act := .applyStep (updStep w) (recRnd w) (bit (recSat w)), pend := b.lockSet w })

/-- UPDATE: record `i` of barge `b` (R106, R256). -/
def execUpdate (b i : Nat) (s : State) : Host.Outcome State Fault Refusal :=
  s.engine fun s => s.runRec b i 0x24 updateOk (fun _ => false) (updateEffect i)

/-- A region's merge entries go to the weir; those that cannot be read, or find its half full, are lost (R254;
assumption 20). -/
def State.mergeToWeir (s : State) (r : Nat) : State :=
  let es := s.rows.merge.filter (·.region == r)
  let s : State := { s with rows := { s.rows with merge := s.rows.merge.filter (·.region != r) } }
  es.foldl (fun s e =>
    let s := s.seeEntry e
    if s.entryBad e then s.loseRow
    else
      let d := (e.grads.headD []).length
      let n := e.grads.length
      let g := (List.range d).map fun k => b32 (sumFree (s.picks + k * sumPicks n) (e.grads.map fun v => Word.num (v.getD k 0)))
      let s := s.takePicks (d * sumPicks n)
      let bs := match s.tab e.table with
        | .ok t => updPayload t.seq e.step 0 s.epoch s.selfId kUPDATE e.mult (d / 16) e.table e.row g
        | _ => updPayload 0 e.step 0 s.epoch s.selfId kUPDATE e.mult (d / 16) e.table e.row g
      match s.toWeir { table := e.table, row := e.row, step := e.step, mult := e.mult, grad := g } bs with
      | some s => s
      | none => s.loseRow) s

end Sys2Proof.Machine
end

