-- ==== Sys2Proof/Machine/Matrix.lean ====
section
/-! DEFINITION. MM, the matrix product on tiles (R33, R35, R94), and what its tiles' counters hold (R455). -/

namespace Sys2Proof.Machine

open Sys2Proof

/-! ### Parameters (R94) -/

def mmM (w : Nat) : Nat := recP w 13 0
def mmN (w : Nat) : Nat := recP w 31 16
def mmK (w : Nat) : Nat := recP w 47 32
def mmAccum (w : Nat) : Bool := recP w 48 48 == 1
def mmPair (w : Nat) : Bool := recP w 49 49 == 1

/-- A count of 0, or no tile: no effect (R93). -/
def mmZero (w : Nat) : Bool := mmM w == 0 || mmN w == 0 || mmK w == 0 || recTiles w == 0

/-- Format classes of R33: 8 bits or fewer with a floating point, 16 bits, integers. -/
def fmtF8 (c : Nat) : Bool := 3 ≤ c && c ≤ 9
def fmtF16 (c : Nat) : Bool := c == 1 || c == 2

/-- The pair of formats is listed (R33). -/
def fmtPair (x w : Nat) : Bool :=
  (x == 0 && w == 0) || (fmtInt x && fmtInt w) || (fmtF8 x && fmtF8 w) || (fmtF16 x && (fmtF8 w || fmtF16 w)) || (fmtF8 x && fmtF16 w)

/-- The matrix cycle factor, in halves of a cclk (R33, R166). -/
def mmFactor (x w : Nat) : Nat :=
  if (x == 9 && w == 9) || (x == 12 && w == 12) then 1 else if x == 0 then 32 else if fmtF16 x || fmtF16 w then 8 else 2

/-- A matrix array operand of the rows that an MM reads lies in a space that a tile reads (R86). -/
def mmSpace (o : Opd) : Bool := o.space == spSCRATCH || o.space == spPOOL || o.space == spEXT

/-- W, K rows of N elements, and its scale array lie in their space: the blocks of W run along K, so its scales form
ceil(K/32) rows of N bytes (R29, R30; assumption 22). -/
def State.weightsFit (s : State) (o : Opd) (k n : Nat) : Bool :=
  let size := s.spaceBytes o.space
  let bytes := rowBytes o.fmt n
  k == 0 || n == 0 ||
    (decide (o.addr + (k - 1) * o.stride * 64 + bytes ≤ size) && (o.stride == 0 || decide (upTo bytes 64 ≤ o.stride * 64))
      && (!fmtMX o.fmt || decide (o.addr + 64 * o.scaleOfs + o.rowsRead (rowBlocks k) * n ≤ size)))

/-- R87, R94, R117. -/
def mmOk (s : State) (_ : Barge) (_ : List Nat) (w : Nat) : Bool :=
  let c := recC w
  recP w 127 50 == 0 && recP w 15 14 == 0 && mmM w ≤ 8192 && mmN w ≤ 16384
    && (mmZero w || (mmSpace (recA w) && mmSpace (recB w) && (c.space == spSCRATCH || c.space == spPOOL) && c.stride != 0))
    && fmtPair (recA w).fmt (recB w).fmt && (!mmAccum w || c.fmt == 0)
    && s.rowsFit (recA w) (mmM w) (rowBytes (recA w).fmt (mmK w)) (rowBlocks (mmK w))
    && s.weightsFit (recB w) (mmK w) (mmN w)
    && s.rowsFit c (mmM w) (rowBytes c.fmt (mmN w)) (rowBlocks (mmN w))

/-! ### Products (R35) -/

/-- The multipass binary32 product: within 2 units in the last place of the exact one (assumption 6). -/
def multipass (a b : Num) : Num := nearUlps 2 (Config.multipass (b32 a) (b32 b)) (a.mul b)

/-- Values added exactly. -/
def sumExact (l : List Num) : Num := l.foldl Num.add .zero

/-- Lists cut into blocks of 32. -/
def blocks32 {α : Type} : Nat → List α → List (List α)
  | 0, _ => []
  | fuel + 1, l => if l.isEmpty then [] else l.take 32 :: blocks32 fuel (l.drop 32)

/-- One pair of blocks: its exact products summed exactly and scaled. -/
def blockTerm (p : List (Num × Num)) (sx sw : Option Int) : Num :=
  match sx, sw with
  | some a, some b => (sumExact (p.map fun (x, y) => x.mul y)).scale2 (a + b)
  | _, _ => .nan

/-- The terms that a dot product adds into its accumulator. An operand without block scales counts as blocks of scale 1
beside an MX operand (assumption 79). -/
def dotTerms (fx fw : Nat) (xs ws : List Num) (sx sw : List (Option Int)) : List Num :=
  if fx = 0 then List.zipWith multipass xs ws
  else if fmtMX fx || fmtMX fw then
    (blocks32 (rowBlocks xs.length) (xs.zip ws)).zipIdx.map fun (p, k) => blockTerm p (sx.getD k (some 0)) (sw.getD k (some 0))
  else List.zipWith Num.mul xs ws

/-- The scales of column `n` of W, block by block along K. -/
def State.colScales (s : State) (o : Opd) (st : Store) (k n : Nat) (col : Nat) : List (Option Int) :=
  if fmtMX o.fmt then
    (List.range (rowBlocks k)).map fun i =>
      scaleExp (s.rdNat st (o.addr + 64 * o.scaleOfs + (if o.stride = 0 then 0 else i) * n + col) 1)
  else []

/-- The ranges of W. -/
def weightRanges (o : Opd) (k n : Nat) : List (Nat × Nat) :=
  (List.range k).map (fun i => (o.row i, rowBytes o.fmt n))
    ++ (if fmtMX o.fmt then [(o.addr + 64 * o.scaleOfs, o.rowsRead (rowBlocks k) * n)] else [])

/-- cclk of an MM on one tile (R94). -/
def mmCclk (w : Nat) : Nat := divUp (mmM w * divUp (mmK w) 64 * divUp (mmN w) 128 * mmFactor (recA w).fmt (recB w).fmt) 2

/-- What a paired DELTA brings to row `m`: the terms of column `n`, and marks. -/
structure Correction where
  terms : Nat → Nat → List Num
  taint : Nat → Taint

/-- No correction. -/
def Correction.none : Correction := { terms := fun _ _ => [], taint := fun _ => {} }

/-- Row `m` of the product: sums from choice `base` on, and the choices taken. -/
def mmRow (base : Nat) (acc : Nat → Num) (terms : Nat → List Num) (n : Nat) : List Num × Nat :=
  let r := (List.range n).foldl (fun (p : List Num × Nat) c =>
    let ts := acc c :: terms c
    (sumFree p.2 ts :: p.1, p.2 + sumPicks ts.length)) ([], base)
  (r.1.reverse, r.2 - base)

/-- One tile's product (R94, R120): operands as they stand at its start. -/
def State.mmTile (s : State) (b : Barge) (i w r j : Nat) (corr : Correction) : State :=
  let a := recA w
  let o := recB w
  let c := recC w
  let sa := a.store r j
  let so := o.store r j
  let sc := c.store r j
  let s := (s.seeRows a sa (mmM w) (mmK w)).seeIn so (weightRanges o (mmK w) (mmN w))
  let s := if mmAccum w then s.seeRows c sc (mmM w) (mmN w) else s
  let s0 := s
  let wRows := (List.range (mmK w)).map fun k => s0.rawRow o so k (mmN w)
  let cols := (List.range (mmN w)).map fun n => wRows.map fun row => row.getD n .zero
  let colSc := (List.range (mmN w)).map fun n => s0.colScales o so (mmK w) (mmN w) n
  let tw := s0.taintOf so (weightRanges o (mmK w) (mmN w))
  let s := (List.range (mmM w)).foldl (fun s m =>
    let xs := s0.rawRow a sa m (mmK w)
    let sx := s0.scales a sa m (mmK w)
    let old := if mmAccum w then s0.rowVals c sc m (mmN w) else []
    let (vals, picks) := mmRow s.picks (fun n => old.getD n .zero)
      (fun n => dotTerms a.fmt o.fmt xs (cols.getD n []) sx (colSc.getD n []) ++ corr.terms m n) (mmN w)
    let t := ((s0.rowTaint a sa m (mmK w)).join tw).join (corr.taint m)
    let t := if mmAccum w then t.join (s0.rowTaint c sc m (mmN w)) else t
    let t := { t with pend := t.pend ||| b.lockSet w }
    ((s.takePicks picks).writeRow c sc r m (recSat w) (fun _ => .rne) vals t).notePend b.id i t.pend) s
  s.count (tPage (r * 16 + j)) 0xF00 (mmCclk w)

/-- What an MM reads from external memory, and its C there. -/
def mmExt (w : Nat) : List (Nat × Nat) :=
  (recA w).extRows (mmM w) (mmK w) ++ (if (recB w).space = spEXT then weightRanges (recB w) (mmK w) (mmN w) else [])
    ++ (recC w).extRows (mmM w) (mmN w)

/-- Every tile named. -/
def mmEffect (i : Nat) (s : State) (b : Barge) (w : Nat) : State :=
  (b.tiles w).foldl (fun s (r, j) => s.mmTile b i w r j .none) s

/-- MM: record `i` of barge `b` (R94). One with PAIR set waits for the DELTA that follows it (R95). -/
def execMm (b i : Nat) (s : State) : Host.Outcome State Fault Refusal :=
  s.engine fun s =>
    let s := s.fetchRec b i 0x01 mmOk
    match s.barge? b with
    | some x => if mmPair (s.progRec x i) then s else s.runRec b i 0x01 mmOk mmZero (mmEffect i) fun _ _ w => mmExt w
    | none => s

end Sys2Proof.Machine
end

