-- ==== Sys2Proof/Machine/Attention.lean ====
section
/-! DEFINITION. ATTN (R96, R130), KV pages (R97), KV_APPEND (R98) and KV_COMMIT's record (R99). -/

namespace Sys2Proof.Machine

open Sys2Proof

/-! ### Parameters (R96) -/

def kvRowFirst (w : Nat) : Nat := recP w 13 0
def kvRowCount (w : Nat) : Nat := recP w 29 16
def kvLayer (w : Nat) : Nat := recP w 37 32
def kvHeads (w : Nat) : Nat := recP w 52 48
def kvQHeads (w : Nat) : Nat := recP w 46 40
def kvDim (w : Nat) : Nat := if recP w 59 56 = 0 then 256 else 16 * recP w 59 56
def kvFmt (w : Nat) : Nat := recP w 63 60
def kvSpecVis (w : Nat) : Bool := recP w 64 64 == 1
def kvScale (w : Nat) : Num := fBF16.decode (recP w 95 80)

/-- Elements of a position's key vector (R98). -/
def kvElems (w : Nat) : Nat := kvHeads w * kvDim w

def kvBytes (w : Nat) : Nat := fmtBits (kvFmt w) / 8

/-- The rows named lie in the manifest (R96, R117). -/
def kvRowsOk (b : Barge) (w : Nat) : Bool := kvRowCount w ≤ 8192 && decide (kvRowFirst w + kvRowCount w ≤ b.rows.length)

/-- The checks that ATTN and KV_APPEND share. -/
def kvOk (b : Barge) (w : Nat) : Bool :=
  recP w 55 53 == 0 && recP w 47 47 == 0 && recP w 39 38 == 0 && recP w 31 30 == 0 && recP w 15 14 == 0 && kvRowsOk b w
    && 2 ≤ kvFmt w && kvFmt w ≤ 4 && 1 ≤ kvHeads w && kvHeads w ≤ 16

/-- A manifest row with its number, the index of its first operand row, and its positions: one operand row for each
position (R98; assumption 23). -/
structure KvRow where
  row : Nat
  man : ManRow
  opRow : Nat
  positions : List Nat
deriving DecidableEq, Repr

/-- Rows from `k` on, `n` of them, with operand rows from `o` on. -/
def kvRowsFrom (b : Barge) : Nat → Nat → Nat → List KvRow
  | 0, _, _ => []
  | n + 1, k, o => match b.rows[k]? with
    | some r =>
      let ps := (List.range (if r.kind = 0 then r.draft + 1 else 1)).map (r.position + ·)
      { row := k, man := r, opRow := o, positions := ps } :: kvRowsFrom b n (k + 1) (o + ps.length)
    | none => []

def Barge.kvRows (b : Barge) (w : Nat) : List KvRow := kvRowsFrom b (kvRowCount w) (kvRowFirst w) 0

/-- Operand rows of the named manifest rows. -/
def Barge.kvOpRows (b : Barge) (w : Nat) : Nat := ((b.kvRows w).map (·.positions.length)).foldl (· + ·) 0

/-- No rows, or no tile (R93). -/
def kvZero (w : Nat) : Bool := kvRowCount w == 0 || recTiles w == 0

/-! ### KV pages (R97, R98) -/

inductive KvPage where
  | at (addr : Nat)
  | bad (fate : Nat)
deriving DecidableEq, Repr

/-- Bytes of a page. -/
def pageBytes (w : Nat) : Nat := 2 * 64 * kvElems w * kvBytes w

/-- The page of a position, or the fate that R98 gives. -/
def State.kvPage (s : State) (be : Berth) (w q : Nat) : KvPage :=
  let p := q / 64
  let a := be.pageTable + 8 * (kvLayer w * be.pagesPerLayer + p)
  let e := s.extNat a 8
  if be.pagesPerLayer ≤ p then .bad fCAPACITY
  else if s.extPoison a 8 then .bad fECC
  else if !nbit e 63 then .bad fCFG
  else if nfld e 62 44 != 0 || nfld e 11 0 != 0 || s.populated < nfld e 43 0 + pageBytes w then .bad fCFG
  else .at (nfld e 43 0)

/-- The address of an element of position `q` in a page's K block, or in its V block. -/
def kvAddr (w page q e : Nat) (v : Bool) : Nat := page + ((if v then 64 * kvElems w else 0) + q % 64 * kvElems w + e) * kvBytes w

/-- A SPEC position of the running barge, not discarded. -/
def Barge.spec? (b : Barge) (berth layer q : Nat) : Option SpecPos :=
  b.specs.find? fun p => p.berth == berth && p.layer == layer && p.position == q && !p.discarded

/-! ### ATTN -/

/-- R87, R96. -/
def attnOk (s : State) (b : Barge) (_ : List Nat) (w : Nat) : Bool :=
  let n := b.kvOpRows w
  let d := kvQHeads w * kvDim w
  recP w 127 96 == 0 && recP w 79 65 == 0 && kvOk b w && 1 ≤ kvQHeads w && kvQHeads w ≤ 64 && kvQHeads w % kvHeads w == 0
    && (recB w).none
    && (kvZero w || (mmSpace (recA w) && ((recC w).space == spSCRATCH || (recC w).space == spPOOL) && (recC w).stride != 0))
    && s.rowsFit (recA w) n (rowBytes (recA w).fmt d) (rowBlocks d) && s.rowsFit (recC w) n (rowBytes (recC w).fmt d) (rowBlocks d)

/-- The positions that a row at position `p` attends to (R96, R130). A training row has no KV. -/
def State.visible (s : State) (b : Barge) (w : Nat) (r : ManRow) (p : Nat) : List Nat :=
  if r.kind = 2 then []
  else (List.range (p + 1)).filter fun q => q < (s.berth r.berth).committed || (kvSpecVis w && (b.spec? r.berth (kvLayer w) q).isSome)

/-- The pages of a row's visible positions, or the first fault among them. -/
def State.visiblePages (s : State) (be : Berth) (w : Nat) (qs : List Nat) : Nat ⊕ List (Nat × Nat) :=
  qs.foldr (fun q acc => match s.kvPage be w q with
    | .bad f => .inl f
    | .at a => match acc with
      | .inl f => .inl f
      | .inr l => .inr ((q, a) :: l)) (.inr [])

/-- A head's slice of the key or value of a position. -/
def State.kvVec (s : State) (w page q h : Nat) (v : Bool) : List Num :=
  (unpack (kvFmt w) (kvDim w) (s.ext? (kvAddr w page q (h * kvDim w) v) (kvDim w * kvBytes w))).map (decodeElem (kvFmt w))

/-- The marks of the KV positions that a row reads. -/
def State.kvTaint (s : State) (b : Barge) (w : Nat) (r : ManRow) (qs : List (Nat × Nat)) : Taint :=
  qs.foldl (fun t (q, a) =>
    let bad := s.extPoison (kvAddr w a q 0 false) (kvElems w * kvBytes w) || s.extPoison (kvAddr w a q 0 true) (kvElems w * kvBytes w)
    let sp := if q < (s.berth r.berth).committed then none else b.spec? r.berth (kvLayer w) q
    t.join { pend := (sp.map (·.pend)).getD 0, poison := bad || ((sp.map (·.poison)).getD false) }) {}

/-- The products of a query head, from element `lo` of its row, with a key: those of an MX query summed exactly in each
block and scaled (R35). -/
def qkTerms (fmt lo : Nat) (q k : List Num) (sc : List (Option Int)) : List Num :=
  if fmtMX fmt then
    let ps := (q.zip k).zipIdx.map fun (x, i) => ((lo + i) / 32, x)
    ((ps.map (·.1)).eraseDups).map fun blk => blockTerm ((ps.filter (·.1 == blk)).map (·.2)) (sc.getD blk (some 0)) (some 0)
  else List.zipWith Num.mul q k

/-- The exponential in a softmax: 1 at 0, 0 at −∞, a free value from 0 to 1 below 0 (R96; assumption 21). -/
def softExp (x : Num) : Num :=
  match x with
  | .fin s n _ => if n = 0 then one32 else if s then fB32.decode (Config.softExp (b32 x) % ((b32 one32).toNat + 1)) else .nan
  | .inf s => if s then .zero else .nan
  | .nan => .nan

/-- Softmax weights of scores in binary32: each exponential of a score's distance from the largest, divided by their sum,
whose additions take choices from `base` on (R96, R36). -/
def softmax (base : Nat) (xs : List Num) : List Num :=
  let mx := if xs.any Num.isNan then .nan else numMax xs
  let es := xs.map fun x => softExp (r32 (x.sub mx))
  let sum := sumFree base es
  es.map fun e => r32 (e.div sum)

/-- One query head's output: scores, softmax and the weighted sum, in binary32; with the choices taken (R96). `x` is the
query row without its block scales `sc`. -/
def State.headOut (s : State) (w h base : Nat) (x : List Num) (sc : List (Option Int)) (qs : List (Nat × Nat)) :
    List Num × Nat :=
  let d := kvDim w
  let kh := h * kvHeads w / kvQHeads w
  let q := (x.drop (h * d)).take d
  let per := sumPicks (d + 1)
  if qs.isEmpty then ((List.range d).map fun e => Word.num (Config.noScore (h * d + e)), 0)
  else
    let scores := qs.zipIdx.map fun ((p, a), k) =>
      r32 ((kvScale w).mul (sumFree (base + k * per) (.zero :: qkTerms (recA w).fmt (h * d) q (s.kvVec w a p kh false) sc)))
    let base1 := base + qs.length * per
    let ws := softmax base1 scores
    let vs := qs.map fun (p, a) => s.kvVec w a p kh true
    let base2 := base1 + sumPicks qs.length
    let per2 := sumPicks (qs.length + 1)
    ((List.range d).map fun e =>
      sumFree (base2 + e * per2) (.zero :: List.zipWith (fun (y : Num) (v : List Num) => y.mul (v.getD e .zero)) ws vs),
     qs.length * per + sumPicks qs.length + d * per2)

/-- All heads of one query row. -/
def State.queryOut (s : State) (w base : Nat) (x : List Num) (sc : List (Option Int)) (qs : List (Nat × Nat)) :
    List Num × Nat :=
  (List.range (kvQHeads w)).foldl (fun (p : List Num × Nat) h =>
    let (o, n) := s.headOut w h (base + p.2) x sc qs
    (p.1 ++ o, p.2 + n)) ([], 0)

/-- One query row on one tile (R96, R120): position `p`, operand row `m`. -/
def State.attnRow (s : State) (b : Barge) (i w r j : Nat) (k : KvRow) (m p : Nat) : State :=
  let a := recA w
  let c := recC w
  let be := s.berth k.man.berth
  let n := kvQHeads w * kvDim w
  match s.visiblePages be w (s.visible b w k.man p) with
  | .inl f => s.failRow b.id k.row f
  | .inr qs =>
    let x := s.rawRow a (a.store r j) m n
    let (out, picks) := s.queryOut w s.picks x (s.scales a (a.store r j) m n) qs
    let t := (s.rowTaint a (a.store r j) m n).join (s.kvTaint b w k.man qs)
    let t := { t with pend := t.pend ||| b.lockSet w }
    ((s.takePicks picks).writeRow c (c.store r j) r m (recSat w) (fun _ => .rne) out t).notePend b.id i t.pend

/-- One tile instance; rows left out of later commits are passed over. -/
def State.attnTile (s : State) (b : Barge) (i w r j : Nat) : State :=
  let s := s.seeRows (recA w) ((recA w).store r j) (b.kvOpRows w) (kvQHeads w * kvDim w)
  (b.kvRows w).foldl (fun s k =>
    if k.man.out then s
    else k.positions.zipIdx.foldl (fun s (p, n) => match s.barge? b.id with
      | some x => if x.failed.isSome || ((x.rows[k.row]?).map (·.out)).getD true then s else s.attnRow x i w r j k (k.opRow + n) p
      | none => s) s) s

def attnEffect (i : Nat) (s : State) (b : Barge) (w : Nat) : State :=
  (b.tiles w).foldl (fun s (r, j) => s.attnTile b i w r j) s

/-- The page-table entries and pages of the positions that `f` gives for each manifest row (R97). -/
def State.kvExt (s : State) (b : Barge) (w : Nat) (f : KvRow → List Nat) : List (Nat × Nat) :=
  ((b.kvRows w).filter fun k => k.man.kind != 2).flatMap fun k =>
    let be := s.berth k.man.berth
    (f k).flatMap fun q => (be.pageTable + 8 * (kvLayer w * be.pagesPerLayer + q / 64), 8)
      :: (match s.kvPage be w q with
        | .at a => [(kvAddr w a q 0 false, kvElems w * kvBytes w), (kvAddr w a q 0 true, kvElems w * kvBytes w)]
        | .bad _ => [])

/-- ATTN: record `i` of barge `b` (R96). -/
def execAttn (b i : Nat) (s : State) : Host.Outcome State Fault Refusal :=
  s.engine fun s => s.runRec b i 0x03 attnOk kvZero (attnEffect i) fun s b w =>
    s.kvExt b w fun k => (k.positions.flatMap (s.visible b w k.man)).eraseDups

/-! ### KV_APPEND (R98) -/

/-- W, the elements that each of `t` instances writes. -/
def kvShare (w t : Nat) : Nat := 16 * divUp (kvElems w) (16 * max t 1)

/-- R98, R117. -/
def kvAppendOk (s : State) (b : Barge) (_ : List Nat) (w : Nat) : Bool :=
  let n := b.kvOpRows w
  let e := kvShare w (b.tiles w).length
  recP w 127 64 == 0 && recP w 46 40 == 0 && kvOk b w
    && (kvZero w || (mmSpace (recA w) && mmSpace (recB w) && (recA w).fmt == kvFmt w && (recB w).fmt == kvFmt w))
    && s.rowsFit (recA w) n (rowBytes (recA w).fmt e) 0 && s.rowsFit (recB w) n (rowBytes (recB w).fmt e) 0

/-- A row's positions checked: the page of each, or the fate of the request (R98). -/
def State.appendPages (s : State) (be : Berth) (w : Nat) (ps : List Nat) : Nat ⊕ List (Nat × Nat) :=
  ps.foldr (fun q acc =>
    if q < be.committed then .inl fCFG
    else match s.kvPage be w q with
      | .bad f => .inl f
      | .at a => match acc with
        | .inl f => .inl f
        | .inr l => .inr ((q, a) :: l)) (.inr [])

/-- Instance `k` writes its elements of one position's key and value, from operand row `m`. -/
def State.appendPart (s : State) (w r j k t m q page : Nat) : State :=
  let n := kvShare w t
  let lo := k * n
  let hi := min ((k + 1) * n) (kvElems w)
  if hi ≤ lo then s
  else
    let put := fun (s : State) (o : Opd) (v : Bool) =>
      let st := o.store r j
      s.extWrite (kvAddr w page q lo v) (s.rd st (o.row m) ((hi - lo) * kvBytes w)) (s.rowTaint o st m (hi - lo)).poison
    put (put s (recA w) false) (recB w) true

/-- The marks of what all instances write of one position. -/
def State.appendTaint (s : State) (b : Barge) (w m : Nat) : Taint :=
  let ts := b.tiles w
  let n := kvShare w ts.length
  ts.zipIdx.foldl (fun t ((r, j), k) =>
    let own := min n (kvElems w - k * n)
    if own = 0 then t
    else (t.join (s.rowTaint (recA w) ((recA w).store r j) m own)).join (s.rowTaint (recB w) ((recB w).store r j) m own))
    { pend := b.lockSet w }

/-- A position becomes SPEC, with the marks of its write and its place in memory (R118, R129, R130). -/
def State.putSpec (s : State) (id berth layer q : Nat) (at_ : List (Nat × Nat)) (t : Taint) : State :=
  (s.updBerth berth fun be => { be with
    kv := be.kv.filter (fun x => !(x.layer == layer && x.position == q)) ++ [{ layer := layer, position := q, ranges := at_ }] }).updBarge id
    fun b => { b with
      specs := b.specs.filter (fun p => !(p.berth == berth && p.layer == layer && p.position == q))
        ++ [{ berth := berth, layer := layer, position := q, pend := t.pend, poison := t.poison }] }

/-- The key and the value of a position in a page. -/
def kvRanges (w page q : Nat) : List (Nat × Nat) :=
  [(kvAddr w page q 0 false, kvElems w * kvBytes w), (kvAddr w page q 0 true, kvElems w * kvBytes w)]

/-- One position of one row. -/
def State.appendPos (s : State) (b : Barge) (i w : Nat) (k : KvRow) (m q page : Nat) : State :=
  let ts := b.tiles w
  let t := s.appendTaint b w m
  let s := ts.zipIdx.foldl (fun s ((r, j), n) => s.appendPart w r j n ts.length m q page) s
  (s.putSpec b.id k.man.berth (kvLayer w) q (kvRanges w page q) t).notePend b.id i t.pend

/-- One manifest row. -/
def State.appendRow (s : State) (i w : Nat) (b : Barge) (k : KvRow) : State :=
  if k.man.kind = 2 || k.man.out then s
  else match s.appendPages (s.berth k.man.berth) w k.positions with
    | .inl f => s.failRow b.id k.row f
    | .inr ps => ps.zipIdx.foldl (fun s ((q, a), n) => s.appendPos b i w k (k.opRow + n) q a) s

def kvAppendEffect (i : Nat) (s : State) (b : Barge) (w : Nat) : State :=
  let n := kvShare w (b.tiles w).length
  let s := (b.tiles w).foldl (fun s (r, j) =>
    (s.seeRows (recA w) ((recA w).store r j) (b.kvOpRows w) n).seeRows (recB w) ((recB w).store r j) (b.kvOpRows w) n) s
  (b.kvRows w).foldl (fun s k => match s.barge? b.id with
    | some x =>
      if x.failed.isSome || ((x.rows[k.row]?).map (·.out)).getD true then s else s.appendRow i w x k
    | none => s) s

/-- KV_APPEND: record `i` of barge `b` (R98). -/
def execKvAppend (b i : Nat) (s : State) : Host.Outcome State Fault Refusal :=
  s.engine fun s => s.runRec b i 0x30 kvAppendOk kvZero (kvAppendEffect i) fun s b w => s.kvExt b w (·.positions)

/-! ### KV_COMMIT (R99) -/

/-- R99. -/
def kvCommitOk (s : State) (b : Barge) (_ : List Nat) (w : Nat) : Bool :=
  let n := kvRowCount w
  recP w 127 30 == 0 && recP w 15 14 == 0 && kvRowsOk b w && (recC w).none
    && (n == 0 || (mmSpace (recA w) && mmSpace (recB w)))
    && s.rawFits (recA w) n && (recB w).fmt == 0 && (n == 0 || (recB w).stride != 0) && s.rowsFit (recB w) n 64 0

/-- COMMIT and EMIT are within their ranges for the row's kind (R99). -/
def commitByteOk (r : ManRow) (c : Nat) : Bool :=
  let commit := c % 16
  let emit := c / 16
  if r.kind = 0 then commit ≤ r.draft + 1 && emit ≤ 9
  else if r.kind = 1 then commit ≤ 1 && emit ≤ 9
  else commit == 0 && emit == 0

/-- The SPEC positions that a row commits, in every layer (R121, R131). -/
def Barge.commitSpecs (b : Barge) (r : ManRow) (commit : Nat) : List SpecPos :=
  b.specs.filter fun p => r.kind != 2 && p.berth == r.berth && r.position ≤ p.position && p.position < r.position + commit

/-- The commit unit of operand byte `k` (R121). -/
def State.commitRow (s : State) (i w r j : Nat) (b : Barge) (k : Nat) : State :=
  let row := kvRowFirst w + k
  match b.rows[row]? with
  | none => s
  | some m =>
    if m.out then s
    else
      let sa := (recA w).store r j
      let sb := (recB w).store r j
      let c := s.rdNat sa ((recA w).addr + k) 1
      let t := s.taint sa ((recA w).addr + k) 1
      if !commitByteOk m c && !t.poison then
        s.addUnit { b := b.id, i := i, key := row, act := .fails (some row) fCFG, rows := [row], pend := b.lockSet w ||| t.pend }
      else
        let emit := min (c / 16) 9
        let toks := groups 4 emit (s.rd sb ((recB w).row k) (4 * emit))
        let t := if emit = 0 then t else t.join (s.taint sb ((recB w).row k) (4 * emit))
        let sp := b.commitSpecs m (c % 16)
        s.addUnit { b := b.id, i := i, key := row, act := .kvCommit row (c % 16) toks, rows := [row]
                    pend := b.lockSet w ||| t.pend ||| joinAll (sp.map (·.pend)), poison := t.poison || sp.any (·.poison) }

/-- The lists are read by the lowest instance named, so each row is committed once (R121; assumption 24). -/
def kvCommitEffect (i : Nat) (s : State) (b : Barge) (w : Nat) : State :=
  match b.regionInstances w with
  | (r, j) :: _ =>
    let s := s.seeIn ((recA w).store r j) [((recA w).addr, kvRowCount w)]
    let s := s.seeIn ((recB w).store r j) ((List.range (kvRowCount w)).map fun k => ((recB w).row k, 36))
    (List.range (kvRowCount w)).foldl (fun s k => match s.barge? b.id with
      | some x => if x.failed.isSome then s else s.commitRow i w r j x k
      | none => s) s
  | [] => s

/-- KV_COMMIT: record `i` of barge `b` (R99). -/
def execKvCommit (b i : Nat) (s : State) : Host.Outcome State Fault Refusal :=
  s.engine fun s => s.runRec b i 0x31 kvCommitOk (fun w => kvRowCount w == 0) (kvCommitEffect i) fun _ _ w =>
    (recA w).extBytes (kvRowCount w)
      ++ (if (recB w).space = spEXT then (List.range (kvRowCount w)).map fun k => ((recB w).row k, 36) else [])

end Sys2Proof.Machine
end

