-- ==== Sys2Proof/Machine/Bell.lean ====
section
/-! DEFINITION. The bell: levels and ranks (R346), bell messages (R362), and the tree that carries contributions up to a
level's master and its results down (R354, R360, R363, R364). -/

namespace Sys2Proof.Machine

open Sys2Proof

/-! ### Levels (R346) -/

/-- Sizes of the board, inner, outer and hall rings. -/
def State.ringSizes (s : State) : List Nat :=
  [max 1 s.boardEngines, max 1 (min s.rackBoards 8), if s.rackBoards ≤ 8 then 1 else s.rackBoards / 8, max 1 s.hallRacks]

/-- An engine's indexes on them. -/
def ringIdx (id : Nat) : List Nat := [idPos id, idBoard id % 8, idBoard id / 8, idRack id]

/-- How many of the rings a level spans. -/
def levelRings (level : Nat) : Nat := if level = 0 then 1 else if level = 1 then 3 else 4

def State.levelMembers (s : State) (level : Nat) : Nat := (s.ringSizes.take (levelRings level)).foldl (· * ·) 1

/-- An engine's rank at a level. -/
def State.rankOf (s : State) (level id : Nat) : Nat :=
  ((s.ringSizes.zip (ringIdx id)).take (levelRings level)).foldr (fun (n, i) acc => i + n * acc) 0

/-- The index on ring `k` of the member of rank `r`. -/
def State.rankDigit (s : State) (r k : Nat) : Nat := r / (s.ringSizes.take k).foldl (· * ·) 1 % s.ringSizes.getD k 1

/-- The master of a tier of a level's tree (R17, R339, R363); the engine itself where it is the level's only member. -/
def State.tierMaster (s : State) (level tier : Nat) : Nat :=
  if s.levelMembers level = 1 then s.selfId
  else if tier = 0 then s.boardMaster
  else if tier = 1 then fld (s.cfg pFAB 0x108) 12 0 else fld (s.cfg pFAB 0x10C) 12 0

/-- Members below a tier. -/
def State.tierNeed (s : State) (tier : Nat) : Nat := s.levelMembers tier

/-- The tier at which a message from `src` is combined here. -/
def State.tierFrom (s : State) (level src : Nat) : Option Nat :=
  if src / 8 == s.selfId / 8 && s.tierMaster level 0 == s.selfId then some 0
  else if 1 ≤ level && idRack src == idRack s.selfId && s.tierMaster level 1 == s.selfId then some 1
  else if 2 ≤ level && s.tierMaster level 2 == s.selfId then some 2 else none

/-- The tiers from the board's up that this engine holds without a gap. -/
def State.tiersHeld (s : State) (level : Nat) : Nat :=
  ((List.range (level + 1)).takeWhile fun t => s.tierMaster level t == s.selfId).length

/-! ### Messages (R362) -/

def bARRIVE : Nat := 1
def bGRANT : Nat := 2
def bOFFER : Nat := 3
def bSEGMENT : Nat := 4
def bBARRIER : Nat := 5
def bSCALAR : Nat := 6
def bSEAL : Nat := 7
def bABORT : Nat := 8
def bABANDON : Nat := 9

/-- The kind that answers a kind sent upward. -/
def downKind (k : Nat) : Nat := if k = bARRIVE then bGRANT else if k = bOFFER then bSEGMENT else if k = bABANDON then bABORT else k

structure BellMsg where
  key : BellKey
  kind : Nat
  down : Bool := false
  attempt : Nat := 0
  fail : Bool := false
  seq : Nat := 0
  count : Nat := 0
  value : List Byte := []
  /-- the value is poisoned (R350) -/
  poison : Bool := false
deriving DecidableEq, Repr

/-- The payload of a bell message. -/
def bellPayload (m : BellMsg) : List Byte :=
  leBytes 16 (m.count % 2 ^ 16 * 2 ^ 96 + m.seq % 2 ^ 32 * 2 ^ 64 + m.key.cls % 32 * 2 ^ 59 + bit m.key.barrier * 2 ^ 58
    + m.key.collId % 64 * 2 ^ 52 + m.key.use % 2 ^ 16 * 2 ^ 32 + bit m.fail * 2 ^ 12 + m.attempt % 2 * 2 ^ 11
    + bit m.down * 2 ^ 10 + m.key.level % 4 * 2 ^ 8 + m.kind % 256) ++ m.value

/-- A bell message read from its packet. -/
def bellMsg (p : Packet) : BellMsg :=
  let h := leNat (p.payload.take 16)
  { key := { cls := nfld h 63 59, barrier := nbit h 58, collId := nfld h 57 52, use := nfld h 47 32, level := nfld h 9 8 }
    kind := nfld h 7 0, down := nbit h 10, attempt := nfld h 11 11, fail := nbit h 12, seq := nfld h 95 64, count := nfld h 111 96
    value := p.payload.drop 16, poison := anyBad p }

/-- The kind is one of R362. -/
def bellKindOk (k : Nat) : Bool := 1 ≤ k && k ≤ 9

/-- A bell message as a packet to an engine; a poisoned value marks every unit of the payload that holds it (R328). -/
def State.bellPacket (s : State) (dest : Nat) (m : BellMsg) : Packet :=
  let bs := bellPayload m
  { dest := dest, src := s.selfId, vc := 0, op := 8, epoch := s.epoch, len := bs.length, payload := bs
    poison := poisonMap (if m.poison then List.range (divUp bs.length 64) else []) }

/-! ### Digests of scalar messages (R359, R364) -/

/-- Contexts that meet `p` changed. -/
def State.mapCtx (s : State) (p : Ctx → Bool) (f : Ctx → Ctx) : State :=
  { s with col := { s.col with ctxs := mapIf s.col.ctxs p f } }

/-- The digest of bytes sent by the member of a rank (R359). -/
def digest (seq attempt stage step piece rank : Nat) (bs : List Byte) : BitVec 64 :=
  crc64 (Config.digestHead seq attempt stage step piece rank ++ bs)

/-- The digest of a SCALAR message from engine `src`. -/
def State.scalarDigest (s : State) (m : BellMsg) (src : Nat) : BitVec 64 :=
  digest m.seq m.attempt 0 0 0 (s.rankOf m.key.level src) m.value

/-- A SCALAR message sent to another engine enters SENT. -/
def State.noteSent (s : State) (dest : Nat) (m : BellMsg) : State :=
  if m.kind = bSCALAR && dest != s.selfId then
    s.mapCtx (fun c => c.key == m.key && c.attempt == m.attempt) fun c => { c with sent := c.sent ^^^ s.scalarDigest m s.selfId }
  else s

/-- A SCALAR message received from another engine enters RECV. -/
def State.noteRecv (s : State) (src : Nat) (m : BellMsg) : State :=
  if m.kind = bSCALAR && src != s.selfId then
    s.mapCtx (fun c => c.key == m.key && c.attempt == m.attempt) fun c => { c with recv := c.recv ^^^ s.scalarDigest m src }
  else s

/-! ### Sending -/

/-- A bell message sent. -/
def State.sendBell (s : State) (dest : Nat) (m : BellMsg) : State :=
  (s.noteSent dest m).send (s.bellPacket dest m)

/-- A bell message sent upward, which waits for its answer (R363). -/
def State.sendUp (s : State) (dest : Nat) (m : BellMsg) : State :=
  let s := s.sendBell dest m
  let x : BellWait := { p := s.bellPacket dest m, key := m.key, kind := m.kind, since := s.now }
  { s with col := { s.col with waits := s.col.waits ++ [x] } }

/-- The answer to the messages of a key has come. -/
def State.answered (s : State) (m : BellMsg) : State :=
  { s with col := { s.col with waits := s.col.waits.filter fun x => !(x.key == m.key && (m.kind == bABORT || downKind x.kind == m.kind)) } }

/-! ### Results -/

/-- A result kept by a tier; the 256 most recent of each level stay (R363). -/
def State.keepResult (s : State) (m : BellMsg) : State :=
  let l := m.key.level
  let mine := (s.col.results.filter (·.1 == l)).take 255
  { s with col := { s.col with results := (l, s.bellPacket 0 m) :: (mine ++ s.col.results.filter (·.1 != l)) } }

/-- The result that answers a message sent upward, if it is out. -/
def State.bellResult? (s : State) (m : BellMsg) : Option Packet :=
  (s.col.results.find? fun (_, p) =>
    let r := bellMsg p
    r.key == m.key && (r.kind == bABORT || (r.kind == downKind m.kind && r.attempt == m.attempt))).map (·.2)

/-! ### Reduction (R350) -/

/-- Order of the values of a format, with −0 below +0. -/
def ordKey (width x : Nat) : Int :=
  if nbit x (width - 1) then -((x % 2 ^ (width - 1) : Nat) : Int) - 1 else ((x % 2 ^ (width - 1) : Nat) : Int)

/-- Two elements of binary32 or BF16 reduced (R350). -/
def reduceElem (fmt redOp x y : Nat) : Nat :=
  let f := if fmt = 0 then fB32 else fBF16
  let a := f.decode x
  let b := f.decode y
  if redOp = 0 then (f.narrow false .rne (r32 (a.add b))).bits
  else if a.isNan || b.isNan then f.nan
  else if redOp = 1 then (if ordKey f.width x < ordKey f.width y then y else x)
  else if ordKey f.width y < ordKey f.width x then y else x

/-- Bytes of elements reduced one by one. -/
def reduceBytes (fmt redOp : Nat) (xs ys : List Byte) : List Byte :=
  let k := if fmt = 0 then 4 else 2
  ((groups k (xs.length / k) xs).zip (groups k (ys.length / k) ys)).flatMap fun (x, y) => leBytes k (reduceElem fmt redOp x y)

/-- Contributions reduced in an order that only `Config.addPick` knows (R36). -/
def reduceFree (fmt redOp : Nat) : Nat → Nat → List (List Byte) → List Byte
  | _, _, [] => []
  | _, _, [x] => x
  | 0, _, x :: _ => x
  | fuel + 1, base, xs =>
    let i := Config.addPick base % xs.length
    let ys := xs.eraseIdx i
    let j := Config.addPick (base + 1) % ys.length
    reduceFree fmt redOp fuel (base + 2) (reduceBytes fmt redOp (xs.getD i []) (ys.getD j []) :: ys.eraseIdx j)

/-! ### Combining (R363) -/

/-- The fields of an ARRIVE value. -/
def arriveRedOp (v : List Byte) : Nat := nfld (leNat v) 3 2
def arriveFmt (v : List Byte) : Nat := nfld (leNat v) 7 4

/-- The ARRIVE value kept for a key at a tier. -/
def State.arrivedAt (s : State) (k : BellKey) (t : Nat) : Option Arrived := s.col.arrived.find? fun a => a.key == k && a.tier == t

/-- The value that a complete tier passes on. -/
def State.tierValue (s : State) (e : Tier) : List Byte :=
  if e.kind = bARRIVE then e.values.headD []
  else if e.kind = bOFFER then leBytes 4 ((e.values.map fun v => leNat (v.take 4)).foldl min (2 ^ 32 - 1))
  else if e.kind = bSCALAR then
    let v := ((s.arrivedAt e.key e.tier).map (·.value)).getD []
    reduceFree (arriveFmt v) (arriveRedOp v) e.values.length s.picks e.values
  else if e.kind = bSEAL then
    leBytes 8 ((e.values.map fun v => leNat (v.take 8)).foldl Nat.xor 0)
      ++ leBytes 8 ((e.values.map fun v => leNat ((v.drop 8).take 8)).foldl Nat.xor 0)
  else []

/-- The message that a complete tier passes on. FAIL of an ARRIVE says that the values below differ. -/
def State.tierMsg (s : State) (e : Tier) : BellMsg :=
  { key := e.key, kind := e.kind, attempt := e.attempt, seq := e.seq, count := e.count, value := s.tierValue e, poison := e.poison
    fail := e.fail || (e.kind == bARRIVE && e.values.any (· != e.values.headD [])) }

def Tier.is (e : Tier) (m : BellMsg) (t : Nat) : Bool := e.key == m.key && e.kind == m.kind && e.tier == t && e.attempt == m.attempt

/-- The collection that a message belongs to. -/
def State.tierOf (s : State) (t : Nat) (m : BellMsg) : Tier :=
  (s.col.tiers.find? (·.is m t)).getD { key := m.key, kind := m.kind, tier := t, attempt := m.attempt, seq := m.seq, since := s.now }

/-- A contribution added to it. -/
def Tier.add (e : Tier) (src : Nat) (m : BellMsg) : Tier :=
  { e with
    count := e.count + m.count
    from_ := e.from_ ++ [src]
    values := e.values ++ [m.value]
    fail := e.fail || m.fail
    poison := e.poison || m.poison }

/-- The collection stored. -/
def State.putTier (s : State) (t : Nat) (m : BellMsg) (e : Tier) : State :=
  { s with col := { s.col with tiers := s.col.tiers.filter (fun x => !x.is m t) ++ [e] } }

/-! ### Results on their way down -/

/-- The sources below a tier for a key. -/
def State.children (s : State) (k : BellKey) (t : Nat) : List Nat :=
  match s.arrivedAt k t with
  | some a => a.from_
  | none => ((s.col.tiers.filter fun e => e.key == k && e.tier == t).flatMap (·.from_)).eraseDups

/-- A result that ends its key. -/
def BellMsg.last (m : BellMsg) : Bool := m.kind == bABORT || (m.kind == bSEAL && (!m.fail || m.attempt == 1))

/-- A tier sends a result to the sources below it. -/
def State.spreadAt (s : State) (t : Nat) (m : BellMsg) : State :=
  let cs := s.children m.key t
  let s := { s with
    col := { s.col with
      tiers := s.col.tiers.filter fun e => !(e.key == m.key && e.tier == t && (m.kind == bABORT || downKind e.kind == m.kind))
      arrived := s.col.arrived.filter fun a => !(a.key == m.key && a.tier == t && m.last) } }
  cs.foldl (fun s c => if c = s.selfId && t != 0 then s else s.sendBell c m) s

/-- A result goes down from tier `t`. A message to the engine itself waits among the packets received. -/
def State.bellSpread : Nat → State → BellMsg → State
  | 0, s, m => s.spreadAt 0 m
  | t + 1, s, m => if (s.children m.key (t + 1)).contains s.selfId then ((s.spreadAt (t + 1) m).bellSpread t m) else s.spreadAt (t + 1) m

/-- The next sequence number of a level (R17). -/
def State.takeLevelSeq (s : State) (level : Nat) : Nat × State :=
  let n := SMap.get (fun _ => 0) s.col.nextSeq level
  (n, { s with col := { s.col with nextSeq := SMap.put (fun _ => 0) s.col.nextSeq level ((n + 1) % 2 ^ 32) } })

/-- The master's result for a message that carries every member's contribution (R354, R360, R364). -/
def State.judge (s : State) (m : BellMsg) : BellMsg × State :=
  let d : BellMsg := { m with kind := downKind m.kind, down := true, fail := false }
  if m.kind = bARRIVE then
    (if m.fail then ({ d with kind := bABORT, value := leBytes 1 1 }, s)
     else let (n, s) := s.takeLevelSeq m.key.level; ({ d with seq := n, value := [] }, s))
  else if m.kind = bBARRIER then (let (n, s) := s.takeLevelSeq m.key.level; ({ d with seq := n, value := [] }, s))
  else if m.kind = bSEAL then ({ d with fail := m.fail || m.value.take 8 != (m.value.drop 8).take 8, value := [] }, s)
  else (d, s)

/-- The master sends a result to every member. -/
def State.resultOut (s : State) (m : BellMsg) : State := (s.keepResult m).bellSpread m.key.level m

/-- What a tier keeps of a complete ARRIVE (R354). -/
def State.keepArrived (s : State) (e : Tier) : State :=
  if e.kind = bARRIVE then
    { s with col := { s.col with arrived := s.col.arrived ++ [{ key := e.key, tier := e.tier, from_ := e.from_, value := e.values.headD [] }] } }
  else s

/-- A contribution reaches tier `t` of this engine (R363). `fuel` counts the tiers above it. -/
def State.bellUp : Nat → State → Nat → Nat → BellMsg → State
  | 0, s, _, _, _ => s
  | fuel + 1, s, t, src, m0 =>
    let m : BellMsg := if m0.kind = bABANDON && m0.key.barrier then { m0 with kind := bBARRIER, count := 1 } else m0
    match s.bellResult? m with
    | some r => s.send { r with dest := src }
    | none =>
      if m.kind = bABANDON then
        (if t = m.key.level then
          let a : BellMsg := { key := m.key, kind := bABORT, down := true, attempt := m.attempt, seq := m.seq, value := leBytes 1 2 }
          let s' := s.resultOut a
          if (s.children m.key t).contains src then s' else s'.sendBell src a
         else
          let up := s.tierMaster m.key.level (t + 1)
          if up = s.selfId then State.bellUp fuel s (t + 1) s.selfId m
          else if s.col.waits.any fun x => x.key == m.key && x.kind == bABANDON then s else s.sendUp up m)
      else
        let e := s.tierOf t m
        if e.from_.contains src || e.passed then s
        else
          let e := e.add src m
          let s := s.noteRecv src m
          if e.count < s.tierNeed t then s.putTier t m e
          else
            let s := s.putTier t m { e with passed := true }
            let up := s.tierMsg e
            let s := s.keepArrived e
            let s := if e.kind = bSCALAR then { s with picks := s.picks + 2 * e.values.length } else s
            if t = m.key.level then (let (r, s) := s.judge up; s.resultOut r)
            else
              let w := s.tierMaster m.key.level (t + 1)
              if w = s.selfId then State.bellUp fuel s (t + 1) s.selfId up else s.sendUp w up

/-- A member's own message sent towards the master. -/
def State.contribute (s : State) (m : BellMsg) : State :=
  let w := s.tierMaster m.key.level 0
  if w = s.selfId then State.bellUp 4 s 0 s.selfId { m with count := 1 } else s.sendUp w { m with count := 1 }

/-! ### Receiving -/

/-- A bell message towards the master arrives. -/
def State.bellFromBelow (s : State) (p : Packet) (m : BellMsg) : State :=
  match s.tierFrom m.key.level p.src with
  | some t => State.bellUp 4 s t p.src m
  | none => s

/-- A bell message from the master arrives: the tiers held here pass it on, and a member acts on it. -/
def State.bellFromAbove (s : State) (p : Packet) (m : BellMsg) (act : State → State) : State :=
  let waited := s.col.waits.any fun x => x.key == m.key && downKind x.kind == m.kind
  let s := (if waited then s.noteRecv p.src m else s).answered m
  let k := s.tiersHeld m.key.level
  if p.src = s.selfId || k = 0 then act s
  else
    let none := (s.children m.key (k - 1)).isEmpty
    let s := (s.keepResult m).bellSpread (k - 1) m
    if none then act s else s

/-- A BELL packet of one kind arrives (R362). One of a reserved kind is dropped. -/
def State.bell (s : State) (p : Packet) (kind : Nat) (up : State → BellMsg → State) (down : State → BellMsg → State) : State :=
  if p.op != 8 || p.dest != s.selfId || (bellKindOk (bellMsg p).kind && (bellMsg p).kind != kind) then s
  else if !s.packetTurn p (s.flowOf p) then s.waitTurn p
  else if !packetOk p || !bellKindOk (bellMsg p).kind then (s.take p).badPacket
  else
    let m := bellMsg p
    if m.down then down (s.take p) m else up (s.take p) m

end Sys2Proof.Machine
end

