-- ==== Sys2Proof/Machine/Collectives.lean ====
section
/-! DEFINITION. COLL, SEAL and BARRIER (R107 to R109, R133 to R136, R255), and what the bell and the rings do for them
(R346 to R361, R364, R365). -/

namespace Sys2Proof.Machine

open Sys2Proof

/-! ### Parameters (R107, R108) -/

def cKind (w : Nat) : Nat := recP w 1 0
def cRedOp (w : Nat) : Nat := recP w 3 2
def cLevel (w : Nat) : Nat := recP w 5 4
def cColl (w : Nat) : Nat := recP w 13 8
def cLock (w : Nat) : Nat := recP w 19 16
def cEarly (w : Nat) : Bool := recP w 20 20 == 1
def cBytes (w : Nat) : Nat := recP w 63 32
def cSeg (w : Nat) : Nat := recP w 68 64

/-- Bytes that C receives on a level of `n` members (R348). -/
def collOut (w n : Nat) : Nat :=
  if cKind w = 1 then cBytes w / n else if cKind w = 2 then n * cBytes w else cBytes w

/-- BYTES suits the kind (R348). -/
def collLen (w n : Nat) : Bool :=
  if cKind w = 1 then cBytes w % (64 * n) == 0
  else if cKind w = 3 then cBytes w ≤ 64 && cBytes w % (if (recA w).fmt = 0 then 4 else 2) == 0
  else cBytes w % 64 == 0

/-- The COLL of a COLL_ID that no SEAL of the list has closed. -/
def collOpen (recs : List Nat) (id : Nat) : Option Nat :=
  recs.foldl (fun o v =>
    if recOp v = 0x40 && cColl v = id then some v else if recOp v = 0x41 && recP v 5 0 = id then none else o) none

/-- R107, R134, R348. -/
def collOk (s : State) (b : Barge) (earlier : List Nat) (w : Nat) : Bool :=
  let n := s.levelMembers (cLevel w)
  let a := recA w
  let c := recC w
  let sp := fun (o : Opd) => o.space == spEXT || o.space == spPOOL
  recP w 127 69 == 0 && recP w 31 21 == 0 && recP w 15 14 == 0 && recP w 7 6 == 0
    && cLevel w != 3 && cRedOp w != 3 && 16 ≤ cSeg w && cSeg w ≤ 25
    && (recB w).none && sp a && sp c && c.stride != 0 && a.fmt == c.fmt && (a.fmt == 0 || a.fmt == 2)
    && collLen w n && decide (a.addr + cBytes w ≤ s.spaceBytes a.space) && decide (c.addr + collOut w n ≤ s.spaceBytes c.space)
    && !(a.space == c.space && decide (a.addr < c.addr + collOut w n) && decide (c.addr < a.addr + cBytes w))
    && (collOpen earlier (cColl w)).isNone
    && (earlier.any fun v => recOp v == 0x50 && recP v 3 0 == cLock w && recRegions v == 2 ^ b.need - 1)
    && !(earlier.any fun v => recOp v == 0x40 && cLock v == cLock w)

/-- R108. -/
def sealOk (_ : State) (_ : Barge) (earlier : List Nat) (w : Nat) : Bool :=
  recP w 127 12 == 0 && match collOpen earlier (recP w 5 0) with
    | some v => cLock v == recP w 11 8
    | none => false

/-- R109. -/
def barrierOk (_ : State) (_ : Barge) (_ : List Nat) (w : Nat) : Bool :=
  recP w 31 3 == 0 && recP w 127 64 == 0 && recP w 1 0 != 3 && (recA w).none && (recB w).none && (recC w).none

/-! ### Contexts -/

/-- The barge of a context still runs its program. -/
def State.ctxLive (s : State) (c : Ctx) : Bool := match s.barge? c.b with | some b => b.failed.isNone | none => false

def State.ctx? (s : State) (p : Ctx → Bool) : Option Ctx := s.col.ctxs.find? p

/-- The context with a slot changed. -/
def State.updCtx (s : State) (slot : Nat) (f : Ctx → Ctx) : State := s.mapCtx (·.slot == slot) f

/-- CLASS of a barge (R353). -/
def Barge.cls (b : Barge) : Nat := if b.solo then 16 else b.mooring

/-- One more COLL of a class and COLL_ID, and its count (R353). -/
def State.useColl (s : State) (cls id : Nat) : Nat × State :=
  let n := (((s.col.uses.find? (·.1 == (cls, id))).map (·.2)).getD 0 + 1) % 2 ^ 16
  (n, { s with col := { s.col with uses := ((cls, id), n) :: s.col.uses.filter (·.1 != (cls, id)) } })

/-- The store of an operand of an engine op. -/
def Barge.opdStore (b : Barge) (w : Nat) (o : Opd) : Store := o.store ((b.physOf (recRegions w)).headD 0) 0

/-- The lock of a collective. -/
def Ctx.mask (c : Ctx) : LockMask := BitVec.ofNat 16 (2 ^ c.lockId)

/-- The words of a C range in external memory are pending on the lock from the start (R135). -/
def State.markRange (s : State) (b : Barge) (w : Nat) (c : Ctx) : State :=
  if (recC w).space = spEXT then
    (wordsOf (recC w).addr c.outBytes).foldl (fun s k =>
      s.setMark (Store.ext.key k) { s.mark (Store.ext.key k) with pend := c.mask }) s
  else s.notePend b.id c.i (b.lockSet w)

/-! ### Claims (R355, R356) -/

/-- Segment buffers claimed in the pound for a level, in KiB. -/
def State.poundUsed (s : State) (level : Nat) : Nat :=
  (s.col.ctxs.map fun c => match c.claim with | .pound k => if c.key.level = level then k else 0 | _ => 0).foldl (· + ·) 0

/-- Spill room taken in region `r`, and in the external area. -/
def State.spillUsed (s : State) (r : Nat) : Nat :=
  (s.col.ctxs.map fun c => match c.claim with | .poolSpill q k => if q = r then k else 0 | _ => 0).foldl (· + ·) 0
def State.xspillUsed (s : State) : Nat :=
  (s.col.ctxs.map fun c => match c.claim with | .extSpill k => k | _ => 0).foldl (· + ·) 0

/-- A member's offer in KiB, its claim, and the counter of COL that it adds to. -/
def State.offerOf (s : State) (c : Ctx) : Nat × Claim × Option Nat :=
  let want := 2 ^ (c.segLog2 - 10)
  let f := s.cfgN pCOL (0x100 + 4 * c.key.level) - s.poundUsed c.key.level
  let r := match s.barge? c.b with | some b => (b.regions.foldl min (b.regions.headD 0)) | none => 0
  if 2 * want ≤ f then (want, .pound (2 * want), none)
  else if 128 ≤ f then (2 ^ Nat.log2 (f / 2), .pound (2 * 2 ^ Nat.log2 (f / 2)), some 0xF0C)
  else if s.spillUsed r + 128 ≤ s.cfgN pCOL 0x110 then (64, .poolSpill r 128, some 0xF10)
  else if s.xspillUsed + 128 ≤ 1024 * s.cfgN pCOL 0x11C then (64, .extSpill 128, some 0xF14)
  else (0, .none, none)

/-! ### Chunks, pieces and stages (R347, R349, R351) -/

/-- The size of a chunk, and of the whole working data. -/
def State.chunkOf (s : State) (c : Ctx) : Nat :=
  let n := s.levelMembers c.key.level
  if c.kind = 0 then 64 * divUp c.bytes (64 * n) else if c.kind = 1 then c.bytes / n else c.bytes
def State.totalOf (s : State) (c : Ctx) : Nat := if c.kind = 2 then s.levelMembers c.key.level * c.bytes else c.bytes

/-- The stages of a collective, as stage codes of R358. -/
def collStages (kind level : Nat) : List Nat :=
  let k := levelRings level
  (if kind = 2 then [] else List.range k) ++ (if kind = 1 then [] else (List.range k).reverse.map (4 + ·))

/-- The byte spans of the working data that piece `j` of a stage holds, in rank order: the chunks of the members with index
`j` on the stage's ring and this member's indexes on the rings before it. -/
def State.pieceSpans (s : State) (c : Ctx) (stage j : Nat) : List (Nat × Nat) :=
  let me := ringIdx s.selfId
  let k := stage % 4
  let z := s.chunkOf c
  let total := s.totalOf c
  ((List.range (s.levelMembers c.key.level)).filter fun r =>
      s.rankDigit r k == j && (List.range k).all fun i => s.rankDigit r i == me.getD i 0).filterMap fun r =>
    let lo := min (r * z) total
    let hi := min ((r + 1) * z) total
    if lo < hi then some (lo, hi - lo) else none

def spansLen (sp : List (Nat × Nat)) : Nat := (sp.map (·.2)).foldl (· + ·) 0

/-- The bytes of a piece. -/
def spanBytes (work : List Byte) (sp : List (Nat × Nat)) : List Byte := sp.flatMap fun (a, n) => (work.drop a).take n

/-- The 64-byte units of the working data in the order of a piece. -/
def spanUnits (sp : List (Nat × Nat)) : List Nat := sp.flatMap fun (a, n) => (List.range (divUp n 64)).map (a / 64 + ·)

/-- Bytes of a piece put back into the working data. -/
def putSpans (work : List Byte) : List (Nat × Nat) → List Byte → List Byte
  | [], _ => work
  | (a, n) :: sp, bs => putSpans (work.take a ++ bs.take n ++ work.drop (a + n)) sp (bs.drop n)

/-- The piece that the member at index `i` of a ring of `n` receives, and sends first. -/
def recvPiece (stage i n step : Nat) : Nat := if stage < 4 then (i + 2 * n - step - 2) % n else (i + 2 * n - step - 1) % n
def firstPiece (stage i n : Nat) : Nat := if stage < 4 then (i + n - 1) % n else i

/-- The next member on a stage's ring. -/
def State.nextOn (s : State) (stage : Nat) : Nat :=
  let k := stage % 4
  let me := s.selfId
  let n := s.ringSizes.getD k 1
  let i := ((ringIdx me).getD k 0 + 1) % n
  if k = 0 then idOf (idRack me) (idBoard me) i
  else if k = 1 then idOf (idRack me) (idBoard me / 8 * 8 + i) (idPos me)
  else if k = 2 then idOf (idRack me) (i * 8 + idBoard me % 8) (idPos me)
  else idOf i (idBoard me) (idPos me)

/-! ### Pieces as packets (R358) -/

/-- A piece header. -/
structure PieceHdr where
  digest : Nat := 0
  offset : Nat
  len : Nat
  piece : Nat
  step : Nat
  stage : Nat
  last : Bool
  attempt : Nat
  level : Nat
  seq : Nat
deriving DecidableEq, Repr

def pieceHeader (h : PieceHdr) : List Byte :=
  leBytes 64 (h.digest % 2 ^ 64 * 2 ^ 256 + h.offset % 2 ^ 32 * 2 ^ 224 + h.len % 2 ^ 32 * 2 ^ 192 + h.piece % 2 ^ 32 * 2 ^ 160
    + h.step % 2 ^ 8 * 2 ^ 152 + h.stage % 8 * 2 ^ 146 + bit h.last * 2 ^ 145 + h.attempt % 2 * 2 ^ 144 + h.level % 4 * 2 ^ 140
    + h.seq % 2 ^ 32 * 2 ^ 96)

def pieceHdr (p : Packet) : PieceHdr :=
  let h := leNat (p.payload.take 64)
  { digest := nfld h 319 256, offset := nfld h 255 224, len := nfld h 223 192, piece := nfld h 191 160, step := nfld h 159 152
    stage := nfld h 148 146, last := nbit h 145, attempt := nfld h 144 144, level := nfld h 141 140, seq := nfld h 127 96 }

/-- An error armed for a piece that is passed on: one data byte is inverted after the digest is taken (R414). -/
def State.spoilPiece (s : State) (step : Nat) (data : List Byte) : List Byte × State :=
  if s.fab.badPiece && step != 0 && !data.isEmpty then
    ((~~~(data.headD 0)) :: data.drop 1, { s with fab := { s.fab with badPiece := false } }.count pERR 0xF34)
  else (data, s)

/-- Bytes `lo` to `hi` of piece `j` sent to the next member as packets of 4,096 data bytes, for a ring step. The digest is
taken with the last (R358, R359). -/
def State.sendPiece (s : State) (slot stage step j lo hi : Nat) : State :=
  match s.ctx? (·.slot == slot) with
  | none => s
  | some c =>
    let sp := s.pieceSpans c stage j
    let bs := spanBytes c.work sp
    let units := spanUnits sp
    let seq := c.seq.getD 0
    let d := digest seq c.attempt stage step j (s.rankOf c.key.level s.selfId) bs
    let offs := (List.range (divUp (hi - lo) 4096)).map fun k => lo + 4096 * k
    let s := offs.foldl (fun s o =>
      let n := min 4096 (hi - o)
      let last := o + n == bs.length
      let (data, s) := s.spoilPiece step ((bs.drop o).take n)
      let hdr := pieceHeader { digest := if last then d.toNat else 0, offset := o, len := bs.length, piece := j, step := step, stage := stage
                               last := last, attempt := c.attempt, level := c.key.level, seq := seq }
      let bad := (List.range (divUp n 64)).filter fun u => c.workPoison.contains (units.getD (o / 64 + u) 0)
      s.send { dest := s.nextOn stage, src := s.selfId, vc := 4, op := 7, epoch := s.epoch, poison := poisonMap (bad.map (· + 1))
               len := 64 + data.length, payload := hdr ++ data }) s
    if hi = bs.length && lo < hi then s.updCtx slot fun c => { c with sent := c.sent ^^^ d } else s

/-! ### The end of a collective's movement -/

/-- The bytes that C receives, with their poisoned units. -/
def State.collResult (s : State) (c : Ctx) : List Byte × List Nat :=
  if c.kind = 1 then
    let lo := s.rankOf c.key.level s.selfId * s.chunkOf c
    ((c.work.drop lo).take c.outBytes, (c.workPoison.filter fun u => decide (lo / 64 ≤ u)).map (· - lo / 64))
  else (c.work.take c.outBytes, c.workPoison)

/-- C written, its words pending on the lock (R133, R135, R350). -/
def State.writeC (s : State) (c : Ctx) : State :=
  match s.barge? c.b with
  | none => s
  | some b =>
    let w := s.progRec b c.i
    let o := recC w
    let st := b.opdStore w o
    let (bs, bad) := s.collResult c
    let m := if o.space = spEXT then c.mask else c.mask ||| b.lockSet w
    bad.foldl (fun s u => s.wr st (o.addr + 64 * u) ((bs.drop (64 * u)).take 64) m true) (s.wr st o.addr bs m)

/-- SEAL contributes once the collective is complete (R133, R360). -/
def State.trySeal (s : State) (slot : Nat) : State :=
  match s.ctx? (·.slot == slot) with
  | some c =>
    if c.phase == .complete && c.sealRec.isSome && s.ctxLive c then
      (s.updCtx slot fun c => { c with phase := .sealing }).contribute
        { key := c.key, kind := bSEAL, attempt := c.attempt, fail := c.fail, seq := c.seq.getD 0
          value := leBytes 8 c.sent.toNat ++ leBytes 8 c.recv.toNat }
    else s
  | none => s

/-- The collective is complete at this member: C is written, and EARLY sets the token (R133). -/
def State.completeColl (s : State) (slot : Nat) : State :=
  match s.ctx? (·.slot == slot) with
  | some c =>
    let s := (s.writeC c).updCtx slot fun c => { c with phase := .complete }
    let s := if c.early then s.finishOp c.b c.i else s
    s.trySeal slot
  | none => s

/-! ### Moving (R351, R352) -/

/-- Ring stages from one on, at a ring step: stages of one member and empty pieces pass at once. -/
def State.goOn : Nat → State → Nat → List Nat → Nat → State
  | 0, s, _, _, _ => s
  | _, s, slot, [], _ => s.completeColl slot
  | fuel + 1, s, slot, g :: rest, step =>
    let n := s.ringSizes.getD (g % 4) 1
    let i := (ringIdx s.selfId).getD (g % 4) 0
    if n ≤ step + 1 then State.goOn fuel s slot rest 0
    else match s.ctx? (·.slot == slot) with
      | none => s
      | some c =>
        let s := if step = 0 then (let j := firstPiece g i n; s.sendPiece slot g 0 j 0 (spansLen (s.pieceSpans c g j))) else s
        let s := s.updCtx slot fun c => { c with stage := g, step := step, got := [], lastRx := s.now }
        if (s.pieceSpans c g (recvPiece g i n step)).isEmpty then State.goOn fuel s slot (g :: rest) (step + 1) else s

/-- The working data that a member starts with (R347 to R349). -/
def State.startWork (s : State) (c : Ctx) (a : List Byte) : List Byte :=
  if c.kind = 2 then
    let lo := s.rankOf c.key.level s.selfId * c.bytes
    List.replicate lo 0 ++ a ++ List.replicate (s.totalOf c - lo - c.bytes) 0
  else a

/-- Some record before record `i`, other than a COLL or SEAL, is not complete, so that a VOID word may still be re-created
(R120, R125). -/
def State.remaking (s : State) (b : Barge) (i : Nat) : Bool :=
  (List.range i).any fun k => !b.opIs k .complete && recOp (s.progRec b k) != 0x40 && recOp (s.progRec b k) != 0x41

/-- The first pieces, or the SCALAR message, leave once the collective is open and A is confirmed (R133, R354). -/
def State.startColl (s : State) (slot : Nat) : State :=
  match s.ctx? (·.slot == slot) with
  | none => s
  | some c =>
    match s.barge? c.b with
    | none => s
    | some b =>
      let w := s.progRec b c.i
      let a := recA w
      let st := b.opdStore w a
      if c.phase != .opened || b.failed.isSome || !b.opIs c.i .running || s.pendAt st a.addr c.bytes != 0
          || (s.voidAt st a.addr c.bytes && s.remaking b c.i) || (a.space == spEXT && s.rangesHeld b.id [(a.addr, c.bytes)]) then s
      else
        let s := s.seeIn st [(a.addr, c.bytes)]
        let bs := s.rd st a.addr c.bytes
        let bad := (List.range (divUp c.bytes 64)).filter fun u =>
          let t := s.taint st (a.addr + 64 * u) (min 64 (c.bytes - 64 * u)); t.poison
        let ofs := if c.kind = 2 then s.rankOf c.key.level s.selfId * c.bytes / 64 else 0
        let s := s.updCtx slot fun c => { c with phase := .moving, work := s.startWork c bs, workPoison := bad.map (ofs + ·), lastRx := s.now }
        if c.kind = 3 then
          s.contribute { key := c.key, kind := bSCALAR, attempt := c.attempt, seq := c.seq.getD 0, value := bs, poison := !bad.isEmpty }
        else State.goOn 200 s slot (collStages c.kind c.key.level) 0

/-- Every open collective of a barge starts if it may. -/
def State.startColls (s : State) (id : Nat) : State :=
  ((s.col.ctxs.filter (·.b == id)).map (·.slot)).foldl (fun s k => s.startColl k) s

/-! ### COLL -/

/-- The value of an ARRIVE (R362). -/
def arriveValue (c : Ctx) : List Byte := leBytes 8 (c.kind + c.redOp * 4 + c.format * 16 + c.segLog2 * 256 + c.bytes * 2 ^ 32)

/-- A COLL takes a context and sends its ARRIVE (R107, R353, R354, R357). -/
def State.openColl (s : State) (b : Barge) (i w : Nat) : State :=
  let (n, s) := s.useColl b.cls (cColl w)
  if cBytes w = 0 then s.finishOp b.id i
  else if s.col.ctxs.any fun c => c.b == b.id && c.key.collId == cColl w then s.failBarge b.id fCFG
  else if 64 ≤ s.col.ctxs.length then ((s.count pCOL 0xF18).err pCOL 1).failBarge b.id fCAPACITY
  else
    let c : Ctx := {
      slot := lowestFree (s.col.ctxs.map (·.slot)), b := b.id, i := i
      key := { cls := b.cls, barrier := false, collId := cColl w, use := n, level := cLevel w }
      kind := cKind w, redOp := cRedOp w, format := (recA w).fmt, bytes := cBytes w, segLog2 := cSeg w, early := cEarly w
      lockId := cLock w, outBytes := collOut w (s.levelMembers (cLevel w)) }
    let s := { s with col := { s.col with ctxs := s.col.ctxs ++ [c] } }
    let s := (s.markRange b w c).notePend b.id i c.mask
    s.contribute { key := c.key, kind := bARRIVE, value := arriveValue c }

/-- A COLL issues, or issues again after a failed lock (R125, R134). -/
def collEffect (i : Nat) (s : State) (b : Barge) (w : Nat) : State :=
  match s.ctx? fun c => c.b == b.id && c.i == i with
  | none => s.openColl b i w
  | some c =>
    let s := (s.markRange b w c).notePend b.id i c.mask
    if c.phase == .complete || c.phase == .sealing then
      (let s := s.writeC c; if c.early then s.finishOp b.id i else s)
    else s.startColl c.slot

/-- COLL: record `i` of barge `b` issues (R107); given again, it starts once its A is confirmed (R133). -/
def execColl (b i : Nat) (s : State) : Host.Outcome State Fault Refusal :=
  s.engine fun s => (s.runRec b i 0x40 collOk (fun _ => false) (collEffect i)).startColls b

/-! ### SEAL -/

/-- A SEAL issues (R108, R360). One whose COLL had BYTES 0 has nothing to check. -/
def sealEffect (i : Nat) (s : State) (b : Barge) (w : Nat) : State :=
  match s.ctx? fun c => c.b == b.id && c.key.collId == recP w 5 0 with
  | none => (s.confirmLock b.id (recP w 11 8) (List.range b.need)).finishOp b.id i
  | some c => (s.updCtx c.slot fun c => { c with sealRec := some i }).trySeal c.slot

/-- SEAL: record `i` of barge `b` (R108). -/
def execSeal (b i : Nat) (s : State) : Host.Outcome State Fault Refusal :=
  s.engine fun s => s.runRec b i 0x41 sealOk (fun _ => false) (sealEffect i)

/-! ### Admission in sequence order (R354, R355) -/

/-- A member admits its collective (R354, R355). -/
def State.admitColl (s : State) (seq : Nat) (k : BellKey) : State :=
  match s.ctx? fun c => c.key == k && c.phase == .arriving with
  | none => s
  | some c =>
    if !s.ctxLive c then s
    else if c.kind = 3 then
      ((s.count pCOL 0xF08).updCtx c.slot fun c => { c with seq := some seq, phase := .opened }).startColl c.slot
    else
      let (o, cl, n) := s.offerOf c
      let s := match n with | some r => s.count pCOL r | none => s
      let s := if o = 0 then s.err pCOL 1 else s
      (s.updCtx c.slot fun c => { c with seq := some seq, phase := .offered, claim := cl }).contribute
        { key := k, kind := bOFFER, seq := seq, value := leBytes 4 o }

/-- Sequence numbers of a level met one after the other. -/
def State.admitLoop : Nat → State → Nat → State
  | 0, s, _ => s
  | fuel + 1, s, level =>
    let n := SMap.get (fun _ => 0) s.col.admitSeq level
    match takeFirst (fun (g : Nat × Nat × BellKey) => g.1 == level && g.2.1 == n) s.col.grants with
    | (some (_, _, k), rest) =>
      let s : State := { s with
        col := { s.col with grants := rest, admitSeq := SMap.put (fun _ => 0) s.col.admitSeq level ((n + 1) % 2 ^ 32) } }
      State.admitLoop fuel (s.admitColl n k) level
    | (none, _) => s

/-- A sequence number of a level arrives. -/
def State.seqArrives (s : State) (k : BellKey) (seq : Nat) : State :=
  let n := SMap.get (fun _ => 0) s.col.admitSeq k.level
  let g := (k.level, seq, k)
  if s.col.grants.contains g || stepGt n seq then s
  else State.admitLoop (s.col.grants.length + 1) { s with col := { s.col with grants := s.col.grants ++ [g] } } k.level

/-! ### BARRIER -/

/-- A BARRIER completes on this engine (R109, R255, R364). -/
def State.barrierDone (s : State) (x : BarrierRun) : State :=
  let s : State := { s with col := { s.col with barriers := s.col.barriers.erase x } }
  let s := s.count pCOL 0xF24
  let s : State := match x.close with
    | some step => { s.setRegN pUPD 0xF00 step with rows := { s.rows with closedInWindow := true } }
    | none => s
  match s.barge? x.b with
  | none => s
  | some b => if b.failed.isSome then s else (s.updBarge x.b fun b => { b with barrier := none }).finishOp x.b x.i

/-- Every SGRAD of a step that has issued has set its token (R255). -/
def State.gradsDone (s : State) (step : Nat) : Bool :=
  s.sv.barges.all fun b => b.step != step || (List.range b.ops.length).all fun k =>
    !(b.opIs k .running && recOp (s.progRec b k) == 0x23)

/-- Barriers whose gradients are answered enter the bell reduction; at a level of one member they complete (R109, R255). -/
def State.enterBarriers (s : State) : State :=
  s.col.barriers.foldl (fun s x =>
    let live := match s.barge? x.b with | some b => b.failed.isNone | none => false
    let ready := match x.close with | some step => s.gradsDone step | none => true
    if x.entered || !live || !ready then s
    else if s.levelMembers x.key.level = 1 then
      let (n, s) := s.takeLevelSeq x.key.level
      (s.seqArrives x.key n).barrierDone x
    else
      let s : State := { s with
        col := { s.col with barriers := mapIf s.col.barriers (· == x) fun y => { y with entered := true } } }
      s.contribute { key := x.key, kind := bBARRIER }) s

/-- A BARRIER issues (R109, R255, R353). -/
def barrierEffect (i : Nat) (s : State) (b : Barge) (w : Nat) : State :=
  let close := if recP w 2 2 = 1 then some (recP w 63 32) else none
  let may := match close with
    | some step => step == (s.lastApplied + 1) % 2 ^ 32 && stepGt step s.lastClosed
    | none => true
  if !may then s.failBarge b.id fCFG
  else
    let n := (SMap.get (fun _ => 0) s.col.barrierUses b.cls + 1) % 2 ^ 16
    let x : BarrierRun := { b := b.id, i := i, close := close, key := { cls := b.cls, barrier := true, collId := 0, use := n, level := recP w 1 0 } }
    let s : State := { s with
      col := { s.col with barriers := s.col.barriers ++ [x], barrierUses := SMap.put (fun _ => 0) s.col.barrierUses b.cls n } }
    (s.updBarge b.id fun b => { b with barrier := some i }).enterBarriers

/-- BARRIER: record `i` of barge `b` issues, or, given again, enters the reduction once its step's gradients are answered
(R109, R255). -/
def execBarrier (b i : Nat) (s : State) : Host.Outcome State Fault Refusal :=
  s.engine fun s => (s.runRec b i 0x42 barrierOk (fun _ => false) (barrierEffect i)).enterBarriers

/-- BELL_BARRIER: a BARRIER message goes up, or completes the member's barrier on its way down (R364). -/
def execBellBarrier (p : Packet) (s : State) : Host.Outcome State Fault Refusal :=
  s.engine fun s => s.bell p bBARRIER (fun s m => s.bellFromBelow p m) fun s m => s.bellFromAbove p m fun s =>
    (s.col.barriers.filter fun x => x.key == m.key && x.entered).foldl (fun s x => s.barrierDone x) (s.seqArrives m.key m.seq)

/-! ### Opening -/

/-- ARRIVE: combined at each tier; the master grants or aborts (R354, R363). -/
def execArrive (p : Packet) (s : State) : Host.Outcome State Fault Refusal :=
  s.engine fun s => s.bell p bARRIVE (fun s m => s.bellFromBelow p m) fun s _ => s

/-- GRANT: passed down; a member admits its collective in sequence order and offers (R354 to R356). -/
def execGrant (p : Packet) (s : State) : Host.Outcome State Fault Refusal :=
  s.engine fun s => s.bell p bGRANT (fun s _ => s) fun s m => s.bellFromAbove p m fun s => s.seqArrives m.key m.seq

/-- OFFER: the smallest goes up; the master answers SEGMENT (R354, R356). -/
def execOffer (p : Packet) (s : State) : Host.Outcome State Fault Refusal :=
  s.engine fun s => s.bell p bOFFER (fun s m => s.bellFromBelow p m) fun s _ => s

/-- A pound claim cut to two segments (R355). -/
def Claim.cut (c : Claim) (seg : Nat) : Claim := match c with | .pound k => .pound (min k (2 * seg)) | x => x

/-- The agreed segment size reaches a member (R354 to R356). -/
def State.segmentArrives (s : State) (m : BellMsg) : State :=
  match s.ctx? fun c => c.key == m.key && c.phase == .offered with
  | none => s
  | some c =>
    let seg := leNat (m.value.take 4)
    if !s.ctxLive c then s
    else if seg = 0 then (s.updCtx c.slot fun c => { c with phase := .closed }).failBarge c.b fCAPACITY
    else ((s.count pCOL 0xF08).updCtx c.slot fun c => { c with phase := .opened, segKib := seg, claim := c.claim.cut seg }).startColl c.slot

/-- SEGMENT: passed down; a member cuts its claim, and its first pieces may leave (R354, R355). -/
def execSegment (p : Packet) (s : State) : Host.Outcome State Fault Refusal :=
  s.engine fun s => s.bell p bSEGMENT (fun s _ => s) fun s m => s.bellFromAbove p m fun s => s.segmentArrives m

/-! ### Scalars (R364) -/

/-- The reduced value reaches a member. -/
def State.scalarArrives (s : State) (m : BellMsg) : State :=
  match s.ctx? fun c => c.key == m.key && c.phase == .moving && c.kind == 3 && c.attempt == m.attempt with
  | none => s
  | some c =>
    if !s.ctxLive c then s
    else ((s.count pCOL 0xF24).updCtx c.slot fun c =>
      { c with work := m.value.take c.bytes, workPoison := if m.poison then [0] else [] }).completeColl c.slot

/-- SCALAR: combined upward, or delivered to C on its way down (R364). -/
def execScalar (p : Packet) (s : State) : Host.Outcome State Fault Refusal :=
  s.engine fun s => s.bell p bSCALAR (fun s m => s.bellFromBelow p m) fun s m => s.bellFromAbove p m fun s => s.scalarArrives m

/-! ### Pieces -/

/-- A packet that names no open collective or attempt (R358). -/
def State.strayPiece (s : State) : State := (s.count pCOL 0xF20).err pCOL 0

/-- The place of a stage in a collective. -/
def stageAt (c : Ctx) (stage : Nat) : Nat := (collStages c.kind c.key.level).idxOf stage

/-- The packet is the next of the piece awaited. -/
def State.expected (s : State) (c : Ctx) (h : PieceHdr) (n : Nat) : Bool :=
  let size := s.ringSizes.getD (c.stage % 4) 1
  let j := recvPiece c.stage ((ringIdx s.selfId).getD (c.stage % 4) 0) size c.step
  let len := spansLen (s.pieceSpans c c.stage j)
  h.stage == c.stage && h.step == c.step && h.piece == j && h.len == len && h.offset == c.got.length && n != 0
    && decide (h.offset + n ≤ len)

/-- The packet belongs to a ring step that comes later. -/
def laterStep (c : Ctx) (h : PieceHdr) : Bool :=
  stageAt c c.stage < stageAt c h.stage || (h.stage == c.stage && c.step < h.step)

/-- A packet of the piece awaited: its data is reduced into the member's own, or placed, and a full segment is passed on
(R350 to R352, R359). -/
def State.takePiece (s : State) (c : Ctx) (p : Packet) (h : PieceHdr) : State :=
  let data := p.payload.drop 64
  let sp := s.pieceSpans c h.stage h.piece
  let mine := spanBytes c.work sp
  let units := spanUnits sp
  let own := (mine.drop h.offset).take data.length
  let new := if h.stage < 4 then reduceBytes c.format c.redOp own data else data
  let here := ((units.drop (h.offset / 64)).take (divUp data.length 64)).zipIdx
  let bad := (here.filter fun (u, k) => unitBad p (k + 1) || (h.stage < 4 && c.workPoison.contains u)).map (·.1)
  let got := c.got ++ data
  let s := s.updCtx c.slot fun c => { c with
    work := putSpans c.work sp (mine.take h.offset ++ new ++ mine.drop (h.offset + data.length))
    workPoison := c.workPoison.filter (fun u => !(here.any (·.1 == u))) ++ bad
    got := got, lastRx := s.now }
  let n := s.ringSizes.getD (h.stage % 4) 1
  let seg := 1024 * c.segKib
  let s := if h.step + 2 < n && (got.length = h.len || got.length % seg = 0) then
      s.sendPiece c.slot h.stage (h.step + 1) h.piece ((got.length - 1) / seg * seg) got.length
    else s
  if got.length = h.len then
    let d := digest h.seq h.attempt h.stage h.step h.piece (s.rankOf c.key.level p.src) got
    State.goOn 200 (s.updCtx c.slot fun c => { c with recv := c.recv ^^^ d }) c.slot
      ((collStages c.kind c.key.level).drop (stageAt c h.stage)) (h.step + 1)
  else s

/-- A piece packet is settled: stray, held until its step, taken, or of no further use. -/
def State.pieceArrives (s : State) (p : Packet) : State :=
  let h := pieceHdr p
  match s.ctx? fun c => c.key.level == h.level && c.seq == some h.seq with
  | none => s.strayPiece
  | some c =>
    if c.attempt != h.attempt then s.strayPiece
    else if !s.ctxLive c then s
    else if c.phase == .arriving || c.phase == .offered || c.phase == .opened then s.putBack p
    else if c.phase != .moving || c.kind == 3 then s
    else if s.expected c h (p.payload.length - 64) then s.takePiece c p h
    else if laterStep c h then s.putBack p else s

/-- COLL_PIECE: a packet of a piece arrives (R358). -/
def execCollPiece (p : Packet) (s : State) : Host.Outcome State Fault Refusal :=
  s.engine fun s => s.receive p [7] fun s => s.pieceArrives p

/-- A member has had no packet of an expected piece for T: it treats C as complete and fails the seal (R361). -/
def State.pieceExpired (s : State) (slot : Nat) : State :=
  match s.ctx? (·.slot == slot) with
  | some c =>
    if c.phase == .moving && c.kind != 3 && s.ctxLive c && decide (c.lastRx + s.fabTimeout ≤ s.now) then
      (s.updCtx slot fun c => { c with fail := true }).completeColl slot
    else s
  | none => s

/-- PIECE_TIMEOUT of the collective in a context (R361). -/
def execPieceTimeout (ctx : Nat) (s : State) : Host.Outcome State Fault Refusal := s.engine fun s => s.pieceExpired ctx

/-! ### The verdict (R360, R136) -/

/-- The records of a confirmed collective complete, and its context is freed (R134, R357). -/
def State.sealConfirmed (s : State) (c : Ctx) : State :=
  match s.barge? c.b with
  | none => s
  | some b =>
    let s := s.confirmLock c.b c.lockId (List.range b.need)
    let s := if c.early then s else s.finishOp c.b c.i
    let s := match c.sealRec with | some k => s.finishOp c.b k | none => s
    { s with col := { s.col with ctxs := s.col.ctxs.filter (·.slot != c.slot) } }.startColls c.b

/-- A failed verdict: replay once, then the end of the barge (R126, R136). -/
def State.sealFailed (s : State) (c : Ctx) : State :=
  let s := (s.count pCOL 0xF1C).err pCOL 2
  if c.attempt = 0 then
    (s.updCtx c.slot fun c => { c with
      attempt := 1, phase := .opened, sent := 0, recv := 0, fail := false, sealRec := none, work := [], workPoison := [], got := [] }).failLock
      c.b c.lockId
  else
    let s := s.updCtx c.slot fun c => { c with phase := .closed }
    match s.barge? c.b with | some b => s.failAgain b c.lockId fSEAL | none => s

/-- A verdict reaches a member. -/
def State.verdict (s : State) (m : BellMsg) : State :=
  match s.ctx? fun c => c.key == m.key && c.attempt == m.attempt && (c.phase == .sealing || (m.fail && (c.phase == .complete || c.phase == .moving || c.phase == .opened))) with
  | none => s
  | some c => if !s.ctxLive c then s else if m.fail then s.sealFailed c else s.sealConfirmed c

/-- BELL_SEAL: sums go up; the verdict confirms the lock, or starts the replay, on its way down (R360, R136). -/
def execBellSeal (p : Packet) (s : State) : Host.Outcome State Fault Refusal :=
  s.engine fun s => s.bell p bSEAL (fun s m => s.bellFromBelow p m) fun s m => s.bellFromAbove p m fun s => s.verdict m

/-- T has passed from the first contribution to a seal without all of them (R360). -/
def State.sealExpired (s : State) (level seq : Nat) : State :=
  match s.col.tiers.find? fun e => e.kind == bSEAL && e.key.level == level && e.tier == level && e.seq == seq && !e.passed with
  | some e =>
    if e.since + s.fabTimeout ≤ s.now then
      s.resultOut { key := e.key, kind := bSEAL, down := true, attempt := e.attempt, fail := true, seq := e.seq, count := e.count }
    else s
  | none => s

/-- SEAL_TIMEOUT at the master of a level, for a sequence number (R360). -/
def execSealTimeout (level seq : Nat) (s : State) : Host.Outcome State Fault Refusal := s.engine fun s => s.sealExpired level seq

/-! ### ABANDON and ABORT (R361) -/

/-- A collective or barrier abandoned towards its master; a level of one member has nobody to tell. -/
def State.abandon (s : State) (k : BellKey) (seq attempt : Nat) : State :=
  if s.levelMembers k.level = 1 then s
  else if s.col.waits.any fun x => x.key == k && x.kind == bABANDON then s
  else s.contribute { key := k, kind := bABANDON, seq := seq, attempt := attempt }

/-- ABANDON: the master aborts the collective, or counts the member towards the barrier (R361, R365). -/
def execAbandon (p : Packet) (s : State) : Host.Outcome State Fault Refusal :=
  s.engine fun s => s.bell p bABANDON (fun s m => s.bellFromBelow p m) fun s _ => s

/-- An ABORT reaches a member (R354, R361). -/
def State.abortArrives (s : State) (m : BellMsg) : State :=
  let s := s.err pCOL 3
  match s.ctx? fun c => c.key == m.key && c.phase != .closed with
  | none => s
  | some c =>
    (s.updCtx c.slot fun c => { c with phase := .closed }).failBarge c.b (if leNat (m.value.take 1) = 1 then fCFG else fSEAL)

/-- ABORT: passed down; it ends each member's barge (R354, R361). -/
def execAbort (p : Packet) (s : State) : Host.Outcome State Fault Refusal :=
  s.engine fun s => s.bell p bABORT (fun s _ => s) fun s m => s.bellFromAbove p m fun s => s.abortArrives m

/-! ### Resending and the limit (R363, R365) -/

/-- The `k`-th bell message that waits for its answer is resent. -/
def State.resendBell (s : State) (k : Nat) : State :=
  match s.col.waits[k]? with
  | some x =>
    if x.since + s.cfgN pCOL 0x120 ≤ s.now then
      ({ s with col := { s.col with waits := setAt s.col.waits k fun y => { y with since := s.now } } }.count pCOL 0xF28).send x.p
    else s
  | none => s

/-- BELL_RESEND of the `k`-th message that waits (R363). -/
def execBellResend (k : Nat) (s : State) : Host.Outcome State Fault Refusal := s.engine fun s => s.resendBell k

/-- LIMIT_US has passed since a COLL that is not open, or a BARRIER that is not complete, issued (R365). -/
def State.collLimit (s : State) (id i : Nat) : State :=
  match s.barge? id with
  | none => s
  | some b =>
    let lim := s.cfgN pCOL 0x124
    let late := lim != 0 && decide ((b.op i).issued + lim ≤ s.now) && b.failed.isNone
    match s.ctx? fun c => c.b == id && c.i == i && (c.phase == .arriving || c.phase == .offered), s.col.barriers.find? fun x => x.b == id && x.i == i with
    | some c, _ =>
      if late then (((s.count pCOL 0xF2C).updCtx c.slot fun c => { c with phase := .closed }).failBarge id fTIMEOUT).abandon c.key (c.seq.getD 0) c.attempt
      else s
    | none, some x => if late then ((s.count pCOL 0xF2C).failBarge id fTIMEOUT).abandon x.key 0 0 else s
    | none, none => s

/-- COLL_LIMIT_EXPIRY of record `i` of barge `b` (R365). -/
def execCollLimitExpiry (b i : Nat) (s : State) : Host.Outcome State Fault Refusal := s.engine fun s => s.collLimit b i

/-! ### The end of a barge with collectives open (R135, R361) -/

/-- The C range in external memory of a collective that ends unconfirmed is written poisoned (R135). -/
def State.poisonRange (s : State) (c : Ctx) : State :=
  match s.ctxRange c with
  | some (a, n) =>
    let s := s.extWrite a (s.ext? a n) true
    { s with marks := s.marks.filter fun (k, _) => !(2 ^ 25 + a / 64 ≤ k && k < 2 ^ 25 + divUp (a + n) 64) }
  | none => s

/-- A barge leaves its collectives and barriers. -/
def State.endColls (s : State) (id : Nat) : State :=
  let cs := s.col.ctxs.filter (·.b == id)
  let xs := s.col.barriers.filter (·.b == id)
  let s := cs.foldl (fun s c =>
    let s := if c.phase == .closed then s else s.abandon c.key (c.seq.getD 0) c.attempt
    s.poisonRange c) s
  let s := xs.foldl (fun s x => if x.entered then s else s.abandon x.key 0 0) s
  { s with col := { s.col with ctxs := s.col.ctxs.filter (·.b != id), barriers := s.col.barriers.filter fun x => x.b != id || x.entered } }

/-! ### What the COL page reads (R368) -/

def State.openContexts (s : State) : Nat := s.col.ctxs.length
def State.poundKib (s : State) : Nat := ((List.range 3).map s.poundUsed).foldl (· + ·) 0

/-- Keys held open at this engine as a level's master. -/
def State.masterPending (s : State) : Nat :=
  (((s.col.arrived.filter fun a => a.tier == a.key.level).map (·.key))
    ++ ((s.col.tiers.filter fun e => e.tier == e.key.level).map (·.key))).eraseDups.length

end Sys2Proof.Machine
end

