-- ==== Sys2Proof/Machine/Links.lean ====
section
/-! DEFINITION. The fabric's links: received flits (R323, R324), credits (R326), LINK_INIT (R321, R391), and the ways a link
comes up and goes down (R325, R327, R437). -/

namespace Sys2Proof.Machine

open Sys2Proof

/-! ### A link goes down -/

/-- The port declares its link DOWN: it discards its replay buffer, what is queued for it and everything in its
input buffers (R325). -/
def State.linkDown (s : State) (n : Nat) : State :=
  let s := s.updPort n fun x =>
    { x with st := .down, replay := [], queue := [], receiving := [], owed := [], deficit := [], inTurn := false, wasDown := true }
  let (lost, kept) := s.fab.arrivals.partition (·.2 == n)
  let s : State := { s with fab := { s.fab with inbox := lost.foldl (fun l x => l.erase x.1) s.fab.inbox, arrivals := kept } }
  let s := (s.count pFAB 0xF2C).err pFAB 0
  let mode := s.cfg pFAB 0x120
  if bitOf mode 0 then s.raise (fld mode 15 8) else s

/-! ### Received flits -/

/-- Sequence number `a` lies at or behind `b` (R324). -/
def seqCovers (a b : Nat) : Bool := (b + 4096 - a) % 4096 < 2048

/-- An ACK frees the flits it covers (R324). -/
def State.ackFlits (s : State) (n ack : Nat) : State :=
  (s.updPort n fun x => { x with replay := x.replay.filter fun f => !seqCovers f.seq ack }).pump n

/-- One NAK names the expected SEQ, and what follows is discarded until that SEQ arrives good (R324). -/
def State.nakOnce (s : State) (n : Nat) : State :=
  let x := s.fport n
  if x.nakked then s else (s.setPort n { x with nakked := true }).sendControl n kNAK (leBytes 2 x.rxExpect)

/-- A flit with a bad CRC, a reserved kind or a PCS mark. -/
def State.badFlit (s : State) (n : Nat) : State := (s.updPort n fun x => { x with crcErrs := satAdd 32 x.crcErrs 1 }).nakOnce n

/-- A flit of the given kind arrives at a port that is UP, or for LINK_INIT at one in INIT: a bad one is discarded, and a
good one frees what its ACK covers and then acts. -/
def State.rxFlit (s : State) (n : Nat) (f : BitVec 512) (mark : Bool) (kind : Nat) (act : State → State) : State :=
  let st := (s.fport n).st
  if st != .up && st != .init then s
  else if mark || !flitGood f then s.badFlit n
  else if flitKind f != kind then s
  else if st == .init then (if kind = kINIT then act s else s)
  else act (s.ackFlits n (flitAck f))

/-- A packet has arrived whole on a port. -/
def State.packetWhole (s : State) (n vc : Nat) (bs : List Byte) : State :=
  let p := packetOf bs
  if p.vc != vc || pktFlits p != bs.length / 56 || !packetOk p then (s.freeFlits n vc (s.classIn p n) (bs.length / 56)).badPacket
  else { s with fab := { s.fab with inbox := s.fab.inbox ++ [p], arrivals := s.fab.arrivals ++ [(p, n)] } }

/-- An accepted DATA flit joins its packet; inconsistent control fields drop the packet (R324). -/
def State.joinFlit (s : State) (n : Nat) (f : BitVec 512) : State :=
  let vc := flitVc f
  let frame := flitFrame f
  let x := s.fport n
  let (old, rest) := takeFirst (·.1 == vc) x.receiving
  let first := frame == 1 || frame == 3
  if first == old.isSome then
    let bs := (old.elim [] (·.2)) ++ flitContent f
    ((s.setPort n { x with receiving := rest }).freeFlits n vc (s.classIn (packetOf (old.elim bs (·.2))) n) (bs.length / 56)).badPacket
  else
    let bs := (old.elim [] (·.2)) ++ flitContent f
    if 2 ≤ frame then (s.setPort n { x with receiving := rest }).packetWhole n vc bs
    else s.setPort n { x with receiving := rest ++ [(vc, bs)] }

/-- A good DATA flit: accepted in order, discarded as a duplicate, or answered with a NAK (R324). -/
def State.dataFlit (s : State) (n : Nat) (f : BitVec 512) : State :=
  let x := s.fport n
  if flitSeq f = x.rxExpect then
    (s.setPort n { x with rxExpect := (x.rxExpect + 1) % 4096, nakked := false }).joinFlit n f
  else if seqCovers (flitSeq f) x.rxExpect then s.count pFAB 0xF14
  else s.nakOnce n

/-- DATA: a DATA flit arrives at a port (R324). -/
def execData (port : Nat) (flit : BitVec 512) (mark : Bool) (s : State) : Host.Outcome State Fault Refusal :=
  s.engine fun s => s.rxFlit port flit mark kDATA fun s => s.dataFlit port flit

/-- Every buffered flit from the named SEQ is sent again; one that would need an eighth transmission takes the link
down (R324, R325; assumption 63). -/
def State.resend (s : State) (n seq : Nat) : State :=
  let again := (s.fport n).replay.filter fun f => seqCovers seq f.seq
  if again.any (7 ≤ ·.sends) then s.linkDown n
  else
    let s := s.updPort n fun x =>
      { x with
        replay := mapIf x.replay (fun f => seqCovers seq f.seq) fun f => { f with sends := f.sends + 1 }
        replays := satAdd 32 x.replays again.length }
    again.foldl (fun s f => s.flitsLeave n f.vc 1) s

/-- NAK: a NAK flit arrives at a port (R324). -/
def execNak (port : Nat) (flit : BitVec 512) (s : State) : Host.Outcome State Fault Refusal :=
  s.engine fun s => s.rxFlit port flit false kNAK fun s => s.resend port (leNat ((flitContent flit).take 2) % 4096)

/-- Credits returned. -/
def State.creditFlit (s : State) (n : Nat) (c : List Byte) : State :=
  (s.updPort n fun x =>
    { x with
      credits := (List.range 16).foldl (fun m i => SMap.upd (fun _ => 256) m i (· + leNat ((c.drop (2 * i)).take 2))) x.credits }).pump n

/-- CREDIT: a CREDIT flit arrives at a port (R326). -/
def execCredit (port : Nat) (flit : BitVec 512) (s : State) : Host.Outcome State Fault Refusal :=
  s.engine fun s => s.rxFlit port flit false kCREDIT fun s => s.creditFlit port (flitContent flit)

/-- IDLE: an IDLE flit arrives at a port; its ACK has acted (R324). -/
def execIdle (port : Nat) (flit : BitVec 512) (s : State) : Host.Outcome State Fault Refusal :=
  s.engine fun s => s.rxFlit port flit false kIDLE fun s => s

/-- The content of this engine's LINK_INIT flits (R391). -/
def State.initContent (s : State) (n : Nat) : List Byte :=
  leBytes 2 s.selfId ++ leBytes 1 n ++ leBytes 1 (s.strapCode + 128 * bit s.strapFault) ++ leBytes 4 (s.cfgN pFAB 0x104)

/-- The peer's announcement is held against the expected peer (R321, R391). -/
def State.initFlit (s : State) (n : Nat) (c : List Byte) : State :=
  let peer := leNat (c.take 2) % 2 ^ 13
  let pport := leNat ((c.drop 2).take 1) % 32
  let strap := leNat ((c.drop 3).take 1)
  if (s.fport n).st != .init then s
  else
    let s := s.updPort n fun x => { x with peer := peer, peerPort := pport, peerStrap := strap }
    if s.expectedPeer n = some (peer, pport) then
      let s := s.updPort n fun x => { x with st := .up }
      if n < 14 then s.settleMaster else s
    else (s.updPort n fun x => { x with st := .miswired }).err pFAB 2

/-- LINK_INIT: a LINK_INIT flit arrives at a port (R321). -/
def execLinkInit (port : Nat) (flit : BitVec 512) (s : State) : Host.Outcome State Fault Refusal :=
  s.engine fun s => s.rxFlit port flit false kINIT fun s => s.initFlit port (flitContent flit)

/-! ### Timers and lock -/

/-- The oldest unacknowledged flit has waited REPLAY_US (R325). -/
def State.replayLate (s : State) (n : Nat) : State :=
  match (s.fport n).replay with
  | f :: _ => if (s.fport n).st == .up && decide (f.since + s.cfgN pFAB 0x114 ≤ s.now) then s.linkDown n else s
  | [] => s

/-- REPLAY_TIMEOUT of a port (R325). -/
def execReplayTimeout (port : Nat) (s : State) : Host.Outcome State Fault Refusal := s.engine fun s => s.replayLate port

/-- A TRAINING port out of reset sees PCS lock, and sends its LINK_INIT (R321, R437). -/
def State.locked (s : State) (n : Nat) : State :=
  if (s.fport n).st == .training && (s.fport n).retrain.isNone then
    (s.updPort n fun x => { x with st := .init }).sendControl n kINIT (s.initContent n)
  else s

/-- PCS_LOCK on a port (R437). -/
def execPcsLock (port : Nat) (s : State) : Host.Outcome State Fault Refusal := s.engine fun s => s.locked port

/-- PCS_LOCK_LOSS on a port that is UP or INIT (R325, R437). -/
def execPcsLockLoss (port : Nat) (s : State) : Host.Outcome State Fault Refusal :=
  s.engine fun s => if (s.fport port).st == .up || (s.fport port).st == .init then s.linkDown port else s

/-- A port that returns to service is released after 10 µs (R437). -/
def State.retrainDone (s : State) (n : Nat) : State :=
  match (s.fport n).retrain with
  | some t => if t ≤ s.now then s.updPort n fun x => { x with retrain := none } else s
  | none => s

/-- RETRAIN_RELEASE of a port (R437). -/
def execRetrainRelease (port : Nat) (s : State) : Host.Outcome State Fault Refusal := s.engine fun s => s.retrainDone port

end Sys2Proof.Machine
end

