-- ==== Sys2Proof/Machine/LockOps.lean ====
section
/-! DEFINITION. The records of locks and ordering: LOCK_MARK (R110), CONFIRM (R111, R126, R128), FENCE (R113), WAIT (R114),
SIGNAL (R115), and the limit of a WAIT. -/

namespace Sys2Proof.Machine

open Sys2Proof

/-! ### LOCK_MARK -/

/-- R110: rsvd parameters, and each lock opened once in a region. -/
def lockMarkOk (_ : State) (_ : Barge) (earlier : List Nat) (w : Nat) : Bool :=
  recP w 127 4 == 0 && (bitsOf (recRegions w) 8).all fun r => !marked earlier (recP w 3 0) r

/-- The lock is opened in each named region, with this record as its mark (R110, R119). -/
def lockMarkEffect (i : Nat) (s : State) (b : Barge) (w : Nat) : State :=
  (s.updBarge b.id fun x => { x with
    chambers := x.chambers ++ (bitsOf (recRegions w) 8).map fun r => { region := r, lock := recP w 3 0, st := .opened, mark := i } }).finishOp b.id i

/-- LOCK_MARK: record `i` of barge `b` (R110). -/
def execLockMark (b i : Nat) (s : State) : Host.Outcome State Fault Refusal :=
  s.engine fun s => s.runRec b i 0x50 lockMarkOk (fun _ => false) (lockMarkEffect i)

/-! ### CONFIRM -/

/-- R111: each rule that makes a CONFIRM fail when it is fetched. -/
def confirmOk (s : State) (b : Barge) (earlier : List Nat) (w : Nat) : Bool :=
  let l := recP w 3 0
  let a := recP w 5 4
  let rs := bitsOf (recRegions w) 8
  recP w 127 6 == 0 && a != 3
    && (rs.all fun r => marked earlier l r)
    && !(earlier.any fun v => recOp v == 0x51 && recP v 3 0 == l && recRegions v &&& recRegions w != 0)
    && !((s.progRecs b b.progLen).any fun v => recOp v == 0x41 && recP v 11 8 == l)
    && (recB w).none && (recC w).none
    && (if a = 2 then ((recA w).space == spPOOL || (recA w).space == spEXT) && s.rawFits (recA w) 4 && recTiles w == 0
        else (recA w).none)

/-- The record that settles lock `l` has been fetched. -/
def State.settlerFetched (s : State) (b : Barge) (l : Nat) : Bool :=
  (s.progRecs b b.ops.length).any (settles l)

/-- The locks other than `l`, still open, on which the condition word of a CONFIRM is pending in some region (R128). -/
def State.confirmWaits (s : State) (b : Barge) (w : Nat) : List Nat :=
  if recP w 5 4 = 2 then
    let m := (b.physOf (recRegions w)).foldl (fun m r => m ||| s.pendAt ((recA w).store r 0) (recA w).addr 4) 0
    (bitsOf m.toNat 16).filter fun l => l != recP w 3 0 && !b.confirmed l
  else []

/-- The CONFIRM fails its lock in logical region `r` (R111). -/
def State.confirmFails (s : State) (b : Barge) (w r : Nat) : Bool :=
  match b.chamber? r (recP w 3 0) with
  | some c =>
    if recP w 5 4 = 1 then c.attempts == 0
    else recP w 5 4 == 2 && s.rdNat ((recA w).store (b.phys r) 0) (recA w).addr 4 != 0
  | none => false

/-- A lock has failed once before (R126). -/
def Barge.failedOnce (b : Barge) (l : Nat) : Bool := b.chambers.any fun c => c.lock == l && c.attempts != 0

/-- R111, R126, R128. -/
def confirmEffect (i : Nat) (s : State) (b : Barge) (w : Nat) : State :=
  let l := recP w 3 0
  let rs := bitsOf (recRegions w) 8
  let s := if recP w 5 4 = 2 then (b.physOf (recRegions w)).foldl (fun s r => s.seeIn ((recA w).store r 0) [((recA w).addr, 4)]) s else s
  let waits := s.confirmWaits b w
  if !waits.all (s.settlerFetched b) then s.failBarge b.id fCFG
  else if !waits.isEmpty then s.updBarge b.id (·.setOp i fun o => { o with st := .waiting })
  else if rs.any (s.confirmFails b w) then
    (if b.failedOnce l then s.failAgain b l fCFG else s.failLock b.id l)
  else (s.confirmLock b.id l rs).finishOp b.id i

/-- CONFIRM: record `i` of barge `b` (R111). -/
def execConfirm (b i : Nat) (s : State) : Host.Outcome State Fault Refusal :=
  s.engine fun s => s.runRec b i 0x51 confirmOk (fun _ => false) (confirmEffect i) fun _ _ w =>
    if recP w 5 4 = 2 then (recA w).extBytes 4 else []

/-! ### FENCE -/

/-- What a FENCE record waits for is complete, and with REMOTE the fabric requests of every earlier record, whatever SCOPE
says, are answered (R113; assumption 82). -/
def State.fenceMet (s : State) (b : Barge) (i : Nat) : Bool :=
  let w := s.progRec b i
  (List.range i).all fun k =>
    ((recP w 0 0 == 0 && recRegions (s.progRec b k) &&& recRegions w == 0) || b.opIs k .complete)
      && (recP w 1 1 == 0 || (b.op k).outstanding == 0)

def opFenceOk (_ : State) (_ : Barge) (_ : List Nat) (w : Nat) : Bool := recP w 127 2 == 0

/-- It completes at once when nothing is left to wait for; else OP_COMPLETE ends it. -/
def opFenceEffect (i : Nat) (s : State) (b : Barge) (_ : Nat) : State :=
  if s.fenceMet b i then s.finishOp b.id i else s

/-- OP_FENCE: the FENCE record `i` of barge `b` (R113). -/
def execOpFence (b i : Nat) (s : State) : Host.Outcome State Fault Refusal :=
  s.engine fun s => s.runRec b i 0x70 opFenceOk (fun _ => false) (opFenceEffect i)

/-! ### WAIT -/

def waitOk (s : State) (_ : Barge) (_ : List Nat) (w : Nat) : Bool :=
  recP w 127 80 == 0 && recP w 79 64 != 0 && (recA w).space == spEXT && s.rawFits (recA w) 8

/-- The word read satisfies the WAIT: it is clean and not less than VALUE (R114). -/
def State.waitMet (s : State) (w : Nat) : Bool :=
  !s.extPoison (recA w).addr 8 && decide (recP w 63 0 ≤ s.extNat (recA w).addr 8)

/-- A WAIT's word lies in another barge's open C range (R135). -/
def State.waitHeld (s : State) (b : Barge) (w : Nat) : Bool := s.rangesHeld b.id ((recA w).extBytes 8)

def waitEffect (i : Nat) (s : State) (b : Barge) (w : Nat) : State := if !s.waitHeld b w && s.waitMet w then s.finishOp b.id i else s

/-- A WAIT that runs reads its word again (R114). -/
def State.waitAgain (s : State) (id i : Nat) : State :=
  match s.barge? id with
  | some b =>
    if recOp (s.progRec b i) == 0x71 && b.opIs i .running && b.failed.isNone && b.st == .running
        && !s.waitHeld b (s.progRec b i) && s.waitMet (s.progRec b i)
    then s.finishOp id i else s
  | none => s

/-- WAIT: record `i` of barge `b` issues and reads its word, or, running already, reads it again (R114). -/
def execWait (b i : Nat) (s : State) : Host.Outcome State Fault Refusal :=
  s.engine fun s => (s.runRec b i 0x71 waitOk (fun _ => false) (waitEffect i)).waitAgain b i

/-- LIMIT µs have passed since a WAIT issued, and it is not satisfied (R114). -/
def State.waitExpired (s : State) (b : Barge) (i : Nat) : Bool :=
  recOp (s.progRec b i) == 0x71 && b.opIs i .running && decide ((b.op i).issued + recP (s.progRec b i) 79 64 ≤ s.now)

/-- WAIT_LIMIT_EXPIRY: the LIMIT of WAIT record `i` of barge `b` passes (R114, R116). -/
def execWaitLimitExpiry (b i : Nat) (s : State) : Host.Outcome State Fault Refusal :=
  s.engine fun s => match s.barge? b with
    | some x => if s.waitExpired x i then s.failBarge b fTIMEOUT else s
    | none => s

/-! ### SIGNAL -/

def signalOk (s : State) (_ : Barge) (_ : List Nat) (w : Nat) : Bool :=
  recP w 127 78 == 0 && (recA w).space == spEXT && s.rawFits (recA w) 8

/-- The SIGNAL's one commit unit: an add to the local word, or the fetch-add of a remote one (R115, R121). A DEST in
another rack is refused (R19). -/
def signalEffect (i : Nat) (s : State) (b : Barge) (w : Nat) : State :=
  let dest := recP w 76 64
  let a := (recA w).addr
  let addend := BitVec.ofNat 64 (recP w 63 0)
  if recP w 77 77 = 1 && dest != s.selfId then
    (if dest / 512 != s.selfId / 512 then ((s.count pFAB 0xF1C).err pFAB 4).failBarge b.id fCFG
     else s.addUnit { b := b.id, i := i, key := 0, act := .fetchAdd dest a addend, pend := b.lockSet w })
  else
    let t := s.taint .ext a 8
    s.addUnit { b := b.id, i := i, key := 0, act := .addWord a addend, pend := b.lockSet w ||| t.pend, poison := t.poison }

/-- SIGNAL: record `i` of barge `b` (R115). -/
def execSignal (b i : Nat) (s : State) : Host.Outcome State Fault Refusal :=
  s.engine fun s => s.runRec b i 0x72 signalOk (fun _ => false) (signalEffect i)

end Sys2Proof.Machine
end

