-- ==== Sys2Proof/Machine/Ending.lean ====
section
/-! DEFINITION. OP_COMPLETE (R89), COMMIT_UNIT (R121 to R123, R279, R288, R406) and BARGE_END (R59, R273, R282, R288,
R291). -/

namespace Sys2Proof.Machine

open Sys2Proof

/-! ### OP_COMPLETE -/

/-- Opcodes whose completion is the effect of another row: reads that come in, collectives, barriers and WAITs. -/
def endsItself (o : Nat) : Bool := o == 0x20 || o == 0x21 || (0x40 ≤ o && o ≤ 0x42) || o == 0x71

/-- Everything that record `i` of a barge waits for is done: its commits are made and its messages answered (R89, R113). -/
def State.opDone (s : State) (b : Barge) (i : Nat) : Bool :=
  let w := s.progRec b i
  b.failed.isNone && b.opIs i .running && !endsItself (recOp w)
    && (recOp w != 0x24 || (s.rows.moves.isEmpty && s.rows.migRest.isEmpty))
    && (if recOp w = 0x70 then s.fenceMet b i else (s.unitsOf b.id i).isEmpty && (b.op i).outstanding == 0)

/-- What the completed instances of a record count (R382, R455). -/
def State.countOp (s : State) (b : Barge) (w : Nat) : State :=
  if executor? w == some .tile then (b.tiles w).foldl (fun s (r, j) => s.count (tPage (r * 16 + j)) 0xF08) s
  else if recOp w = 0x10 || recOp w = 0x11 then (b.regionInstances w).foldl (fun s (r, _) => s.count (rPage r) 0xF54) s
  else s

/-- An SGRAD with TARGET 1 that completes leaves its regions' gradient lists empty (R170, R245). -/
def State.emptyLists (s : State) (b : Barge) (w : Nat) : State :=
  if recOp w = 0x23 && gradTarget1 w then (b.physOf (recRegions w)).foldl (fun s r => s.setUses r 0) s else s

/-- The other record of a pair: the DELTA after an MM with PAIR, or the MM before a forward DELTA (R95). -/
def State.pairOf (s : State) (b : Barge) (i : Nat) : Option Nat :=
  let w := s.progRec b i
  if recOp w = 0x01 && mmPair w then some (i + 1)
  else if recOp w = 0x02 && recP w 41 40 = 0 then some (i - 1) else none

/-- Record `i` completes; a pair completes together, and sets both its tokens (R95). -/
def State.opComplete (s : State) (id i : Nat) : State :=
  match s.barge? id with
  | none => s
  | some b =>
    let all := i :: (s.pairOf b i).toList.filter fun k => !b.opIs k .complete
    if all.all (s.opDone b) then
      (all.foldl (fun s k => (((s.countOp b (s.progRec b k)).emptyLists b (s.progRec b k)).finishOp id k)) s).enterBarriers
    else s

/-- OP_COMPLETE: record `i` of barge `b` completes on every instance (R89). -/
def execOpComplete (b i : Nat) (s : State) : Host.Outcome State Fault Refusal := s.engine fun s => s.opComplete b i

/-! ### KV_COMMIT's units (R99, R279, R288) -/

/-- The tokens that are delivered, of those a row emits: none beyond MAX_TOKENS, none after STOP_TOKEN (R279). -/
def deliver (max stop : Nat) : Nat → List Nat → List Nat
  | _, [] => []
  | n, t :: ts => if max ≤ n then [] else if t = stop && stop != 0xFFFFFFFF then [t] else t :: deliver max stop (n + 1) ts

/-- The request has ended under R279. -/
def Berth.ends (be : Berth) (outs : List Nat) : Bool :=
  be.maxTokens ≤ be.delivered + outs.length || (be.stopToken != 0xFFFFFFFF && outs.getLast? == some be.stopToken)

/-- No row of the request in berth `n` is still to be committed by record `i` (R99). -/
def State.requestDone (s : State) (b : Barge) (i n : Nat) : Bool :=
  (s.unitsOf b.id i).all fun u => u.rows.all fun k => (b.rows[k]?).elim true fun r => r.kind == 2 || r.berth != n

/-- The TOKEN record of a request for one KV_COMMIT (R68, R99, R267; assumption 89). -/
def State.tokenRecord (s : State) (n tokens : Nat) : State :=
  let be := s.berth n
  match s.item? be.j with
  | some it =>
    s.queueRec (s.cqOf it.sq)
      { kind := .token, cookie := it.cookie, sq := it.sq, sqIndex := it.sqIndex, sqHead := (s.sq it.sq).head, berth := n
        value0 := be.committed, value1 := tokens, aoUs := s.now, deadline := be.closeDeadline, irq := it.irq }
  | none => s

/-- The request's rows of record `i` are all committed: its TOKEN record is written if its EMIT total is above 0 (R99). -/
def State.tokenDue (s : State) (b : Barge) (i n : Nat) : State :=
  match ((s.barge? b.id).elim [] fun x => (x.op i).emits).find? (·.1 == n) with
  | some (_, emit, tokens) => if emit != 0 && s.requestDone b i n then s.tokenRecord n tokens else s
  | none => s

/-- A row of berth `n` has emitted tokens, of which some are delivered. -/
def OpRun.emit (o : OpRun) (n emit tokens : Nat) : OpRun :=
  let (e, k) := ((o.emits.find? (·.1 == n)).map (·.2)).getD (0, 0)
  { o with emits := (n, e + emit, k + tokens) :: o.emits.filter (·.1 != n) }

/-- What a row's commit refunds, in positions: those not committed, and those whose token is withheld (R288). -/
def refundOf (r : ManRow) (commit withheld : Nat) : Nat :=
  if r.kind = 0 then min (r.draft + 1) (r.draft + 1 - commit + withheld) else 0

/-- A request's row commits (R99, R279, R288, R290); none where its output buffer lies beyond memory (R317). -/
def State.commitKv (s : State) (b : Barge) (i row : Nat) (r : ManRow) (commit : Nat) (toks : List Nat) : Option State :=
  let n := r.berth
  let be := s.berth n
  let last := r.kind == 0 || r.position + 1 == be.startPos + be.promptLen
  let outs := if be.finished || !last then [] else deliver be.maxTokens be.stopToken be.delivered toks
  let a := be.outAddr + 4 * be.delivered
  if be.outExt && !outs.isEmpty && decide (s.populated < a + 4 * outs.length) then none
  else
    let s := if outs.isEmpty then s else s.locWrite be.outExt a (outs.flatMap (leBytes 4)) (.output n be.j)
    let committed := be.committed + commit
    let s := s.setBerth n { be with
      committed := committed, delivered := be.delivered + outs.length
      kv := be.kv.filter fun x => committed ≤ x.position
      st := if be.st == .prefill && be.startPos + be.promptLen ≤ committed then .decode else be.st
      finished := be.finished || be.ends outs && !outs.isEmpty }
    let s := s.acctCount be.tenant fun a => { a with
      outTokens := satAdd 32 a.outTokens outs.length
      prefillTokens := satAdd 32 a.prefillTokens (if r.kind = 1 then commit else 0)
      draftsRejected := satAdd 32 a.draftsRejected (if r.kind = 0 then r.draft + 1 - commit else 0) }
    let back : Int := (256 - (s.wd : Int)) * (refundOf r commit (toks.length - outs.length) : Nat)
    let s := if r.kind = 0 then s.balance (s.acctOf be.tenant) back else s
    let s := s.updBarge b.id fun x => { x.setOp i (·.emit n toks.length outs.length) with
      rows := setAt x.rows row fun q => { q with committed := true }
      specs := x.specs.filter fun p => !(p.berth == n && r.position ≤ p.position && p.position < r.position + commit) }
    some (s.tokenDue b i n)

/-! ### COMMIT_UNIT -/

/-- Rows of one request are committed in manifest order, and record after record (R99). -/
def State.unitInOrder (s : State) (b : Barge) (u : CUnit) : Bool :=
  match u.act with
  | .kvCommit row _ _ => s.sv.units.all fun v =>
      !(v.b == b.id && recOp (s.progRec b v.i) == 0x31 && (v.i < u.i || (v.i == u.i && v.key < row))
        && ((b.rows[v.key]?).map (·.berth)) == ((b.rows[row]?).map (·.berth)))
  | _ => true

/-- A row is between steps 2 and 4 of R210 here: offered and not yet settled, or held PROVISIONAL. -/
def State.rowsMoving (s : State) : Bool :=
  !s.rows.moves.isEmpty || s.rows.provisional.any fun (t, x, _) => ((s.exc? t x).map fun e => excState e.2) == some ePROV

/-- The structures of the tables that a step touched. -/
def State.stepAreas (s : State) (step : Nat) : List (Nat × Nat) :=
  ((s.touched step).map (·.table)).eraseDups.flatMap fun k => match s.tab k with
    | .ok t => s.tabAreas t
    | _ => []

/-- The words of a unit lie in an open collective's range of another barge (R135), or it reads the merge buffer of a region
that has yet to wake (R398), or would be applied to rows that are moving (R211), so it waits. -/
def State.unitHeld (s : State) (b : Barge) (u : CUnit) : Bool :=
  match u.act with
  | .memWrite a bs => s.rangesHeld b.id [(a, bs.length)]
  | .addWord a _ => s.rangesHeld b.id [(a, 8)]
  | .applyStep step _ _ => ((s.mergeRegions step).any fun r => !s.awake r) || s.rowsMoving || s.rangesHeld b.id (s.stepAreas step)
  | .kvCommit row _ toks => match b.rows[row]? with
    | some r => let be := s.berth r.berth
                be.outExt && s.rangesHeld b.id [(be.outAddr + 4 * be.delivered, 4 * toks.length)]
    | none => false
  | _ => false

/-- The unit may be settled: its locks are confirmed and its record's tokens are set (R121). -/
def State.unitReady (s : State) (b : Barge) (u : CUnit) : Bool :=
  b.failed.isNone && b.opIs u.i .running && b.allConfirmed u.pend && b.waitsMet (s.progRec b u.i) && s.unitInOrder b u && !s.unitHeld b u

/-- The unit is settled. -/
def State.dropUnit (s : State) (u : CUnit) : State :=
  { s with sv := { s.sv with units := s.sv.units.filter fun v => !(v.b == u.b && v.i == u.i && v.key == u.key) } }.updBarge u.b
    (·.setOp u.i fun o => { o with done := u.key :: o.done })

/-- A unit refused for poison (R123, R406). -/
def State.refuseUnit (s : State) (b : Barge) (u : CUnit) : State :=
  let s := s.refusePoison
  if u.rows.isEmpty || b.rows.isEmpty then s.failBarge b.id fECC else s.failRows b.id u.rows fECC

/-- What the unit does (R121); none where it would write beyond memory. -/
def State.actUnit (s : State) (b : Barge) (u : CUnit) : Option State :=
  match u.act with
  | .memWrite a bs => some (s.extWrite a bs)
  | .addWord a v => some (s.addAt a v)
  | .fetchAdd dest a v =>
    let s := s.sentOne b.id u.i
    some (s.request (.fetchAdd b.id u.i) { dest := dest, vc := 1, op := 3, addr := a, imm := v })
  | .gradient t x m g => some (s.sendGradient b u.i t x m g u.rows)
  | .kvCommit row commit toks => match b.rows[row]? with
    | some r => if r.kind = 2 then some (s.updBarge b.id fun x => { x with rows := setAt x.rows row fun q => { q with committed := true } })
        else s.commitKv b u.i row r commit toks
    | none => some s
  | .applyStep step rnd sat => some (s.applyStep step rnd sat)
  | .output row a bs =>
    let be := s.berth ((b.rows[row]?).elim 0 (·.berth))
    if be.outExt && decide (s.populated < a + bs.length) then none
    else some (s.locWrite be.outExt a bs (.output ((b.rows[row]?).elim 0 (·.berth)) be.j))
  | .fails row fate => some (match row with | some k => s.failRow b.id k fate | none => s.failBarge b.id fate)

/-- The word that an add reads is poisoned now. -/
def State.addPoison (s : State) (u : CUnit) : Bool := match u.act with | .addWord a _ => s.extPoison a 8 | _ => false

/-- The rows that a unit belongs to are all left out of later commits (R116). -/
def Barge.unitOut (b : Barge) (u : CUnit) : Bool := !u.rows.isEmpty && u.rows.all fun k => ((b.rows[k]?).map (·.out)).getD false

def State.commitUnit (s : State) (id i key : Nat) : Option State :=
  match s.barge? id, s.sv.units.find? fun u => u.b == id && u.i == i && u.key == key with
  | some b, some u =>
    if !s.unitReady b u then some s
    else if b.unitOut u then some (s.dropUnit u)
    else if u.poison || s.addPoison u then some ((s.dropUnit u).refuseUnit b u)
    else (s.dropUnit u).actUnit b u
  | _, _ => some s

/-- COMMIT_UNIT: the unit with key `u` of record `i` of barge `b` (R121). -/
def execCommitUnit (b i u : Nat) (s : State) : Host.Outcome State Fault Refusal :=
  if s.up then (match s.commitUnit b i u with | some t => .next t | none => .fault .beyondPopulated) else .next s

/-! ### BARGE_END -/

/-- The barge has failed, or every record and every commit of it is done (R273, R121). -/
def State.mayEnd (s : State) (b : Barge) : Bool :=
  b.failed.isSome
    || (b.st == .running && (b.fetchedAll || b.progLen == 0) && b.ops.all (·.st == .complete)
        && s.sv.units.all (·.b != b.id))

/-- Rows that never reached KV_COMMIT refund their whole charge (R288). -/
def State.refundRows (s : State) (b : Barge) : State :=
  if b.solo then s
  else (b.rows.filter fun r => r.kind != 2 && !r.committed).foldl (fun s r => s.balance (s.acctOf r.tenant) (s.rowCharge r : Nat)) s

/-- The step estimate and the averages take the barge's time (R282, R291). -/
def State.noteTime (s : State) (b : Barge) : State :=
  if b.solo then s
  else
    let t := s.now - b.closedAt - b.savedUs
    let k := s.ewmaShift
    let ns := if b.slots = 0 then 0 else 1000 * t / b.slots
    let avg := fun (o : Option Nat) => some (o.elim ns fun e => ewma k e ns)
    s.updMooring b.mooring fun x =>
      let x := { x with bargesEnded := satAdd 32 x.bargesEnded 1 }
      if b.failed.isSome then x
      else { x with
        est := ewma k x.est (16 * t), solo := if b.alone then avg x.solo else x.solo
        shared := if b.alone then x.shared else avg x.shared }

/-- The barge leaves its regions: a failed one leaves no piece behind (R300, R303, R398). -/
def State.leaveRegions (s : State) (b : Barge) : State :=
  b.holds.foldl (fun s r =>
    (s.updRegion r fun x => { x with
      waited := x.waited.filter (·.1 != b.id)
      ranLast := if b.solo then none else some b.mooring
      pieces := if b.failed.isSome then x.pieces.filter (·.mooring != b.mooring)
        else mapIf x.pieces (·.mooring == b.mooring) fun p => { p with lastUse := s.now }
      moored := if b.failed.isSome then x.moored.filter (·.mooring != b.mooring) else x.moored }).idle r) s

/-- The BARGE record (R67, R68, R70); its SQ_HEAD is 0, as its SQ is (assumption 80). -/
def State.bargeRecord (s : State) (b : Barge) : State :=
  match b.journal with
  | none => s
  | some j =>
    let r : Rec := { kind := .barge, fate := b.failed.getD fDONE, value0 := b.number, aoUs := s.now, journal := some j
                     value1 := b.mask * 2 ^ 20 + b.mooring * 2 ^ 16 + b.rows.length }
    (s.journalWrite j r 2).queueRec s.lkCq r

/-- The requests of a barge are carried by none. -/
def State.uncarry (s : State) (id : Nat) : State :=
  { s with
    sv := { s.sv with
      berths := s.sv.berths.map fun (n, be) =>
        (n, if be.barge = some id then { be with barge := none, closeDeadline := none } else be) } }

/-- The barge is gone. -/
def State.removeBarge (s : State) (b : Barge) : State :=
  { s with
    gathers := s.gathers.filter (·.b != b.id)
    sv := { s.sv with
      barges := s.sv.barges.filter (·.id != b.id)
      units := s.sv.units.filter (·.b != b.id)
      saveSlots := s.sv.saveSlots.filter fun k => some k != b.saveSlot } }

def State.endBarge (s : State) (id : Nat) : State :=
  match s.barge? id with
  | none => s
  | some b =>
    if !s.mayEnd b then s
    else
      let s := if b.failed.isNone then s.endGap b else s
      let s := if b.st == .saved then s.countSaved b else s
      let s := ((s.endRequestOf id).endColls id).refundRows b
      let s := ((s.noteTime b).uncarry id).noteDefers
      let s := match b.carried with | some j => s.settleJ j fDONE | none => s
      let s := ((s.bargeRecord b).removeBarge b).leaveRegions b
      if b.solo then s else s.boundary b.mooring

/-- BARGE_END: barge `b` (R59, R273). -/
def execBargeEnd (b : Nat) (s : State) : Host.Outcome State Fault Refusal := s.engine fun s => s.endBarge b

end Sys2Proof.Machine
end

