-- ==== Sys2Proof/Machine/Reset.lean ====
section
/-! DEFINITION. Resets and the release sequence (R383 to R392), the clock monitors and quarantine (R393 to R396), the power
states of the regions (R398), the watchdog (R399), and the keeper image (R453). -/

namespace Sys2Proof.Machine

open Sys2Proof

/-! ### Reset events (R384 to R388) -/

/-- A source of the full class (R384). -/
def ResetSource.full : ResetSource → Bool
  | .powerOn | .brownOut => true
  | _ => false

/-- A source's bit in LAST_CAUSE (R399). -/
def ResetSource.cause : ResetSource → Nat
  | .powerOn => 0
  | .brownOut => 1
  | .pin => 2
  | .watchdog => 3
  | .software => 4
  | .debug => 5
  | .clkFail => 6
  | .lockUp => 7

/-- A source's counter: register offset and low bit of the field (R388, R399). -/
def ResetSource.counter : ResetSource → Nat × Nat
  | .powerOn => (0xF04, 0)
  | .brownOut => (0xF04, 16)
  | .pin => (0xF08, 0)
  | .watchdog => (0xF08, 16)
  | .software => (0xF0C, 0)
  | .debug => (0xF0C, 16)
  | .clkFail => (0xF10, 0)
  | .lockUp => (0xF10, 16)

/-- A register of the backup domain (R388). -/
def backupReg (a : Nat) : Bool := 0x1F00 ≤ a && a ≤ 0x1F14

/-- What a reset keeps of the register window: the backup domain, and of the strap's sample MV, FAULT and CODE (R387). -/
def State.keptRegs (s : State) : SMap Word :=
  SMap.put regReset (s.regs.filter fun x => backupReg x.1) 0x1F18 (s.reg pRST 0xF18 &&& 0xFFF8F)

/-- Every host write begun before a warm reset completes (R386). -/
def State.drainHost (s : State) : Mem :=
  (s.hq.dmaWrites.filter fun w => w.tag < 256).foldl (fun m w => Mem.write m w.addr w.bytes) s.hostMem

/-- What a warm reset keeps of the queues: what lies in external memory, and what the host side holds (R387). -/
def State.keptQueues (s : State) (full : Bool) : Queues :=
  let q : Queues := { badUnits := s.hq.badUnits, messages := s.hq.messages, imHold := s.hq.imHold }
  if full then q else { q with dup := s.hq.dup, dupBase := s.hq.dupBase, bargeNo := s.hq.bargeNo }

/-- What a warm reset keeps of the row store and the updates outside memory's bytes: the weir header (R263, R458). -/
def State.keptRows (s : State) (full : Bool) : Rows :=
  if full then {}
  else
    { weirGood := s.rows.weirGood, weirApplied := s.rows.weirApplied, weirApplying := s.rows.weirApplying
      weirHighest := s.rows.weirHighest, weirBase := s.rows.weirBase }

/-- A flip whose descriptor writes are under way leaves any subset of them made (R189; assumption 95). -/
def State.cutFlips (s : State) : State :=
  (List.range 16).foldl (fun s m =>
    if (s.mooring m).rewriting then
      ((s.mooring m).flipping.filter fun a => !Config.flipWritten s.now m a).foldl (fun s a => s.invertActive m a) s
    else s) s

/-- The reset event in progress takes hold (R386, R387). -/
def State.takeHold (s : State) : State :=
  let full := s.rst.sources.any (·.full)
  let s := s.cutFlips
  { pending := s.pending
    params := s.params
    aoUs := s.aoUs
    rst := { active := true, sources := s.rst.sources, vbakLost := s.rst.vbakLost, full := full, aoLost := s.rst.aoLost }
    regs := s.keptRegs
    ext := if full then [] else s.ext
    tags := if full then [] else s.tags
    hostMem := if full then s.hostMem else s.drainHost
    imem := if full then [] else s.imem
    hq := s.keptQueues full
    rows := s.keptRows full
    fab := { sent := s.fab.sent }
    errWindowFrom := s.now
    tap := if full then {} else s.tap
    picks := s.picks }

/-- A source asserts: it joins the event in progress, or begins one (R385). -/
def State.resetBy (s : State) (src : ResetSource) : State :=
  if s.rst.active then
    let t : State := { s with rst := { s.rst with sources := if s.rst.sources.contains src then s.rst.sources else s.rst.sources ++ [src] } }
    if src.full && !s.rst.full then t.takeHold else t
  else
    let t : State := { s with rst := { s.rst with active := true, sources := [src] } }
    t.takeHold

/-- POWER_ON (R384). -/
def execPowerOn (s : State) : Host.Outcome State Fault Refusal := .next (s.resetBy .powerOn)

/-- BROWN_OUT (R384). -/
def execBrownOut (s : State) : Host.Outcome State Fault Refusal := .next (s.resetBy .brownOut)

/-- PIN_RESET (R384, R386). -/
def execPinReset (s : State) : Host.Outcome State Fault Refusal := .next (s.resetBy .pin)

/-- The watchdog runs, and its period of PERIOD × 40.96 µs has passed since it was enabled or kicked (R399). -/
def State.wdtExpired (s : State) : Bool :=
  let w := s.reg pRST 0x064
  s.live && bitOf w 31 && fld w 15 0 != 0 && decide (4096 * fld w 15 0 ≤ 100 * (s.now - s.rst.wdtSince))

/-- WATCHDOG (R384, R399). -/
def execWatchdog (s : State) : Host.Outcome State Fault Refusal := .next (if s.wdtExpired then s.resetBy .watchdog else s)

/-- A write of RST.SW_RESET (R384, R399). -/
def State.swReset (s : State) (w : Word) : State := if fld w 31 16 = 0x0C07 && bitOf w 0 then s.resetBy .software else s

/-- SW_RESET: a write of RST.SW_RESET. -/
def execSwReset (data : Word) (s : State) : Host.Outcome State Fault Refusal := s.always fun s => s.swReset data

/-- ENG_RESET: the TAP instruction 0x21 at Update-IR (R384, R438). -/
def execEngReset (s : State) : Host.Outcome State Fault Refusal :=
  .next (({ s with tap := { s.tap with ir := 0x21 } } : State).resetBy .debug)

/-- A keeper core runs (R453). -/
def State.keeperRuns (s : State) : Bool := bitOf (s.reg pKEEP oCTRL) 0

/-- LOCK_UP: a double trap or a keeper bus access that never completes (R384, R411); it takes a running core. -/
def execLockUp (s : State) : Host.Outcome State Fault Refusal := .next (if s.live && s.keeperRuns then s.resetBy .lockUp else s)

/-- VBAK is lost: the backup domain restarts at zero (R388). -/
def State.loseVbak (s : State) : State :=
  { s with
    regs := s.regs.filter fun x => !backupReg x.1
    rst := { s.rst with vbakLost := true } }

/-- VBAK_LOSS (R388). -/
def execVbakLoss (s : State) : Host.Outcome State Fault Refusal := .next s.loseVbak

/-! ### Release (R390, R392, R419) -/

/-- The integration parameters are within R418. -/
def Params.ok (p : Params) : Bool :=
  p.vlanes ≤ 2 && [8, 12, 16].contains p.memPorts && 8 ≤ p.memGib && p.memGib ≤ 2048 && p.memGib % p.memPorts == 0
    && 500 ≤ p.mclkMhz && p.mclkMhz ≤ 2000 && 8 ≤ p.fabPorts && p.fabPorts ≤ 24 && p.jtagMfr < 2 ^ 11

/-- Step 1: the backup domain records the event (R385, R388). -/
def State.recordEvent (s : State) : State :=
  let cause := ofBits (s.rst.sources.map (·.cause)) + 256 * bit s.rst.vbakLost
  let s := s.rst.sources.foldl (fun s src =>
    let (o, lo) := src.counter
    let w := s.regN pRST o
    s.setRegN pRST o (setFld w (lo + 15) lo (satAdd 16 (nfld w (lo + 15) lo) 1))) s
  (s.setRegN pRST 0xF00 cause).setRegN pRST 0xF14 (s.regN pRST 0xF14 + 1)

/-- Step 2: the strap is converted, from its averaged voltage in mV (R390). -/
def State.convertStrap (s : State) (mv : Nat) : State :=
  if 800 ≤ mv then (s.setRegN pRST 0xF18 (min mv 4095 * 256 + 128)).err pRST 0
  else s.setRegN pRST 0xF18 (mv * 256 + mv / 50)

/-- Steps 1 to 3: the event is recorded, the strap is converted where its class resamples it, and the towpath is live. -/
def State.releaseReset (s : State) (mv : Nat) : State :=
  let resample := s.rst.sources.any fun x => x.full || x == .pin
  let s := s.recordEvent
  let s := if resample then s.convertStrap mv else s
  let s : State := { s with rst := { s.rst with active := false, sources := [], vbakLost := false, aoLost := false, step := 3 } }
  if s.params.ok then s else s.err pGLB 2

/-- RESET_RELEASE: the event's last source is released, the strap at `strapMv` (R384, R392). -/
def execResetRelease (strapMv : Nat) (s : State) : Host.Outcome State Fault Refusal :=
  .next (if s.rst.active then s.releaseReset strapMv else s)

/-! ### Keeper image (R453) -/

/-- The word of keeper memory at a byte address. -/
def State.imemNat (s : State) (a n : Nat) : Nat := Mem.nat s.imem a n

/-- The image check. -/
def State.imageOk (s : State) : Bool :=
  let len := s.imemNat 0 4
  16 ≤ len && len ≤ 262144 && len % 4 == 0 && (crc32c (Mem.read s.imem 8 (len - 8))).toNat == s.imemNat 4 4

/-- The check is run: the cores are released, or IMAGE_CHECK is set. -/
def State.runImageCheck (s : State) : State :=
  if s.imageOk then
    (s.setReg pKEEP oCTRL (s.reg pKEEP oCTRL ||| 1)).setRegN pKEEP 0xF08 (s.imemNat 0 4)
  else s.err pKEEP 0

/-! ### Clocks (R393 to R395) -/

/-- CLK_GOOD of a clock (R400). -/
def State.clkGood (s : State) (c : Nat) : Bool := bitOf (s.reg pCLK 0xF00) c

def State.setClkGood (s : State) (c : Nat) (b : Bool) : State :=
  s.setRegN pCLK 0xF00 (setFld (s.regN pCLK 0xF00) c c (bit b))

/-- The expected count of a clock's window, times 100 (R393). -/
def State.expected100 (s : State) (c : Nat) : Nat :=
  if c ≤ 8 then 2457600 else if c = 9 then 6553600 else s.params.mclkMhz * 4096

/-- A count within 2 % of the expected one, the bounds included. -/
def State.windowPasses (s : State) (c n : Nat) : Bool :=
  decide (98 * s.expected100 c ≤ 10000 * n) && decide (10000 * n ≤ 102 * s.expected100 c)

/-- A clock whose monitor runs: its PLL is locked, or it is the mclk of a populated port. -/
def State.monitored (s : State) (c : Nat) : Bool := if c ≤ 9 then s.rst.locked.contains c else c - 10 < s.params.memPorts

/-- A clock's PLL stops or loses lock. -/
def State.unlock (s : State) (c : Nat) : State :=
  { s.setClkGood c false with rst := { s.rst with locked := s.rst.locked.filter (· != c) } }

/-- The barges on a region fail (R116). -/
def State.failRegion (s : State) (r fate : Nat) : State :=
  (s.sv.barges.filter fun b => b.holds.contains r).foldl (fun s b => s.failBarge b.id fate) s

/-- Region `r` enters quarantine; ERR_STATUS bit `b` of its page says why (R395, R408). -/
def State.quarantine (s : State) (r b : Nat) : State :=
  let s := s.err (rPage r) b
  if (s.region r).quarantined then s
  else
    let s := (s.err pERR 2).updRegion r fun x => { x with quarantined := true, waking := none }
    (s.failRegion r fQUARANTINE).mergeToWeir r

/-- A region's clock fails (R394, R395, R400). -/
def State.regionClockFails (s : State) (r : Nat) : State := (s.err pCLK 0).quarantine r 0

/-- Step 5 and what follows at once: after a warm reset the keeper cores are released if the kept image passes its check,
and the fabric unit is released (R392). -/
def State.stepFive (s : State) : State :=
  let s := if s.rst.full then s else s.runImageCheck
  { s with rst := { s.rst with step := 6 } }

/-- Step 7 is reached once every populated memory port is released. -/
def State.stepSeven (s : State) : State :=
  if s.rst.step = 6 && (List.range s.params.memPorts).all fun p => s.rst.portsReady.contains p && s.clkGood (10 + p) then
    { s with rst := { s.rst with step := 7 } }
  else s

/-- The steps that passing windows and ready ports bring (R392). -/
def State.advance (s : State) : State :=
  let s := if s.rst.step = 4 && s.clkGood 8 && s.clkGood 9 then s.stepFive else s
  s.stepSeven

/-- A region that needs its PLL: it wakes from NAP or from OFF. -/
def State.wantsPll (s : State) (r : Nat) : Bool := (s.region r).waking == some .nap || (s.region r).waking == some .off

/-- A PLL locks. -/
def State.lockPll (s : State) (c : Nat) : State :=
  if s.rst.locked.contains c || !s.params.ok then s
  else if c = 8 || c = 9 then
    let s : State := { s with rst := { s.rst with locked := s.rst.locked ++ [c] } }
    if s.rst.step = 3 && s.rst.locked.contains 8 && s.rst.locked.contains 9 then { s with rst := { s.rst with step := 4 } } else s
  else if c < 8 && s.up && s.wantsPll c then { s with rst := { s.rst with locked := s.rst.locked ++ [c] } }
  else s

/-- PLL_LOCK: of the engine PLL (8), the fabric PLL (9) or a waking region's PLL (R392, R394). -/
def execPllLock (clock : Nat) (s : State) : Host.Outcome State Fault Refusal := s.always fun s => s.lockPll clock

/-- A window of clock `c` ends with a count (R393, R394, R414). -/
def State.window (s : State) (c n : Nat) : State :=
  if !s.monitored c then s
  else
    let s : State := { s with rst := { s.rst with counts := SMap.put (fun _ => 0) s.rst.counts c n } }
    let inj := s.armed.clock.contains c
    let s : State := if inj then { s with armed := { s.armed with clock := s.armed.clock.erase c } }.count pERR 0xF34 else s
    if s.windowPasses c n && !inj then (s.setClkGood c true).advance
    else
      let s := (s.setClkGood c false).count pCLK 0xF08
      if 8 ≤ c then s.resetBy .clkFail else s.regionClockFails c

/-- MONITOR_WINDOW: a window of clock 0 to 25 ends, in the numbering of MON_SEL (R393). -/
def execMonitorWindow (clock count : Nat) (s : State) : Host.Outcome State Fault Refusal := s.always fun s => s.window clock count

/-- The clock that a failure names runs. -/
def State.canLose (s : State) : ClockLoss → Bool
  | .aoClk => true
  | .enginePll | .engineWindow => s.rst.locked.contains 8
  | .fabricPll | .fabricWindow => s.rst.locked.contains 9
  | .mclkWindow p => s.live && p < s.params.memPorts

/-- CLOCK_FAILURE: an engine-level clock is lost (R384); without ao_clk, ao_us stops until the release. -/
def execClockFailure (c : ClockLoss) (s : State) : Host.Outcome State Fault Refusal :=
  .next (if s.canLose c then
    let t : State := if c = .aoClk then { s with rst := { s.rst with aoLost := true } } else s
    t.resetBy .clkFail else s)

/-- REGION_PLL_LOCK_LOSS: of region `r` (R394). -/
def execRegionPllLockLoss (r : Nat) (s : State) : Host.Outcome State Fault Refusal :=
  s.engine fun s => if r < 8 && s.rst.locked.contains r then (s.unlock r).regionClockFails r else s

/-- MEM_PORT_READY: the controller of a populated port signals ready (R392 step 6, R433). -/
def execMemPortReady (port : Nat) (s : State) : Host.Outcome State Fault Refusal :=
  s.always fun s =>
    if port < s.params.memPorts && !s.rst.portsReady.contains port then
      let t : State := { s with rst := { s.rst with portsReady := s.rst.portsReady ++ [port] } }
      t.advance
    else s

/-! ### Region power (R398) -/

/-- What a region's SRAM holds is lost: its pool, its tiles' scratchpads, its pieces and its row cache. -/
def State.dropSram (s : State) (r : Nat) : State :=
  let s := s.updRegion r fun x => { x with pieces := [], cache := [], moored := [] }
  { s with
    pool := s.pool.filter fun x => !(r * poolBytes ≤ x.1 && x.1 < (r + 1) * poolBytes)
    scratch := s.scratch.filter fun x => !(16 * r * scratchBytes ≤ x.1 && x.1 < 16 * (r + 1) * scratchBytes)
    marks := s.marks.filter fun x => !inRegion r x.1
    armed := { s.armed with latent := s.armed.latent.filter fun x => !inRegion r x.1 } }

/-- Region `r` may go a step deeper: idle, in state `p`, not waking, quarantined or isolated, idle for `after` µs, and
DEEPEST allows the state `d` (R398, R401). -/
def State.maySink (s : State) (r : Nat) (p : Power) (after d : Nat) : Bool :=
  let x := s.region r
  r < 8 && x.power == p && x.waking.isNone && !x.quarantined && !s.isolated (rPage r) && !s.busyRegion r
    && decide (x.idleSince + after ≤ s.now) && decide (d ≤ s.deepest r)

/-- NAP_ENTRY: of region `r` (R394, R398). -/
def execNapEntry (r : Nat) (s : State) : Host.Outcome State Fault Refusal :=
  s.engine fun s =>
    if s.maySink r .doze (s.cfgN pPWR 0x104) 2 then (s.updRegion r fun x => { x with power := .nap }).unlock r else s

/-- OFF_ENTRY: of region `r`, which holds no merge entries (R398). -/
def execOffEntry (r : Nat) (s : State) : Host.Outcome State Fault Refusal :=
  s.engine fun s =>
    if s.maySink r .nap (s.cfgN pPWR 0x108) 3 && !(s.rows.merge.any (·.region == r)) then
      (s.updRegion r fun x => { x with power := .off }).dropSram r
    else s

/-- The override of R396 for region `r`. -/
def State.forced (s : State) (r : Nat) : Bool := bitOf (s.reg pCLK 0x060) r

/-- The wake from `p` may be released: from DOZE at once, from NAP at PLL lock, from OFF once CLK_GOOD is set, or at PLL
lock under FORCE_RELEASE (R394, R396, R398). -/
def State.mayRelease (s : State) (r : Nat) : Power → Bool
  | .run => false
  | .doze => true
  | .nap => s.rst.locked.contains r
  | .off => s.clkGood r || (s.forced r && s.rst.locked.contains r)

/-- The time of a wake, in whole µs, with what is left over (R398, R401). -/
def State.countWake (s : State) (p : Power) : State :=
  let t := s.sv.wakeTenths + p.wakeTenths
  { s with sv := { s.sv with wakeTenths := t % 10 } }.count pPWR 0xF08 (t / 10)

/-- Region `r` reaches RUN. A release that FORCE_RELEASE alone allows quarantines it at once (R396). -/
def State.wakeDone (s : State) (r : Nat) : State :=
  match (s.region r).waking with
  | none => s
  | some p =>
    if !s.mayRelease r p then s
    else
      let force := p == .off && !s.clkGood r
      let s := (s.updRegion r fun x => { x with power := .run, waking := none }).countWake p
      if force then (s.err pCLK 1).quarantine r 0
      else
        let s := (s.sv.barges.filter fun b => b.holds.contains r).foldl (fun s b => s.tryStart b.id) s
        s.accessDone r

/-- WAKE_COMPLETE: of region `r` (R394, R398). -/
def execWakeComplete (r : Nat) (s : State) : Host.Outcome State Fault Refusal := s.engine fun s => s.wakeDone r

/-! ### Watchdog (R399) -/

/-- WDT_KICK: a write of RST.WDT_KICK. -/
def State.kick (s : State) (w : Word) : State :=
  if w = 0x0C074B1C then { s with rst := { s.rst with wdtSince := s.now } } else s

def execWdtKick (data : Word) (s : State) : Host.Outcome State Fault Refusal := s.always fun s => s.kick data

/-- A write of RST.WDT_CTRL: PERIOD while ENABLE is 0, then ENABLE. -/
def State.writeWdt (s : State) (w : Word) : State :=
  if bitOf (s.reg pRST 0x064) 31 then s
  else
    let s := s.setReg pRST 0x064 (w &&& 0x8000FFFF)
    if bitOf w 31 then { s with rst := { s.rst with wdtSince := s.now } } else s

/-- WATCHDOG_ENABLE: a write of RST.WDT_CTRL. -/
def execWatchdogEnable (data : Word) (s : State) : Host.Outcome State Fault Refusal := s.always fun s => s.writeWdt data

end Sys2Proof.Machine
end

