-- ==== Sys2Proof/Machine/Faults.lean ====
section
/-! DEFINITION. Control faults and fatal errors (R407, R408, R411, R412), error injection (R414), the error window, and stop
planks with block reset (R397). -/

namespace Sys2Proof.Machine

open Sys2Proof

/-! ### Control faults (R408, R412) -/

/-- Tile `t` is quarantined for a parity error in its control state. -/
def State.tileCtrlFault (s : State) (t : Nat) : State := ((s.err (tPage t) 3).markTileQuar t).failNamed

/-- The fatal record in the journal header (R412, R456). -/
def State.fatalRecord (s : State) (page : Nat) : State :=
  if !s.hq.configured then s
  else
    let bs := leBytes 4 (256 + page) ++ leBytes 6 s.now ++ leBytes 2 0
    s.extWrite (s.journalBase + 0xF00) (bs ++ leBytes 4 (crc32c bs).toNat)

/-- FATAL is set, and ERR_VECTOR goes out if ERR_IRQ is set, whether or not the bit is masked or was set before (R412,
R447). -/
def State.flagFatal (s : State) : State :=
  let silent := bitOf (s.errStatus pERR) 3 || bitOf (s.reg pERR oERR_MASK) 3
  let s := s.err pERR 3
  if silent && bitOf (s.cfg pERR 0x108) 1 then s.raise (fld (s.cfg pERR 0x108) 15 8) else s

/-- A fatal error in the unit of a page (R412): the engine quiesces, records the cause and halts, or resets itself. -/
def State.fatal (s : State) (page : Nat) : State :=
  let s : State := { s with hostMem := s.drainHost, hq := { s.hq with dmaWrites := [], irqWait := [] } }
  let s := (s.fatalRecord page).setRegN pERR 0xF30 (256 + page)
  let s := s.flagFatal
  if bitOf (s.cfg pERR 0x108) 0 then s.resetBy .software else { s with rst := { s.rst with halted := true } }

/-- A parity error in a unit's control state (R404, R408). -/
def State.ctrlFault (s : State) : CtrlUnit → State
  | .tile t => if t < 128 then s.tileCtrlFault t else s
  | .region r => if r < 8 then s.quarantine r 3 else s
  | .engine page => if pageExists page && page < pTILE && !(pREGION ≤ page && page < pKEEP) then s.fatal page else s

/-- CTRL_PARITY_ERROR (R404, R408, R412). -/
def execCtrlParityError (u : CtrlUnit) (s : State) : Host.Outcome State Fault Refusal := s.engine fun s => s.ctrlFault u

/-- ERR_WINDOW_END: WINDOW_US µs have passed since the running window began (R408, R415). -/
def execErrWindowEnd (s : State) : Host.Outcome State Fault Refusal :=
  s.engine fun s =>
    if s.errWindowFrom + s.cfgN pERR 0x104 ≤ s.now then { s with tileErrs := [], errWindowFrom := s.now } else s

/-! ### Error injection (R414) -/

/-- The fields of ERR_INJECT. -/
def injType (w : Word) : Nat := fld w 27 24
def injSymbols (w : Word) : Nat := fld w 23 20
def injSelect (w : Word) : Nat := fld w 15 0

/-- The page is a tile's or a region's. -/
def isTile (page : Nat) : Bool := pTILE ≤ page && page ≤ 0x9F
def isRegion (page : Nat) : Bool := pREGION ≤ page && page < pKEEP

/-- The unit of a page that TYPE 0x6 is accepted by. -/
def ctrlUnitOf (page : Nat) : CtrlUnit :=
  if isTile page then .tile (page - pTILE) else if isRegion page then .region (page - pREGION) else .engine page

/-- The page that TYPE names accepts it, with a SELECT and SYMBOLS in range. -/
def State.injOk (s : State) (page : Nat) (w : Word) : Bool :=
  match injType w with
  | 1 => (isTile page || isRegion page) && injSymbols w ≤ 10
  | 2 => page == pMEM && injSymbols w ≤ 10 && decide (injSelect w < s.params.memPorts)
  | 3 => page == pMEM && decide (injSelect w < s.params.memPorts)
  | 4 => page == pFAB && decide (injSelect w < s.params.fabPorts)
  | 5 => page == pFAB
  | 6 => isTile page || isRegion page || page == pERR
  | 7 => isRegion page
  | _ => false

/-- One error is scheduled. -/
def State.arm (s : State) (page : Nat) (w : Word) : State :=
  match injType w with
  | 1 => { s with armed := { s.armed with sram := s.armed.sram ++ [(page, injSymbols w)] } }
  | 2 => { s with armed := { s.armed with sector := s.armed.sector ++ [(injSelect w, injSymbols w)] } }
  | 3 => { s with armed := { s.armed with tag := s.armed.tag ++ [injSelect w] } }
  | 4 => s.updPort (injSelect w) fun x => { x with badCrc := true }
  | 5 => { s with fab := { s.fab with badPiece := true } }
  | 6 => (s.count pERR 0xF34).ctrlFault (ctrlUnitOf page)
  | 7 => { s with armed := { s.armed with clock := s.armed.clock ++ [page - pREGION] } }
  | _ => s

/-- A write of a page's ERR_INJECT: it counts only with ARM set, while INJECT_EN is 1, on a page listed for its TYPE. -/
def State.errInject (s : State) (page : Nat) (w : Word) : State :=
  if bitOf w 31 && bitOf (s.cfg pERR 0x108) 2 && s.injOk page w then s.arm page w else s

/-- A write of ERR_INJECT with the given TYPE. -/
def State.injectAs (s : State) (ty page : Nat) (w : Word) : State := if injType w = ty then s.errInject page w else s

/-- INJECT_SRAM: ERR_INJECT of a tile or region page, TYPE 0x1. -/
def execInjectSram (page : Nat) (data : Word) (s : State) : Host.Outcome State Fault Refusal :=
  s.always fun s => s.injectAs 1 page data

/-- INJECT_SECTOR: MEM.ERR_INJECT, TYPE 0x2. -/
def execInjectSector (data : Word) (s : State) : Host.Outcome State Fault Refusal := s.always fun s => s.injectAs 2 pMEM data

/-- INJECT_TAG: MEM.ERR_INJECT, TYPE 0x3. -/
def execInjectTag (data : Word) (s : State) : Host.Outcome State Fault Refusal := s.always fun s => s.injectAs 3 pMEM data

/-- INJECT_FLIT_CRC: FAB.ERR_INJECT, TYPE 0x4. -/
def execInjectFlitCrc (data : Word) (s : State) : Host.Outcome State Fault Refusal := s.always fun s => s.injectAs 4 pFAB data

/-- INJECT_PIECE: FAB.ERR_INJECT, TYPE 0x5. -/
def execInjectPiece (data : Word) (s : State) : Host.Outcome State Fault Refusal := s.always fun s => s.injectAs 5 pFAB data

/-- INJECT_CTRL: ERR_INJECT of a tile, region or ERR page, TYPE 0x6. -/
def execInjectCtrl (page : Nat) (data : Word) (s : State) : Host.Outcome State Fault Refusal :=
  s.always fun s => s.injectAs 6 page data

/-- INJECT_CLOCK: ERR_INJECT of a region page, TYPE 0x7. -/
def execInjectClock (page : Nat) (data : Word) (s : State) : Host.Outcome State Fault Refusal :=
  s.always fun s => s.injectAs 7 page data

/-! ### Stop planks and block reset (R397) -/

/-- Pages whose CTRL.ISOLATE and RESET_REQ act. -/
def hasPlank (page : Nat) : Bool := isTile page || isRegion page || page == pFAB

/-- The region of a tile's or region's page. -/
def regionOfPage (page : Nat) : Nat := if isTile page then (page - pTILE) / 16 else page - pREGION

/-- No packet is held in the fabric unit: in a port's queue, half received, held as a request, or waiting to be served. -/
def State.noPacketHeld (s : State) : Bool :=
  s.fab.inbox.isEmpty && s.fab.heldReqs.isEmpty && s.fab.ports.all fun x => x.2.queue.isEmpty && x.2.receiving.isEmpty

/-- The unit of a page with a plank is idle. -/
def State.unitIdle (s : State) (page : Nat) : Bool :=
  if page = pFAB then s.tagsTaken.isEmpty && s.noPacketHeld else !s.busyRegion (regionOfPage page)

/-- STATUS.IDLE: the plank is in, or, without ISOLATE, the unit is idle (R446). -/
def State.idleBit (s : State) (page : Nat) : Bool :=
  if !hasPlank page then true else if s.isolated page then s.plank page else s.unitIdle page

/-- The plank of an isolated unit goes in once the unit is idle. -/
def State.tryPlank (s : State) (page : Nat) : State :=
  if hasPlank page && s.isolated page && s.unitIdle page then s.setReg page oSTATUS (s.reg page oSTATUS ||| 1) else s

/-- ISOLATE is set: the unit accepts no new work, and a region's merge entries go to the weir (R254, R397). -/
def State.setIsolate (s : State) (page : Nat) : State :=
  if !hasPlank page || s.isolated page then s
  else
    let s := s.setReg page oCTRL (s.reg page oCTRL ||| 2)
    let s := if isRegion page then s.mergeToWeir (page - pREGION) else s
    s.tryPlank page

/-- ISOLATE is cleared: the unit returns to service. -/
def State.clearIsolate (s : State) (page : Nat) : State :=
  if !s.isolated page then s
  else
    let s := (s.setReg page oCTRL (s.reg page oCTRL &&& ~~~2)).setReg page oSTATUS (s.reg page oSTATUS &&& ~~~1)
    if page = pFAB then s.sendWaiting else if isRegion page then s.idle (page - pREGION) else s

/-- Counters of a page set to zero. -/
def State.zeroCounters (s : State) (page : Nat) (os : List Nat) : State := os.foldl (fun s o => s.setReg page o 0) s

/-- The region is OFF and holds nothing; its merge entries go to the weir first. -/
def State.regionOff (s : State) (r : Nat) : State :=
  let s := ((s.mergeToWeir r).unlock r).dropSram r
  s.updRegion r fun x => { x with power := .off, waking := none, idleSince := s.now }

/-- Tile `t`'s part of a block reset: its counters and its quarantine. -/
def State.clearTile (s : State) (t : Nat) : State :=
  let s := (s.setTileQuar t false).zeroCounters (tPage t) [0xF00, 0xF04, 0xF08]
  { s with tileErrs := SMap.put (fun _ => (0, 0)) s.tileErrs t (0, 0) }

/-- The block reset of a unit. -/
def State.blockReset (s : State) (page : Nat) : State :=
  if page = pFAB then
    (List.range 24).foldl (fun s n => if (s.fport n).st == .off || (s.fport n).st == .down then s else s.linkDown n) s
  else if isTile page then (s.clearTile (page - pTILE)).regionOff (regionOfPage page)
  else
    let r := page - pREGION
    let s := (List.range 16).foldl (fun s j => s.clearTile (16 * r + j)) s
    let s := (s.regionOff r).zeroCounters page [0xF40, 0xF44, 0xF4C, 0xF50, 0xF54, 0xF58]
    s.updRegion r fun x => { x with quarantined := false }

/-- RESET_REQ is written: refused while IDLE is 0. -/
def State.requestReset (s : State) (page : Nat) : State :=
  if !hasPlank page then s
  else if s.idleBit page then s.blockReset page
  else (s.setRegN pRST 0x06C (2 ^ 31 + page)).err pRST 3

/-- ISOLATE: CTRL.ISOLATE of a page is set. -/
def execIsolate (page : Nat) (s : State) : Host.Outcome State Fault Refusal := s.always fun s => s.setIsolate page

/-- PLANK_IN: the isolated unit of a page has become idle. -/
def execPlankIn (page : Nat) (s : State) : Host.Outcome State Fault Refusal := s.always fun s => s.tryPlank page

/-- RESET_REQ: CTRL.RESET_REQ of a page is written. -/
def execResetReq (page : Nat) (s : State) : Host.Outcome State Fault Refusal := s.always fun s => s.requestReset page

end Sys2Proof.Machine
end

