-- ==== Sys2Proof/Machine/Ports.lean ====
section
/-! DEFINITION. The integrator's ports: memory ports (R199, R200, R402 to R405, R433 to R436), the host DMA port (R430 to
R432), and the release of held interrupt messages (R429). -/

namespace Sys2Proof.Machine

open Sys2Proof

/-! ### Memory ports -/

/-- The bytes of a sector as a controller returned them. -/
def sectorBytes (d : SectorData) : List Byte := leBytes 512 d.data.toNat

/-- Symbols in error in codeword `j`, with those that an injection inverted in codeword 0 (R414). -/
def sectorSymbols (d : SectorData) (t : Tag) (j : Nat) : Nat := d.errs.getD j 0 + (if j = 0 then t.latent else 0)

/-- The four codewords' symbols in error. -/
def allSymbols (d : SectorData) (t : Tag) : List Nat := (List.range 4).map (sectorSymbols d t)

/-- A sector read whose codes correct it (R402, R403): counted, and rewritten where 3 or more symbols of a codeword were
corrected. -/
def State.correctSector (s : State) (k : Nat) (sym : List Nat) : State :=
  if sym.all (· == 0) then s
  else
    let p := s.portOf k
    let s := (s.corrected pMEM 0).memCount p 2
    if sym.any (3 ≤ ·) then s.memCount p 4 else s

/-- A read finds a sector uncorrectable or poisoned: it counts, and the poison is an event if it is new (R405, R441). -/
def State.poisonSector (s : State) (k : Nat) : State :=
  let t := s.tag k
  let s := s.memCount (s.portOf k) 3
  if t.poison then s else (s.poisoning pMEM 1).setTag k { t with poison := true, latent := 0 }

/-- A sector arrives (R199, R402, R405, R436). One that bears the poison syndrome, or was poisoned and whose tag still fails
its check, is recognised as poisoned, with no new event, and one whose codes are clean is poisoned no longer. -/
def State.sectorRead (s : State) (k : Nat) (d : SectorData) : State :=
  if s.populated ≤ 512 * k then s
  else
    let p := s.portOf k
    let t := s.tag k
    let s : State := { s with ext := Mem.write s.ext (512 * k) (sectorBytes d) }
    let s := s.memCount p 0
    let s := if d.rdErr then (s.memCount p 5).err pMEM 2 else s
    let sym := allSymbols d t
    let badTag := t.kind != 0 && (!d.tagOk || t.bad)
    if badTag && !t.poison then (s.memCount p 3).tagFault k
    else if d.rdErr || (!d.poisoned && sym.any (5 < ·)) then s.poisonSector k
    else if d.poisoned || badTag then (s.memCount p 3).setTag k { t with poison := true, latent := 0 }
    else (s.correctSector k sym).setTag k { t with poison := false, latent := 0 }

/-- SECTOR_READ_COMPLETE: a sector's nine bursts arrive. -/
def execSectorReadComplete (sector : Nat) (d : SectorData) (s : State) : Host.Outcome State Fault Refusal :=
  s.engine fun s => s.sectorRead sector d

/-- A write response (R436). -/
def State.sectorWritten (s : State) (port : Nat) (err : Bool) : State :=
  if s.params.memPorts ≤ port then s
  else
    let s := s.memCount port 1
    if err then (s.memCount port 6).err pMEM 3 else s

/-- SECTOR_WRITE_RESPONSE: a port's controller answers a sector write. -/
def execSectorWriteResponse (port : Nat) (err : Bool) (s : State) : Host.Outcome State Fault Refusal :=
  s.engine fun s => s.sectorWritten port err

/-! ### Host DMA port -/

/-- A read data unit of 64 bytes at a host address (R432). -/
def State.hostUnit (s : State) (a : Nat) (data : BitVec 512) (err : Bool) : State :=
  let u := a / 64
  let rest := s.hq.badUnits.filter (· != u)
  let s : State := { s with
    hostMem := Mem.write s.hostMem (64 * u) (leBytes 64 data.toNat)
    hq := { s.hq with badUnits := if err then u :: rest else rest } }
  if err then (((s.count pGLB 0xF80).err pGLB 0).poisoningEngine) else s

/-- HOST_READ_DATA: a read data unit arrives. -/
def execHostReadData (addr : Nat) (data : BitVec 512) (err : Bool) (s : State) : Host.Outcome State Fault Refusal :=
  s.engine fun s => s.hostUnit addr data err

/-- The oldest write that waits for a tag takes the one just freed (R431). -/
def State.retag (s : State) (t : Nat) : State :=
  match takeFirst (fun w : DmaWrite => 256 ≤ w.tag) s.hq.dmaWrites with
  | (some w, _) =>
    let ren (k : Nat) : Nat := if k = w.tag then t else k
    { s with hq := { s.hq with
        dmaWrites := s.hq.dmaWrites.map fun x => { x with tag := ren x.tag }
        irqWait := s.hq.irqWait.map fun x => (x.1, x.2.map ren) } }
  | (none, _) => s

/-- Messages wait for the write with tag `t` no longer; those that wait for none go out (R429). -/
def State.ackIrqs (s : State) (t : Nat) : State :=
  let ws := s.hq.irqWait.map fun x => (x.1, x.2.filter (· != t))
  let s : State := { s with hq := { s.hq with irqWait := ws.filter fun x => !x.2.isEmpty } }
  (ws.filter fun x => x.2.isEmpty).foldl (fun s x => s.raiseNow x.1) s

/-- A row of the request in a berth fails: its barge leaves its rows out (R116, R432). -/
def State.failBerthRow (s : State) (n fate : Nat) : State :=
  match (s.berth n).barge.bind s.barge? with
  | some b =>
    match b.rows.find? fun r => r.kind != 2 && r.berth == n with
    | some r => s.failRowOf b r fate
    | none => s.endRequest n fate
  | none => s.endRequest n fate

/-- READ_ROWS item `j` ends with the acknowledge of its last write (R215, R432). -/
def State.rowsAcked (s : State) (j : Nat) : State :=
  let more := s.hq.dmaWrites.any fun w => match w.owner with
    | .rowData k _ => k == j
    | _ => false
  match s.item? j with
  | some it =>
    if more then s
    else match it.target with
      | some k => s.settle it (it.stop.getD fECC) k
      | none => s.settle it fDONE it.opCount
  | none => s

/-- What an acknowledged write means to its owner (R432). -/
def State.ownerAcked (s : State) (o : DmaOwner) (err : Bool) : State :=
  match o with
  | .record _ => s
  | .output n j => if err && (s.berth n).j == j && (s.berth n).st != .free then s.failBerthRow n fECC else s
  | .rowData j k =>
    let s := if err then s.updItem j fun x => if x.target.elim true (k < ·) then { x with target := some k, stop := some fECC } else x else s
    s.rowsAcked j

/-- A write acknowledge (R431, R432). -/
def State.hostAck (s : State) (t : Nat) (err : Bool) : State :=
  match takeFirst (fun w : DmaWrite => w.tag == t && decide (t < 256)) s.hq.dmaWrites with
  | (none, _) => s
  | (some w, rest) =>
    let s : State := { s with
      hostMem := if err then s.hostMem else Mem.write s.hostMem w.addr w.bytes
      hq := { s.hq with dmaWrites := rest } }
    let s := if err then (s.count pGLB 0xF84).err pGLB 1 else s
    let s := (s.ackIrqs t).retag t
    s.ownerAcked w.owner err

/-- HOST_WRITE_ACK: an acknowledge of the write with a tag. -/
def execHostWriteAck (tag : Nat) (err : Bool) (s : State) : Host.Outcome State Fault Refusal := s.engine fun s => s.hostAck tag err

/-! ### Interrupt messages (R429) -/

/-- MASK of vector `v` is written. -/
def State.writeVecCtrl (s : State) (v : Nat) (w : Word) : State :=
  let s : State := { s with regs := SMap.put regReset s.regs (0xF0000 + 16 * v + 12) (w &&& 1) }
  s.offerPending v

/-- VECTOR_UNMASK: MASK of vector `v` is cleared. -/
def execVectorUnmask (v : Nat) (s : State) : Host.Outcome State Fault Refusal :=
  s.always fun s => if v < 256 then s.writeVecCtrl v 0 else s

/-- IM_HOLD_RELEASE: im_hold falls. -/
def execImHoldRelease (s : State) : Host.Outcome State Fault Refusal :=
  s.engine fun s =>
    let t : State := { s with hq := { s.hq with imHold := false } }
    (List.range 256).foldl (fun s v => s.offerPending v) t

end Sys2Proof.Machine
end

