-- ==== Sys2Proof/Machine/Banks.lean ====
section
/-! DEFINITION. The checks that a configuration bank must pass (R9, R16, R48, R49, R74, R77, R176, R220, R242, R265, R295,
R297, R315, R344, R345, R369, R401, R415, R450, R451). -/

namespace Sys2Proof.Machine

open Sys2Proof

/-- One condition on a bank: the bank-A offset of the register it judges, whether the boundary repeats it (R451: it
involves another page or the engine's state), and whether it holds. -/
structure Chk where
  ofs : Nat
  rep : Bool := false
  ok : Bool
deriving DecidableEq, Repr

/-! ### The fields that would be in force -/

/-- A field as it would stand with page `p`'s inactive bank in force and every other page as it is (R450). -/
def State.would (s : State) (p page o : Nat) : Nat := if page = p then s.cfgNewN page o else s.cfgN page o

/-- An address likewise. -/
def State.wouldAddr (s : State) (p page o : Nat) : Nat :=
  if page = p then s.cfgNewAddr page o else s.cfgAddr page o

/-- A page's field changes. -/
def State.changes (s : State) (page o : Nat) : Bool := s.cfgNew page o != s.cfg page o

/-- A bank of the page has taken effect since the last reset. -/
def State.committed (s : State) (page : Nat) : Bool := s.hq.activations.any (·.1 / 2 == page)

/-- Two spans of bytes overlap. -/
def ovl (x y : Nat × Nat) : Bool := x.2 != 0 && y.2 != 0 && decide (x.1 < y.1 + y.2) && decide (y.1 < x.1 + x.2)

/-- A span lies wholly below the populated size (R23). -/
def State.inMem (s : State) (x : Nat × Nat) : Bool := decide (x.1 + x.2 ≤ s.populated)

/-- A value within a range, in steps of `u` from 0. -/
def within (v lo hi u : Nat) : Bool := decide (lo ≤ v) && decide (v ≤ hi) && v % u == 0

/-! ### Pool structures (R159, R164, R170, R203, R226, R231, R251, R356) -/

/-- SPD.FETCH_KIB bytes at the top of the pool. -/
def State.fetchSpan (s : State) (p : Nat) : Nat × Nat :=
  (poolBytes - 1024 * s.would p pSPD 0x200, 1024 * s.would p pSPD 0x200)

/-- ROW.HOTDIR_CACHE_KIB bytes directly below it. -/
def State.hotSpan (s : State) (p : Nat) : Nat × Nat :=
  (poolBytes - 1024 * (s.would p pSPD 0x200 + s.would p pROW 0x138), 1024 * s.would p pROW 0x138)

def State.gradSpan (s : State) (p : Nat) : Nat × Nat := (s.would p pSPD 0x208, 1024 * s.would p pSPD 0x20C)
def State.cacheSpan (s : State) (p : Nat) : Nat × Nat := (s.would p pGSU 0x100, 1024 * s.would p pGSU 0x104)
def State.mergeSpan (s : State) (p : Nat) : Nat × Nat := (s.would p pUPD 0x100, 1024 * s.would p pUPD 0x104)
def State.spillSpan (s : State) (p : Nat) : Nat × Nat := (s.would p pCOL 0x10C, 1024 * s.would p pCOL 0x110)

/-- The pool spans of every enabled mooring's image in force. -/
def State.imageSpans (s : State) (p : Nat) : List (Nat × Nat) :=
  ((List.range 16).filter s.moorOn).flatMap fun m =>
    (List.range 8).flatMap fun i =>
      ((s.imageRanges (s.mooring m).image (1024 * s.would p pSPD (0x10C + 16 * m)) i).filter (·.1 == 16)).map (·.2)

/-- A span meets none of the others. -/
def clear (x : Nat × Nat) (ys : List (Nat × Nat)) : Bool := ys.all fun y => !ovl x y

/-- A span within the pool. -/
def inPool (x : Nat × Nat) : Bool := decide (x.1 + x.2 ≤ poolBytes)

/-! ### PWR, ERR, VCH (R345, R401, R415) -/

def State.pwrChecks (s : State) : List Chk :=
  let nap := s.cfgNewN pPWR 0x104
  let off := s.cfgNewN pPWR 0x108
  [ { ofs := 0x104, ok := nap != 0 }, { ofs := 0x108, ok := off != 0 && decide (nap ≤ off) } ]

def State.errChecks (s : State) : List Chk := [ { ofs := 0x104, ok := s.cfgNewN pERR 0x104 != 0 } ]

def State.vchChecks (s : State) : List Chk :=
  let w (o hi lo : Nat) : Bool := fld (s.cfgNew pVCH o) hi lo != 0
  [ { ofs := 0x100, ok := w 0x100 31 24 && w 0x100 23 16 && w 0x100 15 8 && w 0x100 7 0 },
    { ofs := 0x104, ok := w 0x104 15 8 && w 0x104 7 0 } ]

/-! ### HQ (R48, R49, R74, R77, R456, R457) -/

/-- The CQs to which a record is still owed (R49). -/
def State.owedCqs (s : State) : List Nat :=
  (s.hq.cqs.filter fun x => !x.2.pending.isEmpty).map (·.1) ++ s.hq.items.map (fun it => s.cqOf it.sq)
    ++ (if s.sv.barges.any (·.journal.isSome) then [s.lkCq] else [])

/-- A queue of the new bank against R48 and R49: `o` its BASE_LO, `lo` the low bit of SIZE_LOG2. -/
def State.queueChecks (s : State) (o lo : Nat) : List Chk :=
  let new := s.cfgNew pHQ (o + 8)
  let old := s.cfg pHQ (o + 8)
  let both := bitOf old 31
  if !bitOf new 31 then []
  else
    [ { ofs := o
        ok := fld (s.cfgNew pHQ o) 11 0 == 0 && (!bitOf new 30 || decide (s.cfgNewAddr pHQ o < s.populated))
          && !(both && s.changes pHQ o) },
      { ofs := o + 4, ok := !(both && s.changes pHQ (o + 4)) },
      { ofs := o + 8
        ok := 4 ≤ fld new (lo + 4) lo && fld new (lo + 4) lo ≤ 16
          && !(both && (bitOf old 30 != bitOf new 30 || fld old (lo + 4) lo != fld new (lo + 4) lo)) } ]

/-- CQ `c`, if the new bank disables it, is named by no enabled SQ and owed no record (R49). -/
def State.cqOffOk (s : State) (c : Nat) : Bool :=
  bitOf (s.cfgNew pHQ (0x408 + 12 * c)) 31
    || (!s.owedCqs.contains c
        && (List.range 64).all fun n => !(bitOf (s.cfgNew pHQ (0x108 + 12 * n)) 31 && fld (s.cfgNew pHQ (0x108 + 12 * n)) 5 0 == c))

/-- The journal header at an address passes its check for a size (R456). -/
def State.headerOk (s : State) (a log2 : Nat) : Bool :=
  let bs := s.ext? a 0xFC
  decide (a + 4096 ≤ s.populated) && !s.extPoison a 0x100 && s.extNat (a + 0xFC) 4 == (crc32c bs).toNat
    && s.extNat a 4 == log2 && s.extNat (a + 8) 8 == 0 && s.extNat (a + 0x90) 0x6C == 0

def State.hqChecks (s : State) : List Chk :=
  let log2 := fld (s.cfgNew pHQ 0x708) 4 0
  let jb := s.cfgNewAddr pHQ 0x700
  let db := s.cfgNewAddr pHQ 0x70C
  ((List.range 64).flatMap fun n => s.queueChecks (0x100 + 12 * n) 16)
    ++ ((List.range 64).flatMap fun c => s.queueChecks (0x400 + 12 * c) 24)
    ++ ((List.range 64).map fun c => { ofs := 0x408 + 12 * c, ok := s.cqOffOk c })
    ++ [ { ofs := 0x700
           ok := s.inMem (jb, 4096 + 32 * 2 ^ log2) && (bitOf (s.cfgNew pHQ 0x714) 1 || s.headerOk jb log2) },
         { ofs := 0x708, ok := 17 ≤ log2 && log2 ≤ 22 },
         { ofs := 0x70C, ok := db % 4096 == 0 && s.inMem (db, 2 ^ 25) } ]

/-! ### LKP (R295, R298, R299, R315) -/

/-- Mooring `m` is enabled in the new LKP bank. -/
def State.moorNew (s : State) (m : Nat) : Bool := bitOf (s.cfgNew pLKP (0x100 + 32 * m)) 31

/-- The manifest area of a mooring in the new bank, 512 KiB (R278). -/
def State.areaNew (s : State) (m : Nat) : Nat × Nat := (s.cfgNewAddr pLKP (0x110 + 32 * m), 2 ^ 19)

/-- No berth, queued or running barge belongs to the mooring (R295). -/
def State.moorIdle (s : State) (m : Nat) : Bool :=
  (s.berthsOf m).isEmpty && (s.mooring m).trainQueue.isEmpty && s.atBoundary m

/-- One mooring's fields (R295). -/
def State.moorChecks (s : State) (m : Nat) : List Chk :=
  let o := 0x100 + 32 * m
  let tb := s.cfgNewN pLKP (o + 4)
  let pb := s.cfgNewN pLKP (o + 8)
  let area := s.areaNew m
  if !s.moorNew m then [ { ofs := o, rep := true, ok := !s.moorOn m || s.moorIdle m } ]
  else
    [ { ofs := o + 4, ok := tb != 0 }, { ofs := o + 8, ok := pb != 0 && decide (pb ≤ tb) },
      { ofs := o + 12, ok := decide (s.cfgNewN pLKP (o + 12) ≤ tb) },
      { ofs := o + 16
        ok := area.1 % 4096 == 0 && s.inMem area
          && (List.range 16).all fun k => k == m || !s.moorNew k || !ovl area (s.areaNew k) },
      { ofs := o + 24, ok := s.cfgNewN pLKP (o + 24) != 0 } ]

/-- The slots that the new bank reserves at frame position `f` for a mooring. -/
def State.reserved (s : State) (f m : Nat) : Nat :=
  ((List.range 4).map fun k =>
    let c := s.cfgNew pLKP (0x300 + 4 * k)
    if bitOf c 31 && fld c 27 24 == m then 32 * fld (s.cfgNew pLKP (0x400 + 4 * f)) (8 * k + 7) (8 * k) else 0).foldl (· + ·) 0

/-- The cyclic schedule (R295). -/
def State.cycleChecks (s : State) : List Chk :=
  let cyc (k : Nat) : Word := s.cfgNew pLKP (0x300 + 4 * k)
  let frame := fld (s.cfgNew pLKP 0x310) 8 0
  ((List.range 4).map fun k =>
    { ofs := 0x300 + 4 * k
      ok := !bitOf (cyc k) 31 || (s.moorNew (fld (cyc k) 27 24)
        && (List.range 4).all fun j => j == k || !bitOf (cyc j) 31 || fld (cyc j) 19 0 != fld (cyc k) 19 0) })
    ++ [ { ofs := 0x310, ok := decide (frame ≤ 256) } ]
    ++ (List.range (min frame 256)).map fun f =>
      { ofs := 0x400 + 4 * f
        ok := (List.range 16).all fun m =>
          !s.moorNew m || decide (s.reserved f m ≤ s.cfgNewN pLKP (0x104 + 32 * m) - s.cfgNewN pLKP (0x10C + 32 * m)) }

/-- The image descriptor of mooring `m` in the table that the new bank names. -/
def State.imageNew (s : State) (m : Nat) : BitVec 512 :=
  BitVec.ofNat 512 (s.extNat (s.cfgNewAddr pLKP 0x314 + 64 * m) 64)

/-- A descriptor's ranges, rsvd fields and CHECK (R298). -/
def State.imageFieldsOk (s : State) (a : Nat) (d : BitVec 512) : Bool :=
  !s.extPoison a 64 && fld d 511 480 == (crc32c (s.ext? a 60)).toNat
    && fld d 479 320 == 0 && fld d 119 116 == 0 && fld d 127 121 == 0
    && imgProgram d % 64 == 0 && 1 ≤ imgLen d && imgLen d ≤ 2 ^ 20 && s.inMem (imgProgram d, 64 * imgLen d)
    && 1 ≤ imgGap d && imgGap d ≤ 200 && 1 ≤ imgRegions d && imgRegions d ≤ 8
    && imgList d % 64 == 0 && imgCount d ≤ 65536 && s.inMem (imgList d, 16 * imgCount d)
    && imgProgOfs d % 64 == 0 && (imgInPool d || imgProgOfs d == 0)
    && imgMoorOfs d % 64 == 0

/-- The instances that a load-list entry is copied to. -/
def LoadEnt.copies (e : LoadEnt) : Nat :=
  (bitsOf e.lregions 8).length * (if e.pool then 1 else (bitsOf e.tiles 16).length)

/-- A load-list entry (R299, R315). -/
def State.loadOk (s : State) (d : BitVec 512) (w : Nat) : Bool :=
  let e := loadEnt w
  let blocks := if e.shard then e.copies else 1
  nfld w 127 123 == 0 && (nfld w 121 120 == 1 || nfld w 121 120 == 2) && decide (e.lregions < 2 ^ imgRegions d)
    && (!e.pool || e.tiles == 0) && 64 ≤ e.len && e.len ≤ 64 * 393216 && e.src % 64 == 0 && s.inMem (e.src, e.len * blocks)
    && decide (e.dest + e.len ≤ if e.pool then poolBytes else scratchBytes)

/-- No two of the ranges overlap. -/
def apart : List (Nat × Nat × Nat) → Bool
  | [] => true
  | x :: xs => xs.all (fun y => !(overlap x y)) && apart xs

/-- A range of an image keeps clear of the U store and the pool structures (R315). -/
def State.rangeOk (s : State) (r : Nat × Nat × Nat) : Bool :=
  if r.1 = 16 then
    inPool r.2 && clear r.2 [s.fetchSpan pLKP, s.gradSpan pLKP, s.cacheSpan pLKP, s.hotSpan pLKP, s.mergeSpan pLKP]
  else !ovl r.2 (scratchBytes - 1024 * s.cfgN pSPD 0x204, 1024 * s.cfgN pSPD 0x204)

/-- What R315 asks of an enabled mooring's image. -/
def State.imageOk1 (s : State) (m : Nat) : Bool :=
  let a := s.cfgNewAddr pLKP 0x314 + 64 * m
  let d := s.imageNew m
  s.imageFieldsOk a d && (List.range (imgCount d)).all fun k => s.loadOk d (s.extNat (imgList d + 16 * k) 16)

/-- The part of it that rests on other pages. -/
def State.imageOk2 (s : State) (m : Nat) : Bool :=
  let d := s.imageNew m
  let moor := s.moorBytesMax m
  (moor != 0 || imgMoorOfs d == 0)
    && (List.range (imgRegions d)).all fun i => apart (s.imageRanges d moor i) && (s.imageRanges d moor i).all s.rangeOk

def State.lkpChecks (s : State) : List Chk :=
  let table := s.cfgNewAddr pLKP 0x314
  let ctrl := s.cfgNew pLKP 0x328
  let slots := fld ctrl 5 0
  let mib := fld ctrl 27 16
  let ms := (List.range 16).filter s.moorNew
  let tableOk := table % 4096 == 0 && s.inMem (table, 1024)
  ((List.range 16).flatMap s.moorChecks) ++ s.cycleChecks
    ++ [ { ofs := 0x314, ok := tableOk && ms.all s.imageOk1 },
         { ofs := 0x314, rep := true, ok := !tableOk || ms.all s.imageOk2 },
         { ofs := 0x31C, ok := s.cfgNewN pLKP 0x31C != 0 },
         { ofs := 0x320
           ok := slots == 0 || (s.cfgNewAddr pLKP 0x320 % 4096 == 0 && s.inMem (s.cfgNewAddr pLKP 0x320, slots * mib * 2 ^ 20)) },
         { ofs := 0x328, ok := decide (slots ≤ 32) && (slots == 0 || mib != 0) } ]

/-! ### TOLL (R297) -/

/-- The new TOLL bank loads the account table. -/
def State.tollLoads (s : State) : Bool :=
  bitOf (s.cfgNew pTOLL 0x120) 0 || s.changes pTOLL 0x100 || s.changes pTOLL 0x104 || s.changes pTOLL 0x108

/-- Entry `n` of the account table at `a`, as 64 bytes. -/
def State.acctRaw (s : State) (a n : Nat) : Nat := s.extNat (a + 64 * n) 64

/-- A valid entry of the account table (R286). -/
def acctRawOk (w : Nat) : Bool :=
  nfld w 511 480 == (crc32c (leBytes 60 w)).toNat && 1 ≤ nfld w 95 64 && nfld w 95 64 ≤ 2 ^ 31 - 1 && nfld w 21 20 != 3
    && nfld w 30 22 == 0 && nfld w 479 128 == 0

/-- The account table at `a` may be loaded. -/
def State.acctTableOk (s : State) (a : Nat) : Bool :=
  let ws := (List.range 16384).map fun n => (n, s.acctRaw a n)
  let valid := ws.filter fun x => nbit x.2 31
  let tenants := (valid.filter (·.1 != 0)).map fun x => nfld x.2 19 0
  a % 4096 == 0 && s.inMem (a, 64 * 16384)
    && nbit (s.acctRaw a 0) 31
    && valid.all (fun x => acctRawOk x.2 && !s.extPoison (a + 64 * x.1) 64)
    && tenants.Nodup

def State.tollChecks (s : State) : List Chk :=
  let rep := s.cfgNewAddr pTOLL 0x114
  [ { ofs := 0x100, ok := !s.tollLoads || s.acctTableOk (s.cfgNewAddr pTOLL 0x100) },
    { ofs := 0x10C, ok := s.cfgNewN pTOLL 0x10C != 0 },
    { ofs := 0x114, ok := rep % 4096 == 0 && s.inMem (rep, 2 * 0x101000) },
    { ofs := 0x11C, ok := decide (1000 ≤ s.cfgNewN pTOLL 0x11C) } ]

/-! ### SPD (R145, R175, R176) -/

/-- The table id names an existing table (R192). -/
def State.tableThere (s : State) (t : Nat) : Bool := (s.slotIn t 1).isSome

def State.sideChecks (s : State) (m : Nat) : List Chk :=
  let o := 0x100 + 16 * m
  let ctrl := s.cfgNew pSPD (o + 8)
  let dir := s.cfgNewAddr pSPD o
  if !bitOf ctrl 31 then []
  else
    [ { ofs := o, ok := dir % 4096 == 0 && s.inMem (dir, 4096 + 64 * 2 ^ fld ctrl 4 0) },
      { ofs := o + 8, ok := 2 ≤ fld ctrl 27 24 && fld ctrl 27 24 ≤ 4 && fld ctrl 4 0 ≤ 20 },
      { ofs := o + 8, rep := true, ok := s.tableThere (fld ctrl 23 12) },
      { ofs := o + 12, ok := decide (s.cfgNewN pSPD (o + 12) ≤ 12288) } ]

/-- The largest moored-factor quota of an enabled mooring in the new bank. -/
def State.moorMaxNew (s : State) : Nat :=
  (((List.range 16).filter fun m => bitOf (s.cfgNew pSPD (0x108 + 16 * m)) 31).map fun m => s.cfgNewN pSPD (0x10C + 16 * m)).foldl max 0

def State.spdChecks (s : State) : List Chk :=
  let fetch := s.cfgNewN pSPD 0x200
  let others := [s.cacheSpan pSPD, s.mergeSpan pSPD, s.spillSpan pSPD] ++ s.imageSpans pSPD
  let grad := s.gradSpan pSPD
  ((List.range 16).flatMap s.sideChecks)
    ++ [ { ofs := 0x200, ok := within fetch 256 12288 64 && decide (fetch + s.moorMaxNew ≤ 16384) },
         { ofs := 0x200, rep := true, ok := clear (s.fetchSpan pSPD) others && clear (s.hotSpan pSPD) others },
         { ofs := 0x204, ok := within (s.cfgNewN pSPD 0x204) 64 2048 64 },
         { ofs := 0x208, ok := grad.1 % 64 == 0 && inPool grad && !ovl grad (s.fetchSpan pSPD) },
         { ofs := 0x208, rep := true, ok := clear grad (s.hotSpan pSPD :: others) },
         { ofs := 0x20C, ok := within (s.cfgNewN pSPD 0x20C) 64 8192 1 } ]

/-! ### ROW (R220) -/

/-- The structures of a ROW bank: the register, alignment and span of each. `g` reads a field, `ga` an address. -/
def rowSpans (g ga : Nat → Nat) : List (Nat × Nat × Nat × Nat) :=
  [ (0x100, 4096, ga 0x100, 2 ^ 20), (0x108, 4096, ga 0x108, 64 * 2 ^ g 0x130), (0x110, 4096, ga 0x110, 64 * 2 ^ g 0x134),
    (0x118, 512, ga 0x118, 512 * g 0x13C), (0x120, 4096, ga 0x120, 270336), (0x128, 64, ga 0x128, 16 * g 0x14C) ]

/-- The structures of a ROW bank lie in memory, aligned, and apart from those before them. -/
def State.rowSpanChecks (s : State) : List (Nat × Nat × Nat × Nat) → List (Nat × Nat) → List Chk
  | [], _ => []
  | (o, al, x) :: r, seen =>
    { ofs := o, ok := x.2 == 0 || (x.1 % al == 0 && s.inMem x && clear x seen) } :: s.rowSpanChecks r (x :: seen)

/-- A bank with INIT = 0 that is not the adopting one. -/
def State.rowKeeps (s : State) : Bool := !bitOf (s.cfgNew pROW 0x150) 0 && s.rows.adopted

def State.rowChecks (s : State) : List Chk :=
  let pop := s.cfgNew pROW 0x144
  let g := s.cfgNewN pROW
  s.rowSpanChecks (rowSpans g (s.cfgNewAddr pROW)) []
    ++ [ { ofs := 0x130, ok := within (g 0x130) 8 18 1 }, { ofs := 0x134, ok := within (g 0x134) 8 24 1 },
         { ofs := 0x138, ok := within (g 0x138) 64 4096 1 },
         { ofs := 0x138, rep := true, ok := !ovl (s.hotSpan pROW) (s.cacheSpan pROW) },
         { ofs := 0x13C, ok := g 0x13C != 0 }, { ofs := 0x140, ok := decide (1000 ≤ g 0x140) },
         { ofs := 0x144, ok := fld pop 15 12 ≤ 12 && (!bitOf pop 0 || fld pop 31 16 != 0) },
         { ofs := 0x148, ok := !bitOf pop 0 || decide (g 0x148 < fld pop 31 16) },
         { ofs := 0x14C, ok := decide (g 0x14C ≤ 65536) },
         { ofs := 0x14C, rep := true, ok := g 0x14C == 0 || !bitOf (s.reg pROW 0xF04) 31 } ]
    ++ (if s.rowKeeps then
          [0x100, 0x104, 0x108, 0x10C, 0x110, 0x114, 0x118, 0x11C, 0x120, 0x124, 0x130, 0x134, 0x13C].map fun o =>
            { ofs := o, ok := !s.changes pROW o }
        else [])

/-! ### GSU (R242) -/

def State.gsuChecks (s : State) : List Chk :=
  let x := s.cacheSpan pGSU
  [ { ofs := 0x100, ok := x.1 % 64 == 0 && inPool x },
    { ofs := 0x100, rep := true, ok := clear x [s.fetchSpan pGSU, s.gradSpan pGSU, s.hotSpan pGSU] },
    { ofs := 0x104, ok := within (s.cfgNewN pGSU 0x104) 256 8192 64 } ]

/-! ### UPD (R265, R458) -/

/-- The areas of external memory that the banks in force of other pages name; a page never committed names none. -/
def State.extAreas (s : State) : List (Nat × Nat) :=
  let at_ (p : Nat) (l : List (Nat × Nat)) : List (Nat × Nat) := if s.committed p then l else []
  let ctrl := s.cfg pLKP 0x328
  at_ pHQ (((List.range 64).filter fun n => s.sqOn n && bitOf (s.sqCtrl n) 30).map (fun n => (s.sqBase n, 64 * s.sqSize n))
      ++ ((List.range 64).filter fun c => s.cqOn c && bitOf (s.cqCtrl c) 30).map (fun c => (s.cqBase c, 32 * s.cqSize c))
      ++ [(s.journalBase, 4096 + 32 * 2 ^ s.journalLog2), (s.cfgAddr pHQ 0x70C, 2 ^ 25)])
    ++ at_ pROW ((rowSpans (s.cfgN pROW) (s.cfgAddr pROW)).map (·.2.2))
    ++ at_ pLKP (((List.range 16).filter s.moorOn).map (fun m => (s.areaOf m, 2 ^ 19))
      ++ [(s.cfgAddr pLKP 0x314, 1024), (s.cfgAddr pLKP 0x320, fld ctrl 5 0 * fld ctrl 27 16 * 2 ^ 20)])
    ++ at_ pTOLL [(s.cfgAddr pTOLL 0x100, 64 * 16384), (s.cfgAddr pTOLL 0x114, 2 * 0x101000)]
    ++ at_ pCOL [(s.cfgAddr pCOL 0x114, 2 ^ 20 * s.cfgN pCOL 0x11C)]
    ++ at_ pSPD (((List.range 16).filter s.sideOn).map fun m => (s.dirBase m, 4096 + 64 * s.dirSize m))

/-- INIT = 1 in the new UPD bank; and the adopting commit. -/
def State.updInit (s : State) : Bool := bitOf (s.cfgNew pUPD 0x12C) 0
def State.updAdopts (s : State) : Bool := !s.updInit && !s.rows.updAdopted

/-- The weir header at an address can be read and passes its check (R458). -/
def State.weirHeaderOk (s : State) (a : Nat) : Bool :=
  s.rows.weirGood && s.rows.weirBase == a && !s.extPoison a 4096

def State.updChecks (s : State) : List Chk :=
  let merge := s.mergeSpan pUPD
  let weir := (s.cfgNewAddr pUPD 0x108, 2 ^ 20 * s.cfgNewN pUPD 0x110)
  let ms := s.cfgNewN pUPD 0x11C
  let mig := (s.cfgNewAddr pUPD 0x114, ms * s.cfgN pROW 0x13C)
  [ { ofs := 0x100, ok := merge.1 % 64 == 0 && inPool merge },
    { ofs := 0x100, rep := true
      ok := clear merge ([s.fetchSpan pUPD, s.gradSpan pUPD, s.cacheSpan pUPD, s.hotSpan pUPD, s.spillSpan pUPD] ++ s.imageSpans pUPD) },
    { ofs := 0x104, ok := within (s.cfgNewN pUPD 0x104) 256 12288 64 },
    { ofs := 0x108
      ok := weir.1 % 4096 == 0 && s.inMem weir && (s.updInit || s.updAdopts || !s.changes pUPD 0x108)
        && (s.updInit || s.weirHeaderOk weir.1) },
    { ofs := 0x108, rep := true, ok := clear weir s.extAreas },
    { ofs := 0x10C, ok := s.updInit || s.updAdopts || !s.changes pUPD 0x10C },
    { ofs := 0x110, ok := s.cfgNewN pUPD 0x110 != 0 && (s.updInit || s.updAdopts || !s.changes pUPD 0x110) },
    { ofs := 0x114, rep := true
      ok := mig.2 == 0 || (mig.1 % 64 == 0 && s.inMem mig && clear mig (weir :: s.extAreas)) },
    { ofs := 0x11C, ok := ms == 0 || within ms 64 8256 64 } ]

/-! ### FAB (R16, R319, R320, R344, R390) -/

/-- Ports below this one are not held under R16. -/
def State.usablePorts (s : State) : Nat :=
  let n := s.params.fabPorts
  if 24 ≤ n then 24 else if 22 ≤ n then 22 else if 14 ≤ n then 14 else n

/-- The ports that a geometry needs: racks, boards, engines. -/
def portsNeeded (hr rb be : Nat) : List Nat :=
  List.range (2 * (be - 1)) ++ (if 1 < rb then [14, 15, 16, 17] else []) ++ (if 8 < rb then [18, 19, 20, 21] else [])
    ++ (if 1 < hr then [22, 23] else [])

def State.fabChecks (s : State) : List Chk :=
  let geo := s.cfgNew pFAB 0x104
  let hr := fld geo 20 16
  let rb := fld geo 14 8
  let be := fld geo 3 0
  let id := s.cfgNew pFAB 0x100
  let rm := s.cfgNewN pFAB 0x108
  let hm := s.cfgNewN pFAB 0x10C
  let pos := s.strapCode % 8
  [ { ofs := 0x100, ok := decide (fld id 12 9 < hr) && decide (fld id 8 3 < rb) },
    { ofs := 0x100, rep := true, ok := !s.strapFault && decide (pos < be) },
    { ofs := 0x104
      ok := within be 1 8 1 && within rb 1 64 1 && within hr 1 16 1 && (rb ≤ 8 || rb % 8 == 0)
        && (portsNeeded hr rb be).all fun n => decide (n < s.usablePorts) },
    { ofs := 0x108, ok := nfld rm 12 9 == fld id 12 9 && nfld rm 8 3 == 0 },
    { ofs := 0x10C, ok := decide (nfld hm 12 9 < hr) && decide (nfld hm 8 3 < rb) && decide (nfld hm 2 0 < be) },
    { ofs := 0x110, ok := within (s.cfgNewN pFAB 0x110) 1 1000000 1 },
    { ofs := 0x114, ok := within (s.cfgNewN pFAB 0x114) 1 12 1 },
    { ofs := 0x11C, ok := decide (s.cfgNewN pFAB 0x11C < 2 ^ s.params.fabPorts) } ]

/-! ### COL (R369) -/

/-- FAB.GEOMETRY gives a level more than one member: 0 board, 1 rack, 2 hall. -/
def State.levelShared (s : State) (level : Nat) : Bool :=
  let geo := s.cfg pFAB 0x104
  let be := max (fld geo 3 0) 1
  let rb := max (fld geo 14 8) 1
  let hr := max (fld geo 20 16) 1
  decide (1 < if level = 0 then be else if level = 1 then be * rb else be * rb * hr)

def State.colChecks (s : State) : List Chk :=
  let part (k : Nat) : Nat := s.cfgNewN pCOL (0x100 + 4 * k)
  let spill := s.spillSpan pCOL
  let x := (s.cfgNewAddr pCOL 0x114, 2 ^ 20 * s.cfgNewN pCOL 0x11C)
  ((List.range 3).map fun k => { ofs := 0x100 + 4 * k, ok := within (part k) 0 65536 64 })
    ++ ((List.range 3).map fun k => { ofs := 0x100 + 4 * k, rep := true, ok := part k != 0 || !s.levelShared k })
    ++ [ { ofs := 0x100, ok := decide (part 0 + part 1 + part 2 ≤ 65536) },
         { ofs := 0x10C, ok := spill.1 % 64 == 0 && (spill.2 == 0 || inPool spill) },
         { ofs := 0x10C, rep := true
           ok := clear spill ([s.fetchSpan pCOL, s.gradSpan pCOL, s.cacheSpan pCOL, s.hotSpan pCOL, s.mergeSpan pCOL] ++ s.imageSpans pCOL) },
         { ofs := 0x110, ok := within (s.cfgNewN pCOL 0x110) 0 8192 64 },
         { ofs := 0x114, ok := x.2 == 0 || (x.1 % 4096 == 0 && s.inMem x) },
         { ofs := 0x120, ok := s.cfgNewN pCOL 0x120 != 0 } ]

/-! ### The outcome (R450, R451) -/

/-- Every condition on a page's inactive bank. A page without fields has none: its banks can hold only zeros. -/
def State.checksOf (s : State) (page : Nat) : List Chk :=
  if page = pPWR then s.pwrChecks else if page = pERR then s.errChecks else if page = pHQ then s.hqChecks
  else if page = pLKP then s.lkpChecks else if page = pTOLL then s.tollChecks else if page = pSPD then s.spdChecks
  else if page = pROW then s.rowChecks else if page = pGSU then s.gsuChecks else if page = pUPD then s.updChecks
  else if page = pFAB then s.fabChecks else if page = pVCH then s.vchChecks else if page = pCOL then s.colChecks else []

/-- The lowest offset whose condition fails. -/
def firstFail (cs : List Chk) : Option Nat :=
  ((cs.filter (!·.ok)).map (·.ofs)).foldl (fun a o => some (match a with | none => o | some b => min b o)) none

/-- Step 2 of R450 at acceptance. -/
def State.acceptFail (s : State) (page : Nat) : Option Nat := firstFail (s.checksOf page)

/-- What the boundary repeats (R451). -/
def State.repeatFail (s : State) (page : Nat) : Option Nat := firstFail ((s.checksOf page).filter (·.rep))

end Sys2Proof.Machine
end

