-- ==== Sys2Proof/Machine/Commit.lean ====
section
/-! DEFINITION. Configuration commits: acceptance, boundaries and what each page's bank does when it takes effect (R49, R76,
R77, R80, R146, R175, R176, R212, R217, R220, R242, R263, R265, R280, R282, R297, R300, R344, R369, R443, R448 to R451,
R456 to R458). -/

namespace Sys2Proof.Machine

open Sys2Proof

/-! ### HQ (R76, R77, R80, R412, R456, R457) -/

/-- The bytes of a journal header's first 0xFC bytes: size, entry allocated last, SQ heads. -/
def headerBytes (log2 last : Nat) (heads : List Nat) : List Byte :=
  leBytes 4 log2 ++ leBytes 4 last ++ leBytes 8 0 ++ heads.flatMap (leBytes 2) ++ leBytes 0x6C 0

/-- INIT = 1: journal and duplicate window cleared, the header written whole, every SQ head 0 (R77). Items without a fate
stay, while their journal indexes are free again (assumption 80). -/
def State.journalInit (s : State) : State :=
  let n := 2 ^ s.journalLog2
  let bs := headerBytes s.journalLog2 (n - 1) (List.replicate 64 0)
  let s := s.extClear s.journalBase (4096 + 32 * n)
  let s := s.extWrite s.journalBase (bs ++ leBytes 4 (crc32c bs).toNat)
  { s with
    hq := { s.hq with
      dup := [], dupBase := s.cfgAddr pHQ 0x70C, journalFull := false
      sqs := s.hq.sqs.filterMap fun (k, q) => if { q with head := 0 } = {} then none else some (k, { q with head := 0 }) } }

/-- The fatal record reloaded (R412, R456). -/
def State.reloadFatal (s : State) : State :=
  let a := s.journalBase + 0xF00
  let w := s.extNat a 4
  let good := !s.extPoison a 16 && nbit w 8 && s.extNat (a + 12) 4 == (crc32c (s.ext? a 12)).toNat
  s.setRegN pERR 0xF30 (if good then w % 512 else 0)

/-- The journal entries that recovery looks at, in order: those that hold anything, and those of poisoned sectors. -/
def State.journalUsed (s : State) : List Nat :=
  let base := s.journalBase + 4096
  let n := 2 ^ s.journalLog2
  let used := (s.listed base (32 * n) 32).map fun a => (a - base) / 32
  let bad := (s.tags.filter fun x => x.2.poison).flatMap fun x =>
    ((List.range 17).map fun k => (512 * x.1 + 32 * k - base) / 32).filter fun j => j < n && s.extPoison (base + 32 * j) 32
  sortBy (fun a b => decide (a ≤ b)) (used ++ bad).eraseDups

/-- The record that recovery writes for an entry that can be read, with its fate. -/
def State.recovered (s : State) (j w fate : Nat) : Rec :=
  { kind := if nfld w 30 28 = 1 then .request else if nfld w 30 28 = 3 then .barge else .entry
    fate := fate, detail := 128 + nfld w 54 48, cookie := nfld w 95 64, sq := nfld w 25 20, sqIndex := nfld w 15 0
    sqHead := s.extNat (s.journalBase + 0x10 + 2 * nfld w 25 20) 2, berth := nfld w 127 112, value0 := nfld w 223 192
    value1 := nfld w 255 224, aoUs := s.now, journal := some j }

/-- An unreadable entry made FREE. All entries of its sector are unreadable with it: with the last of them the sector is
written whole, which clears its poison (R405). -/
def State.freeEntry (s : State) (j : Nat) : State :=
  let stop := s.journalAddr j + 32
  if stop % 512 = 0 && s.journalBase + 4608 ≤ stop then s.extPutNat (stop - 512) 512 0 else s.extPutNat (stop - 32) 32 0

/-- An entry whose check fails: reported to LK_CQ, and FREE (R76). -/
def State.recoverBad (s : State) (j : Nat) : State :=
  let r : Rec := { kind := .entry, fate := fINTERNAL, detail := 128, value0 := j, aoUs := s.now }
  ((((s.noteFate fINTERNAL).err pHQ 4).queueRec s.lkCq r).freeEntry j).dupFate j fINTERNAL

/-- One journal entry recovered (R76). -/
def State.recoverEntry (s : State) (j : Nat) : State :=
  let w := s.journalEntry j
  let st := nfld w 27 26
  let go (s : State) (fate : Nat) : State :=
    let r := s.recovered j w fate
    let s := s.extPutNat (s.journalAddr j) 32 (setFld (setFld w 63 56 fate) 27 26 2)
    (s.queueRec (if r.kind == .barge then s.lkCq else s.cqOf r.sq) r).dupFate j fate
  if s.extPoison (s.journalAddr j) 32 then s.recoverBad j
  else if st = 1 then go ((s.noteFate fRESET).count pHQ 0xF04) fRESET
  else if st = 2 then go s (nfld w 63 56)
  else s

/-- Every SQ resumes from the head stored in the header (R76). -/
def State.resumeHeads (s : State) : State :=
  (List.range 64).foldl (fun s n =>
    let h := s.extNat (s.journalBase + 0x10 + 2 * n) 2
    s.setSq n { s.sq n with head := h, tail := h }) s

/-- INIT = 0, first after a reset: the journal recovered, and the duplicate window found at its address or not at all. -/
def State.journalRecover (s : State) : State :=
  let base := s.cfgAddr pHQ 0x70C
  let s : State := { s with hq := { s.hq with dup := if s.hq.dupBase = base then s.hq.dup else [], dupBase := base } }
  (s.journalUsed.foldl State.recoverEntry s.reloadFatal).resumeHeads

/-- Queues that the bank enables start: a CQ with its phase at 1, an SQ with nothing to fetch (R53). -/
def State.startQueues (s old : State) : State :=
  let s := (List.range 64).foldl (fun s c => if s.cqOn c && !old.cqOn c then s.setCq c { pending := (s.cq c).pending } else s) s
  (List.range 64).foldl (fun s n =>
    if s.sqOn n && !old.sqOn n then
      let h := (s.sq n).head % s.sqSize n
      s.setSq n { s.sq n with head := h, tail := h }
    else s) s

/-- MAINT of the bank: cleared at once, set at its boundary (R80). -/
def State.setMaint (s : State) : State :=
  if !bitOf (s.cfg pHQ 0x714) 0 then { s with hq := { s.hq with maint := false, maintPending := false } }
  else if s.hq.maint then s
  else
    let t : State := { s with hq := { s.hq with maintPending := true } }
    if t.maintMayEnter then t.enterMaint else t

def State.hqEffect (s old : State) : State :=
  let s :=
    if bitOf (s.cfg pHQ 0x714) 1 then s.journalInit
    else if !s.hq.configured then s.journalRecover
    else if s.hq.dupBase = s.cfgAddr pHQ 0x70C then s
    else { s with hq := { s.hq with dup := [], dupBase := s.cfgAddr pHQ 0x70C } }
  let s : State := { s with hq := { s.hq with configured := true } }
  (s.startQueues old).setMaint

/-! ### LKP, TOLL and SPD (R146, R175, R280, R282, R297, R300, R409) -/

/-- Every piece of a mooring is absent (R300). -/
def State.dropMooring (s : State) (m : Nat) : State :=
  (List.range 8).foldl (fun s r => s.updRegion r fun x =>
    { x with pieces := x.pieces.filter (·.mooring != m), moored := x.moored.filter (·.mooring != m) }) s

/-- The OR of every TILE_MASK of a program (R409). -/
def State.programTiles (s : State) (img : BitVec 512) : BitVec 16 :=
  BitVec.ofNat 16 ((List.range (imgLen img)).foldl (fun a i => a ||| recTiles (s.extNat (imgProgram img + 64 * i) 64)) 0)

/-- An enabled mooring's image as the new bank names it (R298, R300), and its estimate if it was not enabled (R282). -/
def State.moorEffect (s old : State) (m : Nat) : State :=
  if !s.moorOn m then s
  else
    let img : BitVec 512 := BitVec.ofNat 512 (s.extNat (s.cfgAddr pLKP 0x314 + 64 * m) 64)
    let s := if imgGen img = imgGen (s.mooring m).image then s else s.dropMooring m
    s.updMooring m fun x => { x with
      image := img, tileUnion := s.programTiles img
      est := if old.moorOn m then x.est else 16 * s.cfgN pLKP (0x118 + 32 * m) }

/-- FRAME_LEN, a CYCk_CTRL or an entry differs (R280). -/
def State.cycleChanged (s old : State) : Bool :=
  fld (s.cfg pLKP 0x310) 8 0 != fld (old.cfg pLKP 0x310) 8 0
    || ((List.range 4).map fun k => 0x300 + 4 * k).any (fun o => s.cfg pLKP o != old.cfg pLKP o)
    || ((List.range 256).map fun f => 0x400 + 4 * f).any fun o => s.cfg pLKP o != old.cfg pLKP o

def State.lkpEffect (s old : State) : State :=
  let s := (List.range 16).foldl (fun s m => s.moorEffect old m) s
  if s.cycleChanged old then (List.range 16).foldl (fun s m => s.updMooring m fun x => { x with framePos := 0 }) s else s

/-- An account as its entry gives it, its bucket full (R286, R287). -/
def freshAccount (w : Nat) : Account :=
  if !nbit w 31 then {}
  else
    { valid := true, policy := nfld w 21 20, tenant := nfld w 19 0, rate := nfld w 63 32, burst := nfld w 95 64
      deferLimit := nfld w 127 96, balance := 256 * (nfld w 95 64 : Int) }

/-- An account after a load: balance and counts stay where index and TENANT do (R297). -/
def loadAccount (init : Bool) (n : Nat) (old : Account) (w : Nat) : Account :=
  let new := freshAccount w
  if init || !old.valid || !new.valid || (n != 0 && old.tenant != new.tenant) then new
  else
    { old with
      policy := new.policy, tenant := new.tenant, rate := new.rate, burst := new.burst, deferLimit := new.deferLimit
      balance := min old.balance (256 * (new.burst : Int)) }

/-- The account table loaded (R297). -/
def State.loadAccounts (s : State) : State :=
  let a := s.cfgAddr pTOLL 0x100
  let init := bitOf (s.cfg pTOLL 0x120) 0
  (List.range 16384).foldl (fun s n => s.updAccount n fun x => loadAccount init n x (s.acctRaw a n)) s

def State.tollEffect (s old : State) : State :=
  let s := if old.tollLoads then s.loadAccounts else s
  let s : State := { s with
    sv := { s.sv with
      refills := s.refillsDue
      reportStart := if old.committed pTOLL then s.sv.reportStart else s.now } }
  s.noteDefers

/-- A mooring's directory header read (R146, R175). -/
def State.readHeader (s : State) (m : Nat) : State :=
  let a := s.dirBase m
  let bad := s.extPoison a 4096
  let s := s.updMooring m fun x => { x with
    headerFault := bad
    layers := if bad then [] else (List.range 64).map fun l => BitVec.ofNat 64 (s.extNat (a + 8 * l) 8)
    moorCount := if bad then 0 else min (s.extNat (a + 0x200) 4) 65536
    moorList := if bad then 0 else s.extNat (a + 0x208) 8 }
  if bad then s.err pSPD 2 else s

/-- An SPD bank takes effect: the header is read of each mooring whose CTRL or DIR changes (R146). -/
def State.spdEffect (s old : State) : State :=
  (List.range 16).foldl (fun s m =>
    let o := 0x100 + 16 * m
    if [o, o + 4, o + 8].all fun k => s.cfg pSPD k == old.cfg pSPD k then s
    else s.readHeader m) s

/-! ### ROW and GSU (R212, R217, R220, R242) -/

/-- INIT = 1: directory slots FREE, exception table, hot directory and basin allocation clear (R220). -/
def State.rowClear (s : State) : State :=
  let s := s.extClear (s.cfgAddr pROW 0x100) (2 ^ 20)
  let s := s.extClear s.excBase (64 * 2 ^ s.excLog2)
  let s := s.extClear s.hotDirBase (64 * 2 ^ s.hotLog2)
  { s with
    rows := { s.rows with promote := [], demote := [], former := [], formerRows := [], moves := [], migRest := [], inbound := [], basin := [], provisional := [] } }

/-- Sectors of a migrated row of a table; the most a row can take where its table cannot be used. -/
def State.migSectors (s : State) (t : Nat) : Nat :=
  match s.tab t with
  | .ok t => divUp (imageBytes t.homeDr t.dim) 512
  | _ => 9

/-- One exception entry adopted (R212). -/
def State.adoptEntry (s : State) (e : Nat × Nat) : State :=
  let (a, w) := e
  let t := nfld w 51 40
  let x := nfld w 39 0
  let hold (s : State) : State :=
    { s with rows := { s.rows with basin := s.rows.basin ++ [(excSlot w, s.migSectors t)] } }
  if excState w = eOWNED then hold s
  else if excState w = ePROV then
    let s := hold s
    { s with rows := { s.rows with provisional := s.rows.provisional ++ [(t, x, s.now)] } }
  else if excState w = eGONE then
    let s := s.extPutNat a 16 (excBits t x eGONE (excOwner w) 0 ((s.now + s.cfgN pROW 0x140) % 2 ^ 32))
    match s.tab t with | .ok tab => s.sendNotices tab x (excOwner w) | _ => s
  else s

/-- The tables with a FORMER slot. -/
def State.formerTables (s : State) : List Nat :=
  let base := s.cfgAddr pROW 0x100
  (((s.listed base 0x100000 256).map fun a => (a - base) / 256).filter fun t => (s.slotIn t 3).isSome)

/-- The adopting commit (R212, R217, R220). -/
def State.rowAdopt (s : State) : State :=
  let s := s.excEntries.foldl State.adoptEntry s
  { s with
    rows := { s.rows with former := s.formerTables.map fun t => (t, s.now + s.cfgN pROW 0x140) } }

def State.rowEffect (s old : State) : State :=
  let s := if bitOf (s.cfg pROW 0x150) 0 then s.rowClear else if old.rows.adopted then s else s.rowAdopt
  let s : State := { s with
    rows := { s.rows with
      adopted := true, clearing := false
      windowStart := if old.rows.adopted then s.rows.windowStart else s.now
      migPending := s.rows.migPending || s.cfgN pROW 0x14C != 0 } }
  if s.cfgN pROW 0x14C = 0 then s else s.setMig false false 0

def State.gsuEffect (s old : State) : State :=
  if s.cfg pGSU 0x100 = old.cfg pGSU 0x100 && s.cfg pGSU 0x104 = old.cfg pGSU 0x104 then s
  else (List.range 8).foldl (fun s r => s.updRegion r fun x => { x with cache := [] }) s

/-! ### UPD (R262, R263, R265, R458) -/

/-- LAST_CLOSED and LAST_APPLIED set, and the weir header written afresh with nothing held. -/
def State.updStart (s : State) (step : Nat) : State :=
  let s : State := { s with
    rows := { s.rows with
      weir := [], weirUsed := [0, 0], weirGood := true, weirApplied := step, weirApplying := none, weirHighest := none
      weirShut := [], weirBase := s.cfgAddr pUPD 0x108, updAdopted := true } }
  (s.writeWeir.setRegN pUPD 0xF00 step).setRegN pUPD 0xF04 step

/-- INIT = 1 (R265). -/
def State.updReset (s : State) : State :=
  let s : State := { s with rows := { s.rows with marks := [], merge := [] } }
  s.updStart ((s.cfg pUPD 0x120) - 1).toNat

/-- The steps whose gradients the reset lost: the first and their number (R263). -/
def lostSteps (applied : Nat) (applying highest : Option Nat) : Option (Nat × Nat) :=
  let first := applying.getD ((applied + 1) % 2 ^ 32)
  let top (a : Nat) : Nat := match highest with | some h => if stepGt h a then h else a | none => a
  match applying with
  | some k => some (first, ((top k + 2 ^ 32 - first) % 2 ^ 32) + 1)
  | none => if top applied = applied then none else some (first, ((top applied + 2 ^ 32 - first) % 2 ^ 32) + 1)

/-- The adopting commit (R263). -/
def State.updRecover (s : State) : State :=
  let r := s.rows
  let lost := lostSteps r.weirApplied r.weirApplying r.weirHighest
  let s := s.updStart (r.weirApplying.getD r.weirApplied)
  match lost with
  | some (k, n) => ((s.setRegN pUPD 0xF38 k).setRegN pUPD 0xF3C (n % 4)).err pUPD 5
  | none => (s.setRegN pUPD 0xF38 0).setRegN pUPD 0xF3C 0

def State.updEffect (s old : State) : State :=
  let s := if bitOf (s.cfg pUPD 0x12C) 0 then s.updReset else if old.rows.updAdopted then s else s.updRecover
  if s.cfg pUPD 0x124 = old.cfg pUPD 0x124 && s.cfg pUPD 0x128 = old.cfg pUPD 0x128 then s
  else { s with rows := { s.rows with reseed := true } }

/-! ### FAB, COL, PWR and REGION (R40, R320, R327, R344, R353, R369, R437) -/

/-- A rack or hall port of a ring of size 1, or a port held under R16. -/
def State.portHeld (s : State) (n : Nat) : Bool :=
  let geo := s.cfg pFAB 0x104
  decide (s.usablePorts ≤ n) || (14 ≤ n && n < 18 && fld geo 14 8 ≤ 1) || (18 ≤ n && n < 22 && fld geo 14 8 ≤ 8)
    || (22 ≤ n && fld geo 20 16 ≤ 1)

/-- One port as PORT_EN and the geometry want it. -/
def State.portEffect (s : State) (n : Nat) : State :=
  let on := bitOf (s.cfg pFAB 0x11C) n && !s.portHeld n
  let x := s.fport n
  if !on then
    if x.st == .off then s else s.setPort n { replays := x.replays, crcErrs := x.crcErrs, wasDown := x.wasDown }
  else if x.st == .off then
    s.setPort n { x with st := .training, wasDown := false, retrain := if x.wasDown then some (s.now + 10) else none }
  else s

def State.fabEffect (s : State) : State :=
  let s := s.setRegN pFAB 0xF00 (fld (s.cfg pFAB 0x100) 12 3 * 8 + s.strapCode % 8)
  (List.range 24).foldl State.portEffect s

/-- INIT = 1: use counts, master tables and sequence counters clear (R353, R369). -/
def State.colEffect (s : State) : State :=
  if !bitOf (s.cfg pCOL 0x128) 0 then s
  else
    { s with
      col := { s.col with
        uses := [], barrierUses := [], tiers := [], arrived := [], waits := [], nextSeq := [], admitSeq := [], grants := []
        results := [] } }

/-- Idle regions in RUN doze where the new bank lets them (R398, R401). -/
def State.pwrEffect (s : State) : State :=
  (List.range 8).foldl (fun s r => if (s.region r).power == .run then s.idle r else s) s

/-- A changed seed waits for the region's next barge boundary (R40, R47). -/
def State.regionEffect (s old : State) (r : Nat) : State :=
  let p := rPage r
  if s.cfg p 0x1C0 = old.cfg p 0x1C0 && s.cfg p 0x1C4 = old.cfg p 0x1C4 then s
  else s.updRegion r fun x => { x with reseed := true }

/-! ### Boundaries (R443, R451) -/

/-- A barge runs on some region. -/
def State.regionsBusy (s : State) : Bool := s.sv.barges.any fun b => !b.holds.isEmpty

/-- The barges that a commit accepted now waits for. -/
def State.boundaryIds (s : State) (page : Nat) : List Nat :=
  if page = pLKP || page = pTOLL || page = pSPD then (s.sv.barges.filter (!·.solo)).map (·.id)
  else if isRegion page then (s.sv.barges.filter fun b => b.holds.contains (page - pREGION)).map (·.id)
  else []

/-- Of those, the barges still in the way. -/
def State.stillThere (s : State) (page : Nat) : Bool :=
  (s.sv.boundary.filter (·.1 == page)).any fun x => s.sv.barges.any fun b =>
    x.2.contains b.id && (!isRegion page || b.holds.contains (page - pREGION))

/-- Some field of the list changes. -/
def State.anyChange (s : State) (page : Nat) (os : List Nat) : Bool := os.any (s.changes page)

/-- The pending bank's boundary is reached. -/
def State.boundaryMet (s : State) (page : Nat) : Bool :=
  if page = pLKP || page = pTOLL || isRegion page then !s.stillThere page
  else if page = pSPD then !s.stillThere page && !(s.anyChange pSPD [0x200, 0x204, 0x20C] && s.regionsBusy)
  else if page = pROW then
    !s.regionsBusy && (!bitOf (s.cfgNew pROW 0x150) 0 || (s.sv.barges.isEmpty && s.hq.items.all (·.type != 1)))
  else if page = pGSU then !(s.anyChange pGSU [0x100, 0x104] && s.regionsBusy)
  else if page = pUPD then s.updInit || s.updAdopts || (s.rows.merge.isEmpty && s.rows.weir.isEmpty)
  else if page = pFAB then !(s.anyChange pFAB [0x100, 0x104, 0x118] && (s.regionsBusy || !s.tagsTaken.isEmpty))
  else if page = pCOL then
    !(s.anyChange pCOL [0x100, 0x104, 0x108, 0x10C, 0x110, 0x114, 0x118, 0x11C] && !s.col.ctxs.isEmpty)
      && !(bitOf (s.cfgNew pCOL 0x128) 0 && !(s.col.ctxs.isEmpty && s.col.barriers.isEmpty))
  else true

/-! ### Acceptance and effect (R450, R451) -/

/-- The inactive bank: 0 bank A, 1 bank B. -/
def State.idleBank (s : State) (page : Nat) : Nat := 1 - bit (s.bankB page)

/-- The CFG_SEQ registers of a bank; CFG_CRC lies above each. -/
def seqOfs (bank : Nat) : Nat := if bank = 0 then oCFG_SEQ_A else oCFG_SEQ_B

/-- The 1,792 bytes of a bank (R449). -/
def State.bankBytes (s : State) (page bank : Nat) : List Byte :=
  (List.range 448).flatMap fun k => leBytes 4 (s.regN page ((if bank = 0 then 0x100 else 0x800) + 4 * k))

/-- PENDING and what belongs to a wait are gone. -/
def State.endPending (s : State) (page : Nat) : State :=
  let s := s.setRegN page oCFG_COMMIT (setFld (s.regN page oCFG_COMMIT) 28 28 0)
  { s with sv := { s.sv with boundary := s.sv.boundary.filter (·.1 != page) } }

/-- The inactive bank is rejected (R451). -/
def State.rejectBank (s : State) (page reason ofs : Nat) : State :=
  let b := s.idleBank page
  let s := s.endPending page
  let s : State := { s with hq := { s.hq with rejBanks := (s.hq.rejBanks.filter (· != 2 * page + b)) ++ [2 * page + b] } }
  (s.noteBank page b false).setRegN page oCFG_COMMIT (2 ^ 31 + 2 ^ 29 * reason + 2 ^ 27 * b + ofs)

/-- What a page's new bank does. -/
def State.pageEffect (s old : State) (page : Nat) : State :=
  if page = pHQ then s.hqEffect old else if page = pLKP then s.lkpEffect old else if page = pTOLL then s.tollEffect old
  else if page = pSPD then s.spdEffect old else if page = pROW then s.rowEffect old else if page = pGSU then s.gsuEffect old
  else if page = pUPD then s.updEffect old else if page = pFAB then s.fabEffect else if page = pCOL then s.colEffect
  else if page = pPWR then s.pwrEffect else if isRegion page then s.regionEffect old (page - pREGION) else s

/-- The pending bank becomes active. -/
def State.activate (s : State) (page : Nat) : State :=
  let t := s.endPending page
  let t := t.setReg page oSTATUS (t.reg page oSTATUS ^^^ 8)
  let t : State := { t with
    hq := { t.hq with
      activations := SMap.put (fun _ => (0, [])) t.hq.activations (2 * page + s.idleBank page) (t.hq.activationNo + 1, t.startedIds)
      activationNo := t.hq.activationNo + 1 } }
  (t.noteBank page (s.idleBank page) true).pageEffect s page

/-- The boundary: conditions repeated, then effect or rejection. A ROW bank with INIT starts its clearing (R220). -/
def State.atBank (s : State) (page : Nat) : State :=
  match s.repeatFail page with
  | some o => s.rejectBank page 3 o
  | none =>
    if page = pROW && bitOf (s.cfgNew pROW 0x150) 0 then { s with rows := { s.rows with clearing := true } } else s.activate page

/-- The pending bank takes effect if its boundary is reached. -/
def State.tryEffect (s : State) (page : Nat) : State :=
  if s.commitPending page && !(page == pROW && s.rows.clearing) && s.boundaryMet page then s.atBank page else s

/-- The checked bank waits for its boundary. -/
def State.pendBank (s : State) (page : Nat) : State :=
  let s := s.setRegN page oCFG_COMMIT (setFld (s.regN page oCFG_COMMIT) 28 28 1)
  let s : State := { s with sv := { s.sv with boundary := s.sv.boundary ++ [(page, s.boundaryIds page)] } }
  s.tryEffect page

/-- A check that is reported beside CFG_COMMIT: the account table, and the journal header (R81, R297). -/
def State.noteChecks (s : State) (page : Nat) : State :=
  if page = pTOLL && s.tollLoads && !s.acctTableOk (s.cfgNewAddr pTOLL 0x100) then s.err pTOLL 0
  else if page = pHQ && !bitOf (s.cfgNew pHQ 0x714) 1 && !s.headerOk (s.cfgNewAddr pHQ 0x700) (fld (s.cfgNew pHQ 0x708) 4 0) then
    s.err pHQ 4
  else s

/-- A write of the inactive bank's CFG_SEQ (R450). -/
def State.commit (s : State) (page : Nat) (seq : Word) : State :=
  let b := s.idleBank page
  if !pageExists page || s.rst.halted || s.commitPending page || !serialGt seq (s.reg page (seqOfs (1 - b))) then s
  else
    let s := s.setReg page (seqOfs b) seq
    let s : State := { s with hq := { s.hq with rejBanks := s.hq.rejBanks.filter (· != 2 * page + b) } }
    if s.reg page (seqOfs b + 4) ≠ crc32c (s.bankBytes page b) then s.rejectBank page 1 0
    else match s.acceptFail page with
      | some o => (s.noteChecks page).rejectBank page 2 o
      | none => s.pendBank page

/-- CONFIG_COMMIT: a write of the inactive bank's CFG_SEQ of a page (R450). -/
def execConfigCommit (page : Nat) (seq : Word) (s : State) : Host.Outcome State Fault Refusal := s.always fun s => s.commit page seq

/-- COMMIT_TAKE_EFFECT: a pending bank's boundary is reached (R451). -/
def execCommitTakeEffect (page : Nat) (s : State) : Host.Outcome State Fault Refusal := s.engine fun s => s.tryEffect page

/-- ROW_INIT_CLEAR_DONE: the clearing of a ROW commit with INIT = 1 is complete (R220). -/
def execRowInitClearDone (s : State) : Host.Outcome State Fault Refusal :=
  s.engine fun s => if s.rows.clearing && s.commitPending pROW then s.activate pROW else s

end Sys2Proof.Machine
end

