-- ==== Sys2Proof/Machine/Pages.lean ====
section
/-! DEFINITION. The towpath's accesses: what each register reads as, what a write of it does (R50, R140, R141, R191, R294,
R296, R314, R343, R368, R399 to R401, R415, R426, R427, R440, R441, R443 to R448, R451 to R455), the keeper memory, debug
reads, and the TAP (R438, R439). -/

namespace Sys2Proof.Machine

open Sys2Proof

/-! ### Registers made up on reading -/

/-- CLK_GOOD of a page (R446). -/
def State.pageClk (s : State) (page : Nat) : Bool :=
  if page ≤ pPWR then true
  else if page = pFAB then s.clkGood 9
  else if page = pMEM then (List.range s.params.memPorts).all fun p => s.clkGood (10 + p)
  else if isRegion page then s.clkGood (page - pREGION)
  else if isTile page then s.clkGood ((page - pTILE) / 16)
  else s.clkGood 8

/-- QUARANTINE of a page (R446). -/
def State.pageQuar (s : State) (page : Nat) : Bool :=
  if isTile page then s.tileQuar (page - pTILE) else isRegion page && (s.region (page - pREGION)).quarantined

/-- STATUS (R446). -/
def State.status (s : State) (page : Nat) : Nat :=
  bit (s.idleBit page) + 2 * bit (s.pageQuar page) + 4 * bit (s.pageClk page) + 8 * bit (s.bankB page)

/-- PAGE_ID (R444). -/
def pageId (page : Nat) : Nat :=
  if isTile page then 0x20 * 2 ^ 24 + (page - pTILE) * 2 ^ 16 + 1
  else if isRegion page then 0x10 * 2 ^ 24 + (page - pREGION) * 2 ^ 16 + 1
  else page * 2 ^ 24 + 1

/-- The registers of the common layout that are made up. -/
def State.commonValue (s : State) (page o : Nat) : Option Nat :=
  if o = 0x000 then some (pageId page) else if o = oSTATUS then some (s.status page) else none

/-- CAPS0 to CAPS2 and PLACE (R452). -/
def State.glbValue (s : State) (o : Nat) : Option Nat :=
  let p := s.params
  let strap := s.reg pRST 0xF18
  if o = 0xF04 then some (p.vlanes % 4 * 2 ^ 24 + p.fabPorts % 32 * 2 ^ 16 + p.memPorts % 32 * 2 ^ 8 + 8 * 2 ^ 4)
  else if o = 0xF08 then some (p.mclkMhz % 4096 * 2 ^ 16 + p.memGib % 4096)
  else if o = 0xF0C then some (p.jtagMfr % 2048)
  else if o = 0xF10 then some (s.selfId * 2 ^ 16 + fld strap 4 4 * 256 + fld strap 7 7 * 128 + fld strap 3 0)
  else none

/-- CLK_GOOD with AO_OK, and MON_COUNT (R400). -/
def State.clkValue (s : State) (o : Nat) : Option Nat :=
  if o = 0xF00 then some (s.regN pCLK 0xF00 + 2 ^ 26 * bit (!s.rst.aoLost))
  else if o = 0xF04 then some (SMap.get (fun _ => 0) s.rst.counts (s.regN pCLK 0x064))
  else none

/-- DEEPEST's code of a power state (R401). -/
def Power.code : Power → Nat
  | .run => 0
  | .doze => 1
  | .nap => 2
  | .off => 3

/-- REGION_STATE (R401). -/
def State.regionStates (s : State) : Nat := ((List.range 8).map fun r => (s.region r).power.code * 4 ^ r).foldl (· + ·) 0

/-- SUMMARY and TILE_SUMMARYn (R415). -/
def State.errValue (s : State) (o : Nat) : Option Nat :=
  if o = 0xF00 then some s.summary
  else if 0xF04 ≤ o && o ≤ 0xF10 then some (s.tileSummary ((o - 0xF04) / 4))
  else none

/-- QSTAT, JOURNAL_OPEN and CQ_FULL (R81). -/
def State.hqValue (s : State) (o : Nat) : Option Nat :=
  let sel := s.reg pHQ 0x064
  let n := fld sel 5 0
  if o = 0x068 then
    some (if bitOf sel 6 then (s.cq n).head * 2 ^ 16 + (s.cq n).tail else (s.sq n).head * 2 ^ 16 + (s.sq n).tail)
  else if o = 0xF08 then some s.journalOpenCount
  else if o = 0xF0C then some (ofBits ((List.range 32).filter fun c => (s.cq c).full))
  else if o = 0xF10 then some (ofBits ((List.range 32).filter fun c => (s.cq (c + 32)).full))
  else none

/-- SEL_PRESENT of a mooring (R314). -/
def State.presence (s : State) (m : Nat) : Nat :=
  ((List.range 8).map fun r => match (s.region r).pieces.find? fun p => p.mooring == m with
    | some p => (p.logical + 1) * 16 ^ r
    | none => 0).foldl (· + ·) 0

/-- OVERDUE_STATUS: the oldest overdue request's wait while there is one (R310). -/
def State.overdueStatus (s : State) : Nat :=
  match s.overdueOldest with
  | some b => 2 ^ 31 + min (s.waited b) (2 ^ 24 - 1)
  | none => s.regN pLKP 0xFC4

/-- The LKP page's status (R294, R314). -/
def State.lkpValue (s : State) (o : Nat) : Option Nat :=
  let sel := s.mooring (s.regN pLKP 0x074)
  let m := s.mooring ((o - 0xF00) / 8)
  if 0xF00 ≤ o && o < 0xF80 then some (if o % 8 = 0 then m.est else m.framePos * 2 ^ 16 + m.slowdown)
  else if o = 0xF80 then some (s.sv.berths.filter fun x => x.2.st != .free).length
  else if o = 0xF98 then some (s.sv.berths.filter fun x => s.deferred x.2).length
  else if o = 0xFA0 then some (s.presence (s.regN pLKP 0x074))
  else if o = 0xFA4 then some sel.loads
  else if o = 0xFA8 then some sel.loadKib
  else if o = 0xFAC then some sel.preempts
  else if o = 0xFB0 then some sel.savedUs
  else if o = 0xFBC then some s.sv.saveSlots.length
  else if o = 0xFC4 then some s.overdueStatus
  else if o = 0xFD0 then some s.sv.heldRegions.toNat
  else none

/-- ACCT_BAL and ACCOUNTS (R296). -/
def State.tollValue (s : State) (o : Nat) : Option Nat :=
  let b := balanceNat (s.account (s.regN pTOLL 0x070)).balance
  if o = 0x074 then some (b % 2 ^ 32)
  else if o = 0x078 then some (b / 2 ^ 32)
  else if o = 0xF10 then some (s.sv.accounts.filter fun x => x.2.valid).length
  else none

/-- PIN_STAT, PIN_SEQ and PIN_ENTRIES (R191). -/
def State.spdValue (s : State) (o : Nat) : Option Nat :=
  let sel := s.reg pSPD 0x070
  let pin := s.pin? (fld sel 24 21) (fld sel 19 0) (fld sel 20 20)
  if o = 0x074 then some (pin.elim 0 fun p => 2 ^ 17 + p.count)
  else if o = 0x078 then some (pin.elim 0 (·.seq))
  else if o = 0xF28 then some s.sv.pins.length
  else none

/-- EXC_ENTRIES and HOT_ROWS (R219). -/
def State.rowValue (s : State) (o : Nat) : Option Nat :=
  if o = 0xF08 then some s.excEntries.length else if o = 0xF0C then some s.hotEntries.length else none

/-- STATE of PORT_STATE (R343). -/
def PortSt.code : PortSt → Nat
  | .off => 0
  | .training => 1
  | .init => 2
  | .up => 3
  | .down => 4
  | .miswired => 5

/-- The FAB page's status (R340, R343). -/
def State.fabValue (s : State) (o : Nat) : Option Nat :=
  let x := s.fport (s.regN pFAB 0x070)
  if o = 0x074 then some (x.st.code * 2 ^ 29 + x.peerPort % 32 * 2 ^ 24 + x.peer % 2 ^ 13 * 2 ^ 11)
  else if o = 0x078 then some x.replays
  else if o = 0x07C then some x.crcErrs
  else if o = 0xF04 then some (ofBits ((List.range 24).filter fun n => (s.fport n).st == .up))
  else if o = 0xF08 then some s.fabTimeout
  else if o = 0xF28 then some s.tagsTaken.length
  else none

/-- The COL page's status (R368). -/
def State.colValue (s : State) (o : Nat) : Option Nat :=
  if o = 0xF00 then some s.openContexts else if o = 0xF04 then some s.poundKib else if o = 0xF30 then some s.masterPending else none

/-- The MEM page's status and the selected port's counters (R441). -/
def State.memValue (s : State) (o : Nat) : Option Nat :=
  let p := s.regN pMEM 0x070
  if o = 0x074 then
    some (2 ^ 31 * bit (p < s.params.memPorts) + 2 ^ 30 * bit (s.clkGood (10 + p)) + 2 ^ 29 * bit (s.rst.portsReady.contains p))
  else if 0x078 ≤ o && o ≤ 0x090 then some (SMap.get (fun _ => 0) s.memCounts (16 * p + (o - 0x078) / 4))
  else none

/-- IMEM_DATA, CORE_STATE and FW_VERSION (R453). -/
def State.keepValue (s : State) (o : Nat) : Option Nat :=
  if o = 0x064 then some (if s.keeperRuns then 0 else s.imemNat (s.regN pKEEP 0x060) 4)
  else if o = 0xF00 then some (if s.keeperRuns then 0x55 else 0)
  else if o = 0xF04 then some (if s.keeperRuns then (Config.fwVersion (s.imemNat 0 4) (s.imemNat 4 4)).toNat else 0)
  else none

/-- A register of a page that is made up on reading. -/
def State.ownValue (s : State) (page o : Nat) : Option Nat :=
  if page = pGLB then s.glbValue o else if page = pRST then (if o = 0xF1C then some s.rst.step else none)
  else if page = pCLK then s.clkValue o else if page = pPWR then (if o = 0xF00 then some s.regionStates else none)
  else if page = pERR then s.errValue o else if page = pHQ then s.hqValue o else if page = pLKP then s.lkpValue o
  else if page = pTOLL then s.tollValue o else if page = pSPD then s.spdValue o else if page = pROW then s.rowValue o
  else if page = pUPD then (if o = 0xF14 then some s.rows.weir.length else none)
  else if page = pFAB then s.fabValue o else if page = pCOL then s.colValue o else if page = pMEM then s.memValue o
  else if isRegion page then (if o = 0xF48 then some (s.lockState (page - pREGION)) else none)
  else if page = pKEEP then s.keepValue o else none

/-- What the register at a window address reads as. -/
def State.value (s : State) (a : Nat) : Word :=
  let page := a / 0x1000
  let o := a % 0x1000
  let raw := SMap.get regReset s.regs a
  if a < 0xA0000 then
    match (if o < 0x060 then s.commonValue page o else s.ownValue page o) with
    | some v => BitVec.ofNat 32 v
    | none => raw
  else raw

/-! ### Reading (R426, R427) -/

/-- A read of an RC register clears it: the selected port's and mooring's counters where they are kept, else the
register. -/
def State.clearRead (s : State) (a : Nat) : State :=
  let page := a / 0x1000
  let o := a % 0x1000
  if page = pLKP && 0xFA4 ≤ o && o ≤ 0xFB0 then
    s.updMooring (s.regN pLKP 0x074) fun x =>
      if o = 0xFA4 then { x with loads := 0 } else if o = 0xFA8 then { x with loadKib := 0 }
      else if o = 0xFAC then { x with preempts := 0 } else { x with savedUs := 0 }
  else if page = pFAB && (o = 0x078 || o = 0x07C) then
    s.updPort (s.regN pFAB 0x070) fun x => if o = 0x078 then { x with replays := 0 } else { x with crcErrs := 0 }
  else if page = pMEM && 0x078 ≤ o && o ≤ 0x090 then
    { s with memCounts := SMap.put (fun _ => 0) s.memCounts (16 * s.regN pMEM 0x070 + (o - 0x078) / 4) 0 }
  else s.setReg page o 0

/-- IMEM_ADDR moves on (R453). -/
def State.imemNext (s : State) : State := s.setRegN pKEEP 0x060 ((s.regN pKEEP 0x060 + 4) % 262144)

/-- What reading a register leaves behind. -/
def State.afterRead (s : State) (a : Nat) : State :=
  if (windowDef? a).any (·.acc == .rc) then s.clearRead a
  else if a = pKEEP * 0x1000 + 0x064 && !s.keeperRuns then s.imemNext
  else s

/-- An access that no register answers counts (R427). -/
def State.regErr (s : State) : State := s.count pGLB 0xF88

/-- A read by the towpath: the data, whether it met no register, and the state after it. -/
def State.towRead (s : State) (a : Nat) : Word × Bool × State :=
  if !s.live then (0xFFFFFFFF, false, s)
  else if unmapped a then (0, true, s.regErr)
  else (s.value a, false, s.afterRead a)

/-! ### Keeper memory (R453) -/

/-- KEEP.CTRL.ENABLE written with 1. -/
def State.keeperStart (s : State) : State := if s.keeperRuns then s else s.runImageCheck

/-- IMEM_DATA written. -/
def State.imemWrite (s : State) (w : Word) : State :=
  if s.keeperRuns then s else ({ s with imem := Mem.putNat s.imem (s.regN pKEEP 0x060) 4 w.toNat } : State).imemNext

/-- KEEPER_ENABLE: a write of KEEP.CTRL.ENABLE with 1. -/
def execKeeperEnable (s : State) : Host.Outcome State Fault Refusal := s.always State.keeperStart

/-- IMEM_DATA_WRITE. -/
def execImemDataWrite (data : Word) (s : State) : Host.Outcome State Fault Refusal := s.always fun s => s.imemWrite data

/-! ### Debug reads (R140, R454) -/

/-- PEEK_CTRL written (R454): a region not in RUN wakes. -/
def State.peekWrite (s : State) (w : Word) : State :=
  if s.peeking then s
  else
    let s := s.setReg pDBG 0x060 (w &&& 0x87FF0000)
    if !bitOf w 31 then s
    else s.peekRegion.elim s s.wake

/-- The read may be made: its region runs, or is quarantined or behind its plank and read as it is. -/
def State.peekReady (s : State) (r : Nat) : Bool := s.awake r || (s.region r).quarantined || s.isolated (rPage r)

/-- PEEK_STATUS and PEEK_DATA filled, and GO cleared. -/
def State.peekResult (s : State) (status : Nat) (bs : List Byte) : State :=
  let s := (List.range 16).foldl (fun s i => s.setRegN pDBG (0xF40 + 4 * i) (leNat ((bs.drop (4 * i)).take 4))) s
  (s.setRegN pDBG 0xF00 status).setReg pDBG 0x060 (s.reg pDBG 0x060 &&& 0x07FF0000)

/-- The SPEC positions of running barges that bytes of external memory hold (R118, R130). -/
def State.specsAt (s : State) (a n : Nat) : List SpecPos :=
  s.sv.barges.flatMap fun b => b.specs.filter fun p => (s.berth p.berth).kv.any fun x =>
    x.layer == p.layer && x.position == p.position && x.ranges.any fun (c, m) => decide (a < c + m) && decide (c < a + n)

/-- The word read, whatever its lock state (R140): of external memory, the C ranges of open collectives and SPEC positions
have one (R118). -/
def State.peekWord (s : State) (st : Store) : State :=
  let a := s.peekAddr
  let s := s.see st a 64
  let ps := if st = .ext then s.specsAt a 64 else []
  let pend := ps.foldl (fun m p => m ||| p.pend) (s.pendAt st a 64)
  let void := s.voidAt st a 64 || ps.any (·.discarded)
  let s := s.peekResult (pend.toNat + 2 ^ 16 * bit void + 2 ^ 17 * bit (s.poisonAt st a 64)) (s.rd st a 64)
  let s := s.failNamed
  match st.region? with | some r => s.accessDone r | none => s

/-- The running debug read ends. -/
def State.peekEnd (s : State) : State :=
  if !s.peeking then s
  else match s.peekTarget with
    | none => (s.err pDBG 0).peekResult 0 []
    | some st => match st.region? with
      | some r => if s.peekReady r then s.peekWord st else s
      | none => s.peekWord st

/-- PEEK: a write of PEEK_CTRL. -/
def execPeek (data : Word) (s : State) : Host.Outcome State Fault Refusal := s.always fun s => s.peekWrite data

/-- PEEK_COMPLETE: the debug read's result is there. -/
def execPeekComplete (s : State) : Host.Outcome State Fault Refusal := s.engine State.peekEnd

/-! ### Writing (R8, R426, R444, R448) -/

/-- The bits of a register that `mask` holds replaced. -/
def State.maskWrite (s : State) (a mask : Nat) (w : Word) : State :=
  let m := BitVec.ofNat 32 mask
  { s with regs := SMap.put regReset s.regs a ((SMap.get regReset s.regs a &&& ~~~m) ||| (w &&& m)) }

/-- Ones of a W1C register's bits clear them. -/
def State.w1c (s : State) (a mask : Nat) (w : Word) : State :=
  { s with regs := SMap.put regReset s.regs a (SMap.get regReset s.regs a &&& ~~~(w &&& BitVec.ofNat 32 mask)) }

/-- CTRL written (R397, R445). -/
def State.ctrlWrite (s : State) (page : Nat) (w : Word) : State :=
  let s := if page = pKEEP && bitOf w 0 then s.keeperStart else s
  let s :=
    if !hasPlank page then s
    else if bitOf w 1 then s.setIsolate page else s.clearIsolate page
  if bitOf w 2 then s.requestReset page else s

/-- DOORBELL written (R50). -/
def State.doorbell (s : State) (w : Word) : State :=
  if bitOf w 31 then s.doorbellCq (fld w 21 16) (fld w 15 0)
  else s.doorbellSq (fld w 21 16) (fld w 15 0)

/-- A field register, or a bank's CFG_CRC: only of the inactive bank, and not while a commit is pending (R448). -/
def State.bankWrite (s : State) (page o bank mask : Nat) (w : Word) : State :=
  if bank = bit (s.bankB page) || s.commitPending page then s else s.maskWrite (page * 0x1000 + o) mask w

/-- The bank that an offset belongs to: its fields, and its CFG_SEQ and CFG_CRC. -/
def bankOf (o : Nat) : Option Nat :=
  if o = oCFG_SEQ_A || o = oCFG_CRC_A || (0x100 ≤ o && o < 0x800) then some 0
  else if o = oCFG_SEQ_B || o = oCFG_CRC_B || (0x800 ≤ o && o < 0xF00) then some 1
  else none

/-- A plain register written as its row of the register map says. -/
def State.plainWrite (s : State) (a : Nat) (w : Word) : State :=
  match windowDef? a with
  | some d => match d.acc with
    | .rw => s.maskWrite a d.mask w
    | .w1c => s.w1c a d.mask w
    | _ => s
  | none => s

/-- BLOCK_STATUS: only BUSY clears, by writing 1 (R399). -/
def State.clearBusy (s : State) (w : Word) : State := s.setReg pRST 0x06C (s.reg pRST 0x06C &&& ~~~(w &&& 0x80000000))

/-- A register of a page written. -/
def State.pageWrite (s : State) (page o : Nat) (w : Word) : State :=
  match bankOf o with
  | some b =>
    if o = oCFG_SEQ_A || o = oCFG_SEQ_B then (if b = s.idleBank page then s.commit page w else s)
    else match regDef? page o with
      | some d => s.bankWrite page o b d.mask w
      | none => s
  | none =>
    if o = oCTRL then s.ctrlWrite page w
    else if o = oERR_STATUS then s.clearErr page w
    else if o = oERR_INJECT then s.errInject page w
    else if page = pRST && o = 0x060 then s.swReset w
    else if page = pRST && o = 0x064 then s.writeWdt w
    else if page = pRST && o = 0x068 then s.kick w
    else if page = pRST && o = 0x06C then s.clearBusy w
    else if page = pHQ && o = 0x060 then s.doorbell w
    else if page = pLKP && o = 0x070 then (if s.up then s.preemptCmd w else s)
    else if page = pKEEP && o = 0x064 then s.imemWrite w
    else if page = pDBG && o = 0x060 then s.peekWrite w
    else if page = pDBG && (o = 0x064 || o = 0x068) && s.peeking then s
    else s.plainWrite (page * 0x1000 + o) w

/-- A register of the vector table written (R428, R429). -/
def State.tableWrite (s : State) (a : Nat) (w : Word) : State :=
  if a < 0xF1000 && a % 16 = 12 then s.writeVecCtrl ((a - 0xF0000) / 16) w else s.plainWrite a w

/-- A write by the towpath: whether it met no register, and the state after it. -/
def State.towWrite (s : State) (a : Nat) (w : Word) : Bool × State :=
  if !s.live then (false, s)
  else if unmapped a then (true, s.regErr)
  else (false, if a < 0xA0000 then s.pageWrite (a / 0x1000) (a % 0x1000) w else s.tableWrite a w)

/-! ### The host register port (R426, R427) -/

/-- The word address of an access. -/
def wordAddr (a : Nat) : Nat := a % 2 ^ 20 / 4 * 4

/-- A read at the host register port. -/
def State.hostRead (s : State) (a : Nat) : State :=
  let (w, e, s) := s.towRead (wordAddr a)
  { s with port := { rdata := w, err := e } }

/-- A write at the host register port. -/
def State.hostRegWrite (s : State) (a : Nat) (w : Word) : State :=
  let (e, s) := s.towWrite (wordAddr a) w
  { s with port := { s.port with err := e } }

/-- COUNTER_READ_CLEAR: a register is read; an RC counter clears. -/
def execCounterReadClear (addr : Nat) (s : State) : Host.Outcome State Fault Refusal := .next (s.hostRead addr)

/-- REGISTER_WRITE: a register is written. -/
def execRegisterWrite (addr : Nat) (data : Word) (s : State) : Host.Outcome State Fault Refusal := .next (s.hostRegWrite addr data)

/-- The register holds bits that writing 1 clears. -/
def isW1c (a : Nat) : Bool :=
  (windowDef? a).any (·.acc == .w1c) || a = pRST * 0x1000 + 0x06C

/-- W1C_WRITE: a register with bits that writing 1 clears is written. -/
def execW1cWrite (addr : Nat) (data : Word) (s : State) : Host.Outcome State Fault Refusal :=
  .next (if isW1c (wordAddr addr) then s.hostRegWrite addr data else s)

/-- UNMAPPED_ACCESS: an access to an address that no register answers. -/
def execUnmappedAccess (addr : Nat) (we : Bool) (s : State) : Host.Outcome State Fault Refusal :=
  .next (if !unmapped (wordAddr addr) then s else if we then s.hostRegWrite addr 0 else s.hostRead addr)

/-- IMEM_DATA_READ. -/
def execImemDataRead (s : State) : Host.Outcome State Fault Refusal := .next (s.hostRead (pKEEP * 0x1000 + 0x064))

/-! ### The TAP (R438, R439) -/

/-- The bits that Capture-DR of TOWPATH loads. -/
def Tap.capture (t : Tap) : BitVec 64 :=
  BitVec.ofNat 64 (2 ^ 63 * bit t.done + 2 ^ 62 * bit t.err + t.rdata.toNat)

/-- One Update-DR of TOWPATH: one access, and its result captured. -/
def State.towpathDr (s : State) (dr : BitVec 64) : State :=
  let a := fld dr 51 32 / 4 * 4
  if bitOf dr 63 then
    let (e, s) := s.towWrite a (dr.extractLsb' 0 32)
    let t : Tap := { s.tap with ir := 0x20, done := true, err := e }
    { s with tap := { t with dr := t.capture } }
  else
    let (w, e, s) := s.towRead a
    let t : Tap := { s.tap with ir := 0x20, done := true, err := e, rdata := w }
    { s with tap := { t with dr := t.capture } }

/-- TOWPATH: Update-DR with the given bits. -/
def execTowpath (dr : BitVec 64) (s : State) : Host.Outcome State Fault Refusal := .next (s.towpathDr dr)

/-- IDCODE's 32 bits. -/
def State.idcodeBits (s : State) : Nat := 2 * 2 ^ 28 + 0x0C07 * 2 ^ 12 + s.params.jtagMfr % 2048 * 2 + 1

/-- IDCODE: the instruction 0x01; Capture-DR loads the code. -/
def execIdcode (s : State) : Host.Outcome State Fault Refusal :=
  .next { s with tap := { s.tap with ir := 1, dr := BitVec.ofNat 64 s.idcodeBits } }

/-- BYPASS: the instruction 0xFF or one that R438 does not name; the one-bit register captures 0. -/
def execBypass (ir : Byte) (s : State) : Host.Outcome State Fault Refusal :=
  .next (if ir = 0x01 || ir = 0x20 || ir = 0x21 then s else { s with tap := { s.tap with ir := ir, dr := 0 } })

/-- TAP_RESET: Test-Logic-Reset selects IDCODE. -/
def execTapReset (s : State) : Host.Outcome State Fault Refusal := .next { s with tap := { s.tap with ir := 1 } }

end Sys2Proof.Machine
end

