-- ==== Sys2Proof/Machine/SidePond.lean ====
section
/-! DEFINITION. The side pond (spec/06): what a segment is corrected by (R142, R148, R151, R152, R174), its factors and the
fetch window (R149, R150, R163, R164), DELTA joined to its MM (R95, R143, R153, R157 to R159), and the backward DELTA with the
gradient list (R168 to R171). -/

namespace Sys2Proof.Machine

open Sys2Proof

/-! ### Parameters (R95) -/

def dLayer (w : Nat) : Nat := recP w 37 32
def dCount (w : Nat) : Nat := recP w 30 16
def dFirst (w : Nat) : Nat := recP w 13 0
def dDir (w : Nat) : Nat := recP w 41 40

/-- The covered segments (R157). -/
def Barge.covered (b : Barge) (w : Nat) : List Seg := (b.segs.drop (dFirst w)).take (dCount w)

def segRows (l : List Seg) : Nat := (l.map (·.count)).foldl (· + ·) 0

/-- R95, R157, R174: what both directions check. -/
def deltaBase (b : Barge) (w : Nat) : Bool :=
  recP w 127 42 == 0 && recP w 39 38 == 0 && recP w 31 31 == 0 && recP w 15 14 == 0 && decide (dFirst w + dCount w ≤ b.segs.length)

/-- A forward DELTA against the MM before it. -/
def deltaOk (s : State) (b : Barge) (earlier : List Nat) (w : Nat) : Bool :=
  let v := earlier.getLastD 0
  let (k, _, nt) := s.layerOf b.mooring (dLayer w)
  deltaBase b w && dDir w == 0 && recRegions w == recRegions v && recTiles w == recTiles v && recLocks w == recLocks v
    && recA w == recA v && recWait0 w == 0 && recWait1 w == 0 && (recB w).none && (recC w).none
    && (dCount w == 0
      || (segRows (b.covered w) == mmM v
        && (!s.headerOn b.mooring || ((k == 0 || mmK v == k) && (nt == 0 || mmN v == nt)))))

/-- A backward DELTA (R168). -/
def deltaBackOk (s : State) (b : Barge) (_ : List Nat) (w : Nat) : Bool :=
  let (k, _, nt) := s.layerOf b.mooring (dLayer w)
  let rows := segRows (b.covered w)
  let o := recB w
  let c := recC w
  deltaBase b w && dDir w == 1 && (recA w).space == spSCRATCH && fmtOk (recA w).fmt
    && o.space == spSCRATCH && (o.fmt == 0 || o.fmt == 2) && (c.none || (c.space == spSCRATCH && c.fmt == 0 && c.stride != 0))
    && (!s.headerOn b.mooring
      || (s.rowsFit (recA w) rows (rowBytes (recA w).fmt k) (rowBlocks k) && s.rowsFit o rows (rowBytes o.fmt nt) 0
        && (c.none || s.rowsFit c rows (4 * k) 0)))

/-! ### What corrects a segment -/

/-- A segment's factors for a layer: rank, scale, and its first rows of A and B for the layer. -/
structure Work where
  rank : Nat
  scale : Num
  aRow : Nat
  bRow : Nat
deriving DecidableEq, Repr

inductive SegRes where
  /-- no correction (R142) -/
  | base
  /-- the adapter is unusable (R148, R152, R174) -/
  | unusable
  /-- the segment's rows fail -/
  | fail (fate : Nat)
  /-- the descriptor could not be read: the corrected rows are poisoned (R174) -/
  | poison
  | work (x : Work)
deriving DecidableEq, Repr

/-- The descriptor of an adapter, read once in a barge (R149). -/
def State.copyDesc (s : State) (id m a : Nat) : Option (BitVec 512) × State :=
  match (s.barge? id).bind fun b => b.copies.find? (·.1 == a) with
  | some (_, d) => (d, s)
  | none =>
    let d := if s.extPoison (s.descAddr m a) 64 then none else some (s.desc m a)
    let s := if d.isNone then s.err pSPD 1 else s
    (d, s.updBarge id fun b => { b with copies := b.copies ++ [(a, d)] })

/-- A descriptor that could be read, against a layer: what makes the adapter unusable comes first (R146, R148, R152), then what
leaves the rows without a correction (R142). -/
def State.workOf (s : State) (m l : Nat) (g : Seg) (d : BitVec 512) : SegRes :=
  let (k, n, _) := s.layerOf m l
  let sc := fBF16.decode (dScale d)
  let h := s.slotHandle m g.adapter g.vslot d
  if !(descBase d g.adapter && dTenant d == g.tenant && (dRankQ d == 0 || h.isSome)) then .unusable
  else if nbit (dMask d) l && (k = 0 || n = 0) then .unusable
  else if dRankQ d = 0 || !nbit (dMask d) l || sc.isZero then .base
  else match h, s.tab (s.factorTable m) with
    | some (a0, b0), .ok t =>
      let r := dRank d
      let a := a0 + r * s.rowsBelow m l t.dim d (·.1)
      let b := b0 + r * s.rowsBelow m l t.dim d (·.2.1)
      if t.rows < a + r * divUp k t.dim || t.rows < b + r * divUp n t.dim then .unusable
      else .work { rank := r, scale := sc, aRow := a, bRow := b }
    | _, .bad => .fail fECC
    | _, _ => .unusable

/-- A segment settled (R174). -/
def State.segRes (s : State) (b : Barge) (w : Nat) (g : Seg) : SegRes × State :=
  let m := b.mooring
  if g.adapter = 0 then (.base, s)
  else if !s.hasDesc m g.adapter then (.unusable, s)
  else match s.copyDesc b.id m g.adapter with
    | (none, s) => (.poison, s)
    | (some d, s) =>
      let r := s.workOf m (dLayer w) g d
      (r, if r == .fail fECC then s.dirFault else s)

/-! ### Columns and factor rows -/

/-- The columns that instance `k` corrects: from the first on, before the second (R153). -/
def State.colsOf (s : State) (m l k : Nat) : Nat × Nat :=
  let (_, n, nt) := s.layerOf m l
  (k * nt, max (k * nt) (min n ((k + 1) * nt)))

/-- The tile instances with their numbers (R153). -/
def Barge.numbered (b : Barge) (w : Nat) : List ((Nat × Nat) × Nat) := (b.tiles w).zipIdx

/-- The chunks of a B row that the named tiles of region `r` need. -/
def State.bChunks (s : State) (b : Barge) (w dF r : Nat) : List Nat :=
  ((b.numbered w).flatMap fun ((q, _), k) =>
    let (lo, hi) := s.colsOf b.mooring (dLayer w) k
    if q != r || hi ≤ lo then [] else (List.range ((hi - 1) / dF - lo / dF + 1)).map (lo / dF + ·)).eraseDups

/-- Every factor row that region `r` needs for a segment (R163). -/
def State.needRows (s : State) (b : Barge) (w dF r : Nat) (x : Work) : List Nat :=
  let (k, n, _) := s.layerOf b.mooring (dLayer w)
  let cs := s.bChunks b w dF r
  if cs.isEmpty then []
  else (List.range (x.rank * divUp k dF)).map (x.aRow + ·)
    ++ (List.range x.rank).flatMap fun i => cs.map fun c => x.bRow + i * divUp n dF + c

/-- The segment's factors are moored in region `r` (R161, R162). -/
def State.mooredIn (s : State) (r m : Nat) (g : Seg) : Bool := (s.moored? r m g.adapter g.vslot).isSome

/-- An adapter's own factors for the layer exceed half the fetch window of some region (R164). -/
def State.tooLarge (s : State) (b : Barge) (w dF : Nat) (g : Seg) (x : Work) : Bool :=
  (b.physOf (recRegions w)).any fun r =>
    !s.mooredIn r b.mooring g
      && decide (512 * s.cfgN pSPD 0x200 < (s.needRows b w dF r x).length * dF * (fmtBits (s.factorFmt b.mooring) / 8))

def Barge.factor? (b : Barge) (i r x : Nat) : Option FactorRow := b.factors.find? fun f => f.rec_ == i && f.region == r && f.row == x

/-- The fate of a factor row that record `i` cannot read (R174). -/
def Barge.factorFate (b : Barge) (i r x : Nat) : Option Nat :=
  (b.factorFails.find? fun (k, q, y, _) => k == i && q == r && y == x).map (·.2.2.2)

/-- A factor row enters the fetch window for record `i`, and is kept as the forward direction read it (R163, R165). -/
def State.putFactor (s : State) (id : Nat) (f : FactorRow) (first : Bool) : State :=
  s.updBarge id fun b => { b with factors := b.factors ++ [f], firstRows := if first then b.firstRows ++ [f] else b.firstRows }

/-- A fetched factor row looked for; true while it is on its way. The forward direction reads a row once in a barge
(R165, R183; assumption 83). -/
def State.fetchFactor (s : State) (b : Barge) (i r x : Nat) (fwd : Bool) : Bool × State :=
  let m := b.mooring
  match (if fwd then b.firstRows.find? fun f => f.region == r && f.row == x else none), s.tab (s.factorTable m) with
  | some f, _ => (false, (s.count pSPD 0xF08).putFactor b.id { f with rec_ := i } false)
  | none, .ok t => match s.acquire r t x 1 true false with
    | (.got g, s) =>
      let (f, s) := s.factorRow m r i x t g
      (false, (s.count pSPD 0xF08).putFactor b.id f fwd)
    | (.fail f, s) => (false, s.updBarge b.id fun b => { b with factorFails := b.factorFails ++ [(i, r, x, f)] })
    | (.waits, s) => (true, s)
    | (.full, s) => (true, s.noteWait r (b.id, i, t.id, x))
  | none, _ => (false, s)

/-- One factor row looked for: in the region's moored copy, or fetched (R162, R163). -/
def State.seekFactor (s : State) (id i r x : Nat) (g : Seg) (fwd : Bool) : Bool × State :=
  match s.barge? id with
  | some b =>
    if (b.factor? i r x).isSome || (b.factorFate i r x).isSome then (false, s)
    else match s.moored? r b.mooring g.adapter g.vslot with
      | some y => (false, match y.rows.find? (·.row == x) with
        | some f => s.putFactor id { f with rec_ := i } false
        | none => s)
      | none => s.fetchFactor b i r x fwd
  | none => (false, s)

/-- The covered segments, each with what corrects it and its first operand row. -/
structure SegWork where
  seg : Seg
  row0 : Nat
  res : SegRes
deriving DecidableEq, Repr

/-- The manifest rows of a segment, or its training rows only. -/
def Barge.segRowsOf (b : Barge) (g : Seg) (train : Bool) : List Nat :=
  ((List.range g.count).map (g.first + ·)).filter fun k => !train || ((b.rows[k]?).map (·.kind)) == some 2

/-- Segments settled in order; with `train`, those without training rows are passed over (R168). -/
def State.settleSegs (s : State) (b : Barge) (w : Nat) (train : Bool) : Nat → List Seg → List SegWork × State
  | _, [] => ([], s)
  | row, g :: gs =>
    if train && (b.segRowsOf g true).isEmpty then s.settleSegs b w train (row + g.count) gs
    else
      let (r, s) := s.segRes b w g
      let dF := s.dimOf (s.factorTable b.mooring)
      let r := match r with
        | .work x => if s.tooLarge b w dF g x then SegRes.fail fCAPACITY else r
        | _ => r
      let (l, s) := s.settleSegs b w train (row + g.count) gs
      ({ seg := g, row0 := row, res := r } :: l, s)

/-- Every factor row of the covered segments looked for, in the order of adapter id and VSLOT; true while some are on their
way (R163). -/
def State.seekAll (s : State) (b : Barge) (w i : Nat) (fwd : Bool) (ws : List SegWork) : Bool × State :=
  let dF := s.dimOf (s.factorTable b.mooring)
  let order := sortBy (fun (x y : SegWork) => lexLe [x.seg.adapter, x.seg.vslot] [y.seg.adapter, y.seg.vslot]) ws
  order.foldl (fun p g => match g.res with
    | .work x => (b.physOf (recRegions w)).foldl (fun p r =>
        (s.needRows b w dF r x).foldl (fun p y =>
          let (wait, s) := p.2.seekFactor b.id i r y g.seg fwd
          (p.1 || wait, s)) p) p
    | _ => p) (false, s)

/-- The reads for DELTA record `i` may start: no earlier DELTA but one that runs is left (R163). -/
def State.mayFetch (s : State) (b : Barge) (i : Nat) : Bool :=
  let open_ := (List.range i).filter fun k => recOp (s.progRec b k) == 0x02 && !b.opIs k .complete
  open_.length ≤ 1 && open_.all fun k => b.opIs k .running

/-- A DELTA's segments settled and its factor rows looked for; true while some are on their way. -/
def State.seekSegs (s : State) (b : Barge) (i : Nat) (train : Bool) : Bool × List SegWork × State :=
  let w := s.progRec b i
  let (ws, s) := s.settleSegs b w train 0 (b.covered w)
  let (wait, s) := s.seekAll b w i (!train) ws
  (wait, ws, s)

/-- A DELTA that may not issue yet starts its reads (R163). -/
def State.fetchAhead (s : State) (b : Barge) (i : Nat) (train : Bool) : State :=
  if b.opIs i .waiting && b.failed.isNone && b.st == .running && dCount (s.progRec b i) != 0 && s.mayFetch b i then (s.seekSegs b i train).2.2
  else s

/-- A working segment some of whose factor rows could not be read fails. -/
def State.segFails (s : State) (b : Barge) (w i : Nat) (g : SegWork) : SegWork :=
  match g.res with
  | .work x =>
    let dF := s.dimOf (s.factorTable b.mooring)
    let bad := (b.physOf (recRegions w)).flatMap fun r => (s.needRows b w dF r x).filterMap fun y => b.factorFate i r y
    match bad with
    | f :: _ => { g with res := .fail f }
    | [] => g
  | _ => g

/-- An unusable segment counts once in a barge (R174). -/
def State.noteUnusable (s : State) (id : Nat) (g : Seg) : State :=
  match s.barge? id with
  | some b =>
    if b.segFaults.contains g.first then s
    else ((s.count pSPD 0xF18).err pSPD 0).updBarge id fun x => { x with segFaults := g.first :: x.segFaults }
  | none => s

/-- The rows' next commits are refused for poison (R174). -/
def State.poisonRows (s : State) (id : Nat) (rows : List Nat) : State :=
  s.updBarge id fun x => { x with rows := x.rows.zipIdx.map fun (r, k) => if rows.contains k then { r with poison := true } else r }

/-- The failures of the covered segments, and the counts of segments (R174, R175). -/
def State.noteSegs (s : State) (b : Barge) (train : Bool) (ws : List SegWork) : State :=
  ws.foldl (fun s g =>
    let rows := b.segRowsOf g.seg train
    match g.res with
    | .base => s.count pSPD 0xF04
    | .unusable => (s.noteUnusable b.id g.seg).failRows b.id rows fCFG
    | .fail f => s.failRows b.id rows f
    | .poison => (if train then s.poisonRows b.id rows else s).count pSPD 0xF00
    | .work _ => s.count pSPD 0xF00) s

/-! ### Factor values -/

/-- Element (`i`, `j`) of a factor whose rank rows take `per` table rows each, from `row0` on. -/
def Barge.factorElem (b : Barge) (i r fmt row0 per dF rank j : Nat) : Num :=
  match b.factor? i r (row0 + rank * per + j / dF) with
  | some f => decodeElem fmt (f.elems.getD (j % dF) 0)
  | none => .zero

/-- Some factor row in use is poisoned. -/
def Barge.factorsPoison (b : Barge) (i r : Nat) (rows : List Nat) : Bool := rows.any fun x => ((b.factor? i r x).map (·.poison)).getD false

/-- The X row as the side pond takes it (R34). -/
def State.pondRow (s : State) (a : Opd) (st : Store) (fmt m k : Nat) : List Num :=
  let xs := s.rowVals a st m k
  if (a.fmt == 3 || a.fmt == 4) && (fmt == 3 || fmt == 4) then xs else xs.map rBF16

/-- Rank columns of a pass, and the passes of a rank (R144). -/
def passWidth (xFmt fFmt : Nat) : Nat := if (xFmt == 3 || xFmt == 4) && (fFmt == 3 || fFmt == 4) then 32 else 16

/-- u = x × A, from choice `base` on (R143). -/
def pondU (base rank : Nat) (xs : List Num) (a : Nat → Nat → Num) : List Num :=
  (List.range rank).map fun i =>
    sumFree (base + i * sumPicks (xs.length + 1)) (.zero :: xs.zipIdx.map fun (x, j) => x.mul (a i j))

def pondPicks (rank k : Nat) : Nat := rank * sumPicks (k + 1)

/-- The scaled value rounded into FACTOR_FMT, saturating (R143). -/
def pondScaled (fmt : Nat) (scale : Num) (u : List Num) : List Narrowed := u.map fun x => narrow fmt true .rne (r32 (x.mul scale))

/-! ### U store splits (R159) -/

/-- Groups that a tile splits the covered rows into, less one. -/
def uSplits (room : Nat) (ns : List (Nat × Nat)) : Nat :=
  (ns.foldl (fun (used, splits) (rows, bytes) =>
    if rows * bytes = 0 then (used, splits)
    else if used + rows * bytes ≤ room then (used + rows * bytes, splits)
    else
      let splits := if used = 0 then splits else splits + 1
      let per := max 1 (room / bytes)
      let groups := divUp rows per
      ((rows - (groups - 1) * per) * bytes, splits + (groups - 1))) (0, 0)).2

/-- Side-pond work of a pair on one tile (R166). -/
def pondCclk (ws : List (Nat × Nat)) (cK cN perRow : Nat) : Nat :=
  divUp ((ws.map fun (m, p) => m * p * perRow).foldl (· + ·) 0) 2 + (ws.map fun (_, p) => p * (cK + cN)).foldl (· + ·) 0

/-! ### The pair -/

/-- The scaled, rounded U of every corrected row on one tile, by operand row; with the clamps and choices. -/
structure TileU where
  rows : List (Nat × List Num)
  ovf : Nat
  picks : Nat

def State.tileU (s : State) (b : Barge) (i w r j : Nat) (rowsOf : Seg → List Nat) (ws : List SegWork) : TileU :=
  let m := b.mooring
  let (k, _, _) := s.layerOf m (dLayer w)
  let dF := s.dimOf (s.factorTable m)
  let fmt := s.factorFmt m
  let a := recA w
  ws.foldl (fun (acc : TileU) g => match g.res with
    | .work x => (rowsOf g.seg).foldl (fun acc row =>
        let mrow := g.row0 + (row - g.seg.first)
        let u := pondU (s.picks + acc.picks) x.rank (s.pondRow a (a.store r j) fmt mrow k)
          fun i' j' => b.factorElem i r fmt x.aRow (divUp k dF) dF i' j'
        let us := pondScaled fmt x.scale u
        { rows := acc.rows ++ [(mrow, us.map fun e => decodeElem fmt e.bits)], ovf := acc.ovf + (events us).1
          picks := acc.picks + pondPicks x.rank k }) acc
    | _ => acc) { rows := [], ovf := 0, picks := 0 }

/-- The working segment that holds operand row `m`. -/
def workAt (ws : List SegWork) (m : Nat) : Option SegWork := ws.find? fun g => g.row0 ≤ m && m < g.row0 + g.seg.count

/-- The correction that tile instance `k` joins (R143, R153). -/
def State.correction (s : State) (b : Barge) (i w r k : Nat) (us : TileU) (ws : List SegWork) : Correction :=
  let m := b.mooring
  let (_, n, _) := s.layerOf m (dLayer w)
  let (lo, hi) := s.colsOf m (dLayer w) k
  let dF := s.dimOf (s.factorTable m)
  let fmt := s.factorFmt m
  { terms := fun row c =>
      if hi ≤ lo + c then []
      else match workAt ws row with
        | some g => match g.res with
          | .work x => ((us.rows.find? (·.1 == row)).elim [] (·.2)).zipIdx.map fun (u, i') =>
              u.mul (b.factorElem i r fmt x.bRow (divUp n dF) dF i' (lo + c))
          | _ => []
        | none => []
    taint := fun row => match workAt ws row with
      | some g => match g.res with
        | .work x => { pend := 0, poison := decide (lo < hi) && b.factorsPoison i r (s.needRows b w dF r x) }
        | .poison => { pend := 0, poison := true }
        | _ => {}
      | none => {} }

/-- One tile instance of the pair. -/
def State.pairTile (s : State) (b : Barge) (i v w r j k : Nat) (ws : List SegWork) : State :=
  let m := b.mooring
  let (kk, _, nt) := s.layerOf m (dLayer w)
  let (lo, hi) := s.colsOf m (dLayer w) k
  if hi ≤ lo then s.mmTile b (i - 1) v r j (s.correction b i w r k { rows := [], ovf := 0, picks := 0 } ws)
  else
    let s := s.seeRows (recA w) ((recA w).store r j) (mmM v) (mmK v)
    let us := s.tileU b i w r j (fun g => (List.range g.count).map (g.first + ·)) ws
    let s := (s.takePicks us.picks).countNum r (us.ovf, 0)
    let pw := passWidth (recA w).fmt (s.factorFmt m)
    let ps := ws.filterMap fun g => match g.res with | .work x => some (g.seg.count, divUp x.rank pw) | _ => none
    let s := s.count pSPD 0xF10 (uSplits (1024 * s.cfgN pSPD 0x204) (ps.map fun (n, p) => (n, 4 * pw * p)))
    let s := s.count (tPage (r * 16 + j)) 0xF04 (pondCclk ps (divUp kk 64) (divUp nt 128) (divUp kk 64 + 2 * divUp nt 128))
    s.mmTile b (i - 1) v r j (s.correction b i w r k us ws)

/-- The factor rows of a record are no longer needed. -/
def State.dropFactors (s : State) (id i : Nat) : State :=
  s.updBarge id fun b => { b with factors := b.factors.filter (·.rec_ != i), factorFails := b.factorFails.filter (·.1 != i) }

/-- The pair runs: the DELTA is record `i`, with word `w`, its MM the record before, with word `v`. -/
def State.pairRun (s : State) (b : Barge) (i v w : Nat) (ws : List SegWork) : State :=
  let s := s.noteSegs b false ws
  match s.barge? b.id with
  | none => s
  | some x =>
    if x.failed.isSome then s
    else
      let s := (x.numbered w).foldl (fun s ((r, j), k) => s.pairTile x i v w r j k ws) s
      let p := (s.barge? b.id).elim 0 fun y => (y.op (i - 1)).pend
      (s.notePend b.id i p).dropFactors b.id i

/-- A pair whose tokens are set and whose tiles are free: it issues together once its factors are present (R95, R163). -/
def State.tryPair (s : State) (b : Barge) (i : Nat) : State :=
  let v := s.progRec b (i - 1)
  let w := s.progRec b i
  match s.blocked b v with
  | some f => s.failBarge b.id f
  | none =>
    if s.rangesHeld b.id (mmExt v) then s
    else if mmZero v then (((s.issue b.id (i - 1)).issue b.id i).finishOp b.id (i - 1)).finishOp b.id i
    else if dCount w = 0 then
      let s := ((s.issue b.id (i - 1)).issue b.id i).finishOp b.id i
      mmEffect (i - 1) s b v
    else
      let (wait, ws, s) := s.seekSegs b i false
      if wait then s
      else match s.barge? b.id with
        | some x => ((s.issue b.id (i - 1)).issue b.id i).pairRun x i v w (ws.map (s.segFails x w i))
        | none => s

/-- The DELTA of a pair: fetched, checked, its factors read ahead, and issued with its MM. -/
def State.runPair (s : State) (id i : Nat) : State :=
  let s := s.fetchRec id i 0x02 deltaOk
  match s.barge? id with
  | none => s
  | some b =>
    if !(i != 0 && recOp (s.progRec b i) == 0x02 && dDir (s.progRec b i) == 0 && b.opIs i .waiting) then s
    else if s.mayIssue b (i - 1) then s.tryPair b i else s.fetchAhead b i false

/-- A record of the other direction is left to its own command. -/
def State.deltaDir (s : State) (id i dir : Nat) : Bool :=
  match s.barge? id with
  | some b => dDir (s.progRec b i) == dir || (dir == 0 && 2 ≤ dDir (s.progRec b i))
  | none => false

/-- DELTA: record `i` of barge `b`, with DIR 0b00 (R95). -/
def execDelta (b i : Nat) (s : State) : Host.Outcome State Fault Refusal :=
  s.engine fun s => if s.deltaDir b i 0 then s.runPair b i else s

/-! ### Backward (R168 to R171) -/

/-- A contribution to a factor row: its elements' terms, by element. -/
structure Contrib where
  row : Nat
  /-- element and term -/
  terms : List (Nat × Num)
  pend : LockMask
  poison : Bool

/-- What one training row brings on one tile: gradients of A, of B, and of the input. -/
structure BackRow where
  da : List Contrib
  db : List Contrib
  dx : List (List Num)
  picks : Nat
  ovf : Nat

/-- Terms of one factor row cut out of a list of (element, term) pairs, chunk by chunk (R151). -/
def chunkTerms (dF row0 : Nat) (ts : List (Nat × Num)) (pend : LockMask) (poison : Bool) : List Contrib :=
  let cs := (ts.map fun (e, _) => e / dF).eraseDups
  cs.map fun c => { row := row0 + c, terms := (ts.filter fun (e, _) => e / dF == c).map fun (e, x) => (e % dF, x), pend := pend, poison := poison }

/-- One training row of a working segment on tile instance `k` (R169). -/
def State.backRow (s : State) (b : Barge) (i w r j k mrow : Nat) (x : Work) : BackRow :=
  let m := b.mooring
  let (kk, n, _) := s.layerOf m (dLayer w)
  let (lo, hi) := s.colsOf m (dLayer w) k
  let dF := s.dimOf (s.factorTable m)
  let fmt := s.factorFmt m
  let a := recA w
  let o := recB w
  let fa := fun i' j' => b.factorElem i r fmt x.aRow (divUp kk dF) dF i' j'
  let fb := fun i' c => b.factorElem i r fmt x.bRow (divUp n dF) dF i' c
  let xs := s.pondRow a (a.store r j) fmt mrow kk
  let us := pondScaled fmt x.scale (pondU s.picks x.rank xs fa)
  let uv := us.map fun e => decodeElem fmt e.bits
  let base := s.picks + pondPicks x.rank kk
  let dy := (s.rowVals o (o.store r j) mrow (hi - lo))
  let per := sumPicks (hi - lo + 1)
  let g := (List.range x.rank).map fun i' =>
    r32 (x.scale.mul (sumFree (base + i' * per) (.zero :: dy.zipIdx.map fun (y, c) => y.mul (fb i' (lo + c)))))
  let t := ((s.rowTaint a (a.store r j) mrow kk).join (s.rowTaint o (o.store r j) mrow (hi - lo))).join
    { poison := b.factorsPoison i r (s.needRows b w dF r x) }
  let pend := t.pend ||| b.lockSet w
  { da := (List.range x.rank).flatMap fun i' =>
      chunkTerms dF (x.aRow + i' * divUp kk dF) (xs.zipIdx.map fun (e, p) => (p, e.mul (g.getD i' .zero))) pend t.poison
    db := (List.range x.rank).flatMap fun i' =>
      chunkTerms dF (x.bRow + i' * divUp n dF) (dy.zipIdx.map fun (y, c) => (lo + c, (uv.getD i' .zero).mul y)) pend t.poison
    dx := (List.range kk).map fun p => (List.range x.rank).map fun i' => (g.getD i' .zero).mul (fa i' p)
    picks := pondPicks x.rank kk + x.rank * per, ovf := (events us).1 }

/-- The address of entry `k` of a gradient list (R170). -/
def State.gradAddr (s : State) (dF k : Nat) : Nat := s.cfgN pSPD 0x208 + 64 + (64 + 4 * dF) * k

/-- The entries a list holds (R171). -/
def State.gradMax (s : State) (dF : Nat) : Nat := (1024 * s.cfgN pSPD 0x20C - 64) / (64 + 4 * dF)

/-- The place of a factor row in region `r`'s list. -/
def State.gradFind (s : State) (r dF tid x : Nat) : Option Nat :=
  (List.range (s.region r).uses).find? fun k =>
    let e := s.rdNat (.pool r) (s.gradAddr dF k) 64
    nfld e 11 0 == tid && nfld e 55 16 == x

/-- A contribution added into an entry; the order of additions is not fixed (R36, R169). -/
def State.gradAdd (s : State) (r dF k : Nat) (c : Contrib) (fresh : Bool) (tid : Nat) : State :=
  let st := Store.pool r
  let a := s.gradAddr dF k
  let old := if fresh then List.replicate dF 0 else groups 4 dF (s.rd st (a + 64) (4 * dF))
  let t := if fresh then ({} : Taint) else s.taint st (a + 64) (4 * dF)
  let (vals, picks) := mmRow s.picks (fun e => fB32.decode (old.getD e 0)) (fun e => (c.terms.filter (·.1 == e)).map (·.2)) dF
  let pend := t.pend ||| c.pend
  let poison := t.poison || c.poison
  let s := if fresh then s.wr st a (leBytes 64 (tid + c.row * 2 ^ 16)) c.pend else s
  (s.takePicks picks).wr st (a + 64) (vals.flatMap fun v => leBytes 4 (b32 v).toNat) pend poison

/-- The list's count set, in its header too. -/
def State.setGradUses (s : State) (r n : Nat) : State :=
  (s.updRegion r fun x => { x with uses := n }).wr (.pool r) (s.cfgN pSPD 0x208) (leBytes 64 n)

/-- A contribution joins region `r`'s list. -/
def State.gradPut (s : State) (r dF tid : Nat) (c : Contrib) : State :=
  match s.gradFind r dF tid c.row with
  | some k => s.gradAdd r dF k c false tid
  | none =>
    let n := (s.region r).uses
    (s.gradAdd r dF n c true tid).setGradUses r (n + 1)

/-- dX of one row added into C (R168). -/
def State.addDx (s : State) (b : Barge) (i w r j mrow kk : Nat) (dx : List (List Num)) (t : Taint) : State :=
  let c := recC w
  if c.none then s
  else
    let sc := c.store r j
    let old := s.rowVals c sc mrow kk
    let (vals, picks) := mmRow s.picks (fun p => old.getD p .zero) (fun p => dx.getD p []) kk
    let t := (t.join (s.rowTaint c sc mrow kk))
    ((s.takePicks picks).writeRow c sc r mrow (recSat w) (fun _ => .rne) vals t).notePend b.id i t.pend

/-- One training row on one tile. -/
def State.backOne (s : State) (b : Barge) (i w r j k mrow dF tid : Nat) (x : Work) : State :=
  let y := s.backRow b i w r j k mrow x
  let (kk, _, _) := s.layerOf b.mooring (dLayer w)
  let s := (s.takePicks y.picks).countNum r (y.ovf, 0)
  let t : Taint := match y.da with | c :: _ => { pend := c.pend, poison := c.poison } | [] => {}
  let s := ((y.da ++ y.db).foldl (fun s c => s.gradPut r dF tid c) s).notePend b.id i t.pend
  s.addDx b i w r j mrow kk y.dx t

/-- The factor rows that a segment's training rows add to region `r`'s list. -/
def State.gradRows (s : State) (b : Barge) (w dF r : Nat) (x : Work) : List Nat := s.needRows b w dF r x

/-- New entries of a segment fit in every region's list (R171). -/
def State.gradRoom (s : State) (b : Barge) (w dF tid : Nat) (x : Work) : Bool :=
  (b.physOf (recRegions w)).all fun r =>
    let new := (s.gradRows b w dF r x).filter fun y => (s.gradFind r dF tid y).isNone
    decide ((s.region r).uses + new.length ≤ s.gradMax dF)

/-- A working segment's training rows on every tile instance that has columns. -/
def State.backSeg (s : State) (b : Barge) (i w dF tid : Nat) (g : SegWork) (x : Work) : State :=
  let rows := b.segRowsOf g.seg true
  if rows.isEmpty then s
  else if !s.gradRoom b w dF tid x then s.failRows b.id rows fCAPACITY
  else (b.numbered w).foldl (fun s ((r, j), k) =>
    let (lo, hi) := s.colsOf b.mooring (dLayer w) k
    if hi ≤ lo then s
    else rows.foldl (fun s row => s.backOne b i w r j k (g.row0 + (row - g.seg.first)) dF tid x) s) s

/-- Side-pond time and splits of a backward DELTA on each tile (R159, R173). -/
def State.backTime (s : State) (b : Barge) (w : Nat) (ws : List SegWork) : State :=
  let (kk, _, nt) := s.layerOf b.mooring (dLayer w)
  let pw := passWidth (recA w).fmt (s.factorFmt b.mooring)
  let ps := ws.filterMap fun g => match g.res with | .work x => some ((b.segRowsOf g.seg true).length, divUp x.rank pw) | _ => none
  let ps := ps.filter (·.1 != 0)
  let per := (if (recC w).none then 2 else 3) * divUp kk 64 + 4 * divUp nt 128
  let splits := uSplits (1024 * s.cfgN pSPD 0x204) (ps.map fun (n, p) => (n, 4 * pw * p))
  (b.numbered w).foldl (fun s ((r, j), k) =>
    let (lo, hi) := s.colsOf b.mooring (dLayer w) k
    if hi ≤ lo then s
    else (s.count pSPD 0xF10 splits).count (tPage (r * 16 + j)) 0xF04 (pondCclk ps (divUp kk 64) (divUp nt 128) per)) s

/-- The operand rows of the training rows of the working segments. -/
def Barge.backRows (b : Barge) (ws : List SegWork) : List Nat :=
  ws.flatMap fun g => match g.res with
    | .work _ => (b.segRowsOf g.seg true).map fun k => g.row0 + (k - g.seg.first)
    | _ => []

/-- The rows that a backward DELTA reads meet the errors stored there (R168). -/
def State.seeBack (s : State) (b : Barge) (w : Nat) (ws : List SegWork) : State :=
  let (kk, _, nt) := s.layerOf b.mooring (dLayer w)
  let rows := b.backRows ws
  (b.numbered w).foldl (fun s ((r, j), k) =>
    let (lo, hi) := s.colsOf b.mooring (dLayer w) k
    let see := fun (s : State) (o : Opd) n => if o.none then s else s.seeIn (o.store r j) (rows.flatMap fun m => o.ranges m n)
    if hi ≤ lo then s else see (see (see s (recA w) kk) (recB w) nt) (recC w) kk) s

/-- A segment whose descriptor could not be read brings no gradients, and poisons the dX of its training rows (R174). -/
def State.backPoison (s : State) (b : Barge) (i w : Nat) (g : SegWork) : State :=
  let (kk, _, _) := s.layerOf b.mooring (dLayer w)
  (b.numbered w).foldl (fun s ((r, j), k) =>
    let (lo, hi) := s.colsOf b.mooring (dLayer w) k
    if hi ≤ lo then s
    else (b.segRowsOf g.seg true).foldl (fun s row =>
      s.addDx b i w r j (g.row0 + (row - g.seg.first)) kk [] { pend := b.lockSet w, poison := true }) s) s

/-- The backward DELTA runs. -/
def State.backRun (s : State) (b : Barge) (i w : Nat) (ws : List SegWork) : State :=
  let s := s.noteSegs b true ws
  let dF := s.dimOf (s.factorTable b.mooring)
  let s := (s.seeBack b w ws).backTime b w ws
  let s := ws.foldl (fun s g => match g.res, s.barge? b.id with
    | .work x, some y => if y.failed.isSome then s else s.backSeg y i w dF (s.factorTable b.mooring) g x
    | .poison, some y => if y.failed.isSome then s else s.backPoison y i w g
    | _, _ => s) s
  s.dropFactors b.id i

/-- The backward DELTA with its factors looked for: it issues once they are present. -/
def State.tryBack (s : State) (b : Barge) (i : Nat) : State :=
  let w := s.progRec b i
  match s.blocked b w with
  | some f => s.failBarge b.id f
  | none =>
    if dCount w = 0 || recTiles w = 0 then (s.issue b.id i).finishOp b.id i
    else
      let (wait, ws, s) := s.seekSegs b i true
      if wait then s
      else match s.barge? b.id with
        | some x => (s.issue b.id i).backRun x i w (ws.map (s.segFails x w i))
        | none => s

def State.runBack (s : State) (id i : Nat) : State :=
  let s := s.fetchRec id i 0x02 deltaBackOk
  match s.barge? id with
  | none => s
  | some b =>
    if !(recOp (s.progRec b i) == 0x02 && dDir (s.progRec b i) == 1) then s
    else if s.mayIssue b i then s.tryBack b i else s.fetchAhead b i true

/-- DELTA_BACKWARD: record `i` of barge `b`, with DIR 0b01 (R168). -/
def execDeltaBackward (b i : Nat) (s : State) : Host.Outcome State Fault Refusal :=
  s.engine fun s => if s.deltaDir b i 1 then s.runBack b i else s

end Sys2Proof.Machine
end

