-- ==== Sys2Proof/Machine/Elementary.lean ====
section
/-! DEFINITION. The exponential and the logarithm as fractions with an error below 2^-240 of the value, from which the
functions of R375 that R376 gives an accuracy are taken. -/

namespace Sys2Proof.Machine

open Sys2Proof

/-- One in the fixed point of the series. -/
def fixOne : Nat := 2 ^ 400

/-- The sum of `n` more terms of the exponential series at `r`, from term `t` with number `k` on. -/
def expSum (r : Nat) : Nat → Nat → Nat → Nat
  | 0, _, _ => 0
  | n + 1, k, t => t + expSum r n (k + 1) (t * r / fixOne / (k + 1))

/-- The sum of `n` more terms of the area hyperbolic tangent's series, from power `p` with exponent `k` on; `q` is the square
of the argument. -/
def atanhSum (q : Nat) : Nat → Nat → Nat → Nat
  | 0, _, _ => 0
  | n + 1, k, p => p / k + atanhSum q n (k + 2) (p * q / fixOne)

/-- Twice the area hyperbolic tangent of an argument of at most a third. -/
def atanh2 (y : Nat) : Nat := 2 * atanhSum (y * y / fixOne) 140 1 y

/-- ln 2. -/
def fixLn2 : Nat := atanh2 (fixOne / 3)

/-- A positive value below every binary32 value. -/
def tinyNum : Num := .fin false 1 (2 ^ 200)

/-- e^x of a finite x of magnitude at most 300. -/
def expOf (s : Bool) (n d : Nat) : Num :=
  let x := n * fixOne / d
  let k := x / fixLn2
  let r := x % fixLn2
  if s then .fin false (expSum (fixLn2 - r) 90 0 fixOne) (fixOne * 2 ^ (k + 1)) else .fin false (expSum r 90 0 fixOne * 2 ^ k) fixOne

/-- ln of a positive fraction. -/
def lnOf (n d : Nat) : Num :=
  let e := flog2 n d
  let m := if 0 ≤ e then n * fixOne / (d * 2 ^ e.toNat) else n * 2 ^ e.natAbs * fixOne / d
  let x : Int := e * fixLn2 + atanh2 ((m - fixOne) * fixOne / (m + fixOne))
  if n = d then .zero else .fin (decide (x < 0)) x.natAbs fixOne

/-- A finite magnitude is above `k`. -/
def beyond (k n d : Nat) : Bool := decide (k * d < n)

/-- e^x of a finite x; below every binary32 value far down. -/
def expNum (s : Bool) (n d : Nat) : Num := if beyond 300 n d then (if s then tinyNum else .inf false) else expOf s n d

/-- 1 / (1 + e^-x). -/
def sigmoidNum (s : Bool) (n d : Nat) : Num :=
  if beyond 300 n d then (if s then tinyNum else .fin false 1 1)
  else match expOf true n d with
    | .fin _ p q => .fin false (if s then p else q) (p + q)
    | y => y

/-- tanh x. -/
def tanhNum (s : Bool) (n d : Nat) : Num :=
  if beyond 100 n d then .fin s 1 1
  else match expOf false (2 * n) d with
    | .fin _ p q => .fin s (p - q) (p + q)
    | y => y

/-- ln (1 + e^x). -/
def softplusNum (s : Bool) (n d : Nat) : Num :=
  if beyond 200 n d then (if s then tinyNum else .fin s n d)
  else match expOf s n d with
    | .fin _ p q => lnOf (p + q) q
    | y => y

/-- The argument of the hyperbolic tangent in GELU, twice: 2 × 0.797 884 56 × (x + 0.044 715 × x³). -/
def geluArg (x : Num) : Num :=
  (Num.fin false (2 * 79788456) (10 ^ 8)).mul (x.add ((Num.fin false 44715 (10 ^ 6)).mul (x.mul (x.mul x))))

end Sys2Proof.Machine
end

