-- ==== Sys2Proof/Machine/Vector.lean ====
section
/-! DEFINITION. The vector engine (spec/15): VEC's streams and functions (R370 to R378), CONV (R379, R380), and what an
instance costs (R381). -/

namespace Sys2Proof.Machine

open Sys2Proof

/-! ### Functions (R375, R376) -/

def Num.sign : Num → Bool
  | .fin s _ _ => s
  | .inf s => s
  | .nan => false

/-- Order of values that are no NaN, −0 below +0. -/
def below (a b : Num) : Bool := a.lt b || (a.isZero && b.isZero && a.sign && !b.sign)

/-- MAX and MIN: a NaN wins (R376). -/
def vMax (a b : Num) : Num := if a.isNan || b.isNan then .nan else if below a b then b else a
def vMin (a b : Num) : Num := if a.isNan || b.isNan then .nan else if below b a then b else a

/-- A value of binary32 within `k` units in the last place of the exact `x`; which one is free (R376; assumption 5). -/
def withinUlps (k f : Nat) (arg x : Num) : Num := nearUlps k (Config.vecFn f (b32 arg)).toNat x

/-- 1 / √a to 200 bits, exact where √a is rational. -/
def invSqrt (n d : Nat) : Num := .fin false (Nat.sqrt (d * n * 2 ^ 400)) (n * 2 ^ 200)

/-- e^a. -/
def vExp (a : Num) : Num :=
  match a with
  | .nan => .nan
  | .inf s => if s then .zero else .inf false
  | .fin s n d => withinUlps 4 0x0F a (expNum s n d)

/-- RECIP and RSQRT (R376). -/
def vRecip (a : Num) : Num :=
  match a with
  | .fin s n d => if n = 0 then .inf s else withinUlps 1 0x0C a (.fin s d n)
  | y => one32.div y

def vRsqrt (a : Num) : Num :=
  match a with
  | .nan => .nan
  | .inf s => if s then .nan else .zero
  | .fin s n d => if n = 0 then .inf s else if s then .nan else withinUlps 1 0x0E a (invSqrt n d)

def vLog (a : Num) : Num :=
  match a with
  | .nan => .nan
  | .inf s => if s then .nan else .inf false
  | .fin s n d => if n = 0 then .inf true else if s then .nan else withinUlps 4 0x10 a (lnOf n d)

/-- A function that R376 holds to 4 units in the last place: at −∞, at +∞ and at a finite value. -/
def vFour (f : Nat) (atNeg atPos : Num) (g : Bool → Nat → Nat → Num) (a : Num) : Num :=
  match a with
  | .nan => .nan
  | .inf s => if s then atNeg else atPos
  | .fin s n d => withinUlps 4 f a (g s n d)

/-- a × 1 / (1 + e^-x), for a finite a. -/
def timesSigmoid (a x : Num) : Num :=
  match x with
  | .fin s n d => a.mul (sigmoidNum s n d)
  | y => y

/-- The value of GELU or SILU at −∞, which is −∞ × 0 (assumption 5). -/
def freeFn (f : Nat) (a : Num) : Num := Word.num (Config.vecFn f (b32 a))

/-- e^(a − b) / c. -/
def vExpNorm (a b c : Num) : Num :=
  match a.sub b, c with
  | .nan, _ => .nan
  | _, .nan => .nan
  | .inf s, c => (if s then Num.zero else .inf false).div c
  | .fin _ _ _, .inf s => .fin s 0 1
  | .fin x p q, .fin s n d =>
    if n = 0 then .inf s else nearUlps 4 (Config.expNorm (b32 a) (b32 b) (b32 c)).toNat ((expNum x p q).div (.fin s n d))

/-- An elementwise function (R375). -/
def vecElem (f : Nat) (a b c : Num) : Num :=
  if f = 0x00 then a
  else if f = 0x01 then r32 (a.add b)
  else if f = 0x02 then r32 (a.sub b)
  else if f = 0x03 then r32 (a.mul b)
  else if f = 0x04 then r32 (a.div b)
  else if f = 0x05 then r32 ((a.mul b).add c)
  else if f = 0x06 then vMax a b
  else if f = 0x07 then vMin a b
  else if f = 0x08 then vMin (vMax a b) c
  else if f = 0x09 then (if Num.zero.lt a then b else c)
  else if f = 0x0A then a.abs
  else if f = 0x0B then a.neg
  else if f = 0x0C then vRecip a
  else if f = 0x0D then sqrt32 a
  else if f = 0x0E then vRsqrt a
  else if f = 0x0F then vExp a
  else if f = 0x10 then vLog a
  else if f = 0x11 then vFour 0x11 .zero one32 sigmoidNum a
  else if f = 0x12 then vFour 0x12 one32.neg one32 tanhNum a
  else if f = 0x13 then vMax a .zero
  else if f = 0x14 then (if Num.zero.lt a then a else r32 (a.mul b))
  else if f = 0x15 then vFour 0x15 (freeFn 0x15 a) (.inf false) (fun s n d => timesSigmoid (.fin s n d) (geluArg (.fin s n d))) a
  else if f = 0x16 then vFour 0x16 (freeFn 0x16 a) (.inf false) (fun s n d => timesSigmoid (.fin s n d) (.fin s n d)) a
  else if f = 0x17 then vFour 0x17 .zero (.inf false) softplusNum a
  else vExpNorm a b c

/-- Row reductions, MAXEXP apart; sums from choice `base` on. -/
def vecReduce (f base : Nat) (xs : List Num) : Num :=
  match xs with
  | [] => .zero
  | x :: r =>
    if f = 0x18 then sumFree base xs
    else if f = 0x19 then r.foldl vMax x
    else if f = 0x1A then r.foldl vMin x
    else sumFree base (xs.map fun y => r32 (y.mul y))

/-- MAXEXP of one row (R377). -/
def maxExpRow (base : Nat) (xs : List Num) : Num × Num :=
  let mx := vecReduce 0x19 base xs
  if mx.isNan then (.nan, .nan)
  else if mx == .inf true then (mx, .zero)
  else (mx, sumFree base (xs.map fun x => vExp (x.sub mx)))

/-- It merged with an earlier pair. -/
def maxExpMerge (p q : Num × Num) : Num × Num :=
  let m := vMax p.1 q.1
  let e := fun (x : Num) => if x == .inf true && m == .inf true then Num.zero else vExp (x.sub m)
  (m, r32 ((r32 (p.2.mul (e p.1))).add (r32 (q.2.mul (e q.1)))))

/-! ### VEC's parameters (R371) -/

def vFunc (w : Nat) : Nat := recP w 127 123
def vScalar (w i : Nat) : Bool := recP w (120 + i) (120 + i) == 1
def vRows (w : Nat) : Nat := recP w 119 106
def vCols (w : Nat) : Nat := 16 * recP w 105 96

/-- Functions that run at the reduced rate (R375). -/
def vSlow (f : Nat) : Bool := f == 0x04 || (0x0C ≤ f && f ≤ 0x12) || (0x15 ≤ f && f ≤ 0x17) || f == 0x1C || f == 0x1D

/-- Input streams that a function uses. -/
def vUses (f : Nat) : Nat :=
  if (0x01 ≤ f && f ≤ 0x04) || f == 0x06 || f == 0x07 || f == 0x14 then 2
  else if f == 0x05 || f == 0x08 || f == 0x09 || f == 0x1D then 3 else 1

def vReduces (f : Nat) : Bool := 0x18 ≤ f && f ≤ 0x1B

/-- Input stream `i`. -/
def vStream (w i : Nat) : Opd := if i = 0 then recA w else if i = 1 then recB w else recC w

/-- The streams present. -/
def vPresent (w : Nat) : List Nat := (List.range 3).filter fun i => !(vStream w i).none

/-- Bytes of a packed list of `n` elements. -/
def listBytes (fmt n : Nat) : Nat := rowBytes fmt n

/-- A contiguous array of `n` bytes lies in its space. -/
def State.arrayFits (s : State) (o : Opd) (n : Nat) : Bool := decide (o.addr + n ≤ s.spaceBytes o.space)

/-- Where the exp-sums of a MAXEXP list begin. -/
def expOfs (rows : Nat) : Nat := upTo (4 * rows) 64

/-- A space that streams come from. -/
def streamSpace (o : Opd) : Bool := o.space == spSCRATCH || o.space == spPOOL || o.space == spEXT

/-- An input stream suits R372. -/
def State.streamOk (s : State) (w i : Nat) : Bool :=
  let o := vStream w i
  streamSpace o && (if vFunc w = 0x1C && i = 2 then vScalar w 2 && o.stride == 1 && o.fmt == 0 && s.arrayFits o (expOfs (vRows w) + 4 * vRows w)
    else if vScalar w i then
      o.stride ≤ 1 && !fmtMX o.fmt && s.arrayFits o (listBytes o.fmt (if o.stride = 1 then vRows w else 1))
    else s.rowsFit o (vRows w) (rowBytes o.fmt (vCols w)) (rowBlocks (vCols w)))

/-- The output suits R373. -/
def State.outOk (s : State) (w : Nat) : Bool :=
  let o := recOut w
  let f := vFunc w
  if o.none then false
  else if f = 0x1C then o.fmt == 0 && o.stride == 1 && o.space != spOUT && s.arrayFits o (expOfs (vRows w) + 4 * vRows w)
  else if vReduces f then o.stride == 1 && !fmtMX o.fmt && o.space != spOUT && s.arrayFits o (listBytes o.fmt (vRows w))
  else o.space == spOUT || (o.stride != 0 && s.rowsFit o (vRows w) (rowBytes o.fmt (vCols w)) (rowBlocks (vCols w)))

/-- R374. -/
def vecOk (s : State) (_ : Barge) (_ : List Nat) (w : Nat) : Bool :=
  let f := vFunc w
  let used := fun i => decide (i < vUses f) || (f == 0x1C && i == 2)
  let row := fun i => !vScalar w i
  let mx := (vPresent w).any (fun i => fmtMX (vStream w i).fmt) || fmtMX (recOut w).fmt
  f ≤ 0x1D && vRows w ≤ 8192
    && (List.range 3).all (fun i =>
      if (vStream w i).none then !(decide (i < vUses f)) && !vScalar w i else used i && s.streamOk w i)
    && s.outOk w && (!mx || !((vPresent w).any row || !(vReduces f || f == 0x1C)) || vCols w % 32 == 0)

/-- A count of 0; or an instance named by no tile. -/
def vecZero (w : Nat) : Bool := vRows w == 0 || vCols w == 0 || (recOnTiles w && recTiles w == 0)

/-! ### Reading streams -/

/-- One element of a packed list. -/
def State.listElem (s : State) (o : Opd) (st : Store) (k : Nat) : Num :=
  let b := fmtBits o.fmt
  let lo := k * b / 8
  decodeElem o.fmt (s.rdNat st (o.addr + lo) (divUp ((k + 1) * b) 8 - lo) / 2 ^ (k * b - 8 * lo) % 2 ^ b)

/-- A stream's elements in binary32 (R370). COPY narrows the source's own values, so that one of 2^128 or more overflows
under R42 as its conversion does (R380). -/
def streamVal (w : Nat) (x : Num) : Num := if vFunc w = 0 then x else r32 x

/-- Row `m` of an input stream as COLS values (R370, R372). -/
def State.streamRow (s : State) (w i : Nat) (st : Store) (m : Nat) : List Num :=
  let o := vStream w i
  if o.none then []
  else if vScalar w i then List.replicate (vCols w) (streamVal w (s.listElem o st (if o.stride = 1 then m else 0)))
  else (s.rowVals o st m (vCols w)).map (streamVal w)

/-- Byte ranges of elements `lo` to `hi` of row `m` of a stream (R120): a stride-0 input in full. -/
def streamRanges (w i m lo hi : Nat) : List (Nat × Nat) :=
  let o := vStream w i
  let b := fmtBits o.fmt
  if o.none then []
  else if vScalar w i then
    (let k := if o.stride = 1 then m else 0
     let x := (o.addr + k * b / 8, divUp ((k + 1) * b) 8 - k * b / 8)
     if vFunc w = 0x1C && i = 2 then [x, (o.addr + expOfs (vRows w) + 4 * m, 4)] else [x])
  else if o.stride = 0 then o.ranges 0 (vCols w)
  else
    let x := (o.row m + lo * b / 8, divUp (hi * b) 8 - lo * b / 8)
    if fmtMX o.fmt then [x, (o.addr + 64 * o.scaleOfs + m * rowBlocks (vCols w) + lo / 32, divUp hi 32 - lo / 32)] else [x]

/-- The marks of what elements `lo` to `hi` of row `m` are computed from. -/
def State.vecTaint (s : State) (b : Barge) (w r j m lo hi : Nat) : Taint :=
  let t := (vPresent w).foldl (fun (t : Taint) i => t.join (s.taintOf ((vStream w i).store r j) (streamRanges w i m lo hi))) {}
  { t with pend := t.pend ||| b.lockSet w }

/-! ### Writing results -/

/-- Bytes cut into words of 64, the last padded with zeros (R370). -/
def words64 : Nat → List Byte → List (List Byte)
  | 0, _ => []
  | fuel + 1, bs => if bs.isEmpty then [] else (bs ++ List.replicate (64 - bs.length) 0).take 64 :: words64 fuel (bs.drop 64)

/-- Elements of word `k` of a row: from, up to; whole blocks for an MX format. -/
def wordElems (fmt n k : Nat) : Nat × Nat :=
  let b := fmtBits fmt
  let lo := 512 * k / b
  let hi := min n (divUp (512 * (k + 1)) b)
  if fmtMX fmt then (lo / 32 * 32, min n (upTo hi 32)) else (lo, hi)

/-- Bytes of a result at `a` of an output's store, word by word with their marks: on chip, or as commit units of external
memory (R121). `mark k` gives the marks of word `k`; `pad` fills the last word with zeros (R370). -/
def State.putWords (s : State) (b i inst : Nat) (o : Opd) (r j a : Nat) (bs : List Byte) (pad : Bool) (mark : Nat → Taint) : State :=
  (words64 (bs.length / 64 + 1) bs).zipIdx.foldl (fun s (ws, k) =>
    let t := mark k
    let ws := if pad then ws else ws.take (bs.length - 64 * k)
    let s := s.notePend b i t.pend
    if o.space = spEXT then s.addWords b i inst (a + 64 * k) ws t []
    else s.wr (o.store r j) (a + 64 * k) ws t.pend t.poison) s

/-- Where an output row of manifest row `k` goes: its request's score area; a training row has none (R373). -/
def State.scoreAddr (s : State) (b : Barge) (k : Nat) : Option Nat :=
  match b.rows[k]? with
  | some m => if m.kind = 2 then none else some ((s.berth m.berth).outAddr + 64 * divUp (s.berth m.berth).maxTokens 16)
  | none => none

/-- One output row placed. -/
def State.putVecRow (s s0 : State) (b : Barge) (i w r j inst m : Nat) (p : Packed) : State :=
  let o := recOut w
  let n := vCols w
  let bs := pack o.fmt p.bits
  let s := s.countNum r (p.ovf, p.nan)
  if o.space = spOUT then
    match s.scoreAddr b m with
    | some a =>
      let t := s0.vecTaint b w r j m 0 n
      s.addUnit { b := b.id, i := i, key := inst * 2 ^ 48 + m, act := .output m a ((words64 (bs.length / 64 + 1) bs).flatten), pend := t.pend
                  poison := t.poison, rows := [m] }
    | none => s
  else s.putWords b.id i inst o r j (o.row m) bs true fun k => let (lo, hi) := wordElems o.fmt n k; s0.vecTaint b w r j m lo hi

/-- The scale array of an MX output, row after row. -/
def State.putScales (s s0 : State) (b : Barge) (i w r j inst : Nat) (scales : List Nat) : State :=
  let o := recOut w
  let per := rowBlocks (vCols w)
  if !fmtMX o.fmt then s
  else (wordsOf 0 scales.length).foldl (fun s k =>
    let part := (scales.drop (64 * k)).take 64
    let t := (part.zipIdx).foldl (fun (t : Taint) (_, x) =>
      let blk := 64 * k + x
      t.join (s0.vecTaint b w r j (blk / per) (32 * (blk % per)) (32 * (blk % per) + 32))) {}
    let s := s.notePend b.id i t.pend
    let a := o.addr + 64 * o.scaleOfs + 64 * k
    let bs := part.map (BitVec.ofNat 8)
    if o.space = spEXT then s.addWords b.id i inst a bs t [] else s.wr (o.store r j) a bs t.pend t.poison) s

/-- An elementwise function on one instance (R378: every element is read before it is written). -/
def State.vecElems (s : State) (b : Barge) (i w r j inst : Nat) : State :=
  let s0 := s
  let n := vCols w
  let o := recOut w
  let (s, scales) := (List.range (vRows w)).foldl (fun (s, scales) m =>
    let st := fun k => (vStream w k).store r j
    let a := s0.streamRow w 0 (st 0) m
    let x := s0.streamRow w 1 (st 1) m
    let y := s0.streamRow w 2 (st 2) m
    let vals := (List.range n).map fun k => vecElem (vFunc w) (a.getD k .zero) (x.getD k .zero) (y.getD k .zero)
    let p := encVals o.fmt (recSat w) (fun k => s0.roundMode w r (m * n + k)) vals
    (s.putVecRow s0 b i w r j inst m p, scales ++ p.scales)) (s, [])
  (s.putScales s0 b i w r j inst scales).takeDraws r (if recRnd w = 1 then vRows w * n else 0)

/-- A packed list of row values written. -/
def State.putList (s s0 : State) (b : Barge) (i w r j inst a : Nat) (vals : List Num) : State :=
  let o := recOut w
  let p := encVals o.fmt (recSat w) (fun k => s0.roundMode w r k) vals
  let bs := pack o.fmt p.bits
  (s.countNum r (p.ovf, p.nan)).putWords b.id i inst o r j a bs true fun k =>
    let (lo, hi) := wordElems o.fmt (vRows w) k
    ((List.range (hi - lo)).map (lo + ·)).foldl (fun (t : Taint) m => t.join (s0.vecTaint b w r j m 0 (vCols w))) {}

/-- A row reduction on one instance. -/
def State.vecReduction (s : State) (b : Barge) (i w r j inst : Nat) : State :=
  let s0 := s
  let per := sumPicks (vCols w)
  let vals := (List.range (vRows w)).map fun m => vecReduce (vFunc w) (s0.picks + m * per) (s0.streamRow w 0 ((recA w).store r j) m)
  ((s.takePicks (vRows w * per)).putList s0 b i w r j inst (recOut w).addr vals).takeDraws r (if recRnd w = 1 then vRows w else 0)

/-- MAXEXP on one instance (R377). -/
def State.vecMaxExp (s : State) (b : Barge) (i w r j inst : Nat) : State :=
  let s0 := s
  let per := sumPicks (vCols w)
  let c := recC w
  let pairs := (List.range (vRows w)).map fun m =>
    let q := maxExpRow (s0.picks + m * per) (s0.streamRow w 0 ((recA w).store r j) m)
    if c.none then q
    else
      let st := c.store r j
      maxExpMerge (fB32.decode (s0.rdNat st (c.addr + 4 * m) 4), fB32.decode (s0.rdNat st (c.addr + expOfs (vRows w) + 4 * m) 4)) q
  let s := (s.takePicks (vRows w * per)).putList s0 b i w r j inst (recOut w).addr (pairs.map (·.1))
  (s.putList s0 b i w r j inst ((recOut w).addr + expOfs (vRows w)) (pairs.map (·.2))).takeDraws r (if recRnd w = 1 then 2 * vRows w else 0)

/-! ### Cost (R381, R382) -/

/-- V (R418). -/
def State.lanes (s : State) : Nat := 1024 * 2 ^ s.params.vlanes

/-- cclk of an instance: elements, rate, bytes on chip and off it. -/
def State.vecCclk (s : State) (e rate on off : Nat) : Nat :=
  32 + max (divUp (e * rate) s.lanes) (max (divUp on (4 * s.lanes)) (divUp off 256))

/-- Bytes of a stream. -/
def streamBytes (w i : Nat) : Nat :=
  let o := vStream w i
  if o.none then 0
  else if vFunc w = 0x1C && i = 2 then 8 * vRows w
  else if vScalar w i then listBytes o.fmt (if o.stride = 1 then vRows w else 1)
  else (if o.stride = 0 then 1 else vRows w) * (rowBytes o.fmt (vCols w) + if fmtMX o.fmt then rowBlocks (vCols w) else 0)

/-- Bytes of the output. -/
def vecOutBytes (w : Nat) : Nat :=
  let o := recOut w
  if vFunc w = 0x1C then 8 * vRows w
  else if vReduces (vFunc w) then listBytes o.fmt (vRows w)
  else vRows w * (rowBytes o.fmt (vCols w) + if fmtMX o.fmt then rowBlocks (vCols w) else 0)

def vecBytes (w : Nat) (off : Bool) : Nat :=
  let far := fun (o : Opd) => o.space == spEXT || o.space == spOUT
  ((List.range 3).map fun i => if far (vStream w i) == off then streamBytes w i else 0).foldl (· + ·) 0
    + if far (recOut w) == off then vecOutBytes w else 0

/-- The streams read meet the errors stored in them. -/
def State.seeStreams (s : State) (w r j : Nat) : State :=
  if s.armed.latent.isEmpty then s
  else (vPresent w).foldl (fun s i =>
    s.seeIn ((vStream w i).store r j) ((List.range (vRows w)).flatMap fun m => streamRanges w i m 0 (vCols w))) s

/-- One instance. -/
def State.vecInst (s : State) (b : Barge) (i w r j inst : Nat) : State :=
  let s := (s.seeStreams w r j).count (rPage r) 0xF58
    (s.vecCclk (vRows w * vCols w) (if vSlow (vFunc w) then 4 else 1) (vecBytes w false) (vecBytes w true))
  if vFunc w = 0x1C then s.vecMaxExp b i w r j inst
  else if vReduces (vFunc w) then s.vecReduction b i w r j inst
  else s.vecElems b i w r j inst

/-- What a VEC reads from external memory. -/
def vecExt (w : Nat) : List (Nat × Nat) :=
  (vPresent w).flatMap fun i =>
    if (vStream w i).space = spEXT then (List.range (vRows w)).flatMap fun m => streamRanges w i m 0 (vCols w) else []

def vecEffect (i : Nat) (s : State) (b : Barge) (w : Nat) : State :=
  (b.regionInstances w).zipIdx.foldl (fun s ((r, j), k) => s.vecInst b i w r j k) s

/-- VEC: record `i` of barge `b` (R100). -/
def execVec (b i : Nat) (s : State) : Host.Outcome State Fault Refusal :=
  s.engine fun s => s.runRec b i 0x10 vecOk vecZero (vecEffect i) fun _ _ w => vecExt w

/-! ### CONV (R101, R379, R380) -/

def convElems (w : Nat) : Nat := recP w 31 0

/-- Bytes of an array with its scales. -/
def arrayScales (fmt n : Nat) : Nat := if fmtMX fmt then rowBlocks n else 0

def State.convFits (s : State) (o : Opd) (n : Nat) : Bool :=
  o.stride == 1 && s.arrayFits o (rowBytes o.fmt n) && (!fmtMX o.fmt || s.arrayFits { o with addr := o.addr + 64 * o.scaleOfs } (rowBlocks n))

/-- R101, R379. -/
def convOk (s : State) (_ : Barge) (_ : List Nat) (w : Nat) : Bool :=
  recP w 127 32 == 0 && (recB w).none
    && (convElems w == 0
      || ((recA w).space != spNONE && (recA w).space != spOUT && s.convFits (recA w) (convElems w)
        && (recC w).space != spNONE && ((recC w).space != spOUT) && s.convFits (recC w) (convElems w)))

def convZero (w : Nat) : Bool := convElems w == 0 || (recOnTiles w && recTiles w == 0)

/-- The marks of elements `lo` to `hi` of A. -/
def State.convTaint (s : State) (b : Barge) (w r j lo hi : Nat) : Taint :=
  let a := recA w
  let n := fmtBits a.fmt
  let t := s.taintOf (a.store r j) ((a.addr + lo * n / 8, divUp (hi * n) 8 - lo * n / 8)
    :: if fmtMX a.fmt then [(a.addr + 64 * a.scaleOfs + lo / 32, divUp hi 32 - lo / 32)] else [])
  { t with pend := t.pend ||| b.lockSet w }

/-- The result's elements and scales: a copy for identical formats, else a conversion (R379). -/
def State.convPacked (s : State) (w r j : Nat) : List Byte × List Byte × (Nat × Nat) :=
  let a := recA w
  let c := recC w
  let st := a.store r j
  let n := convElems w
  if a.fmt = c.fmt then
    (s.rd st a.addr (rowBytes a.fmt n), (if fmtMX a.fmt then s.rd st (a.addr + 64 * a.scaleOfs) (rowBlocks n) else []), (0, 0))
  else
    let p := encVals c.fmt (recSat w) (fun k => s.roundMode w r k) (s.rowVals { a with stride := 0 } st 0 n)
    (pack c.fmt p.bits, p.scales.map (BitVec.ofNat 8), (p.ovf, p.nan))

/-- One instance. -/
def State.convInst (s : State) (b : Barge) (i w r j inst : Nat) : State :=
  let a := recA w
  let c := recC w
  let n := convElems w
  let far := fun (o : Opd) => o.space == spEXT
  let size := fun (o : Opd) => rowBytes o.fmt n + arrayScales o.fmt n
  let bytes := fun off => (if far a == off then size a else 0) + if far c == off then size c else 0
  let s := (s.seeRows { a with stride := 0 } (a.store r j) 1 n).count (rPage r) 0xF58 (s.vecCclk n 1 (bytes false) (bytes true))
  let s0 := s
  let (es, sc, ev) := s0.convPacked w r j
  let s := (s.countNum r ev).putWords b.id i inst c r j c.addr es true fun k => let (lo, hi) := wordElems c.fmt n k; s0.convTaint b w r j lo hi
  let s := if sc.isEmpty then s
    else s.putWords b.id i inst c r j (c.addr + 64 * c.scaleOfs) sc false fun k => s0.convTaint b w r j (2048 * k) (min n (2048 * (k + 1)))
  s.takeDraws r (if recRnd w = 1 && a.fmt != c.fmt then n else 0)

def convEffect (i : Nat) (s : State) (b : Barge) (w : Nat) : State :=
  (b.regionInstances w).zipIdx.foldl (fun s ((r, j), k) => s.convInst b i w r j k) s

/-- CONV: record `i` of barge `b` (R101). -/
def execConv (b i : Nat) (s : State) : Host.Outcome State Fault Refusal :=
  s.engine fun s => s.runRec b i 0x11 convOk convZero (convEffect i) fun _ _ w =>
    (recA w).extBytes (rowBytes (recA w).fmt (convElems w))
      ++ (if (recA w).space = spEXT then [((recA w).addr + 64 * (recA w).scaleOfs, arrayScales (recA w).fmt (convElems w))] else [])

end Sys2Proof.Machine
end

