-- ==== Sys2Proof/Machine/Dispatch.lean ====
section
/-! DEFINITION. The one dispatch: each command to its meaning. -/

namespace Sys2Proof.Machine

open Sys2Proof

def exec (i : Instr) (s : State) : Host.Outcome State Fault Refusal :=
  match i with
  | .sqDoorbell queue pointer => Sys2Proof.Machine.execSqDoorbell queue pointer s
  | .cqDoorbell queue pointer => Sys2Proof.Machine.execCqDoorbell queue pointer s
  | .sqFetch => Sys2Proof.Machine.execSqFetch s
  | .nop j => Sys2Proof.Machine.execNop j s
  | .submitBarge j => Sys2Proof.Machine.execSubmitBarge j s
  | .admitRequest j => Sys2Proof.Machine.execAdmitRequest j s
  | .cancelRequest j => Sys2Proof.Machine.execCancelRequest j s
  | .configEpoch j => Sys2Proof.Machine.execConfigEpoch j s
  | .configEpochComplete j => Sys2Proof.Machine.execConfigEpochComplete j s
  | .fence j => Sys2Proof.Machine.execFence j s
  | .fenceComplete j => Sys2Proof.Machine.execFenceComplete j s
  | .create j => Sys2Proof.Machine.execCreate j s
  | .replace j => Sys2Proof.Machine.execReplace j s
  | .replaceTakeEffect j => Sys2Proof.Machine.execReplaceTakeEffect j s
  | .delete j => Sys2Proof.Machine.execDelete j s
  | .deleteTakeEffect j => Sys2Proof.Machine.execDeleteTakeEffect j s
  | .writeRows j => Sys2Proof.Machine.execWriteRows j s
  | .readRows j => Sys2Proof.Machine.execReadRows j s
  | .adapterFlip j => Sys2Proof.Machine.execAdapterFlip j s
  | .flipTakeEffect j => Sys2Proof.Machine.execFlipTakeEffect j s
  | .flipComplete j => Sys2Proof.Machine.execFlipComplete j s
  | .trainHoldRelease j => Sys2Proof.Machine.execTrainHoldRelease j s
  | .cqRecordWrite cq => Sys2Proof.Machine.execCqRecordWrite cq s
  | .coalTimeExpiry cq => Sys2Proof.Machine.execCoalTimeExpiry cq s
  | .maintEntry => Sys2Proof.Machine.execMaintEntry s
  | .mm b k => Sys2Proof.Machine.execMm b k s
  | .delta b k => Sys2Proof.Machine.execDelta b k s
  | .deltaBackward b k => Sys2Proof.Machine.execDeltaBackward b k s
  | .attn b k => Sys2Proof.Machine.execAttn b k s
  | .kvAppend b k => Sys2Proof.Machine.execKvAppend b k s
  | .kvCommit b k => Sys2Proof.Machine.execKvCommit b k s
  | .vec b k => Sys2Proof.Machine.execVec b k s
  | .conv b k => Sys2Proof.Machine.execConv b k s
  | .gather b k => Sys2Proof.Machine.execGather b k s
  | .prefetch b k => Sys2Proof.Machine.execPrefetch b k s
  | .pool b k => Sys2Proof.Machine.execPool b k s
  | .sgrad b k => Sys2Proof.Machine.execSgrad b k s
  | .update b k => Sys2Proof.Machine.execUpdate b k s
  | .coll b k => Sys2Proof.Machine.execColl b k s
  | .sealColl b k => Sys2Proof.Machine.execSeal b k s
  | .barrier b k => Sys2Proof.Machine.execBarrier b k s
  | .lockMark b k => Sys2Proof.Machine.execLockMark b k s
  | .confirm b k => Sys2Proof.Machine.execConfirm b k s
  | .savePoint b k => Sys2Proof.Machine.execSavePoint b k s
  | .opFence b k => Sys2Proof.Machine.execOpFence b k s
  | .wait b k => Sys2Proof.Machine.execWait b k s
  | .waitLimitExpiry b k => Sys2Proof.Machine.execWaitLimitExpiry b k s
  | .signal b k => Sys2Proof.Machine.execSignal b k s
  | .opComplete b k => Sys2Proof.Machine.execOpComplete b k s
  | .commitUnit b k u => Sys2Proof.Machine.execCommitUnit b k u s
  | .manifestClose m => Sys2Proof.Machine.execManifestClose m s
  | .bargePlacement => Sys2Proof.Machine.execBargePlacement s
  | .wakeComplete r => Sys2Proof.Machine.execWakeComplete r s
  | .imageLoadComplete b => Sys2Proof.Machine.execImageLoadComplete b s
  | .bargeEnd b => Sys2Proof.Machine.execBargeEnd b s
  | .napEntry r => Sys2Proof.Machine.execNapEntry r s
  | .offEntry r => Sys2Proof.Machine.execOffEntry r s
  | .preempt mask => Sys2Proof.Machine.execPreempt mask s
  | .hold mask => Sys2Proof.Machine.execHold mask s
  | .release mask => Sys2Proof.Machine.execRelease mask s
  | .saveComplete b => Sys2Proof.Machine.execSaveComplete b s
  | .restoreComplete b => Sys2Proof.Machine.execRestoreComplete b s
  | .preemptOverdue b => Sys2Proof.Machine.execPreemptOverdue b s
  | .tollRefill => Sys2Proof.Machine.execTollRefill s
  | .tollReport => Sys2Proof.Machine.execTollReport s
  | .skewWindowEnd => Sys2Proof.Machine.execSkewWindowEnd s
  | .formerExpiry table => Sys2Proof.Machine.execFormerExpiry table s
  | .goneExpiry table row => Sys2Proof.Machine.execGoneExpiry table row s
  | .provisionalProbe table row => Sys2Proof.Machine.execProvisionalProbe table row s
  | .rowRead p => Sys2Proof.Machine.execRowRead p s
  | .versionProbe p => Sys2Proof.Machine.execVersionProbe p s
  | .row p => Sys2Proof.Machine.execRow p s
  | .current p => Sys2Proof.Machine.execCurrent p s
  | .forward p => Sys2Proof.Machine.execForward p s
  | .notOwner p => Sys2Proof.Machine.execNotOwner p s
  | .rowUpdate p => Sys2Proof.Machine.execRowUpdate p s
  | .merged p => Sys2Proof.Machine.execMerged p s
  | .stale p => Sys2Proof.Machine.execStale p s
  | .route p => Sys2Proof.Machine.execRoute p s
  | .rowOffer p => Sys2Proof.Machine.execRowOffer p s
  | .state p => Sys2Proof.Machine.execState p s
  | .moveConfirm p => Sys2Proof.Machine.execMoveConfirm p s
  | .query p => Sys2Proof.Machine.execQuery p s
  | .accept p => Sys2Proof.Machine.execAccept p s
  | .refuse p => Sys2Proof.Machine.execRefuse p s
  | .stored p => Sys2Proof.Machine.execStored p s
  | .held p => Sys2Proof.Machine.execHeld p s
  | .notHeld p => Sys2Proof.Machine.execNotHeld p s
  | .read p => Sys2Proof.Machine.execRead p s
  | .write p => Sys2Proof.Machine.execWrite p s
  | .fetchAdd p => Sys2Proof.Machine.execFetchAdd p s
  | .test p => Sys2Proof.Machine.execTest p s
  | .response p => Sys2Proof.Machine.execResponse p s
  | .packetForward port p => Sys2Proof.Machine.execPacketForward port p s
  | .transactionTimeout tag => Sys2Proof.Machine.execTransactionTimeout tag s
  | .tagQuarantineExpiry tag => Sys2Proof.Machine.execTagQuarantineExpiry tag s
  | .heldRequestDiscard k => Sys2Proof.Machine.execHeldRequestDiscard k s
  | .data port flit mark => Sys2Proof.Machine.execData port flit mark s
  | .nak port flit => Sys2Proof.Machine.execNak port flit s
  | .credit port flit => Sys2Proof.Machine.execCredit port flit s
  | .idle port flit => Sys2Proof.Machine.execIdle port flit s
  | .linkInit port flit => Sys2Proof.Machine.execLinkInit port flit s
  | .replayTimeout port => Sys2Proof.Machine.execReplayTimeout port s
  | .pcsLock port => Sys2Proof.Machine.execPcsLock port s
  | .pcsLockLoss port => Sys2Proof.Machine.execPcsLockLoss port s
  | .retrainRelease port => Sys2Proof.Machine.execRetrainRelease port s
  | .arrive p => Sys2Proof.Machine.execArrive p s
  | .grant p => Sys2Proof.Machine.execGrant p s
  | .offer p => Sys2Proof.Machine.execOffer p s
  | .segment p => Sys2Proof.Machine.execSegment p s
  | .bellBarrier p => Sys2Proof.Machine.execBellBarrier p s
  | .scalar p => Sys2Proof.Machine.execScalar p s
  | .bellSeal p => Sys2Proof.Machine.execBellSeal p s
  | .abort p => Sys2Proof.Machine.execAbort p s
  | .abandon p => Sys2Proof.Machine.execAbandon p s
  | .collPiece p => Sys2Proof.Machine.execCollPiece p s
  | .pieceTimeout ctx => Sys2Proof.Machine.execPieceTimeout ctx s
  | .sealTimeout level seq => Sys2Proof.Machine.execSealTimeout level seq s
  | .bellResend k => Sys2Proof.Machine.execBellResend k s
  | .collLimitExpiry b k => Sys2Proof.Machine.execCollLimitExpiry b k s
  | .powerOn => Sys2Proof.Machine.execPowerOn s
  | .brownOut => Sys2Proof.Machine.execBrownOut s
  | .pinReset => Sys2Proof.Machine.execPinReset s
  | .watchdog => Sys2Proof.Machine.execWatchdog s
  | .swReset data => Sys2Proof.Machine.execSwReset data s
  | .engReset => Sys2Proof.Machine.execEngReset s
  | .clockFailure c => Sys2Proof.Machine.execClockFailure c s
  | .lockUp => Sys2Proof.Machine.execLockUp s
  | .resetRelease strapMv => Sys2Proof.Machine.execResetRelease strapMv s
  | .pllLock clock => Sys2Proof.Machine.execPllLock clock s
  | .monitorWindow clock count => Sys2Proof.Machine.execMonitorWindow clock count s
  | .memPortReady port => Sys2Proof.Machine.execMemPortReady port s
  | .ctrlParityError u => Sys2Proof.Machine.execCtrlParityError u s
  | .wdtKick data => Sys2Proof.Machine.execWdtKick data s
  | .isolate page => Sys2Proof.Machine.execIsolate page s
  | .plankIn page => Sys2Proof.Machine.execPlankIn page s
  | .resetReq page => Sys2Proof.Machine.execResetReq page s
  | .sectorReadComplete sector d => Sys2Proof.Machine.execSectorReadComplete sector d s
  | .sectorWriteResponse port err => Sys2Proof.Machine.execSectorWriteResponse port err s
  | .hostReadData addr data err => Sys2Proof.Machine.execHostReadData addr data err s
  | .hostWriteAck tag err => Sys2Proof.Machine.execHostWriteAck tag err s
  | .vectorUnmask v => Sys2Proof.Machine.execVectorUnmask v s
  | .imHoldRelease => Sys2Proof.Machine.execImHoldRelease s
  | .configCommit page seq => Sys2Proof.Machine.execConfigCommit page seq s
  | .commitTakeEffect page => Sys2Proof.Machine.execCommitTakeEffect page s
  | .rowInitClearDone => Sys2Proof.Machine.execRowInitClearDone s
  | .injectSram page data => Sys2Proof.Machine.execInjectSram page data s
  | .injectSector data => Sys2Proof.Machine.execInjectSector data s
  | .injectTag data => Sys2Proof.Machine.execInjectTag data s
  | .injectFlitCrc data => Sys2Proof.Machine.execInjectFlitCrc data s
  | .injectPiece data => Sys2Proof.Machine.execInjectPiece data s
  | .injectCtrl page data => Sys2Proof.Machine.execInjectCtrl page data s
  | .injectClock page data => Sys2Proof.Machine.execInjectClock page data s
  | .keeperEnable => Sys2Proof.Machine.execKeeperEnable s
  | .imemDataWrite data => Sys2Proof.Machine.execImemDataWrite data s
  | .imemDataRead => Sys2Proof.Machine.execImemDataRead s
  | .peek data => Sys2Proof.Machine.execPeek data s
  | .peekComplete => Sys2Proof.Machine.execPeekComplete s
  | .towpath dr => Sys2Proof.Machine.execTowpath dr s
  | .idcode => Sys2Proof.Machine.execIdcode s
  | .bypass ir => Sys2Proof.Machine.execBypass ir s
  | .unmappedAccess addr we => Sys2Proof.Machine.execUnmappedAccess addr we s
  | .counterReadClear addr => Sys2Proof.Machine.execCounterReadClear addr s
  | .registerWrite addr data => Sys2Proof.Machine.execRegisterWrite addr data s
  | .vbakLoss => Sys2Proof.Machine.execVbakLoss s
  | .regionPllLockLoss r => Sys2Proof.Machine.execRegionPllLockLoss r s
  | .errWindowEnd => Sys2Proof.Machine.execErrWindowEnd s
  | .w1cWrite addr data => Sys2Proof.Machine.execW1cWrite addr data s
  | .watchdogEnable data => Sys2Proof.Machine.execWatchdogEnable data s
  | .tapReset => Sys2Proof.Machine.execTapReset s

end Sys2Proof.Machine
end

