-- ==== Sys2Proof/Safety.lean ====
section
/-! DEFINITION. What counts as a safe run, and the form that every store of the engine keeps. -/

namespace Sys2Proof.Machine

open Sys2Proof

/-- A command runs to a next state. -/
def Completes (c : Instr) (s : State) : Prop := ∃ t, exec c s = .next t

/-- The next `k` steps neither fault nor are refused. -/
def SafeFor : Nat → State → Prop
  | 0, _ => True
  | k + 1, s => ∃ t, step s = .next t ∧ SafeFor k t

/-- Every memory, the register window, the sector tags and the marks of on-chip words are in canonical form: keys strictly
rising, and nothing listed that reads as an unlisted key does. -/
structure State.Canon (s : State) : Prop where
  regs : s.regs.wf regReset = true
  ext : s.ext.wf = true
  tags : s.tags.wf (fun _ => {}) = true
  hostMem : s.hostMem.wf = true
  scratch : s.scratch.wf = true
  pool : s.pool.wf = true
  pound : s.pound.wf = true
  marks : s.marks.wf (fun _ => {}) = true
  imem : s.imem.wf = true

end Sys2Proof.Machine
end

