-- ==== Sys2Proof/Certificates/Slice0/Obligations.lean ====
section
/-! DEFINITION. The statements about the engine. -/

open Sys2Proof Sys2Proof.Machine

/-- The commands that the towpath, the TAP and the reset logic take outside the engine domain; every other command acts only
while the engine domain runs. -/
def Sys2Proof.Instr.outsideEngine : Instr → Bool
  | .swReset _ | .pllLock _ | .monitorWindow _ _ | .memPortReady _ | .wdtKick _ | .isolate _ | .plankIn _ | .resetReq _
  | .vectorUnmask _ | .configCommit _ _ | .injectSram _ _ | .injectSector _ | .injectTag _ | .injectFlitCrc _
  | .injectPiece _ | .injectCtrl _ _ | .injectClock _ _ | .keeperEnable | .imemDataWrite _ | .peek _ | .watchdogEnable _
  | .powerOn | .brownOut | .pinReset | .watchdog | .engReset | .clockFailure _ | .lockUp | .resetRelease _ | .imemDataRead
  | .sqDoorbell _ _ | .cqDoorbell _ _ | .towpath _ | .idcode | .bypass _ | .unmappedAccess _ _ | .counterReadClear _ | .registerWrite _ _ | .vbakLoss
  | .w1cWrite _ _ | .tapReset => true
  | _ => false

/-- A step takes the front command and runs it on the state with the queue's rest; an idle step is one microsecond of engine
time, the model's choice (assumption 2). -/
def Obligations.StepRunsFrontCommand : Prop :=
  (∀ (c : Instr) (rest : List Instr) (s : State), step { s with pending := c :: rest } = exec c { s with pending := rest })
    ∧ (∀ s : State, s.pending = [] → step s = .next { s with aoUs := if s.rst.aoLost then s.aoUs else s.aoUs + 1 })

/-- The reset state's stores are canonical. -/
def Obligations.ResetStateIsCanonical : Prop := State.reset.Canon

/-- The canonical form of every store is an invariant of every step. -/
def Obligations.StepKeepsStoresCanonical : Prop :=
  ∀ s t : State, s.Canon → step s = .next t → t.Canon

/-- Where the machine can stop. -/
def Obligations.OnlyCommitUnitsFaultAndNothingIsRefused : Prop :=
  ∀ (c : Instr) (s : State),
    (∀ r, exec c s ≠ .refused r)
      ∧ ∀ f, exec c s = .fault f → f = .beyondPopulated ∧ s.up = true ∧ ∃ b i u, c = .commitUnit b i u

/-- A stopped engine does no work. -/
def Obligations.StoppedEngineTakesNoCommand : Prop :=
  ∀ (c : Instr) (s : State), c.outsideEngine = false → s.up = false → exec c s = .next s

/-- The parts of the engine's state, one for each field of State. -/
inductive Sys2Proof.Machine.Part where
  | pending | params | aoUs | rst | regs | ext | tags | hostMem | scratch
  | pool | pound | marks | imem | hq | regions | tileErrs | errWindowFrom | sv
  | rows | gathers | fab | col | tap | port | armed | memCounts | picks
deriving DecidableEq, Repr

/-- A part is the same in both states. -/
def Sys2Proof.Machine.Same (s t : State) : Part → Prop
  | .pending => t.pending = s.pending
  | .params => t.params = s.params
  | .aoUs => t.aoUs = s.aoUs
  | .rst => t.rst = s.rst
  | .regs => t.regs = s.regs
  | .ext => t.ext = s.ext
  | .tags => t.tags = s.tags
  | .hostMem => t.hostMem = s.hostMem
  | .scratch => t.scratch = s.scratch
  | .pool => t.pool = s.pool
  | .pound => t.pound = s.pound
  | .marks => t.marks = s.marks
  | .imem => t.imem = s.imem
  | .hq => t.hq = s.hq
  | .regions => t.regions = s.regions
  | .tileErrs => t.tileErrs = s.tileErrs
  | .errWindowFrom => t.errWindowFrom = s.errWindowFrom
  | .sv => t.sv = s.sv
  | .rows => t.rows = s.rows
  | .gathers => t.gathers = s.gathers
  | .fab => t.fab = s.fab
  | .col => t.col = s.col
  | .tap => t.tap = s.tap
  | .port => t.port = s.port
  | .armed => t.armed = s.armed
  | .memCounts => t.memCounts = s.memCounts
  | .picks => t.picks = s.picks

/-- What each command may write: its own effect, and what the effects it sets off at once reach. -/
def Sys2Proof.Instr.writes : Instr → List Part
  | .pcsLock _ | .retrainRelease _ => [.fab]
  | .plankIn _ => [.regs]
  | .pllLock _ | .wdtKick _ => [.rst]
  | .trainHoldRelease _ | .hold _ | .release _ | .tollRefill => [.sv]
  | .idcode | .bypass _ | .tapReset => [.tap]
  | .maintEntry => [.hq, .regions]
  | .credit _ _ | .idle _ _ => [.regs, .fab]
  | .sqDoorbell _ _ | .coalTimeExpiry _ | .vectorUnmask _ | .imHoldRelease | .keeperEnable => [.regs, .hq]
  | .imemDataWrite _ => [.regs, .imem]
  | .peek _ => [.regs, .regions]
  | .vbakLoss | .watchdogEnable _ => [.rst, .regs]
  | .errWindowEnd => [.tileErrs, .errWindowFrom]
  | .hostReadData _ _ _ => [.regs, .hostMem, .hq]
  | .read _ | .test _ | .packetForward _ _ | .tagQuarantineExpiry _ | .data _ _ _ | .nak _ _ | .linkInit _ _
  | .replayTimeout _ | .pcsLockLoss _ => [.regs, .hq, .fab]
  | .sectorWriteResponse _ _ => [.regs, .hq, .memCounts]
  | .preemptOverdue _ => [.regs, .hq, .sv]
  | .heldRequestDiscard _ => [.regs, .regions, .fab]
  | .preempt _ => [.regs, .regions, .sv]
  | .resetRelease _ | .memPortReady _ => [.rst, .regs, .hq]
  | .napEntry _ => [.rst, .regs, .regions]
  | .sealTimeout _ _ | .bellResend _ => [.regs, .hq, .fab, .col]
  | .provisionalProbe _ _ | .query _ | .stored _ => [.regs, .hq, .rows, .fab]
  | .cqDoorbell _ _ | .sqFetch | .nop _ | .configEpoch _ | .configEpochComplete _ | .fence _ | .fenceComplete _
  | .create _ | .writeRows _ | .readRows _ | .goneExpiry _ _ => [.regs, .ext, .tags, .hq, .armed]
  | .sectorReadComplete _ _ => [.regs, .ext, .tags, .hq, .memCounts]
  | .arrive _ | .offer _ | .abandon _ => [.regs, .hq, .fab, .col, .picks]
  | .imemDataRead | .counterReadClear _ => [.regs, .sv, .fab, .port, .memCounts]
  | .offEntry _ => [.scratch, .pool, .marks, .regions, .armed]
  | .write _ | .fetchAdd _ => [.regs, .ext, .tags, .hq, .fab, .armed]
  | .replace _ | .delete _ | .skewWindowEnd | .formerExpiry _ => [.regs, .ext, .tags, .hq, .rows, .armed]
  | .submitBarge _ | .admitRequest _ | .cancelRequest _ | .adapterFlip _ | .flipTakeEffect _ | .cqRecordWrite _
  | .manifestClose _ | .tollReport => [.regs, .ext, .tags, .hq, .sv, .armed]
  | .hostWriteAck _ _ => [.regs, .ext, .tags, .hostMem, .hq, .sv, .armed]
  | .replaceTakeEffect _ | .deleteTakeEffect _ => [.regs, .ext, .tags, .hq, .regions, .rows, .armed]
  | .rowRead _ | .versionProbe _ | .route _ | .rowOffer _ | .state _ | .moveConfirm _ | .refuse _ | .held _
  | .notHeld _ => [.regs, .ext, .tags, .hq, .rows, .fab, .armed]
  | .merged _ => [.regs, .ext, .tags, .hq, .sv, .rows, .fab, .armed]
  | .waitLimitExpiry _ _ => [.regs, .ext, .tags, .marks, .hq, .sv, .gathers, .armed]
  | .flipComplete _ => [.regs, .ext, .tags, .hq, .regions, .sv, .rows, .fab, .armed]
  | .response _ => [.regs, .ext, .tags, .marks, .hq, .sv, .gathers, .fab, .armed]
  | .isolate _ => [.regs, .ext, .tags, .marks, .hq, .tileErrs, .rows, .armed, .picks]
  | .kvAppend _ _ | .kvCommit _ _ | .lockMark _ _ | .confirm _ _ | .savePoint _ _ | .opFence _ _ | .wait _ _
  | .signal _ _ => [.regs, .ext, .tags, .marks, .hq, .tileErrs, .sv, .gathers, .armed]
  | .configCommit _ _ | .commitTakeEffect _ | .rowInitClearDone =>
    [.regs, .ext, .tags, .hq, .regions, .sv, .rows, .fab, .col, .armed]
  | .update _ _ | .saveComplete _ | .peekComplete =>
    [.regs, .ext, .tags, .marks, .hq, .regions, .tileErrs, .sv, .gathers, .armed]
  | .abort _ => [.regs, .ext, .tags, .marks, .hq, .sv, .gathers, .fab, .col, .armed]
  | .accept _ => [.regs, .ext, .tags, .marks, .hq, .tileErrs, .rows, .fab, .armed, .picks]
  | .sgrad _ _ => [.regs, .ext, .tags, .marks, .hq, .tileErrs, .sv, .gathers, .armed, .picks]
  | .collLimitExpiry _ _ => [.regs, .ext, .tags, .marks, .hq, .sv, .gathers, .fab, .col, .armed, .picks]
  | .bargeEnd _ => [.regs, .ext, .tags, .marks, .hq, .regions, .sv, .gathers, .fab, .col, .armed, .picks]
  | .prefetch _ _ => [.regs, .ext, .tags, .marks, .hq, .regions, .tileErrs, .sv, .rows, .gathers, .fab, .armed]
  | .sealColl _ _ => [.regs, .ext, .tags, .marks, .hq, .tileErrs, .sv, .gathers, .fab, .col, .armed, .picks]
  | .commitUnit _ _ _ =>
    [.regs, .ext, .tags, .marks, .hq, .regions, .tileErrs, .sv, .rows, .gathers, .fab, .armed, .picks]
  | .rowUpdate _ =>
    [.regs, .ext, .tags, .scratch, .pool, .pound, .marks, .hq, .regions, .tileErrs, .rows, .fab, .armed]
  | .conv _ _ | .restoreComplete _ =>
    [.regs, .ext, .tags, .scratch, .pool, .pound, .marks, .hq, .regions, .tileErrs, .sv, .gathers, .armed]
  | .mm _ _ | .attn _ _ | .pool _ _ =>
    [.regs, .ext, .tags, .scratch, .pool, .pound, .marks, .hq, .tileErrs, .sv, .gathers, .armed, .picks]
  | .regionPllLockLoss _ =>
    [.rst, .regs, .ext, .tags, .marks, .hq, .regions, .tileErrs, .sv, .rows, .gathers, .armed, .picks]
  | .vec _ _ =>
    [.regs, .ext, .tags, .scratch, .pool, .pound, .marks, .hq, .regions, .tileErrs, .sv, .gathers, .armed, .picks]
  | .imageLoadComplete _ =>
    [.regs, .ext, .tags, .scratch, .pool, .pound, .marks, .hq, .regions, .tileErrs, .sv, .rows, .fab, .armed]
  | .grant _ | .scalar _ | .collPiece _ | .pieceTimeout _ =>
    [.regs, .ext, .tags, .scratch, .pool, .pound, .marks, .hq, .tileErrs, .sv, .fab, .col, .armed, .picks]
  | .resetReq _ =>
    [.rst, .regs, .ext, .tags, .scratch, .pool, .marks, .hq, .regions, .tileErrs, .rows, .fab, .armed, .picks]
  | .wakeComplete _ =>
    [.regs, .ext, .tags, .scratch, .pool, .pound, .marks, .hq, .regions, .tileErrs, .sv, .rows, .gathers, .armed,
      .picks]
  | .gather _ _ | .bargePlacement | .row _ | .current _ | .forward _ | .notOwner _ | .stale _ | .transactionTimeout _ =>
    [.regs, .ext, .tags, .scratch, .pool, .pound, .marks, .hq, .regions, .tileErrs, .sv, .rows, .gathers, .fab,
      .armed]
  | .coll _ _ | .segment _ | .bellSeal _ =>
    [.regs, .ext, .tags, .scratch, .pool, .pound, .marks, .hq, .tileErrs, .sv, .gathers, .fab, .col, .armed, .picks]
  | .bellBarrier _ =>
    [.regs, .ext, .tags, .scratch, .pool, .pound, .marks, .hq, .tileErrs, .sv, .rows, .fab, .col, .armed, .picks]
  | .opComplete _ _ =>
    [.regs, .ext, .tags, .scratch, .pool, .pound, .marks, .hq, .regions, .tileErrs, .sv, .rows, .fab, .col, .armed,
      .picks]
  | .delta _ _ | .deltaBackward _ _ =>
    [.regs, .ext, .tags, .scratch, .pool, .pound, .marks, .hq, .regions, .tileErrs, .sv, .rows, .gathers, .fab,
      .armed, .picks]
  | .barrier _ _ =>
    [.regs, .ext, .tags, .scratch, .pool, .pound, .marks, .hq, .tileErrs, .sv, .rows, .gathers, .fab, .col, .armed,
      .picks]
  | .powerOn | .brownOut | .pinReset | .watchdog | .swReset _ | .engReset | .clockFailure _ | .lockUp =>
    [.rst, .regs, .ext, .tags, .hostMem, .scratch, .pool, .pound, .marks, .imem, .hq, .regions, .tileErrs,
      .errWindowFrom, .sv, .rows, .gathers, .fab, .col, .tap, .port, .armed, .memCounts]
  | .monitorWindow _ _ | .ctrlParityError _ | .injectSram _ _ | .injectSector _ | .injectTag _ | .injectFlitCrc _
  | .injectPiece _ | .injectCtrl _ _ | .injectClock _ _ | .towpath _ | .unmappedAccess _ _ | .registerWrite _ _
  | .w1cWrite _ _ =>
    [.rst, .regs, .ext, .tags, .hostMem, .scratch, .pool, .pound, .marks, .imem, .hq, .regions, .tileErrs,
      .errWindowFrom, .sv, .rows, .gathers, .fab, .col, .tap, .port, .armed, .memCounts, .picks]

/-- The frame of every command. -/
def Obligations.EachCommandKeepsWhatItDoesNotWrite : Prop :=
  ∀ (c : Instr) (s t : State) (p : Part), exec c s = .next t → p ∉ c.writes → Same s t p

/-- The item `it` has received its one fate: it is no longer without one, its journal entry is FATED, and the record of its
fate is the newest that its SQ's CQ still has to write (R71, R72, R75). -/
def Sys2Proof.Machine.Settled (s t : State) (it : Item) (fate detail : Nat) : Prop :=
  t.item? it.j = none ∧ t.journalState it.j = 2
    ∧ ∃ r : Rec, (t.cq (s.cqOf it.sq)).pending = (s.cq (s.cqOf it.sq)).pending ++ [r]
        ∧ r.fate = fate ∧ r.detail = detail ∧ r.cookie = it.cookie ∧ r.sq = it.sq ∧ r.sqIndex = it.sqIndex
        ∧ r.irq = it.irq ∧ r.journal = some it.j

/-- An item that the command for entries of type `ty` finds at a stage. -/
def Sys2Proof.Machine.Stands (s : State) (j ty : Nat) (st : Stage) (it : Item) : Prop :=
  s.item? j = some it ∧ it.type = ty ∧ it.stage = st

/-- SQ doorbells (R50). -/
def Obligations.SqDoorbellMovesTail : Prop :=
  ∀ (q p : Nat) (s : State), s.live = true →
    (s.sqOn q = true → p < s.sqSize q → ∃ t, exec (.sqDoorbell q p) s = .next t
        ∧ t.sq q = { s.sq q with tail := p } ∧ (∀ k, k ≠ q → t.sq k = s.sq k)
        ∧ t = { s with hq := { s.hq with sqs := t.hq.sqs } })
      ∧ (s.sqOn q = false ∨ s.sqSize q ≤ p → ∃ t, exec (.sqDoorbell q p) s = .next t
        ∧ bitOf (t.errStatus pHQ) 0 = true
        ∧ t = { s with regs := t.regs, hq := { s.hq with messages := t.hq.messages, irqWait := t.hq.irqWait } })

/-- CQ doorbells (R50, R75). -/
def Obligations.CqDoorbellFreesRecords : Prop :=
  ∀ (c p : Nat) (s : State), s.live = true →
    (s.cqOn c = true → p < s.cqSize c → ∃ t, exec (.cqDoorbell c p) s = .next t
        ∧ let passed := (s.cq c).written.take ((p + s.cqSize c - (s.cq c).head) % s.cqSize c)
          (t.cq c).head = p ∧ (t.cq c).tail = (s.cq c).tail ∧ (t.cq c).phase = (s.cq c).phase
        ∧ (t.cq c).pending = (s.cq c).pending ∧ (∀ k, k ≠ c → t.cq k = s.cq k) ∧ t.hq.sqs = s.hq.sqs
        ∧ (∀ j, some j ∈ passed → t.journalState j = 3 ∧ t.hq.journalFull = false)
        ∧ (∀ a, (∀ j, some j ∈ passed → ¬(s.journalAddr j ≤ a ∧ a < s.journalAddr j + 32)) → t.ext.get a = s.ext.get a))
      ∧ (s.cqOn c = false ∨ s.cqSize c ≤ p → ∃ t, exec (.cqDoorbell c p) s = .next t
        ∧ bitOf (t.errStatus pHQ) 0 = true
        ∧ t = { s with regs := t.regs, hq := { s.hq with messages := t.hq.messages, irqWait := t.hq.irqWait } })

/-- Fetching (R51, R75). -/
def Obligations.SqFetchAcceptsNextEntry : Prop :=
  ∀ (n : Nat) (s : State), s.up = true → s.hq.configured = true → s.hq.maint = false → s.nextSq = some n →
    (∀ j, s.journalNext = some j → s.item? j = none →
        s.locUnreadable (bitOf (s.sqCtrl n) 30) (s.sqBase n + 64 * (s.sq n).head) 64 = false →
        let e : BitVec 512 := BitVec.ofNat 512 (leNat (s.loc? (bitOf (s.sqCtrl n) 30) (s.sqBase n + 64 * (s.sq n).head) 64))
        let it : Item := { j := j, sq := n, sqIndex := (s.sq n).head, order := s.hq.orders, entry := e }
        typeKnown it = true →
        ∃ t, exec .sqFetch s = .next t ∧ t.item? j = some it
          ∧ (t.sq n).head = ((s.sq n).head + 1) % s.sqSize n ∧ (t.sq n).tail = (s.sq n).tail
          ∧ (t.sq n).holdBy = (if holds it then some j else none)
          ∧ t.hq.rrNext = (n + 1) % 64 ∧ t.hq.orders = s.hq.orders + 1
          ∧ (∀ k, k ≠ n → t.sq k = s.sq k) ∧ t.hq.cqs = s.hq.cqs ∧ t.hostMem = s.hostMem)
      ∧ (s.journalNext = none → s.hq.journalFull = false → ∃ t, exec .sqFetch s = .next t
          ∧ t.hq.journalFull = true ∧ bitOf (t.errStatus pHQ) 3 = true ∧ t.hq.sqs = s.hq.sqs ∧ t.hq.cqs = s.hq.cqs
          ∧ t.hq.items = s.hq.items ∧ t.ext = s.ext)

/-- Unreadable entries (R52). -/
def Obligations.UnreadableEntryFailsWithCookieZero : Prop :=
  ∀ (n j : Nat) (s : State), s.up = true → s.hq.configured = true → s.hq.maint = false → s.nextSq = some n →
    s.journalNext = some j → s.item? j = none →
    s.locUnreadable (bitOf (s.sqCtrl n) 30) (s.sqBase n + 64 * (s.sq n).head) 64 = true →
    ∃ t r, exec .sqFetch s = .next t ∧ (t.sq n).head = ((s.sq n).head + 1) % s.sqSize n ∧ t.item? j = none
      ∧ bitOf (t.errStatus pHQ) 2 = true
      ∧ (t.cq (s.cqOf n)).pending = (s.cq (s.cqOf n)).pending ++ [r]
      ∧ r.fate = fECC ∧ r.cookie = 0 ∧ r.sq = n ∧ r.sqIndex = (s.sq n).head

/-- Items that complete with DONE (R55, R62 to R64). -/
def Obligations.PlainItemsReceiveTheirFate : Prop :=
  ∀ (j : Nat) (s : State) (it : Item), s.up = true →
    (Stands s j 0 .accepted it → it.plain = true → ∃ t, exec (.nop j) s = .next t ∧ Settled s t it fDONE 0)
      ∧ (Stands s j 7 .accepted it → it.plain = true → it.f 511 66 = 0 → ∃ t, exec (.fence j) s = .next t
          ∧ t.item? j = some { it with stage := .waiting } ∧ t = { s with hq := { s.hq with items := t.hq.items } })
      ∧ (Stands s j 7 .waiting it → s.fenceItemMet it = true → ∃ t, exec (.fenceComplete j) s = .next t ∧ Settled s t it fDONE 0)
      ∧ (Stands s j 4 .waiting it → it.banks = [] → it.rejected = false → (∀ b, b ∈ it.awaits → b ∉ s.startedIds) →
          ∃ t, exec (.configEpochComplete j) s = .next t ∧ Settled s t it fDONE 0 ∧ t.regN pHQ 0x06C = it.f 95 64)
      ∧ (Stands s j 3 .accepted it → it.plain = true → it.zeroAt [(511, 177), (127, 116), (95, 80)] = true →
          s.hq.maint = false → s.cancelTarget it = none → ∃ t, exec (.cancelRequest j) s = .next t ∧ Settled s t it fDONE 2)

/-- Rsvd fields of an entry (R56). -/
def Obligations.MalformedEntriesFailWithFailedCfg : Prop :=
  ∀ (j : Nat) (s : State) (it : Item), s.up = true → it.plain = false →
    (Stands s j 0 .accepted it → ∃ t, exec (.nop j) s = .next t ∧ Settled s t it fCFG 0)
      ∧ (Stands s j 1 .accepted it → s.inTurn it = true → ∃ t, exec (.submitBarge j) s = .next t ∧ Settled s t it fCFG 0)
      ∧ (Stands s j 2 .accepted it → s.inTurn it = true → ∃ t, exec (.admitRequest j) s = .next t ∧ Settled s t it fCFG 0)
      ∧ (Stands s j 3 .accepted it → ∃ t, exec (.cancelRequest j) s = .next t ∧ Settled s t it fCFG 0)
      ∧ (Stands s j 4 .accepted it → ∃ t, exec (.configEpoch j) s = .next t ∧ Settled s t it fCFG 0)
      ∧ (Stands s j 7 .accepted it → ∃ t, exec (.fence j) s = .next t ∧ Settled s t it fCFG 0)

/-- Taking in work (R57, R62, R63, R270). -/
def Obligations.WorkIsAccepted : Prop :=
  ∀ (j : Nat) (s : State) (it : Item), s.up = true →
    (Stands s j 1 .accepted it → s.inTurn it = true → it.f 76 76 = 0 → s.bargeHeaderOk it = true → s.hq.maint = false →
        s.moorOn (it.f 75 72) = true → it.f 95 80 ≠ 0 → s.bargeRowsBad it = false → s.bargeRowsOk it = true →
        it.f 95 80 ≤ s.tokenBudget (it.f 75 72) →
        ∃ t, exec (.submitBarge j) s = .next t ∧ t.item? j = some { it with stage := .waiting }
          ∧ (t.mooring (it.f 75 72)).trainQueue = (s.mooring (it.f 75 72)).trainQueue ++ [it.j]
          ∧ t = { s with hq := { s.hq with items := t.hq.items }, sv := { s.sv with moorings := t.sv.moorings } })
      ∧ (∀ d n pin, Stands s j 2 .accepted it → s.inTurn it = true → it.plain = true →
          it.zeroAt [(511, 273), (191, 172), (95, 94)] = true → it.f 255 192 % 64 = 0 → it.f 271 256 = 128 →
          s.dupMatch? (it.f 83 64) (it.f 143 96) = none → s.maintComing = false →
          s.locBad (it.f 272 272 == 1) (it.f 255 192) 128 = false → (it.f 272 272 = 1 → it.f 255 192 + 128 ≤ s.populated) →
          d = s.reqDesc it → reqOk d = true → reqFits d = true → reqField d 0x20 4 ≠ 0 → s.moorOn (it.f 87 84) = true →
          it.f 92 92 = 0 → s.pinCheck (it.f 87 84) (it.f 171 152) (it.f 83 64) = .inr pin →
          ((s.account (s.acctOf (it.f 83 64))).isOverdrawn = false ∨ (s.account (s.acctOf (it.f 83 64))).policy ≠ 2) →
          n = lowestFree ((s.sv.berths.filter fun x => x.2.st != .free).map (·.1)) → n < 65536 →
          ∃ t, exec (.admitRequest j) s = .next t ∧ (t.berth n).st = .queued ∧ (t.berth n).j = it.j
            ∧ (t.berth n).tenant = it.f 83 64 ∧ (t.berth n).client = it.f 143 96 ∧ (t.berth n).mooring = it.f 87 84
            ∧ (t.berth n).adapter = it.f 171 152 ∧ (t.berth n).pin = pin ∧ (t.berth n).maxTokens = reqField d 0x20 4
            ∧ (t.berth n).promptLen = reqField d 0x1C 4 ∧ (t.berth n).admitUs = s.now
            ∧ t.item? j = some { it with stage := .admitted } ∧ t.hq.cqs = s.hq.cqs
            ∧ ∀ a, ¬(s.journalAddr it.j ≤ a ∧ a < s.journalAddr it.j + 32) → t.ext.get a = s.ext.get a)
      ∧ (∀ n, Stands s j 3 .accepted it → it.plain = true → it.zeroAt [(511, 177), (127, 116), (95, 80)] = true →
          s.hq.maint = false → s.cancelTarget it = some n → (s.berth n).st = .queued → (s.berth n).barge = none →
          (s.berth n).finished = false →
          ∃ t, exec (.cancelRequest j) s = .next t
            ∧ t = ((s.updBerth n fun x => { x with cancel := true }).endRequest n fCANCELLED).settle it fDONE)
      ∧ (Stands s j 4 .accepted it → it.plain = true → it.f 127 99 = 0 → 1 ≤ it.f 98 96 → it.f 98 96 ≤ 6 →
          (∀ i, i < it.f 98 96 → epochRsvd it i = 0 ∧ pageExists (epochPage it i) = true
            ∧ (s.bankWith (epochPage it i) (epochSeq it i)).isSome = true) →
          ∃ t u, exec (.configEpoch j) s = .next t ∧ t.item? j = some u ∧ u.stage = .waiting
            ∧ u.banks = ((List.range (it.f 98 96)).map (fun i =>
                (epochPage it i, (s.bankWith (epochPage it i) (epochSeq it i)).getD 0))).filter s.bankWaits
            ∧ t = { s with hq := { s.hq with items := t.hq.items } })

/-- Writing records (R53). -/
def Obligations.CqRecordWriteFillsTailSlot : Prop :=
  ∀ (c : Nat) (s : State) (r : Rec) (rest : List Rec), s.up = true → s.cqOn c = true → (s.cq c).pending = r :: rest →
    (s.cqIsFull c = false → ∃ t, exec (.cqRecordWrite c) s = .next t
        ∧ (t.cq c).tail = ((s.cq c).tail + 1) % s.cqSize c ∧ (t.cq c).head = (s.cq c).head
        ∧ (t.cq c).phase = (if ((s.cq c).tail + 1) % s.cqSize c = 0 then !(s.cq c).phase else (s.cq c).phase)
        ∧ (t.cq c).written = (s.cq c).written ++ [r.journal]
        ∧ (r.kind ≠ .token → r.frees = none → (t.cq c).pending = rest ∧ (∀ k, k ≠ c → t.cq k = s.cq k)
          ∧ (bitOf (s.cqCtrl c) 30 = true →
              t.ext? (s.cqBase c + 32 * (s.cq c).tail) 32 = leBytes 32 (r.bits (s.cq c).phase 0)
              ∧ ∀ a, ¬(s.cqBase c + 32 * (s.cq c).tail ≤ a ∧ a < s.cqBase c + 32 * (s.cq c).tail + 32) →
                  t.ext.get a = s.ext.get a)))
      ∧ (s.cqIsFull c = true → (s.cq c).full = false → ∃ t, exec (.cqRecordWrite c) s = .next t
        ∧ t.cq c = { s.cq c with full := true } ∧ bitOf (t.errStatus pHQ) 1 = true ∧ (∀ k, k ≠ c → t.cq k = s.cq k)
        ∧ t.ext = s.ext ∧ t.hq.sqs = s.hq.sqs)

/-- Coalesced interrupts and maintenance (R54, R80). -/
def Obligations.CoalescingAndMaintenance : Prop :=
  (∀ (c : Nat) (s : State), s.up = true → s.coalExpired c = true → ∃ t, exec (.coalTimeExpiry c) s = .next t
      ∧ (t.cq c).unsignalled = 0 ∧ (t.cq c).firstUnsignalled = none ∧ (t.cq c).tail = (s.cq c).tail
      ∧ (t.cq c).pending = (s.cq c).pending ∧ (∀ k, k ≠ c → t.cq k = s.cq k)
      ∧ ((∀ w, w ∈ s.hq.dmaWrites → w.owner ≠ .record c) → s.irqHeld (fld (s.cqCtrl c) 23 16) = false →
          t.hq.messages = s.hq.messages ++ [(fld (s.cqCtrl c) 23 16,
            s.vec (fld (s.cqCtrl c) 23 16) 4 ++ s.vec (fld (s.cqCtrl c) 23 16) 0, s.vec (fld (s.cqCtrl c) 23 16) 8)]))
    ∧ (∀ s : State, s.up = true → s.maintMayEnter = true → ∃ t, exec .maintEntry s = .next t
      ∧ t.hq = { s.hq with maint := true, maintPending := false }
      ∧ (∀ r, (t.region r).pieces = [] ∧ (t.region r).moored = [])
      ∧ t = { s with hq := t.hq, regions := t.regions })

/-- Table operations at their acceptance (R214, R216, R218). -/
def Obligations.CreateReplaceDeleteAtAcceptance : Prop :=
  ∀ (j : Nat) (s : State) (it : Item), s.up = true → Stands s j 5 .accepted it → tableOpPlain it = true → it.opCount = 1 →
    s.tableBusy it = false → s.opHeld it = false →
    (∀ (t : Tab) (k : Nat), it.subop = 1 → it.opSeq = 0 →
        s.locUnreadable it.descExt it.descAddr 128 = false →
        t = { id := it.table, slot := 0, raw := leNat (s.loc? it.descExt it.descAddr 128) } →
        descFieldsOk t = true → s.mapsReadable t = true → s.descOk t = true →
        s.slotIn it.table 2 = none → s.slotIn it.table 0 = some k →
        (s.tab it.table = .none → ∃ u, exec (.create j) s = .next u ∧ u = s.createInto it t k 1 ∧ Settled s u it fDONE 0)
          ∧ (∀ a, s.tab it.table = .ok a → serialGt t.seq a.seq = true →
            ∃ u, exec (.create j) s = .next u ∧ u = s.createInto it t k 2 ∧ Settled s u it fDONE 0))
      ∧ (∀ t v, it.subop = 2 → it.descAddr = 0 → s.tab it.table = .ok t → s.tabIn it.table 2 = some v → v.seq = it.opSeq →
          s.isFactorTable it.table = false →
          ∃ u, exec (.replace j) s = .next u ∧ u.item? j = some { it with stage := .waiting }
            ∧ u.rows.pauses = s.rows.pauses ++ [{ j := it.j, table := it.table, replace := true, since := s.now
                                                  moorings := s.maskOf it.table 1 ||| s.maskOf it.table 2 }]
            ∧ u = { s with hq := { s.hq with items := u.hq.items }, rows := { s.rows with pauses := u.rows.pauses } })
      ∧ (∀ t, it.subop = 3 → it.descAddr = 0 → it.opSeq = 0 → s.tab it.table = .ok t → s.isFactorTable it.table = false →
          (∀ k, s.slotIn it.table 2 = some k →
              ∃ u, exec (.delete j) s = .next u ∧ u = (s.markSlot it.table k 0).settle it fDONE ∧ Settled s u it fDONE 0)
            ∧ (s.slotIn it.table 2 = none →
              ∃ u, exec (.delete j) s = .next u ∧ u.item? j = some { it with stage := .waiting }
                ∧ u.rows.pauses = s.rows.pauses ++ [{ j := it.j, table := it.table, replace := false, since := s.now
                                                      moorings := s.maskOf it.table 1 }]
                ∧ u = { s with hq := { s.hq with items := u.hq.items }, rows := { s.rows with pauses := u.rows.pauses } }))

/-- The directory entries of a table and the journal entry of an item share no byte. -/
def Sys2Proof.Machine.DirApart (s : State) (table j : Nat) : Prop :=
  s.journalAddr j + 32 ≤ s.dirSlot table 0 ∨ s.dirSlot table 0 + 256 ≤ s.journalAddr j

/-- STATE of a directory slot as stored (R193). -/
def Sys2Proof.Machine.State.storedState (s : State) (table k : Nat) : Nat := bfld (s.slotRaw table k) 0x70 1

/-- From `s` to `u`, the pause `p` of the table entry `t` is over, and nothing merged, chosen for a move or cached names the
table any more (R216). -/
def Sys2Proof.Machine.TableDropped (s u : State) (p : TablePause) (t : Tab) : Prop :=
  u.rows.pauses = s.rows.pauses.filter (fun q => q.j != p.j)
    ∧ (∀ e, e ∈ u.rows.merge → e.table ≠ t.id) ∧ (∀ e, e ∈ u.rows.weir → e.table ≠ t.id)
    ∧ (∀ e, e ∈ u.rows.promote → e.1 ≠ t.id) ∧ (∀ e, e ∈ u.rows.demote → e.1 ≠ t.id)
    ∧ (∀ r e, e ∈ (u.region r).cache → e.table ≠ t.id)

/-- Table operations as they take effect (R216 to R218). -/
def Obligations.DrainedPauseDropsTheTablesWork : Prop :=
  (∀ (j : Nat) (s : State) (it : Item) (p : TablePause) (t : Tab), s.up = true → s.item? j = some it → s.opHeld it = false →
      s.pauseDrained p = true → s.tab p.table = .ok t →
      (s.rows.pauses.find? (fun q => q.j == j && q.replace == true) = some p →
        ∃ u, exec (.replaceTakeEffect j) s = .next u ∧ TableDropped s u p t
          ∧ (∀ k, (s.drainTable t).slotIn p.table 2 = some k → Settled s u it fDONE 0
            ∧ u.rows.former = s.rows.former ++ [(p.table, s.now + s.cfgN pROW 0x140)]
            ∧ (k ≠ t.slot → DirApart s p.table it.j → u.storedState p.table k = 1 ∧ u.storedState p.table t.slot = 3))
          ∧ ((s.drainTable t).slotIn p.table 2 = none → Settled s u it fCFG 0))
        ∧ (s.rows.pauses.find? (fun q => q.j == j && q.replace == false) = some p →
          ∃ u, exec (.deleteTakeEffect j) s = .next u ∧ TableDropped s u p t ∧ Settled s u it fDONE 0
            ∧ (DirApart s p.table it.j → u.storedState p.table t.slot = 0)))
    ∧ (∀ (x k due : Nat) (s : State), s.up = true →
        s.rows.former.find? (fun p => p.1 == x && decide (p.2 ≤ s.now)) = some (x, due) → s.slotIn x 3 = some k →
        ∃ u, exec (.formerExpiry x) s = .next u ∧ u.ext = (s.markSlot x k 0).ext
          ∧ u.rows.former = s.rows.former.filter (fun p => p != (x, due))
          ∧ u.hq.items = s.hq.items ∧ u.sv = s.sv ∧ u.regions = s.regions)

/-- Row operations (R215). -/
def Obligations.WriteRowsAndReadRowsSettleOrStop : Prop :=
  ∀ (j sub : Nat) (c : Instr) (s : State) (it : Item), s.up = true → Stands s j 5 .accepted it → it.subop = sub →
    tableOpPlain it = true → s.opHeld it = false → (sub = 4 ∧ c = .writeRows j ∨ sub = 5 ∧ c = .readRows j) →
    let early (f : Nat) : Prop := ∃ u, exec c s = .next u ∧ Settled s u it f 0
      ∧ ∀ a, ¬(s.journalAddr it.j ≤ a ∧ a < s.journalAddr it.j + 32) → u.ext.get a = s.ext.get a
    let h := rowsHdr (leNat (s.loc? it.descExt it.descAddr 64))
    let apart (a n : Nat) : Prop := s.journalAddr it.j + 32 ≤ a ∨ a + n ≤ s.journalAddr it.j
    (it.opCount = 0 → early fZERO)
      ∧ (it.opCount ≠ 0 → s.locUnreadable it.descExt it.descAddr 64 = true → early fECC)
      ∧ (it.opCount ≠ 0 → s.locUnreadable it.descExt it.descAddr 64 = false →
          h.rsvd ≠ 0 ∨ h.data % 64 ≠ 0 ∨ (sub = 5 ∧ h.source = true) → early fCFG)
      ∧ (∀ t, it.opCount ≠ 0 → s.locUnreadable it.descExt it.descAddr 64 = false → h.rsvd = 0 → h.data % 64 = 0 →
          s.rowsTab it h.staged = .inr t →
          (sub = 4 → ∃ n f u, s.writeMany t it h it.opCount 0 = (n, f, u) ∧ (f = none → n = it.opCount)
              ∧ exec c s = .next (u.settle it (f.getD fDONE) n))
            ∧ (sub = 5 → h.source = false → ∃ n f u, s.readMany t it h it.opCount 0 = (n, f, u) ∧ (f = none → n = it.opCount)
              ∧ (it.descExt = true ∨ n = 0 → exec c s = .next (u.settle it (f.getD fDONE) n))
              ∧ (it.descExt = false → n ≠ 0 → exec c s = .next (u.updItem j fun x =>
                { x with stage := .waiting, stop := f, target := f.map fun _ => n })))
            ∧ (sub = 4 → it.opCount = 1 → h.source = false → ∀ l ws img, s.ownedAt t h.staged true h.first = some l →
              s.dataRow t it h 0 = .inr ws → (∀ w, w ∈ ws → (Word.num w).finite = true) →
              (encodeRow l.dr false (fun _ => .rne) ws).image = some img →
              ∃ u, exec (.writeRows j) s = .next u ∧ Settled s u it fDONE 0
                ∧ (h.resetState = false → apart l.addr img.length → u.ext? l.addr img.length = img))
            ∧ (sub = 5 → it.opCount = 1 → h.source = false → it.descExt = true → ∀ l, s.ownedAt t h.staged true h.first = some l →
              (s.readRow t l).1.poison = false →
              ∃ u, exec (.readRows j) s = .next u ∧ Settled s u it fDONE 0
                ∧ (apart h.data (4 * (decodeRow l.dr t.dim (s.ext? l.addr l.bytes)).length) →
                  u.ext? h.data (4 * (decodeRow l.dr t.dim (s.ext? l.addr l.bytes)).length)
                    = (decodeRow l.dr t.dim (s.ext? l.addr l.bytes)).flatMap fun w => leBytes 4 w.toNat)))

/-- Flips (R66, R184, R185). -/
def Obligations.AdapterFlipTakesEffectWhollyOrNotAtAll : Prop :=
  ∀ (j : Nat) (s : State) (it : Item), s.up = true →
    let m := it.f 69 66
    let judged := (s.flipNames it).map fun a => (a, s.judgeFlip m (it.f 127 96) a)
    let go := (judged.filter fun x => x.2 == .flips).map (·.1)
    (Stands s j 6 .accepted it → s.inTurn it = true → s.flipOk it = true → s.hq.maint = false → it.f 65 64 ≠ 2 →
        ∃ t, exec (.adapterFlip j) s = .next t ∧ t.item? j = some { it with stage := .waiting }
          ∧ (t.mooring m).flips = (s.mooring m).flips ++ [it.j]
          ∧ t = { s with hq := { s.hq with items := t.hq.items }, sv := { s.sv with moorings := t.sv.moorings } })
      ∧ (s.item? j = some it → s.flipMay it = true →
          ((∃ a, (a, FlipRes.cfg) ∈ judged) → ∃ t, exec (.flipTakeEffect j) s = .next t ∧ Settled s t it fCFG 2
            ∧ ∀ a, ¬(s.journalAddr it.j ≤ a ∧ a < s.journalAddr it.j + 32) → t.ext.get a = s.ext.get a)
          ∧ ((∀ a, (a, FlipRes.cfg) ∉ judged) → (∃ a, (a, FlipRes.busy) ∈ judged) →
            ∃ t, exec (.flipTakeEffect j) s = .next t ∧ Settled s t it fFLIP_BUSY 2
              ∧ ∀ a, ¬(s.journalAddr it.j ≤ a ∧ a < s.journalAddr it.j + 32) → t.ext.get a = s.ext.get a)
          ∧ ((∀ a, (a, FlipRes.cfg) ∉ judged ∧ (a, FlipRes.busy) ∉ judged) → go ≠ [] →
            ∃ t, exec (.flipTakeEffect j) s = .next t ∧ (t.mooring m).rewriting = true ∧ (t.mooring m).flipping = go
              ∧ (∀ a, a ∈ go → t.ext? (s.descAddr m a) 64
                  = leBytes 64 (setFld (s.desc m a).toNat 146 146 (1 - dActive (s.desc m a))))
              ∧ (∀ x, (∀ a, a ∈ go → ¬(s.descAddr m a ≤ x ∧ x < s.descAddr m a + 64)) → t.ext.get x = s.ext.get x)
              ∧ t.hq.items = s.hq.items))
      ∧ (s.item? j = some it → it.type = 6 → (s.mooring m).flips.head? = some it.j → (s.mooring m).rewriting = true →
          ∃ t, exec (.flipComplete j) s = .next t ∧ Settled s t it fDONE 0 ∧ (t.mooring m).rewriting = false
            ∧ (t.mooring m).flips = (s.mooring m).flips.filter (fun x => x != it.j))

/-- Closing manifests (R273, R275, R278) and training holds (R182). A command that does not apply changes nothing
(assumption 10). -/
def Obligations.ManifestCloseStartsABarge : Prop :=
  (∀ (m j : Nat) (s u : State), s.up = true → s.mayClose m = true → u = (s.boundary m).noteHold m →
      u.journalNext = some j → (u.fill m).rows ≠ [] →
      ∃ t b, exec (.manifestClose m) s = .next t ∧ t.sv.barges = u.sv.barges ++ [b] ∧ b.st = .waiting ∧ b.mooring = m
        ∧ b.solo = false ∧ b.number = u.hq.bargeNo ∧ b.journal = some j ∧ b.carried = (u.fill m).train
        ∧ b.rows.length = (u.fill m).rows.length ∧ t.hq.bargeNo = u.hq.bargeNo + 1
        ∧ t.regN pLKP 0xF9C = satAdd 32 (u.regN pLKP 0xF9C) 1)
    ∧ (∀ (j : Nat) (s : State) (it : Item), s.up = true → s.item? j = some it → j ∈ s.sv.trainHeld →
        s.trainHeldNow (it.f 75 72) it = false →
        exec (.trainHoldRelease j) s = .next { s with sv := { s.sv with trainHeld := s.sv.trainHeld.filter (fun x => x != j) } })

/-- The tollhouse's clock (R287, R290). -/
def Obligations.TollhouseRefillsAndReports : Prop :=
  (∀ s : State, s.up = true → s.sv.refills < s.refillsDue → ∃ t, exec .tollRefill s = .next t
      ∧ t.sv.refills = s.sv.refills + 1
      ∧ (∀ n, t.account n = if (s.account n).valid then
            { s.account n with
              balance := min (satBalance ((s.account n).balance + 256 * ((s.account n).rate : Int))) (256 * ((s.account n).burst : Int)) }
          else s.account n)
      ∧ t = { s with sv := { s.sv with accounts := t.sv.accounts, berths := t.sv.berths, refills := t.sv.refills } })
    ∧ (∀ s : State, s.up = true → s.reportDue = true → ∃ t, exec .tollReport s = .next t
      ∧ let a := s.cfgAddr pTOLL 0x114 + 0x101000 * (s.sv.reportNo % 2)
        let bs := s.reportBytes s.sv.reportNo
        t.ext? a bs.length = bs ∧ (∀ x, ¬(a ≤ x ∧ x < a + bs.length) → t.ext.get x = s.ext.get x)
      ∧ t.regN pTOLL 0xF00 = s.sv.reportNo % 2 ^ 32 ∧ t.sv.reportNo = s.sv.reportNo + 1 ∧ t.sv.reportStart = s.now)

/-- Record `i` of the running barge `x` (id `b`), with word `w`, may issue, and no unit it names stops it (R88, R116). -/
def Sys2Proof.Machine.Issues (s : State) (b i : Nat) (x : Barge) (w : Nat) : Prop :=
  s.up = true ∧ s.barge? b = some x ∧ w = s.progRec x i ∧ s.mayIssue x i = true ∧ s.blocked x w = none

/-- No tile is quarantined, and no injected error awaits the read that meets it. -/
def Sys2Proof.Machine.Calm (s : State) : Prop := s.anyTileQuar = false ∧ s.armed.latent = []

/-- From `s` to `t`, record `i` of the barge `x` (id `b`) has completed and set its SIGNAL token; its other records, the other
barges, the commit units, every memory and the queues are as before (R89, R93). -/
def Sys2Proof.Machine.Completed (s t : State) (b i w : Nat) (x y : Barge) : Prop :=
  t.barge? b = some y ∧ y.opIs i .complete = true ∧ y.tokenSet (recSignal w) = true ∧ y.failed = none
    ∧ (∀ k, k ≠ i → y.op k = x.op k) ∧ (∀ k, k ≠ b → t.barge? k = s.barge? k) ∧ t.sv.units = s.sv.units
    ∧ t.ext = s.ext ∧ t.tags = s.tags ∧ t.scratch = s.scratch ∧ t.pool = s.pool ∧ t.hostMem = s.hostMem ∧ t.hq = s.hq

/-- The ranges of external memory that the record with word `w` of the barge `x` reads or writes at its issue. While one of
them meets the C range of an open collective of another barge, the record waits (R135). -/
def Sys2Proof.Machine.State.extOf (s : State) (x : Barge) (w : Nat) : List (Nat × Nat) :=
  if recOp w = 0x01 then mmExt w
  else if recOp w = 0x03 then s.kvExt x w fun k => (k.positions.flatMap (s.visible x w k.man)).eraseDups
  else if recOp w = 0x10 then vecExt w
  else if recOp w = 0x11 then (recA w).extBytes (rowBytes (recA w).fmt (convElems w))
    ++ (if (recA w).space = spEXT then [((recA w).addr + 64 * (recA w).scaleOfs, arrayScales (recA w).fmt (convElems w))] else [])
  else if recOp w = 0x20 then (recA w).extBytes (upTo (4 * gBags w) 64 + 8 * gIndices w)
  else if recOp w = 0x21 then (recA w).extBytes (8 * gIndices w)
  else if recOp w = 0x22 then poolExt s x w
  else if recOp w = 0x23 then (if gradTarget1 w then [] else (recA w).extRows (gradUses w) (gradDim w))
  else if recOp w = 0x30 then s.kvExt x w (·.positions)
  else if recOp w = 0x31 then (recA w).extBytes (kvRowCount w)
    ++ (if (recB w).space = spEXT then (List.range (kvRowCount w)).map fun k => ((recB w).row k, 36) else [])
  else if recOp w = 0x51 then (if recP w 5 4 = 2 then (recA w).extBytes 4 else [])
  else if recOp w = 0x60 then (recA w).extBytes (8 * recP w 7 0)
  else []

/-- The records that read or write external memory at their issue: the command of one, its opcode, and whether a count of it
is 0 (R93) or it is the MM of a pair, which issues with its DELTA (R95). -/
def Sys2Proof.Machine.memoryRecords (b i w : Nat) : List (Instr × Nat × Bool) :=
  [(.mm b i, 0x01, mmPair w || mmZero w), (.attn b i, 0x03, kvZero w), (.vec b i, 0x10, vecZero w), (.conv b i, 0x11, convZero w),
    (.gather b i, 0x20, gatherZero w), (.prefetch b i, 0x21, gIndices w == 0), (.pool b i, 0x22, recP w 24 0 == 0),
    (.sgrad b i, 0x23, gradUses w == 0), (.kvAppend b i, 0x30, kvZero w), (.kvCommit b i, 0x31, kvRowCount w == 0),
    (.confirm b i, 0x51, false), (.savePoint b i, 0x60, false)]

/-- From `s` to `t` external memory has been written, with what its tags and the errors armed for its ports bring (R199,
R405, R414); nothing else has changed. -/
def Sys2Proof.Machine.MemoryWritten (s t : State) : Prop :=
  t = { s with
    ext := t.ext
    tags := t.tags
    armed := t.armed
    regs := t.regs
    hq := { s.hq with messages := t.hq.messages, irqWait := t.hq.irqWait } }

/-- Issue of the op records (R88). -/
def Obligations.OpRecordsIssue : Prop :=
  ∀ (b i w : Nat) (s : State) (x : Barge), Issues s b i x w →
    let u := s.issue b i
    (∃ y, u.barge? b = some y ∧ (y.op i).st = .running ∧ (y.op i).issued = s.now ∧ (∀ k, k ≠ i → y.op k = x.op k)
        ∧ u = { s with sv := { s.sv with barges := u.sv.barges } })
      ∧ (∀ c z, (c, recOp w, z) ∈ memoryRecords b i w → z = false → s.rangesHeld b (s.extOf x w) = true → s.anyTileQuar = false →
          exec c s = .next s)
      ∧ (s.rangesHeld b (s.extOf x w) = false →
      (recOp w = 0x01 → mmPair w = false → mmZero w = false → exec (.mm b i) s = .next (mmEffect i u x w).failNamed)
      ∧ (recOp w = 0x03 → kvZero w = false → exec (.attn b i) s = .next (attnEffect i u x w).failNamed)
      ∧ (recOp w = 0x10 → vecZero w = false → exec (.vec b i) s = .next (vecEffect i u x w).failNamed)
      ∧ (recOp w = 0x11 → convZero w = false → exec (.conv b i) s = .next (convEffect i u x w).failNamed)
      ∧ (recOp w = 0x20 → gatherZero w = false → exec (.gather b i) s = .next (gatherEffect i u x w).failNamed)
      ∧ (recOp w = 0x21 → gIndices w ≠ 0 → exec (.prefetch b i) s = .next ((prefetchEffect i u x w).failNamed.prefetchAgain b i))
      ∧ (recOp w = 0x22 → recP w 24 0 ≠ 0 → exec (.pool b i) s = .next (poolEffect i u x w).failNamed)
      ∧ (recOp w = 0x23 → gradUses w ≠ 0 → exec (.sgrad b i) s = .next (sgradEffect i u x w).failNamed)
      ∧ (recOp w = 0x24 → exec (.update b i) s = .next (updateEffect i u x w).failNamed)
      ∧ (recOp w = 0x30 → kvZero w = false → exec (.kvAppend b i) s = .next (kvAppendEffect i u x w).failNamed)
      ∧ (recOp w = 0x31 → kvRowCount w ≠ 0 → exec (.kvCommit b i) s = .next (kvCommitEffect i u x w).failNamed)
      ∧ (recOp w = 0x40 → exec (.coll b i) s = .next ((collEffect i u x w).failNamed.startColls b))
      ∧ (recOp w = 0x41 → exec (.sealColl b i) s = .next (sealEffect i u x w).failNamed)
      ∧ (recOp w = 0x42 → exec (.barrier b i) s = .next (barrierEffect i u x w).failNamed.enterBarriers)
      ∧ (recOp w = 0x50 → exec (.lockMark b i) s = .next (lockMarkEffect i u x w).failNamed)
      ∧ (recOp w = 0x51 → exec (.confirm b i) s = .next (confirmEffect i u x w).failNamed)
      ∧ (recOp w = 0x60 → exec (.savePoint b i) s = .next (savePointEffect i u x w).failNamed)
      ∧ (recOp w = 0x70 → exec (.opFence b i) s = .next (opFenceEffect i u x w).failNamed)
      ∧ (recOp w = 0x71 → exec (.wait b i) s = .next ((waitEffect i u x w).failNamed.waitAgain b i))
      ∧ (recOp w = 0x72 → exec (.signal b i) s = .next (signalEffect i u x w).failNamed))
      ∧ (recOp w = 0x24 → s.anyTileQuar = false → stepGt (updStep w) s.lastClosed = false → stepGt (updStep w) s.lastApplied = true →
          s.mergeRegions (updStep w) = [] → (x.op i).done.contains 0 = false →
          ∃ t v, exec (.update b i) s = .next t ∧ t.sv.units = s.sv.units ++ [v] ∧ v.b = b ∧ v.i = i
            ∧ v.act = .applyStep (updStep w) (recRnd w) (bit (recSat w)) ∧ v.pend = x.lockSet w ∧ v.poison = false)
      ∧ (recOp w = 0x40 → s.anyTileQuar = false → (∀ c, c ∈ s.col.ctxs → ¬(c.b = b ∧ (c.i = i ∨ c.key.collId = cColl w))) →
          (cBytes w = 0 → ∃ t y, exec (.coll b i) s = .next t ∧ t.barge? b = some y ∧ y.opIs i .complete = true
              ∧ y.tokenSet (recSignal w) = true)
            ∧ (cBytes w ≠ 0 → s.col.ctxs.length < 64 → ∃ t c, exec (.coll b i) s = .next t ∧ c ∈ t.col.ctxs ∧ c.b = b ∧ c.i = i
              ∧ c.key.collId = cColl w ∧ c.key.level = cLevel w ∧ c.bytes = cBytes w ∧ c.phase = .arriving))
      ∧ (recOp w = 0x41 → s.anyTileQuar = false →
          (s.ctx? (fun c => c.b == b && c.key.collId == recP w 5 0) = none → ∃ t y, exec (.sealColl b i) s = .next t ∧ t.barge? b = some y
              ∧ y.opIs i .complete = true ∧ y.tokenSet (recSignal w) = true)
            ∧ (∀ c, s.ctx? (fun c => c.b == b && c.key.collId == recP w 5 0) = some c →
              ∃ t d, exec (.sealColl b i) s = .next t ∧ t.ctx? (·.slot == c.slot) = some d ∧ d.sealRec = some i))
      ∧ (recOp w = 0x42 → s.anyTileQuar = false → recP w 2 2 = 0 → s.col.barriers = [] →
          (s.levelMembers (recP w 1 0) ≠ 1 → ∃ t z, exec (.barrier b i) s = .next t ∧ z ∈ t.col.barriers ∧ z.b = b ∧ z.i = i
              ∧ z.key.level = recP w 1 0 ∧ z.entered = true)
            ∧ (s.levelMembers (recP w 1 0) = 1 → s.col.ctxs = [] → ∃ t y, exec (.barrier b i) s = .next t ∧ t.barge? b = some y
              ∧ y.opIs i .complete = true ∧ y.tokenSet (recSignal w) = true ∧ t.col.barriers = []))

/-- The two directions of DELTA (R95, R163, R168). -/
def Obligations.DeltaIssuesWithItsPair : Prop :=
  ∀ (b i w : Nat) (s : State) (x : Barge), s.up = true → s.barge? b = some x → w = s.progRec x i → recOp w = 0x02 →
    (∀ k v, i = k + 1 → v = s.progRec x k → dDir w = 0 → x.opIs i .waiting = true → s.mayIssue x k = true → s.blocked x v = none →
          s.rangesHeld b (mmExt v) = false →
          let f := s.seekSegs x i false
          (mmZero v = true → ∃ t y, exec (.delta b i) s = .next t ∧ t.barge? b = some y ∧ y.opIs k .complete = true
              ∧ y.opIs i .complete = true ∧ y.tokenSet (recSignal v) = true ∧ y.tokenSet (recSignal w) = true
              ∧ t = { s with sv := { s.sv with barges := t.sv.barges } })
            ∧ (mmZero v = false → dCount w = 0 →
                (∃ y, (((s.issue b k).issue b i).finishOp b i).barge? b = some y ∧ y.opIs k .running = true ∧ y.opIs i .complete = true)
                  ∧ exec (.delta b i) s = .next (mmEffect k (((s.issue b k).issue b i).finishOp b i) x v))
            ∧ (mmZero v = false → dCount w ≠ 0 →
                (f.1 = true → exec (.delta b i) s = .next f.2.2)
                  ∧ (f.1 = false → ∃ y z, f.2.2.barge? b = some y ∧ ((f.2.2.issue b k).issue b i).barge? b = some z
                      ∧ z.opIs k .running = true ∧ z.opIs i .running = true ∧ (z.op k).issued = s.now ∧ (z.op i).issued = s.now
                      ∧ exec (.delta b i) s =
                          .next (((f.2.2.issue b k).issue b i).pairRun y i v w (f.2.1.map (f.2.2.segFails y w i))))
                  ∧ ((∀ g, g ∈ x.covered w → g.adapter = 0) →
                      exec (.delta b i) s = .next (((s.issue b k).issue b i).pairRun x i v w f.2.1))))
      ∧ (dDir w = 1 → s.mayIssue x i = true → s.blocked x w = none →
          let f := s.seekSegs x i true
          (dCount w = 0 ∨ recTiles w = 0 → ∃ t y, exec (.deltaBackward b i) s = .next t ∧ Completed s t b i w x y
              ∧ t = { s with sv := { s.sv with barges := t.sv.barges } })
            ∧ (dCount w ≠ 0 → recTiles w ≠ 0 →
                (f.1 = true → exec (.deltaBackward b i) s = .next f.2.2)
                  ∧ (f.1 = false → ∃ y z, f.2.2.barge? b = some y ∧ (f.2.2.issue b i).barge? b = some z
                      ∧ z.opIs i .running = true ∧ (z.op i).issued = s.now
                      ∧ exec (.deltaBackward b i) s = .next ((f.2.2.issue b i).backRun y i w (f.2.1.map (f.2.2.segFails y w i))))
                  ∧ ((∀ g, g ∈ x.covered w → g.adapter = 0) →
                      exec (.deltaBackward b i) s = .next ((s.issue b i).backRun x i w f.2.1))))
      ∧ (x.opIs i .waiting = true → x.failed = none → x.st = .running → dCount w ≠ 0 → s.mayFetch x i = true →
          (∀ k, i = k + 1 → dDir w = 0 → s.mayIssue x k = false → exec (.delta b i) s = .next (s.seekSegs x i false).2.2)
            ∧ (dDir w = 1 → s.mayIssue x i = false → exec (.deltaBackward b i) s = .next (s.seekSegs x i true).2.2))

/-- Zero counts (R93). -/
def Obligations.ZeroCountRecordsCompleteAtOnce : Prop :=
  ∀ (c : Instr) (b i w : Nat) (s : State) (x : Barge), Issues s b i x w → s.anyTileQuar = false →
    (c = .mm b i ∧ recOp w = 0x01 ∧ mmPair w = false ∧ (recP w 13 0 = 0 ∨ recP w 31 16 = 0 ∨ recP w 47 32 = 0 ∨ recTiles w = 0)
      ∨ c = .attn b i ∧ recOp w = 0x03 ∧ (kvRowCount w = 0 ∨ recTiles w = 0)
      ∨ c = .kvAppend b i ∧ recOp w = 0x30 ∧ (kvRowCount w = 0 ∨ recTiles w = 0)
      ∨ c = .kvCommit b i ∧ recOp w = 0x31 ∧ kvRowCount w = 0
      ∨ c = .vec b i ∧ recOp w = 0x10 ∧ (vRows w = 0 ∨ vCols w = 0)
      ∨ c = .conv b i ∧ recOp w = 0x11 ∧ convElems w = 0
      ∨ c = .gather b i ∧ recOp w = 0x20 ∧ (gIndices w = 0 ∨ gBags w = 0)
      ∨ c = .prefetch b i ∧ recOp w = 0x21 ∧ gIndices w = 0
      ∨ c = .pool b i ∧ recOp w = 0x22 ∧ recP w 24 0 = 0
      ∨ c = .sgrad b i ∧ recOp w = 0x23 ∧ gradUses w = 0) →
    ∃ t y, exec c s = .next t ∧ Completed s t b i w x y ∧ t = { s with sv := { s.sv with barges := t.sv.barges } }

/-- LOCK_MARK (R110). -/
def Obligations.LockMarkOpensEachNamedLockOnce : Prop :=
  ∀ (b i w : Nat) (s : State) (x : Barge), Calm s →
    (Issues s b i x w → recOp w = 0x50 →
        ∃ t y, exec (.lockMark b i) s = .next t ∧ Completed s t b i w x y
          ∧ y.chambers = x.chambers
              ++ (bitsOf (recRegions w) 8).map (fun r => { region := r, lock := recP w 3 0, st := .opened, mark := i, attempts := 0 })
          ∧ t = { s with sv := { s.sv with barges := t.sv.barges } })
      ∧ (s.up = true → s.barge? b = some x → w = s.progRec x i → recOp w = 0x50 → x.st = .running → x.failed = none →
          i = x.ops.length → i < x.progLen → s.poisonAt (x.recAt i).1 (x.recAt i).2 64 = false →
          (recP w 127 4 ≠ 0
            ∨ ∃ k r, k < i ∧ recOp (s.progRec x k) = 0x50 ∧ recP (s.progRec x k) 3 0 = recP w 3 0 ∧ r < 8
                ∧ nbit (recRegions w) r = true ∧ nbit (recRegions (s.progRec x k)) r = true) →
          ∃ t y, exec (.lockMark b i) s = .next t ∧ t.barge? b = some y ∧ y.failed = some fCFG ∧ y.ops = x.ops
            ∧ y.chambers = x.chambers)

/-- CONFIRM (R111), confirmation (R118, R119), failure (R124 to R126). -/
def Obligations.ConfirmSettlesOrFailsItsLock : Prop :=
  ∀ (b i w : Nat) (s : State) (x : Barge), Calm s → Issues s b i x w → recOp w = 0x51 → s.confirmWaits x w = [] →
    s.rangesHeld b (s.extOf x w) = false →
    let l := recP w 3 0
    let rs := bitsOf (recRegions w) 8
    ((∀ r, r ∈ rs → s.confirmFails x w r = false) →
        ∃ t y, exec (.confirm b i) s = .next t ∧ t.barge? b = some y ∧ y.opIs i .complete = true ∧ y.tokenSet (recSignal w) = true
          ∧ y.chambers = x.chambers.map (fun c => if c.lock = l ∧ c.region ∈ rs then { c with st := .confirmed } else c)
          ∧ (∀ k, k ≠ b → t.barge? k = s.barge? k) ∧ t.ext = s.ext ∧ t.scratch = s.scratch ∧ t.pool = s.pool ∧ t.hq = s.hq
          ∧ (y.confirmed l = false → t.marks = s.marks ∧ t.sv.units = s.sv.units)
          ∧ (y.confirmed l = true → l < 16 → (∀ u, u ∈ t.sv.units → u.b = b → u.pend.getLsbD l = false)
              ∧ t.sv.units.length = s.sv.units.length
              ∧ ∀ k r, r ∈ x.regions → inRegion r k = true → (t.mark k).pend.getLsbD l = false))
      ∧ ((∃ r, r ∈ rs ∧ s.confirmFails x w r = true) → x.failedOnce l = false →
        ∃ t y, exec (.confirm b i) s = .next t ∧ t.barge? b = some y
          ∧ y.chambers = x.chambers.map (fun c => if c.lock = l then { c with st := .opened, attempts := c.attempts + 1 } else c)
          ∧ t.sv.units = s.sv.units.filter (fun u => !(u.b == b && u.pend.getLsbD l))
          ∧ (∀ k r, r ∈ x.regions → inRegion r k = true → (s.mark k).pend.getLsbD l = true →
              (t.mark k).void = true ∧ (t.mark k).pend = 0)
          ∧ (∀ k, k ≠ b → t.barge? k = s.barge? k) ∧ t.ext = s.ext ∧ t.scratch = s.scratch ∧ t.pool = s.pool ∧ t.hq = s.hq)
      ∧ ((∃ r, r ∈ rs ∧ s.confirmFails x w r = true) → x.failedOnce l = true →
        ∃ t y, exec (.confirm b i) s = .next t ∧ t.barge? b = some y ∧ y.failed = some fCFG
          ∧ y.chambers = x.chambers.map (fun c => if c.lock = l then { c with st := .failed } else c)
          ∧ ∀ u, u ∈ t.sv.units → u.b ≠ b)

/-- FENCE, WAIT, SIGNAL and SAVE_POINT (R112 to R115, R305, R306). -/
def Obligations.OrderingRecordsWaitAndSignal : Prop :=
  ∀ (b i w : Nat) (s : State) (x : Barge), Calm s → s.up = true → s.barge? b = some x → w = s.progRec x i →
    (Issues s b i x w → recOp w = 0x70 →
        let done := ∀ k, k < i →
          ((recP w 0 0 = 0 ∧ recRegions (s.progRec x k) &&& recRegions w = 0) ∨ x.opIs k .complete = true)
            ∧ (recP w 1 1 = 0 ∨ (x.op k).outstanding = 0)
        (done → ∃ t y, exec (.opFence b i) s = .next t ∧ Completed s t b i w x y)
          ∧ (¬done → exec (.opFence b i) s = .next (s.issue b i)))
      ∧ (recOp w = 0x71 → (Issues s b i x w ∨ (x.opIs i .running = true ∧ x.failed = none ∧ x.st = .running)) →
          s.rangesHeld b ((recA w).extBytes 8) = false → s.extPoison (recA w).addr 8 = false → recP w 63 0 ≤ s.extNat (recA w).addr 8 →
          ∃ t y, exec (.wait b i) s = .next t ∧ Completed s t b i w x y)
      ∧ (recOp w = 0x71 → Issues s b i x w →
          s.rangesHeld b ((recA w).extBytes 8) = true ∨ s.extPoison (recA w).addr 8 = true ∨ s.extNat (recA w).addr 8 < recP w 63 0 →
          exec (.wait b i) s = .next (s.issue b i))
      ∧ (recOp w = 0x71 → x.opIs i .running = true → x.failed = none → (x.op i).issued + recP w 79 64 ≤ s.now →
          ∃ t y, exec (.waitLimitExpiry b i) s = .next t ∧ t.barge? b = some y ∧ y.failed = some fTIMEOUT
            ∧ ∀ u, u ∈ t.sv.units → u.b ≠ b)
      ∧ (Issues s b i x w → recOp w = 0x72 → (x.op i).done.contains 0 = false →
          (recP w 77 77 = 0 ∨ recP w 76 64 = s.selfId →
              ∃ t u, exec (.signal b i) s = .next t ∧ t.sv.units = s.sv.units ++ [u] ∧ u.b = b ∧ u.i = i
                ∧ u.act = .addWord (recA w).addr (BitVec.ofNat 64 (recP w 63 0)) ∧ u.poison = (s.taint .ext (recA w).addr 8).poison
                ∧ u.pend = x.lockSet w ||| (s.taint .ext (recA w).addr 8).pend ∧ t.ext = s.ext)
            ∧ (recP w 77 77 = 1 → recP w 76 64 ≠ s.selfId → recP w 76 64 / 512 = s.selfId / 512 →
              ∃ t u, exec (.signal b i) s = .next t ∧ t.sv.units = s.sv.units ++ [u] ∧ u.b = b ∧ u.i = i
                ∧ u.act = .fetchAdd (recP w 76 64) (recA w).addr (BitVec.ofNat 64 (recP w 63 0)) ∧ u.pend = x.lockSet w ∧ t.fab = s.fab)
            ∧ (recP w 77 77 = 1 → recP w 76 64 / 512 ≠ s.selfId / 512 →
              ∃ t y, exec (.signal b i) s = .next t ∧ t.barge? b = some y ∧ y.failed = some fCFG))
      ∧ (Issues s b i x w → recOp w = 0x60 → s.rangesHeld b (s.extOf x w) = false → x.preempt = none →
          ∃ t y, exec (.savePoint b i) s = .next t ∧ Completed s t b i w x y ∧ y.st = .running ∧ y.gapFrom = s.now
            ∧ y.gapBound = recP w 23 16)
      ∧ (Issues s b i x w → recOp w = 0x60 → s.rangesHeld b (s.extOf x w) = false → x.preempt.isSome = true → s.hq.maint = false →
          (∀ k, k < i → x.opIs k .complete = true ∧ (x.op k).outstanding = 0 ∧ s.unitsOf b k = []) →
          (∀ c, c ∈ x.chambers → c.st = .confirmed) → x.barrier = none → (∀ c, c ∈ s.col.ctxs → c.b ≠ b) →
          liveBytes x ((s.rangeWords x w).map liveRange) + 0x1000 ≤ s.slotBytes → lowestFree s.sv.saveSlots < fld (s.cfg pLKP 0x328) 5 0 →
          ∃ t y, exec (.savePoint b i) s = .next t ∧ t.barge? b = some y ∧ y.st = .saving ∧ y.savePoint = i
            ∧ y.saveSlot = some (lowestFree s.sv.saveSlots) ∧ y.preempt = none
            ∧ (∀ k, i < k → (y.op k).st = .waiting) ∧ (∀ u, u ∈ t.sv.units → u.b = b → u.i ≤ i)
            ∧ t.sv.saveSlots = s.sv.saveSlots ++ [lowestFree s.sv.saveSlots])

/-- OP_COMPLETE (R89, R95). A command that does not apply changes nothing
(assumption 10). -/
def Obligations.OpCompleteEndsTheRecord : Prop :=
  ∀ (b i w : Nat) (s : State) (x : Barge), s.up = true → s.barge? b = some x → w = s.progRec x i → x.failed = none →
    x.opIs i .running = true → recOp w ∉ [0x20, 0x21, 0x40, 0x41, 0x42, 0x70, 0x71] →
    (s.unitsOf b i = [] → (x.op i).outstanding = 0 → (recOp w = 0x24 → s.rows.moves = [] ∧ s.rows.migRest = []) →
        ((∀ k, s.pairOf x i = some k → x.opIs k .complete = true) →
          exec (.opComplete b i) s = .next ((((s.countOp x w).emptyLists x w).finishOp b i).enterBarriers)
          ∧ (s.col.barriers = [] → ∃ t y, exec (.opComplete b i) s = .next t ∧ t.barge? b = some y ∧ y.opIs i .complete = true
              ∧ y.tokenSet (recSignal w) = true ∧ y.chambers = x.chambers ∧ y.st = x.st
              ∧ (recOp w ≠ 0x23 → Completed s t b i w x y ∧ t = { s with regs := t.regs, sv := { s.sv with barges := t.sv.barges } })
              ∧ (recOp w = 0x23 → recP w 40 40 = 1 → ∀ r, r ∈ x.physOf (recRegions w) → (t.region r).uses = 0)))
        ∧ (∀ k, s.pairOf x i = some k → x.opIs k .running = true → recOp (s.progRec x k) ∈ [0x01, 0x02] → s.unitsOf b k = [] →
            (x.op k).outstanding = 0 → s.col.barriers = [] →
            ∃ t y, exec (.opComplete b i) s = .next t ∧ t.barge? b = some y ∧ y.opIs i .complete = true ∧ y.opIs k .complete = true
              ∧ y.tokenSet (recSignal w) = true ∧ y.tokenSet (recSignal (s.progRec x k)) = true
              ∧ t = { s with regs := t.regs, sv := { s.sv with barges := t.sv.barges } })
        ∧ (∀ k, s.pairOf x i = some k → x.opIs k .complete = false →
            (x.opIs k .running = false ∨ s.unitsOf b k ≠ [] ∨ (x.op k).outstanding ≠ 0) → recOp (s.progRec x k) ≠ 0x70 →
            exec (.opComplete b i) s = .next s))
      ∧ (s.unitsOf b i ≠ [] ∨ (x.op i).outstanding ≠ 0 → exec (.opComplete b i) s = .next s)

/-- COMMIT_UNIT (R121 to R123, R317, R406). A command that does not apply changes nothing
(assumption 10). -/
def Obligations.CommitUnitMakesOneCommitOrNone : Prop :=
  ∀ (b i k : Nat) (s : State) (x : Barge) (u : CUnit), s.up = true → s.barge? b = some x →
    s.sv.units.find? (fun v => v.b == b && v.i == i && v.key == k) = some u →
    ((∃ l, l < 16 ∧ u.pend.getLsbD l = true ∧ x.confirmed l = false) ∨ x.waitsMet (s.progRec x i) = false →
        exec (.commitUnit b i k) s = .next s)
      ∧ (x.failed = none → x.opIs i .running = true → (∀ l, l < 16 → u.pend.getLsbD l = true → x.confirmed l = true) →
          x.waitsMet (s.progRec x i) = true → s.unitInOrder x u = true → s.unitHeld x u = false →
          let d := s.dropUnit u
          d.sv.units = s.sv.units.filter (fun v => !(v.b == b && v.i == i && v.key == k))
            ∧ (x.unitOut u = true → exec (.commitUnit b i k) s = .next d)
            ∧ (x.unitOut u = false → u.poison = true →
                ∃ t, exec (.commitUnit b i k) s = .next t ∧ t.regN pERR 0xF1C = satAdd 32 (s.regN pERR 0xF1C) 1
                  ∧ (u.rows = [] ∨ x.rows = [] → ∃ y, t.barge? b = some y ∧ y.failed = some fECC))
            ∧ (x.unitOut u = false → u.poison = false → s.addPoison u = false →
                (∀ a bs, u.act = .memWrite a bs → ∃ t, exec (.commitUnit b i k) s = .next t
                    ∧ (∀ o, o < bs.length → t.ext.get (a + o) = bs.getD o 0)
                    ∧ (∀ c, ¬(a ≤ c ∧ c < a + bs.length) → t.ext.get c = s.ext.get c)
                    ∧ MemoryWritten d t)
                  ∧ (∀ a v, u.act = .addWord a v → ∃ t, exec (.commitUnit b i k) s = .next t
                    ∧ t.extNat a 8 = (s.extNat a 8 + v.toNat) % 2 ^ 64
                    ∧ (∀ c, ¬(a ≤ c ∧ c < a + 8) → t.ext.get c = s.ext.get c) ∧ MemoryWritten d t)
                  ∧ (∀ row a bs, u.act = .output row a bs → (s.berth ((x.rows[row]?).elim 0 (·.berth))).outExt = true →
                      s.populated < a + bs.length → exec (.commitUnit b i k) s = .fault .beyondPopulated)
                  ∧ (∀ t, d.actUnit x u = some t → exec (.commitUnit b i k) s = .next t)
                  ∧ ((∀ row a bs, u.act ≠ .output row a bs) → (∀ row n ts, u.act ≠ .kvCommit row n ts) →
                      (d.actUnit x u).isSome = true)))

/-- The commit of a manifest row (R99, R279). -/
def Obligations.KvCommitUnitAdvancesItsRequest : Prop :=
  ∀ (b i k row commit : Nat) (toks : List Nat) (s : State) (x : Barge) (u : CUnit) (r : ManRow), s.up = true → s.barge? b = some x →
    s.sv.units.find? (fun v => v.b == b && v.i == i && v.key == k) = some u → u.act = .kvCommit row commit toks →
    s.unitReady x u = true → x.unitOut u = false → u.poison = false → x.rows[row]? = some r → r.kind ≠ 2 →
    let be := s.berth r.berth
    let last := r.kind = 0 ∨ r.position + 1 = be.startPos + be.promptLen
    ∀ outs, (be.finished = true ∨ ¬last → outs = []) →
      (be.finished = false → last → outs = deliver be.maxTokens be.stopToken be.delivered toks) →
      (be.outExt = true → be.outAddr + 4 * be.delivered + 4 * outs.length ≤ s.populated) →
      ∃ t y, exec (.commitUnit b i k) s = .next t ∧ (t.berth r.berth).committed = be.committed + commit
        ∧ (t.berth r.berth).delivered = be.delivered + outs.length
        ∧ (∀ n, n ≠ r.berth → t.berth n = { s.berth n with deferSince := (t.berth n).deferSince })
        ∧ (be.outExt = true → ∀ o, o < 4 * outs.length →
            t.ext.get (be.outAddr + 4 * be.delivered + o) = (outs.flatMap (leBytes 4)).getD o 0)
        ∧ (be.outExt = true → ∀ c, ¬(be.outAddr + 4 * be.delivered ≤ c ∧ c < be.outAddr + 4 * be.delivered + 4 * outs.length) →
            t.ext.get c = s.ext.get c)
        ∧ (be.outExt = false → t.ext = s.ext)
        ∧ t.barge? b = some y ∧ (∀ q, y.rows[row]? = some q → q.committed = true)

/-- The choice of R303. -/
def Obligations.ChosenRegionsAreFreeAndBest : Prop :=
  ∀ (s : State) (x : Barge) (free : List Nat),
    (∀ rs, s.choose x free = some rs → rs.length = x.need ∧ rs.Sublist free
        ∧ ∀ qs : List Nat, qs.Sublist free → qs.length = x.need → lexLe (s.placeKey x rs) (s.placeKey x qs) = true)
      ∧ (x.need ≤ free.length → ∃ rs, s.choose x free = some rs)

/-- Placement and image loads (R161, R301 to R303). A command that does not apply changes nothing
(assumption 10). -/
def Obligations.WaitingWorkIsPlacedAndLoaded : Prop :=
  ∀ (b : Nat) (s : State) (x : Barge), s.up = true → s.barge? b = some x →
    (s.sv.soloQueue = [] → s.workOrder = [b] → x.st = .waiting → x.failed = none → s.hq.maint = false → s.rows.pauses = [] → s.soloWaits x = false →
        (x.need ≤ ((List.range 8).filter (s.freeFor (s.unionOf x))).length →
            ∃ rs t y, s.choose x ((List.range 8).filter (s.freeFor (s.unionOf x))) = some rs ∧ exec .bargePlacement s = .next t ∧ t.barge? b = some y ∧ y.regions = rs ∧ (y.st = .loading ∨ y.st = .running)
              ∧ y.toLoad = (if x.solo then [] else rs.zipIdx.filter fun p => !s.inPlace x.mooring p.2 p.1)
              ∧ (∀ r, r ∈ rs → (t.region r).power = .run ∨ (t.region r).waking.isSome = true)
              ∧ t.sv.orders = s.sv.orders + 1 ∧ t.hostMem = s.hostMem ∧ t.sv.units = s.sv.units
              ∧ (x.solo = false → (∀ r, (s.region r).moored = []) → ∀ a, t.ext.get a ≠ s.ext.get a →
                  ∃ j, x.journal = some j ∧ s.journalAddr j ≤ a ∧ a < s.journalAddr j + 32))
          ∧ (((List.range 8).filter fun r => !s.quarFor (s.unionOf x) r).length < x.need →
            ∃ t y, exec .bargePlacement s = .next t ∧ t.barge? b = some y ∧ y.failed = some fQUARANTINE))
      ∧ (x.st = .loading → x.failed = none → (∀ r, r ∈ x.regions → s.awake r = true) → s.loadHeld x = false →
          (∀ p : Bool × State,
            p = x.toLoad.foldl (fun p q => (p.1 || (p.2.fillMoored x.mooring q.1).1, (p.2.fillMoored x.mooring q.1).2)) (false, s.loadBegin x) →
            exec (.imageLoadComplete b) s =
              .next (if p.1 = true then p.2 else (p.2.updBarge b fun y => { y with toLoad := [] }).tryStart b))
          ∧ (x.toLoad = [] ∨ (x.moorBegun = false ∧ (s.mooring x.mooring).moorCount = 0) →
            ∃ t y, exec (.imageLoadComplete b) s = .next t ∧ t.barge? b = some y ∧ y.toLoad = [] ∧ y.st = .running
              ∧ y.gapFrom = s.now ∧ y.gapBound = x.maxGap ∧ y.regions = x.regions ∧ t.hostMem = s.hostMem ∧ t.ext = s.ext))
      ∧ (x.st ≠ .loading → x.st ≠ .restoring → exec (.imageLoadComplete b) s = .next s)

/-- PREEMPT_CMD and overdue requests (R304, R305, R310, R314). A command that does not apply changes nothing
(assumption 10). -/
def Obligations.PreemptionHoldsAndRequests : Prop :=
  ∀ (mask : BitVec 8) (b : Nat) (s : State), s.up = true →
    (exec (.hold mask) s = .next { s with sv := { s.sv with heldRegions := s.sv.heldRegions ||| mask } })
      ∧ (exec (.release mask) s = .next { s with sv := { s.sv with heldRegions := s.sv.heldRegions &&& ~~~mask } })
      ∧ ((∀ x, x ∈ s.sv.barges → ∀ r, r ∈ x.regions → bitOf mask r = false) → exec (.preempt mask) s = .next s)
      ∧ (∀ x r, s.barge? b = some x → r ∈ x.regions → bitOf mask r = true → x.preempt = none →
          s.sv.barges.filter (·.id == b) = [x] →
          ((x.st = .running ∧ ((∃ o, o ∈ x.ops ∧ o.st ≠ .waiting) ∨ s.hq.maint = true)) ∨ x.st = .restoring
              ∨ (x.st = .loading ∧ s.hq.maint = true) →
            ∃ t y, exec (.preempt mask) s = .next t ∧ t.barge? b = some y ∧ y = { x with preempt := some s.now })
            ∧ (s.hq.maint = false → (x.st = .loading ∨ (x.st = .running ∧ ∀ o, o ∈ x.ops → o.st = .waiting)) →
              ∃ t y, exec (.preempt mask) s = .next t ∧ t.barge? b = some y ∧ y.regions = [] ∧ y.ops = [] ∧ y.toLoad = []
                ∧ y.preempt = none ∧ y.st = .waiting))
      ∧ (∀ x from_, s.barge? b = some x → x.preempt = some from_ → x.overdue = false →
          (s.cfgN pLKP 0x31C ≤ s.now - from_ →
            ∃ t y, exec (.preemptOverdue b) s = .next t ∧ t.barge? b = some y ∧ y = { x with overdue := true }
              ∧ t.regN pLKP 0xFC0 = satAdd 32 (s.regN pLKP 0xFC0) 1)
            ∧ (s.now - from_ < s.cfgN pLKP 0x31C → exec (.preemptOverdue b) s = .next s))

/-- Saves and restores (R307 to R309). -/
def Obligations.SavesAndRestores : Prop :=
  ∀ (b k : Nat) (s : State) (x : Barge), s.up = true → Calm s → s.barge? b = some x → x.failed = none → x.saveSlot = some k →
    (x.st = .saving ∨ x.st = .restoring → s.rangesHeld b [(s.slotAddr k, s.slotBytes)] = true →
        exec (.saveComplete b) s = .next s ∧ exec (.restoreComplete b) s = .next s)
      ∧ (x.st = .saving → s.rangesHeld b [(s.slotAddr k, s.slotBytes)] = false →
        ∃ t y, exec (.saveComplete b) s = .next t ∧ t.barge? b = some y ∧ y = { x with st := .saved, savedAt := s.now }
          ∧ t.extNat (s.slotAddr k + 0x174) 4 = (crc32c (t.ext? (s.slotAddr k) 0x174)).toNat
          ∧ (∀ a, ¬(s.slotAddr k ≤ a ∧ a < s.slotAddr k + 0x178) →
              (∀ p, p ∈ x.savedRanges → ¬(s.slotAddr k + p.2.2.2 ≤ a ∧ a < s.slotAddr k + p.2.2.2 + p.2.2.1)) →
              t.ext.get a = s.ext.get a)
          ∧ t.regN pLKP 0xFB4 = satAdd 32 (s.regN pLKP 0xFB4) 1 ∧ t.sv.saveSlots = s.sv.saveSlots)
      ∧ (x.st = .restoring → s.rangesHeld b [(s.slotAddr k, s.slotBytes)] = false → x.toLoad = [] → (∀ r, r ∈ x.regions → s.awake r = true) →
        ∃ t y, exec (.restoreComplete b) s = .next t ∧ t.barge? b = some y ∧ y.st = .running ∧ y.saveSlot = none
          ∧ y.savedUs = x.savedUs + (s.now - x.savedAt) ∧ y.ops.map (·.st) = x.ops.map (·.st) ∧ (∀ i, i ≤ x.savePoint → y.op i = x.op i)
          ∧ y.tokens = x.tokens ∧ y.regions = x.regions
          ∧ (y.failed = none ∨ (y.failed = some fECC ∧ ∃ i, x.savePoint < i ∧ i < x.ops.length))
          ∧ k ∉ t.sv.saveSlots ∧ (t.mooring x.mooring).savedUs = satAdd 32 (s.mooring x.mooring).savedUs (s.now - x.savedAt)
          ∧ t.regN pLKP 0xFB8 = satAdd 32 (s.regN pLKP 0xFB8) 1 ∧ (y.failed = none → t.ext = s.ext))

/-- The end of a barge (R59, R273). A command that does not apply changes nothing
(assumption 10). -/
def Obligations.BargeEndClearsItsBarge : Prop :=
  ∀ (b : Nat) (s : State) (x : Barge), s.up = true → s.barge? b = some x →
    (x.failed.isSome = true ∨ (x.st = .running ∧ (x.fetchedAll = true ∨ x.progLen = 0)
          ∧ (∀ o, o ∈ x.ops → o.st = .complete) ∧ (∀ u, u ∈ s.sv.units → u.b ≠ b)) →
        ∃ t, exec (.bargeEnd b) s = .next t ∧ t.barge? b = none ∧ (∀ u, u ∈ t.sv.units → u.b ≠ b)
          ∧ (∀ g, g ∈ t.gathers → g.b ≠ b) ∧ (∀ c, c ∈ t.col.ctxs → c.b ≠ b) ∧ (∀ z, z ∈ t.col.barriers → z.b = b → z.entered = true)
          ∧ (∀ n, (t.berth n).barge ≠ some b) ∧ (∀ j, x.carried = some j → t.item? j = none)
          ∧ (∀ j, x.journal = some j → ∃ r, r ∈ (t.cq s.lkCq).pending ∧ r.kind = .barge ∧ r.fate = x.failed.getD fDONE ∧ r.journal = some j))
      ∧ (x.failed = none → (x.st ≠ .running ∨ (x.fetchedAll = false ∧ x.progLen ≠ 0) ∨ (∃ o, o ∈ x.ops ∧ o.st ≠ .complete)
          ∨ (∃ u, u ∈ s.sv.units ∧ u.b = b)) → exec (.bargeEnd b) s = .next s)

/-- Power states of a region (R396, R398). A command that does not apply changes nothing
(assumption 10). -/
def Obligations.RegionPowerFollowsIdleness : Prop :=
  ∀ (r : Nat) (s : State), s.up = true → r < 8 →
    let x := s.region r
    (x.waking = none → x.quarantined = false → s.isolated (rPage r) = false → s.busyRegion r = false →
        (x.power = .doze → x.idleSince + s.cfgN pPWR 0x104 ≤ s.now → 2 ≤ s.deepest r →
          ∃ t, exec (.napEntry r) s = .next t ∧ t.region r = { x with power := .nap } ∧ r ∉ t.rst.locked ∧ t.pool = s.pool
            ∧ t.scratch = s.scratch ∧ ∀ q, q ≠ r → t.region q = s.region q)
          ∧ (x.power = .nap → x.idleSince + s.cfgN pPWR 0x108 ≤ s.now → 3 ≤ s.deepest r →
              (∀ e, e ∈ s.rows.merge → e.region ≠ r) →
            ∃ t, exec (.offEntry r) s = .next t ∧ (t.region r).power = .off ∧ (t.region r).pieces = [] ∧ (t.region r).cache = []
              ∧ (t.region r).moored = [] ∧ (∀ a, a < poolBytes → t.pool.get (r * poolBytes + a) = Mem.get [] 0)
              ∧ (∀ q a, q ≠ r → a < poolBytes → t.pool.get (q * poolBytes + a) = s.pool.get (q * poolBytes + a))
              ∧ (∀ k, inRegion r k = true → t.mark k = {}) ∧ ∀ q, q ≠ r → t.region q = s.region q))
      ∧ (s.busyRegion r = true → exec (.napEntry r) s = .next s ∧ exec (.offEntry r) s = .next s)
      ∧ (∀ p, x.waking = some p →
          (s.busyRegion r = true →
              (p = .doze ∨ (p = .nap ∧ r ∈ s.rst.locked) ∨ (p = .off ∧ s.clkGood r = true)) →
              ∃ t, exec (.wakeComplete r) s = .next t ∧ (t.region r).power = .run ∧ (t.region r).waking = none)
            ∧ (p = .off → s.clkGood r = false → s.forced r = true → r ∈ s.rst.locked →
              ∃ t, exec (.wakeComplete r) s = .next t ∧ (t.region r).quarantined = true ∧ bitOf (t.errStatus pCLK) 1 = true)
            ∧ (p = .run ∨ (p = .nap ∧ r ∉ s.rst.locked) ∨ (p = .off ∧ s.clkGood r = false ∧ (s.forced r = false ∨ r ∉ s.rst.locked)) →
              exec (.wakeComplete r) s = .next s))

/-- A well-formed packet with one OP that is for this engine, the engine domain running and no earlier packet of its source
and VC waiting (R18, R329). -/
def Sys2Proof.Machine.Arrives (s : State) (p : Packet) (op : Nat) : Prop :=
  s.up = true ∧ p.op = op ∧ p.dest = s.selfId ∧ packetOk p = true ∧ s.packetTurn p (s.flowOf p) = true

/-- The packet is not one that this engine holds back already. -/
def Sys2Proof.Machine.Fresh (s : State) (p : Packet) : Prop := ∀ h, h ∈ s.fab.heldReqs → h.p ≠ p

/-- From `s` to `t`, one packet has been sent, the answer to `p` with a status and a payload (R329). -/
def Sys2Proof.Machine.Answers (s t : State) (p : Packet) (status : Nat) (payload : List Byte) : Prop :=
  t.fab.sent = s.fab.sent ++ [response s p status payload]

/-- From `s` to `t`, the request `p` has been held back as of now, and nothing has been sent (R333). -/
def Sys2Proof.Machine.HeldBack (s t : State) (p : Packet) : Prop :=
  t.fab.sent = s.fab.sent ∧ t.fab.heldReqs = s.fab.heldReqs ++ [{ p := p, since := s.now }]

/-- The READ or PROBE `p` of a row of the entry `tab`, held at `l`, is answered ROW with the row's image and version step, or,
for a PROBE whose READ_STEP the version step does not exceed, CURRENT (R229). -/
def Sys2Proof.Machine.ServedFrom (s : State) (c : Instr) (p : Packet) (tab : Tab) (l : Loc) : Prop :=
  ∀ r, r = (s.readRow tab l).1 →
    (reqKind p = 1 ∨ stepGt r.step (reqStep p) = true → ∃ t q, exec c s = .next t ∧ t.fab.sent = s.fab.sent ++ [q]
        ∧ q.dest = p.src ∧ q.tag = p.tag ∧ q.gen = p.gen ∧ q.op = 0x84 ∧ q.status = 0
        ∧ q.payload = respHeader r.step s.selfId kROW l.dr r.image.length (reqTable p) (reqRow p) ++ r.image
        ∧ (r.poison = false → q.poison = 0))
      ∧ (reqKind p = 2 → stepGt r.step (reqStep p) = false → ∃ t, exec c s = .next t
        ∧ Answers s t p 0 (respHeader r.step s.selfId kCURRENT 0 0 (reqTable p) (reqRow p)))

/-- The READ or PROBE `p` is answered FORWARD with the owner `o`, and counted in FORWARDS_SENT (R211). -/
def Sys2Proof.Machine.ForwardedTo (s : State) (c : Instr) (p : Packet) (o : Nat) : Prop :=
  ∃ t, exec c s = .next t ∧ Answers s t p 0 (respHeader 0 o kFORWARD 0 0 (reqTable p) (reqRow p))
    ∧ t.regN pROW 0xF14 = satAdd 32 (s.regN pROW 0xF14) 1

/-- Row requests at the owner (R217, R229). -/
def Obligations.RowRequestsAreAnsweredByTheirOwner : Prop :=
  ∀ (c : Instr) (p : Packet) (s : State), (c = .rowRead p ∧ reqKind p = 1 ∨ c = .versionProbe p ∧ reqKind p = 2) →
    (s.up = true → p.op = 4 → p.dest = s.selfId → s.packetTurn p (s.flowOf p) = false → exec c s = .next (s.waitTurn p))
      ∧ (Arrives s p 4 → Fresh s p →
        (s.settleSeq (reqTable p) (reqSeq p) = .held → ∃ t, exec c s = .next t ∧ HeldBack s t p)
          ∧ (s.settleSeq (reqTable p) (reqSeq p) = .notOwner → ∃ t, exec c s = .next t
              ∧ Answers s t p 0 (respHeader 0 s.selfId kNOT_OWNER 0 0 (reqTable p) (reqRow p))
              ∧ t.regN pROW 0xF20 = satAdd 32 (s.regN pROW 0xF20) 1 ∧ bitOf (t.errStatus pROW) 2 = true)
          ∧ (s.settleSeq (reqTable p) (reqSeq p) = .bad → ∃ t q, exec c s = .next t ∧ t.fab.sent = s.fab.sent ++ [q]
              ∧ q.dest = p.src ∧ q.op = 0x84 ∧ q.poison ≠ 0 ∧ bitOf (t.errStatus pROW) 0 = true)
          ∧ (∀ tab, s.settleSeq (reqTable p) (reqSeq p) = .active tab →
              (∀ o, s.holdOf tab (reqRow p) = .gone o → ForwardedTo s c p o)
                ∧ (s.holdOf tab (reqRow p) = .other → ∃ t, exec c s = .next t
                  ∧ Answers s t p 0 (respHeader 0 s.selfId kNOT_OWNER 0 0 (reqTable p) (reqRow p))
                  ∧ t.regN pROW 0xF20 = satAdd 32 (s.regN pROW 0xF20) 1 ∧ bitOf (t.errStatus pROW) 2 = true)
                ∧ (∀ l, s.holdOf tab (reqRow p) = .own l → ServedFrom s c p tab l))
          ∧ (∀ f, s.settleSeq (reqTable p) (reqSeq p) = .former f →
              (f.rows ≤ reqRow p → f.defaultOwner = s.selfId → ServedFrom s c p f f.defaultLoc)
                ∧ (reqRow p < f.rows →
                  (∀ a y w, s.rows.formerRows.find? (fun e => e.1 == f.id && e.2.1 == reqRow p) = some (a, y, w) →
                      (excState w = eOWNED ∨ excState w = ePROV → ServedFrom s c p f (s.migLoc f (reqRow p) (excSlot w)))
                        ∧ (excState w = eGONE → ForwardedTo s c p (excOwner w)))
                    ∧ (s.rows.formerRows.find? (fun e => e.1 == f.id && e.2.1 == reqRow p) = none →
                      ∀ l, s.mapLoc f (reqRow p) false = some l → ServedFrom s c p f l))))

/-- Settling an update message (R459). -/
def Obligations.UpdateMessagesAreSettledInOrder : Prop :=
  ∀ (c : Instr) (p : Packet) (s : State), Arrives s p 5 → Fresh s p →
    (c = .rowUpdate p ∧ mKind p = kUPDATE ∧ 32 + 4 * mDim p ≤ p.payload.length ∨ c = .route p ∧ mKind p = kNOTICE) →
    let ans := fun (k o : Nat) => respHeader 0 o k 0 0 (mTable p) (mRow p)
    let kept := fun (t : State) => t.rows.merge = s.rows.merge ∧ t.rows.weir = s.rows.weir
    (∀ f, s.settleSeq (mTable p) (mSeq p) = .former f → ∃ t, exec c s = .next t ∧ Answers s t p 0 (ans kMERGED s.selfId)
        ∧ t.regN pROW 0xF38 = satAdd 32 (s.regN pROW 0xF38) 1 ∧ kept t)
      ∧ (s.settleSeq (mTable p) (mSeq p) = .held → ∃ t, exec c s = .next t ∧ HeldBack s t p ∧ kept t)
      ∧ (s.settleSeq (mTable p) (mSeq p) = .notOwner → ∃ t, exec c s = .next t ∧ Answers s t p 0 (ans kNOT_OWNER s.selfId) ∧ kept t)
      ∧ (∀ tab, s.settleSeq (mTable p) (mSeq p) = .active tab → mKind p = kUPDATE → mDim p = tab.dim →
          (∀ o, s.holdOf tab (mRow p) = .gone o → ∃ t, exec c s = .next t ∧ Answers s t p 0 (ans kFORWARD o) ∧ kept t)
            ∧ (s.holdOf tab (mRow p) = .other → ∃ t, exec c s = .next t ∧ Answers s t p 0 (ans kNOT_OWNER s.selfId) ∧ kept t)
            ∧ (∀ l, s.holdOf tab (mRow p) = .own l → s.inWindow (mStep p) = false →
                ∃ t, exec c s = .next t ∧ Answers s t p 0 (ans kSTALE s.selfId)
                  ∧ t.regN pUPD 0xF10 = satAdd 32 (s.regN pUPD 0xF10) 1 ∧ bitOf (t.errStatus pUPD) 1 = true ∧ kept t)
            ∧ (∀ l, s.holdOf tab (mRow p) = .own l → s.inWindow (mStep p) = true →
                (s.rows.weirShut.contains (mStep p) = true ∨ s.heldBefore p = true → ∃ t, exec c s = .next t ∧ HeldBack s t p ∧ kept t)
                  ∧ (s.rows.weirShut.contains (mStep p) = false → s.heldBefore p = false →
                (s.isReplay p = true → ∃ t, exec c s = .next t ∧ Answers s t p 0 (ans kMERGED s.selfId)
                    ∧ t.regN pUPD 0xF0C = satAdd 32 (s.regN pUPD 0xF0C) 1 ∧ kept t)
                  ∧ (s.isReplay p = false → ∀ m : WeirMsg,
                      m = { table := mTable p, row := mRow p, step := mStep p, mult := mMult p, grad := mGrad p, poison := anyBad p } →
                    (s.mergeShut (mergeRegion m.table m.row) = false → s.awake (mergeRegion m.table m.row) = true →
                        ((∃ e, e ∈ s.rows.merge ∧ e.table = m.table ∧ e.row = m.row ∧ e.step = m.step)
                          ∨ (s.mergeRoom (mergeRegion m.table m.row) m.table m.row m.step m.grad.length).isSome = true) →
                        ∃ t e, exec c s = .next t ∧ Answers s t p 0 (ans kMERGED s.selfId) ∧ t.isReplay p = true ∧ e ∈ t.rows.merge
                          ∧ e.table = m.table ∧ e.row = m.row ∧ e.step = m.step ∧ m.grad ∈ e.grads)
                      ∧ (∀ u, (s.take p).mergeGrad m p.payload = .held u → ∃ t, exec c s = .next t ∧ Answers s t p 0 (ans kMERGED s.selfId)
                        ∧ t.rows.merge = u.rows.merge ∧ t.rows.weir = u.rows.weir ∧ t.isReplay p = true)
                      ∧ ((s.take p).mergeGrad m p.payload = .full → ∃ t, exec c s = .next t ∧ HeldBack s t p
                        ∧ bitOf (t.errStatus pUPD) 2 = true ∧ kept t)
                      ∧ (∀ r, (s.take p).mergeGrad m p.payload = .asleep r → ∃ t, exec c s = .next t ∧ HeldBack s t p ∧ kept t)))))
      ∧ (∀ tab, s.settleSeq (mTable p) (mSeq p) = .active tab → mKind p = kNOTICE →
          (s.rows.weirShut.contains (mStep p) = true ∨ s.heldBefore p = true → ∃ t, exec c s = .next t ∧ HeldBack s t p ∧ kept t)
          ∧ (s.rows.weirShut.contains (mStep p) = false → s.heldBefore p = false →
          (s.isReplay p = true → ∃ t, exec c s = .next t ∧ Answers s t p 0 (ans kMERGED s.selfId)
              ∧ t.regN pUPD 0xF0C = satAdd 32 (s.regN pUPD 0xF0C) 1 ∧ t.ext = s.ext ∧ kept t)
            ∧ (s.isReplay p = false → ∃ t, exec c s = .next t ∧ Answers s t p 0 (ans kMERGED s.selfId) ∧ kept t
                ∧ t.isReplay p = true ∧ t.ext = ((s.setHighMark p).recordRoute tab.id (mRow p) (noticeOwner p)).ext)))

/-- Merging (R251, R253, R254). -/
def Obligations.GradientsMergeByKeyAndStep : Prop :=
  ∀ (s : State) (m : WeirMsg) (bytes : List Byte),
    let r := mergeRegion m.table m.row
    let same := fun (e : MergeEnt) => e.table = m.table ∧ e.row = m.row ∧ e.step = m.step
    let toWeir := ∀ res, s.mergeGrad m bytes = res →
      (res = .full ∧ s.weirHalf < s.rows.weirUsed.getD (m.step % 2) 0 + (pad64 bytes).length)
        ∨ ∃ u, res = .held u ∧ u.rows.merge = s.rows.merge ∧ u.rows.weir = s.rows.weir ++ [{ m with
            addr := s.cfgAddr pUPD 0x108 + 4096 + m.step % 2 * s.weirHalf + s.rows.weirUsed.getD (m.step % 2) 0
            bytes := (pad64 bytes).length }]
    (s.mergeShut r = true → toWeir)
      ∧ (s.mergeShut r = false → s.awake r = false → s.mergeGrad m bytes = .asleep r)
      ∧ (s.mergeShut r = false → s.awake r = true →
          ((∃ e, e ∈ s.rows.merge ∧ same e) → ∃ u, s.mergeGrad m bytes = .held u ∧ u.rows.weir = s.rows.weir
              ∧ u.rows.merge.length = s.rows.merge.length
              ∧ ∀ (k : Nat) (e : MergeEnt), s.rows.merge[k]? = some e →
                  (¬same e → u.rows.merge[k]? = some e)
                    ∧ (same e → (∀ j f, j < k → s.rows.merge[j]? = some f → ¬same f) → u.rows.merge[k]? = some { e with
                        mult := (e.mult + m.mult) % 2 ^ 40
                        grads := e.grads ++ [m.grad]
                        poison := (s.seeEntry e).entryBad e || m.poison }))
            ∧ ((∀ e, e ∈ s.rows.merge → ¬same e) →
              (∀ k o, s.mergeRoom r m.table m.row m.step m.grad.length = some (k, o) → ∃ u e, s.mergeGrad m bytes = .held u
                  ∧ u.rows.merge = s.rows.merge ++ [e] ∧ same e ∧ e.region = r ∧ e.place = k ∧ e.ofs = o ∧ e.mult = m.mult ∧ e.grads = [m.grad]
                  ∧ u.rows.weir = s.rows.weir)
                ∧ (s.mergeRoom r m.table m.row m.step m.grad.length = none → toWeir)))

/-- A well-formed response with one of the listed OPs, in its turn, to a request of this engine whose tag is in use for `u`
(R18, R332). -/
def Sys2Proof.Machine.Replies (s : State) (p : Packet) (ops : List Nat) (u : TagUse) : Prop :=
  s.up = true ∧ p.op ∈ ops ∧ p.dest = s.selfId ∧ packetOk p = true ∧ s.packetTurn p (s.flowOf p) = true ∧ s.matches p = true ∧ (s.tagSt p.tag).use = some u

/-- Answers at the requester (R211, R230 to R233, R247, R332). A command that does not apply changes nothing
(assumption 10). -/
def Obligations.AnswersReachTheirRequester : Prop :=
  (∀ (p : Packet) (s : State) (u : TagUse), Replies s p [0x84, 0x85] u → p.status = 0 →
      let v := (s.take p).freeTag p.tag
      (∀ r tid x n pr pf, u = .row r tid x n pr pf → p.op = 0x84 →
          (respKind p = kROW → exec (.row p) s = .next (v.rowCame r tid x pr pf p))
            ∧ (respKind p = kCURRENT → exec (.current p) s = .next ((v.prefetchDone pf).currentCame r tid x)))
        ∧ (respKind p = kNOT_OWNER → (p.op = 0x84 ∨ anyBad p = false) → exec (.notOwner p) s = .next (v.useFailed u fCFG))
        ∧ (respKind p = kNOT_OWNER → p.op = 0x85 → anyBad p = true → exec (.notOwner p) s = .next (v.useFailed u fECC))
        ∧ (respKind p = kSTALE → p.op = 0x85 → exec (.stale p) s = .next (v.useFailed u fCFG))
        ∧ (∀ b i rows x, u = .update b i rows → p.op = 0x85 → respKind p = kMERGED → s.barge? b = some x →
            ∃ t y, exec (.merged p) s = .next t ∧ t.barge? b = some y ∧ y = x.setOp i (fun o => { o with outstanding := o.outstanding - 1 }))
        ∧ (respKind p = kFORWARD → (s.tagSt p.tag).retried = false →
            ∃ t q, exec (.forward p) s = .next t ∧ t.regN pROW 0xF18 = satAdd 32 (s.regN pROW 0xF18) 1
              ∧ t.fab.sent = s.fab.sent ++ [q] ∧ q.dest = respOwner p ∧ q.tag = (s.tagSt p.tag).request.tag
              ∧ q.gen = (s.tagSt p.tag).request.gen ∧ (t.tagSt p.tag).use = some u ∧ (t.tagSt p.tag).gen = (s.tagSt p.tag).gen
              ∧ (t.tagSt p.tag).retried = true)
        ∧ (respKind p = kFORWARD → (s.tagSt p.tag).retried = true →
            exec (.forward p) s = .next ((v.count pROW 0xF1C).useFailed u fFORWARD)))
    ∧ (∀ (c : Instr) (p : Packet) (s : State), s.up = true → p.dest = s.selfId → packetOk p = true → p.op = 0x84 → p.status = 0 →
        s.packetTurn p (s.flowOf p) = true → s.matches p = false →
        (c = .row p ∧ respKind p = kROW ∨ c = .current p ∧ respKind p = kCURRENT ∨ c = .forward p ∧ respKind p = kFORWARD
          ∨ c = .notOwner p ∧ respKind p = kNOT_OWNER) →
        exec c s = .next ((s.take p).count pFAB 0xF10))
    ∧ (∀ (k : Nat) (s : State) (u : TagUse), s.up = true → (s.tagSt k).use = some u →
        ((s.tagSt k).since + s.fabTimeout ≤ s.now →
            exec (.transactionTimeout k) s = .next ((((s.setTagSt k
              { gen := (s.tagSt k).gen, quarantine := some (s.now + s.fabTimeout) }).count pFAB 0xF0C).err pFAB 3).useFailed u fTIMEOUT))
          ∧ (s.now < (s.tagSt k).since + s.fabTimeout → exec (.transactionTimeout k) s = .next s))

/-- Migration (R210, R212, R330). -/
def Obligations.RowsMoveToTheirNewOwner : Prop :=
  (∀ (p : Packet) (s : State), Arrives s p 6 → s.refusedLevel p = false →
      let u := (s.take p).dropStale
      let last := fun (c : Instr) (i : Inbound) =>
        ∃ t, exec c s = .next t ∧ Answers s t p 0 (leBytes 1 (if ((u.dropInbound p).takeRow i).1 then aACCEPT else aREFUSE))
          ∧ t.rows.basin = ((u.dropInbound p).takeRow i).2.rows.basin ∧ t.ext = ((u.dropInbound p).takeRow i).2.ext
          ∧ t.rows.inbound = u.rows.inbound.filter (fun i => !(i.table == mvTable p && i.row == mvRow p && i.src == p.src))
      (∀ i : Inbound, i = { table := mvTable p, row := mvRow p, src := p.src, image := p.payload.drop 16, stateBytes := mvNum p, state := [], step := 0, bad := anyBad p, since := s.now } →
          mvKind p = 1 →
          (mvNum p = 0 → last (.rowOffer p) i)
            ∧ (mvNum p ≠ 0 → ∃ t, exec (.rowOffer p) s = .next t ∧ Answers s t p 0 (leBytes 1 aSTORED) ∧ i ∈ t.rows.inbound ∧ t.ext = s.ext))
        ∧ (mvKind p = 4 →
          ((∀ i, i ∈ u.rows.inbound → ¬(i.table = mvTable p ∧ i.row = mvRow p ∧ i.src = p.src)) →
              ∃ t, exec (.state p) s = .next t ∧ Answers s t p 0 (leBytes 1 aREFUSE) ∧ t.rows = u.rows)
            ∧ (∀ i bs, u.rows.inbound.find? (fun i => i.table == mvTable p && i.row == mvRow p && i.src == p.src) = some i →
                bs = p.payload.drop 16 →
                (i.state.length ≠ mvNum p → ∃ t, exec (.state p) s = .next t ∧ Answers s t p 0 (leBytes 1 aREFUSE) ∧ i ∉ t.rows.inbound)
                  ∧ (i.state.length = mvNum p → i.state.length + bs.length < i.stateBytes →
                    ∃ t, exec (.state p) s = .next t ∧ Answers s t p 0 (leBytes 1 aSTORED) ∧ { i with
                        state := i.state ++ bs, stateBad := i.stateBad || anyBad p, since := s.now } ∈ t.rows.inbound)
                  ∧ (i.state.length = mvNum p → i.stateBytes ≤ i.state.length + bs.length →
                    last (.state p) { i with
                      state := (i.state ++ bs).take i.stateBytes, stateBad := i.stateBad || anyBad p, since := s.now })))
        ∧ (mvKind p = 2 → ∃ t, exec (.moveConfirm p) s = .next t ∧ Answers s t p 0 (leBytes 1 aSTORED)
            ∧ t.ext = (u.settleRow (mvTable p) (mvRow p)).ext ∧ t.rows = (u.settleRow (mvTable p) (mvRow p)).rows)
        ∧ (mvKind p = 3 →
          ∃ t, exec (.query p) s = .next t ∧ t.rows = u.rows ∧ t.ext = s.ext
            ∧ ((∃ a w, s.exc? (mvTable p) (mvRow p) = some (a, w) ∧ (excState w = 3 ∨ excState w = 4) ∧ excOwner w = p.src) →
                Answers s t p 0 (leBytes 1 0x83))
            ∧ ((∀ a w, s.exc? (mvTable p) (mvRow p) = some (a, w) → ¬((excState w = 3 ∨ excState w = 4) ∧ excOwner w = p.src)) →
                Answers s t p 0 (leBytes 1 0x84))))
    ∧ (∀ (c : Instr) (p : Packet) (s : State), Arrives s p 6 → s.refusedLevel p = true →
        (c = .rowOffer p ∧ mvKind p = 1 ∨ c = .moveConfirm p ∧ mvKind p = 2 ∨ c = .query p ∧ mvKind p = 3 ∨ c = .state p ∧ mvKind p = 4) →
        ∃ t, exec c s = .next t ∧ Answers s t p 2 [] ∧ t.rows = s.rows ∧ t.ext = s.ext)
    ∧ (∀ (p : Packet) (s : State) (u : TagUse), Replies s p [0x86] u → p.status = 0 →
        (∀ tid x lp m, u = .move tid x lp → s.move? tid x = some m →
            (mvAnswer p = aACCEPT → exec (.accept p) s = .next (((s.take p).freeTag p.tag).moveAccepted m))
              ∧ (mvAnswer p = aREFUSE → exec (.refuse p) s = .next (((s.take p).freeTag p.tag).moveFailed tid x true))
              ∧ (mvAnswer p = aACCEPT → s.rows.migRest = [] → m.dest ≠ s.selfId → ∀ t0, s.tab m.table = .ok t0 → m.table < 2 ^ 12 → m.row < 2 ^ 40 → m.dest < 2 ^ 13 →
                s.mapOwner m.table m.row ≠ some m.dest →
                (s.excPut m.table m.row (excBits m.table m.row eGONE m.dest 0 ((s.now + s.cfgN pROW 0x140) % 2 ^ 32))).isSome = true →
                ∃ t a w, exec (.accept p) s = .next t ∧ t.move? tid x = none ∧ t.exc? m.table m.row = some (a, w)
                  ∧ excState w = 3 ∧ excOwner w = m.dest)
              ∧ (mvAnswer p = aREFUSE → s.rows.migRest = [] → ∃ t, exec (.refuse p) s = .next t ∧ t.move? tid x = none
                  ∧ t.regN pROW 0xF34 = satAdd 32 (s.regN pROW 0xF34) 1 ∧ t.ext = s.ext)
              ∧ (mvAnswer p = aSTORED → ∃ t, exec (.stored p) s = .next t ∧ t.move? tid x = some { m with unanswered := m.unanswered - 1 }
                  ∧ t.ext = s.ext))
          ∧ (∀ tid x, u = .query tid x →
            let v := (s.take p).freeTag p.tag
            (mvAnswer p = aHELD → exec (.held p) s = .next (v.settleRow tid x))
              ∧ (mvAnswer p = aNOT_HELD → exec (.notHeld p) s = .next (v.giveUpRow tid x))))

/-- Timers of the row store (R208, R210, R212, R213). A command that does not apply changes nothing
(assumption 10). -/
def Obligations.RowTimersRunOut : Prop :=
  ∀ (tid x : Nat) (s : State), s.up = true →
    (∀ a w, s.exc? tid x = some (a, w) → excState w = 3 →
        ((BitVec.ofNat 32 s.now - excExpiry w).toNat < 2 ^ 31 →
            ∃ t v, exec (.goneExpiry tid x) s = .next t ∧ t.exc? tid x = some (a, v) ∧ excState v = 4 ∧ excOwner v = excOwner w
              ∧ ∀ k, ¬(a ≤ k ∧ k < a + 16) → t.ext.get k = s.ext.get k)
          ∧ (2 ^ 31 ≤ (BitVec.ofNat 32 s.now - excExpiry w).toNat → exec (.goneExpiry tid x) s = .next s))
      ∧ (∀ a w e, s.exc? tid x = some (a, w) → excState w = 2 →
          s.rows.provisional.find? (fun e => e.1 == tid && e.2.1 == x) = some e →
          (e.2.2 + s.fabTimeout ≤ s.now → s.tagsFull = false →
              ∃ t q, exec (.provisionalProbe tid x) s = .next t ∧ t.fab.sent = s.fab.sent ++ [q] ∧ q.dest = excOwner w ∧ q.op = 6
                ∧ q.payload = moveHeader 3 0 tid x
                ∧ t.rows.provisional.find? (fun e => e.1 == tid && e.2.1 == x) = some (tid, x, s.now) ∧ t.ext = s.ext)
            ∧ (s.now < e.2.2 + s.fabTimeout → exec (.provisionalProbe tid x) s = .next s))
      ∧ (s.rows.adopted = true → s.cfgN pROW 0x140 ≠ 0 → s.rows.windowStart + s.cfgN pROW 0x140 ≤ s.now →
          ∃ t, exec .skewWindowEnd s = .next t ∧ t.rows.windowNo = s.rows.windowNo + 1
            ∧ t.rows.windowStart = s.rows.windowStart + s.cfgN pROW 0x140 ∧ t.rows.skew = [] ∧ t.rows.closedInWindow = false
            ∧ t.reg pROW 0xF00 = BitVec.ofNat 32 s.rows.windowNo
            ∧ (s.rows.closedInWindow = false → t.rows.promote = [] ∧ t.rows.demote = []) ∧ t.hostMem = s.hostMem ∧ t.imem = s.imem)
      ∧ (s.rows.adopted = false ∨ s.cfgN pROW 0x140 = 0 ∨ s.now < s.rows.windowStart + s.cfgN pROW 0x140 →
          exec .skewWindowEnd s = .next s)

/-- Address-based requests (R318, R331). -/
def Obligations.MemoryRequestsAreServed : Prop :=
  ∀ (c : Instr) (p : Packet) (s : State),
    (c = .read p ∧ Arrives s p 1 ∨ c = .write p ∧ Arrives s p 2 ∨ c = .fetchAdd p ∧ Arrives s p 3 ∨ c = .test p ∧ Arrives s p 9) →
    let n := if p.op = 3 then 8 else p.len
    let aligned := if p.op = 3 then p.addr % 8 = 0 ∧ p.len = 0 else p.addr % 64 = 0 ∧ 64 ≤ p.len ∧ p.len ≤ 4096 ∧ p.len % 64 = 0
    (idRack p.src ≠ idRack s.selfId → ∃ t, exec c s = .next t ∧ Answers s t p 2 [] ∧ t.ext = s.ext)
      ∧ (idRack p.src = idRack s.selfId → p.op ≠ 9 →
          (¬aligned ∨ s.populated < p.addr + n → ∃ t, exec c s = .next t ∧ Answers s t p 1 [] ∧ t.ext = s.ext)
            ∧ (aligned → p.addr + n ≤ s.populated → s.rangeOpen p.addr n = true →
              ∃ t, exec c s = .next t ∧ p ∈ t.fab.inbox ∧ t.fab.sent = s.fab.sent ∧ t.ext = s.ext)
            ∧ (aligned → p.addr + n ≤ s.populated → s.rangeOpen p.addr n = false →
              ∃ t q, exec c s = .next t ∧ t.fab.sent = s.fab.sent ++ [q] ∧ q.dest = p.src ∧ q.tag = p.tag ∧ q.gen = p.gen
                ∧ q.op = p.op + 0x80 ∧ q.status = 0
                ∧ (p.op = 1 → t.ext = s.ext ∧ (p.vc ≠ 5 ∨ s.kvAbove p.addr p.len = [] → q.payload = s.ext? p.addr p.len)
                    ∧ (p.vc = 5 → q.payload.length = p.len
                      ∧ (∀ o, o < p.len → (∀ h, h ∈ s.kvAbove p.addr p.len → ¬(h.2.1 ≤ p.addr + o ∧ p.addr + o < h.2.1 + h.2.2)) →
                          q.payload.getD o 0 = s.ext.get (p.addr + o))
                      ∧ ∀ h, (s.kvAbove p.addr p.len).head? = some h → q.imm = BitVec.ofNat 64 (s.berth h.1).committed))
                ∧ (p.op = 2 → q.payload = [] ∧ (∀ o, o < p.len → t.ext.get (p.addr + o) = p.payload.getD o 0)
                    ∧ (∀ a, ¬(p.addr ≤ a ∧ a < p.addr + p.len) → t.ext.get a = s.ext.get a)
                    ∧ (∀ i, i < p.len / 64 → unitBad p i = true → t.extPoison (p.addr + 64 * i) 64 = true))
                ∧ (p.op = 3 → q.imm = BitVec.ofNat 64 (s.extNat p.addr 8)
                    ∧ t.extNat p.addr 8 = (s.extNat p.addr 8 + p.imm.toNat) % 2 ^ 64
                    ∧ (∀ a, ¬(p.addr ≤ a ∧ a < p.addr + 8) → t.ext.get a = s.ext.get a))))
      ∧ (idRack p.src = idRack s.selfId → p.op = 9 →
          (s.weight 7 = 0 → ∃ t, exec c s = .next t ∧ Answers s t p 3 [] ∧ t.ext = s.ext)
            ∧ (s.weight 7 ≠ 0 → ∃ t, exec c s = .next t ∧ t.fab.sent = s.fab.sent ++ [response s p 0 p.payload 0 p.poison] ∧ t.ext = s.ext))

/-- Responses, forwards and timers of the fabric (R331 to R333, R336). A command that does not apply changes nothing
(assumption 10). -/
def Obligations.FabricTimersAndForwards : Prop :=
  (∀ (p : Packet) (s : State) (b i : Nat) (x : Barge), Replies s p [0x81, 0x82, 0x83, 0x89] (.fetchAdd b i) → s.barge? b = some x →
      (p.status = 0 → ∃ t y, exec (.response p) s = .next t ∧ t.barge? b = some y
          ∧ y = x.setOp i (fun o => { o with outstanding := o.outstanding - 1 }))
        ∧ (p.status ≠ 0 → x.failed = none → ∃ t y, exec (.response p) s = .next t ∧ t.barge? b = some y ∧ y.failed = some fCFG))
    ∧ (∀ (n : Nat) (p : Packet) (s : State), s.up = true →
        (p.dest = s.selfId → exec (.packetForward n p) s = .next s)
          ∧ (p.dest ≠ s.selfId → s.packetTurn p (s.flowThrough n p) = false → exec (.packetForward n p) s = .next (s.waitTurn p))
          ∧ (p.dest ≠ s.selfId → s.packetTurn p (s.flowThrough n p) = true → packetOk p = true →
            let u := s.take p
            (s.isolated pFAB = true → exec (.packetForward n p) s = .next u)
              ∧ (s.isolated pFAB = false → portStage n = 1 → crossesRacks p.op = false →
                ∃ t, exec (.packetForward n p) s = .next t ∧ t.fab = u.fab ∧ t.regN pFAB 0xF1C = satAdd 32 (s.regN pFAB 0xF1C) 1
                  ∧ bitOf (t.errStatus pFAB) 4 = true)
              ∧ (s.isolated pFAB = false → (portStage n ≠ 1 ∨ crossesRacks p.op = true) →
                exec (.packetForward n p) s = .next ((u.count pFAB 0xF18).sendOut p (some n))
                  ∧ (s.stageTo p.dest ≠ 0 → s.route p (some n) = none →
                    ∃ t, exec (.packetForward n p) s = .next t ∧ t.fab = u.fab ∧ bitOf (t.errStatus pFAB) 5 = true))))
    ∧ (∀ (k e : Nat) (s : State), s.up = true → (s.tagSt k).quarantine = some e →
        (e ≤ s.now → exec (.tagQuarantineExpiry k) s = .next (s.freeTag k)
            ∧ (s.fab.waiting = [] → ((s.freeTag k).tagSt k).taken = false ∧ ((s.freeTag k).tagSt k).gen = (s.tagSt k).gen))
          ∧ (s.now < e → exec (.tagQuarantineExpiry k) s = .next s))
    ∧ (∀ (k : Nat) (s : State), s.up = true →
        (∀ h, s.fab.heldReqs[k]? = some h → h.since + s.fabTimeout ≤ s.now →
            ∃ t, exec (.heldRequestDiscard k) s = .next t ∧ t.fab = { s.fab with heldReqs := s.fab.heldReqs.eraseIdx k }
              ∧ t.regN pFAB 0xF24 = satAdd 32 (s.regN pFAB 0xF24) 1)
          ∧ ((∀ h, s.fab.heldReqs[k]? = some h → s.now < h.since + s.fabTimeout) → exec (.heldRequestDiscard k) s = .next s))

/-- A flit with a good CRC and a listed kind, of the given kind, at a port that is UP (R323). -/
def Sys2Proof.Machine.GoodFlit (s : State) (n : Nat) (f : BitVec 512) (kind : Nat) : Prop :=
  s.up = true ∧ (s.fport n).st = .up ∧ flitGood f = true ∧ flitKind f = kind

/-- Received flits (R324 to R326). -/
def Obligations.FlitsAreAcceptedInOrder : Prop :=
  ∀ (n : Nat) (f : BitVec 512) (s : State),
    let x := s.fport n
    let u := s.ackFlits n (flitAck f)
    (GoodFlit s n f 0 →
        (flitSeq f = x.rxExpect → ∃ t, exec (.data n f false) s = .next t ∧ (t.fport n).rxExpect = (x.rxExpect + 1) % 4096
            ∧ (t.fport n).nakked = false
            ∧ (flitFrame f = 3 → (∀ r, r ∈ x.receiving → r.1 ≠ flitVc f) → ∀ p, p = packetOf (flitContent f) → packetOk p = true →
                p.vc = flitVc f → pktFlits p = 1 → t.fab.inbox = s.fab.inbox ++ [p]))
          ∧ (flitSeq f ≠ x.rxExpect → seqCovers (flitSeq f) x.rxExpect = true → ∃ t, exec (.data n f false) s = .next t
            ∧ t.fab.inbox = s.fab.inbox ∧ (t.fport n).rxExpect = x.rxExpect ∧ t.regN pFAB 0xF14 = satAdd 32 (s.regN pFAB 0xF14) 1)
          ∧ (flitSeq f ≠ x.rxExpect → seqCovers (flitSeq f) x.rxExpect = false → ∃ t, exec (.data n f false) s = .next t
            ∧ t.fab.inbox = s.fab.inbox ∧ (t.fport n).rxExpect = x.rxExpect ∧ (t.fport n).nakked = true
            ∧ (x.nakked = false → ∃ g, (t.fport n).control = x.control ++ [g] ∧ flitGood g = true ∧ flitKind g = 1
                ∧ leNat ((flitContent g).take 2) = x.rxExpect % 2 ^ 16)
            ∧ (x.nakked = true → (t.fport n).control = x.control)))
      ∧ (∀ mark, s.up = true → x.st = .up ∨ x.st = .init → mark = true ∨ flitGood f = false →
          ∃ t, exec (.data n f mark) s = .next t ∧ (t.fport n).crcErrs = satAdd 32 x.crcErrs 1 ∧ (t.fport n).nakked = true
            ∧ (t.fport n).rxExpect = x.rxExpect ∧ (t.fport n).replay = x.replay ∧ t.fab.inbox = s.fab.inbox)
      ∧ (GoodFlit s n f 1 → exec (.nak n f) s = .next (u.resend n (leNat ((flitContent f).take 2) % 4096))
          ∧ (x.queue = [] → ∀ g k, g ∈ x.replay → k = leNat ((flitContent f).take 2) % 4096 →
              seqCovers g.seq (flitAck f) = false → seqCovers k g.seq = true →
              (7 ≤ g.sends → ∃ t, exec (.nak n f) s = .next t ∧ (t.fport n).st = .down ∧ (t.fport n).replay = [])
                ∧ ((∀ h, h ∈ x.replay → h.sends < 7) → ∃ t, exec (.nak n f) s = .next t ∧ (t.fport n).st = .up
                  ∧ { g with sends := g.sends + 1 } ∈ (t.fport n).replay)))
      ∧ (GoodFlit s n f 2 → exec (.credit n f) s = .next (u.creditFlit n (flitContent f))
          ∧ (x.queue = [] → ∃ t, exec (.credit n f) s = .next t ∧ ∀ vc cls, vc < 8 → cls < 2 →
              (t.fport n).credit vc cls = x.credit vc cls + leNat (((flitContent f).drop (2 * (2 * vc + cls))).take 2)))
      ∧ (GoodFlit s n f 3 → exec (.idle n f) s = .next u)
      ∧ (x.queue = [] → (u.fport n).replay = x.replay.filter (fun g => !seqCovers g.seq (flitAck f))
          ∧ (∀ k, k ≠ n → u.fport k = s.fport k) ∧ u.fab.inbox = s.fab.inbox ∧ u.ext = s.ext)

/-- Link states (R321, R325, R437). A command that does not apply changes nothing
(assumption 10). -/
def Obligations.LinksComeUpAndGoDown : Prop :=
  ∀ (n : Nat) (s : State), s.up = true →
    let x := s.fport n
    let down := fun (t : State) => (t.fport n).st = .down ∧ (t.fport n).replay = [] ∧ (t.fport n).queue = [] ∧ (t.fport n).receiving = []
      ∧ bitOf (t.errStatus pFAB) 0 = true ∧ (∀ k, k ≠ n → t.fport k = s.fport k) ∧ t.fab.tags = s.fab.tags
      ∧ t.fab.inbox = (s.fab.arrivals.filter (fun a => a.2 == n)).foldl (fun l a => l.erase a.1) s.fab.inbox
      ∧ t.fab.arrivals = s.fab.arrivals.filter (fun a => !(a.2 == n))
    (x.st = .training → x.retrain = none → ∃ t g, exec (.pcsLock n) s = .next t ∧ (t.fport n).st = .init
        ∧ (t.fport n).control = x.control ++ [g] ∧ flitGood g = true ∧ flitKind g = 4 ∧ (flitContent g).take 8 = s.initContent n)
      ∧ (x.st ≠ .training ∨ x.retrain.isSome = true → exec (.pcsLock n) s = .next s)
      ∧ (∀ f peer pport, x.st = .init → flitGood f = true → flitKind f = 4 → peer = leNat ((flitContent f).take 2) % 2 ^ 13 →
          pport = leNat (((flitContent f).drop 2).take 1) % 32 →
          ∃ t, exec (.linkInit n f) s = .next t ∧ (t.fport n).peer = peer ∧ (t.fport n).peerPort = pport
            ∧ (t.fport n).peerStrap = leNat (((flitContent f).drop 3).take 1)
            ∧ (s.expectedPeer n = some (peer, pport) → (t.fport n).st = .up)
            ∧ (s.expectedPeer n ≠ some (peer, pport) → (t.fport n).st = .miswired ∧ bitOf (t.errStatus pFAB) 2 = true))
      ∧ (x.st = .up ∨ x.st = .init → ∃ t, exec (.pcsLockLoss n) s = .next t ∧ down t)
      ∧ (x.st ≠ .up → x.st ≠ .init → exec (.pcsLockLoss n) s = .next s)
      ∧ (∀ f fs, x.st = .up → x.replay = f :: fs →
          (f.since + s.cfgN pFAB 0x114 ≤ s.now → ∃ t, exec (.replayTimeout n) s = .next t ∧ down t)
            ∧ (s.now < f.since + s.cfgN pFAB 0x114 → exec (.replayTimeout n) s = .next s))
      ∧ (∀ e, x.retrain = some e →
          (e ≤ s.now → ∃ t, exec (.retrainRelease n) s = .next t ∧ t.fport n = { x with retrain := none }
              ∧ ∀ k, k ≠ n → t.fport k = s.fport k)
            ∧ (s.now < e → exec (.retrainRelease n) s = .next s))

/-- Encodings of the fabric (R323, R328). -/
def Obligations.PacketsAndFlitsReadBack : Prop :=
  (∀ (seq ack vc frame kind : Nat) (c : List Byte), kind ≤ 4 →
      let f := flitOf seq ack vc frame kind c
      flitGood f = true ∧ flitSeq f = seq % 4096 ∧ flitAck f = ack % 4096 ∧ flitVc f = vc % 8 ∧ flitFrame f = frame % 4
        ∧ flitKind f = kind ∧ flitContent f = (c ++ List.replicate 56 0).take 56)
    ∧ (∀ (p : Packet) (pad : List Byte), packetOk p = true → p.addr < 2 ^ 44 → p.dest < 2 ^ 13 → p.src < 2 ^ 13 → p.tag < 2 ^ 17 →
        p.gen < 8 → p.vc < 8 → p.op < 256 → p.len < 2 ^ 13 → p.status < 16 → p.rdir < 4 → p.epoch < 256 →
        packetOf (pktBytes p ++ pad) = p)

/-- A well-formed bell message of a listed kind for this engine (R329, R362). -/
def Sys2Proof.Machine.BellArrives (s : State) (p : Packet) (m : BellMsg) (kind : Nat) : Prop :=
  Arrives s p 8 ∧ m = bellMsg p ∧ m.kind = kind ∧ 1 ≤ kind ∧ kind ≤ 9

/-- A bell message from the master that this engine takes as a member, no tier of its level being held here (R363). -/
def Sys2Proof.Machine.ReachesMember (s : State) (p : Packet) (m : BellMsg) : Prop :=
  m.down = true ∧ (p.src = s.selfId ∨ s.tiersHeld m.key.level = 0)

/-- Bell messages on their way up (R363). -/
def Obligations.BellContributionsAreCombined : Prop :=
  ∀ (c : Instr) (p : Packet) (s : State) (m : BellMsg) (kind t : Nat), BellArrives s p m kind → m.down = false →
    (c = .arrive p ∧ kind = 1 ∨ c = .offer p ∧ kind = 3 ∨ c = .bellBarrier p ∧ kind = 5 ∨ c = .scalar p ∧ kind = 6
      ∨ c = .bellSeal p ∧ kind = 7 ∨ c = .abandon p ∧ kind = 9) →
    (s.tierFrom m.key.level p.src = none → exec c s = .next (s.take p))
      ∧ (s.tierFrom m.key.level p.src = some t →
          let u := s.take p
          let e := (s.tierOf t m).add p.src m
          exec c s = .next (State.bellUp 4 u t p.src m)
            ∧ (∀ r, (kind ≠ 9 ∨ m.key.barrier = false) → s.bellResult? m = some r →
                ∃ t', exec c s = .next t' ∧ t'.fab.sent = s.fab.sent ++ [{ r with dest := p.src }] ∧ t'.col = s.col)
            ∧ (kind ≠ 9 → s.bellResult? m = none →
                (p.src ∈ (s.tierOf t m).from_ ∨ (s.tierOf t m).passed = true → exec c s = .next u)
                  ∧ (p.src ∉ (s.tierOf t m).from_ → (s.tierOf t m).passed = false →
                    (s.tierOf t m).count + m.count < s.tierNeed t →
                    ∃ t', exec c s = .next t' ∧ t'.fab.sent = s.fab.sent ∧ e ∈ t'.col.tiers ∧ e.count = (s.tierOf t m).count + m.count
                      ∧ e.from_ = (s.tierOf t m).from_ ++ [p.src] ∧ e.values = (s.tierOf t m).values ++ [m.value]
                      ∧ e.fail = ((s.tierOf t m).fail || m.fail) ∧ t'.col.waits = s.col.waits ∧ t'.col.results = s.col.results))
            ∧ (kind = 9 → m.key.barrier = false → s.bellResult? m = none → t = m.key.level → p.src ≠ s.selfId →
                ∃ t' q, exec c s = .next t' ∧ q ∈ t'.fab.sent ∧ q.dest = p.src ∧ q.op = 8 ∧ (bellMsg q).kind = 8
                  ∧ (bellMsg q).down = true))

/-- Bell messages on their way down (R354, R360, R361, R364). -/
def Obligations.BellResultsReachTheMember : Prop :=
  ∀ (p : Packet) (s : State) (m : BellMsg) (kind : Nat), BellArrives s p m kind → ReachesMember s p m →
    let u := (if s.col.waits.any fun x => x.key == m.key && downKind x.kind == m.kind then (s.take p).noteRecv p.src m
      else s.take p).answered m
    (kind = 2 → exec (.grant p) s = .next (u.seqArrives m.key m.seq))
      ∧ (kind = 4 → exec (.segment p) s = .next (u.segmentArrives m)
          ∧ (∀ c x, s.ctx? (fun c => c.key == m.key && c.phase == .offered) = some c → leNat (m.value.take 4) = 0 →
              s.barge? c.b = some x → x.failed = none →
              ∃ t y, exec (.segment p) s = .next t ∧ t.barge? c.b = some y ∧ y.failed = some fCAPACITY))
      ∧ (kind = 5 → exec (.bellBarrier p) s = .next ((u.col.barriers.filter fun x => x.key == m.key && x.entered).foldl
          (fun s x => s.barrierDone x) (u.seqArrives m.key m.seq)))
      ∧ (kind = 6 → exec (.scalar p) s = .next (u.scalarArrives m))
      ∧ (kind = 7 → exec (.bellSeal p) s = .next (u.verdict m)
          ∧ (∀ c x, s.ctx? (fun c => c.key == m.key && c.attempt == m.attempt && (c.phase == .sealing
                || (m.fail && (c.phase == .complete || c.phase == .moving)))) = some c →
              s.barge? c.b = some x → x.failed = none →
              (m.fail = false → ∃ t y, exec (.bellSeal p) s = .next t ∧ (∀ d, d ∈ t.col.ctxs → d.slot ≠ c.slot) ∧ t.barge? c.b = some y
                  ∧ (c.early = false → ∀ o, y.ops[c.i]? = some o → o.st = .complete)
                  ∧ (∀ k o, c.sealRec = some k → y.ops[k]? = some o → o.st = .complete))
                ∧ (m.fail = true → ∃ t, exec (.bellSeal p) s = .next t ∧ t.regN pCOL 0xF1C = satAdd 32 (s.regN pCOL 0xF1C) 1
                  ∧ bitOf (t.errStatus pCOL) 2 = true
                  ∧ (c.attempt = 0 → ∃ d, t.ctx? (·.slot == c.slot) = some d ∧ d.attempt = 1 ∧ d.phase = .opened ∧ d.fail = false
                      ∧ d.work = [] ∧ d.sealRec = none)
                  ∧ (c.attempt ≠ 0 → ∃ y, t.barge? c.b = some y ∧ y.failed = some fSEAL))))
      ∧ (kind = 8 → ∀ c x, s.ctx? (fun c => c.key == m.key && c.phase != .closed) = some c → s.barge? c.b = some x → x.failed = none →
          ∃ t y, exec (.abort p) s = .next t ∧ bitOf (t.errStatus pCOL) 3 = true ∧ t.barge? c.b = some y
            ∧ y.failed = some (if leNat (m.value.take 1) = 1 then fCFG else fSEAL))

/-- Pieces (R358) and timers (R360, R361, R363, R365). -/
def Obligations.PiecesAndCollectiveTimers : Prop :=
  (∀ (p : Packet) (s : State) (h : PieceHdr), Arrives s p 7 → h = pieceHdr p →
      let open_ := fun (c : Ctx) => c.key.level == h.level && c.seq == some h.seq
      ((∀ c, s.ctx? open_ = some c → c.attempt ≠ h.attempt) → ∃ t, exec (.collPiece p) s = .next t ∧ t.col = s.col
          ∧ t.regN pCOL 0xF20 = satAdd 32 (s.regN pCOL 0xF20) 1 ∧ bitOf (t.errStatus pCOL) 0 = true)
        ∧ (∀ c, s.ctx? open_ = some c → c.attempt = h.attempt → s.ctxLive c = true →
          ((c.phase = .arriving ∨ c.phase = .offered ∨ c.phase = .opened) → exec (.collPiece p) s = .next ((s.take p).putBack p))
            ∧ (c.phase = .moving → c.kind ≠ 3 →
              (s.expected c h (p.payload.length - 64) = true → exec (.collPiece p) s = .next ((s.take p).takePiece c p h))
                ∧ (s.expected c h (p.payload.length - 64) = false →
                  exec (.collPiece p) s = .next (if laterStep c h then (s.take p).putBack p else s.take p)))))
    ∧ (∀ (slot : Nat) (s : State) (c : Ctx), s.up = true → s.ctx? (·.slot == slot) = some c → c.phase = .moving → c.kind ≠ 3 →
        s.ctxLive c = true →
        (c.lastRx + s.fabTimeout ≤ s.now → ∃ t d, exec (.pieceTimeout slot) s = .next t ∧ t.ctx? (·.slot == slot) = some d
            ∧ d.fail = true ∧ (d.phase = .complete ∨ d.phase = .sealing))
          ∧ (s.now < c.lastRx + s.fabTimeout → exec (.pieceTimeout slot) s = .next s))
    ∧ (∀ (level seq : Nat) (s : State) (e : Tier), s.up = true →
        s.col.tiers.find? (fun e => e.kind == bSEAL && e.key.level == level && e.tier == level && e.seq == seq && !e.passed) = some e →
        (e.since + s.fabTimeout ≤ s.now → ∃ t q rest, exec (.sealTimeout level seq) s = .next t ∧ t.col.results = (level, q) :: rest
            ∧ (bellMsg q).fail = true ∧ (bellMsg q).kind = 7 ∧ (bellMsg q).down = true)
          ∧ (s.now < e.since + s.fabTimeout → exec (.sealTimeout level seq) s = .next s))
    ∧ (∀ (k : Nat) (s : State) (x : BellWait), s.up = true → s.col.waits[k]? = some x →
        (x.since + s.cfgN pCOL 0x120 ≤ s.now → ∃ t, exec (.bellResend k) s = .next t ∧ t.fab.sent = s.fab.sent ++ [x.p]
            ∧ t.col.waits[k]? = some { x with since := s.now } ∧ t.regN pCOL 0xF28 = satAdd 32 (s.regN pCOL 0xF28) 1)
          ∧ (s.now < x.since + s.cfgN pCOL 0x120 → exec (.bellResend k) s = .next s))
    ∧ (∀ (b i : Nat) (s : State) (x : Barge), s.up = true → s.barge? b = some x → x.failed = none →
        ((∃ c, c ∈ s.col.ctxs ∧ c.b = b ∧ c.i = i ∧ (c.phase = .arriving ∨ c.phase = .offered)) ∨ (∃ z, z ∈ s.col.barriers ∧ z.b = b ∧ z.i = i)) →
        (s.cfgN pCOL 0x124 ≠ 0 → (x.op i).issued + s.cfgN pCOL 0x124 ≤ s.now →
            ∃ t y, exec (.collLimitExpiry b i) s = .next t ∧ t.barge? b = some y ∧ y.failed = some fTIMEOUT
              ∧ t.regN pCOL 0xF2C = satAdd 32 (s.regN pCOL 0xF2C) 1)
          ∧ (s.cfgN pCOL 0x124 = 0 ∨ s.now < (x.op i).issued + s.cfgN pCOL 0x124 → exec (.collLimitExpiry b i) s = .next s))

/-- What a reset event of the given class leaves (R386, R387). -/
def Sys2Proof.Machine.TookHold (s t : State) (full : Bool) : Prop :=
  t.rst.active = true ∧ t.rst.full = full ∧ t.rst.step = 0 ∧ t.rst.halted = false ∧ t.rst.locked = [] ∧ t.rst.portsReady = []
    ∧ t.rst.vbakLost = s.rst.vbakLost
    ∧ (∀ a, SMap.get regReset t.regs a = if a = 0x1F18 then SMap.get regReset s.regs a &&& 0xFFF8F
        else if 0x1F00 ≤ a ∧ a ≤ 0x1F14 then SMap.get regReset s.regs a else regReset a)
    ∧ t.imem = (if full then [] else s.imem)
    ∧ (full = true → t.ext = [] ∧ t.tags = [])
    ∧ (full = false → t.ext = s.cutFlips.ext ∧ t.tags = s.cutFlips.tags)
    ∧ (full = false → (∀ m, m < 16 → (s.mooring m).rewriting = false) → t.ext = s.ext ∧ t.tags = s.tags)
    ∧ (full = false → t.hostMem = (s.hq.dmaWrites.filter fun w => w.tag < 256).foldl (fun m w => Mem.write m w.addr w.bytes) s.hostMem)
    ∧ (full = true → t.hostMem = s.hostMem)
    ∧ t.scratch = [] ∧ t.pool = [] ∧ t.pound = [] ∧ t.marks = [] ∧ t.regions = [] ∧ t.gathers = [] ∧ t.sv = {} ∧ t.col = {}
    ∧ t.hq.items = [] ∧ t.hq.sqs = [] ∧ t.hq.cqs = [] ∧ t.hq.dmaWrites = [] ∧ t.hq.configured = false
    ∧ t.fab.ports = [] ∧ t.fab.tags = [] ∧ t.fab.inbox = [] ∧ t.fab.heldReqs = [] ∧ t.fab.waiting = []
    ∧ t.aoUs = s.aoUs ∧ t.params = s.params

/-- A command by which a source asserts (R384): the detection of its row of the table holds. -/
def Sys2Proof.Machine.Asserts (s : State) (c : Instr) (src : ResetSource) : Prop :=
  (c = .powerOn ∧ src = .powerOn) ∨ (c = .brownOut ∧ src = .brownOut) ∨ (c = .pinReset ∧ src = .pin)
    ∨ (c = .engReset ∧ src = .debug)
    ∨ (c = .watchdog ∧ src = .watchdog ∧ s.live = true ∧ bitOf (s.reg pRST 0x064) 31 = true ∧ fld (s.reg pRST 0x064) 15 0 ≠ 0
        ∧ 4096 * fld (s.reg pRST 0x064) 15 0 ≤ 100 * (s.now - s.rst.wdtSince))
    ∨ (∃ w, c = .swReset w ∧ src = .software ∧ s.live = true ∧ fld w 31 16 = 0x0C07 ∧ bitOf w 0 = true)
    ∨ (∃ k, c = .clockFailure k ∧ src = .clkFail ∧ s.canLose k = true)
    ∨ (c = .lockUp ∧ src = .lockUp ∧ s.live = true ∧ bitOf (s.reg pKEEP oCTRL) 0 = true)

/-- Reset events (R384 to R387). A command that does not apply changes nothing
(assumption 10). -/
def Obligations.ResetSourcesTakeHold : Prop :=
  (∀ (c : Instr) (src : ResetSource) (s : State), Asserts s c src →
      let u : State := if c = .engReset then { s with tap := { s.tap with ir := 0x21 } } else s
      (s.rst.active = false → ∃ t, exec c s = .next t ∧ t.rst.sources = [src] ∧ TookHold s t src.full
          ∧ t.tap = if src.full then {} else u.tap)
        ∧ (s.rst.active = true → ∃ t, exec c s = .next t ∧ t.rst.active = true
          ∧ t.rst.sources = (if s.rst.sources.contains src then s.rst.sources else s.rst.sources ++ [src])
          ∧ (src.full = true → s.rst.full = false → TookHold s t true ∧ t.tap = {})
          ∧ (src.full = false ∨ s.rst.full = true →
              t.regs = s.regs ∧ t.ext = s.ext ∧ t.imem = s.imem ∧ t.rst.full = s.rst.full ∧ t.tap = u.tap)))
    ∧ (∀ (w : Word) (s : State), fld w 31 16 ≠ 0x0C07 ∨ bitOf w 0 = false → exec (.swReset w) s = .next s)
    ∧ (∀ s : State, ¬Asserts s .watchdog .watchdog → exec .watchdog s = .next s)
    ∧ (∀ (k : ClockLoss) (s : State), s.canLose k = false → exec (.clockFailure k) s = .next s)
    ∧ (∀ s : State, ¬Asserts s .lockUp .lockUp → exec .lockUp s = .next s)

/-- The release of an event (R385, R388, R390). A command that does not apply changes nothing
(assumption 10). -/
def Obligations.ReleaseRecordsTheEvent : Prop :=
  (∀ (mv : Nat) (s : State), s.rst.active = true →
      let srcs := s.rst.sources
      ∃ t, exec (.resetRelease mv) s = .next t ∧ t.rst.active = false ∧ t.rst.sources = [] ∧ t.rst.step = 3 ∧ t.rst.vbakLost = false
        ∧ t.regN pRST 0xF00 < 512 ∧ nbit (t.regN pRST 0xF00) 8 = s.rst.vbakLost
        ∧ (∀ x : ResetSource, nbit (t.regN pRST 0xF00) x.cause = srcs.contains x
            ∧ nfld (t.regN pRST x.counter.1) (x.counter.2 + 15) x.counter.2
              = satAdd 16 (nfld (s.regN pRST x.counter.1) (x.counter.2 + 15) x.counter.2) (srcs.count x))
        ∧ t.regN pRST 0xF14 = (s.regN pRST 0xF14 + 1) % 2 ^ 32
        ∧ ((.powerOn ∈ srcs ∨ .brownOut ∈ srcs ∨ .pin ∈ srcs) →
            (mv < 800 → t.regN pRST 0xF18 = mv * 256 + mv / 50)
              ∧ (800 ≤ mv → t.regN pRST 0xF18 = min mv 4095 * 256 + 128 ∧ bitOf (t.errStatus pRST) 0 = true))
        ∧ (.powerOn ∉ srcs → .brownOut ∉ srcs → .pin ∉ srcs → t.reg pRST 0xF18 = s.reg pRST 0xF18)
        ∧ t.ext = s.ext ∧ t.imem = s.imem ∧ t.tap = s.tap)
    ∧ (∀ (mv : Nat) (s : State), s.rst.active = false → exec (.resetRelease mv) s = .next s)
    ∧ (∀ s : State, ∃ t, exec .vbakLoss s = .next t ∧ t.rst = { s.rst with vbakLost := true }
        ∧ ∀ a, SMap.get regReset t.regs a = if 0x1F00 ≤ a ∧ a ≤ 0x1F14 then regReset a else SMap.get regReset s.regs a)

/-- Clocks, steps of the release and the watchdog (R392 to R395, R399). -/
def Obligations.ClocksBringTheEngineUp : Prop :=
  (∀ (c : Nat) (s : State), s.live = true →
      (c = 8 ∨ c = 9 → s.params.ok = true → s.rst.locked.contains c = false →
          ∃ t, exec (.pllLock c) s = .next t ∧ t.rst.locked = s.rst.locked ++ [c]
            ∧ t.rst.step = if s.rst.step = 3 ∧ s.rst.locked.contains (17 - c) = true then 4 else s.rst.step)
        ∧ (c < 8 → s.params.ok = true → s.up = true → s.wantsPll c = true → s.rst.locked.contains c = false →
          exec (.pllLock c) s = .next { s with rst := { s.rst with locked := s.rst.locked ++ [c] } })
        ∧ (s.rst.locked.contains c = true ∨ 10 ≤ c ∨ (c < 8 ∧ s.wantsPll c = false) → exec (.pllLock c) s = .next s))
    ∧ (∀ (c n : Nat) (s : State), s.live = true → c < 26 →
        let e := if c ≤ 8 then 2457600 else if c = 9 then 6553600 else s.params.mclkMhz * 4096
        let passes := 98 * e ≤ 10000 * n ∧ 10000 * n ≤ 102 * e ∧ c ∉ s.armed.clock
        (s.monitored c = false → exec (.monitorWindow c n) s = .next s)
          ∧ (s.monitored c = true → passes → ∃ t, exec (.monitorWindow c n) s = .next t ∧ t.clkGood c = true
            ∧ SMap.get (fun _ => 0) t.rst.counts c = n ∧ t.rst.active = false ∧ (∀ d, d ≠ c → t.clkGood d = s.clkGood d)
            ∧ (s.rst.step = 4 → c = 8 ∨ c = 9 → s.clkGood (17 - c) = true → 6 ≤ t.rst.step
              ∧ (s.rst.full = true → t.keeperRuns = s.keeperRuns)
              ∧ (s.rst.full = false → s.imageOk = true → t.keeperRuns = true)
              ∧ (s.rst.full = false → s.imageOk = false → bitOf (t.errStatus pKEEP) 0 = true)))
          ∧ (s.monitored c = true → ¬passes → 8 ≤ c → ∃ t, exec (.monitorWindow c n) s = .next t ∧ t.rst.active = true
            ∧ t.rst.sources = [.clkFail] ∧ t.rst.full = false ∧ t.ext = s.ext ∧ t.imem = s.imem)
          ∧ (s.monitored c = true → ¬passes → c < 8 → (s.region c).quarantined = false →
            ∃ t, exec (.monitorWindow c n) s = .next t ∧ t.rst.active = false ∧ (t.region c).quarantined = true
              ∧ (s.busyRegion c = false → s.rows.merge = [] → t.clkGood c = false ∧ bitOf (t.errStatus (rPage c)) 0 = true
                ∧ t.sv.barges = s.sv.barges)))
    ∧ (∀ (r : Nat) (s : State), s.up = true → r < 8 →
        (s.rst.locked.contains r = true → (s.region r).quarantined = false → ∃ t, exec (.regionPllLockLoss r) s = .next t
            ∧ r ∉ t.rst.locked ∧ t.rst.active = false ∧ (t.region r).quarantined = true)
          ∧ (s.rst.locked.contains r = false → exec (.regionPllLockLoss r) s = .next s))
    ∧ (∀ (p : Nat) (s : State), s.live = true →
        (p < s.params.memPorts → s.rst.portsReady.contains p = false → ∃ t, exec (.memPortReady p) s = .next t
            ∧ t.rst.portsReady = s.rst.portsReady ++ [p]
            ∧ (s.rst.step = 6 → t.rst.step = if (∀ q, q < s.params.memPorts → q ∈ t.rst.portsReady ∧ t.clkGood (10 + q) = true) then 7 else 6))
          ∧ (s.params.memPorts ≤ p ∨ s.rst.portsReady.contains p = true → exec (.memPortReady p) s = .next s))
    ∧ (∀ (w : Word) (s : State), s.live = true →
        (w = 0x0C074B1C → exec (.wdtKick w) s = .next { s with rst := { s.rst with wdtSince := s.now } })
          ∧ (w ≠ 0x0C074B1C → exec (.wdtKick w) s = .next s)
          ∧ (bitOf (s.reg pRST 0x064) 31 = true → exec (.watchdogEnable w) s = .next s)
          ∧ (bitOf (s.reg pRST 0x064) 31 = false → ∃ t, exec (.watchdogEnable w) s = .next t ∧ t.reg pRST 0x064 = w &&& 0x8000FFFF
            ∧ t.rst.wdtSince = (if bitOf w 31 then s.now else s.rst.wdtSince)
            ∧ ∀ page o, page * 0x1000 + o ≠ 0x1064 → t.reg page o = s.reg page o))

/-- Faults, injections and planks (R397, R408, R412, R414). A command that does not apply changes nothing
(assumption 10). -/
def Obligations.FaultsPlanksAndInjections : Prop :=
  (∀ (k : Nat) (s : State), s.up = true → s.sv.barges = [] →
      (k < 128 → ∃ t, exec (.ctrlParityError (.tile k)) s = .next t ∧ t.tileQuar k = true ∧ bitOf (t.errStatus (tPage k)) 3 = true)
        ∧ (k < 8 → (s.region k).quarantined = false → s.rows.merge = [] → ∃ t, exec (.ctrlParityError (.region k)) s = .next t
          ∧ (t.region k).quarantined = true ∧ bitOf (t.errStatus (rPage k)) 3 = true))
    ∧ (∀ (page : Nat) (s : State), s.up = true → pageExists page = true → page < pTILE → ¬(pREGION ≤ page ∧ page < pKEEP) →
        (bitOf (s.cfg pERR 0x108) 0 = false → ∃ t, exec (.ctrlParityError (.engine page)) s = .next t ∧ t.rst.halted = true
            ∧ t.regN pERR 0xF30 = 256 + page ∧ bitOf (t.errStatus pERR) 3 = true ∧ t.hq.items = s.hq.items ∧ t.hq.dmaWrites = [])
          ∧ (bitOf (s.cfg pERR 0x108) 0 = true → ∃ t, exec (.ctrlParityError (.engine page)) s = .next t
            ∧ t.rst.active = true ∧ t.rst.sources = [.software] ∧ t.rst.full = false))
    ∧ (∀ s : State, s.up = true →
        (s.errWindowFrom + s.cfgN pERR 0x104 ≤ s.now → exec .errWindowEnd s = .next { s with tileErrs := [], errWindowFrom := s.now })
          ∧ (s.now < s.errWindowFrom + s.cfgN pERR 0x104 → exec .errWindowEnd s = .next s))
    ∧ (∀ (page : Nat) (w : Word) (s : State), s.live = true →
        let armed := bitOf w 31 = true ∧ bitOf (s.cfg pERR 0x108) 2 = true
        let ty := fld w 27 24
        let sy := fld w 23 20
        let sel := fld w 15 0
        let tr := (0x20 ≤ page ∧ page ≤ 0x9F) ∨ (pREGION ≤ page ∧ page < pKEEP)
        (exec (.injectSram page w) s = .next (if armed ∧ ty = 1 ∧ tr ∧ sy ≤ 10 then
            { s with armed := { s.armed with sram := s.armed.sram ++ [(page, sy)] } } else s))
          ∧ (exec (.injectSector w) s = .next (if armed ∧ ty = 2 ∧ sy ≤ 10 ∧ sel < s.params.memPorts then
            { s with armed := { s.armed with sector := s.armed.sector ++ [(sel, sy)] } } else s))
          ∧ (exec (.injectTag w) s = .next (if armed ∧ ty = 3 ∧ sel < s.params.memPorts then
            { s with armed := { s.armed with tag := s.armed.tag ++ [sel] } } else s))
          ∧ (armed → ty = 4 → sel < s.params.fabPorts → ∃ t, exec (.injectFlitCrc w) s = .next t
            ∧ t.fport sel = { s.fport sel with badCrc := true } ∧ ∀ k, k ≠ sel → t.fport k = s.fport k)
          ∧ (¬armed ∨ ty ≠ 4 ∨ s.params.fabPorts ≤ sel → exec (.injectFlitCrc w) s = .next s)
          ∧ (exec (.injectPiece w) s = .next (if armed ∧ ty = 5 then { s with fab := { s.fab with badPiece := true } } else s))
          ∧ (armed → ty = 6 → s.sv.barges = [] → ∀ k, k < 128 → page = tPage k → ∃ t, exec (.injectCtrl page w) s = .next t
            ∧ t.tileQuar k = true ∧ t.regN pERR 0xF34 = satAdd 32 (s.regN pERR 0xF34) 1)
          ∧ (armed → ty = 6 → page = pERR → bitOf (s.cfg pERR 0x108) 0 = false →
            ∃ t, exec (.injectCtrl page w) s = .next t ∧ t.rst.halted = true ∧ t.regN pERR 0xF30 = 256 + page)
          ∧ (¬armed ∨ ty ≠ 6 ∨ (¬tr ∧ page ≠ pERR) → exec (.injectCtrl page w) s = .next s)
          ∧ (exec (.injectClock page w) s = .next (if armed ∧ ty = 7 ∧ pREGION ≤ page ∧ page < pKEEP then
            { s with armed := { s.armed with clock := s.armed.clock ++ [page - pREGION] } } else s)))
    ∧ (∀ (page : Nat) (s : State), s.live = true →
        (hasPlank page = true → s.isolated page = false → isRegion page = false → ∃ t, exec (.isolate page) s = .next t
            ∧ t.isolated page = true ∧ (s.unitIdle page = true → t.plank page = true)
            ∧ (s.unitIdle page = false → t.reg page oSTATUS = s.reg page oSTATUS))
          ∧ (hasPlank page = true → s.isolated page = false → isRegion page = true → s.rows.merge = [] →
            ∃ t, exec (.isolate page) s = .next t ∧ t.isolated page = true ∧ (s.unitIdle page = true → t.plank page = true))
          ∧ (hasPlank page = false ∨ s.isolated page = true → exec (.isolate page) s = .next s)
          ∧ (hasPlank page = true → s.isolated page = true → s.unitIdle page = true →
            ∃ t, exec (.plankIn page) s = .next t ∧ t.plank page = true ∧ t.fab = s.fab ∧ t.sv = s.sv)
          ∧ (hasPlank page = false ∨ s.isolated page = false ∨ s.unitIdle page = false → exec (.plankIn page) s = .next s)
          ∧ (hasPlank page = true → s.idleBit page = false → page < 256 → ∃ t, exec (.resetReq page) s = .next t
            ∧ t.regN pRST 0x06C = 2 ^ 31 + page ∧ bitOf (t.errStatus pRST) 3 = true ∧ t.regions = s.regions ∧ t.fab = s.fab)
          ∧ (hasPlank page = true → s.idleBit page = true → page ≠ pFAB → s.rows.merge = [] →
            ∃ t, exec (.resetReq page) s = .next t ∧ (t.region (regionOfPage page)).power = .off
              ∧ (t.region (regionOfPage page)).pieces = [] ∧ (t.region (regionOfPage page)).cache = []
              ∧ (isRegion page = true → (t.region (regionOfPage page)).quarantined = false)
              ∧ (isTile page = true → t.tileQuar (page - pTILE) = false)
              ∧ (∀ a, a < poolBytes → t.pool.get (regionOfPage page * poolBytes + a) = 0) ∧ t.isolated page = s.isolated page)
          ∧ (s.idleBit pFAB = true → ∃ t, exec (.resetReq pFAB) s = .next t
            ∧ ∀ n, n < 24 → (t.fport n).st = if (s.fport n).st = .off then .off else .down)
          ∧ (hasPlank page = false → exec (.resetReq page) s = .next s))

/-- Sectors, write responses and host read data (R402 to R405, R432, R436). A command that does not apply changes nothing
(assumption 10). -/
def Obligations.MemoryPortsAndHostReadsArrive : Prop :=
  (∀ (k : Nat) (d : SectorData) (s : State), s.up = true → 512 * k < s.populated →
      let p := k % s.params.memPorts
      let old := s.tag k
      let sym := fun (j : Nat) => d.errs.getD j 0 + if j = 0 then old.latent else 0
      let badTag := old.kind ≠ 0 ∧ (d.tagOk = false ∨ old.bad = true)
      let lost := d.rdErr = true ∨ (d.poisoned = false ∧ ∃ j, j < 4 ∧ 5 < sym j)
      ∃ t, exec (.sectorReadComplete k d) s = .next t
        ∧ (∀ i, i < 512 → t.ext.get (512 * k + i) = BitVec.ofNat 8 (d.data.toNat / 256 ^ i))
        ∧ (∀ a, ¬(512 * k ≤ a ∧ a < 512 * k + 512) → t.ext.get a = s.ext.get a)
        ∧ SMap.get (fun _ => 0) t.memCounts (p * 16) = satAdd 32 (SMap.get (fun _ => 0) s.memCounts (p * 16)) 1
        ∧ ((t.tag k).poison = true ↔ badTag ∨ lost ∨ d.poisoned = true)
        ∧ (old.poison = false → badTag ∨ lost → t.regN pERR 0xF18 = satAdd 32 (s.regN pERR 0xF18) 1)
        ∧ (old.poison = true ∨ ¬(badTag ∨ lost) → t.regN pERR 0xF18 = s.regN pERR 0xF18)
        ∧ (d.poisoned = false → ¬(badTag ∨ lost) → (∃ j, j < 4 ∧ sym j ≠ 0) → t.regN pERR 0xF14 = satAdd 32 (s.regN pERR 0xF14) 1
          ∧ ((∃ j, j < 4 ∧ 3 ≤ sym j) →
            SMap.get (fun _ => 0) t.memCounts (p * 16 + 4) = satAdd 32 (SMap.get (fun _ => 0) s.memCounts (p * 16 + 4)) 1)))
    ∧ (∀ (k : Nat) (d : SectorData) (s : State), s.up = true → s.populated ≤ 512 * k → exec (.sectorReadComplete k d) s = .next s)
    ∧ (∀ (p : Nat) (e : Bool) (s : State), s.up = true →
        (p < s.params.memPorts → ∃ t, exec (.sectorWriteResponse p e) s = .next t
            ∧ SMap.get (fun _ => 0) t.memCounts (p * 16 + 1) = satAdd 32 (SMap.get (fun _ => 0) s.memCounts (p * 16 + 1)) 1
            ∧ (e = true → bitOf (t.errStatus pMEM) 3 = true
              ∧ SMap.get (fun _ => 0) t.memCounts (p * 16 + 6) = satAdd 32 (SMap.get (fun _ => 0) s.memCounts (p * 16 + 6)) 1)
            ∧ (e = false → t.regs = s.regs) ∧ t.ext = s.ext ∧ t.tags = s.tags)
          ∧ (s.params.memPorts ≤ p → exec (.sectorWriteResponse p e) s = .next s))
    ∧ (∀ (a : Nat) (d : BitVec 512) (e : Bool) (s : State), s.up = true →
        ∃ t, exec (.hostReadData a d e) s = .next t
          ∧ (∀ i, i < 64 → t.hostMem.get (64 * (a / 64) + i) = BitVec.ofNat 8 (d.toNat / 256 ^ i))
          ∧ (∀ b, ¬(64 * (a / 64) ≤ b ∧ b < 64 * (a / 64) + 64) → t.hostMem.get b = s.hostMem.get b)
          ∧ (a / 64 ∈ t.hq.badUnits ↔ e = true) ∧ (∀ u, u ≠ a / 64 → (u ∈ t.hq.badUnits ↔ u ∈ s.hq.badUnits))
          ∧ (e = true → bitOf (t.errStatus pGLB) 0 = true ∧ t.regN pGLB 0xF80 = satAdd 32 (s.regN pGLB 0xF80) 1
            ∧ t.regN pERR 0xF18 = satAdd 32 (s.regN pERR 0xF18) 1)
          ∧ (e = false → t.regs = s.regs))

/-- Write acknowledges and interrupt messages (R429, R431, R432). A command that does not apply changes nothing
(assumption 10). -/
def Obligations.HostWritesAndInterruptsGoOut : Prop :=
  let msg := fun (s : State) (v : Nat) => (v, s.vec v 4 ++ s.vec v 0, s.vec v 8)
  (∀ (tag : Nat) (err : Bool) (s : State) (pre post : List DmaWrite) (w : DmaWrite), s.up = true → tag < 256 →
      s.hq.dmaWrites = pre ++ w :: post → w.tag = tag → (∀ x, x ∈ pre → x.tag ≠ tag) →
      ∃ t, exec (.hostWriteAck tag err) s = .next t
        ∧ t.hostMem = (if err then s.hostMem else Mem.write s.hostMem w.addr w.bytes)
        ∧ ((∀ x, x ∈ pre ++ post → x.tag < 256) → t.hq.dmaWrites = pre ++ post)
        ∧ (∀ c x, w.owner = .record c → post = [x] → (∀ y, y ∈ pre → y.tag < 256) → 256 ≤ x.tag →
            t.hq.dmaWrites = pre ++ [{ x with tag := tag }])
        ∧ (err = true → ∀ c, w.owner = .record c → s.hq.irqWait = [] → t.regN pGLB 0xF84 = satAdd 32 (s.regN pGLB 0xF84) 1
          ∧ bitOf (t.errStatus pGLB) 1 = true)
        ∧ (∀ c, err = false → w.owner = .record c → (∀ x, x ∈ pre ++ post → x.tag < 256) → ∀ v tags, v < 256 →
            s.hq.irqWait = [(v, tags)] →
            (tags.filter (· != tag) ≠ [] → t.hq.irqWait = [(v, tags.filter (· != tag))] ∧ t.hq.messages = s.hq.messages ∧ t.regs = s.regs)
              ∧ (tags.filter (· != tag) = [] → t.hq.irqWait = []
                ∧ (s.irqHeld v = false → t.hq.messages = s.hq.messages ++ [msg s v] ∧ t.regN pGLB 0xF8C = satAdd 32 (s.regN pGLB 0xF8C) 1)
                ∧ (s.irqHeld v = true → t.hq.messages = s.hq.messages ∧ t.irqPending v = true))))
    ∧ (∀ (tag : Nat) (err : Bool) (s : State), s.up = true → (256 ≤ tag ∨ ∀ x, x ∈ s.hq.dmaWrites → x.tag ≠ tag) →
        exec (.hostWriteAck tag err) s = .next s)
    ∧ (∀ (v : Nat) (s : State), s.live = true →
        (v < 256 → ∃ t, exec (.vectorUnmask v) s = .next t ∧ t.vec v 12 = 0
            ∧ (s.irqPending v = true → s.hq.imHold = false → t.hq.messages = s.hq.messages ++ [msg s v] ∧ t.irqPending v = false
              ∧ t.regN pGLB 0xF8C = satAdd 32 (s.regN pGLB 0xF8C) 1)
            ∧ (s.irqPending v = false ∨ s.hq.imHold = true → t.hq = s.hq ∧ t.irqPending v = s.irqPending v)
            ∧ ∀ u, u < 256 → u ≠ v → t.vec u 12 = s.vec u 12 ∧ t.irqPending u = s.irqPending u)
          ∧ (256 ≤ v → exec (.vectorUnmask v) s = .next s))
    ∧ (∀ s : State, s.up = true → ∃ t, exec .imHoldRelease s = .next t ∧ t.hq.imHold = false
        ∧ t.hq.messages = s.hq.messages ++ ((List.range 256).filter fun v => s.irqPending v && !bitOf (s.vec v 12) 0).map (msg s)
        ∧ ∀ v, v < 256 → t.irqPending v = (s.irqPending v && bitOf (s.vec v 12) 0))

/-- Pages whose new bank acts through its fields alone. -/
def Sys2Proof.Machine.plainPage (page : Nat) : Bool := page == pERR || page == pCOL || (pREGION ≤ page && page < pKEEP)

/-- Configuration commits (R448 to R451). A command that does not apply changes nothing
(assumption 10). -/
def Obligations.BanksAreCheckedThenTakeEffect : Prop :=
  let switched := fun (s t : State) (page : Nat) => t.bankB page = !s.bankB page ∧ t.commitPending page = false
    ∧ ∀ o, 0x100 ≤ o → o < 0x800 → t.cfg page o = s.cfgNew page o
  let rejected := fun (s t : State) (page reason o : Nat) => t.bankB page = s.bankB page
    ∧ t.reg page oCFG_COMMIT = BitVec.ofNat 32 (2 ^ 31 + 2 ^ 29 * reason + 2 ^ 27 * s.idleBank page + o)
    ∧ ∀ q, 0x100 ≤ q → q < 0x800 → t.cfg page q = s.cfg page q
  (∀ (page : Nat) (seq : Word) (s : State), s.live = true →
      let b := s.idleBank page
      let u : State := { s.setReg page (seqOfs b) seq with hq := { s.hq with rejBanks := s.hq.rejBanks.filter (· != 2 * page + b) } }
      let open_ := pageExists page = true ∧ s.rst.halted = false ∧ s.commitPending page = false
        ∧ serialGt seq (s.reg page (seqOfs (1 - b))) = true
      let crcOk := s.reg page (seqOfs b + 4) = crc32c (s.bankBytes page b)
      (¬open_ → exec (.configCommit page seq) s = .next s)
        ∧ (open_ → ¬crcOk → ∃ t, exec (.configCommit page seq) s = .next t ∧ rejected s t page 1 0 ∧ t.reg page (seqOfs b) = seq)
        ∧ (open_ → crcOk → ∀ o, u.acceptFail page = some o → ∃ t, exec (.configCommit page seq) s = .next t ∧ rejected s t page 2 o)
        ∧ (open_ → crcOk → u.acceptFail page = none → exec (.configCommit page seq) s = .next (u.pendBank page)
          ∧ ∀ v, v = u.setRegN page oCFG_COMMIT (setFld (u.regN page oCFG_COMMIT) 28 28 1) →
            ∀ x, x = ({ v with sv := { v.sv with boundary := v.sv.boundary ++ [(page, v.boundaryIds page)] } } : State) →
            (x.boundaryMet page = false → exec (.configCommit page seq) s = .next x ∧ x.commitPending page = true
                ∧ x.bankB page = s.bankB page)
              ∧ (plainPage page = true → x.boundaryMet page = true → x.repeatFail page = none →
                ∃ t, exec (.configCommit page seq) s = .next t ∧ switched s t page)))
    ∧ (∀ (page : Nat) (s : State), s.up = true →
        (s.commitPending page = false ∨ s.boundaryMet page = false → exec (.commitTakeEffect page) s = .next s)
          ∧ (s.commitPending page = true → s.boundaryMet page = true → (page = pROW → s.rows.clearing = false) →
            (∀ o, s.repeatFail page = some o → ∃ t, exec (.commitTakeEffect page) s = .next t ∧ rejected s t page 3 o)
              ∧ (s.repeatFail page = none → plainPage page = true → ∃ t, exec (.commitTakeEffect page) s = .next t ∧ switched s t page)
              ∧ (s.repeatFail page = none → page = pROW → bitOf (s.cfgNew pROW 0x150) 0 = true →
                exec (.commitTakeEffect page) s = .next { s with rows := { s.rows with clearing := true } })))
    ∧ (∀ s : State, s.up = true →
        (s.rows.clearing = true → s.commitPending pROW = true → ∃ t, exec .rowInitClearDone s = .next t ∧ t.rows.clearing = false
            ∧ t.bankB pROW = !s.bankB pROW ∧ t.commitPending pROW = false)
          ∧ (s.rows.clearing = false ∨ s.commitPending pROW = false → exec .rowInitClearDone s = .next s))

/-- Keeper memory and debug reads (R453, R454). A command that does not apply changes nothing
(assumption 10). -/
def Obligations.KeeperImageAndDebugReads : Prop :=
  (∀ s : State, s.live = true →
      let a := s.regN pKEEP 0x060
      let len := leNat (Mem.read s.imem 0 4)
      let good := 16 ≤ len ∧ len ≤ 262144 ∧ len % 4 = 0 ∧ (crc32c (Mem.read s.imem 8 (len - 8))).toNat = leNat (Mem.read s.imem 4 4)
      (s.keeperRuns = true → exec .keeperEnable s = .next s ∧ (∀ w, exec (.imemDataWrite w) s = .next s)
          ∧ exec .imemDataRead s = .next { s with port := { rdata := 0, err := false } })
        ∧ (s.keeperRuns = false →
          (good → ∃ t, exec .keeperEnable s = .next t ∧ t.keeperRuns = true ∧ t.regN pKEEP 0xF08 = len)
            ∧ (¬good → ∃ t, exec .keeperEnable s = .next t ∧ t.keeperRuns = false ∧ bitOf (t.errStatus pKEEP) 0 = true)
            ∧ (∀ w, ∃ t, exec (.imemDataWrite w) s = .next t ∧ t.regN pKEEP 0x060 = (a + 4) % 262144
              ∧ (∀ i, i < 4 → t.imem.get (a + i) = BitVec.ofNat 8 (w.toNat / 256 ^ i))
              ∧ ∀ b, ¬(a ≤ b ∧ b < a + 4) → t.imem.get b = s.imem.get b)
            ∧ (∃ t, exec .imemDataRead s = .next t ∧ t.port = { rdata := BitVec.ofNat 32 (leNat (Mem.read s.imem a 4)), err := false }
              ∧ t.regN pKEEP 0x060 = (a + 4) % 262144 ∧ t.imem = s.imem)))
    ∧ (∀ s : State, s.live = false → exec .imemDataRead s = .next { s with port := { rdata := 0xFFFFFFFF, err := false } })
    ∧ (∀ (w : Word) (s : State), s.live = true →
        (s.peeking = true → exec (.peek w) s = .next s)
          ∧ (s.peeking = false → ∃ t, exec (.peek w) s = .next t ∧ t.reg pDBG 0x060 = w &&& 0x87FF0000
            ∧ ∀ r, bitOf w 31 = true → ((s.setReg pDBG 0x060 (w &&& 0x87FF0000)).peekTarget.bind Store.region?) = some r →
              s.isolated (rPage r) = false → (s.region r).quarantined = false → (s.region r).power ≠ .run →
              (t.region r).waking.isSome = true))
    ∧ (∀ s : State, s.up = true →
        (s.peeking = false → exec .peekComplete s = .next s)
          ∧ (s.peeking = true → s.peekTarget = none → ∃ t, exec .peekComplete s = .next t ∧ t.peeking = false
            ∧ t.reg pDBG 0xF00 = 0 ∧ (∀ i, i < 16 → t.reg pDBG (0xF40 + 4 * i) = 0) ∧ bitOf (t.errStatus pDBG) 0 = true)
          ∧ (∀ st, s.peeking = true → s.peekTarget = some st → (∃ r, st.region? = some r ∧ s.peekReady r = false) →
            exec .peekComplete s = .next s)
          ∧ (∀ st, s.peeking = true → s.peekTarget = some st → (∀ r, st.region? = some r → s.peekReady r = true) →
            (s.sv.barges = [] ∨ (st = .ext ∧ s.anyTileQuar = false)) → s.armed.latent = [] →
            let ps := if st = .ext then s.specsAt s.peekAddr 64 else []
            ∃ t, exec .peekComplete s = .next t ∧ t.peeking = false
              ∧ (∀ i, i < 16 → t.regN pDBG (0xF40 + 4 * i) = leNat (((s.rd st s.peekAddr 64).drop (4 * i)).take 4))
              ∧ t.regN pDBG 0xF00 = (ps.foldl (fun m p => m ||| p.pend) (s.pendAt st s.peekAddr 64)).toNat
                + 2 ^ 16 * bit (s.voidAt st s.peekAddr 64 || ps.any (·.discarded)) + 2 ^ 17 * bit (s.poisonAt st s.peekAddr 64)))

/-- A register that plain writes reach: no bank's, and none whose write is a command of its own (R444). -/
def Sys2Proof.Machine.plainReg (a : Nat) : Bool :=
  (0xF0000 ≤ a && a % 16 != 12)
    || (a < 0xA0000 && bankOf (a % 0x1000) == none
      && !([oCTRL, oERR_STATUS, oERR_INJECT].contains (a % 0x1000))
      && !([0x1060, 0x1064, 0x1068, 0x106C, pHQ * 0x1000 + 0x060, pLKP * 0x1000 + 0x070, pKEEP * 0x1000 + 0x064,
        pDBG * 0x1000 + 0x060, pDBG * 0x1000 + 0x064, pDBG * 0x1000 + 0x068].contains a))

/-- An RC register that counts one thing: none of those that show the selected mooring's, port's or memory port's count. -/
def Sys2Proof.Machine.plainCounter (a : Nat) : Bool :=
  !(a / 0x1000 == pLKP && 0xFA4 ≤ a % 0x1000 && a % 0x1000 ≤ 0xFB0) && !(a / 0x1000 == pFAB && (a % 0x1000 == 0x078 || a % 0x1000 == 0x07C))
    && !(a / 0x1000 == pMEM && 0x078 ≤ a % 0x1000 && a % 0x1000 ≤ 0x090)

/-- The host register port (R426, R427, R444). -/
def Obligations.RegistersAreReadAndWritten : Prop :=
  (∀ (addr : Nat) (w : Word) (s : State), s.live = false →
      exec (.registerWrite addr w) s = .next { s with port := { s.port with err := false } }
        ∧ exec (.counterReadClear addr) s = .next { s with port := { rdata := 0xFFFFFFFF, err := false } })
    ∧ (∀ (addr : Nat) (w : Word) (s : State), s.live = true →
        let a := addr % 2 ^ 20 / 4 * 4
        let bump := s.setRegN pGLB 0xF88 (satAdd 32 (s.regN pGLB 0xF88) 1)
        let stored := fun (m : Word) (t : State) => t.port = { s.port with err := false } ∧ t.imem = s.imem ∧ t.hq = s.hq
          ∧ ∀ x, SMap.get regReset t.regs x = if x = a then m else SMap.get regReset s.regs x
        let old := SMap.get regReset s.regs a
        (unmapped a = true →
            exec (.registerWrite addr w) s = .next { bump with port := { s.port with err := true } }
              ∧ exec (.counterReadClear addr) s = .next { bump with port := { rdata := 0, err := true } }
              ∧ exec (.unmappedAccess addr true) s = .next { bump with port := { s.port with err := true } }
              ∧ exec (.unmappedAccess addr false) s = .next { bump with port := { rdata := 0, err := true } })
          ∧ (unmapped a = false → ∀ we, exec (.unmappedAccess addr we) s = .next s)
          ∧ (∀ d, windowDef? a = some d → plainReg a = true →
              (d.acc = .rw → ∃ t, exec (.registerWrite addr w) s = .next t
                  ∧ stored ((old &&& ~~~(BitVec.ofNat 32 d.mask)) ||| (w &&& BitVec.ofNat 32 d.mask)) t)
                ∧ (d.acc = .w1c → ∃ t, exec (.w1cWrite addr w) s = .next t ∧ stored (old &&& ~~~(w &&& BitVec.ofNat 32 d.mask)) t)
                ∧ (d.acc = .ro → exec (.registerWrite addr w) s = .next { s with port := { s.port with err := false } }))
          ∧ (∀ page, page < 0xA0 → pageExists page = true → a = page * 0x1000 + oERR_STATUS →
              ∃ t, exec (.registerWrite addr w) s = .next t ∧ stored (old &&& ~~~(w &&& BitVec.ofNat 32 (errBits page))) t)
          ∧ (∀ d b, windowDef? a = some d → a < 0xA0000 → 0x100 ≤ a % 0x1000 → a % 0x1000 < 0xF00 → bankOf (a % 0x1000) = some b →
              (b ≠ s.idleBank (a / 0x1000) ∨ s.commitPending (a / 0x1000) = true →
                  exec (.registerWrite addr w) s = .next { s with port := { s.port with err := false } })
                ∧ (b = s.idleBank (a / 0x1000) → s.commitPending (a / 0x1000) = false → ∃ t, exec (.registerWrite addr w) s = .next t
                  ∧ stored ((old &&& ~~~(BitVec.ofNat 32 d.mask)) ||| (w &&& BitVec.ofNat 32 d.mask)) t))
          ∧ (∀ d, windowDef? a = some d → d.acc = .rc → plainCounter a = true → ∃ t, exec (.counterReadClear addr) s = .next t
              ∧ t.port = { rdata := s.value a, err := false } ∧ SMap.get regReset t.regs a = 0
              ∧ ∀ x, x ≠ a → SMap.get regReset t.regs x = SMap.get regReset s.regs x)
          ∧ (unmapped a = false → (∀ d, windowDef? a = some d → d.acc ≠ .rc) → a ≠ pKEEP * 0x1000 + 0x064 →
              exec (.counterReadClear addr) s = .next { s with port := { rdata := s.value a, err := false } }))
    ∧ (∀ (addr : Nat) (w : Word) (s : State), isW1c (addr % 2 ^ 20 / 4 * 4) = false → exec (.w1cWrite addr w) s = .next s)

/-- The TAP (R438, R439). A command that does not apply changes nothing
(assumption 10). -/
def Obligations.TheTapReachesTheWindow : Prop :=
  (∀ (dr : BitVec 64) (s : State), bitOf dr 63 = true →
      ∃ t u, exec (.towpath dr) s = .next t ∧ exec (.registerWrite (fld dr 51 32) (dr.extractLsb' 0 32)) s = .next u
        ∧ { t with tap := u.tap } = { u with port := t.port } ∧ t.tap.ir = 0x20 ∧ t.tap.done = true ∧ t.tap.err = u.port.err
        ∧ bitOf t.tap.dr 63 = true ∧ bitOf t.tap.dr 62 = u.port.err)
    ∧ (∀ (dr : BitVec 64) (s : State), bitOf dr 63 = false →
        ∃ t u, exec (.towpath dr) s = .next t ∧ exec (.counterReadClear (fld dr 51 32)) s = .next u
          ∧ { t with tap := u.tap } = { u with port := t.port } ∧ t.tap.ir = 0x20 ∧ t.tap.done = true
          ∧ t.tap.err = u.port.err ∧ t.tap.rdata = u.port.rdata
          ∧ bitOf t.tap.dr 63 = true ∧ bitOf t.tap.dr 62 = u.port.err ∧ t.tap.dr.extractLsb' 0 32 = u.port.rdata)
    ∧ (∀ s : State,
        (∃ t, exec .idcode s = .next t ∧ { t with tap := s.tap } = s ∧ t.tap.ir = 0x01 ∧ fld t.tap.dr 31 28 = 2
            ∧ fld t.tap.dr 27 12 = 0x0C07 ∧ fld t.tap.dr 11 1 = s.params.jtagMfr % 2048 ∧ bitOf t.tap.dr 0 = true
            ∧ t.tap.rdata = s.tap.rdata)
          ∧ (∀ ir : Byte, ir ≠ 0x01 → ir ≠ 0x20 → ir ≠ 0x21 →
            exec (.bypass ir) s = .next { s with tap := { s.tap with ir := ir, dr := 0 } })
          ∧ (∀ ir : Byte, ir = 0x01 ∨ ir = 0x20 ∨ ir = 0x21 → exec (.bypass ir) s = .next s)
          ∧ exec .tapReset s = .next { s with tap := { s.tap with ir := 1 } })
end

