-- ==== Sys2Proof/Laws/Sparse.lean ====
section
/-! SUPPORT. Sparse maps and byte stores: reading after a write, and that every write keeps the canonical form. -/

namespace Sys2Proof

/-! ### Reading -/

/-- A removed key reads as an unlisted one. -/
theorem SMap.get_erase_self {α : Type} (d : Nat → α) (m : SMap α) (k : Nat) : (m.erase k).get d k = d k := by
  induction m with
  | nil => rfl
  | cons e m ih =>
    obtain ⟨i, v⟩ := e
    by_cases h : i = k
    · simp [SMap.erase, h, ih]
    · simp [SMap.erase, SMap.get, h, ih]

/-- Other keys read as before a removal. -/
theorem SMap.get_erase_other {α : Type} (d : Nat → α) (m : SMap α) (k j : Nat) (h : j ≠ k) :
    (m.erase k).get d j = m.get d j := by
  induction m with
  | nil => rfl
  | cons e m ih =>
    obtain ⟨i, v⟩ := e
    by_cases hi : i = k
    · have : ¬ i = j := by omega
      simp [SMap.erase, SMap.get, hi, ih]
      omega
    · by_cases hj : i = j
      · subst hj
        simp [SMap.erase, SMap.get, h]
      · simp [SMap.erase, SMap.get, hi, hj, ih]

/-- An inserted key, absent before, reads as what was inserted. -/
theorem SMap.get_insert_self {α : Type} (d : Nat → α) (m : SMap α) (k : Nat) (v : α) (h : ∀ e ∈ m, e.1 ≠ k) :
    (m.insert k v).get d k = v := by
  induction m with
  | nil => simp [SMap.insert, SMap.get]
  | cons e m ih =>
    obtain ⟨i, w⟩ := e
    have hi : i ≠ k := h (i, w) (by simp)
    have hm : ∀ e ∈ m, e.1 ≠ k := fun e he => h e (by simp [he])
    by_cases hk : k < i
    · simp [SMap.insert, SMap.get, hk]
    · simp [SMap.insert, SMap.get, hk, hi, ih hm]

/-- Other keys read as before an insertion. -/
theorem SMap.get_insert_other {α : Type} (d : Nat → α) (m : SMap α) (k j : Nat) (v : α) (h : j ≠ k) :
    (m.insert k v).get d j = m.get d j := by
  have h' : ¬ k = j := fun e => h e.symm
  induction m with
  | nil => simp [SMap.insert, SMap.get, h']
  | cons e m ih =>
    obtain ⟨i, w⟩ := e
    by_cases hk : k < i
    · simp [SMap.insert, SMap.get, hk, h']
    · simp [SMap.insert, SMap.get, hk, ih]

/-- A removed key is not listed. -/
theorem SMap.not_mem_erase {α : Type} (m : SMap α) (k : Nat) : ∀ e ∈ m.erase k, e.1 ≠ k := by
  induction m with
  | nil => simp [SMap.erase]
  | cons e m ih =>
    obtain ⟨i, w⟩ := e
    by_cases hi : i = k
    · simpa [SMap.erase, hi] using ih
    · intro e he
      simp only [SMap.erase, hi, if_false, List.mem_cons] at he
      rcases he with rfl | he
      · exact hi
      · exact ih e he

/-- A key reads as what was put there. -/
@[simp] theorem SMap.get_put_self {α : Type} [DecidableEq α] (d : Nat → α) (m : SMap α) (k : Nat) (v : α) :
    (m.put d k v).get d k = v := by
  unfold SMap.put
  split
  · rw [SMap.get_erase_self]; exact Eq.symm ‹_›
  · exact SMap.get_insert_self d _ k v (SMap.not_mem_erase m k)

/-- Every other key reads as before. -/
theorem SMap.get_put_other {α : Type} [DecidableEq α] (d : Nat → α) (m : SMap α) (k j : Nat) (v : α) (h : j ≠ k) :
    (m.put d k v).get d j = m.get d j := by
  unfold SMap.put
  split
  · exact SMap.get_erase_other d m k j h
  · rw [SMap.get_insert_other d _ k j v h, SMap.get_erase_other d m k j h]

/-- A key after a put, in one equation. -/
theorem SMap.get_put {α : Type} [DecidableEq α] (d : Nat → α) (m : SMap α) (k j : Nat) (v : α) :
    (m.put d k v).get d j = if j = k then v else m.get d j := by
  split
  · subst ‹j = k›; exact SMap.get_put_self d m j v
  · exact SMap.get_put_other d m k j v ‹_›

/-! ### The canonical form -/

/-- The canonical form, spelled out: keys strictly rising, and no entry equal to what an unlisted key reads as. -/
theorem SMap.wf_iff {α : Type} [DecidableEq α] (d : Nat → α) (m : SMap α) :
    m.wf d = true ↔ m.Pairwise (fun a b => a.1 < b.1) ∧ ∀ e ∈ m, e.2 ≠ d e.1 := by
  induction m with
  | nil => simp [SMap.wf]
  | cons e m ih =>
    obtain ⟨k, v⟩ := e
    cases m with
    | nil => simp [SMap.wf]
    | cons e' m =>
      obtain ⟨k', v'⟩ := e'
      simp only [SMap.wf, Bool.and_eq_true, decide_eq_true_eq, ih, List.pairwise_cons, List.mem_cons, forall_eq_or_imp]
      constructor
      · rintro ⟨⟨h1, h2⟩, ⟨h3, h4⟩, h5, h6⟩
        refine ⟨⟨⟨h2, fun e he => lt_trans h2 (h3 e he)⟩, h3, h4⟩, h1, h5, h6⟩
      · rintro ⟨⟨⟨h2, -⟩, h3, h4⟩, h1, h5, h6⟩
        exact ⟨⟨h1, h2⟩, ⟨h3, h4⟩, h5, h6⟩

/-- What a removal leaves was there before. -/
theorem SMap.mem_of_mem_erase {α : Type} (m : SMap α) (k : Nat) (e : Nat × α) (h : e ∈ m.erase k) : e ∈ m := by
  induction m with
  | nil => simp [SMap.erase] at h
  | cons e' m ih =>
    obtain ⟨i, w⟩ := e'
    by_cases hi : i = k
    · simp only [SMap.erase, hi, if_true] at h
      exact List.mem_cons_of_mem _ (ih h)
    · simp only [SMap.erase, hi, if_false, List.mem_cons] at h
      rcases h with rfl | h
      · simp
      · exact List.mem_cons_of_mem _ (ih h)

/-- Removal keeps the order. -/
theorem SMap.erase_pairwise {α : Type} (m : SMap α) (k : Nat) (h : m.Pairwise (fun a b => a.1 < b.1)) :
    (m.erase k).Pairwise (fun a b => a.1 < b.1) := by
  induction m with
  | nil => simp [SMap.erase]
  | cons e m ih =>
    obtain ⟨i, w⟩ := e
    rw [List.pairwise_cons] at h
    by_cases hi : i = k
    · simpa [SMap.erase, hi] using ih h.2
    · simp only [SMap.erase, hi, if_false, List.pairwise_cons]
      exact ⟨fun e he => h.1 e (SMap.mem_of_mem_erase m k e he), ih h.2⟩

/-- What an insertion leaves was there before, or is the new entry. -/
theorem SMap.mem_insert {α : Type} (m : SMap α) (k : Nat) (v : α) (e : Nat × α) (h : e ∈ m.insert k v) :
    e = (k, v) ∨ e ∈ m := by
  induction m with
  | nil => simpa [SMap.insert] using h
  | cons e' m ih =>
    obtain ⟨i, w⟩ := e'
    by_cases hk : k < i
    · simpa [SMap.insert, hk] using h
    · simp only [SMap.insert, hk, if_false, List.mem_cons] at h ⊢
      rcases h with h | h
      · exact .inr (.inl h)
      · rcases ih h with h | h
        · exact .inl h
        · exact .inr (.inr h)

/-- Insertion of an absent key keeps the order. -/
theorem SMap.insert_pairwise {α : Type} (m : SMap α) (k : Nat) (v : α) (hk : ∀ e ∈ m, e.1 ≠ k)
    (h : m.Pairwise (fun a b => a.1 < b.1)) : (m.insert k v).Pairwise (fun a b => a.1 < b.1) := by
  induction m with
  | nil => simp [SMap.insert]
  | cons e m ih =>
    obtain ⟨i, w⟩ := e
    have h' := List.pairwise_cons.1 h
    by_cases hi : k < i
    · simp only [SMap.insert, hi, if_true, List.pairwise_cons, List.mem_cons]
      refine ⟨?_, h'⟩
      rintro e (rfl | he)
      · exact hi
      · exact lt_trans hi (h'.1 e he)
    · have hne : i ≠ k := hk (i, w) (by simp)
      simp only [SMap.insert, hi, if_false, List.pairwise_cons]
      refine ⟨?_, ih (fun e he => hk e (by simp [he])) h'.2⟩
      intro e he
      rcases SMap.mem_insert m k v e he with rfl | he
      · show i < k; omega
      · exact h'.1 e he

/-- A put keeps the canonical form. -/
theorem SMap.wf_put {α : Type} [DecidableEq α] (d : Nat → α) (m : SMap α) (k : Nat) (v : α) (h : m.wf d = true) :
    (m.put d k v).wf d = true := by
  rw [SMap.wf_iff] at h ⊢
  unfold SMap.put
  have he : ∀ e ∈ m.erase k, e.2 ≠ d e.1 := fun e he => h.2 e (SMap.mem_of_mem_erase m k e he)
  split
  · exact ⟨SMap.erase_pairwise m k h.1, he⟩
  · refine ⟨SMap.insert_pairwise _ k v (SMap.not_mem_erase m k) (SMap.erase_pairwise m k h.1), ?_⟩
    intro e hm
    rcases SMap.mem_insert _ k v e hm with rfl | hm
    · assumption
    · exact he e hm

/-- An update of one key keeps it. -/
theorem SMap.wf_upd {α : Type} [DecidableEq α] (d : Nat → α) (m : SMap α) (k : Nat) (f : α → α) (h : m.wf d = true) :
    (m.upd d k f).wf d = true := SMap.wf_put d m k _ h

/-- A sublist of a canonical map is canonical. -/
theorem SMap.wf_sublist {α : Type} [DecidableEq α] (d : Nat → α) (m n : SMap α) (hs : n.Sublist m) (h : m.wf d = true) :
    n.wf d = true := by
  rw [SMap.wf_iff] at h ⊢
  exact ⟨h.1.sublist hs, fun e he => h.2 e (hs.subset he)⟩

/-- Values changed in place, entries that come to read as unlisted dropped, keep the canonical form. -/
theorem SMap.wf_filterMap {α : Type} [DecidableEq α] (d : Nat → α) (m : SMap α) (f : Nat × α → Option (Nat × α))
    (hf : ∀ e e', e.2 ≠ d e.1 → f e = some e' → e'.1 = e.1 ∧ e'.2 ≠ d e'.1) (h : m.wf d = true) :
    SMap.wf d (m.filterMap f) = true := by
  rw [SMap.wf_iff] at h ⊢
  constructor
  · refine List.pairwise_filterMap.2 (h.1.imp_of_mem ?_)
    intro a b ma mb hab a' ha b' hb
    rw [(hf a a' (h.2 a ma) ha).1, (hf b b' (h.2 b mb) hb).1]
    exact hab
  · intro e he
    rw [List.mem_filterMap] at he
    obtain ⟨a, ma, ha⟩ := he
    exact (hf a e (h.2 a ma) ha).2

/-! ### Byte stores -/

/-- A byte after a put. -/
theorem Mem.get_put (m : Mem) (a b : Nat) (v : Byte) : (m.put a v).get b = if b = a then v else m.get b :=
  SMap.get_put _ m a b v

/-- A byte put keeps the canonical form. -/
theorem Mem.wf_put (m : Mem) (a : Nat) (v : Byte) (h : m.wf = true) : (m.put a v).wf = true := SMap.wf_put _ m a v h

/-- Bytes written keep the canonical form. -/
theorem Mem.wf_write (m : Mem) (a : Nat) (bs : List Byte) (h : m.wf = true) : (m.write a bs).wf = true := by
  induction bs generalizing m a with
  | nil => exact h
  | cons b bs ih => exact ih _ _ (Mem.wf_put m a b h)

/-- A number stored keeps the canonical form. -/
theorem Mem.wf_putNat (m : Mem) (a n v : Nat) (h : m.wf = true) : (m.putNat a n v).wf = true := Mem.wf_write m a _ h

/-- A byte outside the written bytes reads as before. -/
theorem Mem.get_write_outside (m : Mem) (a b : Nat) (bs : List Byte) (h : b < a ∨ a + bs.length ≤ b) :
    (m.write a bs).get b = m.get b := by
  induction bs generalizing m a with
  | nil => rfl
  | cons c bs ih =>
    simp only [List.length_cons] at h
    have : b ≠ a := by omega
    simp [Mem.write, ih (m.put a c) (a + 1) (by omega), Mem.get_put, this]

/-- A written byte reads as what was written. -/
theorem Mem.get_write_inside (m : Mem) (a k : Nat) (bs : List Byte) (h : k < bs.length) :
    (m.write a bs).get (a + k) = bs[k] := by
  induction bs generalizing m a k with
  | nil => simp at h
  | cons c bs ih =>
    cases k with
    | zero => simp [Mem.write, Mem.get_write_outside _ _ _ bs (.inl (Nat.lt_succ_self a)), Mem.get_put]
    | succ k =>
      have h' : k < bs.length := by simpa using h
      have e : a + (k + 1) = a + 1 + k := by omega
      simp only [Mem.write, List.getElem_cons_succ, e]
      exact ih (m.put a c) (a + 1) k h'

end Sys2Proof
end

