-- ==== Sys2Proof/Laws/Canon.lean ====
section
/-! SUPPORT. How the canonical form of every store is kept by updates, choices and folds. -/

namespace Sys2Proof.Machine

open Sys2Proof

set_option Elab.async false

/-- A choice between two canonical states. -/
theorem State.canon_ite {c : Prop} [Decidable c] {a b : State} (ha : a.Canon) (hb : b.Canon) :
    (if c then a else b).Canon := by
  split
  · exact ha
  · exact hb

/-- A fold whose every step keeps the form. -/
theorem State.foldl_canon {α : Type} {f : State → α → State} {l : List α} {s : State}
    (h : ∀ s x, s.Canon → (f s x).Canon) (hs : s.Canon) : (l.foldl f s).Canon := by
  induction l generalizing s with
  | nil => exact hs
  | cons x l ih => exact ih (h s x hs)

/-- A fold that carries a value beside the state. -/
theorem State.foldl_pair_canon {α β : Type} {f : β × State → α → β × State} {l : List α} {p : β × State}
    (h : ∀ p x, p.2.Canon → (f p x).2.Canon) (hp : p.2.Canon) : (l.foldl f p).2.Canon := by
  induction l generalizing p with
  | nil => exact hp
  | cons x l ih => exact ih (h p x hp)

/-- A fold that carries a value after the state. -/
theorem State.foldl_fst_canon {α β : Type} {f : State × β → α → State × β} {l : List α} {p : State × β}
    (h : ∀ p x, p.1.Canon → (f p x).1.Canon) (hp : p.1.Canon) : (l.foldl f p).1.Canon := by
  induction l generalizing p with
  | nil => exact hp
  | cons x l ih => exact ih (h p x hp)

/-- The form of a state that is written out field by field. -/
def State.CanonMk (s : State) : Prop := s.Canon

theorem State.canon_mk_eq {p : List Instr}
    {params_ : Params}
    {aoUs_ : BitVec 48}
    {rst_ : ResetState}
    {regs_ : SMap Word}
    {ext_ : Mem}
    {tags_ : SMap Tag}
    {hostMem_ : Mem}
    {scratch_ : Mem}
    {pool_ : Mem}
    {pound_ : Mem}
    {marks_ : SMap Mark}
    {imem_ : Mem}
    {hq_ : Queues}
    {regions_ : SMap Region}
    {tileErrs_ : SMap (Nat × Nat)}
    {errWindowFrom_ : Nat}
    {sv_ : Serving}
    {rows_ : Rows}
    {gathers_ : List GatherRun}
    {fab_ : Fabric}
    {col_ : Coll}
    {tap_ : Tap}
    {port_ : RegPort}
    {armed_ : Armed}
    {memCounts_ : SMap Nat}
    {picks_ : Nat} :
    (State.mk p params_ aoUs_ rst_ regs_ ext_ tags_ hostMem_ scratch_ pool_ pound_ marks_ imem_ hq_ regions_ tileErrs_ errWindowFrom_ sv_ rows_ gathers_ fab_ col_ tap_ port_ armed_ memCounts_ picks_).Canon = (State.mk p params_ aoUs_ rst_ regs_ ext_ tags_ hostMem_ scratch_ pool_ pound_ marks_ imem_ hq_ regions_ tileErrs_ errWindowFrom_ sv_ rows_ gathers_ fab_ col_ tap_ port_ armed_ memCounts_ picks_).CanonMk := rfl

/-- An update of a canonical state by canonical stores. -/
theorem State.canon_mk {t : State}
    {params_ : Params}
    {aoUs_ : BitVec 48}
    {rst_ : ResetState}
    {regs_ : SMap Word}
    {ext_ : Mem}
    {tags_ : SMap Tag}
    {hostMem_ : Mem}
    {scratch_ : Mem}
    {pool_ : Mem}
    {pound_ : Mem}
    {marks_ : SMap Mark}
    {imem_ : Mem}
    {hq_ : Queues}
    {regions_ : SMap Region}
    {tileErrs_ : SMap (Nat × Nat)}
    {errWindowFrom_ : Nat}
    {sv_ : Serving}
    {rows_ : Rows}
    {gathers_ : List GatherRun}
    {fab_ : Fabric}
    {col_ : Coll}
    {tap_ : Tap}
    {port_ : RegPort}
    {armed_ : Armed}
    {memCounts_ : SMap Nat}
    {picks_ : Nat}
    (ht : t.Canon)
    (h_regs : t.Canon → SMap.wf regReset regs_ = true := by first | with_reducible exact fun h => h.regs | (intro h; simp only [SMap.wf_put, Mem.wf_write, Mem.wf_put, Mem.wf_putNat, h.regs]; done))
    (h_ext : t.Canon → Mem.wf ext_ = true := by first | with_reducible exact fun h => h.ext | (intro h; simp only [SMap.wf_put, Mem.wf_write, Mem.wf_put, Mem.wf_putNat, h.ext]; done))
    (h_tags : t.Canon → SMap.wf (fun _ => {}) tags_ = true := by first | with_reducible exact fun h => h.tags | (intro h; simp only [SMap.wf_put, Mem.wf_write, Mem.wf_put, Mem.wf_putNat, h.tags]; done))
    (h_hostMem : t.Canon → Mem.wf hostMem_ = true := by first | with_reducible exact fun h => h.hostMem | (intro h; simp only [SMap.wf_put, Mem.wf_write, Mem.wf_put, Mem.wf_putNat, h.hostMem]; done))
    (h_scratch : t.Canon → Mem.wf scratch_ = true := by first | with_reducible exact fun h => h.scratch | (intro h; simp only [SMap.wf_put, Mem.wf_write, Mem.wf_put, Mem.wf_putNat, h.scratch]; done))
    (h_pool : t.Canon → Mem.wf pool_ = true := by first | with_reducible exact fun h => h.pool | (intro h; simp only [SMap.wf_put, Mem.wf_write, Mem.wf_put, Mem.wf_putNat, h.pool]; done))
    (h_pound : t.Canon → Mem.wf pound_ = true := by first | with_reducible exact fun h => h.pound | (intro h; simp only [SMap.wf_put, Mem.wf_write, Mem.wf_put, Mem.wf_putNat, h.pound]; done))
    (h_marks : t.Canon → SMap.wf (fun _ => {}) marks_ = true := by first | with_reducible exact fun h => h.marks | (intro h; simp only [SMap.wf_put, Mem.wf_write, Mem.wf_put, Mem.wf_putNat, h.marks]; done))
    (h_imem : t.Canon → Mem.wf imem_ = true := by first | with_reducible exact fun h => h.imem | (intro h; simp only [SMap.wf_put, Mem.wf_write, Mem.wf_put, Mem.wf_putNat, h.imem]; done))
    : (State.mk t.pending params_ aoUs_ rst_ regs_ ext_ tags_ hostMem_ scratch_ pool_ pound_ marks_ imem_ hq_ regions_ tileErrs_ errWindowFrom_ sv_ rows_ gathers_ fab_ col_ tap_ port_ armed_ memCounts_ picks_).CanonMk :=
  show State.Canon _ from
  ⟨h_regs ht, h_ext ht, h_tags ht, h_hostMem ht, h_scratch ht, h_pool ht, h_pound ht, h_marks ht, h_imem ht⟩

/-- The state of a pair that an operation answered. -/
theorem State.pair_canon {α : Type} {p : α × State} {a : α} {s : State} (e : p = (a, s)) (h : p.2.Canon) : s.Canon := by
  rw [e] at h; exact h

end Sys2Proof.Machine
end

