-- ==== Sys2Proof/Laws/CanonStores.lean ====
section
/-! SUPPORT. The operations of the registers, flags, stores and the queues' shared operations keep every store in canonical form. -/

namespace Sys2Proof.Machine

open Sys2Proof

set_option Elab.async false

theorem State.setReg_canon : ∀ s page o v, State.Canon s → (State.setReg s page o v).Canon := by
  intro s page o v h; unfold State.setReg
  try simp only []
  repeat'
    first
    | with_reducible assumption | with_reducible refine State.canon_ite ?_ ?_
    | with_reducible refine State.foldl_canon (fun _ _ _ => ?_) ?_
    | with_reducible refine State.foldl_pair_canon (fun _ _ _ => ?_) ?_
    | (simp only [State.canon_mk_eq]; refine State.canon_mk ?_)

theorem State.setRegN_canon : ∀ s page o v, State.Canon s → (State.setRegN s page o v).Canon := by
  intro s page o v h; unfold State.setRegN
  try simp only []
  repeat'
    first
    | with_reducible assumption | with_reducible apply State.setReg_canon

theorem State.count_canon : ∀ s page o n, State.Canon s → (State.count s page o n).Canon := by
  intro s page o n h; unfold State.count
  try simp only []
  repeat'
    first
    | with_reducible assumption | with_reducible apply State.setRegN_canon
    | with_reducible refine State.canon_ite ?_ ?_

theorem State.setIrqPending_canon : ∀ s v b, State.Canon s → (State.setIrqPending s v b).Canon := by
  intro s v b h; unfold State.setIrqPending
  try simp only []
  repeat'
    first
    | with_reducible assumption | with_reducible refine State.canon_ite ?_ ?_
    | with_reducible refine State.foldl_canon (fun _ _ _ => ?_) ?_
    | with_reducible refine State.foldl_pair_canon (fun _ _ _ => ?_) ?_
    | (simp only [State.canon_mk_eq]; refine State.canon_mk ?_)

theorem State.sendIrq_canon : ∀ s v, State.Canon s → (State.sendIrq s v).Canon := by
  intro s v h; unfold State.sendIrq
  try simp only []
  repeat'
    first
    | with_reducible assumption | with_reducible apply State.count_canon
    | with_reducible refine State.canon_ite ?_ ?_ | with_reducible refine State.foldl_canon (fun _ _ _ => ?_) ?_
    | with_reducible refine State.foldl_pair_canon (fun _ _ _ => ?_) ?_
    | (simp only [State.canon_mk_eq]; refine State.canon_mk ?_)

theorem State.raiseNow_canon : ∀ s v, State.Canon s → (State.raiseNow s v).Canon := by
  intro s v h; unfold State.raiseNow
  try simp only []
  repeat'
    first
    | with_reducible assumption | with_reducible apply State.setIrqPending_canon
    | with_reducible apply State.sendIrq_canon | with_reducible refine State.canon_ite ?_ ?_

theorem State.raise_canon : ∀ s v tags, State.Canon s → (State.raise s v tags).Canon := by
  intro s v tags h; unfold State.raise
  try simp only []
  repeat'
    first
    | with_reducible assumption | with_reducible apply State.raiseNow_canon
    | with_reducible refine State.canon_ite ?_ ?_ | with_reducible refine State.foldl_canon (fun _ _ _ => ?_) ?_
    | with_reducible refine State.foldl_pair_canon (fun _ _ _ => ?_) ?_
    | (simp only [State.canon_mk_eq]; refine State.canon_mk ?_)

theorem State.err_canon : ∀ s page b, State.Canon s → (State.err s page b).Canon := by
  intro s page b h; unfold State.err
  try simp only []
  repeat'
    first
    | with_reducible assumption | with_reducible apply State.setReg_canon | with_reducible apply State.count_canon
    | with_reducible apply State.raise_canon | with_reducible refine State.canon_ite ?_ ?_

theorem State.poisoning_canon : ∀ s page b, State.Canon s → (State.poisoning s page b).Canon := by
  intro s page b h; unfold State.poisoning
  try simp only []
  repeat'
    first
    | with_reducible assumption | with_reducible apply State.err_canon | with_reducible apply State.count_canon

theorem State.setTag_canon : ∀ s k t, State.Canon s → (State.setTag s k t).Canon := by
  intro s k t h; unfold State.setTag
  try simp only []
  repeat'
    first
    | with_reducible assumption | with_reducible refine State.canon_ite ?_ ?_
    | with_reducible refine State.foldl_canon (fun _ _ _ => ?_) ?_
    | with_reducible refine State.foldl_pair_canon (fun _ _ _ => ?_) ?_
    | (simp only [State.canon_mk_eq]; refine State.canon_mk ?_)

theorem State.writeTag_canon : ∀ s a n new poison k, State.Canon s → (State.writeTag s a n new poison k).Canon := by
  intro s a n new poison k h; unfold State.writeTag
  try simp only []
  repeat'
    first
    | with_reducible assumption | with_reducible apply State.count_canon | with_reducible apply State.poisoning_canon
    | with_reducible apply State.setTag_canon | with_reducible refine State.canon_ite ?_ ?_
    | with_reducible refine State.foldl_canon (fun _ _ _ => ?_) ?_
    | with_reducible refine State.foldl_pair_canon (fun _ _ _ => ?_) ?_
    | (simp only [State.canon_mk_eq]; refine State.canon_mk ?_) | split

theorem State.extWriteTag_canon : ∀ s a bs new poison, State.Canon s → (State.extWriteTag s a bs new poison).Canon := by
  intro s a bs new poison h; unfold State.extWriteTag
  try simp only []
  repeat'
    first
    | with_reducible assumption | with_reducible apply State.writeTag_canon
    | with_reducible refine State.canon_ite ?_ ?_ | with_reducible refine State.foldl_canon (fun _ _ _ => ?_) ?_
    | with_reducible refine State.foldl_pair_canon (fun _ _ _ => ?_) ?_
    | (simp only [State.canon_mk_eq]; refine State.canon_mk ?_)

theorem State.extWrite_canon : ∀ s a bs poison, State.Canon s → (State.extWrite s a bs poison).Canon := by
  intro s a bs poison h; unfold State.extWrite
  try simp only []
  repeat'
    first
    | with_reducible assumption | with_reducible apply State.extWriteTag_canon

theorem State.setTileQuar_canon : ∀ s t b, State.Canon s → (State.setTileQuar s t b).Canon := by
  intro s t b h; unfold State.setTileQuar
  try simp only []
  repeat'
    first
    | with_reducible assumption | with_reducible apply State.setReg_canon

theorem State.markTileQuar_canon : ∀ s t, State.Canon s → (State.markTileQuar s t).Canon := by
  intro s t h; unfold State.markTileQuar
  try simp only []
  repeat'
    first
    | with_reducible assumption | with_reducible apply State.err_canon
    | with_reducible apply State.setTileQuar_canon | with_reducible refine State.canon_ite ?_ ?_

theorem State.countTileErr_canon : ∀ s st ue, State.Canon s → (State.countTileErr s st ue).Canon := by
  intro s st ue h; unfold State.countTileErr
  try simp only []
  repeat'
    first
    | with_reducible assumption | with_reducible apply State.markTileQuar_canon
    | with_reducible refine State.canon_ite ?_ ?_ | with_reducible refine State.foldl_canon (fun _ _ _ => ?_) ?_
    | with_reducible refine State.foldl_pair_canon (fun _ _ _ => ?_) ?_
    | (simp only [State.canon_mk_eq]; refine State.canon_mk ?_) | split

theorem State.corrected_canon : ∀ s page b, State.Canon s → (State.corrected s page b).Canon := by
  intro s page b h; unfold State.corrected
  try simp only []
  repeat'
    first
    | with_reducible assumption | with_reducible apply State.err_canon | with_reducible apply State.count_canon

theorem State.setMark_canon : ∀ s k m, State.Canon s → (State.setMark s k m).Canon := by
  intro s k m h; unfold State.setMark
  try simp only []
  repeat'
    first
    | with_reducible assumption | with_reducible refine State.canon_ite ?_ ?_
    | with_reducible refine State.foldl_canon (fun _ _ _ => ?_) ?_
    | with_reducible refine State.foldl_pair_canon (fun _ _ _ => ?_) ?_
    | (simp only [State.canon_mk_eq]; refine State.canon_mk ?_)

theorem State.seeWord_canon : ∀ s st w, State.Canon s → (State.seeWord s st w).Canon := by
  intro s st w h; unfold State.seeWord
  try simp only []
  repeat'
    first
    | with_reducible assumption | with_reducible apply State.countTileErr_canon
    | with_reducible apply State.corrected_canon | with_reducible apply State.setMark_canon
    | with_reducible apply State.poisoning_canon | with_reducible refine State.canon_ite ?_ ?_
    | with_reducible refine State.foldl_canon (fun _ _ _ => ?_) ?_
    | with_reducible refine State.foldl_pair_canon (fun _ _ _ => ?_) ?_
    | (simp only [State.canon_mk_eq]; refine State.canon_mk ?_) | split

theorem State.see_canon : ∀ s st a n, State.Canon s → (State.see s st a n).Canon := by
  intro s st a n h; unfold State.see
  try simp only []
  repeat'
    first
    | with_reducible assumption | with_reducible apply State.seeWord_canon | with_reducible refine State.canon_ite ?_ ?_
    | with_reducible refine State.foldl_canon (fun _ _ _ => ?_) ?_
    | with_reducible refine State.foldl_pair_canon (fun _ _ _ => ?_) ?_
    | (simp only [State.canon_mk_eq]; refine State.canon_mk ?_) | split

theorem State.updBarge_canon : ∀ s b f, State.Canon s → (State.updBarge s b f).Canon := by
  intro s b f h; unfold State.updBarge
  try simp only []
  repeat'
    first
    | with_reducible assumption | with_reducible refine State.canon_ite ?_ ?_
    | with_reducible refine State.foldl_canon (fun _ _ _ => ?_) ?_
    | with_reducible refine State.foldl_pair_canon (fun _ _ _ => ?_) ?_
    | (simp only [State.canon_mk_eq]; refine State.canon_mk ?_)

theorem State.strike_canon : ∀ s st w, State.Canon s → (State.strike s st w).Canon := by
  intro s st w h; unfold State.strike
  try simp only []
  repeat'
    first
    | with_reducible assumption | with_reducible apply State.count_canon | with_reducible apply State.setMark_canon
    | with_reducible apply State.countTileErr_canon | with_reducible apply State.poisoning_canon
    | with_reducible refine State.canon_ite ?_ ?_ | with_reducible refine State.foldl_canon (fun _ _ _ => ?_) ?_
    | with_reducible refine State.foldl_pair_canon (fun _ _ _ => ?_) ?_
    | (simp only [State.canon_mk_eq]; refine State.canon_mk ?_) | split

theorem State.writeMark_canon : ∀ s st a n pend poison w, State.Canon s → (State.writeMark s st a n pend poison w).Canon := by
  intro s st a n pend poison w h; unfold State.writeMark
  try simp only []
  repeat'
    first
    | with_reducible assumption | with_reducible apply State.setMark_canon | with_reducible apply State.strike_canon
    | with_reducible refine State.canon_ite ?_ ?_ | with_reducible refine State.foldl_canon (fun _ _ _ => ?_) ?_
    | with_reducible refine State.foldl_pair_canon (fun _ _ _ => ?_) ?_
    | (simp only [State.canon_mk_eq]; refine State.canon_mk ?_)

theorem State.wr_canon : ∀ s st a bs pend poison, State.Canon s → (State.wr s st a bs pend poison).Canon := by
  intro s st a bs pend poison h; unfold State.wr
  try simp only []
  repeat'
    first
    | with_reducible assumption | with_reducible apply State.extWrite_canon | with_reducible apply State.writeMark_canon
    | with_reducible refine State.canon_ite ?_ ?_ | with_reducible refine State.foldl_canon (fun _ _ _ => ?_) ?_
    | with_reducible refine State.foldl_pair_canon (fun _ _ _ => ?_) ?_
    | (simp only [State.canon_mk_eq]; refine State.canon_mk ?_) | split

theorem State.setRegion_canon : ∀ s r x, State.Canon s → (State.setRegion s r x).Canon := by
  intro s r x h; unfold State.setRegion
  try simp only []
  repeat'
    first
    | with_reducible assumption | with_reducible refine State.canon_ite ?_ ?_
    | with_reducible refine State.foldl_canon (fun _ _ _ => ?_) ?_
    | with_reducible refine State.foldl_pair_canon (fun _ _ _ => ?_) ?_
    | (simp only [State.canon_mk_eq]; refine State.canon_mk ?_)

theorem State.updRegion_canon : ∀ s r f, State.Canon s → (State.updRegion s r f).Canon := by
  intro s r f h; unfold State.updRegion
  try simp only []
  repeat'
    first
    | with_reducible assumption | with_reducible apply State.setRegion_canon

theorem State.extPutNat_canon : ∀ s a n v, State.Canon s → (State.extPutNat s a n v).Canon := by
  intro s a n v h; unfold State.extPutNat
  try simp only []
  repeat'
    first
    | with_reducible assumption | with_reducible apply State.extWrite_canon

theorem State.journalWrite_canon : ∀ s j r jstate, State.Canon s → (State.journalWrite s j r jstate).Canon := by
  intro s j r jstate h; unfold State.journalWrite
  try simp only []
  repeat'
    first
    | with_reducible assumption | with_reducible apply State.extPutNat_canon

theorem State.noteFate_canon : ∀ s fate, State.Canon s → (State.noteFate s fate).Canon := by
  intro s fate h; unfold State.noteFate
  try simp only []
  repeat'
    first
    | with_reducible assumption | with_reducible apply State.err_canon | with_reducible refine State.canon_ite ?_ ?_

theorem State.dupFate_canon : ∀ s j fate, State.Canon s → (State.dupFate s j fate).Canon := by
  intro s j fate h; unfold State.dupFate
  try simp only []
  repeat'
    first
    | with_reducible assumption | with_reducible refine State.canon_ite ?_ ?_
    | with_reducible refine State.foldl_canon (fun _ _ _ => ?_) ?_
    | with_reducible refine State.foldl_pair_canon (fun _ _ _ => ?_) ?_
    | (simp only [State.canon_mk_eq]; refine State.canon_mk ?_)

theorem State.dropItem_canon : ∀ s j, State.Canon s → (State.dropItem s j).Canon := by
  intro s j h; unfold State.dropItem
  try simp only []
  repeat'
    first
    | with_reducible assumption | with_reducible refine State.canon_ite ?_ ?_
    | with_reducible refine State.foldl_canon (fun _ _ _ => ?_) ?_
    | with_reducible refine State.foldl_pair_canon (fun _ _ _ => ?_) ?_
    | (simp only [State.canon_mk_eq]; refine State.canon_mk ?_)

theorem State.setCq_canon : ∀ s n q, State.Canon s → (State.setCq s n q).Canon := by
  intro s n q h; unfold State.setCq
  try simp only []
  repeat'
    first
    | with_reducible assumption | with_reducible refine State.canon_ite ?_ ?_
    | with_reducible refine State.foldl_canon (fun _ _ _ => ?_) ?_
    | with_reducible refine State.foldl_pair_canon (fun _ _ _ => ?_) ?_
    | (simp only [State.canon_mk_eq]; refine State.canon_mk ?_)

theorem State.queueRec_canon : ∀ s cq r, State.Canon s → (State.queueRec s cq r).Canon := by
  intro s cq r h; unfold State.queueRec
  try simp only []
  repeat'
    first
    | with_reducible assumption | with_reducible apply State.setCq_canon

theorem State.settle_canon : ∀ s it fate v0 v1 detail berth frees, State.Canon s → (State.settle s it fate v0 v1 detail berth frees).Canon := by
  intro s it fate v0 v1 detail berth frees h; unfold State.settle
  try simp only []
  repeat'
    first
    | with_reducible assumption | with_reducible apply State.journalWrite_canon
    | with_reducible apply State.noteFate_canon | with_reducible apply State.dupFate_canon
    | with_reducible apply State.dropItem_canon | with_reducible apply State.queueRec_canon
    | with_reducible refine State.canon_ite ?_ ?_

theorem State.setBerth_canon : ∀ s n x, State.Canon s → (State.setBerth s n x).Canon := by
  intro s n x h; unfold State.setBerth
  try simp only []
  repeat'
    first
    | with_reducible assumption | with_reducible refine State.canon_ite ?_ ?_
    | with_reducible refine State.foldl_canon (fun _ _ _ => ?_) ?_
    | with_reducible refine State.foldl_pair_canon (fun _ _ _ => ?_) ?_
    | (simp only [State.canon_mk_eq]; refine State.canon_mk ?_)

theorem State.settleJ_canon : ∀ s j fate v0, State.Canon s → (State.settleJ s j fate v0).Canon := by
  intro s j fate v0 h; unfold State.settleJ
  try simp only []
  repeat'
    first
    | with_reducible assumption | with_reducible apply State.settle_canon | with_reducible refine State.canon_ite ?_ ?_
    | with_reducible refine State.foldl_canon (fun _ _ _ => ?_) ?_
    | with_reducible refine State.foldl_pair_canon (fun _ _ _ => ?_) ?_
    | (simp only [State.canon_mk_eq]; refine State.canon_mk ?_) | split

theorem State.setMooring_canon : ∀ s m x, State.Canon s → (State.setMooring s m x).Canon := by
  intro s m x h; unfold State.setMooring
  try simp only []
  repeat'
    first
    | with_reducible assumption | with_reducible refine State.canon_ite ?_ ?_
    | with_reducible refine State.foldl_canon (fun _ _ _ => ?_) ?_
    | with_reducible refine State.foldl_pair_canon (fun _ _ _ => ?_) ?_
    | (simp only [State.canon_mk_eq]; refine State.canon_mk ?_)

theorem State.updMooring_canon : ∀ s m f, State.Canon s → (State.updMooring s m f).Canon := by
  intro s m f h; unfold State.updMooring
  try simp only []
  repeat'
    first
    | with_reducible assumption | with_reducible apply State.setMooring_canon

theorem State.updBerth_canon : ∀ s n f, State.Canon s → (State.updBerth s n f).Canon := by
  intro s n f h; unfold State.updBerth
  try simp only []
  repeat'
    first
    | with_reducible assumption | with_reducible apply State.setBerth_canon

theorem State.setAccount_canon : ∀ s n x, State.Canon s → (State.setAccount s n x).Canon := by
  intro s n x h; unfold State.setAccount
  try simp only []
  repeat'
    first
    | with_reducible assumption | with_reducible refine State.canon_ite ?_ ?_
    | with_reducible refine State.foldl_canon (fun _ _ _ => ?_) ?_
    | with_reducible refine State.foldl_pair_canon (fun _ _ _ => ?_) ?_
    | (simp only [State.canon_mk_eq]; refine State.canon_mk ?_)

theorem State.updAccount_canon : ∀ s n f, State.Canon s → (State.updAccount s n f).Canon := by
  intro s n f h; unfold State.updAccount
  try simp only []
  repeat'
    first
    | with_reducible assumption | with_reducible apply State.setAccount_canon

theorem State.sealHeader_canon : ∀ s, State.Canon s → (State.sealHeader s).Canon := by
  intro s h; unfold State.sealHeader
  try simp only []
  repeat'
    first
    | with_reducible assumption | with_reducible apply State.extPutNat_canon

theorem State.journalOpen_canon : ∀ s j r, State.Canon s → (State.journalOpen s j r).Canon := by
  intro s j r h; unfold State.journalOpen
  try simp only []
  repeat'
    first
    | with_reducible assumption | with_reducible apply State.sealHeader_canon
    | with_reducible apply State.extPutNat_canon | with_reducible apply State.journalWrite_canon

theorem State.updItem_canon : ∀ s j f, State.Canon s → (State.updItem s j f).Canon := by
  intro s j f h; unfold State.updItem
  try simp only []
  repeat'
    first
    | with_reducible assumption | with_reducible refine State.canon_ite ?_ ?_
    | with_reducible refine State.foldl_canon (fun _ _ _ => ?_) ?_
    | with_reducible refine State.foldl_pair_canon (fun _ _ _ => ?_) ?_
    | (simp only [State.canon_mk_eq]; refine State.canon_mk ?_)

theorem State.setSq_canon : ∀ s n q, State.Canon s → (State.setSq s n q).Canon := by
  intro s n q h; unfold State.setSq
  try simp only []
  repeat'
    first
    | with_reducible assumption | with_reducible refine State.canon_ite ?_ ?_
    | with_reducible refine State.foldl_canon (fun _ _ _ => ?_) ?_
    | with_reducible refine State.foldl_pair_canon (fun _ _ _ => ?_) ?_
    | (simp only [State.canon_mk_eq]; refine State.canon_mk ?_)

theorem State.wrNat_canon : ∀ s st a n v pend, State.Canon s → (State.wrNat s st a n v pend).Canon := by
  intro s st a n v pend h; unfold State.wrNat
  try simp only []
  repeat'
    first
    | with_reducible assumption | with_reducible apply State.wr_canon

theorem State.noteBank_canon : ∀ s page bank ok, State.Canon s → (State.noteBank s page bank ok).Canon := by
  intro s page bank ok h; unfold State.noteBank
  try simp only []
  repeat'
    first
    | with_reducible assumption | with_reducible refine State.canon_ite ?_ ?_
    | with_reducible refine State.foldl_canon (fun _ _ _ => ?_) ?_
    | with_reducible refine State.foldl_pair_canon (fun _ _ _ => ?_) ?_
    | (simp only [State.canon_mk_eq]; refine State.canon_mk ?_)

theorem State.storeHeads_canon : ∀ s, State.Canon s → (State.storeHeads s).Canon := by
  intro s h; unfold State.storeHeads
  try simp only []
  repeat'
    first
    | with_reducible assumption | with_reducible apply State.sealHeader_canon
    | with_reducible apply State.extWrite_canon

theorem State.journalMark_canon : ∀ s j jstate, State.Canon s → (State.journalMark s j jstate).Canon := by
  intro s j jstate h; unfold State.journalMark
  try simp only []
  repeat'
    first
    | with_reducible assumption | with_reducible apply State.extPutNat_canon

theorem State.hostWrite1_canon : ∀ s owner p, State.Canon s → (State.hostWrite1 s owner p).Canon := by
  intro s owner p h; unfold State.hostWrite1
  try simp only []
  repeat'
    first
    | with_reducible assumption | with_reducible refine State.canon_ite ?_ ?_
    | with_reducible refine State.foldl_canon (fun _ _ _ => ?_) ?_
    | with_reducible refine State.foldl_pair_canon (fun _ _ _ => ?_) ?_
    | (simp only [State.canon_mk_eq]; refine State.canon_mk ?_)

theorem State.hostWrite_canon : ∀ s a bs owner, State.Canon s → (State.hostWrite s a bs owner).Canon := by
  intro s a bs owner h; unfold State.hostWrite
  try simp only []
  repeat'
    first
    | with_reducible assumption | with_reducible apply State.hostWrite1_canon
    | with_reducible refine State.canon_ite ?_ ?_ | with_reducible refine State.foldl_canon (fun _ _ _ => ?_) ?_

theorem State.locWrite_canon : ∀ s inExt a bs owner, State.Canon s → (State.locWrite s inExt a bs owner).Canon := by
  intro s inExt a bs owner h; unfold State.locWrite
  try simp only []
  repeat'
    first
    | with_reducible assumption | with_reducible apply State.extWrite_canon
    | with_reducible apply State.hostWrite_canon | with_reducible refine State.canon_ite ?_ ?_

theorem State.offerPending_canon : ∀ s v, State.Canon s → (State.offerPending s v).Canon := by
  intro s v h; unfold State.offerPending
  try simp only []
  repeat'
    first
    | with_reducible assumption | with_reducible apply State.sendIrq_canon
    | with_reducible apply State.setIrqPending_canon | with_reducible refine State.canon_ite ?_ ?_

theorem State.poisoningEngine_canon : ∀ s, State.Canon s → (State.poisoningEngine s).Canon := by
  intro s h; unfold State.poisoningEngine
  try simp only []
  repeat'
    first
    | with_reducible assumption | with_reducible apply State.err_canon | with_reducible apply State.count_canon

theorem State.memCount_canon : ∀ s p k n, State.Canon s → (State.memCount s p k n).Canon := by
  intro s p k n h; unfold State.memCount
  try simp only []
  repeat'
    first
    | with_reducible assumption | with_reducible refine State.canon_ite ?_ ?_
    | with_reducible refine State.foldl_canon (fun _ _ _ => ?_) ?_
    | with_reducible refine State.foldl_pair_canon (fun _ _ _ => ?_) ?_
    | (simp only [State.canon_mk_eq]; refine State.canon_mk ?_)

theorem State.refusePoison_canon : ∀ s, State.Canon s → (State.refusePoison s).Canon := by
  intro s h; unfold State.refusePoison
  try simp only []
  repeat'
    first
    | with_reducible assumption | with_reducible apply State.count_canon

theorem State.clearErr_canon : ∀ s page ones, State.Canon s → (State.clearErr s page ones).Canon := by
  intro s page ones h; unfold State.clearErr
  try simp only []
  repeat'
    first
    | with_reducible assumption | with_reducible apply State.setReg_canon

end Sys2Proof.Machine
end

