-- ==== Sys2Proof/Laws/CanonBarges.lean ====
section
/-! SUPPORT. The operations of operands, serving, barges, op records, locks and queue items keep every store in canonical form. -/

namespace Sys2Proof.Machine

open Sys2Proof

set_option Elab.async false

theorem State.seeIn_canon : ∀ s st rs, State.Canon s → (State.seeIn s st rs).Canon := by
  intro s st rs h; unfold State.seeIn
  try simp only []
  repeat'
    first
    | with_reducible assumption | with_reducible apply State.see_canon | with_reducible refine State.canon_ite ?_ ?_
    | with_reducible refine State.foldl_canon (fun _ _ _ => ?_) ?_

theorem State.notePend_canon : ∀ s b i m, State.Canon s → (State.notePend s b i m).Canon := by
  intro s b i m h; unfold State.notePend
  try simp only []
  repeat'
    first
    | with_reducible assumption | with_reducible apply State.updBarge_canon

theorem State.addUnit_canon : ∀ s u, State.Canon s → (State.addUnit s u).Canon := by
  intro s u h; unfold State.addUnit
  try simp only []
  repeat'
    first
    | with_reducible assumption | with_reducible apply State.notePend_canon | with_reducible refine State.canon_ite ?_ ?_
    | with_reducible refine State.foldl_canon (fun _ _ _ => ?_) ?_
    | with_reducible refine State.foldl_pair_canon (fun _ _ _ => ?_) ?_
    | (simp only [State.canon_mk_eq]; refine State.canon_mk ?_) | split

theorem State.countNum_canon : ∀ s r e, State.Canon s → (State.countNum s r e).Canon := by
  intro s r e h; unfold State.countNum
  try simp only []
  repeat'
    first
    | with_reducible assumption | with_reducible apply State.count_canon

theorem State.takePicks_canon : ∀ s n, State.Canon s → (State.takePicks s n).Canon := by
  intro s n h; unfold State.takePicks
  try simp only []
  repeat'
    first
    | with_reducible assumption | with_reducible refine State.canon_ite ?_ ?_
    | with_reducible refine State.foldl_canon (fun _ _ _ => ?_) ?_
    | with_reducible refine State.foldl_pair_canon (fun _ _ _ => ?_) ?_
    | (simp only [State.canon_mk_eq]; refine State.canon_mk ?_)

theorem State.takeDraws_canon : ∀ s r n, State.Canon s → (State.takeDraws s r n).Canon := by
  intro s r n h; unfold State.takeDraws
  try simp only []
  repeat'
    first
    | with_reducible assumption | with_reducible apply State.updRegion_canon

theorem State.mapMarks_canon : ∀ s p f, State.Canon s → (State.mapMarks s p f).Canon := by
  intro s p f h
  unfold State.mapMarks
  simp only [State.canon_mk_eq]
  refine State.canon_mk h (h_marks := fun h => ?_)
  refine SMap.wf_filterMap _ _ _ (fun e e2 hn he => ?_) h.marks
  obtain ⟨k, m⟩ := e
  simp only [] at he hn
  repeat' split at he
  all_goals first | (cases he; done) | (cases he; exact ⟨rfl, by assumption⟩)

theorem State.resolveCancels_canon : ∀ s n fate, State.Canon s → (State.resolveCancels s n fate).Canon := by
  intro s n fate h; unfold State.resolveCancels
  try simp only []
  repeat'
    first
    | with_reducible assumption | with_reducible apply State.settle_canon
    | with_reducible refine State.canon_ite ?_ ?_ | with_reducible refine State.foldl_canon (fun _ _ _ => ?_) ?_

theorem State.fateRequest_canon : ∀ s n fate, State.Canon s → (State.fateRequest s n fate).Canon := by
  intro s n fate h; unfold State.fateRequest
  try simp only []
  repeat'
    first
    | with_reducible assumption | with_reducible apply State.resolveCancels_canon
    | with_reducible apply State.settle_canon | with_reducible apply State.setBerth_canon
    | with_reducible refine State.canon_ite ?_ ?_ | with_reducible refine State.foldl_canon (fun _ _ _ => ?_) ?_
    | with_reducible refine State.foldl_pair_canon (fun _ _ _ => ?_) ?_
    | (simp only [State.canon_mk_eq]; refine State.canon_mk ?_) | split

theorem State.endRequest_canon : ∀ s n fate, State.Canon s → (State.endRequest s n fate).Canon := by
  intro s n fate h; unfold State.endRequest
  try simp only []
  repeat'
    first
    | with_reducible assumption | with_reducible apply State.fateRequest_canon
    | with_reducible refine State.canon_ite ?_ ?_

theorem State.failBarge_canon : ∀ s id fate, State.Canon s → (State.failBarge s id fate).Canon := by
  intro s id fate h; unfold State.failBarge
  try simp only []
  repeat'
    first
    | with_reducible assumption | with_reducible apply State.mapMarks_canon | with_reducible apply State.updBarge_canon
    | with_reducible apply State.endRequest_canon | with_reducible apply State.settleJ_canon
    | with_reducible apply State.noteFate_canon | with_reducible refine State.canon_ite ?_ ?_
    | with_reducible refine State.foldl_canon (fun _ _ _ => ?_) ?_
    | with_reducible refine State.foldl_pair_canon (fun _ _ _ => ?_) ?_
    | (simp only [State.canon_mk_eq]; refine State.canon_mk ?_) | split

theorem State.acctCount_canon : ∀ s tenant f, State.Canon s → (State.acctCount s tenant f).Canon := by
  intro s tenant f h; unfold State.acctCount
  try simp only []
  repeat'
    first
    | with_reducible assumption | with_reducible apply State.updAccount_canon

theorem State.boundaryOf_canon : ∀ s n, State.Canon s → (State.boundaryOf s n).Canon := by
  intro s n h; unfold State.boundaryOf
  try simp only []
  repeat'
    first
    | with_reducible assumption | with_reducible apply State.endRequest_canon | with_reducible apply State.count_canon
    | with_reducible apply State.updBerth_canon | with_reducible apply State.acctCount_canon
    | with_reducible refine State.canon_ite ?_ ?_ | with_reducible refine State.foldl_canon (fun _ _ _ => ?_) ?_
    | with_reducible refine State.foldl_pair_canon (fun _ _ _ => ?_) ?_
    | (simp only [State.canon_mk_eq]; refine State.canon_mk ?_) | split

theorem State.dropPin_canon : ∀ s m a v, State.Canon s → (State.dropPin s m a v).Canon := by
  intro s m a v h; unfold State.dropPin
  try simp only []
  repeat'
    first
    | with_reducible assumption | with_reducible refine State.canon_ite ?_ ?_
    | with_reducible refine State.foldl_canon (fun _ _ _ => ?_) ?_
    | with_reducible refine State.foldl_pair_canon (fun _ _ _ => ?_) ?_
    | (simp only [State.canon_mk_eq]; refine State.canon_mk ?_)

theorem State.releasePin_canon : ∀ s n, State.Canon s → (State.releasePin s n).Canon := by
  intro s n h; unfold State.releasePin
  try simp only []
  repeat'
    first
    | with_reducible assumption | with_reducible apply State.setBerth_canon | with_reducible apply State.dropPin_canon
    | with_reducible refine State.canon_ite ?_ ?_ | with_reducible refine State.foldl_canon (fun _ _ _ => ?_) ?_
    | with_reducible refine State.foldl_pair_canon (fun _ _ _ => ?_) ?_
    | (simp only [State.canon_mk_eq]; refine State.canon_mk ?_) | split

theorem State.notePinCheck_canon : ∀ s m a tenant, State.Canon s → (State.notePinCheck s m a tenant).Canon := by
  intro s m a tenant h; unfold State.notePinCheck
  try simp only []
  repeat'
    first
    | with_reducible assumption | with_reducible apply State.err_canon | with_reducible refine State.canon_ite ?_ ?_
    | with_reducible refine State.foldl_canon (fun _ _ _ => ?_) ?_
    | with_reducible refine State.foldl_pair_canon (fun _ _ _ => ?_) ?_
    | (simp only [State.canon_mk_eq]; refine State.canon_mk ?_) | split

theorem State.takePin_canon : ∀ s m a v, State.Canon s → (State.takePin s m a v).Canon := by
  intro s m a v h; unfold State.takePin
  try simp only []
  repeat'
    first
    | with_reducible assumption | with_reducible refine State.canon_ite ?_ ?_
    | with_reducible refine State.foldl_canon (fun _ _ _ => ?_) ?_
    | with_reducible refine State.foldl_pair_canon (fun _ _ _ => ?_) ?_
    | (simp only [State.canon_mk_eq]; refine State.canon_mk ?_) | split

theorem State.monitor_canon : ∀ s n, State.Canon s → (State.monitor s n).Canon := by
  intro s n h; unfold State.monitor
  try simp only []
  repeat'
    first
    | with_reducible assumption | with_reducible apply State.updMooring_canon | with_reducible apply State.count_canon
    | with_reducible apply State.releasePin_canon | with_reducible apply State.updBerth_canon
    | with_reducible apply State.endRequest_canon | with_reducible apply State.notePinCheck_canon
    | with_reducible apply State.takePin_canon | with_reducible refine State.canon_ite ?_ ?_
    | with_reducible refine State.foldl_canon (fun _ _ _ => ?_) ?_
    | with_reducible refine State.foldl_pair_canon (fun _ _ _ => ?_) ?_
    | (simp only [State.canon_mk_eq]; refine State.canon_mk ?_) | split

theorem State.boundary_canon : ∀ s m, State.Canon s → (State.boundary s m).Canon := by
  intro s m h; unfold State.boundary
  try simp only []
  repeat'
    first
    | with_reducible assumption | with_reducible apply State.boundaryOf_canon
    | with_reducible apply State.monitor_canon | with_reducible refine State.canon_ite ?_ ?_
    | with_reducible refine State.foldl_canon (fun _ _ _ => ?_) ?_

theorem State.noteDefers_canon : ∀ s, State.Canon s → (State.noteDefers s).Canon := by
  intro s h; unfold State.noteDefers
  try simp only []
  repeat'
    first
    | with_reducible assumption | with_reducible refine State.canon_ite ?_ ?_
    | with_reducible refine State.foldl_canon (fun _ _ _ => ?_) ?_
    | with_reducible refine State.foldl_pair_canon (fun _ _ _ => ?_) ?_
    | (simp only [State.canon_mk_eq]; refine State.canon_mk ?_)

theorem State.balance_canon : ∀ s n units, State.Canon s → (State.balance s n units).Canon := by
  intro s n units h; unfold State.balance
  try simp only []
  repeat'
    first
    | with_reducible assumption | with_reducible apply State.setAccount_canon
    | with_reducible apply State.noteDefers_canon | with_reducible apply State.count_canon
    | with_reducible refine State.canon_ite ?_ ?_

theorem State.configEpoch_canon : ∀ s it, State.Canon s → (State.configEpoch s it).Canon := by
  intro s it h; unfold State.configEpoch
  try simp only []
  repeat'
    first
    | with_reducible assumption | with_reducible apply State.settle_canon | with_reducible apply State.updItem_canon
    | with_reducible refine State.canon_ite ?_ ?_

theorem State.finishOp_canon : ∀ s b i, State.Canon s → (State.finishOp s b i).Canon := by
  intro s b i h; unfold State.finishOp
  try simp only []
  repeat'
    first
    | with_reducible assumption | with_reducible apply State.updBarge_canon

theorem State.doorbellSq_canon : ∀ s q p, State.Canon s → (State.doorbellSq s q p).Canon := by
  intro s q p h; unfold State.doorbellSq
  try simp only []
  repeat'
    first
    | with_reducible assumption | with_reducible apply State.err_canon | with_reducible apply State.setSq_canon
    | with_reducible refine State.canon_ite ?_ ?_

theorem State.takeBerth_canon : ∀ s it d n pin, State.Canon s → (State.takeBerth s it d n pin).Canon := by
  intro s it d n pin h; unfold State.takeBerth
  try simp only []
  repeat'
    first
    | with_reducible assumption | with_reducible apply State.setBerth_canon | with_reducible apply State.updItem_canon
    | with_reducible apply State.extPutNat_canon | with_reducible apply State.count_canon
    | with_reducible apply State.acctCount_canon | with_reducible apply State.takePin_canon
    | with_reducible apply State.monitor_canon | with_reducible apply State.noteDefers_canon
    | with_reducible refine State.canon_ite ?_ ?_ | with_reducible refine State.foldl_canon (fun _ _ _ => ?_) ?_
    | with_reducible refine State.foldl_pair_canon (fun _ _ _ => ?_) ?_
    | (simp only [State.canon_mk_eq]; refine State.canon_mk ?_) | split

theorem State.admitRun_canon : ∀ s it, State.Canon s → (State.admitRun s it).Canon := by
  intro s it h; unfold State.admitRun
  try simp only []
  repeat'
    first
    | with_reducible assumption | with_reducible apply State.settle_canon | with_reducible apply State.notePinCheck_canon
    | with_reducible apply State.acctCount_canon | with_reducible apply State.count_canon
    | with_reducible apply State.err_canon | with_reducible apply State.takeBerth_canon
    | with_reducible refine State.canon_ite ?_ ?_ | with_reducible refine State.foldl_canon (fun _ _ _ => ?_) ?_
    | with_reducible refine State.foldl_pair_canon (fun _ _ _ => ?_) ?_
    | (simp only [State.canon_mk_eq]; refine State.canon_mk ?_) | split

theorem State.dupEnter_canon : ∀ s k, State.Canon s → (State.dupEnter s k).Canon := by
  intro s k h; unfold State.dupEnter
  try simp only []
  repeat'
    first
    | with_reducible assumption | with_reducible refine State.canon_ite ?_ ?_
    | with_reducible refine State.foldl_canon (fun _ _ _ => ?_) ?_
    | with_reducible refine State.foldl_pair_canon (fun _ _ _ => ?_) ?_
    | (simp only [State.canon_mk_eq]; refine State.canon_mk ?_)

theorem State.admitReq_canon : ∀ s it, State.Canon s → (State.admitReq s it).Canon := by
  intro s it h; unfold State.admitReq
  try simp only []
  repeat'
    first
    | with_reducible assumption | with_reducible apply State.settle_canon | with_reducible apply State.admitRun_canon
    | with_reducible apply State.dupEnter_canon | with_reducible apply State.err_canon
    | with_reducible apply State.count_canon | with_reducible refine State.canon_ite ?_ ?_
    | with_reducible refine State.foldl_canon (fun _ _ _ => ?_) ?_
    | with_reducible refine State.foldl_pair_canon (fun _ _ _ => ?_) ?_
    | (simp only [State.canon_mk_eq]; refine State.canon_mk ?_) | split

theorem State.failNamed_canon : ∀ s, State.Canon s → (State.failNamed s).Canon := by
  intro s h; unfold State.failNamed
  try simp only []
  repeat'
    first
    | with_reducible assumption | with_reducible apply State.failBarge_canon
    | with_reducible refine State.canon_ite ?_ ?_ | with_reducible refine State.foldl_canon (fun _ _ _ => ?_) ?_

theorem State.process_canon (s : State) (j t : Nat) (f : State → Item → State) (hf : ∀ s it, s.Canon → (f s it).Canon) (h : s.Canon) : (State.process s j t f).Canon := by
  unfold State.process
  split
  · split
    · exact hf _ _ h
    · exact h
  · exact h

theorem State.processInTurn_canon (s : State) (j t : Nat) (f : State → Item → State)
    (hf : ∀ s it, s.Canon → (f s it).Canon) (h : s.Canon) : (State.processInTurn s j t f).Canon := by
  unfold State.processInTurn
  refine State.process_canon _ _ _ _ (fun s it h => ?_) h
  split
  · exact hf _ _ h
  · exact h

theorem State.fetchRec_canon (s : State) (id i code : Nat) (own : State → Barge → List Nat → Nat → Bool) (h : s.Canon) : (State.fetchRec s id i code own).Canon := by
  unfold State.fetchRec
  split
  · exact h
  · simp only []
    repeat' first | assumption | with_reducible apply State.failBarge_canon | with_reducible apply State.updBarge_canon | with_reducible apply State.seeIn_canon | with_reducible refine State.canon_ite ?_ ?_

theorem State.issue_canon : ∀ s b i, State.Canon s → (State.issue s b i).Canon := by
  intro s b i h; unfold State.issue
  try simp only []
  repeat'
    first
    | with_reducible assumption | with_reducible apply State.updBarge_canon

theorem State.runRec_canon (s : State) (id i code : Nat) (own : State → Barge → List Nat → Nat → Bool)
    (zero : Nat → Bool) (effect : State → Barge → Nat → State) (ext : State → Barge → Nat → List (Nat × Nat))
    (hf : ∀ s b w, s.Canon → (effect s b w).Canon) (h : s.Canon) :
    (State.runRec s id i code own zero effect ext).Canon := by
  unfold State.runRec
  simp only []
  refine State.failNamed_canon _ ?_
  have h1 := State.fetchRec_canon s id i code own h
  split
  · exact h1
  · split
    · exact h1
    · split
      · exact State.failBarge_canon _ _ _ h1
      · split
        · exact State.finishOp_canon _ _ _ (State.issue_canon _ _ _ h1)
        · split
          · exact h1
          · exact hf _ _ _ (State.issue_canon _ _ _ h1)

theorem signalEffect_canon : ∀ i s b w, State.Canon s → (signalEffect i s b w).Canon := by
  intro i s b w h; unfold signalEffect
  try simp only []
  repeat'
    first
    | with_reducible assumption | with_reducible apply State.failBarge_canon | with_reducible apply State.err_canon
    | with_reducible apply State.count_canon | with_reducible apply State.addUnit_canon
    | with_reducible refine State.canon_ite ?_ ?_

theorem State.seeRows_canon : ∀ s o st rows n, State.Canon s → (State.seeRows s o st rows n).Canon := by
  intro s o st rows n h; unfold State.seeRows
  try simp only []
  repeat'
    first
    | with_reducible assumption | with_reducible apply State.seeIn_canon
    | with_reducible refine State.canon_ite ?_ ?_

theorem State.dropPieces_canon : ∀ s, State.Canon s → (State.dropPieces s).Canon := by
  intro s h; unfold State.dropPieces
  try simp only []
  repeat'
    first
    | with_reducible assumption | with_reducible refine State.canon_ite ?_ ?_
    | with_reducible refine State.foldl_canon (fun _ _ _ => ?_) ?_
    | with_reducible refine State.foldl_pair_canon (fun _ _ _ => ?_) ?_
    | (simp only [State.canon_mk_eq]; refine State.canon_mk ?_)

theorem State.enterMaint_canon : ∀ s, State.Canon s → (State.enterMaint s).Canon := by
  intro s h; unfold State.enterMaint
  try simp only []
  repeat'
    first
    | with_reducible assumption | with_reducible apply State.dropPieces_canon
    | with_reducible refine State.canon_ite ?_ ?_ | with_reducible refine State.foldl_canon (fun _ _ _ => ?_) ?_
    | with_reducible refine State.foldl_pair_canon (fun _ _ _ => ?_) ?_
    | (simp only [State.canon_mk_eq]; refine State.canon_mk ?_)

theorem State.failRowOf_canon : ∀ s b r fate, State.Canon s → (State.failRowOf s b r fate).Canon := by
  intro s b r fate h; unfold State.failRowOf
  try simp only []
  repeat'
    first
    | with_reducible assumption | with_reducible apply State.settleJ_canon | with_reducible apply State.endRequest_canon
    | with_reducible apply State.updBarge_canon | with_reducible refine State.canon_ite ?_ ?_
    | with_reducible refine State.foldl_canon (fun _ _ _ => ?_) ?_
    | with_reducible refine State.foldl_pair_canon (fun _ _ _ => ?_) ?_
    | (simp only [State.canon_mk_eq]; refine State.canon_mk ?_) | split

theorem State.arrived_canon : ∀ s b i, State.Canon s → (State.arrived s b i).Canon := by
  intro s b i h; unfold State.arrived
  try simp only []
  repeat'
    first
    | with_reducible assumption | with_reducible apply State.updBarge_canon

theorem State.signalCq_canon : ∀ s c, State.Canon s → (State.signalCq s c).Canon := by
  intro s c h; unfold State.signalCq
  try simp only []
  repeat'
    first
    | with_reducible assumption | with_reducible apply State.raise_canon | with_reducible apply State.setCq_canon

theorem State.acceptEntry_canon : ∀ s n j, State.Canon s → (State.acceptEntry s n j).Canon := by
  intro s n j h; unfold State.acceptEntry
  try simp only []
  repeat'
    first
    | with_reducible assumption | with_reducible apply State.journalOpen_canon
    | with_reducible apply State.setSq_canon | with_reducible apply State.storeHeads_canon
    | with_reducible apply State.err_canon | with_reducible apply State.settle_canon
    | with_reducible refine State.canon_ite ?_ ?_ | with_reducible refine State.foldl_canon (fun _ _ _ => ?_) ?_
    | with_reducible refine State.foldl_pair_canon (fun _ _ _ => ?_) ?_
    | (simp only [State.canon_mk_eq]; refine State.canon_mk ?_)

theorem State.fetch_canon : ∀ s, State.Canon s → (State.fetch s).Canon := by
  intro s h; unfold State.fetch
  try simp only []
  repeat'
    first
    | with_reducible assumption | with_reducible apply State.acceptEntry_canon | with_reducible apply State.err_canon
    | with_reducible refine State.canon_ite ?_ ?_ | with_reducible refine State.foldl_canon (fun _ _ _ => ?_) ?_
    | with_reducible refine State.foldl_pair_canon (fun _ _ _ => ?_) ?_
    | (simp only [State.canon_mk_eq]; refine State.canon_mk ?_) | split

theorem State.failRow_canon : ∀ s id row fate, State.Canon s → (State.failRow s id row fate).Canon := by
  intro s id row fate h; unfold State.failRow
  try simp only []
  repeat'
    first
    | with_reducible assumption | with_reducible apply State.failRowOf_canon | with_reducible apply State.failBarge_canon
    | with_reducible refine State.canon_ite ?_ ?_ | with_reducible refine State.foldl_canon (fun _ _ _ => ?_) ?_
    | with_reducible refine State.foldl_pair_canon (fun _ _ _ => ?_) ?_
    | (simp only [State.canon_mk_eq]; refine State.canon_mk ?_) | split

theorem State.writeRow_canon : ∀ s o st r m sat mode xs t, State.Canon s → (State.writeRow s o st r m sat mode xs t).Canon := by
  intro s o st r m sat mode xs t h; unfold State.writeRow
  try simp only []
  repeat'
    first
    | with_reducible assumption | with_reducible apply State.wr_canon | with_reducible apply State.countNum_canon
    | with_reducible refine State.canon_ite ?_ ?_

theorem State.failRows_canon : ∀ s id rows fate, State.Canon s → (State.failRows s id rows fate).Canon := by
  intro s id rows fate h; unfold State.failRows
  try simp only []
  repeat'
    first
    | with_reducible assumption | with_reducible apply State.failRow_canon
    | with_reducible refine State.canon_ite ?_ ?_ | with_reducible refine State.foldl_canon (fun _ _ _ => ?_) ?_

theorem State.sentOne_canon : ∀ s b i, State.Canon s → (State.sentOne s b i).Canon := by
  intro s b i h; unfold State.sentOne
  try simp only []
  repeat'
    first
    | with_reducible assumption | with_reducible apply State.updBarge_canon

theorem State.retire_canon : ∀ s js, State.Canon s → (State.retire s js).Canon := by
  intro s js h; unfold State.retire
  try simp only []
  repeat'
    first
    | with_reducible assumption | with_reducible apply State.journalMark_canon
    | with_reducible refine State.canon_ite ?_ ?_ | with_reducible refine State.foldl_canon (fun _ _ _ => ?_) ?_
    | with_reducible refine State.foldl_pair_canon (fun _ _ _ => ?_) ?_
    | (simp only [State.canon_mk_eq]; refine State.canon_mk ?_) | split

theorem State.noteLate_canon : ∀ s n, State.Canon s → (State.noteLate s n).Canon := by
  intro s n h; unfold State.noteLate
  try simp only []
  repeat'
    first
    | with_reducible assumption | with_reducible apply State.err_canon | with_reducible apply State.count_canon
    | with_reducible apply State.updMooring_canon | with_reducible apply State.acctCount_canon
    | with_reducible apply State.updBerth_canon

theorem State.freeBerth_canon : ∀ s n, State.Canon s → (State.freeBerth s n).Canon := by
  intro s n h; unfold State.freeBerth
  try simp only []
  repeat'
    first
    | with_reducible assumption | with_reducible apply State.setBerth_canon
    | with_reducible apply State.releasePin_canon

theorem State.recWritten_canon : ∀ s r, State.Canon s → (State.recWritten s r).Canon := by
  intro s r h; unfold State.recWritten
  try simp only []
  repeat'
    first
    | with_reducible assumption | with_reducible apply State.extPutNat_canon | with_reducible apply State.noteLate_canon
    | with_reducible apply State.updBerth_canon | with_reducible apply State.fateRequest_canon
    | with_reducible apply State.freeBerth_canon | with_reducible refine State.canon_ite ?_ ?_
    | with_reducible refine State.foldl_canon (fun _ _ _ => ?_) ?_
    | with_reducible refine State.foldl_pair_canon (fun _ _ _ => ?_) ?_
    | (simp only [State.canon_mk_eq]; refine State.canon_mk ?_) | split

theorem State.writeRec_canon : ∀ s c r rest, State.Canon s → (State.writeRec s c r rest).Canon := by
  intro s c r rest h; unfold State.writeRec
  try simp only []
  repeat'
    first
    | with_reducible assumption | with_reducible apply State.locWrite_canon | with_reducible apply State.setCq_canon
    | with_reducible apply State.recWritten_canon | with_reducible apply State.signalCq_canon
    | with_reducible refine State.canon_ite ?_ ?_

theorem lockMarkEffect_canon : ∀ i s b w, State.Canon s → (lockMarkEffect i s b w).Canon := by
  intro i s b w h; unfold lockMarkEffect
  try simp only []
  repeat'
    first
    | with_reducible assumption | with_reducible apply State.finishOp_canon
    | with_reducible apply State.updBarge_canon

theorem opFenceEffect_canon : ∀ i s b x, State.Canon s → (opFenceEffect i s b x).Canon := by
  intro i s b x h; unfold opFenceEffect
  try simp only []
  repeat'
    first
    | with_reducible assumption | with_reducible apply State.finishOp_canon
    | with_reducible refine State.canon_ite ?_ ?_

theorem State.waitAgain_canon : ∀ s id i, State.Canon s → (State.waitAgain s id i).Canon := by
  intro s id i h; unfold State.waitAgain
  try simp only []
  repeat'
    first
    | with_reducible assumption | with_reducible apply State.finishOp_canon | with_reducible refine State.canon_ite ?_ ?_
    | with_reducible refine State.foldl_canon (fun _ _ _ => ?_) ?_
    | with_reducible refine State.foldl_pair_canon (fun _ _ _ => ?_) ?_
    | (simp only [State.canon_mk_eq]; refine State.canon_mk ?_) | split

theorem State.cqWrite_canon : ∀ s c, State.Canon s → (State.cqWrite s c).Canon := by
  intro s c h; unfold State.cqWrite
  try simp only []
  repeat'
    first
    | with_reducible assumption | with_reducible apply State.err_canon | with_reducible apply State.setCq_canon
    | with_reducible apply State.writeRec_canon | with_reducible refine State.canon_ite ?_ ?_
    | with_reducible refine State.foldl_canon (fun _ _ _ => ?_) ?_
    | with_reducible refine State.foldl_pair_canon (fun _ _ _ => ?_) ?_
    | (simp only [State.canon_mk_eq]; refine State.canon_mk ?_) | split

theorem State.doorbellCq_canon : ∀ s c p, State.Canon s → (State.doorbellCq s c p).Canon := by
  intro s c p h; unfold State.doorbellCq
  try simp only []
  repeat'
    first
    | with_reducible assumption | with_reducible apply State.err_canon | with_reducible apply State.retire_canon
    | with_reducible apply State.setCq_canon | with_reducible refine State.canon_ite ?_ ?_

theorem State.submit_canon : ∀ s it, State.Canon s → (State.submit s it).Canon := by
  intro s it h; unfold State.submit
  try simp only []
  repeat'
    first
    | with_reducible assumption | with_reducible apply State.settle_canon | with_reducible apply State.updItem_canon
    | with_reducible apply State.updMooring_canon | with_reducible refine State.canon_ite ?_ ?_
    | with_reducible refine State.foldl_canon (fun _ _ _ => ?_) ?_
    | with_reducible refine State.foldl_pair_canon (fun _ _ _ => ?_) ?_
    | (simp only [State.canon_mk_eq]; refine State.canon_mk ?_)

theorem State.cancel_canon : ∀ s it, State.Canon s → (State.cancel s it).Canon := by
  intro s it h; unfold State.cancel
  try simp only []
  repeat'
    first
    | with_reducible assumption | with_reducible apply State.settle_canon | with_reducible apply State.updBerth_canon
    | with_reducible apply State.endRequest_canon | with_reducible apply State.updItem_canon
    | with_reducible refine State.canon_ite ?_ ?_ | with_reducible refine State.foldl_canon (fun _ _ _ => ?_) ?_
    | with_reducible refine State.foldl_pair_canon (fun _ _ _ => ?_) ?_
    | (simp only [State.canon_mk_eq]; refine State.canon_mk ?_) | split

theorem State.epochComplete_canon : ∀ s it, State.Canon s → (State.epochComplete s it).Canon := by
  intro s it h; unfold State.epochComplete
  try simp only []
  repeat'
    first
    | with_reducible assumption | with_reducible apply State.settle_canon | with_reducible apply State.setRegN_canon
    | with_reducible refine State.canon_ite ?_ ?_

theorem State.clearLock_canon : ∀ s id l, State.Canon s → (State.clearLock s id l).Canon := by
  intro s id l h; unfold State.clearLock
  try simp only []
  repeat'
    first
    | with_reducible assumption | with_reducible apply State.mapMarks_canon | with_reducible apply State.updBarge_canon
    | with_reducible refine State.canon_ite ?_ ?_ | with_reducible refine State.foldl_canon (fun _ _ _ => ?_) ?_
    | with_reducible refine State.foldl_pair_canon (fun _ _ _ => ?_) ?_
    | (simp only [State.canon_mk_eq]; refine State.canon_mk ?_) | split

theorem State.confirmLock_canon : ∀ s id l regions, State.Canon s → (State.confirmLock s id l regions).Canon := by
  intro s id l regions h; unfold State.confirmLock
  try simp only []
  repeat'
    first
    | with_reducible assumption | with_reducible apply State.updBarge_canon | with_reducible apply State.clearLock_canon
    | with_reducible refine State.canon_ite ?_ ?_ | with_reducible refine State.foldl_canon (fun _ _ _ => ?_) ?_
    | with_reducible refine State.foldl_pair_canon (fun _ _ _ => ?_) ?_
    | (simp only [State.canon_mk_eq]; refine State.canon_mk ?_) | split

theorem State.countLockFail_canon : ∀ s b l, State.Canon s → (State.countLockFail s b l).Canon := by
  intro s b l h; unfold State.countLockFail
  try simp only []
  repeat'
    first
    | with_reducible assumption | with_reducible apply State.count_canon
    | with_reducible refine State.canon_ite ?_ ?_ | with_reducible refine State.foldl_canon (fun _ _ _ => ?_) ?_

theorem State.failAgain_canon : ∀ s b l fate, State.Canon s → (State.failAgain s b l fate).Canon := by
  intro s b l fate h; unfold State.failAgain
  try simp only []
  repeat'
    first
    | with_reducible assumption | with_reducible apply State.failBarge_canon
    | with_reducible apply State.updBarge_canon | with_reducible apply State.countLockFail_canon

theorem State.failLock_canon : ∀ s id l, State.Canon s → (State.failLock s id l).Canon := by
  intro s id l h; unfold State.failLock
  try simp only []
  repeat'
    first
    | with_reducible assumption | with_reducible apply State.countLockFail_canon
    | with_reducible apply State.mapMarks_canon | with_reducible apply State.updBarge_canon
    | with_reducible apply State.count_canon | with_reducible refine State.canon_ite ?_ ?_
    | with_reducible refine State.foldl_canon (fun _ _ _ => ?_) ?_
    | (simp only [State.canon_mk_eq]; refine State.canon_mk ?_) | split

theorem confirmEffect_canon : ∀ i s b w, State.Canon s → (confirmEffect i s b w).Canon := by
  intro i s b w h; unfold confirmEffect
  try simp only []
  repeat'
    first
    | with_reducible assumption | with_reducible apply State.seeIn_canon
    | with_reducible apply State.failBarge_canon | with_reducible apply State.updBarge_canon
    | with_reducible apply State.failAgain_canon | with_reducible apply State.failLock_canon
    | with_reducible apply State.finishOp_canon | with_reducible apply State.confirmLock_canon
    | with_reducible refine State.canon_ite ?_ ?_ | with_reducible refine State.foldl_canon (fun _ _ _ => ?_) ?_

theorem waitEffect_canon : ∀ i s b w, State.Canon s → (waitEffect i s b w).Canon := by
  intro i s b w h; unfold waitEffect
  try simp only []
  repeat'
    first
    | with_reducible assumption | with_reducible apply State.finishOp_canon
    | with_reducible refine State.canon_ite ?_ ?_

end Sys2Proof.Machine
end

