-- ==== Sys2Proof/Laws/CanonFabric.lean ====
section
/-! SUPPORT. The operations of the lock-keeper, the row store, row reads, table operations and the fabric keep every store in canonical form. -/

namespace Sys2Proof.Machine

open Sys2Proof

set_option Elab.async false

theorem State.skew_canon : ∀ s t f, State.Canon s → (State.skew s t f).Canon := by
  intro s t f h; unfold State.skew
  try simp only []
  repeat'
    first
    | with_reducible assumption | with_reducible refine State.canon_ite ?_ ?_
    | with_reducible refine State.foldl_canon (fun _ _ _ => ?_) ?_
    | with_reducible refine State.foldl_pair_canon (fun _ _ _ => ?_) ?_
    | (simp only [State.canon_mk_eq]; refine State.canon_mk ?_)

theorem State.noteDefaults_canon : ∀ s t n, State.Canon s → (State.noteDefaults s t n).Canon := by
  intro s t n h; unfold State.noteDefaults
  try simp only []
  repeat'
    first
    | with_reducible assumption | with_reducible apply State.skew_canon | with_reducible apply State.count_canon
    | with_reducible refine State.canon_ite ?_ ?_

theorem State.dirFault_canon : ∀ s, State.Canon s → (State.dirFault s).Canon := by
  intro s h; unfold State.dirFault
  try simp only []
  repeat'
    first
    | with_reducible assumption | with_reducible apply State.err_canon

theorem State.setPort_canon : ∀ s n x, State.Canon s → (State.setPort s n x).Canon := by
  intro s n x h; unfold State.setPort
  try simp only []
  repeat'
    first
    | with_reducible assumption | with_reducible refine State.canon_ite ?_ ?_
    | with_reducible refine State.foldl_canon (fun _ _ _ => ?_) ?_
    | with_reducible refine State.foldl_pair_canon (fun _ _ _ => ?_) ?_
    | (simp only [State.canon_mk_eq]; refine State.canon_mk ?_)

theorem State.updPort_canon : ∀ s n f, State.Canon s → (State.updPort s n f).Canon := by
  intro s n f h; unfold State.updPort
  try simp only []
  repeat'
    first
    | with_reducible assumption | with_reducible apply State.setPort_canon

theorem State.flitsLeave_canon : ∀ s n vc k, State.Canon s → (State.flitsLeave s n vc k).Canon := by
  intro s n vc k h; unfold State.flitsLeave
  try simp only []
  repeat'
    first
    | with_reducible assumption | with_reducible apply State.count_canon | with_reducible apply State.updPort_canon
    | with_reducible refine State.canon_ite ?_ ?_

theorem State.sendHead_canon : ∀ s n vc, State.Canon s → (State.sendHead s n vc).Canon := by
  intro s n vc h; unfold State.sendHead
  try simp only []
  repeat'
    first
    | with_reducible assumption | with_reducible apply State.flitsLeave_canon | with_reducible apply State.setPort_canon
    | with_reducible refine State.canon_ite ?_ ?_ | with_reducible refine State.foldl_canon (fun _ _ _ => ?_) ?_
    | with_reducible refine State.foldl_pair_canon (fun _ _ _ => ?_) ?_
    | (simp only [State.canon_mk_eq]; refine State.canon_mk ?_) | split

theorem State.arbTurn_canon : ∀ s n, State.Canon s → (State.arbTurn s n).Canon := by
  intro s n h; unfold State.arbTurn
  try simp only []
  repeat'
    first
    | with_reducible assumption | with_reducible apply State.setPort_canon | with_reducible apply State.sendHead_canon
    | with_reducible refine State.canon_ite ?_ ?_ | with_reducible refine State.foldl_canon (fun _ _ _ => ?_) ?_
    | with_reducible refine State.foldl_pair_canon (fun _ _ _ => ?_) ?_
    | (simp only [State.canon_mk_eq]; refine State.canon_mk ?_) | split

theorem State.arbStep_canon : ∀ s n, State.Canon s → (State.arbStep s n).Canon := by
  intro s n h; unfold State.arbStep
  try simp only []
  repeat'
    first
    | with_reducible assumption | with_reducible apply State.sendHead_canon | with_reducible apply State.arbTurn_canon
    | with_reducible refine State.canon_ite ?_ ?_ | with_reducible refine State.foldl_canon (fun _ _ _ => ?_) ?_
    | with_reducible refine State.foldl_pair_canon (fun _ _ _ => ?_) ?_
    | (simp only [State.canon_mk_eq]; refine State.canon_mk ?_) | split

theorem State.pumpFuel_canon (n fuel : Nat) (s : State) (h : s.Canon) : (State.pumpFuel n fuel s).Canon := by
  induction fuel generalizing s with
  | zero => exact h
  | succ k ih =>
    unfold State.pumpFuel
    exact State.canon_ite (ih _ (State.arbStep_canon _ _ h)) h

theorem State.pump_canon : ∀ s n, State.Canon s → (State.pump s n).Canon := by
  intro s n h; unfold State.pump
  try simp only []
  repeat'
    first
    | with_reducible assumption | with_reducible apply State.pumpFuel_canon

theorem State.queuePacket_canon : ∀ s from_ n p, State.Canon s → (State.queuePacket s from_ n p).Canon := by
  intro s from_ n p h; unfold State.queuePacket
  try simp only []
  repeat'
    first
    | with_reducible assumption | with_reducible apply State.pump_canon | with_reducible apply State.updPort_canon

theorem State.unroutable_canon : ∀ s, State.Canon s → (State.unroutable s).Canon := by
  intro s h; unfold State.unroutable
  try simp only []
  repeat'
    first
    | with_reducible assumption | with_reducible apply State.err_canon | with_reducible apply State.count_canon

theorem State.sendOut_canon : ∀ s p from_, State.Canon s → (State.sendOut s p from_).Canon := by
  intro s p from_ h; unfold State.sendOut
  try simp only []
  repeat'
    first
    | with_reducible assumption | with_reducible apply State.queuePacket_canon
    | with_reducible apply State.unroutable_canon | with_reducible refine State.canon_ite ?_ ?_
    | with_reducible refine State.foldl_canon (fun _ _ _ => ?_) ?_
    | with_reducible refine State.foldl_pair_canon (fun _ _ _ => ?_) ?_
    | (simp only [State.canon_mk_eq]; refine State.canon_mk ?_) | split

theorem State.send_canon : ∀ s p, State.Canon s → (State.send s p).Canon := by
  intro s p h; unfold State.send
  try simp only []
  repeat'
    first
    | with_reducible assumption | with_reducible apply State.sendOut_canon
    | with_reducible refine State.canon_ite ?_ ?_ | with_reducible refine State.foldl_canon (fun _ _ _ => ?_) ?_
    | with_reducible refine State.foldl_pair_canon (fun _ _ _ => ?_) ?_
    | (simp only [State.canon_mk_eq]; refine State.canon_mk ?_)

theorem State.freeEntries_canon : ∀ s l, State.Canon s → (State.freeEntries s l).Canon := by
  intro s l h; unfold State.freeEntries
  try simp only []
  repeat'
    first
    | with_reducible assumption | with_reducible refine State.canon_ite ?_ ?_
    | with_reducible refine State.foldl_canon (fun _ _ _ => ?_) ?_
    | with_reducible refine State.foldl_pair_canon (fun _ _ _ => ?_) ?_
    | (simp only [State.canon_mk_eq]; refine State.canon_mk ?_)

theorem State.putSlot_canon : ∀ s t k raw st, State.Canon s → (State.putSlot s t k raw st).Canon := by
  intro s t k raw st h; unfold State.putSlot
  try simp only []
  repeat'
    first
    | with_reducible assumption | with_reducible apply State.extWrite_canon

theorem State.markSlot_canon : ∀ s t k st, State.Canon s → (State.markSlot s t k st).Canon := by
  intro s t k st h; unfold State.markSlot
  try simp only []
  repeat'
    first
    | with_reducible assumption | with_reducible apply State.putSlot_canon

theorem State.formerExpire_canon : ∀ s t, State.Canon s → (State.formerExpire s t).Canon := by
  intro s t h; unfold State.formerExpire
  try simp only []
  repeat'
    first
    | with_reducible assumption | with_reducible apply State.freeEntries_canon | with_reducible apply State.markSlot_canon
    | with_reducible refine State.canon_ite ?_ ?_ | with_reducible refine State.foldl_canon (fun _ _ _ => ?_) ?_
    | with_reducible refine State.foldl_pair_canon (fun _ _ _ => ?_) ?_
    | (simp only [State.canon_mk_eq]; refine State.canon_mk ?_) | split

theorem State.flipLeaves_canon : ∀ s m j, State.Canon s → (State.flipLeaves s m j).Canon := by
  intro s m j h; unfold State.flipLeaves
  try simp only []
  repeat'
    first
    | with_reducible assumption | with_reducible apply State.updMooring_canon

theorem State.invertActive_canon : ∀ s m a, State.Canon s → (State.invertActive s m a).Canon := by
  intro s m a h; unfold State.invertActive
  try simp only []
  repeat'
    first
    | with_reducible assumption | with_reducible apply State.extWrite_canon

theorem State.flipEffect_canon : ∀ s it, State.Canon s → (State.flipEffect s it).Canon := by
  intro s it h; unfold State.flipEffect
  try simp only []
  repeat'
    first
    | with_reducible assumption | with_reducible apply State.settle_canon | with_reducible apply State.flipLeaves_canon
    | with_reducible apply State.count_canon | with_reducible apply State.updMooring_canon
    | with_reducible apply State.invertActive_canon | with_reducible refine State.canon_ite ?_ ?_
    | with_reducible refine State.foldl_canon (fun _ _ _ => ?_) ?_
    | with_reducible refine State.foldl_pair_canon (fun _ _ _ => ?_) ?_
    | (simp only [State.canon_mk_eq]; refine State.canon_mk ?_) | split

theorem State.noteHold_canon : ∀ s m, State.Canon s → (State.noteHold s m).Canon := by
  intro s m h; unfold State.noteHold
  try simp only []
  repeat'
    first
    | with_reducible assumption | with_reducible apply State.count_canon | with_reducible refine State.canon_ite ?_ ?_
    | with_reducible refine State.foldl_canon (fun _ _ _ => ?_) ?_
    | with_reducible refine State.foldl_pair_canon (fun _ _ _ => ?_) ?_
    | (simp only [State.canon_mk_eq]; refine State.canon_mk ?_) | split

theorem State.closeCounts_canon : ∀ s m f, State.Canon s → (State.closeCounts s m f).Canon := by
  intro s m f h; unfold State.closeCounts
  try simp only []
  repeat'
    first
    | with_reducible assumption | with_reducible apply State.acctCount_canon
    | with_reducible refine State.canon_ite ?_ ?_ | with_reducible refine State.foldl_canon (fun _ _ _ => ?_) ?_
    | with_reducible refine State.foldl_pair_canon (fun _ _ _ => ?_) ?_
    | (simp only [State.canon_mk_eq]; refine State.canon_mk ?_)

theorem State.placeRequest_canon : ∀ s id rows n, State.Canon s → (State.placeRequest s id rows n).Canon := by
  intro s id rows n h; unfold State.placeRequest
  try simp only []
  repeat'
    first
    | with_reducible assumption | with_reducible apply State.acctCount_canon
    | with_reducible apply State.updBerth_canon | with_reducible apply State.balance_canon
    | with_reducible refine State.canon_ite ?_ ?_

theorem State.close_canon : ∀ s m j f, State.Canon s → (State.close s m j f).Canon := by
  intro s m j f h; unfold State.close
  try simp only []
  repeat'
    first
    | with_reducible assumption | with_reducible apply State.closeCounts_canon
    | with_reducible apply State.extWrite_canon | with_reducible apply State.journalOpen_canon
    | with_reducible apply State.updMooring_canon | with_reducible apply State.placeRequest_canon
    | with_reducible apply State.count_canon | with_reducible refine State.canon_ite ?_ ?_
    | with_reducible refine State.foldl_canon (fun _ _ _ => ?_) ?_
    | with_reducible refine State.foldl_pair_canon (fun _ _ _ => ?_) ?_
    | (simp only [State.canon_mk_eq]; refine State.canon_mk ?_)

theorem State.manifestClose_canon : ∀ s m, State.Canon s → (State.manifestClose s m).Canon := by
  intro s m h; unfold State.manifestClose
  try simp only []
  repeat'
    first
    | with_reducible assumption | with_reducible apply State.noteHold_canon | with_reducible apply State.boundary_canon
    | with_reducible apply State.close_canon | with_reducible refine State.canon_ite ?_ ?_
    | with_reducible refine State.foldl_canon (fun _ _ _ => ?_) ?_
    | with_reducible refine State.foldl_pair_canon (fun _ _ _ => ?_) ?_
    | (simp only [State.canon_mk_eq]; refine State.canon_mk ?_) | split

theorem State.setTagSt_canon : ∀ s k x, State.Canon s → (State.setTagSt s k x).Canon := by
  intro s k x h; unfold State.setTagSt
  try simp only []
  repeat'
    first
    | with_reducible assumption | with_reducible refine State.canon_ite ?_ ?_
    | with_reducible refine State.foldl_canon (fun _ _ _ => ?_) ?_
    | with_reducible refine State.foldl_pair_canon (fun _ _ _ => ?_) ?_
    | (simp only [State.canon_mk_eq]; refine State.canon_mk ?_)

theorem State.launch_canon : ∀ s use p, State.Canon s → (State.launch s use p).Canon := by
  intro s use p h; unfold State.launch
  try simp only []
  repeat'
    first
    | with_reducible assumption | with_reducible apply State.send_canon | with_reducible apply State.setTagSt_canon

theorem State.request_canon : ∀ s use p, State.Canon s → (State.request s use p).Canon := by
  intro s use p h; unfold State.request
  try simp only []
  repeat'
    first
    | with_reducible assumption | with_reducible apply State.launch_canon
    | with_reducible refine State.canon_ite ?_ ?_ | with_reducible refine State.foldl_canon (fun _ _ _ => ?_) ?_
    | with_reducible refine State.foldl_pair_canon (fun _ _ _ => ?_) ?_
    | (simp only [State.canon_mk_eq]; refine State.canon_mk ?_)

theorem State.creditFlit_canon : ∀ s n c, State.Canon s → (State.creditFlit s n c).Canon := by
  intro s n c h; unfold State.creditFlit
  try simp only []
  repeat'
    first
    | with_reducible assumption | with_reducible apply State.pump_canon | with_reducible apply State.updPort_canon

theorem State.tagFault_canon : ∀ s k, State.Canon s → (State.tagFault s k).Canon := by
  intro s k h; unfold State.tagFault
  try simp only []
  repeat'
    first
    | with_reducible assumption | with_reducible apply State.setTag_canon
    | with_reducible apply State.poisoning_canon | with_reducible apply State.err_canon
    | with_reducible apply State.count_canon

theorem State.readRow_canon : ∀ s t l, State.Canon s → (State.readRow s t l).2.Canon := by
  intro s t l h; unfold State.readRow
  try simp only []
  repeat'
    first
    | with_reducible assumption | with_reducible apply State.tagFault_canon
    | with_reducible refine State.canon_ite ?_ ?_ | with_reducible refine State.foldl_canon (fun _ _ _ => ?_) ?_

theorem State.encodeInto_canon : ∀ s t x dr sat mode ws, State.Canon s → (State.encodeInto s t x dr sat mode ws).2.Canon := by
  intro s t x dr sat mode ws h; unfold State.encodeInto
  try simp only []
  repeat'
    first
    | with_reducible assumption | with_reducible apply State.countNum_canon

theorem State.writeRowImage_canon : ∀ s t l image step poison, State.Canon s → (State.writeRowImage s t l image step poison).Canon := by
  intro s t l image step poison h; unfold State.writeRowImage
  try simp only []
  repeat'
    first
    | with_reducible assumption | with_reducible apply State.extWriteTag_canon
    | with_reducible refine State.canon_ite ?_ ?_ | with_reducible refine State.foldl_canon (fun _ _ _ => ?_) ?_
    | with_reducible refine State.foldl_pair_canon (fun _ _ _ => ?_) ?_
    | (simp only [State.canon_mk_eq]; refine State.canon_mk ?_)

theorem State.demote_canon : ∀ s t a x h, State.Canon s → (State.demote s t a x h).2.Canon := by
  intro s t a x h hs; unfold State.demote; simp only []
  split
  · exact hs
  · have hr := State.readRow_canon _ t (t.hotLoc (‹Loc›.local_.getD 0) h) hs
    split
    · exact hr
    · split <;> rename_i heq
      all_goals have hm := State.pair_canon heq (State.encodeInto_canon _ _ _ _ _ _ _ hr)
      · exact hm
      · exact State.skew_canon _ _ _ (State.count_canon _ _ _ _ (State.extPutNat_canon _ _ _ _ (State.writeRowImage_canon _ _ _ _ _ _ hm)))

theorem State.waitTurn_canon : ∀ s p, State.Canon s → (State.waitTurn s p).Canon := by
  intro s p h; unfold State.waitTurn
  try simp only []
  repeat'
    first
    | with_reducible assumption | with_reducible refine State.canon_ite ?_ ?_
    | with_reducible refine State.foldl_canon (fun _ _ _ => ?_) ?_
    | with_reducible refine State.foldl_pair_canon (fun _ _ _ => ?_) ?_
    | (simp only [State.canon_mk_eq]; refine State.canon_mk ?_)

theorem State.badPacket_canon : ∀ s, State.Canon s → (State.badPacket s).Canon := by
  intro s h; unfold State.badPacket
  try simp only []
  repeat'
    first
    | with_reducible assumption | with_reducible apply State.err_canon

theorem State.sendControl_canon : ∀ s n kind content, State.Canon s → (State.sendControl s n kind content).Canon := by
  intro s n kind content h; unfold State.sendControl
  try simp only []
  repeat'
    first
    | with_reducible assumption | with_reducible apply State.updPort_canon

theorem State.freeFlits_canon : ∀ s n vc cls k, State.Canon s → (State.freeFlits s n vc cls k).Canon := by
  intro s n vc cls k h; unfold State.freeFlits
  try simp only []
  repeat'
    first
    | with_reducible assumption | with_reducible apply State.sendControl_canon
    | with_reducible apply State.setPort_canon | with_reducible refine State.canon_ite ?_ ?_

theorem State.take_canon : ∀ s p, State.Canon s → (State.take s p).Canon := by
  intro s p h; unfold State.take
  try simp only []
  repeat'
    first
    | with_reducible assumption | with_reducible apply State.freeFlits_canon | with_reducible refine State.canon_ite ?_ ?_
    | with_reducible refine State.foldl_canon (fun _ _ _ => ?_) ?_
    | with_reducible refine State.foldl_pair_canon (fun _ _ _ => ?_) ?_
    | (simp only [State.canon_mk_eq]; refine State.canon_mk ?_) | split

theorem State.receive_canon (s : State) (p : Packet) (ops : List Nat) (f : State → State)
    (hf : ∀ s, s.Canon → (f s).Canon) (h : s.Canon) : (State.receive s p ops f).Canon := by
  unfold State.receive
  split
  · exact h
  · split
    · exact State.waitTurn_canon _ _ h
    · split
      · exact State.badPacket_canon _ (State.take_canon _ _ h)
      · exact hf _ (State.take_canon _ _ h)

theorem State.answer_canon : ∀ s p status payload imm poison, State.Canon s → (State.answer s p status payload imm poison).Canon := by
  intro s p status payload imm poison h; unfold State.answer
  try simp only []
  repeat'
    first
    | with_reducible assumption | with_reducible apply State.send_canon

theorem State.flip_canon : ∀ s it, State.Canon s → (State.flip s it).Canon := by
  intro s it h; unfold State.flip
  try simp only []
  repeat'
    first
    | with_reducible assumption | with_reducible apply State.settle_canon
    | with_reducible apply State.updMooring_canon | with_reducible apply State.updItem_canon
    | with_reducible refine State.canon_ite ?_ ?_

theorem State.cacheUse_canon : ∀ s r e gather, State.Canon s → (State.cacheUse s r e gather).Canon := by
  intro s r e gather h; unfold State.cacheUse
  try simp only []
  repeat'
    first
    | with_reducible assumption | with_reducible apply State.count_canon
    | with_reducible apply State.updRegion_canon | with_reducible refine State.canon_ite ?_ ?_

theorem State.cacheHit_canon : ∀ s r e gather, State.Canon s → (State.cacheHit s r e gather).Canon := by
  intro s r e gather h; unfold State.cacheHit
  try simp only []
  repeat'
    first
    | with_reducible assumption | with_reducible apply State.cacheUse_canon | with_reducible apply State.count_canon
    | with_reducible refine State.canon_ite ?_ ?_

theorem State.serveBad_canon : ∀ s tid, State.Canon s → (State.serveBad s tid).2.Canon := by
  intro s tid h; unfold State.serveBad
  try simp only []
  repeat'
    first
    | with_reducible assumption | with_reducible apply State.dirFault_canon

theorem State.noteNotOwner_canon : ∀ s, State.Canon s → (State.noteNotOwner s).Canon := by
  intro s h; unfold State.noteNotOwner
  try simp only []
  repeat'
    first
    | with_reducible assumption | with_reducible apply State.err_canon | with_reducible apply State.count_canon

theorem State.noteServed_canon : ∀ s t x l mult, State.Canon s → (State.noteServed s t x l mult).Canon := by
  intro s t x l mult h; unfold State.noteServed
  try simp only []
  repeat'
    first
    | with_reducible assumption | with_reducible apply State.skew_canon | with_reducible apply State.extPutNat_canon
    | with_reducible apply State.count_canon | with_reducible refine State.canon_ite ?_ ?_
    | with_reducible refine State.foldl_canon (fun _ _ _ => ?_) ?_
    | with_reducible refine State.foldl_pair_canon (fun _ _ _ => ?_) ?_
    | (simp only [State.canon_mk_eq]; refine State.canon_mk ?_) | split

theorem State.serveCopy_canon : ∀ s t x l probe mult, State.Canon s → (State.serveCopy s t x l probe mult).2.Canon := by
  intro s t x l probe mult h; unfold State.serveCopy
  try simp only []
  repeat'
    first
    | with_reducible assumption | with_reducible apply State.readRow_canon | with_reducible apply State.noteServed_canon
    | with_reducible apply State.skew_canon | with_reducible refine State.canon_ite ?_ ?_
    | with_reducible refine State.foldl_canon (fun _ _ _ => ?_) ?_
    | with_reducible refine State.foldl_pair_canon (fun _ _ _ => ?_) ?_
    | (simp only [State.canon_mk_eq]; refine State.canon_mk ?_) | split

theorem State.noteForward_canon : ∀ s t, State.Canon s → (State.noteForward s t).Canon := by
  intro s t h; unfold State.noteForward
  try simp only []
  repeat'
    first
    | with_reducible assumption | with_reducible apply State.skew_canon | with_reducible apply State.count_canon

theorem State.serveFormer_canon : ∀ s t x probe mult, State.Canon s → (State.serveFormer s t x probe mult).2.Canon := by
  intro s t x probe mult h; unfold State.serveFormer
  try simp only []
  repeat'
    first
    | with_reducible assumption | with_reducible apply State.noteNotOwner_canon
    | with_reducible apply State.serveCopy_canon | with_reducible apply State.noteForward_canon
    | with_reducible refine State.canon_ite ?_ ?_ | with_reducible refine State.foldl_canon (fun _ _ _ => ?_) ?_
    | with_reducible refine State.foldl_pair_canon (fun _ _ _ => ?_) ?_
    | (simp only [State.canon_mk_eq]; refine State.canon_mk ?_) | split

theorem State.ownerServe_canon : ∀ s tid x seq probe mult, State.Canon s → (State.ownerServe s tid x seq probe mult).2.Canon := by
  intro s tid x seq probe mult h; unfold State.ownerServe
  try simp only []
  repeat'
    first
    | with_reducible assumption | with_reducible apply State.serveBad_canon
    | with_reducible apply State.noteNotOwner_canon | with_reducible apply State.serveFormer_canon
    | with_reducible apply State.serveCopy_canon | with_reducible apply State.noteForward_canon
    | with_reducible refine State.canon_ite ?_ ?_ | with_reducible refine State.foldl_canon (fun _ _ _ => ?_) ?_
    | with_reducible refine State.foldl_pair_canon (fun _ _ _ => ?_) ?_
    | (simp only [State.canon_mk_eq]; refine State.canon_mk ?_) | split

theorem State.cacheFill_canon : ∀ s r e, State.Canon s → (State.cacheFill s r e).Canon := by
  intro s r e h; unfold State.cacheFill
  try simp only []
  repeat'
    first
    | with_reducible assumption | with_reducible apply State.count_canon
    | with_reducible apply State.updRegion_canon

theorem State.received_canon : ∀ s r t x g prefetched, State.Canon s → (State.received s r t x g prefetched).Canon := by
  intro s r t x g prefetched h; unfold State.received
  try simp only []
  repeat'
    first
    | with_reducible assumption | with_reducible apply State.cacheFill_canon

theorem State.readLocal_canon : ∀ s r t x old mult gather, State.Canon s → (State.readLocal s r t x old mult gather).2.Canon := by
  intro s r t x old mult gather h
  unfold State.readLocal
  split <;> rename_i heq
  all_goals have hm := State.pair_canon heq (State.ownerServe_canon _ _ _ _ _ _ h)
  · simp only []
    refine State.received_canon _ _ _ _ _ _ (State.count_canon _ _ _ _ ?_)
    split
    · split
      · exact State.count_canon _ _ _ _ hm
      · exact hm
    · exact hm
  · split
    · exact State.cacheHit_canon _ _ _ _ (State.count_canon _ _ _ _ hm)
    · exact hm
  · exact hm

theorem State.readRemote_canon : ∀ s r t x owner old mult prefetch, State.Canon s → (State.readRemote s r t x owner old mult prefetch).Canon := by
  intro s r t x owner old mult prefetch h; unfold State.readRemote
  try simp only []
  repeat'
    first
    | with_reducible assumption | with_reducible apply State.count_canon | with_reducible apply State.request_canon
    | with_reducible refine State.canon_ite ?_ ?_

theorem State.readOwner_canon : ∀ s r t x old mult gather, State.Canon s → (State.readOwner s r t x old mult gather).2.Canon := by
  intro s r t x old mult gather h; unfold State.readOwner
  try simp only []
  repeat'
    first
    | with_reducible assumption | with_reducible apply State.readLocal_canon | with_reducible apply State.readRemote_canon
    | with_reducible refine State.canon_ite ?_ ?_ | with_reducible refine State.foldl_canon (fun _ _ _ => ?_) ?_
    | with_reducible refine State.foldl_pair_canon (fun _ _ _ => ?_) ?_
    | (simp only [State.canon_mk_eq]; refine State.canon_mk ?_) | split

theorem State.acquire_canon : ∀ s r t x mult useCache gather, State.Canon s → (State.acquire s r t x mult useCache gather).2.Canon := by
  intro s r t x mult useCache gather h; unfold State.acquire
  try simp only []
  repeat'
    first
    | with_reducible assumption | with_reducible apply State.cacheHit_canon | with_reducible apply State.readOwner_canon
    | with_reducible apply State.count_canon | with_reducible refine State.canon_ite ?_ ?_
    | with_reducible refine State.foldl_canon (fun _ _ _ => ?_) ?_
    | with_reducible refine State.foldl_pair_canon (fun _ _ _ => ?_) ?_
    | (simp only [State.canon_mk_eq]; refine State.canon_mk ?_) | split

theorem State.factorRow_canon : ∀ s m r i x t g, State.Canon s → (State.factorRow s m r i x t g).2.Canon := by
  intro s m r i x t g h; unfold State.factorRow
  try simp only []
  repeat'
    first
    | with_reducible assumption | with_reducible apply State.countNum_canon | with_reducible apply State.err_canon
    | with_reducible refine State.canon_ite ?_ ?_

theorem State.noteWait_canon : ∀ s r k, State.Canon s → (State.noteWait s r k).Canon := by
  intro s r k h; unfold State.noteWait
  try simp only []
  repeat'
    first
    | with_reducible assumption | with_reducible apply State.updRegion_canon
    | with_reducible apply State.count_canon | with_reducible refine State.canon_ite ?_ ?_

theorem State.pause_canon : ∀ s it replace moorings, State.Canon s → (State.pause s it replace moorings).Canon := by
  intro s it replace moorings h; unfold State.pause
  try simp only []
  repeat'
    first
    | with_reducible assumption | with_reducible apply State.updItem_canon
    | with_reducible refine State.canon_ite ?_ ?_ | with_reducible refine State.foldl_canon (fun _ _ _ => ?_) ?_
    | with_reducible refine State.foldl_pair_canon (fun _ _ _ => ?_) ?_
    | (simp only [State.canon_mk_eq]; refine State.canon_mk ?_)

theorem State.excDel_canon : ∀ s t x, State.Canon s → (State.excDel s t x).Canon := by
  intro s t x h; unfold State.excDel
  try simp only []
  repeat'
    first
    | with_reducible assumption | with_reducible apply State.extPutNat_canon | with_reducible refine State.canon_ite ?_ ?_
    | with_reducible refine State.foldl_canon (fun _ _ _ => ?_) ?_
    | with_reducible refine State.foldl_pair_canon (fun _ _ _ => ?_) ?_
    | (simp only [State.canon_mk_eq]; refine State.canon_mk ?_) | split

theorem State.drainTable_canon : ∀ s t, State.Canon s → (State.drainTable s t).Canon := by
  intro s t h; unfold State.drainTable
  try simp only []
  repeat'
    first
    | with_reducible assumption | with_reducible apply State.demote_canon
    | with_reducible apply State.extPutNat_canon | with_reducible apply State.excDel_canon
    | with_reducible apply State.count_canon | with_reducible refine State.canon_ite ?_ ?_
    | with_reducible refine State.foldl_canon (fun _ _ _ => ?_) ?_
    | with_reducible refine State.foldl_pair_canon (fun _ _ _ => ?_) ?_
    | (simp only [State.canon_mk_eq]; refine State.canon_mk ?_)

theorem State.updMoored_canon : ∀ s r m a f, State.Canon s → (State.updMoored s r m a f).Canon := by
  intro s r m a f h; unfold State.updMoored
  try simp only []
  repeat'
    first
    | with_reducible assumption | with_reducible apply State.updRegion_canon

theorem State.pieceFault_canon : ∀ s m r, State.Canon s → (State.pieceFault s m r).Canon := by
  intro s m r h; unfold State.pieceFault
  try simp only []
  repeat'
    first
    | with_reducible assumption | with_reducible apply State.count_canon
    | with_reducible apply State.updRegion_canon | with_reducible refine State.canon_ite ?_ ?_

theorem State.fillRow_canon : ∀ s m r a x, State.Canon s → (State.fillRow s m r a x).2.Canon := by
  intro s m r a x h; unfold State.fillRow
  split
  · split <;> rename_i heq
    all_goals have hm := State.pair_canon heq (State.acquire_canon _ _ _ _ _ _ _ h)
    · have hu := fun f => State.updMoored_canon _ r m a f (State.factorRow_canon _ m r 0 x ‹Tab› ‹RowGot› hm)
      simp only []
      split
      · exact State.pieceFault_canon _ _ _ (hu _)
      · exact hu _
    · exact State.updMoored_canon _ _ _ _ _ hm
    · exact hm
    · exact State.noteWait_canon _ _ _ hm
  · exact State.updMoored_canon _ _ _ _ _ h

theorem State.fillMoored_canon : ∀ s m r, State.Canon s → (State.fillMoored s m r).2.Canon := by
  intro s m r h; unfold State.fillMoored
  try simp only []
  repeat'
    first
    | with_reducible assumption | with_reducible apply State.fillRow_canon
    | with_reducible refine State.canon_ite ?_ ?_ | with_reducible refine State.foldl_canon (fun _ _ _ => ?_) ?_
    | with_reducible refine State.foldl_pair_canon (fun _ _ _ => ?_) ?_

theorem State.processOp_canon (s : State) (j sub : Nat) (f : State → Item → State) (hf : ∀ s it, s.Canon → (f s it).Canon) (h : s.Canon) : (State.processOp s j sub f).Canon := by
  unfold State.processOp
  refine State.process_canon _ _ _ _ (fun s it h => ?_) h
  split
  · exact hf _ _ h
  · exact h

theorem State.zeroPop_canon : ∀ s t, State.Canon s → (State.zeroPop s t).Canon := by
  intro s t h; unfold State.zeroPop
  try simp only []
  repeat'
    first
    | with_reducible assumption | with_reducible apply State.extWrite_canon
    | with_reducible refine State.canon_ite ?_ ?_

theorem State.createInto_canon : ∀ s it t k st, State.Canon s → (State.createInto s it t k st).Canon := by
  intro s it t k st h; unfold State.createInto
  try simp only []
  repeat'
    first
    | with_reducible assumption | with_reducible apply State.settle_canon | with_reducible apply State.zeroPop_canon
    | with_reducible apply State.putSlot_canon

theorem State.create_canon : ∀ s it, State.Canon s → (State.create s it).Canon := by
  intro s it h; unfold State.create
  try simp only []
  repeat'
    first
    | with_reducible assumption | with_reducible apply State.settle_canon | with_reducible apply State.createInto_canon
    | with_reducible apply State.dirFault_canon | with_reducible refine State.canon_ite ?_ ?_
    | with_reducible refine State.foldl_canon (fun _ _ _ => ?_) ?_
    | with_reducible refine State.foldl_pair_canon (fun _ _ _ => ?_) ?_
    | (simp only [State.canon_mk_eq]; refine State.canon_mk ?_) | split

theorem State.lateDrop_canon : ∀ s, State.Canon s → (State.lateDrop s).Canon := by
  intro s h; unfold State.lateDrop
  try simp only []
  repeat'
    first
    | with_reducible assumption | with_reducible apply State.count_canon

theorem State.sendWaiting_canon : ∀ s, State.Canon s → (State.sendWaiting s).Canon := by
  intro s h; unfold State.sendWaiting
  try simp only []
  repeat'
    first
    | with_reducible assumption | with_reducible apply State.launch_canon
    | with_reducible refine State.canon_ite ?_ ?_ | with_reducible refine State.foldl_canon (fun _ _ _ => ?_) ?_
    | with_reducible refine State.foldl_pair_canon (fun _ _ _ => ?_) ?_
    | (simp only [State.canon_mk_eq]; refine State.canon_mk ?_)

theorem State.freeTag_canon : ∀ s k, State.Canon s → (State.freeTag s k).Canon := by
  intro s k h; unfold State.freeTag
  try simp only []
  repeat'
    first
    | with_reducible assumption | with_reducible apply State.sendWaiting_canon
    | with_reducible apply State.setTagSt_canon

theorem State.respond_canon (s : State) (p : Packet) (f : State → TagUse → State) (hf : ∀ s u, s.Canon → (f s u).Canon) (h : s.Canon) : (State.respond s p f).Canon := by
  unfold State.respond
  split
  · exact State.lateDrop_canon _ h
  · split
    · exact hf _ _ (State.freeTag_canon _ _ h)
    · exact h

theorem State.holdReq_canon : ∀ s p since, State.Canon s → (State.holdReq s p since).Canon := by
  intro s p since h; unfold State.holdReq
  try simp only []
  repeat'
    first
    | with_reducible assumption | with_reducible refine State.canon_ite ?_ ?_
    | with_reducible refine State.foldl_canon (fun _ _ _ => ?_) ?_
    | with_reducible refine State.foldl_pair_canon (fun _ _ _ => ?_) ?_
    | (simp only [State.canon_mk_eq]; refine State.canon_mk ?_)

theorem State.setMoored_canon : ∀ s r m l, State.Canon s → (State.setMoored s r m l).Canon := by
  intro s r m l h; unfold State.setMoored
  try simp only []
  repeat'
    first
    | with_reducible assumption | with_reducible apply State.updRegion_canon

theorem State.notePlan_canon : ∀ s p, State.Canon s → (State.notePlan s p).Canon := by
  intro s p h; unfold State.notePlan
  try simp only []
  repeat'
    first
    | with_reducible assumption | with_reducible apply State.count_canon | with_reducible apply State.err_canon
    | with_reducible refine State.canon_ite ?_ ?_

theorem State.storedRow_canon : ∀ s t l, State.Canon s → (State.storedRow s t l).2.Canon := by
  intro s t l h; unfold State.storedRow
  try simp only []
  repeat'
    first
    | with_reducible assumption | with_reducible apply State.readRow_canon | with_reducible refine State.canon_ite ?_ ?_
    | with_reducible refine State.foldl_canon (fun _ _ _ => ?_) ?_
    | with_reducible refine State.foldl_pair_canon (fun _ _ _ => ?_) ?_
    | (simp only [State.canon_mk_eq]; refine State.canon_mk ?_) | split

theorem State.replace_canon : ∀ s it, State.Canon s → (State.replace s it).Canon := by
  intro s it h; unfold State.replace
  try simp only []
  repeat'
    first
    | with_reducible assumption | with_reducible apply State.settle_canon | with_reducible apply State.dirFault_canon
    | with_reducible apply State.pause_canon | with_reducible refine State.canon_ite ?_ ?_
    | with_reducible refine State.foldl_canon (fun _ _ _ => ?_) ?_
    | with_reducible refine State.foldl_pair_canon (fun _ _ _ => ?_) ?_
    | (simp only [State.canon_mk_eq]; refine State.canon_mk ?_) | split

theorem State.putEntries_canon (s : State) (st : Store) (n fuel a : Nat) (es : List (Nat × LockMask)) (h : s.Canon) :
    (s.putEntries st n fuel a es).Canon := by
  induction fuel generalizing s a es with
  | zero => exact h
  | succ k ih =>
    unfold State.putEntries
    exact State.canon_ite h (ih _ _ _ (State.wr_canon _ _ _ _ _ _ h))

theorem State.putTable_canon : ∀ s st n a es, State.Canon s → (State.putTable s st n a es).Canon := by
  intro s st n a es h; unfold State.putTable
  try simp only []
  repeat'
    first
    | with_reducible assumption | with_reducible apply State.putEntries_canon

theorem State.locked_canon : ∀ s n, State.Canon s → (State.locked s n).Canon := by
  intro s n h; unfold State.locked
  try simp only []
  repeat'
    first
    | with_reducible assumption | with_reducible apply State.sendControl_canon
    | with_reducible apply State.updPort_canon | with_reducible refine State.canon_ite ?_ ?_

theorem State.prefetchDone_canon : ∀ s p, State.Canon s → (State.prefetchDone s p).Canon := by
  intro s p h; unfold State.prefetchDone
  try simp only []
  repeat'
    first
    | with_reducible assumption | with_reducible apply State.arrived_canon | with_reducible refine State.canon_ite ?_ ?_
    | with_reducible refine State.foldl_canon (fun _ _ _ => ?_) ?_
    | with_reducible refine State.foldl_pair_canon (fun _ _ _ => ?_) ?_
    | (simp only [State.canon_mk_eq]; refine State.canon_mk ?_) | split

theorem State.updGather_canon : ∀ s g f, State.Canon s → (State.updGather s g f).Canon := by
  intro s g f h; unfold State.updGather
  try simp only []
  repeat'
    first
    | with_reducible assumption | with_reducible refine State.canon_ite ?_ ?_
    | with_reducible refine State.foldl_canon (fun _ _ _ => ?_) ?_
    | with_reducible refine State.foldl_pair_canon (fun _ _ _ => ?_) ?_
    | (simp only [State.canon_mk_eq]; refine State.canon_mk ?_)

theorem State.failSlot_canon : ∀ s g u fate, State.Canon s → (State.failSlot s g u fate).Canon := by
  intro s g u fate h; unfold State.failSlot
  try simp only []
  repeat'
    first
    | with_reducible assumption | with_reducible apply State.updGather_canon
    | with_reducible apply State.failRows_canon | with_reducible apply State.err_canon
    | with_reducible apply State.count_canon

theorem State.advanceSlot_canon : ∀ s g u, State.Canon s → (State.advanceSlot s g u).Canon := by
  intro s g u h
  unfold State.advanceSlot
  split
  · exact h
  · split
    · exact h
    · split
      · exact h
      · split
        · exact State.failSlot_canon _ _ _ _ (State.dirFault_canon _ h)
        · exact State.failSlot_canon _ _ _ _ h
        · split <;> rename_i heq
          all_goals have hm := State.pair_canon heq (State.acquire_canon _ _ _ _ _ _ _ h)
          · exact State.updGather_canon _ _ _ hm
          · exact State.failSlot_canon _ _ _ _ hm
          · exact hm
          · exact State.noteWait_canon _ _ _ hm

theorem State.advanceGather_canon : ∀ s g, State.Canon s → (State.advanceGather s g).Canon := by
  intro s g h; unfold State.advanceGather
  try simp only []
  repeat'
    first
    | with_reducible assumption | with_reducible apply State.advanceSlot_canon
    | with_reducible refine State.canon_ite ?_ ?_ | with_reducible refine State.foldl_canon (fun _ _ _ => ?_) ?_

theorem State.putSlotRow_canon : ∀ s g u x, State.Canon s → (State.putSlotRow s g u x).Canon := by
  intro s g u x h; unfold State.putSlotRow
  try simp only []
  repeat'
    first
    | with_reducible assumption | with_reducible apply State.wr_canon | with_reducible apply State.countNum_canon
    | with_reducible refine State.canon_ite ?_ ?_

theorem State.putImage_canon : ∀ s g, State.Canon s → (State.putImage s g).Canon := by
  intro s g h; unfold State.putImage
  try simp only []
  repeat'
    first
    | with_reducible assumption | with_reducible apply State.wr_canon | with_reducible apply State.putTable_canon
    | with_reducible apply State.putSlotRow_canon | with_reducible refine State.canon_ite ?_ ?_
    | with_reducible refine State.foldl_canon (fun _ _ _ => ?_) ?_

theorem State.finishGather_canon : ∀ s g, State.Canon s → (State.finishGather s g).Canon := by
  intro s g h; unfold State.finishGather
  try simp only []
  repeat'
    first
    | with_reducible assumption | with_reducible apply State.putImage_canon | with_reducible apply State.notePend_canon
    | with_reducible apply State.count_canon | with_reducible apply State.finishOp_canon
    | with_reducible refine State.canon_ite ?_ ?_ | with_reducible refine State.foldl_canon (fun _ _ _ => ?_) ?_
    | with_reducible refine State.foldl_pair_canon (fun _ _ _ => ?_) ?_
    | (simp only [State.canon_mk_eq]; refine State.canon_mk ?_) | split

theorem State.prefetchKey_canon : ∀ s id i r key mult, State.Canon s → (State.prefetchKey s id i r key mult).2.Canon := by
  intro s id i r key mult h
  unfold State.prefetchKey
  generalize key / 2 ^ 40 = tid
  generalize key % 2 ^ 40 = x
  simp only []
  split
  · generalize ((match s.cached? r tid x with | some e => e.closed == s.lastClosed | none => false) ||
      s.inFlight r tid x) = c
    cases c <;> simp only [Bool.false_eq_true, if_true, if_false]
    · split
      · exact State.noteWait_canon _ _ _ h
      · split
        · split <;> rename_i heq
          all_goals have hm := State.pair_canon heq (State.readLocal_canon _ _ _ _ _ _ _ h)
          · exact State.received_canon _ _ _ _ _ _ hm
          · exact State.count_canon _ pGSU 0xF28 1 hm
        · exact State.sentOne_canon _ _ _ (State.readRemote_canon _ _ _ _ _ _ _ _ h)
    · exact h
  · exact State.count_canon _ pGSU 0xF28 1 h

theorem State.prefetchReads_canon : ∀ s id i ks, State.Canon s → (State.prefetchReads s id i ks).Canon := by
  intro s id i ks h; unfold State.prefetchReads
  try simp only []
  repeat'
    first
    | with_reducible assumption | with_reducible apply State.prefetchKey_canon
    | with_reducible apply State.updBarge_canon | with_reducible apply State.finishOp_canon
    | with_reducible refine State.canon_ite ?_ ?_ | with_reducible refine State.foldl_canon (fun _ _ _ => ?_) ?_
    | with_reducible refine State.foldl_pair_canon (fun _ _ _ => ?_) ?_

theorem State.pumpPrefetch_canon : ∀ s r b, State.Canon s → (State.pumpPrefetch s r b).Canon := by
  intro s r b h; unfold State.pumpPrefetch
  try simp only []
  repeat'
    first
    | with_reducible assumption | with_reducible apply State.prefetchReads_canon
    | with_reducible refine State.canon_ite ?_ ?_ | with_reducible refine State.foldl_canon (fun _ _ _ => ?_) ?_

theorem State.pumpRegion_canon : ∀ s r, State.Canon s → (State.pumpRegion s r).Canon := by
  intro s r h; unfold State.pumpRegion
  try simp only []
  repeat'
    first
    | with_reducible assumption | with_reducible apply State.advanceGather_canon
    | with_reducible apply State.finishGather_canon | with_reducible apply State.pumpPrefetch_canon
    | with_reducible refine State.canon_ite ?_ ?_ | with_reducible refine State.foldl_canon (fun _ _ _ => ?_) ?_

theorem State.noteFactorFail_canon : ∀ s r t x fate, State.Canon s → (State.noteFactorFail s r t x fate).Canon := by
  intro s r t x fate h; unfold State.noteFactorFail
  try simp only []
  repeat'
    first
    | with_reducible assumption | with_reducible apply State.updRegion_canon
    | with_reducible refine State.canon_ite ?_ ?_ | with_reducible refine State.foldl_canon (fun _ _ _ => ?_) ?_
    | with_reducible refine State.foldl_pair_canon (fun _ _ _ => ?_) ?_
    | (simp only [State.canon_mk_eq]; refine State.canon_mk ?_)

theorem State.failSlots_canon : ∀ s r t x fate, State.Canon s → (State.failSlots s r t x fate).Canon := by
  intro s r t x fate h; unfold State.failSlots
  try simp only []
  repeat'
    first
    | with_reducible assumption | with_reducible apply State.failSlot_canon
    | with_reducible refine State.canon_ite ?_ ?_ | with_reducible refine State.foldl_canon (fun _ _ _ => ?_) ?_

theorem State.rowFailed_canon : ∀ s r t x fate prefetch, State.Canon s → (State.rowFailed s r t x fate prefetch).Canon := by
  intro s r t x fate prefetch h; unfold State.rowFailed
  try simp only []
  repeat'
    first
    | with_reducible assumption | with_reducible apply State.prefetchDone_canon
    | with_reducible apply State.count_canon | with_reducible apply State.pumpRegion_canon
    | with_reducible apply State.noteFactorFail_canon | with_reducible apply State.failSlots_canon
    | with_reducible refine State.canon_ite ?_ ?_

theorem State.excPut_canon (s : State) (t x w : Nat) (u : State) (h : s.Canon) (e : s.excPut t x w = some u) : u.Canon := by
  unfold State.excPut at e
  split at e
  · cases e; exact State.extPutNat_canon _ _ _ _ h
  · simp only [Option.map_eq_some_iff] at e
    obtain ⟨a, -, rfl⟩ := e
    exact State.extPutNat_canon _ _ _ _ h

theorem State.forwardPacket_canon : ∀ s n p, State.Canon s → (State.forwardPacket s n p).Canon := by
  intro s n p h; unfold State.forwardPacket
  try simp only []
  repeat'
    first
    | with_reducible assumption | with_reducible apply State.waitTurn_canon
    | with_reducible apply State.badPacket_canon | with_reducible apply State.take_canon
    | with_reducible apply State.err_canon | with_reducible apply State.count_canon
    | with_reducible apply State.sendOut_canon | with_reducible refine State.canon_ite ?_ ?_

theorem State.linkDown_canon : ∀ s n, State.Canon s → (State.linkDown s n).Canon := by
  intro s n h; unfold State.linkDown
  try simp only []
  repeat'
    first
    | with_reducible assumption | with_reducible apply State.updPort_canon | with_reducible apply State.err_canon
    | with_reducible apply State.count_canon | with_reducible apply State.raise_canon
    | with_reducible refine State.canon_ite ?_ ?_ | with_reducible refine State.foldl_canon (fun _ _ _ => ?_) ?_
    | with_reducible refine State.foldl_pair_canon (fun _ _ _ => ?_) ?_
    | (simp only [State.canon_mk_eq]; refine State.canon_mk ?_)

theorem State.retrainDone_canon : ∀ s n, State.Canon s → (State.retrainDone s n).Canon := by
  intro s n h; unfold State.retrainDone
  try simp only []
  repeat'
    first
    | with_reducible assumption | with_reducible apply State.updPort_canon | with_reducible refine State.canon_ite ?_ ?_
    | with_reducible refine State.foldl_canon (fun _ _ _ => ?_) ?_
    | with_reducible refine State.foldl_pair_canon (fun _ _ _ => ?_) ?_
    | (simp only [State.canon_mk_eq]; refine State.canon_mk ?_) | split

theorem State.nakOnce_canon : ∀ s n, State.Canon s → (State.nakOnce s n).Canon := by
  intro s n h; unfold State.nakOnce
  try simp only []
  repeat'
    first
    | with_reducible assumption | with_reducible apply State.sendControl_canon
    | with_reducible apply State.setPort_canon | with_reducible refine State.canon_ite ?_ ?_

theorem State.badFlit_canon : ∀ s n, State.Canon s → (State.badFlit s n).Canon := by
  intro s n h; unfold State.badFlit
  try simp only []
  repeat'
    first
    | with_reducible assumption | with_reducible apply State.nakOnce_canon
    | with_reducible apply State.updPort_canon

theorem State.ackFlits_canon : ∀ s n ack, State.Canon s → (State.ackFlits s n ack).Canon := by
  intro s n ack h; unfold State.ackFlits
  try simp only []
  repeat'
    first
    | with_reducible assumption | with_reducible apply State.pump_canon | with_reducible apply State.updPort_canon

theorem State.rxFlit_canon (s : State) (n : Nat) (f : BitVec 512) (mark : Bool) (kind : Nat) (act : State → State) (hf : ∀ s, s.Canon → (act s).Canon) (h : s.Canon) : (State.rxFlit s n f mark kind act).Canon := by
  unfold State.rxFlit
  simp only []
  repeat' first | assumption | with_reducible apply hf | with_reducible apply State.badFlit_canon | with_reducible apply State.ackFlits_canon | with_reducible refine State.canon_ite ?_ ?_

theorem State.endQuarantine_canon : ∀ s k, State.Canon s → (State.endQuarantine s k).Canon := by
  intro s k h; unfold State.endQuarantine
  try simp only []
  repeat'
    first
    | with_reducible assumption | with_reducible apply State.freeTag_canon | with_reducible refine State.canon_ite ?_ ?_
    | with_reducible refine State.foldl_canon (fun _ _ _ => ?_) ?_
    | with_reducible refine State.foldl_pair_canon (fun _ _ _ => ?_) ?_
    | (simp only [State.canon_mk_eq]; refine State.canon_mk ?_) | split

theorem State.releaseTrain_canon : ∀ s j, State.Canon s → (State.releaseTrain s j).Canon := by
  intro s j h; unfold State.releaseTrain
  try simp only []
  repeat'
    first
    | with_reducible assumption | with_reducible refine State.canon_ite ?_ ?_
    | with_reducible refine State.foldl_canon (fun _ _ _ => ?_) ?_
    | with_reducible refine State.foldl_pair_canon (fun _ _ _ => ?_) ?_
    | (simp only [State.canon_mk_eq]; refine State.canon_mk ?_) | split

theorem State.remoor_canon : ∀ s m ids, State.Canon s → (State.remoor s m ids).Canon := by
  intro s m ids h; unfold State.remoor
  try simp only []
  repeat'
    first
    | with_reducible assumption | with_reducible apply State.updRegion_canon
    | with_reducible apply State.fillMoored_canon | with_reducible refine State.canon_ite ?_ ?_
    | with_reducible refine State.foldl_canon (fun _ _ _ => ?_) ?_

theorem State.fillSlots_canon : ∀ s r t x g, State.Canon s → (State.fillSlots s r t x g).Canon := by
  intro s r t x g h; unfold State.fillSlots
  try simp only []
  repeat'
    first
    | with_reducible assumption | with_reducible refine State.canon_ite ?_ ?_
    | with_reducible refine State.foldl_canon (fun _ _ _ => ?_) ?_
    | with_reducible refine State.foldl_pair_canon (fun _ _ _ => ?_) ?_
    | (simp only [State.canon_mk_eq]; refine State.canon_mk ?_)

theorem State.currentCame_canon : ∀ s r tid x, State.Canon s → (State.currentCame s r tid x).Canon := by
  intro s r tid x h; unfold State.currentCame
  try simp only []
  repeat'
    first
    | with_reducible assumption | with_reducible apply State.count_canon | with_reducible apply State.pumpRegion_canon
    | with_reducible apply State.fillSlots_canon | with_reducible apply State.cacheUse_canon
    | with_reducible refine State.canon_ite ?_ ?_ | with_reducible refine State.foldl_canon (fun _ _ _ => ?_) ?_
    | with_reducible refine State.foldl_pair_canon (fun _ _ _ => ?_) ?_
    | (simp only [State.canon_mk_eq]; refine State.canon_mk ?_) | split

theorem State.settleMaster_canon : ∀ s, State.Canon s → (State.settleMaster s).Canon := by
  intro s h; unfold State.settleMaster
  try simp only []
  repeat'
    first
    | with_reducible assumption | with_reducible apply State.setRegN_canon | with_reducible apply State.err_canon
    | with_reducible refine State.canon_ite ?_ ?_
    | (simp only [State.canon_mk_eq]; refine State.canon_mk ?_)

theorem State.rowsStart_canon (s : State) (it : Item) (read : Bool) (run : State → Tab → RowsHdr → State) (hf : ∀ s t x, s.Canon → (run s t x).Canon) (h : s.Canon) : (State.rowsStart s it read run).Canon := by
  unfold State.rowsStart
  simp only []
  repeat' first | assumption | with_reducible apply hf | with_reducible apply State.settle_canon | with_reducible apply State.dirFault_canon | with_reducible refine State.canon_ite ?_ ?_ | split

theorem State.readOne_canon : ∀ s t it h k, State.Canon s → (State.readOne s t it h k).2.Canon := by
  intro s t it h k h; unfold State.readOne
  try simp only []
  repeat'
    first
    | with_reducible assumption | with_reducible apply State.storedRow_canon | with_reducible apply State.locWrite_canon
    | with_reducible refine State.canon_ite ?_ ?_ | with_reducible refine State.foldl_canon (fun _ _ _ => ?_) ?_
    | with_reducible refine State.foldl_pair_canon (fun _ _ _ => ?_) ?_
    | (simp only [State.canon_mk_eq]; refine State.canon_mk ?_) | split

theorem State.readMany_canon (s : State) (t : Tab) (it : Item) (x : RowsHdr) (n k : Nat) (h : s.Canon) : (State.readMany s t it x n k).2.2.Canon := by
  induction n generalizing s k with
  | zero => exact h
  | succ n ih =>
    unfold State.readMany
    split <;> rename_i heq
    · exact (congrArg (fun p => p.2.Canon) heq).mp (State.readOne_canon _ _ _ _ _ h)
    · exact ih _ _ ((congrArg (fun p => p.2.Canon) heq).mp (State.readOne_canon _ _ _ _ _ h))

theorem State.endPause_canon : ∀ s p, State.Canon s → (State.endPause s p).Canon := by
  intro s p h; unfold State.endPause
  try simp only []
  repeat'
    first
    | with_reducible assumption | with_reducible apply State.count_canon
    | with_reducible refine State.canon_ite ?_ ?_ | with_reducible refine State.foldl_canon (fun _ _ _ => ?_) ?_
    | with_reducible refine State.foldl_pair_canon (fun _ _ _ => ?_) ?_
    | (simp only [State.canon_mk_eq]; refine State.canon_mk ?_)

theorem State.pauseTakeEffect_canon : ∀ s p it, State.Canon s → (State.pauseTakeEffect s p it).Canon := by
  intro s p it h; unfold State.pauseTakeEffect
  try simp only []
  repeat'
    first
    | with_reducible assumption | with_reducible apply State.drainTable_canon | with_reducible apply State.markSlot_canon
    | with_reducible apply State.settle_canon | with_reducible apply State.endPause_canon
    | with_reducible apply State.freeEntries_canon | with_reducible apply State.dirFault_canon
    | with_reducible refine State.canon_ite ?_ ?_ | with_reducible refine State.foldl_canon (fun _ _ _ => ?_) ?_
    | with_reducible refine State.foldl_pair_canon (fun _ _ _ => ?_) ?_
    | (simp only [State.canon_mk_eq]; refine State.canon_mk ?_) | split

theorem State.tableTakeEffect_canon : ∀ s j replace, State.Canon s → (State.tableTakeEffect s j replace).Canon := by
  intro s j replace h; unfold State.tableTakeEffect
  try simp only []
  repeat'
    first
    | with_reducible assumption | with_reducible apply State.pauseTakeEffect_canon
    | with_reducible refine State.canon_ite ?_ ?_ | with_reducible refine State.foldl_canon (fun _ _ _ => ?_) ?_
    | with_reducible refine State.foldl_pair_canon (fun _ _ _ => ?_) ?_
    | (simp only [State.canon_mk_eq]; refine State.canon_mk ?_) | split

theorem State.deleteTable_canon : ∀ s it, State.Canon s → (State.deleteTable s it).Canon := by
  intro s it h; unfold State.deleteTable
  try simp only []
  repeat'
    first
    | with_reducible assumption | with_reducible apply State.settle_canon | with_reducible apply State.dirFault_canon
    | with_reducible apply State.markSlot_canon | with_reducible apply State.pause_canon
    | with_reducible refine State.canon_ite ?_ ?_ | with_reducible refine State.foldl_canon (fun _ _ _ => ?_) ?_
    | with_reducible refine State.foldl_pair_canon (fun _ _ _ => ?_) ?_
    | (simp only [State.canon_mk_eq]; refine State.canon_mk ?_) | split

theorem State.zeroState_canon : ∀ s t l, State.Canon s → (State.zeroState s t l).Canon := by
  intro s t l h; unfold State.zeroState
  try simp only []
  repeat'
    first
    | with_reducible assumption | with_reducible apply State.extWrite_canon
    | with_reducible refine State.canon_ite ?_ ?_

theorem State.writeOne_canon : ∀ s t it h k, State.Canon s → (State.writeOne s t it h k).2.Canon := by
  intro s t it h k hs; unfold State.writeOne; simp only []
  split
  · exact hs
  · generalize hp : (if h.source = true then _ else (_, s) : (Nat ⊕ List Word) × State) = p
    have hm : p.2.Canon := by
      rw [← hp]; split
      · exact State.storedRow_canon _ _ _ hs
      · exact hs
    split
    · exact hm
    · split
      · exact hm
      · split <;> rename_i heq
        all_goals have hm := State.pair_canon heq (State.encodeInto_canon _ _ _ _ _ _ _ hm)
        · exact hm
        · simp only []
          have hw := fun l i n b => State.writeRowImage_canon _ t l i n b hm
          split
          · exact State.zeroState_canon _ _ _ (hw _ _ _ _)
          · exact hw _ _ _ _

theorem State.writeMany_canon (s : State) (t : Tab) (it : Item) (x : RowsHdr) (n k : Nat) (h : s.Canon) : (State.writeMany s t it x n k).2.2.Canon := by
  induction n generalizing s k with
  | zero => exact h
  | succ n ih =>
    unfold State.writeMany
    split <;> rename_i heq
    · exact (congrArg (fun p => p.2.Canon) heq).mp (State.writeOne_canon _ _ _ _ _ h)
    · exact ih _ _ ((congrArg (fun p => p.2.Canon) heq).mp (State.writeOne_canon _ _ _ _ _ h))

theorem State.flipDone_canon : ∀ s it, State.Canon s → (State.flipDone s it).Canon := by
  intro s it h; unfold State.flipDone
  try simp only []
  repeat'
    first
    | with_reducible assumption | with_reducible apply State.count_canon | with_reducible apply State.remoor_canon
    | with_reducible apply State.settle_canon | with_reducible apply State.updMooring_canon
    | with_reducible apply State.flipLeaves_canon | with_reducible refine State.canon_ite ?_ ?_

theorem State.addAt_canon : ∀ s a v, State.Canon s → (State.addAt s a v).Canon := by
  intro s a v h; unfold State.addAt
  try simp only []
  repeat'
    first
    | with_reducible assumption | with_reducible apply State.extPutNat_canon

theorem State.refill_canon : ∀ s, State.Canon s → (State.refill s).Canon := by
  intro s h; unfold State.refill
  try simp only []
  repeat'
    first
    | with_reducible assumption | with_reducible apply State.noteDefers_canon
    | with_reducible refine State.canon_ite ?_ ?_ | with_reducible refine State.foldl_canon (fun _ _ _ => ?_) ?_
    | with_reducible refine State.foldl_pair_canon (fun _ _ _ => ?_) ?_
    | (simp only [State.canon_mk_eq]; refine State.canon_mk ?_)

theorem State.report_canon : ∀ s, State.Canon s → (State.report s).Canon := by
  intro s h; unfold State.report
  try simp only []
  repeat'
    first
    | with_reducible assumption | with_reducible apply State.extWrite_canon
    | with_reducible apply State.setRegN_canon | with_reducible apply State.raise_canon
    | with_reducible refine State.canon_ite ?_ ?_ | with_reducible refine State.foldl_canon (fun _ _ _ => ?_) ?_
    | with_reducible refine State.foldl_pair_canon (fun _ _ _ => ?_) ?_
    | (simp only [State.canon_mk_eq]; refine State.canon_mk ?_)

theorem State.unhold_canon : ∀ s p, State.Canon s → (State.unhold s p).2.Canon := by
  intro s p h; unfold State.unhold
  try simp only []
  repeat'
    first
    | with_reducible assumption | with_reducible refine State.canon_ite ?_ ?_
    | with_reducible refine State.foldl_canon (fun _ _ _ => ?_) ?_
    | with_reducible refine State.foldl_pair_canon (fun _ _ _ => ?_) ?_
    | (simp only [State.canon_mk_eq]; refine State.canon_mk ?_) | split

theorem State.answerRow_canon : ∀ s p since r, State.Canon s → (State.answerRow s p since r).Canon := by
  intro s p since r h; unfold State.answerRow
  try simp only []
  repeat'
    first
    | with_reducible assumption | with_reducible apply State.answer_canon | with_reducible apply State.holdReq_canon
    | with_reducible refine State.canon_ite ?_ ?_ | with_reducible refine State.foldl_canon (fun _ _ _ => ?_) ?_
    | with_reducible refine State.foldl_pair_canon (fun _ _ _ => ?_) ?_
    | (simp only [State.canon_mk_eq]; refine State.canon_mk ?_) | split

theorem State.rowCame_canon : ∀ s r tid x probe prefetch p, State.Canon s → (State.rowCame s r tid x probe prefetch p).Canon := by
  intro s r tid x probe prefetch p h; unfold State.rowCame
  try simp only []
  repeat'
    first
    | with_reducible assumption | with_reducible apply State.rowFailed_canon
    | with_reducible apply State.prefetchDone_canon | with_reducible apply State.count_canon
    | with_reducible apply State.pumpRegion_canon | with_reducible apply State.fillSlots_canon
    | with_reducible apply State.received_canon | with_reducible refine State.canon_ite ?_ ?_
    | with_reducible refine State.foldl_canon (fun _ _ _ => ?_) ?_
    | with_reducible refine State.foldl_pair_canon (fun _ _ _ => ?_) ?_
    | (simp only [State.canon_mk_eq]; refine State.canon_mk ?_) | split

theorem State.putBack_canon : ∀ s p, State.Canon s → (State.putBack s p).Canon := by
  intro s p h; unfold State.putBack
  try simp only []
  repeat'
    first
    | with_reducible assumption | with_reducible refine State.canon_ite ?_ ?_
    | with_reducible refine State.foldl_canon (fun _ _ _ => ?_) ?_
    | with_reducible refine State.foldl_pair_canon (fun _ _ _ => ?_) ?_
    | (simp only [State.canon_mk_eq]; refine State.canon_mk ?_)

theorem State.serve_canon (s : State) (p : Packet) (n : Nat) (aligned : Bool) (f : State → State) (hf : ∀ s, s.Canon → (f s).Canon) (h : s.Canon) : (State.serve s p n aligned f).Canon := by
  unfold State.serve
  repeat' first | assumption | with_reducible apply hf | with_reducible apply State.answer_canon | with_reducible apply State.err_canon | with_reducible apply State.count_canon | with_reducible apply State.putBack_canon | with_reducible refine State.canon_ite ?_ ?_

theorem State.storeUnits_canon : ∀ s p, State.Canon s → (State.storeUnits s p).Canon := by
  intro s p h; unfold State.storeUnits
  try simp only []
  repeat'
    first
    | with_reducible assumption | with_reducible apply State.extWrite_canon
    | with_reducible refine State.canon_ite ?_ ?_ | with_reducible refine State.foldl_canon (fun _ _ _ => ?_) ?_

theorem State.storeWrite_canon : ∀ s p, State.Canon s → (State.storeWrite s p).Canon := by
  intro s p h; unfold State.storeWrite
  try simp only []
  repeat'
    first
    | with_reducible assumption | with_reducible apply State.storeUnits_canon
    | with_reducible apply State.extWrite_canon | with_reducible refine State.canon_ite ?_ ?_

theorem State.packetWhole_canon : ∀ s n vc bs, State.Canon s → (State.packetWhole s n vc bs).Canon := by
  intro s n vc bs h; unfold State.packetWhole
  try simp only []
  repeat'
    first
    | with_reducible assumption | with_reducible apply State.badPacket_canon
    | with_reducible apply State.freeFlits_canon | with_reducible refine State.canon_ite ?_ ?_
    | with_reducible refine State.foldl_canon (fun _ _ _ => ?_) ?_
    | with_reducible refine State.foldl_pair_canon (fun _ _ _ => ?_) ?_
    | (simp only [State.canon_mk_eq]; refine State.canon_mk ?_)

theorem State.joinFlit_canon : ∀ s n f, State.Canon s → (State.joinFlit s n f).Canon := by
  intro s n f h; unfold State.joinFlit
  try simp only []
  repeat'
    first
    | with_reducible assumption | with_reducible apply State.badPacket_canon
    | with_reducible apply State.freeFlits_canon | with_reducible apply State.setPort_canon
    | with_reducible apply State.packetWhole_canon | with_reducible refine State.canon_ite ?_ ?_

theorem State.dataFlit_canon : ∀ s n f, State.Canon s → (State.dataFlit s n f).Canon := by
  intro s n f h; unfold State.dataFlit
  try simp only []
  repeat'
    first
    | with_reducible assumption | with_reducible apply State.joinFlit_canon
    | with_reducible apply State.setPort_canon | with_reducible apply State.count_canon
    | with_reducible apply State.nakOnce_canon | with_reducible refine State.canon_ite ?_ ?_

theorem State.resend_canon : ∀ s n seq, State.Canon s → (State.resend s n seq).Canon := by
  intro s n seq h; unfold State.resend
  try simp only []
  repeat'
    first
    | with_reducible assumption | with_reducible apply State.linkDown_canon
    | with_reducible apply State.updPort_canon | with_reducible apply State.flitsLeave_canon
    | with_reducible refine State.canon_ite ?_ ?_ | with_reducible refine State.foldl_canon (fun _ _ _ => ?_) ?_

theorem State.initFlit_canon : ∀ s n c, State.Canon s → (State.initFlit s n c).Canon := by
  intro s n c h; unfold State.initFlit
  try simp only []
  repeat'
    first
    | with_reducible assumption | with_reducible apply State.updPort_canon
    | with_reducible apply State.settleMaster_canon | with_reducible apply State.err_canon
    | with_reducible refine State.canon_ite ?_ ?_

theorem State.replayLate_canon : ∀ s n, State.Canon s → (State.replayLate s n).Canon := by
  intro s n h; unfold State.replayLate
  try simp only []
  repeat'
    first
    | with_reducible assumption | with_reducible apply State.linkDown_canon | with_reducible refine State.canon_ite ?_ ?_
    | with_reducible refine State.foldl_canon (fun _ _ _ => ?_) ?_
    | with_reducible refine State.foldl_pair_canon (fun _ _ _ => ?_) ?_
    | (simp only [State.canon_mk_eq]; refine State.canon_mk ?_) | split

end Sys2Proof.Machine
end

