-- ==== Sys2Proof/Laws/CanonRows.lean ====
section
/-! SUPPORT. The operations of placement, gathers, updates and moving rows keep every store in canonical form. -/

namespace Sys2Proof.Machine

open Sys2Proof

set_option Elab.async false

theorem State.loseRow_canon : ∀ s, State.Canon s → (State.loseRow s).Canon := by
  intro s h; unfold State.loseRow
  try simp only []
  repeat'
    first
    | with_reducible assumption | with_reducible apply State.err_canon | with_reducible apply State.count_canon

theorem State.noteKeys_canon : ∀ s ps bl, State.Canon s → (State.noteKeys s ps bl).Canon := by
  intro s ps bl h; unfold State.noteKeys
  try simp only []
  repeat'
    first
    | with_reducible assumption | with_reducible apply State.noteDefaults_canon
    | with_reducible apply State.dirFault_canon | with_reducible apply State.err_canon
    | with_reducible refine State.canon_ite ?_ ?_ | with_reducible refine State.foldl_canon (fun _ _ _ => ?_) ?_

theorem State.addWords_canon : ∀ s b i inst a bs t rows, State.Canon s → (State.addWords s b i inst a bs t rows).Canon := by
  intro s b i inst a bs t rows h; unfold State.addWords
  try simp only []
  repeat'
    first
    | with_reducible assumption | with_reducible apply State.addUnit_canon
    | with_reducible refine State.canon_ite ?_ ?_ | with_reducible refine State.foldl_canon (fun _ _ _ => ?_) ?_

theorem State.takeSeq_canon : ∀ s owner step, State.Canon s → (State.takeSeq s owner step).2.Canon := by
  intro s owner step h; unfold State.takeSeq
  try simp only []
  repeat'
    first
    | with_reducible assumption | with_reducible refine State.canon_ite ?_ ?_
    | with_reducible refine State.foldl_canon (fun _ _ _ => ?_) ?_
    | with_reducible refine State.foldl_pair_canon (fun _ _ _ => ?_) ?_
    | (simp only [State.canon_mk_eq]; refine State.canon_mk ?_) | split

theorem State.sendVc3_canon : ∀ s use t x owner step kind mult dimq grad, State.Canon s → (State.sendVc3 s use t x owner step kind mult dimq grad).Canon := by
  intro s use t x owner step kind mult dimq grad h; unfold State.sendVc3
  try simp only []
  repeat'
    first
    | with_reducible assumption | with_reducible apply State.takeSeq_canon
    | with_reducible apply State.request_canon

theorem State.expireGone_canon : ∀ s tid x, State.Canon s → (State.expireGone s tid x).Canon := by
  intro s tid x h; unfold State.expireGone
  try simp only []
  repeat'
    first
    | with_reducible assumption | with_reducible apply State.extPutNat_canon | with_reducible refine State.canon_ite ?_ ?_
    | with_reducible refine State.foldl_canon (fun _ _ _ => ?_) ?_
    | with_reducible refine State.foldl_pair_canon (fun _ _ _ => ?_) ?_
    | (simp only [State.canon_mk_eq]; refine State.canon_mk ?_) | split

theorem State.setUses_canon : ∀ s r n, State.Canon s → (State.setUses s r n).Canon := by
  intro s r n h; unfold State.setUses
  try simp only []
  repeat'
    first
    | with_reducible assumption | with_reducible apply State.wr_canon | with_reducible apply State.updRegion_canon

theorem State.decay_canon : ∀ s, State.Canon s → (State.decay s).Canon := by
  intro s h; unfold State.decay
  try simp only []
  repeat'
    first
    | with_reducible assumption | with_reducible apply State.extPutNat_canon
    | with_reducible refine State.canon_ite ?_ ?_ | with_reducible refine State.foldl_canon (fun _ _ _ => ?_) ?_

theorem State.extClear_canon : ∀ s a n, State.Canon s → (State.extClear s a n).Canon := by
  intro s a n h
  unfold State.extClear
  repeat' first | assumption | with_reducible refine State.canon_ite ?_ ?_ | (with_reducible refine State.foldl_canon (fun _ _ _ => ?_) ?_) | with_reducible apply State.setTag_canon | (simp only [State.canon_mk_eq]; refine State.canon_mk ?_ (h_ext := fun h => SMap.wf_sublist _ _ _ List.filter_sublist h.ext))

theorem State.skewReport_canon : ∀ s, State.Canon s → (State.skewReport s).Canon := by
  intro s h; unfold State.skewReport
  try simp only []
  repeat'
    first
    | with_reducible assumption | with_reducible apply State.extClear_canon
    | with_reducible apply State.extWrite_canon | with_reducible apply State.setRegN_canon
    | with_reducible apply State.raise_canon | with_reducible refine State.canon_ite ?_ ?_
    | with_reducible refine State.foldl_canon (fun _ _ _ => ?_) ?_

theorem State.demoteRow_canon : ∀ s c, State.Canon s → (State.demoteRow s c).2.Canon := by
  intro s c h; unfold State.demoteRow
  try simp only []
  repeat'
    first
    | with_reducible assumption | with_reducible apply State.demote_canon | with_reducible refine State.canon_ite ?_ ?_
    | with_reducible refine State.foldl_canon (fun _ _ _ => ?_) ?_
    | with_reducible refine State.foldl_pair_canon (fun _ _ _ => ?_) ?_
    | (simp only [State.canon_mk_eq]; refine State.canon_mk ?_) | split

theorem State.makeHot_canon : ∀ s t x a h home img, State.Canon s → (State.makeHot s t x a h home img).Canon := by
  intro s t x a h home img h; unfold State.makeHot
  try simp only []
  repeat'
    first
    | with_reducible assumption | with_reducible apply State.writeRowImage_canon
    | with_reducible apply State.extPutNat_canon | with_reducible apply State.extWrite_canon
    | with_reducible apply State.skew_canon | with_reducible apply State.count_canon
    | with_reducible refine State.canon_ite ?_ ?_

theorem State.promote_canon : ∀ s c, State.Canon s → (State.promote s c).Canon := by
  intro s c h; unfold State.promote; simp only []
  split
  · split
    · split
      · exact h
      · split
        · have hr := fun l => State.readRow_canon _ ‹Tab› l h
          split
          · exact hr _
          · split <;> rename_i heq
            all_goals have hm := State.pair_canon heq (State.encodeInto_canon _ _ _ _ _ _ _ (hr _))
            · exact State.makeHot_canon _ _ _ _ _ _ _ hm
            · exact hm
        · exact State.count_canon _ _ _ _ h
    · exact h
  · exact h

theorem State.movePoint_canon : ∀ s, State.Canon s → (State.movePoint s).Canon := by
  intro s h; unfold State.movePoint
  try simp only []
  repeat'
    first
    | with_reducible assumption | with_reducible apply State.demoteRow_canon
    | with_reducible apply State.promote_canon | with_reducible refine State.canon_ite ?_ ?_
    | with_reducible refine State.foldl_canon (fun _ _ _ => ?_) ?_
    | with_reducible refine State.foldl_pair_canon (fun _ _ _ => ?_) ?_
    | (simp only [State.canon_mk_eq]; refine State.canon_mk ?_)

theorem State.windowEnd_canon : ∀ s, State.Canon s → (State.windowEnd s).Canon := by
  intro s h; unfold State.windowEnd
  try simp only []
  repeat'
    first
    | with_reducible assumption | with_reducible apply State.decay_canon
    | with_reducible apply State.skewReport_canon | with_reducible apply State.movePoint_canon
    | with_reducible refine State.canon_ite ?_ ?_ | with_reducible refine State.foldl_canon (fun _ _ _ => ?_) ?_
    | with_reducible refine State.foldl_pair_canon (fun _ _ _ => ?_) ?_
    | (simp only [State.canon_mk_eq]; refine State.canon_mk ?_)

theorem State.dropStale_canon : ∀ s, State.Canon s → (State.dropStale s).Canon := by
  intro s h; unfold State.dropStale
  try simp only []
  repeat'
    first
    | with_reducible assumption | with_reducible refine State.canon_ite ?_ ?_
    | with_reducible refine State.foldl_canon (fun _ _ _ => ?_) ?_
    | with_reducible refine State.foldl_pair_canon (fun _ _ _ => ?_) ?_
    | (simp only [State.canon_mk_eq]; refine State.canon_mk ?_)

theorem State.receiveMove_canon (s : State) (p : Packet) (kind : Nat) (f : State → State)
    (hf : ∀ s, s.Canon → (f s).Canon) (h : s.Canon) : (State.receiveMove s p kind f).Canon := by
  unfold State.receiveMove
  split
  · exact h
  · refine State.receive_canon _ _ _ _ (fun s h => ?_) h
    split
    · exact State.answer_canon _ _ _ _ _ _ (State.err_canon _ _ _ (State.count_canon _ _ _ _ h))
    · split
      · exact State.badPacket_canon _ h
      · exact hf _ (State.dropStale_canon _ h)

theorem State.answerMove_canon : ∀ s p a, State.Canon s → (State.answerMove s p a).Canon := by
  intro s p a h; unfold State.answerMove
  try simp only []
  repeat'
    first
    | with_reducible assumption | with_reducible apply State.answer_canon

theorem State.leaveOut_canon : ∀ s b i w key m row fate poison, State.Canon s → (State.leaveOut s b i w key m row fate poison).Canon := by
  intro s b i w key m row fate poison h; unfold State.leaveOut
  try simp only []
  repeat'
    first
    | with_reducible assumption | with_reducible apply State.addUnit_canon

theorem State.saveRange_canon : ∀ s st x n dest, State.Canon s → (State.saveRange s st x n dest).Canon := by
  intro s st x n dest h; unfold State.saveRange
  try simp only []
  repeat'
    first
    | with_reducible assumption | with_reducible apply State.extWrite_canon
    | with_reducible refine State.canon_ite ?_ ?_ | with_reducible refine State.foldl_canon (fun _ _ _ => ?_) ?_

theorem State.idle_canon : ∀ s r, State.Canon s → (State.idle s r).Canon := by
  intro s r h; unfold State.idle
  try simp only []
  repeat'
    first
    | with_reducible assumption | with_reducible apply State.updRegion_canon
    | with_reducible refine State.canon_ite ?_ ?_

theorem State.saveDone_canon : ∀ s id, State.Canon s → (State.saveDone s id).Canon := by
  intro s id h; unfold State.saveDone
  try simp only []
  repeat'
    first
    | with_reducible assumption | with_reducible apply State.failNamed_canon | with_reducible apply State.seeIn_canon
    | with_reducible apply State.extWrite_canon | with_reducible apply State.saveRange_canon
    | with_reducible apply State.updBarge_canon | with_reducible apply State.idle_canon
    | with_reducible apply State.updRegion_canon | with_reducible apply State.count_canon
    | with_reducible refine State.canon_ite ?_ ?_ | with_reducible refine State.foldl_canon (fun _ _ _ => ?_) ?_
    | with_reducible refine State.foldl_pair_canon (fun _ _ _ => ?_) ?_
    | (simp only [State.canon_mk_eq]; refine State.canon_mk ?_) | split

theorem State.seeEntry_canon : ∀ s e, State.Canon s → (State.seeEntry s e).Canon := by
  intro s e h; unfold State.seeEntry
  try simp only []
  repeat'
    first
    | with_reducible assumption | with_reducible apply State.see_canon

theorem State.toWeir_canon (s : State) (m : WeirMsg) (bytes : List Byte) (u : State) (h : s.Canon)
    (e : s.toWeir m bytes = some u) : u.Canon := by
  unfold State.toWeir at e
  simp only [] at e
  split at e
  · cases e
  · cases e
    refine State.count_canon _ _ _ _ ?_
    simp only [State.canon_mk_eq]
    exact State.canon_mk (State.extWrite_canon _ _ _ _ h)

theorem State.mergeToWeir_canon : ∀ s r, State.Canon s → (State.mergeToWeir s r).Canon := by
  intro s r h
  unfold State.mergeToWeir
  simp only []
  refine State.foldl_canon (fun s e h => ?_) ?_
  · have hs := State.seeEntry_canon _ e h
    split
    · exact State.loseRow_canon _ hs
    · have h2 := fun n => State.takePicks_canon _ n hs
      split
      · rename_i u hu
        exact State.toWeir_canon _ _ _ _ (h2 _) hu
      · exact State.loseRow_canon _ (h2 _)
  · simp only [State.canon_mk_eq]
    exact State.canon_mk h

theorem State.startBeside_canon : ∀ s id, State.Canon s → (State.startBeside s id).Canon := by
  intro s id h; unfold State.startBeside
  try simp only []
  repeat'
    first
    | with_reducible assumption | with_reducible apply State.updBarge_canon | with_reducible refine State.canon_ite ?_ ?_
    | with_reducible refine State.foldl_canon (fun _ _ _ => ?_) ?_
    | with_reducible refine State.foldl_pair_canon (fun _ _ _ => ?_) ?_
    | (simp only [State.canon_mk_eq]; refine State.canon_mk ?_) | split

theorem State.dropMove_canon : ∀ s tid x, State.Canon s → (State.dropMove s tid x).Canon := by
  intro s tid x h; unfold State.dropMove
  try simp only []
  repeat'
    first
    | with_reducible assumption | with_reducible refine State.canon_ite ?_ ?_
    | with_reducible refine State.foldl_canon (fun _ _ _ => ?_) ?_
    | with_reducible refine State.foldl_pair_canon (fun _ _ _ => ?_) ?_
    | (simp only [State.canon_mk_eq]; refine State.canon_mk ?_)

theorem State.writeWeir_canon : ∀ s, State.Canon s → (State.writeWeir s).Canon := by
  intro s h; unfold State.writeWeir
  try simp only []
  repeat'
    first
    | with_reducible assumption | with_reducible apply State.extWrite_canon

theorem State.copyIn_canon : ∀ s st dest src n, State.Canon s → (State.copyIn s st dest src n).Canon := by
  intro s st dest src n h; unfold State.copyIn
  try simp only []
  repeat'
    first
    | with_reducible assumption | with_reducible apply State.wr_canon | with_reducible refine State.canon_ite ?_ ?_
    | with_reducible refine State.foldl_canon (fun _ _ _ => ?_) ?_

theorem State.countSaved_canon : ∀ s b, State.Canon s → (State.countSaved s b).Canon := by
  intro s b h; unfold State.countSaved
  try simp only []
  repeat'
    first
    | with_reducible assumption | with_reducible apply State.updMooring_canon

theorem State.refetch_canon : ∀ s id i, State.Canon s → (State.refetch s id i).Canon := by
  intro s id i h; unfold State.refetch
  try simp only []
  repeat'
    first
    | with_reducible assumption | with_reducible apply State.updBarge_canon | with_reducible apply State.failBarge_canon
    | with_reducible refine State.canon_ite ?_ ?_ | with_reducible refine State.foldl_canon (fun _ _ _ => ?_) ?_
    | with_reducible refine State.foldl_pair_canon (fun _ _ _ => ?_) ?_
    | (simp only [State.canon_mk_eq]; refine State.canon_mk ?_) | split

theorem State.restoreDone_canon : ∀ s id, State.Canon s → (State.restoreDone s id).Canon := by
  intro s id h; unfold State.restoreDone
  try simp only []
  repeat'
    first
    | with_reducible assumption | with_reducible apply State.copyIn_canon | with_reducible apply State.setUses_canon
    | with_reducible apply State.updBarge_canon | with_reducible apply State.startBeside_canon
    | with_reducible apply State.countSaved_canon | with_reducible apply State.refetch_canon
    | with_reducible apply State.count_canon | with_reducible refine State.canon_ite ?_ ?_
    | with_reducible refine State.foldl_canon (fun _ _ _ => ?_) ?_
    | with_reducible refine State.foldl_pair_canon (fun _ _ _ => ?_) ?_
    | (simp only [State.canon_mk_eq]; refine State.canon_mk ?_) | split

theorem State.sendNotices_canon : ∀ s t x owner, State.Canon s → (State.sendNotices s t x owner).Canon := by
  intro s t x owner h; unfold State.sendNotices
  try simp only []
  repeat'
    first
    | with_reducible assumption | with_reducible apply State.sendVc3_canon
    | with_reducible refine State.canon_ite ?_ ?_ | with_reducible refine State.foldl_canon (fun _ _ _ => ?_) ?_
    | with_reducible refine State.foldl_pair_canon (fun _ _ _ => ?_) ?_
    | (simp only [State.canon_mk_eq]; refine State.canon_mk ?_)

theorem State.setMig_canon : ∀ s busy done moved, State.Canon s → (State.setMig s busy done moved).Canon := by
  intro s busy done moved h; unfold State.setMig
  try simp only []
  repeat'
    first
    | with_reducible assumption | with_reducible apply State.setRegN_canon

theorem State.sendState_canon : ∀ s tid x dest st bad, State.Canon s → (State.sendState s tid x dest st bad).Canon := by
  intro s tid x dest st bad h; unfold State.sendState
  try simp only []
  repeat'
    first
    | with_reducible assumption | with_reducible apply State.request_canon
    | with_reducible refine State.canon_ite ?_ ?_ | with_reducible refine State.foldl_canon (fun _ _ _ => ?_) ?_

theorem State.offerRow_canon : ∀ s t x dest l r, State.Canon s → (State.offerRow s t x dest l r).Canon := by
  intro s t x dest l r h; unfold State.offerRow
  try simp only []
  repeat'
    first
    | with_reducible assumption | with_reducible apply State.sendState_canon
    | with_reducible apply State.request_canon | with_reducible refine State.canon_ite ?_ ?_
    | with_reducible refine State.foldl_canon (fun _ _ _ => ?_) ?_
    | with_reducible refine State.foldl_pair_canon (fun _ _ _ => ?_) ?_
    | (simp only [State.canon_mk_eq]; refine State.canon_mk ?_)

theorem State.endGap_canon : ∀ s b, State.Canon s → (State.endGap s b).Canon := by
  intro s b h; unfold State.endGap
  try simp only []
  repeat'
    first
    | with_reducible assumption | with_reducible apply State.count_canon
    | with_reducible refine State.canon_ite ?_ ?_

theorem State.nameOverdue_canon : ∀ s, State.Canon s → (State.nameOverdue s).Canon := by
  intro s h; unfold State.nameOverdue
  try simp only []
  repeat'
    first
    | with_reducible assumption | with_reducible apply State.setRegN_canon | with_reducible refine State.canon_ite ?_ ?_
    | with_reducible refine State.foldl_canon (fun _ _ _ => ?_) ?_
    | with_reducible refine State.foldl_pair_canon (fun _ _ _ => ?_) ?_
    | (simp only [State.canon_mk_eq]; refine State.canon_mk ?_) | split

theorem State.endRequestOf_canon : ∀ s id, State.Canon s → (State.endRequestOf s id).Canon := by
  intro s id h; unfold State.endRequestOf
  try simp only []
  repeat'
    first
    | with_reducible assumption | with_reducible apply State.setRegN_canon | with_reducible apply State.updBarge_canon
    | with_reducible apply State.nameOverdue_canon | with_reducible refine State.canon_ite ?_ ?_
    | with_reducible refine State.foldl_canon (fun _ _ _ => ?_) ?_
    | with_reducible refine State.foldl_pair_canon (fun _ _ _ => ?_) ?_
    | (simp only [State.canon_mk_eq]; refine State.canon_mk ?_) | split

theorem State.countPreempt_canon : ∀ s b, State.Canon s → (State.countPreempt s b).Canon := by
  intro s b h; unfold State.countPreempt
  try simp only []
  repeat'
    first
    | with_reducible assumption | with_reducible apply State.updMooring_canon
    | with_reducible apply State.updAccount_canon | with_reducible refine State.canon_ite ?_ ?_
    | with_reducible refine State.foldl_canon (fun _ _ _ => ?_) ?_

theorem State.dropLater_canon : ∀ s id i, State.Canon s → (State.dropLater s id i).Canon := by
  intro s id i h; unfold State.dropLater
  try simp only []
  repeat'
    first
    | with_reducible assumption | with_reducible apply State.updBarge_canon
    | with_reducible refine State.canon_ite ?_ ?_ | with_reducible refine State.foldl_canon (fun _ _ _ => ?_) ?_
    | with_reducible refine State.foldl_pair_canon (fun _ _ _ => ?_) ?_
    | (simp only [State.canon_mk_eq]; refine State.canon_mk ?_)

theorem savePointEffect_canon : ∀ i s b w, State.Canon s → (savePointEffect i s b w).Canon := by
  intro i s b w h; unfold savePointEffect
  try simp only []
  repeat'
    first
    | with_reducible assumption | with_reducible apply State.endGap_canon | with_reducible apply State.finishOp_canon
    | with_reducible apply State.updBarge_canon | with_reducible apply State.endRequestOf_canon
    | with_reducible apply State.countPreempt_canon | with_reducible apply State.dropLater_canon
    | with_reducible refine State.canon_ite ?_ ?_ | with_reducible refine State.foldl_canon (fun _ _ _ => ?_) ?_
    | with_reducible refine State.foldl_pair_canon (fun _ _ _ => ?_) ?_
    | (simp only [State.canon_mk_eq]; refine State.canon_mk ?_) | split

theorem State.holdMask_canon : ∀ s mask, State.Canon s → (State.holdMask s mask).Canon := by
  intro s mask h; unfold State.holdMask
  try simp only []
  repeat'
    first
    | with_reducible assumption | with_reducible refine State.canon_ite ?_ ?_
    | with_reducible refine State.foldl_canon (fun _ _ _ => ?_) ?_
    | with_reducible refine State.foldl_pair_canon (fun _ _ _ => ?_) ?_
    | (simp only [State.canon_mk_eq]; refine State.canon_mk ?_)

theorem State.receiveAns_canon (s : State) (p : Packet) (kind : Nat) (f : State → State) (hf : ∀ s, s.Canon → (f s).Canon) (h : s.Canon) : (State.receiveAns s p kind f).Canon := by
  unfold State.receiveAns
  split
  · exact h
  · refine State.receive_canon _ _ _ _ (fun s h => ?_) h
    split
    · exact State.badPacket_canon _ h
    · exact hf _ h

theorem State.moveReply_canon (s : State) (p : Packet) (answer : Nat) (f : State → TagUse → State) (hf : ∀ s u, s.Canon → (f s u).Canon) (h : s.Canon) : (State.moveReply s p answer f).Canon := by
  unfold State.moveReply
  exact State.canon_ite (State.receive_canon _ _ _ _ (fun s h => State.respond_canon _ _ _ hf h) h) h

theorem State.freeBasin_canon : ∀ s k, State.Canon s → (State.freeBasin s k).Canon := by
  intro s k h; unfold State.freeBasin
  try simp only []
  repeat'
    first
    | with_reducible assumption | with_reducible refine State.canon_ite ?_ ?_
    | with_reducible refine State.foldl_canon (fun _ _ _ => ?_) ?_
    | with_reducible refine State.foldl_pair_canon (fun _ _ _ => ?_) ?_
    | (simp only [State.canon_mk_eq]; refine State.canon_mk ?_)

theorem State.giveUpRow_canon : ∀ s tid x, State.Canon s → (State.giveUpRow s tid x).Canon := by
  intro s tid x h; unfold State.giveUpRow
  try simp only []
  repeat'
    first
    | with_reducible assumption | with_reducible apply State.freeBasin_canon | with_reducible apply State.excDel_canon
    | with_reducible refine State.canon_ite ?_ ?_ | with_reducible refine State.foldl_canon (fun _ _ _ => ?_) ?_
    | with_reducible refine State.foldl_pair_canon (fun _ _ _ => ?_) ?_
    | (simp only [State.canon_mk_eq]; refine State.canon_mk ?_) | split

theorem State.accessDone_canon : ∀ s r, State.Canon s → (State.accessDone s r).Canon := by
  intro s r h; unfold State.accessDone
  try simp only []
  repeat'
    first
    | with_reducible assumption | with_reducible apply State.idle_canon
    | with_reducible refine State.canon_ite ?_ ?_

theorem State.answerUpd_canon : ∀ s p kind owner, State.Canon s → (State.answerUpd s p kind owner).Canon := by
  intro s p kind owner h; unfold State.answerUpd
  try simp only []
  repeat'
    first
    | with_reducible assumption | with_reducible apply State.answer_canon

theorem State.setHighMark_canon : ∀ s p, State.Canon s → (State.setHighMark s p).Canon := by
  intro s p h; unfold State.setHighMark
  try simp only []
  repeat'
    first
    | with_reducible assumption | with_reducible refine State.canon_ite ?_ ?_
    | with_reducible refine State.foldl_canon (fun _ _ _ => ?_) ?_
    | with_reducible refine State.foldl_pair_canon (fun _ _ _ => ?_) ?_
    | (simp only [State.canon_mk_eq]; refine State.canon_mk ?_)

theorem State.weirFull_canon : ∀ s p since, State.Canon s → (State.weirFull s p since).Canon := by
  intro s p since h; unfold State.weirFull
  try simp only []
  repeat'
    first
    | with_reducible assumption | with_reducible apply State.holdReq_canon | with_reducible apply State.err_canon
    | with_reducible refine State.canon_ite ?_ ?_ | with_reducible refine State.foldl_canon (fun _ _ _ => ?_) ?_
    | with_reducible refine State.foldl_pair_canon (fun _ _ _ => ?_) ?_
    | (simp only [State.canon_mk_eq]; refine State.canon_mk ?_)

theorem State.wake_canon : ∀ s r, State.Canon s → (State.wake s r).Canon := by
  intro s r h; unfold State.wake
  try simp only []
  repeat'
    first
    | with_reducible assumption | with_reducible apply State.count_canon
    | with_reducible apply State.setRegion_canon | with_reducible refine State.canon_ite ?_ ?_

theorem State.afterMerge_canon (s : State) (p : Packet) (since : Nat) (x : MergeRes) (h : s.Canon)
    (hx : ∀ t, x = .held t → t.Canon) : (s.afterMerge p since x).Canon := by
  cases x with
  | held t => exact State.accessDone_canon _ _ (State.answerUpd_canon _ _ _ _ (State.setHighMark_canon _ _ (hx t rfl)))
  | full => exact State.weirFull_canon _ _ _ h
  | asleep r => exact State.holdReq_canon _ _ _ (State.wake_canon _ _ h)

theorem State.loadPiece_canon : ∀ s m i r plan, State.Canon s → (State.loadPiece s m i r plan).Canon := by
  intro s m i r plan h; unfold State.loadPiece
  try simp only []
  repeat'
    first
    | with_reducible assumption | with_reducible apply State.copyIn_canon
    | with_reducible apply State.updRegion_canon | with_reducible apply State.setMoored_canon
    | with_reducible apply State.updMooring_canon | with_reducible apply State.pieceFault_canon
    | with_reducible refine State.canon_ite ?_ ?_ | with_reducible refine State.foldl_canon (fun _ _ _ => ?_) ?_

theorem State.loadBegin_canon : ∀ s b, State.Canon s → (State.loadBegin s b).Canon := by
  intro s b h; unfold State.loadBegin
  try simp only []
  repeat'
    first
    | with_reducible assumption | with_reducible apply State.loadPiece_canon
    | with_reducible apply State.notePlan_canon | with_reducible apply State.updBarge_canon
    | with_reducible refine State.canon_ite ?_ ?_ | with_reducible refine State.foldl_canon (fun _ _ _ => ?_) ?_

theorem State.probeRow_canon : ∀ s tid x, State.Canon s → (State.probeRow s tid x).Canon := by
  intro s tid x h; unfold State.probeRow
  try simp only []
  repeat'
    first
    | with_reducible assumption | with_reducible apply State.request_canon | with_reducible refine State.canon_ite ?_ ?_
    | with_reducible refine State.foldl_canon (fun _ _ _ => ?_) ?_
    | with_reducible refine State.foldl_pair_canon (fun _ _ _ => ?_) ?_
    | (simp only [State.canon_mk_eq]; refine State.canon_mk ?_) | split

theorem State.unplace_canon : ∀ s b, State.Canon s → (State.unplace s b).Canon := by
  intro s b h; unfold State.unplace
  try simp only []
  repeat'
    first
    | with_reducible assumption | with_reducible apply State.endRequestOf_canon
    | with_reducible apply State.countPreempt_canon | with_reducible apply State.updRegion_canon
    | with_reducible apply State.updBarge_canon | with_reducible apply State.idle_canon
    | with_reducible refine State.canon_ite ?_ ?_ | with_reducible refine State.foldl_canon (fun _ _ _ => ?_) ?_

theorem State.requestPreempt_canon : ∀ s b, State.Canon s → (State.requestPreempt s b).Canon := by
  intro s b h; unfold State.requestPreempt
  try simp only []
  repeat'
    first
    | with_reducible assumption | with_reducible apply State.unplace_canon
    | with_reducible apply State.updBarge_canon | with_reducible refine State.canon_ite ?_ ?_

theorem State.preemptMask_canon : ∀ s mask, State.Canon s → (State.preemptMask s mask).Canon := by
  intro s mask h; unfold State.preemptMask
  try simp only []
  repeat'
    first
    | with_reducible assumption | with_reducible apply State.requestPreempt_canon
    | with_reducible refine State.canon_ite ?_ ?_ | with_reducible refine State.foldl_canon (fun _ _ _ => ?_) ?_

theorem State.releaseMask_canon : ∀ s mask, State.Canon s → (State.releaseMask s mask).Canon := by
  intro s mask h; unfold State.releaseMask
  try simp only []
  repeat'
    first
    | with_reducible assumption | with_reducible refine State.canon_ite ?_ ?_
    | with_reducible refine State.foldl_canon (fun _ _ _ => ?_) ?_
    | with_reducible refine State.foldl_pair_canon (fun _ _ _ => ?_) ?_
    | (simp only [State.canon_mk_eq]; refine State.canon_mk ?_)

theorem State.preemptCmd_canon : ∀ s w, State.Canon s → (State.preemptCmd s w).Canon := by
  intro s w h; unfold State.preemptCmd
  try simp only []
  repeat'
    first
    | with_reducible assumption | with_reducible apply State.preemptMask_canon
    | with_reducible apply State.holdMask_canon | with_reducible apply State.releaseMask_canon
    | with_reducible refine State.canon_ite ?_ ?_

theorem State.migLater_canon : ∀ s w, State.Canon s → (State.migLater s w).Canon := by
  intro s w h; unfold State.migLater
  try simp only []
  repeat'
    first
    | with_reducible assumption | with_reducible refine State.canon_ite ?_ ?_
    | with_reducible refine State.foldl_canon (fun _ _ _ => ?_) ?_
    | with_reducible refine State.foldl_pair_canon (fun _ _ _ => ?_) ?_
    | (simp only [State.canon_mk_eq]; refine State.canon_mk ?_)

theorem State.moveEntry_canon : ∀ s w, State.Canon s → (State.moveEntry s w).Canon := by
  intro s w h; unfold State.moveEntry
  try simp only []
  repeat'
    first
    | with_reducible assumption | with_reducible apply State.count_canon | with_reducible apply State.migLater_canon
    | with_reducible apply State.demoteRow_canon | with_reducible apply State.readRow_canon
    | with_reducible apply State.offerRow_canon | with_reducible refine State.canon_ite ?_ ?_
    | with_reducible refine State.foldl_canon (fun _ _ _ => ?_) ?_
    | with_reducible refine State.foldl_pair_canon (fun _ _ _ => ?_) ?_
    | (simp only [State.canon_mk_eq]; refine State.canon_mk ?_) | split

theorem State.migCheck_canon : ∀ s, State.Canon s → (State.migCheck s).Canon := by
  intro s h; unfold State.migCheck
  try simp only []
  repeat'
    first
    | with_reducible assumption | with_reducible apply State.moveEntry_canon
    | with_reducible apply State.migLater_canon | with_reducible apply State.setMig_canon
    | with_reducible refine State.canon_ite ?_ ?_ | with_reducible refine State.foldl_canon (fun _ _ _ => ?_) ?_
    | with_reducible refine State.foldl_pair_canon (fun _ _ _ => ?_) ?_
    | (simp only [State.canon_mk_eq]; refine State.canon_mk ?_)

theorem State.moveFailed_canon : ∀ s tid x refused, State.Canon s → (State.moveFailed s tid x refused).Canon := by
  intro s tid x refused h; unfold State.moveFailed
  try simp only []
  repeat'
    first
    | with_reducible assumption | with_reducible apply State.migCheck_canon
    | with_reducible apply State.dropMove_canon | with_reducible apply State.count_canon
    | with_reducible refine State.canon_ite ?_ ?_

theorem State.putRoute_canon (s : State) (tid x st owner expiry : Nat) (u : State) (h : s.Canon)
    (e : s.putRoute tid x st owner expiry = some u) : u.Canon := by
  unfold State.putRoute at e
  split at e
  · cases e; exact State.excDel_canon _ _ _ h
  · exact State.excPut_canon _ _ _ _ _ h e

theorem State.sendUpdate_canon : ∀ s use t x owner step mult grad, State.Canon s → (State.sendUpdate s use t x owner step mult grad).Canon := by
  intro s use t x owner step mult grad h; unfold State.sendUpdate
  try simp only []
  repeat'
    first
    | with_reducible assumption | with_reducible apply State.sendVc3_canon

theorem State.passOn_canon : ∀ s t x dest, State.Canon s → (State.passOn s t x dest).Canon := by
  intro s t x dest h; unfold State.passOn
  try simp only []
  repeat'
    first
    | with_reducible assumption | with_reducible apply State.seeEntry_canon | with_reducible apply State.err_canon
    | with_reducible apply State.count_canon | with_reducible apply State.sendUpdate_canon
    | with_reducible apply State.takePicks_canon | with_reducible refine State.canon_ite ?_ ?_
    | with_reducible refine State.foldl_canon (fun _ _ _ => ?_) ?_
    | with_reducible refine State.foldl_pair_canon (fun _ _ _ => ?_) ?_
    | (simp only [State.canon_mk_eq]; refine State.canon_mk ?_)

theorem State.moveAccepted_canon : ∀ s m, State.Canon s → (State.moveAccepted s m).Canon := by
  intro s m h
  unfold State.moveAccepted
  split
  · simp only []
    split
    · rename_i u hu
      have hm := State.putRoute_canon _ _ _ _ _ _ _ h hu
      repeat' first | assumption | with_reducible apply State.migCheck_canon | with_reducible apply State.setMig_canon | with_reducible apply State.sendNotices_canon | with_reducible apply State.request_canon | with_reducible apply State.passOn_canon | with_reducible apply State.dropMove_canon | with_reducible apply State.freeBasin_canon | with_reducible refine State.canon_ite ?_ ?_ | split
    · exact State.migCheck_canon _ (State.dropMove_canon _ _ _ (State.count_canon _ _ _ _ (State.err_canon _ _ _ h)))
  · exact State.migCheck_canon _ (State.dropMove_canon _ _ _ h)

theorem State.sendGradient_canon : ∀ s b i tid x mult grad rows, State.Canon s → (State.sendGradient s b i tid x mult grad rows).Canon := by
  intro s b i tid x mult grad rows h; unfold State.sendGradient
  try simp only []
  repeat'
    first
    | with_reducible assumption | with_reducible apply State.sendUpdate_canon | with_reducible apply State.sentOne_canon
    | with_reducible apply State.failRows_canon | with_reducible apply State.dirFault_canon
    | with_reducible refine State.canon_ite ?_ ?_ | with_reducible refine State.foldl_canon (fun _ _ _ => ?_) ?_
    | with_reducible refine State.foldl_pair_canon (fun _ _ _ => ?_) ?_
    | (simp only [State.canon_mk_eq]; refine State.canon_mk ?_) | split

theorem State.overdueNow_canon : ∀ s id, State.Canon s → (State.overdueNow s id).Canon := by
  intro s id h; unfold State.overdueNow
  try simp only []
  repeat'
    first
    | with_reducible assumption | with_reducible apply State.nameOverdue_canon | with_reducible apply State.count_canon
    | with_reducible apply State.updBarge_canon | with_reducible apply State.raise_canon
    | with_reducible refine State.canon_ite ?_ ?_ | with_reducible refine State.foldl_canon (fun _ _ _ => ?_) ?_
    | with_reducible refine State.foldl_pair_canon (fun _ _ _ => ?_) ?_
    | (simp only [State.canon_mk_eq]; refine State.canon_mk ?_) | split

theorem State.prefetchAgain_canon : ∀ s id i, State.Canon s → (State.prefetchAgain s id i).Canon := by
  intro s id i h; unfold State.prefetchAgain
  try simp only []
  repeat'
    first
    | with_reducible assumption | with_reducible apply State.prefetchReads_canon
    | with_reducible refine State.canon_ite ?_ ?_ | with_reducible refine State.foldl_canon (fun _ _ _ => ?_) ?_
    | with_reducible refine State.foldl_pair_canon (fun _ _ _ => ?_) ?_
    | (simp only [State.canon_mk_eq]; refine State.canon_mk ?_) | split

theorem State.prefetchIn_canon : ∀ s w r, State.Canon s → (State.prefetchIn s w r).2.Canon := by
  intro s w r h; unfold State.prefetchIn
  try simp only []
  repeat'
    first
    | with_reducible assumption | with_reducible apply State.seeIn_canon
    | with_reducible apply State.noteDefaults_canon | with_reducible apply State.dirFault_canon
    | with_reducible apply State.err_canon | with_reducible apply State.count_canon
    | with_reducible refine State.canon_ite ?_ ?_ | with_reducible refine State.foldl_canon (fun _ _ _ => ?_) ?_

theorem prefetchEffect_canon : ∀ i s b w, State.Canon s → (prefetchEffect i s b w).Canon := by
  intro i s b w h; unfold prefetchEffect
  try simp only []
  repeat'
    first
    | with_reducible assumption | with_reducible apply State.prefetchIn_canon
    | with_reducible apply State.prefetchReads_canon | with_reducible refine State.canon_ite ?_ ?_
    | with_reducible refine State.foldl_canon (fun _ _ _ => ?_) ?_
    | with_reducible refine State.foldl_pair_canon (fun _ _ _ => ?_) ?_

theorem State.noteHighest_canon : ∀ s step, State.Canon s → (State.noteHighest s step).Canon := by
  intro s step h; unfold State.noteHighest
  try simp only []
  repeat'
    first
    | with_reducible assumption | with_reducible apply State.writeWeir_canon | with_reducible refine State.canon_ite ?_ ?_
    | with_reducible refine State.foldl_canon (fun _ _ _ => ?_) ?_
    | with_reducible refine State.foldl_pair_canon (fun _ _ _ => ?_) ?_
    | (simp only [State.canon_mk_eq]; refine State.canon_mk ?_) | split

theorem State.autoPreempt_canon : ∀ s id, State.Canon s → (State.autoPreempt s id).Canon := by
  intro s id h; unfold State.autoPreempt
  try simp only []
  repeat'
    first
    | with_reducible assumption | with_reducible apply State.requestPreempt_canon
    | with_reducible refine State.canon_ite ?_ ?_ | with_reducible refine State.foldl_canon (fun _ _ _ => ?_) ?_
    | with_reducible refine State.foldl_pair_canon (fun _ _ _ => ?_) ?_
    | (simp only [State.canon_mk_eq]; refine State.canon_mk ?_) | split

theorem State.noteParams_canon : ∀ s ids, State.Canon s → (State.noteParams s ids).Canon := by
  intro s ids h; unfold State.noteParams
  try simp only []
  repeat'
    first
    | with_reducible assumption | with_reducible apply State.err_canon | with_reducible apply State.count_canon
    | with_reducible apply State.dirFault_canon | with_reducible refine State.canon_ite ?_ ?_
    | with_reducible refine State.foldl_canon (fun _ _ _ => ?_) ?_
    | with_reducible refine State.foldl_pair_canon (fun _ _ _ => ?_) ?_
    | (simp only [State.canon_mk_eq]; refine State.canon_mk ?_) | split

theorem State.reseedUpd_canon : ∀ s, State.Canon s → (State.reseedUpd s).Canon := by
  intro s h; unfold State.reseedUpd
  try simp only []
  repeat'
    first
    | with_reducible assumption | with_reducible refine State.canon_ite ?_ ?_
    | with_reducible refine State.foldl_canon (fun _ _ _ => ?_) ?_
    | with_reducible refine State.foldl_pair_canon (fun _ _ _ => ?_) ?_
    | (simp only [State.canon_mk_eq]; refine State.canon_mk ?_)

theorem State.takeUpdDraws_canon : ∀ s n, State.Canon s → (State.takeUpdDraws s n).Canon := by
  intro s n h; unfold State.takeUpdDraws
  try simp only []
  repeat'
    first
    | with_reducible assumption | with_reducible refine State.canon_ite ?_ ?_
    | with_reducible refine State.foldl_canon (fun _ _ _ => ?_) ?_
    | with_reducible refine State.foldl_pair_canon (fun _ _ _ => ?_) ?_
    | (simp only [State.canon_mk_eq]; refine State.canon_mk ?_)

theorem State.storeOpt_canon : ∀ s t l o, State.Canon s → (State.storeOpt s t l o).Canon := by
  intro s t l o h; unfold State.storeOpt
  try simp only []
  repeat'
    first
    | with_reducible assumption | with_reducible apply State.extWrite_canon
    | with_reducible refine State.canon_ite ?_ ?_

theorem State.writeBack_canon : ∀ s t x step rnd sat l r, State.Canon s → (State.writeBack s t x step rnd sat l r).Canon := by
  intro s t x step rnd sat l r h; unfold State.writeBack
  try simp only []
  repeat'
    first
    | with_reducible assumption | with_reducible apply State.count_canon | with_reducible apply State.encodeInto_canon
    | with_reducible apply State.takeUpdDraws_canon | with_reducible apply State.storeOpt_canon
    | with_reducible apply State.writeRowImage_canon | with_reducible apply State.skew_canon
    | with_reducible refine State.canon_ite ?_ ?_ | with_reducible refine State.foldl_canon (fun _ _ _ => ?_) ?_
    | with_reducible refine State.foldl_pair_canon (fun _ _ _ => ?_) ?_
    | (simp only [State.canon_mk_eq]; refine State.canon_mk ?_) | split

theorem State.applyAt_canon : ∀ s t y p step rnd sat l, State.Canon s → (State.applyAt s t y p step rnd sat l).Canon := by
  intro s t y p step rnd sat l h; unfold State.applyAt
  try simp only []
  repeat'
    first
    | with_reducible assumption | with_reducible apply State.takePicks_canon
    | with_reducible apply State.count_canon | with_reducible apply State.readRow_canon
    | with_reducible apply State.err_canon | with_reducible apply State.writeBack_canon
    | with_reducible refine State.canon_ite ?_ ?_

theorem State.applyRow_canon : ∀ s step rnd sat y, State.Canon s → (State.applyRow s step rnd sat y).Canon := by
  intro s step rnd sat y h; unfold State.applyRow
  try simp only []
  repeat'
    first
    | with_reducible assumption | with_reducible apply State.loseRow_canon | with_reducible apply State.applyAt_canon
    | with_reducible refine State.canon_ite ?_ ?_ | with_reducible refine State.foldl_canon (fun _ _ _ => ?_) ?_
    | with_reducible refine State.foldl_pair_canon (fun _ _ _ => ?_) ?_
    | (simp only [State.canon_mk_eq]; refine State.canon_mk ?_) | split

theorem State.startMigration_canon : ∀ s, State.Canon s → (State.startMigration s).Canon := by
  intro s h; unfold State.startMigration
  try simp only []
  repeat'
    first
    | with_reducible assumption | with_reducible apply State.migCheck_canon
    | with_reducible apply State.moveEntry_canon | with_reducible apply State.setMig_canon
    | with_reducible refine State.canon_ite ?_ ?_ | with_reducible refine State.foldl_canon (fun _ _ _ => ?_) ?_
    | with_reducible refine State.foldl_pair_canon (fun _ _ _ => ?_) ?_
    | (simp only [State.canon_mk_eq]; refine State.canon_mk ?_)

theorem State.stepPoint_canon : ∀ s, State.Canon s → (State.stepPoint s).Canon := by
  intro s h; unfold State.stepPoint
  try simp only []
  repeat'
    first
    | with_reducible assumption | with_reducible apply State.startMigration_canon
    | with_reducible apply State.movePoint_canon

theorem State.closeApplied_canon : ∀ s step, State.Canon s → (State.closeApplied s step).Canon := by
  intro s step h; unfold State.closeApplied
  try simp only []
  repeat'
    first
    | with_reducible assumption | with_reducible apply State.setRegN_canon
    | with_reducible apply State.writeWeir_canon | with_reducible refine State.canon_ite ?_ ?_
    | with_reducible refine State.foldl_canon (fun _ _ _ => ?_) ?_
    | with_reducible refine State.foldl_pair_canon (fun _ _ _ => ?_) ?_
    | (simp only [State.canon_mk_eq]; refine State.canon_mk ?_)

theorem State.applyStep_canon : ∀ s step rnd sat, State.Canon s → (State.applyStep s step rnd sat).Canon := by
  intro s step rnd sat h; unfold State.applyStep
  try simp only []
  repeat'
    first
    | with_reducible assumption | with_reducible apply State.writeWeir_canon
    | with_reducible apply State.seeEntry_canon | with_reducible apply State.noteParams_canon
    | with_reducible apply State.reseedUpd_canon | with_reducible apply State.applyRow_canon
    | with_reducible apply State.stepPoint_canon | with_reducible apply State.accessDone_canon
    | with_reducible apply State.closeApplied_canon | with_reducible refine State.canon_ite ?_ ?_
    | with_reducible refine State.foldl_canon (fun _ _ _ => ?_) ?_
    | with_reducible refine State.foldl_pair_canon (fun _ _ _ => ?_) ?_
    | (simp only [State.canon_mk_eq]; refine State.canon_mk ?_)

theorem State.seeImg_canon : ∀ s r a, State.Canon s → (State.seeImg s r a).Canon := by
  intro s r a h; unfold State.seeImg
  try simp only []
  repeat'
    first
    | with_reducible assumption | with_reducible apply State.seeIn_canon

theorem State.putPooled_canon : ∀ s b i w r k row xs t, State.Canon s → (State.putPooled s b i w r k row xs t).Canon := by
  intro s b i w r k row xs t h; unfold State.putPooled
  try simp only []
  repeat'
    first
    | with_reducible assumption | with_reducible apply State.notePend_canon
    | with_reducible apply State.countNum_canon | with_reducible apply State.addWords_canon
    | with_reducible apply State.wr_canon | with_reducible refine State.canon_ite ?_ ?_
    | with_reducible refine State.foldl_canon (fun _ _ _ => ?_) ?_

theorem State.poolIn_canon : ∀ i w s b r, State.Canon s → (State.poolIn i w s b r).Canon := by
  intro i w s b r h; unfold State.poolIn
  try simp only []
  repeat'
    first
    | with_reducible assumption | with_reducible apply State.seeImg_canon | with_reducible apply State.seeIn_canon
    | with_reducible apply State.failBarge_canon | with_reducible apply State.err_canon
    | with_reducible apply State.putPooled_canon | with_reducible apply State.takePicks_canon
    | with_reducible refine State.canon_ite ?_ ?_ | with_reducible refine State.foldl_canon (fun _ _ _ => ?_) ?_

theorem State.useFailed_canon : ∀ s u fate, State.Canon s → (State.useFailed s u fate).Canon := by
  intro s u fate h; unfold State.useFailed
  try simp only []
  repeat'
    first
    | with_reducible assumption | with_reducible apply State.rowFailed_canon | with_reducible apply State.failRows_canon
    | with_reducible apply State.arrived_canon | with_reducible apply State.failBarge_canon
    | with_reducible apply State.moveFailed_canon | with_reducible apply State.migCheck_canon
    | with_reducible refine State.canon_ite ?_ ?_ | with_reducible refine State.foldl_canon (fun _ _ _ => ?_) ?_
    | with_reducible refine State.foldl_pair_canon (fun _ _ _ => ?_) ?_
    | (simp only [State.canon_mk_eq]; refine State.canon_mk ?_) | split

theorem State.makeSolo_canon : ∀ s it, State.Canon s → (State.makeSolo s it).Canon := by
  intro s it h; unfold State.makeSolo
  try simp only []
  repeat'
    first
    | with_reducible assumption | with_reducible refine State.canon_ite ?_ ?_
    | with_reducible refine State.foldl_canon (fun _ _ _ => ?_) ?_
    | with_reducible refine State.foldl_pair_canon (fun _ _ _ => ?_) ?_
    | (simp only [State.canon_mk_eq]; refine State.canon_mk ?_)

theorem State.soloReady_canon (s : State) (js : List Nat) (h : s.Canon) : (s.soloReady js).Canon := by
  induction js generalizing s with
  | nil => exact h
  | cons j js ih =>
    unfold State.soloReady
    repeat' first | assumption | with_reducible apply ih | with_reducible apply State.noteSoloHold_canon | with_reducible apply State.makeSolo_canon | with_reducible refine State.canon_ite ?_ ?_ | split

theorem State.noteSoloHold_canon : ∀ s it, State.Canon s → (State.noteSoloHold s it).Canon := by
  intro s it h; unfold State.noteSoloHold
  try simp only []
  repeat'
    first
    | with_reducible assumption | with_reducible apply State.count_canon
    | with_reducible refine State.canon_ite ?_ ?_ | with_reducible refine State.foldl_canon (fun _ _ _ => ?_) ?_
    | with_reducible refine State.foldl_pair_canon (fun _ _ _ => ?_) ?_
    | (simp only [State.canon_mk_eq]; refine State.canon_mk ?_)

theorem State.fixSlots_canon : ∀ s b, State.Canon s → (State.fixSlots s b).Canon := by
  intro s b h; unfold State.fixSlots
  try simp only []
  repeat'
    first
    | with_reducible assumption | with_reducible apply State.extPutNat_canon | with_reducible apply State.updBarge_canon
    | with_reducible refine State.canon_ite ?_ ?_ | with_reducible refine State.foldl_canon (fun _ _ _ => ?_) ?_
    | with_reducible refine State.foldl_pair_canon (fun _ _ _ => ?_) ?_
    | (simp only [State.canon_mk_eq]; refine State.canon_mk ?_) | split

theorem State.journalMask_canon : ∀ s b rs, State.Canon s → (State.journalMask s b rs).Canon := by
  intro s b rs h; unfold State.journalMask
  try simp only []
  repeat'
    first
    | with_reducible assumption | with_reducible apply State.extPutNat_canon | with_reducible refine State.canon_ite ?_ ?_
    | with_reducible refine State.foldl_canon (fun _ _ _ => ?_) ?_
    | with_reducible refine State.foldl_pair_canon (fun _ _ _ => ?_) ?_
    | (simp only [State.canon_mk_eq]; refine State.canon_mk ?_) | split

theorem State.startRegions_canon : ∀ s b, State.Canon s → (State.startRegions s b).Canon := by
  intro s b h; unfold State.startRegions
  try simp only []
  repeat'
    first
    | with_reducible assumption | with_reducible apply State.mapMarks_canon
    | with_reducible apply State.setUses_canon | with_reducible apply State.updRegion_canon
    | with_reducible refine State.canon_ite ?_ ?_ | with_reducible refine State.foldl_canon (fun _ _ _ => ?_) ?_

theorem State.tryStart_canon : ∀ s id, State.Canon s → (State.tryStart s id).Canon := by
  intro s id h; unfold State.tryStart
  try simp only []
  repeat'
    first
    | with_reducible assumption | with_reducible apply State.startRegions_canon
    | with_reducible apply State.startBeside_canon | with_reducible apply State.updBarge_canon
    | with_reducible refine State.canon_ite ?_ ?_ | with_reducible refine State.foldl_canon (fun _ _ _ => ?_) ?_
    | with_reducible refine State.foldl_pair_canon (fun _ _ _ => ?_) ?_
    | (simp only [State.canon_mk_eq]; refine State.canon_mk ?_) | split

theorem State.place_canon : ∀ s id rs, State.Canon s → (State.place s id rs).Canon := by
  intro s id rs h; unfold State.place
  try simp only []
  repeat'
    first
    | with_reducible assumption | with_reducible apply State.updRegion_canon | with_reducible apply State.fixSlots_canon
    | with_reducible apply State.fillMoored_canon | with_reducible apply State.journalMask_canon
    | with_reducible apply State.wake_canon | with_reducible apply State.updBarge_canon
    | with_reducible apply State.tryStart_canon | with_reducible refine State.canon_ite ?_ ?_
    | with_reducible refine State.foldl_canon (fun _ _ _ => ?_) ?_
    | with_reducible refine State.foldl_pair_canon (fun _ _ _ => ?_) ?_
    | (simp only [State.canon_mk_eq]; refine State.canon_mk ?_) | split

theorem State.placeBarge_canon : ∀ s id, State.Canon s → (State.placeBarge s id).Canon := by
  intro s id h; unfold State.placeBarge
  try simp only []
  repeat'
    first
    | with_reducible assumption | with_reducible apply State.noteSoloHold_canon
    | with_reducible apply State.failBarge_canon | with_reducible apply State.place_canon
    | with_reducible refine State.canon_ite ?_ ?_ | with_reducible refine State.foldl_canon (fun _ _ _ => ?_) ?_
    | with_reducible refine State.foldl_pair_canon (fun _ _ _ => ?_) ?_
    | (simp only [State.canon_mk_eq]; refine State.canon_mk ?_) | split

theorem State.placeAll_canon : ∀ s, State.Canon s → (State.placeAll s).Canon := by
  intro s h; unfold State.placeAll
  try simp only []
  repeat'
    first
    | with_reducible assumption | with_reducible apply State.soloReady_canon
    | with_reducible apply State.placeBarge_canon | with_reducible apply State.autoPreempt_canon
    | with_reducible refine State.canon_ite ?_ ?_ | with_reducible refine State.foldl_canon (fun _ _ _ => ?_) ?_

theorem State.reseq_canon : ∀ s p owner, State.Canon s → (State.reseq s p owner).2.Canon := by
  intro s p owner h; unfold State.reseq
  try simp only []
  repeat'
    first
    | with_reducible assumption | with_reducible apply State.takeSeq_canon | with_reducible refine State.canon_ite ?_ ?_
    | with_reducible refine State.foldl_canon (fun _ _ _ => ?_) ?_
    | with_reducible refine State.foldl_pair_canon (fun _ _ _ => ?_) ?_
    | (simp only [State.canon_mk_eq]; refine State.canon_mk ?_) | split

theorem State.takeRow_canon : ∀ s i, State.Canon s → (State.takeRow s i).2.Canon := by
  intro s i h
  unfold State.takeRow
  split
  · simp only []
    split
    · exact h
    · split
      · exact State.err_canon _ _ _ h
      · split
        · exact State.err_canon _ _ _ h
        · rename_i u hu
          have hm := State.excPut_canon _ _ _ _ _ h hu
          simp only [State.canon_mk_eq]
          refine State.canon_mk ?_
          split
          · exact State.writeRowImage_canon _ _ _ _ _ _ hm
          · exact State.extWrite_canon _ _ _ _ (State.writeRowImage_canon _ _ _ _ _ _ hm)
  · exact h

theorem State.lastPacket_canon : ∀ s p i, State.Canon s → (State.lastPacket s p i).Canon := by
  intro s p i h; unfold State.lastPacket
  try simp only []
  repeat'
    first
    | with_reducible assumption | with_reducible apply State.takeRow_canon
    | with_reducible apply State.answerMove_canon

theorem State.slotPositions_canon : ∀ s b i w g u ps, State.Canon s → (State.slotPositions s b i w g u ps).2.Canon := by
  intro s b i w g u ps h; unfold State.slotPositions
  try simp only []
  repeat'
    first
    | with_reducible assumption | with_reducible apply State.leaveOut_canon | with_reducible apply State.count_canon
    | with_reducible apply State.dirFault_canon | with_reducible refine State.canon_ite ?_ ?_
    | with_reducible refine State.foldl_canon (fun _ _ _ => ?_) ?_
    | with_reducible refine State.foldl_pair_canon (fun _ _ _ => ?_) ?_
    | (simp only [State.canon_mk_eq]; refine State.canon_mk ?_) | split

theorem State.openGather_canon : ∀ s g bad, State.Canon s → (State.openGather s g bad).Canon := by
  intro s g bad h; unfold State.openGather
  try simp only []
  repeat'
    first
    | with_reducible assumption | with_reducible apply State.notePend_canon | with_reducible apply State.err_canon
    | with_reducible apply State.count_canon | with_reducible apply State.failRows_canon
    | with_reducible refine State.canon_ite ?_ ?_ | with_reducible refine State.foldl_canon (fun _ _ _ => ?_) ?_
    | with_reducible refine State.foldl_pair_canon (fun _ _ _ => ?_) ?_
    | (simp only [State.canon_mk_eq]; refine State.canon_mk ?_)

theorem State.gatherIn_canon : ∀ i w s b r, State.Canon s → (State.gatherIn i w s b r).Canon := by
  intro i w s b r h; unfold State.gatherIn
  try simp only []
  repeat'
    first
    | with_reducible assumption | with_reducible apply State.seeIn_canon
    | with_reducible apply State.failBarge_canon | with_reducible apply State.err_canon
    | with_reducible apply State.count_canon | with_reducible apply State.noteKeys_canon
    | with_reducible apply State.openGather_canon | with_reducible refine State.canon_ite ?_ ?_

theorem gatherEffect_canon : ∀ i s b w, State.Canon s → (gatherEffect i s b w).Canon := by
  intro i s b w h; unfold gatherEffect
  try simp only []
  repeat'
    first
    | with_reducible assumption | with_reducible apply State.gatherIn_canon
    | with_reducible apply State.finishGather_canon | with_reducible apply State.advanceGather_canon
    | with_reducible refine State.canon_ite ?_ ?_ | with_reducible refine State.foldl_canon (fun _ _ _ => ?_) ?_
    | with_reducible refine State.foldl_pair_canon (fun _ _ _ => ?_) ?_
    | (simp only [State.canon_mk_eq]; refine State.canon_mk ?_) | split

theorem poolEffect_canon : ∀ i s b w, State.Canon s → (poolEffect i s b w).Canon := by
  intro i s b w h; unfold poolEffect
  try simp only []
  repeat'
    first
    | with_reducible assumption | with_reducible apply State.poolIn_canon | with_reducible refine State.canon_ite ?_ ?_
    | with_reducible refine State.foldl_canon (fun _ _ _ => ?_) ?_
    | with_reducible refine State.foldl_pair_canon (fun _ _ _ => ?_) ?_
    | (simp only [State.canon_mk_eq]; refine State.canon_mk ?_) | split

theorem State.listIn_canon : ∀ i w s b r, State.Canon s → (State.listIn i w s b r).Canon := by
  intro i w s b r h; unfold State.listIn
  try simp only []
  repeat'
    first
    | with_reducible assumption | with_reducible apply State.seeIn_canon
    | with_reducible apply State.failBarge_canon | with_reducible apply State.addUnit_canon
    | with_reducible refine State.canon_ite ?_ ?_ | with_reducible refine State.foldl_canon (fun _ _ _ => ?_) ?_

theorem State.readPositions_canon : ∀ s b i w g, State.Canon s → (State.readPositions s b i w g).2.Canon := by
  intro s b i w g h; unfold State.readPositions
  try simp only []
  repeat'
    first
    | with_reducible assumption | with_reducible apply State.leaveOut_canon
    | with_reducible refine State.canon_ite ?_ ?_ | with_reducible refine State.foldl_canon (fun _ _ _ => ?_) ?_

theorem State.slotGradient_canon : ∀ s b i w g u ps, State.Canon s → (State.slotGradient s b i w g u ps).Canon := by
  intro s b i w g u ps h; unfold State.slotGradient
  try simp only []
  repeat'
    first
    | with_reducible assumption | with_reducible apply State.slotPositions_canon
    | with_reducible apply State.takePicks_canon | with_reducible apply State.addUnit_canon
    | with_reducible refine State.canon_ite ?_ ?_

theorem State.sgradIn_canon : ∀ i w s b r, State.Canon s → (State.sgradIn i w s b r).Canon := by
  intro i w s b r h; unfold State.sgradIn
  try simp only []
  repeat'
    first
    | with_reducible assumption | with_reducible apply State.seeRows_canon | with_reducible apply State.seeImg_canon
    | with_reducible apply State.addUnit_canon | with_reducible apply State.failBarge_canon
    | with_reducible apply State.readPositions_canon | with_reducible apply State.slotGradient_canon
    | with_reducible refine State.canon_ite ?_ ?_ | with_reducible refine State.foldl_canon (fun _ _ _ => ?_) ?_

theorem sgradEffect_canon : ∀ i s b w, State.Canon s → (sgradEffect i s b w).Canon := by
  intro i s b w h; unfold sgradEffect
  try simp only []
  repeat'
    first
    | with_reducible assumption | with_reducible apply State.failBarge_canon | with_reducible apply State.listIn_canon
    | with_reducible apply State.sgradIn_canon | with_reducible refine State.canon_ite ?_ ?_
    | with_reducible refine State.foldl_canon (fun _ _ _ => ?_) ?_
    | with_reducible refine State.foldl_pair_canon (fun _ _ _ => ?_) ?_
    | (simp only [State.canon_mk_eq]; refine State.canon_mk ?_) | split

theorem updateEffect_canon : ∀ i s b w, State.Canon s → (updateEffect i s b w).Canon := by
  intro i s b w h; unfold updateEffect
  try simp only []
  repeat'
    first
    | with_reducible assumption | with_reducible apply State.failBarge_canon
    | with_reducible apply State.finishOp_canon | with_reducible apply State.wake_canon
    | with_reducible apply State.addUnit_canon | with_reducible refine State.canon_ite ?_ ?_
    | with_reducible refine State.foldl_canon (fun _ _ _ => ?_) ?_

theorem State.loadDone_canon : ∀ s id, State.Canon s → (State.loadDone s id).Canon := by
  intro s id h; unfold State.loadDone
  try simp only []
  repeat'
    first
    | with_reducible assumption | with_reducible apply State.loadBegin_canon | with_reducible apply State.fillMoored_canon
    | with_reducible apply State.tryStart_canon | with_reducible apply State.updBarge_canon
    | with_reducible refine State.canon_ite ?_ ?_ | with_reducible refine State.foldl_canon (fun _ _ _ => ?_) ?_
    | with_reducible refine State.foldl_pair_canon (fun _ _ _ => ?_) ?_
    | (simp only [State.canon_mk_eq]; refine State.canon_mk ?_) | split

theorem State.receiveReq_canon : ∀ s p kind, State.Canon s → (State.receiveReq s p kind).Canon := by
  intro s p kind h
  unfold State.receiveReq
  split
  · exact h
  · refine State.receive_canon _ _ _ _ (fun s h => ?_) h
    split
    · exact State.badPacket_canon _ h
    · exact State.answerRow_canon _ _ _ _ (State.ownerServe_canon _ _ _ _ _ _ (State.unhold_canon _ _ h))

theorem State.forwardRetry_canon : ∀ s p, State.Canon s → (State.forwardRetry s p).Canon := by
  intro s p h; unfold State.forwardRetry
  try simp only []
  repeat'
    first
    | with_reducible assumption | with_reducible apply State.reseq_canon | with_reducible apply State.count_canon
    | with_reducible apply State.send_canon | with_reducible apply State.setTagSt_canon

theorem State.forwarded_canon : ∀ s p, State.Canon s → (State.forwarded s p).Canon := by
  intro s p h
  unfold State.forwarded
  split
  · exact State.lateDrop_canon _ h
  · split
    · exact State.respond_canon _ _ _ (fun s u h => State.useFailed_canon _ _ _ (State.count_canon _ _ _ _ h)) h
    · exact State.forwardRetry_canon _ _ h

theorem State.answerBad_canon : ∀ s p, State.Canon s → (State.answerBad s p).Canon := by
  intro s p h; unfold State.answerBad
  try simp only []
  repeat'
    first
    | with_reducible assumption | with_reducible apply State.answer_canon
    | with_reducible apply State.dirFault_canon

theorem State.putEntry_canon : ∀ s e new, State.Canon s → (State.putEntry s e new).Canon := by
  intro s e new h; unfold State.putEntry
  try simp only []
  repeat'
    first
    | with_reducible assumption | with_reducible apply State.wr_canon | with_reducible refine State.canon_ite ?_ ?_

theorem State.setMerge_canon : ∀ s es e new, State.Canon s → (State.setMerge s es e new).Canon := by
  intro s es e new h; unfold State.setMerge
  try simp only []
  repeat'
    first
    | with_reducible assumption | with_reducible apply State.noteHighest_canon
    | with_reducible apply State.putEntry_canon | with_reducible apply State.count_canon
    | with_reducible refine State.canon_ite ?_ ?_ | with_reducible refine State.foldl_canon (fun _ _ _ => ?_) ?_
    | with_reducible refine State.foldl_pair_canon (fun _ _ _ => ?_) ?_
    | (simp only [State.canon_mk_eq]; refine State.canon_mk ?_)

theorem State.mergeGrad_canon (s : State) (m : WeirMsg) (bytes : List Byte) (u : State) (h : s.Canon)
    (e : s.mergeGrad m bytes = .held u) : u.Canon := by
  have hw : ∀ v, (s.noteHighest m.step).toWeir m bytes = some v → v.Canon :=
    fun v hv => State.toWeir_canon _ _ _ _ (State.noteHighest_canon _ _ h) hv
  unfold State.mergeGrad at e
  revert hw e
  generalize (s.noteHighest m.step).toWeir m bytes = o
  intro e hw
  cases o with
  | none =>
    simp only [Option.map_none, Option.getD_none] at e
    repeat' split at e
    all_goals
      first
      | (cases e; done) | (cases e; exact State.setMerge_canon _ _ _ _ h)
      | (cases e; exact State.setMerge_canon _ _ _ _ (State.seeEntry_canon _ _ h))
  | some v =>
    have hv := hw v rfl
    simp only [Option.map_some, Option.getD_some] at e
    repeat' split at e
    all_goals
      first
      | (cases e; done) | (cases e; exact hv) | (cases e; exact State.setMerge_canon _ _ _ _ h)
      | (cases e; exact State.setMerge_canon _ _ _ _ (State.seeEntry_canon _ _ h))

theorem State.mergeMsg_canon : ∀ s p since, State.Canon s → (State.mergeMsg s p since).Canon := by
  intro s p since h
  unfold State.mergeMsg
  split
  · exact State.answerUpd_canon _ _ _ _ (State.err_canon _ _ _ (State.count_canon _ _ _ _ h))
  · split
    · exact State.holdReq_canon _ _ _ h
    · split
      · exact State.answerUpd_canon _ _ _ _ (State.count_canon _ _ _ _ h)
      · exact State.afterMerge_canon _ _ _ _ h (fun u hu => State.mergeGrad_canon _ _ _ _ h hu)

theorem State.settleUpdate_canon : ∀ s p since, State.Canon s → (State.settleUpdate s p since).Canon := by
  intro s p since h; unfold State.settleUpdate
  try simp only []
  repeat'
    first
    | with_reducible assumption | with_reducible apply State.answerBad_canon | with_reducible apply State.answerUpd_canon
    | with_reducible apply State.count_canon | with_reducible apply State.holdReq_canon
    | with_reducible apply State.noteNotOwner_canon | with_reducible apply State.badPacket_canon
    | with_reducible apply State.noteForward_canon | with_reducible apply State.mergeMsg_canon
    | with_reducible refine State.canon_ite ?_ ?_ | with_reducible refine State.foldl_canon (fun _ _ _ => ?_) ?_
    | with_reducible refine State.foldl_pair_canon (fun _ _ _ => ?_) ?_
    | (simp only [State.canon_mk_eq]; refine State.canon_mk ?_) | split

theorem State.recordRoute_canon : ∀ s tid x owner, State.Canon s → (State.recordRoute s tid x owner).Canon := by
  intro s tid x owner h
  unfold State.recordRoute
  split
  · rename_i u hu
    exact State.putRoute_canon _ _ _ _ _ _ _ h hu
  · exact State.err_canon _ _ _ h

theorem State.settleNotice_canon : ∀ s p since, State.Canon s → (State.settleNotice s p since).Canon := by
  intro s p since h; unfold State.settleNotice
  try simp only []
  repeat'
    first
    | with_reducible assumption | with_reducible apply State.answerBad_canon | with_reducible apply State.answerUpd_canon
    | with_reducible apply State.count_canon | with_reducible apply State.holdReq_canon
    | with_reducible apply State.noteNotOwner_canon | with_reducible apply State.recordRoute_canon
    | with_reducible apply State.setHighMark_canon | with_reducible refine State.canon_ite ?_ ?_
    | with_reducible refine State.foldl_canon (fun _ _ _ => ?_) ?_
    | with_reducible refine State.foldl_pair_canon (fun _ _ _ => ?_) ?_
    | (simp only [State.canon_mk_eq]; refine State.canon_mk ?_) | split

theorem State.dropInbound_canon : ∀ s p, State.Canon s → (State.dropInbound s p).Canon := by
  intro s p h; unfold State.dropInbound
  try simp only []
  repeat'
    first
    | with_reducible assumption | with_reducible refine State.canon_ite ?_ ?_
    | with_reducible refine State.foldl_canon (fun _ _ _ => ?_) ?_
    | with_reducible refine State.foldl_pair_canon (fun _ _ _ => ?_) ?_
    | (simp only [State.canon_mk_eq]; refine State.canon_mk ?_)

theorem State.joinState_canon : ∀ s p, State.Canon s → (State.joinState s p).Canon := by
  intro s p h; unfold State.joinState
  try simp only []
  repeat'
    first
    | with_reducible assumption | with_reducible apply State.answerMove_canon
    | with_reducible apply State.dropInbound_canon | with_reducible apply State.lastPacket_canon
    | with_reducible refine State.canon_ite ?_ ?_ | with_reducible refine State.foldl_canon (fun _ _ _ => ?_) ?_
    | with_reducible refine State.foldl_pair_canon (fun _ _ _ => ?_) ?_
    | (simp only [State.canon_mk_eq]; refine State.canon_mk ?_) | split

theorem State.settleRow_canon : ∀ s tid x, State.Canon s → (State.settleRow s tid x).Canon := by
  intro s tid x h
  unfold State.settleRow
  split
  · split
    · exact h
    · simp only []
      have h1 : ({ s with rows := { s.rows with provisional := s.rows.provisional.filter fun (a, y, _) => !(a == tid && y == x) } } : State).Canon := by
        simp only [State.canon_mk_eq]
        exact State.canon_mk h
      split
      · repeat' first | exact h1 | assumption | with_reducible apply State.freeBasin_canon | with_reducible apply State.excDel_canon | with_reducible apply State.extWrite_canon | with_reducible apply State.writeRowImage_canon | with_reducible apply State.readRow_canon | with_reducible refine State.canon_ite ?_ ?_ | split
      · cases e : State.excPut _ _ _ _ with
        | none => exact h1
        | some u => exact State.excPut_canon _ _ _ _ _ h1 e
  · exact h

theorem State.tagTimeout_canon : ∀ s k, State.Canon s → (State.tagTimeout s k).Canon := by
  intro s k h; unfold State.tagTimeout
  try simp only []
  repeat'
    first
    | with_reducible assumption | with_reducible apply State.useFailed_canon | with_reducible apply State.err_canon
    | with_reducible apply State.count_canon | with_reducible apply State.setTagSt_canon
    | with_reducible refine State.canon_ite ?_ ?_ | with_reducible refine State.foldl_canon (fun _ _ _ => ?_) ?_
    | with_reducible refine State.foldl_pair_canon (fun _ _ _ => ?_) ?_
    | (simp only [State.canon_mk_eq]; refine State.canon_mk ?_) | split

theorem State.dropHeld_canon : ∀ s k, State.Canon s → (State.dropHeld s k).Canon := by
  intro s k h; unfold State.dropHeld
  try simp only []
  repeat'
    first
    | with_reducible assumption | with_reducible apply State.count_canon | with_reducible apply State.accessDone_canon
    | with_reducible refine State.canon_ite ?_ ?_ | with_reducible refine State.foldl_canon (fun _ _ _ => ?_) ?_
    | with_reducible refine State.foldl_pair_canon (fun _ _ _ => ?_) ?_
    | (simp only [State.canon_mk_eq]; refine State.canon_mk ?_) | split

end Sys2Proof.Machine
end

