-- ==== Sys2Proof/Laws/CanonOps.lean ====
section
/-! SUPPORT. The operations of the op records' effects, the bell and the collectives keep every store in canonical form. -/

namespace Sys2Proof.Machine

open Sys2Proof

set_option Elab.async false

theorem State.seeStreams_canon : ∀ s w r j, State.Canon s → (State.seeStreams s w r j).Canon := by
  intro s w r j h; unfold State.seeStreams
  try simp only []
  repeat'
    first
    | with_reducible assumption | with_reducible apply State.seeIn_canon
    | with_reducible refine State.canon_ite ?_ ?_ | with_reducible refine State.foldl_canon (fun _ _ _ => ?_) ?_

theorem State.putWords_canon : ∀ s b i inst o r j a bs pad mark, State.Canon s → (State.putWords s b i inst o r j a bs pad mark).Canon := by
  intro s b i inst o r j a bs pad mark h; unfold State.putWords
  try simp only []
  repeat'
    first
    | with_reducible assumption | with_reducible apply State.notePend_canon
    | with_reducible apply State.addWords_canon | with_reducible apply State.wr_canon
    | with_reducible refine State.canon_ite ?_ ?_ | with_reducible refine State.foldl_canon (fun _ _ _ => ?_) ?_

theorem State.putList_canon : ∀ s s0 b i w r j inst a vals, State.Canon s → (State.putList s s0 b i w r j inst a vals).Canon := by
  intro s s0 b i w r j inst a vals h; unfold State.putList
  try simp only []
  repeat'
    first
    | with_reducible assumption | with_reducible apply State.putWords_canon
    | with_reducible apply State.countNum_canon

theorem State.vecMaxExp_canon : ∀ s b i w r j inst, State.Canon s → (State.vecMaxExp s b i w r j inst).Canon := by
  intro s b i w r j inst h; unfold State.vecMaxExp
  try simp only []
  repeat'
    first
    | with_reducible assumption | with_reducible apply State.putList_canon
    | with_reducible apply State.takePicks_canon | with_reducible apply State.takeDraws_canon

theorem State.vecReduction_canon : ∀ s b i w r j inst, State.Canon s → (State.vecReduction s b i w r j inst).Canon := by
  intro s b i w r j inst h; unfold State.vecReduction
  try simp only []
  repeat'
    first
    | with_reducible assumption | with_reducible apply State.takeDraws_canon
    | with_reducible apply State.putList_canon | with_reducible apply State.takePicks_canon

theorem State.putVecRow_canon : ∀ s s0 b i w r j inst m p, State.Canon s → (State.putVecRow s s0 b i w r j inst m p).Canon := by
  intro s s0 b i w r j inst m p h; unfold State.putVecRow
  try simp only []
  repeat'
    first
    | with_reducible assumption | with_reducible apply State.countNum_canon | with_reducible apply State.addUnit_canon
    | with_reducible apply State.putWords_canon | with_reducible refine State.canon_ite ?_ ?_
    | with_reducible refine State.foldl_canon (fun _ _ _ => ?_) ?_
    | with_reducible refine State.foldl_pair_canon (fun _ _ _ => ?_) ?_
    | (simp only [State.canon_mk_eq]; refine State.canon_mk ?_) | split

theorem State.putScales_canon : ∀ s s0 b i w r j inst scales, State.Canon s → (State.putScales s s0 b i w r j inst scales).Canon := by
  intro s s0 b i w r j inst scales h; unfold State.putScales
  try simp only []
  repeat'
    first
    | with_reducible assumption | with_reducible apply State.notePend_canon
    | with_reducible apply State.addWords_canon | with_reducible apply State.wr_canon
    | with_reducible refine State.canon_ite ?_ ?_ | with_reducible refine State.foldl_canon (fun _ _ _ => ?_) ?_

theorem State.vecElems_canon : ∀ s b i w r j inst, State.Canon s → (State.vecElems s b i w r j inst).Canon := by
  intro s b i w r j inst h
  unfold State.vecElems
  simp only []
  with_reducible apply State.takeDraws_canon
  with_reducible apply State.putScales_canon
  refine State.foldl_fst_canon (fun _ _ _ => ?_) h
  with_reducible apply State.putVecRow_canon
  assumption

theorem State.vecInst_canon : ∀ s b i w r j inst, State.Canon s → (State.vecInst s b i w r j inst).Canon := by
  intro s b i w r j inst h; unfold State.vecInst
  try simp only []
  repeat'
    first
    | with_reducible assumption | with_reducible apply State.count_canon
    | with_reducible apply State.seeStreams_canon | with_reducible apply State.vecMaxExp_canon
    | with_reducible apply State.vecReduction_canon | with_reducible apply State.vecElems_canon
    | with_reducible refine State.canon_ite ?_ ?_

theorem vecEffect_canon : ∀ i s b w, State.Canon s → (vecEffect i s b w).Canon := by
  intro i s b w h; unfold vecEffect
  try simp only []
  repeat'
    first
    | with_reducible assumption | with_reducible apply State.vecInst_canon
    | with_reducible refine State.canon_ite ?_ ?_ | with_reducible refine State.foldl_canon (fun _ _ _ => ?_) ?_

theorem State.mapCtx_canon : ∀ s p f, State.Canon s → (State.mapCtx s p f).Canon := by
  intro s p f h; unfold State.mapCtx
  try simp only []
  repeat'
    first
    | with_reducible assumption | with_reducible refine State.canon_ite ?_ ?_
    | with_reducible refine State.foldl_canon (fun _ _ _ => ?_) ?_
    | with_reducible refine State.foldl_pair_canon (fun _ _ _ => ?_) ?_
    | (simp only [State.canon_mk_eq]; refine State.canon_mk ?_)

theorem State.noteSent_canon : ∀ s dest m, State.Canon s → (State.noteSent s dest m).Canon := by
  intro s dest m h; unfold State.noteSent
  try simp only []
  repeat'
    first
    | with_reducible assumption | with_reducible apply State.mapCtx_canon
    | with_reducible refine State.canon_ite ?_ ?_

theorem State.sendBell_canon : ∀ s dest m, State.Canon s → (State.sendBell s dest m).Canon := by
  intro s dest m h; unfold State.sendBell
  try simp only []
  repeat'
    first
    | with_reducible assumption | with_reducible apply State.send_canon | with_reducible apply State.noteSent_canon

theorem State.spreadAt_canon : ∀ s t m, State.Canon s → (State.spreadAt s t m).Canon := by
  intro s t m h; unfold State.spreadAt
  try simp only []
  repeat'
    first
    | with_reducible assumption | with_reducible apply State.sendBell_canon
    | with_reducible refine State.canon_ite ?_ ?_ | with_reducible refine State.foldl_canon (fun _ _ _ => ?_) ?_
    | with_reducible refine State.foldl_pair_canon (fun _ _ _ => ?_) ?_
    | (simp only [State.canon_mk_eq]; refine State.canon_mk ?_)

theorem State.bellSpread_canon (t : Nat) (s : State) (m : BellMsg) (h : s.Canon) : (State.bellSpread t s m).Canon := by
  induction t generalizing s with
  | zero => exact State.spreadAt_canon _ _ _ h
  | succ k ih =>
    unfold State.bellSpread
    exact State.canon_ite (ih _ (State.spreadAt_canon _ _ _ h)) (State.spreadAt_canon _ _ _ h)

theorem State.keepResult_canon : ∀ s m, State.Canon s → (State.keepResult s m).Canon := by
  intro s m h; unfold State.keepResult
  try simp only []
  repeat'
    first
    | with_reducible assumption | with_reducible refine State.canon_ite ?_ ?_
    | with_reducible refine State.foldl_canon (fun _ _ _ => ?_) ?_
    | with_reducible refine State.foldl_pair_canon (fun _ _ _ => ?_) ?_
    | (simp only [State.canon_mk_eq]; refine State.canon_mk ?_)

theorem State.resultOut_canon : ∀ s m, State.Canon s → (State.resultOut s m).Canon := by
  intro s m h; unfold State.resultOut
  try simp only []
  repeat'
    first
    | with_reducible assumption | with_reducible apply State.bellSpread_canon
    | with_reducible apply State.keepResult_canon

theorem State.sendUp_canon : ∀ s dest m, State.Canon s → (State.sendUp s dest m).Canon := by
  intro s dest m h; unfold State.sendUp
  try simp only []
  repeat'
    first
    | with_reducible assumption | with_reducible apply State.sendBell_canon
    | with_reducible refine State.canon_ite ?_ ?_ | with_reducible refine State.foldl_canon (fun _ _ _ => ?_) ?_
    | with_reducible refine State.foldl_pair_canon (fun _ _ _ => ?_) ?_
    | (simp only [State.canon_mk_eq]; refine State.canon_mk ?_)

theorem State.noteRecv_canon : ∀ s src m, State.Canon s → (State.noteRecv s src m).Canon := by
  intro s src m h; unfold State.noteRecv
  try simp only []
  repeat'
    first
    | with_reducible assumption | with_reducible apply State.mapCtx_canon
    | with_reducible refine State.canon_ite ?_ ?_

theorem State.putTier_canon : ∀ s t m e, State.Canon s → (State.putTier s t m e).Canon := by
  intro s t m e h; unfold State.putTier
  try simp only []
  repeat'
    first
    | with_reducible assumption | with_reducible refine State.canon_ite ?_ ?_
    | with_reducible refine State.foldl_canon (fun _ _ _ => ?_) ?_
    | with_reducible refine State.foldl_pair_canon (fun _ _ _ => ?_) ?_
    | (simp only [State.canon_mk_eq]; refine State.canon_mk ?_)

theorem State.keepArrived_canon : ∀ s e, State.Canon s → (State.keepArrived s e).Canon := by
  intro s e h; unfold State.keepArrived
  try simp only []
  repeat'
    first
    | with_reducible assumption | with_reducible refine State.canon_ite ?_ ?_
    | with_reducible refine State.foldl_canon (fun _ _ _ => ?_) ?_
    | with_reducible refine State.foldl_pair_canon (fun _ _ _ => ?_) ?_
    | (simp only [State.canon_mk_eq]; refine State.canon_mk ?_)

theorem State.takeLevelSeq_canon : ∀ s level, State.Canon s → (State.takeLevelSeq s level).2.Canon := by
  intro s level h; unfold State.takeLevelSeq
  try simp only []
  repeat'
    first
    | with_reducible assumption | with_reducible refine State.canon_ite ?_ ?_
    | with_reducible refine State.foldl_canon (fun _ _ _ => ?_) ?_
    | with_reducible refine State.foldl_pair_canon (fun _ _ _ => ?_) ?_
    | (simp only [State.canon_mk_eq]; refine State.canon_mk ?_)

theorem State.judge_canon : ∀ s m, State.Canon s → (State.judge s m).2.Canon := by
  intro s m h; unfold State.judge
  try simp only []
  repeat'
    first
    | with_reducible assumption | with_reducible apply State.takeLevelSeq_canon
    | with_reducible refine State.canon_ite ?_ ?_ | with_reducible refine State.foldl_canon (fun _ _ _ => ?_) ?_
    | with_reducible refine State.foldl_pair_canon (fun _ _ _ => ?_) ?_
    | (simp only [State.canon_mk_eq]; refine State.canon_mk ?_) | split

theorem State.bellUp_canon (fuel : Nat) (s : State) (t src : Nat) (m : BellMsg) (h : s.Canon) :
    (State.bellUp fuel s t src m).Canon := by
  induction fuel generalizing s t src m with
  | zero => exact h
  | succ n ih =>
    unfold State.bellUp
    simp only []
    repeat' first | assumption | with_reducible apply ih | with_reducible apply State.send_canon | with_reducible apply State.sendBell_canon | with_reducible apply State.resultOut_canon | with_reducible apply State.sendUp_canon | with_reducible apply State.putTier_canon | with_reducible apply State.noteRecv_canon | with_reducible apply State.keepArrived_canon | with_reducible apply State.judge_canon | with_reducible refine State.canon_ite ?_ ?_ | (simp only [State.canon_mk_eq]; refine State.canon_mk ?_) | split

theorem State.contribute_canon : ∀ s m, State.Canon s → (State.contribute s m).Canon := by
  intro s m h; unfold State.contribute
  try simp only []
  repeat'
    first
    | with_reducible assumption | with_reducible apply State.bellUp_canon | with_reducible apply State.sendUp_canon
    | with_reducible refine State.canon_ite ?_ ?_

theorem State.abandon_canon : ∀ s k seq attempt, State.Canon s → (State.abandon s k seq attempt).Canon := by
  intro s k seq attempt h; unfold State.abandon
  try simp only []
  repeat'
    first
    | with_reducible assumption | with_reducible apply State.contribute_canon
    | with_reducible refine State.canon_ite ?_ ?_

theorem State.updCtx_canon : ∀ s slot f, State.Canon s → (State.updCtx s slot f).Canon := by
  intro s slot f h; unfold State.updCtx
  try simp only []
  repeat'
    first
    | with_reducible assumption | with_reducible apply State.mapCtx_canon

theorem State.collLimit_canon : ∀ s id i, State.Canon s → (State.collLimit s id i).Canon := by
  intro s id i h; unfold State.collLimit
  try simp only []
  repeat'
    first
    | with_reducible assumption | with_reducible apply State.abandon_canon | with_reducible apply State.failBarge_canon
    | with_reducible apply State.updCtx_canon | with_reducible apply State.count_canon
    | with_reducible refine State.canon_ite ?_ ?_ | with_reducible refine State.foldl_canon (fun _ _ _ => ?_) ?_
    | with_reducible refine State.foldl_pair_canon (fun _ _ _ => ?_) ?_
    | (simp only [State.canon_mk_eq]; refine State.canon_mk ?_) | split

theorem State.writeC_canon : ∀ s c, State.Canon s → (State.writeC s c).Canon := by
  intro s c h; unfold State.writeC
  try simp only []
  repeat'
    first
    | with_reducible assumption | with_reducible apply State.wr_canon | with_reducible refine State.canon_ite ?_ ?_
    | with_reducible refine State.foldl_canon (fun _ _ _ => ?_) ?_
    | with_reducible refine State.foldl_pair_canon (fun _ _ _ => ?_) ?_
    | (simp only [State.canon_mk_eq]; refine State.canon_mk ?_) | split

theorem State.trySeal_canon : ∀ s slot, State.Canon s → (State.trySeal s slot).Canon := by
  intro s slot h; unfold State.trySeal
  try simp only []
  repeat'
    first
    | with_reducible assumption | with_reducible apply State.contribute_canon | with_reducible apply State.updCtx_canon
    | with_reducible refine State.canon_ite ?_ ?_ | with_reducible refine State.foldl_canon (fun _ _ _ => ?_) ?_
    | with_reducible refine State.foldl_pair_canon (fun _ _ _ => ?_) ?_
    | (simp only [State.canon_mk_eq]; refine State.canon_mk ?_) | split

theorem State.completeColl_canon : ∀ s slot, State.Canon s → (State.completeColl s slot).Canon := by
  intro s slot h; unfold State.completeColl
  try simp only []
  repeat'
    first
    | with_reducible assumption | with_reducible apply State.updCtx_canon | with_reducible apply State.writeC_canon
    | with_reducible apply State.finishOp_canon | with_reducible apply State.trySeal_canon
    | with_reducible refine State.canon_ite ?_ ?_ | with_reducible refine State.foldl_canon (fun _ _ _ => ?_) ?_
    | with_reducible refine State.foldl_pair_canon (fun _ _ _ => ?_) ?_
    | (simp only [State.canon_mk_eq]; refine State.canon_mk ?_) | split

theorem State.emptyLists_canon : ∀ s b w, State.Canon s → (State.emptyLists s b w).Canon := by
  intro s b w h; unfold State.emptyLists
  try simp only []
  repeat'
    first
    | with_reducible assumption | with_reducible apply State.setUses_canon
    | with_reducible refine State.canon_ite ?_ ?_ | with_reducible refine State.foldl_canon (fun _ _ _ => ?_) ?_

theorem State.barrierDone_canon : ∀ s x, State.Canon s → (State.barrierDone s x).Canon := by
  intro s x h; unfold State.barrierDone
  try simp only []
  repeat'
    first
    | with_reducible assumption | with_reducible apply State.count_canon | with_reducible apply State.setRegN_canon
    | with_reducible apply State.finishOp_canon | with_reducible apply State.updBarge_canon
    | with_reducible refine State.canon_ite ?_ ?_ | with_reducible refine State.foldl_canon (fun _ _ _ => ?_) ?_
    | with_reducible refine State.foldl_pair_canon (fun _ _ _ => ?_) ?_
    | (simp only [State.canon_mk_eq]; refine State.canon_mk ?_) | split

theorem State.spoilPiece_canon : ∀ s step data, State.Canon s → (State.spoilPiece s step data).2.Canon := by
  intro s step data h; unfold State.spoilPiece
  try simp only []
  repeat'
    first
    | with_reducible assumption | with_reducible apply State.count_canon | with_reducible refine State.canon_ite ?_ ?_
    | with_reducible refine State.foldl_canon (fun _ _ _ => ?_) ?_
    | with_reducible refine State.foldl_pair_canon (fun _ _ _ => ?_) ?_
    | (simp only [State.canon_mk_eq]; refine State.canon_mk ?_) | split

theorem State.sendPiece_canon : ∀ s slot stage step j lo hi, State.Canon s → (State.sendPiece s slot stage step j lo hi).Canon := by
  intro s slot stage step j lo hi h; unfold State.sendPiece
  try simp only []
  repeat'
    first
    | with_reducible assumption | with_reducible apply State.spoilPiece_canon | with_reducible apply State.send_canon
    | with_reducible apply State.updCtx_canon | with_reducible refine State.canon_ite ?_ ?_
    | with_reducible refine State.foldl_canon (fun _ _ _ => ?_) ?_
    | with_reducible refine State.foldl_pair_canon (fun _ _ _ => ?_) ?_
    | (simp only [State.canon_mk_eq]; refine State.canon_mk ?_) | split

theorem State.goOn_canon (fuel : Nat) (s : State) (slot : Nat) (gs : List Nat) (step : Nat) (h : s.Canon) :
    (State.goOn fuel s slot gs step).Canon := by
  induction fuel generalizing s gs step with
  | zero => exact h
  | succ n ih =>
    cases gs with
    | nil => exact State.completeColl_canon _ _ h
    | cons g rest =>
      unfold State.goOn
      simp only []
      repeat' first | assumption | with_reducible apply ih | with_reducible apply State.updCtx_canon | with_reducible apply State.sendPiece_canon | with_reducible refine State.canon_ite ?_ ?_ | split

theorem State.startColl_canon : ∀ s slot, State.Canon s → (State.startColl s slot).Canon := by
  intro s slot h; unfold State.startColl
  try simp only []
  repeat'
    first
    | with_reducible assumption | with_reducible apply State.seeIn_canon | with_reducible apply State.updCtx_canon
    | with_reducible apply State.contribute_canon | with_reducible apply State.goOn_canon
    | with_reducible refine State.canon_ite ?_ ?_ | with_reducible refine State.foldl_canon (fun _ _ _ => ?_) ?_
    | with_reducible refine State.foldl_pair_canon (fun _ _ _ => ?_) ?_
    | (simp only [State.canon_mk_eq]; refine State.canon_mk ?_) | split

theorem State.admitColl_canon : ∀ s seq k, State.Canon s → (State.admitColl s seq k).Canon := by
  intro s seq k h; unfold State.admitColl
  try simp only []
  repeat'
    first
    | with_reducible assumption | with_reducible apply State.startColl_canon | with_reducible apply State.updCtx_canon
    | with_reducible apply State.count_canon | with_reducible apply State.err_canon
    | with_reducible apply State.contribute_canon | with_reducible refine State.canon_ite ?_ ?_
    | with_reducible refine State.foldl_canon (fun _ _ _ => ?_) ?_
    | with_reducible refine State.foldl_pair_canon (fun _ _ _ => ?_) ?_
    | (simp only [State.canon_mk_eq]; refine State.canon_mk ?_) | split

theorem State.admitLoop_canon (fuel : Nat) (s : State) (level : Nat) (h : s.Canon) :
    (State.admitLoop fuel s level).Canon := by
  induction fuel generalizing s with
  | zero => exact h
  | succ n ih =>
    unfold State.admitLoop
    simp only []
    split
    · refine ih _ (State.admitColl_canon _ _ _ ?_)
      simp only [State.canon_mk_eq]
      exact State.canon_mk h
    · exact h

theorem State.seqArrives_canon : ∀ s k seq, State.Canon s → (State.seqArrives s k seq).Canon := by
  intro s k seq h; unfold State.seqArrives
  try simp only []
  repeat'
    first
    | with_reducible assumption | with_reducible apply State.admitLoop_canon
    | with_reducible refine State.canon_ite ?_ ?_ | with_reducible refine State.foldl_canon (fun _ _ _ => ?_) ?_
    | with_reducible refine State.foldl_pair_canon (fun _ _ _ => ?_) ?_
    | (simp only [State.canon_mk_eq]; refine State.canon_mk ?_)

theorem State.enterBarriers_canon : ∀ s, State.Canon s → (State.enterBarriers s).Canon := by
  intro s h; unfold State.enterBarriers
  try simp only []
  repeat'
    first
    | with_reducible assumption | with_reducible apply State.takeLevelSeq_canon
    | with_reducible apply State.barrierDone_canon | with_reducible apply State.seqArrives_canon
    | with_reducible apply State.contribute_canon | with_reducible refine State.canon_ite ?_ ?_
    | with_reducible refine State.foldl_canon (fun _ _ _ => ?_) ?_
    | with_reducible refine State.foldl_pair_canon (fun _ _ _ => ?_) ?_
    | (simp only [State.canon_mk_eq]; refine State.canon_mk ?_)

theorem State.countOp_canon : ∀ s b w, State.Canon s → (State.countOp s b w).Canon := by
  intro s b w h; unfold State.countOp
  try simp only []
  repeat'
    first
    | with_reducible assumption | with_reducible apply State.count_canon
    | with_reducible refine State.canon_ite ?_ ?_ | with_reducible refine State.foldl_canon (fun _ _ _ => ?_) ?_

theorem State.opComplete_canon : ∀ s id i, State.Canon s → (State.opComplete s id i).Canon := by
  intro s id i h; unfold State.opComplete
  try simp only []
  repeat'
    first
    | with_reducible assumption | with_reducible apply State.enterBarriers_canon
    | with_reducible apply State.finishOp_canon | with_reducible apply State.emptyLists_canon
    | with_reducible apply State.countOp_canon | with_reducible refine State.canon_ite ?_ ?_
    | with_reducible refine State.foldl_canon (fun _ _ _ => ?_) ?_
    | with_reducible refine State.foldl_pair_canon (fun _ _ _ => ?_) ?_
    | (simp only [State.canon_mk_eq]; refine State.canon_mk ?_) | split

theorem State.backTime_canon : ∀ s b w ws, State.Canon s → (State.backTime s b w ws).Canon := by
  intro s b w ws h; unfold State.backTime
  try simp only []
  repeat'
    first
    | with_reducible assumption | with_reducible apply State.count_canon
    | with_reducible refine State.canon_ite ?_ ?_ | with_reducible refine State.foldl_canon (fun _ _ _ => ?_) ?_

theorem State.putFactor_canon : ∀ s id f first, State.Canon s → (State.putFactor s id f first).Canon := by
  intro s id f first h; unfold State.putFactor
  try simp only []
  repeat'
    first
    | with_reducible assumption | with_reducible apply State.updBarge_canon

theorem State.fetchFactor_canon : ∀ s b i r x fwd, State.Canon s → (State.fetchFactor s b i r x fwd).2.Canon := by
  intro s b i r x fwd h; unfold State.fetchFactor; simp only []
  split
  · exact State.putFactor_canon _ _ _ _ (State.count_canon _ _ _ _ h)
  · split <;> rename_i heq
    all_goals have hm := State.pair_canon heq (State.acquire_canon _ _ _ _ _ _ _ h)
    · exact State.putFactor_canon _ _ _ _ (State.count_canon _ _ _ _ (State.factorRow_canon _ _ _ _ _ _ _ hm))
    · exact State.updBarge_canon _ _ _ hm
    · exact hm
    · exact State.noteWait_canon _ _ _ hm
  · exact h

theorem State.seekFactor_canon : ∀ s id i r x g fwd, State.Canon s → (State.seekFactor s id i r x g fwd).2.Canon := by
  intro s id i r x g fwd h; unfold State.seekFactor
  try simp only []
  repeat'
    first
    | with_reducible assumption | with_reducible apply State.putFactor_canon
    | with_reducible apply State.fetchFactor_canon | with_reducible refine State.canon_ite ?_ ?_
    | with_reducible refine State.foldl_canon (fun _ _ _ => ?_) ?_
    | with_reducible refine State.foldl_pair_canon (fun _ _ _ => ?_) ?_
    | (simp only [State.canon_mk_eq]; refine State.canon_mk ?_) | split

theorem State.convInst_canon : ∀ s b i w r j inst, State.Canon s → (State.convInst s b i w r j inst).Canon := by
  intro s b i w r j inst h; unfold State.convInst
  try simp only []
  repeat'
    first
    | with_reducible assumption | with_reducible apply State.count_canon | with_reducible apply State.seeRows_canon
    | with_reducible apply State.putWords_canon | with_reducible apply State.countNum_canon
    | with_reducible apply State.takeDraws_canon | with_reducible refine State.canon_ite ?_ ?_

theorem State.dropFactors_canon : ∀ s id i, State.Canon s → (State.dropFactors s id i).Canon := by
  intro s id i h; unfold State.dropFactors
  try simp only []
  repeat'
    first
    | with_reducible assumption | with_reducible apply State.updBarge_canon

theorem State.appendPart_canon : ∀ s w r j k t m q page, State.Canon s → (State.appendPart s w r j k t m q page).Canon := by
  intro s w r j k t m q page h; unfold State.appendPart
  try simp only []
  repeat'
    first
    | with_reducible assumption | with_reducible apply State.extWrite_canon
    | with_reducible refine State.canon_ite ?_ ?_

theorem State.putSpec_canon : ∀ s id berth layer q at_ t, State.Canon s → (State.putSpec s id berth layer q at_ t).Canon := by
  intro s id berth layer q at_ t h; unfold State.putSpec
  try simp only []
  repeat'
    first
    | with_reducible assumption | with_reducible apply State.updBarge_canon
    | with_reducible apply State.updBerth_canon

theorem State.appendPos_canon : ∀ s b i w k m q page, State.Canon s → (State.appendPos s b i w k m q page).Canon := by
  intro s b i w k m q page h; unfold State.appendPos
  try simp only []
  repeat'
    first
    | with_reducible assumption | with_reducible apply State.appendPart_canon
    | with_reducible apply State.notePend_canon | with_reducible apply State.putSpec_canon
    | with_reducible refine State.canon_ite ?_ ?_ | with_reducible refine State.foldl_canon (fun _ _ _ => ?_) ?_

theorem convEffect_canon : ∀ i s b w, State.Canon s → (convEffect i s b w).Canon := by
  intro i s b w h; unfold convEffect
  try simp only []
  repeat'
    first
    | with_reducible assumption | with_reducible apply State.convInst_canon
    | with_reducible refine State.canon_ite ?_ ?_ | with_reducible refine State.foldl_canon (fun _ _ _ => ?_) ?_

theorem State.bell_canon (s : State) (p : Packet) (kind : Nat) (up down : State → BellMsg → State)
    (hu : ∀ s m, s.Canon → (up s m).Canon) (hd : ∀ s m, s.Canon → (down s m).Canon) (h : s.Canon) :
    (State.bell s p kind up down).Canon := by
  unfold State.bell
  split
  · exact h
  · split
    · exact State.waitTurn_canon _ _ h
    · split
      · exact State.badPacket_canon _ (State.take_canon _ _ h)
      · simp only []
        split
        · exact hd _ _ (State.take_canon _ _ h)
        · exact hu _ _ (State.take_canon _ _ h)

theorem State.bellFromBelow_canon : ∀ s p m, State.Canon s → (State.bellFromBelow s p m).Canon := by
  intro s p m h; unfold State.bellFromBelow
  try simp only []
  repeat'
    first
    | with_reducible assumption | with_reducible apply State.bellUp_canon | with_reducible refine State.canon_ite ?_ ?_
    | with_reducible refine State.foldl_canon (fun _ _ _ => ?_) ?_
    | with_reducible refine State.foldl_pair_canon (fun _ _ _ => ?_) ?_
    | (simp only [State.canon_mk_eq]; refine State.canon_mk ?_) | split

theorem State.answered_canon : ∀ s m, State.Canon s → (State.answered s m).Canon := by
  intro s m h; unfold State.answered
  try simp only []
  repeat'
    first
    | with_reducible assumption | with_reducible refine State.canon_ite ?_ ?_
    | with_reducible refine State.foldl_canon (fun _ _ _ => ?_) ?_
    | with_reducible refine State.foldl_pair_canon (fun _ _ _ => ?_) ?_
    | (simp only [State.canon_mk_eq]; refine State.canon_mk ?_)

theorem State.bellFromAbove_canon (s : State) (p : Packet) (m : BellMsg) (act : State → State) (hf : ∀ s, s.Canon → (act s).Canon) (h : s.Canon) : (State.bellFromAbove s p m act).Canon := by
  unfold State.bellFromAbove
  simp only []
  repeat' first | assumption | with_reducible apply hf | with_reducible apply State.bellSpread_canon | with_reducible apply State.keepResult_canon | with_reducible apply State.answered_canon | with_reducible apply State.noteRecv_canon | with_reducible refine State.canon_ite ?_ ?_

theorem State.useColl_canon : ∀ s cls id, State.Canon s → (State.useColl s cls id).2.Canon := by
  intro s cls id h; unfold State.useColl
  try simp only []
  repeat'
    first
    | with_reducible assumption | with_reducible refine State.canon_ite ?_ ?_
    | with_reducible refine State.foldl_canon (fun _ _ _ => ?_) ?_
    | with_reducible refine State.foldl_pair_canon (fun _ _ _ => ?_) ?_
    | (simp only [State.canon_mk_eq]; refine State.canon_mk ?_)

theorem State.markRange_canon : ∀ s b w c, State.Canon s → (State.markRange s b w c).Canon := by
  intro s b w c h; unfold State.markRange
  try simp only []
  repeat'
    first
    | with_reducible assumption | with_reducible apply State.setMark_canon
    | with_reducible apply State.notePend_canon | with_reducible refine State.canon_ite ?_ ?_
    | with_reducible refine State.foldl_canon (fun _ _ _ => ?_) ?_

theorem State.openColl_canon : ∀ s b i w, State.Canon s → (State.openColl s b i w).Canon := by
  intro s b i w h; unfold State.openColl
  try simp only []
  repeat'
    first
    | with_reducible assumption | with_reducible apply State.useColl_canon
    | with_reducible apply State.finishOp_canon | with_reducible apply State.failBarge_canon
    | with_reducible apply State.err_canon | with_reducible apply State.count_canon
    | with_reducible apply State.notePend_canon | with_reducible apply State.markRange_canon
    | with_reducible apply State.contribute_canon | with_reducible refine State.canon_ite ?_ ?_
    | with_reducible refine State.foldl_canon (fun _ _ _ => ?_) ?_
    | with_reducible refine State.foldl_pair_canon (fun _ _ _ => ?_) ?_
    | (simp only [State.canon_mk_eq]; refine State.canon_mk ?_)

theorem State.strayPiece_canon : ∀ s, State.Canon s → (State.strayPiece s).Canon := by
  intro s h; unfold State.strayPiece
  try simp only []
  repeat'
    first
    | with_reducible assumption | with_reducible apply State.err_canon | with_reducible apply State.count_canon

theorem State.copyDesc_canon : ∀ s id m a, State.Canon s → (State.copyDesc s id m a).2.Canon := by
  intro s id m a h; unfold State.copyDesc
  try simp only []
  repeat'
    first
    | with_reducible assumption | with_reducible apply State.err_canon | with_reducible apply State.updBarge_canon
    | with_reducible refine State.canon_ite ?_ ?_ | with_reducible refine State.foldl_canon (fun _ _ _ => ?_) ?_
    | with_reducible refine State.foldl_pair_canon (fun _ _ _ => ?_) ?_
    | (simp only [State.canon_mk_eq]; refine State.canon_mk ?_) | split

theorem State.segRes_canon : ∀ s b w g, State.Canon s → (State.segRes s b w g).2.Canon := by
  intro s b w g h
  unfold State.segRes
  simp only []
  split
  · exact h
  · split
    · exact h
    · split <;> rename_i heq
      · exact (congrArg (fun p => p.2.Canon) heq).mp (State.copyDesc_canon _ _ _ _ h)
      · have hm := (congrArg (fun p => p.2.Canon) heq).mp (State.copyDesc_canon _ _ _ _ h)
        simp only []
        split
        · exact State.dirFault_canon _ hm
        · exact hm

theorem State.settleSegs_canon (s : State) (b : Barge) (w : Nat) (train : Bool) (row : Nat) (gs : List Seg)
    (h : s.Canon) : (s.settleSegs b w train row gs).2.Canon := by
  induction gs generalizing s row with
  | nil => exact h
  | cons g gs ih =>
    unfold State.settleSegs; simp only []
    split
    · exact ih _ _ h
    · exact ih _ _ (State.segRes_canon _ _ _ _ h)

theorem State.seeBack_canon : ∀ s b w ws, State.Canon s → (State.seeBack s b w ws).Canon := by
  intro s b w ws h; unfold State.seeBack
  try simp only []
  repeat'
    first
    | with_reducible assumption | with_reducible apply State.seeIn_canon
    | with_reducible refine State.canon_ite ?_ ?_ | with_reducible refine State.foldl_canon (fun _ _ _ => ?_) ?_

theorem State.resendBell_canon : ∀ s k, State.Canon s → (State.resendBell s k).Canon := by
  intro s k h; unfold State.resendBell
  try simp only []
  repeat'
    first
    | with_reducible assumption | with_reducible apply State.send_canon | with_reducible apply State.count_canon
    | with_reducible refine State.canon_ite ?_ ?_ | with_reducible refine State.foldl_canon (fun _ _ _ => ?_) ?_
    | with_reducible refine State.foldl_pair_canon (fun _ _ _ => ?_) ?_
    | (simp only [State.canon_mk_eq]; refine State.canon_mk ?_) | split

theorem State.attnRow_canon : ∀ s b i w r j k m p, State.Canon s → (State.attnRow s b i w r j k m p).Canon := by
  intro s b i w r j k m p h; unfold State.attnRow
  try simp only []
  repeat'
    first
    | with_reducible assumption | with_reducible apply State.failRow_canon | with_reducible apply State.notePend_canon
    | with_reducible apply State.writeRow_canon | with_reducible apply State.takePicks_canon
    | with_reducible refine State.canon_ite ?_ ?_ | with_reducible refine State.foldl_canon (fun _ _ _ => ?_) ?_
    | with_reducible refine State.foldl_pair_canon (fun _ _ _ => ?_) ?_
    | (simp only [State.canon_mk_eq]; refine State.canon_mk ?_) | split

theorem State.mmTile_canon : ∀ s b i w r j corr, State.Canon s → (State.mmTile s b i w r j corr).Canon := by
  intro s b i w r j corr h; unfold State.mmTile
  try simp only []
  repeat'
    first
    | with_reducible assumption | with_reducible apply State.seeIn_canon | with_reducible apply State.seeRows_canon
    | with_reducible apply State.notePend_canon | with_reducible apply State.writeRow_canon
    | with_reducible apply State.takePicks_canon | with_reducible apply State.count_canon
    | with_reducible refine State.canon_ite ?_ ?_ | with_reducible refine State.foldl_canon (fun _ _ _ => ?_) ?_

theorem State.gradAdd_canon : ∀ s r dF k c fresh tid, State.Canon s → (State.gradAdd s r dF k c fresh tid).Canon := by
  intro s r dF k c fresh tid h; unfold State.gradAdd
  try simp only []
  repeat'
    first
    | with_reducible assumption | with_reducible apply State.wr_canon | with_reducible apply State.takePicks_canon
    | with_reducible refine State.canon_ite ?_ ?_

theorem State.seekAll_canon : ∀ s b w i fwd ws, State.Canon s → (State.seekAll s b w i fwd ws).2.Canon := by
  intro s b w i fwd ws h; unfold State.seekAll
  try simp only []
  repeat'
    first
    | with_reducible assumption | with_reducible apply State.seekFactor_canon
    | with_reducible refine State.canon_ite ?_ ?_ | with_reducible refine State.foldl_canon (fun _ _ _ => ?_) ?_
    | with_reducible refine State.foldl_pair_canon (fun _ _ _ => ?_) ?_
    | (simp only [State.canon_mk_eq]; refine State.canon_mk ?_) | split

theorem State.seekSegs_canon : ∀ s b i train, State.Canon s → (State.seekSegs s b i train).2.2.Canon := by
  intro s b i train h; unfold State.seekSegs
  exact State.seekAll_canon _ _ _ _ _ _ (State.settleSegs_canon _ _ _ _ _ _ h)

theorem State.noteUnusable_canon : ∀ s id g, State.Canon s → (State.noteUnusable s id g).Canon := by
  intro s id g h; unfold State.noteUnusable
  try simp only []
  repeat'
    first
    | with_reducible assumption | with_reducible apply State.updBarge_canon | with_reducible apply State.err_canon
    | with_reducible apply State.count_canon | with_reducible refine State.canon_ite ?_ ?_
    | with_reducible refine State.foldl_canon (fun _ _ _ => ?_) ?_
    | with_reducible refine State.foldl_pair_canon (fun _ _ _ => ?_) ?_
    | (simp only [State.canon_mk_eq]; refine State.canon_mk ?_) | split

theorem State.poisonRows_canon : ∀ s id rows, State.Canon s → (State.poisonRows s id rows).Canon := by
  intro s id rows h; unfold State.poisonRows
  try simp only []
  repeat'
    first
    | with_reducible assumption | with_reducible apply State.updBarge_canon

theorem State.noteSegs_canon : ∀ s b train ws, State.Canon s → (State.noteSegs s b train ws).Canon := by
  intro s b train ws h; unfold State.noteSegs
  try simp only []
  repeat'
    first
    | with_reducible assumption | with_reducible apply State.count_canon | with_reducible apply State.failRows_canon
    | with_reducible apply State.noteUnusable_canon | with_reducible apply State.poisonRows_canon
    | with_reducible refine State.canon_ite ?_ ?_ | with_reducible refine State.foldl_canon (fun _ _ _ => ?_) ?_
    | with_reducible refine State.foldl_pair_canon (fun _ _ _ => ?_) ?_
    | (simp only [State.canon_mk_eq]; refine State.canon_mk ?_) | split

theorem State.setGradUses_canon : ∀ s r n, State.Canon s → (State.setGradUses s r n).Canon := by
  intro s r n h; unfold State.setGradUses
  try simp only []
  repeat'
    first
    | with_reducible assumption | with_reducible apply State.wr_canon | with_reducible apply State.updRegion_canon

theorem State.gradPut_canon : ∀ s r dF tid c, State.Canon s → (State.gradPut s r dF tid c).Canon := by
  intro s r dF tid c h; unfold State.gradPut
  try simp only []
  repeat'
    first
    | with_reducible assumption | with_reducible apply State.gradAdd_canon | with_reducible apply State.setGradUses_canon
    | with_reducible refine State.canon_ite ?_ ?_ | with_reducible refine State.foldl_canon (fun _ _ _ => ?_) ?_
    | with_reducible refine State.foldl_pair_canon (fun _ _ _ => ?_) ?_
    | (simp only [State.canon_mk_eq]; refine State.canon_mk ?_) | split

theorem State.addDx_canon : ∀ s b i w r j mrow kk dx t, State.Canon s → (State.addDx s b i w r j mrow kk dx t).Canon := by
  intro s b i w r j mrow kk dx t h; unfold State.addDx
  try simp only []
  repeat'
    first
    | with_reducible assumption | with_reducible apply State.notePend_canon
    | with_reducible apply State.writeRow_canon | with_reducible apply State.takePicks_canon
    | with_reducible refine State.canon_ite ?_ ?_

theorem State.backOne_canon : ∀ s b i w r j k mrow dF tid x, State.Canon s → (State.backOne s b i w r j k mrow dF tid x).Canon := by
  intro s b i w r j k mrow dF tid x h; unfold State.backOne
  try simp only []
  repeat'
    first
    | with_reducible assumption | with_reducible apply State.countNum_canon
    | with_reducible apply State.takePicks_canon | with_reducible apply State.notePend_canon
    | with_reducible apply State.gradPut_canon | with_reducible apply State.addDx_canon
    | with_reducible refine State.canon_ite ?_ ?_ | with_reducible refine State.foldl_canon (fun _ _ _ => ?_) ?_

theorem State.backSeg_canon : ∀ s b i w dF tid g x, State.Canon s → (State.backSeg s b i w dF tid g x).Canon := by
  intro s b i w dF tid g x h; unfold State.backSeg
  try simp only []
  repeat'
    first
    | with_reducible assumption | with_reducible apply State.failRows_canon
    | with_reducible apply State.backOne_canon | with_reducible refine State.canon_ite ?_ ?_
    | with_reducible refine State.foldl_canon (fun _ _ _ => ?_) ?_

theorem State.backPoison_canon : ∀ s b i w g, State.Canon s → (State.backPoison s b i w g).Canon := by
  intro s b i w g h; unfold State.backPoison
  try simp only []
  repeat'
    first
    | with_reducible assumption | with_reducible apply State.addDx_canon
    | with_reducible refine State.canon_ite ?_ ?_ | with_reducible refine State.foldl_canon (fun _ _ _ => ?_) ?_

theorem State.backRun_canon : ∀ s b i w ws, State.Canon s → (State.backRun s b i w ws).Canon := by
  intro s b i w ws h; unfold State.backRun
  try simp only []
  repeat'
    first
    | with_reducible assumption | with_reducible apply State.noteSegs_canon | with_reducible apply State.backTime_canon
    | with_reducible apply State.seeBack_canon | with_reducible apply State.backSeg_canon
    | with_reducible apply State.backPoison_canon | with_reducible apply State.dropFactors_canon
    | with_reducible refine State.canon_ite ?_ ?_ | with_reducible refine State.foldl_canon (fun _ _ _ => ?_) ?_
    | with_reducible refine State.foldl_pair_canon (fun _ _ _ => ?_) ?_
    | (simp only [State.canon_mk_eq]; refine State.canon_mk ?_) | split

theorem State.tryBack_canon : ∀ s b i, State.Canon s → (State.tryBack s b i).Canon := by
  intro s b i h; unfold State.tryBack
  try simp only []
  repeat'
    first
    | with_reducible assumption | with_reducible apply State.failBarge_canon | with_reducible apply State.finishOp_canon
    | with_reducible apply State.issue_canon | with_reducible apply State.seekSegs_canon
    | with_reducible apply State.backRun_canon | with_reducible refine State.canon_ite ?_ ?_
    | with_reducible refine State.foldl_canon (fun _ _ _ => ?_) ?_
    | with_reducible refine State.foldl_pair_canon (fun _ _ _ => ?_) ?_
    | (simp only [State.canon_mk_eq]; refine State.canon_mk ?_) | split

theorem State.fetchAhead_canon : ∀ s b i train, State.Canon s → (State.fetchAhead s b i train).Canon := by
  intro s b i train h; unfold State.fetchAhead
  try simp only []
  repeat'
    first
    | with_reducible assumption | with_reducible apply State.seekSegs_canon
    | with_reducible refine State.canon_ite ?_ ?_

theorem State.runBack_canon : ∀ s id i, State.Canon s → (State.runBack s id i).Canon := by
  intro s id i h
  unfold State.runBack
  simp only []
  have h1 := State.fetchRec_canon s id i 2 deltaBackOk h
  split
  · exact h1
  · exact State.canon_ite h1 (State.canon_ite (State.tryBack_canon _ _ _ h1) (State.fetchAhead_canon _ _ _ _ h1))

theorem barrierEffect_canon : ∀ i s b w, State.Canon s → (barrierEffect i s b w).Canon := by
  intro i s b w h; unfold barrierEffect
  try simp only []
  repeat'
    first
    | with_reducible assumption | with_reducible apply State.failBarge_canon
    | with_reducible apply State.enterBarriers_canon | with_reducible apply State.updBarge_canon
    | with_reducible refine State.canon_ite ?_ ?_ | with_reducible refine State.foldl_canon (fun _ _ _ => ?_) ?_
    | with_reducible refine State.foldl_pair_canon (fun _ _ _ => ?_) ?_
    | (simp only [State.canon_mk_eq]; refine State.canon_mk ?_)

theorem State.tokenRecord_canon : ∀ s n tokens, State.Canon s → (State.tokenRecord s n tokens).Canon := by
  intro s n tokens h; unfold State.tokenRecord
  try simp only []
  repeat'
    first
    | with_reducible assumption | with_reducible apply State.queueRec_canon | with_reducible refine State.canon_ite ?_ ?_
    | with_reducible refine State.foldl_canon (fun _ _ _ => ?_) ?_
    | with_reducible refine State.foldl_pair_canon (fun _ _ _ => ?_) ?_
    | (simp only [State.canon_mk_eq]; refine State.canon_mk ?_) | split

theorem State.tokenDue_canon : ∀ s b i n, State.Canon s → (State.tokenDue s b i n).Canon := by
  intro s b i n h; unfold State.tokenDue
  try simp only []
  repeat'
    first
    | with_reducible assumption | with_reducible apply State.tokenRecord_canon
    | with_reducible refine State.canon_ite ?_ ?_ | with_reducible refine State.foldl_canon (fun _ _ _ => ?_) ?_
    | with_reducible refine State.foldl_pair_canon (fun _ _ _ => ?_) ?_
    | (simp only [State.canon_mk_eq]; refine State.canon_mk ?_) | split

theorem State.pairTile_canon : ∀ s b i v w r j k ws, State.Canon s → (State.pairTile s b i v w r j k ws).Canon := by
  intro s b i v w r j k ws h; unfold State.pairTile
  try simp only []
  repeat'
    first
    | with_reducible assumption | with_reducible apply State.mmTile_canon | with_reducible apply State.seeRows_canon
    | with_reducible apply State.countNum_canon | with_reducible apply State.takePicks_canon
    | with_reducible apply State.count_canon | with_reducible refine State.canon_ite ?_ ?_

theorem State.refundRows_canon : ∀ s b, State.Canon s → (State.refundRows s b).Canon := by
  intro s b h; unfold State.refundRows
  try simp only []
  repeat'
    first
    | with_reducible assumption | with_reducible apply State.balance_canon
    | with_reducible refine State.canon_ite ?_ ?_ | with_reducible refine State.foldl_canon (fun _ _ _ => ?_) ?_

theorem State.poisonRange_canon : ∀ s c, State.Canon s → (State.poisonRange s c).Canon := by
  intro s c h
  unfold State.poisonRange
  simp only []
  split
  · simp only [State.canon_mk_eq]
    exact State.canon_mk (State.extWrite_canon _ _ _ _ h) (h_marks := fun h => SMap.wf_sublist _ _ _ List.filter_sublist h.marks)
  · exact h

theorem State.endColls_canon : ∀ s id, State.Canon s → (State.endColls s id).Canon := by
  intro s id h; unfold State.endColls
  try simp only []
  repeat'
    first
    | with_reducible assumption | with_reducible apply State.abandon_canon
    | with_reducible apply State.poisonRange_canon | with_reducible refine State.canon_ite ?_ ?_
    | with_reducible refine State.foldl_canon (fun _ _ _ => ?_) ?_
    | with_reducible refine State.foldl_pair_canon (fun _ _ _ => ?_) ?_
    | (simp only [State.canon_mk_eq]; refine State.canon_mk ?_)

theorem State.uncarry_canon : ∀ s id, State.Canon s → (State.uncarry s id).Canon := by
  intro s id h; unfold State.uncarry
  try simp only []
  repeat'
    first
    | with_reducible assumption | with_reducible refine State.canon_ite ?_ ?_
    | with_reducible refine State.foldl_canon (fun _ _ _ => ?_) ?_
    | with_reducible refine State.foldl_pair_canon (fun _ _ _ => ?_) ?_
    | (simp only [State.canon_mk_eq]; refine State.canon_mk ?_)

theorem State.noteTime_canon : ∀ s b, State.Canon s → (State.noteTime s b).Canon := by
  intro s b h; unfold State.noteTime
  try simp only []
  repeat'
    first
    | with_reducible assumption | with_reducible apply State.updMooring_canon
    | with_reducible refine State.canon_ite ?_ ?_

theorem State.leaveRegions_canon : ∀ s b, State.Canon s → (State.leaveRegions s b).Canon := by
  intro s b h; unfold State.leaveRegions
  try simp only []
  repeat'
    first
    | with_reducible assumption | with_reducible apply State.idle_canon | with_reducible apply State.updRegion_canon
    | with_reducible refine State.canon_ite ?_ ?_ | with_reducible refine State.foldl_canon (fun _ _ _ => ?_) ?_

theorem State.removeBarge_canon : ∀ s b, State.Canon s → (State.removeBarge s b).Canon := by
  intro s b h; unfold State.removeBarge
  try simp only []
  repeat'
    first
    | with_reducible assumption | with_reducible refine State.canon_ite ?_ ?_
    | with_reducible refine State.foldl_canon (fun _ _ _ => ?_) ?_
    | with_reducible refine State.foldl_pair_canon (fun _ _ _ => ?_) ?_
    | (simp only [State.canon_mk_eq]; refine State.canon_mk ?_)

theorem State.bargeRecord_canon : ∀ s b, State.Canon s → (State.bargeRecord s b).Canon := by
  intro s b h; unfold State.bargeRecord
  try simp only []
  repeat'
    first
    | with_reducible assumption | with_reducible apply State.queueRec_canon
    | with_reducible apply State.journalWrite_canon | with_reducible refine State.canon_ite ?_ ?_
    | with_reducible refine State.foldl_canon (fun _ _ _ => ?_) ?_
    | with_reducible refine State.foldl_pair_canon (fun _ _ _ => ?_) ?_
    | (simp only [State.canon_mk_eq]; refine State.canon_mk ?_) | split

theorem State.endBarge_canon : ∀ s id, State.Canon s → (State.endBarge s id).Canon := by
  intro s id h; unfold State.endBarge
  try simp only []
  repeat'
    first
    | with_reducible assumption | with_reducible apply State.endGap_canon | with_reducible apply State.countSaved_canon
    | with_reducible apply State.refundRows_canon | with_reducible apply State.endColls_canon
    | with_reducible apply State.endRequestOf_canon | with_reducible apply State.noteDefers_canon
    | with_reducible apply State.uncarry_canon | with_reducible apply State.noteTime_canon
    | with_reducible apply State.settleJ_canon | with_reducible apply State.leaveRegions_canon
    | with_reducible apply State.removeBarge_canon | with_reducible apply State.bargeRecord_canon
    | with_reducible apply State.boundary_canon | with_reducible refine State.canon_ite ?_ ?_
    | with_reducible refine State.foldl_canon (fun _ _ _ => ?_) ?_
    | with_reducible refine State.foldl_pair_canon (fun _ _ _ => ?_) ?_
    | (simp only [State.canon_mk_eq]; refine State.canon_mk ?_) | split

theorem State.appendRow_canon : ∀ s i w b k, State.Canon s → (State.appendRow s i w b k).Canon := by
  intro s i w b k h; unfold State.appendRow
  try simp only []
  repeat'
    first
    | with_reducible assumption | with_reducible apply State.failRow_canon | with_reducible apply State.appendPos_canon
    | with_reducible refine State.canon_ite ?_ ?_ | with_reducible refine State.foldl_canon (fun _ _ _ => ?_) ?_
    | with_reducible refine State.foldl_pair_canon (fun _ _ _ => ?_) ?_
    | (simp only [State.canon_mk_eq]; refine State.canon_mk ?_) | split

theorem mmEffect_canon : ∀ i s b w, State.Canon s → (mmEffect i s b w).Canon := by
  intro i s b w h; unfold mmEffect
  try simp only []
  repeat'
    first
    | with_reducible assumption | with_reducible apply State.mmTile_canon
    | with_reducible refine State.canon_ite ?_ ?_ | with_reducible refine State.foldl_canon (fun _ _ _ => ?_) ?_

theorem State.pairRun_canon : ∀ s b i v w ws, State.Canon s → (State.pairRun s b i v w ws).Canon := by
  intro s b i v w ws h; unfold State.pairRun
  try simp only []
  repeat'
    first
    | with_reducible assumption | with_reducible apply State.noteSegs_canon | with_reducible apply State.pairTile_canon
    | with_reducible apply State.dropFactors_canon | with_reducible apply State.notePend_canon
    | with_reducible refine State.canon_ite ?_ ?_ | with_reducible refine State.foldl_canon (fun _ _ _ => ?_) ?_
    | with_reducible refine State.foldl_pair_canon (fun _ _ _ => ?_) ?_
    | (simp only [State.canon_mk_eq]; refine State.canon_mk ?_) | split

theorem State.tryPair_canon : ∀ s b i, State.Canon s → (State.tryPair s b i).Canon := by
  intro s b i h; unfold State.tryPair
  try simp only []
  repeat'
    first
    | with_reducible assumption | with_reducible apply State.failBarge_canon | with_reducible apply State.finishOp_canon
    | with_reducible apply State.issue_canon | with_reducible apply mmEffect_canon
    | with_reducible apply State.seekSegs_canon | with_reducible apply State.pairRun_canon
    | with_reducible refine State.canon_ite ?_ ?_ | with_reducible refine State.foldl_canon (fun _ _ _ => ?_) ?_
    | with_reducible refine State.foldl_pair_canon (fun _ _ _ => ?_) ?_
    | (simp only [State.canon_mk_eq]; refine State.canon_mk ?_) | split

theorem State.runPair_canon : ∀ s id i, State.Canon s → (State.runPair s id i).Canon := by
  intro s id i h
  unfold State.runPair
  simp only []
  have h1 := State.fetchRec_canon s id i 2 deltaOk h
  split
  · exact h1
  · exact State.canon_ite h1 (State.canon_ite (State.tryPair_canon _ _ _ h1) (State.fetchAhead_canon _ _ _ _ h1))

theorem State.attnTile_canon : ∀ s b i w r j, State.Canon s → (State.attnTile s b i w r j).Canon := by
  intro s b i w r j h; unfold State.attnTile
  try simp only []
  repeat'
    first
    | with_reducible assumption | with_reducible apply State.seeRows_canon | with_reducible apply State.attnRow_canon
    | with_reducible refine State.canon_ite ?_ ?_ | with_reducible refine State.foldl_canon (fun _ _ _ => ?_) ?_
    | with_reducible refine State.foldl_pair_canon (fun _ _ _ => ?_) ?_
    | (simp only [State.canon_mk_eq]; refine State.canon_mk ?_) | split

theorem attnEffect_canon : ∀ i s b w, State.Canon s → (attnEffect i s b w).Canon := by
  intro i s b w h; unfold attnEffect
  try simp only []
  repeat'
    first
    | with_reducible assumption | with_reducible apply State.attnTile_canon
    | with_reducible refine State.canon_ite ?_ ?_ | with_reducible refine State.foldl_canon (fun _ _ _ => ?_) ?_

theorem kvAppendEffect_canon : ∀ i s b w, State.Canon s → (kvAppendEffect i s b w).Canon := by
  intro i s b w h; unfold kvAppendEffect
  try simp only []
  repeat'
    first
    | with_reducible assumption | with_reducible apply State.seeRows_canon | with_reducible apply State.appendRow_canon
    | with_reducible refine State.canon_ite ?_ ?_ | with_reducible refine State.foldl_canon (fun _ _ _ => ?_) ?_
    | with_reducible refine State.foldl_pair_canon (fun _ _ _ => ?_) ?_
    | (simp only [State.canon_mk_eq]; refine State.canon_mk ?_) | split

theorem State.commitRow_canon : ∀ s i w r j b k, State.Canon s → (State.commitRow s i w r j b k).Canon := by
  intro s i w r j b k h; unfold State.commitRow
  try simp only []
  repeat'
    first
    | with_reducible assumption | with_reducible apply State.addUnit_canon | with_reducible refine State.canon_ite ?_ ?_
    | with_reducible refine State.foldl_canon (fun _ _ _ => ?_) ?_
    | with_reducible refine State.foldl_pair_canon (fun _ _ _ => ?_) ?_
    | (simp only [State.canon_mk_eq]; refine State.canon_mk ?_) | split

theorem kvCommitEffect_canon : ∀ i s b w, State.Canon s → (kvCommitEffect i s b w).Canon := by
  intro i s b w h; unfold kvCommitEffect
  try simp only []
  repeat'
    first
    | with_reducible assumption | with_reducible apply State.seeIn_canon | with_reducible apply State.commitRow_canon
    | with_reducible refine State.canon_ite ?_ ?_ | with_reducible refine State.foldl_canon (fun _ _ _ => ?_) ?_
    | with_reducible refine State.foldl_pair_canon (fun _ _ _ => ?_) ?_
    | (simp only [State.canon_mk_eq]; refine State.canon_mk ?_) | split

theorem State.startColls_canon : ∀ s id, State.Canon s → (State.startColls s id).Canon := by
  intro s id h; unfold State.startColls
  try simp only []
  repeat'
    first
    | with_reducible assumption | with_reducible apply State.startColl_canon
    | with_reducible refine State.canon_ite ?_ ?_ | with_reducible refine State.foldl_canon (fun _ _ _ => ?_) ?_

theorem collEffect_canon : ∀ i s b w, State.Canon s → (collEffect i s b w).Canon := by
  intro i s b w h; unfold collEffect
  try simp only []
  repeat'
    first
    | with_reducible assumption | with_reducible apply State.openColl_canon | with_reducible apply State.notePend_canon
    | with_reducible apply State.markRange_canon | with_reducible apply State.writeC_canon
    | with_reducible apply State.finishOp_canon | with_reducible apply State.startColl_canon
    | with_reducible refine State.canon_ite ?_ ?_ | with_reducible refine State.foldl_canon (fun _ _ _ => ?_) ?_
    | with_reducible refine State.foldl_pair_canon (fun _ _ _ => ?_) ?_
    | (simp only [State.canon_mk_eq]; refine State.canon_mk ?_) | split

theorem sealEffect_canon : ∀ i s b w, State.Canon s → (sealEffect i s b w).Canon := by
  intro i s b w h; unfold sealEffect
  try simp only []
  repeat'
    first
    | with_reducible assumption | with_reducible apply State.finishOp_canon | with_reducible apply State.confirmLock_canon
    | with_reducible apply State.trySeal_canon | with_reducible apply State.updCtx_canon
    | with_reducible refine State.canon_ite ?_ ?_ | with_reducible refine State.foldl_canon (fun _ _ _ => ?_) ?_
    | with_reducible refine State.foldl_pair_canon (fun _ _ _ => ?_) ?_
    | (simp only [State.canon_mk_eq]; refine State.canon_mk ?_) | split

theorem State.dropUnit_canon : ∀ s u, State.Canon s → (State.dropUnit s u).Canon := by
  intro s u h; unfold State.dropUnit
  try simp only []
  repeat'
    first
    | with_reducible assumption | with_reducible apply State.updBarge_canon
    | with_reducible refine State.canon_ite ?_ ?_ | with_reducible refine State.foldl_canon (fun _ _ _ => ?_) ?_
    | with_reducible refine State.foldl_pair_canon (fun _ _ _ => ?_) ?_
    | (simp only [State.canon_mk_eq]; refine State.canon_mk ?_)

theorem State.refuseUnit_canon : ∀ s b u, State.Canon s → (State.refuseUnit s b u).Canon := by
  intro s b u h; unfold State.refuseUnit
  try simp only []
  repeat'
    first
    | with_reducible assumption | with_reducible apply State.refusePoison_canon
    | with_reducible apply State.failBarge_canon | with_reducible apply State.failRows_canon
    | with_reducible refine State.canon_ite ?_ ?_

theorem State.commitKv_canon (s : State) (b : Barge) (i row : Nat) (r : ManRow) (commit : Nat) (toks : List Nat)
    (u : State) (h : s.Canon) (e : s.commitKv b i row r commit toks = some u) : u.Canon := by
  unfold State.commitKv at e
  extract_lets at e
  split at e
  · cases e
  · simp only [Option.some.injEq] at e
    subst e
    repeat'
      first
      | assumption | with_reducible apply State.tokenDue_canon | with_reducible apply State.updBarge_canon
      | with_reducible apply State.balance_canon | with_reducible apply State.acctCount_canon
      | with_reducible apply State.setBerth_canon | with_reducible apply State.locWrite_canon
      | with_reducible refine State.canon_ite ?_ ?_

theorem State.actUnit_canon (s : State) (b : Barge) (x : CUnit) (u : State) (h : s.Canon) (e : s.actUnit b x = some u) :
    u.Canon := by
  unfold State.actUnit at e
  split at e
  · obtain rfl := Option.some.inj e; exact State.extWrite_canon _ _ _ _ h
  · obtain rfl := Option.some.inj e; exact State.addAt_canon _ _ _ h
  · obtain rfl := Option.some.inj e; exact State.request_canon _ _ _ (State.sentOne_canon _ _ _ h)
  · obtain rfl := Option.some.inj e; exact State.sendGradient_canon _ _ _ _ _ _ _ _ h
  · split at e
    · split at e
      · obtain rfl := Option.some.inj e; exact State.updBarge_canon _ _ _ h
      · exact State.commitKv_canon _ _ _ _ _ _ _ _ h e
    · obtain rfl := Option.some.inj e; exact h
  · obtain rfl := Option.some.inj e; exact State.applyStep_canon _ _ _ _ h
  · simp only [] at e
    split at e
    · cases e
    · obtain rfl := Option.some.inj e; exact State.locWrite_canon _ _ _ _ _ h
  · split at e
    · obtain rfl := Option.some.inj e; exact State.failRow_canon _ _ _ _ h
    · obtain rfl := Option.some.inj e; exact State.failBarge_canon _ _ _ h

theorem State.commitUnit_canon (s : State) (id i key : Nat) (u : State) (h : s.Canon) (e : s.commitUnit id i key = some u) :
    u.Canon := by
  unfold State.commitUnit at e
  split at e
  · split at e
    · cases e; exact h
    · split at e
      · cases e; exact State.dropUnit_canon _ _ h
      · split at e
        · cases e; exact State.refuseUnit_canon _ _ _ (State.dropUnit_canon _ _ h)
        · exact State.actUnit_canon _ _ _ _ (State.dropUnit_canon _ _ h) e
  · cases e; exact h

theorem State.segmentArrives_canon : ∀ s m, State.Canon s → (State.segmentArrives s m).Canon := by
  intro s m h; unfold State.segmentArrives
  try simp only []
  repeat'
    first
    | with_reducible assumption | with_reducible apply State.failBarge_canon | with_reducible apply State.updCtx_canon
    | with_reducible apply State.startColl_canon | with_reducible apply State.count_canon
    | with_reducible refine State.canon_ite ?_ ?_ | with_reducible refine State.foldl_canon (fun _ _ _ => ?_) ?_
    | with_reducible refine State.foldl_pair_canon (fun _ _ _ => ?_) ?_
    | (simp only [State.canon_mk_eq]; refine State.canon_mk ?_) | split

theorem State.scalarArrives_canon : ∀ s m, State.Canon s → (State.scalarArrives s m).Canon := by
  intro s m h; unfold State.scalarArrives
  try simp only []
  repeat'
    first
    | with_reducible assumption | with_reducible apply State.completeColl_canon | with_reducible apply State.updCtx_canon
    | with_reducible apply State.count_canon | with_reducible refine State.canon_ite ?_ ?_
    | with_reducible refine State.foldl_canon (fun _ _ _ => ?_) ?_
    | with_reducible refine State.foldl_pair_canon (fun _ _ _ => ?_) ?_
    | (simp only [State.canon_mk_eq]; refine State.canon_mk ?_) | split

theorem State.sealFailed_canon : ∀ s c, State.Canon s → (State.sealFailed s c).Canon := by
  intro s c h; unfold State.sealFailed
  try simp only []
  repeat'
    first
    | with_reducible assumption | with_reducible apply State.err_canon | with_reducible apply State.count_canon
    | with_reducible apply State.failLock_canon | with_reducible apply State.updCtx_canon
    | with_reducible apply State.failAgain_canon | with_reducible refine State.canon_ite ?_ ?_
    | with_reducible refine State.foldl_canon (fun _ _ _ => ?_) ?_
    | with_reducible refine State.foldl_pair_canon (fun _ _ _ => ?_) ?_
    | (simp only [State.canon_mk_eq]; refine State.canon_mk ?_) | split

theorem State.sealConfirmed_canon : ∀ s c, State.Canon s → (State.sealConfirmed s c).Canon := by
  intro s c h; unfold State.sealConfirmed
  try simp only []
  repeat'
    first
    | with_reducible assumption | with_reducible apply State.confirmLock_canon | with_reducible apply State.finishOp_canon
    | with_reducible apply State.startColls_canon | with_reducible refine State.canon_ite ?_ ?_
    | with_reducible refine State.foldl_canon (fun _ _ _ => ?_) ?_
    | with_reducible refine State.foldl_pair_canon (fun _ _ _ => ?_) ?_
    | (simp only [State.canon_mk_eq]; refine State.canon_mk ?_) | split

theorem State.verdict_canon : ∀ s m, State.Canon s → (State.verdict s m).Canon := by
  intro s m h; unfold State.verdict
  try simp only []
  repeat'
    first
    | with_reducible assumption | with_reducible apply State.sealFailed_canon
    | with_reducible apply State.sealConfirmed_canon | with_reducible refine State.canon_ite ?_ ?_
    | with_reducible refine State.foldl_canon (fun _ _ _ => ?_) ?_
    | with_reducible refine State.foldl_pair_canon (fun _ _ _ => ?_) ?_
    | (simp only [State.canon_mk_eq]; refine State.canon_mk ?_) | split

theorem State.abortArrives_canon : ∀ s m, State.Canon s → (State.abortArrives s m).Canon := by
  intro s m h; unfold State.abortArrives
  try simp only []
  repeat'
    first
    | with_reducible assumption | with_reducible apply State.err_canon | with_reducible apply State.failBarge_canon
    | with_reducible apply State.updCtx_canon | with_reducible refine State.canon_ite ?_ ?_
    | with_reducible refine State.foldl_canon (fun _ _ _ => ?_) ?_
    | with_reducible refine State.foldl_pair_canon (fun _ _ _ => ?_) ?_
    | (simp only [State.canon_mk_eq]; refine State.canon_mk ?_) | split

theorem State.takePiece_canon : ∀ s c p h, State.Canon s → (State.takePiece s c p h).Canon := by
  intro s c p h h; unfold State.takePiece
  try simp only []
  repeat'
    first
    | with_reducible assumption | with_reducible apply State.updCtx_canon
    | with_reducible apply State.sendPiece_canon | with_reducible apply State.goOn_canon
    | with_reducible refine State.canon_ite ?_ ?_

theorem State.pieceArrives_canon : ∀ s p, State.Canon s → (State.pieceArrives s p).Canon := by
  intro s p h; unfold State.pieceArrives
  try simp only []
  repeat'
    first
    | with_reducible assumption | with_reducible apply State.strayPiece_canon | with_reducible apply State.putBack_canon
    | with_reducible apply State.takePiece_canon | with_reducible refine State.canon_ite ?_ ?_
    | with_reducible refine State.foldl_canon (fun _ _ _ => ?_) ?_
    | with_reducible refine State.foldl_pair_canon (fun _ _ _ => ?_) ?_
    | (simp only [State.canon_mk_eq]; refine State.canon_mk ?_) | split

theorem State.pieceExpired_canon : ∀ s slot, State.Canon s → (State.pieceExpired s slot).Canon := by
  intro s slot h; unfold State.pieceExpired
  try simp only []
  repeat'
    first
    | with_reducible assumption | with_reducible apply State.completeColl_canon | with_reducible apply State.updCtx_canon
    | with_reducible refine State.canon_ite ?_ ?_ | with_reducible refine State.foldl_canon (fun _ _ _ => ?_) ?_
    | with_reducible refine State.foldl_pair_canon (fun _ _ _ => ?_) ?_
    | (simp only [State.canon_mk_eq]; refine State.canon_mk ?_) | split

theorem State.sealExpired_canon : ∀ s level seq, State.Canon s → (State.sealExpired s level seq).Canon := by
  intro s level seq h; unfold State.sealExpired
  try simp only []
  repeat'
    first
    | with_reducible assumption | with_reducible apply State.resultOut_canon | with_reducible refine State.canon_ite ?_ ?_
    | with_reducible refine State.foldl_canon (fun _ _ _ => ?_) ?_
    | with_reducible refine State.foldl_pair_canon (fun _ _ _ => ?_) ?_
    | (simp only [State.canon_mk_eq]; refine State.canon_mk ?_) | split

end Sys2Proof.Machine
end

