-- ==== Sys2Proof/Laws/CanonPages.lean ====
section
/-! SUPPORT. The operations of resets, faults, ports, commits and register pages keep every store in canonical form. -/

namespace Sys2Proof.Machine

open Sys2Proof

set_option Elab.async false

theorem State.runImageCheck_canon : ∀ s, State.Canon s → (State.runImageCheck s).Canon := by
  intro s h; unfold State.runImageCheck
  try simp only []
  repeat'
    first
    | with_reducible assumption | with_reducible apply State.setRegN_canon | with_reducible apply State.setReg_canon
    | with_reducible apply State.err_canon | with_reducible refine State.canon_ite ?_ ?_

theorem State.recordEvent_canon : ∀ s, State.Canon s → (State.recordEvent s).Canon := by
  intro s h; unfold State.recordEvent
  try simp only []
  repeat'
    first
    | with_reducible assumption | with_reducible apply State.setRegN_canon
    | with_reducible refine State.canon_ite ?_ ?_ | with_reducible refine State.foldl_canon (fun _ _ _ => ?_) ?_

theorem State.convertStrap_canon : ∀ s mv, State.Canon s → (State.convertStrap s mv).Canon := by
  intro s mv h; unfold State.convertStrap
  try simp only []
  repeat'
    first
    | with_reducible assumption | with_reducible apply State.err_canon | with_reducible apply State.setRegN_canon
    | with_reducible refine State.canon_ite ?_ ?_

theorem State.releaseReset_canon : ∀ s mv, State.Canon s → (State.releaseReset s mv).Canon := by
  intro s mv h; unfold State.releaseReset
  try simp only []
  repeat'
    first
    | with_reducible assumption | with_reducible apply State.recordEvent_canon
    | with_reducible apply State.convertStrap_canon | with_reducible apply State.err_canon
    | with_reducible refine State.canon_ite ?_ ?_ | with_reducible refine State.foldl_canon (fun _ _ _ => ?_) ?_
    | with_reducible refine State.foldl_pair_canon (fun _ _ _ => ?_) ?_
    | (simp only [State.canon_mk_eq]; refine State.canon_mk ?_)

theorem State.lockPll_canon : ∀ s c, State.Canon s → (State.lockPll s c).Canon := by
  intro s c h; unfold State.lockPll
  try simp only []
  repeat'
    first
    | with_reducible assumption | with_reducible refine State.canon_ite ?_ ?_
    | with_reducible refine State.foldl_canon (fun _ _ _ => ?_) ?_
    | with_reducible refine State.foldl_pair_canon (fun _ _ _ => ?_) ?_
    | (simp only [State.canon_mk_eq]; refine State.canon_mk ?_)

theorem State.cutFlips_canon : ∀ s, State.Canon s → (State.cutFlips s).Canon := by
  intro s h; unfold State.cutFlips
  try simp only []
  repeat'
    first
    | with_reducible assumption | with_reducible apply State.invertActive_canon
    | with_reducible refine State.canon_ite ?_ ?_ | with_reducible refine State.foldl_canon (fun _ _ _ => ?_) ?_

theorem State.drainHost_wf (s : State) (h : s.Canon) : s.drainHost.wf = true := by
  unfold State.drainHost
  generalize s.hq.dmaWrites.filter _ = l
  have := h.hostMem
  revert this
  generalize s.hostMem = m
  induction l generalizing m with
  | nil => exact id
  | cons w l ih => exact fun hm => ih _ (Mem.wf_write _ _ _ hm)

theorem State.takeHold_canon : ∀ s, State.Canon s → (State.takeHold s).Canon := by
  intro s h
  unfold State.takeHold
  have hc := State.cutFlips_canon s h
  revert hc
  generalize s.cutFlips = t
  intro hc
  simp only [State.canon_mk_eq]
  refine State.canon_mk hc (h_regs := fun h => ?_) (h_ext := fun h => ?_) (h_tags := fun h => ?_) (h_hostMem := fun h => ?_) (h_scratch := fun _ => rfl) (h_pool := fun _ => rfl) (h_pound := fun _ => rfl) (h_marks := fun _ => rfl) (h_imem := fun h => ?_)
  · exact SMap.wf_put _ _ _ _ (SMap.wf_sublist _ _ _ List.filter_sublist h.regs)
  · split
    · rfl
    · exact h.ext
  · split
    · rfl
    · exact h.tags
  · split
    · exact h.hostMem
    · exact State.drainHost_wf t h
  · split
    · rfl
    · exact h.imem

theorem State.freeEntry_canon : ∀ s j, State.Canon s → (State.freeEntry s j).Canon := by
  intro s j h; unfold State.freeEntry; simp only []; split <;> exact State.extPutNat_canon _ _ _ _ h

theorem State.recoverBad_canon : ∀ s j, State.Canon s → (State.recoverBad s j).Canon := by
  intro s j h; unfold State.recoverBad
  try simp only []
  repeat'
    first
    | with_reducible assumption | with_reducible apply State.freeEntry_canon
    | with_reducible apply State.queueRec_canon | with_reducible apply State.err_canon
    | with_reducible apply State.noteFate_canon | with_reducible apply State.dupFate_canon

theorem State.maskWrite_canon : ∀ s a mask w, State.Canon s → (State.maskWrite s a mask w).Canon := by
  intro s a mask w h; unfold State.maskWrite
  try simp only []
  repeat'
    first
    | with_reducible assumption | with_reducible refine State.canon_ite ?_ ?_
    | with_reducible refine State.foldl_canon (fun _ _ _ => ?_) ?_
    | with_reducible refine State.foldl_pair_canon (fun _ _ _ => ?_) ?_
    | (simp only [State.canon_mk_eq]; refine State.canon_mk ?_)

theorem State.tileCtrlFault_canon : ∀ s t, State.Canon s → (State.tileCtrlFault s t).Canon := by
  intro s t h; unfold State.tileCtrlFault
  try simp only []
  repeat'
    first
    | with_reducible assumption | with_reducible apply State.failNamed_canon
    | with_reducible apply State.markTileQuar_canon | with_reducible apply State.err_canon

theorem State.failRegion_canon : ∀ s r fate, State.Canon s → (State.failRegion s r fate).Canon := by
  intro s r fate h; unfold State.failRegion
  try simp only []
  repeat'
    first
    | with_reducible assumption | with_reducible apply State.failBarge_canon
    | with_reducible refine State.canon_ite ?_ ?_ | with_reducible refine State.foldl_canon (fun _ _ _ => ?_) ?_

theorem State.quarantine_canon : ∀ s r b, State.Canon s → (State.quarantine s r b).Canon := by
  intro s r b h; unfold State.quarantine
  try simp only []
  repeat'
    first
    | with_reducible assumption | with_reducible apply State.err_canon | with_reducible apply State.updRegion_canon
    | with_reducible apply State.mergeToWeir_canon | with_reducible apply State.failRegion_canon
    | with_reducible refine State.canon_ite ?_ ?_

theorem State.fatalRecord_canon : ∀ s page, State.Canon s → (State.fatalRecord s page).Canon := by
  intro s page h; unfold State.fatalRecord
  try simp only []
  repeat'
    first
    | with_reducible assumption | with_reducible apply State.extWrite_canon
    | with_reducible refine State.canon_ite ?_ ?_

theorem State.flagFatal_canon : ∀ s, State.Canon s → (State.flagFatal s).Canon := by
  intro s h; unfold State.flagFatal
  try simp only []
  repeat'
    first
    | with_reducible assumption | with_reducible apply State.err_canon | with_reducible apply State.raise_canon
    | with_reducible refine State.canon_ite ?_ ?_

theorem State.resetBy_canon : ∀ s src, State.Canon s → (State.resetBy s src).Canon := by
  intro s src h; unfold State.resetBy
  try simp only []
  repeat'
    first
    | with_reducible assumption | with_reducible apply State.takeHold_canon
    | with_reducible refine State.canon_ite ?_ ?_ | with_reducible refine State.foldl_canon (fun _ _ _ => ?_) ?_
    | with_reducible refine State.foldl_pair_canon (fun _ _ _ => ?_) ?_
    | (simp only [State.canon_mk_eq]; refine State.canon_mk ?_)

theorem State.fatal_canon : ∀ s page, State.Canon s → (State.fatal s page).Canon := by
  intro s page h
  unfold State.fatal
  have hd : s.drainHost.wf = true := by
    unfold State.drainHost
    generalize s.hq.dmaWrites.filter _ = l
    have := h.hostMem
    revert this
    generalize s.hostMem = m
    induction l generalizing m with
    | nil => exact id
    | cons w l ih => exact fun hm => ih _ (Mem.wf_write _ _ _ hm)
  have h2 : ({ s with hostMem := s.drainHost, hq := { s.hq with dmaWrites := [], irqWait := [] } } : State).Canon := by
    simp only [State.canon_mk_eq]
    exact State.canon_mk h (h_hostMem := fun _ => hd)
  simp only []
  have h3 := State.flagFatal_canon _ (State.setRegN_canon _ pERR 0xF30 (256 + page) (State.fatalRecord_canon _ page h2))
  refine State.canon_ite (State.resetBy_canon _ _ h3) ?_
  simp only [State.canon_mk_eq]
  exact State.canon_mk h3

theorem State.ctrlFault_canon : ∀ s a, State.Canon s → (State.ctrlFault s a).Canon := by
  intro s a h; unfold State.ctrlFault
  try simp only []
  repeat'
    first
    | with_reducible assumption | with_reducible apply State.tileCtrlFault_canon
    | with_reducible apply State.quarantine_canon | with_reducible apply State.fatal_canon
    | with_reducible refine State.canon_ite ?_ ?_ | with_reducible refine State.foldl_canon (fun _ _ _ => ?_) ?_
    | with_reducible refine State.foldl_pair_canon (fun _ _ _ => ?_) ?_
    | (simp only [State.canon_mk_eq]; refine State.canon_mk ?_) | split

theorem State.arm_canon : ∀ s page w, State.Canon s → (State.arm s page w).Canon := by
  intro s page w h; unfold State.arm
  try simp only []
  repeat'
    first
    | with_reducible assumption | with_reducible apply State.updPort_canon | with_reducible apply State.ctrlFault_canon
    | with_reducible apply State.count_canon | with_reducible refine State.canon_ite ?_ ?_
    | with_reducible refine State.foldl_canon (fun _ _ _ => ?_) ?_
    | with_reducible refine State.foldl_pair_canon (fun _ _ _ => ?_) ?_
    | (simp only [State.canon_mk_eq]; refine State.canon_mk ?_) | split

theorem State.errInject_canon : ∀ s page w, State.Canon s → (State.errInject s page w).Canon := by
  intro s page w h; unfold State.errInject
  try simp only []
  repeat'
    first
    | with_reducible assumption | with_reducible apply State.arm_canon | with_reducible refine State.canon_ite ?_ ?_

theorem State.injectAs_canon : ∀ s ty page w, State.Canon s → (State.injectAs s ty page w).Canon := by
  intro s ty page w h; unfold State.injectAs
  try simp only []
  repeat'
    first
    | with_reducible assumption | with_reducible apply State.errInject_canon
    | with_reducible refine State.canon_ite ?_ ?_

theorem State.updStart_canon : ∀ s step, State.Canon s → (State.updStart s step).Canon := by
  intro s step h; unfold State.updStart
  try simp only []
  repeat'
    first
    | with_reducible assumption | with_reducible apply State.setRegN_canon
    | with_reducible apply State.writeWeir_canon | with_reducible refine State.canon_ite ?_ ?_
    | with_reducible refine State.foldl_canon (fun _ _ _ => ?_) ?_
    | with_reducible refine State.foldl_pair_canon (fun _ _ _ => ?_) ?_
    | (simp only [State.canon_mk_eq]; refine State.canon_mk ?_)

theorem State.endPending_canon : ∀ s page, State.Canon s → (State.endPending s page).Canon := by
  intro s page h; unfold State.endPending
  try simp only []
  repeat'
    first
    | with_reducible assumption | with_reducible apply State.setRegN_canon
    | with_reducible refine State.canon_ite ?_ ?_ | with_reducible refine State.foldl_canon (fun _ _ _ => ?_) ?_
    | with_reducible refine State.foldl_pair_canon (fun _ _ _ => ?_) ?_
    | (simp only [State.canon_mk_eq]; refine State.canon_mk ?_)

theorem State.journalInit_canon : ∀ s, State.Canon s → (State.journalInit s).Canon := by
  intro s h; unfold State.journalInit
  try simp only []
  repeat'
    first
    | with_reducible assumption | with_reducible apply State.extClear_canon
    | with_reducible apply State.extWrite_canon | with_reducible refine State.canon_ite ?_ ?_
    | with_reducible refine State.foldl_canon (fun _ _ _ => ?_) ?_
    | with_reducible refine State.foldl_pair_canon (fun _ _ _ => ?_) ?_
    | (simp only [State.canon_mk_eq]; refine State.canon_mk ?_)

theorem State.resumeHeads_canon : ∀ s, State.Canon s → (State.resumeHeads s).Canon := by
  intro s h; unfold State.resumeHeads
  try simp only []
  repeat'
    first
    | with_reducible assumption | with_reducible apply State.setSq_canon
    | with_reducible refine State.canon_ite ?_ ?_ | with_reducible refine State.foldl_canon (fun _ _ _ => ?_) ?_

theorem State.recoverEntry_canon : ∀ s j, State.Canon s → (State.recoverEntry s j).Canon := by
  intro s j h; unfold State.recoverEntry
  try simp only []
  repeat'
    first
    | with_reducible assumption | with_reducible apply State.extPutNat_canon
    | with_reducible apply State.dupFate_canon | with_reducible apply State.queueRec_canon
    | with_reducible apply State.recoverBad_canon | with_reducible apply State.count_canon
    | with_reducible apply State.noteFate_canon | with_reducible refine State.canon_ite ?_ ?_

theorem State.reloadFatal_canon : ∀ s, State.Canon s → (State.reloadFatal s).Canon := by
  intro s h; unfold State.reloadFatal
  try simp only []
  repeat'
    first
    | with_reducible assumption | with_reducible apply State.setRegN_canon

theorem State.journalRecover_canon : ∀ s, State.Canon s → (State.journalRecover s).Canon := by
  intro s h; unfold State.journalRecover
  try simp only []
  repeat'
    first
    | with_reducible assumption | with_reducible apply State.resumeHeads_canon
    | with_reducible apply State.recoverEntry_canon | with_reducible apply State.reloadFatal_canon
    | with_reducible refine State.canon_ite ?_ ?_ | with_reducible refine State.foldl_canon (fun _ _ _ => ?_) ?_
    | with_reducible refine State.foldl_pair_canon (fun _ _ _ => ?_) ?_
    | (simp only [State.canon_mk_eq]; refine State.canon_mk ?_)

theorem State.setMaint_canon : ∀ s, State.Canon s → (State.setMaint s).Canon := by
  intro s h; unfold State.setMaint
  try simp only []
  repeat'
    first
    | with_reducible assumption | with_reducible apply State.enterMaint_canon
    | with_reducible refine State.canon_ite ?_ ?_ | with_reducible refine State.foldl_canon (fun _ _ _ => ?_) ?_
    | with_reducible refine State.foldl_pair_canon (fun _ _ _ => ?_) ?_
    | (simp only [State.canon_mk_eq]; refine State.canon_mk ?_)

theorem State.startQueues_canon : ∀ s old, State.Canon s → (State.startQueues s old).Canon := by
  intro s old h; unfold State.startQueues
  try simp only []
  repeat'
    first
    | with_reducible assumption | with_reducible apply State.setCq_canon | with_reducible apply State.setSq_canon
    | with_reducible refine State.canon_ite ?_ ?_ | with_reducible refine State.foldl_canon (fun _ _ _ => ?_) ?_

theorem State.hqEffect_canon : ∀ s old, State.Canon s → (State.hqEffect s old).Canon := by
  intro s old h; unfold State.hqEffect
  try simp only []
  repeat'
    first
    | with_reducible assumption | with_reducible apply State.journalInit_canon
    | with_reducible apply State.journalRecover_canon | with_reducible apply State.setMaint_canon
    | with_reducible apply State.startQueues_canon | with_reducible refine State.canon_ite ?_ ?_
    | with_reducible refine State.foldl_canon (fun _ _ _ => ?_) ?_
    | with_reducible refine State.foldl_pair_canon (fun _ _ _ => ?_) ?_
    | (simp only [State.canon_mk_eq]; refine State.canon_mk ?_)

theorem State.dropMooring_canon : ∀ s m, State.Canon s → (State.dropMooring s m).Canon := by
  intro s m h; unfold State.dropMooring
  try simp only []
  repeat'
    first
    | with_reducible assumption | with_reducible apply State.updRegion_canon
    | with_reducible refine State.canon_ite ?_ ?_ | with_reducible refine State.foldl_canon (fun _ _ _ => ?_) ?_

theorem State.moorEffect_canon : ∀ s old m, State.Canon s → (State.moorEffect s old m).Canon := by
  intro s old m h; unfold State.moorEffect
  try simp only []
  repeat'
    first
    | with_reducible assumption | with_reducible apply State.dropMooring_canon
    | with_reducible apply State.updMooring_canon | with_reducible refine State.canon_ite ?_ ?_

theorem State.lkpEffect_canon : ∀ s old, State.Canon s → (State.lkpEffect s old).Canon := by
  intro s old h; unfold State.lkpEffect
  try simp only []
  repeat'
    first
    | with_reducible assumption | with_reducible apply State.moorEffect_canon
    | with_reducible apply State.updMooring_canon | with_reducible refine State.canon_ite ?_ ?_
    | with_reducible refine State.foldl_canon (fun _ _ _ => ?_) ?_

theorem State.loadAccounts_canon : ∀ s, State.Canon s → (State.loadAccounts s).Canon := by
  intro s h; unfold State.loadAccounts
  try simp only []
  repeat'
    first
    | with_reducible assumption | with_reducible apply State.updAccount_canon
    | with_reducible refine State.canon_ite ?_ ?_ | with_reducible refine State.foldl_canon (fun _ _ _ => ?_) ?_

theorem State.tollEffect_canon : ∀ s old, State.Canon s → (State.tollEffect s old).Canon := by
  intro s old h; unfold State.tollEffect
  try simp only []
  repeat'
    first
    | with_reducible assumption | with_reducible apply State.loadAccounts_canon
    | with_reducible apply State.noteDefers_canon | with_reducible refine State.canon_ite ?_ ?_
    | with_reducible refine State.foldl_canon (fun _ _ _ => ?_) ?_
    | with_reducible refine State.foldl_pair_canon (fun _ _ _ => ?_) ?_
    | (simp only [State.canon_mk_eq]; refine State.canon_mk ?_)

theorem State.readHeader_canon : ∀ s m, State.Canon s → (State.readHeader s m).Canon := by
  intro s m h; unfold State.readHeader
  try simp only []
  repeat'
    first
    | with_reducible assumption | with_reducible apply State.updMooring_canon | with_reducible apply State.err_canon
    | with_reducible refine State.canon_ite ?_ ?_

theorem State.spdEffect_canon : ∀ s old, State.Canon s → (State.spdEffect s old).Canon := by
  intro s old h; unfold State.spdEffect
  try simp only []
  repeat'
    first
    | with_reducible assumption | with_reducible apply State.readHeader_canon
    | with_reducible refine State.canon_ite ?_ ?_ | with_reducible refine State.foldl_canon (fun _ _ _ => ?_) ?_

theorem State.rowClear_canon : ∀ s, State.Canon s → (State.rowClear s).Canon := by
  intro s h; unfold State.rowClear
  try simp only []
  repeat'
    first
    | with_reducible assumption | with_reducible apply State.extClear_canon
    | with_reducible refine State.canon_ite ?_ ?_ | with_reducible refine State.foldl_canon (fun _ _ _ => ?_) ?_
    | with_reducible refine State.foldl_pair_canon (fun _ _ _ => ?_) ?_
    | (simp only [State.canon_mk_eq]; refine State.canon_mk ?_)

theorem State.adoptEntry_canon : ∀ s e, State.Canon s → (State.adoptEntry s e).Canon := by
  intro s e h; unfold State.adoptEntry
  try simp only []
  repeat'
    first
    | with_reducible assumption | with_reducible apply State.extPutNat_canon
    | with_reducible apply State.sendNotices_canon | with_reducible refine State.canon_ite ?_ ?_
    | with_reducible refine State.foldl_canon (fun _ _ _ => ?_) ?_
    | with_reducible refine State.foldl_pair_canon (fun _ _ _ => ?_) ?_
    | (simp only [State.canon_mk_eq]; refine State.canon_mk ?_) | split

theorem State.rowAdopt_canon : ∀ s, State.Canon s → (State.rowAdopt s).Canon := by
  intro s h; unfold State.rowAdopt
  try simp only []
  repeat'
    first
    | with_reducible assumption | with_reducible apply State.adoptEntry_canon
    | with_reducible refine State.canon_ite ?_ ?_ | with_reducible refine State.foldl_canon (fun _ _ _ => ?_) ?_
    | with_reducible refine State.foldl_pair_canon (fun _ _ _ => ?_) ?_
    | (simp only [State.canon_mk_eq]; refine State.canon_mk ?_)

theorem State.rowEffect_canon : ∀ s old, State.Canon s → (State.rowEffect s old).Canon := by
  intro s old h; unfold State.rowEffect
  try simp only []
  repeat'
    first
    | with_reducible assumption | with_reducible apply State.rowClear_canon
    | with_reducible apply State.rowAdopt_canon | with_reducible apply State.setMig_canon
    | with_reducible refine State.canon_ite ?_ ?_ | with_reducible refine State.foldl_canon (fun _ _ _ => ?_) ?_
    | with_reducible refine State.foldl_pair_canon (fun _ _ _ => ?_) ?_
    | (simp only [State.canon_mk_eq]; refine State.canon_mk ?_)

theorem State.gsuEffect_canon : ∀ s old, State.Canon s → (State.gsuEffect s old).Canon := by
  intro s old h; unfold State.gsuEffect
  try simp only []
  repeat'
    first
    | with_reducible assumption | with_reducible apply State.updRegion_canon
    | with_reducible refine State.canon_ite ?_ ?_ | with_reducible refine State.foldl_canon (fun _ _ _ => ?_) ?_

theorem State.updReset_canon : ∀ s, State.Canon s → (State.updReset s).Canon := by
  intro s h; unfold State.updReset
  try simp only []
  repeat'
    first
    | with_reducible assumption | with_reducible apply State.updStart_canon
    | with_reducible refine State.canon_ite ?_ ?_ | with_reducible refine State.foldl_canon (fun _ _ _ => ?_) ?_
    | with_reducible refine State.foldl_pair_canon (fun _ _ _ => ?_) ?_
    | (simp only [State.canon_mk_eq]; refine State.canon_mk ?_)

theorem State.updRecover_canon : ∀ s, State.Canon s → (State.updRecover s).Canon := by
  intro s h; unfold State.updRecover
  try simp only []
  repeat'
    first
    | with_reducible assumption | with_reducible apply State.updStart_canon | with_reducible apply State.err_canon
    | with_reducible apply State.setRegN_canon | with_reducible refine State.canon_ite ?_ ?_
    | with_reducible refine State.foldl_canon (fun _ _ _ => ?_) ?_
    | with_reducible refine State.foldl_pair_canon (fun _ _ _ => ?_) ?_
    | (simp only [State.canon_mk_eq]; refine State.canon_mk ?_) | split

theorem State.updEffect_canon : ∀ s old, State.Canon s → (State.updEffect s old).Canon := by
  intro s old h; unfold State.updEffect
  try simp only []
  repeat'
    first
    | with_reducible assumption | with_reducible apply State.updReset_canon
    | with_reducible apply State.updRecover_canon | with_reducible refine State.canon_ite ?_ ?_
    | with_reducible refine State.foldl_canon (fun _ _ _ => ?_) ?_
    | with_reducible refine State.foldl_pair_canon (fun _ _ _ => ?_) ?_
    | (simp only [State.canon_mk_eq]; refine State.canon_mk ?_)

theorem State.portEffect_canon : ∀ s n, State.Canon s → (State.portEffect s n).Canon := by
  intro s n h; unfold State.portEffect
  try simp only []
  repeat'
    first
    | with_reducible assumption | with_reducible apply State.setPort_canon
    | with_reducible refine State.canon_ite ?_ ?_

theorem State.fabEffect_canon : ∀ s, State.Canon s → (State.fabEffect s).Canon := by
  intro s h; unfold State.fabEffect
  try simp only []
  repeat'
    first
    | with_reducible assumption | with_reducible apply State.setRegN_canon
    | with_reducible apply State.portEffect_canon | with_reducible refine State.canon_ite ?_ ?_
    | with_reducible refine State.foldl_canon (fun _ _ _ => ?_) ?_

theorem State.colEffect_canon : ∀ s, State.Canon s → (State.colEffect s).Canon := by
  intro s h; unfold State.colEffect
  try simp only []
  repeat'
    first
    | with_reducible assumption | with_reducible refine State.canon_ite ?_ ?_
    | with_reducible refine State.foldl_canon (fun _ _ _ => ?_) ?_
    | with_reducible refine State.foldl_pair_canon (fun _ _ _ => ?_) ?_
    | (simp only [State.canon_mk_eq]; refine State.canon_mk ?_)

theorem State.pwrEffect_canon : ∀ s, State.Canon s → (State.pwrEffect s).Canon := by
  intro s h; unfold State.pwrEffect
  try simp only []
  repeat'
    first
    | with_reducible assumption | with_reducible apply State.idle_canon
    | with_reducible refine State.canon_ite ?_ ?_ | with_reducible refine State.foldl_canon (fun _ _ _ => ?_) ?_

theorem State.regionEffect_canon : ∀ s old r, State.Canon s → (State.regionEffect s old r).Canon := by
  intro s old r h; unfold State.regionEffect
  try simp only []
  repeat'
    first
    | with_reducible assumption | with_reducible apply State.updRegion_canon
    | with_reducible refine State.canon_ite ?_ ?_

theorem State.pageEffect_canon : ∀ s old page, State.Canon s → (State.pageEffect s old page).Canon := by
  intro s old page h; unfold State.pageEffect
  try simp only []
  repeat'
    first
    | with_reducible assumption | with_reducible apply State.hqEffect_canon
    | with_reducible apply State.lkpEffect_canon | with_reducible apply State.tollEffect_canon
    | with_reducible apply State.spdEffect_canon | with_reducible apply State.rowEffect_canon
    | with_reducible apply State.gsuEffect_canon | with_reducible apply State.updEffect_canon
    | with_reducible apply State.fabEffect_canon | with_reducible apply State.colEffect_canon
    | with_reducible apply State.pwrEffect_canon | with_reducible apply State.regionEffect_canon
    | with_reducible refine State.canon_ite ?_ ?_

theorem State.activate_canon : ∀ s page, State.Canon s → (State.activate s page).Canon := by
  intro s page h; unfold State.activate
  try simp only []
  repeat'
    first
    | with_reducible assumption | with_reducible apply State.endPending_canon
    | with_reducible apply State.setReg_canon | with_reducible apply State.pageEffect_canon
    | with_reducible apply State.noteBank_canon | with_reducible refine State.canon_ite ?_ ?_
    | with_reducible refine State.foldl_canon (fun _ _ _ => ?_) ?_
    | with_reducible refine State.foldl_pair_canon (fun _ _ _ => ?_) ?_
    | (simp only [State.canon_mk_eq]; refine State.canon_mk ?_)

theorem State.failBerthRow_canon : ∀ s n fate, State.Canon s → (State.failBerthRow s n fate).Canon := by
  intro s n fate h; unfold State.failBerthRow
  try simp only []
  repeat'
    first
    | with_reducible assumption | with_reducible apply State.failRowOf_canon | with_reducible apply State.endRequest_canon
    | with_reducible refine State.canon_ite ?_ ?_ | with_reducible refine State.foldl_canon (fun _ _ _ => ?_) ?_
    | with_reducible refine State.foldl_pair_canon (fun _ _ _ => ?_) ?_
    | (simp only [State.canon_mk_eq]; refine State.canon_mk ?_) | split

theorem State.imemNext_canon : ∀ s, State.Canon s → (State.imemNext s).Canon := by
  intro s h; unfold State.imemNext
  try simp only []
  repeat'
    first
    | with_reducible assumption | with_reducible apply State.setRegN_canon

theorem State.imemWrite_canon : ∀ s w, State.Canon s → (State.imemWrite s w).Canon := by
  intro s w h; unfold State.imemWrite
  try simp only []
  repeat'
    first
    | with_reducible assumption | with_reducible apply State.imemNext_canon
    | with_reducible refine State.canon_ite ?_ ?_ | with_reducible refine State.foldl_canon (fun _ _ _ => ?_) ?_
    | with_reducible refine State.foldl_pair_canon (fun _ _ _ => ?_) ?_
    | (simp only [State.canon_mk_eq]; refine State.canon_mk ?_)

theorem State.peekWrite_canon : ∀ s w, State.Canon s → (State.peekWrite s w).Canon := by
  intro s w h; unfold State.peekWrite; simp only []
  refine State.canon_ite h ?_
  have h1 := State.setReg_canon s pDBG 0x060 (w &&& 0x87FF0000) h
  refine State.canon_ite h1 ?_
  cases State.peekRegion _ with
  | none => exact h1
  | some r => exact State.wake_canon _ _ h1

theorem State.tryPlank_canon : ∀ s page, State.Canon s → (State.tryPlank s page).Canon := by
  intro s page h; unfold State.tryPlank
  try simp only []
  repeat'
    first
    | with_reducible assumption | with_reducible apply State.setReg_canon
    | with_reducible refine State.canon_ite ?_ ?_

theorem tick_canon : ∀ s, State.Canon s → (tick s).Canon := by
  intro s h; unfold tick
  try simp only []
  repeat'
    first
    | with_reducible assumption | with_reducible refine State.canon_ite ?_ ?_
    | with_reducible refine State.foldl_canon (fun _ _ _ => ?_) ?_
    | with_reducible refine State.foldl_pair_canon (fun _ _ _ => ?_) ?_
    | (simp only [State.canon_mk_eq]; refine State.canon_mk ?_)

theorem State.rejectBank_canon : ∀ s page reason ofs, State.Canon s → (State.rejectBank s page reason ofs).Canon := by
  intro s page reason ofs h; unfold State.rejectBank
  try simp only []
  repeat'
    first
    | with_reducible assumption | with_reducible apply State.endPending_canon
    | with_reducible apply State.setRegN_canon | with_reducible apply State.noteBank_canon
    | with_reducible refine State.canon_ite ?_ ?_ | with_reducible refine State.foldl_canon (fun _ _ _ => ?_) ?_
    | with_reducible refine State.foldl_pair_canon (fun _ _ _ => ?_) ?_
    | (simp only [State.canon_mk_eq]; refine State.canon_mk ?_)

theorem State.noteChecks_canon : ∀ s page, State.Canon s → (State.noteChecks s page).Canon := by
  intro s page h; unfold State.noteChecks
  try simp only []
  repeat'
    first
    | with_reducible assumption | with_reducible apply State.err_canon | with_reducible refine State.canon_ite ?_ ?_

theorem State.atBank_canon : ∀ s page, State.Canon s → (State.atBank s page).Canon := by
  intro s page h; unfold State.atBank
  try simp only []
  repeat'
    first
    | with_reducible assumption | with_reducible apply State.rejectBank_canon | with_reducible apply State.activate_canon
    | with_reducible refine State.canon_ite ?_ ?_ | with_reducible refine State.foldl_canon (fun _ _ _ => ?_) ?_
    | with_reducible refine State.foldl_pair_canon (fun _ _ _ => ?_) ?_
    | (simp only [State.canon_mk_eq]; refine State.canon_mk ?_) | split

theorem State.tryEffect_canon : ∀ s page, State.Canon s → (State.tryEffect s page).Canon := by
  intro s page h; unfold State.tryEffect
  try simp only []
  repeat'
    first
    | with_reducible assumption | with_reducible apply State.atBank_canon
    | with_reducible refine State.canon_ite ?_ ?_

theorem State.pendBank_canon : ∀ s page, State.Canon s → (State.pendBank s page).Canon := by
  intro s page h; unfold State.pendBank
  try simp only []
  repeat'
    first
    | with_reducible assumption | with_reducible apply State.setRegN_canon
    | with_reducible apply State.tryEffect_canon | with_reducible refine State.canon_ite ?_ ?_
    | with_reducible refine State.foldl_canon (fun _ _ _ => ?_) ?_
    | with_reducible refine State.foldl_pair_canon (fun _ _ _ => ?_) ?_
    | (simp only [State.canon_mk_eq]; refine State.canon_mk ?_)

theorem State.commit_canon : ∀ s page seq, State.Canon s → (State.commit s page seq).Canon := by
  intro s page seq h; unfold State.commit
  try simp only []
  repeat'
    first
    | with_reducible assumption | with_reducible apply State.setReg_canon | with_reducible apply State.rejectBank_canon
    | with_reducible apply State.noteChecks_canon | with_reducible apply State.pendBank_canon
    | with_reducible refine State.canon_ite ?_ ?_ | with_reducible refine State.foldl_canon (fun _ _ _ => ?_) ?_
    | with_reducible refine State.foldl_pair_canon (fun _ _ _ => ?_) ?_
    | (simp only [State.canon_mk_eq]; refine State.canon_mk ?_) | split

theorem State.peekResult_canon : ∀ s status bs, State.Canon s → (State.peekResult s status bs).Canon := by
  intro s status bs h; unfold State.peekResult
  try simp only []
  repeat'
    first
    | with_reducible assumption | with_reducible apply State.setRegN_canon | with_reducible apply State.setReg_canon
    | with_reducible refine State.canon_ite ?_ ?_ | with_reducible refine State.foldl_canon (fun _ _ _ => ?_) ?_

theorem State.peekWord_canon : ∀ s st, State.Canon s → (State.peekWord s st).Canon := by
  intro s st h; unfold State.peekWord
  try simp only []
  repeat'
    first
    | with_reducible assumption | with_reducible apply State.see_canon | with_reducible apply State.peekResult_canon
    | with_reducible apply State.failNamed_canon | with_reducible apply State.accessDone_canon
    | with_reducible refine State.canon_ite ?_ ?_ | with_reducible refine State.foldl_canon (fun _ _ _ => ?_) ?_
    | with_reducible refine State.foldl_pair_canon (fun _ _ _ => ?_) ?_
    | (simp only [State.canon_mk_eq]; refine State.canon_mk ?_) | split

theorem State.regErr_canon : ∀ s, State.Canon s → (State.regErr s).Canon := by
  intro s h; unfold State.regErr
  try simp only []
  repeat'
    first
    | with_reducible assumption | with_reducible apply State.count_canon

theorem State.clearRead_canon : ∀ s a, State.Canon s → (State.clearRead s a).Canon := by
  intro s a h; unfold State.clearRead
  try simp only []
  repeat'
    first
    | with_reducible assumption | with_reducible apply State.updMooring_canon
    | with_reducible apply State.updPort_canon | with_reducible apply State.setReg_canon
    | with_reducible refine State.canon_ite ?_ ?_ | with_reducible refine State.foldl_canon (fun _ _ _ => ?_) ?_
    | with_reducible refine State.foldl_pair_canon (fun _ _ _ => ?_) ?_
    | (simp only [State.canon_mk_eq]; refine State.canon_mk ?_)

theorem State.afterRead_canon : ∀ s a, State.Canon s → (State.afterRead s a).Canon := by
  intro s a h; unfold State.afterRead
  try simp only []
  repeat'
    first
    | with_reducible assumption | with_reducible apply State.clearRead_canon
    | with_reducible apply State.imemNext_canon | with_reducible refine State.canon_ite ?_ ?_

theorem State.towRead_canon : ∀ s a, State.Canon s → (State.towRead s a).2.2.Canon := by
  intro s a h; unfold State.towRead
  try simp only []
  repeat'
    first
    | with_reducible assumption | with_reducible apply State.regErr_canon | with_reducible apply State.afterRead_canon
    | with_reducible refine State.canon_ite ?_ ?_ | with_reducible refine State.foldl_canon (fun _ _ _ => ?_) ?_
    | with_reducible refine State.foldl_pair_canon (fun _ _ _ => ?_) ?_
    | (simp only [State.canon_mk_eq]; refine State.canon_mk ?_) | split

theorem State.zeroCounters_canon : ∀ s page os, State.Canon s → (State.zeroCounters s page os).Canon := by
  intro s page os h; unfold State.zeroCounters
  try simp only []
  repeat'
    first
    | with_reducible assumption | with_reducible apply State.setReg_canon
    | with_reducible refine State.canon_ite ?_ ?_ | with_reducible refine State.foldl_canon (fun _ _ _ => ?_) ?_

theorem State.kick_canon : ∀ s w, State.Canon s → (State.kick s w).Canon := by
  intro s w h; unfold State.kick
  try simp only []
  repeat'
    first
    | with_reducible assumption | with_reducible refine State.canon_ite ?_ ?_
    | with_reducible refine State.foldl_canon (fun _ _ _ => ?_) ?_
    | with_reducible refine State.foldl_pair_canon (fun _ _ _ => ?_) ?_
    | (simp only [State.canon_mk_eq]; refine State.canon_mk ?_)

theorem State.bankWrite_canon : ∀ s page o bank mask w, State.Canon s → (State.bankWrite s page o bank mask w).Canon := by
  intro s page o bank mask w h; unfold State.bankWrite
  try simp only []
  repeat'
    first
    | with_reducible assumption | with_reducible apply State.maskWrite_canon
    | with_reducible refine State.canon_ite ?_ ?_

theorem State.keeperStart_canon : ∀ s, State.Canon s → (State.keeperStart s).Canon := by
  intro s h; unfold State.keeperStart
  try simp only []
  repeat'
    first
    | with_reducible assumption | with_reducible apply State.runImageCheck_canon
    | with_reducible refine State.canon_ite ?_ ?_

theorem State.setIsolate_canon : ∀ s page, State.Canon s → (State.setIsolate s page).Canon := by
  intro s page h; unfold State.setIsolate
  try simp only []
  repeat'
    first
    | with_reducible assumption | with_reducible apply State.setReg_canon
    | with_reducible apply State.mergeToWeir_canon | with_reducible apply State.tryPlank_canon
    | with_reducible refine State.canon_ite ?_ ?_

theorem State.clearIsolate_canon : ∀ s page, State.Canon s → (State.clearIsolate s page).Canon := by
  intro s page h; unfold State.clearIsolate
  try simp only []
  repeat'
    first
    | with_reducible assumption | with_reducible apply State.setReg_canon
    | with_reducible apply State.sendWaiting_canon | with_reducible apply State.idle_canon
    | with_reducible refine State.canon_ite ?_ ?_

theorem State.dropSram_canon : ∀ s r, State.Canon s → (State.dropSram s r).Canon := by
  intro s r h
  unfold State.dropSram
  simp only [State.canon_mk_eq]
  exact State.canon_mk (State.updRegion_canon _ _ _ h) (h_pool := fun h => SMap.wf_sublist _ _ _ List.filter_sublist h.pool) (h_scratch := fun h => SMap.wf_sublist _ _ _ List.filter_sublist h.scratch) (h_marks := fun h => SMap.wf_sublist _ _ _ List.filter_sublist h.marks)

theorem State.setClkGood_canon : ∀ s c b, State.Canon s → (State.setClkGood s c b).Canon := by
  intro s c b h; unfold State.setClkGood
  try simp only []
  repeat'
    first
    | with_reducible assumption | with_reducible apply State.setRegN_canon

theorem State.unlock_canon : ∀ s c, State.Canon s → (State.unlock s c).Canon := by
  intro s c h; unfold State.unlock
  try simp only []
  repeat'
    first
    | with_reducible assumption | with_reducible apply State.setClkGood_canon
    | with_reducible refine State.canon_ite ?_ ?_ | with_reducible refine State.foldl_canon (fun _ _ _ => ?_) ?_
    | with_reducible refine State.foldl_pair_canon (fun _ _ _ => ?_) ?_
    | (simp only [State.canon_mk_eq]; refine State.canon_mk ?_)

theorem State.regionOff_canon : ∀ s r, State.Canon s → (State.regionOff s r).Canon := by
  intro s r h; unfold State.regionOff
  try simp only []
  repeat'
    first
    | with_reducible assumption | with_reducible apply State.dropSram_canon
    | with_reducible apply State.unlock_canon | with_reducible apply State.mergeToWeir_canon
    | with_reducible apply State.updRegion_canon

theorem State.clearTile_canon : ∀ s t, State.Canon s → (State.clearTile s t).Canon := by
  intro s t h; unfold State.clearTile
  try simp only []
  repeat'
    first
    | with_reducible assumption | with_reducible apply State.zeroCounters_canon
    | with_reducible apply State.setTileQuar_canon | with_reducible refine State.canon_ite ?_ ?_
    | with_reducible refine State.foldl_canon (fun _ _ _ => ?_) ?_
    | with_reducible refine State.foldl_pair_canon (fun _ _ _ => ?_) ?_
    | (simp only [State.canon_mk_eq]; refine State.canon_mk ?_)

theorem State.blockReset_canon : ∀ s page, State.Canon s → (State.blockReset s page).Canon := by
  intro s page h; unfold State.blockReset
  try simp only []
  repeat'
    first
    | with_reducible assumption | with_reducible apply State.linkDown_canon
    | with_reducible apply State.regionOff_canon | with_reducible apply State.clearTile_canon
    | with_reducible apply State.zeroCounters_canon | with_reducible apply State.updRegion_canon
    | with_reducible refine State.canon_ite ?_ ?_ | with_reducible refine State.foldl_canon (fun _ _ _ => ?_) ?_

theorem State.requestReset_canon : ∀ s page, State.Canon s → (State.requestReset s page).Canon := by
  intro s page h; unfold State.requestReset
  try simp only []
  repeat'
    first
    | with_reducible assumption | with_reducible apply State.blockReset_canon | with_reducible apply State.err_canon
    | with_reducible apply State.setRegN_canon | with_reducible refine State.canon_ite ?_ ?_

theorem State.ctrlWrite_canon : ∀ s page w, State.Canon s → (State.ctrlWrite s page w).Canon := by
  intro s page w h; unfold State.ctrlWrite
  try simp only []
  repeat'
    first
    | with_reducible assumption | with_reducible apply State.keeperStart_canon
    | with_reducible apply State.setIsolate_canon | with_reducible apply State.clearIsolate_canon
    | with_reducible apply State.requestReset_canon | with_reducible refine State.canon_ite ?_ ?_

theorem State.writeWdt_canon : ∀ s w, State.Canon s → (State.writeWdt s w).Canon := by
  intro s w h; unfold State.writeWdt
  try simp only []
  repeat'
    first
    | with_reducible assumption | with_reducible apply State.setReg_canon
    | with_reducible refine State.canon_ite ?_ ?_ | with_reducible refine State.foldl_canon (fun _ _ _ => ?_) ?_
    | with_reducible refine State.foldl_pair_canon (fun _ _ _ => ?_) ?_
    | (simp only [State.canon_mk_eq]; refine State.canon_mk ?_)

theorem State.stepSeven_canon : ∀ s, State.Canon s → (State.stepSeven s).Canon := by
  intro s h; unfold State.stepSeven
  try simp only []
  repeat'
    first
    | with_reducible assumption | with_reducible refine State.canon_ite ?_ ?_
    | with_reducible refine State.foldl_canon (fun _ _ _ => ?_) ?_
    | with_reducible refine State.foldl_pair_canon (fun _ _ _ => ?_) ?_
    | (simp only [State.canon_mk_eq]; refine State.canon_mk ?_)

theorem State.peekEnd_canon : ∀ s, State.Canon s → (State.peekEnd s).Canon := by
  intro s h; unfold State.peekEnd
  try simp only []
  repeat'
    first
    | with_reducible assumption | with_reducible apply State.peekResult_canon | with_reducible apply State.err_canon
    | with_reducible apply State.peekWord_canon | with_reducible refine State.canon_ite ?_ ?_
    | with_reducible refine State.foldl_canon (fun _ _ _ => ?_) ?_
    | with_reducible refine State.foldl_pair_canon (fun _ _ _ => ?_) ?_
    | (simp only [State.canon_mk_eq]; refine State.canon_mk ?_) | split

theorem State.w1c_canon : ∀ s a mask w, State.Canon s → (State.w1c s a mask w).Canon := by
  intro s a mask w h; unfold State.w1c
  try simp only []
  repeat'
    first
    | with_reducible assumption | with_reducible refine State.canon_ite ?_ ?_
    | with_reducible refine State.foldl_canon (fun _ _ _ => ?_) ?_
    | with_reducible refine State.foldl_pair_canon (fun _ _ _ => ?_) ?_
    | (simp only [State.canon_mk_eq]; refine State.canon_mk ?_)

theorem State.loseVbak_canon : ∀ s, State.Canon s → (State.loseVbak s).Canon := by
  intro s h
  unfold State.loseVbak
  simp only [State.canon_mk_eq]
  exact State.canon_mk h (h_regs := fun h => SMap.wf_sublist _ _ _ List.filter_sublist h.regs)

theorem State.countWake_canon : ∀ s p, State.Canon s → (State.countWake s p).Canon := by
  intro s p h; unfold State.countWake
  try simp only []
  repeat'
    first
    | with_reducible assumption | with_reducible apply State.count_canon
    | with_reducible refine State.canon_ite ?_ ?_ | with_reducible refine State.foldl_canon (fun _ _ _ => ?_) ?_
    | with_reducible refine State.foldl_pair_canon (fun _ _ _ => ?_) ?_
    | (simp only [State.canon_mk_eq]; refine State.canon_mk ?_)

theorem State.wakeDone_canon : ∀ s r, State.Canon s → (State.wakeDone s r).Canon := by
  intro s r h; unfold State.wakeDone
  try simp only []
  repeat'
    first
    | with_reducible assumption | with_reducible apply State.countWake_canon | with_reducible apply State.updRegion_canon
    | with_reducible apply State.quarantine_canon | with_reducible apply State.err_canon
    | with_reducible apply State.tryStart_canon | with_reducible apply State.accessDone_canon
    | with_reducible refine State.canon_ite ?_ ?_ | with_reducible refine State.foldl_canon (fun _ _ _ => ?_) ?_
    | with_reducible refine State.foldl_pair_canon (fun _ _ _ => ?_) ?_
    | (simp only [State.canon_mk_eq]; refine State.canon_mk ?_) | split

theorem State.swReset_canon : ∀ s w, State.Canon s → (State.swReset s w).Canon := by
  intro s w h; unfold State.swReset
  try simp only []
  repeat'
    first
    | with_reducible assumption | with_reducible apply State.resetBy_canon
    | with_reducible refine State.canon_ite ?_ ?_

theorem State.stepFive_canon : ∀ s, State.Canon s → (State.stepFive s).Canon := by
  intro s h; unfold State.stepFive
  try simp only []
  repeat'
    first
    | with_reducible assumption | with_reducible apply State.runImageCheck_canon
    | with_reducible refine State.canon_ite ?_ ?_ | with_reducible refine State.foldl_canon (fun _ _ _ => ?_) ?_
    | with_reducible refine State.foldl_pair_canon (fun _ _ _ => ?_) ?_
    | (simp only [State.canon_mk_eq]; refine State.canon_mk ?_)

theorem State.advance_canon : ∀ s, State.Canon s → (State.advance s).Canon := by
  intro s h; unfold State.advance
  try simp only []
  repeat'
    first
    | with_reducible assumption | with_reducible apply State.stepFive_canon
    | with_reducible apply State.stepSeven_canon | with_reducible refine State.canon_ite ?_ ?_

theorem State.regionClockFails_canon : ∀ s r, State.Canon s → (State.regionClockFails s r).Canon := by
  intro s r h; unfold State.regionClockFails
  try simp only []
  repeat'
    first
    | with_reducible assumption | with_reducible apply State.quarantine_canon | with_reducible apply State.err_canon

theorem State.window_canon : ∀ s c n, State.Canon s → (State.window s c n).Canon := by
  intro s c n h; unfold State.window
  try simp only []
  repeat'
    first
    | with_reducible assumption | with_reducible apply State.count_canon | with_reducible apply State.advance_canon
    | with_reducible apply State.setClkGood_canon | with_reducible apply State.resetBy_canon
    | with_reducible apply State.regionClockFails_canon | with_reducible refine State.canon_ite ?_ ?_
    | with_reducible refine State.foldl_canon (fun _ _ _ => ?_) ?_
    | with_reducible refine State.foldl_pair_canon (fun _ _ _ => ?_) ?_
    | (simp only [State.canon_mk_eq]; refine State.canon_mk ?_)

theorem State.poisonSector_canon : ∀ s k, State.Canon s → (State.poisonSector s k).Canon := by
  intro s k h; unfold State.poisonSector
  try simp only []
  repeat'
    first
    | with_reducible assumption | with_reducible apply State.memCount_canon
    | with_reducible apply State.setTag_canon | with_reducible apply State.poisoning_canon
    | with_reducible refine State.canon_ite ?_ ?_

theorem State.correctSector_canon : ∀ s k sym, State.Canon s → (State.correctSector s k sym).Canon := by
  intro s k sym h; unfold State.correctSector
  try simp only []
  repeat'
    first
    | with_reducible assumption | with_reducible apply State.memCount_canon
    | with_reducible apply State.corrected_canon | with_reducible refine State.canon_ite ?_ ?_

theorem State.sectorRead_canon : ∀ s k d, State.Canon s → (State.sectorRead s k d).Canon := by
  intro s k d h; unfold State.sectorRead
  try simp only []
  repeat'
    first
    | with_reducible assumption | with_reducible apply State.memCount_canon | with_reducible apply State.err_canon
    | with_reducible apply State.tagFault_canon | with_reducible apply State.poisonSector_canon
    | with_reducible apply State.setTag_canon | with_reducible apply State.correctSector_canon
    | with_reducible refine State.canon_ite ?_ ?_ | with_reducible refine State.foldl_canon (fun _ _ _ => ?_) ?_
    | with_reducible refine State.foldl_pair_canon (fun _ _ _ => ?_) ?_
    | (simp only [State.canon_mk_eq]; refine State.canon_mk ?_)

theorem State.sectorWritten_canon : ∀ s port err, State.Canon s → (State.sectorWritten s port err).Canon := by
  intro s port err h; unfold State.sectorWritten
  try simp only []
  repeat'
    first
    | with_reducible assumption | with_reducible apply State.memCount_canon | with_reducible apply State.err_canon
    | with_reducible refine State.canon_ite ?_ ?_

theorem State.hostUnit_canon : ∀ s a data err, State.Canon s → (State.hostUnit s a data err).Canon := by
  intro s a data err h; unfold State.hostUnit
  try simp only []
  repeat'
    first
    | with_reducible assumption | with_reducible apply State.poisoningEngine_canon
    | with_reducible apply State.err_canon | with_reducible apply State.count_canon
    | with_reducible refine State.canon_ite ?_ ?_ | with_reducible refine State.foldl_canon (fun _ _ _ => ?_) ?_
    | with_reducible refine State.foldl_pair_canon (fun _ _ _ => ?_) ?_
    | (simp only [State.canon_mk_eq]; refine State.canon_mk ?_)

theorem State.retag_canon : ∀ s t, State.Canon s → (State.retag s t).Canon := by
  intro s t h; unfold State.retag
  try simp only []
  repeat'
    first
    | with_reducible assumption | with_reducible refine State.canon_ite ?_ ?_
    | with_reducible refine State.foldl_canon (fun _ _ _ => ?_) ?_
    | with_reducible refine State.foldl_pair_canon (fun _ _ _ => ?_) ?_
    | (simp only [State.canon_mk_eq]; refine State.canon_mk ?_) | split

theorem State.ackIrqs_canon : ∀ s t, State.Canon s → (State.ackIrqs s t).Canon := by
  intro s t h; unfold State.ackIrqs
  try simp only []
  repeat'
    first
    | with_reducible assumption | with_reducible apply State.raiseNow_canon
    | with_reducible refine State.canon_ite ?_ ?_ | with_reducible refine State.foldl_canon (fun _ _ _ => ?_) ?_
    | with_reducible refine State.foldl_pair_canon (fun _ _ _ => ?_) ?_
    | (simp only [State.canon_mk_eq]; refine State.canon_mk ?_)

theorem State.rowsAcked_canon : ∀ s j, State.Canon s → (State.rowsAcked s j).Canon := by
  intro s j h; unfold State.rowsAcked
  try simp only []
  repeat'
    first
    | with_reducible assumption | with_reducible apply State.settle_canon | with_reducible refine State.canon_ite ?_ ?_
    | with_reducible refine State.foldl_canon (fun _ _ _ => ?_) ?_
    | with_reducible refine State.foldl_pair_canon (fun _ _ _ => ?_) ?_
    | (simp only [State.canon_mk_eq]; refine State.canon_mk ?_) | split

theorem State.ownerAcked_canon : ∀ s o err, State.Canon s → (State.ownerAcked s o err).Canon := by
  intro s o err h; unfold State.ownerAcked
  try simp only []
  repeat'
    first
    | with_reducible assumption | with_reducible apply State.failBerthRow_canon | with_reducible apply State.updItem_canon
    | with_reducible apply State.rowsAcked_canon | with_reducible refine State.canon_ite ?_ ?_
    | with_reducible refine State.foldl_canon (fun _ _ _ => ?_) ?_
    | with_reducible refine State.foldl_pair_canon (fun _ _ _ => ?_) ?_
    | (simp only [State.canon_mk_eq]; refine State.canon_mk ?_) | split

theorem State.hostAck_canon : ∀ s t err, State.Canon s → (State.hostAck s t err).Canon := by
  intro s t err h; unfold State.hostAck
  try simp only []
  repeat'
    first
    | with_reducible assumption | with_reducible apply State.err_canon | with_reducible apply State.count_canon
    | with_reducible apply State.retag_canon | with_reducible apply State.ackIrqs_canon
    | with_reducible apply State.ownerAcked_canon | with_reducible refine State.canon_ite ?_ ?_
    | with_reducible refine State.foldl_canon (fun _ _ _ => ?_) ?_
    | with_reducible refine State.foldl_pair_canon (fun _ _ _ => ?_) ?_
    | (simp only [State.canon_mk_eq]; refine State.canon_mk ?_) | split

theorem State.writeVecCtrl_canon : ∀ s v w, State.Canon s → (State.writeVecCtrl s v w).Canon := by
  intro s v w h; unfold State.writeVecCtrl
  try simp only []
  repeat'
    first
    | with_reducible assumption | with_reducible apply State.offerPending_canon
    | with_reducible refine State.canon_ite ?_ ?_ | with_reducible refine State.foldl_canon (fun _ _ _ => ?_) ?_
    | with_reducible refine State.foldl_pair_canon (fun _ _ _ => ?_) ?_
    | (simp only [State.canon_mk_eq]; refine State.canon_mk ?_)

theorem State.hostRead_canon : ∀ s a, State.Canon s → (State.hostRead s a).Canon := by
  intro s a h; unfold State.hostRead
  try simp only []
  repeat'
    first
    | with_reducible assumption | with_reducible apply State.towRead_canon
    | with_reducible refine State.canon_ite ?_ ?_ | with_reducible refine State.foldl_canon (fun _ _ _ => ?_) ?_
    | with_reducible refine State.foldl_pair_canon (fun _ _ _ => ?_) ?_
    | (simp only [State.canon_mk_eq]; refine State.canon_mk ?_)

theorem State.clearBusy_canon : ∀ s w, State.Canon s → (State.clearBusy s w).Canon := by
  intro s w h; unfold State.clearBusy
  try simp only []
  repeat'
    first
    | with_reducible assumption | with_reducible apply State.setReg_canon

theorem State.doorbell_canon : ∀ s w, State.Canon s → (State.doorbell s w).Canon := by
  intro s w h; unfold State.doorbell
  try simp only []
  repeat'
    first
    | with_reducible assumption | with_reducible apply State.doorbellCq_canon
    | with_reducible apply State.doorbellSq_canon | with_reducible refine State.canon_ite ?_ ?_

theorem State.plainWrite_canon : ∀ s a w, State.Canon s → (State.plainWrite s a w).Canon := by
  intro s a w h; unfold State.plainWrite
  try simp only []
  repeat'
    first
    | with_reducible assumption | with_reducible apply State.maskWrite_canon | with_reducible apply State.w1c_canon
    | with_reducible refine State.canon_ite ?_ ?_ | with_reducible refine State.foldl_canon (fun _ _ _ => ?_) ?_
    | with_reducible refine State.foldl_pair_canon (fun _ _ _ => ?_) ?_
    | (simp only [State.canon_mk_eq]; refine State.canon_mk ?_) | split

theorem State.pageWrite_canon : ∀ s page o w, State.Canon s → (State.pageWrite s page o w).Canon := by
  intro s page o w h; unfold State.pageWrite
  try simp only []
  repeat'
    first
    | with_reducible assumption | with_reducible apply State.commit_canon | with_reducible apply State.bankWrite_canon
    | with_reducible apply State.ctrlWrite_canon | with_reducible apply State.clearErr_canon
    | with_reducible apply State.errInject_canon | with_reducible apply State.swReset_canon
    | with_reducible apply State.writeWdt_canon | with_reducible apply State.kick_canon
    | with_reducible apply State.clearBusy_canon | with_reducible apply State.doorbell_canon
    | with_reducible apply State.preemptCmd_canon | with_reducible apply State.imemWrite_canon
    | with_reducible apply State.peekWrite_canon | with_reducible apply State.plainWrite_canon
    | with_reducible refine State.canon_ite ?_ ?_ | with_reducible refine State.foldl_canon (fun _ _ _ => ?_) ?_
    | with_reducible refine State.foldl_pair_canon (fun _ _ _ => ?_) ?_
    | (simp only [State.canon_mk_eq]; refine State.canon_mk ?_) | split

theorem State.tableWrite_canon : ∀ s a w, State.Canon s → (State.tableWrite s a w).Canon := by
  intro s a w h; unfold State.tableWrite
  try simp only []
  repeat'
    first
    | with_reducible assumption | with_reducible apply State.writeVecCtrl_canon
    | with_reducible apply State.plainWrite_canon | with_reducible refine State.canon_ite ?_ ?_

theorem State.towWrite_canon : ∀ s a w, State.Canon s → (State.towWrite s a w).2.Canon := by
  intro s a w h; unfold State.towWrite
  try simp only []
  repeat'
    first
    | with_reducible assumption | with_reducible apply State.regErr_canon | with_reducible apply State.pageWrite_canon
    | with_reducible apply State.tableWrite_canon | with_reducible refine State.canon_ite ?_ ?_
    | with_reducible refine State.foldl_canon (fun _ _ _ => ?_) ?_
    | with_reducible refine State.foldl_pair_canon (fun _ _ _ => ?_) ?_
    | (simp only [State.canon_mk_eq]; refine State.canon_mk ?_) | split

theorem State.towpathDr_canon : ∀ s dr, State.Canon s → (State.towpathDr s dr).Canon := by
  intro s dr h; unfold State.towpathDr
  try simp only []
  repeat'
    first
    | with_reducible assumption | with_reducible apply State.towWrite_canon
    | with_reducible apply State.towRead_canon | with_reducible refine State.canon_ite ?_ ?_
    | with_reducible refine State.foldl_canon (fun _ _ _ => ?_) ?_
    | with_reducible refine State.foldl_pair_canon (fun _ _ _ => ?_) ?_
    | (simp only [State.canon_mk_eq]; refine State.canon_mk ?_)

theorem State.hostRegWrite_canon : ∀ s a w, State.Canon s → (State.hostRegWrite s a w).Canon := by
  intro s a w h; unfold State.hostRegWrite
  try simp only []
  repeat'
    first
    | with_reducible assumption | with_reducible apply State.towWrite_canon
    | with_reducible refine State.canon_ite ?_ ?_ | with_reducible refine State.foldl_canon (fun _ _ _ => ?_) ?_
    | with_reducible refine State.foldl_pair_canon (fun _ _ _ => ?_) ?_
    | (simp only [State.canon_mk_eq]; refine State.canon_mk ?_)

theorem State.withFetchWord_canon : ∀ s nbits w, State.Canon s → (State.withFetchWord s nbits w).Canon := by
  intro s nbits w h; unfold State.withFetchWord
  split
  · exact ⟨h.regs, h.ext, h.tags, h.hostMem, h.scratch, h.pool, h.pound, h.marks, h.imem⟩
  · exact h

end Sys2Proof.Machine
end

