-- ==== Sys2Proof/Laws/CanonCommands.lean ====
section
/-! SUPPORT. Every command keeps every store in canonical form. -/

namespace Sys2Proof.Machine

open Sys2Proof

set_option Elab.async false

theorem State.engine_canon {f : State → State} (hf : ∀ s, s.Canon → (f s).Canon) {s t : State}
    (h : s.engine f = .next t) (hs : s.Canon) : t.Canon := by
  unfold State.engine at h; cases h; split
  · exact hf s hs
  · exact hs

theorem State.always_canon {f : State → State} (hf : ∀ s, s.Canon → (f s).Canon) {s t : State}
    (h : s.always f = .next t) (hs : s.Canon) : t.Canon := by
  unfold State.always at h; cases h; split
  · exact hf s hs
  · exact hs

theorem execSqDoorbell_canon : ∀ q p s t, execSqDoorbell q p s = .next t → s.Canon → t.Canon := by
  intro q p s t h hs; unfold execSqDoorbell at h
  refine State.always_canon (fun s hs => ?_) h hs
  try simp only []
  repeat'
    first
    | with_reducible assumption | with_reducible apply State.doorbellSq_canon

theorem execCqDoorbell_canon : ∀ q p s t, execCqDoorbell q p s = .next t → s.Canon → t.Canon := by
  intro q p s t h hs; unfold execCqDoorbell at h
  refine State.always_canon (fun s hs => ?_) h hs
  try simp only []
  repeat'
    first
    | with_reducible assumption | with_reducible apply State.doorbellCq_canon

theorem execSqFetch_canon : ∀ s t, execSqFetch s = .next t → s.Canon → t.Canon := by
  intro s t h hs; unfold execSqFetch at h
  refine State.engine_canon (fun s hs => ?_) h hs
  try simp only []
  repeat'
    first
    | with_reducible assumption | with_reducible apply State.fetch_canon

theorem execNop_canon : ∀ j s t, execNop j s = .next t → s.Canon → t.Canon := by
  intro j s t h hs; unfold execNop at h
  refine State.engine_canon (fun s hs => ?_) h hs
  try simp only []
  repeat'
    first
    | with_reducible assumption | with_reducible apply State.process_canon | with_reducible apply State.settle_canon
    | with_reducible refine State.canon_ite ?_ ?_ | with_reducible refine State.foldl_canon (fun _ _ _ => ?_) ?_
    | (simp only [State.canon_mk_eq]; refine State.canon_mk ?_) | split | intro

theorem execSubmitBarge_canon : ∀ j s t, execSubmitBarge j s = .next t → s.Canon → t.Canon := by
  intro j s t h hs; unfold execSubmitBarge at h
  refine State.engine_canon (fun s hs => ?_) h hs
  try simp only []
  repeat'
    first
    | with_reducible assumption | with_reducible apply State.processInTurn_canon
    | with_reducible apply State.submit_canon

theorem execAdmitRequest_canon : ∀ j s t, execAdmitRequest j s = .next t → s.Canon → t.Canon := by
  intro j s t h hs; unfold execAdmitRequest at h
  refine State.engine_canon (fun s hs => ?_) h hs
  try simp only []
  repeat'
    first
    | with_reducible assumption | with_reducible apply State.processInTurn_canon
    | with_reducible apply State.admitReq_canon

theorem execCancelRequest_canon : ∀ j s t, execCancelRequest j s = .next t → s.Canon → t.Canon := by
  intro j s t h hs; unfold execCancelRequest at h
  refine State.engine_canon (fun s hs => ?_) h hs
  try simp only []
  repeat'
    first
    | with_reducible assumption | with_reducible apply State.process_canon | with_reducible apply State.cancel_canon

theorem execConfigEpoch_canon : ∀ j s t, execConfigEpoch j s = .next t → s.Canon → t.Canon := by
  intro j s t h hs; unfold execConfigEpoch at h
  refine State.engine_canon (fun s hs => ?_) h hs
  try simp only []
  repeat'
    first
    | with_reducible assumption | with_reducible apply State.process_canon
    | with_reducible apply State.configEpoch_canon

theorem execConfigEpochComplete_canon : ∀ j s t, execConfigEpochComplete j s = .next t → s.Canon → t.Canon := by
  intro j s t h hs; unfold execConfigEpochComplete at h
  refine State.engine_canon (fun s hs => ?_) h hs
  try simp only []
  repeat'
    first
    | with_reducible assumption | with_reducible apply State.epochComplete_canon
    | with_reducible refine State.canon_ite ?_ ?_ | with_reducible refine State.foldl_canon (fun _ _ _ => ?_) ?_
    | (simp only [State.canon_mk_eq]; refine State.canon_mk ?_) | split

theorem execFence_canon : ∀ j s t, execFence j s = .next t → s.Canon → t.Canon := by
  intro j s t h hs; unfold execFence at h
  refine State.engine_canon (fun s hs => ?_) h hs
  try simp only []
  repeat'
    first
    | with_reducible assumption | with_reducible apply State.process_canon | with_reducible apply State.updItem_canon
    | with_reducible apply State.settle_canon | with_reducible refine State.canon_ite ?_ ?_
    | with_reducible refine State.foldl_canon (fun _ _ _ => ?_) ?_
    | (simp only [State.canon_mk_eq]; refine State.canon_mk ?_) | split | intro

theorem execFenceComplete_canon : ∀ j s t, execFenceComplete j s = .next t → s.Canon → t.Canon := by
  intro j s t h hs; unfold execFenceComplete at h
  refine State.engine_canon (fun s hs => ?_) h hs
  try simp only []
  repeat'
    first
    | with_reducible assumption | with_reducible apply State.settle_canon
    | with_reducible refine State.canon_ite ?_ ?_ | with_reducible refine State.foldl_canon (fun _ _ _ => ?_) ?_
    | (simp only [State.canon_mk_eq]; refine State.canon_mk ?_) | split

theorem execCreate_canon : ∀ j s t, execCreate j s = .next t → s.Canon → t.Canon := by
  intro j s t h hs; unfold execCreate at h
  refine State.engine_canon (fun s hs => ?_) h hs
  try simp only []
  repeat'
    first
    | with_reducible assumption | with_reducible apply State.processOp_canon
    | with_reducible apply State.create_canon

theorem execReplace_canon : ∀ j s t, execReplace j s = .next t → s.Canon → t.Canon := by
  intro j s t h hs; unfold execReplace at h
  refine State.engine_canon (fun s hs => ?_) h hs
  try simp only []
  repeat'
    first
    | with_reducible assumption | with_reducible apply State.processOp_canon
    | with_reducible apply State.replace_canon

theorem execReplaceTakeEffect_canon : ∀ j s t, execReplaceTakeEffect j s = .next t → s.Canon → t.Canon := by
  intro j s t h hs; unfold execReplaceTakeEffect at h
  refine State.engine_canon (fun s hs => ?_) h hs
  try simp only []
  repeat'
    first
    | with_reducible assumption | with_reducible apply State.tableTakeEffect_canon

theorem execDelete_canon : ∀ j s t, execDelete j s = .next t → s.Canon → t.Canon := by
  intro j s t h hs; unfold execDelete at h
  refine State.engine_canon (fun s hs => ?_) h hs
  try simp only []
  repeat'
    first
    | with_reducible assumption | with_reducible apply State.processOp_canon
    | with_reducible apply State.deleteTable_canon

theorem execDeleteTakeEffect_canon : ∀ j s t, execDeleteTakeEffect j s = .next t → s.Canon → t.Canon := by
  intro j s t h hs; unfold execDeleteTakeEffect at h
  refine State.engine_canon (fun s hs => ?_) h hs
  try simp only []
  repeat'
    first
    | with_reducible assumption | with_reducible apply State.tableTakeEffect_canon

theorem execWriteRows_canon : ∀ j s t, execWriteRows j s = .next t → s.Canon → t.Canon := by
  intro j s t h hs; unfold execWriteRows at h
  refine State.engine_canon (fun s hs => ?_) h hs
  try simp only []
  repeat'
    first
    | with_reducible assumption | with_reducible apply State.processOp_canon | with_reducible apply State.rowsStart_canon
    | with_reducible apply State.writeMany_canon | with_reducible apply State.settle_canon
    | with_reducible refine State.canon_ite ?_ ?_ | with_reducible refine State.foldl_canon (fun _ _ _ => ?_) ?_
    | (simp only [State.canon_mk_eq]; refine State.canon_mk ?_) | split | intro

theorem execReadRows_canon : ∀ j s t, execReadRows j s = .next t → s.Canon → t.Canon := by
  intro j s t h hs; unfold execReadRows at h
  refine State.engine_canon (fun s hs => ?_) h hs
  try simp only []
  repeat'
    first
    | with_reducible assumption | with_reducible apply State.processOp_canon | with_reducible apply State.rowsStart_canon
    | with_reducible apply State.readMany_canon | with_reducible apply State.settle_canon
    | with_reducible apply State.updItem_canon | with_reducible refine State.canon_ite ?_ ?_
    | with_reducible refine State.foldl_canon (fun _ _ _ => ?_) ?_
    | (simp only [State.canon_mk_eq]; refine State.canon_mk ?_) | split | intro

theorem execAdapterFlip_canon : ∀ j s t, execAdapterFlip j s = .next t → s.Canon → t.Canon := by
  intro j s t h hs; unfold execAdapterFlip at h
  refine State.engine_canon (fun s hs => ?_) h hs
  try simp only []
  repeat'
    first
    | with_reducible assumption | with_reducible apply State.processInTurn_canon
    | with_reducible apply State.flip_canon

theorem execFlipTakeEffect_canon : ∀ j s t, execFlipTakeEffect j s = .next t → s.Canon → t.Canon := by
  intro j s t h hs; unfold execFlipTakeEffect at h
  refine State.engine_canon (fun s hs => ?_) h hs
  try simp only []
  repeat'
    first
    | with_reducible assumption | with_reducible apply State.flipEffect_canon
    | with_reducible refine State.canon_ite ?_ ?_ | with_reducible refine State.foldl_canon (fun _ _ _ => ?_) ?_
    | (simp only [State.canon_mk_eq]; refine State.canon_mk ?_) | split

theorem execFlipComplete_canon : ∀ j s t, execFlipComplete j s = .next t → s.Canon → t.Canon := by
  intro j s t h hs; unfold execFlipComplete at h
  refine State.engine_canon (fun s hs => ?_) h hs
  try simp only []
  repeat'
    first
    | with_reducible assumption | with_reducible apply State.flipDone_canon
    | with_reducible refine State.canon_ite ?_ ?_ | with_reducible refine State.foldl_canon (fun _ _ _ => ?_) ?_
    | (simp only [State.canon_mk_eq]; refine State.canon_mk ?_) | split

theorem execTrainHoldRelease_canon : ∀ j s t, execTrainHoldRelease j s = .next t → s.Canon → t.Canon := by
  intro j s t h hs; unfold execTrainHoldRelease at h
  refine State.engine_canon (fun s hs => ?_) h hs
  try simp only []
  repeat'
    first
    | with_reducible assumption | with_reducible apply State.releaseTrain_canon

theorem execCqRecordWrite_canon : ∀ c s t, execCqRecordWrite c s = .next t → s.Canon → t.Canon := by
  intro c s t h hs; unfold execCqRecordWrite at h
  refine State.engine_canon (fun s hs => ?_) h hs
  try simp only []
  repeat'
    first
    | with_reducible assumption | with_reducible apply State.cqWrite_canon

theorem execCoalTimeExpiry_canon : ∀ c s t, execCoalTimeExpiry c s = .next t → s.Canon → t.Canon := by
  intro c s t h hs; unfold execCoalTimeExpiry at h
  refine State.engine_canon (fun s hs => ?_) h hs
  try simp only []
  repeat'
    first
    | with_reducible assumption | with_reducible apply State.signalCq_canon
    | with_reducible refine State.canon_ite ?_ ?_

theorem execMaintEntry_canon : ∀ s t, execMaintEntry s = .next t → s.Canon → t.Canon := by
  intro s t h hs; unfold execMaintEntry at h
  refine State.engine_canon (fun s hs => ?_) h hs
  try simp only []
  repeat'
    first
    | with_reducible assumption | with_reducible apply State.enterMaint_canon
    | with_reducible refine State.canon_ite ?_ ?_

theorem execMm_canon : ∀ b i s t, execMm b i s = .next t → s.Canon → t.Canon := by
  intro b i s t h hs; unfold execMm at h
  refine State.engine_canon (fun s hs => ?_) h hs
  try simp only []
  repeat'
    first
    | with_reducible assumption | with_reducible apply State.fetchRec_canon
    | with_reducible apply State.runRec_canon | with_reducible apply mmEffect_canon
    | with_reducible refine State.canon_ite ?_ ?_ | with_reducible refine State.foldl_canon (fun _ _ _ => ?_) ?_
    | (simp only [State.canon_mk_eq]; refine State.canon_mk ?_) | split

theorem execDelta_canon : ∀ b i s t, execDelta b i s = .next t → s.Canon → t.Canon := by
  intro b i s t h hs; unfold execDelta at h
  refine State.engine_canon (fun s hs => ?_) h hs
  try simp only []
  repeat'
    first
    | with_reducible assumption | with_reducible apply State.runPair_canon
    | with_reducible refine State.canon_ite ?_ ?_

theorem execDeltaBackward_canon : ∀ b i s t, execDeltaBackward b i s = .next t → s.Canon → t.Canon := by
  intro b i s t h hs; unfold execDeltaBackward at h
  refine State.engine_canon (fun s hs => ?_) h hs
  try simp only []
  repeat'
    first
    | with_reducible assumption | with_reducible apply State.runBack_canon
    | with_reducible refine State.canon_ite ?_ ?_

theorem execAttn_canon : ∀ b i s t, execAttn b i s = .next t → s.Canon → t.Canon := by
  intro b i s t h hs; unfold execAttn at h
  refine State.engine_canon (fun s hs => ?_) h hs
  try simp only []
  repeat'
    first
    | with_reducible assumption | with_reducible apply State.runRec_canon | with_reducible apply attnEffect_canon

theorem execKvAppend_canon : ∀ b i s t, execKvAppend b i s = .next t → s.Canon → t.Canon := by
  intro b i s t h hs; unfold execKvAppend at h
  refine State.engine_canon (fun s hs => ?_) h hs
  try simp only []
  repeat'
    first
    | with_reducible assumption | with_reducible apply State.runRec_canon
    | with_reducible apply kvAppendEffect_canon

theorem execKvCommit_canon : ∀ b i s t, execKvCommit b i s = .next t → s.Canon → t.Canon := by
  intro b i s t h hs; unfold execKvCommit at h
  refine State.engine_canon (fun s hs => ?_) h hs
  try simp only []
  repeat'
    first
    | with_reducible assumption | with_reducible apply State.runRec_canon
    | with_reducible apply kvCommitEffect_canon

theorem execVec_canon : ∀ b i s t, execVec b i s = .next t → s.Canon → t.Canon := by
  intro b i s t h hs; unfold execVec at h
  refine State.engine_canon (fun s hs => ?_) h hs
  try simp only []
  repeat'
    first
    | with_reducible assumption | with_reducible apply State.runRec_canon | with_reducible apply vecEffect_canon

theorem execConv_canon : ∀ b i s t, execConv b i s = .next t → s.Canon → t.Canon := by
  intro b i s t h hs; unfold execConv at h
  refine State.engine_canon (fun s hs => ?_) h hs
  try simp only []
  repeat'
    first
    | with_reducible assumption | with_reducible apply State.runRec_canon | with_reducible apply convEffect_canon

theorem execGather_canon : ∀ b i s t, execGather b i s = .next t → s.Canon → t.Canon := by
  intro b i s t h hs; unfold execGather at h
  refine State.engine_canon (fun s hs => ?_) h hs
  try simp only []
  repeat'
    first
    | with_reducible assumption | with_reducible apply State.runRec_canon | with_reducible apply gatherEffect_canon

theorem execPrefetch_canon : ∀ b i s t, execPrefetch b i s = .next t → s.Canon → t.Canon := by
  intro b i s t h hs; unfold execPrefetch at h
  refine State.engine_canon (fun s hs => ?_) h hs
  try simp only []
  repeat'
    first
    | with_reducible assumption | with_reducible apply State.prefetchAgain_canon
    | with_reducible apply State.runRec_canon | with_reducible apply prefetchEffect_canon

theorem execPool_canon : ∀ b i s t, execPool b i s = .next t → s.Canon → t.Canon := by
  intro b i s t h hs; unfold execPool at h
  refine State.engine_canon (fun s hs => ?_) h hs
  try simp only []
  repeat'
    first
    | with_reducible assumption | with_reducible apply State.runRec_canon | with_reducible apply poolEffect_canon

theorem execSgrad_canon : ∀ b i s t, execSgrad b i s = .next t → s.Canon → t.Canon := by
  intro b i s t h hs; unfold execSgrad at h
  refine State.engine_canon (fun s hs => ?_) h hs
  try simp only []
  repeat'
    first
    | with_reducible assumption | with_reducible apply State.runRec_canon | with_reducible apply sgradEffect_canon

theorem execUpdate_canon : ∀ b i s t, execUpdate b i s = .next t → s.Canon → t.Canon := by
  intro b i s t h hs; unfold execUpdate at h
  refine State.engine_canon (fun s hs => ?_) h hs
  try simp only []
  repeat'
    first
    | with_reducible assumption | with_reducible apply State.runRec_canon | with_reducible apply updateEffect_canon

theorem execColl_canon : ∀ b i s t, execColl b i s = .next t → s.Canon → t.Canon := by
  intro b i s t h hs; unfold execColl at h
  refine State.engine_canon (fun s hs => ?_) h hs
  try simp only []
  repeat'
    first
    | with_reducible assumption | with_reducible apply State.startColls_canon
    | with_reducible apply State.runRec_canon | with_reducible apply collEffect_canon

theorem execSeal_canon : ∀ b i s t, execSeal b i s = .next t → s.Canon → t.Canon := by
  intro b i s t h hs; unfold execSeal at h
  refine State.engine_canon (fun s hs => ?_) h hs
  try simp only []
  repeat'
    first
    | with_reducible assumption | with_reducible apply State.runRec_canon | with_reducible apply sealEffect_canon

theorem execBarrier_canon : ∀ b i s t, execBarrier b i s = .next t → s.Canon → t.Canon := by
  intro b i s t h hs; unfold execBarrier at h
  refine State.engine_canon (fun s hs => ?_) h hs
  try simp only []
  repeat'
    first
    | with_reducible assumption | with_reducible apply State.enterBarriers_canon
    | with_reducible apply State.runRec_canon | with_reducible apply barrierEffect_canon

theorem execLockMark_canon : ∀ b i s t, execLockMark b i s = .next t → s.Canon → t.Canon := by
  intro b i s t h hs; unfold execLockMark at h
  refine State.engine_canon (fun s hs => ?_) h hs
  try simp only []
  repeat'
    first
    | with_reducible assumption | with_reducible apply State.runRec_canon
    | with_reducible apply lockMarkEffect_canon

theorem execConfirm_canon : ∀ b i s t, execConfirm b i s = .next t → s.Canon → t.Canon := by
  intro b i s t h hs; unfold execConfirm at h
  refine State.engine_canon (fun s hs => ?_) h hs
  try simp only []
  repeat'
    first
    | with_reducible assumption | with_reducible apply State.runRec_canon | with_reducible apply confirmEffect_canon

theorem execSavePoint_canon : ∀ b i s t, execSavePoint b i s = .next t → s.Canon → t.Canon := by
  intro b i s t h hs; unfold execSavePoint at h
  refine State.engine_canon (fun s hs => ?_) h hs
  try simp only []
  repeat'
    first
    | with_reducible assumption | with_reducible apply State.runRec_canon
    | with_reducible apply savePointEffect_canon

theorem execOpFence_canon : ∀ b i s t, execOpFence b i s = .next t → s.Canon → t.Canon := by
  intro b i s t h hs; unfold execOpFence at h
  refine State.engine_canon (fun s hs => ?_) h hs
  try simp only []
  repeat'
    first
    | with_reducible assumption | with_reducible apply State.runRec_canon | with_reducible apply opFenceEffect_canon

theorem execWait_canon : ∀ b i s t, execWait b i s = .next t → s.Canon → t.Canon := by
  intro b i s t h hs; unfold execWait at h
  refine State.engine_canon (fun s hs => ?_) h hs
  try simp only []
  repeat'
    first
    | with_reducible assumption | with_reducible apply State.waitAgain_canon
    | with_reducible apply State.runRec_canon | with_reducible apply waitEffect_canon

theorem execWaitLimitExpiry_canon : ∀ b i s t, execWaitLimitExpiry b i s = .next t → s.Canon → t.Canon := by
  intro b i s t h hs; unfold execWaitLimitExpiry at h
  refine State.engine_canon (fun s hs => ?_) h hs
  try simp only []
  repeat'
    first
    | with_reducible assumption | with_reducible apply State.failBarge_canon
    | with_reducible refine State.canon_ite ?_ ?_ | with_reducible refine State.foldl_canon (fun _ _ _ => ?_) ?_
    | (simp only [State.canon_mk_eq]; refine State.canon_mk ?_) | split

theorem execSignal_canon : ∀ b i s t, execSignal b i s = .next t → s.Canon → t.Canon := by
  intro b i s t h hs; unfold execSignal at h
  refine State.engine_canon (fun s hs => ?_) h hs
  try simp only []
  repeat'
    first
    | with_reducible assumption | with_reducible apply State.runRec_canon | with_reducible apply signalEffect_canon

theorem execOpComplete_canon : ∀ b i s t, execOpComplete b i s = .next t → s.Canon → t.Canon := by
  intro b i s t h hs; unfold execOpComplete at h
  refine State.engine_canon (fun s hs => ?_) h hs
  try simp only []
  repeat'
    first
    | with_reducible assumption | with_reducible apply State.opComplete_canon

theorem execCommitUnit_canon : ∀ b i u s t, execCommitUnit b i u s = .next t → s.Canon → t.Canon := by
  intro b i u s t h hs; unfold execCommitUnit at h
  split at h
  · split at h
    · cases h; next h => exact State.commitUnit_canon _ _ _ _ _ hs h
    · cases h
  · cases h; exact hs

theorem execManifestClose_canon : ∀ m s t, execManifestClose m s = .next t → s.Canon → t.Canon := by
  intro m s t h hs; unfold execManifestClose at h
  refine State.engine_canon (fun s hs => ?_) h hs
  try simp only []
  repeat'
    first
    | with_reducible assumption | with_reducible apply State.manifestClose_canon

theorem execBargePlacement_canon : ∀ s t, execBargePlacement s = .next t → s.Canon → t.Canon := by
  intro s t h hs; unfold execBargePlacement at h
  refine State.engine_canon (fun s hs => ?_) h hs
  try simp only []
  repeat'
    first
    | with_reducible assumption | with_reducible apply State.placeAll_canon

theorem execWakeComplete_canon : ∀ r s t, execWakeComplete r s = .next t → s.Canon → t.Canon := by
  intro r s t h hs; unfold execWakeComplete at h
  refine State.engine_canon (fun s hs => ?_) h hs
  try simp only []
  repeat'
    first
    | with_reducible assumption | with_reducible apply State.wakeDone_canon

theorem execImageLoadComplete_canon : ∀ b s t, execImageLoadComplete b s = .next t → s.Canon → t.Canon := by
  intro b s t h hs; unfold execImageLoadComplete at h
  refine State.engine_canon (fun s hs => ?_) h hs
  try simp only []
  repeat'
    first
    | with_reducible assumption | with_reducible apply State.loadDone_canon

theorem execBargeEnd_canon : ∀ b s t, execBargeEnd b s = .next t → s.Canon → t.Canon := by
  intro b s t h hs; unfold execBargeEnd at h
  refine State.engine_canon (fun s hs => ?_) h hs
  try simp only []
  repeat'
    first
    | with_reducible assumption | with_reducible apply State.endBarge_canon

theorem execNapEntry_canon : ∀ r s t, execNapEntry r s = .next t → s.Canon → t.Canon := by
  intro r s t h hs; unfold execNapEntry at h
  refine State.engine_canon (fun s hs => ?_) h hs
  try simp only []
  repeat'
    first
    | with_reducible assumption | with_reducible apply State.unlock_canon
    | with_reducible apply State.updRegion_canon | with_reducible refine State.canon_ite ?_ ?_

theorem execOffEntry_canon : ∀ r s t, execOffEntry r s = .next t → s.Canon → t.Canon := by
  intro r s t h hs; unfold execOffEntry at h
  refine State.engine_canon (fun s hs => ?_) h hs
  try simp only []
  repeat'
    first
    | with_reducible assumption | with_reducible apply State.dropSram_canon
    | with_reducible apply State.updRegion_canon | with_reducible refine State.canon_ite ?_ ?_

theorem execPreempt_canon : ∀ mask s t, execPreempt mask s = .next t → s.Canon → t.Canon := by
  intro mask s t h hs; unfold execPreempt at h
  refine State.engine_canon (fun s hs => ?_) h hs
  try simp only []
  repeat'
    first
    | with_reducible assumption | with_reducible apply State.preemptMask_canon

theorem execHold_canon : ∀ mask s t, execHold mask s = .next t → s.Canon → t.Canon := by
  intro mask s t h hs; unfold execHold at h
  refine State.engine_canon (fun s hs => ?_) h hs
  try simp only []
  repeat'
    first
    | with_reducible assumption | with_reducible apply State.holdMask_canon

theorem execRelease_canon : ∀ mask s t, execRelease mask s = .next t → s.Canon → t.Canon := by
  intro mask s t h hs; unfold execRelease at h
  refine State.engine_canon (fun s hs => ?_) h hs
  try simp only []
  repeat'
    first
    | with_reducible assumption | with_reducible apply State.releaseMask_canon

theorem execSaveComplete_canon : ∀ b s t, execSaveComplete b s = .next t → s.Canon → t.Canon := by
  intro b s t h hs; unfold execSaveComplete at h
  refine State.engine_canon (fun s hs => ?_) h hs
  try simp only []
  repeat'
    first
    | with_reducible assumption | with_reducible apply State.saveDone_canon

theorem execRestoreComplete_canon : ∀ b s t, execRestoreComplete b s = .next t → s.Canon → t.Canon := by
  intro b s t h hs; unfold execRestoreComplete at h
  refine State.engine_canon (fun s hs => ?_) h hs
  try simp only []
  repeat'
    first
    | with_reducible assumption | with_reducible apply State.restoreDone_canon

theorem execPreemptOverdue_canon : ∀ b s t, execPreemptOverdue b s = .next t → s.Canon → t.Canon := by
  intro b s t h hs; unfold execPreemptOverdue at h
  refine State.engine_canon (fun s hs => ?_) h hs
  try simp only []
  repeat'
    first
    | with_reducible assumption | with_reducible apply State.overdueNow_canon

theorem execTollRefill_canon : ∀ s t, execTollRefill s = .next t → s.Canon → t.Canon := by
  intro s t h hs; unfold execTollRefill at h
  refine State.engine_canon (fun s hs => ?_) h hs
  try simp only []
  repeat'
    first
    | with_reducible assumption | with_reducible apply State.refill_canon
    | with_reducible refine State.canon_ite ?_ ?_ | with_reducible refine State.foldl_canon (fun _ _ _ => ?_) ?_
    | (simp only [State.canon_mk_eq]; refine State.canon_mk ?_)

theorem execTollReport_canon : ∀ s t, execTollReport s = .next t → s.Canon → t.Canon := by
  intro s t h hs; unfold execTollReport at h
  refine State.engine_canon (fun s hs => ?_) h hs
  try simp only []
  repeat'
    first
    | with_reducible assumption | with_reducible apply State.report_canon
    | with_reducible refine State.canon_ite ?_ ?_

theorem execSkewWindowEnd_canon : ∀ s t, execSkewWindowEnd s = .next t → s.Canon → t.Canon := by
  intro s t h hs; unfold execSkewWindowEnd at h
  refine State.engine_canon (fun s hs => ?_) h hs
  try simp only []
  repeat'
    first
    | with_reducible assumption | with_reducible apply State.windowEnd_canon

theorem execFormerExpiry_canon : ∀ t_0 s t, execFormerExpiry t_0 s = .next t → s.Canon → t.Canon := by
  intro t_0 s t h hs; unfold execFormerExpiry at h
  refine State.engine_canon (fun s hs => ?_) h hs
  try simp only []
  repeat'
    first
    | with_reducible assumption | with_reducible apply State.formerExpire_canon

theorem execGoneExpiry_canon : ∀ table row s t, execGoneExpiry table row s = .next t → s.Canon → t.Canon := by
  intro table row s t h hs; unfold execGoneExpiry at h
  refine State.engine_canon (fun s hs => ?_) h hs
  try simp only []
  repeat'
    first
    | with_reducible assumption | with_reducible apply State.expireGone_canon

theorem execProvisionalProbe_canon : ∀ table row s t, execProvisionalProbe table row s = .next t → s.Canon → t.Canon := by
  intro table row s t h hs; unfold execProvisionalProbe at h
  refine State.engine_canon (fun s hs => ?_) h hs
  try simp only []
  repeat'
    first
    | with_reducible assumption | with_reducible apply State.probeRow_canon

theorem execRowRead_canon : ∀ p s t, execRowRead p s = .next t → s.Canon → t.Canon := by
  intro p s t h hs; unfold execRowRead at h
  refine State.engine_canon (fun s hs => ?_) h hs
  try simp only []
  repeat'
    first
    | with_reducible assumption | with_reducible apply State.receiveReq_canon

theorem execVersionProbe_canon : ∀ p s t, execVersionProbe p s = .next t → s.Canon → t.Canon := by
  intro p s t h hs; unfold execVersionProbe at h
  refine State.engine_canon (fun s hs => ?_) h hs
  try simp only []
  repeat'
    first
    | with_reducible assumption | with_reducible apply State.receiveReq_canon

theorem execRow_canon : ∀ p s t, execRow p s = .next t → s.Canon → t.Canon := by
  intro p s t h hs; unfold execRow at h
  refine State.engine_canon (fun s hs => ?_) h hs
  try simp only []
  repeat'
    first
    | with_reducible assumption | with_reducible apply State.receiveAns_canon | with_reducible apply State.respond_canon
    | with_reducible apply State.rowCame_canon | with_reducible refine State.canon_ite ?_ ?_
    | with_reducible refine State.foldl_canon (fun _ _ _ => ?_) ?_
    | (simp only [State.canon_mk_eq]; refine State.canon_mk ?_) | split | intro

theorem execCurrent_canon : ∀ p s t, execCurrent p s = .next t → s.Canon → t.Canon := by
  intro p s t h hs; unfold execCurrent at h
  refine State.engine_canon (fun s hs => ?_) h hs
  try simp only []
  repeat'
    first
    | with_reducible assumption | with_reducible apply State.receiveAns_canon | with_reducible apply State.respond_canon
    | with_reducible apply State.currentCame_canon | with_reducible apply State.prefetchDone_canon
    | with_reducible refine State.canon_ite ?_ ?_ | with_reducible refine State.foldl_canon (fun _ _ _ => ?_) ?_
    | (simp only [State.canon_mk_eq]; refine State.canon_mk ?_) | split | intro

theorem execForward_canon : ∀ p s t, execForward p s = .next t → s.Canon → t.Canon := by
  intro p s t h hs; unfold execForward at h
  refine State.engine_canon (fun s hs => ?_) h hs
  try simp only []
  repeat'
    first
    | with_reducible assumption | with_reducible apply State.receiveAns_canon | with_reducible apply State.forwarded_canon
    | with_reducible refine State.canon_ite ?_ ?_ | with_reducible refine State.foldl_canon (fun _ _ _ => ?_) ?_
    | (simp only [State.canon_mk_eq]; refine State.canon_mk ?_) | split | intro

theorem execNotOwner_canon : ∀ p s t, execNotOwner p s = .next t → s.Canon → t.Canon := by
  intro p s t h hs; unfold execNotOwner at h
  refine State.engine_canon (fun s hs => ?_) h hs
  try simp only []
  repeat'
    first
    | with_reducible assumption | with_reducible apply State.receiveAns_canon | with_reducible apply State.respond_canon
    | with_reducible apply State.useFailed_canon | with_reducible refine State.canon_ite ?_ ?_
    | with_reducible refine State.foldl_canon (fun _ _ _ => ?_) ?_
    | (simp only [State.canon_mk_eq]; refine State.canon_mk ?_) | split | intro

theorem execRowUpdate_canon : ∀ p s t, execRowUpdate p s = .next t → s.Canon → t.Canon := by
  intro p s t h hs; unfold execRowUpdate at h
  refine State.engine_canon (fun s hs => ?_) h hs
  try simp only []
  repeat'
    first
    | with_reducible assumption | with_reducible apply State.receive_canon | with_reducible apply State.unhold_canon
    | with_reducible apply State.badPacket_canon | with_reducible apply State.settleUpdate_canon
    | with_reducible refine State.canon_ite ?_ ?_ | with_reducible refine State.foldl_canon (fun _ _ _ => ?_) ?_
    | (simp only [State.canon_mk_eq]; refine State.canon_mk ?_) | split | intro

theorem execMerged_canon : ∀ p s t, execMerged p s = .next t → s.Canon → t.Canon := by
  intro p s t h hs; unfold execMerged at h
  refine State.engine_canon (fun s hs => ?_) h hs
  try simp only []
  repeat'
    first
    | with_reducible assumption | with_reducible apply State.receiveAns_canon | with_reducible apply State.respond_canon
    | with_reducible apply State.arrived_canon | with_reducible apply State.migCheck_canon
    | with_reducible refine State.canon_ite ?_ ?_ | with_reducible refine State.foldl_canon (fun _ _ _ => ?_) ?_
    | (simp only [State.canon_mk_eq]; refine State.canon_mk ?_) | split | intro

theorem execStale_canon : ∀ p s t, execStale p s = .next t → s.Canon → t.Canon := by
  intro p s t h hs; unfold execStale at h
  refine State.engine_canon (fun s hs => ?_) h hs
  try simp only []
  repeat'
    first
    | with_reducible assumption | with_reducible apply State.receiveAns_canon | with_reducible apply State.respond_canon
    | with_reducible apply State.useFailed_canon | with_reducible refine State.canon_ite ?_ ?_
    | with_reducible refine State.foldl_canon (fun _ _ _ => ?_) ?_
    | (simp only [State.canon_mk_eq]; refine State.canon_mk ?_) | split | intro

theorem execRoute_canon : ∀ p s t, execRoute p s = .next t → s.Canon → t.Canon := by
  intro p s t h hs; unfold execRoute at h
  refine State.engine_canon (fun s hs => ?_) h hs
  try simp only []
  repeat'
    first
    | with_reducible assumption | with_reducible apply State.receive_canon | with_reducible apply State.unhold_canon
    | with_reducible apply State.settleNotice_canon | with_reducible refine State.canon_ite ?_ ?_
    | with_reducible refine State.foldl_canon (fun _ _ _ => ?_) ?_
    | (simp only [State.canon_mk_eq]; refine State.canon_mk ?_) | split | intro

theorem execRowOffer_canon : ∀ p s t, execRowOffer p s = .next t → s.Canon → t.Canon := by
  intro p s t h hs; unfold execRowOffer at h
  refine State.engine_canon (fun s hs => ?_) h hs
  try simp only []
  repeat'
    first
    | with_reducible assumption | with_reducible apply State.receiveMove_canon
    | with_reducible apply State.dropInbound_canon | with_reducible apply State.lastPacket_canon
    | with_reducible apply State.answerMove_canon | with_reducible refine State.canon_ite ?_ ?_
    | with_reducible refine State.foldl_canon (fun _ _ _ => ?_) ?_
    | (simp only [State.canon_mk_eq]; refine State.canon_mk ?_) | split | intro

theorem execState_canon : ∀ p s t, execState p s = .next t → s.Canon → t.Canon := by
  intro p s t h hs; unfold execState at h
  refine State.engine_canon (fun s hs => ?_) h hs
  try simp only []
  repeat'
    first
    | with_reducible assumption | with_reducible apply State.receiveMove_canon
    | with_reducible apply State.joinState_canon | with_reducible refine State.canon_ite ?_ ?_
    | with_reducible refine State.foldl_canon (fun _ _ _ => ?_) ?_
    | (simp only [State.canon_mk_eq]; refine State.canon_mk ?_) | split | intro

theorem execMoveConfirm_canon : ∀ p s t, execMoveConfirm p s = .next t → s.Canon → t.Canon := by
  intro p s t h hs; unfold execMoveConfirm at h
  refine State.engine_canon (fun s hs => ?_) h hs
  try simp only []
  repeat'
    first
    | with_reducible assumption | with_reducible apply State.receiveMove_canon
    | with_reducible apply State.answerMove_canon | with_reducible apply State.settleRow_canon
    | with_reducible refine State.canon_ite ?_ ?_ | with_reducible refine State.foldl_canon (fun _ _ _ => ?_) ?_
    | (simp only [State.canon_mk_eq]; refine State.canon_mk ?_) | split | intro

theorem execQuery_canon : ∀ p s t, execQuery p s = .next t → s.Canon → t.Canon := by
  intro p s t h hs; unfold execQuery at h
  refine State.engine_canon (fun s hs => ?_) h hs
  try simp only []
  repeat'
    first
    | with_reducible assumption | with_reducible apply State.receiveMove_canon
    | with_reducible apply State.answerMove_canon | with_reducible refine State.canon_ite ?_ ?_
    | with_reducible refine State.foldl_canon (fun _ _ _ => ?_) ?_
    | (simp only [State.canon_mk_eq]; refine State.canon_mk ?_) | split | intro

theorem execAccept_canon : ∀ p s t, execAccept p s = .next t → s.Canon → t.Canon := by
  intro p s t h hs; unfold execAccept at h
  refine State.engine_canon (fun s hs => ?_) h hs
  try simp only []
  repeat'
    first
    | with_reducible assumption | with_reducible apply State.moveReply_canon
    | with_reducible apply State.moveAccepted_canon | with_reducible refine State.canon_ite ?_ ?_
    | with_reducible refine State.foldl_canon (fun _ _ _ => ?_) ?_
    | (simp only [State.canon_mk_eq]; refine State.canon_mk ?_) | split | intro

theorem execRefuse_canon : ∀ p s t, execRefuse p s = .next t → s.Canon → t.Canon := by
  intro p s t h hs; unfold execRefuse at h
  refine State.engine_canon (fun s hs => ?_) h hs
  try simp only []
  repeat'
    first
    | with_reducible assumption | with_reducible apply State.moveReply_canon | with_reducible apply State.moveFailed_canon
    | with_reducible refine State.canon_ite ?_ ?_ | with_reducible refine State.foldl_canon (fun _ _ _ => ?_) ?_
    | (simp only [State.canon_mk_eq]; refine State.canon_mk ?_) | split | intro

theorem execStored_canon : ∀ p s t, execStored p s = .next t → s.Canon → t.Canon := by
  intro p s t h hs; unfold execStored at h
  refine State.engine_canon (fun s hs => ?_) h hs
  try simp only []
  repeat'
    first
    | with_reducible assumption | with_reducible apply State.moveReply_canon | with_reducible refine State.canon_ite ?_ ?_
    | with_reducible refine State.foldl_canon (fun _ _ _ => ?_) ?_
    | (simp only [State.canon_mk_eq]; refine State.canon_mk ?_) | split | intro

theorem execHeld_canon : ∀ p s t, execHeld p s = .next t → s.Canon → t.Canon := by
  intro p s t h hs; unfold execHeld at h
  refine State.engine_canon (fun s hs => ?_) h hs
  try simp only []
  repeat'
    first
    | with_reducible assumption | with_reducible apply State.moveReply_canon | with_reducible apply State.settleRow_canon
    | with_reducible refine State.canon_ite ?_ ?_ | with_reducible refine State.foldl_canon (fun _ _ _ => ?_) ?_
    | (simp only [State.canon_mk_eq]; refine State.canon_mk ?_) | split | intro

theorem execNotHeld_canon : ∀ p s t, execNotHeld p s = .next t → s.Canon → t.Canon := by
  intro p s t h hs; unfold execNotHeld at h
  refine State.engine_canon (fun s hs => ?_) h hs
  try simp only []
  repeat'
    first
    | with_reducible assumption | with_reducible apply State.moveReply_canon | with_reducible apply State.giveUpRow_canon
    | with_reducible refine State.canon_ite ?_ ?_ | with_reducible refine State.foldl_canon (fun _ _ _ => ?_) ?_
    | (simp only [State.canon_mk_eq]; refine State.canon_mk ?_) | split | intro

theorem execRead_canon : ∀ p s t, execRead p s = .next t → s.Canon → t.Canon := by
  intro p s t h hs; unfold execRead at h
  refine State.engine_canon (fun s hs => ?_) h hs
  try simp only []
  repeat'
    first
    | with_reducible assumption | with_reducible apply State.receive_canon | with_reducible apply State.serve_canon
    | with_reducible apply State.answer_canon | with_reducible refine State.canon_ite ?_ ?_
    | with_reducible refine State.foldl_canon (fun _ _ _ => ?_) ?_
    | (simp only [State.canon_mk_eq]; refine State.canon_mk ?_) | split | intro

theorem execWrite_canon : ∀ p s t, execWrite p s = .next t → s.Canon → t.Canon := by
  intro p s t h hs; unfold execWrite at h
  refine State.engine_canon (fun s hs => ?_) h hs
  try simp only []
  repeat'
    first
    | with_reducible assumption | with_reducible apply State.receive_canon | with_reducible apply State.serve_canon
    | with_reducible apply State.answer_canon | with_reducible apply State.storeWrite_canon
    | with_reducible refine State.canon_ite ?_ ?_ | with_reducible refine State.foldl_canon (fun _ _ _ => ?_) ?_
    | (simp only [State.canon_mk_eq]; refine State.canon_mk ?_) | split | intro

theorem execFetchAdd_canon : ∀ p s t, execFetchAdd p s = .next t → s.Canon → t.Canon := by
  intro p s t h hs; unfold execFetchAdd at h
  refine State.engine_canon (fun s hs => ?_) h hs
  try simp only []
  repeat'
    first
    | with_reducible assumption | with_reducible apply State.receive_canon | with_reducible apply State.serve_canon
    | with_reducible apply State.answer_canon | with_reducible apply State.addAt_canon
    | with_reducible refine State.canon_ite ?_ ?_ | with_reducible refine State.foldl_canon (fun _ _ _ => ?_) ?_
    | (simp only [State.canon_mk_eq]; refine State.canon_mk ?_) | split | intro

theorem execTest_canon : ∀ p s t, execTest p s = .next t → s.Canon → t.Canon := by
  intro p s t h hs; unfold execTest at h
  refine State.engine_canon (fun s hs => ?_) h hs
  try simp only []
  repeat'
    first
    | with_reducible assumption | with_reducible apply State.receive_canon | with_reducible apply State.answer_canon
    | with_reducible apply State.err_canon | with_reducible apply State.count_canon
    | with_reducible refine State.canon_ite ?_ ?_ | with_reducible refine State.foldl_canon (fun _ _ _ => ?_) ?_
    | (simp only [State.canon_mk_eq]; refine State.canon_mk ?_) | split | intro

theorem execResponse_canon : ∀ p s t, execResponse p s = .next t → s.Canon → t.Canon := by
  intro p s t h hs; unfold execResponse at h
  refine State.engine_canon (fun s hs => ?_) h hs
  try simp only []
  repeat'
    first
    | with_reducible assumption | with_reducible apply State.receive_canon | with_reducible apply State.respond_canon
    | with_reducible apply State.arrived_canon | with_reducible apply State.failBarge_canon
    | with_reducible refine State.canon_ite ?_ ?_ | with_reducible refine State.foldl_canon (fun _ _ _ => ?_) ?_
    | (simp only [State.canon_mk_eq]; refine State.canon_mk ?_) | split | intro

theorem execPacketForward_canon : ∀ port p s t, execPacketForward port p s = .next t → s.Canon → t.Canon := by
  intro port p s t h hs; unfold execPacketForward at h
  refine State.engine_canon (fun s hs => ?_) h hs
  try simp only []
  repeat'
    first
    | with_reducible assumption | with_reducible apply State.forwardPacket_canon

theorem execTransactionTimeout_canon : ∀ tag s t, execTransactionTimeout tag s = .next t → s.Canon → t.Canon := by
  intro tag s t h hs; unfold execTransactionTimeout at h
  refine State.engine_canon (fun s hs => ?_) h hs
  try simp only []
  repeat'
    first
    | with_reducible assumption | with_reducible apply State.tagTimeout_canon

theorem execTagQuarantineExpiry_canon : ∀ tag s t, execTagQuarantineExpiry tag s = .next t → s.Canon → t.Canon := by
  intro tag s t h hs; unfold execTagQuarantineExpiry at h
  refine State.engine_canon (fun s hs => ?_) h hs
  try simp only []
  repeat'
    first
    | with_reducible assumption | with_reducible apply State.endQuarantine_canon

theorem execHeldRequestDiscard_canon : ∀ k s t, execHeldRequestDiscard k s = .next t → s.Canon → t.Canon := by
  intro k s t h hs; unfold execHeldRequestDiscard at h
  refine State.engine_canon (fun s hs => ?_) h hs
  try simp only []
  repeat'
    first
    | with_reducible assumption | with_reducible apply State.dropHeld_canon

theorem execData_canon : ∀ port flit mark s t, execData port flit mark s = .next t → s.Canon → t.Canon := by
  intro port flit mark s t h hs; unfold execData at h
  refine State.engine_canon (fun s hs => ?_) h hs
  try simp only []
  repeat'
    first
    | with_reducible assumption | with_reducible apply State.rxFlit_canon | with_reducible apply State.dataFlit_canon
    | with_reducible refine State.canon_ite ?_ ?_ | with_reducible refine State.foldl_canon (fun _ _ _ => ?_) ?_
    | (simp only [State.canon_mk_eq]; refine State.canon_mk ?_) | split | intro

theorem execNak_canon : ∀ port flit s t, execNak port flit s = .next t → s.Canon → t.Canon := by
  intro port flit s t h hs; unfold execNak at h
  refine State.engine_canon (fun s hs => ?_) h hs
  try simp only []
  repeat'
    first
    | with_reducible assumption | with_reducible apply State.rxFlit_canon | with_reducible apply State.resend_canon
    | with_reducible refine State.canon_ite ?_ ?_ | with_reducible refine State.foldl_canon (fun _ _ _ => ?_) ?_
    | (simp only [State.canon_mk_eq]; refine State.canon_mk ?_) | split | intro

theorem execCredit_canon : ∀ port flit s t, execCredit port flit s = .next t → s.Canon → t.Canon := by
  intro port flit s t h hs; unfold execCredit at h
  refine State.engine_canon (fun s hs => ?_) h hs
  try simp only []
  repeat'
    first
    | with_reducible assumption | with_reducible apply State.rxFlit_canon | with_reducible apply State.creditFlit_canon
    | with_reducible refine State.canon_ite ?_ ?_ | with_reducible refine State.foldl_canon (fun _ _ _ => ?_) ?_
    | (simp only [State.canon_mk_eq]; refine State.canon_mk ?_) | split | intro

theorem execIdle_canon : ∀ port flit s t, execIdle port flit s = .next t → s.Canon → t.Canon := by
  intro port flit s t h hs; unfold execIdle at h
  refine State.engine_canon (fun s hs => ?_) h hs
  try simp only []
  repeat'
    first
    | with_reducible assumption | with_reducible apply State.rxFlit_canon | with_reducible refine State.canon_ite ?_ ?_
    | with_reducible refine State.foldl_canon (fun _ _ _ => ?_) ?_
    | (simp only [State.canon_mk_eq]; refine State.canon_mk ?_) | split | intro

theorem execLinkInit_canon : ∀ port flit s t, execLinkInit port flit s = .next t → s.Canon → t.Canon := by
  intro port flit s t h hs; unfold execLinkInit at h
  refine State.engine_canon (fun s hs => ?_) h hs
  try simp only []
  repeat'
    first
    | with_reducible assumption | with_reducible apply State.rxFlit_canon | with_reducible apply State.initFlit_canon
    | with_reducible refine State.canon_ite ?_ ?_ | with_reducible refine State.foldl_canon (fun _ _ _ => ?_) ?_
    | (simp only [State.canon_mk_eq]; refine State.canon_mk ?_) | split | intro

theorem execReplayTimeout_canon : ∀ port s t, execReplayTimeout port s = .next t → s.Canon → t.Canon := by
  intro port s t h hs; unfold execReplayTimeout at h
  refine State.engine_canon (fun s hs => ?_) h hs
  try simp only []
  repeat'
    first
    | with_reducible assumption | with_reducible apply State.replayLate_canon

theorem execPcsLock_canon : ∀ port s t, execPcsLock port s = .next t → s.Canon → t.Canon := by
  intro port s t h hs; unfold execPcsLock at h
  refine State.engine_canon (fun s hs => ?_) h hs
  try simp only []
  repeat'
    first
    | with_reducible assumption | with_reducible apply State.locked_canon

theorem execPcsLockLoss_canon : ∀ port s t, execPcsLockLoss port s = .next t → s.Canon → t.Canon := by
  intro port s t h hs; unfold execPcsLockLoss at h
  refine State.engine_canon (fun s hs => ?_) h hs
  try simp only []
  repeat'
    first
    | with_reducible assumption | with_reducible apply State.linkDown_canon
    | with_reducible refine State.canon_ite ?_ ?_

theorem execRetrainRelease_canon : ∀ port s t, execRetrainRelease port s = .next t → s.Canon → t.Canon := by
  intro port s t h hs; unfold execRetrainRelease at h
  refine State.engine_canon (fun s hs => ?_) h hs
  try simp only []
  repeat'
    first
    | with_reducible assumption | with_reducible apply State.retrainDone_canon

theorem execArrive_canon : ∀ p s t, execArrive p s = .next t → s.Canon → t.Canon := by
  intro p s t h hs; unfold execArrive at h
  refine State.engine_canon (fun s hs => ?_) h hs
  try simp only []
  repeat'
    first
    | with_reducible assumption | with_reducible apply State.bell_canon | with_reducible apply State.bellFromBelow_canon
    | with_reducible refine State.canon_ite ?_ ?_ | with_reducible refine State.foldl_canon (fun _ _ _ => ?_) ?_
    | (simp only [State.canon_mk_eq]; refine State.canon_mk ?_) | split | intro

theorem execGrant_canon : ∀ p s t, execGrant p s = .next t → s.Canon → t.Canon := by
  intro p s t h hs; unfold execGrant at h
  refine State.engine_canon (fun s hs => ?_) h hs
  try simp only []
  repeat'
    first
    | with_reducible assumption | with_reducible apply State.bell_canon | with_reducible apply State.bellFromAbove_canon
    | with_reducible apply State.seqArrives_canon | with_reducible refine State.canon_ite ?_ ?_
    | with_reducible refine State.foldl_canon (fun _ _ _ => ?_) ?_
    | (simp only [State.canon_mk_eq]; refine State.canon_mk ?_) | split | intro

theorem execOffer_canon : ∀ p s t, execOffer p s = .next t → s.Canon → t.Canon := by
  intro p s t h hs; unfold execOffer at h
  refine State.engine_canon (fun s hs => ?_) h hs
  try simp only []
  repeat'
    first
    | with_reducible assumption | with_reducible apply State.bell_canon | with_reducible apply State.bellFromBelow_canon
    | with_reducible refine State.canon_ite ?_ ?_ | with_reducible refine State.foldl_canon (fun _ _ _ => ?_) ?_
    | (simp only [State.canon_mk_eq]; refine State.canon_mk ?_) | split | intro

theorem execSegment_canon : ∀ p s t, execSegment p s = .next t → s.Canon → t.Canon := by
  intro p s t h hs; unfold execSegment at h
  refine State.engine_canon (fun s hs => ?_) h hs
  try simp only []
  repeat'
    first
    | with_reducible assumption | with_reducible apply State.bell_canon | with_reducible apply State.bellFromAbove_canon
    | with_reducible apply State.segmentArrives_canon | with_reducible refine State.canon_ite ?_ ?_
    | with_reducible refine State.foldl_canon (fun _ _ _ => ?_) ?_
    | (simp only [State.canon_mk_eq]; refine State.canon_mk ?_) | split | intro

theorem execBellBarrier_canon : ∀ p s t, execBellBarrier p s = .next t → s.Canon → t.Canon := by
  intro p s t h hs; unfold execBellBarrier at h
  refine State.engine_canon (fun s hs => ?_) h hs
  try simp only []
  repeat'
    first
    | with_reducible assumption | with_reducible apply State.bell_canon | with_reducible apply State.bellFromBelow_canon
    | with_reducible apply State.bellFromAbove_canon | with_reducible apply State.barrierDone_canon
    | with_reducible apply State.seqArrives_canon | with_reducible refine State.canon_ite ?_ ?_
    | with_reducible refine State.foldl_canon (fun _ _ _ => ?_) ?_
    | (simp only [State.canon_mk_eq]; refine State.canon_mk ?_) | split | intro

theorem execScalar_canon : ∀ p s t, execScalar p s = .next t → s.Canon → t.Canon := by
  intro p s t h hs; unfold execScalar at h
  refine State.engine_canon (fun s hs => ?_) h hs
  try simp only []
  repeat'
    first
    | with_reducible assumption | with_reducible apply State.bell_canon | with_reducible apply State.bellFromBelow_canon
    | with_reducible apply State.bellFromAbove_canon | with_reducible apply State.scalarArrives_canon
    | with_reducible refine State.canon_ite ?_ ?_ | with_reducible refine State.foldl_canon (fun _ _ _ => ?_) ?_
    | (simp only [State.canon_mk_eq]; refine State.canon_mk ?_) | split | intro

theorem execBellSeal_canon : ∀ p s t, execBellSeal p s = .next t → s.Canon → t.Canon := by
  intro p s t h hs; unfold execBellSeal at h
  refine State.engine_canon (fun s hs => ?_) h hs
  try simp only []
  repeat'
    first
    | with_reducible assumption | with_reducible apply State.bell_canon | with_reducible apply State.bellFromBelow_canon
    | with_reducible apply State.bellFromAbove_canon | with_reducible apply State.verdict_canon
    | with_reducible refine State.canon_ite ?_ ?_ | with_reducible refine State.foldl_canon (fun _ _ _ => ?_) ?_
    | (simp only [State.canon_mk_eq]; refine State.canon_mk ?_) | split | intro

theorem execAbort_canon : ∀ p s t, execAbort p s = .next t → s.Canon → t.Canon := by
  intro p s t h hs; unfold execAbort at h
  refine State.engine_canon (fun s hs => ?_) h hs
  try simp only []
  repeat'
    first
    | with_reducible assumption | with_reducible apply State.bell_canon | with_reducible apply State.bellFromAbove_canon
    | with_reducible apply State.abortArrives_canon | with_reducible refine State.canon_ite ?_ ?_
    | with_reducible refine State.foldl_canon (fun _ _ _ => ?_) ?_
    | (simp only [State.canon_mk_eq]; refine State.canon_mk ?_) | split | intro

theorem execAbandon_canon : ∀ p s t, execAbandon p s = .next t → s.Canon → t.Canon := by
  intro p s t h hs; unfold execAbandon at h
  refine State.engine_canon (fun s hs => ?_) h hs
  try simp only []
  repeat'
    first
    | with_reducible assumption | with_reducible apply State.bell_canon | with_reducible apply State.bellFromBelow_canon
    | with_reducible refine State.canon_ite ?_ ?_ | with_reducible refine State.foldl_canon (fun _ _ _ => ?_) ?_
    | (simp only [State.canon_mk_eq]; refine State.canon_mk ?_) | split | intro

theorem execCollPiece_canon : ∀ p s t, execCollPiece p s = .next t → s.Canon → t.Canon := by
  intro p s t h hs; unfold execCollPiece at h
  refine State.engine_canon (fun s hs => ?_) h hs
  try simp only []
  repeat'
    first
    | with_reducible assumption | with_reducible apply State.receive_canon | with_reducible apply State.pieceArrives_canon
    | with_reducible refine State.canon_ite ?_ ?_ | with_reducible refine State.foldl_canon (fun _ _ _ => ?_) ?_
    | (simp only [State.canon_mk_eq]; refine State.canon_mk ?_) | split | intro

theorem execPieceTimeout_canon : ∀ ctx s t, execPieceTimeout ctx s = .next t → s.Canon → t.Canon := by
  intro ctx s t h hs; unfold execPieceTimeout at h
  refine State.engine_canon (fun s hs => ?_) h hs
  try simp only []
  repeat'
    first
    | with_reducible assumption | with_reducible apply State.pieceExpired_canon

theorem execSealTimeout_canon : ∀ level seq s t, execSealTimeout level seq s = .next t → s.Canon → t.Canon := by
  intro level seq s t h hs; unfold execSealTimeout at h
  refine State.engine_canon (fun s hs => ?_) h hs
  try simp only []
  repeat'
    first
    | with_reducible assumption | with_reducible apply State.sealExpired_canon

theorem execBellResend_canon : ∀ k s t, execBellResend k s = .next t → s.Canon → t.Canon := by
  intro k s t h hs; unfold execBellResend at h
  refine State.engine_canon (fun s hs => ?_) h hs
  try simp only []
  repeat'
    first
    | with_reducible assumption | with_reducible apply State.resendBell_canon

theorem execCollLimitExpiry_canon : ∀ b i s t, execCollLimitExpiry b i s = .next t → s.Canon → t.Canon := by
  intro b i s t h hs; unfold execCollLimitExpiry at h
  refine State.engine_canon (fun s hs => ?_) h hs
  try simp only []
  repeat'
    first
    | with_reducible assumption | with_reducible apply State.collLimit_canon

theorem execPowerOn_canon : ∀ s t, execPowerOn s = .next t → s.Canon → t.Canon := by
  intro s t h hs; unfold execPowerOn at h
  cases h
  try simp only []
  repeat'
    first
    | with_reducible assumption | with_reducible apply State.resetBy_canon

theorem execBrownOut_canon : ∀ s t, execBrownOut s = .next t → s.Canon → t.Canon := by
  intro s t h hs; unfold execBrownOut at h
  cases h
  try simp only []
  repeat'
    first
    | with_reducible assumption | with_reducible apply State.resetBy_canon

theorem execPinReset_canon : ∀ s t, execPinReset s = .next t → s.Canon → t.Canon := by
  intro s t h hs; unfold execPinReset at h
  cases h
  try simp only []
  repeat'
    first
    | with_reducible assumption | with_reducible apply State.resetBy_canon

theorem execWatchdog_canon : ∀ s t, execWatchdog s = .next t → s.Canon → t.Canon := by
  intro s t h hs; unfold execWatchdog at h
  cases h
  try simp only []
  repeat'
    first
    | with_reducible assumption | with_reducible apply State.resetBy_canon
    | with_reducible refine State.canon_ite ?_ ?_

theorem execSwReset_canon : ∀ data s t, execSwReset data s = .next t → s.Canon → t.Canon := by
  intro data s t h hs; unfold execSwReset at h
  refine State.always_canon (fun s hs => ?_) h hs
  try simp only []
  repeat'
    first
    | with_reducible assumption | with_reducible apply State.swReset_canon

theorem execEngReset_canon : ∀ s t, execEngReset s = .next t → s.Canon → t.Canon := by
  intro s t h hs; unfold execEngReset at h
  cases h
  try simp only []
  repeat'
    first
    | with_reducible assumption | with_reducible apply State.resetBy_canon
    | with_reducible refine State.canon_ite ?_ ?_ | with_reducible refine State.foldl_canon (fun _ _ _ => ?_) ?_
    | (simp only [State.canon_mk_eq]; refine State.canon_mk ?_)

theorem execClockFailure_canon : ∀ c s t, execClockFailure c s = .next t → s.Canon → t.Canon := by
  intro c s t h hs; unfold execClockFailure at h
  cases h
  try simp only []
  repeat'
    first
    | with_reducible assumption | with_reducible apply State.resetBy_canon
    | with_reducible refine State.canon_ite ?_ ?_ | with_reducible refine State.foldl_canon (fun _ _ _ => ?_) ?_
    | (simp only [State.canon_mk_eq]; refine State.canon_mk ?_)

theorem execLockUp_canon : ∀ s t, execLockUp s = .next t → s.Canon → t.Canon := by
  intro s t h hs; unfold execLockUp at h
  cases h
  try simp only []
  repeat'
    first
    | with_reducible assumption | with_reducible apply State.resetBy_canon
    | with_reducible refine State.canon_ite ?_ ?_

theorem execResetRelease_canon : ∀ strapMv s t, execResetRelease strapMv s = .next t → s.Canon → t.Canon := by
  intro strapMv s t h hs; unfold execResetRelease at h
  cases h
  try simp only []
  repeat'
    first
    | with_reducible assumption | with_reducible apply State.releaseReset_canon
    | with_reducible refine State.canon_ite ?_ ?_

theorem execPllLock_canon : ∀ clock s t, execPllLock clock s = .next t → s.Canon → t.Canon := by
  intro clock s t h hs; unfold execPllLock at h
  refine State.always_canon (fun s hs => ?_) h hs
  try simp only []
  repeat'
    first
    | with_reducible assumption | with_reducible apply State.lockPll_canon

theorem execMonitorWindow_canon : ∀ clock count s t, execMonitorWindow clock count s = .next t → s.Canon → t.Canon := by
  intro clock count s t h hs; unfold execMonitorWindow at h
  refine State.always_canon (fun s hs => ?_) h hs
  try simp only []
  repeat'
    first
    | with_reducible assumption | with_reducible apply State.window_canon

theorem execMemPortReady_canon : ∀ port s t, execMemPortReady port s = .next t → s.Canon → t.Canon := by
  intro port s t h hs; unfold execMemPortReady at h
  refine State.always_canon (fun s hs => ?_) h hs
  try simp only []
  repeat'
    first
    | with_reducible assumption | with_reducible apply State.advance_canon
    | with_reducible refine State.canon_ite ?_ ?_ | with_reducible refine State.foldl_canon (fun _ _ _ => ?_) ?_
    | (simp only [State.canon_mk_eq]; refine State.canon_mk ?_)

theorem execCtrlParityError_canon : ∀ u s t, execCtrlParityError u s = .next t → s.Canon → t.Canon := by
  intro u s t h hs; unfold execCtrlParityError at h
  refine State.engine_canon (fun s hs => ?_) h hs
  try simp only []
  repeat'
    first
    | with_reducible assumption | with_reducible apply State.ctrlFault_canon

theorem execWdtKick_canon : ∀ data s t, execWdtKick data s = .next t → s.Canon → t.Canon := by
  intro data s t h hs; unfold execWdtKick at h
  refine State.always_canon (fun s hs => ?_) h hs
  try simp only []
  repeat'
    first
    | with_reducible assumption | with_reducible apply State.kick_canon

theorem execIsolate_canon : ∀ page s t, execIsolate page s = .next t → s.Canon → t.Canon := by
  intro page s t h hs; unfold execIsolate at h
  refine State.always_canon (fun s hs => ?_) h hs
  try simp only []
  repeat'
    first
    | with_reducible assumption | with_reducible apply State.setIsolate_canon

theorem execPlankIn_canon : ∀ page s t, execPlankIn page s = .next t → s.Canon → t.Canon := by
  intro page s t h hs; unfold execPlankIn at h
  refine State.always_canon (fun s hs => ?_) h hs
  try simp only []
  repeat'
    first
    | with_reducible assumption | with_reducible apply State.tryPlank_canon

theorem execResetReq_canon : ∀ page s t, execResetReq page s = .next t → s.Canon → t.Canon := by
  intro page s t h hs; unfold execResetReq at h
  refine State.always_canon (fun s hs => ?_) h hs
  try simp only []
  repeat'
    first
    | with_reducible assumption | with_reducible apply State.requestReset_canon

theorem execSectorReadComplete_canon : ∀ sector d s t, execSectorReadComplete sector d s = .next t → s.Canon → t.Canon := by
  intro sector d s t h hs; unfold execSectorReadComplete at h
  refine State.engine_canon (fun s hs => ?_) h hs
  try simp only []
  repeat'
    first
    | with_reducible assumption | with_reducible apply State.sectorRead_canon

theorem execSectorWriteResponse_canon : ∀ port err s t, execSectorWriteResponse port err s = .next t → s.Canon → t.Canon := by
  intro port err s t h hs; unfold execSectorWriteResponse at h
  refine State.engine_canon (fun s hs => ?_) h hs
  try simp only []
  repeat'
    first
    | with_reducible assumption | with_reducible apply State.sectorWritten_canon

theorem execHostReadData_canon : ∀ addr data err s t, execHostReadData addr data err s = .next t → s.Canon → t.Canon := by
  intro addr data err s t h hs; unfold execHostReadData at h
  refine State.engine_canon (fun s hs => ?_) h hs
  try simp only []
  repeat'
    first
    | with_reducible assumption | with_reducible apply State.hostUnit_canon

theorem execHostWriteAck_canon : ∀ tag err s t, execHostWriteAck tag err s = .next t → s.Canon → t.Canon := by
  intro tag err s t h hs; unfold execHostWriteAck at h
  refine State.engine_canon (fun s hs => ?_) h hs
  try simp only []
  repeat'
    first
    | with_reducible assumption | with_reducible apply State.hostAck_canon

theorem execVectorUnmask_canon : ∀ v s t, execVectorUnmask v s = .next t → s.Canon → t.Canon := by
  intro v s t h hs; unfold execVectorUnmask at h
  refine State.always_canon (fun s hs => ?_) h hs
  try simp only []
  repeat'
    first
    | with_reducible assumption | with_reducible apply State.writeVecCtrl_canon
    | with_reducible refine State.canon_ite ?_ ?_

theorem execImHoldRelease_canon : ∀ s t, execImHoldRelease s = .next t → s.Canon → t.Canon := by
  intro s t h hs; unfold execImHoldRelease at h
  refine State.engine_canon (fun s hs => ?_) h hs
  try simp only []
  repeat'
    first
    | with_reducible assumption | with_reducible apply State.offerPending_canon
    | with_reducible refine State.canon_ite ?_ ?_ | with_reducible refine State.foldl_canon (fun _ _ _ => ?_) ?_
    | (simp only [State.canon_mk_eq]; refine State.canon_mk ?_)

theorem execConfigCommit_canon : ∀ page seq s t, execConfigCommit page seq s = .next t → s.Canon → t.Canon := by
  intro page seq s t h hs; unfold execConfigCommit at h
  refine State.always_canon (fun s hs => ?_) h hs
  try simp only []
  repeat'
    first
    | with_reducible assumption | with_reducible apply State.commit_canon

theorem execCommitTakeEffect_canon : ∀ page s t, execCommitTakeEffect page s = .next t → s.Canon → t.Canon := by
  intro page s t h hs; unfold execCommitTakeEffect at h
  refine State.engine_canon (fun s hs => ?_) h hs
  try simp only []
  repeat'
    first
    | with_reducible assumption | with_reducible apply State.tryEffect_canon

theorem execRowInitClearDone_canon : ∀ s t, execRowInitClearDone s = .next t → s.Canon → t.Canon := by
  intro s t h hs; unfold execRowInitClearDone at h
  refine State.engine_canon (fun s hs => ?_) h hs
  try simp only []
  repeat'
    first
    | with_reducible assumption | with_reducible apply State.activate_canon
    | with_reducible refine State.canon_ite ?_ ?_

theorem execInjectSram_canon : ∀ page data s t, execInjectSram page data s = .next t → s.Canon → t.Canon := by
  intro page data s t h hs; unfold execInjectSram at h
  refine State.always_canon (fun s hs => ?_) h hs
  try simp only []
  repeat'
    first
    | with_reducible assumption | with_reducible apply State.injectAs_canon

theorem execInjectSector_canon : ∀ data s t, execInjectSector data s = .next t → s.Canon → t.Canon := by
  intro data s t h hs; unfold execInjectSector at h
  refine State.always_canon (fun s hs => ?_) h hs
  try simp only []
  repeat'
    first
    | with_reducible assumption | with_reducible apply State.injectAs_canon

theorem execInjectTag_canon : ∀ data s t, execInjectTag data s = .next t → s.Canon → t.Canon := by
  intro data s t h hs; unfold execInjectTag at h
  refine State.always_canon (fun s hs => ?_) h hs
  try simp only []
  repeat'
    first
    | with_reducible assumption | with_reducible apply State.injectAs_canon

theorem execInjectFlitCrc_canon : ∀ data s t, execInjectFlitCrc data s = .next t → s.Canon → t.Canon := by
  intro data s t h hs; unfold execInjectFlitCrc at h
  refine State.always_canon (fun s hs => ?_) h hs
  try simp only []
  repeat'
    first
    | with_reducible assumption | with_reducible apply State.injectAs_canon

theorem execInjectPiece_canon : ∀ data s t, execInjectPiece data s = .next t → s.Canon → t.Canon := by
  intro data s t h hs; unfold execInjectPiece at h
  refine State.always_canon (fun s hs => ?_) h hs
  try simp only []
  repeat'
    first
    | with_reducible assumption | with_reducible apply State.injectAs_canon

theorem execInjectCtrl_canon : ∀ page data s t, execInjectCtrl page data s = .next t → s.Canon → t.Canon := by
  intro page data s t h hs; unfold execInjectCtrl at h
  refine State.always_canon (fun s hs => ?_) h hs
  try simp only []
  repeat'
    first
    | with_reducible assumption | with_reducible apply State.injectAs_canon

theorem execInjectClock_canon : ∀ page data s t, execInjectClock page data s = .next t → s.Canon → t.Canon := by
  intro page data s t h hs; unfold execInjectClock at h
  refine State.always_canon (fun s hs => ?_) h hs
  try simp only []
  repeat'
    first
    | with_reducible assumption | with_reducible apply State.injectAs_canon

theorem execKeeperEnable_canon : ∀ s t, execKeeperEnable s = .next t → s.Canon → t.Canon := by
  intro s t h hs; unfold execKeeperEnable at h
  refine State.always_canon (fun s hs => ?_) h hs
  try simp only []
  repeat'
    first
    | with_reducible assumption | with_reducible apply State.keeperStart_canon

theorem execImemDataWrite_canon : ∀ data s t, execImemDataWrite data s = .next t → s.Canon → t.Canon := by
  intro data s t h hs; unfold execImemDataWrite at h
  refine State.always_canon (fun s hs => ?_) h hs
  try simp only []
  repeat'
    first
    | with_reducible assumption | with_reducible apply State.imemWrite_canon

theorem execImemDataRead_canon : ∀ s t, execImemDataRead s = .next t → s.Canon → t.Canon := by
  intro s t h hs; unfold execImemDataRead at h
  cases h
  try simp only []
  repeat'
    first
    | with_reducible assumption | with_reducible apply State.hostRead_canon

theorem execPeek_canon : ∀ data s t, execPeek data s = .next t → s.Canon → t.Canon := by
  intro data s t h hs; unfold execPeek at h
  refine State.always_canon (fun s hs => ?_) h hs
  try simp only []
  repeat'
    first
    | with_reducible assumption | with_reducible apply State.peekWrite_canon

theorem execPeekComplete_canon : ∀ s t, execPeekComplete s = .next t → s.Canon → t.Canon := by
  intro s t h hs; unfold execPeekComplete at h
  refine State.engine_canon (fun s hs => ?_) h hs
  try simp only []
  repeat'
    first
    | with_reducible assumption | with_reducible apply State.peekEnd_canon

theorem execTowpath_canon : ∀ dr s t, execTowpath dr s = .next t → s.Canon → t.Canon := by
  intro dr s t h hs; unfold execTowpath at h
  cases h
  try simp only []
  repeat'
    first
    | with_reducible assumption | with_reducible apply State.towpathDr_canon

theorem execIdcode_canon : ∀ s t, execIdcode s = .next t → s.Canon → t.Canon := by
  intro s t h hs; unfold execIdcode at h
  cases h
  try simp only []
  repeat'
    first
    | with_reducible assumption | with_reducible refine State.canon_ite ?_ ?_
    | with_reducible refine State.foldl_canon (fun _ _ _ => ?_) ?_
    | (simp only [State.canon_mk_eq]; refine State.canon_mk ?_)

theorem execBypass_canon : ∀ ir s t, execBypass ir s = .next t → s.Canon → t.Canon := by
  intro ir s t h hs; unfold execBypass at h
  cases h
  try simp only []
  repeat'
    first
    | with_reducible assumption | with_reducible refine State.canon_ite ?_ ?_
    | with_reducible refine State.foldl_canon (fun _ _ _ => ?_) ?_
    | (simp only [State.canon_mk_eq]; refine State.canon_mk ?_)

theorem execUnmappedAccess_canon : ∀ addr we s t, execUnmappedAccess addr we s = .next t → s.Canon → t.Canon := by
  intro addr we s t h hs; unfold execUnmappedAccess at h
  cases h
  try simp only []
  repeat'
    first
    | with_reducible assumption | with_reducible apply State.hostRegWrite_canon
    | with_reducible apply State.hostRead_canon | with_reducible refine State.canon_ite ?_ ?_

theorem execCounterReadClear_canon : ∀ addr s t, execCounterReadClear addr s = .next t → s.Canon → t.Canon := by
  intro addr s t h hs; unfold execCounterReadClear at h
  cases h
  try simp only []
  repeat'
    first
    | with_reducible assumption | with_reducible apply State.hostRead_canon

theorem execRegisterWrite_canon : ∀ addr data s t, execRegisterWrite addr data s = .next t → s.Canon → t.Canon := by
  intro addr data s t h hs; unfold execRegisterWrite at h
  cases h
  try simp only []
  repeat'
    first
    | with_reducible assumption | with_reducible apply State.hostRegWrite_canon

theorem execVbakLoss_canon : ∀ s t, execVbakLoss s = .next t → s.Canon → t.Canon := by
  intro s t h hs; unfold execVbakLoss at h
  cases h
  try simp only []
  repeat'
    first
    | with_reducible assumption | with_reducible apply State.loseVbak_canon

theorem execRegionPllLockLoss_canon : ∀ r s t, execRegionPllLockLoss r s = .next t → s.Canon → t.Canon := by
  intro r s t h hs; unfold execRegionPllLockLoss at h
  refine State.engine_canon (fun s hs => ?_) h hs
  try simp only []
  repeat'
    first
    | with_reducible assumption | with_reducible apply State.regionClockFails_canon
    | with_reducible apply State.unlock_canon | with_reducible refine State.canon_ite ?_ ?_

theorem execErrWindowEnd_canon : ∀ s t, execErrWindowEnd s = .next t → s.Canon → t.Canon := by
  intro s t h hs; unfold execErrWindowEnd at h
  refine State.engine_canon (fun s hs => ?_) h hs
  try simp only []
  repeat'
    first
    | with_reducible assumption | with_reducible refine State.canon_ite ?_ ?_
    | with_reducible refine State.foldl_canon (fun _ _ _ => ?_) ?_
    | (simp only [State.canon_mk_eq]; refine State.canon_mk ?_)

theorem execW1cWrite_canon : ∀ addr data s t, execW1cWrite addr data s = .next t → s.Canon → t.Canon := by
  intro addr data s t h hs; unfold execW1cWrite at h
  cases h
  try simp only []
  repeat'
    first
    | with_reducible assumption | with_reducible apply State.hostRegWrite_canon
    | with_reducible refine State.canon_ite ?_ ?_

theorem execWatchdogEnable_canon : ∀ data s t, execWatchdogEnable data s = .next t → s.Canon → t.Canon := by
  intro data s t h hs; unfold execWatchdogEnable at h
  refine State.always_canon (fun s hs => ?_) h hs
  try simp only []
  repeat'
    first
    | with_reducible assumption | with_reducible apply State.writeWdt_canon

theorem execTapReset_canon : ∀ s t, execTapReset s = .next t → s.Canon → t.Canon := by
  intro s t h hs; unfold execTapReset at h
  cases h
  try simp only []
  repeat'
    first
    | with_reducible assumption | with_reducible refine State.canon_ite ?_ ?_
    | with_reducible refine State.foldl_canon (fun _ _ _ => ?_) ?_
    | (simp only [State.canon_mk_eq]; refine State.canon_mk ?_)

end Sys2Proof.Machine
end

