-- ==== Sys2Proof/Laws/Mask.lean ====
section
/-! SUPPORT. Frames. A mask names the fields of State that an operation may change; two states that agree under a mask
agree in every field that the mask does not name. -/

namespace Sys2Proof.Machine

open Sys2Proof

/-- The fields of State that an operation may change. -/
structure Mask where
  pending : Bool := false
  params : Bool := false
  aoUs : Bool := false
  rst : Bool := false
  regs : Bool := false
  ext : Bool := false
  tags : Bool := false
  hostMem : Bool := false
  scratch : Bool := false
  pool : Bool := false
  pound : Bool := false
  marks : Bool := false
  imem : Bool := false
  hq : Bool := false
  regions : Bool := false
  tileErrs : Bool := false
  errWindowFrom : Bool := false
  sv : Bool := false
  rows : Bool := false
  gathers : Bool := false
  fab : Bool := false
  col : Bool := false
  tap : Bool := false
  port : Bool := false
  armed : Bool := false
  memCounts : Bool := false
  picks : Bool := false
deriving DecidableEq, Repr

/-- The state with the named fields put out of sight. -/
def State.mask (M : Mask) (s : State) : State :=
  { pending := if M.pending then [] else s.pending
    params := if M.params then {} else s.params
    aoUs := if M.aoUs then 0 else s.aoUs
    rst := if M.rst then {} else s.rst
    regs := if M.regs then [] else s.regs
    ext := if M.ext then [] else s.ext
    tags := if M.tags then [] else s.tags
    hostMem := if M.hostMem then [] else s.hostMem
    scratch := if M.scratch then [] else s.scratch
    pool := if M.pool then [] else s.pool
    pound := if M.pound then [] else s.pound
    marks := if M.marks then [] else s.marks
    imem := if M.imem then [] else s.imem
    hq := if M.hq then {} else s.hq
    regions := if M.regions then [] else s.regions
    tileErrs := if M.tileErrs then [] else s.tileErrs
    errWindowFrom := if M.errWindowFrom then 0 else s.errWindowFrom
    sv := if M.sv then {} else s.sv
    rows := if M.rows then {} else s.rows
    gathers := if M.gathers then [] else s.gathers
    fab := if M.fab then {} else s.fab
    col := if M.col then {} else s.col
    tap := if M.tap then {} else s.tap
    port := if M.port then {} else s.port
    armed := if M.armed then {} else s.armed
    memCounts := if M.memCounts then [] else s.memCounts
    picks := if M.picks then 0 else s.picks }

/-- A choice between two states, seen through a mask. -/
@[simp] theorem State.mask_ite (M : Mask) (c : Prop) [Decidable c] (a b : State) :
    (if c then a else b).mask M = if c then a.mask M else b.mask M := by
  split <;> rfl

/-- A field put out of sight reads alike in both states. -/
theorem hid {α : Type} (b : Bool) (x y : α) {d : α} (h : b = false → x = y) :
    (if b = true then d else x) = if b = true then d else y := by
  cases b with
  | true => rfl
  | false => rw [h rfl]

/-- An update of fields that the mask names. -/
@[simp] theorem State.mask_mk (M : Mask) (t : State)
    {params_ : Params} (h_params : M.params = false → params_ = t.params)
    {aoUs_ : BitVec 48} (h_aoUs : M.aoUs = false → aoUs_ = t.aoUs)
    {rst_ : ResetState} (h_rst : M.rst = false → rst_ = t.rst)
    {regs_ : SMap Word} (h_regs : M.regs = false → regs_ = t.regs)
    {ext_ : Mem} (h_ext : M.ext = false → ext_ = t.ext)
    {tags_ : SMap Tag} (h_tags : M.tags = false → tags_ = t.tags)
    {hostMem_ : Mem} (h_hostMem : M.hostMem = false → hostMem_ = t.hostMem)
    {scratch_ : Mem} (h_scratch : M.scratch = false → scratch_ = t.scratch)
    {pool_ : Mem} (h_pool : M.pool = false → pool_ = t.pool)
    {pound_ : Mem} (h_pound : M.pound = false → pound_ = t.pound)
    {marks_ : SMap Mark} (h_marks : M.marks = false → marks_ = t.marks)
    {imem_ : Mem} (h_imem : M.imem = false → imem_ = t.imem)
    {hq_ : Queues} (h_hq : M.hq = false → hq_ = t.hq)
    {regions_ : SMap Region} (h_regions : M.regions = false → regions_ = t.regions)
    {tileErrs_ : SMap (Nat × Nat)} (h_tileErrs : M.tileErrs = false → tileErrs_ = t.tileErrs)
    {errWindowFrom_ : Nat} (h_errWindowFrom : M.errWindowFrom = false → errWindowFrom_ = t.errWindowFrom)
    {sv_ : Serving} (h_sv : M.sv = false → sv_ = t.sv)
    {rows_ : Rows} (h_rows : M.rows = false → rows_ = t.rows)
    {gathers_ : List GatherRun} (h_gathers : M.gathers = false → gathers_ = t.gathers)
    {fab_ : Fabric} (h_fab : M.fab = false → fab_ = t.fab)
    {col_ : Coll} (h_col : M.col = false → col_ = t.col)
    {tap_ : Tap} (h_tap : M.tap = false → tap_ = t.tap)
    {port_ : RegPort} (h_port : M.port = false → port_ = t.port)
    {armed_ : Armed} (h_armed : M.armed = false → armed_ = t.armed)
    {memCounts_ : SMap Nat} (h_memCounts : M.memCounts = false → memCounts_ = t.memCounts)
    {picks_ : Nat} (h_picks : M.picks = false → picks_ = t.picks)
    : (State.mk t.pending params_ aoUs_ rst_ regs_ ext_ tags_ hostMem_ scratch_ pool_ pound_ marks_ imem_ hq_ regions_ tileErrs_ errWindowFrom_ sv_ rows_ gathers_ fab_ col_ tap_ port_ armed_ memCounts_ picks_).mask M = t.mask M := by
  simp only [State.mask, State.mk.injEq]
  refine ⟨trivial, hid _ _ _ h_params, hid _ _ _ h_aoUs, hid _ _ _ h_rst, hid _ _ _ h_regs, hid _ _ _ h_ext, hid _ _ _ h_tags, hid _ _ _ h_hostMem, hid _ _ _ h_scratch, hid _ _ _ h_pool, hid _ _ _ h_pound, hid _ _ _ h_marks, hid _ _ _ h_imem, hid _ _ _ h_hq, hid _ _ _ h_regions, hid _ _ _ h_tileErrs, hid _ _ _ h_errWindowFrom, hid _ _ _ h_sv, hid _ _ _ h_rows, hid _ _ _ h_gathers, hid _ _ _ h_fab, hid _ _ _ h_col, hid _ _ _ h_tap, hid _ _ _ h_port, hid _ _ _ h_armed, hid _ _ _ h_memCounts, hid _ _ _ h_picks⟩

/-- The state of a pair that an operation answered. -/
theorem State.pair_mask {α : Type} {M : Mask} {t : State} {p : α × State} {a : α} {s : State} (e : p = (a, s))
    (h : p.2.mask M = t.mask M) : s.mask M = t.mask M := by
  rw [← h, e]

/-- A fold over a list stays under a mask if each of its steps does. -/
@[simp] theorem State.foldl_mask {α : Type} (M : Mask) (f : State → α → State)
    (h : ∀ s x, (f s x).mask M = s.mask M) (l : List α) (s : State) : (l.foldl f s).mask M = s.mask M := by
  induction l generalizing s with
  | nil => rfl
  | cons x l ih => rw [List.foldl_cons, ih, h]

/-- A fold over a list that carries a value beside the state. -/
@[simp] theorem State.foldl_pair_mask {α β : Type} (M : Mask) (f : β × State → α → β × State)
    (h : ∀ p x, (f p x).2.mask M = p.2.mask M) (l : List α) (p : β × State) : (l.foldl f p).2.mask M = p.2.mask M := by
  induction l generalizing p with
  | nil => rfl
  | cons x l ih => rw [List.foldl_cons, ih, h]

/-- A fold that carries a value after the state. -/
@[simp] theorem State.foldl_fst_mask {α β : Type} (M : Mask) (f : State × β → α → State × β)
    (h : ∀ p x, (f p x).1.mask M = p.1.mask M) (l : List α) (p : State × β) : (l.foldl f p).1.mask M = p.1.mask M := by
  induction l generalizing p with
  | nil => rfl
  | cons x l ih => rw [List.foldl_cons, ih, h]

end Sys2Proof.Machine
end

