-- ==== Sys2Proof/Laws/FrameStores.lean ====
section
/-! SUPPORT. What each operation of the registers, flags, stores and the queues' shared operations leaves untouched: the lemma of an operation
holds under every mask that names the fields the operation may change. -/

namespace Sys2Proof.Machine

open Sys2Proof

@[simp] theorem State.setReg_mask (M : Mask) (h_regs : M.regs = true) :
    ∀ s page o v, (State.setReg s page o v).mask M = s.mask M := by
  intro s page o v; unfold State.setReg; simp [*]

@[simp] theorem State.setRegN_mask (M : Mask) (h_regs : M.regs = true) :
    ∀ s page o v, (State.setRegN s page o v).mask M = s.mask M := by
  intro s page o v; unfold State.setRegN; simp [*]

@[simp] theorem State.count_mask (M : Mask) (h_regs : M.regs = true) :
    ∀ s page o n, (State.count s page o n).mask M = s.mask M := by
  intro s page o n; unfold State.count; simp [*]

@[simp] theorem State.setIrqPending_mask (M : Mask) (h_regs : M.regs = true) :
    ∀ s v b, (State.setIrqPending s v b).mask M = s.mask M := by
  intro s v b; unfold State.setIrqPending; simp [*]

@[simp] theorem State.sendIrq_mask (M : Mask) (h_regs : M.regs = true) (h_hq : M.hq = true) :
    ∀ s v, (State.sendIrq s v).mask M = s.mask M := by
  intro s v; unfold State.sendIrq; simp [*]

@[simp] theorem State.raiseNow_mask (M : Mask) (h_regs : M.regs = true) (h_hq : M.hq = true) :
    ∀ s v, (State.raiseNow s v).mask M = s.mask M := by
  intro s v; unfold State.raiseNow; simp [*]

@[simp] theorem State.raise_mask (M : Mask) (h_regs : M.regs = true) (h_hq : M.hq = true) :
    ∀ s v tags, (State.raise s v tags).mask M = s.mask M := by
  intro s v tags; unfold State.raise; simp [*]

@[simp] theorem State.err_mask (M : Mask) (h_regs : M.regs = true) (h_hq : M.hq = true) :
    ∀ s page b, (State.err s page b).mask M = s.mask M := by
  intro s page b; unfold State.err; simp [*]

@[simp] theorem State.poisoning_mask (M : Mask) (h_regs : M.regs = true) (h_hq : M.hq = true) :
    ∀ s page b, (State.poisoning s page b).mask M = s.mask M := by
  intro s page b; unfold State.poisoning; simp [*]

@[simp] theorem State.setTag_mask (M : Mask) (h_tags : M.tags = true) :
    ∀ s k t, (State.setTag s k t).mask M = s.mask M := by
  intro s k t; unfold State.setTag; simp [*]

@[simp] theorem State.writeTag_mask (M : Mask) (h_regs : M.regs = true) (h_tags : M.tags = true) (h_hq : M.hq = true)
    (h_armed : M.armed = true) : ∀ s a n new poison k, (State.writeTag s a n new poison k).mask M = s.mask M := by
  intro s a n new poison k; unfold State.writeTag; simp [*]; (repeat' split) <;> simp_all

@[simp] theorem State.extWriteTag_mask (M : Mask) (h_regs : M.regs = true) (h_ext : M.ext = true)
    (h_tags : M.tags = true) (h_hq : M.hq = true) (h_armed : M.armed = true) :
    ∀ s a bs new poison, (State.extWriteTag s a bs new poison).mask M = s.mask M := by
  intro s a bs new poison; unfold State.extWriteTag; simp [*]

@[simp] theorem State.extWrite_mask (M : Mask) (h_regs : M.regs = true) (h_ext : M.ext = true) (h_tags : M.tags = true)
    (h_hq : M.hq = true) (h_armed : M.armed = true) :
    ∀ s a bs poison, (State.extWrite s a bs poison).mask M = s.mask M := by
  intro s a bs poison; unfold State.extWrite; simp [*]

@[simp] theorem State.setTileQuar_mask (M : Mask) (h_regs : M.regs = true) :
    ∀ s t b, (State.setTileQuar s t b).mask M = s.mask M := by
  intro s t b; unfold State.setTileQuar; simp [*]

@[simp] theorem State.markTileQuar_mask (M : Mask) (h_regs : M.regs = true) (h_hq : M.hq = true) :
    ∀ s t, (State.markTileQuar s t).mask M = s.mask M := by
  intro s t; unfold State.markTileQuar; simp [*]

@[simp] theorem State.countTileErr_mask (M : Mask) (h_regs : M.regs = true) (h_hq : M.hq = true)
    (h_tileErrs : M.tileErrs = true) : ∀ s st ue, (State.countTileErr s st ue).mask M = s.mask M := by
  intro s st ue; unfold State.countTileErr; (repeat' split) <;> simp_all

@[simp] theorem State.corrected_mask (M : Mask) (h_regs : M.regs = true) (h_hq : M.hq = true) :
    ∀ s page b, (State.corrected s page b).mask M = s.mask M := by
  intro s page b; unfold State.corrected; simp [*]

@[simp] theorem State.setMark_mask (M : Mask) (h_marks : M.marks = true) :
    ∀ s k m, (State.setMark s k m).mask M = s.mask M := by
  intro s k m; unfold State.setMark; simp [*]

@[simp] theorem State.seeWord_mask (M : Mask) (h_regs : M.regs = true) (h_marks : M.marks = true) (h_hq : M.hq = true)
    (h_tileErrs : M.tileErrs = true) (h_armed : M.armed = true) :
    ∀ s st w, (State.seeWord s st w).mask M = s.mask M := by
  intro s st w; unfold State.seeWord; (repeat' split) <;> simp_all

@[simp] theorem State.see_mask (M : Mask) (h_regs : M.regs = true) (h_marks : M.marks = true) (h_hq : M.hq = true)
    (h_tileErrs : M.tileErrs = true) (h_armed : M.armed = true) :
    ∀ s st a n, (State.see s st a n).mask M = s.mask M := by
  intro s st a n; unfold State.see; (repeat' split) <;> simp_all

@[simp] theorem State.updBarge_mask (M : Mask) (h_sv : M.sv = true) :
    ∀ s b f, (State.updBarge s b f).mask M = s.mask M := by
  intro s b f; unfold State.updBarge; simp [*]

@[simp] theorem State.strike_mask (M : Mask) (h_regs : M.regs = true) (h_marks : M.marks = true) (h_hq : M.hq = true)
    (h_tileErrs : M.tileErrs = true) (h_armed : M.armed = true) :
    ∀ s st w, (State.strike s st w).mask M = s.mask M := by
  intro s st w; unfold State.strike; (repeat' split) <;> simp_all

@[simp] theorem State.writeMark_mask (M : Mask) (h_regs : M.regs = true) (h_marks : M.marks = true)
    (h_hq : M.hq = true) (h_tileErrs : M.tileErrs = true) (h_armed : M.armed = true) :
    ∀ s st a n pend poison w, (State.writeMark s st a n pend poison w).mask M = s.mask M := by
  intro s st a n pend poison w; unfold State.writeMark; simp [*]

@[simp] theorem State.wr_mask (M : Mask) (h_regs : M.regs = true) (h_ext : M.ext = true) (h_tags : M.tags = true)
    (h_scratch : M.scratch = true) (h_pool : M.pool = true) (h_pound : M.pound = true) (h_marks : M.marks = true)
    (h_hq : M.hq = true) (h_tileErrs : M.tileErrs = true) (h_armed : M.armed = true) :
    ∀ s st a bs pend poison, (State.wr s st a bs pend poison).mask M = s.mask M := by
  intro s st a bs pend poison; unfold State.wr; (repeat' split) <;> simp_all

@[simp] theorem State.setRegion_mask (M : Mask) (h_regions : M.regions = true) :
    ∀ s r x, (State.setRegion s r x).mask M = s.mask M := by
  intro s r x; unfold State.setRegion; simp [*]

@[simp] theorem State.updRegion_mask (M : Mask) (h_regions : M.regions = true) :
    ∀ s r f, (State.updRegion s r f).mask M = s.mask M := by
  intro s r f; unfold State.updRegion; simp [*]

@[simp] theorem State.extPutNat_mask (M : Mask) (h_regs : M.regs = true) (h_ext : M.ext = true)
    (h_tags : M.tags = true) (h_hq : M.hq = true) (h_armed : M.armed = true) :
    ∀ s a n v, (State.extPutNat s a n v).mask M = s.mask M := by
  intro s a n v; unfold State.extPutNat; simp [*]

@[simp] theorem State.journalWrite_mask (M : Mask) (h_regs : M.regs = true) (h_ext : M.ext = true)
    (h_tags : M.tags = true) (h_hq : M.hq = true) (h_armed : M.armed = true) :
    ∀ s j r jstate, (State.journalWrite s j r jstate).mask M = s.mask M := by
  intro s j r jstate; unfold State.journalWrite; simp [*]

@[simp] theorem State.noteFate_mask (M : Mask) (h_regs : M.regs = true) (h_hq : M.hq = true) :
    ∀ s fate, (State.noteFate s fate).mask M = s.mask M := by
  intro s fate; unfold State.noteFate; simp [*]

@[simp] theorem State.dupFate_mask (M : Mask) (h_hq : M.hq = true) :
    ∀ s j fate, (State.dupFate s j fate).mask M = s.mask M := by
  intro s j fate; unfold State.dupFate; simp [*]

@[simp] theorem State.dropItem_mask (M : Mask) (h_hq : M.hq = true) :
    ∀ s j, (State.dropItem s j).mask M = s.mask M := by
  intro s j; unfold State.dropItem; simp [*]

@[simp] theorem State.setCq_mask (M : Mask) (h_hq : M.hq = true) :
    ∀ s n q, (State.setCq s n q).mask M = s.mask M := by
  intro s n q; unfold State.setCq; simp [*]

@[simp] theorem State.queueRec_mask (M : Mask) (h_hq : M.hq = true) :
    ∀ s cq r, (State.queueRec s cq r).mask M = s.mask M := by
  intro s cq r; unfold State.queueRec; simp [*]

@[simp] theorem State.settle_mask (M : Mask) (h_regs : M.regs = true) (h_ext : M.ext = true) (h_tags : M.tags = true)
    (h_hq : M.hq = true) (h_armed : M.armed = true) :
    ∀ s it fate v0 v1 detail berth frees, (State.settle s it fate v0 v1 detail berth frees).mask M = s.mask M := by
  intro s it fate v0 v1 detail berth frees; unfold State.settle; simp [*]

@[simp] theorem State.setBerth_mask (M : Mask) (h_sv : M.sv = true) :
    ∀ s n x, (State.setBerth s n x).mask M = s.mask M := by
  intro s n x; unfold State.setBerth; simp [*]

@[simp] theorem State.settleJ_mask (M : Mask) (h_regs : M.regs = true) (h_ext : M.ext = true) (h_tags : M.tags = true)
    (h_hq : M.hq = true) (h_armed : M.armed = true) :
    ∀ s j fate v0, (State.settleJ s j fate v0).mask M = s.mask M := by
  intro s j fate v0; unfold State.settleJ; (repeat' split) <;> simp_all

@[simp] theorem State.setMooring_mask (M : Mask) (h_sv : M.sv = true) :
    ∀ s m x, (State.setMooring s m x).mask M = s.mask M := by
  intro s m x; unfold State.setMooring; simp [*]

@[simp] theorem State.updMooring_mask (M : Mask) (h_sv : M.sv = true) :
    ∀ s m f, (State.updMooring s m f).mask M = s.mask M := by
  intro s m f; unfold State.updMooring; simp [*]

@[simp] theorem State.updBerth_mask (M : Mask) (h_sv : M.sv = true) :
    ∀ s n f, (State.updBerth s n f).mask M = s.mask M := by
  intro s n f; unfold State.updBerth; simp [*]

@[simp] theorem State.setAccount_mask (M : Mask) (h_sv : M.sv = true) :
    ∀ s n x, (State.setAccount s n x).mask M = s.mask M := by
  intro s n x; unfold State.setAccount; simp [*]

@[simp] theorem State.updAccount_mask (M : Mask) (h_sv : M.sv = true) :
    ∀ s n f, (State.updAccount s n f).mask M = s.mask M := by
  intro s n f; unfold State.updAccount; simp [*]

@[simp] theorem State.sealHeader_mask (M : Mask) (h_regs : M.regs = true) (h_ext : M.ext = true)
    (h_tags : M.tags = true) (h_hq : M.hq = true) (h_armed : M.armed = true) :
    ∀ s, (State.sealHeader s).mask M = s.mask M := by
  intro s; unfold State.sealHeader; simp [*]

@[simp] theorem State.journalOpen_mask (M : Mask) (h_regs : M.regs = true) (h_ext : M.ext = true)
    (h_tags : M.tags = true) (h_hq : M.hq = true) (h_armed : M.armed = true) :
    ∀ s j r, (State.journalOpen s j r).mask M = s.mask M := by
  intro s j r; unfold State.journalOpen; simp [*]

@[simp] theorem State.updItem_mask (M : Mask) (h_hq : M.hq = true) :
    ∀ s j f, (State.updItem s j f).mask M = s.mask M := by
  intro s j f; unfold State.updItem; simp [*]

@[simp] theorem State.setSq_mask (M : Mask) (h_hq : M.hq = true) :
    ∀ s n q, (State.setSq s n q).mask M = s.mask M := by
  intro s n q; unfold State.setSq; simp [*]

@[simp] theorem State.wrNat_mask (M : Mask) (h_regs : M.regs = true) (h_ext : M.ext = true) (h_tags : M.tags = true)
    (h_scratch : M.scratch = true) (h_pool : M.pool = true) (h_pound : M.pound = true) (h_marks : M.marks = true)
    (h_hq : M.hq = true) (h_tileErrs : M.tileErrs = true) (h_armed : M.armed = true) :
    ∀ s st a n v pend, (State.wrNat s st a n v pend).mask M = s.mask M := by
  intro s st a n v pend; unfold State.wrNat; simp [*]

@[simp] theorem State.noteBank_mask (M : Mask) (h_hq : M.hq = true) :
    ∀ s page bank ok, (State.noteBank s page bank ok).mask M = s.mask M := by
  intro s page bank ok; unfold State.noteBank
  simp [*]

@[simp] theorem State.storeHeads_mask (M : Mask) (h_regs : M.regs = true) (h_ext : M.ext = true)
    (h_tags : M.tags = true) (h_hq : M.hq = true) (h_armed : M.armed = true) :
    ∀ s, (State.storeHeads s).mask M = s.mask M := by
  intro s; unfold State.storeHeads; simp [*]

@[simp] theorem State.journalMark_mask (M : Mask) (h_regs : M.regs = true) (h_ext : M.ext = true)
    (h_tags : M.tags = true) (h_hq : M.hq = true) (h_armed : M.armed = true) :
    ∀ s j jstate, (State.journalMark s j jstate).mask M = s.mask M := by
  intro s j jstate; unfold State.journalMark; simp [*]

@[simp] theorem State.hostWrite1_mask (M : Mask) (h_hq : M.hq = true) :
    ∀ s owner p, (State.hostWrite1 s owner p).mask M = s.mask M := by
  intro s owner p; unfold State.hostWrite1; simp [*]

@[simp] theorem State.hostWrite_mask (M : Mask) (h_hq : M.hq = true) :
    ∀ s a bs owner, (State.hostWrite s a bs owner).mask M = s.mask M := by
  intro s a bs owner; unfold State.hostWrite; simp [*]

@[simp] theorem State.locWrite_mask (M : Mask) (h_regs : M.regs = true) (h_ext : M.ext = true) (h_tags : M.tags = true)
    (h_hq : M.hq = true) (h_armed : M.armed = true) :
    ∀ s inExt a bs owner, (State.locWrite s inExt a bs owner).mask M = s.mask M := by
  intro s inExt a bs owner; unfold State.locWrite; simp [*]

@[simp] theorem State.offerPending_mask (M : Mask) (h_regs : M.regs = true) (h_hq : M.hq = true) :
    ∀ s v, (State.offerPending s v).mask M = s.mask M := by
  intro s v; unfold State.offerPending; simp [*]

@[simp] theorem State.poisoningEngine_mask (M : Mask) (h_regs : M.regs = true) (h_hq : M.hq = true) :
    ∀ s, (State.poisoningEngine s).mask M = s.mask M := by
  intro s; unfold State.poisoningEngine; simp [*]

@[simp] theorem State.memCount_mask (M : Mask) (h_memCounts : M.memCounts = true) :
    ∀ s p k n, (State.memCount s p k n).mask M = s.mask M := by
  intro s p k n; unfold State.memCount; simp [*]

@[simp] theorem State.refusePoison_mask (M : Mask) (h_regs : M.regs = true) :
    ∀ s, (State.refusePoison s).mask M = s.mask M := by
  intro s; unfold State.refusePoison; simp [*]

@[simp] theorem State.clearErr_mask (M : Mask) (h_regs : M.regs = true) :
    ∀ s page ones, (State.clearErr s page ones).mask M = s.mask M := by
  intro s page ones; unfold State.clearErr; simp [*]

end Sys2Proof.Machine
end

