-- ==== Sys2Proof/Laws/FrameBarges.lean ====
section
/-! SUPPORT. What each operation of operands, serving, barges, op records, locks and queue items leaves untouched: the lemma of an operation
holds under every mask that names the fields the operation may change. -/

namespace Sys2Proof.Machine

open Sys2Proof

@[simp] theorem State.seeIn_mask (M : Mask) (h_regs : M.regs = true) (h_marks : M.marks = true) (h_hq : M.hq = true)
    (h_tileErrs : M.tileErrs = true) (h_armed : M.armed = true) :
    ∀ s st rs, (State.seeIn s st rs).mask M = s.mask M := by
  intro s st rs; unfold State.seeIn; simp [*]

@[simp] theorem State.notePend_mask (M : Mask) (h_sv : M.sv = true) :
    ∀ s b i m, (State.notePend s b i m).mask M = s.mask M := by
  intro s b i m; unfold State.notePend; simp [*]

@[simp] theorem State.addUnit_mask (M : Mask) (h_sv : M.sv = true) :
    ∀ s u, (State.addUnit s u).mask M = s.mask M := by
  intro s u; unfold State.addUnit; (repeat' split) <;> simp_all

@[simp] theorem State.countNum_mask (M : Mask) (h_regs : M.regs = true) :
    ∀ s r e, (State.countNum s r e).mask M = s.mask M := by
  intro s r e; unfold State.countNum; simp [*]

@[simp] theorem State.takePicks_mask (M : Mask) (h_picks : M.picks = true) :
    ∀ s n, (State.takePicks s n).mask M = s.mask M := by
  intro s n; unfold State.takePicks; simp [*]

@[simp] theorem State.takeDraws_mask (M : Mask) (h_regions : M.regions = true) :
    ∀ s r n, (State.takeDraws s r n).mask M = s.mask M := by
  intro s r n; unfold State.takeDraws; simp [*]

@[simp] theorem State.mapMarks_mask (M : Mask) (h_marks : M.marks = true) :
    ∀ s p f, (State.mapMarks s p f).mask M = s.mask M := by
  intro s p f; unfold State.mapMarks; simp [*]

@[simp] theorem State.resolveCancels_mask (M : Mask) (h_regs : M.regs = true) (h_ext : M.ext = true)
    (h_tags : M.tags = true) (h_hq : M.hq = true) (h_armed : M.armed = true) :
    ∀ s n fate, (State.resolveCancels s n fate).mask M = s.mask M := by
  intro s n fate; unfold State.resolveCancels; simp [*]

@[simp] theorem State.fateRequest_mask (M : Mask) (h_regs : M.regs = true) (h_ext : M.ext = true)
    (h_tags : M.tags = true) (h_hq : M.hq = true) (h_sv : M.sv = true) (h_armed : M.armed = true) :
    ∀ s n fate, (State.fateRequest s n fate).mask M = s.mask M := by
  intro s n fate; unfold State.fateRequest; simp [*]; (repeat' split) <;> simp_all

@[simp] theorem State.endRequest_mask (M : Mask) (h_regs : M.regs = true) (h_ext : M.ext = true)
    (h_tags : M.tags = true) (h_hq : M.hq = true) (h_sv : M.sv = true) (h_armed : M.armed = true) :
    ∀ s n fate, (State.endRequest s n fate).mask M = s.mask M := by
  intro s n fate; unfold State.endRequest; simp [*]

@[simp] theorem State.failBarge_mask (M : Mask) (h_regs : M.regs = true) (h_ext : M.ext = true)
    (h_tags : M.tags = true) (h_marks : M.marks = true) (h_hq : M.hq = true) (h_sv : M.sv = true)
    (h_gathers : M.gathers = true) (h_armed : M.armed = true) :
    ∀ s id fate, (State.failBarge s id fate).mask M = s.mask M := by
  intro s id fate; unfold State.failBarge; (repeat' split) <;> simp_all

@[simp] theorem State.acctCount_mask (M : Mask) (h_sv : M.sv = true) :
    ∀ s tenant f, (State.acctCount s tenant f).mask M = s.mask M := by
  intro s tenant f; unfold State.acctCount; simp [*]

@[simp] theorem State.boundaryOf_mask (M : Mask) (h_regs : M.regs = true) (h_ext : M.ext = true)
    (h_tags : M.tags = true) (h_hq : M.hq = true) (h_sv : M.sv = true) (h_armed : M.armed = true) :
    ∀ s n, (State.boundaryOf s n).mask M = s.mask M := by
  intro s n; unfold State.boundaryOf; simp [*]; (repeat' split) <;> simp_all

@[simp] theorem State.dropPin_mask (M : Mask) (h_sv : M.sv = true) :
    ∀ s m a v, (State.dropPin s m a v).mask M = s.mask M := by
  intro s m a v; unfold State.dropPin; simp [*]

@[simp] theorem State.releasePin_mask (M : Mask) (h_sv : M.sv = true) :
    ∀ s n, (State.releasePin s n).mask M = s.mask M := by
  intro s n; unfold State.releasePin; simp [*]; (repeat' split) <;> simp_all

@[simp] theorem State.notePinCheck_mask (M : Mask) (h_regs : M.regs = true) (h_hq : M.hq = true) :
    ∀ s m a tenant, (State.notePinCheck s m a tenant).mask M = s.mask M := by
  intro s m a tenant; unfold State.notePinCheck
  (repeat' split) <;> simp_all

@[simp] theorem State.takePin_mask (M : Mask) (h_sv : M.sv = true) :
    ∀ s m a v, (State.takePin s m a v).mask M = s.mask M := by
  intro s m a v; unfold State.takePin; (repeat' split) <;> simp_all

@[simp] theorem State.monitor_mask (M : Mask) (h_regs : M.regs = true) (h_ext : M.ext = true) (h_tags : M.tags = true)
    (h_hq : M.hq = true) (h_sv : M.sv = true) (h_armed : M.armed = true) :
    ∀ s n, (State.monitor s n).mask M = s.mask M := by
  intro s n; unfold State.monitor; simp [*]; (repeat' split) <;> simp_all

@[simp] theorem State.boundary_mask (M : Mask) (h_regs : M.regs = true) (h_ext : M.ext = true) (h_tags : M.tags = true)
    (h_hq : M.hq = true) (h_sv : M.sv = true) (h_armed : M.armed = true) :
    ∀ s m, (State.boundary s m).mask M = s.mask M := by
  intro s m; unfold State.boundary; simp [*]

@[simp] theorem State.noteDefers_mask (M : Mask) (h_sv : M.sv = true) :
    ∀ s, (State.noteDefers s).mask M = s.mask M := by
  intro s; unfold State.noteDefers; simp [*]

@[simp] theorem State.balance_mask (M : Mask) (h_regs : M.regs = true) (h_sv : M.sv = true) :
    ∀ s n units, (State.balance s n units).mask M = s.mask M := by
  intro s n units; unfold State.balance; simp [*]

@[simp] theorem State.configEpoch_mask (M : Mask) (h_regs : M.regs = true) (h_ext : M.ext = true)
    (h_tags : M.tags = true) (h_hq : M.hq = true) (h_armed : M.armed = true) :
    ∀ s it, (State.configEpoch s it).mask M = s.mask M := by
  intro s it; unfold State.configEpoch; simp [*]

@[simp] theorem State.finishOp_mask (M : Mask) (h_sv : M.sv = true) :
    ∀ s b i, (State.finishOp s b i).mask M = s.mask M := by
  intro s b i; unfold State.finishOp; simp [*]

@[simp] theorem State.doorbellSq_mask (M : Mask) (h_regs : M.regs = true) (h_hq : M.hq = true) :
    ∀ s q p, (State.doorbellSq s q p).mask M = s.mask M := by
  intro s q p; unfold State.doorbellSq; simp [*]

@[simp] theorem State.takeBerth_mask (M : Mask) (h_regs : M.regs = true) (h_ext : M.ext = true)
    (h_tags : M.tags = true) (h_hq : M.hq = true) (h_sv : M.sv = true) (h_armed : M.armed = true) :
    ∀ s it d n pin, (State.takeBerth s it d n pin).mask M = s.mask M := by
  intro s it d n pin; unfold State.takeBerth; simp [*]; (repeat' split) <;> simp_all

@[simp] theorem State.admitRun_mask (M : Mask) (h_regs : M.regs = true) (h_ext : M.ext = true) (h_tags : M.tags = true)
    (h_hq : M.hq = true) (h_sv : M.sv = true) (h_armed : M.armed = true) :
    ∀ s it, (State.admitRun s it).mask M = s.mask M := by
  intro s it; unfold State.admitRun; simp [*]; (repeat' split) <;> simp_all

@[simp] theorem State.dupEnter_mask (M : Mask) (h_hq : M.hq = true) :
    ∀ s k, (State.dupEnter s k).mask M = s.mask M := by
  intro s k; unfold State.dupEnter; simp [*]

@[simp] theorem State.admitReq_mask (M : Mask) (h_regs : M.regs = true) (h_ext : M.ext = true) (h_tags : M.tags = true)
    (h_hq : M.hq = true) (h_sv : M.sv = true) (h_armed : M.armed = true) :
    ∀ s it, (State.admitReq s it).mask M = s.mask M := by
  intro s it; unfold State.admitReq; simp [*]; (repeat' split) <;> simp_all

@[simp] theorem State.failNamed_mask (M : Mask) (h_regs : M.regs = true) (h_ext : M.ext = true)
    (h_tags : M.tags = true) (h_marks : M.marks = true) (h_hq : M.hq = true) (h_sv : M.sv = true)
    (h_gathers : M.gathers = true) (h_armed : M.armed = true) : ∀ s, (State.failNamed s).mask M = s.mask M := by
  intro s; unfold State.failNamed; simp [*]

@[simp] theorem State.process_mask (M : Mask)
    (s : State) (j t : Nat) (f : State → Item → State)
    (hf : ∀ s it, (f s it).mask M = s.mask M) : (s.process j t f).mask M = s.mask M := by
  unfold State.process; split <;> simp [*]

@[simp] theorem State.processInTurn_mask (M : Mask)
    (s : State) (j t : Nat) (f : State → Item → State)
    (hf : ∀ s it, (f s it).mask M = s.mask M) : (s.processInTurn j t f).mask M = s.mask M := by
  unfold State.processInTurn
  refine State.process_mask M _ _ _ _ fun s it => ?_
  split <;> simp [*]

@[simp] theorem State.fetchRec_mask (M : Mask) (h_regs : M.regs = true) (h_ext : M.ext = true) (h_tags : M.tags = true)
    (h_marks : M.marks = true) (h_hq : M.hq = true) (h_tileErrs : M.tileErrs = true) (h_sv : M.sv = true)
    (h_gathers : M.gathers = true) (h_armed : M.armed = true)
    (s : State) (id i code : Nat)
    (own : State → Barge → List Nat → Nat → Bool) : (s.fetchRec id i code own).mask M = s.mask M := by
  unfold State.fetchRec; split <;> simp [*]

@[simp] theorem State.issue_mask (M : Mask) (h_sv : M.sv = true) :
    ∀ s b i, (State.issue s b i).mask M = s.mask M := by
  intro s b i; unfold State.issue; simp [*]

@[simp] theorem State.runRec_mask (M : Mask) (h_regs : M.regs = true) (h_ext : M.ext = true) (h_tags : M.tags = true)
    (h_marks : M.marks = true) (h_hq : M.hq = true) (h_tileErrs : M.tileErrs = true) (h_sv : M.sv = true)
    (h_gathers : M.gathers = true) (h_armed : M.armed = true)
    (s : State) (id i code : Nat)
    (own : State → Barge → List Nat → Nat → Bool) (zero : Nat → Bool) (effect : State → Barge → Nat → State)
    (ext : State → Barge → Nat → List (Nat × Nat))
    (hf : ∀ s b w, (effect s b w).mask M = s.mask M) :
    (s.runRec id i code own zero effect ext).mask M = s.mask M := by
  unfold State.runRec
  simp [*]
  split
  · simp [*]
  · simp [*]; split <;> simp [*]

@[simp] theorem signalEffect_mask (M : Mask) (h_regs : M.regs = true) (h_ext : M.ext = true) (h_tags : M.tags = true)
    (h_marks : M.marks = true) (h_hq : M.hq = true) (h_sv : M.sv = true) (h_gathers : M.gathers = true)
    (h_armed : M.armed = true) : ∀ i s b w, (signalEffect i s b w).mask M = s.mask M := by
  intro i s b w; unfold signalEffect; simp [*]

@[simp] theorem State.seeRows_mask (M : Mask) (h_regs : M.regs = true) (h_marks : M.marks = true) (h_hq : M.hq = true)
    (h_tileErrs : M.tileErrs = true) (h_armed : M.armed = true) :
    ∀ s o st rows n, (State.seeRows s o st rows n).mask M = s.mask M := by
  intro s o st rows n; unfold State.seeRows; simp [*]

@[simp] theorem State.dropPieces_mask (M : Mask) (h_regions : M.regions = true) :
    ∀ s, (State.dropPieces s).mask M = s.mask M := by
  intro s; unfold State.dropPieces; simp [*]

@[simp] theorem State.enterMaint_mask (M : Mask) (h_hq : M.hq = true) (h_regions : M.regions = true) :
    ∀ s, (State.enterMaint s).mask M = s.mask M := by
  intro s; unfold State.enterMaint; simp [*]

@[simp] theorem State.failRowOf_mask (M : Mask) (h_regs : M.regs = true) (h_ext : M.ext = true)
    (h_tags : M.tags = true) (h_hq : M.hq = true) (h_sv : M.sv = true) (h_armed : M.armed = true) :
    ∀ s b r fate, (State.failRowOf s b r fate).mask M = s.mask M := by
  intro s b r fate; unfold State.failRowOf; (repeat' split) <;> simp_all

@[simp] theorem State.arrived_mask (M : Mask) (h_sv : M.sv = true) :
    ∀ s b i, (State.arrived s b i).mask M = s.mask M := by
  intro s b i; unfold State.arrived; simp [*]

@[simp] theorem State.signalCq_mask (M : Mask) (h_regs : M.regs = true) (h_hq : M.hq = true) :
    ∀ s c, (State.signalCq s c).mask M = s.mask M := by
  intro s c; unfold State.signalCq; simp [*]

@[simp] theorem State.acceptEntry_mask (M : Mask) (h_regs : M.regs = true) (h_ext : M.ext = true)
    (h_tags : M.tags = true) (h_hq : M.hq = true) (h_armed : M.armed = true) :
    ∀ s n j, (State.acceptEntry s n j).mask M = s.mask M := by
  intro s n j; unfold State.acceptEntry; simp [*]

@[simp] theorem State.fetch_mask (M : Mask) (h_regs : M.regs = true) (h_ext : M.ext = true) (h_tags : M.tags = true)
    (h_hq : M.hq = true) (h_armed : M.armed = true) : ∀ s, (State.fetch s).mask M = s.mask M := by
  intro s; unfold State.fetch; (repeat' split) <;> simp_all

@[simp] theorem State.failRow_mask (M : Mask) (h_regs : M.regs = true) (h_ext : M.ext = true) (h_tags : M.tags = true)
    (h_marks : M.marks = true) (h_hq : M.hq = true) (h_sv : M.sv = true) (h_gathers : M.gathers = true)
    (h_armed : M.armed = true) : ∀ s id row fate, (State.failRow s id row fate).mask M = s.mask M := by
  intro s id row fate; unfold State.failRow; (repeat' split) <;> simp_all

@[simp] theorem State.writeRow_mask (M : Mask) (h_regs : M.regs = true) (h_ext : M.ext = true) (h_tags : M.tags = true)
    (h_scratch : M.scratch = true) (h_pool : M.pool = true) (h_pound : M.pound = true) (h_marks : M.marks = true)
    (h_hq : M.hq = true) (h_tileErrs : M.tileErrs = true) (h_armed : M.armed = true) :
    ∀ s o st r m sat mode xs t, (State.writeRow s o st r m sat mode xs t).mask M = s.mask M := by
  intro s o st r m sat mode xs t; unfold State.writeRow; simp [*]

@[simp] theorem State.failRows_mask (M : Mask) (h_regs : M.regs = true) (h_ext : M.ext = true) (h_tags : M.tags = true)
    (h_marks : M.marks = true) (h_hq : M.hq = true) (h_sv : M.sv = true) (h_gathers : M.gathers = true)
    (h_armed : M.armed = true) : ∀ s id rows fate, (State.failRows s id rows fate).mask M = s.mask M := by
  intro s id rows fate; unfold State.failRows; simp [*]

@[simp] theorem State.sentOne_mask (M : Mask) (h_sv : M.sv = true) :
    ∀ s b i, (State.sentOne s b i).mask M = s.mask M := by
  intro s b i; unfold State.sentOne
  simp [*]

@[simp] theorem State.retire_mask (M : Mask) (h_regs : M.regs = true) (h_ext : M.ext = true) (h_tags : M.tags = true)
    (h_hq : M.hq = true) (h_armed : M.armed = true) : ∀ s js, (State.retire s js).mask M = s.mask M := by
  intro s js
  unfold State.retire
  try simp only []
  refine (State.foldl_mask M _ ?_ _ _).trans ?_
  · intro s x
    (repeat' split) <;> simp_all
  · simp [*]

@[simp] theorem State.noteLate_mask (M : Mask) (h_regs : M.regs = true) (h_hq : M.hq = true) (h_sv : M.sv = true) :
    ∀ s n, (State.noteLate s n).mask M = s.mask M := by
  intro s n; unfold State.noteLate; simp [*]

@[simp] theorem State.freeBerth_mask (M : Mask) (h_sv : M.sv = true) :
    ∀ s n, (State.freeBerth s n).mask M = s.mask M := by
  intro s n; unfold State.freeBerth; simp [*]

@[simp] theorem State.recWritten_mask (M : Mask) (h_regs : M.regs = true) (h_ext : M.ext = true)
    (h_tags : M.tags = true) (h_hq : M.hq = true) (h_sv : M.sv = true) (h_armed : M.armed = true) :
    ∀ s r, (State.recWritten s r).mask M = s.mask M := by
  intro s r; unfold State.recWritten; (repeat' split) <;> simp_all

@[simp] theorem State.writeRec_mask (M : Mask) (h_regs : M.regs = true) (h_ext : M.ext = true) (h_tags : M.tags = true)
    (h_hq : M.hq = true) (h_sv : M.sv = true) (h_armed : M.armed = true) :
    ∀ s c r rest, (State.writeRec s c r rest).mask M = s.mask M := by
  intro s c r rest; unfold State.writeRec; simp [*]

@[simp] theorem lockMarkEffect_mask (M : Mask) (h_sv : M.sv = true) :
    ∀ i s b w, (lockMarkEffect i s b w).mask M = s.mask M := by
  intro i s b w; unfold lockMarkEffect; simp [*]

@[simp] theorem opFenceEffect_mask (M : Mask) (h_sv : M.sv = true) :
    ∀ i s b x, (opFenceEffect i s b x).mask M = s.mask M := by
  intro i s b x; unfold opFenceEffect; simp [*]

@[simp] theorem State.waitAgain_mask (M : Mask) (h_sv : M.sv = true) :
    ∀ s id i, (State.waitAgain s id i).mask M = s.mask M := by
  intro s id i; unfold State.waitAgain; (repeat' split) <;> simp_all

@[simp] theorem State.cqWrite_mask (M : Mask) (h_regs : M.regs = true) (h_ext : M.ext = true) (h_tags : M.tags = true)
    (h_hq : M.hq = true) (h_sv : M.sv = true) (h_armed : M.armed = true) :
    ∀ s c, (State.cqWrite s c).mask M = s.mask M := by
  intro s c; unfold State.cqWrite; (repeat' split) <;> simp_all

@[simp] theorem State.doorbellCq_mask (M : Mask) (h_regs : M.regs = true) (h_ext : M.ext = true)
    (h_tags : M.tags = true) (h_hq : M.hq = true) (h_armed : M.armed = true) :
    ∀ s c p, (State.doorbellCq s c p).mask M = s.mask M := by
  intro s c p; unfold State.doorbellCq; simp [*]

@[simp] theorem State.submit_mask (M : Mask) (h_regs : M.regs = true) (h_ext : M.ext = true) (h_tags : M.tags = true)
    (h_hq : M.hq = true) (h_sv : M.sv = true) (h_armed : M.armed = true) :
    ∀ s it, (State.submit s it).mask M = s.mask M := by
  intro s it; unfold State.submit; simp [*]

@[simp] theorem State.cancel_mask (M : Mask) (h_regs : M.regs = true) (h_ext : M.ext = true) (h_tags : M.tags = true)
    (h_hq : M.hq = true) (h_sv : M.sv = true) (h_armed : M.armed = true) :
    ∀ s it, (State.cancel s it).mask M = s.mask M := by
  intro s it; unfold State.cancel; (repeat' split) <;> simp_all

@[simp] theorem State.epochComplete_mask (M : Mask) (h_regs : M.regs = true) (h_ext : M.ext = true)
    (h_tags : M.tags = true) (h_hq : M.hq = true) (h_armed : M.armed = true) :
    ∀ s it, (State.epochComplete s it).mask M = s.mask M := by
  intro s it; unfold State.epochComplete; simp [*]

@[simp] theorem State.clearLock_mask (M : Mask) (h_marks : M.marks = true) (h_sv : M.sv = true)
    (h_gathers : M.gathers = true) : ∀ s id l, (State.clearLock s id l).mask M = s.mask M := by
  intro s id l; unfold State.clearLock; (repeat' split) <;> simp_all

@[simp] theorem State.confirmLock_mask (M : Mask) (h_marks : M.marks = true) (h_sv : M.sv = true)
    (h_gathers : M.gathers = true) : ∀ s id l regions, (State.confirmLock s id l regions).mask M = s.mask M := by
  intro s id l regions; unfold State.confirmLock; simp [*]; (repeat' split) <;> simp_all

@[simp] theorem State.countLockFail_mask (M : Mask) (h_regs : M.regs = true) :
    ∀ s b l, (State.countLockFail s b l).mask M = s.mask M := by
  intro s b l; unfold State.countLockFail
  simp [*]

@[simp] theorem State.failAgain_mask (M : Mask) (h_regs : M.regs = true) (h_ext : M.ext = true)
    (h_tags : M.tags = true) (h_marks : M.marks = true) (h_hq : M.hq = true) (h_sv : M.sv = true)
    (h_gathers : M.gathers = true) (h_armed : M.armed = true) :
    ∀ s b l fate, (State.failAgain s b l fate).mask M = s.mask M := by
  intro s b l fate; unfold State.failAgain
  simp [*]

@[simp] theorem State.failLock_mask (M : Mask) (h_regs : M.regs = true) (h_marks : M.marks = true)
    (h_sv : M.sv = true) (h_gathers : M.gathers = true) :
    ∀ s id l, (State.failLock s id l).mask M = s.mask M := by
  intro s id l
  unfold State.failLock
  split
  · rfl
  · refine (State.foldl_mask M _ ?_ _ _).trans ?_
    · intro s k
      refine State.foldl_mask M _ ?_ _ _
      intro s r
      simp [*]
    · simp [*]

@[simp] theorem confirmEffect_mask (M : Mask) (h_regs : M.regs = true) (h_ext : M.ext = true) (h_tags : M.tags = true)
    (h_marks : M.marks = true) (h_hq : M.hq = true) (h_tileErrs : M.tileErrs = true) (h_sv : M.sv = true)
    (h_gathers : M.gathers = true) (h_armed : M.armed = true) :
    ∀ i s b w, (confirmEffect i s b w).mask M = s.mask M := by
  intro i s b w; unfold confirmEffect; simp [*]

@[simp] theorem waitEffect_mask (M : Mask) (h_sv : M.sv = true) :
    ∀ i s b w, (waitEffect i s b w).mask M = s.mask M := by
  intro i s b w; unfold waitEffect; simp [*]

end Sys2Proof.Machine
end

