-- ==== Sys2Proof/Laws/FrameFabric.lean ====
section
/-! SUPPORT. What each operation of the lock-keeper, the row store, row reads, table operations and the fabric leaves untouched: the lemma of an operation
holds under every mask that names the fields the operation may change. -/

namespace Sys2Proof.Machine

open Sys2Proof

@[simp] theorem State.skew_mask (M : Mask) (h_rows : M.rows = true) :
    ∀ s t f, (State.skew s t f).mask M = s.mask M := by
  intro s t f; unfold State.skew; simp [*]

@[simp] theorem State.noteDefaults_mask (M : Mask) (h_regs : M.regs = true) (h_rows : M.rows = true) :
    ∀ s t n, (State.noteDefaults s t n).mask M = s.mask M := by
  intro s t n; unfold State.noteDefaults; simp [*]

@[simp] theorem State.dirFault_mask (M : Mask) (h_regs : M.regs = true) (h_hq : M.hq = true) :
    ∀ s, (State.dirFault s).mask M = s.mask M := by
  intro s; unfold State.dirFault; simp [*]

@[simp] theorem State.setPort_mask (M : Mask) (h_fab : M.fab = true) :
    ∀ s n x, (State.setPort s n x).mask M = s.mask M := by
  intro s n x; unfold State.setPort; simp [*]

@[simp] theorem State.updPort_mask (M : Mask) (h_fab : M.fab = true) :
    ∀ s n f, (State.updPort s n f).mask M = s.mask M := by
  intro s n f; unfold State.updPort; simp [*]

@[simp] theorem State.flitsLeave_mask (M : Mask) (h_regs : M.regs = true) (h_fab : M.fab = true) :
    ∀ s n vc k, (State.flitsLeave s n vc k).mask M = s.mask M := by
  intro s n vc k; unfold State.flitsLeave; simp [*]

@[simp] theorem State.sendHead_mask (M : Mask) (h_regs : M.regs = true) (h_fab : M.fab = true) :
    ∀ s n vc, (State.sendHead s n vc).mask M = s.mask M := by
  intro s n vc; unfold State.sendHead; simp [*]; (repeat' split) <;> simp_all

@[simp] theorem State.arbTurn_mask (M : Mask) (h_regs : M.regs = true) (h_fab : M.fab = true) :
    ∀ s n, (State.arbTurn s n).mask M = s.mask M := by
  intro s n; unfold State.arbTurn; simp [*]; (repeat' split) <;> simp_all

@[simp] theorem State.arbStep_mask (M : Mask) (h_regs : M.regs = true) (h_fab : M.fab = true) :
    ∀ s n, (State.arbStep s n).mask M = s.mask M := by
  intro s n; unfold State.arbStep; simp [*]; (repeat' split) <;> simp_all

@[simp] theorem State.pumpFuel_mask (M : Mask) (h_regs : M.regs = true) (h_fab : M.fab = true)
    (n fuel : Nat) (s : State) :
    (State.pumpFuel n fuel s).mask M = s.mask M := by
  induction fuel generalizing s with
  | zero => rfl
  | succ k ih => unfold State.pumpFuel; simp [*]

@[simp] theorem State.pump_mask (M : Mask) (h_regs : M.regs = true) (h_fab : M.fab = true) :
    ∀ s n, (State.pump s n).mask M = s.mask M := by
  intro s n; unfold State.pump; simp [*]

@[simp] theorem State.queuePacket_mask (M : Mask) (h_regs : M.regs = true) (h_fab : M.fab = true) :
    ∀ s from_ n p, (State.queuePacket s from_ n p).mask M = s.mask M := by
  intro s from_ n p; unfold State.queuePacket
  simp [*]

@[simp] theorem State.unroutable_mask (M : Mask) (h_regs : M.regs = true) (h_hq : M.hq = true) :
    ∀ s, (State.unroutable s).mask M = s.mask M := by
  intro s; unfold State.unroutable; simp [*]

@[simp] theorem State.sendOut_mask (M : Mask) (h_regs : M.regs = true) (h_hq : M.hq = true) (h_fab : M.fab = true) :
    ∀ s p from_, (State.sendOut s p from_).mask M = s.mask M := by
  intro s p from_; unfold State.sendOut; (repeat' split) <;> simp_all

@[simp] theorem State.send_mask (M : Mask) (h_regs : M.regs = true) (h_hq : M.hq = true) (h_fab : M.fab = true) :
    ∀ s p, (State.send s p).mask M = s.mask M := by
  intro s p; unfold State.send; simp [*]

@[simp] theorem State.freeEntries_mask (M : Mask) (h_rows : M.rows = true) :
    ∀ s l, (State.freeEntries s l).mask M = s.mask M := by
  intro s l; unfold State.freeEntries
  simp [*]

@[simp] theorem State.putSlot_mask (M : Mask) (h_regs : M.regs = true) (h_ext : M.ext = true) (h_tags : M.tags = true)
    (h_hq : M.hq = true) (h_armed : M.armed = true) :
    ∀ s t k raw st, (State.putSlot s t k raw st).mask M = s.mask M := by
  intro s t k raw st; unfold State.putSlot; simp [*]

@[simp] theorem State.markSlot_mask (M : Mask) (h_regs : M.regs = true) (h_ext : M.ext = true) (h_tags : M.tags = true)
    (h_hq : M.hq = true) (h_armed : M.armed = true) : ∀ s t k st, (State.markSlot s t k st).mask M = s.mask M := by
  intro s t k st; unfold State.markSlot; simp [*]

@[simp] theorem State.formerExpire_mask (M : Mask) (h_regs : M.regs = true) (h_ext : M.ext = true)
    (h_tags : M.tags = true) (h_hq : M.hq = true) (h_rows : M.rows = true) (h_armed : M.armed = true) :
    ∀ s t, (State.formerExpire s t).mask M = s.mask M := by
  intro s t; unfold State.formerExpire; (repeat' split) <;> simp_all

@[simp] theorem State.flipLeaves_mask (M : Mask) (h_sv : M.sv = true) :
    ∀ s m j, (State.flipLeaves s m j).mask M = s.mask M := by
  intro s m j; unfold State.flipLeaves; simp [*]

@[simp] theorem State.invertActive_mask (M : Mask) (h_regs : M.regs = true) (h_ext : M.ext = true)
    (h_tags : M.tags = true) (h_hq : M.hq = true) (h_armed : M.armed = true) :
    ∀ s m a, (State.invertActive s m a).mask M = s.mask M := by
  intro s m a; unfold State.invertActive; simp [*]

@[simp] theorem State.flipEffect_mask (M : Mask) (h_regs : M.regs = true) (h_ext : M.ext = true)
    (h_tags : M.tags = true) (h_hq : M.hq = true) (h_sv : M.sv = true) (h_armed : M.armed = true) :
    ∀ s it, (State.flipEffect s it).mask M = s.mask M := by
  intro s it; unfold State.flipEffect; simp [*]; (repeat' split) <;> simp_all

@[simp] theorem State.noteHold_mask (M : Mask) (h_regs : M.regs = true) (h_sv : M.sv = true) :
    ∀ s m, (State.noteHold s m).mask M = s.mask M := by
  intro s m; unfold State.noteHold; (repeat' split) <;> simp_all

@[simp] theorem State.closeCounts_mask (M : Mask) (h_sv : M.sv = true) :
    ∀ s m f, (State.closeCounts s m f).mask M = s.mask M := by
  intro s m f; unfold State.closeCounts; simp [*]

@[simp] theorem State.placeRequest_mask (M : Mask) (h_regs : M.regs = true) (h_sv : M.sv = true) :
    ∀ s id rows n, (State.placeRequest s id rows n).mask M = s.mask M := by
  intro s id rows n; unfold State.placeRequest; simp [*]

@[simp] theorem State.close_mask (M : Mask) (h_regs : M.regs = true) (h_ext : M.ext = true) (h_tags : M.tags = true)
    (h_hq : M.hq = true) (h_sv : M.sv = true) (h_armed : M.armed = true) :
    ∀ s m j f, (State.close s m j f).mask M = s.mask M := by
  intro s m j f; unfold State.close; simp [*]

@[simp] theorem State.manifestClose_mask (M : Mask) (h_regs : M.regs = true) (h_ext : M.ext = true)
    (h_tags : M.tags = true) (h_hq : M.hq = true) (h_sv : M.sv = true) (h_armed : M.armed = true) :
    ∀ s m, (State.manifestClose s m).mask M = s.mask M := by
  intro s m; unfold State.manifestClose; simp [*]; (repeat' split) <;> simp_all

@[simp] theorem State.setTagSt_mask (M : Mask) (h_fab : M.fab = true) :
    ∀ s k x, (State.setTagSt s k x).mask M = s.mask M := by
  intro s k x; unfold State.setTagSt; simp [*]

@[simp] theorem State.launch_mask (M : Mask) (h_regs : M.regs = true) (h_hq : M.hq = true) (h_fab : M.fab = true) :
    ∀ s use p, (State.launch s use p).mask M = s.mask M := by
  intro s use p; unfold State.launch; simp [*]

@[simp] theorem State.request_mask (M : Mask) (h_regs : M.regs = true) (h_hq : M.hq = true) (h_fab : M.fab = true) :
    ∀ s use p, (State.request s use p).mask M = s.mask M := by
  intro s use p; unfold State.request; simp [*]

@[simp] theorem State.creditFlit_mask (M : Mask) (h_regs : M.regs = true) (h_fab : M.fab = true) :
    ∀ s n c, (State.creditFlit s n c).mask M = s.mask M := by
  intro s n c; unfold State.creditFlit; simp [*]

@[simp] theorem State.tagFault_mask (M : Mask) (h_regs : M.regs = true) (h_tags : M.tags = true) (h_hq : M.hq = true) :
    ∀ s k, (State.tagFault s k).mask M = s.mask M := by
  intro s k; unfold State.tagFault; simp [*]

@[simp] theorem State.readRow_mask (M : Mask) (h_regs : M.regs = true) (h_tags : M.tags = true) (h_hq : M.hq = true) :
    ∀ s t l, (State.readRow s t l).2.mask M = s.mask M := by
  intro s t l; unfold State.readRow; simp [*]

@[simp] theorem State.encodeInto_mask (M : Mask) (h_regs : M.regs = true) :
    ∀ s t x dr sat mode ws, (State.encodeInto s t x dr sat mode ws).2.mask M = s.mask M := by
  intro s t x dr sat mode ws; unfold State.encodeInto
  simp [*]

@[simp] theorem State.writeRowImage_mask (M : Mask) (h_regs : M.regs = true) (h_ext : M.ext = true)
    (h_tags : M.tags = true) (h_hq : M.hq = true) (h_armed : M.armed = true) :
    ∀ s t l image step poison, (State.writeRowImage s t l image step poison).mask M = s.mask M := by
  intro s t l image step poison; unfold State.writeRowImage
  simp [*]

@[simp] theorem State.demote_mask (M : Mask) (h_regs : M.regs = true) (h_ext : M.ext = true) (h_tags : M.tags = true)
    (h_hq : M.hq = true) (h_rows : M.rows = true) (h_armed : M.armed = true) :
    ∀ s t a x h, (State.demote s t a x h).2.mask M = s.mask M := by
  intro s t a x h; unfold State.demote; simp only []
  split
  · rfl
  · split
    · simp [*]
    · split <;> rename_i heq
      all_goals have hm := State.pair_mask (M := M) (t := s) heq (by clear heq; simp [*])
      all_goals simp [*]

@[simp] theorem State.waitTurn_mask (M : Mask) (h_fab : M.fab = true) :
    ∀ s p, (State.waitTurn s p).mask M = s.mask M := by
  intro s p; unfold State.waitTurn
  simp [*]

@[simp] theorem State.badPacket_mask (M : Mask) (h_regs : M.regs = true) (h_hq : M.hq = true) :
    ∀ s, (State.badPacket s).mask M = s.mask M := by
  intro s; unfold State.badPacket; simp [*]

@[simp] theorem State.sendControl_mask (M : Mask) (h_fab : M.fab = true) :
    ∀ s n kind content, (State.sendControl s n kind content).mask M = s.mask M := by
  intro s n kind content; unfold State.sendControl; simp [*]

@[simp] theorem State.freeFlits_mask (M : Mask) (h_fab : M.fab = true) :
    ∀ s n vc cls k, (State.freeFlits s n vc cls k).mask M = s.mask M := by
  intro s n vc cls k; unfold State.freeFlits; simp [*]

@[simp] theorem State.take_mask (M : Mask) (h_fab : M.fab = true) : ∀ s p, (State.take s p).mask M = s.mask M := by
  intro s p; unfold State.take; simp only []
  split
  · rw [State.freeFlits_mask M (by assumption)]; simp [*]
  · simp [*]

@[simp] theorem State.receive_mask (M : Mask) (h_regs : M.regs = true) (h_hq : M.hq = true) (h_fab : M.fab = true)
    (s : State) (p : Packet) (ops : List Nat) (f : State → State)
    (hf : ∀ s, (f s).mask M = s.mask M) : (s.receive p ops f).mask M = s.mask M := by
  unfold State.receive; simp [*]

@[simp] theorem State.answer_mask (M : Mask) (h_regs : M.regs = true) (h_hq : M.hq = true) (h_fab : M.fab = true) :
    ∀ s p status payload imm poison, (State.answer s p status payload imm poison).mask M = s.mask M := by
  intro s p status payload imm poison; unfold State.answer; simp [*]

@[simp] theorem State.flip_mask (M : Mask) (h_regs : M.regs = true) (h_ext : M.ext = true) (h_tags : M.tags = true)
    (h_hq : M.hq = true) (h_sv : M.sv = true) (h_armed : M.armed = true) :
    ∀ s it, (State.flip s it).mask M = s.mask M := by
  intro s it; unfold State.flip; simp [*]

@[simp] theorem State.cacheUse_mask (M : Mask) (h_regs : M.regs = true) (h_regions : M.regions = true) :
    ∀ s r e gather, (State.cacheUse s r e gather).mask M = s.mask M := by
  intro s r e gather; unfold State.cacheUse
  simp [*]

@[simp] theorem State.cacheHit_mask (M : Mask) (h_regs : M.regs = true) (h_regions : M.regions = true) :
    ∀ s r e gather, (State.cacheHit s r e gather).mask M = s.mask M := by
  intro s r e gather; unfold State.cacheHit
  simp [*]

@[simp] theorem State.serveBad_mask (M : Mask) (h_regs : M.regs = true) (h_hq : M.hq = true) :
    ∀ s tid, (State.serveBad s tid).2.mask M = s.mask M := by
  intro s tid; unfold State.serveBad; simp [*]

@[simp] theorem State.noteNotOwner_mask (M : Mask) (h_regs : M.regs = true) (h_hq : M.hq = true) :
    ∀ s, (State.noteNotOwner s).mask M = s.mask M := by
  intro s; unfold State.noteNotOwner; simp [*]

@[simp] theorem State.noteServed_mask (M : Mask) (h_regs : M.regs = true) (h_ext : M.ext = true)
    (h_tags : M.tags = true) (h_hq : M.hq = true) (h_rows : M.rows = true) (h_armed : M.armed = true) :
    ∀ s t x l mult, (State.noteServed s t x l mult).mask M = s.mask M := by
  intro s t x l mult; unfold State.noteServed; (repeat' split) <;> simp_all

@[simp] theorem State.serveCopy_mask (M : Mask) (h_regs : M.regs = true) (h_ext : M.ext = true)
    (h_tags : M.tags = true) (h_hq : M.hq = true) (h_rows : M.rows = true) (h_armed : M.armed = true) :
    ∀ s t x l probe mult, (State.serveCopy s t x l probe mult).2.mask M = s.mask M := by
  intro s t x l probe mult; unfold State.serveCopy; simp [*]; (repeat' split) <;> simp_all

@[simp] theorem State.noteForward_mask (M : Mask) (h_regs : M.regs = true) (h_rows : M.rows = true) :
    ∀ s t, (State.noteForward s t).mask M = s.mask M := by
  intro s t; unfold State.noteForward; simp [*]

@[simp] theorem State.serveFormer_mask (M : Mask) (h_regs : M.regs = true) (h_ext : M.ext = true)
    (h_tags : M.tags = true) (h_hq : M.hq = true) (h_rows : M.rows = true) (h_armed : M.armed = true) :
    ∀ s t x probe mult, (State.serveFormer s t x probe mult).2.mask M = s.mask M := by
  intro s t x probe mult; unfold State.serveFormer
  (repeat' split) <;> simp_all

@[simp] theorem State.ownerServe_mask (M : Mask) (h_regs : M.regs = true) (h_ext : M.ext = true)
    (h_tags : M.tags = true) (h_hq : M.hq = true) (h_rows : M.rows = true) (h_armed : M.armed = true) :
    ∀ s tid x seq probe mult, (State.ownerServe s tid x seq probe mult).2.mask M = s.mask M := by
  intro s tid x seq probe mult; unfold State.ownerServe; (repeat' split) <;> simp_all

@[simp] theorem State.cacheFill_mask (M : Mask) (h_regs : M.regs = true) (h_regions : M.regions = true) :
    ∀ s r e, (State.cacheFill s r e).mask M = s.mask M := by
  intro s r e; unfold State.cacheFill; simp [*]

@[simp] theorem State.received_mask (M : Mask) (h_regs : M.regs = true) (h_regions : M.regions = true) :
    ∀ s r t x g prefetched, (State.received s r t x g prefetched).mask M = s.mask M := by
  intro s r t x g prefetched; unfold State.received; simp [*]

@[simp] theorem State.readLocal_mask (M : Mask) (h_regs : M.regs = true) (h_ext : M.ext = true)
    (h_tags : M.tags = true) (h_hq : M.hq = true) (h_regions : M.regions = true) (h_rows : M.rows = true)
    (h_armed : M.armed = true) :
    ∀ s r t x old mult gather, (State.readLocal s r t x old mult gather).2.mask M = s.mask M := by
  intro s r t x old mult gather
  unfold State.readLocal
  split <;> rename_i heq
  all_goals have hm := State.pair_mask (M := M) (t := s) heq (by clear heq; simp [*])
  · cases old <;> simp [*]
  · cases old <;> simp [*]
  · exact hm

@[simp] theorem State.readRemote_mask (M : Mask) (h_regs : M.regs = true) (h_hq : M.hq = true) (h_fab : M.fab = true) :
    ∀ s r t x owner old mult prefetch, (State.readRemote s r t x owner old mult prefetch).mask M = s.mask M := by
  intro s r t x owner old mult prefetch; unfold State.readRemote; simp [*]

@[simp] theorem State.readOwner_mask (M : Mask) (h_regs : M.regs = true) (h_ext : M.ext = true)
    (h_tags : M.tags = true) (h_hq : M.hq = true) (h_regions : M.regions = true) (h_rows : M.rows = true)
    (h_fab : M.fab = true) (h_armed : M.armed = true) :
    ∀ s r t x old mult gather, (State.readOwner s r t x old mult gather).2.mask M = s.mask M := by
  intro s r t x old mult gather; unfold State.readOwner
  (repeat' split) <;> simp_all

@[simp] theorem State.acquire_mask (M : Mask) (h_regs : M.regs = true) (h_ext : M.ext = true) (h_tags : M.tags = true)
    (h_hq : M.hq = true) (h_regions : M.regions = true) (h_rows : M.rows = true) (h_fab : M.fab = true)
    (h_armed : M.armed = true) :
    ∀ s r t x mult useCache gather, (State.acquire s r t x mult useCache gather).2.mask M = s.mask M := by
  intro s r t x mult useCache gather; unfold State.acquire
  (repeat' split) <;> simp_all

@[simp] theorem State.factorRow_mask (M : Mask) (h_regs : M.regs = true) (h_hq : M.hq = true) :
    ∀ s m r i x t g, (State.factorRow s m r i x t g).2.mask M = s.mask M := by
  intro s m r i x t g; unfold State.factorRow
  simp [*]

@[simp] theorem State.noteWait_mask (M : Mask) (h_regs : M.regs = true) (h_regions : M.regions = true) :
    ∀ s r k, (State.noteWait s r k).mask M = s.mask M := by
  intro s r k; unfold State.noteWait
  simp [*]

@[simp] theorem State.pause_mask (M : Mask) (h_hq : M.hq = true) (h_rows : M.rows = true) :
    ∀ s it replace moorings, (State.pause s it replace moorings).mask M = s.mask M := by
  intro s it replace moorings; unfold State.pause; simp [*]

@[simp] theorem State.excDel_mask (M : Mask) (h_regs : M.regs = true) (h_ext : M.ext = true) (h_tags : M.tags = true)
    (h_hq : M.hq = true) (h_armed : M.armed = true) : ∀ s t x, (State.excDel s t x).mask M = s.mask M := by
  intro s t x; unfold State.excDel; (repeat' split) <;> simp_all

@[simp] theorem State.drainTable_mask (M : Mask) (h_regs : M.regs = true) (h_ext : M.ext = true)
    (h_tags : M.tags = true) (h_hq : M.hq = true) (h_regions : M.regions = true) (h_rows : M.rows = true)
    (h_armed : M.armed = true) : ∀ s t, (State.drainTable s t).mask M = s.mask M := by
  intro s t; unfold State.drainTable; simp [*]

@[simp] theorem State.updMoored_mask (M : Mask) (h_regions : M.regions = true) :
    ∀ s r m a f, (State.updMoored s r m a f).mask M = s.mask M := by
  intro s r m a f; unfold State.updMoored
  simp [*]

@[simp] theorem State.pieceFault_mask (M : Mask) (h_regs : M.regs = true) (h_regions : M.regions = true) :
    ∀ s m r, (State.pieceFault s m r).mask M = s.mask M := by
  intro s m r; unfold State.pieceFault
  simp [*]

@[simp] theorem State.fillRow_mask (M : Mask) (h_regs : M.regs = true) (h_ext : M.ext = true)
    (h_tags : M.tags = true) (h_hq : M.hq = true) (h_regions : M.regions = true) (h_rows : M.rows = true)
    (h_fab : M.fab = true) (h_armed : M.armed = true) : ∀ s m r a x, (State.fillRow s m r a x).2.mask M = s.mask M := by
  intro s m r a x; unfold State.fillRow
  split
  · split <;> rename_i heq
    all_goals have hm := State.pair_mask (M := M) (t := s) heq (by clear heq; simp [*])
    · simp only []
      split <;> simp [*]
    all_goals simp [*]
  · simp [*]

@[simp] theorem State.fillMoored_mask (M : Mask) (h_regs : M.regs = true) (h_ext : M.ext = true)
    (h_tags : M.tags = true) (h_hq : M.hq = true) (h_regions : M.regions = true) (h_rows : M.rows = true)
    (h_fab : M.fab = true) (h_armed : M.armed = true) : ∀ s m r, (State.fillMoored s m r).2.mask M = s.mask M := by
  intro s m r; unfold State.fillMoored
  refine State.foldl_pair_mask M _ (fun p y => ?_) _ _
  refine State.foldl_pair_mask M _ (fun p x => ?_) _ _
  simp [*]

@[simp] theorem State.processOp_mask (M : Mask)
    (s : State) (j sub : Nat) (f : State → Item → State)
    (hf : ∀ s it, (f s it).mask M = s.mask M) : (s.processOp j sub f).mask M = s.mask M := by
  unfold State.processOp; simp [*]

@[simp] theorem State.zeroPop_mask (M : Mask) (h_regs : M.regs = true) (h_ext : M.ext = true) (h_tags : M.tags = true)
    (h_hq : M.hq = true) (h_armed : M.armed = true) : ∀ s t, (State.zeroPop s t).mask M = s.mask M := by
  intro s t; unfold State.zeroPop; simp [*]

@[simp] theorem State.createInto_mask (M : Mask) (h_regs : M.regs = true) (h_ext : M.ext = true)
    (h_tags : M.tags = true) (h_hq : M.hq = true) (h_armed : M.armed = true) :
    ∀ s it t k st, (State.createInto s it t k st).mask M = s.mask M := by
  intro s it t k st; unfold State.createInto; simp [*]

@[simp] theorem State.create_mask (M : Mask) (h_regs : M.regs = true) (h_ext : M.ext = true) (h_tags : M.tags = true)
    (h_hq : M.hq = true) (h_armed : M.armed = true) : ∀ s it, (State.create s it).mask M = s.mask M := by
  intro s it; unfold State.create; (repeat' split) <;> simp_all

@[simp] theorem State.lateDrop_mask (M : Mask) (h_regs : M.regs = true) :
    ∀ s, (State.lateDrop s).mask M = s.mask M := by
  intro s; unfold State.lateDrop; simp [*]

@[simp] theorem State.sendWaiting_mask (M : Mask) (h_regs : M.regs = true) (h_hq : M.hq = true) (h_fab : M.fab = true) :
    ∀ s, (State.sendWaiting s).mask M = s.mask M := by
  intro s; unfold State.sendWaiting; simp [*]

@[simp] theorem State.freeTag_mask (M : Mask) (h_regs : M.regs = true) (h_hq : M.hq = true) (h_fab : M.fab = true) :
    ∀ s k, (State.freeTag s k).mask M = s.mask M := by
  intro s k; unfold State.freeTag; simp [*]

@[simp] theorem State.respond_mask (M : Mask) (h_regs : M.regs = true) (h_hq : M.hq = true) (h_fab : M.fab = true)
    (s : State) (p : Packet) (f : State → TagUse → State)
    (hf : ∀ s u, (f s u).mask M = s.mask M) : (s.respond p f).mask M = s.mask M := by
  unfold State.respond; split
  · simp [*]
  · split <;> simp [*]

@[simp] theorem State.holdReq_mask (M : Mask) (h_fab : M.fab = true) :
    ∀ s p since, (State.holdReq s p since).mask M = s.mask M := by
  intro s p since; unfold State.holdReq; simp [*]

@[simp] theorem State.setMoored_mask (M : Mask) (h_regions : M.regions = true) :
    ∀ s r m l, (State.setMoored s r m l).mask M = s.mask M := by
  intro s r m l; unfold State.setMoored
  simp [*]

@[simp] theorem State.notePlan_mask (M : Mask) (h_regs : M.regs = true) (h_hq : M.hq = true) :
    ∀ s p, (State.notePlan s p).mask M = s.mask M := by
  intro s p; unfold State.notePlan
  simp [*]

@[simp] theorem State.storedRow_mask (M : Mask) (h_regs : M.regs = true) (h_tags : M.tags = true) (h_hq : M.hq = true) :
    ∀ s t l, (State.storedRow s t l).2.mask M = s.mask M := by
  intro s t l; unfold State.storedRow; simp [*]; (repeat' split) <;> simp_all

@[simp] theorem State.replace_mask (M : Mask) (h_regs : M.regs = true) (h_ext : M.ext = true) (h_tags : M.tags = true)
    (h_hq : M.hq = true) (h_rows : M.rows = true) (h_armed : M.armed = true) :
    ∀ s it, (State.replace s it).mask M = s.mask M := by
  intro s it; unfold State.replace; (repeat' split) <;> simp_all

@[simp] theorem State.putEntries_mask (M : Mask) (h_regs : M.regs = true) (h_ext : M.ext = true)
    (h_tags : M.tags = true) (h_scratch : M.scratch = true) (h_pool : M.pool = true) (h_pound : M.pound = true)
    (h_marks : M.marks = true) (h_hq : M.hq = true) (h_tileErrs : M.tileErrs = true) (h_armed : M.armed = true)
    (s : State) (st : Store) (n fuel a : Nat) (es : List (Nat × LockMask)) :
    (s.putEntries st n fuel a es).mask M = s.mask M := by
  induction fuel generalizing s a es with
  | zero => rfl
  | succ k ih => unfold State.putEntries; simp [*]

@[simp] theorem State.putTable_mask (M : Mask) (h_regs : M.regs = true) (h_ext : M.ext = true) (h_tags : M.tags = true)
    (h_scratch : M.scratch = true) (h_pool : M.pool = true) (h_pound : M.pound = true) (h_marks : M.marks = true)
    (h_hq : M.hq = true) (h_tileErrs : M.tileErrs = true) (h_armed : M.armed = true) :
    ∀ s st n a es, (State.putTable s st n a es).mask M = s.mask M := by
  intro s st n a es; unfold State.putTable; simp [*]

@[simp] theorem State.locked_mask (M : Mask) (h_fab : M.fab = true) :
    ∀ s n, (State.locked s n).mask M = s.mask M := by
  intro s n; unfold State.locked; simp [*]

@[simp] theorem State.prefetchDone_mask (M : Mask) (h_sv : M.sv = true) :
    ∀ s p, (State.prefetchDone s p).mask M = s.mask M := by
  intro s p; unfold State.prefetchDone
  (repeat' split) <;> simp_all

@[simp] theorem State.updGather_mask (M : Mask) (h_gathers : M.gathers = true) :
    ∀ s g f, (State.updGather s g f).mask M = s.mask M := by
  intro s g f; unfold State.updGather; simp [*]

@[simp] theorem State.failSlot_mask (M : Mask) (h_regs : M.regs = true) (h_ext : M.ext = true) (h_tags : M.tags = true)
    (h_marks : M.marks = true) (h_hq : M.hq = true) (h_sv : M.sv = true) (h_gathers : M.gathers = true)
    (h_armed : M.armed = true) : ∀ s g u fate, (State.failSlot s g u fate).mask M = s.mask M := by
  intro s g u fate; unfold State.failSlot; simp [*]

@[simp] theorem State.advanceSlot_mask (M : Mask) (h_regs : M.regs = true) (h_ext : M.ext = true)
    (h_tags : M.tags = true) (h_marks : M.marks = true) (h_hq : M.hq = true) (h_regions : M.regions = true)
    (h_sv : M.sv = true) (h_rows : M.rows = true) (h_gathers : M.gathers = true) (h_fab : M.fab = true)
    (h_armed : M.armed = true) : ∀ s g u, (State.advanceSlot s g u).mask M = s.mask M := by
  intro s g u; unfold State.advanceSlot
  split
  · rfl
  · split
    · rfl
    · split
      · rfl
      · split
        · simp [*]
        · simp [*]
        · split <;> rename_i heq
          all_goals have hm := State.pair_mask (M := M) (t := s) heq (by clear heq; simp [*])
          all_goals simp [*]

@[simp] theorem State.advanceGather_mask (M : Mask) (h_regs : M.regs = true) (h_ext : M.ext = true)
    (h_tags : M.tags = true) (h_marks : M.marks = true) (h_hq : M.hq = true) (h_regions : M.regions = true)
    (h_sv : M.sv = true) (h_rows : M.rows = true) (h_gathers : M.gathers = true) (h_fab : M.fab = true)
    (h_armed : M.armed = true) : ∀ s g, (State.advanceGather s g).mask M = s.mask M := by
  intro s g; unfold State.advanceGather; simp [*]

@[simp] theorem State.putSlotRow_mask (M : Mask) (h_regs : M.regs = true) (h_ext : M.ext = true)
    (h_tags : M.tags = true) (h_scratch : M.scratch = true) (h_pool : M.pool = true) (h_pound : M.pound = true)
    (h_marks : M.marks = true) (h_hq : M.hq = true) (h_tileErrs : M.tileErrs = true) (h_armed : M.armed = true) :
    ∀ s g u x, (State.putSlotRow s g u x).mask M = s.mask M := by
  intro s g u x; unfold State.putSlotRow; simp [*]

@[simp] theorem State.putImage_mask (M : Mask) (h_regs : M.regs = true) (h_ext : M.ext = true) (h_tags : M.tags = true)
    (h_scratch : M.scratch = true) (h_pool : M.pool = true) (h_pound : M.pound = true) (h_marks : M.marks = true)
    (h_hq : M.hq = true) (h_tileErrs : M.tileErrs = true) (h_armed : M.armed = true) :
    ∀ s g, (State.putImage s g).mask M = s.mask M := by
  intro s g; unfold State.putImage; simp [*]

@[simp] theorem State.finishGather_mask (M : Mask) (h_regs : M.regs = true) (h_ext : M.ext = true)
    (h_tags : M.tags = true) (h_scratch : M.scratch = true) (h_pool : M.pool = true) (h_pound : M.pound = true)
    (h_marks : M.marks = true) (h_hq : M.hq = true) (h_tileErrs : M.tileErrs = true) (h_sv : M.sv = true)
    (h_gathers : M.gathers = true) (h_armed : M.armed = true) :
    ∀ s g, (State.finishGather s g).mask M = s.mask M := by
  intro s g; unfold State.finishGather; (repeat' split) <;> simp_all

@[simp] theorem State.prefetchKey_mask (M : Mask) (h_regs : M.regs = true) (h_ext : M.ext = true)
    (h_tags : M.tags = true) (h_hq : M.hq = true) (h_regions : M.regions = true) (h_sv : M.sv = true)
    (h_rows : M.rows = true) (h_fab : M.fab = true) (h_armed : M.armed = true) :
    ∀ s id i r key mult, (State.prefetchKey s id i r key mult).2.mask M = s.mask M := by
  intro s id i r key mult
  unfold State.prefetchKey
  generalize key / 2 ^ 40 = tid
  generalize key % 2 ^ 40 = x
  simp only []
  split
  · generalize ((match s.cached? r tid x with | some e => e.closed == s.lastClosed | none => false) ||
      s.inFlight r tid x) = c
    cases c <;> simp only [Bool.false_eq_true, if_true, if_false]
    split
    · simp [*]
    · split
      · split <;> rename_i heq
        all_goals have hm := State.pair_mask (M := M) (t := s) heq (by clear heq; simp [*])
        all_goals simp [*]
      · simp [*]
  · simp [*]

@[simp] theorem State.prefetchReads_mask (M : Mask) (h_regs : M.regs = true) (h_ext : M.ext = true)
    (h_tags : M.tags = true) (h_hq : M.hq = true) (h_regions : M.regions = true) (h_sv : M.sv = true)
    (h_rows : M.rows = true) (h_fab : M.fab = true) (h_armed : M.armed = true) :
    ∀ s id i ks, (State.prefetchReads s id i ks).mask M = s.mask M := by
  intro s id i ks; unfold State.prefetchReads
  simp [*]

@[simp] theorem State.pumpPrefetch_mask (M : Mask) (h_regs : M.regs = true) (h_ext : M.ext = true)
    (h_tags : M.tags = true) (h_hq : M.hq = true) (h_regions : M.regions = true) (h_sv : M.sv = true)
    (h_rows : M.rows = true) (h_fab : M.fab = true) (h_armed : M.armed = true) :
    ∀ s r b, (State.pumpPrefetch s r b).mask M = s.mask M := by
  intro s r b; unfold State.pumpPrefetch
  simp [*]

@[simp] theorem State.pumpRegion_mask (M : Mask) (h_regs : M.regs = true) (h_ext : M.ext = true)
    (h_tags : M.tags = true) (h_scratch : M.scratch = true) (h_pool : M.pool = true) (h_pound : M.pound = true)
    (h_marks : M.marks = true) (h_hq : M.hq = true) (h_regions : M.regions = true) (h_tileErrs : M.tileErrs = true)
    (h_sv : M.sv = true) (h_rows : M.rows = true) (h_gathers : M.gathers = true) (h_fab : M.fab = true)
    (h_armed : M.armed = true) : ∀ s r, (State.pumpRegion s r).mask M = s.mask M := by
  intro s r; unfold State.pumpRegion; simp [*]

@[simp] theorem State.noteFactorFail_mask (M : Mask) (h_regions : M.regions = true) (h_sv : M.sv = true) :
    ∀ s r t x fate, (State.noteFactorFail s r t x fate).mask M = s.mask M := by
  intro s r t x fate; unfold State.noteFactorFail; simp [*]

@[simp] theorem State.failSlots_mask (M : Mask) (h_regs : M.regs = true) (h_ext : M.ext = true)
    (h_tags : M.tags = true) (h_marks : M.marks = true) (h_hq : M.hq = true) (h_sv : M.sv = true)
    (h_gathers : M.gathers = true) (h_armed : M.armed = true) :
    ∀ s r t x fate, (State.failSlots s r t x fate).mask M = s.mask M := by
  intro s r t x fate
  unfold State.failSlots
  try simp only []
  refine (State.foldl_mask M _ ?_ _ _).trans ?_
  · intro s x
    (repeat' split) <;> simp_all
  · simp [*]

@[simp] theorem State.rowFailed_mask (M : Mask) (h_regs : M.regs = true) (h_ext : M.ext = true)
    (h_tags : M.tags = true) (h_scratch : M.scratch = true) (h_pool : M.pool = true) (h_pound : M.pound = true)
    (h_marks : M.marks = true) (h_hq : M.hq = true) (h_regions : M.regions = true) (h_tileErrs : M.tileErrs = true)
    (h_sv : M.sv = true) (h_rows : M.rows = true) (h_gathers : M.gathers = true) (h_fab : M.fab = true)
    (h_armed : M.armed = true) :
    ∀ s r t x fate prefetch, (State.rowFailed s r t x fate prefetch).mask M = s.mask M := by
  intro s r t x fate prefetch; unfold State.rowFailed; simp [*]

theorem State.excPut_mask (M : Mask) (h_regs : M.regs = true) (h_ext : M.ext = true) (h_tags : M.tags = true)
    (h_hq : M.hq = true) (h_armed : M.armed = true)
    (s : State) (t x w : Nat) (u : State) (h : s.excPut t x w = some u) :
    u.mask M = s.mask M := by
  unfold State.excPut at h
  split at h
  · cases h; simp [*]
  · simp only [Option.map_eq_some_iff] at h
    obtain ⟨a, -, rfl⟩ := h
    simp [*]

@[simp] theorem State.forwardPacket_mask (M : Mask) (h_regs : M.regs = true) (h_hq : M.hq = true)
    (h_fab : M.fab = true) : ∀ s n p, (State.forwardPacket s n p).mask M = s.mask M := by
  intro s n p; unfold State.forwardPacket; simp [*]

@[simp] theorem State.linkDown_mask (M : Mask) (h_regs : M.regs = true) (h_hq : M.hq = true) (h_fab : M.fab = true) :
    ∀ s n, (State.linkDown s n).mask M = s.mask M := by
  intro s n; unfold State.linkDown; simp [*]

@[simp] theorem State.retrainDone_mask (M : Mask) (h_fab : M.fab = true) :
    ∀ s n, (State.retrainDone s n).mask M = s.mask M := by
  intro s n; unfold State.retrainDone; (repeat' split) <;> simp_all

@[simp] theorem State.nakOnce_mask (M : Mask) (h_fab : M.fab = true) :
    ∀ s n, (State.nakOnce s n).mask M = s.mask M := by
  intro s n; unfold State.nakOnce; simp [*]

@[simp] theorem State.badFlit_mask (M : Mask) (h_fab : M.fab = true) :
    ∀ s n, (State.badFlit s n).mask M = s.mask M := by
  intro s n; unfold State.badFlit; simp [*]

@[simp] theorem State.ackFlits_mask (M : Mask) (h_regs : M.regs = true) (h_fab : M.fab = true) :
    ∀ s n ack, (State.ackFlits s n ack).mask M = s.mask M := by
  intro s n ack; unfold State.ackFlits; simp [*]

@[simp] theorem State.rxFlit_mask (M : Mask) (h_regs : M.regs = true) (h_fab : M.fab = true)
    (s : State) (n : Nat) (f : BitVec 512) (mark : Bool) (kind : Nat)
    (act : State → State) (hf : ∀ s, (act s).mask M = s.mask M) : (s.rxFlit n f mark kind act).mask M = s.mask M := by
  unfold State.rxFlit; simp [*]

@[simp] theorem State.endQuarantine_mask (M : Mask) (h_regs : M.regs = true) (h_hq : M.hq = true)
    (h_fab : M.fab = true) : ∀ s k, (State.endQuarantine s k).mask M = s.mask M := by
  intro s k; unfold State.endQuarantine; (repeat' split) <;> simp_all

@[simp] theorem State.releaseTrain_mask (M : Mask) (h_sv : M.sv = true) :
    ∀ s j, (State.releaseTrain s j).mask M = s.mask M := by
  intro s j; unfold State.releaseTrain; (repeat' split) <;> simp_all

@[simp] theorem State.remoor_mask (M : Mask) (h_regs : M.regs = true) (h_ext : M.ext = true) (h_tags : M.tags = true)
    (h_hq : M.hq = true) (h_regions : M.regions = true) (h_rows : M.rows = true) (h_fab : M.fab = true)
    (h_armed : M.armed = true) : ∀ s m ids, (State.remoor s m ids).mask M = s.mask M := by
  intro s m ids; unfold State.remoor; simp [*]

@[simp] theorem State.fillSlots_mask (M : Mask) (h_gathers : M.gathers = true) :
    ∀ s r t x g, (State.fillSlots s r t x g).mask M = s.mask M := by
  intro s r t x g; unfold State.fillSlots; simp [*]

@[simp] theorem State.currentCame_mask (M : Mask) (h_regs : M.regs = true) (h_ext : M.ext = true)
    (h_tags : M.tags = true) (h_scratch : M.scratch = true) (h_pool : M.pool = true) (h_pound : M.pound = true)
    (h_marks : M.marks = true) (h_hq : M.hq = true) (h_regions : M.regions = true) (h_tileErrs : M.tileErrs = true)
    (h_sv : M.sv = true) (h_rows : M.rows = true) (h_gathers : M.gathers = true) (h_fab : M.fab = true)
    (h_armed : M.armed = true) : ∀ s r tid x, (State.currentCame s r tid x).mask M = s.mask M := by
  intro s r tid x; unfold State.currentCame; simp [*]; (repeat' split) <;> simp_all

@[simp] theorem State.settleMaster_mask (M : Mask) (h_regs : M.regs = true) (h_hq : M.hq = true) (h_fab : M.fab = true) :
    ∀ s, (State.settleMaster s).mask M = s.mask M := by
  intro s; unfold State.settleMaster; simp [*]

@[simp] theorem State.rowsStart_mask (M : Mask) (h_regs : M.regs = true) (h_ext : M.ext = true)
    (h_tags : M.tags = true) (h_hq : M.hq = true) (h_armed : M.armed = true)
    (s : State) (it : Item) (read : Bool)
    (run : State → Tab → RowsHdr → State) (hf : ∀ s t h, (run s t h).mask M = s.mask M) :
    (s.rowsStart it read run).mask M = s.mask M := by
  unfold State.rowsStart; simp [*]; split <;> simp [*]

@[simp] theorem State.readOne_mask (M : Mask) (h_regs : M.regs = true) (h_ext : M.ext = true) (h_tags : M.tags = true)
    (h_hq : M.hq = true) (h_armed : M.armed = true) :
    ∀ s t it h k, (State.readOne s t it h k).2.mask M = s.mask M := by
  intro s t it h k; unfold State.readOne; simp [*]; (repeat' split) <;> simp_all

@[simp] theorem State.readMany_mask (M : Mask) (h_regs : M.regs = true) (h_ext : M.ext = true) (h_tags : M.tags = true)
    (h_hq : M.hq = true) (h_armed : M.armed = true)
    (s : State) (t : Tab) (it : Item) (h : RowsHdr) (n k : Nat) :
    (State.readMany s t it h n k).2.2.mask M = s.mask M := by
  induction n generalizing s k with
  | zero => rfl
  | succ n ih =>
    unfold State.readMany
    have hm := State.readOne_mask M ‹_› ‹_› ‹_› ‹_› ‹_› s t it h k
    split <;> rename_i heq <;> rw [heq] at hm
    · exact hm
    · exact (ih _ _).trans hm

@[simp] theorem State.endPause_mask (M : Mask) (h_regs : M.regs = true) (h_rows : M.rows = true) :
    ∀ s p, (State.endPause s p).mask M = s.mask M := by
  intro s p; unfold State.endPause; simp [*]

@[simp] theorem State.pauseTakeEffect_mask (M : Mask) (h_regs : M.regs = true) (h_ext : M.ext = true)
    (h_tags : M.tags = true) (h_hq : M.hq = true) (h_regions : M.regions = true) (h_rows : M.rows = true)
    (h_armed : M.armed = true) : ∀ s p it, (State.pauseTakeEffect s p it).mask M = s.mask M := by
  intro s p it; unfold State.pauseTakeEffect; simp [*]; (repeat' split) <;> simp_all

@[simp] theorem State.tableTakeEffect_mask (M : Mask) (h_regs : M.regs = true) (h_ext : M.ext = true)
    (h_tags : M.tags = true) (h_hq : M.hq = true) (h_regions : M.regions = true) (h_rows : M.rows = true)
    (h_armed : M.armed = true) : ∀ s j replace, (State.tableTakeEffect s j replace).mask M = s.mask M := by
  intro s j replace; unfold State.tableTakeEffect; (repeat' split) <;> simp_all

@[simp] theorem State.deleteTable_mask (M : Mask) (h_regs : M.regs = true) (h_ext : M.ext = true)
    (h_tags : M.tags = true) (h_hq : M.hq = true) (h_rows : M.rows = true) (h_armed : M.armed = true) :
    ∀ s it, (State.deleteTable s it).mask M = s.mask M := by
  intro s it; unfold State.deleteTable; (repeat' split) <;> simp_all

@[simp] theorem State.zeroState_mask (M : Mask) (h_regs : M.regs = true) (h_ext : M.ext = true)
    (h_tags : M.tags = true) (h_hq : M.hq = true) (h_armed : M.armed = true) :
    ∀ s t l, (State.zeroState s t l).mask M = s.mask M := by
  intro s t l; unfold State.zeroState; simp [*]

@[simp] theorem State.writeOne_mask (M : Mask) (h_regs : M.regs = true) (h_ext : M.ext = true)
    (h_tags : M.tags = true) (h_hq : M.hq = true) (h_armed : M.armed = true) :
    ∀ s t it h k, (State.writeOne s t it h k).2.mask M = s.mask M := by
  intro s t it h k; unfold State.writeOne; simp only []
  split
  · rfl
  · generalize hp : (if h.source = true then _ else (_, s) : (Nat ⊕ List Word) × State) = p
    have hm : p.2.mask M = s.mask M := by
      rw [← hp]; split
      · exact State.storedRow_mask M h_regs h_tags h_hq s t _
      · rfl
    split
    · exact hm
    · split
      · exact hm
      · split <;> rename_i heq
        all_goals have hm := State.pair_mask (M := M) (t := s) heq (by clear heq; simp [*])
        · exact hm
        · simp only []
          split <;> simp [*]

@[simp] theorem State.writeMany_mask (M : Mask) (h_regs : M.regs = true) (h_ext : M.ext = true)
    (h_tags : M.tags = true) (h_hq : M.hq = true) (h_armed : M.armed = true)
    (s : State) (t : Tab) (it : Item) (h : RowsHdr) (n k : Nat) :
    (State.writeMany s t it h n k).2.2.mask M = s.mask M := by
  induction n generalizing s k with
  | zero => rfl
  | succ n ih =>
    unfold State.writeMany
    have hm := State.writeOne_mask M ‹_› ‹_› ‹_› ‹_› ‹_› s t it h k
    split <;> rename_i heq <;> rw [heq] at hm
    · exact hm
    · exact (ih _ _).trans hm

@[simp] theorem State.flipDone_mask (M : Mask) (h_regs : M.regs = true) (h_ext : M.ext = true) (h_tags : M.tags = true)
    (h_hq : M.hq = true) (h_regions : M.regions = true) (h_sv : M.sv = true) (h_rows : M.rows = true)
    (h_fab : M.fab = true) (h_armed : M.armed = true) : ∀ s it, (State.flipDone s it).mask M = s.mask M := by
  intro s it; unfold State.flipDone; simp [*]

@[simp] theorem State.addAt_mask (M : Mask) (h_regs : M.regs = true) (h_ext : M.ext = true) (h_tags : M.tags = true)
    (h_hq : M.hq = true) (h_armed : M.armed = true) : ∀ s a v, (State.addAt s a v).mask M = s.mask M := by
  intro s a v; unfold State.addAt; simp [*]

@[simp] theorem State.refill_mask (M : Mask) (h_sv : M.sv = true) : ∀ s, (State.refill s).mask M = s.mask M := by
  intro s; unfold State.refill; simp [*]

@[simp] theorem State.report_mask (M : Mask) (h_regs : M.regs = true) (h_ext : M.ext = true) (h_tags : M.tags = true)
    (h_hq : M.hq = true) (h_sv : M.sv = true) (h_armed : M.armed = true) :
    ∀ s, (State.report s).mask M = s.mask M := by
  intro s; unfold State.report; simp [*]

@[simp] theorem State.unhold_mask (M : Mask) (h_fab : M.fab = true) :
    ∀ s p, (State.unhold s p).2.mask M = s.mask M := by
  intro s p; unfold State.unhold; (repeat' split) <;> simp_all

@[simp] theorem State.answerRow_mask (M : Mask) (h_regs : M.regs = true) (h_hq : M.hq = true) (h_fab : M.fab = true) :
    ∀ s p since r, (State.answerRow s p since r).mask M = s.mask M := by
  intro s p since r; unfold State.answerRow; (repeat' split) <;> simp_all

@[simp] theorem State.rowCame_mask (M : Mask) (h_regs : M.regs = true) (h_ext : M.ext = true) (h_tags : M.tags = true)
    (h_scratch : M.scratch = true) (h_pool : M.pool = true) (h_pound : M.pound = true) (h_marks : M.marks = true)
    (h_hq : M.hq = true) (h_regions : M.regions = true) (h_tileErrs : M.tileErrs = true) (h_sv : M.sv = true)
    (h_rows : M.rows = true) (h_gathers : M.gathers = true) (h_fab : M.fab = true) (h_armed : M.armed = true) :
    ∀ s r tid x probe prefetch p, (State.rowCame s r tid x probe prefetch p).mask M = s.mask M := by
  intro s r tid x probe prefetch p; unfold State.rowCame; (repeat' split) <;> simp_all

@[simp] theorem State.putBack_mask (M : Mask) (h_fab : M.fab = true) :
    ∀ s p, (State.putBack s p).mask M = s.mask M := by
  intro s p; unfold State.putBack; simp [*]

@[simp] theorem State.serve_mask (M : Mask) (h_regs : M.regs = true) (h_hq : M.hq = true) (h_fab : M.fab = true)
    (s : State) (p : Packet) (n : Nat) (aligned : Bool) (f : State → State)
    (hf : ∀ s, (f s).mask M = s.mask M) : (s.serve p n aligned f).mask M = s.mask M := by
  unfold State.serve; simp [*]

@[simp] theorem State.storeUnits_mask (M : Mask) (h_regs : M.regs = true) (h_ext : M.ext = true)
    (h_tags : M.tags = true) (h_hq : M.hq = true) (h_armed : M.armed = true) :
    ∀ s p, (State.storeUnits s p).mask M = s.mask M := by
  intro s p; unfold State.storeUnits; simp [*]

@[simp] theorem State.storeWrite_mask (M : Mask) (h_regs : M.regs = true) (h_ext : M.ext = true)
    (h_tags : M.tags = true) (h_hq : M.hq = true) (h_armed : M.armed = true) :
    ∀ s p, (State.storeWrite s p).mask M = s.mask M := by
  intro s p; unfold State.storeWrite; simp [*]

@[simp] theorem State.packetWhole_mask (M : Mask) (h_regs : M.regs = true) (h_hq : M.hq = true) (h_fab : M.fab = true) :
    ∀ s n vc bs, (State.packetWhole s n vc bs).mask M = s.mask M := by
  intro s n vc bs; unfold State.packetWhole; simp [*]

@[simp] theorem State.joinFlit_mask (M : Mask) (h_regs : M.regs = true) (h_hq : M.hq = true) (h_fab : M.fab = true) :
    ∀ s n f, (State.joinFlit s n f).mask M = s.mask M := by
  intro s n f; unfold State.joinFlit; simp [*]

@[simp] theorem State.dataFlit_mask (M : Mask) (h_regs : M.regs = true) (h_hq : M.hq = true) (h_fab : M.fab = true) :
    ∀ s n f, (State.dataFlit s n f).mask M = s.mask M := by
  intro s n f; unfold State.dataFlit; simp [*]

@[simp] theorem State.resend_mask (M : Mask) (h_regs : M.regs = true) (h_hq : M.hq = true) (h_fab : M.fab = true) :
    ∀ s n seq, (State.resend s n seq).mask M = s.mask M := by
  intro s n seq; unfold State.resend; simp [*]

@[simp] theorem State.initFlit_mask (M : Mask) (h_regs : M.regs = true) (h_hq : M.hq = true) (h_fab : M.fab = true) :
    ∀ s n c, (State.initFlit s n c).mask M = s.mask M := by
  intro s n c; unfold State.initFlit; simp [*]

@[simp] theorem State.replayLate_mask (M : Mask) (h_regs : M.regs = true) (h_hq : M.hq = true) (h_fab : M.fab = true) :
    ∀ s n, (State.replayLate s n).mask M = s.mask M := by
  intro s n; unfold State.replayLate; (repeat' split) <;> simp_all

end Sys2Proof.Machine
end

