-- ==== Sys2Proof/Laws/FrameRows.lean ====
section
/-! SUPPORT. What each operation of placement, gathers, updates and moving rows leaves untouched: the lemma of an operation
holds under every mask that names the fields the operation may change. -/

namespace Sys2Proof.Machine

open Sys2Proof

@[simp] theorem State.loseRow_mask (M : Mask) (h_regs : M.regs = true) (h_hq : M.hq = true) :
    ∀ s, (State.loseRow s).mask M = s.mask M := by
  intro s; unfold State.loseRow; simp [*]

@[simp] theorem State.noteKeys_mask (M : Mask) (h_regs : M.regs = true) (h_hq : M.hq = true) (h_rows : M.rows = true) :
    ∀ s ps bl, (State.noteKeys s ps bl).mask M = s.mask M := by
  intro s ps bl; unfold State.noteKeys; simp [*]

@[simp] theorem State.addWords_mask (M : Mask) (h_sv : M.sv = true) :
    ∀ s b i inst a bs t rows, (State.addWords s b i inst a bs t rows).mask M = s.mask M := by
  intro s b i inst a bs t rows; unfold State.addWords; simp [*]

@[simp] theorem State.takeSeq_mask (M : Mask) (h_rows : M.rows = true) :
    ∀ s owner step, (State.takeSeq s owner step).2.mask M = s.mask M := by
  intro s owner step; unfold State.takeSeq; simp [*]; (repeat' split) <;> simp_all

@[simp] theorem State.sendVc3_mask (M : Mask) (h_regs : M.regs = true) (h_hq : M.hq = true) (h_rows : M.rows = true)
    (h_fab : M.fab = true) :
    ∀ s use t x owner step kind mult dimq grad, (State.sendVc3 s use t x owner step kind mult dimq grad).mask M = s.mask M := by
  intro s use t x owner step kind mult dimq grad; unfold State.sendVc3; simp [*]

@[simp] theorem State.expireGone_mask (M : Mask) (h_regs : M.regs = true) (h_ext : M.ext = true)
    (h_tags : M.tags = true) (h_hq : M.hq = true) (h_armed : M.armed = true) :
    ∀ s tid x, (State.expireGone s tid x).mask M = s.mask M := by
  intro s tid x; unfold State.expireGone; (repeat' split) <;> simp_all

@[simp] theorem State.setUses_mask (M : Mask) (h_regs : M.regs = true) (h_ext : M.ext = true) (h_tags : M.tags = true)
    (h_scratch : M.scratch = true) (h_pool : M.pool = true) (h_pound : M.pound = true) (h_marks : M.marks = true)
    (h_hq : M.hq = true) (h_regions : M.regions = true) (h_tileErrs : M.tileErrs = true) (h_armed : M.armed = true) :
    ∀ s r n, (State.setUses s r n).mask M = s.mask M := by
  intro s r n; unfold State.setUses; simp [*]

@[simp] theorem State.decay_mask (M : Mask) (h_regs : M.regs = true) (h_ext : M.ext = true) (h_tags : M.tags = true)
    (h_hq : M.hq = true) (h_armed : M.armed = true) : ∀ s, (State.decay s).mask M = s.mask M := by
  intro s
  unfold State.decay
  try simp only []
  refine (State.foldl_mask M _ ?_ _ _).trans ?_
  · intro s x
    (repeat' split) <;> simp_all
  · simp [*]

@[simp] theorem State.extClear_mask (M : Mask) (h_ext : M.ext = true) (h_tags : M.tags = true) :
    ∀ s a n, (State.extClear s a n).mask M = s.mask M := by
  intro s a n; unfold State.extClear; simp [*]

@[simp] theorem State.skewReport_mask (M : Mask) (h_regs : M.regs = true) (h_ext : M.ext = true)
    (h_tags : M.tags = true) (h_hq : M.hq = true) (h_armed : M.armed = true) :
    ∀ s, (State.skewReport s).mask M = s.mask M := by
  intro s; unfold State.skewReport; simp [*]

@[simp] theorem State.demoteRow_mask (M : Mask) (h_regs : M.regs = true) (h_ext : M.ext = true)
    (h_tags : M.tags = true) (h_hq : M.hq = true) (h_rows : M.rows = true) (h_armed : M.armed = true) :
    ∀ s c, (State.demoteRow s c).2.mask M = s.mask M := by
  intro s c; unfold State.demoteRow; (repeat' split) <;> simp_all

@[simp] theorem State.makeHot_mask (M : Mask) (h_regs : M.regs = true) (h_ext : M.ext = true) (h_tags : M.tags = true)
    (h_hq : M.hq = true) (h_rows : M.rows = true) (h_armed : M.armed = true) :
    ∀ s t x a h home img, (State.makeHot s t x a h home img).mask M = s.mask M := by
  intro s t x a h home img; unfold State.makeHot; simp [*]

@[simp] theorem State.promote_mask (M : Mask) (h_regs : M.regs = true) (h_ext : M.ext = true)
    (h_tags : M.tags = true) (h_hq : M.hq = true) (h_rows : M.rows = true) (h_armed : M.armed = true) :
    ∀ s c, (State.promote s c).mask M = s.mask M := by
  intro s c; unfold State.promote; simp only []
  split
  · split
    · split
      · rfl
      · split
        · split
          · simp [*]
          · split <;> rename_i heq
            all_goals have hm := State.pair_mask (M := M) (t := s) heq (by clear heq; simp [*])
            all_goals simp [*]
        · simp [*]
    · rfl
  · rfl

@[simp] theorem State.movePoint_mask (M : Mask) (h_regs : M.regs = true) (h_ext : M.ext = true)
    (h_tags : M.tags = true) (h_hq : M.hq = true) (h_rows : M.rows = true) (h_armed : M.armed = true) :
    ∀ s, (State.movePoint s).mask M = s.mask M := by
  intro s; unfold State.movePoint
  simp [*]

@[simp] theorem State.windowEnd_mask (M : Mask) (h_regs : M.regs = true) (h_ext : M.ext = true)
    (h_tags : M.tags = true) (h_hq : M.hq = true) (h_rows : M.rows = true) (h_armed : M.armed = true) :
    ∀ s, (State.windowEnd s).mask M = s.mask M := by
  intro s; unfold State.windowEnd; simp [*]

@[simp] theorem State.dropStale_mask (M : Mask) (h_rows : M.rows = true) :
    ∀ s, (State.dropStale s).mask M = s.mask M := by
  intro s; unfold State.dropStale
  simp [*]

@[simp] theorem State.receiveMove_mask (M : Mask) (h_regs : M.regs = true) (h_hq : M.hq = true)
    (h_rows : M.rows = true) (h_fab : M.fab = true)
    (s : State) (p : Packet) (kind : Nat) (f : State → State) (hf : ∀ s, (f s).mask M = s.mask M) : (s.receiveMove p kind f).mask M = s.mask M := by
  unfold State.receiveMove; simp [*]

@[simp] theorem State.answerMove_mask (M : Mask) (h_regs : M.regs = true) (h_hq : M.hq = true) (h_fab : M.fab = true) :
    ∀ s p a, (State.answerMove s p a).mask M = s.mask M := by
  intro s p a; unfold State.answerMove; simp [*]

@[simp] theorem State.leaveOut_mask (M : Mask) (h_sv : M.sv = true) :
    ∀ s b i w key m row fate poison, (State.leaveOut s b i w key m row fate poison).mask M = s.mask M := by
  intro s b i w key m row fate poison; unfold State.leaveOut
  simp [*]

@[simp] theorem State.saveRange_mask (M : Mask) (h_regs : M.regs = true) (h_ext : M.ext = true)
    (h_tags : M.tags = true) (h_hq : M.hq = true) (h_armed : M.armed = true) :
    ∀ s st x n dest, (State.saveRange s st x n dest).mask M = s.mask M := by
  intro s st x n dest; unfold State.saveRange
  simp [*]

@[simp] theorem State.idle_mask (M : Mask) (h_regions : M.regions = true) :
    ∀ s r, (State.idle s r).mask M = s.mask M := by
  intro s r; unfold State.idle; simp [*]

@[simp] theorem State.saveDone_mask (M : Mask) (h_regs : M.regs = true) (h_ext : M.ext = true) (h_tags : M.tags = true)
    (h_marks : M.marks = true) (h_hq : M.hq = true) (h_regions : M.regions = true) (h_tileErrs : M.tileErrs = true)
    (h_sv : M.sv = true) (h_gathers : M.gathers = true) (h_armed : M.armed = true) :
    ∀ s id, (State.saveDone s id).mask M = s.mask M := by
  intro s id; unfold State.saveDone; (repeat' split) <;> simp_all

@[simp] theorem State.seeEntry_mask (M : Mask) (h_regs : M.regs = true) (h_marks : M.marks = true) (h_hq : M.hq = true)
    (h_tileErrs : M.tileErrs = true) (h_armed : M.armed = true) : ∀ s e, (State.seeEntry s e).mask M = s.mask M := by
  intro s e; unfold State.seeEntry
  simp [*]

theorem State.toWeir_mask (M : Mask) (h_regs : M.regs = true) (h_ext : M.ext = true) (h_tags : M.tags = true)
    (h_hq : M.hq = true) (h_rows : M.rows = true) (h_armed : M.armed = true)
    (s : State) (m : WeirMsg) (bytes : List Byte) (u : State)
    (h : s.toWeir m bytes = some u) : u.mask M = s.mask M := by
  unfold State.toWeir at h
  simp only [] at h
  split at h
  · cases h
  · cases h; simp [*]

@[simp] theorem State.mergeToWeir_mask (M : Mask) (h_regs : M.regs = true) (h_ext : M.ext = true)
    (h_tags : M.tags = true) (h_marks : M.marks = true) (h_hq : M.hq = true) (h_tileErrs : M.tileErrs = true)
    (h_rows : M.rows = true) (h_armed : M.armed = true) (h_picks : M.picks = true) :
    ∀ s r, (State.mergeToWeir s r).mask M = s.mask M := by
  intro s r
  unfold State.mergeToWeir
  simp only []
  refine (State.foldl_mask M _ ?_ _ _).trans (by simp [*])
  intro s e
  split
  · simp [*]
  · split
    · rename_i u hu
      rw [State.toWeir_mask M ‹_› ‹_› ‹_› ‹_› ‹_› ‹_› _ _ _ _ hu]; simp [*]
    · simp [*]

@[simp] theorem State.startBeside_mask (M : Mask) (h_sv : M.sv = true) :
    ∀ s id, (State.startBeside s id).mask M = s.mask M := by
  intro s id; unfold State.startBeside
  (repeat' split) <;> simp_all

@[simp] theorem State.dropMove_mask (M : Mask) (h_rows : M.rows = true) :
    ∀ s tid x, (State.dropMove s tid x).mask M = s.mask M := by
  intro s tid x; unfold State.dropMove; simp [*]

@[simp] theorem State.writeWeir_mask (M : Mask) (h_regs : M.regs = true) (h_ext : M.ext = true)
    (h_tags : M.tags = true) (h_hq : M.hq = true) (h_armed : M.armed = true) :
    ∀ s, (State.writeWeir s).mask M = s.mask M := by
  intro s; unfold State.writeWeir
  simp [*]

@[simp] theorem State.copyIn_mask (M : Mask) (h_regs : M.regs = true) (h_ext : M.ext = true) (h_tags : M.tags = true)
    (h_scratch : M.scratch = true) (h_pool : M.pool = true) (h_pound : M.pound = true) (h_marks : M.marks = true)
    (h_hq : M.hq = true) (h_tileErrs : M.tileErrs = true) (h_armed : M.armed = true) :
    ∀ s st dest src n, (State.copyIn s st dest src n).mask M = s.mask M := by
  intro s st dest src n; unfold State.copyIn; simp [*]

@[simp] theorem State.countSaved_mask (M : Mask) (h_sv : M.sv = true) :
    ∀ s b, (State.countSaved s b).mask M = s.mask M := by
  intro s b; unfold State.countSaved
  simp [*]

@[simp] theorem State.refetch_mask (M : Mask) (h_regs : M.regs = true) (h_ext : M.ext = true) (h_tags : M.tags = true)
    (h_marks : M.marks = true) (h_hq : M.hq = true) (h_sv : M.sv = true) (h_gathers : M.gathers = true)
    (h_armed : M.armed = true) : ∀ s id i, (State.refetch s id i).mask M = s.mask M := by
  intro s id i; unfold State.refetch
  (repeat' split) <;> simp_all

@[simp] theorem State.restoreDone_mask (M : Mask) (h_regs : M.regs = true) (h_ext : M.ext = true)
    (h_tags : M.tags = true) (h_scratch : M.scratch = true) (h_pool : M.pool = true) (h_pound : M.pound = true)
    (h_marks : M.marks = true) (h_hq : M.hq = true) (h_regions : M.regions = true) (h_tileErrs : M.tileErrs = true)
    (h_sv : M.sv = true) (h_gathers : M.gathers = true) (h_armed : M.armed = true) :
    ∀ s id, (State.restoreDone s id).mask M = s.mask M := by
  intro s id; unfold State.restoreDone; (repeat' split) <;> simp_all

@[simp] theorem State.sendNotices_mask (M : Mask) (h_regs : M.regs = true) (h_hq : M.hq = true)
    (h_rows : M.rows = true) (h_fab : M.fab = true) :
    ∀ s t x owner, (State.sendNotices s t x owner).mask M = s.mask M := by
  intro s t x owner; unfold State.sendNotices; simp [*]

@[simp] theorem State.setMig_mask (M : Mask) (h_regs : M.regs = true) :
    ∀ s busy done moved, (State.setMig s busy done moved).mask M = s.mask M := by
  intro s busy done moved; unfold State.setMig; simp [*]

@[simp] theorem State.sendState_mask (M : Mask) (h_regs : M.regs = true) (h_hq : M.hq = true) (h_fab : M.fab = true) :
    ∀ s tid x dest st bad, (State.sendState s tid x dest st bad).mask M = s.mask M := by
  intro s tid x dest st bad; unfold State.sendState
  simp [*]

@[simp] theorem State.offerRow_mask (M : Mask) (h_regs : M.regs = true) (h_hq : M.hq = true) (h_rows : M.rows = true)
    (h_fab : M.fab = true) : ∀ s t x dest l r, (State.offerRow s t x dest l r).mask M = s.mask M := by
  intro s t x dest l r; unfold State.offerRow
  simp [*]

@[simp] theorem State.endGap_mask (M : Mask) (h_regs : M.regs = true) :
    ∀ s b, (State.endGap s b).mask M = s.mask M := by
  intro s b; unfold State.endGap; simp [*]

@[simp] theorem State.nameOverdue_mask (M : Mask) (h_regs : M.regs = true) :
    ∀ s, (State.nameOverdue s).mask M = s.mask M := by
  intro s; unfold State.nameOverdue
  (repeat' split) <;> simp_all

@[simp] theorem State.endRequestOf_mask (M : Mask) (h_regs : M.regs = true) (h_sv : M.sv = true) :
    ∀ s id, (State.endRequestOf s id).mask M = s.mask M := by
  intro s id; unfold State.endRequestOf; (repeat' split) <;> simp_all

@[simp] theorem State.countPreempt_mask (M : Mask) (h_sv : M.sv = true) :
    ∀ s b, (State.countPreempt s b).mask M = s.mask M := by
  intro s b; unfold State.countPreempt; simp [*]

@[simp] theorem State.dropLater_mask (M : Mask) (h_sv : M.sv = true) (h_gathers : M.gathers = true) :
    ∀ s id i, (State.dropLater s id i).mask M = s.mask M := by
  intro s id i; unfold State.dropLater
  simp [*]

@[simp] theorem savePointEffect_mask (M : Mask) (h_regs : M.regs = true) (h_sv : M.sv = true)
    (h_gathers : M.gathers = true) : ∀ i s b w, (savePointEffect i s b w).mask M = s.mask M := by
  intro i s b w; unfold savePointEffect; simp [*]; (repeat' split) <;> simp_all

@[simp] theorem State.holdMask_mask (M : Mask) (h_sv : M.sv = true) :
    ∀ s mask, (State.holdMask s mask).mask M = s.mask M := by
  intro s mask; unfold State.holdMask; simp [*]

@[simp] theorem State.receiveAns_mask (M : Mask) (h_regs : M.regs = true) (h_hq : M.hq = true) (h_fab : M.fab = true)
    (s : State) (p : Packet) (kind : Nat) (f : State → State)
    (hf : ∀ s, (f s).mask M = s.mask M) : (s.receiveAns p kind f).mask M = s.mask M := by
  unfold State.receiveAns; simp [*]

@[simp] theorem State.moveReply_mask (M : Mask) (h_regs : M.regs = true) (h_hq : M.hq = true) (h_fab : M.fab = true)
    (s : State) (p : Packet) (answer : Nat) (f : State → TagUse → State)
    (hf : ∀ s u, (f s u).mask M = s.mask M) : (s.moveReply p answer f).mask M = s.mask M := by
  unfold State.moveReply; simp [*]

@[simp] theorem State.freeBasin_mask (M : Mask) (h_rows : M.rows = true) :
    ∀ s k, (State.freeBasin s k).mask M = s.mask M := by
  intro s k; unfold State.freeBasin; simp [*]

@[simp] theorem State.giveUpRow_mask (M : Mask) (h_regs : M.regs = true) (h_ext : M.ext = true)
    (h_tags : M.tags = true) (h_hq : M.hq = true) (h_rows : M.rows = true) (h_armed : M.armed = true) :
    ∀ s tid x, (State.giveUpRow s tid x).mask M = s.mask M := by
  intro s tid x; unfold State.giveUpRow; (repeat' split) <;> simp_all

@[simp] theorem State.accessDone_mask (M : Mask) (h_regions : M.regions = true) :
    ∀ s r, (State.accessDone s r).mask M = s.mask M := by
  intro s r; unfold State.accessDone
  simp [*]

@[simp] theorem State.answerUpd_mask (M : Mask) (h_regs : M.regs = true) (h_hq : M.hq = true) (h_fab : M.fab = true) :
    ∀ s p kind owner, (State.answerUpd s p kind owner).mask M = s.mask M := by
  intro s p kind owner; unfold State.answerUpd; simp [*]

@[simp] theorem State.setHighMark_mask (M : Mask) (h_rows : M.rows = true) :
    ∀ s p, (State.setHighMark s p).mask M = s.mask M := by
  intro s p; unfold State.setHighMark; simp [*]

@[simp] theorem State.weirFull_mask (M : Mask) (h_regs : M.regs = true) (h_hq : M.hq = true) (h_rows : M.rows = true)
    (h_fab : M.fab = true) : ∀ s p since, (State.weirFull s p since).mask M = s.mask M := by
  intro s p since; unfold State.weirFull; simp [*]

@[simp] theorem State.wake_mask (M : Mask) (h_regs : M.regs = true) (h_regions : M.regions = true) :
    ∀ s r, (State.wake s r).mask M = s.mask M := by
  intro s r; unfold State.wake; simp [*]

theorem State.afterMerge_mask (M : Mask) (h_regs : M.regs = true) (h_hq : M.hq = true) (h_regions : M.regions = true)
    (h_rows : M.rows = true) (h_fab : M.fab = true)
    (s : State) (p : Packet) (since : Nat) (x : MergeRes)
    (hx : ∀ t, x = .held t → t.mask M = s.mask M) : (s.afterMerge p since x).mask M = s.mask M := by
  cases x with
  | held t => simp [State.afterMerge, hx t rfl, *]
  | full => simp [State.afterMerge, *]
  | asleep r => simp [State.afterMerge, *]

@[simp] theorem State.loadPiece_mask (M : Mask) (h_regs : M.regs = true) (h_ext : M.ext = true)
    (h_tags : M.tags = true) (h_scratch : M.scratch = true) (h_pool : M.pool = true) (h_pound : M.pound = true)
    (h_marks : M.marks = true) (h_hq : M.hq = true) (h_regions : M.regions = true) (h_tileErrs : M.tileErrs = true)
    (h_sv : M.sv = true) (h_armed : M.armed = true) :
    ∀ s m i r plan, (State.loadPiece s m i r plan).mask M = s.mask M := by
  intro s m i r plan; unfold State.loadPiece
  simp [*]

@[simp] theorem State.loadBegin_mask (M : Mask) (h_regs : M.regs = true) (h_ext : M.ext = true)
    (h_tags : M.tags = true) (h_scratch : M.scratch = true) (h_pool : M.pool = true) (h_pound : M.pound = true)
    (h_marks : M.marks = true) (h_hq : M.hq = true) (h_regions : M.regions = true) (h_tileErrs : M.tileErrs = true)
    (h_sv : M.sv = true) (h_armed : M.armed = true) : ∀ s b, (State.loadBegin s b).mask M = s.mask M := by
  intro s b; unfold State.loadBegin
  simp [*]

@[simp] theorem State.probeRow_mask (M : Mask) (h_regs : M.regs = true) (h_hq : M.hq = true) (h_rows : M.rows = true)
    (h_fab : M.fab = true) : ∀ s tid x, (State.probeRow s tid x).mask M = s.mask M := by
  intro s tid x; unfold State.probeRow; (repeat' split) <;> simp_all

@[simp] theorem State.unplace_mask (M : Mask) (h_regs : M.regs = true) (h_regions : M.regions = true)
    (h_sv : M.sv = true) : ∀ s b, (State.unplace s b).mask M = s.mask M := by
  intro s b; unfold State.unplace; simp [*]

@[simp] theorem State.requestPreempt_mask (M : Mask) (h_regs : M.regs = true) (h_regions : M.regions = true)
    (h_sv : M.sv = true) : ∀ s b, (State.requestPreempt s b).mask M = s.mask M := by
  intro s b; unfold State.requestPreempt; simp [*]

@[simp] theorem State.preemptMask_mask (M : Mask) (h_regs : M.regs = true) (h_regions : M.regions = true)
    (h_sv : M.sv = true) : ∀ s mask, (State.preemptMask s mask).mask M = s.mask M := by
  intro s mask; unfold State.preemptMask; simp [*]

@[simp] theorem State.releaseMask_mask (M : Mask) (h_sv : M.sv = true) :
    ∀ s mask, (State.releaseMask s mask).mask M = s.mask M := by
  intro s mask; unfold State.releaseMask; simp [*]

@[simp] theorem State.preemptCmd_mask (M : Mask) (h_regs : M.regs = true) (h_regions : M.regions = true)
    (h_sv : M.sv = true) : ∀ s w, (State.preemptCmd s w).mask M = s.mask M := by
  intro s w; unfold State.preemptCmd; simp [*]

@[simp] theorem State.migLater_mask (M : Mask) (h_rows : M.rows = true) :
    ∀ s w, (State.migLater s w).mask M = s.mask M := by
  intro s w; unfold State.migLater
  simp [*]

@[simp] theorem State.moveEntry_mask (M : Mask) (h_regs : M.regs = true) (h_ext : M.ext = true)
    (h_tags : M.tags = true) (h_hq : M.hq = true) (h_rows : M.rows = true) (h_fab : M.fab = true)
    (h_armed : M.armed = true) : ∀ s w, (State.moveEntry s w).mask M = s.mask M := by
  intro s w; unfold State.moveEntry; simp [*]; (repeat' split) <;> simp_all

@[simp] theorem State.migCheck_mask (M : Mask) (h_regs : M.regs = true) (h_ext : M.ext = true) (h_tags : M.tags = true)
    (h_hq : M.hq = true) (h_rows : M.rows = true) (h_fab : M.fab = true) (h_armed : M.armed = true) :
    ∀ s, (State.migCheck s).mask M = s.mask M := by
  intro s; unfold State.migCheck; simp [*]

@[simp] theorem State.moveFailed_mask (M : Mask) (h_regs : M.regs = true) (h_ext : M.ext = true)
    (h_tags : M.tags = true) (h_hq : M.hq = true) (h_rows : M.rows = true) (h_fab : M.fab = true)
    (h_armed : M.armed = true) : ∀ s tid x refused, (State.moveFailed s tid x refused).mask M = s.mask M := by
  intro s tid x refused; unfold State.moveFailed; simp [*]

theorem State.putRoute_mask (M : Mask) (h_regs : M.regs = true) (h_ext : M.ext = true) (h_tags : M.tags = true)
    (h_hq : M.hq = true) (h_armed : M.armed = true)
    (s : State) (tid x st owner expiry : Nat) (u : State)
    (h : s.putRoute tid x st owner expiry = some u) : u.mask M = s.mask M := by
  unfold State.putRoute at h
  split at h
  · cases h; simp [*]
  · exact State.excPut_mask M ‹_› ‹_› ‹_› ‹_› ‹_› _ _ _ _ _ h

@[simp] theorem State.sendUpdate_mask (M : Mask) (h_regs : M.regs = true) (h_hq : M.hq = true) (h_rows : M.rows = true)
    (h_fab : M.fab = true) :
    ∀ s use t x owner step mult grad, (State.sendUpdate s use t x owner step mult grad).mask M = s.mask M := by
  intro s use t x owner step mult grad; unfold State.sendUpdate; simp [*]

@[simp] theorem State.passOn_mask (M : Mask) (h_regs : M.regs = true) (h_marks : M.marks = true) (h_hq : M.hq = true)
    (h_tileErrs : M.tileErrs = true) (h_rows : M.rows = true) (h_fab : M.fab = true) (h_armed : M.armed = true)
    (h_picks : M.picks = true) : ∀ s t x dest, (State.passOn s t x dest).mask M = s.mask M := by
  intro s t x dest; unfold State.passOn; simp [*]

@[simp] theorem State.moveAccepted_mask (M : Mask) (h_regs : M.regs = true) (h_ext : M.ext = true)
    (h_tags : M.tags = true) (h_marks : M.marks = true) (h_hq : M.hq = true) (h_tileErrs : M.tileErrs = true)
    (h_rows : M.rows = true) (h_fab : M.fab = true) (h_armed : M.armed = true) (h_picks : M.picks = true) :
    ∀ s m, (State.moveAccepted s m).mask M = s.mask M := by
  intro s m
  unfold State.moveAccepted
  split
  · simp only []
    split
    · rename_i u hu
      have hm := State.putRoute_mask M ‹_› ‹_› ‹_› ‹_› ‹_› _ _ _ _ _ _ _ hu
      split <;> simp [*]
    · simp [*]
  · simp [*]

@[simp] theorem State.sendGradient_mask (M : Mask) (h_regs : M.regs = true) (h_ext : M.ext = true)
    (h_tags : M.tags = true) (h_marks : M.marks = true) (h_hq : M.hq = true) (h_sv : M.sv = true)
    (h_rows : M.rows = true) (h_gathers : M.gathers = true) (h_fab : M.fab = true) (h_armed : M.armed = true) :
    ∀ s b i tid x mult grad rows, (State.sendGradient s b i tid x mult grad rows).mask M = s.mask M := by
  intro s b i tid x mult grad rows; unfold State.sendGradient; (repeat' split) <;> simp_all

@[simp] theorem State.overdueNow_mask (M : Mask) (h_regs : M.regs = true) (h_hq : M.hq = true) (h_sv : M.sv = true) :
    ∀ s id, (State.overdueNow s id).mask M = s.mask M := by
  intro s id; unfold State.overdueNow; simp [*]; (repeat' split) <;> simp_all

@[simp] theorem State.prefetchAgain_mask (M : Mask) (h_regs : M.regs = true) (h_ext : M.ext = true)
    (h_tags : M.tags = true) (h_hq : M.hq = true) (h_regions : M.regions = true) (h_sv : M.sv = true)
    (h_rows : M.rows = true) (h_fab : M.fab = true) (h_armed : M.armed = true) :
    ∀ s id i, (State.prefetchAgain s id i).mask M = s.mask M := by
  intro s id i; unfold State.prefetchAgain; (repeat' split) <;> simp_all

@[simp] theorem State.prefetchIn_mask (M : Mask) (h_regs : M.regs = true) (h_marks : M.marks = true)
    (h_hq : M.hq = true) (h_tileErrs : M.tileErrs = true) (h_rows : M.rows = true) (h_armed : M.armed = true) :
    ∀ s w r, (State.prefetchIn s w r).2.mask M = s.mask M := by
  intro s w r; unfold State.prefetchIn
  simp [*]

@[simp] theorem prefetchEffect_mask (M : Mask) (h_regs : M.regs = true) (h_ext : M.ext = true) (h_tags : M.tags = true)
    (h_marks : M.marks = true) (h_hq : M.hq = true) (h_regions : M.regions = true) (h_tileErrs : M.tileErrs = true)
    (h_sv : M.sv = true) (h_rows : M.rows = true) (h_fab : M.fab = true) (h_armed : M.armed = true) :
    ∀ i s b w, (prefetchEffect i s b w).mask M = s.mask M := by
  intro i s b w; unfold prefetchEffect
  simp [*]

@[simp] theorem State.noteHighest_mask (M : Mask) (h_regs : M.regs = true) (h_ext : M.ext = true)
    (h_tags : M.tags = true) (h_hq : M.hq = true) (h_rows : M.rows = true) (h_armed : M.armed = true) :
    ∀ s step, (State.noteHighest s step).mask M = s.mask M := by
  intro s step; unfold State.noteHighest
  split
  · split <;> simp [*]
  · simp [*]

@[simp] theorem State.autoPreempt_mask (M : Mask) (h_regs : M.regs = true) (h_regions : M.regions = true)
    (h_sv : M.sv = true) : ∀ s id, (State.autoPreempt s id).mask M = s.mask M := by
  intro s id; unfold State.autoPreempt; (repeat' split) <;> simp_all

@[simp] theorem State.noteParams_mask (M : Mask) (h_regs : M.regs = true) (h_hq : M.hq = true) :
    ∀ s ids, (State.noteParams s ids).mask M = s.mask M := by
  intro s ids
  unfold State.noteParams
  try simp only []
  refine (State.foldl_mask M _ ?_ _ _).trans ?_
  · intro s x
    (repeat' split) <;> simp_all
  · simp [*]

@[simp] theorem State.reseedUpd_mask (M : Mask) (h_rows : M.rows = true) :
    ∀ s, (State.reseedUpd s).mask M = s.mask M := by
  intro s; unfold State.reseedUpd; simp [*]

@[simp] theorem State.takeUpdDraws_mask (M : Mask) (h_rows : M.rows = true) :
    ∀ s n, (State.takeUpdDraws s n).mask M = s.mask M := by
  intro s n; unfold State.takeUpdDraws; simp [*]

@[simp] theorem State.storeOpt_mask (M : Mask) (h_regs : M.regs = true) (h_ext : M.ext = true) (h_tags : M.tags = true)
    (h_hq : M.hq = true) (h_armed : M.armed = true) : ∀ s t l o, (State.storeOpt s t l o).mask M = s.mask M := by
  intro s t l o; unfold State.storeOpt; simp [*]

@[simp] theorem State.writeBack_mask (M : Mask) (h_regs : M.regs = true) (h_ext : M.ext = true)
    (h_tags : M.tags = true) (h_hq : M.hq = true) (h_rows : M.rows = true) (h_armed : M.armed = true) :
    ∀ s t x step rnd sat l r, (State.writeBack s t x step rnd sat l r).mask M = s.mask M := by
  intro s t x step rnd sat l r; unfold State.writeBack
  simp [*]; (repeat' split) <;> simp_all

@[simp] theorem State.applyAt_mask (M : Mask) (h_regs : M.regs = true) (h_ext : M.ext = true) (h_tags : M.tags = true)
    (h_hq : M.hq = true) (h_rows : M.rows = true) (h_armed : M.armed = true) (h_picks : M.picks = true) :
    ∀ s t y p step rnd sat l, (State.applyAt s t y p step rnd sat l).mask M = s.mask M := by
  intro s t y p step rnd sat l; unfold State.applyAt; simp [*]

@[simp] theorem State.applyRow_mask (M : Mask) (h_regs : M.regs = true) (h_ext : M.ext = true) (h_tags : M.tags = true)
    (h_hq : M.hq = true) (h_rows : M.rows = true) (h_armed : M.armed = true) (h_picks : M.picks = true) :
    ∀ s step rnd sat y, (State.applyRow s step rnd sat y).mask M = s.mask M := by
  intro s step rnd sat y; unfold State.applyRow; (repeat' split) <;> simp_all

@[simp] theorem State.startMigration_mask (M : Mask) (h_regs : M.regs = true) (h_ext : M.ext = true)
    (h_tags : M.tags = true) (h_hq : M.hq = true) (h_rows : M.rows = true) (h_fab : M.fab = true)
    (h_armed : M.armed = true) : ∀ s, (State.startMigration s).mask M = s.mask M := by
  intro s; unfold State.startMigration; simp [*]

@[simp] theorem State.stepPoint_mask (M : Mask) (h_regs : M.regs = true) (h_ext : M.ext = true)
    (h_tags : M.tags = true) (h_hq : M.hq = true) (h_rows : M.rows = true) (h_fab : M.fab = true)
    (h_armed : M.armed = true) : ∀ s, (State.stepPoint s).mask M = s.mask M := by
  intro s; unfold State.stepPoint; simp [*]

@[simp] theorem State.closeApplied_mask (M : Mask) (h_regs : M.regs = true) (h_ext : M.ext = true)
    (h_tags : M.tags = true) (h_hq : M.hq = true) (h_rows : M.rows = true) (h_armed : M.armed = true) :
    ∀ s step, (State.closeApplied s step).mask M = s.mask M := by
  intro s step; unfold State.closeApplied; simp [*]

@[simp] theorem State.applyStep_mask (M : Mask) (h_regs : M.regs = true) (h_ext : M.ext = true)
    (h_tags : M.tags = true) (h_marks : M.marks = true) (h_hq : M.hq = true) (h_regions : M.regions = true)
    (h_tileErrs : M.tileErrs = true) (h_rows : M.rows = true) (h_fab : M.fab = true) (h_armed : M.armed = true)
    (h_picks : M.picks = true) : ∀ s step rnd sat, (State.applyStep s step rnd sat).mask M = s.mask M := by
  intro s step rnd sat; unfold State.applyStep; simp [*]

@[simp] theorem State.seeImg_mask (M : Mask) (h_regs : M.regs = true) (h_marks : M.marks = true) (h_hq : M.hq = true)
    (h_tileErrs : M.tileErrs = true) (h_armed : M.armed = true) :
    ∀ s r a, (State.seeImg s r a).mask M = s.mask M := by
  intro s r a; unfold State.seeImg; simp [*]

@[simp] theorem State.putPooled_mask (M : Mask) (h_regs : M.regs = true) (h_ext : M.ext = true)
    (h_tags : M.tags = true) (h_scratch : M.scratch = true) (h_pool : M.pool = true) (h_pound : M.pound = true)
    (h_marks : M.marks = true) (h_hq : M.hq = true) (h_tileErrs : M.tileErrs = true) (h_sv : M.sv = true)
    (h_armed : M.armed = true) :
    ∀ s b i w r k row xs t, (State.putPooled s b i w r k row xs t).mask M = s.mask M := by
  intro s b i w r k row xs t; unfold State.putPooled; simp [*]

@[simp] theorem State.poolIn_mask (M : Mask) (h_regs : M.regs = true) (h_ext : M.ext = true) (h_tags : M.tags = true)
    (h_scratch : M.scratch = true) (h_pool : M.pool = true) (h_pound : M.pound = true) (h_marks : M.marks = true)
    (h_hq : M.hq = true) (h_tileErrs : M.tileErrs = true) (h_sv : M.sv = true) (h_gathers : M.gathers = true)
    (h_armed : M.armed = true) (h_picks : M.picks = true) :
    ∀ i w s b r, (State.poolIn i w s b r).mask M = s.mask M := by
  intro i w s b r; unfold State.poolIn; simp [*]

@[simp] theorem State.useFailed_mask (M : Mask) (h_regs : M.regs = true) (h_ext : M.ext = true)
    (h_tags : M.tags = true) (h_scratch : M.scratch = true) (h_pool : M.pool = true) (h_pound : M.pound = true)
    (h_marks : M.marks = true) (h_hq : M.hq = true) (h_regions : M.regions = true) (h_tileErrs : M.tileErrs = true)
    (h_sv : M.sv = true) (h_rows : M.rows = true) (h_gathers : M.gathers = true) (h_fab : M.fab = true)
    (h_armed : M.armed = true) : ∀ s u fate, (State.useFailed s u fate).mask M = s.mask M := by
  intro s u fate; unfold State.useFailed; (repeat' split) <;> simp_all

@[simp] theorem State.makeSolo_mask (M : Mask) (h_sv : M.sv = true) :
    ∀ s it, (State.makeSolo s it).mask M = s.mask M := by
  intro s it; unfold State.makeSolo; simp [*]

@[simp] theorem State.soloReady_mask (M : Mask) (h_sv : M.sv = true)
    (s : State) (js : List Nat) : (s.soloReady js).mask M = s.mask M := by
  induction js generalizing s with
  | nil => rfl
  | cons j js ih => unfold State.soloReady; split <;> simp [*]

@[simp] theorem State.noteSoloHold_mask (M : Mask) (h_regs : M.regs = true) (h_sv : M.sv = true) :
    ∀ s it, (State.noteSoloHold s it).mask M = s.mask M := by
  intro s it; unfold State.noteSoloHold; simp [*]

@[simp] theorem State.fixSlots_mask (M : Mask) (h_regs : M.regs = true) (h_ext : M.ext = true) (h_tags : M.tags = true)
    (h_hq : M.hq = true) (h_sv : M.sv = true) (h_armed : M.armed = true) :
    ∀ s b, (State.fixSlots s b).mask M = s.mask M := by
  intro s b; unfold State.fixSlots
  (repeat' split) <;> simp_all

@[simp] theorem State.journalMask_mask (M : Mask) (h_regs : M.regs = true) (h_ext : M.ext = true)
    (h_tags : M.tags = true) (h_hq : M.hq = true) (h_armed : M.armed = true) :
    ∀ s b rs, (State.journalMask s b rs).mask M = s.mask M := by
  intro s b rs; unfold State.journalMask
  (repeat' split) <;> simp_all

@[simp] theorem State.startRegions_mask (M : Mask) (h_regs : M.regs = true) (h_ext : M.ext = true)
    (h_tags : M.tags = true) (h_scratch : M.scratch = true) (h_pool : M.pool = true) (h_pound : M.pound = true)
    (h_marks : M.marks = true) (h_hq : M.hq = true) (h_regions : M.regions = true) (h_tileErrs : M.tileErrs = true)
    (h_armed : M.armed = true) : ∀ s b, (State.startRegions s b).mask M = s.mask M := by
  intro s b; unfold State.startRegions; simp [*]

@[simp] theorem State.tryStart_mask (M : Mask) (h_regs : M.regs = true) (h_ext : M.ext = true) (h_tags : M.tags = true)
    (h_scratch : M.scratch = true) (h_pool : M.pool = true) (h_pound : M.pound = true) (h_marks : M.marks = true)
    (h_hq : M.hq = true) (h_regions : M.regions = true) (h_tileErrs : M.tileErrs = true) (h_sv : M.sv = true)
    (h_armed : M.armed = true) : ∀ s id, (State.tryStart s id).mask M = s.mask M := by
  intro s id; unfold State.tryStart; (repeat' split) <;> simp_all

@[simp] theorem State.place_mask (M : Mask) (h_regs : M.regs = true) (h_ext : M.ext = true) (h_tags : M.tags = true)
    (h_scratch : M.scratch = true) (h_pool : M.pool = true) (h_pound : M.pound = true) (h_marks : M.marks = true)
    (h_hq : M.hq = true) (h_regions : M.regions = true) (h_tileErrs : M.tileErrs = true) (h_sv : M.sv = true)
    (h_rows : M.rows = true) (h_fab : M.fab = true) (h_armed : M.armed = true) :
    ∀ s id rs, (State.place s id rs).mask M = s.mask M := by
  intro s id rs; unfold State.place; (repeat' split) <;> simp_all

@[simp] theorem State.placeBarge_mask (M : Mask) (h_regs : M.regs = true) (h_ext : M.ext = true)
    (h_tags : M.tags = true) (h_scratch : M.scratch = true) (h_pool : M.pool = true) (h_pound : M.pound = true)
    (h_marks : M.marks = true) (h_hq : M.hq = true) (h_regions : M.regions = true) (h_tileErrs : M.tileErrs = true)
    (h_sv : M.sv = true) (h_rows : M.rows = true) (h_gathers : M.gathers = true) (h_fab : M.fab = true)
    (h_armed : M.armed = true) : ∀ s id, (State.placeBarge s id).mask M = s.mask M := by
  intro s id; unfold State.placeBarge; simp [*]; (repeat' split) <;> simp_all

@[simp] theorem State.placeAll_mask (M : Mask) (h_regs : M.regs = true) (h_ext : M.ext = true) (h_tags : M.tags = true)
    (h_scratch : M.scratch = true) (h_pool : M.pool = true) (h_pound : M.pound = true) (h_marks : M.marks = true)
    (h_hq : M.hq = true) (h_regions : M.regions = true) (h_tileErrs : M.tileErrs = true) (h_sv : M.sv = true)
    (h_rows : M.rows = true) (h_gathers : M.gathers = true) (h_fab : M.fab = true) (h_armed : M.armed = true) :
    ∀ s, (State.placeAll s).mask M = s.mask M := by
  intro s; unfold State.placeAll; simp [*]

@[simp] theorem State.reseq_mask (M : Mask) (h_rows : M.rows = true) :
    ∀ s p owner, (State.reseq s p owner).2.mask M = s.mask M := by
  intro s p owner; unfold State.reseq; simp [*]; (repeat' split) <;> simp_all

@[simp] theorem State.takeRow_mask (M : Mask) (h_regs : M.regs = true) (h_ext : M.ext = true) (h_tags : M.tags = true)
    (h_hq : M.hq = true) (h_rows : M.rows = true) (h_armed : M.armed = true) :
    ∀ s i, (State.takeRow s i).2.mask M = s.mask M := by
  intro s i
  unfold State.takeRow
  split
  · simp only []
    split
    · rfl
    · split
      · simp [*]
      · split
        · simp [*]
        · rename_i u hu
          simp [*, State.excPut_mask M ‹_› ‹_› ‹_› ‹_› ‹_› _ _ _ _ _ hu]
  · rfl

@[simp] theorem State.lastPacket_mask (M : Mask) (h_regs : M.regs = true) (h_ext : M.ext = true)
    (h_tags : M.tags = true) (h_hq : M.hq = true) (h_rows : M.rows = true) (h_fab : M.fab = true)
    (h_armed : M.armed = true) : ∀ s p i, (State.lastPacket s p i).mask M = s.mask M := by
  intro s p i; unfold State.lastPacket; simp [*]

@[simp] theorem State.slotPositions_mask (M : Mask) (h_regs : M.regs = true) (h_hq : M.hq = true) (h_sv : M.sv = true) :
    ∀ s b i w g u ps, (State.slotPositions s b i w g u ps).2.mask M = s.mask M := by
  intro s b i w g u ps; unfold State.slotPositions
  simp [*]; (repeat' split) <;> simp_all

@[simp] theorem State.openGather_mask (M : Mask) (h_regs : M.regs = true) (h_ext : M.ext = true)
    (h_tags : M.tags = true) (h_marks : M.marks = true) (h_hq : M.hq = true) (h_sv : M.sv = true)
    (h_gathers : M.gathers = true) (h_armed : M.armed = true) :
    ∀ s g bad, (State.openGather s g bad).mask M = s.mask M := by
  intro s g bad; unfold State.openGather; simp [*]

@[simp] theorem State.gatherIn_mask (M : Mask) (h_regs : M.regs = true) (h_ext : M.ext = true) (h_tags : M.tags = true)
    (h_marks : M.marks = true) (h_hq : M.hq = true) (h_tileErrs : M.tileErrs = true) (h_sv : M.sv = true)
    (h_rows : M.rows = true) (h_gathers : M.gathers = true) (h_armed : M.armed = true) :
    ∀ i w s b r, (State.gatherIn i w s b r).mask M = s.mask M := by
  intro i w s b r; unfold State.gatherIn; simp [*]

@[simp] theorem gatherEffect_mask (M : Mask) (h_regs : M.regs = true) (h_ext : M.ext = true) (h_tags : M.tags = true)
    (h_scratch : M.scratch = true) (h_pool : M.pool = true) (h_pound : M.pound = true) (h_marks : M.marks = true)
    (h_hq : M.hq = true) (h_regions : M.regions = true) (h_tileErrs : M.tileErrs = true) (h_sv : M.sv = true)
    (h_rows : M.rows = true) (h_gathers : M.gathers = true) (h_fab : M.fab = true) (h_armed : M.armed = true) :
    ∀ i s b w, (gatherEffect i s b w).mask M = s.mask M := by
  intro i s b w
  unfold gatherEffect
  refine (State.foldl_mask M _ (fun s x => by simp [*]) _ _).trans ?_
  refine (State.foldl_mask M _ (fun s x => by simp [*]) _ _).trans ?_
  refine State.foldl_mask M _ (fun s x => ?_) _ _
  split
  · split <;> simp [*]
  · rfl

@[simp] theorem poolEffect_mask (M : Mask) (h_regs : M.regs = true) (h_ext : M.ext = true) (h_tags : M.tags = true)
    (h_scratch : M.scratch = true) (h_pool : M.pool = true) (h_pound : M.pound = true) (h_marks : M.marks = true)
    (h_hq : M.hq = true) (h_tileErrs : M.tileErrs = true) (h_sv : M.sv = true) (h_gathers : M.gathers = true)
    (h_armed : M.armed = true) (h_picks : M.picks = true) : ∀ i s b w, (poolEffect i s b w).mask M = s.mask M := by
  intro i s b w
  unfold poolEffect
  try simp only []
  refine (State.foldl_mask M _ ?_ _ _).trans ?_
  · intro s x
    (repeat' split) <;> simp_all
  · simp [*]

@[simp] theorem State.listIn_mask (M : Mask) (h_regs : M.regs = true) (h_ext : M.ext = true) (h_tags : M.tags = true)
    (h_marks : M.marks = true) (h_hq : M.hq = true) (h_tileErrs : M.tileErrs = true) (h_sv : M.sv = true)
    (h_gathers : M.gathers = true) (h_armed : M.armed = true) :
    ∀ i w s b r, (State.listIn i w s b r).mask M = s.mask M := by
  intro i w s b r; unfold State.listIn; simp [*]

@[simp] theorem State.readPositions_mask (M : Mask) (h_sv : M.sv = true) :
    ∀ s b i w g, (State.readPositions s b i w g).2.mask M = s.mask M := by
  intro s b i w g; unfold State.readPositions
  simp [*]

@[simp] theorem State.slotGradient_mask (M : Mask) (h_regs : M.regs = true) (h_hq : M.hq = true) (h_sv : M.sv = true)
    (h_picks : M.picks = true) : ∀ s b i w g u ps, (State.slotGradient s b i w g u ps).mask M = s.mask M := by
  intro s b i w g u ps
  unfold State.slotGradient
  simp [*]

@[simp] theorem State.sgradIn_mask (M : Mask) (h_regs : M.regs = true) (h_ext : M.ext = true) (h_tags : M.tags = true)
    (h_marks : M.marks = true) (h_hq : M.hq = true) (h_tileErrs : M.tileErrs = true) (h_sv : M.sv = true)
    (h_gathers : M.gathers = true) (h_armed : M.armed = true) (h_picks : M.picks = true) :
    ∀ i w s b r, (State.sgradIn i w s b r).mask M = s.mask M := by
  intro i w s b r; unfold State.sgradIn; simp [*]

@[simp] theorem sgradEffect_mask (M : Mask) (h_regs : M.regs = true) (h_ext : M.ext = true) (h_tags : M.tags = true)
    (h_marks : M.marks = true) (h_hq : M.hq = true) (h_tileErrs : M.tileErrs = true) (h_sv : M.sv = true)
    (h_gathers : M.gathers = true) (h_armed : M.armed = true) (h_picks : M.picks = true) :
    ∀ i s b w, (sgradEffect i s b w).mask M = s.mask M := by
  intro i s b w
  unfold sgradEffect
  split
  · simp [*]
  · refine State.foldl_mask M _ ?_ _ _
    intro s k
    split <;> simp [*]

@[simp] theorem updateEffect_mask (M : Mask) (h_regs : M.regs = true) (h_ext : M.ext = true) (h_tags : M.tags = true)
    (h_marks : M.marks = true) (h_hq : M.hq = true) (h_regions : M.regions = true) (h_sv : M.sv = true)
    (h_gathers : M.gathers = true) (h_armed : M.armed = true) :
    ∀ i s b w, (updateEffect i s b w).mask M = s.mask M := by
  intro i s b w; unfold updateEffect; simp [*]

@[simp] theorem State.loadDone_mask (M : Mask) (h_regs : M.regs = true) (h_ext : M.ext = true) (h_tags : M.tags = true)
    (h_scratch : M.scratch = true) (h_pool : M.pool = true) (h_pound : M.pound = true) (h_marks : M.marks = true)
    (h_hq : M.hq = true) (h_regions : M.regions = true) (h_tileErrs : M.tileErrs = true) (h_sv : M.sv = true)
    (h_rows : M.rows = true) (h_fab : M.fab = true) (h_armed : M.armed = true) :
    ∀ s id, (State.loadDone s id).mask M = s.mask M := by
  intro s id; unfold State.loadDone; (repeat' split) <;> simp_all

@[simp] theorem State.receiveReq_mask (M : Mask) (h_regs : M.regs = true) (h_ext : M.ext = true)
    (h_tags : M.tags = true) (h_hq : M.hq = true) (h_rows : M.rows = true) (h_fab : M.fab = true)
    (h_armed : M.armed = true) : ∀ s p kind, (State.receiveReq s p kind).mask M = s.mask M := by
  intro s p kind
  unfold State.receiveReq
  split
  · rfl
  · refine State.receive_mask M ‹_› ‹_› ‹_› _ _ _ _ ?_
    intro s
    split
    · simp [*]
    · simp [*]

@[simp] theorem State.forwardRetry_mask (M : Mask) (h_regs : M.regs = true) (h_hq : M.hq = true)
    (h_rows : M.rows = true) (h_fab : M.fab = true) : ∀ s p, (State.forwardRetry s p).mask M = s.mask M := by
  intro s p; unfold State.forwardRetry; simp [*]

@[simp] theorem State.forwarded_mask (M : Mask) (h_regs : M.regs = true) (h_ext : M.ext = true)
    (h_tags : M.tags = true) (h_scratch : M.scratch = true) (h_pool : M.pool = true) (h_pound : M.pound = true)
    (h_marks : M.marks = true) (h_hq : M.hq = true) (h_regions : M.regions = true) (h_tileErrs : M.tileErrs = true)
    (h_sv : M.sv = true) (h_rows : M.rows = true) (h_gathers : M.gathers = true) (h_fab : M.fab = true)
    (h_armed : M.armed = true) : ∀ s p, (State.forwarded s p).mask M = s.mask M := by
  intro s p
  unfold State.forwarded
  simp [*]

@[simp] theorem State.answerBad_mask (M : Mask) (h_regs : M.regs = true) (h_hq : M.hq = true) (h_fab : M.fab = true) :
    ∀ s p, (State.answerBad s p).mask M = s.mask M := by
  intro s p; unfold State.answerBad
  simp [*]

@[simp] theorem State.putEntry_mask (M : Mask) (h_regs : M.regs = true) (h_ext : M.ext = true) (h_tags : M.tags = true)
    (h_scratch : M.scratch = true) (h_pool : M.pool = true) (h_pound : M.pound = true) (h_marks : M.marks = true)
    (h_hq : M.hq = true) (h_tileErrs : M.tileErrs = true) (h_armed : M.armed = true) :
    ∀ s e new, (State.putEntry s e new).mask M = s.mask M := by
  intro s e new; unfold State.putEntry
  simp [*]

@[simp] theorem State.setMerge_mask (M : Mask) (h_regs : M.regs = true) (h_ext : M.ext = true) (h_tags : M.tags = true)
    (h_scratch : M.scratch = true) (h_pool : M.pool = true) (h_pound : M.pound = true) (h_marks : M.marks = true)
    (h_hq : M.hq = true) (h_tileErrs : M.tileErrs = true) (h_rows : M.rows = true) (h_armed : M.armed = true) :
    ∀ s es e new, (State.setMerge s es e new).mask M = s.mask M := by
  intro s es e new; unfold State.setMerge
  simp [*]

theorem State.mergeGrad_mask (M : Mask) (h_regs : M.regs = true) (h_ext : M.ext = true) (h_tags : M.tags = true)
    (h_scratch : M.scratch = true) (h_pool : M.pool = true) (h_pound : M.pound = true) (h_marks : M.marks = true)
    (h_hq : M.hq = true) (h_tileErrs : M.tileErrs = true) (h_rows : M.rows = true) (h_armed : M.armed = true)
    (s : State) (m : WeirMsg) (bytes : List Byte) (u : State)
    (h : s.mergeGrad m bytes = .held u) : u.mask M = s.mask M := by
  have hw : ∀ v, (s.noteHighest m.step).toWeir m bytes = some v → v.mask M = s.mask M :=
    fun v hv => (State.toWeir_mask M ‹_› ‹_› ‹_› ‹_› ‹_› ‹_› _ _ _ _ hv).trans
      (State.noteHighest_mask M ‹_› ‹_› ‹_› ‹_› ‹_› ‹_› _ _)
  unfold State.mergeGrad at h
  revert hw h
  generalize (s.noteHighest m.step).toWeir m bytes = o
  intro h hw
  cases o with
  | none =>
    simp only [Option.map_none, Option.getD_none] at h
    repeat' split at h
    all_goals first | (cases h; done) | (cases h; simp [*])
  | some v =>
    have hv := hw v rfl
    simp only [Option.map_some, Option.getD_some] at h
    repeat' split at h
    all_goals first | (cases h; done) | (cases h; simp [*])

@[simp] theorem State.mergeMsg_mask (M : Mask) (h_regs : M.regs = true) (h_ext : M.ext = true)
    (h_tags : M.tags = true) (h_scratch : M.scratch = true) (h_pool : M.pool = true) (h_pound : M.pound = true)
    (h_marks : M.marks = true) (h_hq : M.hq = true) (h_regions : M.regions = true) (h_tileErrs : M.tileErrs = true)
    (h_rows : M.rows = true) (h_fab : M.fab = true) (h_armed : M.armed = true) : ∀ s p since, (State.mergeMsg s p since).mask M = s.mask M := by
  intro s p since
  unfold State.mergeMsg
  split
  · simp [*]
  · split
    · simp [*]
    · split
      · simp [*]
      · exact State.afterMerge_mask M ‹_› ‹_› ‹_› ‹_› ‹_› _ _ _ _
          (fun u hu => State.mergeGrad_mask M ‹_› ‹_› ‹_› ‹_› ‹_› ‹_› ‹_› ‹_› ‹_› ‹_› ‹_› _ _ _ _ hu)

@[simp] theorem State.settleUpdate_mask (M : Mask) (h_regs : M.regs = true) (h_ext : M.ext = true)
    (h_tags : M.tags = true) (h_scratch : M.scratch = true) (h_pool : M.pool = true) (h_pound : M.pound = true)
    (h_marks : M.marks = true) (h_hq : M.hq = true) (h_regions : M.regions = true) (h_tileErrs : M.tileErrs = true)
    (h_rows : M.rows = true) (h_fab : M.fab = true) (h_armed : M.armed = true) :
    ∀ s p since, (State.settleUpdate s p since).mask M = s.mask M := by
  intro s p since; unfold State.settleUpdate; (repeat' split) <;> simp_all

@[simp] theorem State.recordRoute_mask (M : Mask) (h_regs : M.regs = true) (h_ext : M.ext = true)
    (h_tags : M.tags = true) (h_hq : M.hq = true) (h_armed : M.armed = true) :
    ∀ s tid x owner, (State.recordRoute s tid x owner).mask M = s.mask M := by
  intro s tid x owner
  unfold State.recordRoute
  split
  · rename_i u hu
    exact State.putRoute_mask M ‹_› ‹_› ‹_› ‹_› ‹_› _ _ _ _ _ _ _ hu
  · simp [*]

@[simp] theorem State.settleNotice_mask (M : Mask) (h_regs : M.regs = true) (h_ext : M.ext = true)
    (h_tags : M.tags = true) (h_hq : M.hq = true) (h_rows : M.rows = true) (h_fab : M.fab = true)
    (h_armed : M.armed = true) : ∀ s p since, (State.settleNotice s p since).mask M = s.mask M := by
  intro s p since; unfold State.settleNotice; (repeat' split) <;> simp_all

@[simp] theorem State.dropInbound_mask (M : Mask) (h_rows : M.rows = true) :
    ∀ s p, (State.dropInbound s p).mask M = s.mask M := by
  intro s p; unfold State.dropInbound; simp [*]

@[simp] theorem State.joinState_mask (M : Mask) (h_regs : M.regs = true) (h_ext : M.ext = true)
    (h_tags : M.tags = true) (h_hq : M.hq = true) (h_rows : M.rows = true) (h_fab : M.fab = true)
    (h_armed : M.armed = true) : ∀ s p, (State.joinState s p).mask M = s.mask M := by
  intro s p; unfold State.joinState; (repeat' split) <;> simp_all

@[simp] theorem State.settleRow_mask (M : Mask) (h_regs : M.regs = true) (h_ext : M.ext = true)
    (h_tags : M.tags = true) (h_hq : M.hq = true) (h_rows : M.rows = true) (h_armed : M.armed = true) :
    ∀ s tid x, (State.settleRow s tid x).mask M = s.mask M := by
  intro s tid x
  unfold State.settleRow
  split
  · split
    · rfl
    · simp only []
      split
      · simp [*]
      · cases h : State.excPut _ _ _ _ with
        | none => simp [*]
        | some u => simp only [Option.getD_some]; rw [State.excPut_mask M ‹_› ‹_› ‹_› ‹_› ‹_› _ _ _ _ _ h]; simp [*]
  · rfl

@[simp] theorem State.tagTimeout_mask (M : Mask) (h_regs : M.regs = true) (h_ext : M.ext = true)
    (h_tags : M.tags = true) (h_scratch : M.scratch = true) (h_pool : M.pool = true) (h_pound : M.pound = true)
    (h_marks : M.marks = true) (h_hq : M.hq = true) (h_regions : M.regions = true) (h_tileErrs : M.tileErrs = true)
    (h_sv : M.sv = true) (h_rows : M.rows = true) (h_gathers : M.gathers = true) (h_fab : M.fab = true)
    (h_armed : M.armed = true) : ∀ s k, (State.tagTimeout s k).mask M = s.mask M := by
  intro s k; unfold State.tagTimeout; simp [*]; (repeat' split) <;> simp_all

@[simp] theorem State.dropHeld_mask (M : Mask) (h_regs : M.regs = true) (h_regions : M.regions = true)
    (h_fab : M.fab = true) : ∀ s k, (State.dropHeld s k).mask M = s.mask M := by
  intro s k; unfold State.dropHeld; (repeat' split) <;> simp_all

end Sys2Proof.Machine
end

