-- ==== Sys2Proof/Laws/FrameOps.lean ====
section
/-! SUPPORT. What each operation of the op records' effects, the bell and the collectives leaves untouched: the lemma of an operation
holds under every mask that names the fields the operation may change. -/

namespace Sys2Proof.Machine

open Sys2Proof

@[simp] theorem State.seeStreams_mask (M : Mask) (h_regs : M.regs = true) (h_marks : M.marks = true)
    (h_hq : M.hq = true) (h_tileErrs : M.tileErrs = true) (h_armed : M.armed = true) :
    ∀ s w r j, (State.seeStreams s w r j).mask M = s.mask M := by
  intro s w r j; unfold State.seeStreams; simp [*]

@[simp] theorem State.putWords_mask (M : Mask) (h_regs : M.regs = true) (h_ext : M.ext = true) (h_tags : M.tags = true)
    (h_scratch : M.scratch = true) (h_pool : M.pool = true) (h_pound : M.pound = true) (h_marks : M.marks = true)
    (h_hq : M.hq = true) (h_tileErrs : M.tileErrs = true) (h_sv : M.sv = true) (h_armed : M.armed = true) :
    ∀ s b i inst o r j a bs pad mark, (State.putWords s b i inst o r j a bs pad mark).mask M = s.mask M := by
  intro s b i inst o r j a bs pad mark; unfold State.putWords; simp [*]

@[simp] theorem State.putList_mask (M : Mask) (h_regs : M.regs = true) (h_ext : M.ext = true) (h_tags : M.tags = true)
    (h_scratch : M.scratch = true) (h_pool : M.pool = true) (h_pound : M.pound = true) (h_marks : M.marks = true)
    (h_hq : M.hq = true) (h_tileErrs : M.tileErrs = true) (h_sv : M.sv = true) (h_armed : M.armed = true) :
    ∀ s s0 b i w r j inst a vals, (State.putList s s0 b i w r j inst a vals).mask M = s.mask M := by
  intro s s0 b i w r j inst a vals; unfold State.putList; simp [*]

@[simp] theorem State.vecMaxExp_mask (M : Mask) (h_regs : M.regs = true) (h_ext : M.ext = true)
    (h_tags : M.tags = true) (h_scratch : M.scratch = true) (h_pool : M.pool = true) (h_pound : M.pound = true)
    (h_marks : M.marks = true) (h_hq : M.hq = true) (h_regions : M.regions = true) (h_tileErrs : M.tileErrs = true)
    (h_sv : M.sv = true) (h_armed : M.armed = true) (h_picks : M.picks = true) :
    ∀ s b i w r j inst, (State.vecMaxExp s b i w r j inst).mask M = s.mask M := by
  intro s b i w r j inst; unfold State.vecMaxExp; simp [*]

@[simp] theorem State.vecReduction_mask (M : Mask) (h_regs : M.regs = true) (h_ext : M.ext = true)
    (h_tags : M.tags = true) (h_scratch : M.scratch = true) (h_pool : M.pool = true) (h_pound : M.pound = true)
    (h_marks : M.marks = true) (h_hq : M.hq = true) (h_regions : M.regions = true) (h_tileErrs : M.tileErrs = true)
    (h_sv : M.sv = true) (h_armed : M.armed = true) (h_picks : M.picks = true) :
    ∀ s b i w r j inst, (State.vecReduction s b i w r j inst).mask M = s.mask M := by
  intro s b i w r j inst; unfold State.vecReduction; simp [*]

@[simp] theorem State.putVecRow_mask (M : Mask) (h_regs : M.regs = true) (h_ext : M.ext = true)
    (h_tags : M.tags = true) (h_scratch : M.scratch = true) (h_pool : M.pool = true) (h_pound : M.pound = true)
    (h_marks : M.marks = true) (h_hq : M.hq = true) (h_tileErrs : M.tileErrs = true) (h_sv : M.sv = true)
    (h_armed : M.armed = true) :
    ∀ s s0 b i w r j inst m p, (State.putVecRow s s0 b i w r j inst m p).mask M = s.mask M := by
  intro s s0 b i w r j inst m p; unfold State.putVecRow; simp [*]; (repeat' split) <;> simp_all

@[simp] theorem State.putScales_mask (M : Mask) (h_regs : M.regs = true) (h_ext : M.ext = true)
    (h_tags : M.tags = true) (h_scratch : M.scratch = true) (h_pool : M.pool = true) (h_pound : M.pound = true)
    (h_marks : M.marks = true) (h_hq : M.hq = true) (h_tileErrs : M.tileErrs = true) (h_sv : M.sv = true)
    (h_armed : M.armed = true) :
    ∀ s s0 b i w r j inst scales, (State.putScales s s0 b i w r j inst scales).mask M = s.mask M := by
  intro s s0 b i w r j inst scales; unfold State.putScales; simp [*]

@[simp] theorem State.vecElems_mask (M : Mask) (h_regs : M.regs = true) (h_ext : M.ext = true) (h_tags : M.tags = true)
    (h_scratch : M.scratch = true) (h_pool : M.pool = true) (h_pound : M.pound = true) (h_marks : M.marks = true)
    (h_hq : M.hq = true) (h_regions : M.regions = true) (h_tileErrs : M.tileErrs = true) (h_sv : M.sv = true)
    (h_armed : M.armed = true) : ∀ s b i w r j inst, (State.vecElems s b i w r j inst).mask M = s.mask M := by
  intro s b i w r j inst
  unfold State.vecElems
  simp [*]

@[simp] theorem State.vecInst_mask (M : Mask) (h_regs : M.regs = true) (h_ext : M.ext = true) (h_tags : M.tags = true)
    (h_scratch : M.scratch = true) (h_pool : M.pool = true) (h_pound : M.pound = true) (h_marks : M.marks = true)
    (h_hq : M.hq = true) (h_regions : M.regions = true) (h_tileErrs : M.tileErrs = true) (h_sv : M.sv = true)
    (h_armed : M.armed = true) (h_picks : M.picks = true) :
    ∀ s b i w r j inst, (State.vecInst s b i w r j inst).mask M = s.mask M := by
  intro s b i w r j inst; unfold State.vecInst; simp [*]

@[simp] theorem vecEffect_mask (M : Mask) (h_regs : M.regs = true) (h_ext : M.ext = true) (h_tags : M.tags = true)
    (h_scratch : M.scratch = true) (h_pool : M.pool = true) (h_pound : M.pound = true) (h_marks : M.marks = true)
    (h_hq : M.hq = true) (h_regions : M.regions = true) (h_tileErrs : M.tileErrs = true) (h_sv : M.sv = true)
    (h_armed : M.armed = true) (h_picks : M.picks = true) : ∀ i s b w, (vecEffect i s b w).mask M = s.mask M := by
  intro i s b w; unfold vecEffect; simp [*]

@[simp] theorem State.mapCtx_mask (M : Mask) (h_col : M.col = true) :
    ∀ s p f, (State.mapCtx s p f).mask M = s.mask M := by
  intro s p f; unfold State.mapCtx; simp [*]

@[simp] theorem State.noteSent_mask (M : Mask) (h_col : M.col = true) :
    ∀ s dest m, (State.noteSent s dest m).mask M = s.mask M := by
  intro s dest m; unfold State.noteSent; simp [*]

@[simp] theorem State.sendBell_mask (M : Mask) (h_regs : M.regs = true) (h_hq : M.hq = true) (h_fab : M.fab = true)
    (h_col : M.col = true) : ∀ s dest m, (State.sendBell s dest m).mask M = s.mask M := by
  intro s dest m; unfold State.sendBell; simp [*]

@[simp] theorem State.spreadAt_mask (M : Mask) (h_regs : M.regs = true) (h_hq : M.hq = true) (h_fab : M.fab = true)
    (h_col : M.col = true) : ∀ s t m, (State.spreadAt s t m).mask M = s.mask M := by
  intro s t m; unfold State.spreadAt; simp [*]

@[simp] theorem State.bellSpread_mask (M : Mask) (h_regs : M.regs = true) (h_hq : M.hq = true) (h_fab : M.fab = true)
    (h_col : M.col = true)
    (t : Nat) (s : State) (m : BellMsg) :
    (State.bellSpread t s m).mask M = s.mask M := by
  induction t generalizing s with
  | zero => simp [State.bellSpread, *]
  | succ k ih => unfold State.bellSpread; simp [*]

@[simp] theorem State.keepResult_mask (M : Mask) (h_col : M.col = true) :
    ∀ s m, (State.keepResult s m).mask M = s.mask M := by
  intro s m; unfold State.keepResult; simp [*]

@[simp] theorem State.resultOut_mask (M : Mask) (h_regs : M.regs = true) (h_hq : M.hq = true) (h_fab : M.fab = true)
    (h_col : M.col = true) : ∀ s m, (State.resultOut s m).mask M = s.mask M := by
  intro s m; unfold State.resultOut; simp [*]

@[simp] theorem State.sendUp_mask (M : Mask) (h_regs : M.regs = true) (h_hq : M.hq = true) (h_fab : M.fab = true)
    (h_col : M.col = true) : ∀ s dest m, (State.sendUp s dest m).mask M = s.mask M := by
  intro s dest m; unfold State.sendUp; simp [*]

@[simp] theorem State.noteRecv_mask (M : Mask) (h_col : M.col = true) :
    ∀ s src m, (State.noteRecv s src m).mask M = s.mask M := by
  intro s src m; unfold State.noteRecv; simp [*]

@[simp] theorem State.putTier_mask (M : Mask) (h_col : M.col = true) :
    ∀ s t m e, (State.putTier s t m e).mask M = s.mask M := by
  intro s t m e; unfold State.putTier; simp [*]

@[simp] theorem State.keepArrived_mask (M : Mask) (h_col : M.col = true) :
    ∀ s e, (State.keepArrived s e).mask M = s.mask M := by
  intro s e; unfold State.keepArrived; simp [*]

@[simp] theorem State.takeLevelSeq_mask (M : Mask) (h_col : M.col = true) :
    ∀ s level, (State.takeLevelSeq s level).2.mask M = s.mask M := by
  intro s level; unfold State.takeLevelSeq; simp [*]

@[simp] theorem State.judge_mask (M : Mask) (h_col : M.col = true) :
    ∀ s m, (State.judge s m).2.mask M = s.mask M := by
  intro s m; unfold State.judge; simp [*]; (repeat' split) <;> simp_all

@[simp] theorem State.bellUp_mask (M : Mask) (h_regs : M.regs = true) (h_hq : M.hq = true) (h_fab : M.fab = true)
    (h_col : M.col = true) (h_picks : M.picks = true)
    (fuel : Nat) (s : State) (t src : Nat) (m : BellMsg) :
    (State.bellUp fuel s t src m).mask M = s.mask M := by
  induction fuel generalizing s t src m with
  | zero => rfl
  | succ n ih =>
    unfold State.bellUp
    simp only []
    split
    · simp [*]
    · simp [*]

@[simp] theorem State.contribute_mask (M : Mask) (h_regs : M.regs = true) (h_hq : M.hq = true) (h_fab : M.fab = true)
    (h_col : M.col = true) (h_picks : M.picks = true) : ∀ s m, (State.contribute s m).mask M = s.mask M := by
  intro s m; unfold State.contribute; simp [*]

@[simp] theorem State.abandon_mask (M : Mask) (h_regs : M.regs = true) (h_hq : M.hq = true) (h_fab : M.fab = true)
    (h_col : M.col = true) (h_picks : M.picks = true) :
    ∀ s k seq attempt, (State.abandon s k seq attempt).mask M = s.mask M := by
  intro s k seq attempt; unfold State.abandon; simp [*]

@[simp] theorem State.updCtx_mask (M : Mask) (h_col : M.col = true) :
    ∀ s slot f, (State.updCtx s slot f).mask M = s.mask M := by
  intro s slot f; unfold State.updCtx; simp [*]

@[simp] theorem State.collLimit_mask (M : Mask) (h_regs : M.regs = true) (h_ext : M.ext = true)
    (h_tags : M.tags = true) (h_marks : M.marks = true) (h_hq : M.hq = true) (h_sv : M.sv = true)
    (h_gathers : M.gathers = true) (h_fab : M.fab = true) (h_col : M.col = true) (h_armed : M.armed = true)
    (h_picks : M.picks = true) : ∀ s id i, (State.collLimit s id i).mask M = s.mask M := by
  intro s id i; unfold State.collLimit; (repeat' split) <;> simp_all

@[simp] theorem State.writeC_mask (M : Mask) (h_regs : M.regs = true) (h_ext : M.ext = true) (h_tags : M.tags = true)
    (h_scratch : M.scratch = true) (h_pool : M.pool = true) (h_pound : M.pound = true) (h_marks : M.marks = true)
    (h_hq : M.hq = true) (h_tileErrs : M.tileErrs = true) (h_armed : M.armed = true) :
    ∀ s c, (State.writeC s c).mask M = s.mask M := by
  intro s c; unfold State.writeC; (repeat' split) <;> simp_all

@[simp] theorem State.trySeal_mask (M : Mask) (h_regs : M.regs = true) (h_hq : M.hq = true) (h_fab : M.fab = true)
    (h_col : M.col = true) (h_picks : M.picks = true) : ∀ s slot, (State.trySeal s slot).mask M = s.mask M := by
  intro s slot; unfold State.trySeal; (repeat' split) <;> simp_all

@[simp] theorem State.completeColl_mask (M : Mask) (h_regs : M.regs = true) (h_ext : M.ext = true)
    (h_tags : M.tags = true) (h_scratch : M.scratch = true) (h_pool : M.pool = true) (h_pound : M.pound = true)
    (h_marks : M.marks = true) (h_hq : M.hq = true) (h_tileErrs : M.tileErrs = true) (h_sv : M.sv = true)
    (h_fab : M.fab = true) (h_col : M.col = true) (h_armed : M.armed = true) (h_picks : M.picks = true) :
    ∀ s slot, (State.completeColl s slot).mask M = s.mask M := by
  intro s slot; unfold State.completeColl; (repeat' split) <;> simp_all

@[simp] theorem State.emptyLists_mask (M : Mask) (h_regs : M.regs = true) (h_ext : M.ext = true)
    (h_tags : M.tags = true) (h_scratch : M.scratch = true) (h_pool : M.pool = true) (h_pound : M.pound = true)
    (h_marks : M.marks = true) (h_hq : M.hq = true) (h_regions : M.regions = true) (h_tileErrs : M.tileErrs = true)
    (h_armed : M.armed = true) : ∀ s b w, (State.emptyLists s b w).mask M = s.mask M := by
  intro s b w; unfold State.emptyLists; simp [*]

@[simp] theorem State.barrierDone_mask (M : Mask) (h_regs : M.regs = true) (h_sv : M.sv = true)
    (h_rows : M.rows = true) (h_col : M.col = true) : ∀ s x, (State.barrierDone s x).mask M = s.mask M := by
  intro s x; unfold State.barrierDone; simp [*]; (repeat' split) <;> simp_all

@[simp] theorem State.spoilPiece_mask (M : Mask) (h_regs : M.regs = true) (h_fab : M.fab = true) :
    ∀ s step data, (State.spoilPiece s step data).2.mask M = s.mask M := by
  intro s step data; unfold State.spoilPiece; (repeat' split) <;> simp_all

@[simp] theorem State.sendPiece_mask (M : Mask) (h_regs : M.regs = true) (h_hq : M.hq = true) (h_fab : M.fab = true)
    (h_col : M.col = true) :
    ∀ s slot stage step j lo hi, (State.sendPiece s slot stage step j lo hi).mask M = s.mask M := by
  intro s slot stage step j lo hi; unfold State.sendPiece; (repeat' split) <;> simp_all

@[simp] theorem State.goOn_mask (M : Mask) (h_regs : M.regs = true) (h_ext : M.ext = true) (h_tags : M.tags = true)
    (h_scratch : M.scratch = true) (h_pool : M.pool = true) (h_pound : M.pound = true) (h_marks : M.marks = true)
    (h_hq : M.hq = true) (h_tileErrs : M.tileErrs = true) (h_sv : M.sv = true) (h_fab : M.fab = true)
    (h_col : M.col = true) (h_armed : M.armed = true) (h_picks : M.picks = true)
    (fuel : Nat) (s : State) (slot : Nat) (gs : List Nat) (step : Nat) :
    (State.goOn fuel s slot gs step).mask M = s.mask M := by
  induction fuel generalizing s gs step with
  | zero => rfl
  | succ n ih =>
    cases gs with
    | nil => simp [State.goOn, *]
    | cons g rest =>
      unfold State.goOn
      simp only []
      split
      · exact ih _ _ _
      · split
        · rfl
        · simp [*]

@[simp] theorem State.startColl_mask (M : Mask) (h_regs : M.regs = true) (h_ext : M.ext = true)
    (h_tags : M.tags = true) (h_scratch : M.scratch = true) (h_pool : M.pool = true) (h_pound : M.pound = true)
    (h_marks : M.marks = true) (h_hq : M.hq = true) (h_tileErrs : M.tileErrs = true) (h_sv : M.sv = true)
    (h_fab : M.fab = true) (h_col : M.col = true) (h_armed : M.armed = true) (h_picks : M.picks = true) :
    ∀ s slot, (State.startColl s slot).mask M = s.mask M := by
  intro s slot; unfold State.startColl; (repeat' split) <;> simp_all

@[simp] theorem State.admitColl_mask (M : Mask) (h_regs : M.regs = true) (h_ext : M.ext = true)
    (h_tags : M.tags = true) (h_scratch : M.scratch = true) (h_pool : M.pool = true) (h_pound : M.pound = true)
    (h_marks : M.marks = true) (h_hq : M.hq = true) (h_tileErrs : M.tileErrs = true) (h_sv : M.sv = true)
    (h_fab : M.fab = true) (h_col : M.col = true) (h_armed : M.armed = true) (h_picks : M.picks = true) :
    ∀ s seq k, (State.admitColl s seq k).mask M = s.mask M := by
  intro s seq k; unfold State.admitColl; (repeat' split) <;> simp_all

@[simp] theorem State.admitLoop_mask (M : Mask) (h_regs : M.regs = true) (h_ext : M.ext = true)
    (h_tags : M.tags = true) (h_scratch : M.scratch = true) (h_pool : M.pool = true) (h_pound : M.pound = true)
    (h_marks : M.marks = true) (h_hq : M.hq = true) (h_tileErrs : M.tileErrs = true) (h_sv : M.sv = true)
    (h_fab : M.fab = true) (h_col : M.col = true) (h_armed : M.armed = true) (h_picks : M.picks = true)
    (fuel : Nat) (s : State) (level : Nat) :
    (State.admitLoop fuel s level).mask M = s.mask M := by
  induction fuel generalizing s with
  | zero => rfl
  | succ n ih => unfold State.admitLoop; simp only []; split <;> simp [*]

@[simp] theorem State.seqArrives_mask (M : Mask) (h_regs : M.regs = true) (h_ext : M.ext = true)
    (h_tags : M.tags = true) (h_scratch : M.scratch = true) (h_pool : M.pool = true) (h_pound : M.pound = true)
    (h_marks : M.marks = true) (h_hq : M.hq = true) (h_tileErrs : M.tileErrs = true) (h_sv : M.sv = true)
    (h_fab : M.fab = true) (h_col : M.col = true) (h_armed : M.armed = true) (h_picks : M.picks = true) :
    ∀ s k seq, (State.seqArrives s k seq).mask M = s.mask M := by
  intro s k seq; unfold State.seqArrives; simp [*]

@[simp] theorem State.enterBarriers_mask (M : Mask) (h_regs : M.regs = true) (h_ext : M.ext = true)
    (h_tags : M.tags = true) (h_scratch : M.scratch = true) (h_pool : M.pool = true) (h_pound : M.pound = true)
    (h_marks : M.marks = true) (h_hq : M.hq = true) (h_tileErrs : M.tileErrs = true) (h_sv : M.sv = true)
    (h_rows : M.rows = true) (h_fab : M.fab = true) (h_col : M.col = true) (h_armed : M.armed = true)
    (h_picks : M.picks = true) : ∀ s, (State.enterBarriers s).mask M = s.mask M := by
  intro s; unfold State.enterBarriers; simp [*]

@[simp] theorem State.countOp_mask (M : Mask) (h_regs : M.regs = true) :
    ∀ s b w, (State.countOp s b w).mask M = s.mask M := by
  intro s b w; unfold State.countOp; simp [*]

@[simp] theorem State.opComplete_mask (M : Mask) (h_regs : M.regs = true) (h_ext : M.ext = true)
    (h_tags : M.tags = true) (h_scratch : M.scratch = true) (h_pool : M.pool = true) (h_pound : M.pound = true)
    (h_marks : M.marks = true) (h_hq : M.hq = true) (h_regions : M.regions = true) (h_tileErrs : M.tileErrs = true)
    (h_sv : M.sv = true) (h_rows : M.rows = true) (h_fab : M.fab = true) (h_col : M.col = true)
    (h_armed : M.armed = true) (h_picks : M.picks = true) :
    ∀ s id i, (State.opComplete s id i).mask M = s.mask M := by
  intro s id i; unfold State.opComplete; (repeat' split) <;> simp_all

@[simp] theorem State.backTime_mask (M : Mask) (h_regs : M.regs = true) :
    ∀ s b w ws, (State.backTime s b w ws).mask M = s.mask M := by
  intro s b w ws; unfold State.backTime; simp [*]

@[simp] theorem State.putFactor_mask (M : Mask) (h_sv : M.sv = true) :
    ∀ s id f first, (State.putFactor s id f first).mask M = s.mask M := by
  intro s id f first; unfold State.putFactor
  simp [*]

@[simp] theorem State.fetchFactor_mask (M : Mask) (h_regs : M.regs = true) (h_ext : M.ext = true)
    (h_tags : M.tags = true) (h_hq : M.hq = true) (h_regions : M.regions = true) (h_sv : M.sv = true)
    (h_rows : M.rows = true) (h_fab : M.fab = true) (h_armed : M.armed = true) :
    ∀ s b i r x fwd, (State.fetchFactor s b i r x fwd).2.mask M = s.mask M := by
  intro s b i r x fwd; unfold State.fetchFactor; simp only []
  split
  · simp [*]
  · split <;> rename_i heq
    all_goals have hm := State.pair_mask (M := M) (t := s) heq (by clear heq; simp [*])
    all_goals simp [*]
  · rfl

@[simp] theorem State.seekFactor_mask (M : Mask) (h_regs : M.regs = true) (h_ext : M.ext = true)
    (h_tags : M.tags = true) (h_hq : M.hq = true) (h_regions : M.regions = true) (h_sv : M.sv = true)
    (h_rows : M.rows = true) (h_fab : M.fab = true) (h_armed : M.armed = true) :
    ∀ s id i r x g fwd, (State.seekFactor s id i r x g fwd).2.mask M = s.mask M := by
  intro s id i r x g fwd; unfold State.seekFactor
  (repeat' split) <;> simp_all

@[simp] theorem State.convInst_mask (M : Mask) (h_regs : M.regs = true) (h_ext : M.ext = true) (h_tags : M.tags = true)
    (h_scratch : M.scratch = true) (h_pool : M.pool = true) (h_pound : M.pound = true) (h_marks : M.marks = true)
    (h_hq : M.hq = true) (h_regions : M.regions = true) (h_tileErrs : M.tileErrs = true) (h_sv : M.sv = true)
    (h_armed : M.armed = true) : ∀ s b i w r j inst, (State.convInst s b i w r j inst).mask M = s.mask M := by
  intro s b i w r j inst; unfold State.convInst; simp [*]

@[simp] theorem State.dropFactors_mask (M : Mask) (h_sv : M.sv = true) :
    ∀ s id i, (State.dropFactors s id i).mask M = s.mask M := by
  intro s id i; unfold State.dropFactors; simp [*]

@[simp] theorem State.appendPart_mask (M : Mask) (h_regs : M.regs = true) (h_ext : M.ext = true)
    (h_tags : M.tags = true) (h_hq : M.hq = true) (h_armed : M.armed = true) :
    ∀ s w r j k t m q page, (State.appendPart s w r j k t m q page).mask M = s.mask M := by
  intro s w r j k t m q page; unfold State.appendPart; simp [*]

@[simp] theorem State.putSpec_mask (M : Mask) (h_sv : M.sv = true) :
    ∀ s id berth layer q at_ t, (State.putSpec s id berth layer q at_ t).mask M = s.mask M := by
  intro s id berth layer q at_ t; unfold State.putSpec
  simp [*]

@[simp] theorem State.appendPos_mask (M : Mask) (h_regs : M.regs = true) (h_ext : M.ext = true)
    (h_tags : M.tags = true) (h_hq : M.hq = true) (h_sv : M.sv = true) (h_armed : M.armed = true) :
    ∀ s b i w k m q page, (State.appendPos s b i w k m q page).mask M = s.mask M := by
  intro s b i w k m q page; unfold State.appendPos; simp [*]

@[simp] theorem convEffect_mask (M : Mask) (h_regs : M.regs = true) (h_ext : M.ext = true) (h_tags : M.tags = true)
    (h_scratch : M.scratch = true) (h_pool : M.pool = true) (h_pound : M.pound = true) (h_marks : M.marks = true)
    (h_hq : M.hq = true) (h_regions : M.regions = true) (h_tileErrs : M.tileErrs = true) (h_sv : M.sv = true)
    (h_armed : M.armed = true) : ∀ i s b w, (convEffect i s b w).mask M = s.mask M := by
  intro i s b w; unfold convEffect; simp [*]

@[simp] theorem State.bell_mask (M : Mask) (h_regs : M.regs = true) (h_hq : M.hq = true) (h_fab : M.fab = true)
    (s : State) (p : Packet) (kind : Nat) (up down : State → BellMsg → State)
    (hu : ∀ s m, (up s m).mask M = s.mask M) (hd : ∀ s m, (down s m).mask M = s.mask M) :
    (s.bell p kind up down).mask M = s.mask M := by
  unfold State.bell; simp [*]

@[simp] theorem State.bellFromBelow_mask (M : Mask) (h_regs : M.regs = true) (h_hq : M.hq = true)
    (h_fab : M.fab = true) (h_col : M.col = true) (h_picks : M.picks = true) :
    ∀ s p m, (State.bellFromBelow s p m).mask M = s.mask M := by
  intro s p m; unfold State.bellFromBelow; (repeat' split) <;> simp_all

@[simp] theorem State.answered_mask (M : Mask) (h_col : M.col = true) :
    ∀ s m, (State.answered s m).mask M = s.mask M := by
  intro s m; unfold State.answered; simp [*]

@[simp] theorem State.bellFromAbove_mask (M : Mask) (h_regs : M.regs = true) (h_hq : M.hq = true)
    (h_fab : M.fab = true) (h_col : M.col = true)
    (s : State) (p : Packet) (m : BellMsg) (act : State → State)
    (hf : ∀ s, (act s).mask M = s.mask M) : (s.bellFromAbove p m act).mask M = s.mask M := by
  unfold State.bellFromAbove; simp [*]

@[simp] theorem State.useColl_mask (M : Mask) (h_col : M.col = true) :
    ∀ s cls id, (State.useColl s cls id).2.mask M = s.mask M := by
  intro s cls id; unfold State.useColl; simp [*]

@[simp] theorem State.markRange_mask (M : Mask) (h_marks : M.marks = true) (h_sv : M.sv = true) :
    ∀ s b w c, (State.markRange s b w c).mask M = s.mask M := by
  intro s b w c; unfold State.markRange; simp [*]

@[simp] theorem State.openColl_mask (M : Mask) (h_regs : M.regs = true) (h_ext : M.ext = true) (h_tags : M.tags = true)
    (h_marks : M.marks = true) (h_hq : M.hq = true) (h_sv : M.sv = true) (h_gathers : M.gathers = true)
    (h_fab : M.fab = true) (h_col : M.col = true) (h_armed : M.armed = true) (h_picks : M.picks = true) :
    ∀ s b i w, (State.openColl s b i w).mask M = s.mask M := by
  intro s b i w; unfold State.openColl; simp [*]

@[simp] theorem State.strayPiece_mask (M : Mask) (h_regs : M.regs = true) (h_hq : M.hq = true) :
    ∀ s, (State.strayPiece s).mask M = s.mask M := by
  intro s; unfold State.strayPiece; simp [*]

@[simp] theorem State.copyDesc_mask (M : Mask) (h_regs : M.regs = true) (h_hq : M.hq = true) (h_sv : M.sv = true) :
    ∀ s id m a, (State.copyDesc s id m a).2.mask M = s.mask M := by
  intro s id m a; unfold State.copyDesc; (repeat' split) <;> simp_all

@[simp] theorem State.segRes_mask (M : Mask) (h_regs : M.regs = true) (h_hq : M.hq = true) (h_sv : M.sv = true) :
    ∀ s b w g, (State.segRes s b w g).2.mask M = s.mask M := by
  intro s b w g
  unfold State.segRes
  simp only []
  split
  · rfl
  · split
    · rfl
    · have hm := State.copyDesc_mask M ‹_› ‹_› ‹_› s b.id b.mooring g.adapter
      split <;> rename_i heq <;> rw [heq] at hm <;> simp_all

@[simp] theorem State.settleSegs_mask (M : Mask) (h_regs : M.regs = true) (h_hq : M.hq = true) (h_sv : M.sv = true)
    (s : State) (b : Barge) (w : Nat) (train : Bool) (row : Nat) (gs : List Seg) :
    (s.settleSegs b w train row gs).2.mask M = s.mask M := by
  induction gs generalizing s row with
  | nil => simp [State.settleSegs]
  | cons g gs ih =>
    unfold State.settleSegs; simp only []
    split <;> simp [*]

@[simp] theorem State.seeBack_mask (M : Mask) (h_regs : M.regs = true) (h_marks : M.marks = true) (h_hq : M.hq = true)
    (h_tileErrs : M.tileErrs = true) (h_armed : M.armed = true) :
    ∀ s b w ws, (State.seeBack s b w ws).mask M = s.mask M := by
  intro s b w ws; unfold State.seeBack
  simp [*]

@[simp] theorem State.resendBell_mask (M : Mask) (h_regs : M.regs = true) (h_hq : M.hq = true) (h_fab : M.fab = true)
    (h_col : M.col = true) : ∀ s k, (State.resendBell s k).mask M = s.mask M := by
  intro s k; unfold State.resendBell; (repeat' split) <;> simp_all

@[simp] theorem State.attnRow_mask (M : Mask) (h_regs : M.regs = true) (h_ext : M.ext = true) (h_tags : M.tags = true)
    (h_scratch : M.scratch = true) (h_pool : M.pool = true) (h_pound : M.pound = true) (h_marks : M.marks = true)
    (h_hq : M.hq = true) (h_tileErrs : M.tileErrs = true) (h_sv : M.sv = true) (h_gathers : M.gathers = true)
    (h_armed : M.armed = true) (h_picks : M.picks = true) :
    ∀ s b i w r j k m p, (State.attnRow s b i w r j k m p).mask M = s.mask M := by
  intro s b i w r j k m p; unfold State.attnRow; simp [*]; (repeat' split) <;> simp_all

@[simp] theorem State.mmTile_mask (M : Mask) (h_regs : M.regs = true) (h_ext : M.ext = true) (h_tags : M.tags = true)
    (h_scratch : M.scratch = true) (h_pool : M.pool = true) (h_pound : M.pound = true) (h_marks : M.marks = true)
    (h_hq : M.hq = true) (h_tileErrs : M.tileErrs = true) (h_sv : M.sv = true) (h_armed : M.armed = true)
    (h_picks : M.picks = true) : ∀ s b i w r j corr, (State.mmTile s b i w r j corr).mask M = s.mask M := by
  intro s b i w r j corr; unfold State.mmTile; simp [*]

@[simp] theorem State.gradAdd_mask (M : Mask) (h_regs : M.regs = true) (h_ext : M.ext = true) (h_tags : M.tags = true)
    (h_scratch : M.scratch = true) (h_pool : M.pool = true) (h_pound : M.pound = true) (h_marks : M.marks = true)
    (h_hq : M.hq = true) (h_tileErrs : M.tileErrs = true) (h_armed : M.armed = true) (h_picks : M.picks = true) :
    ∀ s r dF k c fresh tid, (State.gradAdd s r dF k c fresh tid).mask M = s.mask M := by
  intro s r dF k c fresh tid; unfold State.gradAdd; simp [*]

@[simp] theorem State.seekAll_mask (M : Mask) (h_regs : M.regs = true) (h_ext : M.ext = true)
    (h_tags : M.tags = true) (h_hq : M.hq = true) (h_regions : M.regions = true) (h_sv : M.sv = true)
    (h_rows : M.rows = true) (h_fab : M.fab = true) (h_armed : M.armed = true) :
    ∀ s b w i fwd ws, (State.seekAll s b w i fwd ws).2.mask M = s.mask M := by
  intro s b w i fwd ws
  unfold State.seekAll
  simp only []
  refine State.foldl_pair_mask M _ (fun p g => ?_) _ _
  split
  · refine State.foldl_pair_mask M _ (fun p g => ?_) _ _
    refine State.foldl_pair_mask M _ (fun p g => ?_) _ _
    simp [*]
  · rfl

@[simp] theorem State.seekSegs_mask (M : Mask) (h_regs : M.regs = true) (h_ext : M.ext = true)
    (h_tags : M.tags = true) (h_hq : M.hq = true) (h_regions : M.regions = true) (h_sv : M.sv = true)
    (h_rows : M.rows = true) (h_fab : M.fab = true) (h_armed : M.armed = true) :
    ∀ s b i train, (State.seekSegs s b i train).2.2.mask M = s.mask M := by
  intro s b i train; unfold State.seekSegs
  simp [*]

@[simp] theorem State.noteUnusable_mask (M : Mask) (h_regs : M.regs = true) (h_hq : M.hq = true) (h_sv : M.sv = true) :
    ∀ s id g, (State.noteUnusable s id g).mask M = s.mask M := by
  intro s id g; unfold State.noteUnusable
  (repeat' split) <;> simp_all

@[simp] theorem State.poisonRows_mask (M : Mask) (h_sv : M.sv = true) :
    ∀ s id rows, (State.poisonRows s id rows).mask M = s.mask M := by
  intro s id rows; unfold State.poisonRows
  simp [*]

@[simp] theorem State.noteSegs_mask (M : Mask) (h_regs : M.regs = true) (h_ext : M.ext = true) (h_tags : M.tags = true)
    (h_marks : M.marks = true) (h_hq : M.hq = true) (h_sv : M.sv = true) (h_gathers : M.gathers = true)
    (h_armed : M.armed = true) : ∀ s b train ws, (State.noteSegs s b train ws).mask M = s.mask M := by
  intro s b train ws
  unfold State.noteSegs
  try simp only []
  refine (State.foldl_mask M _ ?_ _ _).trans ?_
  · intro s x
    (repeat' split) <;> simp_all
  · simp [*]

@[simp] theorem State.setGradUses_mask (M : Mask) (h_regs : M.regs = true) (h_ext : M.ext = true)
    (h_tags : M.tags = true) (h_scratch : M.scratch = true) (h_pool : M.pool = true) (h_pound : M.pound = true)
    (h_marks : M.marks = true) (h_hq : M.hq = true) (h_regions : M.regions = true) (h_tileErrs : M.tileErrs = true)
    (h_armed : M.armed = true) : ∀ s r n, (State.setGradUses s r n).mask M = s.mask M := by
  intro s r n; unfold State.setGradUses; simp [*]

@[simp] theorem State.gradPut_mask (M : Mask) (h_regs : M.regs = true) (h_ext : M.ext = true) (h_tags : M.tags = true)
    (h_scratch : M.scratch = true) (h_pool : M.pool = true) (h_pound : M.pound = true) (h_marks : M.marks = true)
    (h_hq : M.hq = true) (h_regions : M.regions = true) (h_tileErrs : M.tileErrs = true) (h_armed : M.armed = true)
    (h_picks : M.picks = true) : ∀ s r dF tid c, (State.gradPut s r dF tid c).mask M = s.mask M := by
  intro s r dF tid c; unfold State.gradPut; (repeat' split) <;> simp_all

@[simp] theorem State.addDx_mask (M : Mask) (h_regs : M.regs = true) (h_ext : M.ext = true) (h_tags : M.tags = true)
    (h_scratch : M.scratch = true) (h_pool : M.pool = true) (h_pound : M.pound = true) (h_marks : M.marks = true)
    (h_hq : M.hq = true) (h_tileErrs : M.tileErrs = true) (h_sv : M.sv = true) (h_armed : M.armed = true)
    (h_picks : M.picks = true) :
    ∀ s b i w r j mrow kk dx t, (State.addDx s b i w r j mrow kk dx t).mask M = s.mask M := by
  intro s b i w r j mrow kk dx t; unfold State.addDx; simp [*]

@[simp] theorem State.backOne_mask (M : Mask) (h_regs : M.regs = true) (h_ext : M.ext = true) (h_tags : M.tags = true)
    (h_scratch : M.scratch = true) (h_pool : M.pool = true) (h_pound : M.pound = true) (h_marks : M.marks = true)
    (h_hq : M.hq = true) (h_regions : M.regions = true) (h_tileErrs : M.tileErrs = true) (h_sv : M.sv = true)
    (h_armed : M.armed = true) (h_picks : M.picks = true) :
    ∀ s b i w r j k mrow dF tid x, (State.backOne s b i w r j k mrow dF tid x).mask M = s.mask M := by
  intro s b i w r j k mrow dF tid x; unfold State.backOne; simp [*]

@[simp] theorem State.backSeg_mask (M : Mask) (h_regs : M.regs = true) (h_ext : M.ext = true) (h_tags : M.tags = true)
    (h_scratch : M.scratch = true) (h_pool : M.pool = true) (h_pound : M.pound = true) (h_marks : M.marks = true)
    (h_hq : M.hq = true) (h_regions : M.regions = true) (h_tileErrs : M.tileErrs = true) (h_sv : M.sv = true)
    (h_gathers : M.gathers = true) (h_armed : M.armed = true) (h_picks : M.picks = true) :
    ∀ s b i w dF tid g x, (State.backSeg s b i w dF tid g x).mask M = s.mask M := by
  intro s b i w dF tid g x
  unfold State.backSeg
  simp only []
  split
  · rfl
  · split
    · simp [*]
    · refine State.foldl_mask M _ ?_ _ _
      intro s x
      split
      · rfl
      · refine State.foldl_mask M _ ?_ _ _
        intro s x
        simp [*]

@[simp] theorem State.backPoison_mask (M : Mask) (h_regs : M.regs = true) (h_ext : M.ext = true)
    (h_tags : M.tags = true) (h_scratch : M.scratch = true) (h_pool : M.pool = true) (h_pound : M.pound = true)
    (h_marks : M.marks = true) (h_hq : M.hq = true) (h_tileErrs : M.tileErrs = true) (h_sv : M.sv = true)
    (h_armed : M.armed = true) (h_picks : M.picks = true) :
    ∀ s b i w g, (State.backPoison s b i w g).mask M = s.mask M := by
  intro s b i w g; unfold State.backPoison; simp only []
  refine State.foldl_mask M _ (fun s x => ?_) _ _
  split
  · rfl
  · simp [*]

@[simp] theorem State.backRun_mask (M : Mask) (h_regs : M.regs = true) (h_ext : M.ext = true) (h_tags : M.tags = true)
    (h_scratch : M.scratch = true) (h_pool : M.pool = true) (h_pound : M.pound = true) (h_marks : M.marks = true)
    (h_hq : M.hq = true) (h_regions : M.regions = true) (h_tileErrs : M.tileErrs = true) (h_sv : M.sv = true)
    (h_gathers : M.gathers = true) (h_armed : M.armed = true) (h_picks : M.picks = true) :
    ∀ s b i w ws, (State.backRun s b i w ws).mask M = s.mask M := by
  intro s b i w ws
  unfold State.backRun
  simp only [State.dropFactors_mask M ‹_›]
  refine (State.foldl_mask M _ ?_ _ _).trans ?_
  · intro s x
    split <;> simp [*]
  · simp [*]

@[simp] theorem State.tryBack_mask (M : Mask) (h_regs : M.regs = true) (h_ext : M.ext = true)
    (h_tags : M.tags = true) (h_scratch : M.scratch = true) (h_pool : M.pool = true) (h_pound : M.pound = true)
    (h_marks : M.marks = true) (h_hq : M.hq = true) (h_regions : M.regions = true) (h_tileErrs : M.tileErrs = true)
    (h_sv : M.sv = true) (h_rows : M.rows = true) (h_gathers : M.gathers = true) (h_fab : M.fab = true)
    (h_armed : M.armed = true) (h_picks : M.picks = true) : ∀ s b i, (State.tryBack s b i).mask M = s.mask M := by
  intro s b i; unfold State.tryBack; simp only []
  split
  · simp [*]
  · split
    · simp [*]
    · split
      · simp [*]
      · split <;> simp [*]

@[simp] theorem State.fetchAhead_mask (M : Mask) (h_regs : M.regs = true) (h_ext : M.ext = true)
    (h_tags : M.tags = true) (h_hq : M.hq = true) (h_regions : M.regions = true) (h_sv : M.sv = true)
    (h_rows : M.rows = true) (h_fab : M.fab = true) (h_armed : M.armed = true) :
    ∀ s b i train, (State.fetchAhead s b i train).mask M = s.mask M := by
  intro s b i train; unfold State.fetchAhead
  split <;> simp [*]

@[simp] theorem State.runBack_mask (M : Mask) (h_regs : M.regs = true) (h_ext : M.ext = true) (h_tags : M.tags = true)
    (h_scratch : M.scratch = true) (h_pool : M.pool = true) (h_pound : M.pound = true) (h_marks : M.marks = true)
    (h_hq : M.hq = true) (h_regions : M.regions = true) (h_tileErrs : M.tileErrs = true) (h_sv : M.sv = true)
    (h_rows : M.rows = true) (h_gathers : M.gathers = true) (h_fab : M.fab = true) (h_armed : M.armed = true)
    (h_picks : M.picks = true) : ∀ s id i, (State.runBack s id i).mask M = s.mask M := by
  intro s id i
  unfold State.runBack
  simp only []
  split <;> simp [*]

@[simp] theorem barrierEffect_mask (M : Mask) (h_regs : M.regs = true) (h_ext : M.ext = true) (h_tags : M.tags = true)
    (h_scratch : M.scratch = true) (h_pool : M.pool = true) (h_pound : M.pound = true) (h_marks : M.marks = true)
    (h_hq : M.hq = true) (h_tileErrs : M.tileErrs = true) (h_sv : M.sv = true) (h_rows : M.rows = true)
    (h_gathers : M.gathers = true) (h_fab : M.fab = true) (h_col : M.col = true) (h_armed : M.armed = true)
    (h_picks : M.picks = true) : ∀ i s b w, (barrierEffect i s b w).mask M = s.mask M := by
  intro i s b w; unfold barrierEffect; simp [*]

@[simp] theorem State.tokenRecord_mask (M : Mask) (h_hq : M.hq = true) :
    ∀ s n tokens, (State.tokenRecord s n tokens).mask M = s.mask M := by
  intro s n tokens; unfold State.tokenRecord
  simp [*]; (repeat' split) <;> simp_all

@[simp] theorem State.tokenDue_mask (M : Mask) (h_hq : M.hq = true) :
    ∀ s b i n, (State.tokenDue s b i n).mask M = s.mask M := by
  intro s b i n; unfold State.tokenDue
  (repeat' split) <;> simp_all

@[simp] theorem State.pairTile_mask (M : Mask) (h_regs : M.regs = true) (h_ext : M.ext = true) (h_tags : M.tags = true)
    (h_scratch : M.scratch = true) (h_pool : M.pool = true) (h_pound : M.pound = true) (h_marks : M.marks = true)
    (h_hq : M.hq = true) (h_tileErrs : M.tileErrs = true) (h_sv : M.sv = true) (h_armed : M.armed = true)
    (h_picks : M.picks = true) : ∀ s b i v w r j k ws, (State.pairTile s b i v w r j k ws).mask M = s.mask M := by
  intro s b i v w r j k ws; unfold State.pairTile; simp [*]

@[simp] theorem State.refundRows_mask (M : Mask) (h_regs : M.regs = true) (h_sv : M.sv = true) :
    ∀ s b, (State.refundRows s b).mask M = s.mask M := by
  intro s b; unfold State.refundRows; simp [*]

@[simp] theorem State.poisonRange_mask (M : Mask) (h_regs : M.regs = true) (h_ext : M.ext = true)
    (h_tags : M.tags = true) (h_marks : M.marks = true) (h_hq : M.hq = true) (h_armed : M.armed = true) :
    ∀ s c, (State.poisonRange s c).mask M = s.mask M := by
  intro s c; unfold State.poisonRange; (repeat' split) <;> simp_all

@[simp] theorem State.endColls_mask (M : Mask) (h_regs : M.regs = true) (h_ext : M.ext = true) (h_tags : M.tags = true)
    (h_marks : M.marks = true) (h_hq : M.hq = true) (h_fab : M.fab = true) (h_col : M.col = true)
    (h_armed : M.armed = true) (h_picks : M.picks = true) : ∀ s id, (State.endColls s id).mask M = s.mask M := by
  intro s id; unfold State.endColls; simp [*]

@[simp] theorem State.uncarry_mask (M : Mask) (h_sv : M.sv = true) :
    ∀ s id, (State.uncarry s id).mask M = s.mask M := by
  intro s id; unfold State.uncarry; simp [*]

@[simp] theorem State.noteTime_mask (M : Mask) (h_sv : M.sv = true) :
    ∀ s b, (State.noteTime s b).mask M = s.mask M := by
  intro s b; unfold State.noteTime; simp [*]

@[simp] theorem State.leaveRegions_mask (M : Mask) (h_regions : M.regions = true) :
    ∀ s b, (State.leaveRegions s b).mask M = s.mask M := by
  intro s b; unfold State.leaveRegions; simp [*]

@[simp] theorem State.removeBarge_mask (M : Mask) (h_sv : M.sv = true) (h_gathers : M.gathers = true) :
    ∀ s b, (State.removeBarge s b).mask M = s.mask M := by
  intro s b; unfold State.removeBarge; simp [*]

@[simp] theorem State.bargeRecord_mask (M : Mask) (h_regs : M.regs = true) (h_ext : M.ext = true)
    (h_tags : M.tags = true) (h_hq : M.hq = true) (h_armed : M.armed = true) :
    ∀ s b, (State.bargeRecord s b).mask M = s.mask M := by
  intro s b; unfold State.bargeRecord; (repeat' split) <;> simp_all

@[simp] theorem State.endBarge_mask (M : Mask) (h_regs : M.regs = true) (h_ext : M.ext = true) (h_tags : M.tags = true)
    (h_marks : M.marks = true) (h_hq : M.hq = true) (h_regions : M.regions = true) (h_sv : M.sv = true)
    (h_gathers : M.gathers = true) (h_fab : M.fab = true) (h_col : M.col = true) (h_armed : M.armed = true)
    (h_picks : M.picks = true) : ∀ s id, (State.endBarge s id).mask M = s.mask M := by
  intro s id; unfold State.endBarge; (repeat' split) <;> simp_all

@[simp] theorem State.appendRow_mask (M : Mask) (h_regs : M.regs = true) (h_ext : M.ext = true)
    (h_tags : M.tags = true) (h_marks : M.marks = true) (h_hq : M.hq = true) (h_sv : M.sv = true)
    (h_gathers : M.gathers = true) (h_armed : M.armed = true) :
    ∀ s i w b k, (State.appendRow s i w b k).mask M = s.mask M := by
  intro s i w b k; unfold State.appendRow; (repeat' split) <;> simp_all

@[simp] theorem mmEffect_mask (M : Mask) (h_regs : M.regs = true) (h_ext : M.ext = true) (h_tags : M.tags = true)
    (h_scratch : M.scratch = true) (h_pool : M.pool = true) (h_pound : M.pound = true) (h_marks : M.marks = true)
    (h_hq : M.hq = true) (h_tileErrs : M.tileErrs = true) (h_sv : M.sv = true) (h_armed : M.armed = true)
    (h_picks : M.picks = true) : ∀ i s b w, (mmEffect i s b w).mask M = s.mask M := by
  intro i s b w; unfold mmEffect; simp [*]

@[simp] theorem State.pairRun_mask (M : Mask) (h_regs : M.regs = true) (h_ext : M.ext = true) (h_tags : M.tags = true)
    (h_scratch : M.scratch = true) (h_pool : M.pool = true) (h_pound : M.pound = true) (h_marks : M.marks = true)
    (h_hq : M.hq = true) (h_tileErrs : M.tileErrs = true) (h_sv : M.sv = true) (h_gathers : M.gathers = true)
    (h_armed : M.armed = true) (h_picks : M.picks = true) :
    ∀ s b i v w ws, (State.pairRun s b i v w ws).mask M = s.mask M := by
  intro s b i v w ws; unfold State.pairRun; simp [*]; (repeat' split) <;> simp_all

@[simp] theorem State.tryPair_mask (M : Mask) (h_regs : M.regs = true) (h_ext : M.ext = true)
    (h_tags : M.tags = true) (h_scratch : M.scratch = true) (h_pool : M.pool = true) (h_pound : M.pound = true)
    (h_marks : M.marks = true) (h_hq : M.hq = true) (h_regions : M.regions = true) (h_tileErrs : M.tileErrs = true)
    (h_sv : M.sv = true) (h_rows : M.rows = true) (h_gathers : M.gathers = true) (h_fab : M.fab = true)
    (h_armed : M.armed = true) (h_picks : M.picks = true) : ∀ s b i, (State.tryPair s b i).mask M = s.mask M := by
  intro s b i; unfold State.tryPair; simp only []
  split
  · simp [*]
  · split
    · rfl
    · split
      · simp [*]
      · split
        · simp [*]
        · split
          · simp [*]
          · split <;> simp [*]

@[simp] theorem State.runPair_mask (M : Mask) (h_regs : M.regs = true) (h_ext : M.ext = true) (h_tags : M.tags = true)
    (h_scratch : M.scratch = true) (h_pool : M.pool = true) (h_pound : M.pound = true) (h_marks : M.marks = true)
    (h_hq : M.hq = true) (h_regions : M.regions = true) (h_tileErrs : M.tileErrs = true) (h_sv : M.sv = true)
    (h_rows : M.rows = true) (h_gathers : M.gathers = true) (h_fab : M.fab = true) (h_armed : M.armed = true)
    (h_picks : M.picks = true) : ∀ s id i, (State.runPair s id i).mask M = s.mask M := by
  intro s id i
  unfold State.runPair
  simp only []
  split <;> simp [*]

@[simp] theorem State.attnTile_mask (M : Mask) (h_regs : M.regs = true) (h_ext : M.ext = true) (h_tags : M.tags = true)
    (h_scratch : M.scratch = true) (h_pool : M.pool = true) (h_pound : M.pound = true) (h_marks : M.marks = true)
    (h_hq : M.hq = true) (h_tileErrs : M.tileErrs = true) (h_sv : M.sv = true) (h_gathers : M.gathers = true)
    (h_armed : M.armed = true) (h_picks : M.picks = true) :
    ∀ s b i w r j, (State.attnTile s b i w r j).mask M = s.mask M := by
  intro s b i w r j
  unfold State.attnTile
  simp only []
  refine (State.foldl_mask M _ ?_ _ _).trans (by simp [*])
  intro s k
  split
  · rfl
  · refine State.foldl_mask M _ ?_ _ _
    intro s x
    split
    · simp [*]
    · rfl

@[simp] theorem attnEffect_mask (M : Mask) (h_regs : M.regs = true) (h_ext : M.ext = true) (h_tags : M.tags = true)
    (h_scratch : M.scratch = true) (h_pool : M.pool = true) (h_pound : M.pound = true) (h_marks : M.marks = true)
    (h_hq : M.hq = true) (h_tileErrs : M.tileErrs = true) (h_sv : M.sv = true) (h_gathers : M.gathers = true)
    (h_armed : M.armed = true) (h_picks : M.picks = true) : ∀ i s b w, (attnEffect i s b w).mask M = s.mask M := by
  intro i s b w; unfold attnEffect; simp [*]

@[simp] theorem kvAppendEffect_mask (M : Mask) (h_regs : M.regs = true) (h_ext : M.ext = true) (h_tags : M.tags = true)
    (h_marks : M.marks = true) (h_hq : M.hq = true) (h_tileErrs : M.tileErrs = true) (h_sv : M.sv = true)
    (h_gathers : M.gathers = true) (h_armed : M.armed = true) :
    ∀ i s b w, (kvAppendEffect i s b w).mask M = s.mask M := by
  intro i s b w
  unfold kvAppendEffect
  simp only []
  refine (State.foldl_mask M _ ?_ _ _).trans (by simp [*])
  intro s k
  split <;> simp [*]

@[simp] theorem State.commitRow_mask (M : Mask) (h_sv : M.sv = true) :
    ∀ s i w r j b k, (State.commitRow s i w r j b k).mask M = s.mask M := by
  intro s i w r j b k; unfold State.commitRow; simp [*]; (repeat' split) <;> simp_all

@[simp] theorem kvCommitEffect_mask (M : Mask) (h_regs : M.regs = true) (h_marks : M.marks = true) (h_hq : M.hq = true)
    (h_tileErrs : M.tileErrs = true) (h_sv : M.sv = true) (h_armed : M.armed = true) :
    ∀ i s b w, (kvCommitEffect i s b w).mask M = s.mask M := by
  intro i s b w
  unfold kvCommitEffect
  split
  · simp only []
    refine (State.foldl_mask M _ ?_ _ _).trans (by simp [*])
    intro s k
    split <;> simp [*]
  · rfl

@[simp] theorem State.startColls_mask (M : Mask) (h_regs : M.regs = true) (h_ext : M.ext = true)
    (h_tags : M.tags = true) (h_scratch : M.scratch = true) (h_pool : M.pool = true) (h_pound : M.pound = true)
    (h_marks : M.marks = true) (h_hq : M.hq = true) (h_tileErrs : M.tileErrs = true) (h_sv : M.sv = true)
    (h_fab : M.fab = true) (h_col : M.col = true) (h_armed : M.armed = true) (h_picks : M.picks = true) :
    ∀ s id, (State.startColls s id).mask M = s.mask M := by
  intro s id; unfold State.startColls; simp [*]

@[simp] theorem collEffect_mask (M : Mask) (h_regs : M.regs = true) (h_ext : M.ext = true) (h_tags : M.tags = true)
    (h_scratch : M.scratch = true) (h_pool : M.pool = true) (h_pound : M.pound = true) (h_marks : M.marks = true)
    (h_hq : M.hq = true) (h_tileErrs : M.tileErrs = true) (h_sv : M.sv = true) (h_gathers : M.gathers = true)
    (h_fab : M.fab = true) (h_col : M.col = true) (h_armed : M.armed = true) (h_picks : M.picks = true) :
    ∀ i s b w, (collEffect i s b w).mask M = s.mask M := by
  intro i s b w; unfold collEffect; (repeat' split) <;> simp_all

@[simp] theorem sealEffect_mask (M : Mask) (h_regs : M.regs = true) (h_marks : M.marks = true) (h_hq : M.hq = true)
    (h_sv : M.sv = true) (h_gathers : M.gathers = true) (h_fab : M.fab = true) (h_col : M.col = true)
    (h_picks : M.picks = true) : ∀ i s b w, (sealEffect i s b w).mask M = s.mask M := by
  intro i s b w; unfold sealEffect; (repeat' split) <;> simp_all

@[simp] theorem State.dropUnit_mask (M : Mask) (h_sv : M.sv = true) :
    ∀ s u, (State.dropUnit s u).mask M = s.mask M := by
  intro s u; unfold State.dropUnit; simp [*]

@[simp] theorem State.refuseUnit_mask (M : Mask) (h_regs : M.regs = true) (h_ext : M.ext = true)
    (h_tags : M.tags = true) (h_marks : M.marks = true) (h_hq : M.hq = true) (h_sv : M.sv = true)
    (h_gathers : M.gathers = true) (h_armed : M.armed = true) :
    ∀ s b u, (State.refuseUnit s b u).mask M = s.mask M := by
  intro s b u; unfold State.refuseUnit; simp [*]

theorem State.commitKv_mask (M : Mask) (h_regs : M.regs = true) (h_ext : M.ext = true) (h_tags : M.tags = true)
    (h_hq : M.hq = true) (h_sv : M.sv = true) (h_armed : M.armed = true)
    (s : State) (b : Barge) (i row : Nat) (r : ManRow) (commit : Nat) (toks : List Nat)
    (u : State) (h : s.commitKv b i row r commit toks = some u) : u.mask M = s.mask M := by
  unfold State.commitKv at h
  extract_lets at h
  split at h
  · cases h
  · simp only [Option.some.injEq] at h
    subst h
    simp +zetaDelta [*]

theorem State.actUnit_mask (M : Mask) (h_regs : M.regs = true) (h_ext : M.ext = true) (h_tags : M.tags = true)
    (h_marks : M.marks = true) (h_hq : M.hq = true) (h_regions : M.regions = true) (h_tileErrs : M.tileErrs = true)
    (h_sv : M.sv = true) (h_rows : M.rows = true) (h_gathers : M.gathers = true) (h_fab : M.fab = true)
    (h_armed : M.armed = true) (h_picks : M.picks = true)
    (s : State) (b : Barge) (x : CUnit) (u : State) (h : s.actUnit b x = some u) : u.mask M = s.mask M := by
  unfold State.actUnit at h
  split at h
  · obtain rfl := Option.some.inj h; simp [*]
  · obtain rfl := Option.some.inj h; simp [*]
  · obtain rfl := Option.some.inj h; simp [*]
  · obtain rfl := Option.some.inj h; simp [*]
  · split at h
    · split at h
      · obtain rfl := Option.some.inj h; simp [*]
      · exact State.commitKv_mask M ‹_› ‹_› ‹_› ‹_› ‹_› ‹_› _ _ _ _ _ _ _ _ h
    · obtain rfl := Option.some.inj h; rfl
  · obtain rfl := Option.some.inj h; simp [*]
  · simp only [] at h
    split at h
    · cases h
    · obtain rfl := Option.some.inj h; simp [*]
  · split at h
    · obtain rfl := Option.some.inj h; simp [*]
    · obtain rfl := Option.some.inj h; simp [*]

theorem State.commitUnit_mask (M : Mask) (h_regs : M.regs = true) (h_ext : M.ext = true) (h_tags : M.tags = true)
    (h_marks : M.marks = true) (h_hq : M.hq = true) (h_regions : M.regions = true) (h_tileErrs : M.tileErrs = true)
    (h_sv : M.sv = true) (h_rows : M.rows = true) (h_gathers : M.gathers = true) (h_fab : M.fab = true)
    (h_armed : M.armed = true) (h_picks : M.picks = true)
    (s : State) (id i key : Nat) (u : State) (h : s.commitUnit id i key = some u) : u.mask M = s.mask M := by
  unfold State.commitUnit at h
  split at h
  · split at h
    · cases h; rfl
    · split at h
      · cases h; simp [*]
      · split at h
        · cases h; simp [*]
        · rw [State.actUnit_mask M ‹_› ‹_› ‹_› ‹_› ‹_› ‹_› ‹_› ‹_› ‹_› ‹_› ‹_› ‹_› ‹_› _ _ _ _ h]; simp [*]
  · cases h; rfl

@[simp] theorem State.segmentArrives_mask (M : Mask) (h_regs : M.regs = true) (h_ext : M.ext = true)
    (h_tags : M.tags = true) (h_scratch : M.scratch = true) (h_pool : M.pool = true) (h_pound : M.pound = true)
    (h_marks : M.marks = true) (h_hq : M.hq = true) (h_tileErrs : M.tileErrs = true) (h_sv : M.sv = true)
    (h_gathers : M.gathers = true) (h_fab : M.fab = true) (h_col : M.col = true) (h_armed : M.armed = true)
    (h_picks : M.picks = true) : ∀ s m, (State.segmentArrives s m).mask M = s.mask M := by
  intro s m; unfold State.segmentArrives; (repeat' split) <;> simp_all

@[simp] theorem State.scalarArrives_mask (M : Mask) (h_regs : M.regs = true) (h_ext : M.ext = true)
    (h_tags : M.tags = true) (h_scratch : M.scratch = true) (h_pool : M.pool = true) (h_pound : M.pound = true)
    (h_marks : M.marks = true) (h_hq : M.hq = true) (h_tileErrs : M.tileErrs = true) (h_sv : M.sv = true)
    (h_fab : M.fab = true) (h_col : M.col = true) (h_armed : M.armed = true) (h_picks : M.picks = true) :
    ∀ s m, (State.scalarArrives s m).mask M = s.mask M := by
  intro s m; unfold State.scalarArrives; (repeat' split) <;> simp_all

@[simp] theorem State.sealFailed_mask (M : Mask) (h_regs : M.regs = true) (h_ext : M.ext = true)
    (h_tags : M.tags = true) (h_marks : M.marks = true) (h_hq : M.hq = true) (h_sv : M.sv = true)
    (h_gathers : M.gathers = true) (h_col : M.col = true) (h_armed : M.armed = true) : ∀ s c, (State.sealFailed s c).mask M = s.mask M := by
  intro s c; unfold State.sealFailed; simp only []
  split
  · simp [*]
  · split <;> simp [*]

@[simp] theorem State.sealConfirmed_mask (M : Mask) (h_regs : M.regs = true) (h_ext : M.ext = true)
    (h_tags : M.tags = true) (h_scratch : M.scratch = true) (h_pool : M.pool = true) (h_pound : M.pound = true)
    (h_marks : M.marks = true) (h_hq : M.hq = true) (h_tileErrs : M.tileErrs = true) (h_sv : M.sv = true)
    (h_gathers : M.gathers = true) (h_fab : M.fab = true) (h_col : M.col = true) (h_armed : M.armed = true)
    (h_picks : M.picks = true) : ∀ s c, (State.sealConfirmed s c).mask M = s.mask M := by
  intro s c; unfold State.sealConfirmed; (repeat' split) <;> simp_all

@[simp] theorem State.verdict_mask (M : Mask) (h_regs : M.regs = true) (h_ext : M.ext = true) (h_tags : M.tags = true)
    (h_scratch : M.scratch = true) (h_pool : M.pool = true) (h_pound : M.pound = true) (h_marks : M.marks = true)
    (h_hq : M.hq = true) (h_tileErrs : M.tileErrs = true) (h_sv : M.sv = true) (h_gathers : M.gathers = true)
    (h_fab : M.fab = true) (h_col : M.col = true) (h_armed : M.armed = true) (h_picks : M.picks = true) :
    ∀ s m, (State.verdict s m).mask M = s.mask M := by
  intro s m; unfold State.verdict; (repeat' split) <;> simp_all

@[simp] theorem State.abortArrives_mask (M : Mask) (h_regs : M.regs = true) (h_ext : M.ext = true)
    (h_tags : M.tags = true) (h_marks : M.marks = true) (h_hq : M.hq = true) (h_sv : M.sv = true)
    (h_gathers : M.gathers = true) (h_col : M.col = true) (h_armed : M.armed = true) :
    ∀ s m, (State.abortArrives s m).mask M = s.mask M := by
  intro s m; unfold State.abortArrives; simp [*]; (repeat' split) <;> simp_all

@[simp] theorem State.takePiece_mask (M : Mask) (h_regs : M.regs = true) (h_ext : M.ext = true)
    (h_tags : M.tags = true) (h_scratch : M.scratch = true) (h_pool : M.pool = true) (h_pound : M.pound = true)
    (h_marks : M.marks = true) (h_hq : M.hq = true) (h_tileErrs : M.tileErrs = true) (h_sv : M.sv = true)
    (h_fab : M.fab = true) (h_col : M.col = true) (h_armed : M.armed = true) (h_picks : M.picks = true) :
    ∀ s c p h, (State.takePiece s c p h).mask M = s.mask M := by
  intro s c p h; unfold State.takePiece; simp [*]

@[simp] theorem State.pieceArrives_mask (M : Mask) (h_regs : M.regs = true) (h_ext : M.ext = true)
    (h_tags : M.tags = true) (h_scratch : M.scratch = true) (h_pool : M.pool = true) (h_pound : M.pound = true)
    (h_marks : M.marks = true) (h_hq : M.hq = true) (h_tileErrs : M.tileErrs = true) (h_sv : M.sv = true)
    (h_fab : M.fab = true) (h_col : M.col = true) (h_armed : M.armed = true) (h_picks : M.picks = true) :
    ∀ s p, (State.pieceArrives s p).mask M = s.mask M := by
  intro s p; unfold State.pieceArrives; simp [*]; (repeat' split) <;> simp_all

@[simp] theorem State.pieceExpired_mask (M : Mask) (h_regs : M.regs = true) (h_ext : M.ext = true)
    (h_tags : M.tags = true) (h_scratch : M.scratch = true) (h_pool : M.pool = true) (h_pound : M.pound = true)
    (h_marks : M.marks = true) (h_hq : M.hq = true) (h_tileErrs : M.tileErrs = true) (h_sv : M.sv = true)
    (h_fab : M.fab = true) (h_col : M.col = true) (h_armed : M.armed = true) (h_picks : M.picks = true) :
    ∀ s slot, (State.pieceExpired s slot).mask M = s.mask M := by
  intro s slot; unfold State.pieceExpired; (repeat' split) <;> simp_all

@[simp] theorem State.sealExpired_mask (M : Mask) (h_regs : M.regs = true) (h_hq : M.hq = true) (h_fab : M.fab = true)
    (h_col : M.col = true) : ∀ s level seq, (State.sealExpired s level seq).mask M = s.mask M := by
  intro s level seq; unfold State.sealExpired; (repeat' split) <;> simp_all

end Sys2Proof.Machine
end

