-- ==== Sys2Proof/Laws/FramePages.lean ====
section
/-! SUPPORT. What each operation of resets, faults, ports, commits and register pages leaves untouched: the lemma of an operation
holds under every mask that names the fields the operation may change. -/

namespace Sys2Proof.Machine

open Sys2Proof

@[simp] theorem State.runImageCheck_mask (M : Mask) (h_regs : M.regs = true) (h_hq : M.hq = true) :
    ∀ s, (State.runImageCheck s).mask M = s.mask M := by
  intro s; unfold State.runImageCheck; simp [*]

@[simp] theorem State.recordEvent_mask (M : Mask) (h_regs : M.regs = true) :
    ∀ s, (State.recordEvent s).mask M = s.mask M := by
  intro s; unfold State.recordEvent; simp [*]

@[simp] theorem State.convertStrap_mask (M : Mask) (h_regs : M.regs = true) (h_hq : M.hq = true) :
    ∀ s mv, (State.convertStrap s mv).mask M = s.mask M := by
  intro s mv; unfold State.convertStrap; simp [*]

@[simp] theorem State.releaseReset_mask (M : Mask) (h_rst : M.rst = true) (h_regs : M.regs = true) (h_hq : M.hq = true) :
    ∀ s mv, (State.releaseReset s mv).mask M = s.mask M := by
  intro s mv; unfold State.releaseReset; simp [*]

@[simp] theorem State.lockPll_mask (M : Mask) (h_rst : M.rst = true) :
    ∀ s c, (State.lockPll s c).mask M = s.mask M := by
  intro s c; unfold State.lockPll; simp [*]

@[simp] theorem State.cutFlips_mask (M : Mask) (h_regs : M.regs = true) (h_ext : M.ext = true)
    (h_tags : M.tags = true) (h_hq : M.hq = true) (h_armed : M.armed = true) : ∀ s, (State.cutFlips s).mask M = s.mask M := by
  intro s; unfold State.cutFlips
  refine State.foldl_mask M _ (fun s m => ?_) _ _
  split
  · refine State.foldl_mask M _ (fun s a => by simp [*]) _ _
  · rfl

@[simp] theorem State.takeHold_mask (M : Mask) (h_rst : M.rst = true) (h_regs : M.regs = true) (h_ext : M.ext = true)
    (h_tags : M.tags = true) (h_hostMem : M.hostMem = true) (h_scratch : M.scratch = true) (h_pool : M.pool = true)
    (h_pound : M.pound = true) (h_marks : M.marks = true) (h_imem : M.imem = true) (h_hq : M.hq = true)
    (h_regions : M.regions = true) (h_tileErrs : M.tileErrs = true) (h_errWindowFrom : M.errWindowFrom = true)
    (h_sv : M.sv = true) (h_rows : M.rows = true) (h_gathers : M.gathers = true) (h_fab : M.fab = true)
    (h_col : M.col = true) (h_tap : M.tap = true) (h_port : M.port = true) (h_armed : M.armed = true)
    (h_memCounts : M.memCounts = true) : ∀ s, (State.takeHold s).mask M = s.mask M := by
  intro s; unfold State.takeHold; simp [*]

@[simp] theorem State.freeEntry_mask (M : Mask) (h_regs : M.regs = true) (h_ext : M.ext = true)
    (h_tags : M.tags = true) (h_hq : M.hq = true) (h_armed : M.armed = true) : ∀ s j, (State.freeEntry s j).mask M = s.mask M := by
  intro s j; unfold State.freeEntry; simp only []; split <;> simp [*]

@[simp] theorem State.recoverBad_mask (M : Mask) (h_regs : M.regs = true) (h_ext : M.ext = true)
    (h_tags : M.tags = true) (h_hq : M.hq = true) (h_armed : M.armed = true) :
    ∀ s j, (State.recoverBad s j).mask M = s.mask M := by
  intro s j; unfold State.recoverBad; simp [*]

@[simp] theorem State.maskWrite_mask (M : Mask) (h_regs : M.regs = true) :
    ∀ s a mask w, (State.maskWrite s a mask w).mask M = s.mask M := by
  intro s a mask w; unfold State.maskWrite; simp [*]

@[simp] theorem State.tileCtrlFault_mask (M : Mask) (h_regs : M.regs = true) (h_ext : M.ext = true)
    (h_tags : M.tags = true) (h_marks : M.marks = true) (h_hq : M.hq = true) (h_sv : M.sv = true)
    (h_gathers : M.gathers = true) (h_armed : M.armed = true) :
    ∀ s t, (State.tileCtrlFault s t).mask M = s.mask M := by
  intro s t; unfold State.tileCtrlFault; simp [*]

@[simp] theorem State.failRegion_mask (M : Mask) (h_regs : M.regs = true) (h_ext : M.ext = true)
    (h_tags : M.tags = true) (h_marks : M.marks = true) (h_hq : M.hq = true) (h_sv : M.sv = true)
    (h_gathers : M.gathers = true) (h_armed : M.armed = true) :
    ∀ s r fate, (State.failRegion s r fate).mask M = s.mask M := by
  intro s r fate; unfold State.failRegion; simp [*]

@[simp] theorem State.quarantine_mask (M : Mask) (h_regs : M.regs = true) (h_ext : M.ext = true)
    (h_tags : M.tags = true) (h_marks : M.marks = true) (h_hq : M.hq = true) (h_regions : M.regions = true)
    (h_tileErrs : M.tileErrs = true) (h_sv : M.sv = true) (h_rows : M.rows = true) (h_gathers : M.gathers = true)
    (h_armed : M.armed = true) (h_picks : M.picks = true) : ∀ s r b, (State.quarantine s r b).mask M = s.mask M := by
  intro s r b; unfold State.quarantine; simp [*]

@[simp] theorem State.fatalRecord_mask (M : Mask) (h_regs : M.regs = true) (h_ext : M.ext = true)
    (h_tags : M.tags = true) (h_hq : M.hq = true) (h_armed : M.armed = true) :
    ∀ s page, (State.fatalRecord s page).mask M = s.mask M := by
  intro s page; unfold State.fatalRecord; simp [*]

@[simp] theorem State.flagFatal_mask (M : Mask) (h_regs : M.regs = true) (h_hq : M.hq = true) :
    ∀ s, (State.flagFatal s).mask M = s.mask M := by
  intro s; unfold State.flagFatal; simp [*]

@[simp] theorem State.resetBy_mask (M : Mask) (h_rst : M.rst = true) (h_regs : M.regs = true) (h_ext : M.ext = true)
    (h_tags : M.tags = true) (h_hostMem : M.hostMem = true) (h_scratch : M.scratch = true) (h_pool : M.pool = true)
    (h_pound : M.pound = true) (h_marks : M.marks = true) (h_imem : M.imem = true) (h_hq : M.hq = true)
    (h_regions : M.regions = true) (h_tileErrs : M.tileErrs = true) (h_errWindowFrom : M.errWindowFrom = true)
    (h_sv : M.sv = true) (h_rows : M.rows = true) (h_gathers : M.gathers = true) (h_fab : M.fab = true)
    (h_col : M.col = true) (h_tap : M.tap = true) (h_port : M.port = true) (h_armed : M.armed = true)
    (h_memCounts : M.memCounts = true) : ∀ s src, (State.resetBy s src).mask M = s.mask M := by
  intro s src; unfold State.resetBy; simp [*]

@[simp] theorem State.fatal_mask (M : Mask) (h_rst : M.rst = true) (h_regs : M.regs = true) (h_ext : M.ext = true)
    (h_tags : M.tags = true) (h_hostMem : M.hostMem = true) (h_scratch : M.scratch = true) (h_pool : M.pool = true)
    (h_pound : M.pound = true) (h_marks : M.marks = true) (h_imem : M.imem = true) (h_hq : M.hq = true)
    (h_regions : M.regions = true) (h_tileErrs : M.tileErrs = true) (h_errWindowFrom : M.errWindowFrom = true)
    (h_sv : M.sv = true) (h_rows : M.rows = true) (h_gathers : M.gathers = true) (h_fab : M.fab = true)
    (h_col : M.col = true) (h_tap : M.tap = true) (h_port : M.port = true) (h_armed : M.armed = true)
    (h_memCounts : M.memCounts = true) : ∀ s page, (State.fatal s page).mask M = s.mask M := by
  intro s page; unfold State.fatal; simp [*]

@[simp] theorem State.ctrlFault_mask (M : Mask) (h_rst : M.rst = true) (h_regs : M.regs = true) (h_ext : M.ext = true)
    (h_tags : M.tags = true) (h_hostMem : M.hostMem = true) (h_scratch : M.scratch = true) (h_pool : M.pool = true)
    (h_pound : M.pound = true) (h_marks : M.marks = true) (h_imem : M.imem = true) (h_hq : M.hq = true)
    (h_regions : M.regions = true) (h_tileErrs : M.tileErrs = true) (h_errWindowFrom : M.errWindowFrom = true)
    (h_sv : M.sv = true) (h_rows : M.rows = true) (h_gathers : M.gathers = true) (h_fab : M.fab = true)
    (h_col : M.col = true) (h_tap : M.tap = true) (h_port : M.port = true) (h_armed : M.armed = true)
    (h_memCounts : M.memCounts = true) (h_picks : M.picks = true) :
    ∀ s a, (State.ctrlFault s a).mask M = s.mask M := by
  intro s a; unfold State.ctrlFault; (repeat' split) <;> simp_all

@[simp] theorem State.arm_mask (M : Mask) (h_rst : M.rst = true) (h_regs : M.regs = true) (h_ext : M.ext = true)
    (h_tags : M.tags = true) (h_hostMem : M.hostMem = true) (h_scratch : M.scratch = true) (h_pool : M.pool = true)
    (h_pound : M.pound = true) (h_marks : M.marks = true) (h_imem : M.imem = true) (h_hq : M.hq = true)
    (h_regions : M.regions = true) (h_tileErrs : M.tileErrs = true) (h_errWindowFrom : M.errWindowFrom = true)
    (h_sv : M.sv = true) (h_rows : M.rows = true) (h_gathers : M.gathers = true) (h_fab : M.fab = true)
    (h_col : M.col = true) (h_tap : M.tap = true) (h_port : M.port = true) (h_armed : M.armed = true)
    (h_memCounts : M.memCounts = true) (h_picks : M.picks = true) :
    ∀ s page w, (State.arm s page w).mask M = s.mask M := by
  intro s page w; unfold State.arm; (repeat' split) <;> simp_all

@[simp] theorem State.errInject_mask (M : Mask) (h_rst : M.rst = true) (h_regs : M.regs = true) (h_ext : M.ext = true)
    (h_tags : M.tags = true) (h_hostMem : M.hostMem = true) (h_scratch : M.scratch = true) (h_pool : M.pool = true)
    (h_pound : M.pound = true) (h_marks : M.marks = true) (h_imem : M.imem = true) (h_hq : M.hq = true)
    (h_regions : M.regions = true) (h_tileErrs : M.tileErrs = true) (h_errWindowFrom : M.errWindowFrom = true)
    (h_sv : M.sv = true) (h_rows : M.rows = true) (h_gathers : M.gathers = true) (h_fab : M.fab = true)
    (h_col : M.col = true) (h_tap : M.tap = true) (h_port : M.port = true) (h_armed : M.armed = true)
    (h_memCounts : M.memCounts = true) (h_picks : M.picks = true) :
    ∀ s page w, (State.errInject s page w).mask M = s.mask M := by
  intro s page w; unfold State.errInject; simp [*]

@[simp] theorem State.injectAs_mask (M : Mask) (h_rst : M.rst = true) (h_regs : M.regs = true) (h_ext : M.ext = true)
    (h_tags : M.tags = true) (h_hostMem : M.hostMem = true) (h_scratch : M.scratch = true) (h_pool : M.pool = true)
    (h_pound : M.pound = true) (h_marks : M.marks = true) (h_imem : M.imem = true) (h_hq : M.hq = true)
    (h_regions : M.regions = true) (h_tileErrs : M.tileErrs = true) (h_errWindowFrom : M.errWindowFrom = true)
    (h_sv : M.sv = true) (h_rows : M.rows = true) (h_gathers : M.gathers = true) (h_fab : M.fab = true)
    (h_col : M.col = true) (h_tap : M.tap = true) (h_port : M.port = true) (h_armed : M.armed = true)
    (h_memCounts : M.memCounts = true) (h_picks : M.picks = true) :
    ∀ s ty page w, (State.injectAs s ty page w).mask M = s.mask M := by
  intro s ty page w; unfold State.injectAs; simp [*]

@[simp] theorem State.updStart_mask (M : Mask) (h_regs : M.regs = true) (h_ext : M.ext = true) (h_tags : M.tags = true)
    (h_hq : M.hq = true) (h_rows : M.rows = true) (h_armed : M.armed = true) :
    ∀ s step, (State.updStart s step).mask M = s.mask M := by
  intro s step; unfold State.updStart; simp [*]

@[simp] theorem State.endPending_mask (M : Mask) (h_regs : M.regs = true) (h_sv : M.sv = true) :
    ∀ s page, (State.endPending s page).mask M = s.mask M := by
  intro s page; unfold State.endPending; simp [*]

@[simp] theorem State.journalInit_mask (M : Mask) (h_regs : M.regs = true) (h_ext : M.ext = true)
    (h_tags : M.tags = true) (h_hq : M.hq = true) (h_armed : M.armed = true) :
    ∀ s, (State.journalInit s).mask M = s.mask M := by
  intro s; unfold State.journalInit; simp [*]

@[simp] theorem State.resumeHeads_mask (M : Mask) (h_hq : M.hq = true) :
    ∀ s, (State.resumeHeads s).mask M = s.mask M := by
  intro s; unfold State.resumeHeads; simp [*]

@[simp] theorem State.recoverEntry_mask (M : Mask) (h_regs : M.regs = true) (h_ext : M.ext = true)
    (h_tags : M.tags = true) (h_hq : M.hq = true) (h_armed : M.armed = true) :
    ∀ s j, (State.recoverEntry s j).mask M = s.mask M := by
  intro s j; unfold State.recoverEntry; simp [*]

@[simp] theorem State.reloadFatal_mask (M : Mask) (h_regs : M.regs = true) :
    ∀ s, (State.reloadFatal s).mask M = s.mask M := by
  intro s; unfold State.reloadFatal; simp [*]

@[simp] theorem State.journalRecover_mask (M : Mask) (h_regs : M.regs = true) (h_ext : M.ext = true)
    (h_tags : M.tags = true) (h_hq : M.hq = true) (h_armed : M.armed = true) :
    ∀ s, (State.journalRecover s).mask M = s.mask M := by
  intro s; unfold State.journalRecover; simp [*]

@[simp] theorem State.setMaint_mask (M : Mask) (h_hq : M.hq = true) (h_regions : M.regions = true) :
    ∀ s, (State.setMaint s).mask M = s.mask M := by
  intro s; unfold State.setMaint; simp [*]

@[simp] theorem State.startQueues_mask (M : Mask) (h_hq : M.hq = true) :
    ∀ s old, (State.startQueues s old).mask M = s.mask M := by
  intro s old; unfold State.startQueues; simp [*]

@[simp] theorem State.hqEffect_mask (M : Mask) (h_regs : M.regs = true) (h_ext : M.ext = true) (h_tags : M.tags = true)
    (h_hq : M.hq = true) (h_regions : M.regions = true) (h_armed : M.armed = true) :
    ∀ s old, (State.hqEffect s old).mask M = s.mask M := by
  intro s old; unfold State.hqEffect; simp [*]

@[simp] theorem State.dropMooring_mask (M : Mask) (h_regions : M.regions = true) :
    ∀ s m, (State.dropMooring s m).mask M = s.mask M := by
  intro s m; unfold State.dropMooring; simp [*]

@[simp] theorem State.moorEffect_mask (M : Mask) (h_regions : M.regions = true) (h_sv : M.sv = true) :
    ∀ s old m, (State.moorEffect s old m).mask M = s.mask M := by
  intro s old m; unfold State.moorEffect; simp [*]

@[simp] theorem State.lkpEffect_mask (M : Mask) (h_regions : M.regions = true) (h_sv : M.sv = true) :
    ∀ s old, (State.lkpEffect s old).mask M = s.mask M := by
  intro s old; unfold State.lkpEffect; simp [*]

@[simp] theorem State.loadAccounts_mask (M : Mask) (h_sv : M.sv = true) :
    ∀ s, (State.loadAccounts s).mask M = s.mask M := by
  intro s; unfold State.loadAccounts; simp [*]

@[simp] theorem State.tollEffect_mask (M : Mask) (h_sv : M.sv = true) :
    ∀ s old, (State.tollEffect s old).mask M = s.mask M := by
  intro s old; unfold State.tollEffect; simp [*]

@[simp] theorem State.readHeader_mask (M : Mask) (h_regs : M.regs = true) (h_hq : M.hq = true) (h_sv : M.sv = true) :
    ∀ s m, (State.readHeader s m).mask M = s.mask M := by
  intro s m; unfold State.readHeader; simp [*]

@[simp] theorem State.spdEffect_mask (M : Mask) (h_regs : M.regs = true) (h_hq : M.hq = true) (h_sv : M.sv = true) :
    ∀ s old, (State.spdEffect s old).mask M = s.mask M := by
  intro s old; unfold State.spdEffect; simp [*]

@[simp] theorem State.rowClear_mask (M : Mask) (h_ext : M.ext = true) (h_tags : M.tags = true) (h_rows : M.rows = true) :
    ∀ s, (State.rowClear s).mask M = s.mask M := by
  intro s; unfold State.rowClear; simp [*]

@[simp] theorem State.adoptEntry_mask (M : Mask) (h_regs : M.regs = true) (h_ext : M.ext = true)
    (h_tags : M.tags = true) (h_hq : M.hq = true) (h_rows : M.rows = true) (h_fab : M.fab = true)
    (h_armed : M.armed = true) : ∀ s e, (State.adoptEntry s e).mask M = s.mask M := by
  intro s e; unfold State.adoptEntry; simp [*]; (repeat' split) <;> simp_all

@[simp] theorem State.rowAdopt_mask (M : Mask) (h_regs : M.regs = true) (h_ext : M.ext = true) (h_tags : M.tags = true)
    (h_hq : M.hq = true) (h_rows : M.rows = true) (h_fab : M.fab = true) (h_armed : M.armed = true) :
    ∀ s, (State.rowAdopt s).mask M = s.mask M := by
  intro s; unfold State.rowAdopt; simp [*]

@[simp] theorem State.rowEffect_mask (M : Mask) (h_regs : M.regs = true) (h_ext : M.ext = true)
    (h_tags : M.tags = true) (h_hq : M.hq = true) (h_rows : M.rows = true) (h_fab : M.fab = true)
    (h_armed : M.armed = true) : ∀ s old, (State.rowEffect s old).mask M = s.mask M := by
  intro s old; unfold State.rowEffect; simp [*]

@[simp] theorem State.gsuEffect_mask (M : Mask) (h_regions : M.regions = true) :
    ∀ s old, (State.gsuEffect s old).mask M = s.mask M := by
  intro s old; unfold State.gsuEffect; simp [*]

@[simp] theorem State.updReset_mask (M : Mask) (h_regs : M.regs = true) (h_ext : M.ext = true) (h_tags : M.tags = true)
    (h_hq : M.hq = true) (h_rows : M.rows = true) (h_armed : M.armed = true) :
    ∀ s, (State.updReset s).mask M = s.mask M := by
  intro s; unfold State.updReset; simp [*]

@[simp] theorem State.updRecover_mask (M : Mask) (h_regs : M.regs = true) (h_ext : M.ext = true)
    (h_tags : M.tags = true) (h_hq : M.hq = true) (h_rows : M.rows = true) (h_armed : M.armed = true) :
    ∀ s, (State.updRecover s).mask M = s.mask M := by
  intro s; unfold State.updRecover; simp [*]; (repeat' split) <;> simp_all

@[simp] theorem State.updEffect_mask (M : Mask) (h_regs : M.regs = true) (h_ext : M.ext = true)
    (h_tags : M.tags = true) (h_hq : M.hq = true) (h_rows : M.rows = true) (h_armed : M.armed = true) :
    ∀ s old, (State.updEffect s old).mask M = s.mask M := by
  intro s old; unfold State.updEffect; simp [*]

@[simp] theorem State.portEffect_mask (M : Mask) (h_fab : M.fab = true) :
    ∀ s n, (State.portEffect s n).mask M = s.mask M := by
  intro s n; unfold State.portEffect; simp [*]

@[simp] theorem State.fabEffect_mask (M : Mask) (h_regs : M.regs = true) (h_fab : M.fab = true) :
    ∀ s, (State.fabEffect s).mask M = s.mask M := by
  intro s; unfold State.fabEffect; simp [*]

@[simp] theorem State.colEffect_mask (M : Mask) (h_col : M.col = true) :
    ∀ s, (State.colEffect s).mask M = s.mask M := by
  intro s; unfold State.colEffect; simp [*]

@[simp] theorem State.pwrEffect_mask (M : Mask) (h_regions : M.regions = true) :
    ∀ s, (State.pwrEffect s).mask M = s.mask M := by
  intro s; unfold State.pwrEffect; simp [*]

@[simp] theorem State.regionEffect_mask (M : Mask) (h_regions : M.regions = true) :
    ∀ s old r, (State.regionEffect s old r).mask M = s.mask M := by
  intro s old r; unfold State.regionEffect; simp [*]

@[simp] theorem State.pageEffect_mask (M : Mask) (h_regs : M.regs = true) (h_ext : M.ext = true)
    (h_tags : M.tags = true) (h_hq : M.hq = true) (h_regions : M.regions = true) (h_sv : M.sv = true)
    (h_rows : M.rows = true) (h_fab : M.fab = true) (h_col : M.col = true) (h_armed : M.armed = true) :
    ∀ s old page, (State.pageEffect s old page).mask M = s.mask M := by
  intro s old page; unfold State.pageEffect; simp [*]

@[simp] theorem State.activate_mask (M : Mask) (h_regs : M.regs = true) (h_ext : M.ext = true) (h_tags : M.tags = true)
    (h_hq : M.hq = true) (h_regions : M.regions = true) (h_sv : M.sv = true) (h_rows : M.rows = true)
    (h_fab : M.fab = true) (h_col : M.col = true) (h_armed : M.armed = true) :
    ∀ s page, (State.activate s page).mask M = s.mask M := by
  intro s page; unfold State.activate; simp [*]

@[simp] theorem State.failBerthRow_mask (M : Mask) (h_regs : M.regs = true) (h_ext : M.ext = true)
    (h_tags : M.tags = true) (h_hq : M.hq = true) (h_sv : M.sv = true) (h_armed : M.armed = true) :
    ∀ s n fate, (State.failBerthRow s n fate).mask M = s.mask M := by
  intro s n fate; unfold State.failBerthRow; (repeat' split) <;> simp_all

@[simp] theorem State.imemNext_mask (M : Mask) (h_regs : M.regs = true) :
    ∀ s, (State.imemNext s).mask M = s.mask M := by
  intro s; unfold State.imemNext; simp [*]

@[simp] theorem State.imemWrite_mask (M : Mask) (h_regs : M.regs = true) (h_imem : M.imem = true) :
    ∀ s w, (State.imemWrite s w).mask M = s.mask M := by
  intro s w; unfold State.imemWrite; simp [*]

@[simp] theorem State.peekWrite_mask (M : Mask) (h_regs : M.regs = true) (h_regions : M.regions = true) :
    ∀ s w, (State.peekWrite s w).mask M = s.mask M := by
  intro s w; unfold State.peekWrite; simp only []
  split
  · rfl
  · split
    · simp [*]
    · cases State.peekRegion _ <;> simp [*]

@[simp] theorem State.tryPlank_mask (M : Mask) (h_regs : M.regs = true) :
    ∀ s page, (State.tryPlank s page).mask M = s.mask M := by
  intro s page; unfold State.tryPlank; simp [*]

@[simp] theorem tick_mask (M : Mask) (h_aoUs : M.aoUs = true) : ∀ s, (tick s).mask M = s.mask M := by
  intro s; unfold tick; simp [*]

@[simp] theorem State.rejectBank_mask (M : Mask) (h_regs : M.regs = true) (h_hq : M.hq = true) (h_sv : M.sv = true) :
    ∀ s page reason ofs, (State.rejectBank s page reason ofs).mask M = s.mask M := by
  intro s page reason ofs; unfold State.rejectBank; simp [*]

@[simp] theorem State.noteChecks_mask (M : Mask) (h_regs : M.regs = true) (h_hq : M.hq = true) :
    ∀ s page, (State.noteChecks s page).mask M = s.mask M := by
  intro s page; unfold State.noteChecks; simp [*]

@[simp] theorem State.atBank_mask (M : Mask) (h_regs : M.regs = true) (h_ext : M.ext = true) (h_tags : M.tags = true)
    (h_hq : M.hq = true) (h_regions : M.regions = true) (h_sv : M.sv = true) (h_rows : M.rows = true)
    (h_fab : M.fab = true) (h_col : M.col = true) (h_armed : M.armed = true) :
    ∀ s page, (State.atBank s page).mask M = s.mask M := by
  intro s page; unfold State.atBank; (repeat' split) <;> simp_all

@[simp] theorem State.tryEffect_mask (M : Mask) (h_regs : M.regs = true) (h_ext : M.ext = true)
    (h_tags : M.tags = true) (h_hq : M.hq = true) (h_regions : M.regions = true) (h_sv : M.sv = true)
    (h_rows : M.rows = true) (h_fab : M.fab = true) (h_col : M.col = true) (h_armed : M.armed = true) :
    ∀ s page, (State.tryEffect s page).mask M = s.mask M := by
  intro s page; unfold State.tryEffect; simp [*]

@[simp] theorem State.pendBank_mask (M : Mask) (h_regs : M.regs = true) (h_ext : M.ext = true) (h_tags : M.tags = true)
    (h_hq : M.hq = true) (h_regions : M.regions = true) (h_sv : M.sv = true) (h_rows : M.rows = true)
    (h_fab : M.fab = true) (h_col : M.col = true) (h_armed : M.armed = true) :
    ∀ s page, (State.pendBank s page).mask M = s.mask M := by
  intro s page; unfold State.pendBank; simp [*]

@[simp] theorem State.commit_mask (M : Mask) (h_regs : M.regs = true) (h_ext : M.ext = true) (h_tags : M.tags = true)
    (h_hq : M.hq = true) (h_regions : M.regions = true) (h_sv : M.sv = true) (h_rows : M.rows = true)
    (h_fab : M.fab = true) (h_col : M.col = true) (h_armed : M.armed = true) :
    ∀ s page seq, (State.commit s page seq).mask M = s.mask M := by
  intro s page seq; unfold State.commit; simp [*]; (repeat' split) <;> simp_all

@[simp] theorem State.peekResult_mask (M : Mask) (h_regs : M.regs = true) :
    ∀ s status bs, (State.peekResult s status bs).mask M = s.mask M := by
  intro s status bs; unfold State.peekResult; simp [*]

@[simp] theorem State.peekWord_mask (M : Mask) (h_regs : M.regs = true) (h_ext : M.ext = true) (h_tags : M.tags = true)
    (h_marks : M.marks = true) (h_hq : M.hq = true) (h_regions : M.regions = true) (h_tileErrs : M.tileErrs = true)
    (h_sv : M.sv = true) (h_gathers : M.gathers = true) (h_armed : M.armed = true) :
    ∀ s st, (State.peekWord s st).mask M = s.mask M := by
  intro s st; unfold State.peekWord; (repeat' split) <;> simp_all

@[simp] theorem State.regErr_mask (M : Mask) (h_regs : M.regs = true) : ∀ s, (State.regErr s).mask M = s.mask M := by
  intro s; unfold State.regErr; simp [*]

@[simp] theorem State.clearRead_mask (M : Mask) (h_regs : M.regs = true) (h_sv : M.sv = true) (h_fab : M.fab = true)
    (h_memCounts : M.memCounts = true) : ∀ s a, (State.clearRead s a).mask M = s.mask M := by
  intro s a; unfold State.clearRead; simp [*]

@[simp] theorem State.afterRead_mask (M : Mask) (h_regs : M.regs = true) (h_sv : M.sv = true) (h_fab : M.fab = true)
    (h_memCounts : M.memCounts = true) : ∀ s a, (State.afterRead s a).mask M = s.mask M := by
  intro s a; unfold State.afterRead; simp [*]

@[simp] theorem State.towRead_mask (M : Mask) (h_regs : M.regs = true) (h_sv : M.sv = true) (h_fab : M.fab = true)
    (h_memCounts : M.memCounts = true) : ∀ s a, (State.towRead s a).2.2.mask M = s.mask M := by
  intro s a; unfold State.towRead; (repeat' split) <;> simp_all

@[simp] theorem State.zeroCounters_mask (M : Mask) (h_regs : M.regs = true) :
    ∀ s page os, (State.zeroCounters s page os).mask M = s.mask M := by
  intro s page os; unfold State.zeroCounters; simp [*]

@[simp] theorem State.kick_mask (M : Mask) (h_rst : M.rst = true) : ∀ s w, (State.kick s w).mask M = s.mask M := by
  intro s w; unfold State.kick; simp [*]

@[simp] theorem State.bankWrite_mask (M : Mask) (h_regs : M.regs = true) :
    ∀ s page o bank mask w, (State.bankWrite s page o bank mask w).mask M = s.mask M := by
  intro s page o bank mask w; unfold State.bankWrite; simp [*]

@[simp] theorem State.keeperStart_mask (M : Mask) (h_regs : M.regs = true) (h_hq : M.hq = true) :
    ∀ s, (State.keeperStart s).mask M = s.mask M := by
  intro s; unfold State.keeperStart; simp [*]

@[simp] theorem State.setIsolate_mask (M : Mask) (h_regs : M.regs = true) (h_ext : M.ext = true)
    (h_tags : M.tags = true) (h_marks : M.marks = true) (h_hq : M.hq = true) (h_tileErrs : M.tileErrs = true)
    (h_rows : M.rows = true) (h_armed : M.armed = true) (h_picks : M.picks = true) :
    ∀ s page, (State.setIsolate s page).mask M = s.mask M := by
  intro s page; unfold State.setIsolate; simp [*]

@[simp] theorem State.clearIsolate_mask (M : Mask) (h_regs : M.regs = true) (h_hq : M.hq = true)
    (h_regions : M.regions = true) (h_fab : M.fab = true) :
    ∀ s page, (State.clearIsolate s page).mask M = s.mask M := by
  intro s page; unfold State.clearIsolate; simp [*]

@[simp] theorem State.dropSram_mask (M : Mask) (h_scratch : M.scratch = true) (h_pool : M.pool = true)
    (h_marks : M.marks = true) (h_regions : M.regions = true) (h_armed : M.armed = true) :
    ∀ s r, (State.dropSram s r).mask M = s.mask M := by
  intro s r; unfold State.dropSram; simp [*]

@[simp] theorem State.setClkGood_mask (M : Mask) (h_regs : M.regs = true) :
    ∀ s c b, (State.setClkGood s c b).mask M = s.mask M := by
  intro s c b; unfold State.setClkGood; simp [*]

@[simp] theorem State.unlock_mask (M : Mask) (h_rst : M.rst = true) (h_regs : M.regs = true) :
    ∀ s c, (State.unlock s c).mask M = s.mask M := by
  intro s c; unfold State.unlock; simp [*]

@[simp] theorem State.regionOff_mask (M : Mask) (h_rst : M.rst = true) (h_regs : M.regs = true) (h_ext : M.ext = true)
    (h_tags : M.tags = true) (h_scratch : M.scratch = true) (h_pool : M.pool = true) (h_marks : M.marks = true)
    (h_hq : M.hq = true) (h_regions : M.regions = true) (h_tileErrs : M.tileErrs = true) (h_rows : M.rows = true)
    (h_armed : M.armed = true) (h_picks : M.picks = true) : ∀ s r, (State.regionOff s r).mask M = s.mask M := by
  intro s r; unfold State.regionOff; simp [*]

@[simp] theorem State.clearTile_mask (M : Mask) (h_regs : M.regs = true) (h_tileErrs : M.tileErrs = true) :
    ∀ s t, (State.clearTile s t).mask M = s.mask M := by
  intro s t; unfold State.clearTile; simp [*]

@[simp] theorem State.blockReset_mask (M : Mask) (h_rst : M.rst = true) (h_regs : M.regs = true) (h_ext : M.ext = true)
    (h_tags : M.tags = true) (h_scratch : M.scratch = true) (h_pool : M.pool = true) (h_marks : M.marks = true)
    (h_hq : M.hq = true) (h_regions : M.regions = true) (h_tileErrs : M.tileErrs = true) (h_rows : M.rows = true)
    (h_fab : M.fab = true) (h_armed : M.armed = true) (h_picks : M.picks = true) :
    ∀ s page, (State.blockReset s page).mask M = s.mask M := by
  intro s page; unfold State.blockReset; simp [*]

@[simp] theorem State.requestReset_mask (M : Mask) (h_rst : M.rst = true) (h_regs : M.regs = true)
    (h_ext : M.ext = true) (h_tags : M.tags = true) (h_scratch : M.scratch = true) (h_pool : M.pool = true)
    (h_marks : M.marks = true) (h_hq : M.hq = true) (h_regions : M.regions = true) (h_tileErrs : M.tileErrs = true)
    (h_rows : M.rows = true) (h_fab : M.fab = true) (h_armed : M.armed = true) (h_picks : M.picks = true) :
    ∀ s page, (State.requestReset s page).mask M = s.mask M := by
  intro s page; unfold State.requestReset; simp [*]

@[simp] theorem State.ctrlWrite_mask (M : Mask) (h_rst : M.rst = true) (h_regs : M.regs = true) (h_ext : M.ext = true)
    (h_tags : M.tags = true) (h_scratch : M.scratch = true) (h_pool : M.pool = true) (h_marks : M.marks = true)
    (h_hq : M.hq = true) (h_regions : M.regions = true) (h_tileErrs : M.tileErrs = true) (h_rows : M.rows = true)
    (h_fab : M.fab = true) (h_armed : M.armed = true) (h_picks : M.picks = true) :
    ∀ s page w, (State.ctrlWrite s page w).mask M = s.mask M := by
  intro s page w; unfold State.ctrlWrite; simp [*]

@[simp] theorem State.writeWdt_mask (M : Mask) (h_rst : M.rst = true) (h_regs : M.regs = true) :
    ∀ s w, (State.writeWdt s w).mask M = s.mask M := by
  intro s w; unfold State.writeWdt; simp [*]

@[simp] theorem State.stepSeven_mask (M : Mask) (h_rst : M.rst = true) :
    ∀ s, (State.stepSeven s).mask M = s.mask M := by
  intro s; unfold State.stepSeven; simp [*]

@[simp] theorem State.peekEnd_mask (M : Mask) (h_regs : M.regs = true) (h_ext : M.ext = true) (h_tags : M.tags = true)
    (h_marks : M.marks = true) (h_hq : M.hq = true) (h_regions : M.regions = true) (h_tileErrs : M.tileErrs = true)
    (h_sv : M.sv = true) (h_gathers : M.gathers = true) (h_armed : M.armed = true) :
    ∀ s, (State.peekEnd s).mask M = s.mask M := by
  intro s; unfold State.peekEnd; (repeat' split) <;> simp_all

@[simp] theorem State.w1c_mask (M : Mask) (h_regs : M.regs = true) :
    ∀ s a mask w, (State.w1c s a mask w).mask M = s.mask M := by
  intro s a mask w; unfold State.w1c; simp [*]

@[simp] theorem State.loseVbak_mask (M : Mask) (h_rst : M.rst = true) (h_regs : M.regs = true) :
    ∀ s, (State.loseVbak s).mask M = s.mask M := by
  intro s; unfold State.loseVbak; simp [*]

@[simp] theorem State.countWake_mask (M : Mask) (h_regs : M.regs = true) (h_sv : M.sv = true) :
    ∀ s p, (State.countWake s p).mask M = s.mask M := by
  intro s p; unfold State.countWake; simp [*]

@[simp] theorem State.wakeDone_mask (M : Mask) (h_regs : M.regs = true) (h_ext : M.ext = true) (h_tags : M.tags = true)
    (h_scratch : M.scratch = true) (h_pool : M.pool = true) (h_pound : M.pound = true) (h_marks : M.marks = true)
    (h_hq : M.hq = true) (h_regions : M.regions = true) (h_tileErrs : M.tileErrs = true) (h_sv : M.sv = true)
    (h_rows : M.rows = true) (h_gathers : M.gathers = true) (h_armed : M.armed = true) (h_picks : M.picks = true) :
    ∀ s r, (State.wakeDone s r).mask M = s.mask M := by
  intro s r; unfold State.wakeDone; (repeat' split) <;> simp_all

@[simp] theorem State.swReset_mask (M : Mask) (h_rst : M.rst = true) (h_regs : M.regs = true) (h_ext : M.ext = true)
    (h_tags : M.tags = true) (h_hostMem : M.hostMem = true) (h_scratch : M.scratch = true) (h_pool : M.pool = true)
    (h_pound : M.pound = true) (h_marks : M.marks = true) (h_imem : M.imem = true) (h_hq : M.hq = true)
    (h_regions : M.regions = true) (h_tileErrs : M.tileErrs = true) (h_errWindowFrom : M.errWindowFrom = true)
    (h_sv : M.sv = true) (h_rows : M.rows = true) (h_gathers : M.gathers = true) (h_fab : M.fab = true)
    (h_col : M.col = true) (h_tap : M.tap = true) (h_port : M.port = true) (h_armed : M.armed = true)
    (h_memCounts : M.memCounts = true) : ∀ s w, (State.swReset s w).mask M = s.mask M := by
  intro s w; unfold State.swReset; simp [*]

@[simp] theorem State.stepFive_mask (M : Mask) (h_rst : M.rst = true) (h_regs : M.regs = true) (h_hq : M.hq = true) :
    ∀ s, (State.stepFive s).mask M = s.mask M := by
  intro s; unfold State.stepFive; simp [*]

@[simp] theorem State.advance_mask (M : Mask) (h_rst : M.rst = true) (h_regs : M.regs = true) (h_hq : M.hq = true) :
    ∀ s, (State.advance s).mask M = s.mask M := by
  intro s; unfold State.advance; simp [*]

@[simp] theorem State.regionClockFails_mask (M : Mask) (h_regs : M.regs = true) (h_ext : M.ext = true)
    (h_tags : M.tags = true) (h_marks : M.marks = true) (h_hq : M.hq = true) (h_regions : M.regions = true)
    (h_tileErrs : M.tileErrs = true) (h_sv : M.sv = true) (h_rows : M.rows = true) (h_gathers : M.gathers = true)
    (h_armed : M.armed = true) (h_picks : M.picks = true) :
    ∀ s r, (State.regionClockFails s r).mask M = s.mask M := by
  intro s r; unfold State.regionClockFails; simp [*]

@[simp] theorem State.window_mask (M : Mask) (h_rst : M.rst = true) (h_regs : M.regs = true) (h_ext : M.ext = true)
    (h_tags : M.tags = true) (h_hostMem : M.hostMem = true) (h_scratch : M.scratch = true) (h_pool : M.pool = true)
    (h_pound : M.pound = true) (h_marks : M.marks = true) (h_imem : M.imem = true) (h_hq : M.hq = true)
    (h_regions : M.regions = true) (h_tileErrs : M.tileErrs = true) (h_errWindowFrom : M.errWindowFrom = true)
    (h_sv : M.sv = true) (h_rows : M.rows = true) (h_gathers : M.gathers = true) (h_fab : M.fab = true)
    (h_col : M.col = true) (h_tap : M.tap = true) (h_port : M.port = true) (h_armed : M.armed = true)
    (h_memCounts : M.memCounts = true) (h_picks : M.picks = true) :
    ∀ s c n, (State.window s c n).mask M = s.mask M := by
  intro s c n; unfold State.window; simp [*]

@[simp] theorem State.poisonSector_mask (M : Mask) (h_regs : M.regs = true) (h_tags : M.tags = true)
    (h_hq : M.hq = true) (h_memCounts : M.memCounts = true) : ∀ s k, (State.poisonSector s k).mask M = s.mask M := by
  intro s k; unfold State.poisonSector; simp [*]

@[simp] theorem State.correctSector_mask (M : Mask) (h_regs : M.regs = true) (h_hq : M.hq = true)
    (h_memCounts : M.memCounts = true) : ∀ s k sym, (State.correctSector s k sym).mask M = s.mask M := by
  intro s k sym; unfold State.correctSector; simp [*]

@[simp] theorem State.sectorRead_mask (M : Mask) (h_regs : M.regs = true) (h_ext : M.ext = true)
    (h_tags : M.tags = true) (h_hq : M.hq = true) (h_memCounts : M.memCounts = true) :
    ∀ s k d, (State.sectorRead s k d).mask M = s.mask M := by
  intro s k d; unfold State.sectorRead; simp [*]

@[simp] theorem State.sectorWritten_mask (M : Mask) (h_regs : M.regs = true) (h_hq : M.hq = true)
    (h_memCounts : M.memCounts = true) : ∀ s port err, (State.sectorWritten s port err).mask M = s.mask M := by
  intro s port err; unfold State.sectorWritten; simp [*]

@[simp] theorem State.hostUnit_mask (M : Mask) (h_regs : M.regs = true) (h_hostMem : M.hostMem = true)
    (h_hq : M.hq = true) : ∀ s a data err, (State.hostUnit s a data err).mask M = s.mask M := by
  intro s a data err; unfold State.hostUnit; simp [*]

@[simp] theorem State.retag_mask (M : Mask) (h_hq : M.hq = true) : ∀ s t, (State.retag s t).mask M = s.mask M := by
  intro s t; unfold State.retag; (repeat' split) <;> simp_all

@[simp] theorem State.ackIrqs_mask (M : Mask) (h_regs : M.regs = true) (h_hq : M.hq = true) :
    ∀ s t, (State.ackIrqs s t).mask M = s.mask M := by
  intro s t; unfold State.ackIrqs; simp [*]

@[simp] theorem State.rowsAcked_mask (M : Mask) (h_regs : M.regs = true) (h_ext : M.ext = true)
    (h_tags : M.tags = true) (h_hq : M.hq = true) (h_armed : M.armed = true) :
    ∀ s j, (State.rowsAcked s j).mask M = s.mask M := by
  intro s j; unfold State.rowsAcked; (repeat' split) <;> simp_all

@[simp] theorem State.ownerAcked_mask (M : Mask) (h_regs : M.regs = true) (h_ext : M.ext = true)
    (h_tags : M.tags = true) (h_hq : M.hq = true) (h_sv : M.sv = true) (h_armed : M.armed = true) :
    ∀ s o err, (State.ownerAcked s o err).mask M = s.mask M := by
  intro s o err; unfold State.ownerAcked; (repeat' split) <;> simp_all

@[simp] theorem State.hostAck_mask (M : Mask) (h_regs : M.regs = true) (h_ext : M.ext = true) (h_tags : M.tags = true)
    (h_hostMem : M.hostMem = true) (h_hq : M.hq = true) (h_sv : M.sv = true) (h_armed : M.armed = true) :
    ∀ s t err, (State.hostAck s t err).mask M = s.mask M := by
  intro s t err; unfold State.hostAck; (repeat' split) <;> simp_all

@[simp] theorem State.writeVecCtrl_mask (M : Mask) (h_regs : M.regs = true) (h_hq : M.hq = true) :
    ∀ s v w, (State.writeVecCtrl s v w).mask M = s.mask M := by
  intro s v w; unfold State.writeVecCtrl; simp [*]

@[simp] theorem State.hostRead_mask (M : Mask) (h_regs : M.regs = true) (h_sv : M.sv = true) (h_fab : M.fab = true)
    (h_port : M.port = true) (h_memCounts : M.memCounts = true) : ∀ s a, (State.hostRead s a).mask M = s.mask M := by
  intro s a; unfold State.hostRead; simp [*]

@[simp] theorem State.clearBusy_mask (M : Mask) (h_regs : M.regs = true) :
    ∀ s w, (State.clearBusy s w).mask M = s.mask M := by
  intro s w; unfold State.clearBusy; simp [*]

@[simp] theorem State.doorbell_mask (M : Mask) (h_regs : M.regs = true) (h_ext : M.ext = true) (h_tags : M.tags = true)
    (h_hq : M.hq = true) (h_armed : M.armed = true) : ∀ s w, (State.doorbell s w).mask M = s.mask M := by
  intro s w; unfold State.doorbell; simp [*]

@[simp] theorem State.plainWrite_mask (M : Mask) (h_regs : M.regs = true) :
    ∀ s a w, (State.plainWrite s a w).mask M = s.mask M := by
  intro s a w; unfold State.plainWrite; (repeat' split) <;> simp_all

@[simp] theorem State.pageWrite_mask (M : Mask) (h_rst : M.rst = true) (h_regs : M.regs = true) (h_ext : M.ext = true)
    (h_tags : M.tags = true) (h_hostMem : M.hostMem = true) (h_scratch : M.scratch = true) (h_pool : M.pool = true)
    (h_pound : M.pound = true) (h_marks : M.marks = true) (h_imem : M.imem = true) (h_hq : M.hq = true)
    (h_regions : M.regions = true) (h_tileErrs : M.tileErrs = true) (h_errWindowFrom : M.errWindowFrom = true)
    (h_sv : M.sv = true) (h_rows : M.rows = true) (h_gathers : M.gathers = true) (h_fab : M.fab = true)
    (h_col : M.col = true) (h_tap : M.tap = true) (h_port : M.port = true) (h_armed : M.armed = true)
    (h_memCounts : M.memCounts = true) (h_picks : M.picks = true) :
    ∀ s page o w, (State.pageWrite s page o w).mask M = s.mask M := by
  intro s page o w
  unfold State.pageWrite
  cases bankOf o with
  | some b =>
    simp only []
    split
    · simp [*]
    · cases regDef? page o <;> simp [*]
  | none => simp [*]

@[simp] theorem State.tableWrite_mask (M : Mask) (h_regs : M.regs = true) (h_hq : M.hq = true) :
    ∀ s a w, (State.tableWrite s a w).mask M = s.mask M := by
  intro s a w; unfold State.tableWrite; simp [*]

@[simp] theorem State.towWrite_mask (M : Mask) (h_rst : M.rst = true) (h_regs : M.regs = true) (h_ext : M.ext = true)
    (h_tags : M.tags = true) (h_hostMem : M.hostMem = true) (h_scratch : M.scratch = true) (h_pool : M.pool = true)
    (h_pound : M.pound = true) (h_marks : M.marks = true) (h_imem : M.imem = true) (h_hq : M.hq = true)
    (h_regions : M.regions = true) (h_tileErrs : M.tileErrs = true) (h_errWindowFrom : M.errWindowFrom = true)
    (h_sv : M.sv = true) (h_rows : M.rows = true) (h_gathers : M.gathers = true) (h_fab : M.fab = true)
    (h_col : M.col = true) (h_tap : M.tap = true) (h_port : M.port = true) (h_armed : M.armed = true)
    (h_memCounts : M.memCounts = true) (h_picks : M.picks = true) :
    ∀ s a w, (State.towWrite s a w).2.mask M = s.mask M := by
  intro s a w
  unfold State.towWrite
  split
  · rfl
  · split
    · simp [*]
    · simp [*]

@[simp] theorem State.towpathDr_mask (M : Mask) (h_rst : M.rst = true) (h_regs : M.regs = true) (h_ext : M.ext = true)
    (h_tags : M.tags = true) (h_hostMem : M.hostMem = true) (h_scratch : M.scratch = true) (h_pool : M.pool = true)
    (h_pound : M.pound = true) (h_marks : M.marks = true) (h_imem : M.imem = true) (h_hq : M.hq = true)
    (h_regions : M.regions = true) (h_tileErrs : M.tileErrs = true) (h_errWindowFrom : M.errWindowFrom = true)
    (h_sv : M.sv = true) (h_rows : M.rows = true) (h_gathers : M.gathers = true) (h_fab : M.fab = true)
    (h_col : M.col = true) (h_tap : M.tap = true) (h_port : M.port = true) (h_armed : M.armed = true)
    (h_memCounts : M.memCounts = true) (h_picks : M.picks = true) :
    ∀ s dr, (State.towpathDr s dr).mask M = s.mask M := by
  intro s dr; unfold State.towpathDr; simp [*]

@[simp] theorem State.hostRegWrite_mask (M : Mask) (h_rst : M.rst = true) (h_regs : M.regs = true)
    (h_ext : M.ext = true) (h_tags : M.tags = true) (h_hostMem : M.hostMem = true) (h_scratch : M.scratch = true)
    (h_pool : M.pool = true) (h_pound : M.pound = true) (h_marks : M.marks = true) (h_imem : M.imem = true)
    (h_hq : M.hq = true) (h_regions : M.regions = true) (h_tileErrs : M.tileErrs = true)
    (h_errWindowFrom : M.errWindowFrom = true) (h_sv : M.sv = true) (h_rows : M.rows = true)
    (h_gathers : M.gathers = true) (h_fab : M.fab = true) (h_col : M.col = true) (h_tap : M.tap = true)
    (h_port : M.port = true) (h_armed : M.armed = true) (h_memCounts : M.memCounts = true) (h_picks : M.picks = true) :
    ∀ s a w, (State.hostRegWrite s a w).mask M = s.mask M := by
  intro s a w; unfold State.hostRegWrite; simp [*]

@[simp] theorem State.withFetchWord_mask (M : Mask) (h_pending : M.pending = true) :
    ∀ s nbits w, (State.withFetchWord s nbits w).mask M = s.mask M := by
  intro s nbits w; unfold State.withFetchWord
  split <;> simp [State.mask, *]

end Sys2Proof.Machine
end

