-- ==== Sys2Proof/Laws/FrameCommands.lean ====
section
/-! SUPPORT. What each command leaves untouched: the lemma of a command holds under every mask that names the fields of
State that the command may change. -/

namespace Sys2Proof.Machine

open Sys2Proof

theorem State.engine_mask (M : Mask) {f : State → State} (hf : ∀ s, (f s).mask M = s.mask M) {s t : State}
    (h : s.engine f = .next t) : t.mask M = s.mask M := by
  unfold State.engine at h; cases h; split <;> simp [hf]

theorem State.always_mask (M : Mask) {f : State → State} (hf : ∀ s, (f s).mask M = s.mask M) {s t : State}
    (h : s.always f = .next t) : t.mask M = s.mask M := by
  unfold State.always at h; cases h; split <;> simp [hf]

theorem execSqDoorbell_mask (M : Mask) (h_regs : M.regs = true) (h_hq : M.hq = true) :
    ∀ q p s t, execSqDoorbell q p s = .next t → t.mask M = s.mask M := by
  intro q p s t h; unfold execSqDoorbell at h
  exact State.always_mask M (fun s => by simp [*]) h

theorem execCqDoorbell_mask (M : Mask) (h_regs : M.regs = true) (h_ext : M.ext = true) (h_tags : M.tags = true)
    (h_hq : M.hq = true) (h_armed : M.armed = true) :
    ∀ q p s t, execCqDoorbell q p s = .next t → t.mask M = s.mask M := by
  intro q p s t h; unfold execCqDoorbell at h
  exact State.always_mask M (fun s => by simp [*]) h

theorem execSqFetch_mask (M : Mask) (h_regs : M.regs = true) (h_ext : M.ext = true) (h_tags : M.tags = true)
    (h_hq : M.hq = true) (h_armed : M.armed = true) : ∀ s t, execSqFetch s = .next t → t.mask M = s.mask M := by
  intro s t h; unfold execSqFetch at h
  exact State.engine_mask M (fun s => by simp [*]) h

theorem execNop_mask (M : Mask) (h_regs : M.regs = true) (h_ext : M.ext = true) (h_tags : M.tags = true)
    (h_hq : M.hq = true) (h_armed : M.armed = true) : ∀ j s t, execNop j s = .next t → t.mask M = s.mask M := by
  intro j s t h; unfold execNop at h
  exact State.engine_mask M (fun s => by simp [*]) h

theorem execSubmitBarge_mask (M : Mask) (h_regs : M.regs = true) (h_ext : M.ext = true) (h_tags : M.tags = true)
    (h_hq : M.hq = true) (h_sv : M.sv = true) (h_armed : M.armed = true) :
    ∀ j s t, execSubmitBarge j s = .next t → t.mask M = s.mask M := by
  intro j s t h; unfold execSubmitBarge at h
  exact State.engine_mask M (fun s => by simp [*]) h

theorem execAdmitRequest_mask (M : Mask) (h_regs : M.regs = true) (h_ext : M.ext = true) (h_tags : M.tags = true)
    (h_hq : M.hq = true) (h_sv : M.sv = true) (h_armed : M.armed = true) :
    ∀ j s t, execAdmitRequest j s = .next t → t.mask M = s.mask M := by
  intro j s t h; unfold execAdmitRequest at h
  exact State.engine_mask M (fun s => by simp [*]) h

theorem execCancelRequest_mask (M : Mask) (h_regs : M.regs = true) (h_ext : M.ext = true) (h_tags : M.tags = true)
    (h_hq : M.hq = true) (h_sv : M.sv = true) (h_armed : M.armed = true) :
    ∀ j s t, execCancelRequest j s = .next t → t.mask M = s.mask M := by
  intro j s t h; unfold execCancelRequest at h
  exact State.engine_mask M (fun s => by simp [*]) h

theorem execConfigEpoch_mask (M : Mask) (h_regs : M.regs = true) (h_ext : M.ext = true) (h_tags : M.tags = true)
    (h_hq : M.hq = true) (h_armed : M.armed = true) :
    ∀ j s t, execConfigEpoch j s = .next t → t.mask M = s.mask M := by
  intro j s t h; unfold execConfigEpoch at h
  exact State.engine_mask M (fun s => by simp [*]) h

theorem execConfigEpochComplete_mask (M : Mask) (h_regs : M.regs = true) (h_ext : M.ext = true)
    (h_tags : M.tags = true) (h_hq : M.hq = true) (h_armed : M.armed = true) :
    ∀ j s t, execConfigEpochComplete j s = .next t → t.mask M = s.mask M := by
  intro j s t h; unfold execConfigEpochComplete at h
  exact State.engine_mask M (fun s => by ((repeat' split) <;> simp_all)) h

theorem execFence_mask (M : Mask) (h_regs : M.regs = true) (h_ext : M.ext = true) (h_tags : M.tags = true)
    (h_hq : M.hq = true) (h_armed : M.armed = true) : ∀ j s t, execFence j s = .next t → t.mask M = s.mask M := by
  intro j s t h; unfold execFence at h
  exact State.engine_mask M (fun s => by simp [*]) h

theorem execFenceComplete_mask (M : Mask) (h_regs : M.regs = true) (h_ext : M.ext = true) (h_tags : M.tags = true)
    (h_hq : M.hq = true) (h_armed : M.armed = true) :
    ∀ j s t, execFenceComplete j s = .next t → t.mask M = s.mask M := by
  intro j s t h; unfold execFenceComplete at h
  exact State.engine_mask M (fun s => by ((repeat' split) <;> simp_all)) h

theorem execCreate_mask (M : Mask) (h_regs : M.regs = true) (h_ext : M.ext = true) (h_tags : M.tags = true)
    (h_hq : M.hq = true) (h_armed : M.armed = true) : ∀ j s t, execCreate j s = .next t → t.mask M = s.mask M := by
  intro j s t h; unfold execCreate at h
  exact State.engine_mask M (fun s => by simp [*]) h

theorem execReplace_mask (M : Mask) (h_regs : M.regs = true) (h_ext : M.ext = true) (h_tags : M.tags = true)
    (h_hq : M.hq = true) (h_rows : M.rows = true) (h_armed : M.armed = true) :
    ∀ j s t, execReplace j s = .next t → t.mask M = s.mask M := by
  intro j s t h; unfold execReplace at h
  exact State.engine_mask M (fun s => by simp [*]) h

theorem execReplaceTakeEffect_mask (M : Mask) (h_regs : M.regs = true) (h_ext : M.ext = true) (h_tags : M.tags = true)
    (h_hq : M.hq = true) (h_regions : M.regions = true) (h_rows : M.rows = true) (h_armed : M.armed = true) :
    ∀ j s t, execReplaceTakeEffect j s = .next t → t.mask M = s.mask M := by
  intro j s t h; unfold execReplaceTakeEffect at h
  exact State.engine_mask M (fun s => by simp [*]) h

theorem execDelete_mask (M : Mask) (h_regs : M.regs = true) (h_ext : M.ext = true) (h_tags : M.tags = true)
    (h_hq : M.hq = true) (h_rows : M.rows = true) (h_armed : M.armed = true) :
    ∀ j s t, execDelete j s = .next t → t.mask M = s.mask M := by
  intro j s t h; unfold execDelete at h
  exact State.engine_mask M (fun s => by simp [*]) h

theorem execDeleteTakeEffect_mask (M : Mask) (h_regs : M.regs = true) (h_ext : M.ext = true) (h_tags : M.tags = true)
    (h_hq : M.hq = true) (h_regions : M.regions = true) (h_rows : M.rows = true) (h_armed : M.armed = true) :
    ∀ j s t, execDeleteTakeEffect j s = .next t → t.mask M = s.mask M := by
  intro j s t h; unfold execDeleteTakeEffect at h
  exact State.engine_mask M (fun s => by simp [*]) h

theorem execWriteRows_mask (M : Mask) (h_regs : M.regs = true) (h_ext : M.ext = true) (h_tags : M.tags = true)
    (h_hq : M.hq = true) (h_armed : M.armed = true) : ∀ j s t, execWriteRows j s = .next t → t.mask M = s.mask M := by
  intro j s t h; unfold execWriteRows at h
  refine State.engine_mask M (fun s => ?_) h; clear h
  try simp only []
  repeat'
    first
    | with_reducible rfl | (simp [*]; done) | refine State.receive_mask M ‹_› ‹_› ‹_› _ _ _ _ (fun s => ?_)
    | refine State.receiveAns_mask M ‹_› ‹_› ‹_› _ _ _ _ (fun s => ?_)
    | refine State.serve_mask M ‹_› ‹_› ‹_› _ _ _ _ _ (fun s => ?_)
    | refine State.respond_mask M ‹_› ‹_› ‹_› _ _ _ (fun s u => ?_)
    | refine State.moveReply_mask M ‹_› ‹_› ‹_› _ _ _ _ (fun s u => ?_)
    | refine State.bell_mask M ‹_› ‹_› ‹_› _ _ _ _ _ (fun s m => ?_) (fun s m => ?_)
    | refine State.bellFromAbove_mask M ‹_› ‹_› ‹_› ‹_› _ _ _ _ (fun s => ?_)
    | refine State.processOp_mask M _ _ _ _ (fun s it => ?_)

theorem execReadRows_mask (M : Mask) (h_regs : M.regs = true) (h_ext : M.ext = true) (h_tags : M.tags = true)
    (h_hq : M.hq = true) (h_armed : M.armed = true) : ∀ j s t, execReadRows j s = .next t → t.mask M = s.mask M := by
  intro j s t h; unfold execReadRows at h
  refine State.engine_mask M (fun s => ?_) h; clear h
  try simp only []
  repeat'
    first
    | with_reducible rfl | (simp [*]; done) | refine State.receive_mask M ‹_› ‹_› ‹_› _ _ _ _ (fun s => ?_)
    | refine State.receiveAns_mask M ‹_› ‹_› ‹_› _ _ _ _ (fun s => ?_)
    | refine State.serve_mask M ‹_› ‹_› ‹_› _ _ _ _ _ (fun s => ?_)
    | refine State.respond_mask M ‹_› ‹_› ‹_› _ _ _ (fun s u => ?_)
    | refine State.moveReply_mask M ‹_› ‹_› ‹_› _ _ _ _ (fun s u => ?_)
    | refine State.bell_mask M ‹_› ‹_› ‹_› _ _ _ _ _ (fun s m => ?_) (fun s m => ?_)
    | refine State.bellFromAbove_mask M ‹_› ‹_› ‹_› ‹_› _ _ _ _ (fun s => ?_)
    | refine State.processOp_mask M _ _ _ _ (fun s it => ?_)

theorem execAdapterFlip_mask (M : Mask) (h_regs : M.regs = true) (h_ext : M.ext = true) (h_tags : M.tags = true)
    (h_hq : M.hq = true) (h_sv : M.sv = true) (h_armed : M.armed = true) :
    ∀ j s t, execAdapterFlip j s = .next t → t.mask M = s.mask M := by
  intro j s t h; unfold execAdapterFlip at h
  exact State.engine_mask M (fun s => by simp [*]) h

theorem execFlipTakeEffect_mask (M : Mask) (h_regs : M.regs = true) (h_ext : M.ext = true) (h_tags : M.tags = true)
    (h_hq : M.hq = true) (h_sv : M.sv = true) (h_armed : M.armed = true) :
    ∀ j s t, execFlipTakeEffect j s = .next t → t.mask M = s.mask M := by
  intro j s t h; unfold execFlipTakeEffect at h
  exact State.engine_mask M (fun s => by ((repeat' split) <;> simp_all)) h

theorem execFlipComplete_mask (M : Mask) (h_regs : M.regs = true) (h_ext : M.ext = true) (h_tags : M.tags = true)
    (h_hq : M.hq = true) (h_regions : M.regions = true) (h_sv : M.sv = true) (h_rows : M.rows = true)
    (h_fab : M.fab = true) (h_armed : M.armed = true) :
    ∀ j s t, execFlipComplete j s = .next t → t.mask M = s.mask M := by
  intro j s t h; unfold execFlipComplete at h
  exact State.engine_mask M (fun s => by ((repeat' split) <;> simp_all)) h

theorem execTrainHoldRelease_mask (M : Mask) (h_sv : M.sv = true) :
    ∀ j s t, execTrainHoldRelease j s = .next t → t.mask M = s.mask M := by
  intro j s t h; unfold execTrainHoldRelease at h
  exact State.engine_mask M (fun s => by simp [*]) h

theorem execCqRecordWrite_mask (M : Mask) (h_regs : M.regs = true) (h_ext : M.ext = true) (h_tags : M.tags = true)
    (h_hq : M.hq = true) (h_sv : M.sv = true) (h_armed : M.armed = true) :
    ∀ c s t, execCqRecordWrite c s = .next t → t.mask M = s.mask M := by
  intro c s t h; unfold execCqRecordWrite at h
  exact State.engine_mask M (fun s => by simp [*]) h

theorem execCoalTimeExpiry_mask (M : Mask) (h_regs : M.regs = true) (h_hq : M.hq = true) :
    ∀ c s t, execCoalTimeExpiry c s = .next t → t.mask M = s.mask M := by
  intro c s t h; unfold execCoalTimeExpiry at h
  exact State.engine_mask M (fun s => by simp [*]) h

theorem execMaintEntry_mask (M : Mask) (h_hq : M.hq = true) (h_regions : M.regions = true) :
    ∀ s t, execMaintEntry s = .next t → t.mask M = s.mask M := by
  intro s t h; unfold execMaintEntry at h
  exact State.engine_mask M (fun s => by simp [*]) h

theorem execMm_mask (M : Mask) (h_regs : M.regs = true) (h_ext : M.ext = true) (h_tags : M.tags = true)
    (h_scratch : M.scratch = true) (h_pool : M.pool = true) (h_pound : M.pound = true) (h_marks : M.marks = true)
    (h_hq : M.hq = true) (h_tileErrs : M.tileErrs = true) (h_sv : M.sv = true) (h_gathers : M.gathers = true)
    (h_armed : M.armed = true) (h_picks : M.picks = true) :
    ∀ b i s t, execMm b i s = .next t → t.mask M = s.mask M := by
  intro b i s t h; unfold execMm at h
  exact State.engine_mask M (fun s => by (simp [*]; (repeat' split) <;> simp_all)) h

theorem execDelta_mask (M : Mask) (h_regs : M.regs = true) (h_ext : M.ext = true) (h_tags : M.tags = true)
    (h_scratch : M.scratch = true) (h_pool : M.pool = true) (h_pound : M.pound = true) (h_marks : M.marks = true)
    (h_hq : M.hq = true) (h_regions : M.regions = true) (h_tileErrs : M.tileErrs = true) (h_sv : M.sv = true)
    (h_rows : M.rows = true) (h_gathers : M.gathers = true) (h_fab : M.fab = true) (h_armed : M.armed = true)
    (h_picks : M.picks = true) : ∀ b i s t, execDelta b i s = .next t → t.mask M = s.mask M := by
  intro b i s t h; unfold execDelta at h
  exact State.engine_mask M (fun s => by simp [*]) h

theorem execDeltaBackward_mask (M : Mask) (h_regs : M.regs = true) (h_ext : M.ext = true) (h_tags : M.tags = true)
    (h_scratch : M.scratch = true) (h_pool : M.pool = true) (h_pound : M.pound = true) (h_marks : M.marks = true)
    (h_hq : M.hq = true) (h_regions : M.regions = true) (h_tileErrs : M.tileErrs = true) (h_sv : M.sv = true)
    (h_rows : M.rows = true) (h_gathers : M.gathers = true) (h_fab : M.fab = true) (h_armed : M.armed = true)
    (h_picks : M.picks = true) : ∀ b i s t, execDeltaBackward b i s = .next t → t.mask M = s.mask M := by
  intro b i s t h; unfold execDeltaBackward at h
  exact State.engine_mask M (fun s => by simp [*]) h

theorem execAttn_mask (M : Mask) (h_regs : M.regs = true) (h_ext : M.ext = true) (h_tags : M.tags = true)
    (h_scratch : M.scratch = true) (h_pool : M.pool = true) (h_pound : M.pound = true) (h_marks : M.marks = true)
    (h_hq : M.hq = true) (h_tileErrs : M.tileErrs = true) (h_sv : M.sv = true) (h_gathers : M.gathers = true)
    (h_armed : M.armed = true) (h_picks : M.picks = true) :
    ∀ b i s t, execAttn b i s = .next t → t.mask M = s.mask M := by
  intro b i s t h; unfold execAttn at h
  exact State.engine_mask M (fun s => by simp [*]) h

theorem execKvAppend_mask (M : Mask) (h_regs : M.regs = true) (h_ext : M.ext = true) (h_tags : M.tags = true)
    (h_marks : M.marks = true) (h_hq : M.hq = true) (h_tileErrs : M.tileErrs = true) (h_sv : M.sv = true)
    (h_gathers : M.gathers = true) (h_armed : M.armed = true) :
    ∀ b i s t, execKvAppend b i s = .next t → t.mask M = s.mask M := by
  intro b i s t h; unfold execKvAppend at h
  exact State.engine_mask M (fun s => by simp [*]) h

theorem execKvCommit_mask (M : Mask) (h_regs : M.regs = true) (h_ext : M.ext = true) (h_tags : M.tags = true)
    (h_marks : M.marks = true) (h_hq : M.hq = true) (h_tileErrs : M.tileErrs = true) (h_sv : M.sv = true)
    (h_gathers : M.gathers = true) (h_armed : M.armed = true) :
    ∀ b i s t, execKvCommit b i s = .next t → t.mask M = s.mask M := by
  intro b i s t h; unfold execKvCommit at h
  exact State.engine_mask M (fun s => by simp [*]) h

theorem execVec_mask (M : Mask) (h_regs : M.regs = true) (h_ext : M.ext = true) (h_tags : M.tags = true)
    (h_scratch : M.scratch = true) (h_pool : M.pool = true) (h_pound : M.pound = true) (h_marks : M.marks = true)
    (h_hq : M.hq = true) (h_regions : M.regions = true) (h_tileErrs : M.tileErrs = true) (h_sv : M.sv = true)
    (h_gathers : M.gathers = true) (h_armed : M.armed = true) (h_picks : M.picks = true) :
    ∀ b i s t, execVec b i s = .next t → t.mask M = s.mask M := by
  intro b i s t h; unfold execVec at h
  exact State.engine_mask M (fun s => by simp [*]) h

theorem execConv_mask (M : Mask) (h_regs : M.regs = true) (h_ext : M.ext = true) (h_tags : M.tags = true)
    (h_scratch : M.scratch = true) (h_pool : M.pool = true) (h_pound : M.pound = true) (h_marks : M.marks = true)
    (h_hq : M.hq = true) (h_regions : M.regions = true) (h_tileErrs : M.tileErrs = true) (h_sv : M.sv = true)
    (h_gathers : M.gathers = true) (h_armed : M.armed = true) :
    ∀ b i s t, execConv b i s = .next t → t.mask M = s.mask M := by
  intro b i s t h; unfold execConv at h
  exact State.engine_mask M (fun s => by simp [*]) h

theorem execGather_mask (M : Mask) (h_regs : M.regs = true) (h_ext : M.ext = true) (h_tags : M.tags = true)
    (h_scratch : M.scratch = true) (h_pool : M.pool = true) (h_pound : M.pound = true) (h_marks : M.marks = true)
    (h_hq : M.hq = true) (h_regions : M.regions = true) (h_tileErrs : M.tileErrs = true) (h_sv : M.sv = true)
    (h_rows : M.rows = true) (h_gathers : M.gathers = true) (h_fab : M.fab = true) (h_armed : M.armed = true) :
    ∀ b i s t, execGather b i s = .next t → t.mask M = s.mask M := by
  intro b i s t h; unfold execGather at h
  exact State.engine_mask M (fun s => by simp [*]) h

theorem execPrefetch_mask (M : Mask) (h_regs : M.regs = true) (h_ext : M.ext = true) (h_tags : M.tags = true)
    (h_marks : M.marks = true) (h_hq : M.hq = true) (h_regions : M.regions = true) (h_tileErrs : M.tileErrs = true)
    (h_sv : M.sv = true) (h_rows : M.rows = true) (h_gathers : M.gathers = true) (h_fab : M.fab = true)
    (h_armed : M.armed = true) : ∀ b i s t, execPrefetch b i s = .next t → t.mask M = s.mask M := by
  intro b i s t h; unfold execPrefetch at h
  exact State.engine_mask M (fun s => by simp [*]) h

theorem execPool_mask (M : Mask) (h_regs : M.regs = true) (h_ext : M.ext = true) (h_tags : M.tags = true)
    (h_scratch : M.scratch = true) (h_pool : M.pool = true) (h_pound : M.pound = true) (h_marks : M.marks = true)
    (h_hq : M.hq = true) (h_tileErrs : M.tileErrs = true) (h_sv : M.sv = true) (h_gathers : M.gathers = true)
    (h_armed : M.armed = true) (h_picks : M.picks = true) :
    ∀ b i s t, execPool b i s = .next t → t.mask M = s.mask M := by
  intro b i s t h; unfold execPool at h
  exact State.engine_mask M (fun s => by simp [*]) h

theorem execSgrad_mask (M : Mask) (h_regs : M.regs = true) (h_ext : M.ext = true) (h_tags : M.tags = true)
    (h_marks : M.marks = true) (h_hq : M.hq = true) (h_tileErrs : M.tileErrs = true) (h_sv : M.sv = true)
    (h_gathers : M.gathers = true) (h_armed : M.armed = true) (h_picks : M.picks = true) :
    ∀ b i s t, execSgrad b i s = .next t → t.mask M = s.mask M := by
  intro b i s t h; unfold execSgrad at h
  exact State.engine_mask M (fun s => by simp [*]) h

theorem execUpdate_mask (M : Mask) (h_regs : M.regs = true) (h_ext : M.ext = true) (h_tags : M.tags = true)
    (h_marks : M.marks = true) (h_hq : M.hq = true) (h_regions : M.regions = true) (h_tileErrs : M.tileErrs = true)
    (h_sv : M.sv = true) (h_gathers : M.gathers = true) (h_armed : M.armed = true) :
    ∀ b i s t, execUpdate b i s = .next t → t.mask M = s.mask M := by
  intro b i s t h; unfold execUpdate at h
  exact State.engine_mask M (fun s => by simp [*]) h

theorem execColl_mask (M : Mask) (h_regs : M.regs = true) (h_ext : M.ext = true) (h_tags : M.tags = true)
    (h_scratch : M.scratch = true) (h_pool : M.pool = true) (h_pound : M.pound = true) (h_marks : M.marks = true)
    (h_hq : M.hq = true) (h_tileErrs : M.tileErrs = true) (h_sv : M.sv = true) (h_gathers : M.gathers = true)
    (h_fab : M.fab = true) (h_col : M.col = true) (h_armed : M.armed = true) (h_picks : M.picks = true) :
    ∀ b i s t, execColl b i s = .next t → t.mask M = s.mask M := by
  intro b i s t h; unfold execColl at h
  exact State.engine_mask M (fun s => by simp [*]) h

theorem execSeal_mask (M : Mask) (h_regs : M.regs = true) (h_ext : M.ext = true) (h_tags : M.tags = true)
    (h_marks : M.marks = true) (h_hq : M.hq = true) (h_tileErrs : M.tileErrs = true) (h_sv : M.sv = true)
    (h_gathers : M.gathers = true) (h_fab : M.fab = true) (h_col : M.col = true) (h_armed : M.armed = true)
    (h_picks : M.picks = true) : ∀ b i s t, execSeal b i s = .next t → t.mask M = s.mask M := by
  intro b i s t h; unfold execSeal at h
  exact State.engine_mask M (fun s => by simp [*]) h

theorem execBarrier_mask (M : Mask) (h_regs : M.regs = true) (h_ext : M.ext = true) (h_tags : M.tags = true)
    (h_scratch : M.scratch = true) (h_pool : M.pool = true) (h_pound : M.pound = true) (h_marks : M.marks = true)
    (h_hq : M.hq = true) (h_tileErrs : M.tileErrs = true) (h_sv : M.sv = true) (h_rows : M.rows = true)
    (h_gathers : M.gathers = true) (h_fab : M.fab = true) (h_col : M.col = true) (h_armed : M.armed = true)
    (h_picks : M.picks = true) : ∀ b i s t, execBarrier b i s = .next t → t.mask M = s.mask M := by
  intro b i s t h; unfold execBarrier at h
  exact State.engine_mask M (fun s => by simp [*]) h

theorem execLockMark_mask (M : Mask) (h_regs : M.regs = true) (h_ext : M.ext = true) (h_tags : M.tags = true)
    (h_marks : M.marks = true) (h_hq : M.hq = true) (h_tileErrs : M.tileErrs = true) (h_sv : M.sv = true)
    (h_gathers : M.gathers = true) (h_armed : M.armed = true) :
    ∀ b i s t, execLockMark b i s = .next t → t.mask M = s.mask M := by
  intro b i s t h; unfold execLockMark at h
  exact State.engine_mask M (fun s => by simp [*]) h

theorem execConfirm_mask (M : Mask) (h_regs : M.regs = true) (h_ext : M.ext = true) (h_tags : M.tags = true)
    (h_marks : M.marks = true) (h_hq : M.hq = true) (h_tileErrs : M.tileErrs = true) (h_sv : M.sv = true)
    (h_gathers : M.gathers = true) (h_armed : M.armed = true) :
    ∀ b i s t, execConfirm b i s = .next t → t.mask M = s.mask M := by
  intro b i s t h; unfold execConfirm at h
  exact State.engine_mask M (fun s => by simp [*]) h

theorem execSavePoint_mask (M : Mask) (h_regs : M.regs = true) (h_ext : M.ext = true) (h_tags : M.tags = true)
    (h_marks : M.marks = true) (h_hq : M.hq = true) (h_tileErrs : M.tileErrs = true) (h_sv : M.sv = true)
    (h_gathers : M.gathers = true) (h_armed : M.armed = true) :
    ∀ b i s t, execSavePoint b i s = .next t → t.mask M = s.mask M := by
  intro b i s t h; unfold execSavePoint at h
  exact State.engine_mask M (fun s => by simp [*]) h

theorem execOpFence_mask (M : Mask) (h_regs : M.regs = true) (h_ext : M.ext = true) (h_tags : M.tags = true)
    (h_marks : M.marks = true) (h_hq : M.hq = true) (h_tileErrs : M.tileErrs = true) (h_sv : M.sv = true)
    (h_gathers : M.gathers = true) (h_armed : M.armed = true) :
    ∀ b i s t, execOpFence b i s = .next t → t.mask M = s.mask M := by
  intro b i s t h; unfold execOpFence at h
  exact State.engine_mask M (fun s => by simp [*]) h

theorem execWait_mask (M : Mask) (h_regs : M.regs = true) (h_ext : M.ext = true) (h_tags : M.tags = true)
    (h_marks : M.marks = true) (h_hq : M.hq = true) (h_tileErrs : M.tileErrs = true) (h_sv : M.sv = true)
    (h_gathers : M.gathers = true) (h_armed : M.armed = true) :
    ∀ b i s t, execWait b i s = .next t → t.mask M = s.mask M := by
  intro b i s t h; unfold execWait at h
  exact State.engine_mask M (fun s => by simp [*]) h

theorem execWaitLimitExpiry_mask (M : Mask) (h_regs : M.regs = true) (h_ext : M.ext = true) (h_tags : M.tags = true)
    (h_marks : M.marks = true) (h_hq : M.hq = true) (h_sv : M.sv = true) (h_gathers : M.gathers = true)
    (h_armed : M.armed = true) : ∀ b i s t, execWaitLimitExpiry b i s = .next t → t.mask M = s.mask M := by
  intro b i s t h; unfold execWaitLimitExpiry at h
  exact State.engine_mask M (fun s => by ((repeat' split) <;> simp_all)) h

theorem execSignal_mask (M : Mask) (h_regs : M.regs = true) (h_ext : M.ext = true) (h_tags : M.tags = true)
    (h_marks : M.marks = true) (h_hq : M.hq = true) (h_tileErrs : M.tileErrs = true) (h_sv : M.sv = true)
    (h_gathers : M.gathers = true) (h_armed : M.armed = true) :
    ∀ b i s t, execSignal b i s = .next t → t.mask M = s.mask M := by
  intro b i s t h; unfold execSignal at h
  exact State.engine_mask M (fun s => by simp [*]) h

theorem execOpComplete_mask (M : Mask) (h_regs : M.regs = true) (h_ext : M.ext = true) (h_tags : M.tags = true)
    (h_scratch : M.scratch = true) (h_pool : M.pool = true) (h_pound : M.pound = true) (h_marks : M.marks = true)
    (h_hq : M.hq = true) (h_regions : M.regions = true) (h_tileErrs : M.tileErrs = true) (h_sv : M.sv = true)
    (h_rows : M.rows = true) (h_fab : M.fab = true) (h_col : M.col = true) (h_armed : M.armed = true)
    (h_picks : M.picks = true) : ∀ b i s t, execOpComplete b i s = .next t → t.mask M = s.mask M := by
  intro b i s t h; unfold execOpComplete at h
  exact State.engine_mask M (fun s => by simp [*]) h

theorem execCommitUnit_mask (M : Mask) (h_regs : M.regs = true) (h_ext : M.ext = true) (h_tags : M.tags = true)
    (h_marks : M.marks = true) (h_hq : M.hq = true) (h_regions : M.regions = true) (h_tileErrs : M.tileErrs = true)
    (h_sv : M.sv = true) (h_rows : M.rows = true) (h_gathers : M.gathers = true) (h_fab : M.fab = true)
    (h_armed : M.armed = true) (h_picks : M.picks = true) :
    ∀ b i u s t, execCommitUnit b i u s = .next t → t.mask M = s.mask M := by
  intro b i u s t h; unfold execCommitUnit at h
  split at h
  · split at h
    · cases h; exact State.commitUnit_mask M ‹_› ‹_› ‹_› ‹_› ‹_› ‹_› ‹_› ‹_› ‹_› ‹_› ‹_› ‹_› ‹_› _ _ _ _ _ ‹_›
    · cases h
  · cases h; rfl

theorem execManifestClose_mask (M : Mask) (h_regs : M.regs = true) (h_ext : M.ext = true) (h_tags : M.tags = true)
    (h_hq : M.hq = true) (h_sv : M.sv = true) (h_armed : M.armed = true) :
    ∀ m s t, execManifestClose m s = .next t → t.mask M = s.mask M := by
  intro m s t h; unfold execManifestClose at h
  exact State.engine_mask M (fun s => by simp [*]) h

theorem execBargePlacement_mask (M : Mask) (h_regs : M.regs = true) (h_ext : M.ext = true) (h_tags : M.tags = true)
    (h_scratch : M.scratch = true) (h_pool : M.pool = true) (h_pound : M.pound = true) (h_marks : M.marks = true)
    (h_hq : M.hq = true) (h_regions : M.regions = true) (h_tileErrs : M.tileErrs = true) (h_sv : M.sv = true)
    (h_rows : M.rows = true) (h_gathers : M.gathers = true) (h_fab : M.fab = true) (h_armed : M.armed = true) :
    ∀ s t, execBargePlacement s = .next t → t.mask M = s.mask M := by
  intro s t h; unfold execBargePlacement at h
  exact State.engine_mask M (fun s => by simp [*]) h

theorem execWakeComplete_mask (M : Mask) (h_regs : M.regs = true) (h_ext : M.ext = true) (h_tags : M.tags = true)
    (h_scratch : M.scratch = true) (h_pool : M.pool = true) (h_pound : M.pound = true) (h_marks : M.marks = true)
    (h_hq : M.hq = true) (h_regions : M.regions = true) (h_tileErrs : M.tileErrs = true) (h_sv : M.sv = true)
    (h_rows : M.rows = true) (h_gathers : M.gathers = true) (h_armed : M.armed = true) (h_picks : M.picks = true) :
    ∀ r s t, execWakeComplete r s = .next t → t.mask M = s.mask M := by
  intro r s t h; unfold execWakeComplete at h
  exact State.engine_mask M (fun s => by simp [*]) h

theorem execImageLoadComplete_mask (M : Mask) (h_regs : M.regs = true) (h_ext : M.ext = true) (h_tags : M.tags = true)
    (h_scratch : M.scratch = true) (h_pool : M.pool = true) (h_pound : M.pound = true) (h_marks : M.marks = true)
    (h_hq : M.hq = true) (h_regions : M.regions = true) (h_tileErrs : M.tileErrs = true) (h_sv : M.sv = true)
    (h_rows : M.rows = true) (h_fab : M.fab = true) (h_armed : M.armed = true) :
    ∀ b s t, execImageLoadComplete b s = .next t → t.mask M = s.mask M := by
  intro b s t h; unfold execImageLoadComplete at h
  exact State.engine_mask M (fun s => by simp [*]) h

theorem execBargeEnd_mask (M : Mask) (h_regs : M.regs = true) (h_ext : M.ext = true) (h_tags : M.tags = true)
    (h_marks : M.marks = true) (h_hq : M.hq = true) (h_regions : M.regions = true) (h_sv : M.sv = true)
    (h_gathers : M.gathers = true) (h_fab : M.fab = true) (h_col : M.col = true) (h_armed : M.armed = true)
    (h_picks : M.picks = true) : ∀ b s t, execBargeEnd b s = .next t → t.mask M = s.mask M := by
  intro b s t h; unfold execBargeEnd at h
  exact State.engine_mask M (fun s => by simp [*]) h

theorem execNapEntry_mask (M : Mask) (h_rst : M.rst = true) (h_regs : M.regs = true) (h_regions : M.regions = true) :
    ∀ r s t, execNapEntry r s = .next t → t.mask M = s.mask M := by
  intro r s t h; unfold execNapEntry at h
  exact State.engine_mask M (fun s => by simp [*]) h

theorem execOffEntry_mask (M : Mask) (h_scratch : M.scratch = true) (h_pool : M.pool = true) (h_marks : M.marks = true)
    (h_regions : M.regions = true) (h_armed : M.armed = true) :
    ∀ r s t, execOffEntry r s = .next t → t.mask M = s.mask M := by
  intro r s t h; unfold execOffEntry at h
  exact State.engine_mask M (fun s => by simp [*]) h

theorem execPreempt_mask (M : Mask) (h_regs : M.regs = true) (h_regions : M.regions = true) (h_sv : M.sv = true) :
    ∀ mask s t, execPreempt mask s = .next t → t.mask M = s.mask M := by
  intro mask s t h; unfold execPreempt at h
  exact State.engine_mask M (fun s => by simp [*]) h

theorem execHold_mask (M : Mask) (h_sv : M.sv = true) :
    ∀ mask s t, execHold mask s = .next t → t.mask M = s.mask M := by
  intro mask s t h; unfold execHold at h
  exact State.engine_mask M (fun s => by simp [*]) h

theorem execRelease_mask (M : Mask) (h_sv : M.sv = true) :
    ∀ mask s t, execRelease mask s = .next t → t.mask M = s.mask M := by
  intro mask s t h; unfold execRelease at h
  exact State.engine_mask M (fun s => by simp [*]) h

theorem execSaveComplete_mask (M : Mask) (h_regs : M.regs = true) (h_ext : M.ext = true) (h_tags : M.tags = true)
    (h_marks : M.marks = true) (h_hq : M.hq = true) (h_regions : M.regions = true) (h_tileErrs : M.tileErrs = true)
    (h_sv : M.sv = true) (h_gathers : M.gathers = true) (h_armed : M.armed = true) :
    ∀ b s t, execSaveComplete b s = .next t → t.mask M = s.mask M := by
  intro b s t h; unfold execSaveComplete at h
  exact State.engine_mask M (fun s => by simp [*]) h

theorem execRestoreComplete_mask (M : Mask) (h_regs : M.regs = true) (h_ext : M.ext = true) (h_tags : M.tags = true)
    (h_scratch : M.scratch = true) (h_pool : M.pool = true) (h_pound : M.pound = true) (h_marks : M.marks = true)
    (h_hq : M.hq = true) (h_regions : M.regions = true) (h_tileErrs : M.tileErrs = true) (h_sv : M.sv = true)
    (h_gathers : M.gathers = true) (h_armed : M.armed = true) :
    ∀ b s t, execRestoreComplete b s = .next t → t.mask M = s.mask M := by
  intro b s t h; unfold execRestoreComplete at h
  exact State.engine_mask M (fun s => by simp [*]) h

theorem execPreemptOverdue_mask (M : Mask) (h_regs : M.regs = true) (h_hq : M.hq = true) (h_sv : M.sv = true) :
    ∀ b s t, execPreemptOverdue b s = .next t → t.mask M = s.mask M := by
  intro b s t h; unfold execPreemptOverdue at h
  exact State.engine_mask M (fun s => by simp [*]) h

theorem execTollRefill_mask (M : Mask) (h_sv : M.sv = true) :
    ∀ s t, execTollRefill s = .next t → t.mask M = s.mask M := by
  intro s t h; unfold execTollRefill at h
  exact State.engine_mask M (fun s => by simp [*]) h

theorem execTollReport_mask (M : Mask) (h_regs : M.regs = true) (h_ext : M.ext = true) (h_tags : M.tags = true)
    (h_hq : M.hq = true) (h_sv : M.sv = true) (h_armed : M.armed = true) :
    ∀ s t, execTollReport s = .next t → t.mask M = s.mask M := by
  intro s t h; unfold execTollReport at h
  exact State.engine_mask M (fun s => by simp [*]) h

theorem execSkewWindowEnd_mask (M : Mask) (h_regs : M.regs = true) (h_ext : M.ext = true) (h_tags : M.tags = true)
    (h_hq : M.hq = true) (h_rows : M.rows = true) (h_armed : M.armed = true) :
    ∀ s t, execSkewWindowEnd s = .next t → t.mask M = s.mask M := by
  intro s t h; unfold execSkewWindowEnd at h
  exact State.engine_mask M (fun s => by simp [*]) h

theorem execFormerExpiry_mask (M : Mask) (h_regs : M.regs = true) (h_ext : M.ext = true) (h_tags : M.tags = true)
    (h_hq : M.hq = true) (h_rows : M.rows = true) (h_armed : M.armed = true) :
    ∀ t_0 s t, execFormerExpiry t_0 s = .next t → t.mask M = s.mask M := by
  intro t_0 s t h; unfold execFormerExpiry at h
  exact State.engine_mask M (fun s => by simp [*]) h

theorem execGoneExpiry_mask (M : Mask) (h_regs : M.regs = true) (h_ext : M.ext = true) (h_tags : M.tags = true)
    (h_hq : M.hq = true) (h_armed : M.armed = true) :
    ∀ table row s t, execGoneExpiry table row s = .next t → t.mask M = s.mask M := by
  intro table row s t h; unfold execGoneExpiry at h
  exact State.engine_mask M (fun s => by simp [*]) h

theorem execProvisionalProbe_mask (M : Mask) (h_regs : M.regs = true) (h_hq : M.hq = true) (h_rows : M.rows = true)
    (h_fab : M.fab = true) : ∀ table row s t, execProvisionalProbe table row s = .next t → t.mask M = s.mask M := by
  intro table row s t h; unfold execProvisionalProbe at h
  exact State.engine_mask M (fun s => by simp [*]) h

theorem execRowRead_mask (M : Mask) (h_regs : M.regs = true) (h_ext : M.ext = true) (h_tags : M.tags = true)
    (h_hq : M.hq = true) (h_rows : M.rows = true) (h_fab : M.fab = true) (h_armed : M.armed = true) :
    ∀ p s t, execRowRead p s = .next t → t.mask M = s.mask M := by
  intro p s t h; unfold execRowRead at h
  exact State.engine_mask M (fun s => by simp [*]) h

theorem execVersionProbe_mask (M : Mask) (h_regs : M.regs = true) (h_ext : M.ext = true) (h_tags : M.tags = true)
    (h_hq : M.hq = true) (h_rows : M.rows = true) (h_fab : M.fab = true) (h_armed : M.armed = true) :
    ∀ p s t, execVersionProbe p s = .next t → t.mask M = s.mask M := by
  intro p s t h; unfold execVersionProbe at h
  exact State.engine_mask M (fun s => by simp [*]) h

theorem execRow_mask (M : Mask) (h_regs : M.regs = true) (h_ext : M.ext = true) (h_tags : M.tags = true)
    (h_scratch : M.scratch = true) (h_pool : M.pool = true) (h_pound : M.pound = true) (h_marks : M.marks = true)
    (h_hq : M.hq = true) (h_regions : M.regions = true) (h_tileErrs : M.tileErrs = true) (h_sv : M.sv = true)
    (h_rows : M.rows = true) (h_gathers : M.gathers = true) (h_fab : M.fab = true) (h_armed : M.armed = true) :
    ∀ p s t, execRow p s = .next t → t.mask M = s.mask M := by
  intro p s t h; unfold execRow at h
  refine State.engine_mask M (fun s => ?_) h; clear h
  try simp only []
  repeat'
    first
    | with_reducible rfl | (simp [*]; done) | refine State.receive_mask M ‹_› ‹_› ‹_› _ _ _ _ (fun s => ?_)
    | refine State.receiveAns_mask M ‹_› ‹_› ‹_› _ _ _ _ (fun s => ?_)
    | refine State.serve_mask M ‹_› ‹_› ‹_› _ _ _ _ _ (fun s => ?_)
    | refine State.respond_mask M ‹_› ‹_› ‹_› _ _ _ (fun s u => ?_)
    | refine State.moveReply_mask M ‹_› ‹_› ‹_› _ _ _ _ (fun s u => ?_)
    | refine State.bell_mask M ‹_› ‹_› ‹_› _ _ _ _ _ (fun s m => ?_) (fun s m => ?_)
    | refine State.bellFromAbove_mask M ‹_› ‹_› ‹_› ‹_› _ _ _ _ (fun s => ?_)
    | refine State.processOp_mask M _ _ _ _ (fun s it => ?_)
    | refine State.rowsStart_mask M ‹_› ‹_› ‹_› ‹_› ‹_› _ _ _ _ (fun s t h => ?_) | split

theorem execCurrent_mask (M : Mask) (h_regs : M.regs = true) (h_ext : M.ext = true) (h_tags : M.tags = true)
    (h_scratch : M.scratch = true) (h_pool : M.pool = true) (h_pound : M.pound = true) (h_marks : M.marks = true)
    (h_hq : M.hq = true) (h_regions : M.regions = true) (h_tileErrs : M.tileErrs = true) (h_sv : M.sv = true)
    (h_rows : M.rows = true) (h_gathers : M.gathers = true) (h_fab : M.fab = true) (h_armed : M.armed = true) :
    ∀ p s t, execCurrent p s = .next t → t.mask M = s.mask M := by
  intro p s t h; unfold execCurrent at h
  refine State.engine_mask M (fun s => ?_) h; clear h
  try simp only []
  repeat'
    first
    | with_reducible rfl | (simp [*]; done) | refine State.receive_mask M ‹_› ‹_› ‹_› _ _ _ _ (fun s => ?_)
    | refine State.receiveAns_mask M ‹_› ‹_› ‹_› _ _ _ _ (fun s => ?_)
    | refine State.serve_mask M ‹_› ‹_› ‹_› _ _ _ _ _ (fun s => ?_)
    | refine State.respond_mask M ‹_› ‹_› ‹_› _ _ _ (fun s u => ?_)
    | refine State.moveReply_mask M ‹_› ‹_› ‹_› _ _ _ _ (fun s u => ?_)
    | refine State.bell_mask M ‹_› ‹_› ‹_› _ _ _ _ _ (fun s m => ?_) (fun s m => ?_)
    | refine State.bellFromAbove_mask M ‹_› ‹_› ‹_› ‹_› _ _ _ _ (fun s => ?_)
    | refine State.processOp_mask M _ _ _ _ (fun s it => ?_)
    | refine State.rowsStart_mask M ‹_› ‹_› ‹_› ‹_› ‹_› _ _ _ _ (fun s t h => ?_) | split

theorem execForward_mask (M : Mask) (h_regs : M.regs = true) (h_ext : M.ext = true) (h_tags : M.tags = true)
    (h_scratch : M.scratch = true) (h_pool : M.pool = true) (h_pound : M.pound = true) (h_marks : M.marks = true)
    (h_hq : M.hq = true) (h_regions : M.regions = true) (h_tileErrs : M.tileErrs = true) (h_sv : M.sv = true)
    (h_rows : M.rows = true) (h_gathers : M.gathers = true) (h_fab : M.fab = true) (h_armed : M.armed = true) :
    ∀ p s t, execForward p s = .next t → t.mask M = s.mask M := by
  intro p s t h; unfold execForward at h
  exact State.engine_mask M (fun s => by simp [*]) h

theorem execNotOwner_mask (M : Mask) (h_regs : M.regs = true) (h_ext : M.ext = true) (h_tags : M.tags = true)
    (h_scratch : M.scratch = true) (h_pool : M.pool = true) (h_pound : M.pound = true) (h_marks : M.marks = true)
    (h_hq : M.hq = true) (h_regions : M.regions = true) (h_tileErrs : M.tileErrs = true) (h_sv : M.sv = true)
    (h_rows : M.rows = true) (h_gathers : M.gathers = true) (h_fab : M.fab = true) (h_armed : M.armed = true) :
    ∀ p s t, execNotOwner p s = .next t → t.mask M = s.mask M := by
  intro p s t h; unfold execNotOwner at h
  refine State.engine_mask M (fun s => ?_) h; clear h
  try simp only []
  repeat'
    first
    | with_reducible rfl | (simp [*]; done) | refine State.receive_mask M ‹_› ‹_› ‹_› _ _ _ _ (fun s => ?_)
    | refine State.receiveAns_mask M ‹_› ‹_› ‹_› _ _ _ _ (fun s => ?_)

theorem execRowUpdate_mask (M : Mask) (h_regs : M.regs = true) (h_ext : M.ext = true) (h_tags : M.tags = true)
    (h_scratch : M.scratch = true) (h_pool : M.pool = true) (h_pound : M.pound = true) (h_marks : M.marks = true)
    (h_hq : M.hq = true) (h_regions : M.regions = true) (h_tileErrs : M.tileErrs = true) (h_rows : M.rows = true)
    (h_fab : M.fab = true) (h_armed : M.armed = true) :
    ∀ p s t, execRowUpdate p s = .next t → t.mask M = s.mask M := by
  intro p s t h; unfold execRowUpdate at h
  exact State.engine_mask M (fun s => by simp [*]) h

theorem execMerged_mask (M : Mask) (h_regs : M.regs = true) (h_ext : M.ext = true) (h_tags : M.tags = true)
    (h_hq : M.hq = true) (h_sv : M.sv = true) (h_rows : M.rows = true) (h_fab : M.fab = true)
    (h_armed : M.armed = true) : ∀ p s t, execMerged p s = .next t → t.mask M = s.mask M := by
  intro p s t h; unfold execMerged at h
  refine State.engine_mask M (fun s => ?_) h; clear h
  try simp only []
  repeat'
    first
    | with_reducible rfl | (simp [*]; done) | refine State.receive_mask M ‹_› ‹_› ‹_› _ _ _ _ (fun s => ?_)
    | refine State.receiveAns_mask M ‹_› ‹_› ‹_› _ _ _ _ (fun s => ?_)
    | refine State.serve_mask M ‹_› ‹_› ‹_› _ _ _ _ _ (fun s => ?_)
    | refine State.respond_mask M ‹_› ‹_› ‹_› _ _ _ (fun s u => ?_)
    | refine State.moveReply_mask M ‹_› ‹_› ‹_› _ _ _ _ (fun s u => ?_)
    | refine State.bell_mask M ‹_› ‹_› ‹_› _ _ _ _ _ (fun s m => ?_) (fun s m => ?_)
    | refine State.bellFromAbove_mask M ‹_› ‹_› ‹_› ‹_› _ _ _ _ (fun s => ?_)
    | refine State.processOp_mask M _ _ _ _ (fun s it => ?_)
    | refine State.rowsStart_mask M ‹_› ‹_› ‹_› ‹_› ‹_› _ _ _ _ (fun s t h => ?_) | split

theorem execStale_mask (M : Mask) (h_regs : M.regs = true) (h_ext : M.ext = true) (h_tags : M.tags = true)
    (h_scratch : M.scratch = true) (h_pool : M.pool = true) (h_pound : M.pound = true) (h_marks : M.marks = true)
    (h_hq : M.hq = true) (h_regions : M.regions = true) (h_tileErrs : M.tileErrs = true) (h_sv : M.sv = true)
    (h_rows : M.rows = true) (h_gathers : M.gathers = true) (h_fab : M.fab = true) (h_armed : M.armed = true) :
    ∀ p s t, execStale p s = .next t → t.mask M = s.mask M := by
  intro p s t h; unfold execStale at h
  refine State.engine_mask M (fun s => ?_) h; clear h
  try simp only []
  repeat'
    first
    | with_reducible rfl | (simp [*]; done) | refine State.receive_mask M ‹_› ‹_› ‹_› _ _ _ _ (fun s => ?_)
    | refine State.receiveAns_mask M ‹_› ‹_› ‹_› _ _ _ _ (fun s => ?_)

theorem execRoute_mask (M : Mask) (h_regs : M.regs = true) (h_ext : M.ext = true) (h_tags : M.tags = true)
    (h_hq : M.hq = true) (h_rows : M.rows = true) (h_fab : M.fab = true) (h_armed : M.armed = true) :
    ∀ p s t, execRoute p s = .next t → t.mask M = s.mask M := by
  intro p s t h; unfold execRoute at h
  exact State.engine_mask M (fun s => by simp [*]) h

theorem execRowOffer_mask (M : Mask) (h_regs : M.regs = true) (h_ext : M.ext = true) (h_tags : M.tags = true)
    (h_hq : M.hq = true) (h_rows : M.rows = true) (h_fab : M.fab = true) (h_armed : M.armed = true) :
    ∀ p s t, execRowOffer p s = .next t → t.mask M = s.mask M := by
  intro p s t h; unfold execRowOffer at h
  exact State.engine_mask M (fun s => by simp [*]) h

theorem execState_mask (M : Mask) (h_regs : M.regs = true) (h_ext : M.ext = true) (h_tags : M.tags = true)
    (h_hq : M.hq = true) (h_rows : M.rows = true) (h_fab : M.fab = true) (h_armed : M.armed = true) :
    ∀ p s t, execState p s = .next t → t.mask M = s.mask M := by
  intro p s t h; unfold execState at h
  exact State.engine_mask M (fun s => by simp [*]) h

theorem execMoveConfirm_mask (M : Mask) (h_regs : M.regs = true) (h_ext : M.ext = true) (h_tags : M.tags = true)
    (h_hq : M.hq = true) (h_rows : M.rows = true) (h_fab : M.fab = true) (h_armed : M.armed = true) :
    ∀ p s t, execMoveConfirm p s = .next t → t.mask M = s.mask M := by
  intro p s t h; unfold execMoveConfirm at h
  exact State.engine_mask M (fun s => by simp [*]) h

theorem execQuery_mask (M : Mask) (h_regs : M.regs = true) (h_hq : M.hq = true) (h_rows : M.rows = true)
    (h_fab : M.fab = true) : ∀ p s t, execQuery p s = .next t → t.mask M = s.mask M := by
  intro p s t h; unfold execQuery at h
  exact State.engine_mask M (fun s => by simp [*]) h

theorem execAccept_mask (M : Mask) (h_regs : M.regs = true) (h_ext : M.ext = true) (h_tags : M.tags = true)
    (h_marks : M.marks = true) (h_hq : M.hq = true) (h_tileErrs : M.tileErrs = true) (h_rows : M.rows = true)
    (h_fab : M.fab = true) (h_armed : M.armed = true) (h_picks : M.picks = true) :
    ∀ p s t, execAccept p s = .next t → t.mask M = s.mask M := by
  intro p s t h; unfold execAccept at h
  refine State.engine_mask M (fun s => ?_) h; clear h
  try simp only []
  repeat'
    first
    | with_reducible rfl | (simp [*]; done) | refine State.receive_mask M ‹_› ‹_› ‹_› _ _ _ _ (fun s => ?_)
    | refine State.receiveAns_mask M ‹_› ‹_› ‹_› _ _ _ _ (fun s => ?_)
    | refine State.serve_mask M ‹_› ‹_› ‹_› _ _ _ _ _ (fun s => ?_)
    | refine State.respond_mask M ‹_› ‹_› ‹_› _ _ _ (fun s u => ?_)
    | refine State.moveReply_mask M ‹_› ‹_› ‹_› _ _ _ _ (fun s u => ?_)
    | refine State.bell_mask M ‹_› ‹_› ‹_› _ _ _ _ _ (fun s m => ?_) (fun s m => ?_)
    | refine State.bellFromAbove_mask M ‹_› ‹_› ‹_› ‹_› _ _ _ _ (fun s => ?_)
    | refine State.processOp_mask M _ _ _ _ (fun s it => ?_)
    | refine State.rowsStart_mask M ‹_› ‹_› ‹_› ‹_› ‹_› _ _ _ _ (fun s t h => ?_) | split

theorem execRefuse_mask (M : Mask) (h_regs : M.regs = true) (h_ext : M.ext = true) (h_tags : M.tags = true)
    (h_hq : M.hq = true) (h_rows : M.rows = true) (h_fab : M.fab = true) (h_armed : M.armed = true) :
    ∀ p s t, execRefuse p s = .next t → t.mask M = s.mask M := by
  intro p s t h; unfold execRefuse at h
  refine State.engine_mask M (fun s => ?_) h; clear h
  try simp only []
  repeat'
    first
    | with_reducible rfl | (simp [*]; done) | refine State.receive_mask M ‹_› ‹_› ‹_› _ _ _ _ (fun s => ?_)
    | refine State.receiveAns_mask M ‹_› ‹_› ‹_› _ _ _ _ (fun s => ?_)
    | refine State.serve_mask M ‹_› ‹_› ‹_› _ _ _ _ _ (fun s => ?_)
    | refine State.respond_mask M ‹_› ‹_› ‹_› _ _ _ (fun s u => ?_)
    | refine State.moveReply_mask M ‹_› ‹_› ‹_› _ _ _ _ (fun s u => ?_)
    | refine State.bell_mask M ‹_› ‹_› ‹_› _ _ _ _ _ (fun s m => ?_) (fun s m => ?_)
    | refine State.bellFromAbove_mask M ‹_› ‹_› ‹_› ‹_› _ _ _ _ (fun s => ?_)
    | refine State.processOp_mask M _ _ _ _ (fun s it => ?_)
    | refine State.rowsStart_mask M ‹_› ‹_› ‹_› ‹_› ‹_› _ _ _ _ (fun s t h => ?_) | split

theorem execStored_mask (M : Mask) (h_regs : M.regs = true) (h_hq : M.hq = true) (h_rows : M.rows = true)
    (h_fab : M.fab = true) : ∀ p s t, execStored p s = .next t → t.mask M = s.mask M := by
  intro p s t h; unfold execStored at h
  refine State.engine_mask M (fun s => ?_) h; clear h
  try simp only []
  repeat'
    first
    | with_reducible rfl | (simp [*]; done) | refine State.receive_mask M ‹_› ‹_› ‹_› _ _ _ _ (fun s => ?_)
    | refine State.receiveAns_mask M ‹_› ‹_› ‹_› _ _ _ _ (fun s => ?_)
    | refine State.serve_mask M ‹_› ‹_› ‹_› _ _ _ _ _ (fun s => ?_)
    | refine State.respond_mask M ‹_› ‹_› ‹_› _ _ _ (fun s u => ?_)
    | refine State.moveReply_mask M ‹_› ‹_› ‹_› _ _ _ _ (fun s u => ?_)
    | refine State.bell_mask M ‹_› ‹_› ‹_› _ _ _ _ _ (fun s m => ?_) (fun s m => ?_)
    | refine State.bellFromAbove_mask M ‹_› ‹_› ‹_› ‹_› _ _ _ _ (fun s => ?_)
    | refine State.processOp_mask M _ _ _ _ (fun s it => ?_)
    | refine State.rowsStart_mask M ‹_› ‹_› ‹_› ‹_› ‹_› _ _ _ _ (fun s t h => ?_) | split

theorem execHeld_mask (M : Mask) (h_regs : M.regs = true) (h_ext : M.ext = true) (h_tags : M.tags = true)
    (h_hq : M.hq = true) (h_rows : M.rows = true) (h_fab : M.fab = true) (h_armed : M.armed = true) :
    ∀ p s t, execHeld p s = .next t → t.mask M = s.mask M := by
  intro p s t h; unfold execHeld at h
  refine State.engine_mask M (fun s => ?_) h; clear h
  try simp only []
  repeat'
    first
    | with_reducible rfl | (simp [*]; done) | refine State.receive_mask M ‹_› ‹_› ‹_› _ _ _ _ (fun s => ?_)
    | refine State.receiveAns_mask M ‹_› ‹_› ‹_› _ _ _ _ (fun s => ?_)
    | refine State.serve_mask M ‹_› ‹_› ‹_› _ _ _ _ _ (fun s => ?_)
    | refine State.respond_mask M ‹_› ‹_› ‹_› _ _ _ (fun s u => ?_)
    | refine State.moveReply_mask M ‹_› ‹_› ‹_› _ _ _ _ (fun s u => ?_)
    | refine State.bell_mask M ‹_› ‹_› ‹_› _ _ _ _ _ (fun s m => ?_) (fun s m => ?_)
    | refine State.bellFromAbove_mask M ‹_› ‹_› ‹_› ‹_› _ _ _ _ (fun s => ?_)
    | refine State.processOp_mask M _ _ _ _ (fun s it => ?_)
    | refine State.rowsStart_mask M ‹_› ‹_› ‹_› ‹_› ‹_› _ _ _ _ (fun s t h => ?_) | split

theorem execNotHeld_mask (M : Mask) (h_regs : M.regs = true) (h_ext : M.ext = true) (h_tags : M.tags = true)
    (h_hq : M.hq = true) (h_rows : M.rows = true) (h_fab : M.fab = true) (h_armed : M.armed = true) :
    ∀ p s t, execNotHeld p s = .next t → t.mask M = s.mask M := by
  intro p s t h; unfold execNotHeld at h
  refine State.engine_mask M (fun s => ?_) h; clear h
  try simp only []
  repeat'
    first
    | with_reducible rfl | (simp [*]; done) | refine State.receive_mask M ‹_› ‹_› ‹_› _ _ _ _ (fun s => ?_)
    | refine State.receiveAns_mask M ‹_› ‹_› ‹_› _ _ _ _ (fun s => ?_)
    | refine State.serve_mask M ‹_› ‹_› ‹_› _ _ _ _ _ (fun s => ?_)
    | refine State.respond_mask M ‹_› ‹_› ‹_› _ _ _ (fun s u => ?_)
    | refine State.moveReply_mask M ‹_› ‹_› ‹_› _ _ _ _ (fun s u => ?_)
    | refine State.bell_mask M ‹_› ‹_› ‹_› _ _ _ _ _ (fun s m => ?_) (fun s m => ?_)
    | refine State.bellFromAbove_mask M ‹_› ‹_› ‹_› ‹_› _ _ _ _ (fun s => ?_)
    | refine State.processOp_mask M _ _ _ _ (fun s it => ?_)
    | refine State.rowsStart_mask M ‹_› ‹_› ‹_› ‹_› ‹_› _ _ _ _ (fun s t h => ?_) | split

theorem execRead_mask (M : Mask) (h_regs : M.regs = true) (h_hq : M.hq = true) (h_fab : M.fab = true) :
    ∀ p s t, execRead p s = .next t → t.mask M = s.mask M := by
  intro p s t h; unfold execRead at h
  refine State.engine_mask M (fun s => ?_) h
  refine State.receive_mask M ‹_› ‹_› ‹_› _ _ _ _ (fun s => ?_)
  refine State.serve_mask M ‹_› ‹_› ‹_› _ _ _ _ _ (fun s => ?_)
  simp [*]

theorem execWrite_mask (M : Mask) (h_regs : M.regs = true) (h_ext : M.ext = true) (h_tags : M.tags = true)
    (h_hq : M.hq = true) (h_fab : M.fab = true) (h_armed : M.armed = true) :
    ∀ p s t, execWrite p s = .next t → t.mask M = s.mask M := by
  intro p s t h; unfold execWrite at h
  refine State.engine_mask M (fun s => ?_) h
  refine State.receive_mask M ‹_› ‹_› ‹_› _ _ _ _ (fun s => ?_)
  refine State.serve_mask M ‹_› ‹_› ‹_› _ _ _ _ _ (fun s => ?_)
  simp [*]

theorem execFetchAdd_mask (M : Mask) (h_regs : M.regs = true) (h_ext : M.ext = true) (h_tags : M.tags = true)
    (h_hq : M.hq = true) (h_fab : M.fab = true) (h_armed : M.armed = true) :
    ∀ p s t, execFetchAdd p s = .next t → t.mask M = s.mask M := by
  intro p s t h; unfold execFetchAdd at h
  refine State.engine_mask M (fun s => ?_) h
  refine State.receive_mask M ‹_› ‹_› ‹_› _ _ _ _ (fun s => ?_)
  refine State.serve_mask M ‹_› ‹_› ‹_› _ _ _ _ _ (fun s => ?_)
  simp [*]

theorem execTest_mask (M : Mask) (h_regs : M.regs = true) (h_hq : M.hq = true) (h_fab : M.fab = true) :
    ∀ p s t, execTest p s = .next t → t.mask M = s.mask M := by
  intro p s t h; unfold execTest at h
  exact State.engine_mask M (fun s => by simp [*]) h

theorem execResponse_mask (M : Mask) (h_regs : M.regs = true) (h_ext : M.ext = true) (h_tags : M.tags = true)
    (h_marks : M.marks = true) (h_hq : M.hq = true) (h_sv : M.sv = true) (h_gathers : M.gathers = true)
    (h_fab : M.fab = true) (h_armed : M.armed = true) :
    ∀ p s t, execResponse p s = .next t → t.mask M = s.mask M := by
  intro p s t h; unfold execResponse at h
  refine State.engine_mask M (fun s => ?_) h
  refine State.receive_mask M ‹_› ‹_› ‹_› _ _ _ _ (fun s => ?_)
  refine State.respond_mask M ‹_› ‹_› ‹_› _ _ _ (fun s u => ?_)
  split
  · split <;> simp [*]
  · rfl

theorem execPacketForward_mask (M : Mask) (h_regs : M.regs = true) (h_hq : M.hq = true) (h_fab : M.fab = true) :
    ∀ port p s t, execPacketForward port p s = .next t → t.mask M = s.mask M := by
  intro port p s t h; unfold execPacketForward at h
  exact State.engine_mask M (fun s => by simp [*]) h

theorem execTransactionTimeout_mask (M : Mask) (h_regs : M.regs = true) (h_ext : M.ext = true) (h_tags : M.tags = true)
    (h_scratch : M.scratch = true) (h_pool : M.pool = true) (h_pound : M.pound = true) (h_marks : M.marks = true)
    (h_hq : M.hq = true) (h_regions : M.regions = true) (h_tileErrs : M.tileErrs = true) (h_sv : M.sv = true)
    (h_rows : M.rows = true) (h_gathers : M.gathers = true) (h_fab : M.fab = true) (h_armed : M.armed = true) :
    ∀ tag s t, execTransactionTimeout tag s = .next t → t.mask M = s.mask M := by
  intro tag s t h; unfold execTransactionTimeout at h
  exact State.engine_mask M (fun s => by simp [*]) h

theorem execTagQuarantineExpiry_mask (M : Mask) (h_regs : M.regs = true) (h_hq : M.hq = true) (h_fab : M.fab = true) :
    ∀ tag s t, execTagQuarantineExpiry tag s = .next t → t.mask M = s.mask M := by
  intro tag s t h; unfold execTagQuarantineExpiry at h
  exact State.engine_mask M (fun s => by simp [*]) h

theorem execHeldRequestDiscard_mask (M : Mask) (h_regs : M.regs = true) (h_regions : M.regions = true)
    (h_fab : M.fab = true) : ∀ k s t, execHeldRequestDiscard k s = .next t → t.mask M = s.mask M := by
  intro k s t h; unfold execHeldRequestDiscard at h
  exact State.engine_mask M (fun s => by simp [*]) h

theorem execData_mask (M : Mask) (h_regs : M.regs = true) (h_hq : M.hq = true) (h_fab : M.fab = true) :
    ∀ port flit mark s t, execData port flit mark s = .next t → t.mask M = s.mask M := by
  intro port flit mark s t h; unfold execData at h
  exact State.engine_mask M (fun s => by simp [*]) h

theorem execNak_mask (M : Mask) (h_regs : M.regs = true) (h_hq : M.hq = true) (h_fab : M.fab = true) :
    ∀ port flit s t, execNak port flit s = .next t → t.mask M = s.mask M := by
  intro port flit s t h; unfold execNak at h
  exact State.engine_mask M (fun s => by simp [*]) h

theorem execCredit_mask (M : Mask) (h_regs : M.regs = true) (h_fab : M.fab = true) :
    ∀ port flit s t, execCredit port flit s = .next t → t.mask M = s.mask M := by
  intro port flit s t h; unfold execCredit at h
  exact State.engine_mask M (fun s => by simp [*]) h

theorem execIdle_mask (M : Mask) (h_regs : M.regs = true) (h_fab : M.fab = true) :
    ∀ port flit s t, execIdle port flit s = .next t → t.mask M = s.mask M := by
  intro port flit s t h; unfold execIdle at h
  exact State.engine_mask M (fun s => by simp [*]) h

theorem execLinkInit_mask (M : Mask) (h_regs : M.regs = true) (h_hq : M.hq = true) (h_fab : M.fab = true) :
    ∀ port flit s t, execLinkInit port flit s = .next t → t.mask M = s.mask M := by
  intro port flit s t h; unfold execLinkInit at h
  exact State.engine_mask M (fun s => by simp [*]) h

theorem execReplayTimeout_mask (M : Mask) (h_regs : M.regs = true) (h_hq : M.hq = true) (h_fab : M.fab = true) :
    ∀ port s t, execReplayTimeout port s = .next t → t.mask M = s.mask M := by
  intro port s t h; unfold execReplayTimeout at h
  exact State.engine_mask M (fun s => by simp [*]) h

theorem execPcsLock_mask (M : Mask) (h_fab : M.fab = true) :
    ∀ port s t, execPcsLock port s = .next t → t.mask M = s.mask M := by
  intro port s t h; unfold execPcsLock at h
  exact State.engine_mask M (fun s => by simp [*]) h

theorem execPcsLockLoss_mask (M : Mask) (h_regs : M.regs = true) (h_hq : M.hq = true) (h_fab : M.fab = true) :
    ∀ port s t, execPcsLockLoss port s = .next t → t.mask M = s.mask M := by
  intro port s t h; unfold execPcsLockLoss at h
  exact State.engine_mask M (fun s => by simp [*]) h

theorem execRetrainRelease_mask (M : Mask) (h_fab : M.fab = true) :
    ∀ port s t, execRetrainRelease port s = .next t → t.mask M = s.mask M := by
  intro port s t h; unfold execRetrainRelease at h
  exact State.engine_mask M (fun s => by simp [*]) h

theorem execArrive_mask (M : Mask) (h_regs : M.regs = true) (h_hq : M.hq = true) (h_fab : M.fab = true)
    (h_col : M.col = true) (h_picks : M.picks = true) : ∀ p s t, execArrive p s = .next t → t.mask M = s.mask M := by
  intro p s t h; unfold execArrive at h
  exact State.engine_mask M (fun s => by simp [*]) h

theorem execGrant_mask (M : Mask) (h_regs : M.regs = true) (h_ext : M.ext = true) (h_tags : M.tags = true)
    (h_scratch : M.scratch = true) (h_pool : M.pool = true) (h_pound : M.pound = true) (h_marks : M.marks = true)
    (h_hq : M.hq = true) (h_tileErrs : M.tileErrs = true) (h_sv : M.sv = true) (h_fab : M.fab = true)
    (h_col : M.col = true) (h_armed : M.armed = true) (h_picks : M.picks = true) :
    ∀ p s t, execGrant p s = .next t → t.mask M = s.mask M := by
  intro p s t h; unfold execGrant at h
  refine State.engine_mask M (fun s => ?_) h; clear h
  try simp only []
  repeat'
    first
    | with_reducible rfl | (simp [*]; done) | refine State.receive_mask M ‹_› ‹_› ‹_› _ _ _ _ (fun s => ?_)
    | refine State.receiveAns_mask M ‹_› ‹_› ‹_› _ _ _ _ (fun s => ?_)
    | refine State.serve_mask M ‹_› ‹_› ‹_› _ _ _ _ _ (fun s => ?_)
    | refine State.respond_mask M ‹_› ‹_› ‹_› _ _ _ (fun s u => ?_)
    | refine State.moveReply_mask M ‹_› ‹_› ‹_› _ _ _ _ (fun s u => ?_)
    | refine State.bell_mask M ‹_› ‹_› ‹_› _ _ _ _ _ (fun s m => ?_) (fun s m => ?_)

theorem execOffer_mask (M : Mask) (h_regs : M.regs = true) (h_hq : M.hq = true) (h_fab : M.fab = true)
    (h_col : M.col = true) (h_picks : M.picks = true) : ∀ p s t, execOffer p s = .next t → t.mask M = s.mask M := by
  intro p s t h; unfold execOffer at h
  exact State.engine_mask M (fun s => by simp [*]) h

theorem execSegment_mask (M : Mask) (h_regs : M.regs = true) (h_ext : M.ext = true) (h_tags : M.tags = true)
    (h_scratch : M.scratch = true) (h_pool : M.pool = true) (h_pound : M.pound = true) (h_marks : M.marks = true)
    (h_hq : M.hq = true) (h_tileErrs : M.tileErrs = true) (h_sv : M.sv = true) (h_gathers : M.gathers = true)
    (h_fab : M.fab = true) (h_col : M.col = true) (h_armed : M.armed = true) (h_picks : M.picks = true) :
    ∀ p s t, execSegment p s = .next t → t.mask M = s.mask M := by
  intro p s t h; unfold execSegment at h
  refine State.engine_mask M (fun s => ?_) h; clear h
  try simp only []
  repeat'
    first
    | with_reducible rfl | (simp [*]; done) | refine State.receive_mask M ‹_› ‹_› ‹_› _ _ _ _ (fun s => ?_)
    | refine State.receiveAns_mask M ‹_› ‹_› ‹_› _ _ _ _ (fun s => ?_)
    | refine State.serve_mask M ‹_› ‹_› ‹_› _ _ _ _ _ (fun s => ?_)
    | refine State.respond_mask M ‹_› ‹_› ‹_› _ _ _ (fun s u => ?_)
    | refine State.moveReply_mask M ‹_› ‹_› ‹_› _ _ _ _ (fun s u => ?_)
    | refine State.bell_mask M ‹_› ‹_› ‹_› _ _ _ _ _ (fun s m => ?_) (fun s m => ?_)

theorem execBellBarrier_mask (M : Mask) (h_regs : M.regs = true) (h_ext : M.ext = true) (h_tags : M.tags = true)
    (h_scratch : M.scratch = true) (h_pool : M.pool = true) (h_pound : M.pound = true) (h_marks : M.marks = true)
    (h_hq : M.hq = true) (h_tileErrs : M.tileErrs = true) (h_sv : M.sv = true) (h_rows : M.rows = true)
    (h_fab : M.fab = true) (h_col : M.col = true) (h_armed : M.armed = true) (h_picks : M.picks = true) :
    ∀ p s t, execBellBarrier p s = .next t → t.mask M = s.mask M := by
  intro p s t h; unfold execBellBarrier at h
  refine State.engine_mask M (fun s => ?_) h; clear h
  try simp only []
  repeat'
    first
    | with_reducible rfl | (simp [*]; done) | refine State.receive_mask M ‹_› ‹_› ‹_› _ _ _ _ (fun s => ?_)
    | refine State.receiveAns_mask M ‹_› ‹_› ‹_› _ _ _ _ (fun s => ?_)
    | refine State.serve_mask M ‹_› ‹_› ‹_› _ _ _ _ _ (fun s => ?_)
    | refine State.respond_mask M ‹_› ‹_› ‹_› _ _ _ (fun s u => ?_)
    | refine State.moveReply_mask M ‹_› ‹_› ‹_› _ _ _ _ (fun s u => ?_)
    | refine State.bell_mask M ‹_› ‹_› ‹_› _ _ _ _ _ (fun s m => ?_) (fun s m => ?_)
    | refine State.bellFromAbove_mask M ‹_› ‹_› ‹_› ‹_› _ _ _ _ (fun s => ?_)

theorem execScalar_mask (M : Mask) (h_regs : M.regs = true) (h_ext : M.ext = true) (h_tags : M.tags = true)
    (h_scratch : M.scratch = true) (h_pool : M.pool = true) (h_pound : M.pound = true) (h_marks : M.marks = true)
    (h_hq : M.hq = true) (h_tileErrs : M.tileErrs = true) (h_sv : M.sv = true) (h_fab : M.fab = true)
    (h_col : M.col = true) (h_armed : M.armed = true) (h_picks : M.picks = true) :
    ∀ p s t, execScalar p s = .next t → t.mask M = s.mask M := by
  intro p s t h; unfold execScalar at h
  refine State.engine_mask M (fun s => ?_) h; clear h
  try simp only []
  repeat'
    first
    | with_reducible rfl | (simp [*]; done) | refine State.receive_mask M ‹_› ‹_› ‹_› _ _ _ _ (fun s => ?_)
    | refine State.receiveAns_mask M ‹_› ‹_› ‹_› _ _ _ _ (fun s => ?_)
    | refine State.serve_mask M ‹_› ‹_› ‹_› _ _ _ _ _ (fun s => ?_)
    | refine State.respond_mask M ‹_› ‹_› ‹_› _ _ _ (fun s u => ?_)
    | refine State.moveReply_mask M ‹_› ‹_› ‹_› _ _ _ _ (fun s u => ?_)
    | refine State.bell_mask M ‹_› ‹_› ‹_› _ _ _ _ _ (fun s m => ?_) (fun s m => ?_)

theorem execBellSeal_mask (M : Mask) (h_regs : M.regs = true) (h_ext : M.ext = true) (h_tags : M.tags = true)
    (h_scratch : M.scratch = true) (h_pool : M.pool = true) (h_pound : M.pound = true) (h_marks : M.marks = true)
    (h_hq : M.hq = true) (h_tileErrs : M.tileErrs = true) (h_sv : M.sv = true) (h_gathers : M.gathers = true)
    (h_fab : M.fab = true) (h_col : M.col = true) (h_armed : M.armed = true) (h_picks : M.picks = true) :
    ∀ p s t, execBellSeal p s = .next t → t.mask M = s.mask M := by
  intro p s t h; unfold execBellSeal at h
  refine State.engine_mask M (fun s => ?_) h; clear h
  try simp only []
  repeat'
    first
    | with_reducible rfl | (simp [*]; done) | refine State.receive_mask M ‹_› ‹_› ‹_› _ _ _ _ (fun s => ?_)
    | refine State.receiveAns_mask M ‹_› ‹_› ‹_› _ _ _ _ (fun s => ?_)
    | refine State.serve_mask M ‹_› ‹_› ‹_› _ _ _ _ _ (fun s => ?_)
    | refine State.respond_mask M ‹_› ‹_› ‹_› _ _ _ (fun s u => ?_)
    | refine State.moveReply_mask M ‹_› ‹_› ‹_› _ _ _ _ (fun s u => ?_)
    | refine State.bell_mask M ‹_› ‹_› ‹_› _ _ _ _ _ (fun s m => ?_) (fun s m => ?_)

theorem execAbort_mask (M : Mask) (h_regs : M.regs = true) (h_ext : M.ext = true) (h_tags : M.tags = true)
    (h_marks : M.marks = true) (h_hq : M.hq = true) (h_sv : M.sv = true) (h_gathers : M.gathers = true)
    (h_fab : M.fab = true) (h_col : M.col = true) (h_armed : M.armed = true) :
    ∀ p s t, execAbort p s = .next t → t.mask M = s.mask M := by
  intro p s t h; unfold execAbort at h
  refine State.engine_mask M (fun s => ?_) h; clear h
  try simp only []
  repeat'
    first
    | with_reducible rfl | (simp [*]; done) | refine State.receive_mask M ‹_› ‹_› ‹_› _ _ _ _ (fun s => ?_)
    | refine State.receiveAns_mask M ‹_› ‹_› ‹_› _ _ _ _ (fun s => ?_)
    | refine State.serve_mask M ‹_› ‹_› ‹_› _ _ _ _ _ (fun s => ?_)
    | refine State.respond_mask M ‹_› ‹_› ‹_› _ _ _ (fun s u => ?_)
    | refine State.moveReply_mask M ‹_› ‹_› ‹_› _ _ _ _ (fun s u => ?_)
    | refine State.bell_mask M ‹_› ‹_› ‹_› _ _ _ _ _ (fun s m => ?_) (fun s m => ?_)

theorem execAbandon_mask (M : Mask) (h_regs : M.regs = true) (h_hq : M.hq = true) (h_fab : M.fab = true)
    (h_col : M.col = true) (h_picks : M.picks = true) : ∀ p s t, execAbandon p s = .next t → t.mask M = s.mask M := by
  intro p s t h; unfold execAbandon at h
  exact State.engine_mask M (fun s => by simp [*]) h

theorem execCollPiece_mask (M : Mask) (h_regs : M.regs = true) (h_ext : M.ext = true) (h_tags : M.tags = true)
    (h_scratch : M.scratch = true) (h_pool : M.pool = true) (h_pound : M.pound = true) (h_marks : M.marks = true)
    (h_hq : M.hq = true) (h_tileErrs : M.tileErrs = true) (h_sv : M.sv = true) (h_fab : M.fab = true)
    (h_col : M.col = true) (h_armed : M.armed = true) (h_picks : M.picks = true) :
    ∀ p s t, execCollPiece p s = .next t → t.mask M = s.mask M := by
  intro p s t h; unfold execCollPiece at h
  exact State.engine_mask M (fun s => by simp [*]) h

theorem execPieceTimeout_mask (M : Mask) (h_regs : M.regs = true) (h_ext : M.ext = true) (h_tags : M.tags = true)
    (h_scratch : M.scratch = true) (h_pool : M.pool = true) (h_pound : M.pound = true) (h_marks : M.marks = true)
    (h_hq : M.hq = true) (h_tileErrs : M.tileErrs = true) (h_sv : M.sv = true) (h_fab : M.fab = true)
    (h_col : M.col = true) (h_armed : M.armed = true) (h_picks : M.picks = true) :
    ∀ ctx s t, execPieceTimeout ctx s = .next t → t.mask M = s.mask M := by
  intro ctx s t h; unfold execPieceTimeout at h
  exact State.engine_mask M (fun s => by simp [*]) h

theorem execSealTimeout_mask (M : Mask) (h_regs : M.regs = true) (h_hq : M.hq = true) (h_fab : M.fab = true)
    (h_col : M.col = true) : ∀ level seq s t, execSealTimeout level seq s = .next t → t.mask M = s.mask M := by
  intro level seq s t h; unfold execSealTimeout at h
  exact State.engine_mask M (fun s => by simp [*]) h

theorem execBellResend_mask (M : Mask) (h_regs : M.regs = true) (h_hq : M.hq = true) (h_fab : M.fab = true)
    (h_col : M.col = true) : ∀ k s t, execBellResend k s = .next t → t.mask M = s.mask M := by
  intro k s t h; unfold execBellResend at h
  exact State.engine_mask M (fun s => by simp [*]) h

theorem execCollLimitExpiry_mask (M : Mask) (h_regs : M.regs = true) (h_ext : M.ext = true) (h_tags : M.tags = true)
    (h_marks : M.marks = true) (h_hq : M.hq = true) (h_sv : M.sv = true) (h_gathers : M.gathers = true)
    (h_fab : M.fab = true) (h_col : M.col = true) (h_armed : M.armed = true) (h_picks : M.picks = true) :
    ∀ b i s t, execCollLimitExpiry b i s = .next t → t.mask M = s.mask M := by
  intro b i s t h; unfold execCollLimitExpiry at h
  exact State.engine_mask M (fun s => by simp [*]) h

theorem execPowerOn_mask (M : Mask) (h_rst : M.rst = true) (h_regs : M.regs = true) (h_ext : M.ext = true)
    (h_tags : M.tags = true) (h_hostMem : M.hostMem = true) (h_scratch : M.scratch = true) (h_pool : M.pool = true)
    (h_pound : M.pound = true) (h_marks : M.marks = true) (h_imem : M.imem = true) (h_hq : M.hq = true)
    (h_regions : M.regions = true) (h_tileErrs : M.tileErrs = true) (h_errWindowFrom : M.errWindowFrom = true)
    (h_sv : M.sv = true) (h_rows : M.rows = true) (h_gathers : M.gathers = true) (h_fab : M.fab = true)
    (h_col : M.col = true) (h_tap : M.tap = true) (h_port : M.port = true) (h_armed : M.armed = true)
    (h_memCounts : M.memCounts = true) : ∀ s t, execPowerOn s = .next t → t.mask M = s.mask M := by
  intro s t h; unfold execPowerOn at h
  cases h; simp [*]

theorem execBrownOut_mask (M : Mask) (h_rst : M.rst = true) (h_regs : M.regs = true) (h_ext : M.ext = true)
    (h_tags : M.tags = true) (h_hostMem : M.hostMem = true) (h_scratch : M.scratch = true) (h_pool : M.pool = true)
    (h_pound : M.pound = true) (h_marks : M.marks = true) (h_imem : M.imem = true) (h_hq : M.hq = true)
    (h_regions : M.regions = true) (h_tileErrs : M.tileErrs = true) (h_errWindowFrom : M.errWindowFrom = true)
    (h_sv : M.sv = true) (h_rows : M.rows = true) (h_gathers : M.gathers = true) (h_fab : M.fab = true)
    (h_col : M.col = true) (h_tap : M.tap = true) (h_port : M.port = true) (h_armed : M.armed = true)
    (h_memCounts : M.memCounts = true) : ∀ s t, execBrownOut s = .next t → t.mask M = s.mask M := by
  intro s t h; unfold execBrownOut at h
  cases h; simp [*]

theorem execPinReset_mask (M : Mask) (h_rst : M.rst = true) (h_regs : M.regs = true) (h_ext : M.ext = true)
    (h_tags : M.tags = true) (h_hostMem : M.hostMem = true) (h_scratch : M.scratch = true) (h_pool : M.pool = true)
    (h_pound : M.pound = true) (h_marks : M.marks = true) (h_imem : M.imem = true) (h_hq : M.hq = true)
    (h_regions : M.regions = true) (h_tileErrs : M.tileErrs = true) (h_errWindowFrom : M.errWindowFrom = true)
    (h_sv : M.sv = true) (h_rows : M.rows = true) (h_gathers : M.gathers = true) (h_fab : M.fab = true)
    (h_col : M.col = true) (h_tap : M.tap = true) (h_port : M.port = true) (h_armed : M.armed = true)
    (h_memCounts : M.memCounts = true) : ∀ s t, execPinReset s = .next t → t.mask M = s.mask M := by
  intro s t h; unfold execPinReset at h
  cases h; simp [*]

theorem execWatchdog_mask (M : Mask) (h_rst : M.rst = true) (h_regs : M.regs = true) (h_ext : M.ext = true)
    (h_tags : M.tags = true) (h_hostMem : M.hostMem = true) (h_scratch : M.scratch = true) (h_pool : M.pool = true)
    (h_pound : M.pound = true) (h_marks : M.marks = true) (h_imem : M.imem = true) (h_hq : M.hq = true)
    (h_regions : M.regions = true) (h_tileErrs : M.tileErrs = true) (h_errWindowFrom : M.errWindowFrom = true)
    (h_sv : M.sv = true) (h_rows : M.rows = true) (h_gathers : M.gathers = true) (h_fab : M.fab = true)
    (h_col : M.col = true) (h_tap : M.tap = true) (h_port : M.port = true) (h_armed : M.armed = true)
    (h_memCounts : M.memCounts = true) : ∀ s t, execWatchdog s = .next t → t.mask M = s.mask M := by
  intro s t h; unfold execWatchdog at h
  cases h; simp [*]

theorem execSwReset_mask (M : Mask) (h_rst : M.rst = true) (h_regs : M.regs = true) (h_ext : M.ext = true)
    (h_tags : M.tags = true) (h_hostMem : M.hostMem = true) (h_scratch : M.scratch = true) (h_pool : M.pool = true)
    (h_pound : M.pound = true) (h_marks : M.marks = true) (h_imem : M.imem = true) (h_hq : M.hq = true)
    (h_regions : M.regions = true) (h_tileErrs : M.tileErrs = true) (h_errWindowFrom : M.errWindowFrom = true)
    (h_sv : M.sv = true) (h_rows : M.rows = true) (h_gathers : M.gathers = true) (h_fab : M.fab = true)
    (h_col : M.col = true) (h_tap : M.tap = true) (h_port : M.port = true) (h_armed : M.armed = true)
    (h_memCounts : M.memCounts = true) : ∀ data s t, execSwReset data s = .next t → t.mask M = s.mask M := by
  intro data s t h; unfold execSwReset at h
  exact State.always_mask M (fun s => by simp [*]) h

theorem execEngReset_mask (M : Mask) (h_rst : M.rst = true) (h_regs : M.regs = true) (h_ext : M.ext = true)
    (h_tags : M.tags = true) (h_hostMem : M.hostMem = true) (h_scratch : M.scratch = true) (h_pool : M.pool = true)
    (h_pound : M.pound = true) (h_marks : M.marks = true) (h_imem : M.imem = true) (h_hq : M.hq = true)
    (h_regions : M.regions = true) (h_tileErrs : M.tileErrs = true) (h_errWindowFrom : M.errWindowFrom = true)
    (h_sv : M.sv = true) (h_rows : M.rows = true) (h_gathers : M.gathers = true) (h_fab : M.fab = true)
    (h_col : M.col = true) (h_tap : M.tap = true) (h_port : M.port = true) (h_armed : M.armed = true)
    (h_memCounts : M.memCounts = true) : ∀ s t, execEngReset s = .next t → t.mask M = s.mask M := by
  intro s t h; unfold execEngReset at h
  cases h; simp [*]

theorem execClockFailure_mask (M : Mask) (h_rst : M.rst = true) (h_regs : M.regs = true) (h_ext : M.ext = true)
    (h_tags : M.tags = true) (h_hostMem : M.hostMem = true) (h_scratch : M.scratch = true) (h_pool : M.pool = true)
    (h_pound : M.pound = true) (h_marks : M.marks = true) (h_imem : M.imem = true) (h_hq : M.hq = true)
    (h_regions : M.regions = true) (h_tileErrs : M.tileErrs = true) (h_errWindowFrom : M.errWindowFrom = true)
    (h_sv : M.sv = true) (h_rows : M.rows = true) (h_gathers : M.gathers = true) (h_fab : M.fab = true)
    (h_col : M.col = true) (h_tap : M.tap = true) (h_port : M.port = true) (h_armed : M.armed = true)
    (h_memCounts : M.memCounts = true) : ∀ c s t, execClockFailure c s = .next t → t.mask M = s.mask M := by
  intro c s t h; unfold execClockFailure at h
  cases h; simp [*]

theorem execLockUp_mask (M : Mask) (h_rst : M.rst = true) (h_regs : M.regs = true) (h_ext : M.ext = true)
    (h_tags : M.tags = true) (h_hostMem : M.hostMem = true) (h_scratch : M.scratch = true) (h_pool : M.pool = true)
    (h_pound : M.pound = true) (h_marks : M.marks = true) (h_imem : M.imem = true) (h_hq : M.hq = true)
    (h_regions : M.regions = true) (h_tileErrs : M.tileErrs = true) (h_errWindowFrom : M.errWindowFrom = true)
    (h_sv : M.sv = true) (h_rows : M.rows = true) (h_gathers : M.gathers = true) (h_fab : M.fab = true)
    (h_col : M.col = true) (h_tap : M.tap = true) (h_port : M.port = true) (h_armed : M.armed = true)
    (h_memCounts : M.memCounts = true) : ∀ s t, execLockUp s = .next t → t.mask M = s.mask M := by
  intro s t h; unfold execLockUp at h
  cases h; simp [*]

theorem execResetRelease_mask (M : Mask) (h_rst : M.rst = true) (h_regs : M.regs = true) (h_hq : M.hq = true) :
    ∀ strapMv s t, execResetRelease strapMv s = .next t → t.mask M = s.mask M := by
  intro strapMv s t h; unfold execResetRelease at h
  cases h; simp [*]

theorem execPllLock_mask (M : Mask) (h_rst : M.rst = true) :
    ∀ clock s t, execPllLock clock s = .next t → t.mask M = s.mask M := by
  intro clock s t h; unfold execPllLock at h
  exact State.always_mask M (fun s => by simp [*]) h

theorem execMonitorWindow_mask (M : Mask) (h_rst : M.rst = true) (h_regs : M.regs = true) (h_ext : M.ext = true)
    (h_tags : M.tags = true) (h_hostMem : M.hostMem = true) (h_scratch : M.scratch = true) (h_pool : M.pool = true)
    (h_pound : M.pound = true) (h_marks : M.marks = true) (h_imem : M.imem = true) (h_hq : M.hq = true)
    (h_regions : M.regions = true) (h_tileErrs : M.tileErrs = true) (h_errWindowFrom : M.errWindowFrom = true)
    (h_sv : M.sv = true) (h_rows : M.rows = true) (h_gathers : M.gathers = true) (h_fab : M.fab = true)
    (h_col : M.col = true) (h_tap : M.tap = true) (h_port : M.port = true) (h_armed : M.armed = true)
    (h_memCounts : M.memCounts = true) (h_picks : M.picks = true) :
    ∀ clock count s t, execMonitorWindow clock count s = .next t → t.mask M = s.mask M := by
  intro clock count s t h; unfold execMonitorWindow at h
  exact State.always_mask M (fun s => by simp [*]) h

theorem execMemPortReady_mask (M : Mask) (h_rst : M.rst = true) (h_regs : M.regs = true) (h_hq : M.hq = true) :
    ∀ port s t, execMemPortReady port s = .next t → t.mask M = s.mask M := by
  intro port s t h; unfold execMemPortReady at h
  exact State.always_mask M (fun s => by simp [*]) h

theorem execCtrlParityError_mask (M : Mask) (h_rst : M.rst = true) (h_regs : M.regs = true) (h_ext : M.ext = true)
    (h_tags : M.tags = true) (h_hostMem : M.hostMem = true) (h_scratch : M.scratch = true) (h_pool : M.pool = true)
    (h_pound : M.pound = true) (h_marks : M.marks = true) (h_imem : M.imem = true) (h_hq : M.hq = true)
    (h_regions : M.regions = true) (h_tileErrs : M.tileErrs = true) (h_errWindowFrom : M.errWindowFrom = true)
    (h_sv : M.sv = true) (h_rows : M.rows = true) (h_gathers : M.gathers = true) (h_fab : M.fab = true)
    (h_col : M.col = true) (h_tap : M.tap = true) (h_port : M.port = true) (h_armed : M.armed = true)
    (h_memCounts : M.memCounts = true) (h_picks : M.picks = true) :
    ∀ u s t, execCtrlParityError u s = .next t → t.mask M = s.mask M := by
  intro u s t h; unfold execCtrlParityError at h
  exact State.engine_mask M (fun s => by simp [*]) h

theorem execWdtKick_mask (M : Mask) (h_rst : M.rst = true) :
    ∀ data s t, execWdtKick data s = .next t → t.mask M = s.mask M := by
  intro data s t h; unfold execWdtKick at h
  exact State.always_mask M (fun s => by simp [*]) h

theorem execIsolate_mask (M : Mask) (h_regs : M.regs = true) (h_ext : M.ext = true) (h_tags : M.tags = true)
    (h_marks : M.marks = true) (h_hq : M.hq = true) (h_tileErrs : M.tileErrs = true) (h_rows : M.rows = true)
    (h_armed : M.armed = true) (h_picks : M.picks = true) :
    ∀ page s t, execIsolate page s = .next t → t.mask M = s.mask M := by
  intro page s t h; unfold execIsolate at h
  exact State.always_mask M (fun s => by simp [*]) h

theorem execPlankIn_mask (M : Mask) (h_regs : M.regs = true) :
    ∀ page s t, execPlankIn page s = .next t → t.mask M = s.mask M := by
  intro page s t h; unfold execPlankIn at h
  exact State.always_mask M (fun s => by simp [*]) h

theorem execResetReq_mask (M : Mask) (h_rst : M.rst = true) (h_regs : M.regs = true) (h_ext : M.ext = true)
    (h_tags : M.tags = true) (h_scratch : M.scratch = true) (h_pool : M.pool = true) (h_marks : M.marks = true)
    (h_hq : M.hq = true) (h_regions : M.regions = true) (h_tileErrs : M.tileErrs = true) (h_rows : M.rows = true)
    (h_fab : M.fab = true) (h_armed : M.armed = true) (h_picks : M.picks = true) :
    ∀ page s t, execResetReq page s = .next t → t.mask M = s.mask M := by
  intro page s t h; unfold execResetReq at h
  exact State.always_mask M (fun s => by simp [*]) h

theorem execSectorReadComplete_mask (M : Mask) (h_regs : M.regs = true) (h_ext : M.ext = true) (h_tags : M.tags = true)
    (h_hq : M.hq = true) (h_memCounts : M.memCounts = true) :
    ∀ sector d s t, execSectorReadComplete sector d s = .next t → t.mask M = s.mask M := by
  intro sector d s t h; unfold execSectorReadComplete at h
  exact State.engine_mask M (fun s => by simp [*]) h

theorem execSectorWriteResponse_mask (M : Mask) (h_regs : M.regs = true) (h_hq : M.hq = true)
    (h_memCounts : M.memCounts = true) :
    ∀ port err s t, execSectorWriteResponse port err s = .next t → t.mask M = s.mask M := by
  intro port err s t h; unfold execSectorWriteResponse at h
  exact State.engine_mask M (fun s => by simp [*]) h

theorem execHostReadData_mask (M : Mask) (h_regs : M.regs = true) (h_hostMem : M.hostMem = true) (h_hq : M.hq = true) :
    ∀ addr data err s t, execHostReadData addr data err s = .next t → t.mask M = s.mask M := by
  intro addr data err s t h; unfold execHostReadData at h
  exact State.engine_mask M (fun s => by simp [*]) h

theorem execHostWriteAck_mask (M : Mask) (h_regs : M.regs = true) (h_ext : M.ext = true) (h_tags : M.tags = true)
    (h_hostMem : M.hostMem = true) (h_hq : M.hq = true) (h_sv : M.sv = true) (h_armed : M.armed = true) :
    ∀ tag err s t, execHostWriteAck tag err s = .next t → t.mask M = s.mask M := by
  intro tag err s t h; unfold execHostWriteAck at h
  exact State.engine_mask M (fun s => by simp [*]) h

theorem execVectorUnmask_mask (M : Mask) (h_regs : M.regs = true) (h_hq : M.hq = true) :
    ∀ v s t, execVectorUnmask v s = .next t → t.mask M = s.mask M := by
  intro v s t h; unfold execVectorUnmask at h
  exact State.always_mask M (fun s => by simp [*]) h

theorem execImHoldRelease_mask (M : Mask) (h_regs : M.regs = true) (h_hq : M.hq = true) :
    ∀ s t, execImHoldRelease s = .next t → t.mask M = s.mask M := by
  intro s t h; unfold execImHoldRelease at h
  exact State.engine_mask M (fun s => by simp [*]) h

theorem execConfigCommit_mask (M : Mask) (h_regs : M.regs = true) (h_ext : M.ext = true) (h_tags : M.tags = true)
    (h_hq : M.hq = true) (h_regions : M.regions = true) (h_sv : M.sv = true) (h_rows : M.rows = true)
    (h_fab : M.fab = true) (h_col : M.col = true) (h_armed : M.armed = true) :
    ∀ page seq s t, execConfigCommit page seq s = .next t → t.mask M = s.mask M := by
  intro page seq s t h; unfold execConfigCommit at h
  exact State.always_mask M (fun s => by simp [*]) h

theorem execCommitTakeEffect_mask (M : Mask) (h_regs : M.regs = true) (h_ext : M.ext = true) (h_tags : M.tags = true)
    (h_hq : M.hq = true) (h_regions : M.regions = true) (h_sv : M.sv = true) (h_rows : M.rows = true)
    (h_fab : M.fab = true) (h_col : M.col = true) (h_armed : M.armed = true) :
    ∀ page s t, execCommitTakeEffect page s = .next t → t.mask M = s.mask M := by
  intro page s t h; unfold execCommitTakeEffect at h
  exact State.engine_mask M (fun s => by simp [*]) h

theorem execRowInitClearDone_mask (M : Mask) (h_regs : M.regs = true) (h_ext : M.ext = true) (h_tags : M.tags = true)
    (h_hq : M.hq = true) (h_regions : M.regions = true) (h_sv : M.sv = true) (h_rows : M.rows = true)
    (h_fab : M.fab = true) (h_col : M.col = true) (h_armed : M.armed = true) :
    ∀ s t, execRowInitClearDone s = .next t → t.mask M = s.mask M := by
  intro s t h; unfold execRowInitClearDone at h
  exact State.engine_mask M (fun s => by simp [*]) h

theorem execInjectSram_mask (M : Mask) (h_rst : M.rst = true) (h_regs : M.regs = true) (h_ext : M.ext = true)
    (h_tags : M.tags = true) (h_hostMem : M.hostMem = true) (h_scratch : M.scratch = true) (h_pool : M.pool = true)
    (h_pound : M.pound = true) (h_marks : M.marks = true) (h_imem : M.imem = true) (h_hq : M.hq = true)
    (h_regions : M.regions = true) (h_tileErrs : M.tileErrs = true) (h_errWindowFrom : M.errWindowFrom = true)
    (h_sv : M.sv = true) (h_rows : M.rows = true) (h_gathers : M.gathers = true) (h_fab : M.fab = true)
    (h_col : M.col = true) (h_tap : M.tap = true) (h_port : M.port = true) (h_armed : M.armed = true)
    (h_memCounts : M.memCounts = true) (h_picks : M.picks = true) :
    ∀ page data s t, execInjectSram page data s = .next t → t.mask M = s.mask M := by
  intro page data s t h; unfold execInjectSram at h
  exact State.always_mask M (fun s => by simp [*]) h

theorem execInjectSector_mask (M : Mask) (h_rst : M.rst = true) (h_regs : M.regs = true) (h_ext : M.ext = true)
    (h_tags : M.tags = true) (h_hostMem : M.hostMem = true) (h_scratch : M.scratch = true) (h_pool : M.pool = true)
    (h_pound : M.pound = true) (h_marks : M.marks = true) (h_imem : M.imem = true) (h_hq : M.hq = true)
    (h_regions : M.regions = true) (h_tileErrs : M.tileErrs = true) (h_errWindowFrom : M.errWindowFrom = true)
    (h_sv : M.sv = true) (h_rows : M.rows = true) (h_gathers : M.gathers = true) (h_fab : M.fab = true)
    (h_col : M.col = true) (h_tap : M.tap = true) (h_port : M.port = true) (h_armed : M.armed = true)
    (h_memCounts : M.memCounts = true) (h_picks : M.picks = true) :
    ∀ data s t, execInjectSector data s = .next t → t.mask M = s.mask M := by
  intro data s t h; unfold execInjectSector at h
  exact State.always_mask M (fun s => by simp [*]) h

theorem execInjectTag_mask (M : Mask) (h_rst : M.rst = true) (h_regs : M.regs = true) (h_ext : M.ext = true)
    (h_tags : M.tags = true) (h_hostMem : M.hostMem = true) (h_scratch : M.scratch = true) (h_pool : M.pool = true)
    (h_pound : M.pound = true) (h_marks : M.marks = true) (h_imem : M.imem = true) (h_hq : M.hq = true)
    (h_regions : M.regions = true) (h_tileErrs : M.tileErrs = true) (h_errWindowFrom : M.errWindowFrom = true)
    (h_sv : M.sv = true) (h_rows : M.rows = true) (h_gathers : M.gathers = true) (h_fab : M.fab = true)
    (h_col : M.col = true) (h_tap : M.tap = true) (h_port : M.port = true) (h_armed : M.armed = true)
    (h_memCounts : M.memCounts = true) (h_picks : M.picks = true) :
    ∀ data s t, execInjectTag data s = .next t → t.mask M = s.mask M := by
  intro data s t h; unfold execInjectTag at h
  exact State.always_mask M (fun s => by simp [*]) h

theorem execInjectFlitCrc_mask (M : Mask) (h_rst : M.rst = true) (h_regs : M.regs = true) (h_ext : M.ext = true)
    (h_tags : M.tags = true) (h_hostMem : M.hostMem = true) (h_scratch : M.scratch = true) (h_pool : M.pool = true)
    (h_pound : M.pound = true) (h_marks : M.marks = true) (h_imem : M.imem = true) (h_hq : M.hq = true)
    (h_regions : M.regions = true) (h_tileErrs : M.tileErrs = true) (h_errWindowFrom : M.errWindowFrom = true)
    (h_sv : M.sv = true) (h_rows : M.rows = true) (h_gathers : M.gathers = true) (h_fab : M.fab = true)
    (h_col : M.col = true) (h_tap : M.tap = true) (h_port : M.port = true) (h_armed : M.armed = true)
    (h_memCounts : M.memCounts = true) (h_picks : M.picks = true) :
    ∀ data s t, execInjectFlitCrc data s = .next t → t.mask M = s.mask M := by
  intro data s t h; unfold execInjectFlitCrc at h
  exact State.always_mask M (fun s => by simp [*]) h

theorem execInjectPiece_mask (M : Mask) (h_rst : M.rst = true) (h_regs : M.regs = true) (h_ext : M.ext = true)
    (h_tags : M.tags = true) (h_hostMem : M.hostMem = true) (h_scratch : M.scratch = true) (h_pool : M.pool = true)
    (h_pound : M.pound = true) (h_marks : M.marks = true) (h_imem : M.imem = true) (h_hq : M.hq = true)
    (h_regions : M.regions = true) (h_tileErrs : M.tileErrs = true) (h_errWindowFrom : M.errWindowFrom = true)
    (h_sv : M.sv = true) (h_rows : M.rows = true) (h_gathers : M.gathers = true) (h_fab : M.fab = true)
    (h_col : M.col = true) (h_tap : M.tap = true) (h_port : M.port = true) (h_armed : M.armed = true)
    (h_memCounts : M.memCounts = true) (h_picks : M.picks = true) :
    ∀ data s t, execInjectPiece data s = .next t → t.mask M = s.mask M := by
  intro data s t h; unfold execInjectPiece at h
  exact State.always_mask M (fun s => by simp [*]) h

theorem execInjectCtrl_mask (M : Mask) (h_rst : M.rst = true) (h_regs : M.regs = true) (h_ext : M.ext = true)
    (h_tags : M.tags = true) (h_hostMem : M.hostMem = true) (h_scratch : M.scratch = true) (h_pool : M.pool = true)
    (h_pound : M.pound = true) (h_marks : M.marks = true) (h_imem : M.imem = true) (h_hq : M.hq = true)
    (h_regions : M.regions = true) (h_tileErrs : M.tileErrs = true) (h_errWindowFrom : M.errWindowFrom = true)
    (h_sv : M.sv = true) (h_rows : M.rows = true) (h_gathers : M.gathers = true) (h_fab : M.fab = true)
    (h_col : M.col = true) (h_tap : M.tap = true) (h_port : M.port = true) (h_armed : M.armed = true)
    (h_memCounts : M.memCounts = true) (h_picks : M.picks = true) :
    ∀ page data s t, execInjectCtrl page data s = .next t → t.mask M = s.mask M := by
  intro page data s t h; unfold execInjectCtrl at h
  exact State.always_mask M (fun s => by simp [*]) h

theorem execInjectClock_mask (M : Mask) (h_rst : M.rst = true) (h_regs : M.regs = true) (h_ext : M.ext = true)
    (h_tags : M.tags = true) (h_hostMem : M.hostMem = true) (h_scratch : M.scratch = true) (h_pool : M.pool = true)
    (h_pound : M.pound = true) (h_marks : M.marks = true) (h_imem : M.imem = true) (h_hq : M.hq = true)
    (h_regions : M.regions = true) (h_tileErrs : M.tileErrs = true) (h_errWindowFrom : M.errWindowFrom = true)
    (h_sv : M.sv = true) (h_rows : M.rows = true) (h_gathers : M.gathers = true) (h_fab : M.fab = true)
    (h_col : M.col = true) (h_tap : M.tap = true) (h_port : M.port = true) (h_armed : M.armed = true)
    (h_memCounts : M.memCounts = true) (h_picks : M.picks = true) :
    ∀ page data s t, execInjectClock page data s = .next t → t.mask M = s.mask M := by
  intro page data s t h; unfold execInjectClock at h
  exact State.always_mask M (fun s => by simp [*]) h

theorem execKeeperEnable_mask (M : Mask) (h_regs : M.regs = true) (h_hq : M.hq = true) :
    ∀ s t, execKeeperEnable s = .next t → t.mask M = s.mask M := by
  intro s t h; unfold execKeeperEnable at h
  exact State.always_mask M (fun s => by simp [*]) h

theorem execImemDataWrite_mask (M : Mask) (h_regs : M.regs = true) (h_imem : M.imem = true) :
    ∀ data s t, execImemDataWrite data s = .next t → t.mask M = s.mask M := by
  intro data s t h; unfold execImemDataWrite at h
  exact State.always_mask M (fun s => by simp [*]) h

theorem execImemDataRead_mask (M : Mask) (h_regs : M.regs = true) (h_sv : M.sv = true) (h_fab : M.fab = true)
    (h_port : M.port = true) (h_memCounts : M.memCounts = true) :
    ∀ s t, execImemDataRead s = .next t → t.mask M = s.mask M := by
  intro s t h; unfold execImemDataRead at h
  cases h; simp [*]

theorem execPeek_mask (M : Mask) (h_regs : M.regs = true) (h_regions : M.regions = true) :
    ∀ data s t, execPeek data s = .next t → t.mask M = s.mask M := by
  intro data s t h; unfold execPeek at h
  exact State.always_mask M (fun s => by simp [*]) h

theorem execPeekComplete_mask (M : Mask) (h_regs : M.regs = true) (h_ext : M.ext = true) (h_tags : M.tags = true)
    (h_marks : M.marks = true) (h_hq : M.hq = true) (h_regions : M.regions = true) (h_tileErrs : M.tileErrs = true)
    (h_sv : M.sv = true) (h_gathers : M.gathers = true) (h_armed : M.armed = true) :
    ∀ s t, execPeekComplete s = .next t → t.mask M = s.mask M := by
  intro s t h; unfold execPeekComplete at h
  exact State.engine_mask M (fun s => by simp [*]) h

theorem execTowpath_mask (M : Mask) (h_rst : M.rst = true) (h_regs : M.regs = true) (h_ext : M.ext = true)
    (h_tags : M.tags = true) (h_hostMem : M.hostMem = true) (h_scratch : M.scratch = true) (h_pool : M.pool = true)
    (h_pound : M.pound = true) (h_marks : M.marks = true) (h_imem : M.imem = true) (h_hq : M.hq = true)
    (h_regions : M.regions = true) (h_tileErrs : M.tileErrs = true) (h_errWindowFrom : M.errWindowFrom = true)
    (h_sv : M.sv = true) (h_rows : M.rows = true) (h_gathers : M.gathers = true) (h_fab : M.fab = true)
    (h_col : M.col = true) (h_tap : M.tap = true) (h_port : M.port = true) (h_armed : M.armed = true)
    (h_memCounts : M.memCounts = true) (h_picks : M.picks = true) :
    ∀ dr s t, execTowpath dr s = .next t → t.mask M = s.mask M := by
  intro dr s t h; unfold execTowpath at h
  cases h; simp [*]

theorem execIdcode_mask (M : Mask) (h_tap : M.tap = true) : ∀ s t, execIdcode s = .next t → t.mask M = s.mask M := by
  intro s t h; unfold execIdcode at h
  cases h; simp [*]

theorem execBypass_mask (M : Mask) (h_tap : M.tap = true) :
    ∀ ir s t, execBypass ir s = .next t → t.mask M = s.mask M := by
  intro ir s t h; unfold execBypass at h
  cases h; simp [*]

theorem execUnmappedAccess_mask (M : Mask) (h_rst : M.rst = true) (h_regs : M.regs = true) (h_ext : M.ext = true)
    (h_tags : M.tags = true) (h_hostMem : M.hostMem = true) (h_scratch : M.scratch = true) (h_pool : M.pool = true)
    (h_pound : M.pound = true) (h_marks : M.marks = true) (h_imem : M.imem = true) (h_hq : M.hq = true)
    (h_regions : M.regions = true) (h_tileErrs : M.tileErrs = true) (h_errWindowFrom : M.errWindowFrom = true)
    (h_sv : M.sv = true) (h_rows : M.rows = true) (h_gathers : M.gathers = true) (h_fab : M.fab = true)
    (h_col : M.col = true) (h_tap : M.tap = true) (h_port : M.port = true) (h_armed : M.armed = true)
    (h_memCounts : M.memCounts = true) (h_picks : M.picks = true) :
    ∀ addr we s t, execUnmappedAccess addr we s = .next t → t.mask M = s.mask M := by
  intro addr we s t h; unfold execUnmappedAccess at h
  cases h; simp [*]

theorem execCounterReadClear_mask (M : Mask) (h_regs : M.regs = true) (h_sv : M.sv = true) (h_fab : M.fab = true)
    (h_port : M.port = true) (h_memCounts : M.memCounts = true) :
    ∀ addr s t, execCounterReadClear addr s = .next t → t.mask M = s.mask M := by
  intro addr s t h; unfold execCounterReadClear at h
  cases h; simp [*]

theorem execRegisterWrite_mask (M : Mask) (h_rst : M.rst = true) (h_regs : M.regs = true) (h_ext : M.ext = true)
    (h_tags : M.tags = true) (h_hostMem : M.hostMem = true) (h_scratch : M.scratch = true) (h_pool : M.pool = true)
    (h_pound : M.pound = true) (h_marks : M.marks = true) (h_imem : M.imem = true) (h_hq : M.hq = true)
    (h_regions : M.regions = true) (h_tileErrs : M.tileErrs = true) (h_errWindowFrom : M.errWindowFrom = true)
    (h_sv : M.sv = true) (h_rows : M.rows = true) (h_gathers : M.gathers = true) (h_fab : M.fab = true)
    (h_col : M.col = true) (h_tap : M.tap = true) (h_port : M.port = true) (h_armed : M.armed = true)
    (h_memCounts : M.memCounts = true) (h_picks : M.picks = true) :
    ∀ addr data s t, execRegisterWrite addr data s = .next t → t.mask M = s.mask M := by
  intro addr data s t h; unfold execRegisterWrite at h
  cases h; simp [*]

theorem execVbakLoss_mask (M : Mask) (h_rst : M.rst = true) (h_regs : M.regs = true) :
    ∀ s t, execVbakLoss s = .next t → t.mask M = s.mask M := by
  intro s t h; unfold execVbakLoss at h
  cases h; simp [*]

theorem execRegionPllLockLoss_mask (M : Mask) (h_rst : M.rst = true) (h_regs : M.regs = true) (h_ext : M.ext = true)
    (h_tags : M.tags = true) (h_marks : M.marks = true) (h_hq : M.hq = true) (h_regions : M.regions = true)
    (h_tileErrs : M.tileErrs = true) (h_sv : M.sv = true) (h_rows : M.rows = true) (h_gathers : M.gathers = true)
    (h_armed : M.armed = true) (h_picks : M.picks = true) :
    ∀ r s t, execRegionPllLockLoss r s = .next t → t.mask M = s.mask M := by
  intro r s t h; unfold execRegionPllLockLoss at h
  exact State.engine_mask M (fun s => by simp [*]) h

theorem execErrWindowEnd_mask (M : Mask) (h_tileErrs : M.tileErrs = true) (h_errWindowFrom : M.errWindowFrom = true) :
    ∀ s t, execErrWindowEnd s = .next t → t.mask M = s.mask M := by
  intro s t h; unfold execErrWindowEnd at h
  exact State.engine_mask M (fun s => by simp [*]) h

theorem execW1cWrite_mask (M : Mask) (h_rst : M.rst = true) (h_regs : M.regs = true) (h_ext : M.ext = true)
    (h_tags : M.tags = true) (h_hostMem : M.hostMem = true) (h_scratch : M.scratch = true) (h_pool : M.pool = true)
    (h_pound : M.pound = true) (h_marks : M.marks = true) (h_imem : M.imem = true) (h_hq : M.hq = true)
    (h_regions : M.regions = true) (h_tileErrs : M.tileErrs = true) (h_errWindowFrom : M.errWindowFrom = true)
    (h_sv : M.sv = true) (h_rows : M.rows = true) (h_gathers : M.gathers = true) (h_fab : M.fab = true)
    (h_col : M.col = true) (h_tap : M.tap = true) (h_port : M.port = true) (h_armed : M.armed = true)
    (h_memCounts : M.memCounts = true) (h_picks : M.picks = true) :
    ∀ addr data s t, execW1cWrite addr data s = .next t → t.mask M = s.mask M := by
  intro addr data s t h; unfold execW1cWrite at h
  cases h; simp [*]

theorem execWatchdogEnable_mask (M : Mask) (h_rst : M.rst = true) (h_regs : M.regs = true) :
    ∀ data s t, execWatchdogEnable data s = .next t → t.mask M = s.mask M := by
  intro data s t h; unfold execWatchdogEnable at h
  exact State.always_mask M (fun s => by simp [*]) h

theorem execTapReset_mask (M : Mask) (h_tap : M.tap = true) :
    ∀ s t, execTapReset s = .next t → t.mask M = s.mask M := by
  intro s t h; unfold execTapReset at h
  cases h; simp [*]

end Sys2Proof.Machine
end

