-- ==== Sys2Proof/Laws/State.lean ====
section
/-! SUPPORT. The basic updates of State: what each leaves in every field it does not write, and the fields of a state that
agrees with another under a mask. -/

namespace Sys2Proof.Machine

open Sys2Proof

/-! ### Fields of states that agree under a mask -/

theorem State.pending_of_mask {M : Mask} {s t : State} (h : t.mask M = s.mask M) (hf : M.pending = false) :
    t.pending = s.pending := by
  have e := congrArg State.pending h
  simpa [State.mask, hf] using e

theorem State.params_of_mask {M : Mask} {s t : State} (h : t.mask M = s.mask M) (hf : M.params = false) :
    t.params = s.params := by
  have e := congrArg State.params h
  simpa [State.mask, hf] using e

theorem State.aoUs_of_mask {M : Mask} {s t : State} (h : t.mask M = s.mask M) (hf : M.aoUs = false) :
    t.aoUs = s.aoUs := by
  have e := congrArg State.aoUs h
  simpa [State.mask, hf] using e

theorem State.rst_of_mask {M : Mask} {s t : State} (h : t.mask M = s.mask M) (hf : M.rst = false) :
    t.rst = s.rst := by
  have e := congrArg State.rst h
  simpa [State.mask, hf] using e

theorem State.regs_of_mask {M : Mask} {s t : State} (h : t.mask M = s.mask M) (hf : M.regs = false) :
    t.regs = s.regs := by
  have e := congrArg State.regs h
  simpa [State.mask, hf] using e

theorem State.ext_of_mask {M : Mask} {s t : State} (h : t.mask M = s.mask M) (hf : M.ext = false) :
    t.ext = s.ext := by
  have e := congrArg State.ext h
  simpa [State.mask, hf] using e

theorem State.tags_of_mask {M : Mask} {s t : State} (h : t.mask M = s.mask M) (hf : M.tags = false) :
    t.tags = s.tags := by
  have e := congrArg State.tags h
  simpa [State.mask, hf] using e

theorem State.hostMem_of_mask {M : Mask} {s t : State} (h : t.mask M = s.mask M) (hf : M.hostMem = false) :
    t.hostMem = s.hostMem := by
  have e := congrArg State.hostMem h
  simpa [State.mask, hf] using e

theorem State.scratch_of_mask {M : Mask} {s t : State} (h : t.mask M = s.mask M) (hf : M.scratch = false) :
    t.scratch = s.scratch := by
  have e := congrArg State.scratch h
  simpa [State.mask, hf] using e

theorem State.pool_of_mask {M : Mask} {s t : State} (h : t.mask M = s.mask M) (hf : M.pool = false) :
    t.pool = s.pool := by
  have e := congrArg State.pool h
  simpa [State.mask, hf] using e

theorem State.pound_of_mask {M : Mask} {s t : State} (h : t.mask M = s.mask M) (hf : M.pound = false) :
    t.pound = s.pound := by
  have e := congrArg State.pound h
  simpa [State.mask, hf] using e

theorem State.marks_of_mask {M : Mask} {s t : State} (h : t.mask M = s.mask M) (hf : M.marks = false) :
    t.marks = s.marks := by
  have e := congrArg State.marks h
  simpa [State.mask, hf] using e

theorem State.imem_of_mask {M : Mask} {s t : State} (h : t.mask M = s.mask M) (hf : M.imem = false) :
    t.imem = s.imem := by
  have e := congrArg State.imem h
  simpa [State.mask, hf] using e

theorem State.hq_of_mask {M : Mask} {s t : State} (h : t.mask M = s.mask M) (hf : M.hq = false) :
    t.hq = s.hq := by
  have e := congrArg State.hq h
  simpa [State.mask, hf] using e

theorem State.regions_of_mask {M : Mask} {s t : State} (h : t.mask M = s.mask M) (hf : M.regions = false) :
    t.regions = s.regions := by
  have e := congrArg State.regions h
  simpa [State.mask, hf] using e

theorem State.tileErrs_of_mask {M : Mask} {s t : State} (h : t.mask M = s.mask M) (hf : M.tileErrs = false) :
    t.tileErrs = s.tileErrs := by
  have e := congrArg State.tileErrs h
  simpa [State.mask, hf] using e

theorem State.errWindowFrom_of_mask {M : Mask} {s t : State} (h : t.mask M = s.mask M) (hf : M.errWindowFrom = false) :
    t.errWindowFrom = s.errWindowFrom := by
  have e := congrArg State.errWindowFrom h
  simpa [State.mask, hf] using e

theorem State.sv_of_mask {M : Mask} {s t : State} (h : t.mask M = s.mask M) (hf : M.sv = false) :
    t.sv = s.sv := by
  have e := congrArg State.sv h
  simpa [State.mask, hf] using e

theorem State.rows_of_mask {M : Mask} {s t : State} (h : t.mask M = s.mask M) (hf : M.rows = false) :
    t.rows = s.rows := by
  have e := congrArg State.rows h
  simpa [State.mask, hf] using e

theorem State.gathers_of_mask {M : Mask} {s t : State} (h : t.mask M = s.mask M) (hf : M.gathers = false) :
    t.gathers = s.gathers := by
  have e := congrArg State.gathers h
  simpa [State.mask, hf] using e

theorem State.fab_of_mask {M : Mask} {s t : State} (h : t.mask M = s.mask M) (hf : M.fab = false) :
    t.fab = s.fab := by
  have e := congrArg State.fab h
  simpa [State.mask, hf] using e

theorem State.col_of_mask {M : Mask} {s t : State} (h : t.mask M = s.mask M) (hf : M.col = false) :
    t.col = s.col := by
  have e := congrArg State.col h
  simpa [State.mask, hf] using e

theorem State.tap_of_mask {M : Mask} {s t : State} (h : t.mask M = s.mask M) (hf : M.tap = false) :
    t.tap = s.tap := by
  have e := congrArg State.tap h
  simpa [State.mask, hf] using e

theorem State.port_of_mask {M : Mask} {s t : State} (h : t.mask M = s.mask M) (hf : M.port = false) :
    t.port = s.port := by
  have e := congrArg State.port h
  simpa [State.mask, hf] using e

theorem State.armed_of_mask {M : Mask} {s t : State} (h : t.mask M = s.mask M) (hf : M.armed = false) :
    t.armed = s.armed := by
  have e := congrArg State.armed h
  simpa [State.mask, hf] using e

theorem State.memCounts_of_mask {M : Mask} {s t : State} (h : t.mask M = s.mask M) (hf : M.memCounts = false) :
    t.memCounts = s.memCounts := by
  have e := congrArg State.memCounts h
  simpa [State.mask, hf] using e

theorem State.picks_of_mask {M : Mask} {s t : State} (h : t.mask M = s.mask M) (hf : M.picks = false) :
    t.picks = s.picks := by
  have e := congrArg State.picks h
  simpa [State.mask, hf] using e

/-! ### `State.setReg` -/

@[simp] theorem State.setReg_pending : ∀ s page o v, (State.setReg s page o v).pending = s.pending :=
  fun _ _ _ _ => rfl

@[simp] theorem State.setReg_params : ∀ s page o v, (State.setReg s page o v).params = s.params :=
  fun _ _ _ _ => rfl

@[simp] theorem State.setReg_aoUs : ∀ s page o v, (State.setReg s page o v).aoUs = s.aoUs :=
  fun _ _ _ _ => rfl

@[simp] theorem State.setReg_rst : ∀ s page o v, (State.setReg s page o v).rst = s.rst :=
  fun _ _ _ _ => rfl

@[simp] theorem State.setReg_ext : ∀ s page o v, (State.setReg s page o v).ext = s.ext :=
  fun _ _ _ _ => rfl

@[simp] theorem State.setReg_tags : ∀ s page o v, (State.setReg s page o v).tags = s.tags :=
  fun _ _ _ _ => rfl

@[simp] theorem State.setReg_hostMem : ∀ s page o v, (State.setReg s page o v).hostMem = s.hostMem :=
  fun _ _ _ _ => rfl

@[simp] theorem State.setReg_scratch : ∀ s page o v, (State.setReg s page o v).scratch = s.scratch :=
  fun _ _ _ _ => rfl

@[simp] theorem State.setReg_pool : ∀ s page o v, (State.setReg s page o v).pool = s.pool :=
  fun _ _ _ _ => rfl

@[simp] theorem State.setReg_pound : ∀ s page o v, (State.setReg s page o v).pound = s.pound :=
  fun _ _ _ _ => rfl

@[simp] theorem State.setReg_marks : ∀ s page o v, (State.setReg s page o v).marks = s.marks :=
  fun _ _ _ _ => rfl

@[simp] theorem State.setReg_imem : ∀ s page o v, (State.setReg s page o v).imem = s.imem :=
  fun _ _ _ _ => rfl

@[simp] theorem State.setReg_hq : ∀ s page o v, (State.setReg s page o v).hq = s.hq :=
  fun _ _ _ _ => rfl

@[simp] theorem State.setReg_regions : ∀ s page o v, (State.setReg s page o v).regions = s.regions :=
  fun _ _ _ _ => rfl

@[simp] theorem State.setReg_tileErrs : ∀ s page o v, (State.setReg s page o v).tileErrs = s.tileErrs :=
  fun _ _ _ _ => rfl

@[simp] theorem State.setReg_errWindowFrom : ∀ s page o v, (State.setReg s page o v).errWindowFrom = s.errWindowFrom :=
  fun _ _ _ _ => rfl

@[simp] theorem State.setReg_sv : ∀ s page o v, (State.setReg s page o v).sv = s.sv :=
  fun _ _ _ _ => rfl

@[simp] theorem State.setReg_rows : ∀ s page o v, (State.setReg s page o v).rows = s.rows :=
  fun _ _ _ _ => rfl

@[simp] theorem State.setReg_gathers : ∀ s page o v, (State.setReg s page o v).gathers = s.gathers :=
  fun _ _ _ _ => rfl

@[simp] theorem State.setReg_fab : ∀ s page o v, (State.setReg s page o v).fab = s.fab :=
  fun _ _ _ _ => rfl

@[simp] theorem State.setReg_col : ∀ s page o v, (State.setReg s page o v).col = s.col :=
  fun _ _ _ _ => rfl

@[simp] theorem State.setReg_tap : ∀ s page o v, (State.setReg s page o v).tap = s.tap :=
  fun _ _ _ _ => rfl

@[simp] theorem State.setReg_port : ∀ s page o v, (State.setReg s page o v).port = s.port :=
  fun _ _ _ _ => rfl

@[simp] theorem State.setReg_armed : ∀ s page o v, (State.setReg s page o v).armed = s.armed :=
  fun _ _ _ _ => rfl

@[simp] theorem State.setReg_memCounts : ∀ s page o v, (State.setReg s page o v).memCounts = s.memCounts :=
  fun _ _ _ _ => rfl

@[simp] theorem State.setReg_picks : ∀ s page o v, (State.setReg s page o v).picks = s.picks :=
  fun _ _ _ _ => rfl

/-! ### `State.setRegN` -/

@[simp] theorem State.setRegN_pending : ∀ s page o v, (State.setRegN s page o v).pending = s.pending :=
  fun _ _ _ _ => rfl

@[simp] theorem State.setRegN_params : ∀ s page o v, (State.setRegN s page o v).params = s.params :=
  fun _ _ _ _ => rfl

@[simp] theorem State.setRegN_aoUs : ∀ s page o v, (State.setRegN s page o v).aoUs = s.aoUs :=
  fun _ _ _ _ => rfl

@[simp] theorem State.setRegN_rst : ∀ s page o v, (State.setRegN s page o v).rst = s.rst :=
  fun _ _ _ _ => rfl

@[simp] theorem State.setRegN_ext : ∀ s page o v, (State.setRegN s page o v).ext = s.ext :=
  fun _ _ _ _ => rfl

@[simp] theorem State.setRegN_tags : ∀ s page o v, (State.setRegN s page o v).tags = s.tags :=
  fun _ _ _ _ => rfl

@[simp] theorem State.setRegN_hostMem : ∀ s page o v, (State.setRegN s page o v).hostMem = s.hostMem :=
  fun _ _ _ _ => rfl

@[simp] theorem State.setRegN_scratch : ∀ s page o v, (State.setRegN s page o v).scratch = s.scratch :=
  fun _ _ _ _ => rfl

@[simp] theorem State.setRegN_pool : ∀ s page o v, (State.setRegN s page o v).pool = s.pool :=
  fun _ _ _ _ => rfl

@[simp] theorem State.setRegN_pound : ∀ s page o v, (State.setRegN s page o v).pound = s.pound :=
  fun _ _ _ _ => rfl

@[simp] theorem State.setRegN_marks : ∀ s page o v, (State.setRegN s page o v).marks = s.marks :=
  fun _ _ _ _ => rfl

@[simp] theorem State.setRegN_imem : ∀ s page o v, (State.setRegN s page o v).imem = s.imem :=
  fun _ _ _ _ => rfl

@[simp] theorem State.setRegN_hq : ∀ s page o v, (State.setRegN s page o v).hq = s.hq :=
  fun _ _ _ _ => rfl

@[simp] theorem State.setRegN_regions : ∀ s page o v, (State.setRegN s page o v).regions = s.regions :=
  fun _ _ _ _ => rfl

@[simp] theorem State.setRegN_tileErrs : ∀ s page o v, (State.setRegN s page o v).tileErrs = s.tileErrs :=
  fun _ _ _ _ => rfl

@[simp] theorem State.setRegN_errWindowFrom : ∀ s page o v, (State.setRegN s page o v).errWindowFrom = s.errWindowFrom :=
  fun _ _ _ _ => rfl

@[simp] theorem State.setRegN_sv : ∀ s page o v, (State.setRegN s page o v).sv = s.sv :=
  fun _ _ _ _ => rfl

@[simp] theorem State.setRegN_rows : ∀ s page o v, (State.setRegN s page o v).rows = s.rows :=
  fun _ _ _ _ => rfl

@[simp] theorem State.setRegN_gathers : ∀ s page o v, (State.setRegN s page o v).gathers = s.gathers :=
  fun _ _ _ _ => rfl

@[simp] theorem State.setRegN_fab : ∀ s page o v, (State.setRegN s page o v).fab = s.fab :=
  fun _ _ _ _ => rfl

@[simp] theorem State.setRegN_col : ∀ s page o v, (State.setRegN s page o v).col = s.col :=
  fun _ _ _ _ => rfl

@[simp] theorem State.setRegN_tap : ∀ s page o v, (State.setRegN s page o v).tap = s.tap :=
  fun _ _ _ _ => rfl

@[simp] theorem State.setRegN_port : ∀ s page o v, (State.setRegN s page o v).port = s.port :=
  fun _ _ _ _ => rfl

@[simp] theorem State.setRegN_armed : ∀ s page o v, (State.setRegN s page o v).armed = s.armed :=
  fun _ _ _ _ => rfl

@[simp] theorem State.setRegN_memCounts : ∀ s page o v, (State.setRegN s page o v).memCounts = s.memCounts :=
  fun _ _ _ _ => rfl

@[simp] theorem State.setRegN_picks : ∀ s page o v, (State.setRegN s page o v).picks = s.picks :=
  fun _ _ _ _ => rfl

/-! ### `State.setTag` -/

@[simp] theorem State.setTag_pending : ∀ s k t, (State.setTag s k t).pending = s.pending :=
  fun _ _ _ => rfl

@[simp] theorem State.setTag_params : ∀ s k t, (State.setTag s k t).params = s.params :=
  fun _ _ _ => rfl

@[simp] theorem State.setTag_aoUs : ∀ s k t, (State.setTag s k t).aoUs = s.aoUs :=
  fun _ _ _ => rfl

@[simp] theorem State.setTag_rst : ∀ s k t, (State.setTag s k t).rst = s.rst :=
  fun _ _ _ => rfl

@[simp] theorem State.setTag_regs : ∀ s k t, (State.setTag s k t).regs = s.regs :=
  fun _ _ _ => rfl

@[simp] theorem State.setTag_ext : ∀ s k t, (State.setTag s k t).ext = s.ext :=
  fun _ _ _ => rfl

@[simp] theorem State.setTag_hostMem : ∀ s k t, (State.setTag s k t).hostMem = s.hostMem :=
  fun _ _ _ => rfl

@[simp] theorem State.setTag_scratch : ∀ s k t, (State.setTag s k t).scratch = s.scratch :=
  fun _ _ _ => rfl

@[simp] theorem State.setTag_pool : ∀ s k t, (State.setTag s k t).pool = s.pool :=
  fun _ _ _ => rfl

@[simp] theorem State.setTag_pound : ∀ s k t, (State.setTag s k t).pound = s.pound :=
  fun _ _ _ => rfl

@[simp] theorem State.setTag_marks : ∀ s k t, (State.setTag s k t).marks = s.marks :=
  fun _ _ _ => rfl

@[simp] theorem State.setTag_imem : ∀ s k t, (State.setTag s k t).imem = s.imem :=
  fun _ _ _ => rfl

@[simp] theorem State.setTag_hq : ∀ s k t, (State.setTag s k t).hq = s.hq :=
  fun _ _ _ => rfl

@[simp] theorem State.setTag_regions : ∀ s k t, (State.setTag s k t).regions = s.regions :=
  fun _ _ _ => rfl

@[simp] theorem State.setTag_tileErrs : ∀ s k t, (State.setTag s k t).tileErrs = s.tileErrs :=
  fun _ _ _ => rfl

@[simp] theorem State.setTag_errWindowFrom : ∀ s k t, (State.setTag s k t).errWindowFrom = s.errWindowFrom :=
  fun _ _ _ => rfl

@[simp] theorem State.setTag_sv : ∀ s k t, (State.setTag s k t).sv = s.sv :=
  fun _ _ _ => rfl

@[simp] theorem State.setTag_rows : ∀ s k t, (State.setTag s k t).rows = s.rows :=
  fun _ _ _ => rfl

@[simp] theorem State.setTag_gathers : ∀ s k t, (State.setTag s k t).gathers = s.gathers :=
  fun _ _ _ => rfl

@[simp] theorem State.setTag_fab : ∀ s k t, (State.setTag s k t).fab = s.fab :=
  fun _ _ _ => rfl

@[simp] theorem State.setTag_col : ∀ s k t, (State.setTag s k t).col = s.col :=
  fun _ _ _ => rfl

@[simp] theorem State.setTag_tap : ∀ s k t, (State.setTag s k t).tap = s.tap :=
  fun _ _ _ => rfl

@[simp] theorem State.setTag_port : ∀ s k t, (State.setTag s k t).port = s.port :=
  fun _ _ _ => rfl

@[simp] theorem State.setTag_armed : ∀ s k t, (State.setTag s k t).armed = s.armed :=
  fun _ _ _ => rfl

@[simp] theorem State.setTag_memCounts : ∀ s k t, (State.setTag s k t).memCounts = s.memCounts :=
  fun _ _ _ => rfl

@[simp] theorem State.setTag_picks : ∀ s k t, (State.setTag s k t).picks = s.picks :=
  fun _ _ _ => rfl

/-! ### `State.setMark` -/

@[simp] theorem State.setMark_pending : ∀ s k m, (State.setMark s k m).pending = s.pending :=
  fun _ _ _ => rfl

@[simp] theorem State.setMark_params : ∀ s k m, (State.setMark s k m).params = s.params :=
  fun _ _ _ => rfl

@[simp] theorem State.setMark_aoUs : ∀ s k m, (State.setMark s k m).aoUs = s.aoUs :=
  fun _ _ _ => rfl

@[simp] theorem State.setMark_rst : ∀ s k m, (State.setMark s k m).rst = s.rst :=
  fun _ _ _ => rfl

@[simp] theorem State.setMark_regs : ∀ s k m, (State.setMark s k m).regs = s.regs :=
  fun _ _ _ => rfl

@[simp] theorem State.setMark_ext : ∀ s k m, (State.setMark s k m).ext = s.ext :=
  fun _ _ _ => rfl

@[simp] theorem State.setMark_tags : ∀ s k m, (State.setMark s k m).tags = s.tags :=
  fun _ _ _ => rfl

@[simp] theorem State.setMark_hostMem : ∀ s k m, (State.setMark s k m).hostMem = s.hostMem :=
  fun _ _ _ => rfl

@[simp] theorem State.setMark_scratch : ∀ s k m, (State.setMark s k m).scratch = s.scratch :=
  fun _ _ _ => rfl

@[simp] theorem State.setMark_pool : ∀ s k m, (State.setMark s k m).pool = s.pool :=
  fun _ _ _ => rfl

@[simp] theorem State.setMark_pound : ∀ s k m, (State.setMark s k m).pound = s.pound :=
  fun _ _ _ => rfl

@[simp] theorem State.setMark_imem : ∀ s k m, (State.setMark s k m).imem = s.imem :=
  fun _ _ _ => rfl

@[simp] theorem State.setMark_hq : ∀ s k m, (State.setMark s k m).hq = s.hq :=
  fun _ _ _ => rfl

@[simp] theorem State.setMark_regions : ∀ s k m, (State.setMark s k m).regions = s.regions :=
  fun _ _ _ => rfl

@[simp] theorem State.setMark_tileErrs : ∀ s k m, (State.setMark s k m).tileErrs = s.tileErrs :=
  fun _ _ _ => rfl

@[simp] theorem State.setMark_errWindowFrom : ∀ s k m, (State.setMark s k m).errWindowFrom = s.errWindowFrom :=
  fun _ _ _ => rfl

@[simp] theorem State.setMark_sv : ∀ s k m, (State.setMark s k m).sv = s.sv :=
  fun _ _ _ => rfl

@[simp] theorem State.setMark_rows : ∀ s k m, (State.setMark s k m).rows = s.rows :=
  fun _ _ _ => rfl

@[simp] theorem State.setMark_gathers : ∀ s k m, (State.setMark s k m).gathers = s.gathers :=
  fun _ _ _ => rfl

@[simp] theorem State.setMark_fab : ∀ s k m, (State.setMark s k m).fab = s.fab :=
  fun _ _ _ => rfl

@[simp] theorem State.setMark_col : ∀ s k m, (State.setMark s k m).col = s.col :=
  fun _ _ _ => rfl

@[simp] theorem State.setMark_tap : ∀ s k m, (State.setMark s k m).tap = s.tap :=
  fun _ _ _ => rfl

@[simp] theorem State.setMark_port : ∀ s k m, (State.setMark s k m).port = s.port :=
  fun _ _ _ => rfl

@[simp] theorem State.setMark_armed : ∀ s k m, (State.setMark s k m).armed = s.armed :=
  fun _ _ _ => rfl

@[simp] theorem State.setMark_memCounts : ∀ s k m, (State.setMark s k m).memCounts = s.memCounts :=
  fun _ _ _ => rfl

@[simp] theorem State.setMark_picks : ∀ s k m, (State.setMark s k m).picks = s.picks :=
  fun _ _ _ => rfl

/-! ### `State.updBarge` -/

@[simp] theorem State.updBarge_pending : ∀ s b f, (State.updBarge s b f).pending = s.pending :=
  fun _ _ _ => rfl

@[simp] theorem State.updBarge_params : ∀ s b f, (State.updBarge s b f).params = s.params :=
  fun _ _ _ => rfl

@[simp] theorem State.updBarge_aoUs : ∀ s b f, (State.updBarge s b f).aoUs = s.aoUs :=
  fun _ _ _ => rfl

@[simp] theorem State.updBarge_rst : ∀ s b f, (State.updBarge s b f).rst = s.rst :=
  fun _ _ _ => rfl

@[simp] theorem State.updBarge_regs : ∀ s b f, (State.updBarge s b f).regs = s.regs :=
  fun _ _ _ => rfl

@[simp] theorem State.updBarge_ext : ∀ s b f, (State.updBarge s b f).ext = s.ext :=
  fun _ _ _ => rfl

@[simp] theorem State.updBarge_tags : ∀ s b f, (State.updBarge s b f).tags = s.tags :=
  fun _ _ _ => rfl

@[simp] theorem State.updBarge_hostMem : ∀ s b f, (State.updBarge s b f).hostMem = s.hostMem :=
  fun _ _ _ => rfl

@[simp] theorem State.updBarge_scratch : ∀ s b f, (State.updBarge s b f).scratch = s.scratch :=
  fun _ _ _ => rfl

@[simp] theorem State.updBarge_pool : ∀ s b f, (State.updBarge s b f).pool = s.pool :=
  fun _ _ _ => rfl

@[simp] theorem State.updBarge_pound : ∀ s b f, (State.updBarge s b f).pound = s.pound :=
  fun _ _ _ => rfl

@[simp] theorem State.updBarge_marks : ∀ s b f, (State.updBarge s b f).marks = s.marks :=
  fun _ _ _ => rfl

@[simp] theorem State.updBarge_imem : ∀ s b f, (State.updBarge s b f).imem = s.imem :=
  fun _ _ _ => rfl

@[simp] theorem State.updBarge_hq : ∀ s b f, (State.updBarge s b f).hq = s.hq :=
  fun _ _ _ => rfl

@[simp] theorem State.updBarge_regions : ∀ s b f, (State.updBarge s b f).regions = s.regions :=
  fun _ _ _ => rfl

@[simp] theorem State.updBarge_tileErrs : ∀ s b f, (State.updBarge s b f).tileErrs = s.tileErrs :=
  fun _ _ _ => rfl

@[simp] theorem State.updBarge_errWindowFrom : ∀ s b f, (State.updBarge s b f).errWindowFrom = s.errWindowFrom :=
  fun _ _ _ => rfl

@[simp] theorem State.updBarge_rows : ∀ s b f, (State.updBarge s b f).rows = s.rows :=
  fun _ _ _ => rfl

@[simp] theorem State.updBarge_gathers : ∀ s b f, (State.updBarge s b f).gathers = s.gathers :=
  fun _ _ _ => rfl

@[simp] theorem State.updBarge_fab : ∀ s b f, (State.updBarge s b f).fab = s.fab :=
  fun _ _ _ => rfl

@[simp] theorem State.updBarge_col : ∀ s b f, (State.updBarge s b f).col = s.col :=
  fun _ _ _ => rfl

@[simp] theorem State.updBarge_tap : ∀ s b f, (State.updBarge s b f).tap = s.tap :=
  fun _ _ _ => rfl

@[simp] theorem State.updBarge_port : ∀ s b f, (State.updBarge s b f).port = s.port :=
  fun _ _ _ => rfl

@[simp] theorem State.updBarge_armed : ∀ s b f, (State.updBarge s b f).armed = s.armed :=
  fun _ _ _ => rfl

@[simp] theorem State.updBarge_memCounts : ∀ s b f, (State.updBarge s b f).memCounts = s.memCounts :=
  fun _ _ _ => rfl

@[simp] theorem State.updBarge_picks : ∀ s b f, (State.updBarge s b f).picks = s.picks :=
  fun _ _ _ => rfl

/-! ### `State.takePicks` -/

@[simp] theorem State.takePicks_pending : ∀ s n, (State.takePicks s n).pending = s.pending :=
  fun _ _ => rfl

@[simp] theorem State.takePicks_params : ∀ s n, (State.takePicks s n).params = s.params :=
  fun _ _ => rfl

@[simp] theorem State.takePicks_aoUs : ∀ s n, (State.takePicks s n).aoUs = s.aoUs :=
  fun _ _ => rfl

@[simp] theorem State.takePicks_rst : ∀ s n, (State.takePicks s n).rst = s.rst :=
  fun _ _ => rfl

@[simp] theorem State.takePicks_regs : ∀ s n, (State.takePicks s n).regs = s.regs :=
  fun _ _ => rfl

@[simp] theorem State.takePicks_ext : ∀ s n, (State.takePicks s n).ext = s.ext :=
  fun _ _ => rfl

@[simp] theorem State.takePicks_tags : ∀ s n, (State.takePicks s n).tags = s.tags :=
  fun _ _ => rfl

@[simp] theorem State.takePicks_hostMem : ∀ s n, (State.takePicks s n).hostMem = s.hostMem :=
  fun _ _ => rfl

@[simp] theorem State.takePicks_scratch : ∀ s n, (State.takePicks s n).scratch = s.scratch :=
  fun _ _ => rfl

@[simp] theorem State.takePicks_pool : ∀ s n, (State.takePicks s n).pool = s.pool :=
  fun _ _ => rfl

@[simp] theorem State.takePicks_pound : ∀ s n, (State.takePicks s n).pound = s.pound :=
  fun _ _ => rfl

@[simp] theorem State.takePicks_marks : ∀ s n, (State.takePicks s n).marks = s.marks :=
  fun _ _ => rfl

@[simp] theorem State.takePicks_imem : ∀ s n, (State.takePicks s n).imem = s.imem :=
  fun _ _ => rfl

@[simp] theorem State.takePicks_hq : ∀ s n, (State.takePicks s n).hq = s.hq :=
  fun _ _ => rfl

@[simp] theorem State.takePicks_regions : ∀ s n, (State.takePicks s n).regions = s.regions :=
  fun _ _ => rfl

@[simp] theorem State.takePicks_tileErrs : ∀ s n, (State.takePicks s n).tileErrs = s.tileErrs :=
  fun _ _ => rfl

@[simp] theorem State.takePicks_errWindowFrom : ∀ s n, (State.takePicks s n).errWindowFrom = s.errWindowFrom :=
  fun _ _ => rfl

@[simp] theorem State.takePicks_sv : ∀ s n, (State.takePicks s n).sv = s.sv :=
  fun _ _ => rfl

@[simp] theorem State.takePicks_rows : ∀ s n, (State.takePicks s n).rows = s.rows :=
  fun _ _ => rfl

@[simp] theorem State.takePicks_gathers : ∀ s n, (State.takePicks s n).gathers = s.gathers :=
  fun _ _ => rfl

@[simp] theorem State.takePicks_fab : ∀ s n, (State.takePicks s n).fab = s.fab :=
  fun _ _ => rfl

@[simp] theorem State.takePicks_col : ∀ s n, (State.takePicks s n).col = s.col :=
  fun _ _ => rfl

@[simp] theorem State.takePicks_tap : ∀ s n, (State.takePicks s n).tap = s.tap :=
  fun _ _ => rfl

@[simp] theorem State.takePicks_port : ∀ s n, (State.takePicks s n).port = s.port :=
  fun _ _ => rfl

@[simp] theorem State.takePicks_armed : ∀ s n, (State.takePicks s n).armed = s.armed :=
  fun _ _ => rfl

@[simp] theorem State.takePicks_memCounts : ∀ s n, (State.takePicks s n).memCounts = s.memCounts :=
  fun _ _ => rfl

/-! ### `State.setRegion` -/

@[simp] theorem State.setRegion_pending : ∀ s r x, (State.setRegion s r x).pending = s.pending :=
  fun _ _ _ => rfl

@[simp] theorem State.setRegion_params : ∀ s r x, (State.setRegion s r x).params = s.params :=
  fun _ _ _ => rfl

@[simp] theorem State.setRegion_aoUs : ∀ s r x, (State.setRegion s r x).aoUs = s.aoUs :=
  fun _ _ _ => rfl

@[simp] theorem State.setRegion_rst : ∀ s r x, (State.setRegion s r x).rst = s.rst :=
  fun _ _ _ => rfl

@[simp] theorem State.setRegion_regs : ∀ s r x, (State.setRegion s r x).regs = s.regs :=
  fun _ _ _ => rfl

@[simp] theorem State.setRegion_ext : ∀ s r x, (State.setRegion s r x).ext = s.ext :=
  fun _ _ _ => rfl

@[simp] theorem State.setRegion_tags : ∀ s r x, (State.setRegion s r x).tags = s.tags :=
  fun _ _ _ => rfl

@[simp] theorem State.setRegion_hostMem : ∀ s r x, (State.setRegion s r x).hostMem = s.hostMem :=
  fun _ _ _ => rfl

@[simp] theorem State.setRegion_scratch : ∀ s r x, (State.setRegion s r x).scratch = s.scratch :=
  fun _ _ _ => rfl

@[simp] theorem State.setRegion_pool : ∀ s r x, (State.setRegion s r x).pool = s.pool :=
  fun _ _ _ => rfl

@[simp] theorem State.setRegion_pound : ∀ s r x, (State.setRegion s r x).pound = s.pound :=
  fun _ _ _ => rfl

@[simp] theorem State.setRegion_marks : ∀ s r x, (State.setRegion s r x).marks = s.marks :=
  fun _ _ _ => rfl

@[simp] theorem State.setRegion_imem : ∀ s r x, (State.setRegion s r x).imem = s.imem :=
  fun _ _ _ => rfl

@[simp] theorem State.setRegion_hq : ∀ s r x, (State.setRegion s r x).hq = s.hq :=
  fun _ _ _ => rfl

@[simp] theorem State.setRegion_tileErrs : ∀ s r x, (State.setRegion s r x).tileErrs = s.tileErrs :=
  fun _ _ _ => rfl

@[simp] theorem State.setRegion_errWindowFrom : ∀ s r x, (State.setRegion s r x).errWindowFrom = s.errWindowFrom :=
  fun _ _ _ => rfl

@[simp] theorem State.setRegion_sv : ∀ s r x, (State.setRegion s r x).sv = s.sv :=
  fun _ _ _ => rfl

@[simp] theorem State.setRegion_rows : ∀ s r x, (State.setRegion s r x).rows = s.rows :=
  fun _ _ _ => rfl

@[simp] theorem State.setRegion_gathers : ∀ s r x, (State.setRegion s r x).gathers = s.gathers :=
  fun _ _ _ => rfl

@[simp] theorem State.setRegion_fab : ∀ s r x, (State.setRegion s r x).fab = s.fab :=
  fun _ _ _ => rfl

@[simp] theorem State.setRegion_col : ∀ s r x, (State.setRegion s r x).col = s.col :=
  fun _ _ _ => rfl

@[simp] theorem State.setRegion_tap : ∀ s r x, (State.setRegion s r x).tap = s.tap :=
  fun _ _ _ => rfl

@[simp] theorem State.setRegion_port : ∀ s r x, (State.setRegion s r x).port = s.port :=
  fun _ _ _ => rfl

@[simp] theorem State.setRegion_armed : ∀ s r x, (State.setRegion s r x).armed = s.armed :=
  fun _ _ _ => rfl

@[simp] theorem State.setRegion_memCounts : ∀ s r x, (State.setRegion s r x).memCounts = s.memCounts :=
  fun _ _ _ => rfl

@[simp] theorem State.setRegion_picks : ∀ s r x, (State.setRegion s r x).picks = s.picks :=
  fun _ _ _ => rfl

/-! ### `State.updRegion` -/

@[simp] theorem State.updRegion_pending : ∀ s r f, (State.updRegion s r f).pending = s.pending :=
  fun _ _ _ => rfl

@[simp] theorem State.updRegion_params : ∀ s r f, (State.updRegion s r f).params = s.params :=
  fun _ _ _ => rfl

@[simp] theorem State.updRegion_aoUs : ∀ s r f, (State.updRegion s r f).aoUs = s.aoUs :=
  fun _ _ _ => rfl

@[simp] theorem State.updRegion_rst : ∀ s r f, (State.updRegion s r f).rst = s.rst :=
  fun _ _ _ => rfl

@[simp] theorem State.updRegion_regs : ∀ s r f, (State.updRegion s r f).regs = s.regs :=
  fun _ _ _ => rfl

@[simp] theorem State.updRegion_ext : ∀ s r f, (State.updRegion s r f).ext = s.ext :=
  fun _ _ _ => rfl

@[simp] theorem State.updRegion_tags : ∀ s r f, (State.updRegion s r f).tags = s.tags :=
  fun _ _ _ => rfl

@[simp] theorem State.updRegion_hostMem : ∀ s r f, (State.updRegion s r f).hostMem = s.hostMem :=
  fun _ _ _ => rfl

@[simp] theorem State.updRegion_scratch : ∀ s r f, (State.updRegion s r f).scratch = s.scratch :=
  fun _ _ _ => rfl

@[simp] theorem State.updRegion_pool : ∀ s r f, (State.updRegion s r f).pool = s.pool :=
  fun _ _ _ => rfl

@[simp] theorem State.updRegion_pound : ∀ s r f, (State.updRegion s r f).pound = s.pound :=
  fun _ _ _ => rfl

@[simp] theorem State.updRegion_marks : ∀ s r f, (State.updRegion s r f).marks = s.marks :=
  fun _ _ _ => rfl

@[simp] theorem State.updRegion_imem : ∀ s r f, (State.updRegion s r f).imem = s.imem :=
  fun _ _ _ => rfl

@[simp] theorem State.updRegion_hq : ∀ s r f, (State.updRegion s r f).hq = s.hq :=
  fun _ _ _ => rfl

@[simp] theorem State.updRegion_tileErrs : ∀ s r f, (State.updRegion s r f).tileErrs = s.tileErrs :=
  fun _ _ _ => rfl

@[simp] theorem State.updRegion_errWindowFrom : ∀ s r f, (State.updRegion s r f).errWindowFrom = s.errWindowFrom :=
  fun _ _ _ => rfl

@[simp] theorem State.updRegion_sv : ∀ s r f, (State.updRegion s r f).sv = s.sv :=
  fun _ _ _ => rfl

@[simp] theorem State.updRegion_rows : ∀ s r f, (State.updRegion s r f).rows = s.rows :=
  fun _ _ _ => rfl

@[simp] theorem State.updRegion_gathers : ∀ s r f, (State.updRegion s r f).gathers = s.gathers :=
  fun _ _ _ => rfl

@[simp] theorem State.updRegion_fab : ∀ s r f, (State.updRegion s r f).fab = s.fab :=
  fun _ _ _ => rfl

@[simp] theorem State.updRegion_col : ∀ s r f, (State.updRegion s r f).col = s.col :=
  fun _ _ _ => rfl

@[simp] theorem State.updRegion_tap : ∀ s r f, (State.updRegion s r f).tap = s.tap :=
  fun _ _ _ => rfl

@[simp] theorem State.updRegion_port : ∀ s r f, (State.updRegion s r f).port = s.port :=
  fun _ _ _ => rfl

@[simp] theorem State.updRegion_armed : ∀ s r f, (State.updRegion s r f).armed = s.armed :=
  fun _ _ _ => rfl

@[simp] theorem State.updRegion_memCounts : ∀ s r f, (State.updRegion s r f).memCounts = s.memCounts :=
  fun _ _ _ => rfl

@[simp] theorem State.updRegion_picks : ∀ s r f, (State.updRegion s r f).picks = s.picks :=
  fun _ _ _ => rfl

/-! ### `State.setPort` -/

@[simp] theorem State.setPort_pending : ∀ s n x, (State.setPort s n x).pending = s.pending :=
  fun _ _ _ => rfl

@[simp] theorem State.setPort_params : ∀ s n x, (State.setPort s n x).params = s.params :=
  fun _ _ _ => rfl

@[simp] theorem State.setPort_aoUs : ∀ s n x, (State.setPort s n x).aoUs = s.aoUs :=
  fun _ _ _ => rfl

@[simp] theorem State.setPort_rst : ∀ s n x, (State.setPort s n x).rst = s.rst :=
  fun _ _ _ => rfl

@[simp] theorem State.setPort_regs : ∀ s n x, (State.setPort s n x).regs = s.regs :=
  fun _ _ _ => rfl

@[simp] theorem State.setPort_ext : ∀ s n x, (State.setPort s n x).ext = s.ext :=
  fun _ _ _ => rfl

@[simp] theorem State.setPort_tags : ∀ s n x, (State.setPort s n x).tags = s.tags :=
  fun _ _ _ => rfl

@[simp] theorem State.setPort_hostMem : ∀ s n x, (State.setPort s n x).hostMem = s.hostMem :=
  fun _ _ _ => rfl

@[simp] theorem State.setPort_scratch : ∀ s n x, (State.setPort s n x).scratch = s.scratch :=
  fun _ _ _ => rfl

@[simp] theorem State.setPort_pool : ∀ s n x, (State.setPort s n x).pool = s.pool :=
  fun _ _ _ => rfl

@[simp] theorem State.setPort_pound : ∀ s n x, (State.setPort s n x).pound = s.pound :=
  fun _ _ _ => rfl

@[simp] theorem State.setPort_marks : ∀ s n x, (State.setPort s n x).marks = s.marks :=
  fun _ _ _ => rfl

@[simp] theorem State.setPort_imem : ∀ s n x, (State.setPort s n x).imem = s.imem :=
  fun _ _ _ => rfl

@[simp] theorem State.setPort_hq : ∀ s n x, (State.setPort s n x).hq = s.hq :=
  fun _ _ _ => rfl

@[simp] theorem State.setPort_regions : ∀ s n x, (State.setPort s n x).regions = s.regions :=
  fun _ _ _ => rfl

@[simp] theorem State.setPort_tileErrs : ∀ s n x, (State.setPort s n x).tileErrs = s.tileErrs :=
  fun _ _ _ => rfl

@[simp] theorem State.setPort_errWindowFrom : ∀ s n x, (State.setPort s n x).errWindowFrom = s.errWindowFrom :=
  fun _ _ _ => rfl

@[simp] theorem State.setPort_sv : ∀ s n x, (State.setPort s n x).sv = s.sv :=
  fun _ _ _ => rfl

@[simp] theorem State.setPort_rows : ∀ s n x, (State.setPort s n x).rows = s.rows :=
  fun _ _ _ => rfl

@[simp] theorem State.setPort_gathers : ∀ s n x, (State.setPort s n x).gathers = s.gathers :=
  fun _ _ _ => rfl

@[simp] theorem State.setPort_col : ∀ s n x, (State.setPort s n x).col = s.col :=
  fun _ _ _ => rfl

@[simp] theorem State.setPort_tap : ∀ s n x, (State.setPort s n x).tap = s.tap :=
  fun _ _ _ => rfl

@[simp] theorem State.setPort_port : ∀ s n x, (State.setPort s n x).port = s.port :=
  fun _ _ _ => rfl

@[simp] theorem State.setPort_armed : ∀ s n x, (State.setPort s n x).armed = s.armed :=
  fun _ _ _ => rfl

@[simp] theorem State.setPort_memCounts : ∀ s n x, (State.setPort s n x).memCounts = s.memCounts :=
  fun _ _ _ => rfl

@[simp] theorem State.setPort_picks : ∀ s n x, (State.setPort s n x).picks = s.picks :=
  fun _ _ _ => rfl

/-! ### `State.updPort` -/

@[simp] theorem State.updPort_pending : ∀ s n f, (State.updPort s n f).pending = s.pending :=
  fun _ _ _ => rfl

@[simp] theorem State.updPort_params : ∀ s n f, (State.updPort s n f).params = s.params :=
  fun _ _ _ => rfl

@[simp] theorem State.updPort_aoUs : ∀ s n f, (State.updPort s n f).aoUs = s.aoUs :=
  fun _ _ _ => rfl

@[simp] theorem State.updPort_rst : ∀ s n f, (State.updPort s n f).rst = s.rst :=
  fun _ _ _ => rfl

@[simp] theorem State.updPort_regs : ∀ s n f, (State.updPort s n f).regs = s.regs :=
  fun _ _ _ => rfl

@[simp] theorem State.updPort_ext : ∀ s n f, (State.updPort s n f).ext = s.ext :=
  fun _ _ _ => rfl

@[simp] theorem State.updPort_tags : ∀ s n f, (State.updPort s n f).tags = s.tags :=
  fun _ _ _ => rfl

@[simp] theorem State.updPort_hostMem : ∀ s n f, (State.updPort s n f).hostMem = s.hostMem :=
  fun _ _ _ => rfl

@[simp] theorem State.updPort_scratch : ∀ s n f, (State.updPort s n f).scratch = s.scratch :=
  fun _ _ _ => rfl

@[simp] theorem State.updPort_pool : ∀ s n f, (State.updPort s n f).pool = s.pool :=
  fun _ _ _ => rfl

@[simp] theorem State.updPort_pound : ∀ s n f, (State.updPort s n f).pound = s.pound :=
  fun _ _ _ => rfl

@[simp] theorem State.updPort_marks : ∀ s n f, (State.updPort s n f).marks = s.marks :=
  fun _ _ _ => rfl

@[simp] theorem State.updPort_imem : ∀ s n f, (State.updPort s n f).imem = s.imem :=
  fun _ _ _ => rfl

@[simp] theorem State.updPort_hq : ∀ s n f, (State.updPort s n f).hq = s.hq :=
  fun _ _ _ => rfl

@[simp] theorem State.updPort_regions : ∀ s n f, (State.updPort s n f).regions = s.regions :=
  fun _ _ _ => rfl

@[simp] theorem State.updPort_tileErrs : ∀ s n f, (State.updPort s n f).tileErrs = s.tileErrs :=
  fun _ _ _ => rfl

@[simp] theorem State.updPort_errWindowFrom : ∀ s n f, (State.updPort s n f).errWindowFrom = s.errWindowFrom :=
  fun _ _ _ => rfl

@[simp] theorem State.updPort_sv : ∀ s n f, (State.updPort s n f).sv = s.sv :=
  fun _ _ _ => rfl

@[simp] theorem State.updPort_rows : ∀ s n f, (State.updPort s n f).rows = s.rows :=
  fun _ _ _ => rfl

@[simp] theorem State.updPort_gathers : ∀ s n f, (State.updPort s n f).gathers = s.gathers :=
  fun _ _ _ => rfl

@[simp] theorem State.updPort_col : ∀ s n f, (State.updPort s n f).col = s.col :=
  fun _ _ _ => rfl

@[simp] theorem State.updPort_tap : ∀ s n f, (State.updPort s n f).tap = s.tap :=
  fun _ _ _ => rfl

@[simp] theorem State.updPort_port : ∀ s n f, (State.updPort s n f).port = s.port :=
  fun _ _ _ => rfl

@[simp] theorem State.updPort_armed : ∀ s n f, (State.updPort s n f).armed = s.armed :=
  fun _ _ _ => rfl

@[simp] theorem State.updPort_memCounts : ∀ s n f, (State.updPort s n f).memCounts = s.memCounts :=
  fun _ _ _ => rfl

@[simp] theorem State.updPort_picks : ∀ s n f, (State.updPort s n f).picks = s.picks :=
  fun _ _ _ => rfl

/-! ### `State.mapCtx` -/

@[simp] theorem State.mapCtx_pending : ∀ s p f, (State.mapCtx s p f).pending = s.pending :=
  fun _ _ _ => rfl

@[simp] theorem State.mapCtx_params : ∀ s p f, (State.mapCtx s p f).params = s.params :=
  fun _ _ _ => rfl

@[simp] theorem State.mapCtx_aoUs : ∀ s p f, (State.mapCtx s p f).aoUs = s.aoUs :=
  fun _ _ _ => rfl

@[simp] theorem State.mapCtx_rst : ∀ s p f, (State.mapCtx s p f).rst = s.rst :=
  fun _ _ _ => rfl

@[simp] theorem State.mapCtx_regs : ∀ s p f, (State.mapCtx s p f).regs = s.regs :=
  fun _ _ _ => rfl

@[simp] theorem State.mapCtx_ext : ∀ s p f, (State.mapCtx s p f).ext = s.ext :=
  fun _ _ _ => rfl

@[simp] theorem State.mapCtx_tags : ∀ s p f, (State.mapCtx s p f).tags = s.tags :=
  fun _ _ _ => rfl

@[simp] theorem State.mapCtx_hostMem : ∀ s p f, (State.mapCtx s p f).hostMem = s.hostMem :=
  fun _ _ _ => rfl

@[simp] theorem State.mapCtx_scratch : ∀ s p f, (State.mapCtx s p f).scratch = s.scratch :=
  fun _ _ _ => rfl

@[simp] theorem State.mapCtx_pool : ∀ s p f, (State.mapCtx s p f).pool = s.pool :=
  fun _ _ _ => rfl

@[simp] theorem State.mapCtx_pound : ∀ s p f, (State.mapCtx s p f).pound = s.pound :=
  fun _ _ _ => rfl

@[simp] theorem State.mapCtx_marks : ∀ s p f, (State.mapCtx s p f).marks = s.marks :=
  fun _ _ _ => rfl

@[simp] theorem State.mapCtx_imem : ∀ s p f, (State.mapCtx s p f).imem = s.imem :=
  fun _ _ _ => rfl

@[simp] theorem State.mapCtx_hq : ∀ s p f, (State.mapCtx s p f).hq = s.hq :=
  fun _ _ _ => rfl

@[simp] theorem State.mapCtx_regions : ∀ s p f, (State.mapCtx s p f).regions = s.regions :=
  fun _ _ _ => rfl

@[simp] theorem State.mapCtx_tileErrs : ∀ s p f, (State.mapCtx s p f).tileErrs = s.tileErrs :=
  fun _ _ _ => rfl

@[simp] theorem State.mapCtx_errWindowFrom : ∀ s p f, (State.mapCtx s p f).errWindowFrom = s.errWindowFrom :=
  fun _ _ _ => rfl

@[simp] theorem State.mapCtx_sv : ∀ s p f, (State.mapCtx s p f).sv = s.sv :=
  fun _ _ _ => rfl

@[simp] theorem State.mapCtx_rows : ∀ s p f, (State.mapCtx s p f).rows = s.rows :=
  fun _ _ _ => rfl

@[simp] theorem State.mapCtx_gathers : ∀ s p f, (State.mapCtx s p f).gathers = s.gathers :=
  fun _ _ _ => rfl

@[simp] theorem State.mapCtx_fab : ∀ s p f, (State.mapCtx s p f).fab = s.fab :=
  fun _ _ _ => rfl

@[simp] theorem State.mapCtx_tap : ∀ s p f, (State.mapCtx s p f).tap = s.tap :=
  fun _ _ _ => rfl

@[simp] theorem State.mapCtx_port : ∀ s p f, (State.mapCtx s p f).port = s.port :=
  fun _ _ _ => rfl

@[simp] theorem State.mapCtx_armed : ∀ s p f, (State.mapCtx s p f).armed = s.armed :=
  fun _ _ _ => rfl

@[simp] theorem State.mapCtx_memCounts : ∀ s p f, (State.mapCtx s p f).memCounts = s.memCounts :=
  fun _ _ _ => rfl

@[simp] theorem State.mapCtx_picks : ∀ s p f, (State.mapCtx s p f).picks = s.picks :=
  fun _ _ _ => rfl

/-! ### `State.putTier` -/

@[simp] theorem State.putTier_pending : ∀ s t m e, (State.putTier s t m e).pending = s.pending :=
  fun _ _ _ _ => rfl

@[simp] theorem State.putTier_params : ∀ s t m e, (State.putTier s t m e).params = s.params :=
  fun _ _ _ _ => rfl

@[simp] theorem State.putTier_aoUs : ∀ s t m e, (State.putTier s t m e).aoUs = s.aoUs :=
  fun _ _ _ _ => rfl

@[simp] theorem State.putTier_rst : ∀ s t m e, (State.putTier s t m e).rst = s.rst :=
  fun _ _ _ _ => rfl

@[simp] theorem State.putTier_regs : ∀ s t m e, (State.putTier s t m e).regs = s.regs :=
  fun _ _ _ _ => rfl

@[simp] theorem State.putTier_ext : ∀ s t m e, (State.putTier s t m e).ext = s.ext :=
  fun _ _ _ _ => rfl

@[simp] theorem State.putTier_tags : ∀ s t m e, (State.putTier s t m e).tags = s.tags :=
  fun _ _ _ _ => rfl

@[simp] theorem State.putTier_hostMem : ∀ s t m e, (State.putTier s t m e).hostMem = s.hostMem :=
  fun _ _ _ _ => rfl

@[simp] theorem State.putTier_scratch : ∀ s t m e, (State.putTier s t m e).scratch = s.scratch :=
  fun _ _ _ _ => rfl

@[simp] theorem State.putTier_pool : ∀ s t m e, (State.putTier s t m e).pool = s.pool :=
  fun _ _ _ _ => rfl

@[simp] theorem State.putTier_pound : ∀ s t m e, (State.putTier s t m e).pound = s.pound :=
  fun _ _ _ _ => rfl

@[simp] theorem State.putTier_marks : ∀ s t m e, (State.putTier s t m e).marks = s.marks :=
  fun _ _ _ _ => rfl

@[simp] theorem State.putTier_imem : ∀ s t m e, (State.putTier s t m e).imem = s.imem :=
  fun _ _ _ _ => rfl

@[simp] theorem State.putTier_hq : ∀ s t m e, (State.putTier s t m e).hq = s.hq :=
  fun _ _ _ _ => rfl

@[simp] theorem State.putTier_regions : ∀ s t m e, (State.putTier s t m e).regions = s.regions :=
  fun _ _ _ _ => rfl

@[simp] theorem State.putTier_tileErrs : ∀ s t m e, (State.putTier s t m e).tileErrs = s.tileErrs :=
  fun _ _ _ _ => rfl

@[simp] theorem State.putTier_errWindowFrom : ∀ s t m e, (State.putTier s t m e).errWindowFrom = s.errWindowFrom :=
  fun _ _ _ _ => rfl

@[simp] theorem State.putTier_sv : ∀ s t m e, (State.putTier s t m e).sv = s.sv :=
  fun _ _ _ _ => rfl

@[simp] theorem State.putTier_rows : ∀ s t m e, (State.putTier s t m e).rows = s.rows :=
  fun _ _ _ _ => rfl

@[simp] theorem State.putTier_gathers : ∀ s t m e, (State.putTier s t m e).gathers = s.gathers :=
  fun _ _ _ _ => rfl

@[simp] theorem State.putTier_fab : ∀ s t m e, (State.putTier s t m e).fab = s.fab :=
  fun _ _ _ _ => rfl

@[simp] theorem State.putTier_tap : ∀ s t m e, (State.putTier s t m e).tap = s.tap :=
  fun _ _ _ _ => rfl

@[simp] theorem State.putTier_port : ∀ s t m e, (State.putTier s t m e).port = s.port :=
  fun _ _ _ _ => rfl

@[simp] theorem State.putTier_armed : ∀ s t m e, (State.putTier s t m e).armed = s.armed :=
  fun _ _ _ _ => rfl

@[simp] theorem State.putTier_memCounts : ∀ s t m e, (State.putTier s t m e).memCounts = s.memCounts :=
  fun _ _ _ _ => rfl

@[simp] theorem State.putTier_picks : ∀ s t m e, (State.putTier s t m e).picks = s.picks :=
  fun _ _ _ _ => rfl

/-! ### `State.setCq` -/

@[simp] theorem State.setCq_pending : ∀ s n q, (State.setCq s n q).pending = s.pending :=
  fun _ _ _ => rfl

@[simp] theorem State.setCq_params : ∀ s n q, (State.setCq s n q).params = s.params :=
  fun _ _ _ => rfl

@[simp] theorem State.setCq_aoUs : ∀ s n q, (State.setCq s n q).aoUs = s.aoUs :=
  fun _ _ _ => rfl

@[simp] theorem State.setCq_rst : ∀ s n q, (State.setCq s n q).rst = s.rst :=
  fun _ _ _ => rfl

@[simp] theorem State.setCq_regs : ∀ s n q, (State.setCq s n q).regs = s.regs :=
  fun _ _ _ => rfl

@[simp] theorem State.setCq_ext : ∀ s n q, (State.setCq s n q).ext = s.ext :=
  fun _ _ _ => rfl

@[simp] theorem State.setCq_tags : ∀ s n q, (State.setCq s n q).tags = s.tags :=
  fun _ _ _ => rfl

@[simp] theorem State.setCq_hostMem : ∀ s n q, (State.setCq s n q).hostMem = s.hostMem :=
  fun _ _ _ => rfl

@[simp] theorem State.setCq_scratch : ∀ s n q, (State.setCq s n q).scratch = s.scratch :=
  fun _ _ _ => rfl

@[simp] theorem State.setCq_pool : ∀ s n q, (State.setCq s n q).pool = s.pool :=
  fun _ _ _ => rfl

@[simp] theorem State.setCq_pound : ∀ s n q, (State.setCq s n q).pound = s.pound :=
  fun _ _ _ => rfl

@[simp] theorem State.setCq_marks : ∀ s n q, (State.setCq s n q).marks = s.marks :=
  fun _ _ _ => rfl

@[simp] theorem State.setCq_imem : ∀ s n q, (State.setCq s n q).imem = s.imem :=
  fun _ _ _ => rfl

@[simp] theorem State.setCq_regions : ∀ s n q, (State.setCq s n q).regions = s.regions :=
  fun _ _ _ => rfl

@[simp] theorem State.setCq_tileErrs : ∀ s n q, (State.setCq s n q).tileErrs = s.tileErrs :=
  fun _ _ _ => rfl

@[simp] theorem State.setCq_errWindowFrom : ∀ s n q, (State.setCq s n q).errWindowFrom = s.errWindowFrom :=
  fun _ _ _ => rfl

@[simp] theorem State.setCq_sv : ∀ s n q, (State.setCq s n q).sv = s.sv :=
  fun _ _ _ => rfl

@[simp] theorem State.setCq_rows : ∀ s n q, (State.setCq s n q).rows = s.rows :=
  fun _ _ _ => rfl

@[simp] theorem State.setCq_gathers : ∀ s n q, (State.setCq s n q).gathers = s.gathers :=
  fun _ _ _ => rfl

@[simp] theorem State.setCq_fab : ∀ s n q, (State.setCq s n q).fab = s.fab :=
  fun _ _ _ => rfl

@[simp] theorem State.setCq_col : ∀ s n q, (State.setCq s n q).col = s.col :=
  fun _ _ _ => rfl

@[simp] theorem State.setCq_tap : ∀ s n q, (State.setCq s n q).tap = s.tap :=
  fun _ _ _ => rfl

@[simp] theorem State.setCq_port : ∀ s n q, (State.setCq s n q).port = s.port :=
  fun _ _ _ => rfl

@[simp] theorem State.setCq_armed : ∀ s n q, (State.setCq s n q).armed = s.armed :=
  fun _ _ _ => rfl

@[simp] theorem State.setCq_memCounts : ∀ s n q, (State.setCq s n q).memCounts = s.memCounts :=
  fun _ _ _ => rfl

@[simp] theorem State.setCq_picks : ∀ s n q, (State.setCq s n q).picks = s.picks :=
  fun _ _ _ => rfl

/-! ### `State.setBerth` -/

@[simp] theorem State.setBerth_pending : ∀ s n x, (State.setBerth s n x).pending = s.pending :=
  fun _ _ _ => rfl

@[simp] theorem State.setBerth_params : ∀ s n x, (State.setBerth s n x).params = s.params :=
  fun _ _ _ => rfl

@[simp] theorem State.setBerth_aoUs : ∀ s n x, (State.setBerth s n x).aoUs = s.aoUs :=
  fun _ _ _ => rfl

@[simp] theorem State.setBerth_rst : ∀ s n x, (State.setBerth s n x).rst = s.rst :=
  fun _ _ _ => rfl

@[simp] theorem State.setBerth_regs : ∀ s n x, (State.setBerth s n x).regs = s.regs :=
  fun _ _ _ => rfl

@[simp] theorem State.setBerth_ext : ∀ s n x, (State.setBerth s n x).ext = s.ext :=
  fun _ _ _ => rfl

@[simp] theorem State.setBerth_tags : ∀ s n x, (State.setBerth s n x).tags = s.tags :=
  fun _ _ _ => rfl

@[simp] theorem State.setBerth_hostMem : ∀ s n x, (State.setBerth s n x).hostMem = s.hostMem :=
  fun _ _ _ => rfl

@[simp] theorem State.setBerth_scratch : ∀ s n x, (State.setBerth s n x).scratch = s.scratch :=
  fun _ _ _ => rfl

@[simp] theorem State.setBerth_pool : ∀ s n x, (State.setBerth s n x).pool = s.pool :=
  fun _ _ _ => rfl

@[simp] theorem State.setBerth_pound : ∀ s n x, (State.setBerth s n x).pound = s.pound :=
  fun _ _ _ => rfl

@[simp] theorem State.setBerth_marks : ∀ s n x, (State.setBerth s n x).marks = s.marks :=
  fun _ _ _ => rfl

@[simp] theorem State.setBerth_imem : ∀ s n x, (State.setBerth s n x).imem = s.imem :=
  fun _ _ _ => rfl

@[simp] theorem State.setBerth_hq : ∀ s n x, (State.setBerth s n x).hq = s.hq :=
  fun _ _ _ => rfl

@[simp] theorem State.setBerth_regions : ∀ s n x, (State.setBerth s n x).regions = s.regions :=
  fun _ _ _ => rfl

@[simp] theorem State.setBerth_tileErrs : ∀ s n x, (State.setBerth s n x).tileErrs = s.tileErrs :=
  fun _ _ _ => rfl

@[simp] theorem State.setBerth_errWindowFrom : ∀ s n x, (State.setBerth s n x).errWindowFrom = s.errWindowFrom :=
  fun _ _ _ => rfl

@[simp] theorem State.setBerth_rows : ∀ s n x, (State.setBerth s n x).rows = s.rows :=
  fun _ _ _ => rfl

@[simp] theorem State.setBerth_gathers : ∀ s n x, (State.setBerth s n x).gathers = s.gathers :=
  fun _ _ _ => rfl

@[simp] theorem State.setBerth_fab : ∀ s n x, (State.setBerth s n x).fab = s.fab :=
  fun _ _ _ => rfl

@[simp] theorem State.setBerth_col : ∀ s n x, (State.setBerth s n x).col = s.col :=
  fun _ _ _ => rfl

@[simp] theorem State.setBerth_tap : ∀ s n x, (State.setBerth s n x).tap = s.tap :=
  fun _ _ _ => rfl

@[simp] theorem State.setBerth_port : ∀ s n x, (State.setBerth s n x).port = s.port :=
  fun _ _ _ => rfl

@[simp] theorem State.setBerth_armed : ∀ s n x, (State.setBerth s n x).armed = s.armed :=
  fun _ _ _ => rfl

@[simp] theorem State.setBerth_memCounts : ∀ s n x, (State.setBerth s n x).memCounts = s.memCounts :=
  fun _ _ _ => rfl

@[simp] theorem State.setBerth_picks : ∀ s n x, (State.setBerth s n x).picks = s.picks :=
  fun _ _ _ => rfl

/-! ### `State.setMooring` -/

@[simp] theorem State.setMooring_pending : ∀ s m x, (State.setMooring s m x).pending = s.pending :=
  fun _ _ _ => rfl

@[simp] theorem State.setMooring_params : ∀ s m x, (State.setMooring s m x).params = s.params :=
  fun _ _ _ => rfl

@[simp] theorem State.setMooring_aoUs : ∀ s m x, (State.setMooring s m x).aoUs = s.aoUs :=
  fun _ _ _ => rfl

@[simp] theorem State.setMooring_rst : ∀ s m x, (State.setMooring s m x).rst = s.rst :=
  fun _ _ _ => rfl

@[simp] theorem State.setMooring_regs : ∀ s m x, (State.setMooring s m x).regs = s.regs :=
  fun _ _ _ => rfl

@[simp] theorem State.setMooring_ext : ∀ s m x, (State.setMooring s m x).ext = s.ext :=
  fun _ _ _ => rfl

@[simp] theorem State.setMooring_tags : ∀ s m x, (State.setMooring s m x).tags = s.tags :=
  fun _ _ _ => rfl

@[simp] theorem State.setMooring_hostMem : ∀ s m x, (State.setMooring s m x).hostMem = s.hostMem :=
  fun _ _ _ => rfl

@[simp] theorem State.setMooring_scratch : ∀ s m x, (State.setMooring s m x).scratch = s.scratch :=
  fun _ _ _ => rfl

@[simp] theorem State.setMooring_pool : ∀ s m x, (State.setMooring s m x).pool = s.pool :=
  fun _ _ _ => rfl

@[simp] theorem State.setMooring_pound : ∀ s m x, (State.setMooring s m x).pound = s.pound :=
  fun _ _ _ => rfl

@[simp] theorem State.setMooring_marks : ∀ s m x, (State.setMooring s m x).marks = s.marks :=
  fun _ _ _ => rfl

@[simp] theorem State.setMooring_imem : ∀ s m x, (State.setMooring s m x).imem = s.imem :=
  fun _ _ _ => rfl

@[simp] theorem State.setMooring_hq : ∀ s m x, (State.setMooring s m x).hq = s.hq :=
  fun _ _ _ => rfl

@[simp] theorem State.setMooring_regions : ∀ s m x, (State.setMooring s m x).regions = s.regions :=
  fun _ _ _ => rfl

@[simp] theorem State.setMooring_tileErrs : ∀ s m x, (State.setMooring s m x).tileErrs = s.tileErrs :=
  fun _ _ _ => rfl

@[simp] theorem State.setMooring_errWindowFrom : ∀ s m x, (State.setMooring s m x).errWindowFrom = s.errWindowFrom :=
  fun _ _ _ => rfl

@[simp] theorem State.setMooring_rows : ∀ s m x, (State.setMooring s m x).rows = s.rows :=
  fun _ _ _ => rfl

@[simp] theorem State.setMooring_gathers : ∀ s m x, (State.setMooring s m x).gathers = s.gathers :=
  fun _ _ _ => rfl

@[simp] theorem State.setMooring_fab : ∀ s m x, (State.setMooring s m x).fab = s.fab :=
  fun _ _ _ => rfl

@[simp] theorem State.setMooring_col : ∀ s m x, (State.setMooring s m x).col = s.col :=
  fun _ _ _ => rfl

@[simp] theorem State.setMooring_tap : ∀ s m x, (State.setMooring s m x).tap = s.tap :=
  fun _ _ _ => rfl

@[simp] theorem State.setMooring_port : ∀ s m x, (State.setMooring s m x).port = s.port :=
  fun _ _ _ => rfl

@[simp] theorem State.setMooring_armed : ∀ s m x, (State.setMooring s m x).armed = s.armed :=
  fun _ _ _ => rfl

@[simp] theorem State.setMooring_memCounts : ∀ s m x, (State.setMooring s m x).memCounts = s.memCounts :=
  fun _ _ _ => rfl

@[simp] theorem State.setMooring_picks : ∀ s m x, (State.setMooring s m x).picks = s.picks :=
  fun _ _ _ => rfl

/-! ### `State.updMooring` -/

@[simp] theorem State.updMooring_pending : ∀ s m f, (State.updMooring s m f).pending = s.pending :=
  fun _ _ _ => rfl

@[simp] theorem State.updMooring_params : ∀ s m f, (State.updMooring s m f).params = s.params :=
  fun _ _ _ => rfl

@[simp] theorem State.updMooring_aoUs : ∀ s m f, (State.updMooring s m f).aoUs = s.aoUs :=
  fun _ _ _ => rfl

@[simp] theorem State.updMooring_rst : ∀ s m f, (State.updMooring s m f).rst = s.rst :=
  fun _ _ _ => rfl

@[simp] theorem State.updMooring_regs : ∀ s m f, (State.updMooring s m f).regs = s.regs :=
  fun _ _ _ => rfl

@[simp] theorem State.updMooring_ext : ∀ s m f, (State.updMooring s m f).ext = s.ext :=
  fun _ _ _ => rfl

@[simp] theorem State.updMooring_tags : ∀ s m f, (State.updMooring s m f).tags = s.tags :=
  fun _ _ _ => rfl

@[simp] theorem State.updMooring_hostMem : ∀ s m f, (State.updMooring s m f).hostMem = s.hostMem :=
  fun _ _ _ => rfl

@[simp] theorem State.updMooring_scratch : ∀ s m f, (State.updMooring s m f).scratch = s.scratch :=
  fun _ _ _ => rfl

@[simp] theorem State.updMooring_pool : ∀ s m f, (State.updMooring s m f).pool = s.pool :=
  fun _ _ _ => rfl

@[simp] theorem State.updMooring_pound : ∀ s m f, (State.updMooring s m f).pound = s.pound :=
  fun _ _ _ => rfl

@[simp] theorem State.updMooring_marks : ∀ s m f, (State.updMooring s m f).marks = s.marks :=
  fun _ _ _ => rfl

@[simp] theorem State.updMooring_imem : ∀ s m f, (State.updMooring s m f).imem = s.imem :=
  fun _ _ _ => rfl

@[simp] theorem State.updMooring_hq : ∀ s m f, (State.updMooring s m f).hq = s.hq :=
  fun _ _ _ => rfl

@[simp] theorem State.updMooring_regions : ∀ s m f, (State.updMooring s m f).regions = s.regions :=
  fun _ _ _ => rfl

@[simp] theorem State.updMooring_tileErrs : ∀ s m f, (State.updMooring s m f).tileErrs = s.tileErrs :=
  fun _ _ _ => rfl

@[simp] theorem State.updMooring_errWindowFrom : ∀ s m f, (State.updMooring s m f).errWindowFrom = s.errWindowFrom :=
  fun _ _ _ => rfl

@[simp] theorem State.updMooring_rows : ∀ s m f, (State.updMooring s m f).rows = s.rows :=
  fun _ _ _ => rfl

@[simp] theorem State.updMooring_gathers : ∀ s m f, (State.updMooring s m f).gathers = s.gathers :=
  fun _ _ _ => rfl

@[simp] theorem State.updMooring_fab : ∀ s m f, (State.updMooring s m f).fab = s.fab :=
  fun _ _ _ => rfl

@[simp] theorem State.updMooring_col : ∀ s m f, (State.updMooring s m f).col = s.col :=
  fun _ _ _ => rfl

@[simp] theorem State.updMooring_tap : ∀ s m f, (State.updMooring s m f).tap = s.tap :=
  fun _ _ _ => rfl

@[simp] theorem State.updMooring_port : ∀ s m f, (State.updMooring s m f).port = s.port :=
  fun _ _ _ => rfl

@[simp] theorem State.updMooring_armed : ∀ s m f, (State.updMooring s m f).armed = s.armed :=
  fun _ _ _ => rfl

@[simp] theorem State.updMooring_memCounts : ∀ s m f, (State.updMooring s m f).memCounts = s.memCounts :=
  fun _ _ _ => rfl

@[simp] theorem State.updMooring_picks : ∀ s m f, (State.updMooring s m f).picks = s.picks :=
  fun _ _ _ => rfl

/-! ### `State.setAccount` -/

@[simp] theorem State.setAccount_pending : ∀ s n x, (State.setAccount s n x).pending = s.pending :=
  fun _ _ _ => rfl

@[simp] theorem State.setAccount_params : ∀ s n x, (State.setAccount s n x).params = s.params :=
  fun _ _ _ => rfl

@[simp] theorem State.setAccount_aoUs : ∀ s n x, (State.setAccount s n x).aoUs = s.aoUs :=
  fun _ _ _ => rfl

@[simp] theorem State.setAccount_rst : ∀ s n x, (State.setAccount s n x).rst = s.rst :=
  fun _ _ _ => rfl

@[simp] theorem State.setAccount_regs : ∀ s n x, (State.setAccount s n x).regs = s.regs :=
  fun _ _ _ => rfl

@[simp] theorem State.setAccount_ext : ∀ s n x, (State.setAccount s n x).ext = s.ext :=
  fun _ _ _ => rfl

@[simp] theorem State.setAccount_tags : ∀ s n x, (State.setAccount s n x).tags = s.tags :=
  fun _ _ _ => rfl

@[simp] theorem State.setAccount_hostMem : ∀ s n x, (State.setAccount s n x).hostMem = s.hostMem :=
  fun _ _ _ => rfl

@[simp] theorem State.setAccount_scratch : ∀ s n x, (State.setAccount s n x).scratch = s.scratch :=
  fun _ _ _ => rfl

@[simp] theorem State.setAccount_pool : ∀ s n x, (State.setAccount s n x).pool = s.pool :=
  fun _ _ _ => rfl

@[simp] theorem State.setAccount_pound : ∀ s n x, (State.setAccount s n x).pound = s.pound :=
  fun _ _ _ => rfl

@[simp] theorem State.setAccount_marks : ∀ s n x, (State.setAccount s n x).marks = s.marks :=
  fun _ _ _ => rfl

@[simp] theorem State.setAccount_imem : ∀ s n x, (State.setAccount s n x).imem = s.imem :=
  fun _ _ _ => rfl

@[simp] theorem State.setAccount_hq : ∀ s n x, (State.setAccount s n x).hq = s.hq :=
  fun _ _ _ => rfl

@[simp] theorem State.setAccount_regions : ∀ s n x, (State.setAccount s n x).regions = s.regions :=
  fun _ _ _ => rfl

@[simp] theorem State.setAccount_tileErrs : ∀ s n x, (State.setAccount s n x).tileErrs = s.tileErrs :=
  fun _ _ _ => rfl

@[simp] theorem State.setAccount_errWindowFrom : ∀ s n x, (State.setAccount s n x).errWindowFrom = s.errWindowFrom :=
  fun _ _ _ => rfl

@[simp] theorem State.setAccount_rows : ∀ s n x, (State.setAccount s n x).rows = s.rows :=
  fun _ _ _ => rfl

@[simp] theorem State.setAccount_gathers : ∀ s n x, (State.setAccount s n x).gathers = s.gathers :=
  fun _ _ _ => rfl

@[simp] theorem State.setAccount_fab : ∀ s n x, (State.setAccount s n x).fab = s.fab :=
  fun _ _ _ => rfl

@[simp] theorem State.setAccount_col : ∀ s n x, (State.setAccount s n x).col = s.col :=
  fun _ _ _ => rfl

@[simp] theorem State.setAccount_tap : ∀ s n x, (State.setAccount s n x).tap = s.tap :=
  fun _ _ _ => rfl

@[simp] theorem State.setAccount_port : ∀ s n x, (State.setAccount s n x).port = s.port :=
  fun _ _ _ => rfl

@[simp] theorem State.setAccount_armed : ∀ s n x, (State.setAccount s n x).armed = s.armed :=
  fun _ _ _ => rfl

@[simp] theorem State.setAccount_memCounts : ∀ s n x, (State.setAccount s n x).memCounts = s.memCounts :=
  fun _ _ _ => rfl

@[simp] theorem State.setAccount_picks : ∀ s n x, (State.setAccount s n x).picks = s.picks :=
  fun _ _ _ => rfl

/-! ### `State.setTagSt` -/

@[simp] theorem State.setTagSt_pending : ∀ s k x, (State.setTagSt s k x).pending = s.pending :=
  fun _ _ _ => rfl

@[simp] theorem State.setTagSt_params : ∀ s k x, (State.setTagSt s k x).params = s.params :=
  fun _ _ _ => rfl

@[simp] theorem State.setTagSt_aoUs : ∀ s k x, (State.setTagSt s k x).aoUs = s.aoUs :=
  fun _ _ _ => rfl

@[simp] theorem State.setTagSt_rst : ∀ s k x, (State.setTagSt s k x).rst = s.rst :=
  fun _ _ _ => rfl

@[simp] theorem State.setTagSt_regs : ∀ s k x, (State.setTagSt s k x).regs = s.regs :=
  fun _ _ _ => rfl

@[simp] theorem State.setTagSt_ext : ∀ s k x, (State.setTagSt s k x).ext = s.ext :=
  fun _ _ _ => rfl

@[simp] theorem State.setTagSt_tags : ∀ s k x, (State.setTagSt s k x).tags = s.tags :=
  fun _ _ _ => rfl

@[simp] theorem State.setTagSt_hostMem : ∀ s k x, (State.setTagSt s k x).hostMem = s.hostMem :=
  fun _ _ _ => rfl

@[simp] theorem State.setTagSt_scratch : ∀ s k x, (State.setTagSt s k x).scratch = s.scratch :=
  fun _ _ _ => rfl

@[simp] theorem State.setTagSt_pool : ∀ s k x, (State.setTagSt s k x).pool = s.pool :=
  fun _ _ _ => rfl

@[simp] theorem State.setTagSt_pound : ∀ s k x, (State.setTagSt s k x).pound = s.pound :=
  fun _ _ _ => rfl

@[simp] theorem State.setTagSt_marks : ∀ s k x, (State.setTagSt s k x).marks = s.marks :=
  fun _ _ _ => rfl

@[simp] theorem State.setTagSt_imem : ∀ s k x, (State.setTagSt s k x).imem = s.imem :=
  fun _ _ _ => rfl

@[simp] theorem State.setTagSt_hq : ∀ s k x, (State.setTagSt s k x).hq = s.hq :=
  fun _ _ _ => rfl

@[simp] theorem State.setTagSt_regions : ∀ s k x, (State.setTagSt s k x).regions = s.regions :=
  fun _ _ _ => rfl

@[simp] theorem State.setTagSt_tileErrs : ∀ s k x, (State.setTagSt s k x).tileErrs = s.tileErrs :=
  fun _ _ _ => rfl

@[simp] theorem State.setTagSt_errWindowFrom : ∀ s k x, (State.setTagSt s k x).errWindowFrom = s.errWindowFrom :=
  fun _ _ _ => rfl

@[simp] theorem State.setTagSt_sv : ∀ s k x, (State.setTagSt s k x).sv = s.sv :=
  fun _ _ _ => rfl

@[simp] theorem State.setTagSt_rows : ∀ s k x, (State.setTagSt s k x).rows = s.rows :=
  fun _ _ _ => rfl

@[simp] theorem State.setTagSt_gathers : ∀ s k x, (State.setTagSt s k x).gathers = s.gathers :=
  fun _ _ _ => rfl

@[simp] theorem State.setTagSt_col : ∀ s k x, (State.setTagSt s k x).col = s.col :=
  fun _ _ _ => rfl

@[simp] theorem State.setTagSt_tap : ∀ s k x, (State.setTagSt s k x).tap = s.tap :=
  fun _ _ _ => rfl

@[simp] theorem State.setTagSt_port : ∀ s k x, (State.setTagSt s k x).port = s.port :=
  fun _ _ _ => rfl

@[simp] theorem State.setTagSt_armed : ∀ s k x, (State.setTagSt s k x).armed = s.armed :=
  fun _ _ _ => rfl

@[simp] theorem State.setTagSt_memCounts : ∀ s k x, (State.setTagSt s k x).memCounts = s.memCounts :=
  fun _ _ _ => rfl

@[simp] theorem State.setTagSt_picks : ∀ s k x, (State.setTagSt s k x).picks = s.picks :=
  fun _ _ _ => rfl

/-! ### `State.updItem` -/

@[simp] theorem State.updItem_pending : ∀ s j f, (State.updItem s j f).pending = s.pending :=
  fun _ _ _ => rfl

@[simp] theorem State.updItem_params : ∀ s j f, (State.updItem s j f).params = s.params :=
  fun _ _ _ => rfl

@[simp] theorem State.updItem_aoUs : ∀ s j f, (State.updItem s j f).aoUs = s.aoUs :=
  fun _ _ _ => rfl

@[simp] theorem State.updItem_rst : ∀ s j f, (State.updItem s j f).rst = s.rst :=
  fun _ _ _ => rfl

@[simp] theorem State.updItem_regs : ∀ s j f, (State.updItem s j f).regs = s.regs :=
  fun _ _ _ => rfl

@[simp] theorem State.updItem_ext : ∀ s j f, (State.updItem s j f).ext = s.ext :=
  fun _ _ _ => rfl

@[simp] theorem State.updItem_tags : ∀ s j f, (State.updItem s j f).tags = s.tags :=
  fun _ _ _ => rfl

@[simp] theorem State.updItem_hostMem : ∀ s j f, (State.updItem s j f).hostMem = s.hostMem :=
  fun _ _ _ => rfl

@[simp] theorem State.updItem_scratch : ∀ s j f, (State.updItem s j f).scratch = s.scratch :=
  fun _ _ _ => rfl

@[simp] theorem State.updItem_pool : ∀ s j f, (State.updItem s j f).pool = s.pool :=
  fun _ _ _ => rfl

@[simp] theorem State.updItem_pound : ∀ s j f, (State.updItem s j f).pound = s.pound :=
  fun _ _ _ => rfl

@[simp] theorem State.updItem_marks : ∀ s j f, (State.updItem s j f).marks = s.marks :=
  fun _ _ _ => rfl

@[simp] theorem State.updItem_imem : ∀ s j f, (State.updItem s j f).imem = s.imem :=
  fun _ _ _ => rfl

@[simp] theorem State.updItem_regions : ∀ s j f, (State.updItem s j f).regions = s.regions :=
  fun _ _ _ => rfl

@[simp] theorem State.updItem_tileErrs : ∀ s j f, (State.updItem s j f).tileErrs = s.tileErrs :=
  fun _ _ _ => rfl

@[simp] theorem State.updItem_errWindowFrom : ∀ s j f, (State.updItem s j f).errWindowFrom = s.errWindowFrom :=
  fun _ _ _ => rfl

@[simp] theorem State.updItem_sv : ∀ s j f, (State.updItem s j f).sv = s.sv :=
  fun _ _ _ => rfl

@[simp] theorem State.updItem_rows : ∀ s j f, (State.updItem s j f).rows = s.rows :=
  fun _ _ _ => rfl

@[simp] theorem State.updItem_gathers : ∀ s j f, (State.updItem s j f).gathers = s.gathers :=
  fun _ _ _ => rfl

@[simp] theorem State.updItem_fab : ∀ s j f, (State.updItem s j f).fab = s.fab :=
  fun _ _ _ => rfl

@[simp] theorem State.updItem_col : ∀ s j f, (State.updItem s j f).col = s.col :=
  fun _ _ _ => rfl

@[simp] theorem State.updItem_tap : ∀ s j f, (State.updItem s j f).tap = s.tap :=
  fun _ _ _ => rfl

@[simp] theorem State.updItem_port : ∀ s j f, (State.updItem s j f).port = s.port :=
  fun _ _ _ => rfl

@[simp] theorem State.updItem_armed : ∀ s j f, (State.updItem s j f).armed = s.armed :=
  fun _ _ _ => rfl

@[simp] theorem State.updItem_memCounts : ∀ s j f, (State.updItem s j f).memCounts = s.memCounts :=
  fun _ _ _ => rfl

@[simp] theorem State.updItem_picks : ∀ s j f, (State.updItem s j f).picks = s.picks :=
  fun _ _ _ => rfl

/-! ### `State.setSq` -/

@[simp] theorem State.setSq_pending : ∀ s n q, (State.setSq s n q).pending = s.pending :=
  fun _ _ _ => rfl

@[simp] theorem State.setSq_params : ∀ s n q, (State.setSq s n q).params = s.params :=
  fun _ _ _ => rfl

@[simp] theorem State.setSq_aoUs : ∀ s n q, (State.setSq s n q).aoUs = s.aoUs :=
  fun _ _ _ => rfl

@[simp] theorem State.setSq_rst : ∀ s n q, (State.setSq s n q).rst = s.rst :=
  fun _ _ _ => rfl

@[simp] theorem State.setSq_regs : ∀ s n q, (State.setSq s n q).regs = s.regs :=
  fun _ _ _ => rfl

@[simp] theorem State.setSq_ext : ∀ s n q, (State.setSq s n q).ext = s.ext :=
  fun _ _ _ => rfl

@[simp] theorem State.setSq_tags : ∀ s n q, (State.setSq s n q).tags = s.tags :=
  fun _ _ _ => rfl

@[simp] theorem State.setSq_hostMem : ∀ s n q, (State.setSq s n q).hostMem = s.hostMem :=
  fun _ _ _ => rfl

@[simp] theorem State.setSq_scratch : ∀ s n q, (State.setSq s n q).scratch = s.scratch :=
  fun _ _ _ => rfl

@[simp] theorem State.setSq_pool : ∀ s n q, (State.setSq s n q).pool = s.pool :=
  fun _ _ _ => rfl

@[simp] theorem State.setSq_pound : ∀ s n q, (State.setSq s n q).pound = s.pound :=
  fun _ _ _ => rfl

@[simp] theorem State.setSq_marks : ∀ s n q, (State.setSq s n q).marks = s.marks :=
  fun _ _ _ => rfl

@[simp] theorem State.setSq_imem : ∀ s n q, (State.setSq s n q).imem = s.imem :=
  fun _ _ _ => rfl

@[simp] theorem State.setSq_regions : ∀ s n q, (State.setSq s n q).regions = s.regions :=
  fun _ _ _ => rfl

@[simp] theorem State.setSq_tileErrs : ∀ s n q, (State.setSq s n q).tileErrs = s.tileErrs :=
  fun _ _ _ => rfl

@[simp] theorem State.setSq_errWindowFrom : ∀ s n q, (State.setSq s n q).errWindowFrom = s.errWindowFrom :=
  fun _ _ _ => rfl

@[simp] theorem State.setSq_sv : ∀ s n q, (State.setSq s n q).sv = s.sv :=
  fun _ _ _ => rfl

@[simp] theorem State.setSq_rows : ∀ s n q, (State.setSq s n q).rows = s.rows :=
  fun _ _ _ => rfl

@[simp] theorem State.setSq_gathers : ∀ s n q, (State.setSq s n q).gathers = s.gathers :=
  fun _ _ _ => rfl

@[simp] theorem State.setSq_fab : ∀ s n q, (State.setSq s n q).fab = s.fab :=
  fun _ _ _ => rfl

@[simp] theorem State.setSq_col : ∀ s n q, (State.setSq s n q).col = s.col :=
  fun _ _ _ => rfl

@[simp] theorem State.setSq_tap : ∀ s n q, (State.setSq s n q).tap = s.tap :=
  fun _ _ _ => rfl

@[simp] theorem State.setSq_port : ∀ s n q, (State.setSq s n q).port = s.port :=
  fun _ _ _ => rfl

@[simp] theorem State.setSq_armed : ∀ s n q, (State.setSq s n q).armed = s.armed :=
  fun _ _ _ => rfl

@[simp] theorem State.setSq_memCounts : ∀ s n q, (State.setSq s n q).memCounts = s.memCounts :=
  fun _ _ _ => rfl

@[simp] theorem State.setSq_picks : ∀ s n q, (State.setSq s n q).picks = s.picks :=
  fun _ _ _ => rfl

/-! ### `State.dropStale` -/

@[simp] theorem State.dropStale_pending : ∀ s, (State.dropStale s).pending = s.pending :=
  fun _ => rfl

@[simp] theorem State.dropStale_params : ∀ s, (State.dropStale s).params = s.params :=
  fun _ => rfl

@[simp] theorem State.dropStale_aoUs : ∀ s, (State.dropStale s).aoUs = s.aoUs :=
  fun _ => rfl

@[simp] theorem State.dropStale_rst : ∀ s, (State.dropStale s).rst = s.rst :=
  fun _ => rfl

@[simp] theorem State.dropStale_regs : ∀ s, (State.dropStale s).regs = s.regs :=
  fun _ => rfl

@[simp] theorem State.dropStale_ext : ∀ s, (State.dropStale s).ext = s.ext :=
  fun _ => rfl

@[simp] theorem State.dropStale_tags : ∀ s, (State.dropStale s).tags = s.tags :=
  fun _ => rfl

@[simp] theorem State.dropStale_hostMem : ∀ s, (State.dropStale s).hostMem = s.hostMem :=
  fun _ => rfl

@[simp] theorem State.dropStale_scratch : ∀ s, (State.dropStale s).scratch = s.scratch :=
  fun _ => rfl

@[simp] theorem State.dropStale_pool : ∀ s, (State.dropStale s).pool = s.pool :=
  fun _ => rfl

@[simp] theorem State.dropStale_pound : ∀ s, (State.dropStale s).pound = s.pound :=
  fun _ => rfl

@[simp] theorem State.dropStale_marks : ∀ s, (State.dropStale s).marks = s.marks :=
  fun _ => rfl

@[simp] theorem State.dropStale_imem : ∀ s, (State.dropStale s).imem = s.imem :=
  fun _ => rfl

@[simp] theorem State.dropStale_hq : ∀ s, (State.dropStale s).hq = s.hq :=
  fun _ => rfl

@[simp] theorem State.dropStale_regions : ∀ s, (State.dropStale s).regions = s.regions :=
  fun _ => rfl

@[simp] theorem State.dropStale_tileErrs : ∀ s, (State.dropStale s).tileErrs = s.tileErrs :=
  fun _ => rfl

@[simp] theorem State.dropStale_errWindowFrom : ∀ s, (State.dropStale s).errWindowFrom = s.errWindowFrom :=
  fun _ => rfl

@[simp] theorem State.dropStale_sv : ∀ s, (State.dropStale s).sv = s.sv :=
  fun _ => rfl

@[simp] theorem State.dropStale_gathers : ∀ s, (State.dropStale s).gathers = s.gathers :=
  fun _ => rfl

@[simp] theorem State.dropStale_fab : ∀ s, (State.dropStale s).fab = s.fab :=
  fun _ => rfl

@[simp] theorem State.dropStale_col : ∀ s, (State.dropStale s).col = s.col :=
  fun _ => rfl

@[simp] theorem State.dropStale_tap : ∀ s, (State.dropStale s).tap = s.tap :=
  fun _ => rfl

@[simp] theorem State.dropStale_port : ∀ s, (State.dropStale s).port = s.port :=
  fun _ => rfl

@[simp] theorem State.dropStale_armed : ∀ s, (State.dropStale s).armed = s.armed :=
  fun _ => rfl

@[simp] theorem State.dropStale_memCounts : ∀ s, (State.dropStale s).memCounts = s.memCounts :=
  fun _ => rfl

@[simp] theorem State.dropStale_picks : ∀ s, (State.dropStale s).picks = s.picks :=
  fun _ => rfl

/-! ### `State.holdReq` -/

@[simp] theorem State.holdReq_pending : ∀ s p since, (State.holdReq s p since).pending = s.pending :=
  fun _ _ _ => rfl

@[simp] theorem State.holdReq_params : ∀ s p since, (State.holdReq s p since).params = s.params :=
  fun _ _ _ => rfl

@[simp] theorem State.holdReq_aoUs : ∀ s p since, (State.holdReq s p since).aoUs = s.aoUs :=
  fun _ _ _ => rfl

@[simp] theorem State.holdReq_rst : ∀ s p since, (State.holdReq s p since).rst = s.rst :=
  fun _ _ _ => rfl

@[simp] theorem State.holdReq_regs : ∀ s p since, (State.holdReq s p since).regs = s.regs :=
  fun _ _ _ => rfl

@[simp] theorem State.holdReq_ext : ∀ s p since, (State.holdReq s p since).ext = s.ext :=
  fun _ _ _ => rfl

@[simp] theorem State.holdReq_tags : ∀ s p since, (State.holdReq s p since).tags = s.tags :=
  fun _ _ _ => rfl

@[simp] theorem State.holdReq_hostMem : ∀ s p since, (State.holdReq s p since).hostMem = s.hostMem :=
  fun _ _ _ => rfl

@[simp] theorem State.holdReq_scratch : ∀ s p since, (State.holdReq s p since).scratch = s.scratch :=
  fun _ _ _ => rfl

@[simp] theorem State.holdReq_pool : ∀ s p since, (State.holdReq s p since).pool = s.pool :=
  fun _ _ _ => rfl

@[simp] theorem State.holdReq_pound : ∀ s p since, (State.holdReq s p since).pound = s.pound :=
  fun _ _ _ => rfl

@[simp] theorem State.holdReq_marks : ∀ s p since, (State.holdReq s p since).marks = s.marks :=
  fun _ _ _ => rfl

@[simp] theorem State.holdReq_imem : ∀ s p since, (State.holdReq s p since).imem = s.imem :=
  fun _ _ _ => rfl

@[simp] theorem State.holdReq_hq : ∀ s p since, (State.holdReq s p since).hq = s.hq :=
  fun _ _ _ => rfl

@[simp] theorem State.holdReq_regions : ∀ s p since, (State.holdReq s p since).regions = s.regions :=
  fun _ _ _ => rfl

@[simp] theorem State.holdReq_tileErrs : ∀ s p since, (State.holdReq s p since).tileErrs = s.tileErrs :=
  fun _ _ _ => rfl

@[simp] theorem State.holdReq_errWindowFrom : ∀ s p since, (State.holdReq s p since).errWindowFrom = s.errWindowFrom :=
  fun _ _ _ => rfl

@[simp] theorem State.holdReq_sv : ∀ s p since, (State.holdReq s p since).sv = s.sv :=
  fun _ _ _ => rfl

@[simp] theorem State.holdReq_rows : ∀ s p since, (State.holdReq s p since).rows = s.rows :=
  fun _ _ _ => rfl

@[simp] theorem State.holdReq_gathers : ∀ s p since, (State.holdReq s p since).gathers = s.gathers :=
  fun _ _ _ => rfl

@[simp] theorem State.holdReq_col : ∀ s p since, (State.holdReq s p since).col = s.col :=
  fun _ _ _ => rfl

@[simp] theorem State.holdReq_tap : ∀ s p since, (State.holdReq s p since).tap = s.tap :=
  fun _ _ _ => rfl

@[simp] theorem State.holdReq_port : ∀ s p since, (State.holdReq s p since).port = s.port :=
  fun _ _ _ => rfl

@[simp] theorem State.holdReq_armed : ∀ s p since, (State.holdReq s p since).armed = s.armed :=
  fun _ _ _ => rfl

@[simp] theorem State.holdReq_memCounts : ∀ s p since, (State.holdReq s p since).memCounts = s.memCounts :=
  fun _ _ _ => rfl

@[simp] theorem State.holdReq_picks : ∀ s p since, (State.holdReq s p since).picks = s.picks :=
  fun _ _ _ => rfl

/-! ### `State.updGather` -/

@[simp] theorem State.updGather_pending : ∀ s g f, (State.updGather s g f).pending = s.pending :=
  fun _ _ _ => rfl

@[simp] theorem State.updGather_params : ∀ s g f, (State.updGather s g f).params = s.params :=
  fun _ _ _ => rfl

@[simp] theorem State.updGather_aoUs : ∀ s g f, (State.updGather s g f).aoUs = s.aoUs :=
  fun _ _ _ => rfl

@[simp] theorem State.updGather_rst : ∀ s g f, (State.updGather s g f).rst = s.rst :=
  fun _ _ _ => rfl

@[simp] theorem State.updGather_regs : ∀ s g f, (State.updGather s g f).regs = s.regs :=
  fun _ _ _ => rfl

@[simp] theorem State.updGather_ext : ∀ s g f, (State.updGather s g f).ext = s.ext :=
  fun _ _ _ => rfl

@[simp] theorem State.updGather_tags : ∀ s g f, (State.updGather s g f).tags = s.tags :=
  fun _ _ _ => rfl

@[simp] theorem State.updGather_hostMem : ∀ s g f, (State.updGather s g f).hostMem = s.hostMem :=
  fun _ _ _ => rfl

@[simp] theorem State.updGather_scratch : ∀ s g f, (State.updGather s g f).scratch = s.scratch :=
  fun _ _ _ => rfl

@[simp] theorem State.updGather_pool : ∀ s g f, (State.updGather s g f).pool = s.pool :=
  fun _ _ _ => rfl

@[simp] theorem State.updGather_pound : ∀ s g f, (State.updGather s g f).pound = s.pound :=
  fun _ _ _ => rfl

@[simp] theorem State.updGather_marks : ∀ s g f, (State.updGather s g f).marks = s.marks :=
  fun _ _ _ => rfl

@[simp] theorem State.updGather_imem : ∀ s g f, (State.updGather s g f).imem = s.imem :=
  fun _ _ _ => rfl

@[simp] theorem State.updGather_hq : ∀ s g f, (State.updGather s g f).hq = s.hq :=
  fun _ _ _ => rfl

@[simp] theorem State.updGather_regions : ∀ s g f, (State.updGather s g f).regions = s.regions :=
  fun _ _ _ => rfl

@[simp] theorem State.updGather_tileErrs : ∀ s g f, (State.updGather s g f).tileErrs = s.tileErrs :=
  fun _ _ _ => rfl

@[simp] theorem State.updGather_errWindowFrom : ∀ s g f, (State.updGather s g f).errWindowFrom = s.errWindowFrom :=
  fun _ _ _ => rfl

@[simp] theorem State.updGather_sv : ∀ s g f, (State.updGather s g f).sv = s.sv :=
  fun _ _ _ => rfl

@[simp] theorem State.updGather_rows : ∀ s g f, (State.updGather s g f).rows = s.rows :=
  fun _ _ _ => rfl

@[simp] theorem State.updGather_fab : ∀ s g f, (State.updGather s g f).fab = s.fab :=
  fun _ _ _ => rfl

@[simp] theorem State.updGather_col : ∀ s g f, (State.updGather s g f).col = s.col :=
  fun _ _ _ => rfl

@[simp] theorem State.updGather_tap : ∀ s g f, (State.updGather s g f).tap = s.tap :=
  fun _ _ _ => rfl

@[simp] theorem State.updGather_port : ∀ s g f, (State.updGather s g f).port = s.port :=
  fun _ _ _ => rfl

@[simp] theorem State.updGather_armed : ∀ s g f, (State.updGather s g f).armed = s.armed :=
  fun _ _ _ => rfl

@[simp] theorem State.updGather_memCounts : ∀ s g f, (State.updGather s g f).memCounts = s.memCounts :=
  fun _ _ _ => rfl

@[simp] theorem State.updGather_picks : ∀ s g f, (State.updGather s g f).picks = s.picks :=
  fun _ _ _ => rfl

/-! ### `State.migLater` -/

@[simp] theorem State.migLater_pending : ∀ s w, (State.migLater s w).pending = s.pending :=
  fun _ _ => rfl

@[simp] theorem State.migLater_params : ∀ s w, (State.migLater s w).params = s.params :=
  fun _ _ => rfl

@[simp] theorem State.migLater_aoUs : ∀ s w, (State.migLater s w).aoUs = s.aoUs :=
  fun _ _ => rfl

@[simp] theorem State.migLater_rst : ∀ s w, (State.migLater s w).rst = s.rst :=
  fun _ _ => rfl

@[simp] theorem State.migLater_regs : ∀ s w, (State.migLater s w).regs = s.regs :=
  fun _ _ => rfl

@[simp] theorem State.migLater_ext : ∀ s w, (State.migLater s w).ext = s.ext :=
  fun _ _ => rfl

@[simp] theorem State.migLater_tags : ∀ s w, (State.migLater s w).tags = s.tags :=
  fun _ _ => rfl

@[simp] theorem State.migLater_hostMem : ∀ s w, (State.migLater s w).hostMem = s.hostMem :=
  fun _ _ => rfl

@[simp] theorem State.migLater_scratch : ∀ s w, (State.migLater s w).scratch = s.scratch :=
  fun _ _ => rfl

@[simp] theorem State.migLater_pool : ∀ s w, (State.migLater s w).pool = s.pool :=
  fun _ _ => rfl

@[simp] theorem State.migLater_pound : ∀ s w, (State.migLater s w).pound = s.pound :=
  fun _ _ => rfl

@[simp] theorem State.migLater_marks : ∀ s w, (State.migLater s w).marks = s.marks :=
  fun _ _ => rfl

@[simp] theorem State.migLater_imem : ∀ s w, (State.migLater s w).imem = s.imem :=
  fun _ _ => rfl

@[simp] theorem State.migLater_hq : ∀ s w, (State.migLater s w).hq = s.hq :=
  fun _ _ => rfl

@[simp] theorem State.migLater_regions : ∀ s w, (State.migLater s w).regions = s.regions :=
  fun _ _ => rfl

@[simp] theorem State.migLater_tileErrs : ∀ s w, (State.migLater s w).tileErrs = s.tileErrs :=
  fun _ _ => rfl

@[simp] theorem State.migLater_errWindowFrom : ∀ s w, (State.migLater s w).errWindowFrom = s.errWindowFrom :=
  fun _ _ => rfl

@[simp] theorem State.migLater_sv : ∀ s w, (State.migLater s w).sv = s.sv :=
  fun _ _ => rfl

@[simp] theorem State.migLater_gathers : ∀ s w, (State.migLater s w).gathers = s.gathers :=
  fun _ _ => rfl

@[simp] theorem State.migLater_fab : ∀ s w, (State.migLater s w).fab = s.fab :=
  fun _ _ => rfl

@[simp] theorem State.migLater_col : ∀ s w, (State.migLater s w).col = s.col :=
  fun _ _ => rfl

@[simp] theorem State.migLater_tap : ∀ s w, (State.migLater s w).tap = s.tap :=
  fun _ _ => rfl

@[simp] theorem State.migLater_port : ∀ s w, (State.migLater s w).port = s.port :=
  fun _ _ => rfl

@[simp] theorem State.migLater_armed : ∀ s w, (State.migLater s w).armed = s.armed :=
  fun _ _ => rfl

@[simp] theorem State.migLater_memCounts : ∀ s w, (State.migLater s w).memCounts = s.memCounts :=
  fun _ _ => rfl

@[simp] theorem State.migLater_picks : ∀ s w, (State.migLater s w).picks = s.picks :=
  fun _ _ => rfl

/-! ### `State.w1c` -/

@[simp] theorem State.w1c_pending : ∀ s a mask w, (State.w1c s a mask w).pending = s.pending :=
  fun _ _ _ _ => rfl

@[simp] theorem State.w1c_params : ∀ s a mask w, (State.w1c s a mask w).params = s.params :=
  fun _ _ _ _ => rfl

@[simp] theorem State.w1c_aoUs : ∀ s a mask w, (State.w1c s a mask w).aoUs = s.aoUs :=
  fun _ _ _ _ => rfl

@[simp] theorem State.w1c_rst : ∀ s a mask w, (State.w1c s a mask w).rst = s.rst :=
  fun _ _ _ _ => rfl

@[simp] theorem State.w1c_ext : ∀ s a mask w, (State.w1c s a mask w).ext = s.ext :=
  fun _ _ _ _ => rfl

@[simp] theorem State.w1c_tags : ∀ s a mask w, (State.w1c s a mask w).tags = s.tags :=
  fun _ _ _ _ => rfl

@[simp] theorem State.w1c_hostMem : ∀ s a mask w, (State.w1c s a mask w).hostMem = s.hostMem :=
  fun _ _ _ _ => rfl

@[simp] theorem State.w1c_scratch : ∀ s a mask w, (State.w1c s a mask w).scratch = s.scratch :=
  fun _ _ _ _ => rfl

@[simp] theorem State.w1c_pool : ∀ s a mask w, (State.w1c s a mask w).pool = s.pool :=
  fun _ _ _ _ => rfl

@[simp] theorem State.w1c_pound : ∀ s a mask w, (State.w1c s a mask w).pound = s.pound :=
  fun _ _ _ _ => rfl

@[simp] theorem State.w1c_marks : ∀ s a mask w, (State.w1c s a mask w).marks = s.marks :=
  fun _ _ _ _ => rfl

@[simp] theorem State.w1c_imem : ∀ s a mask w, (State.w1c s a mask w).imem = s.imem :=
  fun _ _ _ _ => rfl

@[simp] theorem State.w1c_hq : ∀ s a mask w, (State.w1c s a mask w).hq = s.hq :=
  fun _ _ _ _ => rfl

@[simp] theorem State.w1c_regions : ∀ s a mask w, (State.w1c s a mask w).regions = s.regions :=
  fun _ _ _ _ => rfl

@[simp] theorem State.w1c_tileErrs : ∀ s a mask w, (State.w1c s a mask w).tileErrs = s.tileErrs :=
  fun _ _ _ _ => rfl

@[simp] theorem State.w1c_errWindowFrom : ∀ s a mask w, (State.w1c s a mask w).errWindowFrom = s.errWindowFrom :=
  fun _ _ _ _ => rfl

@[simp] theorem State.w1c_sv : ∀ s a mask w, (State.w1c s a mask w).sv = s.sv :=
  fun _ _ _ _ => rfl

@[simp] theorem State.w1c_rows : ∀ s a mask w, (State.w1c s a mask w).rows = s.rows :=
  fun _ _ _ _ => rfl

@[simp] theorem State.w1c_gathers : ∀ s a mask w, (State.w1c s a mask w).gathers = s.gathers :=
  fun _ _ _ _ => rfl

@[simp] theorem State.w1c_fab : ∀ s a mask w, (State.w1c s a mask w).fab = s.fab :=
  fun _ _ _ _ => rfl

@[simp] theorem State.w1c_col : ∀ s a mask w, (State.w1c s a mask w).col = s.col :=
  fun _ _ _ _ => rfl

@[simp] theorem State.w1c_tap : ∀ s a mask w, (State.w1c s a mask w).tap = s.tap :=
  fun _ _ _ _ => rfl

@[simp] theorem State.w1c_port : ∀ s a mask w, (State.w1c s a mask w).port = s.port :=
  fun _ _ _ _ => rfl

@[simp] theorem State.w1c_armed : ∀ s a mask w, (State.w1c s a mask w).armed = s.armed :=
  fun _ _ _ _ => rfl

@[simp] theorem State.w1c_memCounts : ∀ s a mask w, (State.w1c s a mask w).memCounts = s.memCounts :=
  fun _ _ _ _ => rfl

@[simp] theorem State.w1c_picks : ∀ s a mask w, (State.w1c s a mask w).picks = s.picks :=
  fun _ _ _ _ => rfl

/-! ### `State.dropUnit` -/

@[simp] theorem State.dropUnit_pending : ∀ s u, (State.dropUnit s u).pending = s.pending :=
  fun _ _ => rfl

@[simp] theorem State.dropUnit_params : ∀ s u, (State.dropUnit s u).params = s.params :=
  fun _ _ => rfl

@[simp] theorem State.dropUnit_aoUs : ∀ s u, (State.dropUnit s u).aoUs = s.aoUs :=
  fun _ _ => rfl

@[simp] theorem State.dropUnit_rst : ∀ s u, (State.dropUnit s u).rst = s.rst :=
  fun _ _ => rfl

@[simp] theorem State.dropUnit_regs : ∀ s u, (State.dropUnit s u).regs = s.regs :=
  fun _ _ => rfl

@[simp] theorem State.dropUnit_ext : ∀ s u, (State.dropUnit s u).ext = s.ext :=
  fun _ _ => rfl

@[simp] theorem State.dropUnit_tags : ∀ s u, (State.dropUnit s u).tags = s.tags :=
  fun _ _ => rfl

@[simp] theorem State.dropUnit_hostMem : ∀ s u, (State.dropUnit s u).hostMem = s.hostMem :=
  fun _ _ => rfl

@[simp] theorem State.dropUnit_scratch : ∀ s u, (State.dropUnit s u).scratch = s.scratch :=
  fun _ _ => rfl

@[simp] theorem State.dropUnit_pool : ∀ s u, (State.dropUnit s u).pool = s.pool :=
  fun _ _ => rfl

@[simp] theorem State.dropUnit_pound : ∀ s u, (State.dropUnit s u).pound = s.pound :=
  fun _ _ => rfl

@[simp] theorem State.dropUnit_marks : ∀ s u, (State.dropUnit s u).marks = s.marks :=
  fun _ _ => rfl

@[simp] theorem State.dropUnit_imem : ∀ s u, (State.dropUnit s u).imem = s.imem :=
  fun _ _ => rfl

@[simp] theorem State.dropUnit_hq : ∀ s u, (State.dropUnit s u).hq = s.hq :=
  fun _ _ => rfl

@[simp] theorem State.dropUnit_regions : ∀ s u, (State.dropUnit s u).regions = s.regions :=
  fun _ _ => rfl

@[simp] theorem State.dropUnit_tileErrs : ∀ s u, (State.dropUnit s u).tileErrs = s.tileErrs :=
  fun _ _ => rfl

@[simp] theorem State.dropUnit_errWindowFrom : ∀ s u, (State.dropUnit s u).errWindowFrom = s.errWindowFrom :=
  fun _ _ => rfl

@[simp] theorem State.dropUnit_rows : ∀ s u, (State.dropUnit s u).rows = s.rows :=
  fun _ _ => rfl

@[simp] theorem State.dropUnit_gathers : ∀ s u, (State.dropUnit s u).gathers = s.gathers :=
  fun _ _ => rfl

@[simp] theorem State.dropUnit_fab : ∀ s u, (State.dropUnit s u).fab = s.fab :=
  fun _ _ => rfl

@[simp] theorem State.dropUnit_col : ∀ s u, (State.dropUnit s u).col = s.col :=
  fun _ _ => rfl

@[simp] theorem State.dropUnit_tap : ∀ s u, (State.dropUnit s u).tap = s.tap :=
  fun _ _ => rfl

@[simp] theorem State.dropUnit_port : ∀ s u, (State.dropUnit s u).port = s.port :=
  fun _ _ => rfl

@[simp] theorem State.dropUnit_armed : ∀ s u, (State.dropUnit s u).armed = s.armed :=
  fun _ _ => rfl

@[simp] theorem State.dropUnit_memCounts : ∀ s u, (State.dropUnit s u).memCounts = s.memCounts :=
  fun _ _ => rfl

@[simp] theorem State.dropUnit_picks : ∀ s u, (State.dropUnit s u).picks = s.picks :=
  fun _ _ => rfl

/-! ### `State.putBack` -/

@[simp] theorem State.putBack_pending : ∀ s p, (State.putBack s p).pending = s.pending :=
  fun _ _ => rfl

@[simp] theorem State.putBack_params : ∀ s p, (State.putBack s p).params = s.params :=
  fun _ _ => rfl

@[simp] theorem State.putBack_aoUs : ∀ s p, (State.putBack s p).aoUs = s.aoUs :=
  fun _ _ => rfl

@[simp] theorem State.putBack_rst : ∀ s p, (State.putBack s p).rst = s.rst :=
  fun _ _ => rfl

@[simp] theorem State.putBack_regs : ∀ s p, (State.putBack s p).regs = s.regs :=
  fun _ _ => rfl

@[simp] theorem State.putBack_ext : ∀ s p, (State.putBack s p).ext = s.ext :=
  fun _ _ => rfl

@[simp] theorem State.putBack_tags : ∀ s p, (State.putBack s p).tags = s.tags :=
  fun _ _ => rfl

@[simp] theorem State.putBack_hostMem : ∀ s p, (State.putBack s p).hostMem = s.hostMem :=
  fun _ _ => rfl

@[simp] theorem State.putBack_scratch : ∀ s p, (State.putBack s p).scratch = s.scratch :=
  fun _ _ => rfl

@[simp] theorem State.putBack_pool : ∀ s p, (State.putBack s p).pool = s.pool :=
  fun _ _ => rfl

@[simp] theorem State.putBack_pound : ∀ s p, (State.putBack s p).pound = s.pound :=
  fun _ _ => rfl

@[simp] theorem State.putBack_marks : ∀ s p, (State.putBack s p).marks = s.marks :=
  fun _ _ => rfl

@[simp] theorem State.putBack_imem : ∀ s p, (State.putBack s p).imem = s.imem :=
  fun _ _ => rfl

@[simp] theorem State.putBack_hq : ∀ s p, (State.putBack s p).hq = s.hq :=
  fun _ _ => rfl

@[simp] theorem State.putBack_regions : ∀ s p, (State.putBack s p).regions = s.regions :=
  fun _ _ => rfl

@[simp] theorem State.putBack_tileErrs : ∀ s p, (State.putBack s p).tileErrs = s.tileErrs :=
  fun _ _ => rfl

@[simp] theorem State.putBack_errWindowFrom : ∀ s p, (State.putBack s p).errWindowFrom = s.errWindowFrom :=
  fun _ _ => rfl

@[simp] theorem State.putBack_sv : ∀ s p, (State.putBack s p).sv = s.sv :=
  fun _ _ => rfl

@[simp] theorem State.putBack_rows : ∀ s p, (State.putBack s p).rows = s.rows :=
  fun _ _ => rfl

@[simp] theorem State.putBack_gathers : ∀ s p, (State.putBack s p).gathers = s.gathers :=
  fun _ _ => rfl

@[simp] theorem State.putBack_col : ∀ s p, (State.putBack s p).col = s.col :=
  fun _ _ => rfl

@[simp] theorem State.putBack_tap : ∀ s p, (State.putBack s p).tap = s.tap :=
  fun _ _ => rfl

@[simp] theorem State.putBack_port : ∀ s p, (State.putBack s p).port = s.port :=
  fun _ _ => rfl

@[simp] theorem State.putBack_armed : ∀ s p, (State.putBack s p).armed = s.armed :=
  fun _ _ => rfl

@[simp] theorem State.putBack_memCounts : ∀ s p, (State.putBack s p).memCounts = s.memCounts :=
  fun _ _ => rfl

@[simp] theorem State.putBack_picks : ∀ s p, (State.putBack s p).picks = s.picks :=
  fun _ _ => rfl

end Sys2Proof.Machine
end

