-- ==== Sys2Proof/WellFormed.lean ====
section
/-! DEFINITION. Which commands are well formed: every operand lies in the range the manual gives the thing it names. The
meanings are total on every command; a command out of range is one that no part of the engine can bring. -/

namespace Sys2Proof

/-- Ranges of the header's fields (R328). -/
def Packet.wf (p : Packet) : Bool :=
  decide (p.addr < 2 ^ 44) && decide (p.dest < 2 ^ 13) && decide (p.src < 2 ^ 13) && decide (p.tag < 2 ^ 17)
    && decide (p.gen < 8) && decide (p.vc < 8) && decide (p.op < 256) && decide (p.status < 16) && decide (p.rdir < 4)
    && decide (p.epoch < 256) && decide (p.len ≤ 4160) && decide (p.payload.length ≤ 4160)

/-- A unit that exists (R11, R443). -/
def CtrlUnit.wf : CtrlUnit → Bool
  | .tile t => decide (t < 128)
  | .region r => decide (r < 8)
  | .engine page => decide (page < 0x10) || page == 0x18 || page == 0x19

/-- A clock that exists (R384). -/
def ClockLoss.wf : ClockLoss → Bool
  | .mclkWindow p => decide (p < 16)
  | _ => true

/-- Four codewords of 138 symbols each (R199, R402). -/
def SectorData.wf (d : SectorData) : Bool := d.errs.length == 4 && d.errs.all fun n => decide (n ≤ 138)

/-- A page index of R443. -/
def pageWf (page : Nat) : Bool := decide (page ≤ 0x19) || (decide (0x20 ≤ page) && decide (page ≤ 0x9F))

/-- A journal index (R74), a program index (R57), a mooring, a region, a queue, a fabric port, and a key of a row. -/
def jWf (j : Nat) : Bool := decide (j < 2 ^ 22)
def recWf (i : Nat) : Bool := decide (i < 2 ^ 20)
def moorWf (m : Nat) : Bool := decide (m < 16)
def regionWf (r : Nat) : Bool := decide (r < 8)
def queueWf (q : Nat) : Bool := decide (q < 64)
def portWf (p : Nat) : Bool := decide (p < 24)
def rowWf (t x : Nat) : Bool := decide (t < 4096) && decide (x < 2 ^ 40)

/-- A window address (R426). -/
def addrWf (a : Nat) : Bool := decide (a < 2 ^ 20)

/-- The operands of a command are in range. -/
def Instr.wf : Instr → Bool
  | .sqDoorbell q p => queueWf q && decide (p < 65536)
  | .cqDoorbell q p => queueWf q && decide (p < 65536)
  | .sqFetch => true
  | .nop j => jWf j
  | .submitBarge j => jWf j
  | .admitRequest j => jWf j
  | .cancelRequest j => jWf j
  | .configEpoch j => jWf j
  | .configEpochComplete j => jWf j
  | .fence j => jWf j
  | .fenceComplete j => jWf j
  | .create j => jWf j
  | .replace j => jWf j
  | .replaceTakeEffect j => jWf j
  | .delete j => jWf j
  | .deleteTakeEffect j => jWf j
  | .writeRows j => jWf j
  | .readRows j => jWf j
  | .adapterFlip j => jWf j
  | .flipTakeEffect j => jWf j
  | .flipComplete j => jWf j
  | .trainHoldRelease j => jWf j
  | .cqRecordWrite c => queueWf c
  | .coalTimeExpiry c => queueWf c
  | .maintEntry => true
  | .mm _ i => recWf i
  | .delta _ i => recWf i
  | .deltaBackward _ i => recWf i
  | .attn _ i => recWf i
  | .kvAppend _ i => recWf i
  | .kvCommit _ i => recWf i
  | .vec _ i => recWf i
  | .conv _ i => recWf i
  | .gather _ i => recWf i
  | .prefetch _ i => recWf i
  | .pool _ i => recWf i
  | .sgrad _ i => recWf i
  | .update _ i => recWf i
  | .coll _ i => recWf i
  | .sealColl _ i => recWf i
  | .barrier _ i => recWf i
  | .lockMark _ i => recWf i
  | .confirm _ i => recWf i
  | .savePoint _ i => recWf i
  | .opFence _ i => recWf i
  | .wait _ i => recWf i
  | .waitLimitExpiry _ i => recWf i
  | .signal _ i => recWf i
  | .opComplete _ i => recWf i
  | .commitUnit _ i _ => recWf i
  | .manifestClose m => moorWf m
  | .bargePlacement => true
  | .wakeComplete r => regionWf r
  | .imageLoadComplete _ => true
  | .bargeEnd _ => true
  | .napEntry r => regionWf r
  | .offEntry r => regionWf r
  | .preempt _ => true
  | .hold _ => true
  | .release _ => true
  | .saveComplete _ => true
  | .restoreComplete _ => true
  | .preemptOverdue _ => true
  | .tollRefill => true
  | .tollReport => true
  | .skewWindowEnd => true
  | .formerExpiry t => decide (t < 4096)
  | .goneExpiry t x => rowWf t x
  | .provisionalProbe t x => rowWf t x
  | .rowRead p => p.wf
  | .versionProbe p => p.wf
  | .row p => p.wf
  | .current p => p.wf
  | .forward p => p.wf
  | .notOwner p => p.wf
  | .rowUpdate p => p.wf
  | .merged p => p.wf
  | .stale p => p.wf
  | .route p => p.wf
  | .rowOffer p => p.wf
  | .state p => p.wf
  | .moveConfirm p => p.wf
  | .query p => p.wf
  | .accept p => p.wf
  | .refuse p => p.wf
  | .stored p => p.wf
  | .held p => p.wf
  | .notHeld p => p.wf
  | .read p => p.wf
  | .write p => p.wf
  | .fetchAdd p => p.wf
  | .test p => p.wf
  | .response p => p.wf
  | .packetForward n p => portWf n && p.wf
  | .transactionTimeout t => decide (t < 2 ^ 17)
  | .tagQuarantineExpiry t => decide (t < 2 ^ 17)
  | .heldRequestDiscard _ => true
  | .data n _ _ => portWf n
  | .nak n _ => portWf n
  | .credit n _ => portWf n
  | .idle n _ => portWf n
  | .linkInit n _ => portWf n
  | .replayTimeout n => portWf n
  | .pcsLock n => portWf n
  | .pcsLockLoss n => portWf n
  | .retrainRelease n => portWf n
  | .arrive p => p.wf
  | .grant p => p.wf
  | .offer p => p.wf
  | .segment p => p.wf
  | .bellBarrier p => p.wf
  | .scalar p => p.wf
  | .bellSeal p => p.wf
  | .abort p => p.wf
  | .abandon p => p.wf
  | .collPiece p => p.wf
  | .pieceTimeout c => decide (c < 64)
  | .sealTimeout l k => decide (l < 3) && decide (k < 2 ^ 32)
  | .bellResend _ => true
  | .collLimitExpiry _ i => recWf i
  | .powerOn => true
  | .brownOut => true
  | .pinReset => true
  | .watchdog => true
  | .swReset _ => true
  | .engReset => true
  | .clockFailure c => c.wf
  | .lockUp => true
  | .resetRelease _ => true
  | .pllLock c => decide (c < 10)
  | .monitorWindow c _ => decide (c < 26)
  | .memPortReady p => decide (p < 16)
  | .ctrlParityError u => u.wf
  | .wdtKick _ => true
  | .isolate page => pageWf page
  | .plankIn page => pageWf page
  | .resetReq page => pageWf page
  | .sectorReadComplete k d => decide (k < 2 ^ 32) && d.wf
  | .sectorWriteResponse p _ => decide (p < 16)
  | .hostReadData a _ _ => decide (a < 2 ^ 64)
  | .hostWriteAck t _ => decide (t < 256)
  | .vectorUnmask v => decide (v < 256)
  | .imHoldRelease => true
  | .configCommit page _ => pageWf page
  | .commitTakeEffect page => pageWf page
  | .rowInitClearDone => true
  | .injectSram page _ => pageWf page
  | .injectSector _ => true
  | .injectTag _ => true
  | .injectFlitCrc _ => true
  | .injectPiece _ => true
  | .injectCtrl page _ => pageWf page
  | .injectClock page _ => pageWf page
  | .keeperEnable => true
  | .imemDataWrite _ => true
  | .imemDataRead => true
  | .peek _ => true
  | .peekComplete => true
  | .towpath _ => true
  | .idcode => true
  | .bypass _ => true
  | .unmappedAccess a _ => addrWf a
  | .counterReadClear a => addrWf a
  | .registerWrite a _ => addrWf a
  | .vbakLoss => true
  | .regionPllLockLoss r => regionWf r
  | .errWindowEnd => true
  | .w1cWrite a _ => addrWf a
  | .watchdogEnable _ => true
  | .tapReset => true

end Sys2Proof
end

