-- ==== Sys2Proof/Tests/Slice0.lean ====
section
/-! SUPPORT. Tests: well-formed and ill-formed commands, a state and operands that meet the hypotheses of each statement, and
single steps whose results the spec gives. -/

namespace Sys2Proof.Tests

open Sys2Proof Sys2Proof.Machine

set_option maxRecDepth 100000
set_option Elab.async false


/-! ### The engine for the tests -/

/-- The engine up, nothing configured. -/
def up0 : State :=
  { State.reset with rst := { State.reset.rst with active := false, sources := [], step := 7, locked := [8, 9] } }

/-- Registers written behind the window: address and value. -/
def regsAt (s : State) (l : List (Nat × Nat)) : State :=
  { s with regs := l.foldl (fun m x => SMap.put regReset m x.1 (BitVec.ofNat 32 x.2)) s.regs }

/-- Bytes put in external memory. -/
def extAt (s : State) (a : Nat) (bs : List Byte) : State := { s with ext := Mem.write s.ext a bs }

/-- One item. -/
def itemAt (s : State) (it : Item) : State := { s with hq := { s.hq with items := [it] } }

/-- SQ 0 of 16 entries and CQ 0 of 16, both in external memory, and a journal. -/
def hq0 : State :=
  let s := regsAt up0 [(0x5700, 0x10000000), (0x5708, 17), (0x570C, 0x20000000), (0x5714, 2), (0x5400, 0x30000000),
    (0x5408, 0xC4010000), (0x5100, 0x31000000), (0x5108, 0xC0040000)]
  { s with hq := { configured := true } }

/-- One entry waits in SQ 0. -/
def hq1 : State := { hq0 with hq := { hq0.hq with sqs := [(0, { tail := 1 })] } }

/-! ### Well-formed commands -/

theorem test_wf_packet : Instr.wf (.read {}) = true ∧ Instr.wf (.read { dest := 2 ^ 13 }) = false ∧ Instr.wf (.read { addr := 2 ^ 44 }) = false
    ∧ Instr.wf (.read { src := 2 ^ 13 }) = false ∧ Instr.wf (.read { tag := 2 ^ 17 }) = false ∧ Instr.wf (.read { gen := 8 }) = false
    ∧ Instr.wf (.read { vc := 8 }) = false ∧ Instr.wf (.read { op := 256 }) = false ∧ Instr.wf (.read { status := 16 }) = false
    ∧ Instr.wf (.read { rdir := 4 }) = false ∧ Instr.wf (.read { epoch := 256 }) = false ∧ Instr.wf (.read { len := 4161 }) = false := by decide

theorem test_wf_ranges : Instr.wf (.sqDoorbell 63 65535) = true ∧ Instr.wf (.sqDoorbell 64 0) = false ∧ Instr.wf (.cqDoorbell 0 65536) = false
    ∧ Instr.wf (.nop (2 ^ 22)) = false ∧ Instr.wf (.mm 0 (2 ^ 20)) = false ∧ Instr.wf (.manifestClose 16) = false
    ∧ Instr.wf (.napEntry 8) = false ∧ Instr.wf (.pcsLock 24) = false ∧ Instr.wf (.goneExpiry 4096 0) = false
    ∧ Instr.wf (.goneExpiry 0 (2 ^ 40)) = false ∧ Instr.wf (.registerWrite (2 ^ 20) 0) = false := by decide

theorem test_wf_units : Instr.wf (.ctrlParityError (.tile 128)) = false ∧ Instr.wf (.ctrlParityError (.region 8)) = false
    ∧ Instr.wf (.ctrlParityError (.engine 0x10)) = false ∧ Instr.wf (.clockFailure (.mclkWindow 16)) = false
    ∧ Instr.wf (.sectorReadComplete 0 { errs := [0, 0, 0] }) = false ∧ Instr.wf (.sectorReadComplete 0 { errs := [139, 0, 0, 0] }) = false
    ∧ Instr.wf (.isolate 0x1A) = false ∧ Instr.wf (.isolate 0x9F) = true ∧ Instr.wf (.pllLock 10) = false
    ∧ Instr.wf (.monitorWindow 26 0) = false ∧ Instr.wf (.vectorUnmask 256) = false ∧ Instr.wf (.hostWriteAck 256 false) = false := by decide

/-! ### The machine as a whole -/

theorem witness_StepRunsFrontCommand : up0.pending = [] := by decide

theorem witness_StepKeepsStoresCanonical :
    State.reset.regs.wf regReset = true ∧ State.reset.ext.wf = true ∧ State.reset.tags.wf (fun _ => {}) = true
      ∧ State.reset.hostMem.wf = true ∧ State.reset.scratch.wf = true ∧ State.reset.pool.wf = true ∧ State.reset.pound.wf = true
      ∧ State.reset.marks.wf (fun _ => {}) = true ∧ State.reset.imem.wf = true
      ∧ (match step State.reset with | .next _ => true | _ => false) = true := by decide

theorem witness_StoppedEngineTakesNoCommand : Instr.outsideEngine .sqFetch = false ∧ State.reset.up = false := by decide

theorem witness_EachCommandKeepsWhatItDoesNotWrite :
    exec .tapReset up0 = .next { up0 with tap := { up0.tap with ir := 1 } } ∧ Part.regs ∉ Instr.writes .tapReset := by
  exact ⟨rfl, by decide⟩

/-! ### Queues and items -/

theorem witness_SqDoorbellMovesTail : hq0.up = true ∧ hq0.sqOn 0 = true ∧ 15 < hq0.sqSize 0 ∧ hq0.sqSize 0 ≤ 16 ∧ hq0.sqOn 1 = false := by
  decide +kernel

theorem witness_CqDoorbellFreesRecords : hq0.up = true ∧ hq0.cqOn 0 = true ∧ 15 < hq0.cqSize 0 ∧ hq0.cqSize 0 ≤ 16 ∧ hq0.cqOn 1 = false := by
  decide +kernel

theorem witness_SqFetchAcceptsNextEntry : hq1.up = true ∧ hq1.hq.configured = true ∧ hq1.hq.maint = false ∧ hq1.nextSq = some 0
    ∧ hq1.journalNext = some 1 ∧ hq1.item? 1 = none ∧ hq1.locUnreadable (bitOf (hq1.sqCtrl 0) 30) (hq1.sqBase 0) 64 = false
    ∧ typeKnown { j := 1, sq := 0, sqIndex := 0, order := 0, entry := 0 } = true := by decide +kernel

/-- A journal of one entry, which is in use. -/
def hq2 : State := extAt (regsAt hq1 [(0x5708, 0)]) (0x10000000 + 4096) (leBytes 4 (2 ^ 26))

theorem witness_SqFetchAcceptsNextEntry_full : hq2.up = true ∧ hq2.hq.configured = true ∧ hq2.hq.maint = false ∧ hq2.nextSq = some 0
    ∧ hq2.journalNext = none ∧ hq2.hq.journalFull = false := by decide +kernel

/-- The sector of the waiting entry is poisoned. -/
def hq3 : State := { hq1 with tags := [(0x31000000 / 512, { poison := true })] }

theorem witness_UnreadableEntryFailsWithCookieZero : hq3.up = true ∧ hq3.hq.configured = true ∧ hq3.hq.maint = false
    ∧ hq3.nextSq = some 0 ∧ hq3.journalNext = some 1 ∧ hq3.item? 1 = none
    ∧ hq3.locUnreadable (bitOf (hq3.sqCtrl 0) 30) (hq3.sqBase 0 + 64 * (hq3.sq 0).head) 64 = true := by decide +kernel

/-- Item 5, at a stage, with its entry. -/
def it5 (st : Stage) (e : Nat) : Item := { j := 5, sq := 0, sqIndex := 0, order := 0, entry := BitVec.ofNat 512 e, stage := st }

theorem witness_PlainItemsReceiveTheirFate : hq0.up = true
    ∧ Stands (itemAt hq0 (it5 .accepted 0)) 5 0 .accepted (it5 .accepted 0) ∧ (it5 .accepted 0).plain = true
    ∧ Stands (itemAt hq0 (it5 .accepted 7)) 5 7 .accepted (it5 .accepted 7) ∧ (it5 .accepted 7).f 511 66 = 0
    ∧ Stands (itemAt hq0 (it5 .waiting 7)) 5 7 .waiting (it5 .waiting 7) ∧ (itemAt hq0 (it5 .waiting 7)).fenceItemMet (it5 .waiting 7) = true
    ∧ Stands (itemAt hq0 (it5 .waiting 4)) 5 4 .waiting (it5 .waiting 4) ∧ (it5 .waiting 4).banks = []
    ∧ (it5 .waiting 4).rejected = false ∧ (it5 .waiting 4).awaits = [] ∧ (itemAt hq0 (it5 .waiting 4)).hq.maint = false
    ∧ Stands (itemAt hq0 (it5 .accepted 3)) 5 3 .accepted (it5 .accepted 3)
    ∧ (it5 .accepted 3).zeroAt [(511, 177), (127, 116), (95, 80)] = true
    ∧ (itemAt hq0 (it5 .accepted 3)).cancelTarget (it5 .accepted 3) = none := by
  simp only [Stands]; decide +kernel

theorem witness_MalformedEntriesFailWithFailedCfg : (it5 .accepted (2 ^ 9)).plain = false
    ∧ (∀ ty, ty ∈ [0, 1, 2, 3, 4, 7] → (itemAt hq0 (it5 .accepted (2 ^ 9 + ty))).item? 5 = some (it5 .accepted (2 ^ 9 + ty))
        ∧ (it5 .accepted (2 ^ 9 + ty)).type = ty ∧ (it5 .accepted (2 ^ 9 + ty)).plain = false)
    ∧ (itemAt hq0 (it5 .accepted (2 ^ 9 + 1))).inTurn (it5 .accepted (2 ^ 9 + 1)) = true
    ∧ (itemAt hq0 (it5 .accepted (2 ^ 9 + 2))).inTurn (it5 .accepted (2 ^ 9 + 2)) = true := by decide +kernel

/-- Mooring 0 is on, with a token budget of 64. -/
def moor0 : State := regsAt hq0 [(0x6100, 0x80000000), (0x6104, 64)]

/-- A barge of one training row in a batch of one segment row. -/
def bargeEntry : Nat := 1 + 2 ^ 64 + 2 ^ 80 + 2 ^ 96 + 2 ^ 112 + 0x40000000 * 2 ^ 256 + 0x40001000 * 2 ^ 320

theorem witness_WorkIsAccepted_barge :
    let it := it5 .accepted bargeEntry
    let s := itemAt (extAt (extAt moor0 0x40000000 (leBytes 16 (2 ^ 127))) 0x40001000 (leBytes 16 (2 ^ 16))) it
    s.up = true ∧ s.item? 5 = some it ∧ it.type = 1 ∧ s.inTurn it = true ∧ it.f 76 76 = 0 ∧ s.bargeHeaderOk it = true ∧ s.hq.maint = false
      ∧ s.moorOn (it.f 75 72) = true ∧ it.f 95 80 ≠ 0 ∧ s.bargeRowsBad it = false ∧ s.bargeRowsOk it = true
      ∧ it.f 95 80 ≤ s.tokenBudget (it.f 75 72) := by decide +kernel

/-- A request descriptor: one prompt token, one token, one page, chunks of 2^6. -/
def reqEntry : Nat := 2 + 2 ^ 7 * 2 ^ 256 + 0x40000000 * 2 ^ 192 + 2 ^ 272
def reqDescr : Nat := 2 ^ (8 * 0x1C) + 2 ^ (8 * 0x20) + 2 ^ (8 * 0x30) + 0x60 * 2 ^ (8 * 0x32)

theorem witness_WorkIsAccepted_request :
    let it := it5 .accepted reqEntry
    let s := itemAt (extAt moor0 0x40000000 (leBytes 128 reqDescr)) it
    s.up = true ∧ s.item? 5 = some it ∧ it.type = 2 ∧ s.inTurn it = true ∧ it.plain = true
      ∧ it.zeroAt [(511, 273), (191, 172), (95, 94)] = true ∧ it.f 255 192 % 64 = 0 ∧ it.f 271 256 = 128
      ∧ s.dupMatch? (it.f 83 64) (it.f 143 96) = none ∧ s.maintComing = false
      ∧ s.locBad (it.f 272 272 == 1) (it.f 255 192) 128 = false ∧ it.f 272 272 = 1 ∧ it.f 255 192 + 128 ≤ s.populated
      ∧ reqOk (s.reqDesc it) = true ∧ reqFits (s.reqDesc it) = true ∧ reqField (s.reqDesc it) 0x20 4 ≠ 0
      ∧ s.moorOn (it.f 87 84) = true ∧ it.f 92 92 = 0 ∧ s.pinCheck (it.f 87 84) (it.f 171 152) (it.f 83 64) = .inr none
      ∧ (s.account (s.acctOf (it.f 83 64))).isOverdrawn = false
      ∧ lowestFree ((s.sv.berths.filter fun x => x.2.st != .free).map (·.1)) = 0 := by decide +kernel

theorem witness_WorkIsAccepted_cancel_and_epoch :
    let it := it5 .accepted (3 + 2 ^ 176)
    let s : State := { itemAt hq0 it with sv := { berths := [(0, { st := .queued })] } }
    let ep := it5 .accepted (4 + 2 ^ 96 + 4 * 2 ^ 128)
    let e := itemAt hq0 ep
    s.up = true ∧ s.item? 5 = some it ∧ it.type = 3 ∧ it.plain = true ∧ it.zeroAt [(511, 177), (127, 116), (95, 80)] = true
      ∧ s.cancelTarget it = some 0 ∧ s.hq.maint = false ∧ (s.berth 0).st = .queued ∧ (s.berth 0).barge = none ∧ (s.berth 0).finished = false
      ∧ e.up = true ∧ e.item? 5 = some ep ∧ ep.type = 4 ∧ ep.plain = true ∧ ep.f 127 99 = 0 ∧ ep.f 98 96 = 1
      ∧ epochRsvd ep 0 = 0 ∧ pageExists (epochPage ep 0) = true ∧ (e.bankWith (epochPage ep 0) (epochSeq ep 0)).isSome = true := by
  decide +kernel

/-- CQ 0 with one record to write, its head and tail as given. -/
def cqAt (head tail : Nat) : State :=
  { hq0 with hq := { hq0.hq with cqs := [(0, { head := head, tail := tail, pending := [{ kind := .entry }] })] } }

theorem witness_CqRecordWriteFillsTailSlot : (cqAt 0 14).up = true ∧ (cqAt 0 14).cqOn 0 = true
    ∧ ((cqAt 0 14).cq 0).pending = [{ kind := .entry }] ∧ (cqAt 0 14).cqIsFull 0 = false ∧ bitOf ((cqAt 0 14).cqCtrl 0) 30 = true
    ∧ (cqAt 0 15).cqIsFull 0 = true ∧ ((cqAt 0 15).cq 0).pending = [{ kind := .entry }] ∧ ((cqAt 0 15).cq 0).full = false := by
  decide +kernel

theorem witness_CoalescingAndMaintenance :
    let s : State := { hq0 with hq := { hq0.hq with cqs := [(0, { firstUnsignalled := some 0 })], maintPending := true } }
    s.up = true ∧ s.coalExpired 0 = true ∧ s.hq.dmaWrites = [] ∧ s.maintMayEnter = true
      ∧ (regsAt s [(0xF001C, 0)]).irqHeld (fld (s.cqCtrl 0) 23 16) = false := by decide +kernel

/-! ### Tables, flips, manifests, accounts -/

/-- A table of one row of 16 elements that this engine owns: its 128 bytes, in state `st`, with a SEQ. -/
def tabSeq (st seq : Nat) : Nat :=
  let b := seq * 2 ^ 64 + 1 + 2 ^ 40 + 2 * 2 ^ 48 + 2 ^ (8 * 0x0C) + 0x50000000 * 2 ^ (8 * 0x10) + 2 ^ (8 * 0x18) + 0x50000100 * 2 ^ (8 * 0x20)
    + 0x50002000 * 2 ^ (8 * 0x28) + 0x50001000 * 2 ^ (8 * 0x48) + 0x50000200 * 2 ^ (8 * 0x50) + st * 2 ^ (8 * 0x70)
  b + (crc32c (leBytes 124 b)).toNat * 2 ^ (8 * 0x7C)

/-- The same with SEQ 0. -/
def tabRaw (st : Nat) : Nat := tabSeq st 0

/-- The directory lies at 0x48000000; the slots of table 0 hold the given states. -/
def dirAt (a b : Option Nat) : State :=
  let s := regsAt hq0 [(0x9100, 0x48000000)]
  let s := match a with | some st => extAt s 0x48000000 (leBytes 128 (tabRaw st)) | none => s
  match b with | some st => extAt s 0x48000080 (leBytes 128 (tabRaw st)) | none => s

/-- A TABLE_OP item of table 0, one unit, its descriptor in external memory at `d`. -/
def opItem (sub count d : Nat) : Item := it5 .accepted (5 + sub * 2 ^ 64 + count * 2 ^ 96 + d * 2 ^ 128 + 2 ^ 192)

theorem witness_CreateReplaceDeleteAtAcceptance_create :
    let it := opItem 1 1 0x49000000
    let s := itemAt (extAt (dirAt none none) 0x49000000 (leBytes 128 (tabRaw 0))) it
    let t : Tab := { id := 0, slot := 0, raw := tabRaw 0 }
    s.up = true ∧ s.item? 5 = some it ∧ it.type = 5 ∧ tableOpPlain it = true ∧ it.opCount = 1 ∧ s.tableBusy it = false
      ∧ s.opHeld it = false ∧ it.subop = 1 ∧ it.opSeq = 0 ∧ s.locUnreadable it.descExt it.descAddr 128 = false
      ∧ t = { id := it.table, slot := 0, raw := leNat (s.loc? it.descExt it.descAddr 128) }
      ∧ descFieldsOk t = true ∧ s.mapsReadable t = true ∧ s.descOk t = true
      ∧ s.tab it.table = .none ∧ s.slotIn it.table 2 = none ∧ s.slotIn it.table 0 = some 0 := by decide +kernel

theorem witness_CreateReplaceDeleteAtAcceptance_staged :
    let it := opItem 1 1 0x49000000
    let s := itemAt (extAt (dirAt (some 1) none) 0x49000000 (leBytes 128 (tabSeq 0 1))) it
    let t : Tab := { id := 0, slot := 0, raw := tabSeq 0 1 }
    s.up = true ∧ s.item? 5 = some it ∧ s.opHeld it = false ∧ s.tab it.table = .ok { id := 0, slot := 0, raw := tabRaw 1 }
      ∧ serialGt t.seq (Tab.seq { id := 0, slot := 0, raw := tabRaw 1 }) = true ∧ s.slotIn it.table 2 = none
      ∧ s.slotIn it.table 0 = some 1 ∧ descFieldsOk t = true ∧ s.mapsReadable t = true ∧ s.descOk t = true := by decide +kernel

theorem witness_CreateReplaceDeleteAtAcceptance_replace :
    let it := it5 .accepted (5 + 2 * 2 ^ 64 + 2 ^ 96)
    let s := itemAt (dirAt (some 1) (some 2)) it
    s.up = true ∧ s.item? 5 = some it ∧ tableOpPlain it = true ∧ it.opCount = 1 ∧ s.tableBusy it = false
      ∧ s.opHeld it = false ∧ it.subop = 2
      ∧ it.descAddr = 0 ∧ s.tab it.table = .ok { id := 0, slot := 0, raw := tabRaw 1 }
      ∧ s.tabIn it.table 2 = some { id := 0, slot := 1, raw := tabRaw 2 }
      ∧ (Tab.seq { id := 0, slot := 1, raw := tabRaw 2 }) = it.opSeq ∧ s.isFactorTable it.table = false := by decide +kernel

theorem witness_CreateReplaceDeleteAtAcceptance_delete :
    let it := it5 .accepted (5 + 3 * 2 ^ 64 + 2 ^ 96)
    let s := itemAt (dirAt (some 1) (some 2)) it
    let u := itemAt (dirAt (some 1) none) it
    s.item? 5 = some it ∧ it.subop = 3 ∧ tableOpPlain it = true ∧ it.opCount = 1 ∧ it.descAddr = 0 ∧ it.opSeq = 0
      ∧ s.tableBusy it = false ∧ s.opHeld it = false ∧ u.opHeld it = false ∧ s.tab it.table = .ok { id := 0, slot := 0, raw := tabRaw 1 } ∧ s.isFactorTable it.table = false
      ∧ s.slotIn it.table 2 = some 1 ∧ u.up = true ∧ u.item? 5 = some it
      ∧ u.tab it.table = .ok { id := 0, slot := 0, raw := tabRaw 1 } ∧ u.slotIn it.table 2 = none := by decide +kernel

/-- Item 5 has paused table 0. -/
def pausedAt (replace : Bool) : State :=
  let s := itemAt (dirAt (some 1) (some (if replace then 2 else 3))) (it5 .waiting 5)
  { s with rows := { s.rows with
      pauses := [{ j := 5, table := 0, replace := replace, since := 0, moorings := 0 }]
      former := [(0, 0)] } }

theorem witness_DrainedPauseDropsTheTablesWork : ∀ r : Bool, (pausedAt r).up = true
    ∧ (pausedAt r).item? 5 = some (it5 .waiting 5)
    ∧ (pausedAt r).rows.pauses.find? (fun q => q.j == 5 && q.replace == r)
        = some { j := 5, table := 0, replace := r, since := 0, moorings := 0 }
    ∧ (pausedAt r).pauseDrained { j := 5, table := 0, replace := r, since := 0, moorings := 0 } = true
    ∧ (pausedAt r).tab 0 = .ok { id := 0, slot := 0, raw := tabRaw 1 } ∧ (pausedAt r).opHeld (it5 .waiting 5) = false
    ∧ DirApart (pausedAt r) 0 5
    ∧ ((pausedAt r).drainTable { id := 0, slot := 0, raw := tabRaw 1 }).slotIn 0 2 = (if r then some 1 else none) := by
  simp only [DirApart]; decide +kernel

theorem witness_DrainedPauseDropsTheTablesWork_former :
    (pausedAt false).rows.former.find? (fun p => p.1 == 0 && decide (p.2 ≤ (pausedAt false).now)) = some (0, 0)
      ∧ (pausedAt false).slotIn 0 3 = some 1 := by decide +kernel

/-- A row run of table 0: its 64 bytes at 0x49000000, the item with its count. -/
def rowOp (sub count hdr : Nat) (bad : Bool) : State :=
  let s := itemAt (extAt (dirAt (some 1) none) 0x49000000 (leBytes 64 hdr)) (opItem sub count 0x49000000)
  if bad then { s with tags := [(0x49000000 / 512, { poison := true })] } else s

/-- One row at 0x49000000: the words of the row are ones, the row run names an external buffer at 0x4B000000. -/
def oneRow (sub : Nat) : State :=
  let s := extAt (rowOp sub 1 (0x4B000000 * 2 ^ 128) false) 0x4B000000 (leBytes 64 (0x3F800000 * ((2 ^ 512 - 1) / (2 ^ 32 - 1))))
  let t : Tab := { id := 0, slot := 0, raw := tabRaw 1 }
  s.writeRowImage t (t.homeLoc 0) (List.replicate (t.homeLoc 0).bytes 1) 5

theorem witness_WriteRowsAndReadRowsSettleOrStop_one : ∀ sub, sub ∈ [4, 5] →
    let s := oneRow sub
    let it := opItem sub 1 0x49000000
    let h := rowsHdr (0x4B000000 * 2 ^ 128)
    s.up = true ∧ s.item? 5 = some it ∧ s.opHeld it = false ∧ it.opCount = 1 ∧ it.descExt = true ∧ h.source = false
      ∧ h.data = 0x4B000000 ∧ h.first = 0 ∧ h.staged = false := by decide +kernel

theorem witness_WriteRowsAndReadRowsSettleOrStop_row :
    let s := oneRow 4
    let it := opItem 4 1 0x49000000
    let h := rowsHdr (0x4B000000 * 2 ^ 128)
    let t : Tab := { id := 0, slot := 0, raw := tabRaw 1 }
    s.rowsTab it false = .inr t ∧ s.ownedAt t false true 0 = some (t.homeLoc 0)
      ∧ s.dataRow t it h 0 = .inr (List.replicate 16 0x3F800000) := by decide +kernel

theorem witness_WriteRowsAndReadRowsSettleOrStop_image :
    let t : Tab := { id := 0, slot := 0, raw := tabRaw 1 }
    (Word.num 0x3F800000).finite = true
      ∧ (encodeRow (t.homeLoc 0).dr false (fun _ => .rne) (List.replicate 16 0x3F800000)).image.isSome = true := by decide +kernel

theorem witness_WriteRowsAndReadRowsSettleOrStop_clean :
    let t : Tab := { id := 0, slot := 0, raw := tabRaw 1 }
    ((oneRow 5).readRow t (t.homeLoc 0)).1.poison = false := by decide +kernel

theorem witness_WriteRowsAndReadRowsSettleOrStop : ∀ sub, sub ∈ [4, 5] →
    (rowOp sub 1 0 false).up = true ∧ (rowOp sub 1 0 false).opHeld (opItem sub 1 0x49000000) = false ∧ (rowOp sub 1 0 false).item? 5 = some (opItem sub 1 0x49000000)
      ∧ (opItem sub 1 0x49000000).type = 5 ∧ (opItem sub 1 0x49000000).subop = sub ∧ tableOpPlain (opItem sub 1 0x49000000) = true
      ∧ (opItem sub 0 0x49000000).opCount = 0 ∧ (opItem sub 1 0x49000000).opCount = 1
      ∧ (rowOp sub 1 0 true).locUnreadable true 0x49000000 64 = true ∧ (rowOp sub 1 0 false).locUnreadable true 0x49000000 64 = false
      ∧ (rowsHdr (2 ^ 43)).rsvd ≠ 0 ∧ (rowsHdr (2 ^ 128)).data % 64 ≠ 0 ∧ (rowsHdr (2 ^ 40)).source = true
      ∧ (rowsHdr 0).rsvd = 0 ∧ (rowsHdr 0).data % 64 = 0
      ∧ (rowOp sub 1 0 false).rowsTab (opItem sub 1 0x49000000) false = .inr { id := 0, slot := 0, raw := tabRaw 1 } := by
  decide +kernel

/-- The side pond of mooring 0 holds two descriptors; the one of adapter 1 has SEQ 0 in force and SEQ 1 in its shadow. -/
def pond0 : State := extAt (regsAt hq0 [(0x8100, 0x4A000000), (0x8108, 0x80000001)]) (0x4A000000 + 4096 + 64) (leBytes 64 (1 + 2 ^ 480))

/-- An ADAPTER_FLIP of adapter 1 of mooring 0 to the given SEQ; it heads the mooring's flips if it waits. -/
def flipItem (st : Stage) (seq : Nat) : Item := it5 st (6 + 2 ^ 72 + seq * 2 ^ 96)
def flipState (st : Stage) (seq : Nat) (pins : List Pin) (rewriting : Bool) : State :=
  let s := itemAt pond0 (flipItem st seq)
  if st = .accepted then s
  else { s with sv := { s.sv with moorings := [(0, { flips := [5], rewriting := rewriting, flipping := [1] })], pins := pins } }

theorem witness_AdapterFlipTakesEffectWhollyOrNotAtAll :
    (flipState .accepted 1 [] false).up = true ∧ (flipState .accepted 1 [] false).item? 5 = some (flipItem .accepted 1)
      ∧ (flipItem .accepted 1).type = 6 ∧ (flipState .accepted 1 [] false).inTurn (flipItem .accepted 1) = true
      ∧ (flipState .accepted 1 [] false).hq.maint = false ∧ (flipState .accepted 1 [] false).flipOk (flipItem .accepted 1) = true
      ∧ (flipItem .accepted 1).f 65 64 ≠ 2
      ∧ (flipState .waiting 1 [] false).item? 5 = some (flipItem .waiting 1)
      ∧ (flipState .waiting 1 [] false).flipMay (flipItem .waiting 1) = true
      ∧ (flipState .waiting 1 [] false).flipNames (flipItem .waiting 1) = [1]
      ∧ (flipState .waiting 1 [] false).judgeFlip 0 1 1 = .flips
      ∧ (flipState .waiting 2 [] false).flipMay (flipItem .waiting 2) = true
      ∧ (flipState .waiting 2 [] false).judgeFlip 0 2 1 = .cfg
      ∧ (flipState .waiting 1 [⟨0, 1, 1, 1, 0, 0, 0⟩] false).flipMay (flipItem .waiting 1) = true
      ∧ (flipState .waiting 1 [⟨0, 1, 1, 1, 0, 0, 0⟩] false).judgeFlip 0 1 1 = .busy
      ∧ ((flipState .waiting 1 [] true).mooring 0).flips.head? = some 5 ∧ ((flipState .waiting 1 [] true).mooring 0).rewriting = true := by
  decide +kernel

/-- A decoding request stands in berth 0 of mooring 0. -/
def close0 : State :=
  { moor0 with sv := { moor0.sv with berths := [(0, { st := .decode, maxTokens := 4, delivered := 1, committed := 1 })] } }

theorem witness_ManifestCloseStartsABarge :
    let u := (close0.boundary 0).noteHold 0
    close0.up = true ∧ close0.mayClose 0 = true ∧ u.journalNext = some 1 ∧ (u.fill 0).rows ≠ [] := by decide +kernel

theorem witness_ManifestCloseStartsABarge_release :
    let it := it5 .waiting 1
    let s : State := { itemAt hq0 it with sv := { trainHeld := [5] } }
    s.up = true ∧ s.item? 5 = some it ∧ 5 ∈ s.sv.trainHeld ∧ s.trainHeldNow (it.f 75 72) it = false := by decide +kernel

theorem witness_TollhouseRefillsAndReports :
    let s : State := { regsAt hq0 [(0x710C, 1), (0x711C, 1)] with aoUs := 1 }
    s.up = true ∧ s.sv.refills < s.refillsDue ∧ s.reportDue = true := by decide +kernel

/-! ### Op records -/

/-- Barge 0 runs on region 0, its program of the given records at 0x40000000. -/
def barge0 (n : Nat) : Barge :=
  { id := 0, st := .running, regions := [0], program := 0x40000000, progLen := n, ops := List.replicate n {} }

/-- The same barge with its records fetched and changed by `g`. -/
def fetched (ws : List Nat) (g : OpRun → OpRun := id) : Barge := { barge0 ws.length with ops := ws.map fun w => g { word := w } }
def runs (ws : List Nat) (f : Barge → Barge := id) : State :=
  { extAt hq0 0x40000000 (ws.flatMap (leBytes 64)) with sv := { barges := [f (fetched ws)] } }

/-- A record: opcode, region 0 and tile 0 named, parameters. -/
def rec (op p : Nat) : Nat := op + 2 ^ 16 + 2 ^ 24 + p * 2 ^ 384

/-- Parameters with every count at 1. -/
def ones : List (Nat × Nat) :=
  [(0x01, 1 + 2 ^ 16 + 2 ^ 32), (0x03, 2 ^ 16), (0x10, 2 ^ 96 + 2 ^ 106), (0x11, 1), (0x20, 1 + 2 ^ 32), (0x21, 1), (0x22, 1), (0x23, 1),
    (0x24, 0), (0x30, 2 ^ 16), (0x31, 2 ^ 16), (0x40, 0), (0x41, 0), (0x42, 0), (0x50, 0), (0x51, 0), (0x60, 0), (0x70, 0), (0x71, 0),
    (0x72, 0)]

theorem witness_OpRecordsIssue : ∀ x, x ∈ ones →
    let w := rec x.1 x.2
    let y := fetched [w]
    let s := runs [w]
    s.up = true ∧ s.barge? 0 = some y ∧ w = s.progRec y 0 ∧ s.mayIssue y 0 = true
      ∧ s.blocked y w = none ∧ recOp w = x.1 ∧ s.rangesHeld 0 (s.extOf y w) = false ∧ s.anyTileQuar = false
      ∧ (x.1 = 0x01 → mmPair w = false ∧ mmZero w = false) ∧ (x.1 = 0x03 ∨ x.1 = 0x30 → kvZero w = false)
      ∧ (x.1 = 0x10 → vecZero w = false) ∧ (x.1 = 0x11 → convZero w = false) ∧ (x.1 = 0x20 → gatherZero w = false)
      ∧ (x.1 = 0x21 → gIndices w ≠ 0) ∧ (x.1 = 0x22 → recP w 24 0 ≠ 0) ∧ (x.1 = 0x23 → gradUses w ≠ 0)
      ∧ (x.1 = 0x31 → kvRowCount w ≠ 0) := by decide +kernel

theorem witness_OpRecordsIssue_later :
    let y := fetched [rec 0x24 0]
    let upd := regsAt (runs [rec 0x24 0]) [(0xBF04, 0xFFFFFFFF)]
    let coll := runs [rec 0x40 0]
    let some_ := runs [rec 0x40 (2 ^ 32)]
    let bar := runs [rec 0x42 0]
    stepGt (updStep (rec 0x24 0)) upd.lastClosed = false ∧ stepGt (updStep (rec 0x24 0)) upd.lastApplied = true
      ∧ upd.mergeRegions (updStep (rec 0x24 0)) = [] ∧ (y.op 0).done.contains 0 = false
      ∧ coll.col.ctxs = [] ∧ cBytes (coll.progRec (fetched [rec 0x40 0]) 0) = 0
      ∧ cBytes (some_.progRec (fetched [rec 0x40 (2 ^ 32)]) 0) ≠ 0 ∧ bar.col.barriers = [] ∧ bar.levelMembers 0 = 1
      ∧ recP (rec 0x42 0) 2 2 = 0 := by decide +kernel

/-- An operand in external memory. -/
def inExt (a : Nat) : Nat := 3 * 2 ^ 93 + a

/-- Barge 1 has an open collective whose C range is the 64 bytes at 0x60000000. -/
def openC (s : State) : State :=
  { s with
    sv := { s.sv with barges := s.sv.barges ++ [{ fetched [rec 0x40 0 + inExt 0x60000000 * 2 ^ 288] with id := 1 }] }
    col := { s.col with ctxs := [{ slot := 0, b := 1, i := 0, kind := 0, redOp := 0, format := 0, bytes := 64, segLog2 := 0, early := false
                                   lockId := 0, outBytes := 64, key := ⟨0, false, 0, 0, 0⟩ }] } }

theorem witness_OpRecordsIssue_held : ∀ x, x ∈ [(0x51, 2 * 2 ^ 4), (0x60, 1), (0x11, 1)] →
    let w := rec x.1 x.2 + inExt 0x6000003C * 2 ^ 96
    let s := openC (runs [w])
    let y := fetched [w]
    s.up = true ∧ s.barge? 0 = some y ∧ s.mayIssue y 0 = true ∧ s.blocked y w = none ∧ recOp w = x.1
      ∧ s.rangesHeld 0 (s.extOf y w) = true ∧ s.anyTileQuar = false := by decide +kernel

/-- An MM record paired with the DELTA after it, with counts or without, and a DELTA with or without rows. -/
def pair (m d : Nat) : State := runs [rec 0x01 (m * (1 + 2 ^ 16 + 2 ^ 32) + 2 ^ 49), rec 0x02 (d * 2 ^ 16)]

theorem witness_DeltaIssuesWithItsPair : ∀ m, m ∈ [0, 1] → ∀ d, d ∈ [0, 1] →
    let s := pair m d
    let v := rec 0x01 (m * (1 + 2 ^ 16 + 2 ^ 32) + 2 ^ 49)
    let w := rec 0x02 (d * 2 ^ 16)
    let x := fetched [v, w]
    s.up = true ∧ s.barge? 0 = some x ∧ w = s.progRec x 1 ∧ v = s.progRec x 0 ∧ recOp w = 0x02 ∧ dDir w = 0
      ∧ x.opIs 1 .waiting = true ∧ s.mayIssue x 0 = true
      ∧ s.blocked x v = none ∧ s.rangesHeld 0 (mmExt v) = false ∧ (s.seekSegs x 1 false).1 = false ∧ x.covered w = [] ∧ (mmZero v = true ↔ m = 0) ∧ (dCount w = 0 ↔ d = 0) := by decide +kernel

/-- The side pond of mooring 0 holds adapter 1, of rank 4 in layer 0 (K and N 16), whose factor rows are rows 0 to 7 of table 0;
no region has room in its row cache. Barge 0 has one row, of that adapter; all its factor rows but row 0 have come for record 1. -/
def withAdapter (ws : List Nat) : Barge × State :=
  let raw := 2 ^ 3 - 1 + 2 ^ 3 + tabRaw 1 % 2 ^ (8 * 0x7C) - 7
  let tab := raw + (crc32c (leBytes 124 raw)).toNat * 2 ^ (8 * 0x7C)
  let d := 1 + 2 ^ 40 + 0x3F80 * 2 ^ 48 + 2 ^ 64 + 2 ^ 144 + 4 * 2 ^ 328
  let x := { fetched ws with
    rows := [{ kind := 0 }]
    segs := [{ adapter := 1, tenant := 0, first := 0, count := 1 }]
    factors := (List.range 7).map fun k => { rec_ := 1, region := 0, row := k + 1, elems := [], poison := false } }
  let s := extAt (extAt (regsAt (runs ws fun _ => x) [(0x8100, 0x4A000000), (0x8108, 0x80000001), (0x9100, 0x48000000), (0xA104, 0)])
    (0x4A000000 + 4096 + 64) (leBytes 64 d)) 0x48000000 (leBytes 128 tab)
  (x, { s with sv := { s.sv with moorings := [(0, { layers := [16 + 16 * 2 ^ 16 + 16 * 2 ^ 32] })] } })

theorem witness_DeltaIssuesWithItsPair_adapter :
    let v := rec 0x01 (1 + 2 ^ 16 + 2 ^ 32 + 2 ^ 49)
    let w := rec 0x02 (2 ^ 16)
    let z := withAdapter [v, w]
    z.2.up = true ∧ z.2.barge? 0 = some z.1 ∧ w = z.2.progRec z.1 1 ∧ v = z.2.progRec z.1 0 ∧ recOp w = 0x02 ∧ dDir w = 0
      ∧ z.1.opIs 1 .waiting = true ∧ z.2.mayIssue z.1 0 = true ∧ z.2.blocked z.1 v = none ∧ z.2.rangesHeld 0 (mmExt v) = false
      ∧ mmZero v = false ∧ dCount w ≠ 0 ∧ (z.2.seekSegs z.1 1 false).1 = true := by decide +kernel

theorem witness_DeltaIssuesWithItsPair_ahead :
    let v := rec 0x01 (1 + 2 ^ 16 + 2 ^ 32 + 2 ^ 49) + 2 ^ 56
    let w := rec 0x02 (2 ^ 16)
    let x := fetched [v, w]
    let s := runs [v, w]
    let z := rec 0x02 (2 ^ 16 + 2 ^ 40) + 2 ^ 56
    s.up = true ∧ s.barge? 0 = some x ∧ x.opIs 1 .waiting = true ∧ dCount w ≠ 0 ∧ s.mayFetch x 1 = true ∧ s.mayIssue x 0 = false
      ∧ (runs [z]).mayFetch (fetched [z]) 0 = true ∧ (runs [z]).mayIssue (fetched [z]) 0 = false ∧ dDir z = 1 ∧ dCount z ≠ 0 := by
  decide +kernel

theorem witness_DeltaIssuesWithItsPair_backward : ∀ d, d ∈ [0, 1] →
    let s := runs [rec 0x02 (d * 2 ^ 16 + 2 ^ 40)]
    let w := rec 0x02 (d * 2 ^ 16 + 2 ^ 40)
    let x := fetched [w]
    s.up = true ∧ s.barge? 0 = some x ∧ w = s.progRec x 0 ∧ recOp w = 0x02 ∧ dDir w = 1 ∧ s.mayIssue x 0 = true
      ∧ s.blocked x w = none ∧ (s.seekSegs x 0 true).1 = false ∧ x.covered w = [] ∧ (dCount w = 0 ↔ d = 0) ∧ recTiles w ≠ 0 := by decide +kernel

theorem witness_ZeroCountRecordsCompleteAtOnce : ∀ op, op ∈ [0x01, 0x03, 0x30, 0x31, 0x10, 0x11, 0x20, 0x21, 0x22, 0x23] →
    let w := rec op 0
    let s := runs [w]
    let x := fetched [w]
    s.up = true ∧ s.barge? 0 = some x ∧ w = s.progRec x 0 ∧ s.mayIssue x 0 = true
      ∧ s.blocked x w = none ∧ s.anyTileQuar = false ∧ recOp w = op ∧ mmPair w = false ∧ recP w 13 0 = 0
      ∧ kvRowCount w = 0 ∧ vRows w = 0 ∧ convElems w = 0 ∧ gIndices w = 0 ∧ recP w 24 0 = 0 ∧ gradUses w = 0 := by decide +kernel

theorem witness_LockMarkOpensEachNamedLockOnce :
    let s := runs [rec 0x50 0]
    let x := fetched [rec 0x50 0]
    let bad := runs [rec 0x50 (2 ^ 4)] fun x => { x with ops := [] }
    let twice := runs [rec 0x50 0, rec 0x50 0] fun x => { x with ops := [{ word := rec 0x50 0 }] }
    let y := { barge0 1 with ops := [] }
    let z := { barge0 2 with ops := [{ word := rec 0x50 0 }] }
    s.up = true ∧ s.barge? 0 = some x ∧ s.mayIssue x 0 = true ∧ s.blocked x (rec 0x50 0) = none ∧ s.anyTileQuar = false ∧ s.armed.latent = []
      ∧ bad.barge? 0 = some y ∧ bad.progRec y 0 = rec 0x50 (2 ^ 4) ∧ y.st = .running ∧ y.failed = none ∧ 0 = y.ops.length
      ∧ 0 < y.progLen ∧ bad.poisonAt (y.recAt 0).1 (y.recAt 0).2 64 = false ∧ recP (rec 0x50 (2 ^ 4)) 127 4 ≠ 0
      ∧ twice.barge? 0 = some z ∧ twice.progRec z 1 = rec 0x50 0 ∧ 1 = z.ops.length ∧ 1 < z.progLen
      ∧ twice.poisonAt (z.recAt 1).1 (z.recAt 1).2 64 = false ∧ recOp (twice.progRec z 0) = 0x50
      ∧ nbit (recRegions (twice.progRec z 0)) 0 = true := by decide +kernel

/-- A CONFIRM of lock 0 in region 0 that settles as `kind` says, by the word at 0 of region 0's pool; the lock was marked, with
the given attempts. -/
def confirmAt (kind attempts : Nat) : Barge × State :=
  let f := fun (x : Barge) => { x with chambers := [{ region := 0, lock := 0, st := .opened, mark := 0, attempts := attempts }] }
  let w := rec 0x51 (kind * 2 ^ 4) + 2 * 2 ^ 189
  (f (fetched [w]), { runs [w] f with pool := [(0, 1)] })

theorem witness_ConfirmSettlesOrFailsItsLock : ∀ x, x ∈ [(0, 0), (1, 0), (2, 0), (2, 1)] →
    let s := (confirmAt x.1 x.2).2
    let b := (confirmAt x.1 x.2).1
    let w := s.progRec b 0
    s.anyTileQuar = false ∧ s.armed.latent = [] ∧ s.up = true ∧ s.barge? 0 = some b ∧ s.mayIssue b 0 = true ∧ s.blocked b w = none
      ∧ recOp w = 0x51 ∧ s.confirmWaits b w = [] ∧ s.rangesHeld 0 (s.extOf b w) = false ∧ bitsOf (recRegions w) 8 = [0] ∧ (s.confirmFails b w 0 = true ↔ x.1 ≠ 0)
      ∧ (b.failedOnce 0 = true ↔ x.2 = 1) := by decide +kernel

theorem witness_OrderingRecordsWaitAndSignal :
    let st (ws : List Nat) : State × Barge := (runs ws, fetched ws)
    let fence := st [rec 0x70 0]
    let more := st [rec 0x71 1 + inExt 0x60000000 * 2 ^ 96]
    let local_ := st [rec 0x72 0]
    let near := st [rec 0x72 (2 ^ 77 + 2 ^ 64)]
    let far := st [rec 0x72 (2 ^ 77 + 512 * 2 ^ 64)]
    let save := st [rec 0x60 0]
    let late := st [rec 0x01 1, rec 0x70 1]
    (∀ z, z ∈ [fence, more, local_, near, far, save] →
        z.1.anyTileQuar = false ∧ z.1.armed.latent = [] ∧ z.1.up = true ∧ z.1.barge? 0 = some z.2 ∧ z.1.mayIssue z.2 0 = true
          ∧ z.1.blocked z.2 (z.1.progRec z.2 0) = none ∧ z.1.rangesHeld 0 (z.1.extOf z.2 (z.1.progRec z.2 0)) = false
          ∧ (z.2.op 0).done.contains 0 = false ∧ z.2.preempt = none)
      ∧ late.1.mayIssue late.2 1 = true ∧ late.2.opIs 0 .complete = false ∧ recP (late.1.progRec late.2 1) 0 0 = 1
      ∧ more.1.extNat 0x60000000 8 < recP (more.1.progRec more.2 0) 63 0 ∧ (recA (more.1.progRec more.2 0)).addr = 0x60000000
      ∧ (openC more.1).mayIssue more.2 0 = true ∧ (openC more.1).rangesHeld 0 ((recA (more.1.progRec more.2 0)).extBytes 8) = true
      ∧ recP (local_.1.progRec local_.2 0) 77 77 = 0
      ∧ recP (near.1.progRec near.2 0) 77 77 = 1 ∧ recP (near.1.progRec near.2 0) 76 64 ≠ near.1.selfId
      ∧ recP (near.1.progRec near.2 0) 76 64 / 512 = near.1.selfId / 512 ∧ recP (far.1.progRec far.2 0) 76 64 / 512 ≠ far.1.selfId / 512
      := by decide +kernel

theorem witness_OrderingRecordsWaitAndSignal_runs :
    let w := rec 0x71 0
    let y := fetched [w] fun o => { o with st := .running }
    let wait := runs [w] fun _ => y
    let v := rec 0x60 0
    let p := { fetched [v] with preempt := some 0 }
    let saved := regsAt (runs [v] fun _ => p) [(0x6328, 1 + 2 ^ 16)]
    wait.barge? 0 = some y ∧ y.opIs 0 .running = true ∧ y.failed = none ∧ y.st = .running ∧ w = wait.progRec y 0
      ∧ wait.rangesHeld 0 ((recA w).extBytes 8) = false ∧ wait.extPoison (recA w).addr 8 = false
      ∧ recP w 63 0 ≤ wait.extNat (recA w).addr 8 ∧ (y.op 0).issued + recP w 79 64 ≤ wait.now
      ∧ saved.barge? 0 = some p ∧ saved.mayIssue p 0 = true ∧ saved.blocked p v = none ∧ saved.hq.maint = false ∧ p.barrier = none
      ∧ v = saved.progRec p 0 ∧ saved.rangesHeld 0 (saved.extOf p v) = false
      ∧ p.chambers = [] ∧ saved.col.ctxs = [] ∧ liveBytes p ((saved.rangeWords p v).map liveRange) + 0x1000 ≤ saved.slotBytes
      ∧ lowestFree saved.sv.saveSlots < fld (saved.cfg pLKP 0x328) 5 0 := by decide +kernel

theorem witness_OpCompleteEndsTheRecord : ∀ w, w ∈ [rec 0x50 0, rec 0x23 (2 ^ 40), rec 0x24 0] → ∀ n, n ∈ [0, 1] →
    let x := fetched [w] fun o => { o with st := .running, outstanding := n }
    let s := runs [w] fun _ => x
    s.up = true ∧ s.barge? 0 = some x ∧ w = s.progRec x 0 ∧ x.failed = none ∧ x.opIs 0 .running = true
      ∧ recOp w ∉ [0x20, 0x21, 0x40, 0x41, 0x42, 0x70, 0x71] ∧ s.unitsOf 0 0 = [] ∧ s.col.barriers = [] ∧ (x.op 0).outstanding = n
      ∧ s.rows.moves = [] ∧ s.rows.migRest = [] ∧ s.pairOf x 0 = none := by
  decide +kernel

theorem witness_OpCompleteEndsTheRecord_pair : ∀ n, n ∈ [0, 1] →
    let v := rec 0x01 (1 + 2 ^ 16 + 2 ^ 32 + 2 ^ 49)
    let w := rec 0x02 (2 ^ 16)
    let x := { fetched [v, w] with ops := [{ word := v, st := .running }, { word := w, st := .running, outstanding := n }] }
    let s := runs [v, w] fun _ => x
    s.up = true ∧ s.barge? 0 = some x ∧ s.progRec x 0 = v ∧ s.progRec x 1 = w ∧ s.pairOf x 0 = some 1 ∧ s.pairOf x 1 = some 0
      ∧ x.opIs 0 .running = true ∧ x.opIs 1 .running = true ∧ recOp v = 0x01 ∧ recOp w = 0x02 ∧ s.unitsOf 0 0 = [] ∧ s.unitsOf 0 1 = []
      ∧ (x.op 0).outstanding = 0 ∧ (x.op 1).outstanding = n ∧ s.col.barriers = [] := by decide +kernel

/-- Barge 0 runs a record with one commit unit. -/
def unitAt (w : Nat) (u : CUnit) (rows : List ManRow) : Barge × State :=
  let x := { fetched [w] (fun o => { o with st := .running }) with rows := rows }
  let s := runs [w] fun _ => x
  (x, { s with sv := { s.sv with units := [u], berths := [(0, { st := .decode, outExt := true, maxTokens := 9 })] } })

theorem witness_CommitUnitMakesOneCommitOrNone :
    let w := rec 0x01 0
    let wr := unitAt w { b := 0, i := 0, key := 0, act := .memWrite 0x60000000 [1] } []
    let add := unitAt w { b := 0, i := 0, key := 0, act := .addWord 0x60000000 5 } []
    let out := unitAt w { b := 0, i := 0, key := 0, act := .output 0 (wr.2.populated) [1] } [{ kind := 0 }]
    let left := unitAt w { b := 0, i := 0, key := 0, act := .memWrite 0x60000000 [1], rows := [0] } [{ kind := 0, out := true }]
    let bad := unitAt w { b := 0, i := 0, key := 0, act := .memWrite 0x60000000 [1], poison := true } []
    let shut := unitAt w { b := 0, i := 0, key := 0, act := .memWrite 0x60000000 [1], pend := 1 } []
    let wait := unitAt (w + 2 ^ 56) { b := 0, i := 0, key := 0, act := .memWrite 0x60000000 [1] } []
    (∀ z, z ∈ [wr, add, out, left, bad] → z.2.up = true ∧ z.2.barge? 0 = some z.1 ∧ z.1.failed = none ∧ z.1.opIs 0 .running = true
        ∧ ∀ u, u ∈ z.2.sv.units → z.2.sv.units.find? (fun v => v.b == 0 && v.i == 0 && v.key == 0) = some u ∧ u.pend = 0
          ∧ z.1.waitsMet (z.2.progRec z.1 0) = true ∧ z.2.unitInOrder z.1 u = true ∧ z.2.unitHeld z.1 u = false
          ∧ z.2.addPoison u = false ∧ z.1.unitOut u = (!u.rows.isEmpty))
      ∧ (out.2.berth 0).outExt = true ∧ shut.1.confirmed 0 = false ∧ wait.1.waitsMet (wait.2.progRec wait.1 0) = false := by decide +kernel

theorem witness_KvCommitUnitAdvancesItsRequest :
    let u : CUnit := { b := 0, i := 0, key := 0, act := .kvCommit 0 1 [7] }
    let z := unitAt (rec 0x31 (2 ^ 16)) u [{ kind := 0 }]
    let be := z.2.berth 0
    z.2.up = true ∧ z.2.barge? 0 = some z.1 ∧ z.2.sv.units.find? (fun v => v.b == 0 && v.i == 0 && v.key == 0) = some u
      ∧ z.2.unitReady z.1 u = true ∧ z.1.unitOut u = false ∧ z.1.rows[0]? = some { kind := 0 } ∧ be.finished = false
      ∧ deliver be.maxTokens be.stopToken be.delivered [7] = [7] ∧ be.outExt = true
      ∧ be.outAddr + 4 * be.delivered + 4 ≤ z.2.populated := by decide +kernel

/-! ### The lock-keeper and the regions -/

theorem witness_ChosenRegionsAreFreeAndBest :
    up0.choose { barge0 0 with need := 2 } [0, 1, 2] = some [0, 1] ∧ up0.choose { barge0 0 with need := 2 } [0] = none := by decide +kernel

/-- Barge 0 of mooring 0 alone, as given; the regions in `run` run. -/
def lone (x : Barge) (run : List Nat := []) (quar : Bool := false) : State :=
  { hq0 with
    sv := { barges := [x] }
    regions := (List.range 8).map fun r => (r, { power := if run.contains r then .run else .off, quarantined := quar, pieces := [⟨1, 0, 0⟩] }) }

theorem witness_WaitingWorkIsPlacedAndLoaded :
    let x : Barge := { id := 0, need := 1, progLen := 1 }
    let y : Barge := { id := 0, st := .loading, regions := [0], need := 1, progLen := 1 }
    (lone x).up = true ∧ (lone x).barge? 0 = some x ∧ (lone x).sv.soloQueue = [] ∧ (lone x).workOrder = [0] ∧ x.failed = none
      ∧ (lone x).hq.maint = false ∧ (lone x).rows.pauses = [] ∧ (lone x).soloWaits x = false ∧ x.st = .waiting ∧ x.solo = false
      ∧ (lone x).choose x ((List.range 8).filter ((lone x).freeFor ((lone x).unionOf x))) = some [0]
      ∧ x.need ≤ ((List.range 8).filter ((lone x).freeFor ((lone x).unionOf x))).length ∧ (∀ r, r < 8 → ((lone x).region r).moored = [])
      ∧ (lone x [] true).workOrder = [0] ∧ ((List.range 8).filter fun r => !(lone x [] true).quarFor ((lone x [] true).unionOf x) r).length < x.need
      ∧ (lone y [0]).up = true ∧ (lone y [0]).barge? 0 = some y ∧ y.st = .loading ∧ (lone y [0]).awake 0 = true ∧ y.failed = none
      ∧ (lone y [0]).loadHeld y = false ∧ y.toLoad = [] ∧ y.moorBegun = false ∧ ((lone y [0]).mooring y.mooring).moorCount = 0
      ∧ x.st ≠ .loading ∧ x.st ≠ .restoring := by decide +kernel

theorem witness_PreemptionHoldsAndRequests :
    let x := { barge0 1 with ops := [{ st := .running }] }
    let y := { barge0 1 with st := .loading }
    let z := { barge0 1 with preempt := some 0 }
    let v := { barge0 1 with st := .restoring, ops := [{ st := .complete }] }
    let s := lone x
    s.up = true ∧ s.barge? 0 = some x ∧ 0 ∈ x.regions ∧ bitOf (1 : BitVec 8) 0 = true ∧ bitOf (2 : BitVec 8) 0 = false
      ∧ x.preempt = none ∧ s.sv.barges.filter (·.id == 0) = [x] ∧ x.st = .running ∧ (x.ops.any fun o => o.st != .waiting) = true
      ∧ (lone y).barge? 0 = some y ∧ (lone y).hq.maint = false ∧ (barge0 1).ops.all (fun o => o.st == .waiting) = true
      ∧ (lone v).barge? 0 = some v ∧ v.st = .restoring ∧ v.preempt = none ∧ (lone z).barge? 0 = some z ∧ z.overdue = false ∧ (regsAt (lone z) [(0x631C, 0)]).cfgN pLKP 0x31C ≤ (regsAt (lone z) [(0x631C, 0)]).now - 0
      ∧ (regsAt (lone z) [(0x631C, 1)]).now - 0 < (regsAt (lone z) [(0x631C, 1)]).cfgN pLKP 0x31C := by decide +kernel

theorem witness_SavesAndRestores :
    let x := { barge0 1 with st := .saving, saveSlot := some 0 }
    let y := { barge0 1 with st := .restoring, saveSlot := some 0 }
    (lone x).up = true ∧ (lone x).anyTileQuar = false ∧ (lone x).armed.latent = [] ∧ (lone x).barge? 0 = some x ∧ x.failed = none
      ∧ (lone y [0]).barge? 0 = some y ∧ y.toLoad = [] ∧ (lone y [0]).awake 0 = true
      ∧ y.failed = none ∧ x.saveSlot = some 0 ∧ y.saveSlot = some 0
      ∧ (lone x).rangesHeld 0 [((lone x).slotAddr 0, (lone x).slotBytes)] = false
      ∧ (lone y [0]).rangesHeld 0 [((lone y [0]).slotAddr 0, (lone y [0]).slotBytes)] = false
      ∧ (let h := openC (regsAt (lone x) [(0x6320, 0x60000000), (0x6328, 2 ^ 16)])
         h.barge? 0 = some x ∧ h.rangesHeld 0 [(h.slotAddr 0, h.slotBytes)] = true) := by decide +kernel

theorem witness_BargeEndClearsItsBarge :
    let x := { barge0 1 with fetchedAll := true, ops := [{ st := .complete }] }
    let y := { barge0 1 with failed := some fCFG }
    (lone x).up = true ∧ (lone x).barge? 0 = some x ∧ x.st = .running ∧ x.ops.all (fun o => o.st == .complete && o.outstanding == 0) = true
      ∧ (lone x).sv.units = [] ∧ (lone y).barge? 0 = some y ∧ y.failed.isSome = true
      ∧ (barge0 1).failed = none ∧ (barge0 1).fetchedAll = false ∧ (barge0 1).progLen ≠ 0 := by decide +kernel

/-- Region 7 in a power state, or waking from one; DEEPEST allows OFF everywhere. -/
def powerAt (p : Power) (w : Option Power) : State :=
  regsAt { hq0 with regions := [(7, { power := p, waking := w })] } [(0x3100, 0xFFFF), (0x3104, 0), (0x3108, 0)]

theorem witness_RegionPowerFollowsIdleness :
    (powerAt .doze none).up = true ∧ ((powerAt .doze none).region 7).waking = none ∧ (powerAt .doze none).isolated (rPage 7) = false
      ∧ (powerAt .doze none).busyRegion 7 = false ∧ (powerAt .doze none).cfgN pPWR 0x104 ≤ (powerAt .doze none).now
      ∧ (powerAt .doze none).deepest 7 = 3 ∧ (powerAt .nap none).cfgN pPWR 0x108 ≤ (powerAt .nap none).now
      ∧ (powerAt .nap none).rows.merge = []
      ∧ (runs [rec 0x01 1]).busyRegion 0 = true
      ∧ ((powerAt .doze (some .doze)).region 7).waking = some .doze
      ∧ (powerAt .nap (some .nap)).rst.locked = [8, 9]
      ∧ (regsAt (powerAt .off (some .off)) [(0x2060, 128)]).forced 7 = true
      ∧ (regsAt (powerAt .off (some .off)) [(0x2060, 128)]).clkGood 7 = false := by decide +kernel

theorem witness_RegionPowerFollowsIdleness_wakes :
    let x := { barge0 1 with regions := [7] }
    let s : State := { powerAt .off (some .off) with sv := { barges := [x] } }
    let n : State := { powerAt .nap (some .nap) with rst := { up0.rst with locked := [7, 8, 9] }, sv := { barges := [x] } }
    let f : State := { powerAt .off (some .off) with rst := { up0.rst with locked := [7, 8, 9] } }
    s.busyRegion 7 = true ∧ (s.setClkGood 7 true).clkGood 7 = true ∧ n.busyRegion 7 = true ∧ 7 ∈ n.rst.locked
      ∧ (n.region 7).waking = some .nap ∧ (f.region 7).waking = some .off ∧ 7 ∈ f.rst.locked := by decide +kernel

/-! ### Rows between engines -/

/-- Table 0 as active or former in slot 0, the exception table at 0x4B000000 with one entry, the merge buffers, every region awake. -/
def rows0 (st exc : Nat) : State :=
  let s := regsAt (dirAt (some st) none) [(0x9108, 0x4B000000), (0xB104, 64), (0xB108, 0x4C000000), (0xB110, 1)]
  { extAt s 0x4B000000 (leBytes 16 exc) with regions := (List.range 8).map fun r => (r, { power := .run }) }

/-- `rows0` after a replacement: table 0 with SEQ 1 in slot 0, its FORMER entry in slot 1. -/
def former0 : State := extAt (extAt (rows0 1 0) 0x48000000 (leBytes 128 (tabSeq 1 1))) 0x48000080 (leBytes 128 (tabRaw 3))

/-- The entry of table 0 in `rows0`. -/
def tab0 (st : Nat) : Tab := { id := 0, slot := 0, raw := tabRaw st }

/-- A row request of the given KIND, TABLE_SEQ and READ_STEP for row 0. -/
def rowReq (kind seq step : Nat) : Packet :=
  { op := 4, vc := 1, len := 32, payload := leBytes 32 (kind * 2 ^ 168 + step * 2 ^ 192 + seq * 2 ^ 224) }

theorem witness_RowRequestsAreAnsweredByTheirOwner : ∀ kind, kind ∈ [1, 2] →
    let p := rowReq kind 0 0
    let q := rowReq kind 1 0
    let s := rows0 1 0
    let v := s.writeRowImage (tab0 1) ((tab0 1).homeLoc 0) (List.replicate ((tab0 1).homeLoc 0).bytes 1) 5
    let r := (v.readRow (tab0 1) ((tab0 1).homeLoc 0)).1
    s.up = true ∧ p.op = 4 ∧ p.dest = s.selfId ∧ packetOk p = true ∧ packetOk q = true ∧ s.fab.heldReqs = [] ∧ reqKind p = kind
      ∧ s.packetTurn p (s.flowOf p) = true ∧ s.packetTurn q (s.flowOf q) = true
      ∧ s.settleSeq (reqTable q) (reqSeq q) = .held ∧ (rows0 0 0).settleSeq (reqTable p) (reqSeq p) = .notOwner
      ∧ (rows0 1 (excBits 0 0 3 7 0 0)).settleSeq (reqTable p) (reqSeq p) = .active (tab0 1)
      ∧ (rows0 1 (excBits 0 0 3 7 0 0)).holdOf (tab0 1) (reqRow p) = .gone 7
      ∧ (rows0 1 (excBits 0 0 4 7 0 0)).settleSeq (reqTable p) (reqSeq p) = .active (tab0 1)
      ∧ (rows0 1 (excBits 0 0 4 7 0 0)).holdOf (tab0 1) (reqRow p) = .other
      ∧ v.settleSeq (reqTable p) (reqSeq p) = .active (tab0 1) ∧ v.holdOf (tab0 1) (reqRow p) = .own ((tab0 1).homeLoc 0)
      ∧ stepGt r.step (reqStep p) = true ∧ stepGt r.step (reqStep (rowReq kind 0 5)) = false ∧ r.poison = false := by
  decide +kernel

/-- `former0` whose row 0 was in the migration basin when the table was replaced, as `st` says. -/
def wasMoved (st : Nat) : State :=
  let s := former0
  { s with rows := { s.rows with formerRows := [(0, 0, excBits 0 0 st 7 0 0)] } }

/-- `rows0` with an earlier packet of the same source and VC received and waiting. -/
def behind : State :=
  let s := rows0 1 0
  { s with fab := { s.fab with inbox := [{ rowReq 1 0 0 with addr := 64 }] } }

theorem witness_RowRequestsAreAnsweredByTheirOwner_former : ∀ kind, kind ∈ [1, 2] →
    let p := rowReq kind 0 0
    let f : Tab := { id := 0, slot := 1, raw := tabRaw 3 }
    behind.up = true ∧ p.op = 4 ∧ p.dest = behind.selfId ∧ behind.packetTurn p (behind.flowOf p) = false
      ∧ former0.settleSeq (reqTable p) (reqSeq p) = .former f ∧ reqRow p < f.rows
      ∧ f.rows ≤ reqRow { p with payload := leBytes 32 (kind * 2 ^ 168 + 1) } ∧ f.defaultOwner = former0.selfId
      ∧ former0.rows.formerRows = [] ∧ former0.mapLoc f (reqRow p) false = some (f.homeLoc 0)
      ∧ (∀ st, st ∈ [1, 2, 3] → (wasMoved st).rows.formerRows.find? (fun e => e.1 == f.id && e.2.1 == reqRow p)
          = some (0, 0, excBits 0 0 st 7 0 0) ∧ excState (excBits 0 0 st 7 0 0) = st)
      ∧ eOWNED = 1 ∧ ePROV = 2 ∧ eGONE = 3 := by decide +kernel

theorem witness_RowRequestsAreAnsweredByTheirOwner_unusable :
    let bad : State := { rows0 1 0 with tags := [(0x48000000 / 512, { poison := true })] }
    let p := rowReq 1 0 0
    bad.up = true ∧ bad.settleSeq (reqTable p) (reqSeq p) = .bad ∧ bad.packetTurn p (bad.flowOf p) = true := by decide +kernel

/-- An update message (KIND 0x10) or notice (0x11) for row 0 with its TABLE_SEQ, STEP and SEQUENCE. -/
def updMsg (kind seq step n : Nat) : Packet :=
  { op := 5, vc := 3, len := if kind = kUPDATE then 128 else 64
    payload := leBytes 32 (2 ^ 81 + 2 ^ 88 + kind * 2 ^ 128 + n * 2 ^ 160 + step * 2 ^ 192 + seq * 2 ^ 224)
      ++ List.replicate (if kind = kUPDATE then 96 else 32) 0 }

/-- `rows0` having taken up source 0's messages of `step` to number `n`. -/
def rows1 (st exc step n : Nat) : State :=
  let s := rows0 st exc
  { s with rows := { s.rows with marks := [((0, step), (0, n))] } }

theorem witness_UpdateMessagesAreSettledInOrder : ∀ kind, kind ∈ [kUPDATE, kNOTICE] →
    let p := updMsg kind 0 1 1
    let q := updMsg kind 1 1 1
    let s := rows0 1 0
    s.up = true ∧ p.op = 5 ∧ p.dest = s.selfId ∧ packetOk p = true ∧ packetOk q = true ∧ s.fab.heldReqs = [] ∧ mKind p = kind
      ∧ s.packetTurn p (s.flowOf p) = true ∧ s.rows.weirShut.contains (mStep p) = false ∧ s.heldBefore p = false
      ∧ (kind = kUPDATE → 32 + 4 * mDim p ≤ p.payload.length) ∧ mDim p = (tab0 1).dim
      ∧ former0.settleSeq (mTable p) (mSeq p) = .former { id := 0, slot := 1, raw := tabRaw 3 } ∧ s.settleSeq (mTable q) (mSeq q) = .held
      ∧ (rows0 0 0).settleSeq (mTable p) (mSeq p) = .notOwner ∧ s.settleSeq (mTable p) (mSeq p) = .active (tab0 1)
      ∧ (rows0 1 (excBits 0 0 3 7 0 0)).settleSeq (mTable p) (mSeq p) = .active (tab0 1)
      ∧ (rows0 1 (excBits 0 0 3 7 0 0)).holdOf (tab0 1) (mRow p) = .gone 7
      ∧ (rows0 1 (excBits 0 0 4 7 0 0)).holdOf (tab0 1) (mRow p) = .other
      ∧ (rows0 1 (excBits 0 0 2 7 0 0)).holdOf (tab0 1) (mRow p) = .own ((rows0 1 (excBits 0 0 2 7 0 0)).migLoc (tab0 1) 0 0)
      ∧ s.holdOf (tab0 1) (mRow p) = .own ((tab0 1).homeLoc 0)
      ∧ s.inWindow 0 = false ∧ s.inWindow (mStep p) = true ∧ s.inWindow 2 = true ∧ s.inWindow 3 = false
      ∧ (rows1 1 0 1 1).isReplay p = true ∧ (rows1 1 0 1 0).isReplay p = false := by decide +kernel

/-- The weir half of step 1 was found full, or a message of the same source and step is held. -/
theorem witness_UpdateMessagesAreSettledInOrder_stopped : ∀ kind, kind ∈ [kUPDATE, kNOTICE] →
    let p := updMsg kind 0 1 1
    let s := rows0 1 0
    let shut : State := { s with rows := { s.rows with weirShut := [1] } }
    let held : State := { s with fab := { s.fab with heldReqs := [⟨updMsg kUPDATE 0 1 0, 0⟩] } }
    shut.rows.weirShut.contains (mStep p) = true ∧ held.heldBefore p = true ∧ Fresh held p ∧ shut.fab.heldReqs = []
      ∧ shut.inWindow (mStep p) = true ∧ held.inWindow (mStep p) = true ∧ shut.settleSeq (mTable p) (mSeq p) = .active (tab0 1)
      ∧ held.settleSeq (mTable p) (mSeq p) = .active (tab0 1) ∧ shut.holdOf (tab0 1) (mRow p) = .own ((tab0 1).homeLoc 0)
      ∧ held.holdOf (tab0 1) (mRow p) = .own ((tab0 1).homeLoc 0) ∧ shut.packetTurn p (shut.flowOf p) = true
      ∧ held.packetTurn p (held.flowOf p) = true := by
  simp only [Fresh]; decide +kernel

/-- The outcome of merging a message at a state. -/
def mergeOut (s : State) (p : Packet) : Nat :=
  match (s.take p).mergeGrad { table := mTable p, row := mRow p, step := mStep p, mult := mMult p, grad := mGrad p, poison := anyBad p } p.payload with
  | .held _ => 0
  | .full => 1
  | .asleep _ => 2

theorem witness_UpdateMessagesAreSettledInOrder_merged :
    mergeOut (rows0 1 0) (updMsg kUPDATE 0 1 1) = 0 ∧ mergeOut (regsAt (rows0 1 0) [(0xB104, 0), (0xB110, 0)]) (updMsg kUPDATE 0 1 1) = 1
      ∧ mergeOut { rows0 1 0 with regions := [] } (updMsg kUPDATE 0 1 1) = 2 := by decide +kernel

theorem witness_GradientsMergeByKeyAndStep :
    let m : WeirMsg := { table := 0, row := 0, step := 1, mult := 1, grad := List.replicate 16 0, poison := false }
    let s := rows0 1 0
    let e : MergeEnt := { region := mergeRegion 0 0, place := 0, table := 0, row := 0, step := 1, mult := 1, grads := [], poison := false }
    let t : State := { s with rows := { s.rows with merge := [e] } }
    s.mergeShut (mergeRegion 0 0) = false ∧ s.awake (mergeRegion 0 0) = true
      ∧ ({ s with regions := [] } : State).awake (mergeRegion 0 0) = false
      ∧ ({ s with regions := [(mergeRegion 0 0, { quarantined := true })] } : State).mergeShut (mergeRegion 0 0) = true
      ∧ t.rows.merge = [e] ∧ e.table = m.table ∧ e.row = m.row ∧ e.step = m.step ∧ s.rows.merge = []
      ∧ (s.mergeRoom (mergeRegion 0 0) 0 0 1 m.grad.length).isSome = true
      ∧ (regsAt s [(0xB104, 0)]).mergeRoom (mergeRegion 0 0) 0 0 1 m.grad.length = none
      ∧ (regsAt s [(0xB104, 0)]).rows.weirUsed.getD 1 0 + 96 ≤ (regsAt s [(0xB104, 0)]).weirHalf := by decide +kernel

/-- A request of this engine stands under tag 3 since time 0. -/
def tagged (u : TagUse) (retried : Bool) : State :=
  let s := rows0 1 0
  { s with fab := { s.fab with tags := [(3, { use := some u, retried := retried })] } }

/-- A response of the given OP and KIND under tag 3. -/
def answered (op kind : Nat) : Packet := { op := op, vc := 2, tag := 3, len := 32, payload := leBytes 32 (kind * 2 ^ 200) }

theorem witness_AnswersReachTheirRequester :
    (∀ x, x ∈ [(0x84, kROW), (0x84, kCURRENT), (0x84, kFORWARD), (0x84, kNOT_OWNER), (0x85, kMERGED), (0x85, kSTALE), (0x85, kFORWARD)] →
        let s := tagged (if x.1 = 0x84 then .row 0 0 0 1 false none else .update 0 0 []) (x.2 == kFORWARD && x.1 == 0x85)
        let p := answered x.1 x.2
        s.up = true ∧ p.dest = s.selfId ∧ packetOk p = true ∧ s.packetTurn p (s.flowOf p) = true ∧ s.matches p = true ∧ p.status = 0
          ∧ respKind p = x.2
          ∧ ((s.tagSt p.tag).retried = true ↔ x = (0x85, kFORWARD)))
      ∧ (rows0 1 0).matches (answered 0x84 kROW) = false
      ∧ ((tagged (.row 0 0 0 1 false none) false).tagSt 3).since + (tagged (.row 0 0 0 1 false none) false).fabTimeout
          ≤ ({ tagged (.row 0 0 0 1 false none) false with aoUs := 2 ^ 40 } : State).now
      ∧ (tagged (.row 0 0 0 1 false none) false).now < 0 + (tagged (.row 0 0 0 1 false none) false).fabTimeout
      ∧ ({ tagged (.update 0 0 []) false with sv := { barges := [barge0 1] } } : State).barge? 0 = some (barge0 1) := by decide +kernel

/-- A ROW_MOVE packet of row 0 of table 0 with its KIND, its number and 64 bytes. -/
def moveMsg (kind num src : Nat) : Packet :=
  { op := 6, vc := 6, src := src, len := if kind = 1 ∨ kind = 4 then 80 else 16
    payload := leBytes 16 (kind + num * 2 ^ 32) ++ (if kind = 1 ∨ kind = 4 then leBytes 64 0 else []) }

/-- The row's state so far received. -/
def moving (have_ bytes : Nat) : State :=
  let s := rows0 1 0
  { s with rows := { s.rows with inbound := [{ table := 0, row := 0, src := 1, image := [], stateBytes := bytes, state := List.replicate have_ 0, step := 0 }] } }

theorem witness_RowsMoveToTheirNewOwner :
    (∀ k, k ∈ [1, 2, 3, 4] → (rows0 1 0).up = true ∧ packetOk (moveMsg k 0 1) = true ∧ (rows0 1 0).packetTurn (moveMsg k 0 1) ((rows0 1 0).flowOf (moveMsg k 0 1)) = true ∧ (moveMsg k 0 1).dest = (rows0 1 0).selfId
        ∧ mvKind (moveMsg k 0 1) = k ∧ (rows0 1 0).refusedLevel (moveMsg k 0 1) = false ∧ (rows0 1 0).refusedLevel (moveMsg k 0 512) = true)
      ∧ mvNum (moveMsg 1 0 1) = 0 ∧ mvNum (moveMsg 1 64 1) = 64 ∧ (rows0 1 0).rows.inbound = []
      ∧ (∀ x, x ∈ [(0, 64), (0, 65), (64, 64)] →
          (moving x.1 x.2).rows.inbound.find? (fun i => i.table == mvTable (moveMsg 4 0 1) && i.row == mvRow (moveMsg 4 0 1) && i.src == (moveMsg 4 0 1).src)
            = some { table := 0, row := 0, src := 1, image := [], stateBytes := x.2, state := List.replicate x.1 0, step := 0 })
      ∧ ((moveMsg 4 0 1).payload.drop 16).length = 64
      ∧ (∀ st, st ∈ [3, 4] → (rows0 1 (excBits 0 0 st 1 0 0)).exc? 0 0 = some (0x4B000000, excBits 0 0 st 1 0 0) ∧ excState (excBits 0 0 st 1 0 0) = st
          ∧ excOwner (excBits 0 0 st 1 0 0) = 1) := by decide +kernel

/-- The row is on its way to engine 1, under tag 3. -/
def sending (u : TagUse) : State :=
  let s := tagged u false
  { s with rows := { s.rows with moves := [{ table := 0, row := 0, dest := 1, unanswered := 1, wasOwned := false }] } }

theorem witness_RowsMoveToTheirNewOwner_answers :
    (∀ a, a ∈ [aACCEPT, aREFUSE, aSTORED, aHELD, aNOT_HELD] →
        let p : Packet := { op := 0x86, vc := 2, tag := 3, len := 1, payload := [BitVec.ofNat 8 a] }
        let s := sending (if a = aHELD ∨ a = aNOT_HELD then .query 0 0 else .move 0 0 true)
        s.up = true ∧ s.rows.migRest = [] ∧ s.packetTurn p (s.flowOf p) = true ∧ p.dest = s.selfId ∧ packetOk p = true ∧ s.matches p = true ∧ mvAnswer p = a)
      ∧ (sending (.move 0 0 true)).move? 0 0 = some { table := 0, row := 0, dest := 1, unanswered := 1, wasOwned := false }
      ∧ (sending (.move 0 0 true)).tab 0 = .ok (tab0 1) ∧ (sending (.move 0 0 true)).mapOwner 0 0 ≠ some 1
      ∧ ((sending (.move 0 0 true)).excPut 0 0 (excBits 0 0 eGONE 1 0 0)).isSome = true := by decide +kernel

/-- An entry with an EXPIRY of 1 at time `n`. -/
def timed (st n : Nat) : State :=
  let s := rows0 1 (excBits 0 0 st 1 0 1)
  { s with
    aoUs := n
    rows := { s.rows with provisional := [(0, 0, 0)], adopted := true } }

theorem witness_RowTimersRunOut :
    (timed 3 1).up = true ∧ (timed 3 1).exc? 0 0 = some (0x4B000000, excBits 0 0 3 1 0 1)
      ∧ (BitVec.ofNat 32 (timed 3 1).now - excExpiry (excBits 0 0 3 1 0 1)).toNat < 2 ^ 31
      ∧ 2 ^ 31 ≤ (BitVec.ofNat 32 (timed 3 0).now - excExpiry (excBits 0 0 3 1 0 1)).toNat
      ∧ (timed 2 (2 ^ 40)).exc? 0 0 = some (0x4B000000, excBits 0 0 2 1 0 1)
      ∧ (timed 2 (2 ^ 40)).rows.provisional.find? (fun e => e.1 == 0 && e.2.1 == 0) = some (0, 0, 0)
      ∧ 0 + (timed 2 (2 ^ 40)).fabTimeout ≤ (timed 2 (2 ^ 40)).now ∧ (timed 2 (2 ^ 40)).tagsFull = false
      ∧ (timed 2 0).now < 0 + (timed 2 0).fabTimeout
      ∧ (regsAt (timed 2 5) [(0x9140, 5)]).rows.windowStart + (regsAt (timed 2 5) [(0x9140, 5)]).cfgN pROW 0x140 ≤ (regsAt (timed 2 5) [(0x9140, 5)]).now
      ∧ (regsAt (timed 2 5) [(0x9140, 5)]).rows.adopted = true ∧ (regsAt (timed 2 5) [(0x9140, 5)]).cfgN pROW 0x140 = 5
      ∧ (rows0 1 0).rows.adopted = false := by decide +kernel

/-! ### The fabric -/

/-- Two engines on one board. -/
def pair2 (s : State) : State := regsAt s [(0xC104, 2 + 2 ^ 8 + 2 ^ 16)]

/-- A collective of barge 0 is open, 64 bytes of it at 0x60000000. -/
def ctx0 (ph : CtxPhase) : Ctx :=
  { slot := 0, b := 0, i := 0, key := ⟨0, false, 0, 1, 0⟩, kind := 0, redOp := 0, format := 0, bytes := 128, segLog2 := 0, early := false
    lockId := 0, outBytes := 64, seq := some 0, phase := ph, work := List.replicate 128 0 }
def collAt (ph : CtxPhase) (f : Ctx → Ctx := id) : State :=
  let s := pair2 (runs [3 * 2 ^ 381 + 0x60000000 * 2 ^ 288] fun x => x.setOp 0 fun o => { o with st := .running })
  { s with col := { s.col with ctxs := [f (ctx0 ph)] } }

/-- A request at an address, with a LEN and a payload of 64 bytes where its OP has one. -/
def memReq (op addr len : Nat) : Packet :=
  { op := op, vc := if op = 3 then 1 else if op = 9 then 7 else 5, addr := addr, len := len
    payload := if op = 2 ∨ op = 9 then List.replicate len 1 else [], poison := if op = 2 then 1 else 0 }

theorem witness_MemoryRequestsAreServed :
    let s := collAt .moving
    (∀ op, op ∈ [1, 2, 3, 9] → ∀ src, src ∈ [0, 512] →
        let p : Packet := { memReq op 0 (if op = 3 then 0 else 64) with src := src }
        s.up = true ∧ p.op = op ∧ p.dest = s.selfId ∧ packetOk p = true ∧ (idRack p.src = idRack s.selfId ↔ src = 0))
      ∧ packetOk (memReq 1 1 64) = true ∧ packetOk (memReq 3 4 0) = true ∧ packetOk (memReq 2 s.populated 64) = true
      ∧ s.populated < s.populated + 64 ∧ s.populated - 64 + 64 ≤ s.populated ∧ (s.populated - 64) % 64 = 0
      ∧ s.rangeOpen 0x60000000 64 = true ∧ s.rangeOpen 0x60000038 8 = true ∧ s.rangeOpen 0x60000040 64 = false
      ∧ unitBad (memReq 2 0 64) 0 = true ∧ s.weight 7 = 0 ∧ (regsAt s [(0xD104, 0x10000)]).weight 7 ≠ 0 := by decide +kernel

/-- Berth 0 has 3 committed positions, and holds position 3 in the 128 bytes at 0x60000000. -/
def kv0 : State :=
  { hq0 with sv := { hq0.sv with berths := [(0, { st := .decode, committed := 3, kv := [{ position := 3, layer := 0, ranges := [(0x60000000, 128)] }] })] } }

theorem witness_MemoryRequestsAreServed_kv :
    let p := memReq 1 0x60000040 128
    kv0.kvAbove p.addr p.len = [(0, 0x60000000, 128)] ∧ p.vc = 5 ∧ kv0.up = true ∧ p.dest = kv0.selfId ∧ packetOk p = true
      ∧ kv0.packetTurn p (kv0.flowOf p) = true ∧ kv0.rangeOpen p.addr p.len = false ∧ p.addr + p.len ≤ kv0.populated
      ∧ kv0.kvAbove 0x60000080 64 = [] := by decide +kernel

/-- A packet for engine 1 from port 0 waits for one that came before it. -/
theorem witness_FabricTimersAndForwards_behind :
    let p : Packet := { memReq 1 0 64 with dest := 1 }
    let q : Packet := { memReq 1 64 64 with dest := 1 }
    let s : State := { hq0 with fab := { hq0.fab with inbox := [q, p], arrivals := [(q, 0), (p, 0)] } }
    let u : State := { hq0 with fab := { hq0.fab with inbox := [p], arrivals := [(p, 0)] } }
    s.up = true ∧ p.dest ≠ s.selfId ∧ s.packetTurn p (s.flowThrough 0 p) = false ∧ u.packetTurn p (u.flowThrough 0 p) = true := by
  decide +kernel

/-- Tag 3 is in use for the SIGNAL of record 0 of barge 0. -/
def signal3 (q : Option Nat) : State :=
  let s := runs [rec 0x72 0]
  { s with fab := { s.fab with tags := [(3, { use := if q.isSome then none else some (.fetchAdd 0 0), quarantine := q })], heldReqs := [⟨{}, 0⟩] } }

theorem witness_FabricTimersAndForwards :
    (∀ st, st ∈ [0, 1] → let p : Packet := { op := 0x83, vc := 2, tag := 3, status := st }
        (signal3 none).up = true ∧ p.dest = (signal3 none).selfId ∧ packetOk p = true ∧ (signal3 none).matches p = true
          ∧ ((signal3 none).tagSt 3).use = some (.fetchAdd 0 0) ∧ (signal3 none).packetTurn p ((signal3 none).flowOf p) = true
          ∧ (signal3 none).barge? 0 = some (fetched [rec 0x72 0]) ∧ (barge0 1).failed = none)
      ∧ packetOk { memReq 1 0 64 with dest := 1 } = true ∧ hq0.isolated pFAB = false
      ∧ (regsAt hq0 [(0xC000 + oCTRL, 2)]).isolated pFAB = true ∧ portStage 22 = 1 ∧ portStage 21 ≠ 1 ∧ crossesRacks 1 = false
      ∧ crossesRacks 4 = true ∧ hq0.stageTo 1 ≠ 0 ∧ hq0.route { memReq 1 0 64 with dest := 1 } (some 21) = none
      ∧ ((signal3 (some 0)).tagSt 3).quarantine = some 0 ∧ 0 ≤ (signal3 (some 0)).now ∧ (signal3 (some 0)).fab.waiting = []
      ∧ ((signal3 (some 1)).tagSt 3).quarantine = some 1 ∧ (signal3 (some 1)).now < 1
      ∧ (signal3 none).now < 0 + (signal3 none).fabTimeout ∧ (signal3 none).fab.heldReqs[0]? = some ⟨{}, 0⟩
      ∧ 0 + (signal3 none).fabTimeout ≤ ({ signal3 none with aoUs := 2 ^ 40 } : State).now := by decide +kernel

/-- Port 0 as given. -/
def linkAt (x : Port) : State := { pair2 hq0 with fab := { hq0.fab with ports := [(0, x)] } }

/-- A packet of one flit. -/
def small : Packet := { op := 0x82, vc := 2 }

theorem witness_FlitsAreAcceptedInOrder :
    let r : ReplayFlit := { seq := 4095, vc := 2, frame := 3, content := [] }
    let old : ReplayFlit := { r with sends := 7 }
    (∀ k, k ∈ [0, 1, 2, 3] → (linkAt { st := .up }).up = true ∧ ((linkAt { st := .up }).fport 0).st = .up
        ∧ flitGood (flitOf 0 0 2 3 k (pktBytes small)) = true ∧ flitKind (flitOf 0 0 2 3 k (pktBytes small)) = k)
      ∧ flitSeq (flitOf 0 0 2 3 0 (pktBytes small)) = 0 ∧ flitFrame (flitOf 0 0 2 3 0 (pktBytes small)) = 3
      ∧ packetOf (flitContent (flitOf 0 0 2 3 0 (pktBytes small))) = small ∧ packetOk small = true
      ∧ small.vc = flitVc (flitOf 0 0 2 3 0 (pktBytes small)) ∧ pktFlits small = 1
      ∧ seqCovers 4095 0 = true ∧ seqCovers 1 0 = false ∧ flitGood 0 = false
      ∧ ((linkAt { st := .up, nakked := true }).fport 0).nakked = true
      ∧ leNat ((flitContent (flitOf 0 4094 0 0 1 (leBytes 2 4095))).take 2) % 4096 = 4095
      ∧ seqCovers r.seq (flitAck (flitOf 0 4094 0 0 1 (leBytes 2 4095))) = false ∧ seqCovers 4095 r.seq = true
      ∧ ((linkAt { st := .up, replay := [old] }).fport 0).replay = [old] ∧ 7 ≤ old.sends ∧ r.sends < 7
      ∧ ((linkAt { st := .up, replay := [r] }).fport 0).replay = [r] ∧ ((linkAt { st := .up }).fport 0).queue = [] := by decide +kernel

theorem witness_LinksComeUpAndGoDown :
    let r : ReplayFlit := { seq := 0, vc := 0, frame := 3, content := [] }
    let i := linkAt { st := .init }
    let f := flitOf 0 0 0 0 4 (leBytes 2 1)
    let late : State := { linkAt { st := .up, replay := [r], retrain := some 5 } with aoUs := 5 }
    i.up = true ∧ ((linkAt { st := .training }).fport 0).st = .training ∧ ((linkAt { st := .training }).fport 0).retrain = none
      ∧ (i.fport 0).st = .init ∧ (late.fport 0).st = .up ∧ flitGood f = true ∧ flitKind f = 4 ∧ leNat ((flitContent f).take 2) % 2 ^ 13 = 1
      ∧ leNat (((flitContent f).drop 2).take 1) % 32 = 0 ∧ i.expectedPeer 0 = some (1, 0) ∧ hq0.expectedPeer 0 ≠ some (1, 0)
      ∧ (late.fport 0).replay = [r] ∧ (regsAt late [(0xC114, 5)]).cfgN pFAB 0x114 = 5
      ∧ 0 + (regsAt late [(0xC114, 5)]).cfgN pFAB 0x114 ≤ (regsAt late [(0xC114, 5)]).now
      ∧ (regsAt late [(0xC114, 6)]).now < 0 + (regsAt late [(0xC114, 6)]).cfgN pFAB 0x114
      ∧ (late.fport 0).retrain = some 5 ∧ 5 ≤ late.now ∧ (linkAt { retrain := some 5 }).now < 5 := by decide +kernel

theorem witness_PacketsAndFlitsReadBack : packetOk (memReq 2 (2 ^ 44 - 64) 4096) = true ∧ (memReq 2 (2 ^ 44 - 64) 4096).addr < 2 ^ 44
    ∧ (memReq 2 (2 ^ 44 - 64) 4096).len < 2 ^ 13 := by decide +kernel

/-! ### Collectives -/

/-- A bell message of the board's key, from an engine. -/
def bellFrom (src kind : Nat) (down fail : Bool) (v : List Byte) : Packet :=
  let p := hq0.bellPacket 0 { key := ⟨0, false, 0, 1, 0⟩, kind := kind, down := down, count := 1, fail := fail, value := v }
  { p with src := src }

/-- The board master's collections and results. -/
def tierAt (es : List Tier) (rs : List (Nat × Packet)) : State :=
  let s := pair2 hq0
  { s with col := { s.col with tiers := es, results := rs } }

theorem witness_BellContributionsAreCombined : ∀ kind, kind ∈ [1, 3, 5, 6, 7, 9] →
    let p := bellFrom 1 kind false false []
    let m := bellMsg p
    let s := tierAt [] []
    let e : Tier := { key := m.key, kind := kind, tier := 0, count := 1, from_ := [1], values := [[]], since := s.now }
    let done := tierAt [] [(0, hq0.bellPacket 0 { key := m.key, kind := downKind kind, down := true })]
    s.up = true ∧ p.op = 8 ∧ p.dest = s.selfId ∧ packetOk p = true ∧ m.kind = kind ∧ m.down = false ∧ m.key.barrier = false
      ∧ s.tierFrom m.key.level p.src = some 0 ∧ s.tierFrom m.key.level 8 = none ∧ s.bellResult? m = none
      ∧ (s.tierOf 0 m).from_ = [] ∧ (s.tierOf 0 m).passed = false ∧ (s.tierOf 0 m).count + m.count < s.tierNeed 0
      ∧ ((tierAt [e] []).tierOf 0 m).from_ = [1] ∧ ((tierAt [{ e with passed := true }] []).tierOf 0 m).passed = true
      ∧ (done.bellResult? m).isSome = true ∧ p.src ≠ s.selfId ∧ m.key.level = 0 := by decide +kernel

theorem witness_BellResultsReachTheMember :
    let seals := fun (k : Nat) => collAt .sealing fun c => { c with attempt := k, sealRec := none }
    (∀ kind, kind ∈ [2, 4, 5, 6, 7, 8] →
        let p := bellFrom 0 kind true false (leBytes 4 0)
        p.op = 8 ∧ p.dest = hq0.selfId ∧ packetOk p = true ∧ (bellMsg p).kind = kind ∧ (bellMsg p).down = true ∧ p.src = hq0.selfId
          ∧ leNat ((bellMsg p).value.take 4) = 0 ∧ (bellMsg p).key = (ctx0 .offered).key)
      ∧ (collAt .offered).up = true ∧ (collAt .offered).ctx? (fun c => c.key == (ctx0 .offered).key && c.phase == .offered) = some (ctx0 .offered)
      ∧ ((collAt .offered).barge? 0).map (·.failed) = some none
      ∧ (∀ fail, fail ∈ [false, true] → (bellMsg (bellFrom 0 7 true fail [])).fail = fail
          ∧ (seals 0).ctx? (fun c => c.key == (ctx0 .sealing).key && c.attempt == 0 && (c.phase == .sealing
              || (fail && (c.phase == .complete || c.phase == .moving)))) = some (ctx0 .sealing))
      ∧ (ctx0 .sealing).early = false ∧ (ctx0 .sealing).attempt = 0
      ∧ (bellMsg { bellFrom 0 7 true true [] with
          payload := bellPayload { key := (ctx0 .sealing).key, kind := 7, down := true, attempt := 1, fail := true } }).attempt = 1
      ∧ (seals 1).ctx? (fun c => c.key == (ctx0 .sealing).key && c.attempt == 1 && (c.phase == .sealing
              || (true && (c.phase == .complete || c.phase == .moving)))) = some { ctx0 .sealing with attempt := 1 }
      ∧ (collAt .offered).ctx? (fun c => c.key == (ctx0 .offered).key && c.phase != .closed) = some (ctx0 .offered) := by decide +kernel

/-- A packet of 64 data bytes of the given piece header. -/
def piece (h : PieceHdr) : Packet := { op := 7, vc := 4, len := 128, payload := pieceHeader h ++ List.replicate 64 0 }
def piece0 : PieceHdr := { offset := 0, len := 64, piece := 0, step := 0, stage := 0, last := true, attempt := 0, level := 0, seq := 0 }

theorem witness_PiecesAndCollectiveTimers :
    let s := collAt .moving
    let open_ := fun (c : Ctx) => c.key.level == 0 && c.seq == some 0
    s.up = true ∧ (piece piece0).op = 7 ∧ (piece piece0).dest = s.selfId ∧ packetOk (piece piece0) = true ∧ pieceHdr (piece piece0) = piece0
      ∧ s.ctx? open_ = some (ctx0 .moving) ∧ (ctx0 .moving).attempt = piece0.attempt ∧ s.ctxLive (ctx0 .moving) = true
      ∧ pieceHdr (piece { piece0 with attempt := 1 }) = { piece0 with attempt := 1 } ∧ (ctx0 .moving).attempt ≠ 1
      ∧ pieceHdr (piece { piece0 with seq := 1 }) = { piece0 with seq := 1 } ∧ s.ctx? (fun c => c.key.level == 0 && c.seq == some 1) = none
      ∧ (∀ ph, ph ∈ [.arriving, .offered, .opened] → (collAt ph).ctx? open_ = some (ctx0 ph) ∧ (collAt ph).ctxLive (ctx0 ph) = true)
      ∧ (ctx0 .moving).kind ≠ 3 ∧ s.expected (ctx0 .moving) piece0 ((piece piece0).payload.length - 64) = true
      ∧ s.expected (ctx0 .moving) { piece0 with offset := 64 } 64 = false
      ∧ s.ctx? (·.slot == 0) = some (ctx0 .moving) ∧ s.now < 0 + s.fabTimeout
      ∧ 0 + s.fabTimeout ≤ ({ s with aoUs := 2 ^ 40 } : State).now := by decide +kernel

theorem witness_PiecesAndCollectiveTimers_timers :
    let e : Tier := { key := (ctx0 .sealing).key, kind := bSEAL, tier := 0, count := 1 }
    let w : BellWait := { p := bellFrom 0 1 false false [], key := (ctx0 .arriving).key, kind := 1, since := 0 }
    let s := collAt .arriving
    let t : State := { s with col := { s.col with tiers := [e], waits := [w] } }
    t.up = true ∧ t.col.tiers.find? (fun e => e.kind == bSEAL && e.key.level == 0 && e.tier == 0 && e.seq == 0 && !e.passed) = some e
      ∧ t.now < 0 + t.fabTimeout ∧ t.col.waits[0]? = some w
      ∧ 0 + (regsAt t [(0xE120, 0)]).cfgN pCOL 0x120 ≤ (regsAt t [(0xE120, 0)]).now
      ∧ (regsAt t [(0xE120, 1)]).now < 0 + (regsAt t [(0xE120, 1)]).cfgN pCOL 0x120
      ∧ (s.barge? 0).map (·.failed) = some none ∧ ctx0 .arriving ∈ s.col.ctxs ∧ (ctx0 .arriving).b = 0 ∧ (ctx0 .arriving).i = 0
      ∧ (regsAt { t with aoUs := 1 } [(0xE124, 1)]).cfgN pCOL 0x124 = 1 ∧ (regsAt t [(0xE124, 0)]).cfgN pCOL 0x124 = 0
      ∧ ((s.barge? 0).map fun x => (x.op 0).issued) = some 0 ∧ ({ t with aoUs := 1 } : State).now = 1 := by decide +kernel

/-! ### Reset, clocks and faults -/

/-- The engine in its last reset event, warm or full, with its sources. -/
def inReset (full : Bool) (srcs : List ResetSource) : State :=
  { State.reset with rst := { State.reset.rst with full := full, sources := srcs } }

/-- The watchdog at a period of 1, running for `n` µs; the keeper cores run. -/
def guarded (n : Nat) : State := { regsAt up0 [(0x1064, 0x80000001), (0x18000 + oCTRL, 1)] with aoUs := BitVec.ofNat 48 n }

theorem witness_ResetSourcesTakeHold :
    (guarded 41).rst.active = false ∧ (guarded 41).live = true ∧ bitOf ((guarded 41).reg pRST 0x064) 31 = true
      ∧ fld ((guarded 41).reg pRST 0x064) 15 0 = 1 ∧ 4096 * 1 ≤ 100 * ((guarded 41).now - (guarded 41).rst.wdtSince)
      ∧ 100 * ((guarded 40).now - (guarded 40).rst.wdtSince) < 4096 * 1
      ∧ fld (0x0C070001 : Word) 31 16 = 0x0C07 ∧ bitOf (0x0C070001 : Word) 0 = true ∧ bitOf (0x0C070000 : Word) 0 = false
      ∧ fld (0x0C080001 : Word) 31 16 ≠ 0x0C07 ∧ up0.canLose (.mclkWindow 15) = true ∧ up0.canLose (.mclkWindow 16) = false
      ∧ bitOf ((guarded 0).reg pKEEP oCTRL) 0 = true ∧ bitOf (up0.reg pKEEP oCTRL) 0 = false
      ∧ (inReset false [.pin]).rst.active = true ∧ (inReset false [.pin]).rst.full = false ∧ ResetSource.powerOn.full = true
      ∧ ResetSource.pin.full = false ∧ (inReset true [.powerOn]).rst.full = true := by decide +kernel

theorem witness_ReleaseRecordsTheEvent :
    (inReset false [.software]).rst.active = true ∧ .pin ∈ (inReset false [.pin]).rst.sources
      ∧ .powerOn ∉ (inReset false [.software]).rst.sources ∧ .brownOut ∉ (inReset false [.software]).rst.sources
      ∧ .pin ∉ (inReset false [.software]).rst.sources ∧ up0.rst.active = false := by decide +kernel

/-- Clocks locked and a step. -/
def clocksAt (locked : List Nat) (step good : Nat) : State :=
  { regsAt up0 [(0x2F00, good)] with rst := { up0.rst with locked := locked, step := step } }

theorem witness_ClocksBringTheEngineUp :
    (clocksAt [9] 3 0).live = true ∧ (clocksAt [9] 3 0).params.ok = true ∧ (clocksAt [9] 3 0).rst.locked.contains 8 = false
      ∧ (clocksAt [9] 3 0).rst.locked.contains 9 = true ∧ (clocksAt [9] 3 0).rst.step = 3
      ∧ (powerAt .nap (some .nap)).up = true ∧ (powerAt .nap (some .nap)).wantsPll 7 = true ∧ (powerAt .doze none).wantsPll 7 = false
      ∧ (clocksAt [8, 9] 4 0x200).monitored 8 = true ∧ (clocksAt [9] 4 0).monitored 8 = false
      ∧ (clocksAt [8, 9] 4 0x200).clkGood 9 = true ∧ (clocksAt [8, 9] 4 0x200).rst.step = 4
      ∧ 98 * 2457600 ≤ 10000 * 24085 ∧ 10000 * 25067 ≤ 102 * 2457600 ∧ ¬98 * 2457600 ≤ 10000 * 24084 ∧ ¬10000 * 25068 ≤ 102 * 2457600
      ∧ (clocksAt [8, 9] 4 0).armed.clock = [] ∧ (clocksAt [8, 9] 4 0).rst.full = true ∧ (clocksAt [8, 9] 4 0).imageOk = false
      ∧ (clocksAt [7, 8, 9] 7 0).monitored 7 = true ∧ ((clocksAt [7, 8, 9] 7 0).region 7).quarantined = false
      ∧ (clocksAt [7, 8, 9] 7 0).busyRegion 7 = false ∧ (clocksAt [7, 8, 9] 7 0).rows.merge = []
      ∧ (clocksAt [7, 8, 9] 7 0).up = true ∧ 15 < (clocksAt [] 6 0).params.memPorts ∧ (clocksAt [] 6 0).params.memPorts ≤ 16
      ∧ (clocksAt [] 6 0).rst.portsReady.contains 15 = false ∧ (clocksAt [] 6 0).rst.step = 6
      ∧ bitOf ((guarded 0).reg pRST 0x064) 31 = true ∧ bitOf (up0.reg pRST 0x064) 31 = false := by decide +kernel

/-- A warm release with an image of 16 bytes in keeper memory: its check value is that of 8 zeros. -/
def imaged (crc : Nat) : State :=
  { clocksAt [8, 9] 4 0x200 with
    rst := { (clocksAt [8, 9] 4 0).rst with full := false }
    imem := Mem.write [] 0 (leBytes 4 16 ++ leBytes 4 crc) }

theorem witness_ClocksBringTheEngineUp_image : (imaged 0x8C28B28A).rst.full = false ∧ (imaged 0x8C28B28A).imageOk = true
    ∧ (imaged 0).imageOk = false := by decide +kernel

theorem witness_FaultsPlanksAndInjections :
    up0.up = true ∧ up0.sv.barges = [] ∧ (up0.region 7).quarantined = false ∧ up0.rows.merge = [] ∧ pageExists pERR = true ∧ pERR < pTILE
      ∧ ¬(pREGION ≤ pERR ∧ pERR < pKEEP) ∧ bitOf (up0.cfg pERR 0x108) 0 = false
      ∧ bitOf ((regsAt up0 [(0x4108, 1)]).cfg pERR 0x108) 0 = true
      ∧ (regsAt up0 [(0x4104, 0)]).errWindowFrom + (regsAt up0 [(0x4104, 0)]).cfgN pERR 0x104 ≤ (regsAt up0 [(0x4104, 0)]).now
      ∧ up0.now < up0.errWindowFrom + up0.cfgN pERR 0x104
      ∧ bitOf ((regsAt up0 [(0x4108, 4)]).cfg pERR 0x108) 2 = true ∧ bitOf (up0.cfg pERR 0x108) 2 = false
      ∧ (∀ ty, ty ∈ [1, 2, 3, 4, 5, 6, 7] → let w := BitVec.ofNat 32 (2 ^ 31 + ty * 2 ^ 24 + 10 * 2 ^ 20 + 15)
          bitOf w 31 = true ∧ fld w 27 24 = ty ∧ fld w 23 20 = 10 ∧ fld w 15 0 = 15)
      ∧ 15 < up0.params.memPorts ∧ 15 < up0.params.fabPorts ∧ pageExists (tPage 127) = true
      ∧ (∀ page, page ∈ [tPage 127, rPage 7, pFAB] → hasPlank page = true ∧ up0.isolated page = false ∧ up0.unitIdle page = true
          ∧ up0.idleBit page = true ∧ (regsAt up0 [(page * 0x1000 + oCTRL, 2)]).isolated page = true)
      ∧ isRegion (rPage 7) = true ∧ isRegion pFAB = false ∧ hasPlank pHQ = false
      ∧ (runs [rec 0x01 1]).unitIdle (rPage 0) = false ∧ (runs [rec 0x01 1]).idleBit (tPage 0) = false := by decide +kernel

/-! ### Ports, banks and registers -/

theorem witness_MemoryPortsAndHostReadsArrive :
    let tag := fun (t : Machine.Tag) => ({ up0 with tags := [(0, t)] } : State)
    up0.up = true ∧ 512 * (up0.populated / 512 - 1) < up0.populated ∧ up0.populated ≤ 512 * (up0.populated / 512)
      ∧ ((tag { poison := true }).tag 0).poison = true ∧ (up0.tag 0).poison = false ∧ ((tag { kind := 1, bad := true }).tag 0).kind ≠ 0
      ∧ ((tag { kind := 1, bad := true }).tag 0).bad = true ∧ ((tag { latent := 5 }).tag 0).latent = 5
      ∧ [5, 0, 0, 0].getD 0 0 + 0 = 5 ∧ ([6, 0, 0, 0] : List Nat).getD 0 0 = 6 ∧ 15 < up0.params.memPorts ∧ up0.params.memPorts ≤ 16 := by
  decide +kernel

/-- Writes to the host are out, and vector 255 waits for the listed tags. -/
def writing (ws : List DmaWrite) (tags : List Nat) (held : Bool) : State :=
  { up0 with
    hq := { up0.hq with dmaWrites := ws, irqWait := if tags.isEmpty then [] else [(255, tags)], imHold := held } }

theorem witness_HostWritesAndInterruptsGoOut :
    let w : DmaWrite := { tag := 255, addr := 64, bytes := [1], owner := .record 0 }
    let x : DmaWrite := { w with tag := 256 }
    let y : DmaWrite := { w with tag := 0 }
    let p := fun (held : Bool) => regsAt (writing [] [] held) [(0xF1000 + 28, 2 ^ 31)]
    (writing [w] [255] false).up = true ∧ (writing [w] [255] false).hq.dmaWrites = [] ++ w :: [] ∧ w.tag = 255 ∧ w.owner = .record 0
      ∧ (writing [y, w, x] [] false).hq.dmaWrites = [y] ++ w :: [x] ∧ y.tag ≠ 255 ∧ y.tag < 256 ∧ 256 ≤ x.tag
      ∧ (writing [w] [255] false).hq.irqWait = [(255, [255])] ∧ ([255] : List Nat).filter (· != 255) = []
      ∧ (writing [w] [255, 0] false).hq.irqWait = [(255, [255, 0])] ∧ ([255, 0] : List Nat).filter (· != 255) ≠ []
      ∧ (writing [w] [] false).hq.irqWait = [] ∧ (regsAt (writing [w] [255] false) [(0xF000C + 16 * 255, 0)]).irqHeld 255 = false
      ∧ (writing [w] [255] true).irqHeld 255 = true ∧ (writing [] [] false).hq.dmaWrites = []
      ∧ (p false).live = true ∧ (p false).irqPending 255 = true ∧ (p false).hq.imHold = false ∧ (p true).hq.imHold = true
      ∧ (p false).irqPending 254 = false := by decide +kernel

/-- Bank B of the ERR page as reset leaves it, with a check value. -/
def errBank (crc : Nat) : State := regsAt up0 [(0x4000 + oCFG_CRC_B, crc)]

theorem witness_BanksAreCheckedThenTakeEffect :
    let s := errBank 566562671
    s.live = true ∧ s.idleBank pERR = 1 ∧ pageExists pERR = true ∧ s.rst.halted = false ∧ s.commitPending pERR = false
      ∧ serialGt 1 (s.reg pERR (seqOfs 0)) = true ∧ serialGt 0 (s.reg pERR (seqOfs 0)) = false
      ∧ s.reg pERR (seqOfs 1 + 4) = crc32c (s.bankBytes pERR 1) ∧ (errBank 0).reg pERR (seqOfs 1 + 4) ≠ 566562671
      ∧ plainPage pERR = true ∧ plainPage pROW = false := by decide +kernel

theorem witness_BanksAreCheckedThenTakeEffect_checks :
    let seq := fun (s : State) => ({ s.setReg pERR (seqOfs 1) 1 with hq := { s.hq with rejBanks := s.hq.rejBanks.filter (· != 2 * pERR + 1) } } : State)
    let on := fun (s : State) (page : Nat) => s.setReg page oCFG_COMMIT (2 ^ 28)
    let held : State := on (runs [rec 0x01 1]) pROW
    let init := on (regsAt up0 [(0x9850, 1)]) pROW
    let split := on (regsAt (pair2 up0) [(0xE800, 0)]) pCOL
    (seq up0).acceptFail pERR = none ∧ (seq (regsAt up0 [(0x4804, 0)])).acceptFail pERR = some 0x104
      ∧ up0.boundaryMet pERR = true ∧ up0.repeatFail pERR = none
      ∧ held.up = true ∧ held.commitPending pROW = true ∧ held.boundaryMet pROW = false
      ∧ (on up0 pERR).up = true ∧ (on up0 pERR).commitPending pERR = true ∧ (on up0 pERR).boundaryMet pERR = true
      ∧ (on up0 pERR).repeatFail pERR = none ∧ up0.commitPending pERR = false
      ∧ split.commitPending pCOL = true ∧ split.boundaryMet pCOL = true ∧ (split.repeatFail pCOL).isSome = true
      ∧ init.up = true ∧ init.commitPending pROW = true ∧ init.boundaryMet pROW = true ∧ init.rows.clearing = false
      ∧ bitOf (init.cfgNew pROW 0x150) 0 = true ∧ (regsAt init [(0x9108 + 0x700, 0)]).commitPending pROW = true
      ∧ ({ init with rows := { init.rows with clearing := true } } : State).rows.clearing = true := by decide +kernel

/-- A debug read of an address of region 7's pool, or of external memory, under way. -/
def peekOf (sp i a : Nat) : State := regsAt up0 [(0x19060, 2 ^ 31 + sp * 2 ^ 24 + i * 2 ^ 16), (0x19064, a)]

theorem witness_KeeperImageAndDebugReads :
    up0.live = true ∧ up0.keeperRuns = false ∧ (guarded 0).keeperRuns = true ∧ State.reset.live = false
      ∧ 16 ≤ leNat (Mem.read (imaged 0x8C28B28A).imem 0 4) ∧ leNat (Mem.read (imaged 0x8C28B28A).imem 0 4) % 4 = 0
      ∧ (crc32c (Mem.read (imaged 0x8C28B28A).imem 8 8)).toNat = leNat (Mem.read (imaged 0x8C28B28A).imem 4 4)
      ∧ (imaged 0x8C28B28A).live = true ∧ (imaged 0x8C28B28A).keeperRuns = false ∧ leNat (Mem.read up0.imem 0 4) < 16
      ∧ up0.peeking = false ∧ up0.up = true ∧ (peekOf 2 7 0).peeking = true ∧ (peekOf 2 7 0).peekTarget = some (.pool 7)
      ∧ ((up0.setReg pDBG 0x060 ((0x82070000 : Word) &&& 0x87FF0000)).peekTarget.bind Store.region?) = some 7
      ∧ up0.isolated (rPage 7) = false ∧ (up0.region 7).quarantined = false ∧ (up0.region 7).power ≠ .run
      ∧ (Store.pool 7).region? = some 7 ∧ (peekOf 2 7 0).peekReady 7 = false ∧ (peekOf 3 0 0).peekTarget = some .ext
      ∧ Store.ext.region? = none ∧ (peekOf 2 8 0).peekTarget = none ∧ (peekOf 3 0 0).sv.barges = [] ∧ (peekOf 3 0 0).armed.latent = [] := by
  decide +kernel

/-- Addresses at the edges of what each clause speaks of, and what the register map holds there. -/
theorem witness_RegistersAreReadAndWritten :
    unmapped 0xFFFFC = true ∧ unmapped 0x9FFFC = false ∧ unmapped 0xF101C = false ∧ unmapped 0xF1020 = true
      ∧ (windowDef? 0xF0000).map (·.acc) = some .rw ∧ plainReg 0xF0000 = true ∧ plainReg 0xF000C = false
      ∧ plainReg (pROW * 0x1000 + 0xF14) = true ∧ (windowDef? (pROW * 0x1000 + 0xF14)).map (·.acc) = some .rc
      ∧ plainCounter (pROW * 0x1000 + 0xF14) = true ∧ (windowDef? (pRST * 0x1000 + 0xF00)).map (·.acc) = some .w1c
      ∧ plainReg (pRST * 0x1000 + 0xF00) = true ∧ (windowDef? (pRST * 0x1000 + 0xF18)).map (·.acc) = some .ro
      ∧ plainReg (pRST * 0x1000 + 0xF18) = true ∧ pageExists 0x9F = true ∧ bankOf 0x800 = some 1 ∧ bankOf 0x7FC = some 0
      ∧ (windowDef? (pERR * 0x1000 + 0x804)).isSome = true ∧ up0.idleBank 4 = 1 ∧ up0.commitPending 4 = false
      ∧ (up0.setReg pERR oCFG_COMMIT (2 ^ 28)).commitPending 4 = true ∧ isW1c 0 = false
      ∧ 0xF0000 % 2 ^ 20 / 4 * 4 = 0xF0000 := by decide +kernel

theorem witness_TheTapReachesTheWindow : bitOf (2 ^ 63 : BitVec 64) 63 = true ∧ bitOf (0 : BitVec 64) 63 = false
    ∧ (0xFF : Byte) ≠ 0x01 ∧ (0xFF : Byte) ≠ 0x20 ∧ (0xFF : Byte) ≠ 0x21 := by decide

/-! ### The spec's worked examples -/

/-- The row of spec/02's example of D3 under RNE: 0.9, −0.6, and fourteen times 0.25. -/
theorem test_d3_example :
    let row := [b32 (.fin false 9 10), b32 (.fin true 6 10)] ++ List.replicate 14 (b32 (.fin false 1 4))
    (encodeRow 3 true (fun _ => .rne) row).image = some (leBytes 2 0x3DCD ++ leBytes 2 0x3E4E ++ ([0x87] ++ List.replicate 7 0)) := by
  decide +kernel

/-- The record of spec/04's example of an FP8 layer with a paired correction. -/
theorem test_mm_record_example :
    let w := 0x05000 * 2 ^ 44 + 0x001FFFFFF4001 + 0x6000 * 2 ^ 64 + 0x260000000020000000000000 * 2 ^ 96
      + 0x260000000002000000100000 * 2 ^ 192 + 0x2400000000040000001C0000 * 2 ^ 288 + 0x0002080000800200 * 2 ^ 384
    recOp w = 0x01 ∧ recWait0 w = 5 ∧ recSignal w = 6 ∧ recRegions w = 0xFF ∧ recTiles w = 0xFFFF ∧ mmPair w = true
      ∧ mmM w = 512 ∧ mmN w = 128 ∧ mmK w = 2048 ∧ (recA w).space = 1 ∧ (recA w).fmt = 3 ∧ (recA w).stride = 32
      ∧ (recB w).addr = 0x100000 ∧ (recC w).fmt = 2 ∧ (recC w).addr = 0x1C0000 ∧ mmCclk w = 16384 := by decide

/-- The descriptor of spec/06's example: tenant 0x4A2, rank 8, scale 2.0. -/
theorem test_descriptor_example :
    let d : BitVec 512 := 0x400002004A200A31
    dTenant d = 0x4A2 ∧ dRank d = 8 ∧ dScale d = 0x4000 ∧ fBF16.decode (dScale d) = fBF16.decode 0x4000 ∧ fld d 19 0 = 0xA31 := by decide +kernel

/-- The home slot of spec/08's example, and its memory port in spec/18's. -/
theorem test_row_location_example :
    slotAt 0x10000000000 (imageBytes 2 64) 512345678 = (0x108B9A65F54, 512345673)
      ∧ rangeOf [⟨0, 0x15, 0⟩, ⟨400000000, 0x1E, 0⟩, ⟨700000000, 0x15, 400000000⟩] 812345678 = some ⟨700000000, 0x15, 400000000⟩
      ∧ ({ up0 with params := { up0.params with memPorts := 12 } } : State).portOf (0x108B9A65F54 / 512) = 11 := by decide +kernel

/-- The pieces that the four members of spec/14's example receive: stages 0 and 4, each of three steps. -/
theorem test_piece_example :
    ((List.range 3).map fun t => (List.range 4).map fun i => recvPiece 0 i 4 t) = [[2, 3, 0, 1], [1, 2, 3, 0], [0, 1, 2, 3]]
      ∧ ((List.range 3).map fun t => (List.range 4).map fun i => recvPiece 4 i 4 t) = [[3, 0, 1, 2], [2, 3, 0, 1], [1, 2, 3, 0]]
      ∧ ((List.range 4).map fun i => (firstPiece 0 i 4, firstPiece 4 i 4)) = [(3, 0), (0, 1), (1, 2), (2, 3)] := by decide

/-- The hops of spec/13's example: an engine of a hall of 16 racks of 16 boards of 8, every link up. -/
def hopFrom (id : Nat) : State :=
  let s := regsAt up0 [(0xC104, 8 + 16 * 2 ^ 8 + 16 * 2 ^ 16), (0xCF00, id)]
  { s with fab := { s.fab with ports := (List.range 24).map fun n => (n, { st := .up }) } }

theorem test_route_example :
    let p : Packet := { dest := 0x652, vc := 1 }
    let q : Packet := { dest := 0x1E, vc := 2 }
    (hopFrom 0x01E).route p none = some (22, 0) ∧ (hopFrom 0x21E).route p (some 23) = some (22, 0) ∧ (hopFrom 0x61E).route p (some 23) = some (18, 0)
      ∧ (hopFrom 0x65E).route p (some 20) = some (16, 0) ∧ (hopFrom 0x656).route p (some 14) = some (4, 0) ∧ (hopFrom 0x652).stageTo 0x652 = 0
      ∧ (hopFrom 0x652).route q none = some (23, 0) := by decide +kernel

/-- The commits of spec/19's example: bank B of PWR in force, bank A written, then CFG_SEQ_A. The check value is the CRC-32C of
the 1,792 bytes. -/
def pwrBank (off crc : Nat) : State :=
  regsAt up0 [(0x3000 + oSTATUS, 8), (0x3000 + oCFG_SEQ_A, 0xFFFFFFFD), (0x3000 + oCFG_SEQ_B, 0xFFFFFFFE), (0x3100, 0x5555), (0x3104, 0xC8),
    (0x3108, off), (0x3000 + oCFG_SEQ_A + 4, crc)]

/-- CFG_COMMIT, CFG_SEQ_A and the bank in force (true for B) after the final write. -/
def committed (off crc : Nat) (seq : Word) : Option (Word × Word × Bool) :=
  match exec (.configCommit pPWR seq) (pwrBank off crc) with
  | .next t => some (t.reg pPWR oCFG_COMMIT, t.reg pPWR oCFG_SEQ_A, t.bankB pPWR)
  | _ => none

theorem test_commit_example_accepted : (committed 0xF4240 0xa284bec1 1).map (·.2.2) = some false := by decide +kernel
theorem test_commit_example_sequence : committed 0xF4240 0xa284bec1 0x7FFFFFFE = some (0, 0xFFFFFFFD, true) := by decide +kernel
theorem test_commit_example_crc : committed 0xF4240 0 1 = some (2 ^ 31 + 2 ^ 29, 1, true) := by decide +kernel
theorem test_commit_example_field : committed 0x64 0xeb2d1848 1 = some (2 ^ 31 + 2 ^ 30 + 0x108, 1, true) := by decide +kernel

/-- The strap of spec/16: the event is recorded, and 525 mV reads as code 10. -/
theorem test_release_example :
    (match exec (.resetRelease 525) State.reset with
      | .next t => some (t.reg pRST 0xF18, t.regN pRST 0xF14, t.reg pRST 0xF00, t.rst.step)
      | _ => none) = some (525 * 256 + 10, 1, 1, 3) := by decide +kernel

end Sys2Proof.Tests
end

section
/-! SUPPORT. What a register reads as after another is written, after a count and after an error flag; what sending a packet and
taking one leave untouched inside the fabric unit; what serving a row leaves of the engine's id. -/

namespace Sys2Proof.Machine

open Sys2Proof

/-! ### Registers -/

@[simp] theorem State.reg_setReg_self (s : State) (P o : Nat) (v : Word) : (s.setReg P o v).reg P o = v :=
  SMap.get_put_self _ _ _ _

theorem State.reg_setReg_other (s : State) {P o Q x : Nat} (v : Word) (h : Q * 0x1000 + x ≠ P * 0x1000 + o) :
    (s.setReg P o v).reg Q x = s.reg Q x :=
  SMap.get_put_other _ _ _ _ _ h

theorem State.reg_count_other (s : State) {P o Q x : Nat} (n : Nat) (h : Q * 0x1000 + x ≠ P * 0x1000 + o) :
    (s.count P o n).reg Q x = s.reg Q x := by
  unfold State.count
  split
  · rfl
  · exact s.reg_setReg_other _ h

/-- A counter stays within its 32 bits, so that what is written is what it reads as. -/
theorem State.regN_count_self (s : State) (P o : Nat) : (s.count P o).regN P o = satAdd 32 (s.regN P o) 1 := by
  have hlt : satAdd 32 (s.regN P o) 1 < 2 ^ 32 := by unfold satAdd; omega
  unfold State.count State.setRegN
  rw [if_neg (by decide), State.regN, State.reg_setReg_self, BitVec.toNat_ofNat, Nat.mod_eq_of_lt hlt]

/-- An interrupt message writes GLB's message counter and the pending bits only (R429). -/
theorem State.reg_raise (s : State) (v : Nat) (tags : List Nat) {Q x : Nat} (hQ : 0 < Q) (hx : Q * 0x1000 + x < 0xF1000) :
    (s.raise v tags).reg Q x = s.reg Q x := by
  have hpend : ∀ u : State, (u.setIrqPending v true).reg Q x = u.reg Q x := fun u =>
    SMap.get_put_other _ _ _ _ _ (by omega)
  have hsend : ∀ u : State, (u.sendIrq v).reg Q x = u.reg Q x := fun u =>
    State.reg_count_other _ 1 (by simp only [pGLB]; omega)
  unfold State.raise State.raiseNow
  split
  · split
    · exact hpend s
    · exact hsend s
  · rfl

/-- The page's own registers as an error flag leaves them, before any interrupt message (R416). -/
def State.flagged (s : State) (P b : Nat) : State :=
  let s1 := s.setReg P oERR_STATUS (s.errStatus P ||| BitVec.ofNat 32 (2 ^ b))
  let s2 := if s.errStatus P = 0 then s1.setReg P oERR_FIRST (BitVec.ofNat 32 (b * 2 ^ 24 + s.aoUs.toNat % 2 ^ 24)) else s1
  s2.count P oERR_COUNT

theorem State.reg_err_flagged (s : State) (P b : Nat) {Q x : Nat} (hQ : 0 < Q) (hx : Q * 0x1000 + x < 0xF1000) :
    (s.err P b).reg Q x = (s.flagged P b).reg Q x := by
  unfold State.err
  simp only []
  split
  · exact State.reg_raise _ _ [] hQ hx
  · rfl

theorem State.reg_flagged_other (s : State) {P b Q x : Nat} (h1 : Q * 0x1000 + x ≠ P * 0x1000 + oERR_STATUS)
    (h2 : Q * 0x1000 + x ≠ P * 0x1000 + oERR_FIRST) (h3 : Q * 0x1000 + x ≠ P * 0x1000 + oERR_COUNT) :
    (s.flagged P b).reg Q x = s.reg Q x := by
  unfold State.flagged
  rw [State.reg_count_other _ 1 h3]
  split
  · rw [State.reg_setReg_other _ _ h2, State.reg_setReg_other _ _ h1]
  · rw [State.reg_setReg_other _ _ h1]

theorem State.reg_flagged_errStatus (s : State) (P b : Nat) :
    (s.flagged P b).reg P oERR_STATUS = s.errStatus P ||| BitVec.ofNat 32 (2 ^ b) := by
  unfold State.flagged
  rw [State.reg_count_other _ 1 (by simp only [oERR_STATUS, oERR_COUNT]; omega)]
  split
  · rw [State.reg_setReg_other _ _ (by simp only [oERR_STATUS, oERR_FIRST]; omega), State.reg_setReg_self]
  · rw [State.reg_setReg_self]

/-- An error flag of one page leaves the registers of every page but GLB, where the message counter lies. -/
theorem State.reg_err_page (s : State) {P Q x : Nat} (b : Nat) (hPQ : Q ≠ P) (hQ : 0 < Q) (hQ' : Q < 0xF1) (hx : x < 0x1000) :
    (s.err P b).reg Q x = s.reg Q x := by
  rw [s.reg_err_flagged P b hQ (by omega)]
  apply State.reg_flagged_other <;> simp only [oERR_STATUS, oERR_FIRST, oERR_COUNT] <;> omega

/-- An error flag leaves the registers of its own page above ERR_COUNT. -/
theorem State.reg_err_same (s : State) {P x : Nat} (b : Nat) (hP : 0 < P) (hP' : P < 0xF1) (hx : oERR_COUNT < x) (hx' : x < 0x1000) :
    (s.err P b).reg P x = s.reg P x := by
  simp only [oERR_COUNT] at hx
  rw [s.reg_err_flagged P b hP (by omega)]
  apply State.reg_flagged_other <;> simp only [oERR_STATUS, oERR_FIRST, oERR_COUNT] <;> omega

/-- An error flag stands in its page's ERR_STATUS once it is recorded (R416). -/
theorem State.bitOf_errStatus_err (s : State) {P b : Nat} (hP : 0 < P) (hP' : P < 0xF1) (hb : b < 32) :
    bitOf ((s.err P b).errStatus P) b = true := by
  have hreg : (s.err P b).errStatus P = s.errStatus P ||| BitVec.ofNat 32 (2 ^ b) :=
    (s.reg_err_flagged P b hP (by simp only [oERR_STATUS]; omega)).trans (s.reg_flagged_errStatus P b)
  rw [hreg, bitOf, BitVec.getLsbD_or, BitVec.getLsbD_ofNat, Nat.testBit_two_pow_self]
  simp [hb]

/-! ### The engine's id -/

theorem State.selfId_count (s : State) {P o : Nat} (n : Nat) (h : pFAB * 0x1000 + 0xF00 ≠ P * 0x1000 + o) :
    (s.count P o n).selfId = s.selfId := by
  unfold State.selfId State.regN
  rw [s.reg_count_other n h]

@[simp] theorem State.selfId_err (s : State) (P b : Nat) : (s.err P b).selfId = s.selfId := by
  unfold State.selfId State.regN
  by_cases hP : pFAB = P
  · subst hP; rw [s.reg_err_same b (by decide) (by decide) (by decide) (by decide)]
  · rw [s.reg_err_page b hP (by decide) (by decide) (by decide)]

@[simp] theorem State.selfId_poisoning (s : State) (P b : Nat) : (s.poisoning P b).selfId = s.selfId := by
  unfold State.poisoning
  rw [State.selfId_err, State.selfId_err, State.selfId_count _ _ (by decide)]

/-- A fold keeps the engine's id if each of its steps does. -/
theorem State.selfId_foldl {α : Type} (f : State → α → State) (h : ∀ s x, (f s x).selfId = s.selfId) (l : List α) (s : State) :
    (l.foldl f s).selfId = s.selfId := by
  induction l generalizing s with
  | nil => rfl
  | cons x l ih => rw [List.foldl_cons, ih, h]

@[simp] theorem State.selfId_setTag (s : State) (k : Nat) (t : Tag) : (s.setTag k t).selfId = s.selfId := rfl

@[simp] theorem State.selfId_skew (s : State) (t : Nat) (f : Skew → Skew) : (s.skew t f).selfId = s.selfId := rfl

@[simp] theorem State.selfId_tagFault (s : State) (k : Nat) : (s.tagFault k).selfId = s.selfId := by
  unfold State.tagFault
  rw [State.selfId_setTag, State.selfId_poisoning, State.selfId_err, State.selfId_count _ _ (by decide)]

@[simp] theorem State.selfId_readRow (s : State) (t : Tab) (l : Loc) : (s.readRow t l).2.selfId = s.selfId :=
  State.selfId_foldl _ State.selfId_tagFault _ s

theorem State.selfId_writeTag (s : State) (a n : Nat) (new : Tag) (poison : Bool) (k : Nat) :
    (s.writeTag a n new poison k).selfId = s.selfId := by
  have hcount : ∀ u : State, (u.count pERR 0xF34).selfId = u.selfId := fun u => u.selfId_count 1 (by decide)
  have htag : ∀ (b : Bool) (u : State), (if b = true then u.count pERR 0xF34 else u).selfId = u.selfId := by
    intro b u
    cases b with
    | true => exact hcount u
    | false => rfl
  unfold State.writeTag
  simp only [State.selfId_setTag]
  split
  · rw [State.selfId_poisoning, hcount, htag]; rfl
  · rw [hcount, htag]; rfl
  · rw [htag]; rfl

@[simp] theorem State.selfId_extPutNat (s : State) (a n v : Nat) : (s.extPutNat a n v).selfId = s.selfId :=
  State.selfId_foldl _ (fun s k => s.selfId_writeTag _ _ _ _ k) _ _

@[simp] theorem State.selfId_noteServed (s : State) (t : Tab) (x : Nat) (l : Loc) (mult : Nat) :
    (s.noteServed t x l mult).selfId = s.selfId := by
  unfold State.noteServed
  simp only []
  split
  · split
    · rfl
    · split
      · split
        · rw [State.selfId_count _ _ (by decide), State.selfId_extPutNat, State.selfId_skew]
        · exact State.selfId_extPutNat _ _ _ _
      · rw [State.selfId_extPutNat, State.selfId_skew]
  · rfl

@[simp] theorem State.selfId_serveCopy (s : State) (t : Tab) (x : Nat) (l : Loc) (probe : Option Nat) (mult : Nat) :
    (s.serveCopy t x l probe mult).2.selfId = s.selfId := by
  unfold State.serveCopy
  cases probe with
  | none => simp
  | some step => simp only []; split <;> simp

@[simp] theorem State.selfId_noteNotOwner (s : State) : s.noteNotOwner.selfId = s.selfId := by
  unfold State.noteNotOwner
  rw [State.selfId_err, State.selfId_count _ _ (by decide)]

@[simp] theorem State.selfId_noteForward (s : State) (t : Nat) : (s.noteForward t).selfId = s.selfId := by
  unfold State.noteForward
  rw [State.selfId_skew, State.selfId_count _ _ (by decide)]

/-! ### Sending

What the ports do when a packet is sent: they change their queues, the counters of VCH and ERR, and FAB's flag of a packet
without a route; the packets sent and the requests held stay as they are, and so does every register of the pages from RST
to UPD but ERR. -/

/-- From `s` to `t`, the ports have been at work. -/
structure Ported (s t : State) : Prop where
  sent : t.fab.sent = s.fab.sent
  held : t.fab.heldReqs = s.fab.heldReqs
  reg : ∀ Q x, 0 < Q → Q ≠ pERR → Q < pFAB → x < 0x1000 → t.reg Q x = s.reg Q x

theorem Ported.refl (s : State) : Ported s s := ⟨rfl, rfl, fun _ _ _ _ _ _ => rfl⟩

theorem Ported.trans {s t u : State} (h : Ported s t) (k : Ported t u) : Ported s u :=
  ⟨k.sent.trans h.sent, k.held.trans h.held, fun Q x h1 h2 h3 h4 => (k.reg Q x h1 h2 h3 h4).trans (h.reg Q x h1 h2 h3 h4)⟩

theorem Ported.ite {s a b : State} {c : Prop} [Decidable c] (ha : Ported s a) (hb : Ported s b) : Ported s (if c then a else b) := by
  split
  · exact ha
  · exact hb

theorem State.setPort_ported (s : State) (n : Nat) (x : Port) : Ported s (s.setPort n x) := ⟨rfl, rfl, fun _ _ _ _ _ _ => rfl⟩

theorem State.updPort_ported (s : State) (n : Nat) (f : Port → Port) : Ported s (s.updPort n f) := s.setPort_ported n _

/-- A counter of ERR, or of a page from FAB on. -/
theorem State.count_ported (s : State) {P o : Nat} (n : Nat) (hP : P = pERR ∧ o < 0x1000 ∨ pFAB ≤ P) : Ported s (s.count P o n) where
  sent := by rw [State.fab_of_mask (M := { regs := true }) (s.count_mask _ rfl P o n) rfl]
  held := by rw [State.fab_of_mask (M := { regs := true }) (s.count_mask _ rfl P o n) rfl]
  reg Q x hQ hne hlt hx := s.reg_count_other n (by simp only [pERR, pFAB] at *; omega)

theorem State.err_ported (s : State) {P : Nat} (b : Nat) (hP : pFAB ≤ P) : Ported s (s.err P b) where
  sent := by rw [State.fab_of_mask (M := { regs := true, hq := true }) (s.err_mask _ rfl rfl P b) rfl]
  held := by rw [State.fab_of_mask (M := { regs := true, hq := true }) (s.err_mask _ rfl rfl P b) rfl]
  reg Q x hQ _ hlt hx := s.reg_err_page b (by omega) hQ (by simp only [pFAB] at hlt; omega) hx

theorem State.flitsLeave_ported (s : State) (n vc k : Nat) : Ported s (s.flitsLeave n vc k) := by
  have hcount : Ported s (s.count pVCH (0xF00 + 4 * vc) k) := s.count_ported k (.inr (by decide))
  unfold State.flitsLeave
  simp only []
  split
  · exact (hcount.trans (State.updPort_ported _ n _)).trans (State.count_ported _ 1 (.inl ⟨rfl, by decide⟩))
  · exact hcount

theorem State.sendHead_ported (s : State) (n vc : Nat) : Ported s (s.sendHead n vc) := by
  unfold State.sendHead
  simp only []
  split
  · exact (s.setPort_ported n _).trans (State.flitsLeave_ported _ n vc _)
  · exact .refl s

theorem State.arbTurn_ported (s : State) (n : Nat) : Ported s (s.arbTurn n) := by
  unfold State.arbTurn
  simp only []
  split
  · exact s.setPort_ported n _
  · exact .ite ((s.setPort_ported n _).trans (State.sendHead_ported _ n _)) (s.setPort_ported n _)

theorem State.arbStep_ported (s : State) (n : Nat) : Ported s (s.arbStep n) := by
  unfold State.arbStep
  simp only []
  split
  · split
    · exact s.sendHead_ported n 0
    · exact s.arbTurn_ported n
  · exact s.arbTurn_ported n

theorem State.pumpFuel_ported (n fuel : Nat) (s : State) : Ported s (State.pumpFuel n fuel s) := by
  induction fuel generalizing s with
  | zero => exact .refl s
  | succ fuel ih =>
    unfold State.pumpFuel
    split
    · exact (s.arbStep_ported n).trans (ih _)
    · exact .refl s

theorem State.sendOut_ported (s : State) (p : Packet) (from_ : Option Nat) : Ported s (s.sendOut p from_) := by
  unfold State.sendOut
  split
  · exact ⟨rfl, rfl, fun _ _ _ _ _ _ => rfl⟩
  · split
    · exact (s.updPort_ported _ _).trans (State.pumpFuel_ported _ _ _)
    · exact (s.count_ported 1 (.inr (by decide))).trans (State.err_ported _ 5 (by decide))

/-- A packet that this engine originates joins those sent. -/
theorem State.send_sent (s : State) (p : Packet) : (s.send p).fab.sent = s.fab.sent ++ [p] :=
  (State.sendOut_ported _ p none).sent

theorem State.send_reg (s : State) (p : Packet) {Q x : Nat} (hQ : 0 < Q) (hne : Q ≠ pERR) (hlt : Q < pFAB) (hx : x < 0x1000) :
    (s.send p).reg Q x = s.reg Q x :=
  (State.sendOut_ported _ p none).reg Q x hQ hne hlt hx

/-! ### Answering -/

theorem State.answer_sent (s : State) (p : Packet) (status : Nat) (payload : List Byte) (imm poison : BitVec 64) :
    (s.answer p status payload imm poison).fab.sent = s.fab.sent ++ [response s p status payload imm poison] :=
  s.send_sent _

theorem State.answer_reg (s : State) (p : Packet) (status : Nat) (payload : List Byte) (imm poison : BitVec 64) {Q x : Nat}
    (hQ : 0 < Q) (hne : Q ≠ pERR) (hlt : Q < pFAB) (hx : x < 0x1000) :
    (s.answer p status payload imm poison).reg Q x = s.reg Q x :=
  s.send_reg _ hQ hne hlt hx

/-- A response bears nothing of the engine that sends it but its id. -/
theorem response_congr {s t : State} (h : t.selfId = s.selfId) (p : Packet) (status : Nat) (payload : List Byte)
    (imm poison : BitVec 64) : response t p status payload imm poison = response s p status payload imm poison := by
  unfold response
  rw [h]

/-- An answer that an engine gives after work that sent nothing and kept its id. -/
theorem State.answer_answers {s v : State} (hsent : v.fab.sent = s.fab.sent) (hid : v.selfId = s.selfId) (p : Packet) (status : Nat)
    (payload : List Byte) : Answers s (v.answer p status payload) p status payload := by
  unfold Answers
  rw [State.answer_sent, hsent, response_congr hid]

/-! ### Taking a packet -/

/-- Buffer space freed shows in the fabric unit alone, and there in its ports alone. -/
theorem State.freeFlits_fab (s : State) (n vc cls k : Nat) :
    s.freeFlits n vc cls k = { s with fab := { s.fab with ports := (s.freeFlits n vc cls k).fab.ports } } := by
  unfold State.freeFlits
  simp only []
  split
  · rfl
  · split <;> rfl

/-- A packet taken shows in the fabric unit alone, which keeps what it has sent and what it holds. -/
theorem State.take_fab (s : State) (p : Packet) :
    ∃ f : Fabric, s.take p = { s with fab := f } ∧ f.sent = s.fab.sent ∧ f.heldReqs = s.fab.heldReqs := by
  unfold State.take
  simp only []
  split
  · rw [State.freeFlits_fab]; exact ⟨_, rfl, rfl, rfl⟩
  · exact ⟨_, rfl, rfl, rfl⟩

@[simp] theorem State.take_sent (s : State) (p : Packet) : (s.take p).fab.sent = s.fab.sent := by
  obtain ⟨f, hf, hsent, -⟩ := s.take_fab p
  rw [hf]; exact hsent

@[simp] theorem State.take_heldReqs (s : State) (p : Packet) : (s.take p).fab.heldReqs = s.fab.heldReqs := by
  obtain ⟨f, hf, -, hheld⟩ := s.take_fab p
  rw [hf]; exact hheld

@[simp] theorem State.take_reg (s : State) (p : Packet) (Q x : Nat) : (s.take p).reg Q x = s.reg Q x := by
  obtain ⟨f, hf, -, -⟩ := s.take_fab p
  rw [hf]; rfl

@[simp] theorem State.take_regN (s : State) (p : Packet) (Q x : Nat) : (s.take p).regN Q x = s.regN Q x :=
  congrArg BitVec.toNat (s.take_reg p Q x)

@[simp] theorem State.take_selfId (s : State) (p : Packet) : (s.take p).selfId = s.selfId :=
  congrArg (· % 2 ^ 13) (s.take_regN p pFAB 0xF00)

@[simp] theorem State.take_now (s : State) (p : Packet) : (s.take p).now = s.now := by
  obtain ⟨f, hf, -, -⟩ := s.take_fab p
  rw [hf]; rfl

@[simp] theorem State.take_rows (s : State) (p : Packet) : (s.take p).rows = s.rows := by
  obtain ⟨f, hf, -, -⟩ := s.take_fab p
  rw [hf]

@[simp] theorem State.take_settleSeq (s : State) (p : Packet) (tid : Nat) (seq : Word) :
    (s.take p).settleSeq tid seq = s.settleSeq tid seq := by
  obtain ⟨f, hf, -, -⟩ := s.take_fab p
  rw [hf]; rfl

@[simp] theorem State.take_holdOf (s : State) (p : Packet) (t : Tab) (x : Nat) : (s.take p).holdOf t x = s.holdOf t x := by
  obtain ⟨f, hf, -, -⟩ := s.take_fab p
  rw [hf]; rfl

@[simp] theorem State.take_mapLoc (s : State) (p : Packet) (t : Tab) (x : Nat) (b : Bool) :
    (s.take p).mapLoc t x b = s.mapLoc t x b := by
  obtain ⟨f, hf, -, -⟩ := s.take_fab p
  rw [hf]; rfl

@[simp] theorem State.take_migLoc (s : State) (p : Packet) (t : Tab) (x k : Nat) : (s.take p).migLoc t x k = s.migLoc t x k := by
  obtain ⟨f, hf, -, -⟩ := s.take_fab p
  rw [hf]; rfl

@[simp] theorem State.take_readRow (s : State) (p : Packet) (t : Tab) (l : Loc) :
    ((s.take p).readRow t l).1 = (s.readRow t l).1 := by
  obtain ⟨f, hf, -, -⟩ := s.take_fab p
  rw [hf]; rfl

end Sys2Proof.Machine
end

section
/-! SUPPORT. The row requests at their owner (R217, R229): what a READ or PROBE that arrives in its turn is served, and how
each way of being served is answered. -/

namespace Sys2Proof.Machine

open Sys2Proof

/-! ### POISON_MAP -/

theorem testBit_foldl_or_of_mem (l : List Nat) (a i : Nat) (h : a.testBit i = true ∨ i ∈ l) :
    (l.foldl (fun a i => a ||| 2 ^ i) a).testBit i = true := by
  induction l generalizing a with
  | nil => simpa using h
  | cons k l ih =>
    apply ih
    rcases h with h | h
    · exact .inl (by rw [Nat.testBit_or, h, Bool.true_or])
    · rcases List.mem_cons.1 h with rfl | h
      · exact .inl (by rw [Nat.testBit_or, Nat.testBit_two_pow_self, Bool.or_true])
      · exact .inr h

/-- A map with unit 0 among its units marks that unit, and so is not zero (R328). -/
theorem poisonMap_ne_zero (units : List Nat) (h : 0 ∈ units) : poisonMap units ≠ 0 := by
  have hbit : (poisonMap units).getLsbD 0 = true := by
    unfold poisonMap ofBits
    rw [BitVec.getLsbD_ofNat, testBit_foldl_or_of_mem _ 0 0 (.inr (List.mem_map.2 ⟨0, h, rfl⟩))]
    rfl
  intro e
  rw [e] at hbit
  exact absurd hbit (by decide)

/-! ### What a request is served -/

/-- READ_STEP of a PROBE; none for a READ (R229). -/
def probeOf (p : Packet) : Option Nat := if reqKind p = 2 then some (reqStep p) else none

/-- What the owner serves the row request `p` once it has taken it. -/
def State.servedReq (s : State) (p : Packet) : Served × State :=
  (s.take p).ownerServe (reqTable p) (reqRow p) (reqSeq p) (probeOf p) (reqMult p)

/-- What becomes of a row request that has been taken: it leaves those held, is served, and is answered. -/
def State.serveTaken (s : State) (p : Packet) : State :=
  let (since, s) := s.unhold p
  let (r, s) := s.ownerServe (reqTable p) (reqRow p) (reqSeq p) (probeOf p) (reqMult p)
  s.answerRow p since r

/-- The command is the one of the request's KIND: ROW_READ of a READ, or VERSION_PROBE of a PROBE. -/
def RequestCmd (c : Instr) (p : Packet) : Prop := c = .rowRead p ∧ reqKind p = 1 ∨ c = .versionProbe p ∧ reqKind p = 2

theorem takeFirst_none {α : Type} (f : α → Bool) (l : List α) (h : ∀ x, x ∈ l → f x = false) : takeFirst f l = (none, l) := by
  induction l with
  | nil => rfl
  | cons x l ih =>
    unfold takeFirst
    rw [if_neg (by simp [h x]), ih fun y hy => h y (List.mem_cons_of_mem x hy)]

/-- A request not held before is held as of now, and nothing is taken from those held. -/
theorem State.unhold_of_fresh {s : State} {p : Packet} (h : Fresh s p) : s.unhold p = (s.now, s) := by
  unfold State.unhold
  rw [takeFirst_none _ _ fun x hx => beq_eq_false_iff_ne.2 (h x hx)]

theorem exec_rowRequest {c : Instr} {p : Packet} (hc : RequestCmd c p) (s : State) :
    exec c s = s.engine fun s => s.receiveReq p (reqKind p) := by
  rcases hc with ⟨rfl, hk⟩ | ⟨rfl, hk⟩ <;> rw [hk] <;> rfl

theorem State.engine_up {s : State} (h : s.up = true) (f : State → State) : s.engine f = .next (f s) := by
  unfold State.engine
  rw [if_pos h]

/-- A request of the command's own KIND is received as such. -/
theorem State.receiveReq_own (s : State) (p : Packet) : s.receiveReq p (reqKind p) = s.receive p [4] fun u => u.serveTaken p := by
  unfold State.receiveReq State.serveTaken probeOf
  simp

/-- A packet that an earlier one of its source and VC precedes waits (R18). -/
theorem State.receive_wait {s : State} {p : Packet} {op : Nat} (hop : p.op = op) (hd : p.dest = s.selfId)
    (ht : s.packetTurn p (s.flowOf p) = false) (f : State → State) : s.receive p [op] f = s.waitTurn p := by
  simp [State.receive, hop, hd, ht]

/-- A packet that arrives in its turn is taken and acted on. -/
theorem State.receive_arrives {s : State} {p : Packet} {op : Nat} (h : Arrives s p op) (f : State → State) :
    s.receive p [op] f = f (s.take p) := by
  obtain ⟨-, hop, hd, hok, ht⟩ := h
  simp [State.receive, hop, hd, ht, hok]

/-- A row request in its turn is taken, served and answered (R229). -/
theorem exec_rowRequest_arrives {c : Instr} {p : Packet} {s : State} (hc : RequestCmd c p) (ha : Arrives s p 4) (hf : Fresh s p) :
    exec c s = .next ((s.servedReq p).2.answerRow p s.now (s.servedReq p).1) := by
  have hfresh : Fresh (s.take p) p := by unfold Fresh; rw [State.take_heldReqs]; exact hf
  rw [exec_rowRequest hc, State.engine_up ha.1, State.receiveReq_own, State.receive_arrives ha,
    State.serveTaken, State.unhold_of_fresh hfresh, State.take_now]
  rfl

/-- Serving a request sends nothing. -/
theorem State.servedReq_sent (s : State) (p : Packet) : (s.servedReq p).2.fab.sent = s.fab.sent := by
  have hfab : (s.servedReq p).2.fab = (s.take p).fab :=
    State.fab_of_mask (M := { regs := true, ext := true, tags := true, hq := true, rows := true, armed := true })
      (State.ownerServe_mask _ rfl rfl rfl rfl rfl rfl _ _ _ _ _ _) rfl
  rw [hfab, State.take_sent]

/-! ### The engine's id while a row is served -/

theorem State.selfId_serveFormer (s : State) (t : Tab) (x : Nat) (probe : Option Nat) (mult : Nat) :
    (s.serveFormer t x probe mult).2.selfId = s.selfId := by
  unfold State.serveFormer
  simp only []
  split
  · split <;> simp
  · split
    · split
      · simp
      · split <;> simp
    · split <;> simp

theorem State.selfId_ownerServe (s : State) (tid x : Nat) (seq : Word) (probe : Option Nat) (mult : Nat) :
    (s.ownerServe tid x seq probe mult).2.selfId = s.selfId := by
  unfold State.ownerServe
  split
  · exact s.selfId_err pROW 0
  · rfl
  · exact s.selfId_noteNotOwner
  · exact s.selfId_serveFormer _ _ _ _
  · split
    · exact s.selfId_serveCopy _ _ _ _ _
    · exact s.selfId_noteForward _
    · exact s.selfId_noteNotOwner

theorem State.servedReq_selfId (s : State) (p : Packet) : (s.servedReq p).2.selfId = s.selfId := by
  unfold State.servedReq
  rw [State.selfId_ownerServe, State.take_selfId]

/-! ### A copy served -/

/-- The row's image and version step, for a READ and for a PROBE that they are newer than (R229). -/
theorem State.serveCopy_row (s : State) (t : Tab) (x : Nat) (l : Loc) (p : Packet) (mult : Nat)
    (h : reqKind p = 1 ∨ stepGt (s.readRow t l).1.step (reqStep p) = true) :
    (s.serveCopy t x l (probeOf p) mult).1
      = .row (s.readRow t l).1.image l.dr (s.readRow t l).1.step (s.readRow t l).1.poison := by
  unfold State.serveCopy probeOf
  by_cases hk : reqKind p = 2
  · have hgt := h.resolve_left (by omega)
    simp [hk, hgt]
  · simp [hk]

/-- CURRENT, for a PROBE whose READ_STEP the version step does not exceed (R229). -/
theorem State.serveCopy_current (s : State) (t : Tab) (x : Nat) (l : Loc) (p : Packet) (mult : Nat) (hk : reqKind p = 2)
    (h : stepGt (s.readRow t l).1.step (reqStep p) = false) :
    (s.serveCopy t x l (probeOf p) mult).1 = .current (s.readRow t l).1.step := by
  unfold State.serveCopy probeOf
  simp [hk, h]

/-! ### How each way of being served is answered -/

/-- The ROW answer to a request: the image behind its header, poisoned throughout where the row is (R228). -/
def rowAnswer (s : State) (p : Packet) (img : List Byte) (dr step : Nat) (bad : Bool) : Packet :=
  response s p 0 (respHeader step s.selfId kROW dr img.length (reqTable p) (reqRow p) ++ img) 0
    (if bad then poisonMap (List.range (divUp (32 + img.length) 64)) else 0)

theorem rowAnswer_congr {s t : State} (h : t.selfId = s.selfId) (p : Packet) (img : List Byte) (dr step : Nat) (bad : Bool) :
    rowAnswer t p img dr step bad = rowAnswer s p img dr step bad := by
  unfold rowAnswer
  rw [h, response_congr h]

theorem rowAnswer_op {p : Packet} (h : p.op = 4) (s : State) (img : List Byte) (dr step : Nat) (bad : Bool) :
    (rowAnswer s p img dr step bad).op = 0x84 :=
  congrArg (· + 0x80) h

theorem rowAnswer_poison_ne_zero (s : State) (p : Packet) (img : List Byte) (dr step : Nat) :
    (rowAnswer s p img dr step true).poison ≠ 0 := by
  have hdiv : 0 < divUp (32 + img.length) 64 := by unfold divUp; omega
  exact poisonMap_ne_zero _ (List.mem_range.2 hdiv)

theorem rowAnswer_poison_of_clean {bad : Bool} (h : bad = false) (s : State) (p : Packet) (img : List Byte) (dr step : Nat) :
    (rowAnswer s p img dr step bad).poison = 0 := by
  subst h; rfl

section

variable {c : Instr} {p : Packet} {s : State}

/-- The answer to a request, from what it was served. -/
theorem exec_of_served (hc : RequestCmd c p) (ha : Arrives s p 4) (hf : Fresh s p) {r : Served} (h : (s.servedReq p).1 = r) :
    exec c s = .next ((s.servedReq p).2.answerRow p s.now r) := by
  rw [exec_rowRequest_arrives hc ha hf, h]

/-- The answer that a request is given bears this engine's id as it was. -/
theorem State.servedReq_answers (status : Nat) (payload : List Byte) :
    Answers s ((s.servedReq p).2.answer p status payload) p status payload :=
  State.answer_answers (s.servedReq_sent p) (s.servedReq_selfId p) p status payload

/-- ROW: the image behind its header, and nothing more sent; the registers of ROW are as the serving left them. -/
theorem answered_row (hc : RequestCmd c p) (ha : Arrives s p 4) (hf : Fresh s p) {img : List Byte} {dr step : Nat} {bad : Bool}
    (h : (s.servedReq p).1 = .row img dr step bad) :
    ∃ t, exec c s = .next t ∧ t.fab.sent = s.fab.sent ++ [rowAnswer s p img dr step bad]
      ∧ ∀ x, x < 0x1000 → t.reg pROW x = (s.servedReq p).2.reg pROW x := by
  refine ⟨_, exec_of_served hc ha hf h, ?_, fun x hx => State.answer_reg _ _ _ _ _ _ (by decide) (by decide) (by decide) hx⟩
  rw [← rowAnswer_congr (s.servedReq_selfId p), ← s.servedReq_sent p]
  exact State.answer_sent _ _ _ _ _ _

/-- CURRENT. -/
theorem answered_current (hc : RequestCmd c p) (ha : Arrives s p 4) (hf : Fresh s p) {step : Nat}
    (h : (s.servedReq p).1 = .current step) :
    ∃ t, exec c s = .next t ∧ Answers s t p 0 (respHeader step s.selfId kCURRENT 0 0 (reqTable p) (reqRow p)) := by
  refine ⟨_, exec_of_served hc ha hf h, ?_⟩
  rw [← s.servedReq_selfId p]
  exact State.servedReq_answers 0 _

/-- A row served from a copy. -/
theorem servedFrom_of_serveCopy (hc : RequestCmd c p) (ha : Arrives s p 4) (hf : Fresh s p) {tab : Tab} {l : Loc}
    (h : s.servedReq p = (s.take p).serveCopy tab (reqRow p) l (probeOf p) (reqMult p)) : ServedFrom s c p tab l := by
  rintro r rfl
  constructor
  · intro hrow
    have hserved := (s.take p).serveCopy_row tab (reqRow p) l p (reqMult p) (by rwa [State.take_readRow])
    rw [← h, State.take_readRow] at hserved
    obtain ⟨t, hexec, hsent, -⟩ := answered_row hc ha hf hserved
    obtain ⟨-, hop, -⟩ := ha
    exact ⟨t, _, hexec, hsent, rfl, rfl, rfl, rowAnswer_op hop _ _ _ _ _, rfl, rfl, fun hclean => rowAnswer_poison_of_clean hclean _ _ _ _ _⟩
  · intro hk hle
    have hserved := (s.take p).serveCopy_current tab (reqRow p) l p (reqMult p) hk (by rwa [State.take_readRow])
    rw [← h, State.take_readRow] at hserved
    exact answered_current hc ha hf hserved

/-- FORWARD (R211). -/
theorem forwardedTo_of_noteForward (hc : RequestCmd c p) (ha : Arrives s p 4) (hf : Fresh s p) {o k : Nat}
    (h : s.servedReq p = (.forward o, (s.take p).noteForward k)) : ForwardedTo s c p o := by
  have hafter : (s.servedReq p).2 = (s.take p).noteForward k := by rw [h]
  refine ⟨_, exec_of_served hc ha hf (congrArg Prod.fst h), State.servedReq_answers 0 _, ?_⟩
  have hcount : ((s.take p).noteForward k).regN pROW 0xF14 = satAdd 32 (s.regN pROW 0xF14) 1 := by
    rw [← s.take_regN p]; exact (s.take p).regN_count_self pROW 0xF14
  rw [← hcount, ← hafter]
  exact congrArg BitVec.toNat (State.answer_reg _ _ _ _ _ _ (by decide) (by decide) (by decide) (by decide))

/-- NOT_OWNER, counted and flagged MISROUTE (R211). -/
theorem answered_notOwner (hc : RequestCmd c p) (ha : Arrives s p 4) (hf : Fresh s p)
    (h : s.servedReq p = (.notOwner, (s.take p).noteNotOwner)) :
    ∃ t, exec c s = .next t ∧ Answers s t p 0 (respHeader 0 s.selfId kNOT_OWNER 0 0 (reqTable p) (reqRow p))
      ∧ t.regN pROW 0xF20 = satAdd 32 (s.regN pROW 0xF20) 1 ∧ bitOf (t.errStatus pROW) 2 = true := by
  have hafter : (s.servedReq p).2 = (s.take p).noteNotOwner := by rw [h]
  have hreg : ∀ x, x < 0x1000 →
      ((s.servedReq p).2.answerRow p s.now .notOwner).reg pROW x = ((s.take p).noteNotOwner).reg pROW x := fun x hx => by
    rw [← hafter]
    exact State.answer_reg _ _ _ _ _ _ (by decide) (by decide) (by decide) hx
  refine ⟨_, exec_of_served hc ha hf (congrArg Prod.fst h), ?_, ?_, ?_⟩
  · rw [← s.servedReq_selfId p]
    exact State.servedReq_answers 0 _
  · have hcount : ((s.take p).count pROW 0xF20).regN pROW 0xF20 = satAdd 32 (s.regN pROW 0xF20) 1 := by
      rw [State.regN_count_self, State.take_regN]
    rw [← hcount]
    exact congrArg BitVec.toNat ((hreg _ (by decide)).trans (State.reg_err_same _ 2 (by decide) (by decide) (by decide) (by decide)))
  · rw [State.errStatus, hreg _ (by decide)]
    exact State.bitOf_errStatus_err _ (by decide) (by decide) (by decide)

/-- A request that names a later TABLE_SEQ is held as of now, and nothing is sent (R217). -/
theorem heldBack_of_held (hc : RequestCmd c p) (ha : Arrives s p 4) (hf : Fresh s p) (h : s.servedReq p = (.held, s.take p)) :
    ∃ t, exec c s = .next t ∧ HeldBack s t p := by
  refine ⟨_, exec_of_served hc ha hf (congrArg Prod.fst h), s.servedReq_sent p, ?_⟩
  have hheld : (s.servedReq p).2.fab.heldReqs = s.fab.heldReqs := by rw [h]; exact s.take_heldReqs p
  exact congrArg (· ++ _) hheld

/-! ### What a request is served, by its TABLE_SEQ (R217) -/

theorem State.servedReq_of_held (h : s.settleSeq (reqTable p) (reqSeq p) = .held) : s.servedReq p = (.held, s.take p) := by
  simp [State.servedReq, State.ownerServe, h]

theorem State.servedReq_of_notOwner (h : s.settleSeq (reqTable p) (reqSeq p) = .notOwner) :
    s.servedReq p = (.notOwner, (s.take p).noteNotOwner) := by
  simp [State.servedReq, State.ownerServe, h]

theorem State.servedReq_of_bad (h : s.settleSeq (reqTable p) (reqSeq p) = .bad) :
    s.servedReq p = (s.take p).serveBad (reqTable p) := by
  simp [State.servedReq, State.ownerServe, h]

theorem State.servedReq_of_own {tab : Tab} {l : Loc} (h : s.settleSeq (reqTable p) (reqSeq p) = .active tab)
    (hl : s.holdOf tab (reqRow p) = .own l) :
    s.servedReq p = (s.take p).serveCopy tab (reqRow p) l (probeOf p) (reqMult p) := by
  simp [State.servedReq, State.ownerServe, h, hl]

theorem State.servedReq_of_gone {tab : Tab} {o : Nat} (h : s.settleSeq (reqTable p) (reqSeq p) = .active tab)
    (ho : s.holdOf tab (reqRow p) = .gone o) : s.servedReq p = (.forward o, (s.take p).noteForward (reqTable p)) := by
  simp [State.servedReq, State.ownerServe, h, ho]

theorem State.servedReq_of_other {tab : Tab} (h : s.settleSeq (reqTable p) (reqSeq p) = .active tab)
    (ho : s.holdOf tab (reqRow p) = .other) : s.servedReq p = (.notOwner, (s.take p).noteNotOwner) := by
  simp [State.servedReq, State.ownerServe, h, ho]

theorem State.servedReq_of_former {f : Tab} (h : s.settleSeq (reqTable p) (reqSeq p) = .former f) :
    s.servedReq p = (s.take p).serveFormer f (reqRow p) (probeOf p) (reqMult p) := by
  simp [State.servedReq, State.ownerServe, h]

/-! ### A row of the FORMER entry (R217) -/

theorem State.serveFormer_default {f : Tab} {x : Nat} (hx : f.rows ≤ x) (ho : f.defaultOwner = s.selfId) (probe : Option Nat)
    (mult : Nat) : s.serveFormer f x probe mult = s.serveCopy f x f.defaultLoc probe mult := by
  unfold State.serveFormer
  rw [if_pos hx, if_pos ho]

theorem State.serveFormer_moved {f : Tab} {x a y w : Nat} (hx : x < f.rows)
    (h : s.rows.formerRows.find? (fun e => e.1 == f.id && e.2.1 == x) = some (a, y, w)) (probe : Option Nat) (mult : Nat) :
    s.serveFormer f x probe mult = if excState w = eOWNED ∨ excState w = ePROV then s.serveCopy f x (s.migLoc f x (excSlot w)) probe mult
      else if excState w = eGONE then (.forward (excOwner w), s.noteForward f.id) else (.notOwner, s.noteNotOwner) := by
  unfold State.serveFormer
  rw [if_neg (by omega), h]
  simp

theorem State.serveFormer_home {f : Tab} {x : Nat} {l : Loc} (hx : x < f.rows)
    (h : s.rows.formerRows.find? (fun e => e.1 == f.id && e.2.1 == x) = none) (hl : s.mapLoc f x false = some l) (probe : Option Nat)
    (mult : Nat) : s.serveFormer f x probe mult = s.serveCopy f x l probe mult := by
  unfold State.serveFormer
  rw [if_neg (by omega), h]
  simp only [hl]

end

/-- Settles O37: the command is reduced to what the owner serves and how that is answered, and what it serves follows the
settling of TABLE_SEQ and the owner's tables case by case. -/
theorem rowRequestsAreAnsweredByTheirOwner : Obligations.RowRequestsAreAnsweredByTheirOwner := by
  unfold Obligations.RowRequestsAreAnsweredByTheirOwner
  intro c p s hc
  refine ⟨fun hup hop hd ht => ?waits, fun ha hf => ⟨fun h => ?held, fun h => ?notOwner, fun h => ?bad,
    fun tab h => ?active, fun f h => ?former⟩⟩
  case waits => rw [exec_rowRequest hc, State.engine_up hup, State.receiveReq_own, State.receive_wait hop hd ht]
  case held => exact heldBack_of_held hc ha hf (State.servedReq_of_held h)
  case notOwner => exact answered_notOwner hc ha hf (State.servedReq_of_notOwner h)
  case bad =>
    have hserved := State.servedReq_of_bad h
    obtain ⟨t, hexec, hsent, hreg⟩ := answered_row hc ha hf (congrArg Prod.fst hserved)
    obtain ⟨-, hop, -⟩ := ha
    refine ⟨t, _, hexec, hsent, rfl, rowAnswer_op hop _ _ _ _ _, rowAnswer_poison_ne_zero _ _ _ _ _, ?_⟩
    rw [State.errStatus, hreg _ (by decide), hserved]
    exact State.bitOf_errStatus_err _ (by decide) (by decide) (by decide)
  case active =>
    exact ⟨fun o ho => forwardedTo_of_noteForward hc ha hf (State.servedReq_of_gone h ho),
      fun ho => answered_notOwner hc ha hf (State.servedReq_of_other h ho),
      fun l hl => servedFrom_of_serveCopy hc ha hf (State.servedReq_of_own h hl)⟩
  case former =>
    have hserved := State.servedReq_of_former h
    refine ⟨fun hx ho => ?_, fun hx => ⟨fun a y w hw => ⟨fun hst => ?_, fun hst => ?_⟩, fun hnone l hl => ?_⟩⟩
    · rw [State.serveFormer_default hx (by rwa [State.take_selfId])] at hserved
      exact servedFrom_of_serveCopy hc ha hf hserved
    · rw [State.serveFormer_moved hx (by rwa [State.take_rows]), if_pos hst, State.take_migLoc] at hserved
      exact servedFrom_of_serveCopy hc ha hf hserved
    · rw [State.serveFormer_moved hx (by rwa [State.take_rows]), hst, if_neg (by decide), if_pos rfl] at hserved
      exact forwardedTo_of_noteForward hc ha hf hserved
    · rw [State.serveFormer_home hx (by rwa [State.take_rows]) (by rwa [State.take_mapLoc])] at hserved
      exact servedFrom_of_serveCopy hc ha hf hserved

end Sys2Proof.Machine
end

section
/-! SUPPORT. What an operation that only notes events leaves of the queues and of the configuration (R416, R429, R444): every
field of the queues but the interrupt messages, and every configuration register of the pages from RST to UPD but ERR. -/

namespace Sys2Proof.Machine

open Sys2Proof

/-! ### Noted events -/

/-- From `s` to `t` events have been noted: in the queues only interrupt messages were added, and of the pages from RST to UPD
but ERR only error flags and counters have changed. -/
structure Noted (s t : State) : Prop where
  hq : t.hq = { s.hq with messages := t.hq.messages, irqWait := t.hq.irqWait }
  reg : ∀ Q x, 0 < Q → Q ≠ pERR → Q < pFAB → x = oSTATUS ∨ 0x30 ≤ x → x < 0xF00 → t.reg Q x = s.reg Q x

theorem Noted.of_same {s t : State} (hhq : t.hq = s.hq) (hregs : t.regs = s.regs) : Noted s t where
  hq := by rw [hhq]
  reg Q x _ _ _ _ _ := by unfold State.reg; rw [hregs]

theorem Noted.refl (s : State) : Noted s s := .of_same rfl rfl

theorem Noted.trans {s t u : State} (h : Noted s t) (k : Noted t u) : Noted s u where
  hq := by rw [k.hq, h.hq]
  reg Q x h1 h2 h3 h4 h5 := (k.reg Q x h1 h2 h3 h4 h5).trans (h.reg Q x h1 h2 h3 h4 h5)

theorem Noted.ite {s a b : State} {c : Prop} [Decidable c] (ha : Noted s a) (hb : Noted s b) : Noted s (if c then a else b) := by
  split
  · exact ha
  · exact hb

/-- A fold notes events if each of its steps does. -/
theorem Noted.foldl {α : Type} {f : State → α → State} (h : ∀ s x, Noted s (f s x)) (l : List α) (s : State) :
    Noted s (l.foldl f s) := by
  induction l generalizing s with
  | nil => exact .refl s
  | cons x l ih => exact (h s x).trans (ih _)

/-! ### Operations that note events -/

/-- A counter lies above the configuration of its page (R444). -/
theorem State.setReg_noted (s : State) {P o : Nat} (v : Word) (ho : 0xF00 ≤ o) (ho' : o < 0x1000) : Noted s (s.setReg P o v) where
  hq := rfl
  reg Q x _ _ _ _ _ := s.reg_setReg_other v (by omega)

theorem State.count_noted (s : State) {P o : Nat} (n : Nat) (ho : 0xF00 ≤ o) (ho' : o < 0x1000) : Noted s (s.count P o n) := by
  unfold State.count
  exact .ite (.refl s) (s.setReg_noted _ ho ho')

@[simp] theorem State.count_hq (s : State) (P o n : Nat) : (s.count P o n).hq = s.hq := by
  unfold State.count
  split <;> rfl

theorem State.raise_hq (s : State) (v : Nat) (tags : List Nat) :
    (s.raise v tags).hq = { s.hq with messages := (s.raise v tags).hq.messages, irqWait := (s.raise v tags).hq.irqWait } := by
  unfold State.raise State.raiseNow
  split
  · split
    · rfl
    · rw [State.sendIrq, State.count_hq]
  · rfl

theorem State.flagged_hq (s : State) (P b : Nat) : (s.flagged P b).hq = s.hq := by
  simp only [State.flagged, State.count_hq]
  split
  · rw [State.setReg_hq, State.setReg_hq]
  · rw [State.setReg_hq]

/-- An error event is its flag, and perhaps a message of ERR's vector (R415, R416). -/
theorem State.err_flagged (s : State) (P b : Nat) :
    s.err P b = s.flagged P b ∨ s.err P b = (s.flagged P b).raise (fld (s.cfg pERR 0x108) 15 8) [] := by
  unfold State.err
  simp only []
  split
  · exact .inr rfl
  · exact .inl rfl

theorem State.err_hq (s : State) (P b : Nat) :
    (s.err P b).hq = { s.hq with messages := (s.err P b).hq.messages, irqWait := (s.err P b).hq.irqWait } := by
  rcases s.err_flagged P b with h | h
  · rw [h, State.flagged_hq]
  · rw [h, State.raise_hq, State.flagged_hq]

theorem State.err_noted (s : State) (P b : Nat) : Noted s (s.err P b) where
  hq := s.err_hq P b
  reg Q x hQ _ hlt hx hx' := by
    simp only [pFAB] at hlt
    simp only [oSTATUS] at hx
    by_cases hPQ : Q = P
    · subst hPQ
      rw [s.reg_err_flagged Q b hQ (by omega)]
      apply State.reg_flagged_other <;> simp only [oERR_STATUS, oERR_FIRST, oERR_COUNT] <;> omega
    · exact s.reg_err_page b hPQ hQ (by omega) (by omega)

theorem State.poisoning_noted (s : State) (P b : Nat) : Noted s (s.poisoning P b) :=
  ((s.count_noted 1 (by decide) (by decide)).trans (State.err_noted _ P b)).trans (State.err_noted _ pERR 0)

theorem State.noteFate_noted (s : State) (fate : Nat) : Noted s (s.noteFate fate) := by
  unfold State.noteFate
  exact .ite (s.err_noted pERR 4) (.refl s)

/-- The tag of a sector that a write leaves, with the errors armed for its port (R199, R414). -/
theorem State.writeTag_noted (s : State) (a n : Nat) (new : Tag) (poison : Bool) (k : Nat) : Noted s (s.writeTag a n new poison k) := by
  have hcount : ∀ u : State, Noted u (u.count pERR 0xF34) := fun u => u.count_noted 1 (by decide) (by decide)
  have htag : ∀ (b : Bool) (u : State), Noted s u → Noted s (if b = true then u.count pERR 0xF34 else u) :=
    fun b u hu => .ite (hu.trans (hcount u)) hu
  have harmed : ∀ (b : Bool) (r : Armed),
      Noted s (if b = true then State.count { s with armed := r } pERR 0xF34 else { s with armed := r }) :=
    fun b r => htag b _ (.of_same rfl rfl)
  have hset : ∀ (u : State) (t : Tag), Noted s u → Noted s (u.setTag k t) := fun u t hu => hu.trans (.of_same rfl rfl)
  unfold State.writeTag
  apply hset
  split
  · exact ((harmed _ _).trans (hcount _)).trans (State.poisoning_noted _ _ _)
  · exact (harmed _ _).trans (hcount _)
  · exact harmed _ _

theorem State.extWrite_noted (s : State) (a : Nat) (bs : List Byte) (poison : Bool) : Noted s (s.extWrite a bs poison) := by
  unfold State.extWrite State.extWriteTag
  exact (Noted.of_same (s := s) (t := { s with ext := Mem.write s.ext a bs }) rfl rfl).trans
    (.foldl (fun s k => s.writeTag_noted _ _ _ _ k) _ _)

theorem State.extPutNat_noted (s : State) (a n v : Nat) : Noted s (s.extPutNat a n v) := s.extWrite_noted _ _ _

theorem State.journalWrite_noted (s : State) (j : Nat) (r : Rec) (st : Nat) : Noted s (s.journalWrite j r st) := s.extPutNat_noted _ _ _

theorem State.journalMark_noted (s : State) (j st : Nat) : Noted s (s.journalMark j st) := s.extPutNat_noted _ _ _

/-! ### What is kept -/

section

variable {s t : State} (h : Noted s t)

include h

theorem Noted.sqs : t.hq.sqs = s.hq.sqs := by rw [h.hq]
theorem Noted.cqs : t.hq.cqs = s.hq.cqs := by rw [h.hq]
theorem Noted.items : t.hq.items = s.hq.items := by rw [h.hq]

theorem Noted.sq (n : Nat) : t.sq n = s.sq n := by unfold State.sq; rw [h.sqs]
theorem Noted.cq (n : Nat) : t.cq n = s.cq n := by unfold State.cq; rw [h.cqs]
theorem Noted.item? (j : Nat) : t.item? j = s.item? j := by unfold State.item?; rw [h.items]

/-- A configuration field of either bank (R446). -/
theorem Noted.cfg {P o : Nat} (h1 : 0 < P) (h2 : P ≠ pERR) (h3 : P < pFAB) (h4 : 0x30 ≤ o) (h5 : o < 0x800) :
    t.cfg P o = s.cfg P o := by
  unfold State.cfg State.bankB
  rw [h.reg P oSTATUS h1 h2 h3 (.inl rfl) (by decide), h.reg P o h1 h2 h3 (.inr h4) (by omega),
    h.reg P (o + 0x700) h1 h2 h3 (.inr (by omega)) (by omega)]

theorem Noted.cfgAddr {P o : Nat} (h1 : 0 < P) (h2 : P ≠ pERR) (h3 : P < pFAB) (h4 : 0x30 ≤ o) (h5 : o + 4 < 0x800) :
    t.cfgAddr P o = s.cfgAddr P o := by
  unfold State.cfgAddr
  rw [h.cfg h1 h2 h3 h4 (by omega), h.cfg h1 h2 h3 (by omega) h5]

/-- Of the 64 SQs only: beyond them the address of SQn_CTRL runs into other pages. -/
theorem Noted.cqOf {q : Nat} (hq : q < 64) : t.cqOf q = s.cqOf q := by
  unfold State.cqOf State.sqCtrl
  rw [h.cfg (by decide) (by decide) (by decide) (by omega) (by omega)]

theorem Noted.lkCq : t.lkCq = s.lkCq := by
  unfold State.lkCq
  rw [h.cfg (by decide) (by decide) (by decide) (by decide) (by decide)]

theorem Noted.journalBase : t.journalBase = s.journalBase :=
  h.cfgAddr (by decide) (by decide) (by decide) (by decide) (by decide)

theorem Noted.journalAddr (j : Nat) : t.journalAddr j = s.journalAddr j := by
  unfold State.journalAddr
  rw [h.journalBase]

end

end Sys2Proof.Machine
end

section
/-! SUPPORT. Bytes and numbers of external memory after a write, the journal's entries (R74, R75), and what the settling of a
fate does to items, records and the journal (R71, R72, R75). -/

namespace Sys2Proof

/-! ### Bytes and numbers -/

theorem leBytes_length (n v : Nat) : (leBytes n v).length = n := by
  induction n generalizing v with
  | zero => rfl
  | succ n ih => simp [leBytes, ih]

theorem leNat_leBytes (n v : Nat) : leNat (leBytes n v) = v % 256 ^ n := by
  induction n generalizing v with
  | zero => simp [leBytes, leNat, Nat.mod_one]
  | succ n ih =>
    rw [leBytes, leNat, ih, BitVec.toNat_ofNat, pow_succ' 256 n, Nat.mod_mul]

theorem Mem.read_congr {m m' : Mem} {a n : Nat} (h : ∀ x, a ≤ x → x < a + n → m.get x = m'.get x) :
    m.read a n = m'.read a n := by
  induction n generalizing a with
  | zero => rfl
  | succ n ih => rw [Mem.read, Mem.read, h a (by omega) (by omega), ih fun x hx hx' => h x (by omega) (by omega)]

theorem Mem.read_write_apart (m : Mem) (bs : List Byte) {a b n : Nat} (h : b + n ≤ a ∨ a + bs.length ≤ b) :
    (m.write a bs).read b n = m.read b n :=
  Mem.read_congr fun x _ _ => Mem.get_write_outside m a x bs (by omega)

theorem Mem.read_write_self (m : Mem) (a : Nat) (bs : List Byte) : (m.write a bs).read a bs.length = bs := by
  induction bs generalizing m a with
  | nil => rfl
  | cons b bs ih =>
    rw [List.length_cons, Mem.read, Mem.write, ih, Mem.get_write_outside _ _ _ bs (.inl (Nat.lt_succ_self a)), Mem.get_put, if_pos rfl]

theorem Mem.nat_write_leBytes (m : Mem) (a n v : Nat) : (m.write a (leBytes n v)).nat a n = v % 256 ^ n := by
  have h := m.read_write_self a (leBytes n v)
  rw [leBytes_length] at h
  rw [Mem.nat, h, leNat_leBytes]

/-! ### Lists -/

theorem find?_mapIf {α : Type} (l : List α) (p : α → Bool) (f : α → α) (hf : ∀ x, p (f x) = p x) :
    (mapIf l p f).find? p = (l.find? p).map f := by
  induction l with
  | nil => rfl
  | cons x l ih =>
    cases hx : p x with
    | true => simp [mapIf, hx, hf]
    | false => simpa [mapIf, hx] using ih

end Sys2Proof

namespace Sys2Proof.Machine

open Sys2Proof

/-! ### External memory after a write -/

@[simp] theorem State.extWrite_ext (s : State) (a : Nat) (bs : List Byte) (poison : Bool) :
    (s.extWrite a bs poison).ext = s.ext.write a bs :=
  State.ext_of_mask (M := { regs := true, tags := true, hq := true, armed := true })
    (State.foldl_mask _ _ (fun s k => s.writeTag_mask _ rfl rfl rfl rfl _ _ _ _ k) _ _) rfl

@[simp] theorem State.extPutNat_ext (s : State) (a n v : Nat) : (s.extPutNat a n v).ext = s.ext.write a (leBytes n v) :=
  s.extWrite_ext _ _ _

theorem State.extNat_extPutNat (s : State) (a n v : Nat) : (s.extPutNat a n v).extNat a n = v % 256 ^ n := by
  rw [State.extNat, State.extPutNat_ext, Mem.nat_write_leBytes]

theorem State.get_extPutNat_outside (s : State) (a n v : Nat) {x : Nat} (h : ¬(a ≤ x ∧ x < a + n)) :
    (s.extPutNat a n v).ext.get x = s.ext.get x := by
  rw [State.extPutNat_ext, Mem.get_write_outside _ _ _ _ (by rw [leBytes_length]; omega)]

/-! ### The journal -/

theorem nfld_setFld_state (w v : Nat) (hv : v < 4) : nfld (setFld w 27 26 v % 256 ^ 32) 27 26 = v := by
  unfold setFld nfld
  omega

/-- The state bits of a journal entry stand between the record's fields (R74). -/
theorem nfld_bits_state (r : Rec) (st : Nat) (hst : st < 4) : nfld (r.bits false st % 256 ^ 32) 27 26 = st := by
  unfold Rec.bits nfld bit
  generalize r.kind.code = k
  simp only [Bool.false_eq_true, if_false]
  omega

theorem State.journalState_journalWrite (s : State) (j : Nat) (r : Rec) {st : Nat} (hst : st < 4) :
    (s.journalWrite j r st).journalState j = st := by
  rw [State.journalState, State.journalEntry, (s.journalWrite_noted j r st).journalAddr, State.journalWrite, State.extNat_extPutNat,
    nfld_bits_state r st hst]

theorem State.journalState_journalMark (s : State) (j : Nat) {st : Nat} (hst : st < 4) : (s.journalMark j st).journalState j = st := by
  rw [State.journalState, State.journalEntry, (s.journalMark_noted j st).journalAddr, State.journalMark, State.extNat_extPutNat,
    nfld_setFld_state _ _ hst]

theorem State.journalState_journalMark_other (s : State) {j k : Nat} (st : Nat) (h : k ≠ j) :
    (s.journalMark j st).journalState k = s.journalState k := by
  have hapart : s.journalAddr k + 32 ≤ s.journalAddr j
      ∨ s.journalAddr j + (leBytes 32 (setFld (s.journalEntry j) 27 26 st)).length ≤ s.journalAddr k := by
    rw [leBytes_length]
    unfold State.journalAddr
    omega
  rw [State.journalState, State.journalEntry, (s.journalMark_noted j st).journalAddr, State.journalMark, State.extNat, State.extPutNat_ext,
    Mem.nat, Mem.read_write_apart _ _ hapart]
  rfl

theorem State.journalState_congr {s t : State} (hreg : ∀ o, 0x30 ≤ o → o < 0x800 → t.cfg pHQ o = s.cfg pHQ o) (hext : t.ext = s.ext)
    (j : Nat) : t.journalState j = s.journalState j := by
  unfold State.journalState State.journalEntry State.journalAddr State.journalBase State.cfgAddr State.extNat
  rw [hreg _ (by decide) (by decide), hreg _ (by decide) (by decide), hext]

/-! ### Records of a CQ -/

theorem State.cq_setCq (s : State) (n c : Nat) (q : Cq) : (s.setCq n q).cq c = if c = n then q else s.cq c := by
  unfold State.cq State.setCq
  exact SMap.get_put _ _ _ _ _

theorem State.queueRec_cq (s : State) (k c : Nat) (r : Rec) :
    (s.queueRec k r).cq c = if c = k then { s.cq c with pending := (s.cq c).pending ++ [r] } else s.cq c := by
  rw [State.queueRec, State.cq_setCq]
  split
  · subst ‹c = k›
    rfl
  · rfl

theorem State.dropItem_cq (s : State) (j c : Nat) : (s.dropItem j).cq c = s.cq c := rfl

/-! ### Settling -/

/-- The final record of an item. -/
def State.fateRec (s : State) (it : Item) (fate v0 v1 detail berth : Nat) (frees : Option Nat) : Rec :=
  { kind := if it.type = 2 then .request else .entry, fate := fate, detail := detail, cookie := it.cookie, sq := it.sq
    sqIndex := it.sqIndex, sqHead := (s.sq it.sq).head, berth := berth, value0 := it.value0 v0, value1 := v1, aoUs := s.now
    irq := it.irq, journal := some it.j, frees := frees }

/-- The item's journal entry is FATED, before its record is determined. -/
def State.fated (s : State) (it : Item) (fate : Nat) (r : Rec) : State := (s.noteFate fate).journalWrite it.j r 2

theorem State.fated_noted (s : State) (it : Item) (fate : Nat) (r : Rec) : Noted s (s.fated it fate r) :=
  (s.noteFate_noted fate).trans (State.journalWrite_noted _ _ _ _)

@[simp] theorem State.noteFate_ext (s : State) (fate : Nat) : (s.noteFate fate).ext = s.ext :=
  State.ext_of_mask (M := { regs := true, hq := true }) (s.noteFate_mask _ rfl rfl fate) rfl

theorem State.fated_ext (s : State) (it : Item) (fate : Nat) (r : Rec) :
    (s.fated it fate r).ext = s.ext.write (s.journalAddr it.j) (leBytes 32 (r.bits false 2)) := by
  rw [State.fated, State.journalWrite, State.extPutNat_ext, (s.noteFate_noted fate).journalAddr, State.noteFate_ext]

theorem State.settle_eq (s : State) (it : Item) (fate v0 v1 detail berth : Nat) (frees : Option Nat) :
    s.settle it fate v0 v1 detail berth frees =
      let r := s.fateRec it fate v0 v1 detail berth frees
      let u := s.fated it fate r
      let u := if it.type = 2 then u.dupFate it.j fate else u
      (u.queueRec (u.cqOf it.sq) r).dropItem it.j := rfl

section

variable (s : State) (it : Item) (fate v0 v1 detail berth : Nat) (frees : Option Nat)

theorem State.settle_ext : (s.settle it fate v0 v1 detail berth frees).ext
    = s.ext.write (s.journalAddr it.j) (leBytes 32 ((s.fateRec it fate v0 v1 detail berth frees).bits false 2)) := by
  rw [← State.fated_ext, State.settle_eq]
  by_cases h : it.type = 2
  · simp only [h, if_true]; rfl
  · simp only [h, if_false]; rfl

theorem State.settle_regs : (s.settle it fate v0 v1 detail berth frees).regs
    = (s.fated it fate (s.fateRec it fate v0 v1 detail berth frees)).regs := by
  rw [State.settle_eq]
  by_cases h : it.type = 2
  · simp only [h, if_true]; rfl
  · simp only [h, if_false]; rfl

theorem State.settle_items : (s.settle it fate v0 v1 detail berth frees).hq.items = s.hq.items.filter (·.j != it.j) := by
  rw [State.settle_eq, ← (s.fated_noted it fate _).items]
  by_cases h : it.type = 2
  · simp only [h, if_true]; rfl
  · simp only [h, if_false]; rfl

/-- The record joins those that one CQ has to write (R53). -/
theorem State.settle_cq (c : Nat) : (s.settle it fate v0 v1 detail berth frees).cq c
    = if c = (s.fated it fate (s.fateRec it fate v0 v1 detail berth frees)).cqOf it.sq
      then { s.cq c with pending := (s.cq c).pending ++ [s.fateRec it fate v0 v1 detail berth frees] } else s.cq c := by
  have hcqs : ∀ u : State, u.hq.cqs = s.hq.cqs → ∀ k r, (u.queueRec k r).cq c
      = if c = k then { s.cq c with pending := (s.cq c).pending ++ [r] } else s.cq c := fun u hu k r => by
    have hget : ∀ n, u.cq n = s.cq n := fun n => by unfold State.cq; rw [hu]
    rw [State.queueRec_cq, hget]
  have hfated := (s.fated_noted it fate (s.fateRec it fate v0 v1 detail berth frees)).cqs
  rw [State.settle_eq]
  by_cases h : it.type = 2
  · simp only [h, if_true, State.dropItem_cq]
    exact hcqs _ hfated _ _
  · simp only [h, if_false, State.dropItem_cq]
    exact hcqs _ hfated _ _

theorem State.settle_reg {Q x : Nat} (h1 : 0 < Q) (h2 : Q ≠ pERR) (h3 : Q < pFAB) (h4 : x = oSTATUS ∨ 0x30 ≤ x) (h5 : x < 0xF00) :
    (s.settle it fate v0 v1 detail berth frees).reg Q x = s.reg Q x := by
  rw [← (s.fated_noted it fate (s.fateRec it fate v0 v1 detail berth frees)).reg Q x h1 h2 h3 h4 h5]
  unfold State.reg
  rw [State.settle_regs]

theorem State.settle_item?_self : (s.settle it fate v0 v1 detail berth frees).item? it.j = none := by
  unfold State.item?
  rw [State.settle_items, List.find?_eq_none]
  simp

/-- A FATED item is settled: for an item of one of the 64 SQs (R50). -/
theorem State.settle_settled (hq : it.sq < 64) : Settled s (s.settle it fate v0 v1 detail berth frees) it fate detail := by
  refine ⟨State.settle_item?_self .., ?_, s.fateRec it fate v0 v1 detail berth frees, ?_, rfl, rfl, rfl, rfl, rfl, rfl, rfl⟩
  · have hj := (s.noteFate fate).journalState_journalWrite it.j (s.fateRec it fate v0 v1 detail berth frees) (st := 2) (by decide)
    rw [← hj]
    refine State.journalState_congr (fun o ho ho' => ?_) ((s.settle_ext ..).trans (s.fated_ext ..).symm) it.j
    unfold State.cfg State.bankB State.reg
    rw [State.settle_regs]
  · rw [State.settle_cq, (s.fated_noted it fate _).cqOf hq, if_pos rfl]

end

end Sys2Proof.Machine
end

section
/-! SUPPORT. Doorbells and the fetching of entries (R50 to R52, R75). -/

namespace Sys2Proof.Machine

open Sys2Proof

theorem State.always_live {s : State} (h : s.live = true) (f : State → State) : s.always f = .next (f s) := by
  unfold State.always
  rw [if_pos h]

/-- Outside registers and queues an error event changes nothing. -/
theorem State.err_frame (s : State) (P b : Nat) : s.err P b = { s with
    regs := (s.err P b).regs
    hq := { s.hq with messages := (s.err P b).hq.messages, irqWait := (s.err P b).hq.irqWait } } := by
  have hmask := s.err_mask { regs := true, hq := true } rfl rfl P b
  have hhq := s.err_hq P b
  generalize s.err P b = t at hmask hhq ⊢
  rw [← hhq]
  cases s
  cases t
  simpa [State.mask] using hmask

theorem State.sq_setSq (s : State) (n k : Nat) (q : Sq) : (s.setSq n q).sq k = if k = n then q else s.sq k := by
  unfold State.sq State.setSq
  exact SMap.get_put _ _ _ _ _

/-! ### Doorbells -/

/-- Settles O7. -/
theorem sqDoorbellMovesTail : Obligations.SqDoorbellMovesTail := by
  intro q p s hlive
  have hexec : exec (.sqDoorbell q p) s = .next (s.doorbellSq q p) := State.always_live hlive fun s => s.doorbellSq q p
  refine ⟨fun hon hp => ⟨_, hexec, ?_⟩, fun hbad => ⟨_, hexec, ?_⟩⟩
  · have h : s.doorbellSq q p = s.setSq q { s.sq q with tail := p } := by simp [State.doorbellSq, hon, hp]
    rw [h]
    exact ⟨by rw [State.sq_setSq, if_pos rfl], fun k hk => by rw [State.sq_setSq, if_neg hk], rfl⟩
  · have h : s.doorbellSq q p = s.err pHQ 0 := by
      unfold State.doorbellSq
      rcases hbad with hoff | hp
      · simp [hoff]
      · simp [hp]
    rw [h]
    exact ⟨State.bitOf_errStatus_err _ (by decide) (by decide) (by decide), s.err_frame pHQ 0⟩

/-- From `s` to `t` the journal entries `js` have been retired: the queues are as before. -/
structure Retired (s : State) (js : List (Option Nat)) (t : State) : Prop where
  cqs : t.hq.cqs = s.hq.cqs
  sqs : t.hq.sqs = s.hq.sqs
  base : t.journalBase = s.journalBase
  marked : ∀ j, some j ∈ js → t.journalState j = 3 ∧ t.hq.journalFull = false
  frame : ∀ a, (∀ j, some j ∈ js → ¬(s.journalAddr j ≤ a ∧ a < s.journalAddr j + 32)) → t.ext.get a = s.ext.get a

/-- A mark among the entries keeps those marked before it. -/
theorem Retired.mark {s t : State} {js : List (Option Nat)} (h : Retired s js t) (k : Nat) :
    Retired s (js ++ [some k]) { t.journalMark k 3 with hq := { (t.journalMark k 3).hq with journalFull := false } } := by
  have hnote := t.journalMark_noted k 3
  have hstate : ∀ j, State.journalState { t.journalMark k 3 with hq := { (t.journalMark k 3).hq with journalFull := false } } j
      = (t.journalMark k 3).journalState j := fun _ => rfl
  have haddr : t.journalAddr k = s.journalAddr k := by unfold State.journalAddr; rw [h.base]
  refine ⟨hnote.cqs.trans h.cqs, hnote.sqs.trans h.sqs, hnote.journalBase.trans h.base, fun j hj => ⟨?_, rfl⟩, fun a ha => ?_⟩
  · rw [hstate]
    by_cases hjk : j = k
    · rw [hjk, t.journalState_journalMark k (by decide)]
    · rw [t.journalState_journalMark_other 3 hjk]
      exact (h.marked j (by simpa [hjk] using hj)).1
  · have hk := ha k (by simp)
    rw [← haddr] at hk
    exact (t.get_extPutNat_outside _ 32 _ hk).trans (h.frame a fun j hj => ha j (by simp [hj]))

theorem State.retire_retired (s : State) (js : List (Option Nat)) : Retired s js (s.retire js) := by
  suffices h : ∀ (t : State) (done : List (Option Nat)), Retired s done t → Retired s (done ++ js) (t.retire js) from
    h s [] ⟨rfl, rfl, rfl, by simp, fun _ _ => rfl⟩
  induction js with
  | nil => simp [State.retire]
  | cons x js ih =>
    intro t done h
    rw [List.append_cons]
    cases x with
    | none => exact ih t _ ⟨h.cqs, h.sqs, h.base, fun j hj => h.marked j (by simpa using hj),
        fun a ha => h.frame a fun j hj => ha j (by simp [hj])⟩
    | some k => exact ih _ _ (h.mark k)

/-- Settles O8. -/
theorem cqDoorbellFreesRecords : Obligations.CqDoorbellFreesRecords := by
  intro c p s hlive
  have hexec : exec (.cqDoorbell c p) s = .next (s.doorbellCq c p) := State.always_live hlive fun s => s.doorbellCq c p
  refine ⟨fun hon hp => ⟨_, hexec, ?_⟩, fun hbad => ⟨_, hexec, ?_⟩⟩
  · intro passed
    have h : s.doorbellCq c p = (s.setCq c { s.cq c with
        head := p, written := (s.cq c).written.drop ((p + s.cqSize c - (s.cq c).head) % s.cqSize c) }).retire passed := by
      simp [State.doorbellCq, hon, hp, passed]
    rw [h]
    have hr := State.retire_retired (s.setCq c { s.cq c with
        head := p, written := (s.cq c).written.drop ((p + s.cqSize c - (s.cq c).head) % s.cqSize c) }) passed
    generalize State.retire _ passed = t at hr ⊢
    have hcq : ∀ k, t.cq k = _ := fun k => (show t.cq k = State.cq _ k by unfold State.cq; rw [hr.cqs]).trans (State.cq_setCq s c k _)
    have hself := hcq c
    rw [if_pos rfl] at hself
    exact ⟨by rw [hself], by rw [hself], by rw [hself], by rw [hself], fun k hk => by rw [hcq, if_neg hk], hr.sqs, hr.marked, hr.frame⟩
  · have h : s.doorbellCq c p = s.err pHQ 0 := by
      unfold State.doorbellCq
      rcases hbad with hoff | hp
      · simp [hoff]
      · simp [hp]
    rw [h]
    exact ⟨State.bitOf_errStatus_err _ (by decide) (by decide) (by decide), s.err_frame pHQ 0⟩

end Sys2Proof.Machine
end

section
/-! SUPPORT. The fetching of entries (R51, R52, R75). -/

namespace Sys2Proof

/-! ### Maps -/

/-- After a put, every entry listed under the key is the one that was put. -/
theorem SMap.mem_put {α : Type} [DecidableEq α] (d : Nat → α) (m : SMap α) (k : Nat) (v : α) {e : Nat × α}
    (he : e ∈ m.put d k v) (hk : e.1 = k) : e = (k, v) := by
  have hnot := SMap.not_mem_erase m k
  unfold SMap.put at he
  split at he
  · exact absurd hk (hnot e he)
  · rcases SMap.mem_insert _ _ _ _ he with h | h
    · exact h
    · exact absurd hk (hnot e h)

/-- What holds of the default and of every entry under a key holds of what the key reads as. -/
theorem SMap.get_of_forall {α : Type} (d : Nat → α) (m : SMap α) (k : Nat) (P : α → Prop) (hd : P (d k))
    (hm : ∀ e ∈ m, e.1 = k → P e.2) : P (m.get d k) := by
  induction m with
  | nil => exact hd
  | cons e m ih =>
    unfold SMap.get
    split
    · exact hm _ List.mem_cons_self ‹_›
    · exact ih fun e he => hm e (List.mem_cons_of_mem _ he)

end Sys2Proof

namespace Sys2Proof.Machine

open Sys2Proof

/-! ### Heads -/

/-- An SQ without the hold of item `j` (R63, R64). -/
def Sq.release (q : Sq) (j : Nat) : Sq := if q.holdBy = some j then { q with holdBy := none } else q

theorem Sq.release_head (q : Sq) (j : Nat) : (q.release j).head = q.head := by
  unfold Sq.release
  split <;> rfl

theorem State.dropItem_sqs (s : State) (j : Nat) : (s.dropItem j).hq.sqs
    = s.hq.sqs.filterMap fun e => if e.2.release j = {} then none else some (e.1, e.2.release j) := rfl

/-- An item that leaves releases its SQ, whose head stays. -/
theorem State.dropItem_head (s : State) (j n x : Nat) (hall : ∀ e ∈ s.hq.sqs, e.1 = n → e.2.head = x)
    (hx : (s.sq n).head = x) : ((s.dropItem j).sq n).head = x := by
  unfold State.sq at hx ⊢
  rw [State.dropItem_sqs]
  generalize s.hq.sqs = m at hall hx
  induction m with
  | nil => exact hx
  | cons e m ih =>
    obtain ⟨i, q⟩ := e
    have hrest : ∀ e ∈ m, e.1 = n → e.2.head = x := fun e he => hall e (List.mem_cons_of_mem _ he)
    have hread : (SMap.get (fun _ => {}) m n : Sq).head = x ∨ i = n ∧ q.head = x := by
      by_cases hi : i = n
      · exact .inr ⟨hi, hall _ List.mem_cons_self hi⟩
      · exact .inl (by simpa [SMap.get, hi] using hx)
    by_cases hd : q.release j = {}
    · rw [List.filterMap_cons_none (by simp only [hd, if_true])]
      refine ih hrest (hread.elim id fun ⟨_, hq⟩ => SMap.get_of_forall _ m n (fun q => q.head = x) ?_ hrest)
      rw [← hq, ← q.release_head j, hd]
    · rw [List.filterMap_cons_some (b := (i, q.release j)) (by simp only [hd, if_false]), SMap.get]
      split
      · exact (q.release_head j).trans (hall _ List.mem_cons_self ‹_›)
      · exact ih hrest (hread.elim id fun ⟨hi, _⟩ => absurd hi ‹_›)

theorem State.settle_sqs (s : State) (it : Item) (fate v0 v1 detail berth : Nat) (frees : Option Nat) :
    (s.settle it fate v0 v1 detail berth frees).hq.sqs = (s.dropItem it.j).hq.sqs := by
  rw [State.settle_eq, State.dropItem_sqs s, ← (s.fated_noted it fate (s.fateRec it fate v0 v1 detail berth frees)).sqs]
  by_cases h : it.type = 2
  · simp only [h, if_true]; rfl
  · simp only [h, if_false]; rfl

theorem State.settle_head (s : State) (it : Item) (fate v0 v1 detail berth : Nat) (frees : Option Nat) (n x : Nat)
    (hall : ∀ e ∈ s.hq.sqs, e.1 = n → e.2.head = x) (hx : (s.sq n).head = x) :
    ((s.settle it fate v0 v1 detail berth frees).sq n).head = x := by
  rw [State.sq, State.settle_sqs]
  exact s.dropItem_head it.j n x hall hx

/-- Only the 64 SQs take turns (R51). -/
theorem State.nextSq_lt {s : State} {n : Nat} (h : s.nextSq = some n) : n < 64 := by
  have hmem := List.mem_of_find?_eq_some h
  obtain ⟨k, -, rfl⟩ := List.mem_map.1 hmem
  exact Nat.mod_lt _ (by decide)

theorem State.sealHeader_noted (s : State) : Noted s s.sealHeader := s.extPutNat_noted _ _ _

theorem State.storeHeads_noted (s : State) : Noted s s.storeHeads := (s.extWrite_noted _ _ _).trans (State.sealHeader_noted _)

theorem State.journalOpen_noted (s : State) (j : Nat) (r : Rec) : Noted s (s.journalOpen j r) :=
  ((s.journalWrite_noted _ _ _).trans (State.extPutNat_noted _ _ _ _)).trans (State.sealHeader_noted _)

/-- The entry at the head of SQ `n` as an item, read or not (R51, R52). -/
def State.headItem (s : State) (n j : Nat) (entry : BitVec 512) : Item :=
  { j := j, sq := n, sqIndex := (s.sq n).head, order := s.hq.orders, entry := entry }

/-- The item stands among the accepted ones and its SQ has moved past it, before its fate, if it has one already. -/
structure Accepted (s : State) (n : Nat) (it : Item) (hold : Option Nat) (t : State) : Prop where
  items : t.hq.items = s.hq.items ++ [it]
  sqs : t.hq.sqs = SMap.put (fun _ => {}) s.hq.sqs n { s.sq n with head := ((s.sq n).head + 1) % s.sqSize n, holdBy := hold }
  cqs : t.hq.cqs = s.hq.cqs
  rrNext : t.hq.rrNext = (n + 1) % 64
  orders : t.hq.orders = s.hq.orders + 1
  cqOf : n < 64 → t.cqOf n = s.cqOf n
  hostMem : t.hostMem = s.hostMem

/-- The state in which SQ `n`'s head entry stands as the item `it`, its journal entry open with the record `r`. -/
def State.taken (s : State) (n : Nat) (it : Item) (hold : Option Nat) (r : Rec) : State :=
  let u := (s.journalOpen it.j r).setSq n { s.sq n with head := ((s.sq n).head + 1) % s.sqSize n, holdBy := hold }
  { u with hq := { u.hq with rrNext := (n + 1) % 64, orders := u.hq.orders + 1, items := u.hq.items ++ [it] } }.storeHeads

theorem State.taken_accepted (s : State) (n : Nat) (it : Item) (hold : Option Nat) (r : Rec) :
    Accepted s n it hold (s.taken n it hold r) := by
  have hopen := s.journalOpen_noted it.j r
  have hstore := State.storeHeads_noted
  have hq : (s.taken n it hold r).hq = _ := (hstore _).hq
  refine ⟨?_, ?_, ?_, ?_, ?_, fun hn => ((hstore _).cqOf hn).trans (hopen.cqOf hn), ?_⟩
  · rw [hq, ← hopen.items]; rfl
  · rw [hq, ← hopen.sqs]; rfl
  · rw [hq, ← hopen.cqs]; rfl
  · rw [hq]
  · rw [hq, show s.hq.orders = (s.journalOpen it.j r).hq.orders by rw [hopen.hq]]; rfl
  · have hhost : ∀ {a b : State}, b.mask { regs := true, ext := true, tags := true, hq := true, armed := true } = a.mask _ →
        b.hostMem = a.hostMem := fun h => State.hostMem_of_mask h rfl
    exact (hhost (State.storeHeads_mask _ rfl rfl rfl rfl rfl _)).trans (hhost (State.journalOpen_mask _ rfl rfl rfl rfl rfl s it.j r))

theorem Accepted.sq {s t : State} {n : Nat} {it : Item} {hold : Option Nat} (h : Accepted s n it hold t) (k : Nat) :
    t.sq k = if k = n then { s.sq n with head := ((s.sq n).head + 1) % s.sqSize n, holdBy := hold } else s.sq k := by
  unfold State.sq
  rw [h.sqs]
  exact SMap.get_put _ _ _ _ _

/-- The item is found under its journal index, which no other item bears. -/
theorem Accepted.item? {s t : State} {n : Nat} {it : Item} {hold : Option Nat} (h : Accepted s n it hold t)
    (hfree : s.item? it.j = none) : t.item? it.j = some it := by
  unfold State.item? at *
  rw [h.items, List.find?_append, hfree]
  simp

/-! ### The command -/

/-- The engine fetches, outside maintenance, while HQ is configured (R51, R80). -/
theorem fetch_acceptEntry {s : State} (hconf : s.hq.configured = true) (hmaint : s.hq.maint = false) {n j : Nat}
    (hn : s.nextSq = some n) (hj : s.journalNext = some j) : s.fetch = s.acceptEntry n j := by
  simp [State.fetch, hconf, hmaint, hn, hj]

/-- Without a journal entry to take, fetching stops (R75). -/
theorem fetch_stops {s : State} (hconf : s.hq.configured = true) (hmaint : s.hq.maint = false) {n : Nat}
    (hn : s.nextSq = some n) (hj : s.journalNext = none) (hfull : s.hq.journalFull = false) :
    s.fetch = { s with hq := { s.hq with journalFull := true } }.err pHQ 3 := by
  simp [State.fetch, hconf, hmaint, hn, hj, hfull]

theorem acceptEntry_readable {s : State} {n j : Nat}
    (hread : s.locUnreadable (bitOf (s.sqCtrl n) 30) (s.sqBase n + 64 * (s.sq n).head) 64 = false) {it : Item}
    (hit : it = s.headItem n j (BitVec.ofNat 512 (leNat (s.loc? (bitOf (s.sqCtrl n) 30) (s.sqBase n + 64 * (s.sq n).head) 64))))
    (hknown : typeKnown it = true) :
    ∃ r, s.acceptEntry n j = s.taken n it (if holds it then some j else none) r := by
  subst hit
  unfold State.acceptEntry
  simp only [hread, Bool.not_false, Bool.true_and, Bool.false_eq_true, if_false]
  rw [if_neg (by simpa [State.headItem] using hknown)]
  exact ⟨_, rfl⟩

theorem acceptEntry_unreadable {s : State} {n : Nat} (j : Nat)
    (hread : s.locUnreadable (bitOf (s.sqCtrl n) 30) (s.sqBase n + 64 * (s.sq n).head) 64 = true) :
    ∃ r, s.acceptEntry n j = ((s.taken n (s.headItem n j 0) none r).settle (s.headItem n j 0) fECC).err pHQ 2 := by
  unfold State.acceptEntry
  simp only [hread, Bool.not_true, Bool.false_and, Bool.false_eq_true, if_false, if_true]
  exact ⟨_, rfl⟩

/-- Settles O9. -/
theorem sqFetchAcceptsNextEntry : Obligations.SqFetchAcceptsNextEntry := by
  intro n s hup hconf hmaint hn
  have hexec : exec .sqFetch s = .next s.fetch := State.engine_up hup fun s => s.fetch
  refine ⟨?_, fun hj hfull => ⟨_, hexec, ?_⟩⟩
  · intro j hj hfree hread e it hknown
    obtain ⟨r, hr⟩ := acceptEntry_readable (it := it) hread rfl hknown
    refine ⟨_, hexec, ?_⟩
    rw [fetch_acceptEntry hconf hmaint hn hj, hr]
    have h := s.taken_accepted n it (if holds it then some j else none) r
    have hsq := h.sq n
    rw [if_pos rfl] at hsq
    exact ⟨h.item? hfree, by rw [hsq], by rw [hsq], by rw [hsq], h.rrNext, h.orders,
      fun k hk => by rw [h.sq, if_neg hk], h.cqs, h.hostMem⟩
  · rw [fetch_stops hconf hmaint hn hj hfull]
    have hbit := State.bitOf_errStatus_err { s with hq := { s.hq with journalFull := true } } (P := pHQ) (b := 3)
      (by decide) (by decide) (by decide)
    have hframe := State.err_frame { s with hq := { s.hq with journalFull := true } } pHQ 3
    generalize State.err _ pHQ 3 = t at hbit hframe ⊢
    rw [hframe]
    exact ⟨rfl, hframe ▸ hbit, rfl, rfl, rfl, rfl⟩

/-- Settles O10. -/
theorem unreadableEntryFailsWithCookieZero : Obligations.UnreadableEntryFailsWithCookieZero := by
  intro n j s hup hconf hmaint hn hj hfree hread
  have hlt := State.nextSq_lt hn
  obtain ⟨r, hr⟩ := acceptEntry_unreadable j hread
  have h := s.taken_accepted n (s.headItem n j 0) none r
  obtain ⟨hgone, -, rec, hrec, hfate, -, hcookie, hsq, hindex, -, -⟩ :=
    (s.taken n (s.headItem n j 0) none r).settle_settled (s.headItem n j 0) fECC 0 0 0 0 none hlt
  have hnote := State.err_noted ((s.taken n (s.headItem n j 0) none r).settle (s.headItem n j 0) fECC) pHQ 2
  have hexec : exec .sqFetch s = .next s.fetch := State.engine_up hup fun s => s.fetch
  refine ⟨_, rec, hexec, ?_⟩
  rw [fetch_acceptEntry hconf hmaint hn hj, hr]
  have hzero : (s.headItem n j 0).cookie = 0 := by simp [State.headItem, Item.cookie, Item.f, fld]
  have hcqOf : (s.taken n (s.headItem n j 0) none r).cqOf n = s.cqOf n := h.cqOf hlt
  have hcq : (s.taken n (s.headItem n j 0) none r).cq (s.cqOf n) = s.cq (s.cqOf n) := by
    unfold State.cq
    rw [h.cqs]
  refine ⟨?_, (hnote.item? j).trans hgone, State.bitOf_errStatus_err _ (by decide) (by decide) (by decide), ?_,
    hfate, hcookie.trans hzero, hsq, hindex⟩
  · rw [hnote.sq]
    refine State.settle_head _ _ _ _ _ _ _ _ n _ (fun e he hk => ?_) (by rw [h.sq, if_pos rfl])
    rw [h.sqs] at he
    rw [SMap.mem_put _ _ _ _ he hk]
  · rw [hnote.cq, ← hcq, ← hcqOf]
    exact hrec

end Sys2Proof.Machine
end

section
/-! SUPPORT. How the plain commands of the queues reach their items, and the work that is taken in (R57, R62, R63, R270). -/

namespace Sys2Proof

/-- A map whose entries are all changed by `g` reads as `g` of what it read. -/
theorem SMap.get_map {α : Type} (d : Nat → α) (g : α → α) (hg : ∀ k, g (d k) = d k) (m : SMap α) (k : Nat) :
    SMap.get d (m.map fun e => (e.1, g e.2)) k = g (m.get d k) := by
  induction m with
  | nil => exact (hg k).symm
  | cons e m ih =>
    simp only [List.map_cons, SMap.get]
    split
    · rfl
    · exact ih

end Sys2Proof

namespace Sys2Proof.Machine

open Sys2Proof

/-! ### Items -/

theorem State.item?_j {s : State} {j : Nat} {it : Item} (h : s.item? j = some it) : it.j = j := by
  simpa using List.find?_some h

/-- An item changed is found changed, if it keeps its index. -/
theorem State.item?_updItem {s : State} {j : Nat} {it : Item} (h : s.item? j = some it) (f : Item → Item)
    (hf : ∀ x, (f x).j = x.j) : (s.updItem j f).item? j = some (f it) := by
  unfold State.item? State.updItem at *
  rw [find?_mapIf _ _ _ fun x => by rw [hf], h, Option.map_some]

theorem State.item?_congr {s t : State} (h : t.hq.items = s.hq.items) (j : Nat) : t.item? j = s.item? j := by
  unfold State.item?
  rw [h]

/-- The accepted item that a command names is processed. -/
theorem process_of_stands {s : State} {j ty : Nat} {it : Item} (h : Stands s j ty .accepted it) (f : State → Item → State) :
    s.process j ty f = f s it := by
  obtain ⟨hit, hty, hst⟩ := h
  simp [State.process, hit, hty, hst]

theorem processInTurn_of_stands {s : State} {j ty : Nat} {it : Item} (h : Stands s j ty .accepted it) (hturn : s.inTurn it = true)
    (f : State → Item → State) : s.processInTurn j ty f = f s it := by
  rw [State.processInTurn, process_of_stands h, if_pos hturn]

theorem exec_submitBarge {s : State} {j : Nat} {it : Item} (hup : s.up = true) (h : Stands s j 1 .accepted it)
    (hturn : s.inTurn it = true) : exec (.submitBarge j) s = .next (s.submit it) :=
  (State.engine_up hup fun s => s.processInTurn j 1 State.submit).trans (by rw [processInTurn_of_stands h hturn])

theorem exec_admitRequest {s : State} {j : Nat} {it : Item} (hup : s.up = true) (h : Stands s j 2 .accepted it)
    (hturn : s.inTurn it = true) : exec (.admitRequest j) s = .next (s.admitReq it) :=
  (State.engine_up hup fun s => s.processInTurn j 2 State.admitReq).trans (by rw [processInTurn_of_stands h hturn])

theorem exec_cancelRequest {s : State} {j : Nat} {it : Item} (hup : s.up = true) (h : Stands s j 3 .accepted it) :
    exec (.cancelRequest j) s = .next (s.cancel it) :=
  (State.engine_up hup fun s => s.process j 3 State.cancel).trans (by rw [process_of_stands h])

theorem exec_configEpoch {s : State} {j : Nat} {it : Item} (hup : s.up = true) (h : Stands s j 4 .accepted it) :
    exec (.configEpoch j) s = .next (s.configEpoch it) :=
  (State.engine_up hup fun s => s.process j 4 State.configEpoch).trans (by rw [process_of_stands h])

/-! ### Barges, cancellations and configuration epochs -/

theorem State.mooring_updMooring (s : State) (m : Nat) (f : Mooring → Mooring) : (s.updMooring m f).mooring m = f (s.mooring m) := by
  unfold State.updMooring State.setMooring State.mooring
  exact SMap.get_put_self _ _ _ _

/-- A training barge that passes every check waits behind its mooring's others (R57, R60). -/
theorem submit_takes {s : State} {it : Item} (hsolo : it.f 76 76 = 0) (hhead : s.bargeHeaderOk it = true) (hmaint : s.hq.maint = false)
    (hmoor : s.moorOn (it.f 75 72) = true) (hrows : it.f 95 80 ≠ 0) (hread : s.bargeRowsBad it = false)
    (hok : s.bargeRowsOk it = true) (hbudget : it.f 95 80 ≤ s.tokenBudget (it.f 75 72)) :
    s.submit it = (s.updItem it.j fun x => { x with stage := .waiting }).updMooring (it.f 75 72) fun x =>
      { x with trainQueue := x.trainQueue ++ [it.j] } := by
  simp [State.submit, hsolo, hhead, hmaint, hmoor, hrows, hread, hok, hbudget]

/-- A queued request that no barge carries is ended at once (R272). -/
theorem cancel_queued {s : State} {it : Item} {n : Nat} (hplain : it.plain = true)
    (hzero : it.zeroAt [(511, 177), (127, 116), (95, 80)] = true) (hmaint : s.hq.maint = false)
    (htarget : s.cancelTarget it = some n) (hst : (s.berth n).st = .queued) (hbarge : (s.berth n).barge = none)
    (hfin : (s.berth n).finished = false) :
    s.cancel it = ((s.updBerth n fun x => { x with cancel := true }).endRequest n fCANCELLED).settle it fDONE := by
  simp [State.cancel, hplain, hzero, hmaint, htarget, hst, hbarge, hfin]

/-- The banks that a CONFIG_EPOCH lists, by page (R63). -/
def State.epochBanks (s : State) (it : Item) : List (Nat × Nat) :=
  (List.range (it.f 98 96)).map fun i => (epochPage it i, (s.bankWith (epochPage it i) (epochSeq it i)).getD 0)

/-- A CONFIG_EPOCH whose pages hold its SEQs waits for its banks (R63). -/
theorem configEpoch_waits {s : State} {it : Item} (hplain : it.plain = true) (hzero : it.f 127 99 = 0) (hpos : 1 ≤ it.f 98 96)
    (hle : it.f 98 96 ≤ 6) (hslots : ∀ i, i < it.f 98 96 → epochRsvd it i = 0 ∧ pageExists (epochPage it i) = true
      ∧ (s.bankWith (epochPage it i) (epochSeq it i)).isSome = true) :
    s.configEpoch it = s.updItem it.j fun x => { x with
      stage := .waiting, banks := (s.epochBanks it).filter s.bankWaits
      rejected := (s.epochBanks it).any fun p => s.hq.rejBanks.contains (2 * p.1 + p.2)
      awaits := s.epochBarges (s.epochBanks it) } := by
  have hrsvd : (List.range (it.f 98 96)).all (fun i => epochRsvd it i == 0) = true := by
    simpa using fun i hi => (hslots i hi).1
  have hbanks : ((List.range (it.f 98 96)).map fun i => (epochPage it i, s.bankWith (epochPage it i) (epochSeq it i))).all
      (fun p => pageExists p.1 && p.2.isSome) = true := by
    simpa using fun i hi => (hslots i hi).2
  unfold State.configEpoch
  simp only [hplain, hzero, hrsvd, hbanks, decide_eq_true hle, beq_self_eq_true, Bool.and_self, Bool.not_true, Bool.false_eq_true,
    if_false, if_neg (Nat.one_le_iff_ne_zero.1 hpos), List.map_map]
  rfl

/-! ### Admission -/

theorem State.berth_setBerth (s : State) (n : Nat) (x : Berth) : (s.setBerth n x).berth n = x := by
  unfold State.berth State.setBerth
  exact SMap.get_put_self _ _ _ _

/-- A berth with the time noted since which it is deferred, or with none (R289). -/
def State.deferNoted (s : State) (be : Berth) : Berth :=
  if s.deferred be then (if be.deferSince.isNone then { be with deferSince := some s.now } else be) else { be with deferSince := none }

theorem State.noteDefers_berths (s : State) : s.noteDefers.sv.berths = s.sv.berths.map fun e => (e.1, s.deferNoted e.2) := rfl

theorem State.berth_noteDefers (s : State) (n : Nat) : s.noteDefers.berth n = s.deferNoted (s.berth n) := by
  unfold State.berth
  rw [State.noteDefers_berths]
  exact SMap.get_map _ s.deferNoted (fun _ => rfl) _ _

/-- Noting a deferral changes nothing else of a berth. -/
theorem State.deferNoted_eq (s : State) (be : Berth) : ∃ d, s.deferNoted be = { be with deferSince := d } := by
  unfold State.deferNoted
  split
  · split
    · exact ⟨_, rfl⟩
    · exact ⟨_, rfl⟩
  · exact ⟨_, rfl⟩

/-- A request without a fallback has nothing to move to (R286). -/
theorem monitor_of_none {s : State} {n : Nat} (h : (s.berth n).fallback = none) : s.monitor n = s := by
  unfold State.monitor
  simp only [h]

/-- The state whose berths `noteDefers` and `monitor` look at: the request has its berth, its item is admitted, its journal entry
names the berth (R270 steps 7 and 8). -/
structure Seated (s : State) (it : Item) (d n : Nat) (pin : Option Nat) (t : State) : Prop where
  berth : t.berth n = { berthOf it d s.now with pin := pin }
  items : t.hq.items = (s.updItem it.j fun x => { x with stage := .admitted }).hq.items
  cqs : t.hq.cqs = s.hq.cqs
  ext : ∀ a, ¬(s.journalAddr it.j ≤ a ∧ a < s.journalAddr it.j + 32) → t.ext.get a = s.ext.get a

/-- What a change to other parts of the state leaves. -/
theorem Seated.of_same {s t u : State} {it : Item} {d n : Nat} {pin : Option Nat} (h : Seated s it d n pin t)
    (hb : u.sv.berths = t.sv.berths) (hi : u.hq.items = t.hq.items) (hc : u.hq.cqs = t.hq.cqs) (he : u.ext = t.ext) :
    Seated s it d n pin u where
  berth := by rw [← h.berth]; unfold State.berth; rw [hb]
  items := hi.trans h.items
  cqs := hc.trans h.cqs
  ext := by rw [he]; exact h.ext

theorem Seated.count {s t : State} {it : Item} {d n : Nat} {pin : Option Nat} (h : Seated s it d n pin t) (P o k : Nat) :
    Seated s it d n pin (t.count P o k) := by
  unfold State.count
  split
  · exact h
  · exact h.of_same rfl rfl rfl rfl

theorem Seated.takePin {s t : State} {it : Item} {d n : Nat} {pin : Option Nat} (h : Seated s it d n pin t) (m a v : Nat) :
    Seated s it d n pin (t.takePin m a v) := by
  unfold State.takePin
  split
  · exact h.of_same rfl rfl rfl rfl
  · exact h.of_same rfl rfl rfl rfl

theorem Seated.acctCount {s t : State} {it : Item} {d n : Nat} {pin : Option Nat} (h : Seated s it d n pin t) (tenant : Nat)
    (f : Account → Account) : Seated s it d n pin (t.acctCount tenant f) :=
  h.of_same rfl rfl rfl rfl

/-- The berth is taken and the journal entry names it (R270 step 7). -/
def State.seat (s : State) (it : Item) (be : Berth) (n : Nat) : State :=
  let u := (s.setBerth n be).updItem it.j fun x => { x with stage := .admitted }
  u.extPutNat (u.journalAddr it.j) 32 (setFld (u.journalEntry it.j) 127 112 n)

/-- What is counted of an admission, and its pin (R178, R270 step 8, R290, R294). -/
def State.countAdmitted (s : State) (it : Item) (be : Berth) (n : Nat) (pin : Option Nat) : State :=
  let s := { s with hq := { s.hq with dup := mapIf s.hq.dup (fun k => k.j == it.j && k.fate.isNone) fun k => { k with berth := n } } }
  let s := (s.count pLKP 0xF84).acctCount be.tenant fun a => { a with admitted := satAdd 32 a.admitted 1 }
  let s := if s.acctOf be.tenant = 0 then s.count pTOLL 0xF0C else s
  match pin with
  | some v => s.takePin be.mooring be.adapter v
  | none => s

theorem takeBerth_eq (s : State) (it : Item) (d n : Nat) (pin : Option Nat) : s.takeBerth it d n pin =
    ((s.seat it { berthOf it d s.now with pin := pin } n).countAdmitted it (berthOf it d s.now) n pin).noteDefers.monitor n := by
  unfold State.takeBerth State.countAdmitted State.seat
  cases pin <;> rfl

theorem seat_seated (s : State) (it : Item) (d n : Nat) (pin : Option Nat) :
    Seated s it d n pin (s.seat it { berthOf it d s.now with pin := pin } n) := by
  unfold State.seat
  refine ⟨?_, (State.extPutNat_noted _ _ _ _).items, (State.extPutNat_noted _ _ _ _).cqs,
    fun a ha => State.get_extPutNat_outside _ _ _ _ ha⟩
  unfold State.berth
  rw [State.sv_of_mask (M := { regs := true, ext := true, tags := true, hq := true, armed := true })
    (State.extPutNat_mask _ rfl rfl rfl rfl rfl _ _ _ _) rfl]
  exact State.berth_setBerth s n _

theorem Seated.ite {s t u : State} {it : Item} {d n : Nat} {pin : Option Nat} {c : Prop} [Decidable c]
    (ht : Seated s it d n pin t) (hu : Seated s it d n pin u) : Seated s it d n pin (if c then t else u) := by
  split
  · exact ht
  · exact hu

/-- The window's key learns the berth. -/
theorem Seated.keyBerth {s t : State} {it : Item} {d n : Nat} {pin : Option Nat} (h : Seated s it d n pin t) (l : List DupKey) :
    Seated s it d n pin { t with hq := { t.hq with dup := l } } :=
  h.of_same rfl rfl rfl rfl

theorem Seated.countAdmitted {s t : State} {it : Item} {d n : Nat} {pin : Option Nat} (h : Seated s it d n pin t) (be : Berth) :
    Seated s it d n pin (t.countAdmitted it be n pin) := by
  unfold State.countAdmitted
  have hcounted := ((h.keyBerth (mapIf t.hq.dup (fun k => k.j == it.j && k.fate.isNone) fun k => { k with berth := n })).count
    pLKP 0xF84 1).acctCount be.tenant fun a => { a with admitted := satAdd 32 a.admitted 1 }
  cases pin with
  | none => exact .ite (hcounted.count pTOLL 0xF0C 1) hcounted
  | some v => exact Seated.takePin (.ite (hcounted.count pTOLL 0xF0C 1) hcounted) be.mooring be.adapter v

/-- A request without a fallback that takes a berth is seated, its deferral noted (R270). -/
theorem takeBerth_seated (s : State) {it : Item} (d n : Nat) (pin : Option Nat) (hfall : it.f 92 92 = 0) :
    ∃ t, Seated s it d n pin t ∧ s.takeBerth it d n pin = t.noteDefers := by
  have h := (seat_seated s it d n pin).countAdmitted (berthOf it d s.now)
  refine ⟨_, h, ?_⟩
  rw [takeBerth_eq, monitor_of_none]
  obtain ⟨x, hx⟩ := State.deferNoted_eq
    ((s.seat it { berthOf it d s.now with pin := pin } n).countAdmitted it (berthOf it d s.now) n pin)
    { berthOf it d s.now with pin := pin }
  rw [State.berth_noteDefers, h.berth, hx]
  simp [berthOf, hfall]

/-- The key under which a request enters the duplicate window (R73). -/
def Item.dupKey (it : Item) : DupKey :=
  { tenant := it.f 83 64, client := it.f 143 96, attempt := it.f 151 144, j := it.j, sq := it.sq, sqIndex := it.sqIndex }

/-- A request that passes every check takes the lowest free berth (R270). -/
theorem admitRun_takes {s : State} {it : Item} {n : Nat} {pin : Option Nat} (hmaint : s.maintComing = false)
    (hread : s.locBad (it.f 272 272 == 1) (it.f 255 192) 128 = false)
    (hpop : it.f 272 272 = 1 → it.f 255 192 + 128 ≤ s.populated) (hok : reqOk (s.reqDesc it) = true)
    (hfits : reqFits (s.reqDesc it) = true) (hmax : reqField (s.reqDesc it) 0x20 4 ≠ 0) (hmoor : s.moorOn (it.f 87 84) = true)
    (hfall : it.f 92 92 = 0) (hpin : s.pinCheck (it.f 87 84) (it.f 171 152) (it.f 83 64) = .inr pin)
    (hacct : (s.account (s.acctOf (it.f 83 64))).isOverdrawn = false ∨ (s.account (s.acctOf (it.f 83 64))).policy ≠ 2)
    (hn : n = lowestFree ((s.sv.berths.filter fun x => x.2.st != .free).map (·.1))) (hlt : n < 65536) :
    s.admitRun it = s.takeBerth it (s.reqDesc it) n pin := by
  have hunread : s.locUnreadable (it.f 272 272 == 1) (it.f 255 192) 128 = false := by
    unfold State.locUnreadable
    rw [hread, Bool.false_or, Bool.and_eq_false_iff]
    by_cases hext : it.f 272 272 = 1
    · exact .inr (decide_eq_false (Nat.not_lt.2 (hpop hext)))
    · exact .inl (by simp [hext])
  have hpay : ((s.account (s.acctOf (it.f 83 64))).isOverdrawn && decide ((s.account (s.acctOf (it.f 83 64))).policy = 2)) = false := by
    rcases hacct with h | h <;> simp [h]
  have hfew : ¬65536 ≤ lowestFree ((s.sv.berths.filter fun x => x.2.st != .free).map (·.1)) := by omega
  unfold State.admitRun
  simp only [hmaint, hunread, hok, hfits, hmax, hmoor, hfall, hpin, hpay, Bool.false_eq_true, if_false, Bool.not_true,
    Bool.false_or, zero_ne_one, decide_false, Bool.false_and, if_neg hfew]
  rw [hn]

/-- A request whose key is new to the duplicate window goes on with it there (R73, R270 steps 1 and 2). -/
theorem admitReq_new {s : State} {it : Item} (hplain : it.plain = true) (hzero : it.zeroAt [(511, 273), (191, 172), (95, 94)] = true)
    (halign : it.f 255 192 % 64 = 0) (hlen : it.f 271 256 = 128) (hnew : s.dupMatch? (it.f 83 64) (it.f 143 96) = none) :
    s.admitReq it = (s.dupEnter it.dupKey).admitRun it := by
  unfold State.admitReq
  simp only [hplain, hzero, halign, hlen, hnew]
  rfl

/-- Settles O13. -/
theorem workIsAccepted : Obligations.WorkIsAccepted := by
  intro j s it hup
  refine ⟨?_, ?_, ?_, ?_⟩
  · intro hst hturn hsolo hhead hmaint hmoor hrows hread hok hbudget
    obtain rfl := State.item?_j hst.1
    refine ⟨_, exec_submitBarge hup hst hturn, ?_⟩
    rw [submit_takes hsolo hhead hmaint hmoor hrows hread hok hbudget]
    exact ⟨(State.item?_congr rfl _).trans (State.item?_updItem hst.1 _ fun _ => rfl), by rw [State.mooring_updMooring]; rfl, rfl⟩
  · intro d n pin hst hturn hplain hzero halign hlen hnew hmaint hread hpop hd hok hfits hmax hmoor hfall hpin hacct hn hlt
    obtain rfl := State.item?_j hst.1
    subst hd
    refine ⟨_, exec_admitRequest hup hst hturn, ?_⟩
    obtain ⟨t, ht, htake⟩ := takeBerth_seated (s.dupEnter it.dupKey) (s.reqDesc it) n pin hfall
    rw [admitReq_new hplain hzero halign hlen hnew, admitRun_takes (s := s.dupEnter it.dupKey) hmaint hread hpop hok hfits hmax hmoor
      hfall hpin hacct hn hlt]
    rw [show (s.dupEnter it.dupKey).takeBerth it ((s.dupEnter it.dupKey).reqDesc it) n pin = t.noteDefers from htake]
    obtain ⟨x, hx⟩ := t.deferNoted_eq { berthOf it (s.reqDesc it) s.now with pin := pin }
    have hberth : t.noteDefers.berth n = { berthOf it (s.reqDesc it) s.now with pin := pin, deferSince := x } := by
      rw [State.berth_noteDefers, ht.berth]
      exact hx
    rw [hberth]
    exact ⟨rfl, rfl, rfl, rfl, rfl, rfl, rfl, rfl, rfl, rfl,
      (State.item?_congr ht.items _).trans (State.item?_updItem hst.1 _ fun _ => rfl), ht.cqs, ht.ext⟩
  · intro n hst hplain hzero hmaint htarget hq hbarge hfin
    exact ⟨_, exec_cancelRequest hup hst, cancel_queued hplain hzero hmaint htarget hq hbarge hfin⟩
  · intro hst hplain hzero hpos hle hslots
    obtain rfl := State.item?_j hst.1
    have hexec := exec_configEpoch hup hst
    rw [configEpoch_waits hplain hzero hpos hle hslots] at hexec
    exact ⟨_, _, hexec, State.item?_updItem hst.1 _ fun _ => rfl, rfl, rfl, rfl⟩

end Sys2Proof.Machine
end

section
/-! SUPPORT. Refutations. The statements speak of an SQ or a CQ of any number, and the registers of the 64 queues that exist (R50,
R81) end at number 63: beyond, the address at which `sqCtrl` and `cqCtrl` look for SQn_CTRL and CQn_CTRL lies in other pages. For
SQ 3394 it is MEM.ERR_STATUS (0x5108 + 12 · 3394 = 0xF020), for CQ 3331 MEM.ERR_COUNT (0x5408 + 12 · 3331 = 0xF02C), and these
change under the command when a sector that it writes is poisoned (R414, R416). -/

namespace Sys2Proof.Machine

open Sys2Proof

/-- An engine that runs, with an error armed for the next write of memory port `p` (R414). -/
def strayState (p : Nat) : State := { rst := { active := false, sources := [], step := 5 }, armed := { sector := [(p, 0)] } }

/-- An item of SQ 3394, under journal index 0: MEM.ERR_STATUS, zero at first, gives its records to CQ 0, and once the write of its
journal entry has set bit 1 there, to CQ 2. -/
def strayItem (st : Stage) (entry : BitVec 512) : Item := { j := 0, sq := 3394, sqIndex := 0, order := 0, entry := entry, stage := st }

/-- The engine with that item, whose journal entry at 4096 lies in a sector of port 8. -/
def strayItemState (st : Stage) (entry : BitVec 512) : State := { strayState 8 with hq := { items := [strayItem st entry] } }

/-- The command leaves CQ 0 no record to write. -/
def leavesCq0Empty (c : Instr) (s : State) : Bool := match exec c s with
  | .next t => (t.cq 0).pending.isEmpty
  | _ => false

/-- The item's record has not gone to the CQ that its SQ had before the command. -/
theorem not_settled_of_leavesCq0Empty {c : Instr} {s t : State} {it : Item} (fate detail : Nat) (hempty : leavesCq0Empty c s = true)
    (hcq : s.cqOf it.sq = 0) (hexec : exec c s = .next t) : ¬ Settled s t it fate detail := by
  rintro ⟨-, -, r, hrec, -⟩
  unfold leavesCq0Empty at hempty
  rw [hexec] at hempty
  rw [hcq, List.isEmpty_iff.1 hempty] at hrec
  exact absurd hrec.symm (by simp)

/-- Refutes O11: the NOP of an SQ beyond the 64 is settled, but the write of its journal entry changes the register that stands for
its SQn_CTRL, and its record goes to another CQ. -/
theorem not_plainItemsReceiveTheirFate : ¬ Obligations.PlainItemsReceiveTheirFate := by
  intro h
  obtain ⟨hnop, -⟩ := h 0 (strayItemState .accepted 0) (strayItem .accepted 0) (by decide)
  obtain ⟨t, hexec, hsettled⟩ := hnop ⟨by decide +kernel, by decide +kernel, rfl⟩ (by decide +kernel)
  exact not_settled_of_leavesCq0Empty _ _ (by decide +kernel) (by decide +kernel) hexec hsettled

/-- Refutes O12: the same item with an rsvd bit set. -/
theorem not_malformedEntriesFailWithFailedCfg : ¬ Obligations.MalformedEntriesFailWithFailedCfg := by
  intro h
  obtain ⟨hnop, -⟩ := h 0 (strayItemState .accepted (2 ^ 9)) (strayItem .accepted (2 ^ 9)) (by decide) (by decide +kernel)
  obtain ⟨t, hexec, hsettled⟩ := hnop ⟨by decide +kernel, by decide +kernel, rfl⟩
  exact not_settled_of_leavesCq0Empty _ _ (by decide +kernel) (by decide +kernel) hexec hsettled

/-! ### Tables and flips -/

/-- 128 bytes of a directory slot in state `st`: one row, its shard map and member list at 0x400, where zeros name engine 0 as the
owner and the only member. -/
def oneRowSlot (st : Nat) : Nat :=
  let b := 1 + 2 ^ 96 + 0x400 * 2 ^ 128 + 2 ^ 192 + 0x400 * 2 ^ 256 + st * 2 ^ 896
  b + (crc32c (leBytes 124 b)).toNat * 2 ^ 992

/-- The entry of a DELETE of table 0. -/
def deleteEntry : BitVec 512 := BitVec.ofNat 512 (5 + 3 * 2 ^ 64 + 2 ^ 96)

/-- Table 0 has an ACTIVE and a STAGED entry, and the stray item deletes it. -/
def strayDeleteState : State :=
  { strayItemState .accepted deleteEntry with
    ext := Mem.write (Mem.write [] 0 (leBytes 128 (oneRowSlot 1))) 128 (leBytes 128 (oneRowSlot 2)) }

set_option maxRecDepth 20000 in -- the CRC-32C of 124 bytes is evaluated (R193)
/-- Refutes O16: the DELETE of an SQ beyond the 64 frees the STAGED entry, but its record goes to another CQ than its SQ had. -/
theorem not_createReplaceDeleteAtAcceptance : ¬ Obligations.CreateReplaceDeleteAtAcceptance := by
  intro h
  obtain ⟨-, -, hdelete⟩ := h 0 strayDeleteState (strayItem .accepted deleteEntry) (by decide)
    ⟨by decide +kernel, by decide +kernel, rfl⟩ (by decide +kernel) (by decide +kernel) (by decide +kernel) (by decide +kernel)
  obtain ⟨hstaged, -⟩ := hdelete { id := 0, slot := 0, raw := oneRowSlot 1 } (by decide +kernel) (by decide +kernel) (by decide +kernel)
    (by decide +kernel) (by decide +kernel)
  obtain ⟨t, hexec, -, hsettled⟩ := hstaged 1 (by decide +kernel)
  exact not_settled_of_leavesCq0Empty _ _ (by decide +kernel) (by decide +kernel) hexec hsettled

/-- The stray item is the flip that mooring 0 is rewriting, of no descriptor. -/
def strayFlipState : State :=
  { strayItemState .waiting 6 with sv := { moorings := [(0, { flips := [0], rewriting := true })] } }

/-- Refutes O19: the flip of an SQ beyond the 64 is complete, but its record goes to another CQ than its SQ had. -/
theorem not_adapterFlipTakesEffectWhollyOrNotAtAll : ¬ Obligations.AdapterFlipTakesEffectWhollyOrNotAtAll := by
  intro h
  obtain ⟨-, -, hcomplete⟩ := h 0 strayFlipState (strayItem .waiting 6) (by decide)
  obtain ⟨t, hexec, hsettled, -⟩ := hcomplete (by decide +kernel) (by decide +kernel) (by decide +kernel) (by decide +kernel)
  exact not_settled_of_leavesCq0Empty _ _ (by decide +kernel) (by decide +kernel) hexec hsettled

/-! ### Records -/

/-- CQ 3331, its record to be written into slot 0: MEM.ERR_COUNT reads as an enabled CQ of one slot, and one error later as one of two;
the head is set so that the CQ is not full. -/
def strayCqState : State :=
  { strayState 0 with
    regs := [(0xF02C, 0xC0FFFFFF)]
    hq := { cqs := [(3331, { head := 5, pending := [{ kind := .entry }] })] } }

/-- Refutes O14: the write of the record to a CQ beyond the 64 counts an error in the register that stands for its CQn_CTRL, so that
the tail advances modulo another size. -/
theorem not_cqRecordWriteFillsTailSlot : ¬ Obligations.CqRecordWriteFillsTailSlot := by
  intro h
  obtain ⟨hroom, -⟩ := h 3331 strayCqState { kind := .entry } [] (by decide) (by decide +kernel) (by decide +kernel)
  obtain ⟨t, hexec, htail, -⟩ := hroom (by decide +kernel)
  have hone : (match exec (.cqRecordWrite 3331) strayCqState with | .next t => (t.cq 3331).tail | _ => 0) = 1 := by decide +kernel
  have hzero : ((strayCqState.cq 3331).tail + 1) % strayCqState.cqSize 3331 = 0 := by decide +kernel
  rw [hexec] at hone
  rw [hzero] at htail
  exact absurd (hone.symm.trans htail) (by decide)

end Sys2Proof.Machine
end

section
/-! SUPPORT. Coalesced messages and the entry into maintenance (R54, R80, R300, R429). -/

namespace Sys2Proof.Machine

open Sys2Proof

/-! ### Coalescing -/

/-- The host writes of CQ `c`'s records that are not acknowledged (R431). -/
def State.recordTags (s : State) (c : Nat) : List Nat := (s.hq.dmaWrites.filter fun w => w.owner == .record c).map (·.tag)

theorem signalCq_eq (s : State) (c : Nat) : s.signalCq c =
    (s.setCq c { s.cq c with unsignalled := 0, firstUnsignalled := none }).raise (fld (s.cqCtrl c) 23 16) (s.recordTags c) := rfl

theorem recordTags_eq_nil {s : State} {c : Nat} (h : ∀ w, w ∈ s.hq.dmaWrites → w.owner ≠ .record c) : s.recordTags c = [] := by
  rw [State.recordTags, List.filter_eq_nil_iff.2 fun w hw => by simpa using h w hw]
  rfl

/-- Nothing is awaited and the vector is not held: the message is offered at once (R429). -/
theorem raise_offers {s : State} {v : Nat} (hheld : s.irqHeld v = false) :
    (s.raise v []).hq.messages = s.hq.messages ++ [(v, s.vec v 4 ++ s.vec v 0, s.vec v 8)] := by
  have hnow : s.raise v [] = s.sendIrq v := by simp [State.raise, State.raiseNow, hheld]
  rw [hnow, State.sendIrq, State.count_hq]

theorem State.raise_cq (s : State) (v : Nat) (tags : List Nat) (c : Nat) : (s.raise v tags).cq c = s.cq c := by
  unfold State.cq
  rw [s.raise_hq v tags]

/-! ### Maintenance -/

/-- A region whose pieces are absent (R300). -/
def Region.bare (x : Region) : Region := { x with pieces := [], moored := [] }

theorem dropPieces_regions (s : State) : s.dropPieces.regions
    = s.regions.filterMap fun e => if e.2.bare = {} then none else some (e.1, e.2.bare) := rfl

/-- No region keeps a piece (R300). -/
theorem dropPieces_bare (s : State) (r : Nat) : (s.dropPieces.region r).pieces = [] ∧ (s.dropPieces.region r).moored = [] := by
  unfold State.region
  rw [dropPieces_regions]
  refine SMap.get_of_forall _ _ r (fun x : Region => x.pieces = [] ∧ x.moored = []) ⟨rfl, rfl⟩ fun e he _ => ?_
  obtain ⟨x, -, hx⟩ := List.mem_filterMap.1 he
  split at hx
  · exact absurd hx (by simp)
  · rw [← Option.some.inj hx]
    exact ⟨rfl, rfl⟩

/-- Settles O15. -/
theorem coalescingAndMaintenance : Obligations.CoalescingAndMaintenance := by
  refine ⟨fun c s hup hexp => ?_, fun s hup hmay => ?_⟩
  · have hexec : exec (.coalTimeExpiry c) s = .next (s.signalCq c) :=
      (State.engine_up hup fun s => if s.coalExpired c then s.signalCq c else s).trans (by rw [if_pos hexp])
    refine ⟨_, hexec, ?_⟩
    rw [signalCq_eq]
    have hcq := fun k => (State.raise_cq (s.setCq c { s.cq c with unsignalled := 0, firstUnsignalled := none })
      (fld (s.cqCtrl c) 23 16) (s.recordTags c) k).trans (s.cq_setCq c k _)
    rw [hcq c, if_pos rfl]
    refine ⟨rfl, rfl, rfl, rfl, fun k hk => by rw [hcq, if_neg hk], fun hnone hheld => ?_⟩
    rw [recordTags_eq_nil hnone]
    exact raise_offers (s := s.setCq c _) hheld
  · have hexec : exec .maintEntry s = .next s.enterMaint :=
      (State.engine_up hup fun s => if s.maintMayEnter then s.enterMaint else s).trans (by rw [if_pos hmay])
    exact ⟨_, hexec, rfl, dropPieces_bare s, rfl⟩

end Sys2Proof.Machine
end

section
/-! SUPPORT. The bell leaves the CQ of the lock-keeper as it is configured: what a barge's collectives do when it ends (R135, R361,
R363) sends messages and writes external memory. -/

namespace Sys2Proof.Machine

open Sys2Proof

theorem State.lkCq_congr {s t : State}
    (h : ∀ x, x = oSTATUS ∨ 0x30 ≤ x → x < 0xF00 → t.reg pHQ x = s.reg pHQ x) : t.lkCq = s.lkCq := by
  unfold State.lkCq State.cfg State.bankB
  rw [h oSTATUS (.inl rfl) (by decide), h 0x714 (.inr (by decide)) (by decide), h _ (.inr (by decide)) (by decide)]

theorem State.lkCq_of_regs {s t : State} (h : t.regs = s.regs) : t.lkCq = s.lkCq :=
  State.lkCq_congr fun x _ _ => by unfold State.reg; rw [h]

theorem State.lkCq_foldl {α : Type} {f : State → α → State} (h : ∀ s x, (f s x).lkCq = s.lkCq) (l : List α) (s : State) :
    (l.foldl f s).lkCq = s.lkCq := by
  induction l generalizing s with
  | nil => rfl
  | cons x l ih => rw [List.foldl_cons, ih, h]

theorem State.lkCq_ite {s a b : State} {c : Prop} [Decidable c] (ha : a.lkCq = s.lkCq) (hb : b.lkCq = s.lkCq) :
    (if c then a else b).lkCq = s.lkCq := by
  split
  · exact ha
  · exact hb

/-! ### Messages of the bell -/

theorem State.send_lkCq (s : State) (p : Packet) : (s.send p).lkCq = s.lkCq :=
  State.lkCq_congr fun x _ hx => s.send_reg p (by decide) (by decide) (by decide) (by omega)

theorem State.noteSent_lkCq (s : State) (dest : Nat) (m : BellMsg) : (s.noteSent dest m).lkCq = s.lkCq := by
  unfold State.noteSent
  exact State.lkCq_ite rfl rfl

theorem State.noteRecv_lkCq (s : State) (src : Nat) (m : BellMsg) : (s.noteRecv src m).lkCq = s.lkCq := by
  unfold State.noteRecv
  exact State.lkCq_ite rfl rfl

theorem State.sendBell_lkCq (s : State) (dest : Nat) (m : BellMsg) : (s.sendBell dest m).lkCq = s.lkCq :=
  (State.send_lkCq _ _).trans (s.noteSent_lkCq dest m)

theorem State.sendUp_lkCq (s : State) (dest : Nat) (m : BellMsg) : (s.sendUp dest m).lkCq = s.lkCq := s.sendBell_lkCq dest m

theorem State.spreadAt_lkCq (s : State) (t : Nat) (m : BellMsg) : (s.spreadAt t m).lkCq = s.lkCq :=
  State.lkCq_foldl (fun s c => State.lkCq_ite rfl (s.sendBell_lkCq c m)) _ _

theorem State.bellSpread_lkCq (t : Nat) (s : State) (m : BellMsg) : (State.bellSpread t s m).lkCq = s.lkCq := by
  induction t generalizing s with
  | zero => exact s.spreadAt_lkCq 0 m
  | succ t ih => exact State.lkCq_ite ((ih _).trans (s.spreadAt_lkCq (t + 1) m)) (s.spreadAt_lkCq (t + 1) m)

theorem State.resultOut_lkCq (s : State) (m : BellMsg) : (s.resultOut m).lkCq = s.lkCq := State.bellSpread_lkCq _ (s.keepResult m) m

theorem State.judge_lkCq (s : State) (m : BellMsg) : (s.judge m).2.lkCq = s.lkCq := by
  unfold State.judge
  split
  · split <;> rfl
  · split
    · rfl
    · split <;> rfl

theorem State.keepArrived_lkCq (s : State) (e : Tier) : (s.keepArrived e).lkCq = s.lkCq := by
  unfold State.keepArrived
  exact State.lkCq_ite rfl rfl

/-- The state in which a complete tier passes its message on. -/
theorem State.tierPassed_lkCq (s : State) (t src : Nat) (m : BellMsg) (e : Tier) :
    (let u := ((s.noteRecv src m).putTier t m { e with passed := true }).keepArrived e
      if e.kind = bSCALAR then { u with picks := u.picks + 2 * e.values.length } else u).lkCq = s.lkCq := by
  have hkeep := (State.keepArrived_lkCq ((s.noteRecv src m).putTier t m { e with passed := true }) e).trans (s.noteRecv_lkCq src m)
  exact State.lkCq_ite hkeep hkeep

/-- By the tiers that are left above: a contribution is kept, passed on, or answered (R363). -/
theorem State.bellUp_lkCq (fuel : Nat) (s : State) (t src : Nat) (m : BellMsg) : (State.bellUp fuel s t src m).lkCq = s.lkCq := by
  induction fuel generalizing s t src m with
  | zero => rfl
  | succ fuel ih =>
    unfold State.bellUp
    simp only []
    generalize (if (decide (m.kind = bABANDON) && m.key.barrier) = true then { m with kind := bBARRIER, count := 1 } else m) = m
    split
    · exact s.send_lkCq _
    · refine State.lkCq_ite ?_ (State.lkCq_ite rfl (State.lkCq_ite (s.noteRecv_lkCq src m) ?_))
      · exact State.lkCq_ite (State.lkCq_ite (s.resultOut_lkCq _) ((State.sendBell_lkCq _ _ _).trans (s.resultOut_lkCq _)))
          (State.lkCq_ite (ih _ _ _ _) (State.lkCq_ite rfl (s.sendUp_lkCq _ _)))
      · have hpassed := s.tierPassed_lkCq t src m ((s.tierOf t m).add src m)
        exact State.lkCq_ite (((State.resultOut_lkCq _ _).trans (State.judge_lkCq _ _)).trans hpassed)
          (State.lkCq_ite ((ih _ _ _ _).trans hpassed) ((State.sendUp_lkCq _ _ _).trans hpassed))

theorem State.contribute_lkCq (s : State) (m : BellMsg) : (s.contribute m).lkCq = s.lkCq :=
  State.lkCq_ite (State.bellUp_lkCq _ _ _ _ _) (s.sendUp_lkCq _ _)

/-! ### The end of a barge's collectives -/

theorem State.abandon_lkCq (s : State) (k : BellKey) (seq attempt : Nat) : (s.abandon k seq attempt).lkCq = s.lkCq := by
  unfold State.abandon
  exact State.lkCq_ite rfl (State.lkCq_ite rfl (s.contribute_lkCq _))

theorem State.poisonRange_lkCq (s : State) (c : Ctx) : (s.poisonRange c).lkCq = s.lkCq := by
  unfold State.poisonRange
  split
  · exact (s.extWrite_noted _ _ _).lkCq
  · rfl

theorem State.endColls_lkCq (s : State) (id : Nat) : (s.endColls id).lkCq = s.lkCq := by
  unfold State.endColls
  refine (State.lkCq_foldl (fun u x => State.lkCq_ite rfl (u.abandon_lkCq _ _ _)) _ _).trans (State.lkCq_foldl (fun u c => ?_) _ _)
  exact (State.poisonRange_lkCq _ c).trans (State.lkCq_ite rfl (u.abandon_lkCq _ _ _))

/-- No collective of the barge is left, nor a barrier that has not entered its reduction. -/
theorem State.endColls_ctxs (s : State) (id : Nat) : ∀ c ∈ (s.endColls id).col.ctxs, c.b ≠ id := by
  unfold State.endColls
  simp

theorem State.endColls_barriers (s : State) (id : Nat) : ∀ z ∈ (s.endColls id).col.barriers, z.b = id → z.entered = true := by
  unfold State.endColls
  intro z hz hb
  simpa [hb] using (List.mem_filter.1 hz).2

theorem State.endRequestOf_lkCq (s : State) (id : Nat) : (s.endRequestOf id).lkCq = s.lkCq := by
  have hset : ∀ (u : State) (o v : Nat), 0xF00 ≤ o → o < 0x1000 → (u.setRegN pLKP o v).lkCq = u.lkCq := fun u o v h h' =>
    (u.setReg_noted _ h h').lkCq
  have hname : ∀ u : State, u.nameOverdue.lkCq = u.lkCq := fun u => by
    unfold State.nameOverdue
    split
    · exact hset u _ _ (by decide) (by decide)
    · rfl
  unfold State.endRequestOf
  split
  · have htold : ∀ (b : Bool) (v : Nat), (if b = true then s.setRegN pLKP 0xFC4 v else s).lkCq = s.lkCq := fun b v =>
      State.lkCq_ite (hset s _ _ (by decide) (by decide)) rfl
    exact State.lkCq_ite ((hname _).trans (htold _ _)) (htold _ _)
  · rfl

end Sys2Proof.Machine
end

section
/-! SUPPORT. What the end of a barge brings about after its collectives are left, and what it keeps: accounts, carried items, the
BARGE record, the regions, and the barge boundary (R59, R67, R68, R273, R288). -/

namespace Sys2Proof.Machine

open Sys2Proof

/-- From `s` to `t` no barge, commit unit, gather, collective or barrier has come, barge `b` carries no further request, no item has
come back, and no record has gone from those to be written. -/
structure Onward (b : Nat) (s t : State) : Prop where
  barges : ∀ x ∈ t.sv.barges, x ∈ s.sv.barges
  units : ∀ u ∈ t.sv.units, u ∈ s.sv.units
  gathers : ∀ g ∈ t.gathers, g ∈ s.gathers
  col : t.col = s.col
  carries : ∀ n, (t.berth n).barge = some b → (s.berth n).barge = some b
  item : ∀ j, s.item? j = none → t.item? j = none
  pending : ∀ c, ∀ r ∈ (s.cq c).pending, r ∈ (t.cq c).pending
  lkCq : t.lkCq = s.lkCq

namespace Onward

variable {b : Nat} {s t u : State}

theorem refl (b : Nat) (s : State) : Onward b s s :=
  ⟨fun _ h => h, fun _ h => h, fun _ h => h, rfl, fun _ h => h, fun _ h => h, fun _ _ h => h, rfl⟩

theorem trans (h : Onward b s t) (k : Onward b t u) : Onward b s u where
  barges x hx := h.barges x (k.barges x hx)
  units x hx := h.units x (k.units x hx)
  gathers x hx := h.gathers x (k.gathers x hx)
  col := k.col.trans h.col
  carries n hn := h.carries n (k.carries n hn)
  item j hj := k.item j (h.item j hj)
  pending c r hr := k.pending c r (h.pending c r hr)
  lkCq := k.lkCq.trans h.lkCq

theorem ite {a a' : State} {c : Prop} [Decidable c] (h : Onward b s a) (h' : Onward b s a') : Onward b s (if c then a else a') := by
  split
  · exact h
  · exact h'

theorem foldl {α : Type} {f : State → α → State} (h : ∀ s x, Onward b s (f s x)) (l : List α) (s : State) :
    Onward b s (l.foldl f s) := by
  induction l generalizing s with
  | nil => exact refl b s
  | cons x l ih => exact (h s x).trans (ih _)

/-- Noted events, and writes of external memory. -/
theorem of_noted (h : Noted s t) (hmask : t.mask { regs := true, ext := true, tags := true, hq := true, armed := true }
    = s.mask { regs := true, ext := true, tags := true, hq := true, armed := true }) : Onward b s t where
  barges x hx := by rwa [State.sv_of_mask hmask rfl] at hx
  units x hx := by rwa [State.sv_of_mask hmask rfl] at hx
  gathers x hx := by rwa [State.gathers_of_mask hmask rfl] at hx
  col := State.col_of_mask hmask rfl
  carries n hn := by unfold State.berth at *; rwa [State.sv_of_mask hmask rfl] at hn
  item j hj := (h.item? j).trans hj
  pending c r hr := by rwa [h.cq]
  lkCq := h.lkCq

/-- A change of other things than registers, queues, gathers and collectives that brings no barge, no unit and no carrier. -/
theorem of_sv (hregs : t.regs = s.regs) (hhq : t.hq = s.hq) (hg : t.gathers = s.gathers) (hc : t.col = s.col)
    (hb : t.sv.barges = s.sv.barges) (hu : t.sv.units = s.sv.units)
    (hn : ∀ n, (t.berth n).barge = some b → (s.berth n).barge = some b) : Onward b s t where
  barges x hx := by rwa [hb] at hx
  units x hx := by rwa [hu] at hx
  gathers x hx := by rwa [hg] at hx
  col := hc
  carries := hn
  item j hj := (State.item?_congr (by rw [hhq]) j).trans hj
  pending c r hr := by unfold State.cq at *; rwa [hhq]
  lkCq := State.lkCq_of_regs hregs

end Onward

/-! ### Shared operations -/

section

variable (b : Nat)

theorem count_onward (s : State) {P o : Nat} (n : Nat) (ho : 0xF00 ≤ o) (ho' : o < 0x1000) : Onward b s (s.count P o n) :=
  .of_noted (s.count_noted n ho ho') (s.count_mask _ rfl P o n)

theorem err_onward (s : State) (P k : Nat) : Onward b s (s.err P k) :=
  .of_noted (s.err_noted P k) (s.err_mask _ rfl rfl P k)

theorem updMooring_onward (s : State) (m : Nat) (f : Mooring → Mooring) : Onward b s (s.updMooring m f) :=
  .of_sv rfl rfl rfl rfl rfl rfl fun _ h => h

theorem updRegion_onward (s : State) (r : Nat) (f : Region → Region) : Onward b s (s.updRegion r f) :=
  .of_sv rfl rfl rfl rfl rfl rfl fun _ h => h

theorem updAccount_onward (s : State) (n : Nat) (f : Account → Account) : Onward b s (s.updAccount n f) :=
  .of_sv rfl rfl rfl rfl rfl rfl fun _ h => h

theorem setBerth_onward (s : State) (n : Nat) {x : Berth} (hx : x.barge = some b → (s.berth n).barge = some b) :
    Onward b s (s.setBerth n x) := by
  refine .of_sv rfl rfl rfl rfl rfl rfl fun k hk => ?_
  by_cases hkn : k = n
  · subst hkn
    rw [State.berth_setBerth] at hk
    exact hx hk
  · unfold State.berth State.setBerth at hk
    rwa [SMap.get_put_other _ _ _ _ _ hkn] at hk

theorem updBerth_onward (s : State) (n : Nat) {f : Berth → Berth} (hf : ∀ x, (f x).barge = x.barge) :
    Onward b s (s.updBerth n f) :=
  setBerth_onward b s n fun h => by rwa [hf] at h

theorem noteDefers_onward (s : State) : Onward b s s.noteDefers := by
  refine .of_sv rfl rfl rfl rfl rfl rfl fun n hn => ?_
  obtain ⟨d, hd⟩ := s.deferNoted_eq (s.berth n)
  rw [State.berth_noteDefers, hd] at hn
  exact hn

theorem balance_onward (s : State) (n : Nat) (units : Int) : Onward b s (s.balance n units) := by
  have hput := updAccount_onward b s n fun a => { a with balance := satBalance (a.balance + units) }
  exact .trans (.ite (hput.trans (count_onward b _ (P := pTOLL) (o := 0xF04) 1 (by decide) (by decide))) hput)
    (noteDefers_onward b _)

/-! ### Items -/

theorem settle_onward (s : State) (it : Item) (fate v0 v1 detail berth : Nat) (frees : Option Nat) :
    Onward b s (s.settle it fate v0 v1 detail berth frees) := by
  have hmask := s.settle_mask { regs := true, ext := true, tags := true, hq := true, armed := true } rfl rfl rfl rfl rfl
    it fate v0 v1 detail berth frees
  refine ⟨fun x hx => ?_, fun x hx => ?_, fun x hx => ?_, State.col_of_mask hmask rfl, fun n hn => ?_, fun j hj => ?_, fun c r hr => ?_,
    State.lkCq_congr fun x hx hx' => s.settle_reg it fate v0 v1 detail berth frees (by decide) (by decide) (by decide) hx hx'⟩
  · rwa [State.sv_of_mask hmask rfl] at hx
  · rwa [State.sv_of_mask hmask rfl] at hx
  · rwa [State.gathers_of_mask hmask rfl] at hx
  · unfold State.berth at *
    rwa [State.sv_of_mask hmask rfl] at hn
  · unfold State.item? at *
    rw [State.settle_items, List.find?_eq_none] at *
    exact fun x hx => hj x (List.mem_filter.1 hx).1
  · rw [State.settle_cq]
    split
    · exact List.mem_append_left _ hr
    · exact hr

theorem settleJ_onward (s : State) (j fate : Nat) : Onward b s (s.settleJ j fate) := by
  unfold State.settleJ
  split
  · exact settle_onward b s _ _ _ _ _ _ _
  · exact .refl b s

theorem settleJ_item? (s : State) (j fate : Nat) : (s.settleJ j fate).item? j = none := by
  unfold State.settleJ
  split
  · next it h =>
    have hself := s.settle_item?_self it fate 0 0 0 0 none
    rwa [State.item?_j h] at hself
  · assumption

theorem resolveCancels_onward (s : State) (n fate : Nat) : Onward b s (s.resolveCancels n fate) :=
  .foldl (fun s it => settle_onward b s it _ _ _ _ _ _) _ _

theorem fateRequest_onward (s : State) (n fate : Nat) : Onward b s (s.fateRequest n fate) := by
  unfold State.fateRequest
  refine .ite (.refl b s) ?_
  split
  · refine .trans (.trans ?_ (settle_onward b _ _ _ _ _ _ _ _)) (resolveCancels_onward b _ n fate)
    exact setBerth_onward b s n fun h => h
  · exact .refl b s

theorem endRequest_onward (s : State) (n fate : Nat) : Onward b s (s.endRequest n fate) :=
  .ite (.refl b s) (fateRequest_onward b s n fate)

/-! ### Pins and the barge boundary -/

theorem dropPin_onward (s : State) (m a v : Nat) : Onward b s (s.dropPin m a v) :=
  .of_sv rfl rfl rfl rfl rfl rfl fun _ h => h

theorem takePin_onward (s : State) (m a v : Nat) : Onward b s (s.takePin m a v) := by
  unfold State.takePin
  split
  · exact .of_sv rfl rfl rfl rfl rfl rfl fun _ h => h
  · exact .of_sv rfl rfl rfl rfl rfl rfl fun _ h => h

theorem releasePin_onward (s : State) (n : Nat) : Onward b s (s.releasePin n) := by
  unfold State.releasePin
  simp only []
  split
  · refine .trans (dropPin_onward b s _ _ _) (setBerth_onward b _ n ?_)
    exact fun h => h
  · exact .refl b s

theorem notePinCheck_onward (s : State) (m a tenant : Nat) : Onward b s (s.notePinCheck m a tenant) := by
  unfold State.notePinCheck
  refine .ite (.refl b s) ?_
  split
  · exact err_onward b s _ _
  · exact .refl b s

/-- A request that turns to its fallback mooring leaves its pin behind (R283). -/
theorem routed_onward (s : State) (n m fb : Nat) : Onward b s ((((s.count pLKP 0xF88).updMooring m fun x =>
    { x with routed := x.routed + 1 }).releasePin n).updBerth n fun x => { x with mooring := fb, routed := true, pin := none }) :=
  (((count_onward b s 1 (by decide) (by decide)).trans (updMooring_onward b _ m _)).trans (releasePin_onward b _ n)).trans
    (updBerth_onward b _ n fun _ => rfl)

theorem monitor_onward (s : State) (n : Nat) : Onward b s (s.monitor n) := by
  unfold State.monitor
  simp only []
  split
  · exact .refl b s
  · next fb _ =>
    refine .ite ?_ (.refl b s)
    have hrouted := routed_onward b s n (s.berth n).mooring fb
    split
    · exact (hrouted.trans (notePinCheck_onward b _ _ _ _)).trans (endRequest_onward b _ n _)
    · exact hrouted
    · exact (hrouted.trans (takePin_onward b _ _ _ _)).trans (updBerth_onward b _ n fun _ => rfl)

theorem boundaryOf_onward (s : State) (n : Nat) : Onward b s (s.boundaryOf n) := by
  unfold State.boundaryOf
  simp only []
  refine .ite (.refl b s) (.ite (endRequest_onward b s n _) (.ite
    ((count_onward b s (P := pLKP) (o := 0xF90) 1 (by decide) (by decide)).trans (endRequest_onward b _ n _)) ?_))
  have hmissed : Onward b s (if ((s.berth n).missed s.now).isSome = true then
      s.updBerth n fun x => { x with kept := (s.berth n).missed s.now, overdue := none } else s) :=
    .ite (updBerth_onward b s n fun _ => rfl) (.refl b s)
  split
  · refine .ite (.ite (.trans ?_ (endRequest_onward b _ n _)) (hmissed.trans (endRequest_onward b _ n _))) hmissed
    exact (hmissed.trans (count_onward b _ 1 (by decide) (by decide))).trans (updAccount_onward b _ _ _)
  · exact hmissed

theorem boundary_onward (s : State) (m : Nat) : Onward b s (s.boundary m) :=
  .ite (.refl b s) ((Onward.foldl (boundaryOf_onward b) _ _).trans (.foldl (monitor_onward b) _ _))

/-! ### The parts of a barge's end -/

/-- A request that no longer is a row of the barge. -/
def Berth.uncarried (be : Berth) (id : Nat) : Berth :=
  if be.barge = some id then { be with barge := none, closeDeadline := none } else be

theorem State.uncarry_berths (s : State) (id : Nat) :
    (s.uncarry id).sv.berths = s.sv.berths.map fun e => (e.1, e.2.uncarried id) := rfl

theorem State.uncarry_berth (s : State) (id n : Nat) : (s.uncarry id).berth n = (s.berth n).uncarried id := by
  unfold State.berth
  rw [State.uncarry_berths]
  exact SMap.get_map _ (fun be : Berth => be.uncarried id) (fun _ => rfl) _ _

theorem refundRows_onward (s : State) (x : Barge) : Onward b s (s.refundRows x) :=
  .ite (.refl b s) (.foldl (fun s _ => balance_onward b s _ _) _ _)

theorem noteTime_onward (s : State) (x : Barge) : Onward b s (s.noteTime x) :=
  .ite (.refl b s) (updMooring_onward b s _ _)

theorem idle_onward (s : State) (r : Nat) : Onward b s (s.idle r) := .ite (.refl b s) (updRegion_onward b s r _)

theorem leaveRegions_onward (s : State) (x : Barge) : Onward b s (s.leaveRegions x) :=
  .foldl (fun s r => (updRegion_onward b s r _).trans (idle_onward b _ r)) _ _

theorem queueRec_onward (s : State) (c : Nat) (r : Rec) : Onward b s (s.queueRec c r) := by
  refine ⟨fun _ h => h, fun _ h => h, fun _ h => h, rfl, fun _ h => h, fun _ h => h, fun k q hq => ?_, rfl⟩
  rw [State.queueRec_cq]
  split
  · exact List.mem_append_left _ hq
  · exact hq

theorem journalWrite_onward (s : State) (j : Nat) (r : Rec) (st : Nat) : Onward b s (s.journalWrite j r st) :=
  .of_noted (s.journalWrite_noted j r st) (s.journalWrite_mask _ rfl rfl rfl rfl rfl j r st)

theorem bargeRecord_onward (s : State) (x : Barge) : Onward b s (s.bargeRecord x) := by
  unfold State.bargeRecord
  split
  · exact .refl b s
  · exact (journalWrite_onward b s _ _ _).trans (queueRec_onward b _ _ _)

theorem uncarry_barge (s : State) (n : Nat) : ((s.uncarry b).berth n).barge ≠ some b := by
  rw [State.uncarry_berth, Berth.uncarried]
  split
  · exact nofun
  · assumption

theorem uncarry_onward (s : State) : Onward b s (s.uncarry b) :=
  .of_sv rfl rfl rfl rfl rfl rfl fun n hn => absurd hn (uncarry_barge b s n)

theorem removeBarge_onward (s : State) (x : Barge) : Onward b s (s.removeBarge x) where
  barges _ h := (List.mem_filter.1 h).1
  units _ h := (List.mem_filter.1 h).1
  gathers _ h := (List.mem_filter.1 h).1
  col := rfl
  carries _ h := h
  item _ h := h
  pending _ _ h := h
  lkCq := rfl

end

end Sys2Proof.Machine
end

section
/-! SUPPORT. The end of a barge, part by part (R59, R273). -/

namespace Sys2Proof.Machine

open Sys2Proof

/-- Its time is noted, and it has left its collectives and barriers. -/
def State.leftColls (s : State) (x : Barge) (id : Nat) : State :=
  let s := if x.failed.isNone then s.endGap x else s
  let s := if x.st == .saved then s.countSaved x else s
  (s.endRequestOf id).endColls id

/-- Its rows are refunded, and its requests are carried by none. -/
def State.requestsFreed (s : State) (x : Barge) (id : Nat) : State := (((s.refundRows x).noteTime x).uncarry id).noteDefers

/-- The submitted item that it carried has a fate. -/
def State.carriedSettled (s : State) (x : Barge) : State := match x.carried with
  | some j => s.settleJ j fDONE
  | none => s

/-- Its regions are left, and its mooring is at a boundary. -/
def State.regionsFreed (s : State) (x : Barge) : State :=
  let s := s.leaveRegions x
  if x.solo then s else s.boundary x.mooring

theorem endBarge_eq {s : State} {id : Nat} {x : Barge} (hx : s.barge? id = some x) (hmay : s.mayEnd x = true) :
    s.endBarge id =
      (((((s.leftColls x id).requestsFreed x id).carriedSettled x).bargeRecord x).removeBarge x).regionsFreed x := by
  unfold State.endBarge
  simp only [hx, hmay]
  rfl

theorem leftColls_lkCq (s : State) (x : Barge) (id : Nat) : (s.leftColls x id).lkCq = s.lkCq := by
  have hgap : (s.endGap x).lkCq = s.lkCq := State.lkCq_ite (s.count_noted (P := pLKP) (o := 0xFCC) 1 (by decide) (by decide)).lkCq rfl
  have hsaved : ∀ u : State, (u.countSaved x).lkCq = u.lkCq := fun _ => rfl
  refine ((State.endColls_lkCq _ id).trans (State.endRequestOf_lkCq _ id)).trans (State.lkCq_ite ((hsaved _).trans ?_) ?_)
  · exact State.lkCq_ite hgap rfl
  · exact State.lkCq_ite hgap rfl

theorem requestsFreed_onward (b : Nat) (s : State) (x : Barge) : Onward b s (s.requestsFreed x b) :=
  (((refundRows_onward b s x).trans (noteTime_onward b _ x)).trans (uncarry_onward b _)).trans (noteDefers_onward b _)

theorem requestsFreed_barge (b : Nat) (s : State) (x : Barge) (n : Nat) : ((s.requestsFreed x b).berth n).barge ≠ some b := fun h =>
  uncarry_barge b _ n ((noteDefers_onward b _).carries n h)

theorem carriedSettled_onward (b : Nat) (s : State) (x : Barge) : Onward b s (s.carriedSettled x) := by
  unfold State.carriedSettled
  split
  · exact settleJ_onward b s _ _
  · exact .refl b s

theorem carriedSettled_item? (s : State) {x : Barge} {j : Nat} (h : x.carried = some j) : (s.carriedSettled x).item? j = none := by
  unfold State.carriedSettled
  rw [h]
  exact settleJ_item? s j fDONE

/-- The BARGE record waits in the CQ of the lock-keeper (R70). -/
theorem bargeRecord_pending (s : State) {x : Barge} {j : Nat} (h : x.journal = some j) :
    ∃ r, r ∈ ((s.bargeRecord x).cq s.lkCq).pending ∧ r.kind = .barge ∧ r.fate = x.failed.getD fDONE ∧ r.journal = some j := by
  unfold State.bargeRecord
  rw [h]
  simp only [State.queueRec_cq, if_true]
  exact ⟨_, List.mem_append_right _ List.mem_cons_self, rfl, rfl, rfl⟩

theorem removeBarge_gone (s : State) (x : Barge) : (∀ y ∈ (s.removeBarge x).sv.barges, y.id ≠ x.id)
    ∧ (∀ u ∈ (s.removeBarge x).sv.units, u.b ≠ x.id) ∧ ∀ g ∈ (s.removeBarge x).gathers, g.b ≠ x.id := by
  unfold State.removeBarge
  simp

theorem regionsFreed_onward (b : Nat) (s : State) (x : Barge) : Onward b s (s.regionsFreed x) :=
  .ite (leaveRegions_onward b s x) ((leaveRegions_onward b s x).trans (boundary_onward b _ _))

theorem barge?_id {s : State} {b : Nat} {x : Barge} (h : s.barge? b = some x) : x.id = b := by
  simpa using List.find?_some h

/-- A barge may end: it has failed, or all of it is done (R121, R273). -/
theorem mayEnd_iff (s : State) (x : Barge) : s.mayEnd x = true ↔ x.failed.isSome = true ∨ (x.st = .running
    ∧ (x.fetchedAll = true ∨ x.progLen = 0) ∧ (∀ o ∈ x.ops, o.st = .complete) ∧ ∀ u ∈ s.sv.units, u.b ≠ x.id) := by
  simp [State.mayEnd, and_assoc]

theorem leftColls_gone (s : State) (x : Barge) (id : Nat) : (∀ c ∈ (s.leftColls x id).col.ctxs, c.b ≠ id)
    ∧ ∀ z ∈ (s.leftColls x id).col.barriers, z.b = id → z.entered = true :=
  ⟨State.endColls_ctxs _ id, State.endColls_barriers _ id⟩

/-- Settles O35. -/
theorem bargeEndClearsItsBarge : Obligations.BargeEndClearsItsBarge := by
  intro b s x hup hx
  have hexec : exec (.bargeEnd b) s = .next (s.endBarge b) := State.engine_up hup fun s => s.endBarge b
  obtain rfl := barge?_id hx
  refine ⟨fun hdone => ⟨_, hexec, ?_⟩, fun hok hnot => ?_⟩
  · rw [endBarge_eq hx ((mayEnd_iff s x).2 hdone)]
    have hcolls := leftColls_gone s x x.id
    have hlk := leftColls_lkCq s x x.id
    generalize s.leftColls x x.id = s1 at hcolls hlk ⊢
    have hfreed := requestsFreed_onward x.id s1 x
    have hcarries := requestsFreed_barge x.id s1 x
    generalize s1.requestsFreed x x.id = s2 at hfreed hcarries ⊢
    have hsettled := carriedSettled_onward x.id s2 x
    have hitem := fun j => carriedSettled_item? s2 (x := x) (j := j)
    generalize s2.carriedSettled x = s3 at hsettled hitem ⊢
    have hrecord := bargeRecord_onward x.id s3 x
    have hrec := fun j => bargeRecord_pending s3 (x := x) (j := j)
    generalize s3.bargeRecord x = s4 at hrecord hrec ⊢
    have hremoved := removeBarge_onward x.id s4 x
    have hgone := removeBarge_gone s4 x
    generalize s4.removeBarge x = s5 at hremoved hgone ⊢
    have hend := regionsFreed_onward x.id s5 x
    generalize s5.regionsFreed x = t at hend ⊢
    have hfrom2 := ((hsettled.trans hrecord).trans hremoved).trans hend
    have hcol : t.col = s1.col := (hfreed.trans hfrom2).col
    have hcq : s3.lkCq = s.lkCq := ((hfreed.trans hsettled).lkCq).trans hlk
    obtain ⟨hbarges, hunits, hgathers⟩ := hgone
    refine ⟨?_, fun u hu => hunits u (hend.units u hu), fun g hg => hgathers g (hend.gathers g hg), ?_, ?_,
      fun n hn => hcarries n (hfrom2.carries n hn), fun j hj => ?_, fun j hj => ?_⟩
    · exact List.find?_eq_none.2 fun y hy => by simpa using hbarges y (hend.barges y hy)
    · rw [hcol]
      exact hcolls.1
    · rw [hcol]
      exact hcolls.2
    · exact ((hrecord.trans hremoved).trans hend).item j (hitem j hj)
    · obtain ⟨r, hr, hkind⟩ := hrec j hj
      rw [hcq] at hr
      exact ⟨r, (hremoved.trans hend).pending _ r hr, hkind⟩
  · have hmay : s.mayEnd x = false := by
      rw [Bool.eq_false_iff, Ne, mayEnd_iff]
      rintro (hfailed | ⟨hrun, hfetched, hops, hunits⟩)
      · simp [hok] at hfailed
      · rcases hnot with h | ⟨hf, hp⟩ | ⟨o, ho, hst⟩ | ⟨u, hu, hub⟩
        · exact h hrun
        · exact hfetched.elim (by simp [hf]) hp
        · exact hst (hops o ho)
        · exact hunits u hu hub
    rw [hexec, State.endBarge]
    simp [hx, hmay]

end Sys2Proof.Machine
end

section
/-! SUPPORT. Rules of the table of running barges: what a change of one barge's entry leaves, how a record's run reads after its issue
and its completion (R88, R89), and what the one routine of the op records does with a record that may issue (R88, R93, R135). -/

namespace Sys2Proof.Machine

open Sys2Proof

/-! ### Records of a barge -/

@[simp] theorem Barge.length_setOp (x : Barge) (i : Nat) (f : OpRun → OpRun) : (x.setOp i f).ops.length = x.ops.length := by
  simp [Barge.setOp, setAt]

theorem Barge.op_setOp_self (x : Barge) {i : Nat} (f : OpRun → OpRun) (hi : i < x.ops.length) :
    (x.setOp i f).op i = f (x.op i) := by
  simp [Barge.op, Barge.setOp, setAt, hi]

theorem Barge.op_setOp_other (x : Barge) {i k : Nat} (f : OpRun → OpRun) (h : k ≠ i) : (x.setOp i f).op k = x.op k := by
  by_cases hk : k < x.ops.length
  · simp [Barge.op, Barge.setOp, setAt, hk, h]
  · simp [Barge.op, Barge.setOp, setAt, hk]

theorem Barge.opIs_iff (x : Barge) (i : Nat) (st : RecSt) : x.opIs i st = true ↔ i < x.ops.length ∧ (x.op i).st = st := by
  simp [Barge.opIs]

theorem State.progRec_of_lt (s : State) {x : Barge} {i : Nat} (hi : i < x.ops.length) : s.progRec x i = (x.op i).word := by
  simp [State.progRec, Barge.op, hi]

/-- The word of a fetched record, however far the barge has come with it. -/
theorem State.progRec_congr {s t : State} {x y : Barge} {i : Nat} (hi : i < x.ops.length) (hlen : y.ops.length = x.ops.length)
    (hw : (y.op i).word = (x.op i).word) : t.progRec y i = s.progRec x i := by
  rw [s.progRec_of_lt hi, t.progRec_of_lt (by omega), hw]

/-- The barge once its record `i` has issued (R88, R306). -/
def Barge.issueAt (x : Barge) (now i : Nat) : Barge :=
  (if x.ops.all (·.st == .waiting) then { x with gapFrom := now, gapBound := x.maxGap } else x).setOp i
    fun o => { o with st := .running, issued := now }

/-- The barge once its record `i`, of SIGNAL token `t`, has completed (R89). -/
def Barge.finishAt (x : Barge) (i t : Nat) : Barge :=
  { x.setOp i (fun o => { o with st := .complete }) with
    tokens := if t = 0 || x.tokens.contains t then x.tokens else t :: x.tokens }

theorem State.issue_eq (s : State) (b i : Nat) : s.issue b i = s.updBarge b (·.issueAt s.now i) := rfl

theorem State.finishOp_eq (s : State) (b i : Nat) : s.finishOp b i = s.updBarge b fun y => y.finishAt i (recSignal (s.progRec y i)) := rfl

/-- An issue changes nothing of a barge but its records and its gap. -/
theorem Barge.issueAt_eq (x : Barge) (now i : Nat) :
    ∃ g n, x.issueAt now i = { x.setOp i (fun o => { o with st := .running, issued := now }) with gapFrom := g, gapBound := n } := by
  unfold Barge.issueAt
  split <;> exact ⟨_, _, rfl⟩

@[simp] theorem Barge.issueAt_length (x : Barge) (now i : Nat) : (x.issueAt now i).ops.length = x.ops.length := by
  obtain ⟨g, n, h⟩ := x.issueAt_eq now i
  rw [h, ← x.length_setOp i]

theorem Barge.issueAt_op_self (x : Barge) (now : Nat) {i : Nat} (hi : i < x.ops.length) :
    (x.issueAt now i).op i = { x.op i with st := .running, issued := now } := by
  obtain ⟨g, n, h⟩ := x.issueAt_eq now i
  rw [h]
  exact x.op_setOp_self (fun o => { o with st := .running, issued := now }) hi

theorem Barge.issueAt_op_other (x : Barge) (now : Nat) {i k : Nat} (hk : k ≠ i) : (x.issueAt now i).op k = x.op k := by
  obtain ⟨g, n, h⟩ := x.issueAt_eq now i
  rw [h]
  exact x.op_setOp_other (fun o => { o with st := .running, issued := now }) hk

theorem Barge.issueAt_word (x : Barge) (now i : Nat) {k : Nat} (hk : k < x.ops.length) :
    ((x.issueAt now i).op k).word = (x.op k).word := by
  obtain rfl | h := eq_or_ne k i
  · rw [x.issueAt_op_self now hk]
  · rw [x.issueAt_op_other now h]

@[simp] theorem Barge.issueAt_id (x : Barge) (now i : Nat) : (x.issueAt now i).id = x.id := by
  obtain ⟨g, n, h⟩ := x.issueAt_eq now i; rw [h]; rfl

@[simp] theorem Barge.issueAt_failed (x : Barge) (now i : Nat) : (x.issueAt now i).failed = x.failed := by
  obtain ⟨g, n, h⟩ := x.issueAt_eq now i; rw [h]; rfl

@[simp] theorem Barge.issueAt_st (x : Barge) (now i : Nat) : (x.issueAt now i).st = x.st := by
  obtain ⟨g, n, h⟩ := x.issueAt_eq now i; rw [h]; rfl

@[simp] theorem Barge.issueAt_chambers (x : Barge) (now i : Nat) : (x.issueAt now i).chambers = x.chambers := by
  obtain ⟨g, n, h⟩ := x.issueAt_eq now i; rw [h]; rfl

@[simp] theorem Barge.issueAt_tokens (x : Barge) (now i : Nat) : (x.issueAt now i).tokens = x.tokens := by
  obtain ⟨g, n, h⟩ := x.issueAt_eq now i; rw [h]; rfl

@[simp] theorem Barge.finishAt_id (x : Barge) (i t : Nat) : (x.finishAt i t).id = x.id := rfl
@[simp] theorem Barge.finishAt_failed (x : Barge) (i t : Nat) : (x.finishAt i t).failed = x.failed := rfl
@[simp] theorem Barge.finishAt_st (x : Barge) (i t : Nat) : (x.finishAt i t).st = x.st := rfl
@[simp] theorem Barge.finishAt_chambers (x : Barge) (i t : Nat) : (x.finishAt i t).chambers = x.chambers := rfl
@[simp] theorem Barge.finishAt_length (x : Barge) (i t : Nat) : (x.finishAt i t).ops.length = x.ops.length :=
  x.length_setOp i fun o => { o with st := .complete }

theorem Barge.finishAt_op_self (x : Barge) {i : Nat} (t : Nat) (hi : i < x.ops.length) :
    (x.finishAt i t).op i = { x.op i with st := .complete } :=
  x.op_setOp_self (fun o => { o with st := .complete }) hi

theorem Barge.finishAt_op_other (x : Barge) {i k : Nat} (t : Nat) (hk : k ≠ i) : (x.finishAt i t).op k = x.op k :=
  x.op_setOp_other (fun o => { o with st := .complete }) hk

theorem Barge.finishAt_word (x : Barge) (i t : Nat) {k : Nat} (hk : k < x.ops.length) :
    ((x.finishAt i t).op k).word = (x.op k).word := by
  obtain rfl | h := eq_or_ne k i
  · rw [x.finishAt_op_self t hk]
  · rw [x.finishAt_op_other t h]

theorem Barge.finishAt_complete (x : Barge) {i : Nat} (t : Nat) (hi : i < x.ops.length) : (x.finishAt i t).opIs i .complete = true := by
  rw [Barge.opIs_iff, x.finishAt_op_self t hi]
  exact ⟨by simpa using hi, rfl⟩

/-- A record that is complete stays so when another, or itself, completes. -/
theorem Barge.finishAt_keeps_complete (x : Barge) {k : Nat} (i t : Nat) (h : x.opIs k .complete = true) :
    (x.finishAt i t).opIs k .complete = true := by
  obtain rfl | hk := eq_or_ne k i
  · exact x.finishAt_complete t ((x.opIs_iff _ _).1 h).1
  · rw [Barge.opIs_iff] at h ⊢
    rw [x.finishAt_op_other t hk, Barge.finishAt_length]
    exact h

theorem Barge.finishAt_tokenSet (x : Barge) (i t : Nat) : (x.finishAt i t).tokenSet t = true := by
  by_cases h : t = 0 ∨ t ∈ x.tokens
  · obtain h | h := h <;> simp [Barge.tokenSet, Barge.finishAt, h]
  · simp [Barge.tokenSet, Barge.finishAt, h]

theorem Barge.finishAt_keeps_token (x : Barge) (i t : Nat) {u : Nat} (h : x.tokenSet u = true) : (x.finishAt i t).tokenSet u = true := by
  simp only [Barge.tokenSet, Barge.finishAt, Bool.or_eq_true, beq_iff_eq, List.contains_iff_mem] at h ⊢
  split
  · exact h
  · exact h.imp_right (List.mem_cons_of_mem _)

/-! ### The table of barges -/

theorem State.barge?_updBarge_self {s : State} {b : Nat} {x : Barge} {f : Barge → Barge} (hx : s.barge? b = some x)
    (hf : ∀ y, (f y).id = y.id) : (s.updBarge b f).barge? b = some (f x) := by
  have h := find?_mapIf s.sv.barges (·.id == b) f fun y => by rw [hf]
  rw [State.barge?, State.updBarge, h, show s.sv.barges.find? (·.id == b) = some x from hx]
  rfl

theorem State.barge?_updBarge_other (s : State) {b k : Nat} {f : Barge → Barge} (hk : k ≠ b) (hf : ∀ y, (f y).id = y.id) :
    (s.updBarge b f).barge? k = s.barge? k := by
  unfold State.barge? State.updBarge
  induction s.sv.barges with
  | nil => rfl
  | cons y l ih =>
    by_cases hy : y.id = b
    · have hne : ¬b = k := fun h => hk h.symm
      simpa [mapIf, hf, hy, hne] using ih
    · by_cases hyk : y.id = k
      · simp [mapIf, hyk, hk]
      · simpa [mapIf, hy, hyk] using ih

/-- From `s` to `t` the entry of barge `b` has become `y`, and nothing else has changed. -/
structure AtBarge (b : Nat) (s t : State) (y : Barge) : Prop where
  mine : t.barge? b = some y
  others : ∀ k, k ≠ b → t.barge? k = s.barge? k
  rest : t = { s with sv := { s.sv with barges := t.sv.barges } }

theorem AtBarge.refl {b : Nat} {s : State} {x : Barge} (hx : s.barge? b = some x) : AtBarge b s s x := ⟨hx, fun _ _ => rfl, rfl⟩

theorem AtBarge.trans {b : Nat} {s t u : State} {y z : Barge} (h : AtBarge b s t y) (k : AtBarge b t u z) : AtBarge b s u z where
  mine := k.mine
  others n hn := (k.others n hn).trans (h.others n hn)
  rest := by rw [k.rest, h.rest]

theorem AtBarge.updBarge {b : Nat} {s t : State} {y : Barge} {f : Barge → Barge} (h : AtBarge b s t y) (hf : ∀ y, (f y).id = y.id) :
    AtBarge b s (t.updBarge b f) (f y) :=
  h.trans ⟨State.barge?_updBarge_self h.mine hf, fun _ hk => t.barge?_updBarge_other hk hf, rfl⟩

theorem AtBarge.issue {b : Nat} {s t : State} {y : Barge} (h : AtBarge b s t y) (i : Nat) :
    AtBarge b s (t.issue b i) (y.issueAt t.now i) := h.updBarge fun y => y.issueAt_id _ _

theorem AtBarge.finishOp {b : Nat} {s t : State} {y : Barge} (h : AtBarge b s t y) (i : Nat) :
    AtBarge b s (t.finishOp b i) (y.finishAt i (recSignal (t.progRec y i))) :=
  AtBarge.updBarge (f := fun y => y.finishAt i (recSignal (t.progRec y i))) h fun _ => rfl

/-- From `s` to `t` the entry of barge `b` has become `y`, and nothing else has changed but registers that count. -/
structure Counted (b : Nat) (s t : State) (y : Barge) : Prop where
  mine : t.barge? b = some y
  others : ∀ k, k ≠ b → t.barge? k = s.barge? k
  rest : t = { s with regs := t.regs, sv := { s.sv with barges := t.sv.barges } }

theorem AtBarge.counted {b : Nat} {s t : State} {y : Barge} (h : AtBarge b s t y) : Counted b s t y :=
  ⟨h.mine, h.others, by rw [h.rest]⟩

theorem Counted.trans {b : Nat} {s t u : State} {y z : Barge} (h : Counted b s t y) (k : Counted b t u z) : Counted b s u z where
  mine := k.mine
  others n hn := (k.others n hn).trans (h.others n hn)
  rest := by rw [k.rest, h.rest]

/-- Where only barge `b` and counters have changed, `Completed` is about that barge's entry alone. -/
theorem Counted.completed {b : Nat} {s t : State} {y : Barge} (h : Counted b s t y) {i w : Nat} {x : Barge}
    (hdone : y.opIs i .complete = true) (htok : y.tokenSet (recSignal w) = true) (hok : y.failed = none)
    (hops : ∀ k, k ≠ i → y.op k = x.op k) : Completed s t b i w x y := by
  have hrest := h.rest
  refine ⟨h.mine, hdone, htok, hok, hops, h.others, ?_, ?_, ?_, ?_, ?_, ?_, ?_⟩ <;> rw [hrest]

/-- A fetched record that completes, in a barge changed in its own entry only. -/
theorem AtBarge.finishOp_completed {b i w : Nat} {s t : State} {x y : Barge} (h : AtBarge b s t y) (hw : w = s.progRec x i)
    (hi : i < x.ops.length) (hlen : y.ops.length = x.ops.length) (hword : (y.op i).word = (x.op i).word) (hok : y.failed = none)
    (hops : ∀ k, k ≠ i → y.op k = x.op k) :
    Completed s (t.finishOp b i) b i w x (y.finishAt i (recSignal w)) := by
  have hrec : t.progRec y i = w := by rw [hw]; exact State.progRec_congr hi hlen hword
  have hfin := h.finishOp i
  rw [hrec] at hfin
  refine hfin.counted.completed (y.finishAt_complete _ (by omega)) (y.finishAt_tokenSet i _) hok fun k hk => ?_
  rw [y.finishAt_op_other _ hk, hops k hk]

/-! ### A record that may issue -/

theorem State.mayIssue_spec {s : State} {x : Barge} {i : Nat} (h : s.mayIssue x i = true) :
    x.st = .running ∧ x.failed = none ∧ x.opIs i .waiting = true ∧ x.waitsMet (s.progRec x i) = true := by
  simp only [State.mayIssue, Bool.and_eq_true, beq_iff_eq, Option.isNone_iff_eq_none] at h
  obtain ⟨⟨⟨⟨⟨hst, hok⟩, hwait⟩, hmet⟩, -⟩, -⟩ := h
  exact ⟨hst, hok, hwait, hmet⟩

section
variable {s : State} {b i w : Nat} {x : Barge} (h : Issues s b i x w)
include h

theorem Issues.up : s.up = true := h.1
theorem Issues.barge : s.barge? b = some x := h.2.1
theorem Issues.word : w = s.progRec x i := h.2.2.1
theorem Issues.may : s.mayIssue x i = true := h.2.2.2.1
theorem Issues.clear : s.blocked x w = none := h.2.2.2.2
theorem Issues.barge_id : x.id = b := barge?_id h.barge
theorem Issues.running : x.st = .running := (State.mayIssue_spec h.may).1
theorem Issues.ok : x.failed = none := (State.mayIssue_spec h.may).2.1
theorem Issues.lt : i < x.ops.length := ((x.opIs_iff _ _).1 (State.mayIssue_spec h.may).2.2.1).1
theorem Issues.waits : x.waitsMet w = true := by rw [h.word]; exact (State.mayIssue_spec h.may).2.2.2

theorem Issues.issued : AtBarge b s (s.issue b i) (x.issueAt s.now i) := (AtBarge.refl h.barge).issue i

/-- A record issued and completed at one command. -/
theorem Issues.finished : Completed s ((s.issue b i).finishOp b i) b i w x ((x.issueAt s.now i).finishAt i (recSignal w)) :=
  h.issued.finishOp_completed h.word h.lt (x.issueAt_length _ _) (x.issueAt_word _ _ h.lt) (by simpa using h.ok)
    fun _ hk => x.issueAt_op_other _ hk

end

/-- A record that has been fetched is not fetched again (R88). -/
theorem State.fetchRec_fetched {s : State} {b i : Nat} {x : Barge} (hx : s.barge? b = some x) (hi : i < x.ops.length) (code : Nat)
    (own : State → Barge → List Nat → Nat → Bool) : s.fetchRec b i code own = s := by
  have hne : i ≠ x.ops.length := by omega
  simp [State.fetchRec, hx, hne]

theorem State.failNamed_of_none {s : State} (h : s.anyTileQuar = false) : s.failNamed = s := by simp [State.failNamed, h]

theorem State.anyTileQuar_congr {s t : State} (h : t.regs = s.regs) : t.anyTileQuar = s.anyTileQuar := by
  simp only [State.anyTileQuar, State.regN, State.reg, h]

theorem AtBarge.anyTileQuar {b : Nat} {s t : State} {y : Barge} (h : AtBarge b s t y) : t.anyTileQuar = s.anyTileQuar :=
  State.anyTileQuar_congr (by rw [h.rest])

/-- A record that may issue, and that nothing stops: it completes at once, is held by a C range, or has its effect (R88, R93,
R135). -/
theorem Issues.runRec {s : State} {b i w code : Nat} {x : Barge} (h : Issues s b i x w) (hop : recOp w = code)
    (own : State → Barge → List Nat → Nat → Bool) (zero : Nat → Bool) (effect : State → Barge → Nat → State)
    (ext : State → Barge → Nat → List (Nat × Nat)) :
    s.runRec b i code own zero effect ext = (if zero w then (s.issue b i).finishOp b i
      else if s.rangesHeld b (ext s x w) then s else effect (s.issue b i) x w).failNamed := by
  simp [State.runRec, State.fetchRec_fetched h.barge h.lt, h.barge, ← h.word, hop, h.may, h.clear]

theorem State.rangesHeld_nil (s : State) (b : Nat) : s.rangesHeld b [] = false := by
  rw [State.rangesHeld, List.any_eq_false]
  intro c _
  cases s.ctxRange c <;> simp

end Sys2Proof.Machine
end

section
/-! SUPPORT. What the command of each op record does with a record that may issue and that nothing stops: the issue, with the opcode's
effect, or the completion of R93, or the wait for an open C range (R135). One equation per command. Then zero counts (R93). -/

namespace Sys2Proof.Machine

open Sys2Proof

/-- Record `i` of barge `b` issues: it completes at once where a count is 0, waits where its memory is held, and else has its
effect (R93, R135). -/
def State.issueWith (s : State) (b i : Nat) (zero held : Bool) (effect : State → State) : State :=
  if zero then (s.issue b i).finishOp b i else if held then s else effect (s.issue b i)

@[simp] theorem State.issueWith_zero (s : State) (b i : Nat) (held : Bool) (effect : State → State) :
    s.issueWith b i true held effect = (s.issue b i).finishOp b i := rfl

@[simp] theorem State.issueWith_held (s : State) (b i : Nat) (effect : State → State) : s.issueWith b i false true effect = s := rfl

@[simp] theorem State.issueWith_free (s : State) (b i : Nat) (effect : State → State) :
    s.issueWith b i false false effect = effect (s.issue b i) := rfl

section
variable {s : State} {b i w : Nat} {x : Barge} (h : Issues s b i x w)
include h

/-- A command that runs its record, and then does `f`. -/
theorem Issues.engine_runRec {code : Nat} (hop : recOp w = code) (own : State → Barge → List Nat → Nat → Bool) (zero : Nat → Bool)
    (effect : State → Barge → Nat → State) {ext : State → Barge → Nat → List (Nat × Nat)} (hext : s.extOf x w = ext s x w)
    (f : State → State) :
    (s.engine fun s => f (s.runRec b i code own zero effect ext))
      = .next (f (s.issueWith b i (zero w) (s.rangesHeld b (s.extOf x w)) (effect · x w)).failNamed) := by
  rw [State.engine_up h.up, h.runRec hop, hext]
  rfl

theorem Issues.exec_mm (hop : recOp w = 0x01) (hpair : mmPair w = false) : exec (.mm b i) s
    = .next (s.issueWith b i (mmZero w) (s.rangesHeld b (s.extOf x w)) (mmEffect i · x w)).failNamed := by
  have hrun : exec (.mm b i) s = s.engine fun s => s.runRec b i 0x01 mmOk mmZero (mmEffect i) fun _ _ w => mmExt w := by
    change execMm b i s = _
    rw [execMm, State.engine_up h.up, State.engine_up h.up]
    simp [State.fetchRec_fetched h.barge h.lt, h.barge, ← h.word, hpair]
  rw [hrun]
  exact h.engine_runRec hop mmOk mmZero (mmEffect i) (by simp [State.extOf, hop]) id

theorem Issues.exec_attn (hop : recOp w = 0x03) : exec (.attn b i) s
    = .next (s.issueWith b i (kvZero w) (s.rangesHeld b (s.extOf x w)) (attnEffect i · x w)).failNamed :=
  h.engine_runRec hop attnOk kvZero (attnEffect i) (by simp [State.extOf, hop]) id

theorem Issues.exec_vec (hop : recOp w = 0x10) : exec (.vec b i) s
    = .next (s.issueWith b i (vecZero w) (s.rangesHeld b (s.extOf x w)) (vecEffect i · x w)).failNamed :=
  h.engine_runRec hop vecOk vecZero (vecEffect i) (by simp [State.extOf, hop]) id

theorem Issues.exec_conv (hop : recOp w = 0x11) : exec (.conv b i) s
    = .next (s.issueWith b i (convZero w) (s.rangesHeld b (s.extOf x w)) (convEffect i · x w)).failNamed :=
  h.engine_runRec hop convOk convZero (convEffect i) (by simp [State.extOf, hop]) id

theorem Issues.exec_gather (hop : recOp w = 0x20) : exec (.gather b i) s
    = .next (s.issueWith b i (gatherZero w) (s.rangesHeld b (s.extOf x w)) (gatherEffect i · x w)).failNamed :=
  h.engine_runRec hop gatherOk gatherZero (gatherEffect i) (by simp [State.extOf, hop]) id

theorem Issues.exec_prefetch (hop : recOp w = 0x21) : exec (.prefetch b i) s
    = .next ((s.issueWith b i (gIndices w == 0) (s.rangesHeld b (s.extOf x w)) (prefetchEffect i · x w)).failNamed.prefetchAgain b i) :=
  h.engine_runRec hop prefetchOk (gIndices · == 0) (prefetchEffect i) (by simp [State.extOf, hop]) (·.prefetchAgain b i)

theorem Issues.exec_pool (hop : recOp w = 0x22) : exec (.pool b i) s
    = .next (s.issueWith b i (recP w 24 0 == 0) (s.rangesHeld b (s.extOf x w)) (poolEffect i · x w)).failNamed :=
  h.engine_runRec hop poolOk (recP · 24 0 == 0) (poolEffect i) (by simp [State.extOf, hop]) id

theorem Issues.exec_sgrad (hop : recOp w = 0x23) : exec (.sgrad b i) s
    = .next (s.issueWith b i (gradUses w == 0) (s.rangesHeld b (s.extOf x w)) (sgradEffect i · x w)).failNamed :=
  h.engine_runRec hop sgradOk (gradUses · == 0) (sgradEffect i) (by simp [State.extOf, hop]) id

theorem Issues.exec_update (hop : recOp w = 0x24) : exec (.update b i) s
    = .next (s.issueWith b i false (s.rangesHeld b (s.extOf x w)) (updateEffect i · x w)).failNamed :=
  h.engine_runRec hop updateOk (fun _ => false) (updateEffect i) (by simp [State.extOf, hop]) id

theorem Issues.exec_kvAppend (hop : recOp w = 0x30) : exec (.kvAppend b i) s
    = .next (s.issueWith b i (kvZero w) (s.rangesHeld b (s.extOf x w)) (kvAppendEffect i · x w)).failNamed :=
  h.engine_runRec hop kvAppendOk kvZero (kvAppendEffect i) (by simp [State.extOf, hop]) id

theorem Issues.exec_kvCommit (hop : recOp w = 0x31) : exec (.kvCommit b i) s
    = .next (s.issueWith b i (kvRowCount w == 0) (s.rangesHeld b (s.extOf x w)) (kvCommitEffect i · x w)).failNamed :=
  h.engine_runRec hop kvCommitOk (kvRowCount · == 0) (kvCommitEffect i) (by simp [State.extOf, hop]) id

theorem Issues.exec_coll (hop : recOp w = 0x40) : exec (.coll b i) s
    = .next ((s.issueWith b i false (s.rangesHeld b (s.extOf x w)) (collEffect i · x w)).failNamed.startColls b) :=
  h.engine_runRec hop collOk (fun _ => false) (collEffect i) (by simp [State.extOf, hop]) (·.startColls b)

theorem Issues.exec_seal (hop : recOp w = 0x41) : exec (.sealColl b i) s
    = .next (s.issueWith b i false (s.rangesHeld b (s.extOf x w)) (sealEffect i · x w)).failNamed :=
  h.engine_runRec hop sealOk (fun _ => false) (sealEffect i) (by simp [State.extOf, hop]) id

theorem Issues.exec_barrier (hop : recOp w = 0x42) : exec (.barrier b i) s
    = .next (s.issueWith b i false (s.rangesHeld b (s.extOf x w)) (barrierEffect i · x w)).failNamed.enterBarriers :=
  h.engine_runRec hop barrierOk (fun _ => false) (barrierEffect i) (by simp [State.extOf, hop]) (·.enterBarriers)

theorem Issues.exec_lockMark (hop : recOp w = 0x50) : exec (.lockMark b i) s
    = .next (s.issueWith b i false (s.rangesHeld b (s.extOf x w)) (lockMarkEffect i · x w)).failNamed :=
  h.engine_runRec hop lockMarkOk (fun _ => false) (lockMarkEffect i) (by simp [State.extOf, hop]) id

theorem Issues.exec_confirm (hop : recOp w = 0x51) : exec (.confirm b i) s
    = .next (s.issueWith b i false (s.rangesHeld b (s.extOf x w)) (confirmEffect i · x w)).failNamed :=
  h.engine_runRec hop confirmOk (fun _ => false) (confirmEffect i) (by simp [State.extOf, hop]) id

theorem Issues.exec_savePoint (hop : recOp w = 0x60) : exec (.savePoint b i) s
    = .next (s.issueWith b i false (s.rangesHeld b (s.extOf x w)) (savePointEffect i · x w)).failNamed :=
  h.engine_runRec hop savePointOk (fun _ => false) (savePointEffect i) (by simp [State.extOf, hop]) id

theorem Issues.exec_opFence (hop : recOp w = 0x70) : exec (.opFence b i) s
    = .next (s.issueWith b i false (s.rangesHeld b (s.extOf x w)) (opFenceEffect i · x w)).failNamed :=
  h.engine_runRec hop opFenceOk (fun _ => false) (opFenceEffect i) (by simp [State.extOf, hop]) id

theorem Issues.exec_wait (hop : recOp w = 0x71) : exec (.wait b i) s
    = .next ((s.issueWith b i false (s.rangesHeld b (s.extOf x w)) (waitEffect i · x w)).failNamed.waitAgain b i) :=
  h.engine_runRec hop waitOk (fun _ => false) (waitEffect i) (by simp [State.extOf, hop]) (·.waitAgain b i)

theorem Issues.exec_signal (hop : recOp w = 0x72) : exec (.signal b i) s
    = .next (s.issueWith b i false (s.rangesHeld b (s.extOf x w)) (signalEffect i · x w)).failNamed :=
  h.engine_runRec hop signalOk (fun _ => false) (signalEffect i) (by simp [State.extOf, hop]) id

end

/-! ### A count of 0 (R93) -/

theorem State.failNamed_atBarge {b : Nat} {s t : State} {y : Barge} (h : AtBarge b s t y) (hq : s.anyTileQuar = false) :
    t.failNamed = t := State.failNamed_of_none (h.anyTileQuar.trans hq)

/-- A record that does not run has no reads to look at again. -/
theorem State.prefetchAgain_of_not_running {s : State} {b i : Nat} {x : Barge} (hx : s.barge? b = some x)
    (h : x.opIs i .running = false) : s.prefetchAgain b i = s := by
  simp [State.prefetchAgain, hx, h]

theorem Barge.opIs_eq_false {x : Barge} {i : Nat} {st st' : RecSt} (h : x.opIs i st = true) (hne : st' ≠ st) : x.opIs i st' = false := by
  rw [Barge.opIs_iff] at h
  simp [Barge.opIs, h.2, Ne.symm hne]

section
variable {s : State} {b i w : Nat} {x : Barge} (h : Issues s b i x w) (hq : s.anyTileQuar = false)
include h hq

/-- The state in which a record has issued and completed, and nothing else has changed. -/
theorem Issues.completes {c : Instr} (hexec : exec c s = .next ((s.issue b i).finishOp b i).failNamed) :
    ∃ t y, exec c s = .next t ∧ Completed s t b i w x y ∧ t = { s with sv := { s.sv with barges := t.sv.barges } } := by
  have hat := h.issued.finishOp i
  rw [State.failNamed_atBarge hat hq] at hexec
  exact ⟨_, _, hexec, h.finished, hat.rest⟩

theorem Issues.zero_completes {c : Instr} {zero held : Bool} {effect : State → State}
    (hexec : exec c s = .next (s.issueWith b i zero held effect).failNamed) (hzero : zero = true) :
    ∃ t y, exec c s = .next t ∧ Completed s t b i w x y ∧ t = { s with sv := { s.sv with barges := t.sv.barges } } := by
  subst hzero
  exact h.completes hq hexec

theorem Issues.prefetch_zero_completes (hop : recOp w = 0x21) (hzero : gIndices w = 0) :
    ∃ t y, exec (.prefetch b i) s = .next t ∧ Completed s t b i w x y ∧ t = { s with sv := { s.sv with barges := t.sv.barges } } := by
  have hat := h.issued.finishOp i
  obtain ⟨hy, hdone, -⟩ := h.finished
  have hagain : ((s.issue b i).finishOp b i).prefetchAgain b i = (s.issue b i).finishOp b i :=
    State.prefetchAgain_of_not_running hy (Barge.opIs_eq_false hdone (by decide))
  have hexec := h.exec_prefetch hop
  rw [hzero, beq_self_eq_true, State.issueWith_zero, State.failNamed_atBarge hat hq, hagain] at hexec
  exact ⟨_, _, hexec, h.finished, hat.rest⟩

end

/-- Settles O24: every count that the statement names makes its command take the branch of R93. -/
theorem zeroCountRecordsCompleteAtOnce : Obligations.ZeroCountRecordsCompleteAtOnce := by
  intro c b i w s x h hq hc
  rcases hc with ⟨rfl, hop, hpair, hz⟩ | ⟨rfl, hop, hz⟩ | ⟨rfl, hop, hz⟩ | ⟨rfl, hop, hz⟩ | ⟨rfl, hop, hz⟩ | ⟨rfl, hop, hz⟩
    | ⟨rfl, hop, hz⟩ | ⟨rfl, hop, hz⟩ | ⟨rfl, hop, hz⟩ | ⟨rfl, hop, hz⟩
  · exact h.zero_completes hq (h.exec_mm hop hpair) (by simpa [mmZero, mmM, mmN, mmK, or_assoc] using hz)
  · exact h.zero_completes hq (h.exec_attn hop) (by simpa [kvZero] using hz)
  · exact h.zero_completes hq (h.exec_kvAppend hop) (by simpa [kvZero] using hz)
  · exact h.zero_completes hq (h.exec_kvCommit hop) (by simpa using hz)
  · exact h.zero_completes hq (h.exec_vec hop) (by obtain hz | hz := hz <;> simp [vecZero, hz])
  · exact h.zero_completes hq (h.exec_conv hop) (by simp [convZero, hz])
  · exact h.zero_completes hq (h.exec_gather hop) (by obtain hz | hz := hz <;> simp [gatherZero, hz])
  · exact h.prefetch_zero_completes hq hop hz
  · exact h.zero_completes hq (h.exec_pool hop) (by simpa using hz)
  · exact h.zero_completes hq (h.exec_sgrad hop) (by simpa using hz)

end Sys2Proof.Machine
end

section
/-! SUPPORT. A failure at barge scope (R116, R139) and the fates of the items that the barge carries: what they leave. The registers of
quarantined tiles and of refused units (R406, R408), the table of barges, and every store but external memory stay as they are. -/

namespace Sys2Proof.Machine

open Sys2Proof

/-! ### ERR's count of refused units and its quarantine bits -/

/-- From `s` to `t` ERR.POISON_REFUSALS and ERR.QUAR_TILEn have not changed (R406, R408). -/
def ErrKept (s t : State) : Prop := ∀ o, 0xF1C ≤ o → o < 0xF30 → t.reg pERR o = s.reg pERR o

theorem ErrKept.of_regs {s t : State} (h : t.regs = s.regs) : ErrKept s t := fun o _ _ => by rw [State.reg, State.reg, h]

theorem ErrKept.refl (s : State) : ErrKept s s := fun _ _ _ => rfl

theorem ErrKept.trans {s t u : State} (h : ErrKept s t) (k : ErrKept t u) : ErrKept s u := fun o h1 h2 => (k o h1 h2).trans (h o h1 h2)

theorem ErrKept.ite {s a b : State} {c : Prop} [Decidable c] (ha : ErrKept s a) (hb : ErrKept s b) : ErrKept s (if c then a else b) := by
  split
  · exact ha
  · exact hb

theorem ErrKept.foldl {α : Type} {f : State → α → State} (h : ∀ s x, ErrKept s (f s x)) (l : List α) (s : State) :
    ErrKept s (l.foldl f s) := by
  induction l generalizing s with
  | nil => exact .refl s
  | cons x l ih => exact (h s x).trans (ih _)

/-- A count at another register. -/
theorem State.count_errKept (s : State) {P o : Nat} (n : Nat) (h : ∀ x, 0xF1C ≤ x → x < 0xF30 → 0x4000 + x ≠ P * 0x1000 + o) :
    ErrKept s (s.count P o n) := fun x h1 h2 => s.reg_count_other n (h x h1 h2)

theorem State.err_errKept (s : State) (P k : Nat) : ErrKept s (s.err P k) := fun x h1 h2 => by
  by_cases hP : pERR = P
  · subst hP
    exact s.reg_err_same k (by decide) (by decide) (by simp only [oERR_COUNT]; omega) (by omega)
  · exact s.reg_err_page k hP (by decide) (by decide) (by omega)

theorem State.poisoning_errKept (s : State) (P k : Nat) : ErrKept s (s.poisoning P k) :=
  ((s.count_errKept (P := pERR) (o := 0xF18) 1 fun x _ _ => by simp only [pERR]; omega).trans (State.err_errKept _ P k)).trans
    (State.err_errKept _ pERR 0)

theorem State.noteFate_errKept (s : State) (fate : Nat) : ErrKept s (s.noteFate fate) := .ite (s.err_errKept pERR 4) (.refl s)

theorem State.writeTag_errKept (s : State) (a n : Nat) (new : Tag) (poison : Bool) (k : Nat) :
    ErrKept s (s.writeTag a n new poison k) := by
  have hcount : ∀ u : State, ErrKept u (u.count pERR 0xF34) := fun u => u.count_errKept 1 fun x _ _ => by simp only [pERR]; omega
  have harmed : ∀ (b : Bool) (r : Armed),
      ErrKept s (if b = true then State.count { s with armed := r } pERR 0xF34 else { s with armed := r }) :=
    fun b r => .ite (.trans (.of_regs rfl) (hcount _)) (.of_regs rfl)
  have hset : ∀ (u : State) (t : Tag), ErrKept s u → ErrKept s (u.setTag k t) := fun u t hu => hu.trans (.of_regs rfl)
  unfold State.writeTag
  apply hset
  split
  · exact ((harmed _ _).trans (hcount _)).trans (State.poisoning_errKept _ _ _)
  · exact (harmed _ _).trans (hcount _)
  · exact harmed _ _

theorem State.extWrite_errKept (s : State) (a : Nat) (bs : List Byte) (poison : Bool) : ErrKept s (s.extWrite a bs poison) :=
  ErrKept.trans (t := { s with ext := Mem.write s.ext a bs }) (.of_regs rfl) (.foldl (fun s k => s.writeTag_errKept _ _ _ _ k) _ _)

theorem State.settle_errKept (s : State) (it : Item) (fate v0 v1 detail berth : Nat) (frees : Option Nat) :
    ErrKept s (s.settle it fate v0 v1 detail berth frees) := by
  have hfated : ErrKept s (s.fated it fate (s.fateRec it fate v0 v1 detail berth frees)) :=
    (s.noteFate_errKept fate).trans (State.extWrite_errKept _ _ _ _)
  rw [State.settle_eq]
  refine ErrKept.trans ?_ (.of_regs rfl)
  exact .ite (hfated.trans (.of_regs rfl)) hfated

theorem ErrKept.anyTileQuar {s t : State} (h : ErrKept s t) : t.anyTileQuar = s.anyTileQuar := by
  have hreg : ∀ n ∈ List.range 4, (t.regN pERR (0xF20 + 4 * n) != 0) = (s.regN pERR (0xF20 + 4 * n) != 0) := fun n hn => by
    have hn := List.mem_range.1 hn
    rw [State.regN, State.regN, h _ (by omega) (by omega)]
  unfold State.anyTileQuar
  rw [Bool.eq_iff_iff]
  simp only [List.any_eq_true]
  exact ⟨fun ⟨n, hn, hq⟩ => ⟨n, hn, hreg n hn ▸ hq⟩, fun ⟨n, hn, hq⟩ => ⟨n, hn, (hreg n hn).symm ▸ hq⟩⟩

/-! ### The fates of items -/

/-- What the fates of items may change: registers, external memory and its tags, the queues, armed errors, and berths. -/
def Mask.fates : Mask := { regs := true, ext := true, tags := true, hq := true, sv := true, armed := true }

/-- From `s` to `t` items have received their fates (R71, R72). -/
structure Fates (s t : State) : Prop where
  mask : t.mask Mask.fates = s.mask Mask.fates
  barges : t.sv.barges = s.sv.barges
  units : t.sv.units = s.sv.units
  err : ErrKept s t

theorem Fates.refl (s : State) : Fates s s := ⟨rfl, rfl, rfl, .refl s⟩

theorem Fates.trans {s t u : State} (h : Fates s t) (k : Fates t u) : Fates s u :=
  ⟨k.mask.trans h.mask, k.barges.trans h.barges, k.units.trans h.units, h.err.trans k.err⟩

theorem Fates.ite {s a b : State} {c : Prop} [Decidable c] (ha : Fates s a) (hb : Fates s b) : Fates s (if c then a else b) := by
  split
  · exact ha
  · exact hb

theorem Fates.foldl {α : Type} {f : State → α → State} (h : ∀ s x, Fates s (f s x)) (l : List α) (s : State) : Fates s (l.foldl f s) := by
  induction l generalizing s with
  | nil => exact .refl s
  | cons x l ih => exact (h s x).trans (ih _)

/-- A step that leaves the lock-keeper's state alone. -/
theorem Fates.of_mask {s t : State} (hmask : t.mask { Mask.fates with sv := false } = s.mask { Mask.fates with sv := false })
    (herr : ErrKept s t) : Fates s t := by
  have hsv := State.sv_of_mask hmask rfl
  refine ⟨?_, by rw [hsv], by rw [hsv], herr⟩
  simpa [State.mask, Mask.fates, hsv] using hmask

theorem Fates.barge? {s t : State} (h : Fates s t) (k : Nat) : t.barge? k = s.barge? k := by rw [State.barge?, State.barge?, h.barges]

theorem State.count_fates (s : State) {P o : Nat} (n : Nat) (h : ∀ x, 0xF1C ≤ x → x < 0xF30 → 0x4000 + x ≠ P * 0x1000 + o) :
    Fates s (s.count P o n) := .of_mask (s.count_mask _ rfl P o n) (s.count_errKept n h)

theorem State.err_fates (s : State) (P k : Nat) : Fates s (s.err P k) := .of_mask (s.err_mask _ rfl rfl P k) (s.err_errKept P k)

theorem State.noteFate_fates (s : State) (fate : Nat) : Fates s (s.noteFate fate) :=
  .of_mask (s.noteFate_mask _ rfl rfl fate) (s.noteFate_errKept fate)

theorem State.settle_fates (s : State) (it : Item) (fate v0 v1 detail berth : Nat) (frees : Option Nat) :
    Fates s (s.settle it fate v0 v1 detail berth frees) :=
  .of_mask (s.settle_mask _ rfl rfl rfl rfl rfl it fate v0 v1 detail berth frees) (s.settle_errKept it fate v0 v1 detail berth frees)

theorem State.settleJ_fates (s : State) (j fate : Nat) : Fates s (s.settleJ j fate) := by
  unfold State.settleJ
  split
  · exact s.settle_fates _ _ _ _ _ _ _
  · exact .refl s

theorem State.setBerth_fates (s : State) (n : Nat) (x : Berth) : Fates s (s.setBerth n x) := ⟨rfl, rfl, rfl, .of_regs rfl⟩

theorem State.endRequest_fates (s : State) (n fate : Nat) : Fates s (s.endRequest n fate) := by
  unfold State.endRequest State.fateRequest
  refine .ite (.refl s) (.ite (.refl s) ?_)
  split
  · exact (((s.setBerth_fates n _).trans (State.settle_fates _ _ _ _ _ _ _ _))).trans
      (.foldl (fun s it => s.settle_fates it _ _ _ _ _ _) _ _)
  · exact .refl s

/-! ### Failure at barge scope -/

/-- The barge once it has failed (R116). -/
def Barge.failAt (x : Barge) (fate : Nat) : Barge :=
  { x with failed := some fate, specs := x.specs.map fun p => { p with discarded := true } }

/-- The work of barge `b` abandoned: its units and gathers are gone, and its pending words are discarded (R116, R139). -/
def State.abandonWork (s : State) (b fate : Nat) (x : Barge) : State :=
  let u := s.mapMarks (fun k => s.bargeKey x k) fun m => if m.pend = 0 then m else m.discard
  State.updBarge { u with
    sv := { u.sv with units := u.sv.units.filter (·.b != b) }
    gathers := u.gathers.filter (·.b != b) } b (·.failAt fate)

/-- A failure is the end of the barge's work, and then the fates of what it carries. -/
theorem State.failBarge_fates {s : State} {b : Nat} {x : Barge} (hx : s.barge? b = some x) (hok : x.failed = none) (fate : Nat) :
    Fates (s.abandonWork b fate x) (s.failBarge b fate) := by
  have hrows : Fates (s.abandonWork b fate x)
      (x.rows.foldl (fun s r => if r.kind = 2 then s else s.endRequest r.berth fate) (s.abandonWork b fate x)) :=
    .foldl (fun s r => .ite (.refl s) (s.endRequest_fates _ _)) _ _
  unfold State.failBarge
  simp only [hx, hok, Option.isSome_none, Bool.false_eq_true, if_false]
  refine Fates.trans ?_ (State.noteFate_fates _ _)
  split
  · exact hrows.trans (State.settleJ_fates _ _ _)
  · exact hrows

theorem State.failBarge_of_failed {s : State} {b : Nat} {x : Barge} (hx : s.barge? b = some x) (hf : x.failed.isSome = true)
    (fate : Nat) : s.failBarge b fate = s := by
  simp [State.failBarge, hx, hf]

theorem State.failBarge_self {s : State} {b : Nat} {x : Barge} (hx : s.barge? b = some x) (hok : x.failed = none) (fate : Nat) :
    (s.failBarge b fate).barge? b = some (x.failAt fate) := by
  rw [(s.failBarge_fates hx hok fate).barge?]
  exact State.barge?_updBarge_self (f := (·.failAt fate)) hx fun _ => rfl

theorem State.failBarge_units {s : State} {b : Nat} {x : Barge} (hx : s.barge? b = some x) (hok : x.failed = none) (fate : Nat) :
    (s.failBarge b fate).sv.units = s.sv.units.filter (·.b != b) := (s.failBarge_fates hx hok fate).units

theorem State.failBarge_errKept (s : State) (b fate : Nat) : ErrKept s (s.failBarge b fate) := by
  cases hx : s.barge? b with
  | none => simp only [State.failBarge, hx]; exact .refl s
  | some x =>
    cases hf : x.failed with
    | none => exact ErrKept.trans (t := s.abandonWork b fate x) (.of_regs rfl) (s.failBarge_fates hx hf fate).err
    | some f => rw [State.failBarge_of_failed hx (by simp [hf])]; exact .refl s

/-- Where no tile is quarantined, a failed barge makes no other one fail (R408). -/
theorem State.failBarge_failNamed {s : State} (h : s.anyTileQuar = false) (b fate : Nat) :
    (s.failBarge b fate).failNamed = s.failBarge b fate :=
  State.failNamed_of_none ((s.failBarge_errKept b fate).anyTileQuar.trans h)

end Sys2Proof.Machine
end

section
/-! SUPPORT. LOCK_MARK (R110): the locks it opens, and the checks that it fails. -/

namespace Sys2Proof.Machine

open Sys2Proof

theorem mem_bitsOf {x n k : Nat} : k ∈ bitsOf x n ↔ k < n ∧ nbit x k = true := by
  simp [bitsOf]

theorem State.seeIn_of_calm {s : State} (h : s.armed.latent = []) (st : Store) (rs : List (Nat × Nat)) : s.seeIn st rs = s := by
  simp [State.seeIn, h]

/-- The chambers that a LOCK_MARK opens, record `i` with word `w` (R110, R119). -/
def openedChambers (i w : Nat) : List Chamber :=
  (bitsOf (recRegions w) 8).map fun r => { region := r, lock := recP w 3 0, st := .opened, mark := i, attempts := 0 }

/-- A LOCK_MARK whose lock is open already in a region it names, or that sets a rsvd bit, does not pass its check. -/
theorem lockMarkOk_eq_false {s : State} {x : Barge} {i w : Nat} (h : recP w 127 4 ≠ 0
    ∨ ∃ k r, k < i ∧ recOp (s.progRec x k) = 0x50 ∧ recP (s.progRec x k) 3 0 = recP w 3 0 ∧ r < 8
        ∧ nbit (recRegions w) r = true ∧ nbit (recRegions (s.progRec x k)) r = true) :
    lockMarkOk s x (s.progRecs x i) w = false := by
  rw [Bool.eq_false_iff]
  intro hok
  simp only [lockMarkOk, Bool.and_eq_true, beq_iff_eq, List.all_eq_true, Bool.not_eq_true'] at hok
  obtain h | ⟨k, r, hk, hop, hlock, hr, hw, hv⟩ := h
  · exact h hok.1
  · have hmarked : marked (s.progRecs x i) (recP w 3 0) r = true := by
      simp only [marked, State.progRecs, List.any_map, List.any_eq_true, List.mem_range]
      exact ⟨k, hk, by simp [hop, hlock, hv]⟩
    rw [hok.2 r (mem_bitsOf.2 ⟨hr, hw⟩)] at hmarked
    exact absurd hmarked (by decide)

/-- The next record of a barge, of the command's opcode, that does not pass its check fails its barge (R92, R116). -/
theorem State.fetchRec_rejected {s : State} {b i w code : Nat} {x : Barge} {own : State → Barge → List Nat → Nat → Bool}
    (hcalm : s.armed.latent = []) (hx : s.barge? b = some x) (hrun : x.st = .running) (hok : x.failed = none)
    (hi : i = x.ops.length) (hlt : i < x.progLen) (hclean : s.poisonAt (x.recAt i).1 (x.recAt i).2 64 = false)
    (hw : w = s.progRec x i) (hop : recOp w = code) (hown : own s x (s.progRecs x i) w = false) :
    s.fetchRec b i code own = s.failBarge b fCFG := by
  have hstored : s.storedRec x i = w := by simp [hw, State.progRec, hi]
  simp [State.fetchRec, hx, hrun, hok, hi.symm, Nat.not_le.2 hlt, State.seeIn_of_calm hcalm, hclean, hstored, hop, hown]

/-- A record of a barge that has failed does not issue (R116). -/
theorem State.runRec_of_failed {s t : State} {b i code fate : Nat} {x : Barge} {own : State → Barge → List Nat → Nat → Bool}
    {zero : Nat → Bool} {effect : State → Barge → Nat → State} {ext : State → Barge → Nat → List (Nat × Nat)}
    (hfetch : s.fetchRec b i code own = t) (ht : t.barge? b = some x) (hf : x.failed = some fate) :
    s.runRec b i code own zero effect ext = t.failNamed := by
  have hmay : t.mayIssue x i = false := by simp [State.mayIssue, hf]
  simp [State.runRec, hfetch, ht, hmay]

/-- A LOCK_MARK that issues opens its locks and is complete. -/
theorem Issues.exec_lockMark_opens {s : State} {b i w : Nat} {x : Barge} (h : Issues s b i x w) (hq : s.anyTileQuar = false)
    (hop : recOp w = 0x50) : ∃ t y, exec (.lockMark b i) s = .next t ∧ Completed s t b i w x y
      ∧ y.chambers = x.chambers ++ openedChambers i w ∧ t = { s with sv := { s.sv with barges := t.sv.barges } } := by
  have hat := h.issued.updBarge (f := fun y => { y with chambers := y.chambers ++ openedChambers i w }) fun _ => rfl
  have hdone := hat.finishOp_completed h.word h.lt (x.issueAt_length s.now i) (x.issueAt_word s.now i h.lt)
    ((x.issueAt_failed s.now i).trans h.ok) fun _ hk => x.issueAt_op_other s.now hk
  have hfree : s.rangesHeld b (s.extOf x w) = false := by simp [State.extOf, hop, State.rangesHeld_nil]
  have hexec := h.exec_lockMark hop
  rw [hfree, State.issueWith_free, lockMarkEffect, h.barge_id] at hexec
  refine ⟨_, _, hexec.trans ?_, hdone, ?_, (hat.finishOp i).rest⟩
  · exact congrArg _ (State.failNamed_atBarge (hat.finishOp i) hq)
  · rw [Barge.finishAt_chambers, x.issueAt_chambers]

/-- Settles O25. -/
theorem lockMarkOpensEachNamedLockOnce : Obligations.LockMarkOpensEachNamedLockOnce := by
  rintro b i w s x ⟨hquar, hlatent⟩
  refine ⟨fun h hop => h.exec_lockMark_opens hquar hop, fun hup hx hw hop hrun hok hi hlt hclean hbad => ?_⟩
  have hfetch : s.fetchRec b i 0x50 lockMarkOk = s.failBarge b fCFG :=
    State.fetchRec_rejected hlatent hx hrun hok hi hlt hclean hw hop (lockMarkOk_eq_false hbad)
  have hfailed := State.failBarge_self hx hok fCFG
  have hexec : exec (.lockMark b i) s = .next (s.runRec b i 0x50 lockMarkOk (fun _ => false) (lockMarkEffect i)) :=
    State.engine_up hup fun s => s.runRec b i 0x50 lockMarkOk (fun _ => false) (lockMarkEffect i)
  refine ⟨s.failBarge b fCFG, x.failAt fCFG, hexec.trans ?_, hfailed, rfl, rfl, rfl⟩
  rw [State.runRec_of_failed hfetch hfailed rfl, State.failBarge_failNamed hquar]

end Sys2Proof.Machine
end

section
/-! SUPPORT. OP_COMPLETE (R89, R95, R113): when a record is done, and what its completion counts and empties. -/

namespace Sys2Proof.Machine

open Sys2Proof

/-- A record that OP_COMPLETE may end, and no FENCE, is done when none of its units and none of its answers is left. -/
theorem State.opDone_eq {s : State} {x : Barge} {i w : Nat} (hok : x.failed = none) (hrun : x.opIs i .running = true)
    (hw : w = s.progRec x i) (hself : endsItself (recOp w) = false) (hfence : recOp w ≠ 0x70) : s.opDone x i =
      ((recOp w != 0x24 || (s.rows.moves.isEmpty && s.rows.migRest.isEmpty)) && ((s.unitsOf x.id i).isEmpty && (x.op i).outstanding == 0)) := by
  simp [State.opDone, hok, hrun, ← hw, hself, hfence]

/-- A record that does not run, or waits for a unit or an answer, is not done. -/
theorem State.opDone_eq_false {s : State} {x : Barge} {k : Nat} (hfence : recOp (s.progRec x k) ≠ 0x70)
    (h : x.opIs k .running = false ∨ s.unitsOf x.id k ≠ [] ∨ (x.op k).outstanding ≠ 0) : s.opDone x k = false := by
  obtain h | h | h := h <;> simp [State.opDone, hfence, h]

/-- What a record's completion does before its token is set: it counts, and empties its gradient lists (R170, R382, R455). -/
def State.opEnding (s : State) (x : Barge) (w : Nat) : State := (s.countOp x w).emptyLists x w

theorem State.opEnding_of_not_sgrad (s : State) (x : Barge) {w : Nat} (h : recOp w ≠ 0x23) : s.opEnding x w = s.countOp x w := by
  simp [State.opEnding, State.emptyLists, h]

theorem State.opEnding_sv (s : State) (x : Barge) (w : Nat) : (s.opEnding x w).sv = s.sv :=
  State.sv_of_mask
    (M :=
      { regs := true, ext := true, tags := true, scratch := true, pool := true, pound := true, marks := true, hq := true,
        regions := true, tileErrs := true, armed := true })
    ((State.emptyLists_mask _ rfl rfl rfl rfl rfl rfl rfl rfl rfl rfl rfl _ x w).trans (State.countOp_mask _ rfl s x w)) rfl

theorem State.opEnding_col (s : State) (x : Barge) (w : Nat) : (s.opEnding x w).col = s.col :=
  State.col_of_mask
    (M :=
      { regs := true, ext := true, tags := true, scratch := true, pool := true, pound := true, marks := true, hq := true,
        regions := true, tileErrs := true, armed := true })
    ((State.emptyLists_mask _ rfl rfl rfl rfl rfl rfl rfl rfl rfl rfl rfl _ x w).trans (State.countOp_mask _ rfl s x w)) rfl

theorem State.eq_of_regs_mask {s t : State} (h : t.mask { regs := true } = s.mask { regs := true }) : t = { s with regs := t.regs } := by
  cases s
  cases t
  simpa [State.mask] using h

theorem State.countOp_counted {s : State} {b : Nat} {x y : Barge} (hx : s.barge? b = some y) (w : Nat) :
    Counted b s (s.countOp x w) y := by
  have hrest := State.eq_of_regs_mask (s.countOp_mask { regs := true } rfl x w)
  have hsv : (s.countOp x w).sv = s.sv := by rw [hrest]
  have hbarge : ∀ k, (s.countOp x w).barge? k = s.barge? k := fun k => by rw [State.barge?, State.barge?, hsv]
  exact ⟨(hbarge b).trans hx, fun k _ => hbarge k, by rw [hsv]; exact hrest⟩

/-! ### Gradient lists -/

theorem State.region_setUses (s : State) (r n k : Nat) :
    (s.setUses r n).region k = (s.updRegion r fun x => { x with uses := n }).region k := by
  have hmask := State.wr_mask
    { regs := true, ext := true, tags := true, scratch := true, pool := true, pound := true, marks := true, hq := true, tileErrs := true, armed := true }
    rfl rfl rfl rfl rfl rfl rfl rfl rfl rfl (s.updRegion r fun x => { x with uses := n }) (.pool r) (s.cfgN pSPD 0x208) (leBytes 64 n) 0 false
  rw [State.region, State.setUses, State.regions_of_mask hmask rfl]
  rfl

theorem State.region_updRegion_self (s : State) (r : Nat) (f : Region → Region) : (s.updRegion r f).region r = f (s.region r) :=
  SMap.get_put_self _ _ _ _

theorem State.region_updRegion_other (s : State) {r k : Nat} (f : Region → Region) (h : k ≠ r) :
    (s.updRegion r f).region k = s.region k := SMap.get_put_other _ _ _ _ _ h

/-- A region whose list is empty, or is emptied later, ends with an empty list. -/
theorem State.uses_foldl_setUses (l : List Nat) (s : State) (k : Nat) (h : k ∈ l ∨ (s.region k).uses = 0) :
    ((l.foldl (fun s r => s.setUses r 0) s).region k).uses = 0 := by
  induction l generalizing s with
  | nil => exact h.resolve_left (by simp)
  | cons r l ih =>
    refine ih _ ?_
    obtain rfl | hne := eq_or_ne k r
    · exact .inr (by rw [State.region_setUses, State.region_updRegion_self])
    · rw [State.region_setUses, State.region_updRegion_other _ _ hne]
      exact h.imp_left fun h => (List.mem_cons.1 h).resolve_left hne

theorem State.uses_opEnding (s : State) (x : Barge) {w r : Nat} (hop : recOp w = 0x23) (htarget : recP w 40 40 = 1)
    (hr : r ∈ x.physOf (recRegions w)) : ((s.opEnding x w).region r).uses = 0 := by
  have hlists : s.opEnding x w = (x.physOf (recRegions w)).foldl (fun s r => s.setUses r 0) (s.countOp x w) := by
    simp [State.opEnding, State.emptyLists, hop, gradTarget1, htarget]
  rw [hlists]
  exact State.uses_foldl_setUses _ _ r (.inl hr)

/-! ### The completion -/

theorem State.enterBarriers_of_nil {s : State} (h : s.col.barriers = []) : s.enterBarriers = s := by simp [State.enterBarriers, h]

/-- The records that complete together with record `i`. -/
def State.completing (s : State) (x : Barge) (i : Nat) : List Nat := i :: (s.pairOf x i).toList.filter fun k => !x.opIs k .complete

theorem State.opComplete_eq {s : State} {b : Nat} {x : Barge} (hx : s.barge? b = some x) (i : Nat) : s.opComplete b i =
    if (s.completing x i).all (s.opDone x) then
      ((s.completing x i).foldl (fun s k => (s.opEnding x (s.progRec x k)).finishOp b k) s).enterBarriers
    else s := by
  simp only [State.opComplete, hx]
  rfl

theorem State.completing_alone {s : State} {x : Barge} {i : Nat} (h : ∀ k, s.pairOf x i = some k → x.opIs k .complete = true) :
    s.completing x i = [i] := by
  unfold State.completing
  cases hp : s.pairOf x i with
  | none => rfl
  | some k => simp [h k hp]

theorem State.completing_pair {s : State} {x : Barge} {i k : Nat} (hp : s.pairOf x i = some k) (hk : x.opIs k .complete = false) :
    s.completing x i = [i, k] := by
  simp [State.completing, hp, hk]

/-- A record of no SGRAD that completes: it is counted, and its token is set. -/
theorem Counted.ends {b k v : Nat} {s t : State} {x y : Barge} (h : Counted b s t y) (hv : v = s.progRec x k) (hk : k < x.ops.length)
    (hlen : y.ops.length = x.ops.length) (hword : (y.op k).word = (x.op k).word) (hop : recOp v ≠ 0x23) (z : Barge) :
    Counted b s ((t.opEnding z v).finishOp b k) (y.finishAt k (recSignal v)) := by
  have hcount := h.trans (State.countOp_counted (x := z) h.mine v)
  have hrec : (t.countOp z v).progRec y k = v := by rw [hv]; exact State.progRec_congr hk hlen hword
  have hfin := hcount.trans ((AtBarge.refl hcount.mine).finishOp k).counted
  rwa [hrec, ← State.opEnding_of_not_sgrad _ _ hop] at hfin

theorem recOp_of_pairOf {s : State} {x : Barge} {i k : Nat} (h : s.pairOf x i = some k) :
    recOp (s.progRec x i) = 0x01 ∨ recOp (s.progRec x i) = 0x02 := by
  simp only [State.pairOf] at h
  split at h
  · next h1 => exact .inl (of_decide_eq_true (Bool.and_eq_true_iff.1 h1).1)
  · split at h
    · next h2 => exact .inr (of_decide_eq_true (Bool.and_eq_true_iff.1 h2).1)
    · exact absurd h (by simp)

section
variable {s : State} {b i w : Nat} {x : Barge} (hx : s.barge? b = some x) (hw : w = s.progRec x i) (hi : i < x.ops.length)
include hx hw hi

/-- What the completion of a record of no pair leaves, while no barrier is open. -/
theorem ended_alone (hok : x.failed = none) (hbar : s.col.barriers = []) :
    let t := ((s.opEnding x w).finishOp b i).enterBarriers
    let y := x.finishAt i (recSignal w)
    t.barge? b = some y ∧ (recOp w ≠ 0x23 → Completed s t b i w x y ∧ t = { s with regs := t.regs, sv := { s.sv with barges := t.sv.barges } })
      ∧ (recOp w = 0x23 → recP w 40 40 = 1 → ∀ r, r ∈ x.physOf (recRegions w) → (t.region r).uses = 0) := by
  have hbar' : ((s.opEnding x w).finishOp b i).col.barriers = [] := by
    rw [State.finishOp_eq, State.updBarge_col, State.opEnding_col, hbar]
  rw [State.enterBarriers_of_nil hbar']
  refine ⟨?_, fun hop => ?_, fun hop htarget r hr => s.uses_opEnding x hop htarget hr⟩
  · have hmine : (s.opEnding x w).barge? b = some x := by rw [State.barge?, State.opEnding_sv]; exact hx
    have hfin := ((AtBarge.refl hmine).finishOp i).mine
    rwa [State.progRec_congr (s := s) hi rfl rfl, ← hw] at hfin
  · have hends := Counted.ends (AtBarge.refl hx).counted hw hi rfl rfl hop x
    exact ⟨hends.completed (x.finishAt_complete _ hi) (x.finishAt_tokenSet i _) hok fun k hk => x.finishAt_op_other _ hk, hends.rest⟩

/-- What the completion of a pair leaves, while no barrier is open. -/
theorem ended_pair {k v : Nat} (hv : v = s.progRec x k) (hk : k < x.ops.length) (hopi : recOp w ≠ 0x23) (hopk : recOp v ≠ 0x23)
    (hbar : s.col.barriers = []) :
    let t := ([i, k].foldl (fun s k => (s.opEnding x (s.progRec x k)).finishOp b k) s).enterBarriers
    let y := (x.finishAt i (recSignal w)).finishAt k (recSignal v)
    Counted b s t y := by
  have hi' := Counted.ends (AtBarge.refl hx).counted hw hi rfl rfl hopi x
  have hk' := hi'.ends hv hk (x.finishAt_length i _) (x.finishAt_word i _ hk) hopk x
  have hrec : ((s.opEnding x w).finishOp b i).progRec x k = v := by rw [hv]; exact State.progRec_congr hk rfl rfl
  have hbar' : ((((s.opEnding x w).finishOp b i).opEnding x v).finishOp b k).col.barriers = [] := by
    rw [hk'.rest]
    exact hbar
  simp only [List.foldl_cons, List.foldl_nil, ← hw, hrec]
  rw [State.enterBarriers_of_nil hbar']
  exact hk'

end

/-- Settles O28. -/
theorem opCompleteEndsTheRecord : Obligations.OpCompleteEndsTheRecord := by
  intro b i w s x hup hx hw hok hrun hop
  obtain rfl := barge?_id hx
  have hexec : exec (.opComplete x.id i) s = .next (s.opComplete x.id i) := State.engine_up hup fun s => s.opComplete x.id i
  have hi := ((x.opIs_iff i _).1 hrun).1
  have hself : endsItself (recOp w) = false ∧ recOp w ≠ 0x70 := by
    simp only [List.mem_cons, List.not_mem_nil, or_false, not_or] at hop
    simp only [endsItself, Bool.or_eq_false_iff, beq_eq_false_iff_ne, Bool.and_eq_false_iff, decide_eq_false_iff_not]
    omega
  have hdone_iff := State.opDone_eq hok hrun hw hself.1 hself.2
  rw [hexec, State.opComplete_eq hx]
  refine ⟨fun hunits hout hmoves => ⟨fun halone => ?_, fun k hp hrunk hopk hunitsk houtk hbar => ?_, fun k hp hk hwait hfence => ?_⟩,
    fun hleft => ?_⟩
  · have hdone : s.opDone x i = true := by
      rw [hdone_iff]
      by_cases h24 : recOp w = 0x24
      · simp [hunits, hout, hmoves h24]
      · simp [hunits, hout, h24]
    rw [State.completing_alone halone]
    simp only [List.all_cons, List.all_nil, hdone, Bool.and_self, if_true, List.foldl_cons, List.foldl_nil, ← hw]
    refine ⟨rfl, fun hbar => ?_⟩
    obtain ⟨hmine, hplain, hlists⟩ := ended_alone hx hw hi hok hbar
    exact ⟨_, _, rfl, hmine, x.finishAt_complete _ hi, x.finishAt_tokenSet i _, rfl, rfl, hplain, hlists⟩
  · have hk := (x.opIs_iff k _).1 hrunk
    have hnot : x.opIs k .complete = false := Barge.opIs_eq_false hrunk (by decide)
    have hopi : recOp w = 0x01 ∨ recOp w = 0x02 := hw ▸ recOp_of_pairOf hp
    have hopk' : recOp (s.progRec x k) = 0x01 ∨ recOp (s.progRec x k) = 0x02 := by simpa using hopk
    have hselfk : endsItself (recOp (s.progRec x k)) = false := by obtain h | h := hopk' <;> rw [h] <;> decide
    have hdone : s.opDone x i = true ∧ s.opDone x k = true := by
      constructor
      · rw [hdone_iff]
        obtain h | h := hopi <;> simp [hunits, hout, h]
      · rw [State.opDone_eq hok hrunk rfl hselfk (by omega)]
        obtain h | h := hopk' <;> simp [hunitsk, houtk, h]
    have hpair := ended_pair hx hw hi (k := k) rfl hk.1 (by omega) (by omega) hbar
    rw [State.completing_pair hp hnot]
    simp only [List.all_cons, List.all_nil, hdone.1, hdone.2, Bool.and_self, if_true]
    refine ⟨_, _, rfl, hpair.mine, ?_, ?_, ?_, Barge.finishAt_tokenSet _ k _, hpair.rest⟩
    · exact Barge.finishAt_keeps_complete _ k _ (x.finishAt_complete _ hi)
    · exact Barge.finishAt_complete _ _ (by rw [x.finishAt_length]; exact hk.1)
    · exact Barge.finishAt_keeps_token _ k _ (x.finishAt_tokenSet i _)
  · rw [State.completing_pair hp hk]
    simp [State.opDone_eq_false hfence hwait]
  · have hdone : s.opDone x i = false := State.opDone_eq_false (hw ▸ hself.2) (.inr hleft)
    simp [State.completing, hdone]

end Sys2Proof.Machine
end

section
/-! SUPPORT. The records of ordering (R112 to R115): what a FENCE and a WAIT look at, the commit unit of a SIGNAL, and the start of a
save (R305, R306). -/

namespace Sys2Proof.Machine

open Sys2Proof

theorem State.failNamed_of_errKept {s t : State} (h : ErrKept s t) (hq : s.anyTileQuar = false) : t.failNamed = t :=
  State.failNamed_of_none (h.anyTileQuar.trans hq)

/-- What another barge's open collectives hold does not turn on this barge's entry (R135). -/
theorem AtBarge.rangesHeld {b : Nat} {s t : State} {y : Barge} (h : AtBarge b s t y) (rs : List (Nat × Nat)) :
    t.rangesHeld b rs = s.rangesHeld b rs := by
  have hcol : t.col = s.col := by rw [h.rest]
  have hctx : ∀ c : Ctx, c.b ≠ b → t.ctxRange c = s.ctxRange c := fun c hc => by
    unfold State.ctxRange
    rw [h.others c.b hc]
    have hrec : ∀ z : Barge, t.progRec z c.i = s.progRec z c.i := fun z => by rw [h.rest]; rfl
    cases s.barge? c.b with
    | none => rfl
    | some z => simp only [hrec]
  unfold State.rangesHeld
  rw [hcol]
  congr 1
  funext c
  by_cases hc : c.b = b
  · simp [hc]
  · rw [hctx c hc]

section
variable {s : State} {b i w : Nat} {x : Barge}

/-! ### FENCE (R113) -/

theorem State.fenceMet_iff (hw : w = s.progRec x i) : s.fenceMet x i = true ↔ ∀ k, k < i →
    ((recP w 0 0 = 0 ∧ recRegions (s.progRec x k) &&& recRegions w = 0) ∨ x.opIs k .complete = true)
      ∧ (recP w 1 1 = 0 ∨ (x.op k).outstanding = 0) := by
  simp [State.fenceMet, ← hw]

theorem Issues.exec_opFence_eq (h : Issues s b i x w) (hq : s.anyTileQuar = false) (hop : recOp w = 0x70) :
    exec (.opFence b i) s = .next (if s.fenceMet x i then (s.issue b i).finishOp b i else s.issue b i) := by
  have hfree : s.rangesHeld b (s.extOf x w) = false := by simp [State.extOf, hop, State.rangesHeld_nil]
  have heffect : opFenceEffect i (s.issue b i) x w = if s.fenceMet x i then (s.issue b i).finishOp b i else s.issue b i := by
    rw [opFenceEffect, h.barge_id]
    rfl
  rw [h.exec_opFence hop, hfree, State.issueWith_free, heffect]
  congr 1
  split
  · exact State.failNamed_atBarge (h.issued.finishOp i) hq
  · exact State.failNamed_atBarge h.issued hq

/-! ### WAIT (R114) -/

theorem State.waitMet_iff (s : State) (w : Nat) :
    s.waitMet w = true ↔ s.extPoison (recA w).addr 8 = false ∧ recP w 63 0 ≤ s.extNat (recA w).addr 8 := by simp [State.waitMet]

/-- Whether a WAIT of barge `b` sees its word satisfied: it lies in no other barge's open C range, and has come (R114, R135). -/
def State.waitSeen (s : State) (b w : Nat) : Bool := !s.rangesHeld b ((recA w).extBytes 8) && s.waitMet w

theorem AtBarge.waitSeen {t : State} {y : Barge} (h : AtBarge b s t y) (w : Nat) : t.waitSeen b w = s.waitSeen b w := by
  unfold State.waitSeen
  rw [h.rangesHeld, State.waitMet, State.waitMet, h.rest]
  rfl

/-- A WAIT that runs in a barge that runs completes when its word is satisfied (R114). -/
theorem State.waitAgain_eq (hx : s.barge? b = some x) (hw : w = s.progRec x i) (hop : recOp w = 0x71) (hrun : x.opIs i .running = true)
    (hok : x.failed = none) (hst : x.st = .running) : s.waitAgain b i = if s.waitSeen b w then s.finishOp b i else s := by
  simp [State.waitAgain, hx, ← hw, hop, hrun, hok, hst, State.waitSeen, State.waitHeld, barge?_id hx]

theorem State.waitAgain_of_not_running (hx : s.barge? b = some x) (h : x.opIs i .running = false) : s.waitAgain b i = s := by
  simp [State.waitAgain, hx, h]

/-- A WAIT that may issue completes at once if its word is satisfied, and else runs (R114). -/
theorem Issues.exec_wait_eq (h : Issues s b i x w) (hq : s.anyTileQuar = false) (hop : recOp w = 0x71) :
    exec (.wait b i) s = .next (if s.waitSeen b w then (s.issue b i).finishOp b i else s.issue b i) := by
  have hfree : s.rangesHeld b (s.extOf x w) = false := by simp [State.extOf, hop, State.rangesHeld_nil]
  have heffect : waitEffect i (s.issue b i) x w = if s.waitSeen b w then (s.issue b i).finishOp b i else s.issue b i := by
    rw [waitEffect, State.waitHeld, h.barge_id, ← h.issued.waitSeen w]
    rfl
  rw [h.exec_wait hop, hfree, State.issueWith_free, heffect]
  congr 1
  have hrun : (x.issueAt s.now i).opIs i .running = true := by
    rw [Barge.opIs_iff, x.issueAt_op_self _ h.lt]
    exact ⟨by simpa using h.lt, rfl⟩
  cases hseen : s.waitSeen b w with
  | true =>
    obtain ⟨hmine, hdone, -⟩ := h.finished
    simp only [if_true]
    rw [State.failNamed_atBarge (h.issued.finishOp i) hq, State.waitAgain_of_not_running hmine (Barge.opIs_eq_false hdone (by decide))]
  | false =>
    have hword : w = (s.issue b i).progRec (x.issueAt s.now i) i := by
      rw [h.word]; exact (State.progRec_congr h.lt (x.issueAt_length _ _) (x.issueAt_word _ _ h.lt)).symm
    simp only [Bool.false_eq_true, if_false]
    rw [State.failNamed_atBarge h.issued hq, State.waitAgain_eq h.issued.mine hword hop hrun (by simpa using h.ok)
      (by simpa using h.running), h.issued.waitSeen, hseen]
    rfl

/-- The command of a record that runs already does not issue it again. -/
theorem State.runRec_of_running {code : Nat} {own : State → Barge → List Nat → Nat → Bool} {zero : Nat → Bool}
    {effect : State → Barge → Nat → State} {ext : State → Barge → Nat → List (Nat × Nat)} (hx : s.barge? b = some x)
    (hrun : x.opIs i .running = true) : s.runRec b i code own zero effect ext = s.failNamed := by
  have hmay : s.mayIssue x i = false := by simp [State.mayIssue, Barge.opIs_eq_false hrun (show RecSt.waiting ≠ .running by decide)]
  simp [State.runRec, State.fetchRec_fetched hx ((x.opIs_iff i _).1 hrun).1, hx, hmay]

theorem exec_wait_running (hup : s.up = true) (hq : s.anyTileQuar = false) (hx : s.barge? b = some x) (hw : w = s.progRec x i)
    (hop : recOp w = 0x71) (hrun : x.opIs i .running = true) (hok : x.failed = none) (hst : x.st = .running) :
    exec (.wait b i) s = .next (if s.waitSeen b w then s.finishOp b i else s) := by
  have hexec : exec (.wait b i) s = .next ((s.runRec b i 0x71 waitOk (fun _ => false) (waitEffect i)).waitAgain b i) :=
    State.engine_up hup fun s => (s.runRec b i 0x71 waitOk (fun _ => false) (waitEffect i)).waitAgain b i
  rw [hexec, State.runRec_of_running hx hrun, State.failNamed_of_none hq, State.waitAgain_eq hx hw hop hrun hok hst]

theorem exec_waitLimitExpiry (hup : s.up = true) (hx : s.barge? b = some x) (hw : w = s.progRec x i) (hop : recOp w = 0x71)
    (hrun : x.opIs i .running = true) (hlimit : (x.op i).issued + recP w 79 64 ≤ s.now) :
    exec (.waitLimitExpiry b i) s = .next (s.failBarge b fTIMEOUT) := by
  change execWaitLimitExpiry b i s = _
  simp [execWaitLimitExpiry, State.engine_up hup, hx, State.waitExpired, ← hw, hop, hrun, hlimit]

/-! ### SIGNAL (R115) -/

/-- The state with a commit unit more, whose pending set its record notes. -/
def State.withUnit (s : State) (v : CUnit) : State :=
  State.notePend { s with sv := { s.sv with units := s.sv.units ++ [v] } } v.b v.i v.pend

/-- A unit of a record that had not made it yet joins the commit units (R121, R125). -/
theorem State.addUnit_eq {y : Barge} {v : CUnit} (hy : s.barge? v.b = some y) (hnew : (y.op v.i).done.contains v.key = false)
    (hrows : v.rows = []) : s.addUnit v = s.withUnit v := by
  have hpoison : (v.poison || v.rows.any fun k => ((y.rows[k]?).map (·.poison)).getD false) = v.poison := by simp [hrows]
  simp only [State.addUnit, hy, hnew, Bool.false_eq_true, if_false, hpoison]
  rfl

/-- A SIGNAL that issues with its unit. -/
theorem Issues.exec_signal_unit (h : Issues s b i x w) (hq : s.anyTileQuar = false) (hop : recOp w = 0x72)
    (hnew : (x.op i).done.contains 0 = false) {v : CUnit} (hb : v.b = b) (hi : v.i = i) (hkey : v.key = 0) (hrows : v.rows = [])
    (heffect : signalEffect i (s.issue b i) x w = (s.issue b i).addUnit v) :
    ∃ t, exec (.signal b i) s = .next t ∧ t.sv.units = s.sv.units ++ [v] ∧ t.ext = s.ext ∧ t.fab = s.fab := by
  have hfree : s.rangesHeld b (s.extOf x w) = false := by simp [State.extOf, hop, State.rangesHeld_nil]
  have hdone : ((x.issueAt s.now i).op v.i).done.contains v.key = false := by
    rw [hi, hkey, x.issueAt_op_self _ h.lt]
    exact hnew
  have hkept : ErrKept s ((s.issue b i).withUnit v) := .of_regs rfl
  rw [h.exec_signal hop, hfree, State.issueWith_free, heffect, State.addUnit_eq (hb ▸ h.issued.mine) hdone hrows,
    State.failNamed_of_errKept hkept hq]
  exact ⟨_, rfl, rfl, rfl, rfl⟩

/-- A SIGNAL to another rack is refused, and fails its barge (R19). -/
theorem Issues.exec_signal_far (h : Issues s b i x w) (hq : s.anyTileQuar = false) (hop : recOp w = 0x72) (hremote : recP w 77 77 = 1)
    (hrack : recP w 76 64 / 512 ≠ s.selfId / 512) :
    ∃ t y, exec (.signal b i) s = .next t ∧ t.barge? b = some y ∧ y.failed = some fCFG := by
  have hfree : s.rangesHeld b (s.extOf x w) = false := by simp [State.extOf, hop, State.rangesHeld_nil]
  have hself : (recP w 76 64 != s.selfId) = true := bne_iff_ne.2 fun he => hrack (by rw [he])
  have hid : (s.issue b i).selfId = s.selfId := rfl
  have hnoted : Fates (s.issue b i) (((s.issue b i).count pFAB 0xF1C).err pFAB 4) :=
    ((s.issue b i).count_fates 1 fun o _ _ => by simp only [pFAB]; omega).trans (State.err_fates _ _ _)
  have heffect : signalEffect i (s.issue b i) x w = (((s.issue b i).count pFAB 0xF1C).err pFAB 4).failBarge b fCFG := by
    simp [signalEffect, hremote, hself, hid, hrack, h.barge_id]
  have hmine : (((s.issue b i).count pFAB 0xF1C).err pFAB 4).barge? b = some (x.issueAt s.now i) :=
    (hnoted.barge? b).trans h.issued.mine
  have hkept : ErrKept s ((((s.issue b i).count pFAB 0xF1C).err pFAB 4).failBarge b fCFG) :=
    ErrKept.trans (t := s.issue b i) (.of_regs rfl) (hnoted.err.trans (State.failBarge_errKept _ _ _))
  rw [h.exec_signal hop, hfree, State.issueWith_free, heffect, State.failNamed_of_errKept hkept hq]
  exact ⟨_, _, rfl, State.failBarge_self hmine (by simpa using h.ok) fCFG, rfl⟩

end

section
/-! ### SAVE_POINT (R112, R305 to R307) -/

variable {s t : State} {b i w : Nat} {x y : Barge}

theorem State.endGap_errKept (s : State) (x : Barge) : ErrKept s (s.endGap x) :=
  .ite (s.count_errKept 1 fun o _ _ => by simp only [pLKP]; omega) (.refl s)

theorem State.endGap_noted (s : State) (x : Barge) : Noted s (s.endGap x) :=
  .ite (s.count_noted 1 (by decide) (by decide)) (.refl s)

theorem State.endGap_counted (hx : s.barge? b = some y) (x : Barge) : Counted b s (s.endGap x) y := by
  have hrest := State.eq_of_regs_mask (s.endGap_mask { regs := true } rfl x)
  have hsv : (s.endGap x).sv = s.sv := by rw [hrest]
  have hbarge : ∀ k, (s.endGap x).barge? k = s.barge? k := fun k => by rw [State.barge?, State.barge?, hsv]
  exact ⟨(hbarge b).trans hx, fun k _ => hbarge k, by rw [hsv]; exact hrest⟩

/-- The barge once its SAVE_POINT, record `i` with word `w`, is complete: a gap starts (R306). -/
def Barge.gapAt (x : Barge) (now i w : Nat) : Barge :=
  Barge.finishAt { x.issueAt now i with gapFrom := now, gapBound := recP w 23 16 } i (recSignal w)

/-- The state in which a SAVE_POINT has completed. -/
def State.gapStarted (s : State) (b i w : Nat) (x : Barge) : State :=
  (((s.issue b i).endGap x).updBarge b fun y => { y with gapFrom := s.now, gapBound := recP w 23 16 }).finishOp b i

theorem Barge.gapAt_eq (x : Barge) (now i w : Nat) : ∃ ops tokens,
    x.gapAt now i w = { x with ops := ops, tokens := tokens, gapFrom := now, gapBound := recP w 23 16 } := by
  obtain ⟨g, n, h⟩ := x.issueAt_eq now i
  unfold Barge.gapAt
  rw [h]
  exact ⟨_, _, rfl⟩

theorem Issues.gapStarted_counted (h : Issues s b i x w) : Counted b s (s.gapStarted b i w x) (x.gapAt s.now i w) := by
  have hgap := h.issued.counted.trans (State.endGap_counted h.issued.mine x)
  have hset := hgap.trans ((AtBarge.refl hgap.mine).updBarge (f := fun y => { y with gapFrom := s.now, gapBound := recP w 23 16 })
    fun _ => rfl).counted
  have hfin := hset.trans ((AtBarge.refl hset.mine).finishOp i).counted
  have hrec : (((s.issue b i).endGap x).updBarge b fun y => { y with gapFrom := s.now, gapBound := recP w 23 16 }).progRec
      { x.issueAt s.now i with gapFrom := s.now, gapBound := recP w 23 16 } i = w := by
    rw [h.word]
    exact State.progRec_congr h.lt (x.issueAt_length s.now i) (x.issueAt_word s.now i h.lt)
  rw [hrec] at hfin
  exact hfin

theorem State.gapStarted_errKept (s : State) (b i w : Nat) (x : Barge) : ErrKept s (s.gapStarted b i w x) :=
  ErrKept.trans (t := s.issue b i) (.of_regs rfl) (ErrKept.trans ((s.issue b i).endGap_errKept x) (.of_regs rfl))

theorem Issues.gapStarted_completed (h : Issues s b i x w) : Completed s (s.gapStarted b i w x) b i w x (x.gapAt s.now i w) := by
  have hlt : i < ({ x.issueAt s.now i with gapFrom := s.now, gapBound := recP w 23 16 } : Barge).ops.length := by
    simpa using h.lt
  refine h.gapStarted_counted.completed (Barge.finishAt_complete _ _ hlt) (Barge.finishAt_tokenSet _ i _)
    ((x.issueAt_failed s.now i).trans h.ok) fun k hk => ?_
  exact (Barge.finishAt_op_other _ _ hk).trans (x.issueAt_op_other s.now hk)

end

end Sys2Proof.Machine
end

section
/-! SUPPORT. A SAVE_POINT: whether it starts a save, and what that start leaves of its barge (R112, R305 to R307). -/

namespace Sys2Proof.Machine

open Sys2Proof

/-- From `s` to `t` the lock-keeper has counted: barges, commit units, save slots, and the quarantine bits are as before. -/
structure Tallied (s t : State) : Prop where
  barges : t.sv.barges = s.sv.barges
  units : t.sv.units = s.sv.units
  slots : t.sv.saveSlots = s.sv.saveSlots
  err : ErrKept s t

namespace Tallied

variable {s t u : State}

theorem refl (s : State) : Tallied s s := ⟨rfl, rfl, rfl, .refl s⟩

theorem trans (h : Tallied s t) (k : Tallied t u) : Tallied s u :=
  ⟨k.barges.trans h.barges, k.units.trans h.units, k.slots.trans h.slots, h.err.trans k.err⟩

theorem foldl {α : Type} {f : State → α → State} (h : ∀ s x, Tallied s (f s x)) (l : List α) (s : State) : Tallied s (l.foldl f s) := by
  induction l generalizing s with
  | nil => exact refl s
  | cons x l ih => exact (h s x).trans (ih _)

end Tallied

theorem State.setRegN_tallied (s : State) {P o : Nat} (v : Nat) (h : ∀ x, 0xF1C ≤ x → x < 0xF30 → 0x4000 + x ≠ P * 0x1000 + o) :
    Tallied s (s.setRegN P o v) := ⟨rfl, rfl, rfl, fun x h1 h2 => s.reg_setReg_other _ (h x h1 h2)⟩

theorem State.countPreempt_tallied (s : State) (x : Barge) : Tallied s (s.countPreempt x) :=
  Tallied.trans (t := s.updMooring x.mooring fun m => { m with preempts := satAdd 32 m.preempts 1 }) ⟨rfl, rfl, rfl, .of_regs rfl⟩
    (.foldl (f := fun s a => s.updAccount a fun x => { x with preemptions := satAdd 32 x.preemptions 1 })
      (fun _ _ => ⟨rfl, rfl, rfl, .of_regs rfl⟩) _ _)

theorem State.nameOverdue_tallied (s : State) : Tallied s s.nameOverdue := by
  unfold State.nameOverdue
  split
  · exact s.setRegN_tallied _ fun o _ _ => by simp only [pLKP]; omega
  · exact .refl s

/-- The barge whose pre-emption request is over. -/
def Barge.relieved (x : Barge) : Barge := { x with preempt := none, overdue := false }

theorem State.endRequestOf_tallied {s : State} {b : Nat} {x : Barge} (hx : s.barge? b = some x) :
    Tallied (s.updBarge b (·.relieved)) (s.endRequestOf b) := by
  unfold State.endRequestOf
  simp only [hx]
  by_cases h : x.overdue = true
  · simp only [h, if_true]
    refine Tallied.trans ?_ (State.nameOverdue_tallied _)
    exact ⟨rfl, rfl, rfl, fun o h1 h2 => s.reg_setReg_other _ (by simp only [pLKP]; omega)⟩
  · simp only [h]
    exact .refl _

/-- The barge whose records after record `i` are as never issued; `late` are the tokens that they set (R307). -/
def Barge.rewound (x : Barge) (i : Nat) (late : List Nat) : Barge :=
  { x with
    tokens := x.tokens.filter fun t => !late.contains t
    ops := x.ops.zipIdx.map fun (o, k) =>
      if k ≤ i then o else { o with st := .waiting, pend := 0, outstanding := 0, signalled := false, todo := [] } }

theorem Barge.rewound_later (x : Barge) (late : List Nat) {i k : Nat} (h : i < k) : ((x.rewound i late).op k).st = .waiting := by
  by_cases hk : k < x.ops.length
  · simp [Barge.op, Barge.rewound, hk, Nat.not_le.2 h]
  · simp [Barge.op, Barge.rewound, hk]

theorem State.barge?_dropLater {s : State} {b : Nat} {x : Barge} (hx : s.barge? b = some x) (i : Nat) :
    ∃ late, (s.dropLater b i).barge? b = some (x.rewound i late) :=
  ⟨_, State.barge?_updBarge_self (f := fun x => x.rewound i (((List.range x.ops.length).filter (i < ·)).map fun k => recSignal (s.progRec x k)))
    hx fun _ => rfl⟩

/-- The barge while its save at record `i`, into a slot, runs (R307). -/
def Barge.savingAt (x : Barge) (i slot : Nat) (live : List Nat) : Barge :=
  { x with st := .saving, saveSlot := some slot, savePoint := i, factors := [], liveWords := live }

/-- Barge `b`, asked to leave, has its request counted and ended, and takes the lowest free save slot (R305, R306). -/
def State.leftWithSlot (s : State) (b : Nat) (x : Barge) : State :=
  let t := (s.countPreempt x).endRequestOf b
  { t with sv := { t.sv with saveSlots := t.sv.saveSlots ++ [lowestFree s.sv.saveSlots] } }

/-- The save of barge `b` starts at record `i`, as `savePointEffect` starts it (R305). -/
def State.saveStart (s : State) (b i w : Nat) (x : Barge) : State :=
  ((s.leftWithSlot b x).dropLater b i).updBarge b
    (·.savingAt i (lowestFree s.sv.saveSlots) ((s.leftWithSlot b x).rangeWords x w))

theorem saveStart_spec {s : State} {b i w : Nat} {x : Barge} (hx : s.barge? b = some x) :
    (∃ late live, (s.saveStart b i w x).barge? b = some ((x.relieved.rewound i late).savingAt i (lowestFree s.sv.saveSlots) live))
      ∧ (∀ u, u ∈ (s.saveStart b i w x).sv.units → u.b = b → u.i ≤ i)
      ∧ (s.saveStart b i w x).sv.saveSlots = s.sv.saveSlots ++ [lowestFree s.sv.saveSlots] ∧ ErrKept s (s.saveStart b i w x) := by
  have hcount := s.countPreempt_tallied x
  have hx1 : (s.countPreempt x).barge? b = some x := by rw [State.barge?, hcount.barges]; exact hx
  have hend := State.endRequestOf_tallied hx1
  have hx2 : ((s.countPreempt x).endRequestOf b).barge? b = some x.relieved := by
    rw [State.barge?, hend.barges]
    exact State.barge?_updBarge_self (f := (·.relieved)) hx1 fun _ => rfl
  refine ⟨?_, fun u hu hub => ?_, ?_, ?_⟩
  · have hx3 : (s.leftWithSlot b x).barge? b = some x.relieved := hx2
    obtain ⟨late, hlate⟩ := State.barge?_dropLater hx3 i
    refine ⟨late, (s.leftWithSlot b x).rangeWords x w, ?_⟩
    exact State.barge?_updBarge_self
      (f := (·.savingAt i (lowestFree s.sv.saveSlots) ((s.leftWithSlot b x).rangeWords x w))) hlate fun _ => rfl
  · have hkept : (!(u.b == b && decide (i < u.i))) = true := (List.mem_filter.1 hu).2
    simp only [hub, beq_self_eq_true, Bool.true_and, Bool.not_eq_true', decide_eq_false_iff_not, Nat.not_lt] at hkept
    exact hkept
  · show ((s.countPreempt x).endRequestOf b).sv.saveSlots ++ _ = _
    rw [hend.slots]
    exact congrArg (· ++ [lowestFree s.sv.saveSlots]) hcount.slots
  · have hrelieved : ErrKept (s.countPreempt x) ((s.countPreempt x).updBarge b (·.relieved)) := .of_regs rfl
    have hstart : ErrKept ((s.countPreempt x).endRequestOf b) (s.saveStart b i w x) := .of_regs <| by
      rw [State.saveStart, State.updBarge_regs, State.dropLater, State.updBarge_regs]
      rfl
    exact ((hcount.err.trans hrelieved).trans hend.err).trans hstart

section

variable {s : State} {b i w : Nat} {x : Barge} (h : Issues s b i x w)
include h

theorem Issues.savePointEffect_eq : savePointEffect i (s.issue b i) x w =
    if (x.preempt.isSome && !s.hq.maint && (s.gapStarted b i w x).eligible (x.gapAt s.now i w) i) = true
    then (s.gapStarted b i w x).saveStart b i w (x.gapAt s.now i w) else s.gapStarted b i w x := by
  obtain ⟨ops, toks, hy⟩ := x.gapAt_eq s.now i w
  have hpre : (x.gapAt s.now i w).preempt = x.preempt := by rw [hy]
  have hmaint : (s.gapStarted b i w x).hq = s.hq := by rw [h.gapStarted_counted.rest]
  have hnow : ((s.issue b i).endGap x).now = s.now := congrArg BitVec.toNat
    (State.aoUs_of_mask (s := s.issue b i) (M := { regs := true }) (State.endGap_mask _ rfl (s.issue b i) x) rfl)
  have hdef : savePointEffect i (s.issue b i) x w = match (s.gapStarted b i w x).barge? b with
      | some y => if y.preempt.isSome && !(s.gapStarted b i w x).hq.maint && (s.gapStarted b i w x).eligible y i
          then (s.gapStarted b i w x).saveStart b i w y else s.gapStarted b i w x
      | none => s.gapStarted b i w x := by
    simp only [savePointEffect, h.barge_id, hnow]
    rfl
  rw [hdef, h.gapStarted_counted.mine, ← hpre, ← hmaint]

/-- A SAVE_POINT of a barge that has been asked to leave, in a state that R305 lets it leave in, is eligible. -/
theorem Issues.eligible
    (hbefore : ∀ k, k < i → x.opIs k .complete = true ∧ (x.op k).outstanding = 0 ∧ s.unitsOf b k = [])
    (hlocks : ∀ c, c ∈ x.chambers → c.st = .confirmed) (hbar : x.barrier = none) (hcoll : ∀ c, c ∈ s.col.ctxs → c.b ≠ b)
    (hfit : liveBytes x ((s.rangeWords x w).map liveRange) + 0x1000 ≤ s.slotBytes)
    (hslot : lowestFree s.sv.saveSlots < fld (s.cfg pLKP 0x328) 5 0) :
    (s.gapStarted b i w x).eligible (x.gapAt s.now i w) i = true := by
  have hrest := h.gapStarted_counted.rest
  have hlt : i < (x.gapAt s.now i w).ops.length := by
    rw [Barge.gapAt, Barge.finishAt_length]; simpa using h.lt
  have hword : (s.gapStarted b i w x).progRec (x.gapAt s.now i w) i = w := by
    rw [h.word]
    refine State.progRec_congr h.lt ?_ ?_
    · rw [Barge.gapAt, Barge.finishAt_length]; simp
    · rw [Barge.gapAt, Barge.finishAt_word _ _ _ (by simpa using h.lt)]; exact x.issueAt_word s.now i h.lt
  have hop : ∀ k, k < i → (x.gapAt s.now i w).op k = x.op k := fun k hk =>
    (Barge.finishAt_op_other _ _ (by omega)).trans (x.issueAt_op_other s.now (by omega))
  have hcfg : (s.gapStarted b i w x).cfg pLKP 0x328 = s.cfg pLKP 0x328 :=
    ((s.issue b i).endGap_noted x).cfg (by decide) (by decide) (by decide) (by decide) (by decide)
  have hwords : (s.gapStarted b i w x).rangeWords x w = s.rangeWords x w := by rw [hrest]; rfl
  have hsv : (s.gapStarted b i w x).sv.saveSlots = s.sv.saveSlots ∧ (s.gapStarted b i w x).sv.units = s.sv.units
      ∧ (s.gapStarted b i w x).col = s.col := by rw [hrest]; exact ⟨rfl, rfl, rfl⟩
  obtain ⟨ops, toks, hy⟩ := x.gapAt_eq s.now i w
  obtain ⟨hslots, hunits, hcol⟩ := hsv
  simp only [State.eligible, Bool.and_eq_true, decide_eq_true_eq, List.all_eq_true, List.mem_range, hword, beq_iff_eq, List.isEmpty_iff]
  refine ⟨⟨⟨⟨fun k hk => ?_, ?_⟩, ?_⟩, ?_⟩, ?_⟩
  · obtain ⟨hdone, hout, hnone⟩ := hbefore k hk
    have hid : (x.gapAt s.now i w).id = b := by rw [hy]; exact h.barge_id
    refine ⟨⟨?_, by rw [hop k hk]; exact hout⟩, ?_⟩
    · rw [Barge.opIs_iff, hop k hk]
      exact ⟨by omega, ((x.opIs_iff k _).1 hdone).2⟩
    · rw [State.unitsOf, hid, hunits]; exact hnone
  · rw [hy]
    simpa [Barge.lockBusy] using hlocks
  · rw [hy]
    simpa [State.noneOpen, hbar, hcol, h.barge_id] using hcoll
  · rw [State.slotBytes, hcfg, hy]
    exact (congrArg (fun l => liveBytes x (l.map liveRange) + 0x1000) hwords).trans_le hfit
  · rw [hslots, hcfg]
    exact hslot

theorem Issues.exec_savePoint_eq (hop : recOp w = 0x60) (hfree : s.rangesHeld b (s.extOf x w) = false) :
    exec (.savePoint b i) s = .next (savePointEffect i (s.issue b i) x w).failNamed := by
  rw [h.exec_savePoint hop, hfree, State.issueWith_free]

end

/-- Settles O27. -/
theorem orderingRecordsWaitAndSignal : Obligations.OrderingRecordsWaitAndSignal := by
  rintro b i w s x ⟨hq, -⟩ hup hx hw
  refine ⟨fun h hop => ⟨fun hdone => ?_, fun hdone => ?_⟩, fun hop hmay hfree hclean hval => ?_, fun hop h hnot => ?_,
    fun hop hrun hok hlimit => ?_, fun h hop hnew => ⟨fun hlocal => ?_, fun hremote hother hrack => ?_, fun hremote hrack => ?_⟩,
    fun h hop hfree hpre => ?_, fun h hop hfree hpre hmaint hbefore hlocks hbar hcoll hfit hslot => ?_⟩
  · rw [h.exec_opFence_eq hq hop, (State.fenceMet_iff hw).2 hdone]
    exact ⟨_, _, rfl, h.finished⟩
  · rw [h.exec_opFence_eq hq hop, Bool.eq_false_iff.2 fun hmet => hdone ((State.fenceMet_iff hw).1 hmet)]
    rfl
  · have hseen : s.waitSeen b w = true := by
      rw [State.waitSeen, hfree, (s.waitMet_iff w).2 ⟨hclean, hval⟩]
      rfl
    obtain h | ⟨hrun, hok, hst⟩ := hmay
    · rw [h.exec_wait_eq hq hop, hseen]
      exact ⟨_, _, rfl, h.finished⟩
    · have hi := ((x.opIs_iff i _).1 hrun).1
      rw [exec_wait_running hup hq hx hw hop hrun hok hst, hseen]
      exact ⟨_, _, rfl, (AtBarge.refl hx).finishOp_completed hw hi rfl rfl hok fun _ _ => rfl⟩
  · have hseen : s.waitSeen b w = false := by
      rw [State.waitSeen, Bool.and_eq_false_iff, Bool.not_eq_false', ← Bool.not_eq_true (s.waitMet w), s.waitMet_iff w]
      rcases hnot with hheld | hbad | hless
      · exact .inl hheld
      · exact .inr fun hmet => by simp [hbad] at hmet
      · exact .inr fun hmet => by omega
    rw [h.exec_wait_eq hq hop, hseen]
    rfl
  · refine ⟨_, _, exec_waitLimitExpiry hup hx hw hop hrun hlimit, State.failBarge_self hx hok _, rfl, fun u hu => ?_⟩
    rw [State.failBarge_units hx hok] at hu
    simpa using (List.mem_filter.1 hu).2
  · have hhere : ¬(recP w 77 77 = 1 ∧ (recP w 76 64 != (s.issue b i).selfId) = true) := by
      rintro ⟨h1, h2⟩
      obtain h0 | hself := hlocal
      · omega
      · exact bne_iff_ne.1 h2 hself
    have heffect : signalEffect i (s.issue b i) x w = (s.issue b i).addUnit
        { b := b, i := i, key := 0, act := .addWord (recA w).addr (BitVec.ofNat 64 (recP w 63 0))
          pend := x.lockSet w ||| (s.taint .ext (recA w).addr 8).pend, poison := (s.taint .ext (recA w).addr 8).poison } := by
      rw [signalEffect]
      simp only [Bool.and_eq_true, decide_eq_true_eq, hhere, if_false, h.barge_id]
      rfl
    obtain ⟨t, hexec, hunits, hext, -⟩ := h.exec_signal_unit hq hop hnew rfl rfl rfl rfl heffect
    exact ⟨t, _, hexec, hunits, rfl, rfl, rfl, rfl, rfl, hext⟩
  · have hself : (recP w 76 64 != (s.issue b i).selfId) = true := bne_iff_ne.2 hother
    have hin : (recP w 76 64 / 512 != (s.issue b i).selfId / 512) = false := bne_eq_false_iff_eq.2 hrack
    have heffect : signalEffect i (s.issue b i) x w = (s.issue b i).addUnit
        { b := b, i := i, key := 0, act := .fetchAdd (recP w 76 64) (recA w).addr (BitVec.ofNat 64 (recP w 63 0)), pend := x.lockSet w } := by
      simp only [signalEffect, hremote, decide_true, hself, Bool.and_self, if_true, hin, Bool.false_eq_true, if_false, h.barge_id]
    obtain ⟨t, hexec, hunits, -, hfab⟩ := h.exec_signal_unit hq hop hnew rfl rfl rfl rfl heffect
    exact ⟨t, _, hexec, hunits, rfl, rfl, rfl, rfl, hfab⟩
  · exact h.exec_signal_far hq hop hremote hrack
  · rw [h.exec_savePoint_eq hop hfree, h.savePointEffect_eq, hpre]
    simp only [Option.isSome_none, Bool.false_and, Bool.false_eq_true, if_false]
    rw [State.failNamed_of_errKept (s.gapStarted_errKept b i w x) hq]
    obtain ⟨ops, toks, hy⟩ := x.gapAt_eq s.now i w
    exact ⟨_, _, rfl, h.gapStarted_completed, by rw [hy]; exact h.running, by rw [hy], by rw [hy]⟩
  · obtain ⟨⟨late, live, hmine⟩, hunits, hslots, hkept⟩ := saveStart_spec (i := i) (w := w) h.gapStarted_counted.mine
    have hslots' : (s.gapStarted b i w x).sv.saveSlots = s.sv.saveSlots := by rw [h.gapStarted_counted.rest]
    rw [hslots'] at hmine hslots
    rw [h.exec_savePoint_eq hop hfree, h.savePointEffect_eq, hpre, hmaint, h.eligible hbefore hlocks hbar hcoll hfit hslot]
    simp only [Bool.not_false, Bool.and_self, if_true]
    rw [State.failNamed_of_errKept ((s.gapStarted_errKept b i w x).trans hkept) hq]
    exact ⟨_, _, rfl, hmine, rfl, rfl, rfl, rfl, fun k hk => Barge.rewound_later _ late hk, hunits, hslots⟩

end Sys2Proof.Machine
end

section
/-! SUPPORT. Locks (R111, R118, R119, R124 to R126): what the confirmation of a lock and its failure leave of its chambers, of the commit
units and of the marks of the barge's words. -/

namespace Sys2Proof.Machine

open Sys2Proof

/-! ### Marks -/

/-- A key's entry as a change of marks leaves it: gone where the mark reads as an unlisted one. -/
def changedEntry (p : Nat → Bool) (f : Mark → Mark) (e : Nat × Mark) : Option (Nat × Mark) :=
  if p e.1 then (if f e.2 = {} then none else some (e.1, f e.2)) else some e

theorem State.mapMarks_eq (s : State) (p : Nat → Bool) (f : Mark → Mark) :
    s.mapMarks p f = { s with marks := s.marks.filterMap (changedEntry p f) } := rfl

theorem State.mark_congr {s t : State} (h : t.marks = s.marks) (k : Nat) : t.mark k = s.mark k := by rw [State.mark, State.mark, h]

/-- A changed mark has what every changed mark has, and an empty one. -/
theorem State.mark_mapMarks {P : Mark → Prop} (s : State) {p : Nat → Bool} {f : Mark → Mark} {k : Nat} (hk : p k = true) (h0 : P {})
    (hf : ∀ m, P (f m)) : P ((s.mapMarks p f).mark k) := by
  rw [State.mapMarks_eq, State.mark]
  show P (SMap.get _ (s.marks.filterMap (changedEntry p f)) k)
  induction s.marks with
  | nil => exact h0
  | cons e l ih =>
    cases he : changedEntry p f e with
    | none => rwa [List.filterMap_cons_none he]
    | some e' =>
      rw [List.filterMap_cons_some he, SMap.get]
      split
      · next hkey =>
        unfold changedEntry at he
        split at he
        · split at he
          · exact absurd he (by simp)
          · obtain rfl := Option.some.inj he
            exact hf e.2
        · next hp =>
          obtain rfl := Option.some.inj he
          exact absurd (hkey ▸ hk) hp
      · exact ih

/-- A mark that reads as a listed one before and after reads as its change. -/
theorem State.mark_mapMarks_eq (s : State) {p : Nat → Bool} {f : Mark → Mark} {k : Nat} (hk : p k = true) (hm : s.mark k ≠ {})
    (hf : f (s.mark k) ≠ {}) : (s.mapMarks p f).mark k = f (s.mark k) := by
  rw [State.mapMarks_eq]
  unfold State.mark at *
  show SMap.get _ (s.marks.filterMap (changedEntry p f)) k = _
  generalize s.marks = l at *
  induction l with
  | nil => exact absurd rfl hm
  | cons e l ih =>
    by_cases hkey : e.1 = k
    · simp only [SMap.get, hkey, if_true] at hm hf ⊢
      have he : changedEntry p f e = some (e.1, f e.2) := by rw [changedEntry, hkey, if_pos hk, if_neg hf]
      rw [List.filterMap_cons_some he, SMap.get, if_pos hkey]
    · simp only [SMap.get, hkey, if_false] at hm hf ⊢
      cases he : changedEntry p f e with
      | none => rw [List.filterMap_cons_none he]; exact ih hm hf
      | some e' =>
        have hkey' : e'.1 = e.1 := by
          unfold changedEntry at he
          split at he
          · split at he
            · exact absurd he (by simp)
            · rw [← Option.some.inj he]
          · rw [← Option.some.inj he]
        rw [List.filterMap_cons_some he, SMap.get, if_neg (by rwa [hkey'])]
        exact ih hm hf

/-- The words of a barge's regions are among those whose pending sets belong to it (R118). -/
theorem State.bargeKey_of_region {s : State} {x : Barge} {r k : Nat} (hr : r ∈ x.regions) (hk : inRegion r k = true) :
    s.bargeKey x k = true := by
  rw [State.bargeKey, Bool.or_eq_true, List.any_eq_true]
  exact .inl ⟨r, hr, hk⟩

/-! ### Pending sets -/

theorem pend_and_lock_ne_zero (p : LockMask) (l : Nat) : (p &&& BitVec.ofNat 16 (2 ^ l) != 0) = p.getLsbD l := by
  by_cases hl : l < 16
  · have hbit : ∀ j, (p &&& BitVec.ofNat 16 (2 ^ l)).getLsbD j = (decide (j = l) && p.getLsbD l) := fun j => by
      rw [BitVec.getLsbD_and, BitVec.getLsbD_ofNat, Nat.testBit_two_pow]
      by_cases hj : j = l
      · subst hj; simp [hl]
      · simp [hj, Ne.symm hj]
    cases hp : p.getLsbD l with
    | true =>
      refine bne_iff_ne.2 fun h0 => ?_
      have h1 := hbit l
      rw [h0, hp] at h1
      simp at h1
    | false =>
      refine bne_eq_false_iff_eq.2 (BitVec.eq_of_getLsbD_eq fun j _ => ?_)
      rw [hbit, hp, Bool.and_false]
      exact BitVec.getLsbD_zero.symm
  · have h2 : BitVec.ofNat 16 (2 ^ l) = 0#16 := by
      obtain ⟨n, rfl⟩ := Nat.exists_eq_add_of_le (Nat.not_lt.1 hl)
      exact BitVec.eq_of_toNat_eq (by simp [pow_add])
    simp [h2, Nat.not_lt.1 hl]

theorem pend_without_lock (p : LockMask) {l : Nat} (hl : l < 16) : (p &&& ~~~(BitVec.ofNat 16 (2 ^ l))).getLsbD l = false := by
  rw [BitVec.getLsbD_and, BitVec.getLsbD_not, BitVec.getLsbD_ofNat, Nat.testBit_two_pow_self]
  simp [hl]

/-! ### Confirmation (R118, R119) -/

/-- The barge whose lock `l` is settled as confirmed in some logical regions (R119). -/
def Barge.confirmAt (x : Barge) (l : Nat) (rs : List Nat) : Barge :=
  { x with chambers := mapIf x.chambers (fun c => c.lock == l && rs.contains c.region) fun c => { c with st := .confirmed } }

theorem Barge.confirmAt_chambers (x : Barge) (l : Nat) (rs : List Nat) : (x.confirmAt l rs).chambers
    = x.chambers.map fun c => if c.lock = l ∧ c.region ∈ rs then { c with st := .confirmed } else c := by
  simp [Barge.confirmAt, mapIf]

/-- The barge whose records and SPEC positions pend on a lock no longer; `m` is the set of the others (R118). -/
def Barge.unpend (x : Barge) (m : LockMask) : Barge :=
  { x with
    specs := x.specs.map fun p => { p with pend := p.pend &&& m }
    ops := x.ops.map fun o => { o with pend := o.pend &&& m } }

theorem Barge.unpend_op (x : Barge) (m : LockMask) (k : Nat) : (x.unpend m).op k = { x.op k with pend := (x.op k).pend &&& m } := by
  by_cases hk : k < x.ops.length
  · simp [Barge.op, Barge.unpend, hk]
  · simp [Barge.op, Barge.unpend, hk]

theorem Barge.unpend_length (x : Barge) (m : LockMask) : (x.unpend m).ops.length = x.ops.length := by simp [Barge.unpend]

/-- From `s` to `t` a lock of barge `b` has left pending sets: marks, commit units and gathers apart, only that barge has
changed, and it has become `y`. -/
structure Unpended (b : Nat) (s t : State) (y : Barge) : Prop where
  mine : t.barge? b = some y
  others : ∀ k, k ≠ b → t.barge? k = s.barge? k
  rest : t = { s with marks := t.marks, gathers := t.gathers, sv := { s.sv with barges := t.sv.barges, units := t.sv.units } }

theorem AtBarge.unpended {b : Nat} {s t : State} {y : Barge} (h : AtBarge b s t y) : Unpended b s t y :=
  ⟨h.mine, h.others, by rw [h.rest]⟩

theorem Unpended.trans {b : Nat} {s t u : State} {y z : Barge} (h : Unpended b s t y) (k : Unpended b t u z) : Unpended b s u z where
  mine := k.mine
  others n hn := (k.others n hn).trans (h.others n hn)
  rest := by rw [k.rest, h.rest]

/-- The marks, the commit units and the gathers of barge `b` without lock `l` (R118). -/
def State.unpendWork (s : State) (b l : Nat) (x : Barge) : State :=
  let u := s.mapMarks (fun k => s.bargeKey x k) fun m => { m with pend := m.pend &&& ~~~(BitVec.ofNat 16 (2 ^ l)) }
  { u with
    sv := { u.sv with units := mapIf u.sv.units (·.b == b) fun v => { v with pend := v.pend &&& ~~~(BitVec.ofNat 16 (2 ^ l)) } }
    gathers := mapIf u.gathers (·.b == b) fun g => g.mapPends (· &&& ~~~(BitVec.ofNat 16 (2 ^ l))) }

theorem State.clearLock_eq {s : State} {b : Nat} {x : Barge} (hx : s.barge? b = some x) (l : Nat) :
    s.clearLock b l = (s.unpendWork b l x).updBarge b (·.unpend (~~~(BitVec.ofNat 16 (2 ^ l)))) := by
  simp only [State.clearLock, hx]
  rfl

theorem State.clearLock_unpended {s : State} {b : Nat} {x : Barge} (hx : s.barge? b = some x) (l : Nat) :
    Unpended b s (s.clearLock b l) (x.unpend (~~~(BitVec.ofNat 16 (2 ^ l)))) := by
  rw [State.clearLock_eq hx]
  exact ⟨State.barge?_updBarge_self (f := (·.unpend _)) hx fun _ => rfl,
    fun k hk => State.barge?_updBarge_other _ (f := (·.unpend _)) hk fun _ => rfl, rfl⟩

/-- A lock confirmed everywhere is in no pending set of the barge's units and words any more (R118). -/
theorem State.clearLock_clears {s : State} {b : Nat} {x : Barge} (hx : s.barge? b = some x) {l : Nat} (hl : l < 16) :
    (∀ u, u ∈ (s.clearLock b l).sv.units → u.b = b → u.pend.getLsbD l = false)
      ∧ (s.clearLock b l).sv.units.length = s.sv.units.length
      ∧ ∀ k r, r ∈ x.regions → inRegion r k = true → ((s.clearLock b l).mark k).pend.getLsbD l = false := by
  rw [State.clearLock_eq hx]
  refine ⟨fun u hu hub => ?_, List.length_map _, fun k r hr hk => ?_⟩
  · obtain ⟨v, -, rfl⟩ := List.mem_map.1 hu
    by_cases hv : v.b = b
    · simp only [hv, beq_self_eq_true, if_true]
      exact pend_without_lock _ hl
    · simp only [beq_eq_false_iff_ne.2 hv, Bool.false_eq_true, if_false] at hub
      exact absurd hub hv
  · have hmark : ((s.unpendWork b l x).updBarge b (·.unpend (~~~(BitVec.ofNat 16 (2 ^ l))))).mark k
        = (s.mapMarks (fun k => s.bargeKey x k) fun m => { m with pend := m.pend &&& ~~~(BitVec.ofNat 16 (2 ^ l)) }).mark k :=
      State.mark_congr (by rw [State.updBarge_marks]; rfl) k
    rw [hmark]
    exact s.mark_mapMarks (P := fun m => m.pend.getLsbD l = false) (State.bargeKey_of_region hr hk) (by simp)
      fun m => pend_without_lock _ hl

/-- A record that settles its lock as confirmed and completes (R111, R119): its barge, and whether the lock is now confirmed
everywhere. -/
theorem confirmLock_finishOp {s t : State} {b i l w : Nat} {x y : Barge} (h : AtBarge b s t y) (rs : List Nat) (hl : l < 16)
    (hw : w = s.progRec x i) (hi : i < x.ops.length) (hlen : y.ops.length = x.ops.length) (hword : (y.op i).word = (x.op i).word) :
    ∃ z, Unpended b s ((t.confirmLock b l rs).finishOp b i) z ∧ z.opIs i .complete = true ∧ z.tokenSet (recSignal w) = true
      ∧ z.chambers = y.chambers.map (fun c => if c.lock = l ∧ c.region ∈ rs then { c with st := .confirmed } else c)
      ∧ (z.confirmed l = false → ((t.confirmLock b l rs).finishOp b i).marks = s.marks
          ∧ ((t.confirmLock b l rs).finishOp b i).sv.units = s.sv.units)
      ∧ (z.confirmed l = true → (∀ u, u ∈ ((t.confirmLock b l rs).finishOp b i).sv.units → u.b = b → u.pend.getLsbD l = false)
          ∧ ((t.confirmLock b l rs).finishOp b i).sv.units.length = s.sv.units.length
          ∧ ∀ k r, r ∈ y.regions → inRegion r k = true → (((t.confirmLock b l rs).finishOp b i).mark k).pend.getLsbD l = false) := by
  have hset := h.updBarge (f := (·.confirmAt l rs)) fun _ => rfl
  have hlock : t.confirmLock b l rs = if (y.confirmAt l rs).confirmed l then (t.updBarge b (·.confirmAt l rs)).clearLock b l
      else t.updBarge b (·.confirmAt l rs) := by
    have hmine : (t.updBarge b fun x => { x with
        chambers := mapIf x.chambers (fun c => c.lock == l && rs.contains c.region) fun c => { c with st := .confirmed } }).barge? b
        = some (y.confirmAt l rs) := hset.mine
    simp only [State.confirmLock, hmine]
    rfl
  have hrest := hset.rest
  cases hconf : (y.confirmAt l rs).confirmed l with
  | true =>
    have hclear := State.clearLock_unpended hset.mine l
    have hfin := (hset.unpended.trans hclear).trans ((AtBarge.refl hclear.mine).finishOp i).unpended
    have hwords : ((y.confirmAt l rs).unpend (~~~(BitVec.ofNat 16 (2 ^ l)))).ops.length = x.ops.length := by
      rw [Barge.unpend_length]; exact hlen
    have hrec : ((t.updBarge b (·.confirmAt l rs)).clearLock b l).progRec ((y.confirmAt l rs).unpend (~~~(BitVec.ofNat 16 (2 ^ l)))) i = w := by
      rw [hw]
      refine State.progRec_congr hi hwords ?_
      rw [Barge.unpend_op]
      exact hword
    rw [hrec] at hfin
    obtain ⟨hunits, hcount, hmarks⟩ := State.clearLock_clears hset.mine hl
    rw [hlock, hconf, if_pos rfl]
    refine ⟨_, hfin, Barge.finishAt_complete _ _ (by omega), Barge.finishAt_tokenSet _ i _, y.confirmAt_chambers l rs, fun hno => ?_,
      fun _ => ⟨hunits, hcount.trans ?_, hmarks⟩⟩
    · have hyes : (((y.confirmAt l rs).unpend (~~~(BitVec.ofNat 16 (2 ^ l)))).finishAt i (recSignal w)).confirmed l = true := hconf
      rw [hyes] at hno
      exact absurd hno (by decide)
    · rw [hrest]
  | false =>
    have hfin := hset.finishOp i
    have hrec : (t.updBarge b (·.confirmAt l rs)).progRec (y.confirmAt l rs) i = w := by rw [hw]; exact State.progRec_congr hi hlen hword
    rw [hrec] at hfin
    have hrest' := hfin.rest
    rw [hlock, hconf, if_neg (by decide)]
    refine ⟨_, hfin.unpended, Barge.finishAt_complete _ _ (hlen ▸ hi), Barge.finishAt_tokenSet _ i _, y.confirmAt_chambers l rs,
      fun _ => ⟨by rw [hrest'], by rw [hrest']⟩, fun hyes => ?_⟩
    have hno : ((y.confirmAt l rs).finishAt i (recSignal w)).confirmed l = false := hconf
    rw [hno] at hyes
    exact absurd hyes (by decide)

/-! ### Failure (R124 to R126) -/

/-- Counting a lock's failure changes counters only. -/
theorem State.countLockFail_kept (s : State) (x : Barge) (l : Nat) :
    s.countLockFail x l = { s with regs := (s.countLockFail x l).regs } ∧ ErrKept s (s.countLockFail x l) :=
  ⟨State.eq_of_regs_mask (State.foldl_mask _ _ (fun s _ => s.count_mask _ rfl _ _ _) _ _),
    .foldl (fun s _ => s.count_errKept 1 fun o _ _ => by omega) _ _⟩

/-- The records that a lock's failure re-issues are counted (R125). -/
def State.countReissues (s : State) (x : Barge) (again : List Nat) : State :=
  again.foldl (fun s k => (x.lockRegions (s.progRec x k)).foldl (fun s r => s.count (rPage (x.phys r)) 0xF50) s) s

theorem State.countReissues_kept (s : State) (x : Barge) (again : List Nat) :
    s.countReissues x again = { s with regs := (s.countReissues x again).regs } ∧ ErrKept s (s.countReissues x again) :=
  ⟨State.eq_of_regs_mask (State.foldl_mask _ _ (fun s _ => State.foldl_mask _ _ (fun s _ => s.count_mask _ rfl _ _ _) _ _) _ _),
    .foldl (fun s _ => .foldl (fun s _ => s.count_errKept 1 fun o _ _ => by omega) _ _) _ _⟩

/-- The program index of the first mark of lock `l` (R125). -/
def Barge.lockMark (x : Barge) (l : Nat) : Nat :=
  let cs := x.chambers.filter (·.lock == l)
  (cs.map (·.mark)).foldl min (cs.head?.elim 0 (·.mark))

/-- The barge whose lock `l` has failed and is open again, with the records `again` waiting and the tokens `toks` cleared
(R119, R124, R125). -/
def Barge.failLockAt (x : Barge) (l : Nat) (again toks : List Nat) : Barge :=
  { x with
    specs := x.specs.map fun p => if p.pend &&& BitVec.ofNat 16 (2 ^ l) = 0 then p else { p with discarded := true, pend := 0 }
    tokens := x.tokens.filter fun t => !toks.contains t
    ops := x.ops.zipIdx.map fun (o, k) => if again.contains k then { o with st := .waiting, pend := 0, signalled := false, todo := [] } else o
    chambers := mapIf x.chambers (·.lock == l) fun c => { c with st := .opened, attempts := c.attempts + 1 } }

/-- A word that pends on lock `l` is discarded (R124). -/
def Mark.dropLock (l : Nat) (m : Mark) : Mark := if m.pend &&& BitVec.ofNat 16 (2 ^ l) = 0 then m else m.discard

/-- The marks, units and gathers of barge `b` once lock `l` has failed and the records `again` are to issue again (R124, R125). -/
def State.dropLockWork (s : State) (b l : Nat) (x : Barge) (again : List Nat) : State :=
  let u := s.mapMarks (fun k => s.bargeKey x k) (Mark.dropLock l)
  { u with
    sv := { u.sv with units := u.sv.units.filter fun v => !(v.b == b && v.pend &&& BitVec.ofNat 16 (2 ^ l) != 0) }
    gathers := u.gathers.filter fun g => !(g.b == b && again.contains g.i) }

theorem State.failLock_eq {s : State} {b : Nat} {x : Barge} (hx : s.barge? b = some x) (l : Nat) : ∃ again toks,
    s.failLock b l
      = (((s.dropLockWork b l x again).updBarge b (·.failLockAt l again toks)).countLockFail x l).countReissues x again := by
  refine ⟨s.reissued x l (x.lockMark l), (s.reissued x l (x.lockMark l)).map fun k => recSignal (s.progRec x k), ?_⟩
  simp only [State.failLock, hx]
  rfl

/-- The first failure of a lock: its barge, its units and its words (R119, R124, R125). -/
theorem failLock_spec {s : State} {b : Nat} {x : Barge} (hx : s.barge? b = some x) (l : Nat) :
    ∃ y, Unpended b s { s.failLock b l with regs := s.regs } y ∧ ErrKept s (s.failLock b l)
      ∧ y.chambers = x.chambers.map (fun c => if c.lock = l then { c with st := .opened, attempts := c.attempts + 1 } else c)
      ∧ (s.failLock b l).sv.units = s.sv.units.filter (fun u => !(u.b == b && u.pend.getLsbD l))
      ∧ ∀ k r, r ∈ x.regions → inRegion r k = true → (s.mark k).pend.getLsbD l = true →
          ((s.failLock b l).mark k).void = true ∧ ((s.failLock b l).mark k).pend = 0 := by
  obtain ⟨again, toks, heq⟩ := State.failLock_eq hx l
  obtain ⟨hfail, hfailErr⟩ := State.countLockFail_kept ((s.dropLockWork b l x again).updBarge b (·.failLockAt l again toks)) x l
  obtain ⟨hre, hreErr⟩ :=
    State.countReissues_kept (((s.dropLockWork b l x again).updBarge b (·.failLockAt l again toks)).countLockFail x l) x again
  rw [← heq] at hre hreErr
  have hbase : s.failLock b l = { (s.dropLockWork b l x again).updBarge b (·.failLockAt l again toks) with regs := (s.failLock b l).regs } := by
    rw [hre, hfail]
  have hmarks : (s.failLock b l).marks = (s.mapMarks (fun k => s.bargeKey x k) (Mark.dropLock l)).marks := by rw [hbase]; rfl
  have hsv : (s.failLock b l).sv = ((s.dropLockWork b l x again).updBarge b (·.failLockAt l again toks)).sv := by rw [hbase]
  refine ⟨x.failLockAt l again toks, ⟨?_, fun k hk => ?_, ?_⟩, ?_, ?_, ?_, fun k r hr hk hbit => ?_⟩
  · rw [State.barge?]
    show (s.failLock b l).sv.barges.find? _ = _
    rw [hsv]
    exact State.barge?_updBarge_self (s := s.dropLockWork b l x again) (f := (·.failLockAt l again toks)) hx fun _ => rfl
  · rw [State.barge?]
    show (s.failLock b l).sv.barges.find? _ = _
    rw [hsv]
    exact State.barge?_updBarge_other (s.dropLockWork b l x again) (f := (·.failLockAt l again toks)) hk fun _ => rfl
  · rw [hbase]
    rfl
  · have hdrop : ErrKept s ((s.dropLockWork b l x again).updBarge b (·.failLockAt l again toks)) :=
      .of_regs (by rw [State.updBarge_regs]; rfl)
    exact (hdrop.trans hfailErr).trans hreErr
  · simp [Barge.failLockAt, mapIf]
  · rw [hsv]
    show List.filter _ s.sv.units = _
    simp only [pend_and_lock_ne_zero]
  · have hne : ((s.mark k).pend &&& BitVec.ofNat 16 (2 ^ l) = 0) = False := by
      simpa [hbit] using pend_and_lock_ne_zero (s.mark k).pend l
    have hdrop : Mark.dropLock l (s.mark k) = (s.mark k).discard := by rw [Mark.dropLock, if_neg (of_eq_false hne)]
    have hthere : s.mark k ≠ {} := fun h0 => by rw [h0] at hbit; simp at hbit
    rw [State.mark_congr hmarks, State.mark_mapMarks_eq s (State.bargeKey_of_region hr hk) hthere (by rw [hdrop]; simp [Mark.discard]), hdrop]
    exact ⟨rfl, rfl⟩

/-- The second failure of a lock ends its barge's work (R126). -/
theorem failAgain_spec {s : State} {b : Nat} {x y : Barge} (hx : s.barge? b = some x) (hok : x.failed = none) (hid : y.id = b) (l fate : Nat) :
    ∃ z, (s.failAgain y l fate).barge? b = some z ∧ z.failed = some fate
      ∧ z.chambers = x.chambers.map (fun c => if c.lock = l then { c with st := .failed } else c)
      ∧ (∀ u, u ∈ (s.failAgain y l fate).sv.units → u.b ≠ b) ∧ ErrKept s (s.failAgain y l fate) := by
  obtain ⟨hcount, hcountErr⟩ := s.countLockFail_kept y l
  have hx1 : (s.countLockFail y l).barge? b = some x := by rw [hcount]; exact hx
  have hx2 := State.barge?_updBarge_self (f := fun x => { x with chambers := mapIf x.chambers (·.lock == l) fun c => { c with st := .failed } })
    hx1 fun _ => rfl
  rw [State.failAgain, hid]
  refine ⟨_, State.failBarge_self hx2 hok fate, rfl, by simp [Barge.failAt, mapIf], fun u hu => ?_, ?_⟩
  · rw [State.failBarge_units hx2 hok] at hu
    simpa using (List.mem_filter.1 hu).2
  · exact (hcountErr.trans (.of_regs (State.updBarge_regs _ _ _))).trans (State.failBarge_errKept _ _ _)

/-! ### CONFIRM (R111) -/

section

variable {s : State} {b i w : Nat} {x : Barge} (h : Issues s b i x w)
include h

/-- A CONFIRM whose condition word pends on no other open lock settles its lock, or fails it. -/
theorem Issues.confirmEffect_eq (hlatent : s.armed.latent = []) (hwaits : s.confirmWaits x w = []) :
    confirmEffect i (s.issue b i) x w =
      if (bitsOf (recRegions w) 8).any (s.confirmFails x w) then
        (if x.failedOnce (recP w 3 0) then (s.issue b i).failAgain x (recP w 3 0) fCFG else (s.issue b i).failLock b (recP w 3 0))
      else ((s.issue b i).confirmLock b (recP w 3 0) (bitsOf (recRegions w) 8)).finishOp b i := by
  have hlatent' : (s.issue b i).armed.latent = [] := hlatent
  have hsee : ∀ l : List Nat, l.foldl (fun s r => s.seeIn ((recA w).store r 0) [((recA w).addr, 4)]) (s.issue b i) = s.issue b i := by
    intro l
    induction l with
    | nil => rfl
    | cons r l ih => rw [List.foldl_cons, State.seeIn_of_calm hlatent', ih]
  have hwaits' : (s.issue b i).confirmWaits x w = [] := hwaits
  simp only [confirmEffect, hsee, ite_self, hwaits', h.barge_id, List.all_nil, List.isEmpty_nil, Bool.not_true,
    Bool.false_eq_true, if_false]
  rfl

theorem Issues.exec_confirm_eq (hop : recOp w = 0x51) (hfree : s.rangesHeld b (s.extOf x w) = false) :
    exec (.confirm b i) s = .next (confirmEffect i (s.issue b i) x w).failNamed := by
  rw [h.exec_confirm hop, hfree, State.issueWith_free]

end

/-- Settles O26. -/
theorem confirmSettlesOrFailsItsLock : Obligations.ConfirmSettlesOrFailsItsLock := by
  rintro b i w s x ⟨hq, hlatent⟩ h hop hwaits hfree
  have hexec := h.exec_confirm_eq hop hfree
  have heffect := h.confirmEffect_eq hlatent hwaits
  have hl : recP w 3 0 < 16 := Nat.mod_lt _ (by decide)
  have hissue : ErrKept s (s.issue b i) := .of_regs rfl
  refine ⟨fun hok => ?_, fun hbad honce => ?_, fun hbad honce => ?_⟩
  · have hnone : (bitsOf (recRegions w) 8).any (s.confirmFails x w) = false := by simpa using hok
    rw [hnone, if_neg (by decide)] at heffect
    obtain ⟨z, hat, hdone, htok, hchambers, hopen, hclear⟩ := confirmLock_finishOp h.issued (bitsOf (recRegions w) 8) hl h.word h.lt
      (x.issueAt_length _ _) (x.issueAt_word _ _ h.lt)
    rw [← heffect] at hat hopen hclear
    have hrest := hat.rest
    have hkept : ErrKept s (confirmEffect i (s.issue b i) x w) := .of_regs (by rw [hrest])
    obtain ⟨g, n, hissued⟩ := x.issueAt_eq s.now i
    rw [hexec, State.failNamed_of_errKept hkept hq]
    refine ⟨_, z, rfl, hat.mine, hdone, htok, ?_, hat.others, ?_, ?_, ?_, ?_, hopen, fun hconf _ => ?_⟩
    · rw [hchambers, x.issueAt_chambers]
    · rw [hrest]
    · rw [hrest]
    · rw [hrest]
    · rw [hrest]
    · obtain ⟨hunits, hlen, hmarks⟩ := hclear hconf
      exact ⟨hunits, hlen, fun k r hr => hmarks k r (by rw [hissued]; exact hr)⟩
  · have hany : (bitsOf (recRegions w) 8).any (s.confirmFails x w) = true := List.any_eq_true.2 hbad
    rw [hany, honce, if_pos rfl, if_neg (by decide)] at heffect
    obtain ⟨y, hat, hkept, hchambers, hunits, hmarks⟩ := failLock_spec h.issued.mine (recP w 3 0)
    rw [← heffect] at hat hkept hunits hmarks
    have hrest := (h.issued.unpended.trans hat).rest
    have hothers := (h.issued.unpended.trans hat).others
    obtain ⟨g, n, hissued⟩ := x.issueAt_eq s.now i
    rw [hexec, State.failNamed_of_errKept (hissue.trans hkept) hq]
    refine ⟨_, y, rfl, hat.mine, ?_, hunits, fun k r hr => hmarks k r (by rw [hissued]; exact hr), hothers, ?_, ?_, ?_, ?_⟩
    · rw [hchambers, x.issueAt_chambers]
    · exact (congrArg State.ext hrest :)
    · exact (congrArg State.scratch hrest :)
    · exact (congrArg State.pool hrest :)
    · exact (congrArg State.hq hrest :)
  · have hany : (bitsOf (recRegions w) 8).any (s.confirmFails x w) = true := List.any_eq_true.2 hbad
    rw [hany, honce, if_pos rfl, if_pos rfl] at heffect
    obtain ⟨z, hmine, hfailed, hchambers, hunits, hkept⟩ := failAgain_spec h.issued.mine (by simpa using h.ok) h.barge_id (recP w 3 0) fCFG
    rw [← heffect] at hmine hunits hkept
    rw [hexec, State.failNamed_of_errKept (hissue.trans hkept) hq]
    refine ⟨_, z, rfl, hmine, hfailed, ?_, hunits⟩
    rw [hchambers, x.issueAt_chambers]

end Sys2Proof.Machine
end

section
/-! SUPPORT. The fabric's responses to a SIGNAL, its forwards and its timers (R18, R331 to R333, R335, R336, R338): what the taking of a
packet, a freed tag and a dropped request leave. -/

namespace Sys2Proof.Machine

open Sys2Proof

/-! ### Taking a packet -/

theorem State.take_tags (s : State) (p : Packet) : (s.take p).fab.tags = s.fab.tags := by
  unfold State.take
  simp only []
  split
  · rw [State.freeFlits_fab]
  · rfl

theorem State.take_tagSt (s : State) (p : Packet) (k : Nat) : (s.take p).tagSt k = s.tagSt k := by
  rw [State.tagSt, State.tagSt, State.take_tags]

theorem State.take_matches (s : State) (p q : Packet) : (s.take p).matches q = s.matches q := by
  simp only [State.matches, State.take_tagSt, State.epoch, State.take_regN]

theorem State.take_sv (s : State) (p : Packet) : (s.take p).sv = s.sv := State.sv_of_mask (M := { fab := true }) (s.take_mask _ rfl p) rfl

theorem State.freeFlits_st (s : State) (n vc cls k m : Nat) : ((s.freeFlits n vc cls k).fport m).st = (s.fport m).st := by
  have hput : ∀ (u : State) (x : Port), x.st = (u.fport n).st → ((u.setPort n x).fport m).st = (u.fport m).st := fun u x hx => by
    rw [State.fport, State.setPort]
    by_cases hm : m = n
    · subst hm
      exact (congrArg Port.st (SMap.get_put_self _ _ _ _)).trans hx
    · exact congrArg Port.st (SMap.get_put_other _ _ _ _ _ hm)
  unfold State.freeFlits
  simp only []
  split
  · rfl
  · split
    · rw [State.sendControl, State.updPort]
      refine Eq.trans ?_ (hput s { s.fport n with owed := [] } rfl)
      exact hput (s.setPort n { s.fport n with owed := [] }) _ rfl
    · exact hput s _ rfl

theorem State.take_st (s : State) (p : Packet) (m : Nat) : ((s.take p).fport m).st = (s.fport m).st := by
  unfold State.take
  simp only []
  split
  · exact (State.freeFlits_st _ _ _ _ _ m).trans rfl
  · rfl

/-! ### Routes -/

/-- Between `s` and `t` nothing that a route turns on has changed: FAB's configuration, the engine's id, and which ports are UP
(R335). -/
structure SameRoutes (s t : State) : Prop where
  cfg : ∀ o, o < 0x800 → t.cfg pFAB o = s.cfg pFAB o
  selfId : t.selfId = s.selfId
  st : ∀ m, (t.fport m).st = (s.fport m).st

theorem SameRoutes.trans {s t u : State} (h : SameRoutes s t) (k : SameRoutes t u) : SameRoutes s u :=
  ⟨fun o ho => (k.cfg o ho).trans (h.cfg o ho), k.selfId.trans h.selfId, fun m => (k.st m).trans (h.st m)⟩

theorem State.take_sameRoutes (s : State) (p : Packet) : SameRoutes s (s.take p) :=
  ⟨fun o _ => by unfold State.cfg State.bankB; rw [State.take_reg, State.take_reg, State.take_reg], s.take_selfId p, s.take_st p⟩

/-- A counter of FAB above its configuration. -/
theorem State.count_sameRoutes (s : State) {o : Nat} (n : Nat) (h : 0xF00 < o) : SameRoutes s (s.count pFAB o n) where
  cfg x hx := by
    have hreg : ∀ y, y < 0xF00 → (s.count pFAB o n).reg pFAB y = s.reg pFAB y := fun y hy => s.reg_count_other n (by omega)
    unfold State.cfg State.bankB
    rw [hreg oSTATUS (by decide), hreg x (by omega), hreg (x + 0x700) (by omega)]
  selfId := s.selfId_count n (by omega)
  st m := by
    rw [State.fport, State.fport, State.fab_of_mask (M := { regs := true }) (s.count_mask _ rfl pFAB o n) rfl]

namespace SameRoutes

variable {s t : State} (h : SameRoutes s t)
include h

theorem ringSize (stage : Nat) : t.ringSize stage = s.ringSize stage := by
  unfold State.ringSize State.hallRacks State.rackBoards
  rw [h.cfg 0x104 (by decide)]

theorem ringIndex (stage id : Nat) : t.ringIndex stage id = s.ringIndex stage id := by
  unfold State.ringIndex State.rackBoards
  rw [h.cfg 0x104 (by decide)]

theorem stageTo (dest : Nat) : t.stageTo dest = s.stageTo dest := by simp only [State.stageTo, h.selfId, h.ringIndex]

theorem linkOf (ports : List Nat) (vc : Nat) : t.linkOf ports vc = s.linkOf ports vc := by
  simp only [State.linkOf, h.cfg 0x118 (by decide), h.st]

theorem route (p : Packet) (from_ : Option Nat) : t.route p from_ = s.route p from_ := by
  simp only [State.route, h.stageTo, h.linkOf, h.selfId, h.ringSize, h.ringIndex]

end SameRoutes

/-! ### Responses -/

/-- A response in its turn to a request whose tag is in use hands that use on, with the tag freed (R332). -/
theorem exec_response {p : Packet} {s : State} {u : TagUse} (h : Replies s p [0x81, 0x82, 0x83, 0x89] u) :
    exec (.response p) s = .next (match u with
      | .fetchAdd b i => if p.status = 0 then ((s.take p).freeTag p.tag).arrived b i
          else (((s.take p).freeTag p.tag).arrived b i).failBarge b fCFG
      | _ => (s.take p).freeTag p.tag) := by
  obtain ⟨hup, hop, hdest, hok, hturn, hmatch, huse⟩ := h
  have hop' : [0x81, 0x82, 0x83, 0x89].contains p.op = true := List.contains_iff_mem.2 hop
  change execResponse p s = _
  rw [execResponse, State.engine_up hup]
  simp only [State.receive, hop', hdest, hturn, hok, State.respond, State.take_matches, hmatch, State.take_tagSt, huse, Bool.not_true, bne_self_eq_false,
    Bool.or_self, Bool.false_eq_true, if_false]
  cases u <;> rfl

theorem State.freeTag_sv (s : State) (k : Nat) : (s.freeTag k).sv = s.sv :=
  State.sv_of_mask (M := { regs := true, hq := true, fab := true }) (s.freeTag_mask _ rfl rfl rfl k) rfl

/-! ### Forwards -/

/-- A packet that goes on is counted, and has no way out where its route is cut (R335, R336). -/
theorem sendOut_unroutable {u : State} {p : Packet} {n : Nat} (hfar : u.stageTo p.dest ≠ 0) (hcut : u.route p (some n) = none) :
    u.sendOut p (some n) = u.unroutable := by
  simp [State.sendOut, hfar, hcut]

theorem State.unroutable_spec (s : State) : s.unroutable.fab = s.fab ∧ bitOf (s.unroutable.errStatus pFAB) 5 = true :=
  ⟨(State.fab_of_mask (M := { regs := true, hq := true }) (State.err_mask _ rfl rfl _ _ _) rfl).trans
    (State.fab_of_mask (M := { regs := true }) (s.count_mask _ rfl pFAB 0xF20 1) rfl), State.bitOf_errStatus_err _ (by decide) (by decide) (by decide)⟩

/-- A packet that may not cross racks is discarded, and counted in REFUSED (R338). -/
theorem State.refused_spec (s : State) : ((s.count pFAB 0xF1C).err pFAB 4).fab = s.fab
    ∧ ((s.count pFAB 0xF1C).err pFAB 4).regN pFAB 0xF1C = satAdd 32 (s.regN pFAB 0xF1C) 1
    ∧ bitOf (((s.count pFAB 0xF1C).err pFAB 4).errStatus pFAB) 4 = true := by
  refine ⟨?_, ?_, State.bitOf_errStatus_err _ (by decide) (by decide) (by decide)⟩
  · exact (State.fab_of_mask (M := { regs := true, hq := true }) (State.err_mask _ rfl rfl _ _ _) rfl).trans
      (State.fab_of_mask (M := { regs := true }) (s.count_mask _ rfl pFAB 0xF1C 1) rfl)
  · rw [← State.regN_count_self]
    exact congrArg BitVec.toNat (State.reg_err_same _ 4 (by decide) (by decide) (by decide) (by decide))

/-! ### Timers -/

theorem State.sendWaiting_of_nil {s : State} (h : s.fab.waiting = []) : s.sendWaiting = s := by simp [State.sendWaiting, h]

theorem State.freeTag_tagSt {s : State} (h : s.fab.waiting = []) (k : Nat) : (s.freeTag k).tagSt k = { gen := (s.tagSt k).gen } := by
  have hnone : (s.setTagSt k { gen := (s.tagSt k).gen }).fab.waiting = [] := h
  rw [State.freeTag, State.sendWaiting_of_nil hnone]
  exact SMap.get_put_self _ _ _ _

/-- A region's idle timers are no part of the fabric unit, and no register. -/
theorem State.accessDone_kept (s : State) (r : Nat) : (s.accessDone r).fab = s.fab ∧ (s.accessDone r).regs = s.regs := by
  unfold State.accessDone State.idle
  split
  · exact ⟨rfl, rfl⟩
  · split
    · exact ⟨rfl, rfl⟩
    · exact ⟨rfl, rfl⟩

/-- A request held for an effective timeout is taken away and counted (R333). -/
theorem State.dropHeld_spec {s : State} {k : Nat} {h : HeldReq} (hk : s.fab.heldReqs[k]? = some h) (hold : h.since + s.fabTimeout ≤ s.now) :
    (s.dropHeld k).fab = { s.fab with heldReqs := s.fab.heldReqs.eraseIdx k }
      ∧ (s.dropHeld k).regN pFAB 0xF24 = satAdd 32 (s.regN pFAB 0xF24) 1 := by
  have hcount : ∀ u : State, (u.count pFAB 0xF24).fab = u.fab := fun u =>
    State.fab_of_mask (M := { regs := true }) (u.count_mask _ rfl pFAB 0xF24 1) rfl
  have hreg : ∀ u : State, (u.count pFAB 0xF24).regN pFAB 0xF24 = satAdd 32 (u.regN pFAB 0xF24) 1 := fun u => u.regN_count_self _ _
  unfold State.dropHeld
  simp only [hk, hold, if_true]
  split
  · obtain ⟨hfab, hregs⟩ := State.accessDone_kept
      (State.count { s with fab := { s.fab with heldReqs := s.fab.heldReqs.eraseIdx k } } pFAB 0xF24) (mergeRegion (mTable h.p) (mRow h.p))
    rw [hfab, State.regN, State.reg, hregs]
    exact ⟨hcount _, hreg _⟩
  · exact ⟨hcount _, hreg _⟩

/-- Settles O44. -/
theorem fabricTimersAndForwards : Obligations.FabricTimersAndForwards := by
  refine ⟨fun p s b i x h hx => ?_, fun n p s hup => ?_, fun k e s hup hquar => ?_, fun k s hup => ?_⟩
  · have hmine : ((s.take p).freeTag p.tag).barge? b = some x := by
      rw [State.barge?, State.freeTag_sv, State.take_sv]; exact hx
    have harrived := State.barge?_updBarge_self (f := (·.setOp i fun o => { o with outstanding := o.outstanding - 1 })) hmine fun _ => rfl
    rw [exec_response h]
    refine ⟨fun hst => ?_, fun hst hok => ?_⟩
    · simp only [hst, if_true]
      exact ⟨_, _, rfl, harrived, rfl⟩
    · simp only [hst, if_false]
      exact ⟨_, _, rfl, State.failBarge_self harrived hok fCFG, rfl⟩
  · have hexec : exec (.packetForward n p) s = .next (s.forwardPacket n p) := State.engine_up hup fun s => s.forwardPacket n p
    rw [hexec]
    refine ⟨fun hhere => by simp [State.forwardPacket, hhere], fun hfar hwait => by simp [State.forwardPacket, hfar, hwait],
      fun hfar hturn hok => ⟨fun hiso => by simp [State.forwardPacket, hfar, hturn, hok, hiso], fun hiso hhall hrack => ?_, fun hiso hgoes => ?_⟩⟩
    · have hforward : s.forwardPacket n p = ((s.take p).count pFAB 0xF1C).err pFAB 4 := by
        simp [State.forwardPacket, hfar, hturn, hok, hiso, hhall, hrack]
      obtain ⟨hfab, hcount, hbit⟩ := (s.take p).refused_spec
      rw [State.take_regN] at hcount
      exact ⟨_, congrArg _ hforward, hfab, hcount, hbit⟩
    · have hforward : s.forwardPacket n p = ((s.take p).count pFAB 0xF18).sendOut p (some n) := by
        have hcross : (decide (portStage n = 1) && !crossesRacks p.op) = false := by
          obtain h | h := hgoes <;> simp [h]
        simp [State.forwardPacket, hfar, hturn, hok, hiso, hcross]
      refine ⟨congrArg _ hforward, fun hstage hcut => ?_⟩
      have hsame := (s.take_sameRoutes p).trans ((s.take p).count_sameRoutes (o := 0xF18) 1 (by decide))
      obtain ⟨hfab, hbit⟩ := ((s.take p).count pFAB 0xF18).unroutable_spec
      rw [sendOut_unroutable (by rwa [hsame.stageTo]) (by rwa [hsame.route])] at hforward
      refine ⟨_, congrArg _ hforward, hfab.trans ?_, hbit⟩
      exact State.fab_of_mask (M := { regs := true }) ((s.take p).count_mask _ rfl pFAB 0xF18 1) rfl
  · have hexec : exec (.tagQuarantineExpiry k) s = .next (s.endQuarantine k) := State.engine_up hup fun s => s.endQuarantine k
    rw [hexec]
    refine ⟨fun hover => ⟨by simp [State.endQuarantine, hquar, hover], fun hnone => ?_⟩, fun hnot => ?_⟩
    · rw [State.freeTag_tagSt hnone]
      exact ⟨rfl, rfl⟩
    · simp [State.endQuarantine, hquar, Nat.not_le.2 hnot]
  · have hexec : exec (.heldRequestDiscard k) s = .next (s.dropHeld k) := State.engine_up hup fun s => s.dropHeld k
    rw [hexec]
    refine ⟨fun h hk hold => ⟨_, rfl, State.dropHeld_spec hk hold⟩, fun hnot => ?_⟩
    cases hk : s.fab.heldReqs[k]? with
    | none => simp [State.dropHeld, hk]
    | some h => simp [State.dropHeld, hk, Nat.not_le.2 (hnot h hk)]

end Sys2Proof.Machine
end

section
/-! SUPPORT. COMMIT_UNIT (R121 to R123, R406): when a unit is ready, what its refusal counts and fails, and what a write of external memory
leaves. -/

namespace Sys2Proof.Machine

open Sys2Proof

/-! ### Readiness (R121) -/

theorem nbit_toNat {n : Nat} (m : BitVec n) (l : Nat) : nbit m.toNat l = m.getLsbD l := by
  rw [nbit, BitVec.getLsbD, Nat.testBit_eq_decide_div_mod_eq]
  exact beq_eq_decide _ _

theorem Barge.allConfirmed_iff (x : Barge) (m : LockMask) :
    x.allConfirmed m = true ↔ ∀ l, l < 16 → m.getLsbD l = true → x.confirmed l = true := by
  simp only [Barge.allConfirmed, List.all_eq_true, mem_bitsOf, nbit_toNat, and_imp]

theorem State.unitReady_iff (s : State) (x : Barge) (u : CUnit) : s.unitReady x u = true ↔ x.failed = none ∧ x.opIs u.i .running = true
    ∧ (∀ l, l < 16 → u.pend.getLsbD l = true → x.confirmed l = true) ∧ x.waitsMet (s.progRec x u.i) = true ∧ s.unitInOrder x u = true
    ∧ s.unitHeld x u = false := by
  simp only [State.unitReady, Bool.and_eq_true, Option.isNone_iff_eq_none, Barge.allConfirmed_iff, Bool.not_eq_true', and_assoc]

/-- A commit unit found by its record and its key. -/
theorem unit_of_find? {l : List CUnit} {b i k : Nat} {u : CUnit} (h : l.find? (fun v => v.b == b && v.i == i && v.key == k) = some u) :
    u.b = b ∧ u.i = i ∧ u.key = k := by
  simpa [and_assoc] using List.find?_some h

/-- What COMMIT_UNIT does with the unit it names (R121, R406). -/
theorem exec_commitUnit {s : State} {b i k : Nat} {x : Barge} {u : CUnit} (hup : s.up = true) (hx : s.barge? b = some x)
    (hu : s.sv.units.find? (fun v => v.b == b && v.i == i && v.key == k) = some u) :
    exec (.commitUnit b i k) s = match (if !s.unitReady x u then some s else if x.unitOut u then some (s.dropUnit u)
      else if u.poison || s.addPoison u then some ((s.dropUnit u).refuseUnit x u) else (s.dropUnit u).actUnit x u) with
    | some t => .next t
    | none => .fault .beyondPopulated := by
  change execCommitUnit b i k s = _
  simp only [execCommitUnit, hup, if_true, State.commitUnit, hx, hu] <;> rfl

theorem State.barge?_dropUnit {s : State} {b : Nat} {x : Barge} {u : CUnit} (hx : s.barge? b = some x) (hub : u.b = b) :
    (s.dropUnit u).barge? b = some (x.setOp u.i fun o => { o with done := u.key :: o.done }) := by
  rw [State.dropUnit, hub]
  exact State.barge?_updBarge_self (f := (·.setOp u.i fun o => { o with done := u.key :: o.done })) hx fun _ => rfl

/-! ### Refusal (R406) -/

theorem State.failRow_errKept (s : State) (b row fate : Nat) : ErrKept s (s.failRow b row fate) := by
  unfold State.failRow
  split
  · exact .refl s
  · split
    · refine .ite (.refl s) ?_
      unfold State.failRowOf
      refine ErrKept.trans (.ite ?_ (s.endRequest_fates _ _).err) (.of_regs rfl)
      split
      · exact (s.settleJ_fates _ _).err
      · exact .refl s
    · exact s.failBarge_errKept b fate

/-- A unit refused for poison is counted, and fails its barge where no row owns it (R406). -/
theorem State.refuseUnit_spec {s : State} {b : Nat} {x y : Barge} {u : CUnit} (hy : s.barge? b = some y) (hok : y.failed = none)
    (hid : x.id = b) : (s.refuseUnit x u).regN pERR 0xF1C = satAdd 32 (s.regN pERR 0xF1C) 1
      ∧ (u.rows = [] ∨ x.rows = [] → ∃ z, (s.refuseUnit x u).barge? b = some z ∧ z.failed = some fECC) := by
  have hcount : s.refusePoison.regN pERR 0xF1C = satAdd 32 (s.regN pERR 0xF1C) 1 := s.regN_count_self pERR 0xF1C
  have hsv : s.refusePoison.sv = s.sv := State.sv_of_mask (M := { regs := true }) (s.count_mask _ rfl pERR 0xF1C 1) rfl
  have hmine : s.refusePoison.barge? b = some y := by rw [State.barge?, hsv]; exact hy
  have hrows : ErrKept s.refusePoison (s.refusePoison.failRows b u.rows fECC) :=
    .foldl (fun s r => s.failRow_errKept b r fECC) _ _
  rw [State.refuseUnit, hid]
  refine ⟨?_, fun hnone => ?_⟩
  · rw [← hcount]
    have hkept : ErrKept s.refusePoison
        (if (u.rows.isEmpty || x.rows.isEmpty) = true then s.refusePoison.failBarge b fECC else s.refusePoison.failRows b u.rows fECC) :=
      .ite (s.refusePoison.failBarge_errKept b fECC) hrows
    exact congrArg BitVec.toNat (hkept 0xF1C (by decide) (by decide))
  · have hempty : (u.rows.isEmpty || x.rows.isEmpty) = true := by obtain h | h := hnone <;> simp [h]
    simp only [hempty, if_true]
    exact ⟨_, State.failBarge_self hmine hok fECC, rfl⟩

/-! ### Writes of external memory -/

theorem State.eq_of_memory_mask {s t : State} (h : t.mask { regs := true, ext := true, tags := true, hq := true, armed := true }
    = s.mask { regs := true, ext := true, tags := true, hq := true, armed := true }) :
    t = { s with ext := t.ext, tags := t.tags, armed := t.armed, regs := t.regs, hq := t.hq } := by
  cases s
  cases t
  simpa [State.mask] using h

theorem State.extWrite_memoryWritten (s : State) (a : Nat) (bs : List Byte) (poison : Bool) : MemoryWritten s (s.extWrite a bs poison) := by
  have hrest := State.eq_of_memory_mask (s.extWrite_mask { regs := true, ext := true, tags := true, hq := true, armed := true } rfl rfl rfl rfl rfl a bs poison)
  rw [(s.extWrite_noted a bs poison).hq] at hrest
  exact hrest

/-- Bytes written to external memory are there, and no other byte has changed. -/
theorem State.extWrite_bytes (s : State) (a : Nat) (bs : List Byte) (poison : Bool) :
    (∀ o, o < bs.length → (s.extWrite a bs poison).ext.get (a + o) = bs.getD o 0)
      ∧ ∀ c, ¬(a ≤ c ∧ c < a + bs.length) → (s.extWrite a bs poison).ext.get c = s.ext.get c := by
  rw [State.extWrite_ext]
  refine ⟨fun o ho => ?_, fun c hc => Mem.get_write_outside _ _ _ _ (by omega)⟩
  rw [Mem.get_write_inside _ _ _ _ ho, List.getD_eq_getElem _ _ ho]

/-! ### A ready unit -/

section

variable {s : State} {b i k : Nat} {x : Barge} {u : CUnit} (hup : s.up = true) (hx : s.barge? b = some x)
  (hu : s.sv.units.find? (fun v => v.b == b && v.i == i && v.key == k) = some u)
include hup hx hu

theorem exec_commitUnit_of_not_ready (h : s.unitReady x u = false) : exec (.commitUnit b i k) s = .next s := by
  rw [exec_commitUnit hup hx hu, h]
  rfl

theorem exec_commitUnit_out (h : s.unitReady x u = true) (hout : x.unitOut u = true) : exec (.commitUnit b i k) s = .next (s.dropUnit u) := by
  rw [exec_commitUnit hup hx hu, h, hout]
  rfl

theorem exec_commitUnit_poisoned (h : s.unitReady x u = true) (hout : x.unitOut u = false) (hbad : u.poison = true) :
    exec (.commitUnit b i k) s = .next ((s.dropUnit u).refuseUnit x u) := by
  rw [exec_commitUnit hup hx hu, h, hout, hbad]
  rfl

theorem exec_commitUnit_clean (h : s.unitReady x u = true) (hout : x.unitOut u = false) (hclean : u.poison = false)
    (hadd : s.addPoison u = false) : exec (.commitUnit b i k) s = match (s.dropUnit u).actUnit x u with
      | some t => .next t
      | none => .fault .beyondPopulated := by
  rw [exec_commitUnit hup hx hu, h, hout, hclean, hadd]
  rfl

end

/-- Settles O29. -/
theorem commitUnitMakesOneCommitOrNone : Obligations.CommitUnitMakesOneCommitOrNone := by
  intro b i k s x u hup hx hu
  obtain ⟨hub, hui, huk⟩ := unit_of_find? hu
  have hxid := barge?_id hx
  refine ⟨fun hnot => ?_, fun hok hrun hlocks hwaits horder hheld => ?_⟩
  · refine exec_commitUnit_of_not_ready hup hx hu (Bool.eq_false_iff.2 fun hready => ?_)
    obtain ⟨-, -, hlocks, hwaits, -, -⟩ := (s.unitReady_iff x u).1 hready
    obtain ⟨l, hl, hbit, hopen⟩ | hmiss := hnot
    · rw [hlocks l hl hbit] at hopen
      exact absurd hopen (by decide)
    · rw [hui, hmiss] at hwaits
      exact absurd hwaits (by decide)
  · have hready : s.unitReady x u = true := (s.unitReady_iff x u).2 ⟨hok, hui ▸ hrun, hlocks, hui ▸ hwaits, horder, hheld⟩
    have hmine := State.barge?_dropUnit hx hub
    refine ⟨?_, fun hout => exec_commitUnit_out hup hx hu hready hout, fun hout hbad => ?_, fun hout hclean hadd => ?_⟩
    · show s.sv.units.filter _ = _
      rw [hub, hui, huk]
    · obtain ⟨hcount, hfails⟩ := State.refuseUnit_spec (u := u) hmine hok hxid
      exact ⟨_, exec_commitUnit_poisoned hup hx hu hready hout hbad, hcount, hfails⟩
    · have hexec := exec_commitUnit_clean hup hx hu hready hout hclean hadd
      refine ⟨fun a bs hact => ?_, fun a v hact => ?_, fun row a bs hact hext hbeyond => ?_, fun t ht => by rw [hexec, ht], fun houtput hkv => ?_⟩
      · have hacts : (s.dropUnit u).actUnit x u = some ((s.dropUnit u).extWrite a bs) := by simp only [State.actUnit, hact]
        obtain ⟨hin, hoff⟩ := (s.dropUnit u).extWrite_bytes a bs false
        exact ⟨_, by rw [hexec, hacts], hin, hoff, (s.dropUnit u).extWrite_memoryWritten a bs false⟩
      · have hacts : (s.dropUnit u).actUnit x u = some ((s.dropUnit u).addAt a v) := by simp only [State.actUnit, hact]
        refine ⟨(s.dropUnit u).addAt a v, by rw [hexec, hacts], ?_, fun c hc => State.get_extPutNat_outside (s.dropUnit u) _ _ _ hc,
          (s.dropUnit u).extWrite_memoryWritten a _ false⟩
        rw [State.addAt, State.extNat_extPutNat]
        exact Nat.mod_mod _ _
      · have hacts : (s.dropUnit u).actUnit x u = none := by
          have hfault : ((s.berth ((x.rows[row]?).elim 0 (·.berth))).outExt && decide (s.populated < a + bs.length)) = true := by
            simp [hext, hbeyond]
          simp only [State.actUnit, hact]
          exact if_pos hfault
        rw [hexec, hacts]
      · cases hact : u.act with
        | output row a bs => exact absurd hact (houtput row a bs)
        | kvCommit row n ts => exact absurd hact (hkv row n ts)
        | _ => simp only [State.actUnit, hact, Option.isSome_some]

end Sys2Proof.Machine
end

section
/-! SUPPORT. The commit of a manifest row (R99, R279, R288): the delivered tokens at their address, the request's counts, and what the
tollhouse's bookkeeping leaves of the berths. -/

namespace Sys2Proof.Machine

open Sys2Proof

/-- From `s` to `t` the tollhouse has kept its books: a berth has changed in the time since which it is deferred alone, and external
memory and the barges not at all (R287 to R289). -/
structure Booked (s t : State) : Prop where
  berth : ∀ m, ∃ d, t.berth m = { s.berth m with deferSince := d }
  ext : t.ext = s.ext
  barges : t.sv.barges = s.sv.barges

namespace Booked

variable {s t u : State}

theorem of_berths (h : t.sv.berths = s.sv.berths) (hext : t.ext = s.ext) (hb : t.sv.barges = s.sv.barges) : Booked s t :=
  ⟨fun m => ⟨(s.berth m).deferSince, by rw [State.berth, h]; rfl⟩, hext, hb⟩

theorem refl (s : State) : Booked s s := of_berths rfl rfl rfl

theorem trans (h : Booked s t) (k : Booked t u) : Booked s u := by
  refine ⟨fun m => ?_, k.ext.trans h.ext, k.barges.trans h.barges⟩
  obtain ⟨d, hd⟩ := h.berth m
  obtain ⟨e, he⟩ := k.berth m
  exact ⟨e, by rw [he, hd]⟩

theorem ite {a b : State} {c : Prop} [Decidable c] (ha : Booked s a) (hb : Booked s b) : Booked s (if c then a else b) := by
  split
  · exact ha
  · exact hb

end Booked

theorem State.noteDefers_booked (s : State) : Booked s s.noteDefers :=
  ⟨fun m => by rw [State.berth_noteDefers]; exact s.deferNoted_eq _, rfl, rfl⟩

theorem State.count_booked (s : State) (P o n : Nat) : Booked s (s.count P o n) := by
  have hsv : (s.count P o n).sv = s.sv := State.sv_of_mask (M := { regs := true }) (s.count_mask _ rfl P o n) rfl
  exact .of_berths (by rw [hsv]) (State.ext_of_mask (M := { regs := true }) (s.count_mask _ rfl P o n) rfl) (by rw [hsv])

theorem State.updAccount_booked (s : State) (n : Nat) (f : Account → Account) : Booked s (s.updAccount n f) := .of_berths rfl rfl rfl

theorem State.balance_booked (s : State) (n : Nat) (units : Int) : Booked s (s.balance n units) := by
  have hput := s.updAccount_booked n fun a => { a with balance := satBalance (a.balance + units) }
  exact .trans (.ite (hput.trans (State.count_booked _ pTOLL 0xF04 1)) hput) (State.noteDefers_booked _)

theorem State.tokenDue_booked (s : State) (x : Barge) (i n : Nat) : Booked s (s.tokenDue x i n) := by
  have hmask := s.tokenDue_mask { hq := true } rfl x i n
  have hsv : (s.tokenDue x i n).sv = s.sv := State.sv_of_mask hmask rfl
  exact .of_berths (by rw [hsv]) (State.ext_of_mask hmask rfl) (by rw [hsv])

/-! ### Delivered tokens -/

theorem flatMap_leBytes_length (ts : List Nat) : (ts.flatMap (leBytes 4)).length = 4 * ts.length := by
  induction ts with
  | nil => rfl
  | cons t ts ih => rw [List.flatMap_cons, List.length_append, ih, leBytes_length, List.length_cons]; omega

/-- The tokens of a row, written where its request's output buffer goes on (R279). -/
def State.putTokens (s : State) (be : Berth) (n : Nat) (outs : List Nat) : State :=
  if outs.isEmpty then s
  else s.locWrite be.outExt (be.outAddr + 4 * be.delivered) (outs.flatMap (leBytes 4)) (.output n be.j)

theorem State.putTokens_sv (s : State) (be : Berth) (n : Nat) (outs : List Nat) : (s.putTokens be n outs).sv = s.sv := by
  unfold State.putTokens
  split
  · rfl
  · exact State.sv_of_mask (M := { regs := true, ext := true, tags := true, hq := true, armed := true })
      (s.locWrite_mask _ rfl rfl rfl rfl rfl _ _ _ _) rfl

theorem State.putTokens_host (s : State) {be : Berth} (h : be.outExt = false) (n : Nat) (outs : List Nat) :
    (s.putTokens be n outs).ext = s.ext := by
  unfold State.putTokens State.locWrite
  rw [h]
  split
  · rfl
  · exact State.ext_of_mask (M := { hq := true }) (s.hostWrite_mask _ rfl _ _ _) rfl

theorem State.putTokens_ext (s : State) {be : Berth} (h : be.outExt = true) (n : Nat) (outs : List Nat) :
    (s.putTokens be n outs).ext = s.ext.write (be.outAddr + 4 * be.delivered) (outs.flatMap (leBytes 4)) := by
  unfold State.putTokens State.locWrite
  rw [h]
  cases outs with
  | nil => rfl
  | cons t ts => exact State.extWrite_ext _ _ _ _

/-! ### The commit -/

/-- The berth of a request one of whose rows has committed (R99, R279). -/
def Berth.committedBy (be : Berth) (commit : Nat) (outs : List Nat) : Berth :=
  { be with
    committed := be.committed + commit, delivered := be.delivered + outs.length
    kv := be.kv.filter fun x => be.committed + commit ≤ x.position
    st := if be.st == .prefill && be.startPos + be.promptLen ≤ be.committed + commit then .decode else be.st
    finished := be.finished || be.ends outs && !outs.isEmpty }

/-- The row is the last of its request's prompt, or one of its decoding: it may deliver tokens (R279). -/
def Berth.delivers (be : Berth) (r : ManRow) : Bool := r.kind == 0 || r.position + 1 == be.startPos + be.promptLen

/-- The tokens that a row delivers (R279). -/
def Berth.outs (be : Berth) (r : ManRow) (toks : List Nat) : List Nat :=
  if be.finished || !be.delivers r then [] else deliver be.maxTokens be.stopToken be.delivered toks

/-- The tollhouse's books after a row's commit (R288, R290). -/
def State.bookRow (s : State) (be : Berth) (r : ManRow) (commit emitted delivered : Nat) : State :=
  let s := s.acctCount be.tenant fun a => { a with
    outTokens := satAdd 32 a.outTokens delivered
    prefillTokens := satAdd 32 a.prefillTokens (if r.kind = 1 then commit else 0)
    draftsRejected := satAdd 32 a.draftsRejected (if r.kind = 0 then r.draft + 1 - commit else 0) }
  if r.kind = 0 then s.balance (s.acctOf be.tenant) ((256 - (s.wd : Int)) * (refundOf r commit (emitted - delivered) : Nat)) else s

theorem State.bookRow_booked (s : State) (be : Berth) (r : ManRow) (commit emitted delivered : Nat) :
    Booked s (s.bookRow be r commit emitted delivered) :=
  .ite (.trans (s.updAccount_booked _ _) (State.balance_booked _ _ _)) (s.updAccount_booked _ _)

/-- The barge that has committed a row of its manifest with record `i` (R99). -/
def Barge.rowCommitted (x : Barge) (i row : Nat) (r : ManRow) (commit emitted delivered : Nat) : Barge :=
  { x.setOp i (·.emit r.berth emitted delivered) with
    rows := setAt x.rows row fun q => { q with committed := true }
    specs := x.specs.filter fun p => !(p.berth == r.berth && r.position ≤ p.position && p.position < r.position + commit) }

theorem Barge.rowCommitted_committed (x : Barge) (i row : Nat) (r : ManRow) (commit emitted delivered : Nat) {q : ManRow}
    (h : (x.rowCommitted i row r commit emitted delivered).rows[row]? = some q) : q.committed = true := by
  by_cases hrow : row < x.rows.length
  · simp [Barge.rowCommitted, setAt, hrow] at h
    rw [← h]
  · simp [Barge.rowCommitted, setAt, hrow] at h

theorem State.commitKv_eq (s : State) (x : Barge) (i row : Nat) (r : ManRow) (commit : Nat) (toks : List Nat) :
    s.commitKv x i row r commit toks =
      let be := s.berth r.berth
      let outs := be.outs r toks
      if be.outExt && !outs.isEmpty && decide (s.populated < be.outAddr + 4 * be.delivered + 4 * outs.length) then none
      else some (((((s.putTokens be r.berth outs).setBerth r.berth (be.committedBy commit outs)).bookRow be r commit toks.length outs.length).updBarge x.id
        (·.rowCommitted i row r commit toks.length outs.length)).tokenDue x i r.berth) := rfl

/-- What the commit of a row of the request in berth `r.berth` leaves (R99, R279). -/
theorem State.commitKv_spec {s : State} {b i row commit : Nat} {x y : Barge} {r : ManRow} {toks : List Nat} (hy : s.barge? b = some y)
    (hid : x.id = b) {be : Berth} (hbe : be = s.berth r.berth) {outs : List Nat} (houts : outs = be.outs r toks)
    (hfit : be.outExt = true → be.outAddr + 4 * be.delivered + 4 * outs.length ≤ s.populated) :
    ∃ t, s.commitKv x i row r commit toks = some t ∧ (t.berth r.berth).committed = be.committed + commit
      ∧ (t.berth r.berth).delivered = be.delivered + outs.length
      ∧ (∀ n, n ≠ r.berth → t.berth n = { s.berth n with deferSince := (t.berth n).deferSince })
      ∧ t.ext = (s.putTokens be r.berth outs).ext ∧ t.barge? b = some (y.rowCommitted i row r commit toks.length outs.length) := by
  have hnone : (be.outExt && !outs.isEmpty && decide (s.populated < be.outAddr + 4 * be.delivered + 4 * outs.length)) = false := by
    cases hext : be.outExt with
    | false => rfl
    | true => simp [Nat.not_lt.2 (hfit hext)]
  have hseat : (s.putTokens be r.berth outs).sv = s.sv := s.putTokens_sv be r.berth outs
  obtain ⟨u, hu⟩ : ∃ u, u = (s.putTokens be r.berth outs).setBerth r.berth (be.committedBy commit outs) := ⟨_, rfl⟩
  have hbook := u.bookRow_booked be r commit toks.length outs.length
  have hmine : (u.bookRow be r commit toks.length outs.length).barge? b = some y := by
    rw [State.barge?, hbook.barges, hu]
    show (s.putTokens be r.berth outs).sv.barges.find? _ = _
    rw [hseat]
    exact hy
  have hset := State.barge?_updBarge_self (f := (·.rowCommitted i row r commit toks.length outs.length)) hmine fun _ => rfl
  have hdue := ((u.bookRow be r commit toks.length outs.length).updBarge b (·.rowCommitted i row r commit toks.length outs.length)).tokenDue_booked x i r.berth
  obtain ⟨t, ht⟩ : ∃ t, t = ((u.bookRow be r commit toks.length outs.length).updBarge b
      (·.rowCommitted i row r commit toks.length outs.length)).tokenDue x i r.berth := ⟨_, rfl⟩
  rw [← ht] at hdue
  have hberth : ∀ m, ∃ d, t.berth m = { u.berth m with deferSince := d } := fun m => by
    obtain ⟨d, hd⟩ := hbook.berth m
    obtain ⟨e, he⟩ := hdue.berth m
    refine ⟨e, he.trans ?_⟩
    show { (u.bookRow be r commit toks.length outs.length).berth m with deferSince := e } = _
    rw [hd]
  have hown : u.berth r.berth = be.committedBy commit outs := by rw [hu]; exact State.berth_setBerth _ _ _
  have hother : ∀ n, n ≠ r.berth → u.berth n = s.berth n := fun n hn => by
    rw [hu]
    refine (SMap.get_put_other _ _ _ _ _ hn).trans ?_
    rw [hseat]
    rfl
  refine ⟨t, ?_, ?_, ?_, fun n hn => ?_, ?_, ?_⟩
  · rw [State.commitKv_eq]
    simp only [← hbe, ← houts, hnone, Bool.false_eq_true, if_false]
    rw [ht, hu, hid]
  · obtain ⟨d, hd⟩ := hberth r.berth
    rw [hd, hown]
    rfl
  · obtain ⟨d, hd⟩ := hberth r.berth
    rw [hd, hown]
    rfl
  · obtain ⟨d, hd⟩ := hberth n
    rw [hd, hother n hn]
  · rw [hdue.ext]
    exact hbook.ext.trans (by rw [hu]; rfl)
  · rw [State.barge?, hdue.barges]
    exact hset

/-- Settles O30. -/
theorem kvCommitUnitAdvancesItsRequest : Obligations.KvCommitUnitAdvancesItsRequest := by
  intro b i k row commit toks s x u r hup hx hu hact hready hout hclean hr hkind be last outs hnone hsome hfit
  obtain ⟨hub, hui, huk⟩ := unit_of_find? hu
  have hlast : be.delivers r = true ↔ last := by simp [Berth.delivers, last, be]
  have houts : outs = be.outs r toks := by
    unfold Berth.outs
    by_cases hend : be.finished = true ∨ ¬last
    · rw [hnone hend, if_pos]
      simpa [← hlast] using hend
    · obtain ⟨hopen, hl⟩ := not_or.1 hend
      rw [hsome (by simpa using hopen) (not_not.1 hl), if_neg]
      simpa [hlast.2 (not_not.1 hl)] using hopen
  obtain ⟨t, hcommit, hcommitted, hdelivered, hothers, hext, hmine⟩ := State.commitKv_spec (s := s.dropUnit u) (i := u.i) (row := row)
    (commit := commit) (State.barge?_dropUnit hx hub) (barge?_id hx) (be := be) rfl houts hfit
  have hacts : (s.dropUnit u).actUnit x u = some t := by
    simp only [State.actUnit, hact, hr, hkind, if_false]
    exact hcommit
  have hexec := exec_commitUnit_clean hup hx hu hready hout hclean (by simp [State.addPoison, hact])
  rw [hacts] at hexec
  refine ⟨t, _, hexec, hcommitted, hdelivered, hothers, fun hin o ho => ?_, fun hin c hc => ?_, fun hin => ?_, hmine, fun q hq => ?_⟩
  · have hlen : o < (outs.flatMap (leBytes 4)).length := by rw [flatMap_leBytes_length]; exact ho
    rw [hext, State.putTokens_ext _ hin, Mem.get_write_inside _ _ _ _ hlen, List.getD_eq_getElem _ _ hlen]
  · rw [hext, State.putTokens_ext _ hin]
    exact Mem.get_write_outside _ _ _ _ (by rw [flatMap_leBytes_length]; omega)
  · rw [hext, State.putTokens_host _ hin]
    rfl
  · exact Barge.rowCommitted_committed _ _ _ _ _ _ _ hq

end Sys2Proof.Machine
end

section
/-! SUPPORT. DELTA (R95, R163, R168): the search for a record's factor rows keeps its barge's records and the time, and asks for nothing
where every row is a base row; then the two directions. -/

namespace Sys2Proof.Machine

open Sys2Proof

/-! ### The search for factor rows -/

/-- From `s` to `t` factor rows have been looked for: the time is the same, and barge `b` is there with its records as they
were (R163). -/
structure Sought (b : Nat) (s t : State) : Prop where
  now : t.now = s.now
  barge : ∀ x, s.barge? b = some x → ∃ y, t.barge? b = some y ∧ y.ops = x.ops

namespace Sought

variable {b : Nat} {s t u : State}

theorem refl (b : Nat) (s : State) : Sought b s s := ⟨rfl, fun x hx => ⟨x, hx, rfl⟩⟩

theorem trans (h : Sought b s t) (k : Sought b t u) : Sought b s u := by
  refine ⟨k.now.trans h.now, fun x hx => ?_⟩
  obtain ⟨y, hy, hyx⟩ := h.barge x hx
  obtain ⟨z, hz, hzy⟩ := k.barge y hy
  exact ⟨z, hz, hzy.trans hyx⟩

theorem ite {a a' : State} {c : Prop} [Decidable c] (ha : Sought b s a) (ha' : Sought b s a') : Sought b s (if c then a else a') := by
  split
  · exact ha
  · exact ha'

/-- A step that leaves the lock-keeper's state and the time alone. -/
theorem of_mask {M : Mask} (h : t.mask M = s.mask M) (hsv : M.sv = false) (hao : M.aoUs = false) : Sought b s t :=
  ⟨congrArg BitVec.toNat (State.aoUs_of_mask h hao), fun x hx => ⟨x, by rw [State.barge?, State.sv_of_mask h hsv]; exact hx, rfl⟩⟩

theorem updBarge (b : Nat) (s : State) (k : Nat) {f : Barge → Barge} (hid : ∀ x, (f x).id = x.id) (hops : ∀ x, (f x).ops = x.ops) :
    Sought b s (s.updBarge k f) := by
  refine ⟨rfl, fun x hx => ?_⟩
  obtain rfl | hne := eq_or_ne b k
  · exact ⟨f x, State.barge?_updBarge_self hx hid, hops x⟩
  · exact ⟨x, (s.barge?_updBarge_other hne hid).trans hx, rfl⟩

/-- A fold that carries a result beside the state. -/
theorem foldl_snd {α β : Type} {f : β × State → α → β × State} (h : ∀ p x, Sought b p.2 (f p x).2) (l : List α) (p : β × State) :
    Sought b p.2 (l.foldl f p).2 := by
  induction l generalizing p with
  | nil => exact refl b p.2
  | cons x l ih => exact (h p x).trans (ih _)

end Sought

section

variable (b : Nat)

theorem State.err_sought (s : State) (P k : Nat) : Sought b s (s.err P k) :=
  .of_mask (M := { regs := true, hq := true }) (s.err_mask _ rfl rfl P k) rfl rfl

theorem State.count_sought (s : State) (P o n : Nat) : Sought b s (s.count P o n) :=
  .of_mask (M := { regs := true }) (s.count_mask _ rfl P o n) rfl rfl

theorem State.putFactor_sought (s : State) (id : Nat) (f : FactorRow) (first : Bool) : Sought b s (s.putFactor id f first) :=
  .updBarge b s id (fun _ => rfl) fun _ => rfl

theorem State.copyDesc_sought (s : State) (id m a : Nat) : Sought b s (s.copyDesc id m a).2 := by
  unfold State.copyDesc
  split
  · exact .refl b s
  · exact .trans (.ite (s.err_sought b pSPD 1) (.refl b s)) (.updBarge b _ id (fun _ => rfl) fun _ => rfl)

theorem State.segRes_sought (s : State) (x : Barge) (w : Nat) (g : Seg) : Sought b s (s.segRes x w g).2 := by
  have hcopy := s.copyDesc_sought b x.id x.mooring g.adapter
  unfold State.segRes
  simp only []
  split
  · exact .refl b s
  · split
    · exact .refl b s
    · split
      · next heq => rw [heq] at hcopy; exact hcopy
      · next heq =>
        rw [heq] at hcopy
        exact .trans hcopy (.ite (State.err_sought b _ pROW 0) (.refl b _))

theorem State.settleSegs_sought (s : State) (x : Barge) (w : Nat) (train : Bool) (row : Nat) (gs : List Seg) :
    Sought b s (s.settleSegs x w train row gs).2 := by
  induction gs generalizing s row with
  | nil => exact .refl b s
  | cons g gs ih =>
    unfold State.settleSegs
    simp only []
    split
    · exact ih s _
    · exact (s.segRes_sought b x w g).trans (ih _ _)

theorem State.fetchFactor_sought (s : State) (x : Barge) (i r n : Nat) (fwd : Bool) : Sought b s (s.fetchFactor x i r n fwd).2 := by
  unfold State.fetchFactor
  simp only []
  split
  · exact (s.count_sought b pSPD 0xF08 1).trans (State.putFactor_sought b _ _ _ _)
  · next t _ _ =>
    have hget : Sought b s (s.acquire r t n 1 true false).2 :=
      .of_mask (M := { regs := true, ext := true, tags := true, hq := true, regions := true, rows := true, fab := true, armed := true })
        (s.acquire_mask _ rfl rfl rfl rfl rfl rfl rfl rfl r t n 1 true false) rfl rfl
    split
    · next g u heq =>
      rw [heq] at hget
      have hrow : Sought b u (u.factorRow x.mooring r i n t g).2 :=
        .of_mask (M := { regs := true, hq := true }) (u.factorRow_mask _ rfl rfl x.mooring r i n t g) rfl rfl
      exact ((hget.trans hrow).trans (State.count_sought b _ pSPD 0xF08 1)).trans (State.putFactor_sought b _ _ _ _)
    · next heq =>
      rw [heq] at hget
      exact hget.trans (.updBarge b _ x.id (fun _ => rfl) fun _ => rfl)
    · next heq =>
      rw [heq] at hget
      exact hget
    · next heq =>
      rw [heq] at hget
      exact hget.trans (.of_mask (M := { regs := true, regions := true }) (State.noteWait_mask _ rfl rfl _ _ _) rfl rfl)
  · exact .refl b s

theorem State.seekFactor_sought (s : State) (id i r n : Nat) (g : Seg) (fwd : Bool) : Sought b s (s.seekFactor id i r n g fwd).2 := by
  unfold State.seekFactor
  split
  · split
    · exact .refl b s
    · split
      · split
        · exact State.putFactor_sought b s _ _ _
        · exact .refl b s
      · exact s.fetchFactor_sought b _ i r n fwd
  · exact .refl b s

theorem State.seekAll_sought (s : State) (x : Barge) (w i : Nat) (fwd : Bool) (ws : List SegWork) : Sought b s (s.seekAll x w i fwd ws).2 := by
  unfold State.seekAll
  refine Sought.foldl_snd (fun p g => ?_) _ (false, s)
  split
  · refine Sought.foldl_snd (fun p r => ?_) _ p
    refine Sought.foldl_snd (fun p n => ?_) _ p
    exact State.seekFactor_sought b p.2 x.id i r n g.seg fwd
  · exact .refl b p.2

theorem State.seekSegs_sought (s : State) (x : Barge) (i : Nat) (train : Bool) : Sought b s (s.seekSegs x i train).2.2 :=
  (s.settleSegs_sought b x (s.progRec x i) train 0 (x.covered (s.progRec x i))).trans (State.seekAll_sought b _ x _ i _ _)

end

/-! ### Base rows only -/

theorem mem_of_mem_insertBy {α : Type} {le : α → α → Bool} {x g : α} {l : List α} (h : g ∈ insertBy le x l) : g = x ∨ g ∈ l := by
  induction l with
  | nil => exact .inl (List.mem_singleton.1 h)
  | cons y l ih =>
    unfold insertBy at h
    split at h
    · exact List.mem_cons.1 h
    · obtain rfl | h := List.mem_cons.1 h
      · exact .inr List.mem_cons_self
      · exact (ih h).imp_right (List.mem_cons_of_mem _)

/-- Sorting adds no element. -/
theorem mem_of_mem_sortBy {α : Type} {le : α → α → Bool} {g : α} {l : List α} (h : g ∈ sortBy le l) : g ∈ l := by
  induction l with
  | nil => exact h
  | cons y l ih =>
    obtain rfl | h := mem_of_mem_insertBy h
    · exact List.mem_cons_self
    · exact List.mem_cons_of_mem _ (ih h)

/-- Segments that no adapter corrects. -/
def AllBase (ws : List SegWork) : Prop := ∀ g, g ∈ ws → g.res = .base

theorem State.settleSegs_base (s : State) (x : Barge) (w : Nat) (train : Bool) (row : Nat) {gs : List Seg} (h : ∀ g, g ∈ gs → g.adapter = 0) :
    AllBase (s.settleSegs x w train row gs).1 ∧ (s.settleSegs x w train row gs).2 = s := by
  induction gs generalizing row with
  | nil => exact ⟨fun g hg => absurd hg (by simp [State.settleSegs]), rfl⟩
  | cons g gs ih =>
    have hg : s.segRes x w g = (.base, s) := by simp [State.segRes, h g (by simp)]
    have htail := fun row => ih row fun q hq => h q (List.mem_cons_of_mem _ hq)
    simp only [State.settleSegs, hg]
    split
    · exact htail _
    · obtain ⟨hbase, hs⟩ := htail (row + g.count)
      refine ⟨fun q hq => ?_, hs⟩
      obtain rfl | hq := List.mem_cons.1 hq
      · rfl
      · exact hbase q hq

theorem State.seekAll_base (s : State) (x : Barge) (w i : Nat) (fwd : Bool) {ws : List SegWork} (h : AllBase ws) :
    s.seekAll x w i fwd ws = (false, s) := by
  have hfold : ∀ (f : Bool × State → SegWork → Bool × State) (l : List SegWork), (∀ p, ∀ g ∈ l, f p g = p) →
      ∀ p, l.foldl f p = p := fun f l hf p => by
    induction l with
    | nil => rfl
    | cons g l ih => rw [List.foldl_cons, hf p g (by simp), ih fun p g hg => hf p g (List.mem_cons_of_mem _ hg)]
  unfold State.seekAll
  refine hfold _ _ (fun p g hg => ?_) _
  have hbase : g.res = .base := h g (mem_of_mem_sortBy hg)
  simp only [hbase]

/-- Where every covered row is a base row nothing is looked for, and no segment fails. -/
theorem State.seekSegs_base (s : State) {x : Barge} {i w : Nat} (hw : w = s.progRec x i) (train : Bool) (h : ∀ g, g ∈ x.covered w → g.adapter = 0) :
    (s.seekSegs x i train).1 = false ∧ (s.seekSegs x i train).2.2 = s
      ∧ (s.seekSegs x i train).2.1.map (s.segFails x w i) = (s.seekSegs x i train).2.1 := by
  obtain ⟨hbase, hs⟩ := s.settleSegs_base x w train 0 h
  have hseek := s.seekAll_base x w i (!train) hbase
  have heq : s.seekSegs x i train = (false, (s.settleSegs x w train 0 (x.covered w)).1, s) := by
    simp only [State.seekSegs, ← hw, hs, hseek]
  rw [heq]
  refine ⟨rfl, rfl, ?_⟩
  conv_rhs => rw [← List.map_id (s.settleSegs x w train 0 (x.covered w)).1]
  exact List.map_congr_left fun g hg => by simp only [State.segFails, hbase g hg, id]

/-! ### The commands (R95, R168) -/

section

variable {b i w : Nat} {s : State} {x : Barge} (hup : s.up = true) (hx : s.barge? b = some x) (hw : w = s.progRec x i) (hop : recOp w = 0x02)
include hup hx hw hop

/-- A DELTA of the forward direction that waits in the fetch window: it and its MM try to issue, or its reads start. -/
theorem State.exec_delta (hdir : dDir w = 0) {k : Nat} (hk : i = k + 1) (hwait : x.opIs i .waiting = true) :
    exec (.delta b i) s = .next (if s.mayIssue x k then s.tryPair x i else s.fetchAhead x i false) := by
  have hexec : exec (.delta b i) s = s.engine fun s => if s.deltaDir b i 0 then s.runPair b i else s := rfl
  have hpos : (i != 0) = true := by simp [hk]
  have hk' : i - 1 = k := by omega
  rw [hexec, State.engine_up hup]
  simp [State.deltaDir, State.runPair, hx, State.fetchRec_fetched hx ((x.opIs_iff _ _).1 hwait).1, ← hw, hop, hdir, hwait, hk', hpos]

theorem State.exec_deltaBackward (hdir : dDir w = 1) (hwait : x.opIs i .waiting = true) :
    exec (.deltaBackward b i) s = .next (if s.mayIssue x i then s.tryBack x i else s.fetchAhead x i true) := by
  have hexec : exec (.deltaBackward b i) s = s.engine fun s => if s.deltaDir b i 1 then s.runBack b i else s := rfl
  rw [hexec, State.engine_up hup]
  simp [State.deltaDir, State.runBack, hx, State.fetchRec_fetched hx ((x.opIs_iff _ _).1 hwait).1, ← hw, hop, hdir]

end

/-- Two records issued at one command. -/
theorem Barge.issuePair (x : Barge) (now : Nat) {k i : Nat} (hk : k < x.ops.length) (hi : i < x.ops.length) (hne : k ≠ i) :
    let z := (x.issueAt now k).issueAt now i
    z.opIs k .running = true ∧ z.opIs i .running = true ∧ (z.op k).issued = now ∧ (z.op i).issued = now := by
  have hik : ((x.issueAt now k).issueAt now i).op k = { x.op k with st := .running, issued := now } := by
    rw [Barge.issueAt_op_other _ _ hne, x.issueAt_op_self now hk]
  have hii : ((x.issueAt now k).issueAt now i).op i = { (x.issueAt now k).op i with st := .running, issued := now } :=
    Barge.issueAt_op_self _ now (by simpa using hi)
  simp only [Barge.opIs_iff, hik, hii, Barge.issueAt_length, hk, hi, and_self]

/-- Where DELTA record `i` of `x` and, forward, its MM may be looked at: the barge's entry once the rows have been sought. -/
theorem State.seekSegs_barge {b i : Nat} {s : State} {x : Barge} (hx : s.barge? b = some x) (train : Bool) :
    ∃ y, (s.seekSegs x i train).2.2.barge? b = some y ∧ y.ops = x.ops ∧ (s.seekSegs x i train).2.2.now = s.now := by
  obtain ⟨hnow, hbarge⟩ := s.seekSegs_sought b x i train
  obtain ⟨y, hy, hops⟩ := hbarge x hx
  exact ⟨y, hy, hops, hnow⟩

section

variable {b i k v w : Nat} {s : State} {x : Barge} (hx : s.barge? b = some x) (hw : w = s.progRec x i) (hk : i = k + 1)
  (hv : v = s.progRec x k) (hclear : s.blocked x v = none) (hheld : s.rangesHeld b (mmExt v) = false)
include hx hw hk hv hclear hheld

theorem State.tryPair_free : s.tryPair x i =
    if mmZero v then (((s.issue b k).issue b i).finishOp b k).finishOp b i
    else if dCount w = 0 then mmEffect k (((s.issue b k).issue b i).finishOp b i) x v
    else if (s.seekSegs x i false).1 then (s.seekSegs x i false).2.2
    else match (s.seekSegs x i false).2.2.barge? b with
      | some y => (((s.seekSegs x i false).2.2.issue b k).issue b i).pairRun y i v w
          ((s.seekSegs x i false).2.1.map ((s.seekSegs x i false).2.2.segFails y w i))
      | none => (s.seekSegs x i false).2.2 := by
  have hk' : i - 1 = k := by omega
  obtain rfl : x.id = b := barge?_id hx
  unfold State.tryPair
  simp only [hk', ← hv, ← hw, hclear, hheld] <;> rfl

/-- An MM of no rows, columns or tiles: it and its DELTA complete at once (R93). -/
theorem State.tryPair_zero (hilt : i < x.ops.length) (hzero : mmZero v = true) :
    ∃ y, (s.tryPair x i).barge? b = some y ∧ y.opIs k .complete = true ∧ y.opIs i .complete = true ∧ y.tokenSet (recSignal v) = true
      ∧ y.tokenSet (recSignal w) = true ∧ s.tryPair x i = { s with sv := { s.sv with barges := (s.tryPair x i).sv.barges } } := by
  have hklt : k < x.ops.length := by omega
  have hissued := ((AtBarge.refl hx).issue k).issue i
  have hlen : ((x.issueAt s.now k).issueAt (s.issue b k).now i).ops.length = x.ops.length := by simp
  have hword : ∀ n, n < x.ops.length → (((x.issueAt s.now k).issueAt (s.issue b k).now i).op n).word = (x.op n).word := fun n hn =>
    ((x.issueAt s.now k).issueAt_word _ i (by simpa using hn)).trans (x.issueAt_word _ k hn)
  have hdone := (hissued.finishOp k).finishOp i
  rw [State.progRec_congr hklt hlen (hword k hklt), ← hv,
    State.progRec_congr (x := x) (s := s) hilt (by simp) (((Barge.finishAt_word _ k _ (by simpa using hilt))).trans (hword i hilt)), ← hw] at hdone
  rw [State.tryPair_free hx hw hk hv hclear hheld, if_pos hzero]
  refine ⟨_, hdone.mine, ?_, ?_, ?_, ?_, hdone.rest⟩
  · exact Barge.finishAt_keeps_complete _ _ _ (Barge.finishAt_complete _ _ (by simpa using hklt))
  · exact Barge.finishAt_complete _ _ (by simpa using hilt)
  · exact Barge.finishAt_keeps_token _ _ _ (Barge.finishAt_tokenSet _ _ _)
  · exact Barge.finishAt_tokenSet _ _ _

/-- A DELTA of no segments completes, and its MM runs alone (R95). -/
theorem State.tryPair_alone (hilt : i < x.ops.length) (hzero : mmZero v = false) (hcount : dCount w = 0) :
    (∃ y, (((s.issue b k).issue b i).finishOp b i).barge? b = some y ∧ y.opIs k .running = true ∧ y.opIs i .complete = true)
      ∧ s.tryPair x i = mmEffect k (((s.issue b k).issue b i).finishOp b i) x v := by
  have hissued := ((AtBarge.refl hx).issue k).issue i
  obtain ⟨hrun, -⟩ := x.issuePair s.now (by omega : k < x.ops.length) hilt (by omega)
  refine ⟨⟨_, (hissued.finishOp i).mine, ?_, Barge.finishAt_complete _ _ (by simpa using hilt)⟩, ?_⟩
  · rw [Barge.opIs_iff, Barge.finishAt_op_other _ _ (by omega), Barge.finishAt_length, ← Barge.opIs_iff]
    exact hrun
  · rw [State.tryPair_free hx hw hk hv hclear hheld, if_neg (by simp [hzero]), if_pos hcount]

/-- The pair waits while a factor row has to be waited for, and issues once none has (R163). -/
theorem State.tryPair_seeks (hilt : i < x.ops.length) (hzero : mmZero v = false) (hcount : dCount w ≠ 0) :
    let f := s.seekSegs x i false
    (f.1 = true → s.tryPair x i = f.2.2)
      ∧ (f.1 = false → ∃ y z, f.2.2.barge? b = some y ∧ ((f.2.2.issue b k).issue b i).barge? b = some z
          ∧ z.opIs k .running = true ∧ z.opIs i .running = true ∧ (z.op k).issued = s.now ∧ (z.op i).issued = s.now
          ∧ s.tryPair x i = ((f.2.2.issue b k).issue b i).pairRun y i v w (f.2.1.map (f.2.2.segFails y w i)))
      ∧ ((∀ g, g ∈ x.covered w → g.adapter = 0) → s.tryPair x i = ((s.issue b k).issue b i).pairRun x i v w f.2.1) := by
  intro f
  have htry := State.tryPair_free hx hw hk hv hclear hheld
  rw [if_neg (by simp [hzero]), if_neg hcount] at htry
  refine ⟨fun hwait => by rw [htry, if_pos hwait], fun hthere => ?_, fun hbase => ?_⟩
  · obtain ⟨y, hy, hops, hnow⟩ := State.seekSegs_barge hx (i := i) false
    obtain ⟨hrk, hri, hik, hii⟩ := y.issuePair s.now (k := k) (i := i) (by rw [hops]; omega) (by rw [hops]; exact hilt) (by omega)
    have hz : ((f.2.2.issue b k).issue b i).barge? b = some ((y.issueAt s.now k).issueAt s.now i) := by
      rw [← hnow]
      exact (((AtBarge.refl hy).issue k).issue i).mine
    refine ⟨y, _, hy, hz, hrk, hri, hik, hii, ?_⟩
    rw [htry, if_neg (by simpa using hthere), hy]
  · obtain ⟨hnone, hstate, hsegs⟩ := s.seekSegs_base hw false hbase
    rw [htry, if_neg (by simp [hnone]), hstate, hx]
    exact congrArg (((s.issue b k).issue b i).pairRun x i v w) hsegs

end

section

variable {b i w : Nat} {s : State} {x : Barge} (h : Issues s b i x w)
include h

theorem State.tryBack_free : s.tryBack x i =
    if dCount w = 0 || recTiles w = 0 then (s.issue b i).finishOp b i
    else if (s.seekSegs x i true).1 then (s.seekSegs x i true).2.2
    else match (s.seekSegs x i true).2.2.barge? b with
      | some y => ((s.seekSegs x i true).2.2.issue b i).backRun y i w
          ((s.seekSegs x i true).2.1.map ((s.seekSegs x i true).2.2.segFails y w i))
      | none => (s.seekSegs x i true).2.2 := by
  have hclear := h.clear
  have hid := h.barge_id
  unfold State.tryBack
  simp only [← h.word, hclear, hid] <;> rfl

/-- A backward DELTA waits while a factor row has to be waited for, and issues once none has (R163, R168). -/
theorem State.tryBack_seeks (hcount : dCount w ≠ 0) (htiles : recTiles w ≠ 0) :
    let f := s.seekSegs x i true
    (f.1 = true → s.tryBack x i = f.2.2)
      ∧ (f.1 = false → ∃ y z, f.2.2.barge? b = some y ∧ (f.2.2.issue b i).barge? b = some z ∧ z.opIs i .running = true
          ∧ (z.op i).issued = s.now ∧ s.tryBack x i = (f.2.2.issue b i).backRun y i w (f.2.1.map (f.2.2.segFails y w i)))
      ∧ ((∀ g, g ∈ x.covered w → g.adapter = 0) → s.tryBack x i = (s.issue b i).backRun x i w f.2.1) := by
  intro f
  have htry := State.tryBack_free h
  rw [if_neg (by simp [hcount, htiles])] at htry
  refine ⟨fun hwait => by rw [htry, if_pos hwait], fun hthere => ?_, fun hbase => ?_⟩
  · obtain ⟨y, hy, hops, hnow⟩ := State.seekSegs_barge h.barge (i := i) true
    have hilt : i < y.ops.length := by rw [hops]; exact h.lt
    have hz : (f.2.2.issue b i).barge? b = some (y.issueAt s.now i) := by
      rw [← hnow]
      exact ((AtBarge.refl hy).issue i).mine
    refine ⟨y, _, hy, hz, ?_, ?_, ?_⟩
    · rw [Barge.opIs_iff, Barge.issueAt_op_self _ _ hilt, Barge.issueAt_length]
      exact ⟨hilt, rfl⟩
    · rw [Barge.issueAt_op_self _ _ hilt]
    · rw [htry, if_neg (by simpa using hthere), hy]
  · obtain ⟨hnone, hstate, hsegs⟩ := s.seekSegs_base h.word true hbase
    rw [htry, if_neg (by simp [hnone]), hstate, h.barge]
    exact congrArg ((s.issue b i).backRun x i w) hsegs

end

/-- A DELTA that waits in the fetch window starts its reads (R163). -/
theorem State.fetchAhead_seeks {s : State} {x : Barge} {i w : Nat} (hw : w = s.progRec x i) (train : Bool) (hwait : x.opIs i .waiting = true)
    (hok : x.failed = none) (hst : x.st = .running) (hcount : dCount w ≠ 0) (hfetch : s.mayFetch x i = true) :
    s.fetchAhead x i train = (s.seekSegs x i train).2.2 := by
  simp [State.fetchAhead, hwait, hok, hst, ← hw, hcount, hfetch]

/-- Settles O23: a DELTA and its MM issue together, or a backward DELTA alone, once no factor row has to be waited for. -/
theorem deltaIssuesWithItsPair : Obligations.DeltaIssuesWithItsPair := by
  intro b i w s x hup hx hw hop
  refine ⟨?_, ?_, ?_⟩
  · intro k v hk hv hdir hwait hmay hclear hheld f
    have hexec := State.exec_delta hup hx hw hop hdir hk hwait
    rw [if_pos hmay] at hexec
    have hilt := ((x.opIs_iff _ _).1 hwait).1
    refine ⟨fun hzero => ?_, fun hzero hcount => ?_, fun hzero hcount => ?_⟩
    · obtain ⟨y, hy, hrest⟩ := State.tryPair_zero hx hw hk hv hclear hheld hilt hzero
      exact ⟨_, y, hexec, hy, hrest⟩
    · obtain ⟨hruns, htry⟩ := State.tryPair_alone hx hw hk hv hclear hheld hilt hzero hcount
      exact ⟨hruns, hexec.trans (congrArg _ htry)⟩
    · rw [hexec]
      simp only [Host.Outcome.next.injEq]
      exact State.tryPair_seeks hx hw hk hv hclear hheld hilt hzero hcount
  · intro hdir hmay hclear f
    have h : Issues s b i x w := ⟨hup, hx, hw, hmay, hclear⟩
    have hexec := State.exec_deltaBackward hup hx hw hop hdir (State.mayIssue_spec hmay).2.2.1
    rw [if_pos hmay] at hexec
    refine ⟨fun hzero => ?_, fun hcount htiles => ?_⟩
    · rw [State.tryBack_free h, if_pos (by simpa using hzero)] at hexec
      exact ⟨_, _, hexec, h.finished, (h.issued.finishOp i).rest⟩
    · rw [hexec]
      simp only [Host.Outcome.next.injEq]
      exact State.tryBack_seeks h hcount htiles
  · intro hwait hok hst hcount hfetch
    refine ⟨fun k hk hdir hmay => ?_, fun hdir hmay => ?_⟩
    · rw [State.exec_delta hup hx hw hop hdir hk hwait, hmay]
      exact congrArg _ (State.fetchAhead_seeks hw false hwait hok hst hcount hfetch)
    · rw [State.exec_deltaBackward hup hx hw hop hdir hwait, hmay]
      exact congrArg _ (State.fetchAhead_seeks hw true hwait hok hst hcount hfetch)

end Sys2Proof.Machine
end

section
/-! SUPPORT. The bell (R363): a message sent, and a contribution combined, passed on or answered, change no barge, no barrier and of
each context but the digests of its SCALAR messages. -/

namespace Sys2Proof.Machine

open Sys2Proof

/-! ### ERR's count of refused units and its quarantine bits: a packet sent -/

theorem State.flitsLeave_errKept (s : State) (n vc k : Nat) : ErrKept s (s.flitsLeave n vc k) := by
  have hcount : ErrKept s (s.count pVCH (0xF00 + 4 * vc) k) := s.count_errKept k fun x _ _ => by simp only [pVCH]; omega
  unfold State.flitsLeave
  simp only []
  split
  · exact (hcount.trans (.of_regs rfl)).trans (State.count_errKept (P := pERR) (o := 0xF34) _ 1 fun x _ _ => by simp only [pERR]; omega)
  · exact hcount

theorem State.sendHead_errKept (s : State) (n vc : Nat) : ErrKept s (s.sendHead n vc) := by
  unfold State.sendHead
  simp only []
  split
  · exact ErrKept.trans (.of_regs rfl) (State.flitsLeave_errKept _ n vc _)
  · exact .refl s

theorem State.arbTurn_errKept (s : State) (n : Nat) : ErrKept s (s.arbTurn n) := by
  unfold State.arbTurn
  simp only []
  split
  · exact .of_regs rfl
  · exact .ite (ErrKept.trans (.of_regs rfl) (State.sendHead_errKept _ n _)) (.of_regs rfl)

theorem State.arbStep_errKept (s : State) (n : Nat) : ErrKept s (s.arbStep n) := by
  unfold State.arbStep
  simp only []
  split
  · exact .ite (s.sendHead_errKept n 0) (s.arbTurn_errKept n)
  · exact s.arbTurn_errKept n

theorem State.pumpFuel_errKept (n fuel : Nat) (s : State) : ErrKept s (State.pumpFuel n fuel s) := by
  induction fuel generalizing s with
  | zero => exact .refl s
  | succ fuel ih => exact .ite ((s.arbStep_errKept n).trans (ih _)) (.refl s)

theorem State.sendOut_errKept (s : State) (p : Packet) (from_ : Option Nat) : ErrKept s (s.sendOut p from_) := by
  unfold State.sendOut
  split
  · exact .of_regs rfl
  · split
    · exact ErrKept.trans (.of_regs rfl) (State.pumpFuel_errKept _ _ _)
    · exact (s.count_errKept (P := pFAB) (o := 0xF20) 1 fun x _ _ => by simp only [pFAB]; omega).trans (State.err_errKept _ pFAB 5)

theorem State.send_errKept (s : State) (p : Packet) : ErrKept s (s.send p) := ErrKept.trans (.of_regs rfl) (State.sendOut_errKept _ p none)

/-! ### Contexts, each changed by itself -/

/-- From `s` to `t` no context has been opened or freed, and each has changed as `P` says. -/
def CtxsBy (P : Ctx → Ctx → Prop) (s t : State) : Prop := ∃ f : Ctx → Ctx, t.col.ctxs = s.col.ctxs.map f ∧ ∀ c, P c (f c)

namespace CtxsBy

variable {P Q R : Ctx → Ctx → Prop} {s t u : State}

theorem of_eq (hP : ∀ c, P c c) (h : t.col.ctxs = s.col.ctxs) : CtxsBy P s t := ⟨id, by rw [h, List.map_id], hP⟩

theorem mono (hPQ : ∀ c d, P c d → Q c d) (h : CtxsBy P s t) : CtxsBy Q s t := by
  obtain ⟨f, hf, hP⟩ := h
  exact ⟨f, hf, fun c => hPQ c _ (hP c)⟩

theorem trans (hPQ : ∀ c d e, P c d → Q d e → R c e) (h : CtxsBy P s t) (k : CtxsBy Q t u) : CtxsBy R s u := by
  obtain ⟨f, hf, hP⟩ := h
  obtain ⟨g, hg, hQ⟩ := k
  exact ⟨g ∘ f, by rw [hg, hf, List.map_map], fun c => hPQ c _ _ (hP c) (hQ _)⟩

/-- Contexts that meet `p` changed. -/
theorem mapCtx (s : State) {p : Ctx → Bool} {f : Ctx → Ctx} (hf : ∀ c, p c = true → P c (f c)) (hid : ∀ c, p c = false → P c c) :
    CtxsBy P s (s.mapCtx p f) := by
  refine ⟨fun c => if p c then f c else c, rfl, fun c => ?_⟩
  cases hp : p c
  · simpa [hp] using hid c hp
  · simpa [hp] using hf c hp

theorem find? (h : CtxsBy P s t) {p : Ctx → Bool} (hp : ∀ c d, P c d → p d = p c) {c : Ctx} (hc : s.ctx? p = some c) :
    ∃ d, t.ctx? p = some d ∧ P c d := by
  obtain ⟨f, hf, hP⟩ := h
  refine ⟨f c, ?_, hP c⟩
  rw [State.ctx?, hf, List.find?_map, show p ∘ f = p from funext fun c => hp c _ (hP c), show s.col.ctxs.find? p = some c from hc]
  rfl

theorem mem (h : CtxsBy P s t) {d : Ctx} (hd : d ∈ t.col.ctxs) : ∃ c ∈ s.col.ctxs, P c d := by
  obtain ⟨f, hf, hP⟩ := h
  rw [hf] at hd
  obtain ⟨c, hc, rfl⟩ := List.mem_map.1 hd
  exact ⟨c, hc, hP c⟩

theorem mem_of_mem (h : CtxsBy P s t) {c : Ctx} (hc : c ∈ s.col.ctxs) : ∃ d ∈ t.col.ctxs, P c d := by
  obtain ⟨f, hf, hP⟩ := h
  exact ⟨f c, by rw [hf]; exact List.mem_map_of_mem hc, hP c⟩

end CtxsBy

/-! ### What the bell leaves -/

/-- A context as it was, but for the digests of its SCALAR messages (R364). -/
def Ctx.Digested (c d : Ctx) : Prop := d = { c with sent := d.sent, recv := d.recv }

theorem Ctx.Digested.refl (c : Ctx) : c.Digested c := rfl

theorem Ctx.Digested.trans {c d e : Ctx} (h : c.Digested d) (k : d.Digested e) : c.Digested e := by
  unfold Ctx.Digested at *
  rw [k, h]

/-- From `s` to `t` the bell has rung: barges and barriers are as they were, and so are the contexts but for their digests. -/
structure Rang (s t : State) : Prop where
  sv : t.sv = s.sv
  quar : ErrKept s t
  barriers : t.col.barriers = s.col.barriers
  ctxs : CtxsBy Ctx.Digested s t

namespace Rang

variable {s t u : State}

theorem of_col (hsv : t.sv = s.sv) (hquar : ErrKept s t) (hb : t.col.barriers = s.col.barriers) (hc : t.col.ctxs = s.col.ctxs) : Rang s t :=
  ⟨hsv, hquar, hb, .of_eq .refl hc⟩

theorem refl (s : State) : Rang s s := of_col rfl (.refl s) rfl rfl

theorem trans (h : Rang s t) (k : Rang t u) : Rang s u :=
  ⟨k.sv.trans h.sv, h.quar.trans k.quar, k.barriers.trans h.barriers, .trans (P := Ctx.Digested) (Q := Ctx.Digested) (fun _ _ _ => .trans) h.ctxs k.ctxs⟩

theorem ite {a b : State} {c : Prop} [Decidable c] (ha : Rang s a) (hb : Rang s b) : Rang s (if c then a else b) := by
  split
  · exact ha
  · exact hb

theorem foldl {α : Type} {f : State → α → State} (h : ∀ s x, Rang s (f s x)) (l : List α) (s : State) : Rang s (l.foldl f s) := by
  induction l generalizing s with
  | nil => exact refl s
  | cons x l ih => exact (h s x).trans (ih _)

/-- A change of what the tiers keep, of the numbers given, or of nothing that is named here. -/
theorem of_kept (hsv : t.sv = s.sv) (hregs : t.regs = s.regs) (hb : t.col.barriers = s.col.barriers) (hc : t.col.ctxs = s.col.ctxs) : Rang s t :=
  of_col hsv (.of_regs hregs) hb hc

end Rang

theorem State.send_rang (s : State) (p : Packet) : Rang s (s.send p) := by
  have hmask := s.send_mask { regs := true, hq := true, fab := true } rfl rfl rfl p
  have hcol := State.col_of_mask hmask rfl
  exact .of_col (State.sv_of_mask hmask rfl) (s.send_errKept p) (by rw [hcol]) (by rw [hcol])

theorem State.mapCtx_rang (s : State) (p : Ctx → Bool) {f : Ctx → Ctx} (hf : ∀ c : Ctx, c.Digested (f c)) : Rang s (s.mapCtx p f) :=
  ⟨rfl, .of_regs rfl, rfl, .mapCtx s (fun c _ => hf c) fun c _ => .refl c⟩

theorem State.noteSent_rang (s : State) (dest : Nat) (m : BellMsg) : Rang s (s.noteSent dest m) := by
  unfold State.noteSent
  exact .ite (s.mapCtx_rang _ fun _ => rfl) (.refl s)

theorem State.noteRecv_rang (s : State) (src : Nat) (m : BellMsg) : Rang s (s.noteRecv src m) := by
  unfold State.noteRecv
  exact .ite (s.mapCtx_rang _ fun _ => rfl) (.refl s)

theorem State.sendBell_rang (s : State) (dest : Nat) (m : BellMsg) : Rang s (s.sendBell dest m) :=
  (s.noteSent_rang dest m).trans (State.send_rang _ _)

theorem State.sendUp_rang (s : State) (dest : Nat) (m : BellMsg) : Rang s (s.sendUp dest m) :=
  (s.sendBell_rang dest m).trans (.of_kept rfl rfl rfl rfl)

theorem State.spreadAt_rang (s : State) (t : Nat) (m : BellMsg) : Rang s (s.spreadAt t m) := by
  unfold State.spreadAt
  refine Rang.trans ?_ (.foldl (fun s c => .ite (.refl s) (s.sendBell_rang c m)) _ _)
  exact .of_kept rfl rfl rfl rfl

theorem State.bellSpread_rang (t : Nat) (s : State) (m : BellMsg) : Rang s (State.bellSpread t s m) := by
  induction t generalizing s with
  | zero => exact s.spreadAt_rang 0 m
  | succ t ih => exact .ite ((s.spreadAt_rang (t + 1) m).trans (ih _)) (s.spreadAt_rang (t + 1) m)

theorem State.resultOut_rang (s : State) (m : BellMsg) : Rang s (s.resultOut m) :=
  Rang.trans (t := s.keepResult m) (.of_kept rfl rfl rfl rfl) (State.bellSpread_rang _ _ m)

theorem State.takeLevelSeq_rang (s : State) (level : Nat) : Rang s (s.takeLevelSeq level).2 := .of_kept rfl rfl rfl rfl

theorem State.judge_rang (s : State) (m : BellMsg) : Rang s (s.judge m).2 := by
  unfold State.judge
  split
  · split
    · exact .refl s
    · exact s.takeLevelSeq_rang _
  · split
    · exact s.takeLevelSeq_rang _
    · split <;> exact .refl s

theorem State.keepArrived_rang (s : State) (e : Tier) : Rang s (s.keepArrived e) := by
  unfold State.keepArrived
  exact .ite (.of_kept rfl rfl rfl rfl) (.refl s)

/-- The state in which a complete tier passes its message on. -/
theorem State.tierPassed_rang (s : State) (t src : Nat) (m : BellMsg) (e : Tier) :
    Rang s (let u := ((s.noteRecv src m).putTier t m { e with passed := true }).keepArrived e
      if e.kind = bSCALAR then { u with picks := u.picks + 2 * e.values.length } else u) := by
  have hput : Rang (s.noteRecv src m) ((s.noteRecv src m).putTier t m { e with passed := true }) := .of_kept rfl rfl rfl rfl
  have hkeep := ((s.noteRecv_rang src m).trans hput).trans (State.keepArrived_rang _ e)
  exact .ite (hkeep.trans (.of_kept rfl rfl rfl rfl)) hkeep

/-- By the tiers that are left above: a contribution is kept, passed on, or answered. -/
theorem State.bellUp_rang (fuel : Nat) (s : State) (t src : Nat) (m : BellMsg) : Rang s (State.bellUp fuel s t src m) := by
  induction fuel generalizing s t src m with
  | zero => exact .refl s
  | succ fuel ih =>
    unfold State.bellUp
    simp only []
    generalize (if (decide (m.kind = bABANDON) && m.key.barrier) = true then { m with kind := bBARRIER, count := 1 } else m) = m
    split
    · exact s.send_rang _
    · refine .ite ?_ (.ite (.refl s) (.ite ((s.noteRecv_rang src m).trans (.of_kept rfl rfl rfl rfl)) ?_))
      · exact .ite (.ite (s.resultOut_rang _) ((s.resultOut_rang _).trans (State.sendBell_rang _ _ _)))
          (.ite (ih _ _ _ _) (.ite (.refl s) (s.sendUp_rang _ _)))
      · have hpassed := s.tierPassed_rang t src m ((s.tierOf t m).add src m)
        exact .ite (hpassed.trans ((State.judge_rang _ _).trans (State.resultOut_rang _ _)))
          (.ite (hpassed.trans (ih _ _ _ _)) (hpassed.trans (State.sendUp_rang _ _ _)))

theorem State.contribute_rang (s : State) (m : BellMsg) : Rang s (s.contribute m) :=
  .ite (State.bellUp_rang _ _ _ _ _) (s.sendUp_rang _ _)

end Sys2Proof.Machine
end

section
/-! SUPPORT. A collective that goes on (R133, R351, R360): its pieces leave, C is written and the seal contributed to. Other contexts keep
all but their digests, and what is complete or set stays so. -/

namespace Sys2Proof.Machine

open Sys2Proof

/-- What is complete or set in `x` is so in `y`. -/
structure Barge.Ahead (x y : Barge) : Prop where
  complete : ∀ i, x.opIs i .complete = true → y.opIs i .complete = true
  token : ∀ t, x.tokenSet t = true → y.tokenSet t = true

theorem Barge.Ahead.refl (x : Barge) : x.Ahead x := ⟨fun _ h => h, fun _ h => h⟩

theorem Barge.Ahead.trans {x y z : Barge} (h : x.Ahead y) (k : y.Ahead z) : x.Ahead z :=
  ⟨fun i hi => k.complete i (h.complete i hi), fun t ht => k.token t (h.token t ht)⟩

/-- From `s` to `t` the collective in context `k` has gone on. -/
structure Moved (k : Nat) (s t : State) : Prop where
  barges : ∀ b x, s.barge? b = some x → ∃ y, t.barge? b = some y ∧ x.Ahead y
  ctxs : CtxsBy (fun c d => d.slot = c.slot ∧ (c.slot ≠ k → c.Digested d)) s t

namespace Moved

variable {k : Nat} {s t u : State}

theorem trans (h : Moved k s t) (g : Moved k t u) : Moved k s u := by
  refine ⟨fun b x hx => ?_, .trans ?_ h.ctxs g.ctxs⟩
  · obtain ⟨y, hy, hxy⟩ := h.barges b x hx
    obtain ⟨z, hz, hyz⟩ := g.barges b y hy
    exact ⟨z, hz, hxy.trans hyz⟩
  · rintro c d e ⟨hd, hcd⟩ ⟨he, hde⟩
    exact ⟨he.trans hd, fun hne => (hcd hne).trans (hde (by rwa [hd]))⟩

theorem of_ctxs (hsv : t.sv = s.sv) (hc : CtxsBy (fun c d => d.slot = c.slot ∧ (c.slot ≠ k → c.Digested d)) s t) : Moved k s t :=
  ⟨fun b x hx => ⟨x, by rw [State.barge?, hsv]; exact hx, .refl x⟩, hc⟩

theorem of_rang (h : Rang s t) : Moved k s t :=
  of_ctxs h.sv (h.ctxs.mono fun c d hcd => ⟨by rw [hcd], fun _ => hcd⟩)

theorem refl (k : Nat) (s : State) : Moved k s s := of_rang (.refl s)

theorem ite {a b : State} {c : Prop} [Decidable c] (ha : Moved k s a) (hb : Moved k s b) : Moved k s (if c then a else b) := by
  split
  · exact ha
  · exact hb

/-- A step that leaves barges and collectives alone. -/
theorem of_mask {M : Mask} (h : t.mask M = s.mask M) (hsv : M.sv = false) (hcol : M.col = false) : Moved k s t :=
  of_ctxs (State.sv_of_mask h hsv) (.of_eq (fun _ => ⟨rfl, fun _ => rfl⟩) (by rw [State.col_of_mask h hcol]))

theorem updCtx (s : State) {f : Ctx → Ctx} (hf : ∀ c, (f c).slot = c.slot := by intro; rfl) : Moved k s (s.updCtx k f) :=
  of_ctxs rfl (.mapCtx s (fun c hc => ⟨hf c, fun hne => absurd (by simpa using hc) hne⟩) fun _ _ => ⟨rfl, fun _ => rfl⟩)

/-- A record completes (R89). -/
theorem finishOp (s : State) (b i : Nat) : Moved k s (s.finishOp b i) := by
  refine ⟨fun n x hx => ?_, .of_eq (fun _ => ⟨rfl, fun _ => rfl⟩) rfl⟩
  rw [State.finishOp_eq]
  obtain rfl | hne := eq_or_ne n b
  · exact ⟨_, State.barge?_updBarge_self (f := fun y => y.finishAt i (recSignal (s.progRec y i))) hx fun _ => rfl,
      fun _ => x.finishAt_keeps_complete _ _, fun _ => x.finishAt_keeps_token _ _⟩
  · exact ⟨x, (s.barge?_updBarge_other (f := fun y => y.finishAt i (recSignal (s.progRec y i))) hne fun _ => rfl).trans hx, .refl x⟩

end Moved

theorem State.spoilPiece_rang (s : State) (step : Nat) (data : List Byte) : Rang s (s.spoilPiece step data).2 := by
  unfold State.spoilPiece
  split
  · have hmask := State.count_mask { regs := true } rfl { s with fab := { s.fab with badPiece := false } } pERR 0xF34 1
    have hcol := State.col_of_mask hmask rfl
    have hsv := State.sv_of_mask hmask rfl
    exact .of_col hsv
      (ErrKept.trans (.of_regs rfl) (State.count_errKept (P := pERR) (o := 0xF34) _ 1 fun x _ _ => by simp only [pERR]; omega))
      (by rw [hcol]) (by rw [hcol])
  · exact .refl s

theorem State.sendPiece_moved (s : State) (slot stage step j lo hi : Nat) : Moved slot s (s.sendPiece slot stage step j lo hi) := by
  unfold State.sendPiece
  split
  · exact .refl slot s
  · refine .ite (.trans (.of_rang (.foldl (fun u o => ?_) _ s)) (.updCtx _)) (.of_rang (.foldl (fun u o => ?_) _ s))
    all_goals
      simp only []
      exact (u.spoilPiece_rang step _).trans (State.send_rang _ _)

theorem State.trySeal_moved (s : State) (slot : Nat) : Moved slot s (s.trySeal slot) := by
  unfold State.trySeal
  split
  · exact .ite (.trans (.updCtx s) (.of_rang (State.contribute_rang _ _))) (.refl slot s)
  · exact .refl slot s

theorem State.writeC_moved (k : Nat) (s : State) (c : Ctx) : Moved k s (s.writeC c) :=
  .of_mask (M :=
      { regs := true, ext := true, tags := true, scratch := true, pool := true, pound := true, marks := true, hq := true,
        tileErrs := true, armed := true })
    (s.writeC_mask _ rfl rfl rfl rfl rfl rfl rfl rfl rfl rfl c) rfl rfl

theorem State.completeColl_moved (s : State) (slot : Nat) : Moved slot s (s.completeColl slot) := by
  unfold State.completeColl
  split
  · next c _ =>
    have hwritten : Moved slot s ((s.writeC c).updCtx slot fun c => { c with phase := .complete }) :=
      (s.writeC_moved slot c).trans (.updCtx _)
    exact (Moved.ite (hwritten.trans (.finishOp _ _ _)) hwritten).trans (State.trySeal_moved _ slot)
  · exact .refl slot s

/-- By the ring steps: a piece leaves, and where none is awaited the next step, or stage, follows at once (R351). -/
theorem State.goOn_moved (fuel : Nat) (s : State) (slot : Nat) (gs : List Nat) (step : Nat) : Moved slot s (State.goOn fuel s slot gs step) := by
  induction fuel generalizing s gs step with
  | zero => exact .refl slot s
  | succ fuel ih =>
    cases gs with
    | nil => exact s.completeColl_moved slot
    | cons g rest =>
      unfold State.goOn
      simp only []
      refine .ite (ih _ _ _) ?_
      split
      · exact .refl slot s
      · refine .ite (.trans (.trans (.ite (State.sendPiece_moved _ _ _ _ _ _ _) (.refl slot s)) (.updCtx _)) (ih _ _ _))
          (.trans (.ite (State.sendPiece_moved _ _ _ _ _ _ _) (.refl slot s)) (.updCtx _))

theorem State.startColl_moved (s : State) (slot : Nat) : Moved slot s (s.startColl slot) := by
  unfold State.startColl
  split
  · exact .refl slot s
  · split
    · exact .refl slot s
    · refine .ite (.refl slot s) (.ite (.trans (.trans ?_ (.updCtx _)) (.of_rang (State.contribute_rang _ _)))
        (.trans (.trans ?_ (.updCtx _)) (State.goOn_moved _ _ _ _ _)))
      all_goals
        exact .of_mask (M := { regs := true, marks := true, hq := true, tileErrs := true, armed := true })
          (s.seeIn_mask _ rfl rfl rfl rfl rfl _ _) rfl rfl

end Sys2Proof.Machine
end

section
/-! SUPPORT. COLL, SEAL and UPDATE that issue (R106 to R108, R121): the context opened, the seal noted, the unit made. -/

namespace Sys2Proof.Machine

open Sys2Proof

/-! ### A barge's open collectives look again -/

theorem State.startColls_ahead {b : Nat} (s : State) (id : Nat) {x : Barge} (hx : s.barge? b = some x) :
    ∃ y, (s.startColls id).barge? b = some y ∧ x.Ahead y := by
  unfold State.startColls
  generalize (s.col.ctxs.filter (·.b == id)).map (·.slot) = ks
  induction ks generalizing s x with
  | nil => exact ⟨x, hx, .refl x⟩
  | cons k ks ih =>
    obtain ⟨y, hy, hxy⟩ := (s.startColl_moved k).barges b x hx
    obtain ⟨z, hz, hyz⟩ := ih (s.startColl k) hy
    exact ⟨z, hz, hxy.trans hyz⟩

/-- The context that COLL record `i` of barge `b`, with word `w`, has taken, and that has sent its ARRIVE. -/
def Ctx.Arrives (b i w : Nat) (c : Ctx) : Prop :=
  c.b = b ∧ c.i = i ∧ c.key.collId = cColl w ∧ c.key.level = cLevel w ∧ c.bytes = cBytes w ∧ c.phase = .arriving

/-- Context `k` is that of the record, and there is no other of that number. -/
structure Opening (b i w k : Nat) (s : State) : Prop where
  there : ∃ c ∈ s.col.ctxs, c.slot = k
  all : ∀ c ∈ s.col.ctxs, c.slot = k → c.Arrives b i w

namespace Opening

variable {b i w k : Nat} {s t : State}

theorem of_ctxsBy {j : Nat} (h : Opening b i w k s) (hne : k ≠ j)
    (hc : CtxsBy (fun c d => d.slot = c.slot ∧ (c.slot ≠ j → c.Digested d)) s t) : Opening b i w k t := by
  refine ⟨?_, fun d hd hk => ?_⟩
  · obtain ⟨c, hmem, hk⟩ := h.there
    obtain ⟨d, hd, hslot, -⟩ := hc.mem_of_mem hmem
    exact ⟨d, hd, hslot.trans hk⟩
  · obtain ⟨c, hmem, hslot, hdig⟩ := hc.mem hd
    have hck : c.slot = k := hslot.symm.trans hk
    rw [hdig (by rwa [hck])]
    exact h.all c hmem hck

theorem of_rang (h : Opening b i w k s) (hr : Rang s t) : Opening b i w k t :=
  h.of_ctxsBy (Nat.succ_ne_self k).symm (hr.ctxs.mono fun c d hcd => ⟨by rw [hcd], fun _ => hcd⟩)

/-- A collective that no GRANT has reached does not start (R354). -/
theorem startColl_self (h : Opening b i w k s) : s.startColl k = s := by
  obtain ⟨c, hc⟩ : ∃ c, s.ctx? (·.slot == k) = some c := by
    obtain ⟨c, hmem, hk⟩ := h.there
    exact Option.isSome_iff_exists.1 (List.find?_isSome.2 ⟨c, hmem, by simpa using hk⟩)
  obtain ⟨-, -, -, -, -, hphase⟩ := h.all c (List.mem_of_find?_eq_some hc) (by simpa using List.find?_some hc)
  unfold State.startColl
  simp only [hc]
  split
  · rfl
  · simp [hphase]

theorem startColl (h : Opening b i w k s) (j : Nat) : Opening b i w k (s.startColl j) := by
  obtain rfl | hne := eq_or_ne k j
  · rw [h.startColl_self]
    exact h
  · exact h.of_ctxsBy hne (s.startColl_moved j).ctxs

theorem startColls (h : Opening b i w k s) (id : Nat) : Opening b i w k (s.startColls id) := by
  unfold State.startColls
  generalize (s.col.ctxs.filter (·.b == id)).map (·.slot) = ks
  induction ks generalizing s with
  | nil => exact h
  | cons j ks ih => exact ih (h.startColl j)

end Opening

theorem lowestFree_not_mem (l : List Nat) : lowestFree l ∉ l := by
  have hfree : ∃ k ∈ List.range (l.length + 1), k ∉ l := by
    by_contra hall
    have hsub : List.range (l.length + 1) ⊆ l := fun k hk => by_contra fun hno => hall ⟨k, hk, hno⟩
    have hlen := (List.nodup_range.subperm hsub).length_le
    simp at hlen
  obtain ⟨k, hk, hno⟩ := hfree
  obtain ⟨n, hn⟩ := Option.isSome_iff_exists.1 (List.find?_isSome (p := fun k => !l.contains k).2 ⟨k, hk, by simpa using hno⟩)
  have hnot := List.find?_some hn
  rw [lowestFree, hn]
  simpa using hnot

/-! ### COLL -/

/-- A context taken whose number no other has. -/
theorem Opening.of_append {s t : State} {b i w : Nat} {c : Ctx} (hc : c.Arrives b i w) (hfree : c.slot ∉ s.col.ctxs.map (·.slot))
    (ht : t.col.ctxs = s.col.ctxs ++ [c]) : Opening b i w c.slot t := by
  refine ⟨⟨c, by simp [ht], rfl⟩, fun d hd hslot => ?_⟩
  rw [ht, List.mem_append, List.mem_singleton] at hd
  obtain hd | rfl := hd
  · exact absurd (hslot ▸ List.mem_map_of_mem hd) hfree
  · exact hc

/-- The marks of a C range, and the record's pending set, touch no collective and no register. -/
theorem State.markRange_notePend_kept (s : State) (x : Barge) (w : Nat) (c : Ctx) (i : Nat) :
    ((s.markRange x w c).notePend x.id i c.mask).col = s.col ∧ ErrKept s ((s.markRange x w c).notePend x.id i c.mask) := by
  have hmask := s.markRange_mask { marks := true, sv := true } rfl rfl x w c
  exact ⟨State.col_of_mask hmask rfl, .of_regs (State.regs_of_mask hmask rfl)⟩

/-- The context taken, its range marked, and its ARRIVE sent: from `s`, of whose contexts `u` has kept all, to `v` and on. -/
theorem Opening.of_taken {s u v : State} {x : Barge} {i w : Nat} {c : Ctx} (hu : u.col.ctxs = s.col.ctxs) (hregs : u.regs = s.regs)
    (hv : v = { u with col := { u.col with ctxs := u.col.ctxs ++ [c] } }) (hslot : c.slot = lowestFree (s.col.ctxs.map (·.slot)))
    (hc : c.Arrives x.id i w) (m : BellMsg) :
    Opening x.id i w c.slot (((v.markRange x w c).notePend x.id i c.mask).contribute m)
      ∧ ErrKept s (((v.markRange x w c).notePend x.id i c.mask).contribute m) := by
  obtain ⟨hcol, hquar⟩ := v.markRange_notePend_kept x w c i
  have hrang := ((v.markRange x w c).notePend x.id i c.mask).contribute_rang m
  have hctxs : ((v.markRange x w c).notePend x.id i c.mask).col.ctxs = s.col.ctxs ++ [c] := by rw [hcol, hv, ← hu]
  refine ⟨.of_rang (.of_append hc (hslot ▸ lowestFree_not_mem _) hctxs) hrang, ?_⟩
  exact (ErrKept.of_regs (by rw [hv]; exact hregs)).trans (hquar.trans hrang.quar)

/-- A COLL of an identifier that its barge does not use, with a context free: it opens the lowest, which sends its ARRIVE (R107,
R353, R357). -/
theorem State.openColl_opening {s : State} {x : Barge} {i w : Nat} (hbytes : cBytes w ≠ 0) (hroom : s.col.ctxs.length < 64)
    (hnew : ∀ c ∈ s.col.ctxs, ¬(c.b = x.id ∧ c.key.collId = cColl w)) :
    (∃ k, Opening x.id i w k (s.openColl x i w)) ∧ ErrKept s (s.openColl x i w) := by
  have hnone : (s.useColl x.cls (cColl w)).2.col.ctxs.any (fun c => c.b == x.id && c.key.collId == cColl w) = false := by
    simpa [State.useColl] using hnew
  have hfew : ¬64 ≤ (s.useColl x.cls (cColl w)).2.col.ctxs.length := by simpa [State.useColl] using hroom
  unfold State.openColl
  simp only [if_neg hbytes, hnone, if_neg hfew, Bool.false_eq_true, if_false]
  exact And.imp_left (fun hopen => ⟨_, hopen⟩) (Opening.of_taken (u := (s.useColl x.cls (cColl w)).2) (by rfl) (by rfl) (by rfl) (by rfl)
    (by exact ⟨rfl, rfl, rfl, rfl, rfl, rfl⟩) _)

/-- A record issues at a state that differs from the one of its issue in what no barge bears, and completes there. -/
theorem Issues.finished_of_sv {s u : State} {b i w : Nat} {x : Barge} (h : Issues s b i x w) (hsv : u.sv = (s.issue b i).sv)
    (hregs : u.regs = s.regs) :
    ∃ y, (u.finishOp b i).barge? b = some y ∧ y.opIs i .complete = true ∧ y.tokenSet (recSignal w) = true ∧ y.failed = none
      ∧ ErrKept s (u.finishOp b i) := by
  have hmine : u.barge? b = some (x.issueAt s.now i) := by
    rw [State.barge?, hsv]
    exact h.issued.mine
  have hdone := (AtBarge.refl hmine).finishOp i
  rw [State.progRec_congr h.lt (x.issueAt_length _ _) (x.issueAt_word _ _ h.lt), ← h.word] at hdone
  refine ⟨_, hdone.mine, ?_, Barge.finishAt_tokenSet _ _ _, by simpa using h.ok, .of_regs ?_⟩
  · exact Barge.finishAt_complete _ _ (by simpa using h.lt)
  · rw [hdone.rest]
    exact hregs

section

variable {s : State} {b i w : Nat} {x : Barge} (h : Issues s b i x w) (hq : s.anyTileQuar = false)
include h

/-- An op record that needs no external memory at its issue. -/
theorem Issues.exec_coll_free (hop : recOp w = 0x40) :
    exec (.coll b i) s = .next ((collEffect i (s.issue b i) x w).failNamed.startColls b) := by
  rw [h.exec_coll hop, show s.rangesHeld b (s.extOf x w) = false by simp [State.extOf, hop, State.rangesHeld_nil]]
  rfl

theorem Issues.collEffect_new (hnew : ∀ c ∈ s.col.ctxs, ¬(c.b = b ∧ (c.i = i ∨ c.key.collId = cColl w))) :
    collEffect i (s.issue b i) x w = (s.issue b i).openColl x i w := by
  have hnone : (s.issue b i).ctx? (fun c => c.b == x.id && c.i == i) = none := by
    rw [State.ctx?, List.find?_eq_none]
    intro c hc hci
    have hci : c.b = b ∧ c.i = i := by simpa [h.barge_id] using hci
    exact hnew c hc ⟨hci.1, .inl hci.2⟩
  simp only [collEffect, hnone]

include hq

/-- A COLL of no bytes completes at once (R107). -/
theorem Issues.exec_coll_empty (hop : recOp w = 0x40) (hnew : ∀ c ∈ s.col.ctxs, ¬(c.b = b ∧ (c.i = i ∨ c.key.collId = cColl w)))
    (hbytes : cBytes w = 0) :
    ∃ t y, exec (.coll b i) s = .next t ∧ t.barge? b = some y ∧ y.opIs i .complete = true ∧ y.tokenSet (recSignal w) = true := by
  have heffect : (s.issue b i).openColl x i w = ((s.issue b i).useColl x.cls (cColl w)).2.finishOp b i := by
    simp [State.openColl, hbytes, h.barge_id]
  obtain ⟨y, hy, hdone, htok, -, hquar⟩ := h.finished_of_sv (u := ((s.issue b i).useColl x.cls (cColl w)).2) rfl rfl
  rw [h.exec_coll_free hop, h.collEffect_new hnew, heffect, State.failNamed_of_errKept hquar hq]
  obtain ⟨z, hz, hahead⟩ := State.startColls_ahead _ b hy
  exact ⟨_, z, rfl, hz, hahead.complete i hdone, hahead.token _ htok⟩

/-- Any other COLL opens a context (R107, R354). -/
theorem Issues.exec_coll_opens (hop : recOp w = 0x40) (hnew : ∀ c ∈ s.col.ctxs, ¬(c.b = b ∧ (c.i = i ∨ c.key.collId = cColl w)))
    (hbytes : cBytes w ≠ 0) (hroom : s.col.ctxs.length < 64) :
    ∃ t c, exec (.coll b i) s = .next t ∧ c ∈ t.col.ctxs ∧ c.Arrives b i w := by
  obtain ⟨⟨k, hopen⟩, hquar⟩ := State.openColl_opening (s := s.issue b i) (x := x) (i := i) hbytes hroom fun c hc hu =>
    hnew c hc ⟨h.barge_id ▸ hu.1, .inr hu.2⟩
  rw [h.barge_id] at hopen
  have hkept : ErrKept s ((s.issue b i).openColl x i w) := ErrKept.trans (.of_regs rfl) hquar
  rw [h.exec_coll_free hop, h.collEffect_new hnew, State.failNamed_of_errKept hkept hq]
  have hlast := hopen.startColls b
  obtain ⟨c, hc, hk⟩ := hlast.there
  exact ⟨_, c, rfl, hc, hlast.all c hc hk⟩

/-! ### SEAL -/

omit hq in
theorem Issues.exec_seal_free (hop : recOp w = 0x41) :
    exec (.sealColl b i) s = .next (sealEffect i (s.issue b i) x w).failNamed := by
  rw [h.exec_seal hop, show s.rangesHeld b (s.extOf x w) = false by simp [State.extOf, hop, State.rangesHeld_nil]]
  rfl

/-- A SEAL whose COLL had no bytes has nothing to check: its lock is confirmed, and it completes (R108). -/
theorem Issues.exec_seal_none (hop : recOp w = 0x41) (hnone : s.ctx? (fun c => c.b == b && c.key.collId == recP w 5 0) = none) :
    ∃ t y, exec (.sealColl b i) s = .next t ∧ t.barge? b = some y ∧ y.opIs i .complete = true ∧ y.tokenSet (recSignal w) = true := by
  have heffect : sealEffect i (s.issue b i) x w = ((s.issue b i).confirmLock b (recP w 11 8) (List.range x.need)).finishOp b i := by
    have hctx : (s.issue b i).ctx? (fun c => c.b == b && c.key.collId == recP w 5 0) = none := hnone
    simp only [sealEffect, h.barge_id, hctx]
  have hl : recP w 11 8 < 16 := Nat.mod_lt _ (by decide)
  obtain ⟨z, hat, hdone, htok, -⟩ := confirmLock_finishOp h.issued (List.range x.need) hl h.word h.lt (x.issueAt_length _ _)
    (x.issueAt_word _ _ h.lt)
  rw [← heffect] at hat
  have hrest := hat.rest
  have hkept : ErrKept s (sealEffect i (s.issue b i) x w) := .of_regs (by rw [hrest])
  rw [h.exec_seal_free hop, State.failNamed_of_errKept hkept hq]
  exact ⟨_, z, rfl, hat.mine, hdone, htok⟩

omit h hq in
theorem State.trySeal_errKept (s : State) (slot : Nat) : ErrKept s (s.trySeal slot) := by
  unfold State.trySeal
  split
  · refine .ite (.trans ?_ (State.contribute_rang _ _).quar) (.refl s)
    exact .of_regs rfl
  · exact .refl s

omit h hq in
/-- A contribution to the seal takes no note of its SEAL away. -/
theorem State.trySeal_ctxs (s : State) (slot : Nat) : CtxsBy (fun c d => d.slot = c.slot ∧ d.sealRec = c.sealRec) s (s.trySeal slot) := by
  have hsame : CtxsBy (fun c d => d.slot = c.slot ∧ d.sealRec = c.sealRec) s s := .of_eq (fun _ => ⟨rfl, rfl⟩) rfl
  unfold State.trySeal
  split
  · next c _ =>
    split
    · have hphase : CtxsBy (fun c d => d.slot = c.slot ∧ d.sealRec = c.sealRec) s (s.updCtx slot fun c => { c with phase := .sealing }) :=
        .mapCtx s (fun _ _ => ⟨rfl, rfl⟩) fun _ _ => ⟨rfl, rfl⟩
      refine .trans (Q := Ctx.Digested) ?_ hphase (State.contribute_rang _ _).ctxs
      rintro c d e ⟨hd, hcd⟩ he
      rw [he]
      exact ⟨hd, hcd⟩
    · exact hsame
  · exact hsame

/-- Any other SEAL is noted in its collective's context (R108, R360). -/
theorem Issues.exec_seal_some (hop : recOp w = 0x41) {c : Ctx} (hc : s.ctx? (fun c => c.b == b && c.key.collId == recP w 5 0) = some c) :
    ∃ t d, exec (.sealColl b i) s = .next t ∧ t.ctx? (·.slot == c.slot) = some d ∧ d.sealRec = some i := by
  have heffect : sealEffect i (s.issue b i) x w
      = ((s.issue b i).updCtx c.slot fun c => { c with sealRec := some i }).trySeal c.slot := by
    have hctx : (s.issue b i).ctx? (fun c => c.b == b && c.key.collId == recP w 5 0) = some c := hc
    simp only [sealEffect, h.barge_id, hctx]
  have hkept : ErrKept s (sealEffect i (s.issue b i) x w) := by
    rw [heffect]
    refine .trans ?_ (State.trySeal_errKept _ c.slot)
    exact .of_regs rfl
  obtain ⟨e, he⟩ : ∃ e, s.ctx? (·.slot == c.slot) = some e :=
    Option.isSome_iff_exists.1 (List.find?_isSome.2 ⟨c, List.mem_of_find?_eq_some hc, by simp⟩)
  have hnoted : CtxsBy (fun e d => d.slot = e.slot ∧ (e.slot = c.slot → d.sealRec = some i)) (s.issue b i)
      ((s.issue b i).updCtx c.slot fun c => { c with sealRec := some i }) :=
    .mapCtx (s.issue b i) (fun _ _ => ⟨rfl, fun _ => rfl⟩) fun e hne => ⟨rfl, fun heq => absurd heq (by simpa using hne)⟩
  obtain ⟨d, hd, hslot, hseal⟩ := hnoted.find? (p := (·.slot == c.slot)) (fun _ _ hP => by rw [hP.1]) he
  obtain ⟨d', hd', -, hseal'⟩ := (State.trySeal_ctxs _ c.slot).find? (p := (·.slot == c.slot)) (fun _ _ hP => by rw [hP.1]) hd
  rw [h.exec_seal_free hop, State.failNamed_of_errKept hkept hq, heffect]
  exact ⟨_, d', rfl, hd', hseal'.trans (hseal (by simpa using List.find?_some he))⟩

/-! ### UPDATE -/

/-- An UPDATE of a closed step that is not applied: one unit applies the step (R106, R121). -/
theorem Issues.exec_update_unit (hop : recOp w = 0x24) (hclosed : stepGt (updStep w) s.lastClosed = false)
    (hnew : stepGt (updStep w) s.lastApplied = true) (hmerge : s.mergeRegions (updStep w) = []) (hdone : (x.op i).done.contains 0 = false) :
    ∃ t v, exec (.update b i) s = .next t ∧ t.sv.units = s.sv.units ++ [v] ∧ v.b = b ∧ v.i = i
      ∧ v.act = .applyStep (updStep w) (recRnd w) (bit (recSat w)) ∧ v.pend = x.lockSet w ∧ v.poison = false := by
  let v : CUnit := { b := b, i := i, key := 0, act := .applyStep (updStep w) (recRnd w) (bit (recSat w)), pend := x.lockSet w }
  have hown : ((x.issueAt s.now i).op i).done.contains 0 = false := by
    rw [x.issueAt_op_self _ h.lt]
    exact hdone
  have heffect : updateEffect i (s.issue b i) x w = (s.issue b i).withUnit v := by
    have hclosed' : stepGt (updStep w) (s.issue b i).lastClosed = false := hclosed
    have hnew' : stepGt (updStep w) (s.issue b i).lastApplied = true := hnew
    have hmerge' : (s.issue b i).mergeRegions (updStep w) = [] := hmerge
    simp only [updateEffect, hclosed', hnew', hmerge', h.barge_id, Bool.not_true, Bool.false_eq_true, if_false, List.foldl_nil]
    exact State.addUnit_eq (v := v) h.issued.mine hown rfl
  have hkept : ErrKept s ((s.issue b i).withUnit v) := .of_regs rfl
  rw [h.exec_update hop, show s.rangesHeld b (s.extOf x w) = false by simp [State.extOf, hop, State.rangesHeld_nil], State.issueWith_free,
    heffect, State.failNamed_of_errKept hkept hq]
  exact ⟨_, v, rfl, rfl, rfl, rfl, rfl, rfl, rfl⟩

end

end Sys2Proof.Machine
end

section
/-! SUPPORT. BARRIER that issues (R109, R364): it enters the bell's reduction, or completes where its level has one member; then the
issue of every op record (R88). -/

namespace Sys2Proof.Machine

open Sys2Proof

/-! ### The one barrier that is open -/

section

variable {s : State} {z : BarrierRun} (hone : s.col.barriers = [z])
include hone

/-- A barrier that has entered its reduction waits for its answer. -/
theorem State.enterBarriers_entered (hin : z.entered = true) : s.enterBarriers = s := by simp [State.enterBarriers, hone, hin]

/-- The state with the barrier marked as entered. -/
def State.entering (s : State) (z : BarrierRun) : State := { s with col := { s.col with barriers := [{ z with entered := true }] } }

variable {y : Barge} (hy : s.barge? z.b = some y) (hok : y.failed = none) (hin : z.entered = false) (hclose : z.close = none)
include hy hok hin hclose

theorem State.enterBarriers_many (hmany : s.levelMembers z.key.level ≠ 1) :
    s.enterBarriers = (s.entering z).contribute { key := z.key, kind := bBARRIER } := by
  simp [State.enterBarriers, State.entering, hone, hy, hok, hin, hclose, hmany, mapIf]

theorem State.enterBarriers_alone (hlone : s.levelMembers z.key.level = 1) :
    s.enterBarriers = ((s.takeLevelSeq z.key.level).2.seqArrives z.key (s.takeLevelSeq z.key.level).1).barrierDone z := by
  simp [State.enterBarriers, hone, hy, hok, hin, hclose, hlone]

end

/-! ### A sequence number where no collective is open (R354) -/

theorem State.admitColl_of_no_ctxs {s : State} (hnone : s.col.ctxs = []) (n : Nat) (k : BellKey) : s.admitColl n k = s := by
  simp [State.admitColl, State.ctx?, hnone]

theorem State.admitLoop_rang (fuel : Nat) {s : State} (hnone : s.col.ctxs = []) (level : Nat) : Rang s (State.admitLoop fuel s level) := by
  induction fuel generalizing s with
  | zero => exact .refl s
  | succ fuel ih =>
    unfold State.admitLoop
    simp only []
    split
    · rw [State.admitColl_of_no_ctxs]
      · refine Rang.trans ?_ (ih ?_)
        · exact .of_kept rfl rfl rfl rfl
        · exact hnone
      · exact hnone
    · exact .refl s

theorem State.seqArrives_rang {s : State} (hnone : s.col.ctxs = []) (k : BellKey) (n : Nat) : Rang s (s.seqArrives k n) := by
  unfold State.seqArrives
  refine .ite (.refl s) (Rang.trans ?_ (State.admitLoop_rang _ ?_ _))
  · exact .of_kept rfl rfl rfl rfl
  · exact hnone

/-! ### BARRIER -/

/-- The barrier that record `i` of `x`, with word `w`, opens, as its CLASS's use `n` (R109, R353). -/
def Barge.barrierRun (x : Barge) (i w n : Nat) : BarrierRun :=
  { b := x.id, i := i, close := none, key := { cls := x.cls, barrier := true, collId := 0, use := n, level := recP w 1 0 } }

/-- A barrier of no step joins those open. -/
def State.withBarrier (s : State) (x : Barge) (i w : Nat) : State :=
  let n := (SMap.get (fun _ => 0) s.col.barrierUses x.cls + 1) % 2 ^ 16
  State.updBarge { s with
      col := { s.col with barriers := s.col.barriers ++ [x.barrierRun i w n], barrierUses := SMap.put (fun _ => 0) s.col.barrierUses x.cls n } }
    x.id fun y => { y with barrier := some i }

section

variable {s : State} {b i w : Nat} {x : Barge} (h : Issues s b i x w) (hq : s.anyTileQuar = false)
include h

theorem Issues.exec_barrier_free (hop : recOp w = 0x42) (hstep : recP w 2 2 = 0) :
    exec (.barrier b i) s = .next ((s.issue b i).withBarrier x i w).enterBarriers.failNamed.enterBarriers := by
  rw [h.exec_barrier hop, show s.rangesHeld b (s.extOf x w) = false by simp [State.extOf, hop, State.rangesHeld_nil], State.issueWith_free]
  simp [barrierEffect, hstep, State.withBarrier, Barge.barrierRun]

/-- The one barrier that is open once the record has issued. -/
theorem Issues.withBarrier_one (hnone : s.col.barriers = []) :
    ∃ z : BarrierRun, ((s.issue b i).withBarrier x i w).col.barriers = [z] ∧ z.b = b ∧ z.i = i ∧ z.key.level = recP w 1 0 ∧ z.close = none
      ∧ z.entered = false
      ∧ ((s.issue b i).withBarrier x i w).barge? z.b = some { x.issueAt s.now i with barrier := some i } := by
  refine ⟨x.barrierRun i w ((SMap.get (fun _ => 0) s.col.barrierUses x.cls + 1) % 2 ^ 16), ?_, h.barge_id, rfl, rfl, rfl, rfl, ?_⟩
  · change s.col.barriers ++ [_] = _
    rw [hnone]
    rfl
  · have hmine : (s.issue b i).barge? x.id = some (x.issueAt s.now i) := h.barge_id ▸ h.issued.mine
    exact State.barge?_updBarge_self (f := fun y => { y with barrier := some i }) hmine fun _ => rfl

include hq

/-- A BARRIER of a level of many members enters its reduction (R109, R364). -/
theorem Issues.exec_barrier_enters (hop : recOp w = 0x42) (hstep : recP w 2 2 = 0) (hnone : s.col.barriers = [])
    (hmany : s.levelMembers (recP w 1 0) ≠ 1) :
    ∃ t z, exec (.barrier b i) s = .next t ∧ z ∈ t.col.barriers ∧ z.b = b ∧ z.i = i ∧ z.key.level = recP w 1 0 ∧ z.entered = true := by
  obtain ⟨z, hone, hb, hi, hlevel, hclose, hin, hmine⟩ := h.withBarrier_one hnone
  have henter := State.enterBarriers_many hone hmine (by simpa using h.ok) hin hclose (by rw [hlevel]; exact hmany)
  have hrang := State.contribute_rang (((s.issue b i).withBarrier x i w).entering z) { key := z.key, kind := bBARRIER }
  have hkept : ErrKept s ((s.issue b i).withBarrier x i w).enterBarriers := by
    rw [henter]
    exact ErrKept.trans (.of_regs rfl) hrang.quar
  have hentered : ((s.issue b i).withBarrier x i w).enterBarriers.col.barriers = [{ z with entered := true }] := by
    rw [henter]
    exact hrang.barriers
  rw [h.exec_barrier_free hop hstep, State.failNamed_of_errKept hkept hq, State.enterBarriers_entered hentered rfl]
  exact ⟨_, { z with entered := true }, rfl, by rw [hentered]; exact List.mem_singleton_self _, hb, hi, hlevel, rfl⟩

omit h hq in
/-- The only barrier open is done: its record completes (R109). -/
theorem State.barrierDone_one {u : State} {z : BarrierRun} {y : Barge} (hone : u.col.barriers = [z]) (hclose : z.close = none)
    (hy : u.barge? z.b = some y) (hok : y.failed = none) :
    (u.barrierDone z).col.barriers = [] ∧ ErrKept u (u.barrierDone z) ∧ ∃ (v : State),
      (u.barrierDone z).barge? z.b = some ({ y with barrier := none }.finishAt z.i (recSignal (v.progRec { y with barrier := none } z.i))) := by
  generalize hu : ({ u with col := { u.col with barriers := u.col.barriers.erase z } } : State) = u'
  have hmask := u'.count_mask { regs := true } rfl pCOL 0xF24 1
  have hcol := State.col_of_mask hmask rfl
  have hsv := State.sv_of_mask hmask rfl
  have hy' : (u'.count pCOL 0xF24).barge? z.b = some y := by
    rw [State.barge?, hsv, ← hu]
    exact hy
  have hdone : u.barrierDone z = ((u'.count pCOL 0xF24).updBarge z.b fun y => { y with barrier := none }).finishOp z.b z.i := by
    simp only [State.barrierDone, hu, hclose, hy', hok]
    rfl
  have hat := ((AtBarge.refl hy').updBarge (f := fun y => { y with barrier := none }) fun _ => rfl).finishOp z.i
  have hrest := hat.rest
  rw [hdone]
  refine ⟨?_, ?_, _, hat.mine⟩
  · rw [hrest]
    change (u'.count pCOL 0xF24).col.barriers = []
    rw [hcol, ← hu]
    simp [hone]
  · have hcount : ErrKept u' (u'.count pCOL 0xF24) := u'.count_errKept 1 fun x _ _ => by simp only [pCOL]; omega
    refine ErrKept.trans (t := u') (.of_regs (by rw [← hu])) (hcount.trans (.of_regs ?_))
    rw [hrest]

/-- A BARRIER of a level of one member completes (R109). -/
theorem Issues.exec_barrier_alone (hop : recOp w = 0x42) (hstep : recP w 2 2 = 0) (hnone : s.col.barriers = [])
    (hlone : s.levelMembers (recP w 1 0) = 1) (hctxs : s.col.ctxs = []) :
    ∃ t y, exec (.barrier b i) s = .next t ∧ t.barge? b = some y ∧ y.opIs i .complete = true ∧ y.tokenSet (recSignal w) = true
      ∧ t.col.barriers = [] := by
  obtain ⟨z, hone, rfl, rfl, hlevel, hclose, hin, hmine⟩ := h.withBarrier_one hnone
  have henter := State.enterBarriers_alone hone hmine (by simpa using h.ok) hin hclose (by rw [hlevel]; exact hlone)
  generalize hv : (s.issue z.b z.i).withBarrier x z.i w = v at *
  have hvc : v.col.ctxs = [] := by rw [← hv]; exact hctxs
  have hrang : Rang v ((v.takeLevelSeq z.key.level).2.seqArrives z.key (v.takeLevelSeq z.key.level).1) :=
    (v.takeLevelSeq_rang _).trans (State.seqArrives_rang (s := (v.takeLevelSeq z.key.level).2) hvc _ _)
  generalize hu : (v.takeLevelSeq z.key.level).2.seqArrives z.key (v.takeLevelSeq z.key.level).1 = u at *
  have hmine' : u.barge? z.b = some { x.issueAt s.now z.i with barrier := some z.i } := by
    rw [State.barge?, hrang.sv]
    exact hmine
  obtain ⟨hempty, hquar, v', hy⟩ := State.barrierDone_one (hrang.barriers.trans hone) hclose hmine' (by simpa using h.ok)
  have hkept : ErrKept s v.enterBarriers := by
    rw [henter]
    exact (ErrKept.of_regs (by rw [← hv]; rfl)).trans (hrang.quar.trans hquar)
  have hlen : z.i < (x.issueAt s.now z.i).ops.length := by simpa using h.lt
  have hword : v'.progRec { x.issueAt s.now z.i with barrier := none } z.i = w := by
    rw [h.word]
    exact State.progRec_congr h.lt (x.issueAt_length _ _) (x.issueAt_word _ _ h.lt)
  rw [hword] at hy
  rw [h.exec_barrier_free hop hstep, hv, State.failNamed_of_errKept hkept hq, henter, State.enterBarriers_of_nil hempty]
  exact ⟨_, _, rfl, hy, Barge.finishAt_complete _ _ hlen, Barge.finishAt_tokenSet _ _ _, hempty⟩

end

end Sys2Proof.Machine
end

section
/-! SUPPORT. The issue of an op record (R88), by opcode. -/

namespace Sys2Proof.Machine

open Sys2Proof

section

variable {s : State} {b i w : Nat} {x : Barge} (h : Issues s b i x w)
include h

/-- What the issue alone does: the record runs from now on. -/
theorem Issues.issue_runs :
    ∃ y, (s.issue b i).barge? b = some y ∧ (y.op i).st = .running ∧ (y.op i).issued = s.now ∧ (∀ k, k ≠ i → y.op k = x.op k)
      ∧ s.issue b i = { s with sv := { s.sv with barges := (s.issue b i).sv.barges } } := by
  have hrun := x.issueAt_op_self s.now h.lt
  exact ⟨_, h.issued.mine, by rw [hrun], by rw [hrun], fun k hk => x.issueAt_op_other _ hk, h.issued.rest⟩

/-- A record whose memory lies in another barge's open C range waits (R135). -/
theorem Issues.waits_held {c : Instr} {zero held : Bool} {effect : State → State}
    (hexec : exec c s = .next (s.issueWith b i zero held effect).failNamed) (hzero : zero = false) (hheld : held = true)
    (hq : s.anyTileQuar = false) : exec c s = .next s := by
  rw [hexec, hzero, hheld, State.issueWith_held, State.failNamed_of_none hq]

theorem Issues.prefetch_waits_held (hop : recOp w = 0x21) (hzero : (gIndices w == 0) = false)
    (hheld : s.rangesHeld b (s.extOf x w) = true) (hq : s.anyTileQuar = false) : exec (.prefetch b i) s = .next s := by
  rw [h.exec_prefetch hop, hzero, hheld, State.issueWith_held, State.failNamed_of_none hq,
    State.prefetchAgain_of_not_running h.barge (Barge.opIs_eq_false (State.mayIssue_spec h.may).2.2.1 (by decide))]

/-- Every record that reads or writes external memory at its issue waits for another barge's open C range (R135). -/
theorem Issues.memoryRecord_waits {c : Instr} (hc : (c, recOp w, false) ∈ memoryRecords b i w)
    (hheld : s.rangesHeld b (s.extOf x w) = true) (hq : s.anyTileQuar = false) : exec c s = .next s := by
  simp only [memoryRecords, List.mem_cons, Prod.mk.injEq, List.not_mem_nil, or_false] at hc
  rcases hc with ⟨rfl, hop, hz⟩ | ⟨rfl, hop, hz⟩ | ⟨rfl, hop, hz⟩ | ⟨rfl, hop, hz⟩ | ⟨rfl, hop, hz⟩ | ⟨rfl, hop, hz⟩
    | ⟨rfl, hop, hz⟩ | ⟨rfl, hop, hz⟩ | ⟨rfl, hop, hz⟩ | ⟨rfl, hop, hz⟩ | ⟨rfl, hop, -⟩ | ⟨rfl, hop, -⟩
  · obtain ⟨hpair, hzero⟩ := Bool.or_eq_false_iff.1 hz.symm
    exact h.waits_held (h.exec_mm hop hpair) hzero hheld hq
  · exact h.waits_held (h.exec_attn hop) hz.symm hheld hq
  · exact h.waits_held (h.exec_vec hop) hz.symm hheld hq
  · exact h.waits_held (h.exec_conv hop) hz.symm hheld hq
  · exact h.waits_held (h.exec_gather hop) hz.symm hheld hq
  · exact h.prefetch_waits_held hop hz.symm hheld hq
  · exact h.waits_held (h.exec_pool hop) hz.symm hheld hq
  · exact h.waits_held (h.exec_sgrad hop) hz.symm hheld hq
  · exact h.waits_held (h.exec_kvAppend hop) hz.symm hheld hq
  · exact h.waits_held (h.exec_kvCommit hop) hz.symm hheld hq
  · exact h.waits_held (h.exec_confirm hop) rfl hheld hq
  · exact h.waits_held (h.exec_savePoint hop) rfl hheld hq

end

/-- Settles O22: an op record that may issue does so, unless another barge's collective holds memory it needs, and its effect is that of
its opcode; UPDATE, COLL, SEAL and BARRIER then stand where R106 to R109 have them. -/
theorem opRecordsIssue : Obligations.OpRecordsIssue := by
  intro b i w s x h u
  refine ⟨h.issue_runs, fun c z hc hz hheld hq => h.memoryRecord_waits (hz ▸ hc) hheld hq, fun hfree => ?_, ?_, ?_, ?_, ?_⟩
  · refine ⟨fun hop hpair hz => ?_, fun hop hz => ?_, fun hop hz => ?_, fun hop hz => ?_, fun hop hz => ?_, fun hop hz => ?_,
      fun hop hz => ?_, fun hop hz => ?_, fun hop => ?_, fun hop hz => ?_, fun hop hz => ?_, fun hop => ?_, fun hop => ?_, fun hop => ?_,
      fun hop => ?_, fun hop => ?_, fun hop => ?_, fun hop => ?_, fun hop => ?_, fun hop => ?_⟩
    · rw [h.exec_mm hop hpair, hz, hfree, State.issueWith_free]
    · rw [h.exec_attn hop, hz, hfree, State.issueWith_free]
    · rw [h.exec_vec hop, hz, hfree, State.issueWith_free]
    · rw [h.exec_conv hop, hz, hfree, State.issueWith_free]
    · rw [h.exec_gather hop, hz, hfree, State.issueWith_free]
    · rw [h.exec_prefetch hop, beq_false_of_ne hz, hfree, State.issueWith_free]
    · rw [h.exec_pool hop, beq_false_of_ne hz, hfree, State.issueWith_free]
    · rw [h.exec_sgrad hop, beq_false_of_ne hz, hfree, State.issueWith_free]
    · rw [h.exec_update hop, hfree, State.issueWith_free]
    · rw [h.exec_kvAppend hop, hz, hfree, State.issueWith_free]
    · rw [h.exec_kvCommit hop, beq_false_of_ne hz, hfree, State.issueWith_free]
    · rw [h.exec_coll hop, hfree, State.issueWith_free]
    · rw [h.exec_seal hop, hfree, State.issueWith_free]
    · rw [h.exec_barrier hop, hfree, State.issueWith_free]
    · rw [h.exec_lockMark hop, hfree, State.issueWith_free]
    · rw [h.exec_confirm hop, hfree, State.issueWith_free]
    · rw [h.exec_savePoint hop, hfree, State.issueWith_free]
    · rw [h.exec_opFence hop, hfree, State.issueWith_free]
    · rw [h.exec_wait hop, hfree, State.issueWith_free]
    · rw [h.exec_signal hop, hfree, State.issueWith_free]
  · intro hop hq hclosed hnew hmerge hdone
    exact h.exec_update_unit hq hop hclosed hnew hmerge hdone
  · intro hop hq hnew
    exact ⟨h.exec_coll_empty hq hop hnew, h.exec_coll_opens hq hop hnew⟩
  · intro hop hq
    exact ⟨h.exec_seal_none hq hop, fun c => h.exec_seal_some hq hop⟩
  · intro hop hq hstep hnone
    exact ⟨h.exec_barrier_enters hq hop hstep hnone, h.exec_barrier_alone hq hop hstep hnone⟩

end Sys2Proof.Machine
end

section
/-! SUPPORT. Keeper memory and its image check (R453): what IMEM_DATA reads and writes, and when the cores are released. -/

namespace Sys2Proof.Machine

open Sys2Proof

/-! ### The image check -/

theorem State.imageOk_iff (s : State) : s.imageOk = true ↔
    16 ≤ leNat (Mem.read s.imem 0 4) ∧ leNat (Mem.read s.imem 0 4) ≤ 262144 ∧ leNat (Mem.read s.imem 0 4) % 4 = 0
      ∧ (crc32c (Mem.read s.imem 8 (leNat (Mem.read s.imem 0 4) - 8))).toNat = leNat (Mem.read s.imem 4 4) := by
  simp only [State.imageOk, Bool.and_eq_true, decide_eq_true_eq, beq_iff_eq, and_assoc]
  rfl

theorem exec_keeperEnable_live {s : State} (hlive : s.live = true) : exec .keeperEnable s = .next s.keeperStart :=
  State.always_live hlive _

/-- A running keeper is not started again. -/
theorem exec_keeperEnable_running {s : State} (hlive : s.live = true) (hrun : s.keeperRuns = true) :
    exec .keeperEnable s = .next s := by
  rw [exec_keeperEnable_live hlive, State.keeperStart, if_pos hrun]

theorem exec_keeperEnable_held {s : State} (hlive : s.live = true) (hheld : s.keeperRuns = false) :
    exec .keeperEnable s = .next s.runImageCheck := by
  rw [exec_keeperEnable_live hlive, State.keeperStart, if_neg (by simp [hheld])]

/-- A passed check releases the cores and notes the image's length. -/
theorem State.runImageCheck_passed {s : State} (h : s.imageOk = true) :
    s.runImageCheck.keeperRuns = true ∧ s.runImageCheck.regN pKEEP 0xF08 = leNat (Mem.read s.imem 0 4) := by
  obtain ⟨-, hmax, -⟩ := s.imageOk_iff.1 h
  have hlen : leNat (Mem.read s.imem 0 4) < 2 ^ 32 := by omega
  rw [State.runImageCheck, if_pos h]
  constructor
  · rw [State.keeperRuns, State.setRegN, State.reg_setReg_other _ _ (by decide), State.reg_setReg_self, bitOf, BitVec.getLsbD_or]
    simp
  · rw [State.regN, State.setRegN, State.reg_setReg_self, BitVec.toNat_ofNat]
    exact Nat.mod_eq_of_lt hlen

/-- A failed check is recorded, and the cores stay as they are. -/
theorem State.runImageCheck_failed {s : State} (h : s.imageOk = false) :
    s.runImageCheck.keeperRuns = s.keeperRuns ∧ bitOf (s.runImageCheck.errStatus pKEEP) 0 = true := by
  rw [State.runImageCheck, if_neg (by simp [h])]
  refine ⟨?_, s.bitOf_errStatus_err (by decide) (by decide) (by decide)⟩
  rw [State.keeperRuns, s.reg_err_flagged pKEEP 0 (by decide) (by decide),
    s.reg_flagged_other (by decide) (by decide) (by decide), State.keeperRuns]

/-! ### Keeper memory -/

/-- The bytes of a number stored little-endian (R10). -/
theorem getElem_leBytes (n v k : Nat) (h : k < (leBytes n v).length) : (leBytes n v)[k] = BitVec.ofNat 8 (v / 256 ^ k) := by
  induction n generalizing v k with
  | zero => exact absurd h (by simp [leBytes])
  | succ n ih =>
    cases k with
    | zero => simp [leBytes]
    | succ k => simp only [leBytes, List.getElem_cons_succ, ih, Nat.div_div_eq_div_mul, pow_succ']

theorem Mem.get_putNat_inside (m : Mem) (a v : Nat) {n k : Nat} (h : k < n) : (m.putNat a n v).get (a + k) = BitVec.ofNat 8 (v / 256 ^ k) := by
  have hk : k < (leBytes n v).length := by rwa [leBytes_length]
  rw [Mem.putNat, Mem.get_write_inside m a k _ hk, getElem_leBytes]

theorem Mem.get_putNat_outside (m : Mem) {a n b : Nat} (v : Nat) (h : ¬(a ≤ b ∧ b < a + n)) : (m.putNat a n v).get b = m.get b :=
  Mem.get_write_outside m a b _ (by rw [leBytes_length]; omega)

/-- IMEM_ADDR goes round in keeper memory's 262,144 bytes. -/
theorem State.regN_imemNext (s : State) : s.imemNext.regN pKEEP 0x060 = (s.regN pKEEP 0x060 + 4) % 262144 := by
  rw [State.imemNext, State.setRegN, State.regN, State.reg_setReg_self, BitVec.toNat_ofNat]
  exact Nat.mod_eq_of_lt (by omega)

theorem exec_imemDataWrite_live {s : State} (hlive : s.live = true) (w : Word) : exec (.imemDataWrite w) s = .next (s.imemWrite w) :=
  State.always_live hlive (State.imemWrite · w)

/-- IMEM_DATA is not written while the cores run. -/
theorem exec_imemDataWrite_running {s : State} (hlive : s.live = true) (hrun : s.keeperRuns = true) (w : Word) :
    exec (.imemDataWrite w) s = .next s := by
  rw [exec_imemDataWrite_live hlive, State.imemWrite, if_pos hrun]

theorem exec_imemDataWrite_held {s : State} (hlive : s.live = true) (hheld : s.keeperRuns = false) (w : Word) :
    exec (.imemDataWrite w) s = .next ({ s with imem := Mem.putNat s.imem (s.regN pKEEP 0x060) 4 w.toNat } : State).imemNext := by
  rw [exec_imemDataWrite_live hlive, State.imemWrite, if_neg (by simp [hheld])]

theorem exec_imemDataRead_eq (s : State) : exec .imemDataRead s = .next (s.hostRead (pKEEP * 0x1000 + 0x064)) := rfl

/-- Until the towpath is live the port reads ones (R427). -/
theorem exec_imemDataRead_dead {s : State} (hdead : s.live = false) :
    exec .imemDataRead s = .next { s with port := { rdata := 0xFFFFFFFF, err := false } } := by
  simp [exec_imemDataRead_eq, State.hostRead, State.towRead, hdead]

/-- A live towpath answers the read of IMEM_DATA, and the read leaves behind what IMEM_DATA's does. -/
theorem exec_imemDataRead_live {s : State} (hlive : s.live = true) :
    exec .imemDataRead s = .next { s.afterRead (pKEEP * 0x1000 + 0x064) with
      port := { rdata := s.value (pKEEP * 0x1000 + 0x064), err := false } } := by
  have hmapped : unmapped (pKEEP * 0x1000 + 0x064) = false := by decide
  have htow : s.towRead (pKEEP * 0x1000 + 0x064) = (s.value (pKEEP * 0x1000 + 0x064), false, s.afterRead (pKEEP * 0x1000 + 0x064)) := by
    rw [State.towRead, if_neg (by simp [hlive]), if_neg (by simp [hmapped])]
  rw [exec_imemDataRead_eq, State.hostRead,
    show wordAddr (pKEEP * 0x1000 + 0x064) = pKEEP * 0x1000 + 0x064 by decide, htow]

theorem State.value_imemData (s : State) : s.value (pKEEP * 0x1000 + 0x064)
    = BitVec.ofNat 32 (if s.keeperRuns then 0 else s.imemNat (s.regN pKEEP 0x060) 4) := rfl

theorem State.afterRead_imemData (s : State) : s.afterRead (pKEEP * 0x1000 + 0x064) = if s.keeperRuns then s else s.imemNext := by
  have hrw : (windowDef? (pKEEP * 0x1000 + 0x064)).any (·.acc == .rc) = false := by decide
  rw [State.afterRead, hrw]
  cases s.keeperRuns <;> simp

theorem exec_imemDataRead_running {s : State} (hlive : s.live = true) (hrun : s.keeperRuns = true) :
    exec .imemDataRead s = .next { s with port := { rdata := 0, err := false } } := by
  rw [exec_imemDataRead_live hlive, State.value_imemData, State.afterRead_imemData, if_pos hrun, if_pos hrun]
  rfl

theorem exec_imemDataRead_held {s : State} (hlive : s.live = true) (hheld : s.keeperRuns = false) :
    exec .imemDataRead s = .next { s.imemNext with
      port := { rdata := BitVec.ofNat 32 (leNat (Mem.read s.imem (s.regN pKEEP 0x060) 4)), err := false } } := by
  have hnot : ¬s.keeperRuns = true := by simp [hheld]
  rw [exec_imemDataRead_live hlive, State.value_imemData, State.afterRead_imemData, if_neg hnot, if_neg hnot, State.imemNat, Mem.nat]

end Sys2Proof.Machine
end

section
/-! SUPPORT. Debug reads (R140, R454): the region that a PEEK wakes, and what PEEK_DATA and PEEK_STATUS hold once a read ends. -/

namespace Sys2Proof.Machine

open Sys2Proof

/-! ### PEEK_CTRL -/

/-- A region that sleeps, with its outputs open, wakes (R398). -/
theorem State.wake_waking {s : State} {r : Nat} (hopen : s.isolated (rPage r) = false) (hquar : (s.region r).quarantined = false)
    (hsleeps : (s.region r).power ≠ .run) : ((s.wake r).region r).waking.isSome = true := by
  cases hwaking : (s.region r).waking.isSome with
  | true => rw [State.wake, if_pos (by simp [hwaking]), hwaking]
  | false =>
    have hset : ((s.setRegion r { s.region r with waking := some (s.region r).power }).region r).waking.isSome = true := by
      rw [State.setRegion, State.region, SMap.get_put_self]
      rfl
    have hcond : ¬((s.region r).power == .run || (s.region r).waking.isSome || (s.region r).quarantined || s.isolated (rPage r)) = true := by
      simp [hsleeps, hwaking, hquar, hopen]
    rw [State.wake, if_neg hcond, State.region, State.regions_of_mask (M := { regs := true }) (State.count_mask _ rfl _ _ _ _) rfl]
    exact hset

theorem State.wake_reg (s : State) (r : Nat) {Q x : Nat} (h : Q * 0x1000 + x ≠ pPWR * 0x1000 + 0xF04) :
    (s.wake r).reg Q x = s.reg Q x := by
  unfold State.wake
  simp only []
  split
  · rfl
  · exact State.reg_count_other _ 1 h

/-- The state once PEEK_CTRL holds what was written to it. -/
def State.peekCtrl (s : State) (w : Word) : State := s.setReg pDBG 0x060 (w &&& 0x87FF0000)

theorem State.peekCtrl_peeking (s : State) (w : Word) : (s.peekCtrl w).peeking = bitOf w 31 := by
  rw [State.peeking, State.peekCtrl, State.reg_setReg_self, bitOf, BitVec.getLsbD_and, bitOf,
    show (0x87FF0000 : Word).getLsbD 31 = true by decide, Bool.and_true]

theorem State.peekCtrl_isolated (s : State) (w : Word) (r : Nat) : (s.peekCtrl w).isolated (rPage r) = s.isolated (rPage r) := by
  rw [State.isolated, State.peekCtrl, State.reg_setReg_other _ _ (by simp only [rPage, pREGION, oCTRL, pDBG]; omega), State.isolated]

theorem exec_peek_live {s : State} (hlive : s.live = true) (w : Word) : exec (.peek w) s = .next (s.peekWrite w) :=
  State.always_live hlive (State.peekWrite · w)

/-- While GO is 1 a write of PEEK_CTRL is ignored. -/
theorem exec_peek_busy {s : State} (hlive : s.live = true) (hgo : s.peeking = true) (w : Word) : exec (.peek w) s = .next s := by
  rw [exec_peek_live hlive, State.peekWrite, if_pos hgo]

/-- The write is taken, and a read that it starts wakes the region it names. -/
theorem exec_peek_idle {s : State} (hlive : s.live = true) (hgo : s.peeking = false) (w : Word) :
    exec (.peek w) s = .next ((s.peekCtrl w).peekRegion.elim (s.peekCtrl w) (s.peekCtrl w).wake) := by
  rw [exec_peek_live hlive, State.peekWrite, if_neg (by simp [hgo])]
  cases hw : bitOf w 31 with
  | true => rfl
  | false =>
    rw [State.peekRegion, State.peekCtrl_peeking, hw]
    rfl

/-! ### What a read leaves -/

theorem leNat_lt (bs : List Byte) : leNat bs < 256 ^ bs.length := by
  induction bs with
  | nil => decide
  | cons b bs ih =>
    have hb := b.isLt
    rw [leNat, List.length_cons, pow_succ']
    omega

/-- PEEK_DATA filled, the first `n` registers of it. -/
def State.peekData (s : State) (bs : List Byte) (n : Nat) : State :=
  (List.range n).foldl (fun s i => s.setRegN pDBG (0xF40 + 4 * i) (leNat ((bs.drop (4 * i)).take 4))) s

theorem State.peekData_succ (s : State) (bs : List Byte) (n : Nat) :
    s.peekData bs (n + 1) = (s.peekData bs n).setRegN pDBG (0xF40 + 4 * n) (leNat ((bs.drop (4 * n)).take 4)) := by
  rw [State.peekData, List.range_succ, List.foldl_append]
  rfl

theorem State.peekData_reg_other (s : State) (bs : List Byte) (n : Nat) {Q x : Nat}
    (h : ∀ i, i < n → Q * 0x1000 + x ≠ pDBG * 0x1000 + (0xF40 + 4 * i)) : (s.peekData bs n).reg Q x = s.reg Q x := by
  induction n with
  | zero => rfl
  | succ n ih => rw [State.peekData_succ, State.setRegN, State.reg_setReg_other _ _ (h n (by omega)), ih fun i hi => h i (by omega)]

theorem State.peekData_regN (s : State) (bs : List Byte) {n i : Nat} (hi : i < n) :
    (s.peekData bs n).regN pDBG (0xF40 + 4 * i) = leNat ((bs.drop (4 * i)).take 4) := by
  induction n with
  | zero => omega
  | succ n ih =>
    rw [State.peekData_succ, State.setRegN, State.regN]
    obtain rfl | hne := eq_or_ne i n
    · have hlen : ((bs.drop (4 * i)).take 4).length ≤ 4 := List.length_take_le _ _
      have hlt : leNat ((bs.drop (4 * i)).take 4) < 256 ^ 4 := (leNat_lt _).trans_le (Nat.pow_le_pow_right (by decide) hlen)
      rw [State.reg_setReg_self, BitVec.toNat_ofNat]
      exact Nat.mod_eq_of_lt hlt
    · rw [State.reg_setReg_other _ _ (by omega)]
      exact ih (by omega)

theorem State.peekResult_eq (s : State) (status : Nat) (bs : List Byte) : s.peekResult status bs
    = ((s.peekData bs 16).setRegN pDBG 0xF00 status).setReg pDBG 0x060 ((s.peekData bs 16).reg pDBG 0x060 &&& 0x07FF0000) := rfl

theorem State.peekResult_data (s : State) (status : Nat) (bs : List Byte) {i : Nat} (hi : i < 16) :
    (s.peekResult status bs).regN pDBG (0xF40 + 4 * i) = leNat ((bs.drop (4 * i)).take 4) := by
  rw [State.peekResult_eq, State.setRegN, State.regN, State.reg_setReg_other _ _ (by omega), State.reg_setReg_other _ _ (by omega)]
  exact s.peekData_regN bs hi

theorem State.peekResult_status (s : State) {status : Nat} (bs : List Byte) (h : status < 2 ^ 32) :
    (s.peekResult status bs).regN pDBG 0xF00 = status := by
  rw [State.peekResult_eq, State.setRegN, State.regN, State.reg_setReg_other _ _ (by decide), State.reg_setReg_self, BitVec.toNat_ofNat]
  exact Nat.mod_eq_of_lt h

/-- A read of nothing leaves zeros. -/
theorem State.peekResult_zeros (s : State) : (s.peekResult 0 []).reg pDBG 0xF00 = 0
    ∧ ∀ i, i < 16 → (s.peekResult 0 []).reg pDBG (0xF40 + 4 * i) = 0 := by
  refine ⟨BitVec.eq_of_toNat_eq (s.peekResult_status [] (by decide)), fun i hi => BitVec.eq_of_toNat_eq ?_⟩
  have hdata := s.peekResult_data 0 [] hi
  rwa [List.drop_nil, List.take_nil] at hdata

@[simp] theorem State.peekResult_peeking (s : State) (status : Nat) (bs : List Byte) : (s.peekResult status bs).peeking = false := by
  rw [State.peeking, State.peekResult_eq, State.reg_setReg_self, bitOf, BitVec.getLsbD_and,
    show (0x07FF0000 : Word).getLsbD 31 = false by decide, Bool.and_false]

theorem State.peekResult_reg_page (s : State) (status : Nat) (bs : List Byte) {Q x : Nat} (hQ : Q ≠ pDBG) (hx : x < 0x1000) :
    (s.peekResult status bs).reg Q x = s.reg Q x := by
  have hne : ∀ o, o < 0x1000 → Q * 0x1000 + x ≠ pDBG * 0x1000 + o := fun o ho => by omega
  rw [State.peekResult_eq, State.setRegN, State.reg_setReg_other _ _ (hne _ (by decide)), State.reg_setReg_other _ _ (hne _ (by decide)),
    State.peekData_reg_other _ _ _ fun i hi => hne _ (by omega)]

theorem State.peekResult_errStatus (s : State) (status : Nat) (bs : List Byte) :
    (s.peekResult status bs).errStatus pDBG = s.errStatus pDBG := by
  rw [State.errStatus, State.peekResult_eq, State.setRegN, State.reg_setReg_other _ _ (by decide), State.reg_setReg_other _ _ (by decide),
    State.peekData_reg_other _ _ _ fun i hi => by simp only [oERR_STATUS]; omega, State.errStatus]

/-! ### The read of one word -/

/-- Where no error is latent, a read meets none (R402). -/
theorem State.see_of_calm {s : State} (h : s.armed.latent = []) (st : Store) (a n : Nat) : s.see st a n = s := by
  cases st <;> simp [State.see, h]

theorem State.failNamed_of_no_barge {s : State} (h : s.sv.barges = []) : s.failNamed = s := by simp [State.failNamed, h]

theorem State.peekResult_anyTileQuar (s : State) (status : Nat) (bs : List Byte) :
    (s.peekResult status bs).anyTileQuar = s.anyTileQuar :=
  ErrKept.anyTileQuar fun _ _ _ => s.peekResult_reg_page status bs (by decide) (by omega)

theorem State.peekResult_sv (s : State) (status : Nat) (bs : List Byte) : (s.peekResult status bs).sv = s.sv :=
  State.sv_of_mask (State.peekResult_mask { regs := true } rfl s status bs) rfl

/-- The SPEC positions that a read of 64 bytes at PEEK_ADDR shows: those of external memory (R118, R130). -/
def State.peekSpecs (s : State) (st : Store) : List SpecPos := if st = .ext then s.specsAt s.peekAddr 64 else []

/-- The pending set that PEEK_STATUS shows. -/
def State.peekPend (s : State) (st : Store) : LockMask := (s.peekSpecs st).foldl (fun m p => m ||| p.pend) (s.pendAt st s.peekAddr 64)

/-- What PEEK_STATUS shows: the pending set, VOID and POISON. -/
def State.peekStatus (s : State) (st : Store) : Nat := (s.peekPend st).toNat
  + 2 ^ 16 * bit (s.voidAt st s.peekAddr 64 || (s.peekSpecs st).any (·.discarded)) + 2 ^ 17 * bit (s.poisonAt st s.peekAddr 64)

theorem State.peekStatus_lt (s : State) (st : Store) : s.peekStatus st < 2 ^ 32 := by
  have hpend := (s.peekPend st).isLt
  have hbit : ∀ b, bit b ≤ 1 := by decide
  have hvoid := hbit (s.voidAt st s.peekAddr 64 || (s.peekSpecs st).any (·.discarded))
  have hpoison := hbit (s.poisonAt st s.peekAddr 64)
  rw [State.peekStatus]
  omega

/-- Where no error is latent and no barge can fail by the read, the registers are left with its result alone. -/
theorem State.peekWord_regs {s : State} {st : Store} (hcalm : s.armed.latent = []) (hnone : s.sv.barges = [] ∨ s.anyTileQuar = false) :
    (s.peekWord st).regs = (s.peekResult (s.peekStatus st) (s.rd st s.peekAddr 64)).regs := by
  have hfail : (s.peekResult (s.peekStatus st) (s.rd st s.peekAddr 64)).failNamed = s.peekResult (s.peekStatus st) (s.rd st s.peekAddr 64) :=
    hnone.elim (fun h => State.failNamed_of_no_barge (by rw [State.peekResult_sv, h]))
      fun h => State.failNamed_of_none (by rw [State.peekResult_anyTileQuar, h])
  have hdone : ∀ (u : State) (r : Option Nat), (r.elim u u.accessDone).regs = u.regs := fun u r => by
    cases r with
    | none => rfl
    | some r => exact (u.accessDone_kept r).2
  have heq : s.peekWord st = st.region?.elim (s.peekResult (s.peekStatus st) (s.rd st s.peekAddr 64)).failNamed
      (s.peekResult (s.peekStatus st) (s.rd st s.peekAddr 64)).failNamed.accessDone := by
    simp only [State.peekWord, State.see_of_calm hcalm]
    cases st <;> rfl
  rw [heq, hdone, hfail]

/-! ### The end of a read -/

theorem exec_peekComplete_up {s : State} (hup : s.up = true) : exec .peekComplete s = .next s.peekEnd := State.engine_up hup _

theorem State.peekEnd_idle {s : State} (h : s.peeking = false) : s.peekEnd = s := by simp [State.peekEnd, h]

theorem State.peekEnd_out {s : State} (hgo : s.peeking = true) (hout : s.peekTarget = none) :
    s.peekEnd = (s.err pDBG 0).peekResult 0 [] := by simp [State.peekEnd, hgo, hout]

/-- The read of a region that is not ready has not ended. -/
theorem State.peekEnd_waits {s : State} {st : Store} {r : Nat} (hgo : s.peeking = true) (ht : s.peekTarget = some st)
    (hr : st.region? = some r) (hwait : s.peekReady r = false) : s.peekEnd = s := by simp [State.peekEnd, hgo, ht, hr, hwait]

theorem State.peekEnd_reads {s : State} {st : Store} (hgo : s.peeking = true) (ht : s.peekTarget = some st)
    (hready : ∀ r, st.region? = some r → s.peekReady r = true) : s.peekEnd = s.peekWord st := by
  cases hr : st.region? with
  | none => simp [State.peekEnd, hgo, ht, hr]
  | some r => simp [State.peekEnd, hgo, ht, hr, hready r hr]

/-- Settles O58: keeper memory is loaded word by word, its image runs once it passes the check, and a debug read leaves the word's bytes
and state. -/
theorem keeperImageAndDebugReads : Obligations.KeeperImageAndDebugReads := by
  refine ⟨fun s hlive => ⟨fun hrun => ?_, fun hheld => ⟨fun hgood => ?_, fun hbad => ?_, fun w => ?_, ?_⟩⟩,
    fun s => exec_imemDataRead_dead, fun w s hlive => ⟨fun hgo => exec_peek_busy hlive hgo w, fun hgo => ?_⟩,
    fun s hup => ?_⟩
  · exact ⟨exec_keeperEnable_running hlive hrun, exec_imemDataWrite_running hlive hrun, exec_imemDataRead_running hlive hrun⟩
  · exact ⟨_, exec_keeperEnable_held hlive hheld, State.runImageCheck_passed (s.imageOk_iff.2 hgood)⟩
  · obtain ⟨hcores, hflag⟩ := State.runImageCheck_failed (Bool.eq_false_iff.2 (mt s.imageOk_iff.1 hbad))
    exact ⟨_, exec_keeperEnable_held hlive hheld, hcores.trans hheld, hflag⟩
  · exact ⟨_, exec_imemDataWrite_held hlive hheld w, State.regN_imemNext _, fun i hi => Mem.get_putNat_inside _ _ _ hi,
      fun b hb => Mem.get_putNat_outside _ _ hb⟩
  · exact ⟨_, exec_imemDataRead_held hlive hheld, rfl, s.regN_imemNext, rfl⟩
  · refine ⟨_, exec_peek_idle hlive hgo w, ?_, fun r hw hr hopen hquar hsleeps => ?_⟩
    · have hctrl : (s.peekCtrl w).reg pDBG 0x060 = w &&& 0x87FF0000 := s.reg_setReg_self _ _ _
      cases (s.peekCtrl w).peekRegion with
      | none => exact hctrl
      | some r => exact ((s.peekCtrl w).wake_reg r (by decide)).trans hctrl
    · have hregion : (s.peekCtrl w).peekRegion = some r := by
        rw [State.peekRegion, if_pos (by rw [State.peekCtrl_peeking, hw])]
        exact hr
      rw [hregion]
      exact State.wake_waking (s := s.peekCtrl w) (by rw [State.peekCtrl_isolated, hopen]) hquar hsleeps
  · rw [exec_peekComplete_up hup]
    refine ⟨fun hgo => by rw [State.peekEnd_idle hgo], fun hgo hout => ?_, fun st hgo ht hwait => ?_,
      fun st hgo ht hready hnone hcalm => ?_⟩
    · obtain ⟨hstatus, hdata⟩ := (s.err pDBG 0).peekResult_zeros
      refine ⟨_, by rw [State.peekEnd_out hgo hout], State.peekResult_peeking _ _ _, hstatus, hdata, ?_⟩
      rw [State.peekResult_errStatus]
      exact s.bitOf_errStatus_err (by decide) (by decide) (by decide)
    · obtain ⟨r, hr, hwait⟩ := hwait
      rw [State.peekEnd_waits hgo ht hr hwait]
    · have hregs := State.peekWord_regs (st := st) hcalm (hnone.imp_right And.right)
      have hreg : ∀ x, (s.peekWord st).reg pDBG x = (s.peekResult (s.peekStatus st) (s.rd st s.peekAddr 64)).reg pDBG x := fun x => by
        rw [State.reg, hregs, State.reg]
      refine ⟨_, by rw [State.peekEnd_reads hgo ht hready], ?_, fun i hi => ?_, ?_⟩
      · rw [State.peeking, hreg]
        exact State.peekResult_peeking _ _ _
      · rw [State.regN, hreg]
        exact State.peekResult_data _ _ _ hi
      · rw [State.regN, hreg]
        exact State.peekResult_status _ _ (s.peekStatus_lt st)

end Sys2Proof.Machine
end

section
/-! SUPPORT. Every step keeps every store in canonical form: the lemma of each command, and the idle step. -/

namespace Sys2Proof.Machine

open Sys2Proof

/-- Every command keeps every store in canonical form. -/
theorem exec_canon (c : Instr) (s t : State) : exec c s = .next t → s.Canon → t.Canon := by
  cases c with
  | sqDoorbell queue pointer => exact execSqDoorbell_canon queue pointer s t
  | cqDoorbell queue pointer => exact execCqDoorbell_canon queue pointer s t
  | sqFetch => exact execSqFetch_canon s t
  | nop j => exact execNop_canon j s t
  | submitBarge j => exact execSubmitBarge_canon j s t
  | admitRequest j => exact execAdmitRequest_canon j s t
  | cancelRequest j => exact execCancelRequest_canon j s t
  | configEpoch j => exact execConfigEpoch_canon j s t
  | configEpochComplete j => exact execConfigEpochComplete_canon j s t
  | fence j => exact execFence_canon j s t
  | fenceComplete j => exact execFenceComplete_canon j s t
  | create j => exact execCreate_canon j s t
  | replace j => exact execReplace_canon j s t
  | replaceTakeEffect j => exact execReplaceTakeEffect_canon j s t
  | delete j => exact execDelete_canon j s t
  | deleteTakeEffect j => exact execDeleteTakeEffect_canon j s t
  | writeRows j => exact execWriteRows_canon j s t
  | readRows j => exact execReadRows_canon j s t
  | adapterFlip j => exact execAdapterFlip_canon j s t
  | flipTakeEffect j => exact execFlipTakeEffect_canon j s t
  | flipComplete j => exact execFlipComplete_canon j s t
  | trainHoldRelease j => exact execTrainHoldRelease_canon j s t
  | cqRecordWrite cq => exact execCqRecordWrite_canon cq s t
  | coalTimeExpiry cq => exact execCoalTimeExpiry_canon cq s t
  | maintEntry => exact execMaintEntry_canon s t
  | mm b k => exact execMm_canon b k s t
  | delta b k => exact execDelta_canon b k s t
  | deltaBackward b k => exact execDeltaBackward_canon b k s t
  | attn b k => exact execAttn_canon b k s t
  | kvAppend b k => exact execKvAppend_canon b k s t
  | kvCommit b k => exact execKvCommit_canon b k s t
  | vec b k => exact execVec_canon b k s t
  | conv b k => exact execConv_canon b k s t
  | gather b k => exact execGather_canon b k s t
  | prefetch b k => exact execPrefetch_canon b k s t
  | pool b k => exact execPool_canon b k s t
  | sgrad b k => exact execSgrad_canon b k s t
  | update b k => exact execUpdate_canon b k s t
  | coll b k => exact execColl_canon b k s t
  | sealColl b k => exact execSeal_canon b k s t
  | barrier b k => exact execBarrier_canon b k s t
  | lockMark b k => exact execLockMark_canon b k s t
  | confirm b k => exact execConfirm_canon b k s t
  | savePoint b k => exact execSavePoint_canon b k s t
  | opFence b k => exact execOpFence_canon b k s t
  | wait b k => exact execWait_canon b k s t
  | waitLimitExpiry b k => exact execWaitLimitExpiry_canon b k s t
  | signal b k => exact execSignal_canon b k s t
  | opComplete b k => exact execOpComplete_canon b k s t
  | commitUnit b k u => exact execCommitUnit_canon b k u s t
  | manifestClose m => exact execManifestClose_canon m s t
  | bargePlacement => exact execBargePlacement_canon s t
  | wakeComplete r => exact execWakeComplete_canon r s t
  | imageLoadComplete b => exact execImageLoadComplete_canon b s t
  | bargeEnd b => exact execBargeEnd_canon b s t
  | napEntry r => exact execNapEntry_canon r s t
  | offEntry r => exact execOffEntry_canon r s t
  | preempt mask => exact execPreempt_canon mask s t
  | hold mask => exact execHold_canon mask s t
  | release mask => exact execRelease_canon mask s t
  | saveComplete b => exact execSaveComplete_canon b s t
  | restoreComplete b => exact execRestoreComplete_canon b s t
  | preemptOverdue b => exact execPreemptOverdue_canon b s t
  | tollRefill => exact execTollRefill_canon s t
  | tollReport => exact execTollReport_canon s t
  | skewWindowEnd => exact execSkewWindowEnd_canon s t
  | formerExpiry table => exact execFormerExpiry_canon table s t
  | goneExpiry table row => exact execGoneExpiry_canon table row s t
  | provisionalProbe table row => exact execProvisionalProbe_canon table row s t
  | rowRead p => exact execRowRead_canon p s t
  | versionProbe p => exact execVersionProbe_canon p s t
  | row p => exact execRow_canon p s t
  | current p => exact execCurrent_canon p s t
  | forward p => exact execForward_canon p s t
  | notOwner p => exact execNotOwner_canon p s t
  | rowUpdate p => exact execRowUpdate_canon p s t
  | merged p => exact execMerged_canon p s t
  | stale p => exact execStale_canon p s t
  | route p => exact execRoute_canon p s t
  | rowOffer p => exact execRowOffer_canon p s t
  | state p => exact execState_canon p s t
  | moveConfirm p => exact execMoveConfirm_canon p s t
  | query p => exact execQuery_canon p s t
  | accept p => exact execAccept_canon p s t
  | refuse p => exact execRefuse_canon p s t
  | stored p => exact execStored_canon p s t
  | held p => exact execHeld_canon p s t
  | notHeld p => exact execNotHeld_canon p s t
  | read p => exact execRead_canon p s t
  | write p => exact execWrite_canon p s t
  | fetchAdd p => exact execFetchAdd_canon p s t
  | test p => exact execTest_canon p s t
  | response p => exact execResponse_canon p s t
  | packetForward port p => exact execPacketForward_canon port p s t
  | transactionTimeout tag => exact execTransactionTimeout_canon tag s t
  | tagQuarantineExpiry tag => exact execTagQuarantineExpiry_canon tag s t
  | heldRequestDiscard k => exact execHeldRequestDiscard_canon k s t
  | data port flit mark => exact execData_canon port flit mark s t
  | nak port flit => exact execNak_canon port flit s t
  | credit port flit => exact execCredit_canon port flit s t
  | idle port flit => exact execIdle_canon port flit s t
  | linkInit port flit => exact execLinkInit_canon port flit s t
  | replayTimeout port => exact execReplayTimeout_canon port s t
  | pcsLock port => exact execPcsLock_canon port s t
  | pcsLockLoss port => exact execPcsLockLoss_canon port s t
  | retrainRelease port => exact execRetrainRelease_canon port s t
  | arrive p => exact execArrive_canon p s t
  | grant p => exact execGrant_canon p s t
  | offer p => exact execOffer_canon p s t
  | segment p => exact execSegment_canon p s t
  | bellBarrier p => exact execBellBarrier_canon p s t
  | scalar p => exact execScalar_canon p s t
  | bellSeal p => exact execBellSeal_canon p s t
  | abort p => exact execAbort_canon p s t
  | abandon p => exact execAbandon_canon p s t
  | collPiece p => exact execCollPiece_canon p s t
  | pieceTimeout ctx => exact execPieceTimeout_canon ctx s t
  | sealTimeout level seq => exact execSealTimeout_canon level seq s t
  | bellResend k => exact execBellResend_canon k s t
  | collLimitExpiry b k => exact execCollLimitExpiry_canon b k s t
  | powerOn => exact execPowerOn_canon s t
  | brownOut => exact execBrownOut_canon s t
  | pinReset => exact execPinReset_canon s t
  | watchdog => exact execWatchdog_canon s t
  | swReset data => exact execSwReset_canon data s t
  | engReset => exact execEngReset_canon s t
  | clockFailure c => exact execClockFailure_canon c s t
  | lockUp => exact execLockUp_canon s t
  | resetRelease strapMv => exact execResetRelease_canon strapMv s t
  | pllLock clock => exact execPllLock_canon clock s t
  | monitorWindow clock count => exact execMonitorWindow_canon clock count s t
  | memPortReady port => exact execMemPortReady_canon port s t
  | ctrlParityError u => exact execCtrlParityError_canon u s t
  | wdtKick data => exact execWdtKick_canon data s t
  | isolate page => exact execIsolate_canon page s t
  | plankIn page => exact execPlankIn_canon page s t
  | resetReq page => exact execResetReq_canon page s t
  | sectorReadComplete sector d => exact execSectorReadComplete_canon sector d s t
  | sectorWriteResponse port err => exact execSectorWriteResponse_canon port err s t
  | hostReadData addr data err => exact execHostReadData_canon addr data err s t
  | hostWriteAck tag err => exact execHostWriteAck_canon tag err s t
  | vectorUnmask v => exact execVectorUnmask_canon v s t
  | imHoldRelease => exact execImHoldRelease_canon s t
  | configCommit page seq => exact execConfigCommit_canon page seq s t
  | commitTakeEffect page => exact execCommitTakeEffect_canon page s t
  | rowInitClearDone => exact execRowInitClearDone_canon s t
  | injectSram page data => exact execInjectSram_canon page data s t
  | injectSector data => exact execInjectSector_canon data s t
  | injectTag data => exact execInjectTag_canon data s t
  | injectFlitCrc data => exact execInjectFlitCrc_canon data s t
  | injectPiece data => exact execInjectPiece_canon data s t
  | injectCtrl page data => exact execInjectCtrl_canon page data s t
  | injectClock page data => exact execInjectClock_canon page data s t
  | keeperEnable => exact execKeeperEnable_canon s t
  | imemDataWrite data => exact execImemDataWrite_canon data s t
  | imemDataRead => exact execImemDataRead_canon s t
  | peek data => exact execPeek_canon data s t
  | peekComplete => exact execPeekComplete_canon s t
  | towpath dr => exact execTowpath_canon dr s t
  | idcode => exact execIdcode_canon s t
  | bypass ir => exact execBypass_canon ir s t
  | unmappedAccess addr we => exact execUnmappedAccess_canon addr we s t
  | counterReadClear addr => exact execCounterReadClear_canon addr s t
  | registerWrite addr data => exact execRegisterWrite_canon addr data s t
  | vbakLoss => exact execVbakLoss_canon s t
  | regionPllLockLoss r => exact execRegionPllLockLoss_canon r s t
  | errWindowEnd => exact execErrWindowEnd_canon s t
  | w1cWrite addr data => exact execW1cWrite_canon addr data s t
  | watchdogEnable data => exact execWatchdogEnable_canon data s t
  | tapReset => exact execTapReset_canon s t

/-- The command queue is no store. -/
theorem State.Canon.withPending {s : State} (h : s.Canon) (l : List Instr) : State.Canon { s with pending := l } :=
  ⟨h.regs, h.ext, h.tags, h.hostMem, h.scratch, h.pool, h.pound, h.marks, h.imem⟩

theorem step_of_idle {s : State} (h : s.pending = []) : step s = .next (tick s) := by rw [step, h]

theorem step_of_front {s : State} {c : Instr} {rest : List Instr} (h : s.pending = c :: rest) :
    step s = exec c { s with pending := rest } := by rw [step, h]

/-- Settles O3: a step is idle, or runs one command on the state with the queue's rest. -/
theorem stepKeepsStoresCanonical : Obligations.StepKeepsStoresCanonical := by
  intro s t hcanon hstep
  cases hqueue : s.pending with
  | nil =>
    rw [step_of_idle hqueue] at hstep
    cases hstep
    exact tick_canon s hcanon
  | cons c rest =>
    rw [step_of_front hqueue] at hstep
    exact exec_canon c _ t hstep (hcanon.withPending rest)

end Sys2Proof.Machine
end

section
/-! SUPPORT. The memory ports and the host DMA port (R402, R403, R405, R432, R436, R441): what the counters of a port, the counts of
ERR and the tag of a sector read as after a sector, a write response or a host read unit has arrived. -/

namespace Sys2Proof.Machine

open Sys2Proof

/-! ### The counters of a memory port (R441) -/

/-- Counter `k` of memory port `p`. -/
def State.portCtr (s : State) (p k : Nat) : Nat := SMap.get (fun _ => 0) s.memCounts (p * 16 + k)

theorem State.portCtr_congr {s t : State} (h : t.memCounts = s.memCounts) (p k : Nat) : t.portCtr p k = s.portCtr p k := by
  rw [State.portCtr, h, State.portCtr]

theorem State.portCtr_memCount_self (s : State) (p k : Nat) : (s.memCount p k).portCtr p k = satAdd 32 (s.portCtr p k) 1 :=
  SMap.get_put_self _ _ _ _

theorem State.portCtr_memCount_other (s : State) (p : Nat) {j k : Nat} (h : j ≠ k) : (s.memCount p k).portCtr p j = s.portCtr p j :=
  SMap.get_put_other _ _ _ _ _ (by omega)

theorem State.portCtr_err (s : State) (P b p k : Nat) : (s.err P b).portCtr p k = s.portCtr p k :=
  State.portCtr_congr (State.memCounts_of_mask (M := { regs := true, hq := true }) (s.err_mask _ rfl rfl P b) rfl) p k

theorem State.portCtr_poisoning (s : State) (P b p k : Nat) : (s.poisoning P b).portCtr p k = s.portCtr p k :=
  State.portCtr_congr (State.memCounts_of_mask (M := { regs := true, hq := true }) (s.poisoning_mask _ rfl rfl P b) rfl) p k

/-! ### The counts of ERR -/

/-- An error flag of any page leaves the registers of ERR above ERR_COUNT. -/
theorem State.reg_err_counts (s : State) (P b : Nat) {x : Nat} (hx : oERR_COUNT < x) (hx' : x < 0x1000) :
    (s.err P b).reg pERR x = s.reg pERR x := by
  by_cases hP : pERR = P
  · subst hP
    exact s.reg_err_same b (by decide) (by decide) hx hx'
  · exact s.reg_err_page b hP (by decide) (by decide) hx'

theorem State.regN_err_counts (s : State) (P b : Nat) {x : Nat} (hx : oERR_COUNT < x) (hx' : x < 0x1000) :
    (s.err P b).regN pERR x = s.regN pERR x :=
  congrArg BitVec.toNat (s.reg_err_counts P b hx hx')

theorem State.regN_count_other (s : State) {P o Q x : Nat} (n : Nat) (h : Q * 0x1000 + x ≠ P * 0x1000 + o) :
    (s.count P o n).regN Q x = s.regN Q x :=
  congrArg BitVec.toNat (s.reg_count_other n h)

/-- A poisoning event counts once in UE_COUNT (R405). -/
theorem State.ueCount_poisoning (s : State) (P b : Nat) : (s.poisoning P b).regN pERR 0xF18 = satAdd 32 (s.regN pERR 0xF18) 1 := by
  rw [State.poisoning, State.regN_err_counts _ _ _ (by decide) (by decide), State.regN_err_counts _ _ _ (by decide) (by decide),
    State.regN_count_self]

/-- A correction counts once in CE_COUNT (R403). -/
theorem State.ceCount_corrected (s : State) (P b : Nat) : (s.corrected P b).regN pERR 0xF14 = satAdd 32 (s.regN pERR 0xF14) 1 := by
  rw [State.corrected, State.regN_err_counts _ _ _ (by decide) (by decide), State.regN_count_self]

theorem State.ueCount_corrected (s : State) (P b : Nat) : (s.corrected P b).regN pERR 0xF18 = s.regN pERR 0xF18 := by
  rw [State.corrected, State.regN_err_counts _ _ _ (by decide) (by decide), State.regN_count_other _ 1 (by decide)]

/-! ### A sector that arrives (R402, R405) -/

@[simp] theorem State.tag_setTag (s : State) (k : Nat) (t : Tag) : (s.setTag k t).tag k = t := SMap.get_put_self _ _ _ _

/-- From `s` to `t` a sector of port `p` has been judged: memory and the port's count of reads stay. -/
structure Judged (p : Nat) (s t : State) : Prop where
  ext : t.ext = s.ext
  reads : t.portCtr p 0 = s.portCtr p 0

theorem Judged.trans {p : Nat} {s t u : State} (h : Judged p s t) (g : Judged p t u) : Judged p s u :=
  ⟨g.ext.trans h.ext, g.reads.trans h.reads⟩

theorem Judged.refl (p : Nat) (s : State) : Judged p s s := ⟨rfl, rfl⟩

theorem State.memCount_judged (s : State) (p : Nat) {k : Nat} (h : 0 ≠ k) : Judged p s (s.memCount p k) :=
  ⟨rfl, s.portCtr_memCount_other p h⟩

theorem State.setTag_judged (s : State) (p k : Nat) (t : Tag) : Judged p s (s.setTag k t) := ⟨rfl, rfl⟩

theorem State.count_judged (s : State) (p P o n : Nat) : Judged p s (s.count P o n) :=
  ⟨State.ext_of_mask (M := { regs := true }) (s.count_mask _ rfl P o n) rfl,
    State.portCtr_congr (State.memCounts_of_mask (M := { regs := true }) (s.count_mask _ rfl P o n) rfl) p 0⟩

theorem State.err_judged (s : State) (p P b : Nat) : Judged p s (s.err P b) :=
  ⟨State.ext_of_mask (M := { regs := true, hq := true }) (s.err_mask _ rfl rfl P b) rfl, s.portCtr_err P b p 0⟩

theorem State.poisoning_judged (s : State) (p P b : Nat) : Judged p s (s.poisoning P b) :=
  ((s.count_judged p pERR 0xF18 1).trans (State.err_judged _ p P b)).trans (State.err_judged _ p pERR 0)

/-- A burst that came with an error is counted at its port and sets MEM's flag. -/
def State.burstEnd (s : State) (p : Nat) (rdErr : Bool) : State := if rdErr then (s.memCount p 5).err pMEM 2 else s

/-- A sector's bytes are stored, and its read is counted. -/
def State.sectorStored (s : State) (k : Nat) (bs : List Byte) : State :=
  State.memCount { s with ext := Mem.write s.ext (512 * k) bs } (s.portOf k) 0

/-- The sector as it arrives, before its tag and its codes are judged. -/
def State.sectorIn (s : State) (k : Nat) (bs : List Byte) (e : Bool) : State := (s.sectorStored k bs).burstEnd (s.portOf k) e

/-- The sector's tag names a row and fails its check (R200). -/
def tagFails (d : SectorData) (t : Tag) : Bool := t.kind != 0 && (!d.tagOk || t.bad)

/-- The burst came with an error, or its codes cannot correct it. -/
def sectorLost (d : SectorData) (t : Tag) : Bool := d.rdErr || (!d.poisoned && (allSymbols d t).any (5 < ·))

/-- The judgement of a sector whose tag was `t`. -/
def State.judgeSector (s : State) (k : Nat) (d : SectorData) (t : Tag) : State :=
  if tagFails d t && !t.poison then (s.memCount (s.portOf k) 3).tagFault k
  else if sectorLost d t then s.poisonSector k
  else if d.poisoned || tagFails d t then (s.memCount (s.portOf k) 3).setTag k { t with poison := true, latent := 0 }
  else (s.correctSector k (allSymbols d t)).setTag k { t with poison := false, latent := 0 }

theorem State.burstEnd_mask (s : State) (p : Nat) (e : Bool) :
    (s.burstEnd p e).mask { regs := true, hq := true, memCounts := true } = s.mask { regs := true, hq := true, memCounts := true } := by
  simp [State.burstEnd]

/-- A burst leaves ERR's counts. -/
theorem State.burstEnd_counts (s : State) (p : Nat) (e : Bool) {x : Nat} (hx : oERR_COUNT < x) (hx' : x < 0x1000) :
    (s.burstEnd p e).regN pERR x = s.regN pERR x := by
  cases e with
  | false => rfl
  | true => exact State.regN_err_counts _ _ _ hx hx'

theorem State.burstEnd_portCtr (s : State) (p : Nat) (e : Bool) {k : Nat} (h : k ≠ 5) : (s.burstEnd p e).portCtr p k = s.portCtr p k := by
  cases e with
  | false => rfl
  | true => exact (State.portCtr_err _ _ _ _ _).trans (s.portCtr_memCount_other p h)

section

variable (s : State) (k : Nat) (bs : List Byte) (e : Bool)

theorem State.sectorIn_params : (s.sectorIn k bs e).params = s.params := by
  rw [State.sectorIn, State.params_of_mask (State.burstEnd_mask _ _ _) rfl]
  rfl

theorem State.sectorIn_tag : (s.sectorIn k bs e).tag k = s.tag k := by
  rw [State.tag, State.sectorIn, State.tags_of_mask (State.burstEnd_mask _ _ _) rfl]
  rfl

theorem State.sectorIn_ext : (s.sectorIn k bs e).ext = s.ext.write (512 * k) bs := State.ext_of_mask (State.burstEnd_mask _ _ _) rfl

theorem State.sectorIn_counts {x : Nat} (hx : oERR_COUNT < x) (hx' : x < 0x1000) : (s.sectorIn k bs e).regN pERR x = s.regN pERR x :=
  State.burstEnd_counts _ _ _ hx hx'

theorem State.sectorIn_reads : (s.sectorIn k bs e).portCtr (s.portOf k) 0 = satAdd 32 (s.portCtr (s.portOf k) 0) 1 :=
  (State.burstEnd_portCtr _ _ _ (by decide)).trans (State.portCtr_memCount_self _ _ _)

theorem State.sectorIn_rewrites : (s.sectorIn k bs e).portCtr (s.portOf k) 4 = s.portCtr (s.portOf k) 4 :=
  (State.burstEnd_portCtr _ _ _ (by decide)).trans (State.portCtr_memCount_other _ _ (by decide))

end

theorem State.sectorRead_eq (s : State) (k : Nat) (d : SectorData) : s.sectorRead k d
    = if s.populated ≤ 512 * k then s else (s.sectorIn k (sectorBytes d) d.rdErr).judgeSector k d (s.tag k) := by
  have hport : ∀ bs e, (s.sectorIn k bs e).portOf k = s.portOf k := fun bs e => by rw [State.portOf, State.sectorIn_params, State.portOf]
  rw [State.judgeSector, hport]
  rfl

theorem exec_sectorReadComplete {s : State} (hup : s.up = true) (k : Nat) (d : SectorData) :
    exec (.sectorReadComplete k d) s = .next (s.sectorRead k d) := State.engine_up hup fun s => s.sectorRead k d

/-! ### How a sector is judged -/

section

variable (s : State) (k : Nat)

theorem State.tagFault_judged (p : Nat) : Judged p s (s.tagFault k) :=
  (((s.count_judged p pROW 0xF40 1).trans (State.err_judged _ p pROW 1)).trans (State.poisoning_judged _ p pMEM 1)).trans
    (State.setTag_judged _ p k _)

theorem State.ueCount_tagFault : (s.tagFault k).regN pERR 0xF18 = satAdd 32 (s.regN pERR 0xF18) 1 := by
  have hpoison := ((s.count pROW 0xF40).err pROW 1).ueCount_poisoning pMEM 1
  rw [State.regN_err_counts _ _ _ (by decide) (by decide), State.regN_count_other _ 1 (by decide)] at hpoison
  exact hpoison

theorem State.tagFault_poison : ((s.tagFault k).tag k).poison = true := by rw [State.tagFault, State.tag_setTag]

/-- A sector found poisoned already is no new event. -/
theorem State.poisonSector_again (h : (s.tag k).poison = true) : s.poisonSector k = s.memCount (s.portOf k) 3 := by
  simp [State.poisonSector, h]

theorem State.poisonSector_new (h : (s.tag k).poison = false) :
    s.poisonSector k = ((s.memCount (s.portOf k) 3).poisoning pMEM 1).setTag k { s.tag k with poison := true, latent := 0 } := by
  simp [State.poisonSector, h]

theorem State.poisonSector_judged : Judged (s.portOf k) s (s.poisonSector k) := by
  have hcount := s.memCount_judged (s.portOf k) (k := 3) (by decide)
  cases h : (s.tag k).poison with
  | true => rwa [s.poisonSector_again k h]
  | false =>
    rw [s.poisonSector_new k h]
    exact (hcount.trans (State.poisoning_judged _ _ pMEM 1)).trans (State.setTag_judged _ _ k _)

theorem State.poisonSector_poison : ((s.poisonSector k).tag k).poison = true := by
  cases h : (s.tag k).poison with
  | true => rw [s.poisonSector_again k h]; exact h
  | false => rw [s.poisonSector_new k h, State.tag_setTag]

theorem State.ueCount_poisonSector : (s.poisonSector k).regN pERR 0xF18
    = if (s.tag k).poison then s.regN pERR 0xF18 else satAdd 32 (s.regN pERR 0xF18) 1 := by
  cases h : (s.tag k).poison with
  | true => rw [s.poisonSector_again k h]; rfl
  | false =>
    rw [s.poisonSector_new k h]
    exact (s.memCount (s.portOf k) 3).ueCount_poisoning pMEM 1

variable (sym : List Nat)

/-- What a correction counts at its port (R403). -/
theorem State.correctSector_judged : Judged (s.portOf k) s (s.correctSector k sym) := by
  have hfixed : Judged (s.portOf k) s ((s.corrected pMEM 0).memCount (s.portOf k) 2) :=
    ((s.count_judged _ pERR 0xF14 1).trans (State.err_judged _ _ pMEM 0)).trans (State.memCount_judged _ _ (by decide))
  unfold State.correctSector
  simp only []
  split
  · exact .refl _ s
  · split
    · exact hfixed.trans (State.memCount_judged _ _ (by decide))
    · exact hfixed

theorem State.ueCount_correctSector : (s.correctSector k sym).regN pERR 0xF18 = s.regN pERR 0xF18 := by
  unfold State.correctSector
  simp only []
  split
  · rfl
  · split
    · exact s.ueCount_corrected pMEM 0
    · exact s.ueCount_corrected pMEM 0

theorem State.ceCount_correctSector (h : sym.all (· == 0) = false) :
    (s.correctSector k sym).regN pERR 0xF14 = satAdd 32 (s.regN pERR 0xF14) 1 := by
  unfold State.correctSector
  simp only [h, Bool.false_eq_true, if_false]
  split
  · exact s.ceCount_corrected pMEM 0
  · exact s.ceCount_corrected pMEM 0

theorem State.correctSector_rewrites (h : sym.all (· == 0) = false) (hbad : sym.any (3 ≤ ·) = true) :
    (s.correctSector k sym).portCtr (s.portOf k) 4 = satAdd 32 (s.portCtr (s.portOf k) 4) 1 := by
  simp only [State.correctSector, h, hbad, Bool.false_eq_true, if_false, if_true]
  rw [State.portCtr_memCount_self, State.portCtr_memCount_other _ _ (by decide), State.corrected, State.portCtr_err,
    State.portCtr_congr (State.memCounts_of_mask (M := { regs := true }) (s.count_mask _ rfl pERR 0xF14 1) rfl)]

end

/-! ### The symbols of the four codewords -/

theorem any_allSymbols (d : SectorData) (t : Tag) (f : Nat → Bool) :
    (allSymbols d t).any f = true ↔ ∃ j, j < 4 ∧ f (sectorSymbols d t j) = true := by simp [allSymbols]

theorem allSymbols_all_zero (d : SectorData) (t : Tag) :
    (allSymbols d t).all (· == 0) = false ↔ ∃ j, j < 4 ∧ sectorSymbols d t j ≠ 0 := by
  rw [List.all_eq_false]
  simp [allSymbols]

theorem tagFails_iff (d : SectorData) (t : Tag) : tagFails d t = true ↔ t.kind ≠ 0 ∧ (d.tagOk = false ∨ t.bad = true) := by
  simp [tagFails]

theorem sectorLost_iff (d : SectorData) (t : Tag) :
    sectorLost d t = true ↔ d.rdErr = true ∨ (d.poisoned = false ∧ ∃ j, j < 4 ∧ 5 < sectorSymbols d t j) := by
  simp only [sectorLost, Bool.or_eq_true, Bool.and_eq_true, Bool.not_eq_true', any_allSymbols, decide_eq_true_eq]

/-! ### The outcome of a sector's judgement -/

section

variable {s : State} {k : Nat} {d : SectorData} {t : Tag}

theorem State.judgeSector_judged : Judged (s.portOf k) s (s.judgeSector k d t) := by
  have hcount := s.memCount_judged (s.portOf k) (k := 3) (by decide)
  unfold State.judgeSector
  split
  · exact hcount.trans (State.tagFault_judged _ k _)
  · split
    · exact s.poisonSector_judged k
    · split
      · exact hcount.trans (State.setTag_judged _ _ k _)
      · exact (s.correctSector_judged k _).trans (State.setTag_judged _ _ k _)

theorem State.judgeSector_poison :
    ((s.judgeSector k d t).tag k).poison = (tagFails d t || sectorLost d t || d.poisoned) := by
  unfold State.judgeSector
  split
  · rename_i hfault
    simp only [Bool.and_eq_true] at hfault
    rw [State.tagFault_poison, hfault.1]
    simp
  · split
    · rename_i hlost
      simp [State.poisonSector_poison, hlost]
    · rename_i hlost
      split
      · rename_i hbad
        rw [State.tag_setTag]
        simpa [hlost, or_comm] using hbad
      · rename_i hgood
        rw [State.tag_setTag]
        simpa [hlost, and_comm] using hgood

/-- A poisoning counts once in UE_COUNT where the sector was not poisoned before (R405). -/
theorem State.judgeSector_ueCount (ht : s.tag k = t) : (s.judgeSector k d t).regN pERR 0xF18
    = if !t.poison && (tagFails d t || sectorLost d t) then satAdd 32 (s.regN pERR 0xF18) 1 else s.regN pERR 0xF18 := by
  unfold State.judgeSector
  split
  · rename_i hfault
    simp only [Bool.and_eq_true, Bool.not_eq_true'] at hfault
    simp only [hfault, Bool.not_false, Bool.true_or, Bool.and_self, if_true]
    exact (s.memCount (s.portOf k) 3).ueCount_tagFault k
  · rename_i hfault
    split
    · rename_i hlost
      rw [State.ueCount_poisonSector, ht, hlost]
      cases t.poison <;> simp
    · rename_i hlost
      have hnone : (!t.poison && (tagFails d t || sectorLost d t)) = false := by
        simp only [Bool.and_eq_true, Bool.not_eq_true', not_and, Bool.not_eq_false] at hfault hlost ⊢
        rw [Bool.eq_false_iff.2 hlost]
        cases hfails : tagFails d t with
        | true => simp [hfault hfails]
        | false => simp
      rw [hnone, if_neg Bool.false_ne_true]
      split
      · rfl
      · exact s.ueCount_correctSector k _

/-- A sector whose codes correct it counts its correction, and a rewrite where a codeword had 3 or more symbols in error (R403). -/
theorem State.judgeSector_corrects (hsyndrome : d.poisoned = false) (hfails : tagFails d t = false) (hlost : sectorLost d t = false)
    (hsome : (allSymbols d t).all (· == 0) = false) :
    (s.judgeSector k d t).regN pERR 0xF14 = satAdd 32 (s.regN pERR 0xF14) 1
      ∧ ((allSymbols d t).any (3 ≤ ·) = true →
        (s.judgeSector k d t).portCtr (s.portOf k) 4 = satAdd 32 (s.portCtr (s.portOf k) 4) 1) := by
  have hjudge : s.judgeSector k d t = (s.correctSector k (allSymbols d t)).setTag k { t with poison := false, latent := 0 } := by
    simp [State.judgeSector, hsyndrome, hfails, hlost]
  rw [hjudge]
  exact ⟨s.ceCount_correctSector k _ hsome, fun hbad => s.correctSector_rewrites k _ hsome hbad⟩

end

/-! ### Write responses and host read units -/

theorem exec_sectorWriteResponse {s : State} (hup : s.up = true) (p : Nat) (e : Bool) :
    exec (.sectorWriteResponse p e) s = .next (s.sectorWritten p e) := State.engine_up hup fun s => s.sectorWritten p e

/-- A write response is counted at its port (R436, R441). -/
theorem State.sectorWritten_good {s : State} {p : Nat} (h : p < s.params.memPorts) : s.sectorWritten p false = s.memCount p 1 := by
  simp [State.sectorWritten, Nat.not_le.2 h]

/-- One that reports an error counts it too, and sets MEM's flag. -/
theorem State.sectorWritten_bad {s : State} {p : Nat} (h : p < s.params.memPorts) :
    s.sectorWritten p true = ((s.memCount p 1).memCount p 6).err pMEM 3 := by
  simp [State.sectorWritten, Nat.not_le.2 h]

theorem exec_hostReadData {s : State} (hup : s.up = true) (a : Nat) (d : BitVec 512) (e : Bool) :
    exec (.hostReadData a d e) s = .next (s.hostUnit a d e) := State.engine_up hup fun s => s.hostUnit a d e

/-- The unit's bytes are there, and it is marked exactly if it came with an error. -/
def State.unitIn (s : State) (a : Nat) (d : BitVec 512) (e : Bool) : State :=
  let rest := s.hq.badUnits.filter (· != a / 64)
  { s with
    hostMem := s.hostMem.putNat (64 * (a / 64)) 64 d.toNat
    hq := { s.hq with badUnits := if e then a / 64 :: rest else rest } }

theorem State.mem_unitIn_badUnits (s : State) (a : Nat) (d : BitVec 512) (e : Bool) (u : Nat) :
    u ∈ (s.unitIn a d e).hq.badUnits ↔ if u = a / 64 then e = true else u ∈ s.hq.badUnits := by
  cases e <;> by_cases hu : u = a / 64 <;> simp [State.unitIn, hu]

/-- The events of a unit that came with an error (R432). -/
def State.unitFails (s : State) : State := ((s.count pGLB 0xF80).err pGLB 0).poisoningEngine

theorem State.hostUnit_clean (s : State) (a : Nat) (d : BitVec 512) : s.hostUnit a d false = s.unitIn a d false := rfl

theorem State.hostUnit_failed (s : State) (a : Nat) (d : BitVec 512) : s.hostUnit a d true = (s.unitIn a d true).unitFails := rfl

/-- An interrupt message changes no register of the pages but GLB's message counter (R429). -/
theorem State.reg_raise_off (s : State) (v : Nat) (tags : List Nat) {Q x : Nat} (hne : Q * 0x1000 + x ≠ 0xF8C)
    (hx : Q * 0x1000 + x < 0xF1000) : (s.raise v tags).reg Q x = s.reg Q x := by
  have hsend : ∀ u : State, (u.sendIrq v).reg Q x = u.reg Q x := fun u =>
    State.reg_count_other _ 1 (by simp only [pGLB]; omega)
  unfold State.raise State.raiseNow
  split
  · split
    · exact SMap.get_put_other _ _ _ _ _ (by omega)
    · exact hsend s
  · rfl

/-- What an error flag leaves of GLB: what its own page's flag leaves. -/
theorem State.reg_err_glb (s : State) (P b : Nat) {x : Nat} (hne : x ≠ 0xF8C) (hx : x < 0x1000) :
    (s.err P b).reg pGLB x = (s.flagged P b).reg pGLB x := by
  obtain h | h := s.err_flagged P b
  · rw [h]
  · rw [h, State.reg_raise_off _ _ _ (by simp only [pGLB]; omega) (by simp only [pGLB]; omega)]

/-- An error flag of another page leaves GLB's registers but the message counter. -/
theorem State.reg_err_glb_page (s : State) {P : Nat} (b : Nat) {x : Nat} (hP : 0 < P) (hne : x ≠ 0xF8C) (hx : x < 0x1000) :
    (s.err P b).reg pGLB x = s.reg pGLB x := by
  rw [s.reg_err_glb P b hne hx]
  apply State.reg_flagged_other <;> simp only [pGLB, oERR_STATUS, oERR_FIRST, oERR_COUNT] <;> omega

theorem State.reg_poisoningEngine_glb (s : State) {x : Nat} (hne : x ≠ 0xF8C) (hx : x < 0x1000) :
    s.poisoningEngine.reg pGLB x = s.reg pGLB x := by
  rw [State.poisoningEngine, State.reg_err_glb_page _ 0 (by decide) hne hx, State.reg_count_other _ 1 (by simp only [pGLB, pERR]; omega)]

/-- A failed unit sets GLB's flag, and counts in HDMA_RD_ERRS and UE_COUNT (R432). -/
theorem State.unitFails_spec (s : State) : bitOf (s.unitFails.errStatus pGLB) 0 = true
    ∧ s.unitFails.regN pGLB 0xF80 = satAdd 32 (s.regN pGLB 0xF80) 1 ∧ s.unitFails.regN pERR 0xF18 = satAdd 32 (s.regN pERR 0xF18) 1 := by
  refine ⟨?_, ?_, ?_⟩
  · rw [State.errStatus, State.unitFails, State.reg_poisoningEngine_glb _ (by decide) (by decide),
      State.reg_err_glb _ _ _ (by decide) (by decide), State.reg_flagged_errStatus, bitOf, BitVec.getLsbD_or]
    simp
  · rw [← State.regN_count_self]
    refine congrArg BitVec.toNat ?_
    rw [State.unitFails, State.reg_poisoningEngine_glb _ (by decide) (by decide), State.reg_err_glb _ _ _ (by decide) (by decide)]
    exact State.reg_flagged_other _ (by decide) (by decide) (by decide)
  · rw [State.unitFails, State.poisoningEngine, State.regN_err_counts _ _ _ (by decide) (by decide), State.regN_count_self,
      State.regN_err_counts _ _ _ (by decide) (by decide), State.regN_count_other _ 1 (by decide)]

/-- The events leave host memory and the marks of its units. -/
theorem State.unitFails_kept (s : State) : s.unitFails.hostMem = s.hostMem ∧ s.unitFails.hq.badUnits = s.hq.badUnits := by
  have hmask : s.unitFails.mask { regs := true, hq := true } = s.mask { regs := true, hq := true } := by
    simp [State.unitFails, State.poisoningEngine]
  refine ⟨State.hostMem_of_mask hmask rfl, ?_⟩
  rw [State.unitFails, State.poisoningEngine, State.err_hq, State.count_hq, State.err_hq, State.count_hq]

/-- Settles O55: an arriving sector is put in place and then judged by its tag and its codes; a write response and a host read unit are
counted, the unit with its mark. -/
theorem memoryPortsAndHostReadsArrive : Obligations.MemoryPortsAndHostReadsArrive := by
  refine ⟨fun k d s hup hin => ?_, fun k d s hup hout => ?_, fun p e s hup => ⟨fun hp => ?_, fun hp => ?_⟩, fun a d e s hup => ?_⟩
  · intro p old sym badTag lost
    have hbad : tagFails d old = true ↔ badTag := tagFails_iff d old
    have hlost : sectorLost d old = true ↔ lost := sectorLost_iff d old
    have hread : s.sectorRead k d = (s.sectorIn k (sectorBytes d) d.rdErr).judgeSector k d old := by
      rw [State.sectorRead_eq, if_neg (Nat.not_le.2 hin)]
    generalize hv : s.sectorIn k (sectorBytes d) d.rdErr = v at hread
    have hport : v.portOf k = p := by rw [← hv, State.portOf, State.sectorIn_params]
    have htag : v.tag k = old := by rw [← hv, State.sectorIn_tag]
    have hcounts : ∀ x, oERR_COUNT < x → x < 0x1000 → v.regN pERR x = s.regN pERR x := fun x hx hx' => by
      rw [← hv, State.sectorIn_counts _ _ _ _ hx hx']
    have hrewrites : v.portCtr p 4 = s.portCtr p 4 := by rw [← hv]; exact s.sectorIn_rewrites k _ _
    have hreads : v.portCtr p 0 = satAdd 32 (s.portCtr p 0) 1 := by rw [← hv]; exact s.sectorIn_reads k _ _
    have hext : v.ext = s.ext.putNat (512 * k) 512 d.data.toNat := by rw [← hv, State.sectorIn_ext]; rfl
    have hkept : Judged (v.portOf k) v (v.judgeSector k d old) := State.judgeSector_judged
    have hue := State.judgeSector_ueCount (d := d) htag
    rw [hcounts _ (by decide) (by decide)] at hue
    rw [hport] at hkept
    refine ⟨_, by rw [exec_sectorReadComplete hup, hread], fun i hi => ?_, fun a ha => ?_, hkept.reads.trans hreads, ?_,
      fun hclean hevent => ?_, fun hquiet => ?_, fun hsyndrome hfine hsome => ?_⟩
    · rw [hkept.ext, hext]; exact Mem.get_putNat_inside _ _ _ hi
    · rw [hkept.ext, hext]; exact Mem.get_putNat_outside _ _ ha
    · rw [State.judgeSector_poison, Bool.or_eq_true, Bool.or_eq_true, hbad, hlost, or_assoc]
    · rw [hue, if_pos]
      rw [Bool.and_eq_true, Bool.not_eq_true', Bool.or_eq_true, hbad, hlost]
      exact ⟨hclean, hevent⟩
    · rw [hue, if_neg]
      rw [Bool.and_eq_true, Bool.not_eq_true', Bool.or_eq_true, hbad, hlost]
      rintro ⟨hclean, hevent⟩
      exact hquiet.elim (fun h => absurd (h.symm.trans hclean) (by decide)) fun h => h hevent
    · rw [not_or, ← hbad, ← hlost, Bool.not_eq_true, Bool.not_eq_true] at hfine
      obtain ⟨hfits, hgot⟩ := hfine
      obtain ⟨hce, hrewrite⟩ := State.judgeSector_corrects (s := v) (k := k) hsyndrome hfits hgot ((allSymbols_all_zero d old).2 hsome)
      rw [hcounts _ (by decide) (by decide)] at hce
      rw [hport, hrewrites] at hrewrite
      exact ⟨hce, fun ⟨j, hj, hthree⟩ => hrewrite ((any_allSymbols d old _).2 ⟨j, hj, decide_eq_true hthree⟩)⟩
  · rw [exec_sectorReadComplete hup, State.sectorRead_eq, if_pos hout]
  · rw [exec_sectorWriteResponse hup]
    cases e with
    | false =>
      rw [State.sectorWritten_good hp]
      exact ⟨_, rfl, s.portCtr_memCount_self p 1, nofun, fun _ => rfl, rfl, rfl⟩
    | true =>
      rw [State.sectorWritten_bad hp]
      have hmask : (((s.memCount p 1).memCount p 6).err pMEM 3).mask { regs := true, hq := true, memCounts := true }
          = s.mask { regs := true, hq := true, memCounts := true } := by simp
      have hflag := ((s.memCount p 1).memCount p 6).bitOf_errStatus_err (P := pMEM) (b := 3) (by decide) (by decide) (by decide)
      have hwrites : (((s.memCount p 1).memCount p 6).err pMEM 3).portCtr p 1 = satAdd 32 (s.portCtr p 1) 1 := by
        rw [State.portCtr_err, State.portCtr_memCount_other _ _ (by decide), State.portCtr_memCount_self]
      have herrs : (((s.memCount p 1).memCount p 6).err pMEM 3).portCtr p 6 = satAdd 32 (s.portCtr p 6) 1 := by
        rw [State.portCtr_err, State.portCtr_memCount_self, State.portCtr_memCount_other _ _ (by decide)]
      exact ⟨_, rfl, hwrites, fun _ => ⟨hflag, herrs⟩, nofun, State.ext_of_mask hmask rfl, State.tags_of_mask hmask rfl⟩
  · rw [exec_sectorWriteResponse hup, State.sectorWritten, if_pos hp]
  · rw [exec_hostReadData hup]
    have hmarks := s.mem_unitIn_badUnits a d e
    have hhere : a / 64 ∈ (s.unitIn a d e).hq.badUnits ↔ e = true := by rw [hmarks, if_pos rfl]
    have helse : ∀ u, u ≠ a / 64 → (u ∈ (s.unitIn a d e).hq.badUnits ↔ u ∈ s.hq.badUnits) := fun u hu => by rw [hmarks, if_neg hu]
    have hbytes : (s.unitIn a d e).hostMem = s.hostMem.putNat (64 * (a / 64)) 64 d.toNat := rfl
    have hregs : (s.unitIn a d e).regs = s.regs := rfl
    have hin : ∀ i, i < 64 → (s.unitIn a d e).hostMem.get (64 * (a / 64) + i) = BitVec.ofNat 8 (d.toNat / 256 ^ i) := fun i hi => by
      rw [hbytes]; exact Mem.get_putNat_inside _ _ _ hi
    have hoff : ∀ b, ¬(64 * (a / 64) ≤ b ∧ b < 64 * (a / 64) + 64) → (s.unitIn a d e).hostMem.get b = s.hostMem.get b := fun b hb => by
      rw [hbytes]; exact Mem.get_putNat_outside _ _ hb
    cases e with
    | false =>
      rw [State.hostUnit_clean]
      exact ⟨_, rfl, hin, hoff, hhere, helse, nofun, fun _ => hregs⟩
    | true =>
      rw [State.hostUnit_failed]
      generalize s.unitIn a d true = v at *
      obtain ⟨hhost, hunits⟩ := v.unitFails_kept
      obtain ⟨hflag, hreads, hue⟩ := v.unitFails_spec
      refine ⟨_, rfl, fun i hi => ?_, fun b hb => ?_, ?_, fun u hu => ?_, fun _ => ⟨hflag, ?_, ?_⟩, nofun⟩
      · rw [hhost]; exact hin i hi
      · rw [hhost]; exact hoff b hb
      · rw [hunits]; exact hhere
      · rw [hunits]; exact helse u hu
      · rw [hreads, State.regN, State.reg, hregs, State.regN, State.reg]
      · rw [hue, State.regN, State.reg, hregs, State.regN, State.reg]

end Sys2Proof.Machine
end

section
/-! SUPPORT. Refutations among the table operations. As above, the item is one of an SQ beyond the 64, whose SQn_CTRL is looked for
among MEM's registers: the write of its journal entry poisons a sector, MEM.ERR_STATUS changes, and the record goes to another CQ. -/

namespace Sys2Proof.Machine

open Sys2Proof

/-- The entry of a WRITE_ROWS of no rows. -/
def writeNoRowsEntry : BitVec 512 := BitVec.ofNat 512 (5 + 4 * 2 ^ 64)

/-- Refutes O18: the WRITE_ROWS of COUNT 0 of an SQ beyond the 64 is settled with ZERO, but its record goes to another CQ than its SQ
had. -/
theorem not_writeRowsAndReadRowsSettleOrStop : ¬ Obligations.WriteRowsAndReadRowsSettleOrStop := by
  intro h
  obtain ⟨hzero, -⟩ := h 0 4 (.writeRows 0) (strayItemState .accepted writeNoRowsEntry) (strayItem .accepted writeNoRowsEntry)
    (by decide) ⟨by decide +kernel, by decide +kernel, rfl⟩ (by decide +kernel) (by decide +kernel) (by decide +kernel)
    (.inl ⟨rfl, rfl⟩)
  obtain ⟨u, hexec, hsettled, -⟩ := hzero (by decide +kernel)
  exact not_settled_of_leavesCq0Empty _ _ (by decide +kernel) (by decide +kernel) hexec hsettled

/-- The pause of table 0 that the stray item's DELETE has begun. -/
def strayPause : TablePause := { j := 0, table := 0, replace := false, since := 0, moorings := 0 }

/-- Table 0 has an ACTIVE entry alone, and the stray item's DELETE waits for its pause, which no barge holds up. -/
def strayPauseState : State :=
  { strayItemState .waiting deleteEntry with
    ext := Mem.write [] 0 (leBytes 128 (oneRowSlot 1))
    rows := { pauses := [strayPause] } }

set_option maxRecDepth 20000 in -- the CRC-32C of 124 bytes is evaluated (R193)
/-- Refutes O17: the DELETE of an SQ beyond the 64 takes effect, but its record goes to another CQ than its SQ had. -/
theorem not_drainedPauseDropsTheTablesWork : ¬ Obligations.DrainedPauseDropsTheTablesWork := by
  rintro ⟨h, -⟩
  obtain ⟨-, hdelete⟩ := h 0 strayPauseState (strayItem .waiting deleteEntry) strayPause { id := 0, slot := 0, raw := oneRowSlot 1 }
    (by decide) (by decide +kernel) (by decide +kernel) (by decide +kernel) (by decide +kernel)
  obtain ⟨u, hexec, -, hsettled, -⟩ := hdelete (by decide +kernel)
  exact not_settled_of_leavesCq0Empty _ _ (by decide +kernel) (by decide +kernel) hexec hsettled

end Sys2Proof.Machine
end

section
/-! SUPPORT. Configuration commits (R443, R448, R450, R451): what the end of a wait, a rejection and a switch of banks leave of the page's
registers, and what a commit and its boundary come to. -/

namespace Sys2Proof.Machine

open Sys2Proof

/-! ### The registers of a page -/

theorem State.reg_setReg_page (s : State) (P : Nat) {o x : Nat} (v : Word) (h : x ≠ o) : (s.setReg P o v).reg P x = s.reg P x :=
  s.reg_setReg_other v (by omega)

theorem State.setRegN_regs_congr {s t : State} {P o n : Nat} (h : t.regs = s.regs) : (t.setRegN P o n).regs = (s.setRegN P o n).regs := by
  rw [State.setRegN, State.setReg, h, State.setRegN, State.setReg]

section

variable {s t : State} {P o : Nat} {n : Nat} (h : t.regs = (s.setRegN P o n).regs)
include h

theorem State.reg_of_setRegN_self : t.reg P o = BitVec.ofNat 32 n := by
  rw [State.reg, h]
  exact State.reg_setReg_self _ _ _ _

theorem State.reg_of_setRegN_other {x : Nat} (hx : x ≠ o) : t.reg P x = s.reg P x := by
  rw [State.reg, h]
  exact State.reg_setReg_page _ P _ hx

end

/-- The two states agree in what a page's banks and its pending commit are read from: STATUS, CFG_COMMIT and the fields. -/
def SameBanks (page : Nat) (s t : State) : Prop :=
  ∀ x, x = oSTATUS ∨ x = oCFG_COMMIT ∨ 0x100 ≤ x ∧ x < 0xF00 → t.reg page x = s.reg page x

namespace SameBanks

variable {page : Nat} {s t u : State}

theorem trans (h : SameBanks page s t) (k : SameBanks page t u) : SameBanks page s u := fun x hx => (k x hx).trans (h x hx)

theorem of_regs (h : t.regs = s.regs) : SameBanks page s t := fun x _ => by rw [State.reg, h, State.reg]

theorem bankB (h : SameBanks page s t) : t.bankB page = s.bankB page := by rw [State.bankB, h _ (.inl rfl), State.bankB]

theorem idleBank (h : SameBanks page s t) : t.idleBank page = s.idleBank page := by rw [State.idleBank, h.bankB, State.idleBank]

theorem commitPending (h : SameBanks page s t) : t.commitPending page = s.commitPending page := by
  rw [State.commitPending, h _ (.inr (.inl rfl)), State.commitPending]

theorem cfg (h : SameBanks page s t) {o : Nat} (ho : 0x100 ≤ o) (ho' : o < 0x800) : t.cfg page o = s.cfg page o := by
  rw [State.cfg, h.bankB, h o (.inr (.inr ⟨ho, by omega⟩)), h (o + 0x700) (.inr (.inr ⟨by omega, by omega⟩)), State.cfg]

theorem cfgNew (h : SameBanks page s t) {o : Nat} (ho : 0x100 ≤ o) (ho' : o < 0x800) : t.cfgNew page o = s.cfgNew page o := by
  rw [State.cfgNew, h.bankB, h o (.inr (.inr ⟨ho, by omega⟩)), h (o + 0x700) (.inr (.inr ⟨by omega, by omega⟩)), State.cfgNew]

theorem bankBytes (h : SameBanks page s t) (b : Nat) : t.bankBytes page b = s.bankBytes page b := by
  unfold State.bankBytes State.regN
  refine List.flatMap_congr fun k hk => ?_
  rw [List.mem_range] at hk
  rw [h _ (.inr (.inr (by split <;> omega)))]

end SameBanks

/-- A register of a page that neither bank holds. -/
theorem State.setReg_sameBanks (s : State) (page : Nat) {o : Nat} (v : Word) (h1 : o ≠ oSTATUS) (h2 : o ≠ oCFG_COMMIT) (h3 : o < 0x100) :
    SameBanks page s (s.setReg page o v) := by
  rintro x (rfl | rfl | hx)
  · exact s.reg_setReg_page page v h1.symm
  · exact s.reg_setReg_page page v h2.symm
  · exact s.reg_setReg_page page v (by omega)

/-- Noted events leave the banks of the pages from RST to UPD but ERR. -/
theorem Noted.sameBanks {s t : State} (h : Noted s t) {page : Nat} (h1 : 0 < page) (h2 : page ≠ pERR) (h3 : page < pFAB) : SameBanks page s t := by
  rintro x (rfl | rfl | hx)
  · exact h.reg page _ h1 h2 h3 (.inl rfl) (by decide)
  · exact h.reg page _ h1 h2 h3 (.inr (by decide)) (by decide)
  · exact h.reg page x h1 h2 h3 (.inr (by omega)) hx.2

/-! ### CFG_COMMIT -/

theorem bitOf_ofNat_28 (n : Nat) : bitOf (BitVec.ofNat 32 n) 28 = decide (n / 2 ^ 28 % 2 = 1) := by
  rw [bitOf, BitVec.getLsbD_ofNat, Nat.testBit_eq_decide_div_mod_eq]
  rfl

theorem bitOf_setFld_one (w : Nat) : bitOf (BitVec.ofNat 32 (setFld w 28 28 1)) 28 = true := by
  have hval : setFld w 28 28 1 / 2 ^ 28 % 2 = 1 := by unfold setFld nfld; omega
  rw [bitOf_ofNat_28, decide_eq_true hval]

theorem bitOf_setFld_zero (w : Nat) : bitOf (BitVec.ofNat 32 (setFld w 28 28 0)) 28 = false := by
  have hval : setFld w 28 28 0 / 2 ^ 28 % 2 ≠ 1 := by unfold setFld nfld; omega
  rw [bitOf_ofNat_28, decide_eq_false hval]

theorem State.endPending_regs (s : State) (page : Nat) :
    (s.endPending page).regs = (s.setRegN page oCFG_COMMIT (setFld (s.regN page oCFG_COMMIT) 28 28 0)).regs := by
  unfold State.endPending
  rfl

theorem State.reg_endPending_other (s : State) (page : Nat) {x : Nat} (h : x ≠ oCFG_COMMIT) : (s.endPending page).reg page x = s.reg page x :=
  State.reg_of_setRegN_other (s.endPending_regs page) h

theorem State.commitPending_endPending (s : State) (page : Nat) : (s.endPending page).commitPending page = false := by
  rw [State.commitPending, State.reg_of_setRegN_self (s.endPending_regs page), bitOf_setFld_zero]

/-! ### Rejection (R450, R451) -/

/-- From `s` to `t` the inactive bank of the page has been rejected: the bank in force stays. -/
def BankRejected (page reason o : Nat) (s t : State) : Prop := t.bankB page = s.bankB page
  ∧ t.reg page oCFG_COMMIT = BitVec.ofNat 32 (2 ^ 31 + 2 ^ 29 * reason + 2 ^ 27 * s.idleBank page + o)
  ∧ ∀ q, 0x100 ≤ q → q < 0x800 → t.cfg page q = s.cfg page q

theorem State.rejectBank_regs (s : State) (page reason o : Nat) : (s.rejectBank page reason o).regs
    = ((s.endPending page).setRegN page oCFG_COMMIT (2 ^ 31 + 2 ^ 29 * reason + 2 ^ 27 * s.idleBank page + o)).regs := by
  unfold State.rejectBank
  exact State.setRegN_regs_congr rfl

theorem State.reg_rejectBank_other (s : State) (page reason o : Nat) {x : Nat} (h : x ≠ oCFG_COMMIT) :
    (s.rejectBank page reason o).reg page x = s.reg page x := by
  rw [State.reg_of_setRegN_other (s.rejectBank_regs page reason o) h, s.reg_endPending_other page h]

theorem State.rejectBank_rejected (s : State) (page reason o : Nat) : BankRejected page reason o s (s.rejectBank page reason o) := by
  have hbank : (s.rejectBank page reason o).bankB page = s.bankB page := by
    rw [State.bankB, s.reg_rejectBank_other page reason o (by decide), State.bankB]
  refine ⟨hbank, State.reg_of_setRegN_self (s.rejectBank_regs page reason o), fun q hq hq' => ?_⟩
  rw [State.cfg, hbank, State.reg_rejectBank_other _ _ _ _ (by simp only [oCFG_COMMIT]; omega),
    State.reg_rejectBank_other _ _ _ _ (by simp only [oCFG_COMMIT]; omega), State.cfg]

theorem BankRejected.of_sameBanks {page reason o : Nat} {s u t : State} (h : BankRejected page reason o u t) (hu : SameBanks page s u) :
    BankRejected page reason o s t := by
  obtain ⟨hbank, hcommit, hcfg⟩ := h
  rw [hu.idleBank] at hcommit
  exact ⟨hbank.trans hu.bankB, hcommit, fun q hq hq' => (hcfg q hq hq').trans (hu.cfg hq hq')⟩

/-- A check that is reported beside CFG_COMMIT flags an error of its page (R81, R297). -/
theorem State.noteChecks_sameBanks (s : State) (page : Nat) : SameBanks page s (s.noteChecks page) := by
  unfold State.noteChecks
  split
  · rename_i h
    simp only [Bool.and_eq_true, decide_eq_true_eq] at h
    exact (s.err_noted pTOLL 0).sameBanks (by simp [h, pTOLL]) (by simp [h, pTOLL, pERR]) (by simp [h, pTOLL, pFAB])
  · split
    · rename_i h
      simp only [Bool.and_eq_true, decide_eq_true_eq] at h
      exact (s.err_noted pHQ 4).sameBanks (by simp [h, pHQ]) (by simp [h, pHQ, pERR]) (by simp [h, pHQ, pFAB])
    · exact .of_regs rfl

/-! ### The switch of banks (R451) -/

/-- From `s` to `t` the page's other bank has come into force, with its fields as it held them. -/
def BankSwitched (page : Nat) (s t : State) : Prop := t.bankB page = !s.bankB page ∧ t.commitPending page = false
  ∧ ∀ o, 0x100 ≤ o → o < 0x800 → t.cfg page o = s.cfgNew page o

theorem BankSwitched.of_sameBanks {page : Nat} {s u t v : State} (h : BankSwitched page u t) (hu : SameBanks page s u) (ht : SameBanks page t v) :
    BankSwitched page s v := by
  obtain ⟨hbank, hpend, hcfg⟩ := h
  exact ⟨by rw [ht.bankB, hbank, hu.bankB], ht.commitPending.trans hpend,
    fun o ho ho' => by rw [ht.cfg ho ho', hcfg o ho ho', hu.cfgNew ho ho']⟩

/-- The pending bank in force, before what it does. -/
def State.swapBank (s : State) (page : Nat) : State :=
  let t := s.endPending page
  let t := t.setReg page oSTATUS (t.reg page oSTATUS ^^^ 8)
  let t : State := { t with
    hq := { t.hq with
      activations := SMap.put (fun _ => (0, [])) t.hq.activations (2 * page + s.idleBank page) (t.hq.activationNo + 1, t.startedIds)
      activationNo := t.hq.activationNo + 1 } }
  t.noteBank page (s.idleBank page) true

theorem State.activate_eq (s : State) (page : Nat) : s.activate page = (s.swapBank page).pageEffect s page := rfl

theorem State.swapBank_switched (s : State) (page : Nat) : BankSwitched page s (s.swapBank page) := by
  have hregs : (s.swapBank page).regs = ((s.endPending page).setReg page oSTATUS ((s.endPending page).reg page oSTATUS ^^^ 8)).regs := rfl
  have hother : ∀ x, x ≠ oSTATUS → (s.swapBank page).reg page x = (s.endPending page).reg page x := fun x hx => by
    rw [State.reg, hregs]
    exact State.reg_setReg_page _ page _ hx
  have hstatus : (s.swapBank page).reg page oSTATUS = s.reg page oSTATUS ^^^ 8 := by
    rw [State.reg, hregs, ← s.reg_endPending_other page (show oSTATUS ≠ oCFG_COMMIT by decide)]
    exact State.reg_setReg_self _ _ _ _
  have hbank : (s.swapBank page).bankB page = !s.bankB page := by
    rw [State.bankB, hstatus, State.bankB, bitOf, bitOf, BitVec.getLsbD_xor]
    simp
  refine ⟨hbank, ?_, fun o ho ho' => ?_⟩
  · rw [State.commitPending, hother _ (by decide)]
    exact s.commitPending_endPending page
  · have hfield : ∀ x, 0x100 ≤ x → (s.swapBank page).reg page x = s.reg page x := fun x hx => by
      rw [hother x (by simp only [oSTATUS]; omega), s.reg_endPending_other page (by simp only [oCFG_COMMIT]; omega)]
    rw [State.cfg, hbank, hfield o ho, hfield (o + 0x700) (by omega), State.cfgNew]
    cases s.bankB page <;> rfl

/-- The banks of ERR, COL and the regions act through their fields alone: no register changes. -/
theorem State.pageEffect_plain (s old : State) {page : Nat} (h : plainPage page = true) : (s.pageEffect old page).regs = s.regs := by
  have hcases : page = pERR ∨ page = pCOL ∨ pREGION ≤ page ∧ page < pKEEP := by
    simpa [plainPage, or_assoc] using h
  obtain rfl | rfl | ⟨hlo, hhi⟩ := hcases
  · rfl
  · show s.colEffect.regs = s.regs
    unfold State.colEffect
    split <;> rfl
  · have hregion : s.pageEffect old page = s.regionEffect old (page - pREGION) := by
      have hmine : isRegion page = true := by simp [isRegion, hlo, hhi]
      have hne : ∀ P, P < pREGION → page ≠ P := fun P hP => by omega
      simp [State.pageEffect, hmine, hne pHQ (by decide), hne pLKP (by decide), hne pTOLL (by decide), hne pSPD (by decide),
        hne pROW (by decide), hne pGSU (by decide), hne pUPD (by decide), hne pFAB (by decide), hne pCOL (by decide), hne pPWR (by decide)]
    rw [hregion, State.regionEffect]
    split <;> rfl

theorem State.activate_switched (s : State) {page : Nat} (h : plainPage page = true) : BankSwitched page s (s.activate page) :=
  (s.swapBank_switched page).of_sameBanks (.of_regs rfl) (.of_regs ((s.activate_eq page).symm ▸ State.pageEffect_plain _ s h))

/-! ### The boundary (R451) -/

section

variable {s : State} {page : Nat}

theorem State.tryEffect_of_not (h : s.commitPending page = false ∨ s.boundaryMet page = false) : s.tryEffect page = s := by
  obtain h | h := h <;> simp [State.tryEffect, h]

variable (hpend : s.commitPending page = true) (hmet : s.boundaryMet page = true) (hclear : page = pROW → s.rows.clearing = false)
include hpend hmet hclear

theorem State.tryEffect_of_met : s.tryEffect page = s.atBank page := by
  have hgo : (page == pROW && s.rows.clearing) = false := by
    by_cases hrow : page = pROW
    · simp [hclear hrow]
    · simp [hrow]
  simp [State.tryEffect, hpend, hmet, hgo]

theorem State.tryEffect_rejects {o : Nat} (h : s.repeatFail page = some o) : s.tryEffect page = s.rejectBank page 3 o := by
  rw [State.tryEffect_of_met hpend hmet hclear, State.atBank, h]

theorem State.tryEffect_clears (h : s.repeatFail page = none) (hrow : page = pROW) (hinit : bitOf (s.cfgNew pROW 0x150) 0 = true) :
    s.tryEffect page = { s with rows := { s.rows with clearing := true } } := by
  rw [State.tryEffect_of_met hpend hmet hclear, State.atBank, h]
  simp [hrow, hinit]

omit hclear in
theorem State.tryEffect_switches (h : s.repeatFail page = none) (hplain : plainPage page = true) :
    BankSwitched page s (s.tryEffect page) := by
  have hrow : page ≠ pROW := by
    rintro rfl
    exact absurd hplain (by decide)
  have hstays : ¬(decide (page = pROW) && bitOf (s.cfgNew pROW 0x150) 0) = true := by simp [hrow]
  rw [State.tryEffect_of_met hpend hmet fun h => absurd h hrow, State.atBank, h]
  dsimp only
  rw [if_neg hstays]
  exact s.activate_switched hplain

end

/-! ### Acceptance (R450) -/

theorem exec_configCommit {s : State} (hlive : s.live = true) (page : Nat) (seq : Word) : exec (.configCommit page seq) s = .next (s.commit page seq) :=
  State.always_live hlive fun s => s.commit page seq

/-- CFG_SEQ written to the inactive bank, which is no longer listed as rejected. -/
def State.seqWritten (s : State) (page : Nat) (seq : Word) : State :=
  { s.setReg page (seqOfs (s.idleBank page)) seq with hq := { s.hq with rejBanks := s.hq.rejBanks.filter (· != 2 * page + s.idleBank page) } }

theorem seqOfs_cases (b : Nat) : seqOfs b = oCFG_SEQ_A ∨ seqOfs b = oCFG_SEQ_B := by
  unfold seqOfs
  split
  · exact .inl rfl
  · exact .inr rfl

theorem State.seqWritten_sameBanks (s : State) (page : Nat) (seq : Word) : SameBanks page s (s.seqWritten page seq) := by
  have hset : SameBanks page s (s.setReg page (seqOfs (s.idleBank page)) seq) := by
    obtain h | h := seqOfs_cases (s.idleBank page) <;> rw [h] <;> exact s.setReg_sameBanks page seq (by decide) (by decide) (by decide)
  exact hset.trans (.of_regs rfl)

/-- CFG_SEQ in order, of a page that takes commits (R450). -/
def State.commitOpen (s : State) (page : Nat) (seq : Word) : Prop := pageExists page = true ∧ s.rst.halted = false
  ∧ s.commitPending page = false ∧ serialGt seq (s.reg page (seqOfs (1 - s.idleBank page))) = true

theorem State.commit_ignored {s : State} {page : Nat} {seq : Word} (h : ¬s.commitOpen page seq) : s.commit page seq = s := by
  have hshut : (!pageExists page || s.rst.halted || s.commitPending page || !serialGt seq (s.reg page (seqOfs (1 - s.idleBank page)))) = true := by
    by_contra hnot
    simp only [Bool.or_eq_true, Bool.not_eq_true', not_or, Bool.not_eq_true, Bool.not_eq_false] at hnot
    obtain ⟨⟨⟨hpage, hhalt⟩, hpend⟩, hseq⟩ := hnot
    exact h ⟨hpage, hhalt, hpend, hseq⟩
  simp only [State.commit, hshut, if_true]

theorem State.commit_open {s : State} {page : Nat} {seq : Word} (h : s.commitOpen page seq) : s.commit page seq
    = if (s.seqWritten page seq).reg page (seqOfs (s.idleBank page) + 4) ≠ crc32c ((s.seqWritten page seq).bankBytes page (s.idleBank page)) then
        (s.seqWritten page seq).rejectBank page 1 0
      else match (s.seqWritten page seq).acceptFail page with
        | some o => ((s.seqWritten page seq).noteChecks page).rejectBank page 2 o
        | none => (s.seqWritten page seq).pendBank page := by
  obtain ⟨hpage, hhalt, hpend, hseq⟩ := h
  have hgo : (!pageExists page || s.rst.halted || s.commitPending page || !serialGt seq (s.reg page (seqOfs (1 - s.idleBank page)))) = false := by
    simp [hpage, hhalt, hpend, hseq]
  simp only [State.commit, hgo, Bool.false_eq_true, if_false]
  rfl

/-- CFG_SEQ stands beside neither CFG_CRC nor the bank's bytes. -/
theorem State.seqWritten_crc (s : State) (page : Nat) (seq : Word) :
    ((s.seqWritten page seq).reg page (seqOfs (s.idleBank page) + 4) = crc32c ((s.seqWritten page seq).bankBytes page (s.idleBank page)))
      ↔ s.reg page (seqOfs (s.idleBank page) + 4) = crc32c (s.bankBytes page (s.idleBank page)) := by
  have hcrc : (s.seqWritten page seq).reg page (seqOfs (s.idleBank page) + 4) = s.reg page (seqOfs (s.idleBank page) + 4) :=
    s.reg_setReg_page page seq (by omega)
  rw [(s.seqWritten_sameBanks page seq).bankBytes, hcrc]

/-- The commit pends: its page waits with the barges that run now. -/
def State.awaitBank (s : State) (page : Nat) : State :=
  let v := s.setRegN page oCFG_COMMIT (setFld (s.regN page oCFG_COMMIT) 28 28 1)
  { v with sv := { v.sv with boundary := v.sv.boundary ++ [(page, v.boundaryIds page)] } }

theorem State.pendBank_eq (s : State) (page : Nat) : s.pendBank page = (s.awaitBank page).tryEffect page := by
  unfold State.pendBank State.awaitBank
  generalize setFld (s.regN page oCFG_COMMIT) 28 28 1 = n
  rfl

theorem State.awaitBank_regs (s : State) (page : Nat) :
    (s.awaitBank page).regs = (s.setRegN page oCFG_COMMIT (setFld (s.regN page oCFG_COMMIT) 28 28 1)).regs := by
  unfold State.awaitBank
  dsimp only

theorem State.awaitBank_pending (s : State) (page : Nat) : (s.awaitBank page).commitPending page = true := by
  rw [State.commitPending, State.reg_of_setRegN_self (s.awaitBank_regs page), bitOf_setFld_one]

theorem State.reg_awaitBank_other (s : State) (page : Nat) {x : Nat} (h : x ≠ oCFG_COMMIT) : (s.awaitBank page).reg page x = s.reg page x :=
  State.reg_of_setRegN_other (s.awaitBank_regs page) h

theorem State.bankB_awaitBank (s : State) (page : Nat) : (s.awaitBank page).bankB page = s.bankB page := by
  rw [State.bankB, s.reg_awaitBank_other page (by decide), State.bankB]

/-- A bank that comes into force from its wait. -/
theorem BankSwitched.of_awaitBank {page : Nat} {s t : State} (h : BankSwitched page (s.awaitBank page) t) : BankSwitched page s t := by
  obtain ⟨hbank, hpend, hcfg⟩ := h
  refine ⟨by rw [hbank, s.bankB_awaitBank page], hpend, fun o ho ho' => ?_⟩
  rw [hcfg o ho ho', State.cfgNew, s.bankB_awaitBank page, s.reg_awaitBank_other page (by simp only [oCFG_COMMIT]; omega),
    s.reg_awaitBank_other page (by simp only [oCFG_COMMIT]; omega), State.cfgNew]

/-! ### A ROW bank comes into force (R212, R220) -/

/-- The configuration of ROW is left as it was. -/
abbrev KeepsRowBanks (s t : State) : Prop := SameBanks pROW s t

theorem KeepsRowBanks.of_noted {s t : State} (h : Noted s t) : KeepsRowBanks s t := h.sameBanks (by decide) (by decide) (by decide)

theorem KeepsRowBanks.foldl {α : Type} {f : State → α → State} (h : ∀ s x, KeepsRowBanks s (f s x)) (l : List α) (s : State) :
    KeepsRowBanks s (l.foldl f s) := by
  induction l generalizing s with
  | nil => exact .of_regs rfl
  | cons x l ih => exact (h s x).trans (ih _)

theorem State.setMig_keepsRowBanks (s : State) (busy done : Bool) (moved : Nat) : KeepsRowBanks s (s.setMig busy done moved) := by
  intro x hx
  exact State.reg_of_setRegN_other rfl (by simp only [oSTATUS, oCFG_COMMIT] at hx; omega)

theorem State.send_keepsRowBanks (s : State) (p : Packet) : KeepsRowBanks s (s.send p) := fun x hx =>
  s.send_reg p (by decide) (by decide) (by decide) (by simp only [oSTATUS, oCFG_COMMIT] at hx; omega)

theorem State.launch_keepsRowBanks (s : State) (use : TagUse) (p : Packet) : KeepsRowBanks s (s.launch use p) := by
  unfold State.launch
  exact SameBanks.trans (.of_regs rfl) (State.send_keepsRowBanks _ _)

theorem State.request_keepsRowBanks (s : State) (use : TagUse) (p : Packet) : KeepsRowBanks s (s.request use p) := by
  unfold State.request
  split
  · exact .of_regs rfl
  · exact s.launch_keepsRowBanks use p

theorem State.takeSeq_regs (s : State) (owner step : Nat) : (s.takeSeq owner step).2.regs = s.regs := by
  unfold State.takeSeq
  simp only []
  split <;> rfl

theorem State.sendVc3_keepsRowBanks (s : State) (use : TagUse) (t : Tab) (x owner step kind mult dimq : Nat) (grad : List Word) :
    KeepsRowBanks s (s.sendVc3 use t x owner step kind mult dimq grad) := by
  unfold State.sendVc3
  exact SameBanks.trans (.of_regs (s.takeSeq_regs owner step)) (State.request_keepsRowBanks _ _ _)

theorem State.sendNotices_keepsRowBanks (s : State) (t : Tab) (x owner : Nat) : KeepsRowBanks s (s.sendNotices t x owner) := by
  unfold State.sendNotices
  refine .foldl (fun s m => ?_) _ _
  exact SameBanks.trans (.of_regs rfl) (State.sendVc3_keepsRowBanks _ _ _ _ _ _ _ _ _ _)

theorem State.adoptEntry_keepsRowBanks (s : State) (e : Nat × Nat) : KeepsRowBanks s (s.adoptEntry e) := by
  unfold State.adoptEntry
  simp only []
  split
  · exact .of_regs rfl
  · split
    · exact .of_regs rfl
    · split
      · split
        · exact (KeepsRowBanks.of_noted (s.extPutNat_noted _ _ _)).trans (State.sendNotices_keepsRowBanks _ _ _ _)
        · exact .of_noted (s.extPutNat_noted _ _ _)
      · exact .of_regs rfl

theorem State.rowAdopt_keepsRowBanks (s : State) : KeepsRowBanks s s.rowAdopt := by
  unfold State.rowAdopt
  exact (KeepsRowBanks.foldl State.adoptEntry_keepsRowBanks s.excEntries s).trans (.of_regs rfl)

theorem State.rowClear_keepsRowBanks (s : State) : KeepsRowBanks s s.rowClear :=
  .of_regs (State.regs_of_mask (M := { ext := true, tags := true, rows := true }) (s.rowClear_mask _ rfl rfl rfl) rfl)

/-- What INIT, or the first bank in force, does to the row memory. -/
def State.rowReady (s old : State) : State :=
  if bitOf (s.cfg pROW 0x150) 0 then s.rowClear else if old.rows.adopted then s else s.rowAdopt

/-- The bank's table of rows is adopted, and a list of migrations is pending if it names one. -/
def State.rowStarted (s old : State) : State :=
  { s with
    rows := { s.rows with
      adopted := true, clearing := false
      windowStart := if old.rows.adopted then s.rows.windowStart else s.now
      migPending := s.rows.migPending || s.cfgN pROW 0x14C != 0 } }

theorem State.rowEffect_eq (s old : State) : s.rowEffect old
    = if ((s.rowReady old).rowStarted old).cfgN pROW 0x14C = 0 then (s.rowReady old).rowStarted old
      else ((s.rowReady old).rowStarted old).setMig false false 0 := rfl

theorem State.rowReady_keepsRowBanks (s old : State) : KeepsRowBanks s (s.rowReady old) := by
  unfold State.rowReady
  split
  · exact s.rowClear_keepsRowBanks
  · split
    · exact .of_regs rfl
    · exact s.rowAdopt_keepsRowBanks

theorem State.rowEffect_keepsRowBanks (s old : State) : KeepsRowBanks s (s.rowEffect old) := by
  have hstart : KeepsRowBanks s ((s.rowReady old).rowStarted old) := (s.rowReady_keepsRowBanks old).trans (.of_regs rfl)
  rw [State.rowEffect_eq]
  split
  · exact hstart
  · exact hstart.trans (State.setMig_keepsRowBanks _ _ _ _)

theorem State.rowEffect_clearing (s old : State) : (s.rowEffect old).rows.clearing = false := by
  rw [State.rowEffect_eq]
  split <;> rfl

theorem State.pageEffect_row (s old : State) : s.pageEffect old pROW = s.rowEffect old := rfl

theorem State.activate_row (s : State) : BankSwitched pROW s (s.activate pROW) ∧ (s.activate pROW).rows.clearing = false := by
  rw [State.activate_eq, State.pageEffect_row]
  exact ⟨(s.swapBank_switched pROW).of_sameBanks (.of_regs rfl) (State.rowEffect_keepsRowBanks _ s), State.rowEffect_clearing _ s⟩

/-! ### The commands -/

theorem exec_commitTakeEffect {s : State} (hup : s.up = true) (page : Nat) : exec (.commitTakeEffect page) s = .next (s.tryEffect page) :=
  State.engine_up hup fun s => s.tryEffect page

theorem exec_rowInitClearDone {s : State} (hup : s.up = true) :
    exec .rowInitClearDone s = .next (if s.rows.clearing && s.commitPending pROW then s.activate pROW else s) :=
  State.engine_up hup _

section

variable {s : State} {page : Nat} {seq : Word} (hlive : s.live = true) (hopen : s.commitOpen page seq)
include hlive hopen

/-- A bank whose CFG_CRC is not that of its bytes. -/
theorem configCommit_badCrc (hcrc : ¬s.reg page (seqOfs (s.idleBank page) + 4) = crc32c (s.bankBytes page (s.idleBank page))) :
    ∃ t, exec (.configCommit page seq) s = .next t ∧ BankRejected page 1 0 s t ∧ t.reg page (seqOfs (s.idleBank page)) = seq := by
  have hbad := mt (s.seqWritten_crc page seq).1 hcrc
  have hseq : seqOfs (s.idleBank page) ≠ oCFG_COMMIT := by
    obtain h | h := seqOfs_cases (s.idleBank page) <;> rw [h] <;> decide
  refine ⟨_, by rw [exec_configCommit hlive, State.commit_open hopen, if_pos hbad],
    (State.rejectBank_rejected _ page 1 0).of_sameBanks (s.seqWritten_sameBanks page seq), ?_⟩
  rw [State.reg_rejectBank_other _ page 1 0 hseq]
  exact s.reg_setReg_self page _ seq

variable (hcrc : s.reg page (seqOfs (s.idleBank page) + 4) = crc32c (s.bankBytes page (s.idleBank page)))
include hcrc

theorem exec_configCommit_crc : exec (.configCommit page seq) s = .next (match (s.seqWritten page seq).acceptFail page with
    | some o => ((s.seqWritten page seq).noteChecks page).rejectBank page 2 o
    | none => (s.seqWritten page seq).pendBank page) := by
  rw [exec_configCommit hlive, State.commit_open hopen, if_neg (not_not.2 ((s.seqWritten_crc page seq).2 hcrc))]

/-- A bank with a field that fails its check. -/
theorem configCommit_badField {o : Nat} (hfail : (s.seqWritten page seq).acceptFail page = some o) :
    ∃ t, exec (.configCommit page seq) s = .next t ∧ BankRejected page 2 o s t := by
  refine ⟨_, exec_configCommit_crc hlive hopen hcrc, ?_⟩
  rw [hfail]
  exact (State.rejectBank_rejected _ page 2 o).of_sameBanks ((s.seqWritten_sameBanks page seq).trans (State.noteChecks_sameBanks _ page))

/-- A bank that passes pends, and is tried at once. -/
theorem exec_configCommit_pends (hpass : (s.seqWritten page seq).acceptFail page = none) :
    exec (.configCommit page seq) s = .next (((s.seqWritten page seq).awaitBank page).tryEffect page) := by
  rw [exec_configCommit_crc hlive hopen hcrc, hpass, ← State.pendBank_eq]

theorem configCommit_waits (hpass : (s.seqWritten page seq).acceptFail page = none)
    (hmet : ((s.seqWritten page seq).awaitBank page).boundaryMet page = false) :
    exec (.configCommit page seq) s = .next ((s.seqWritten page seq).awaitBank page)
      ∧ ((s.seqWritten page seq).awaitBank page).commitPending page = true
      ∧ ((s.seqWritten page seq).awaitBank page).bankB page = s.bankB page := by
  refine ⟨?_, State.awaitBank_pending _ page, ?_⟩
  · rw [exec_configCommit_pends hlive hopen hcrc hpass, State.tryEffect_of_not (.inr hmet)]
  · rw [State.bankB_awaitBank, (s.seqWritten_sameBanks page seq).bankB]

theorem configCommit_switches (hpass : (s.seqWritten page seq).acceptFail page = none) (hplain : plainPage page = true)
    (hmet : ((s.seqWritten page seq).awaitBank page).boundaryMet page = true)
    (hrepeat : ((s.seqWritten page seq).awaitBank page).repeatFail page = none) :
    ∃ t, exec (.configCommit page seq) s = .next t ∧ BankSwitched page s t :=
  ⟨_, exec_configCommit_pends hlive hopen hcrc hpass,
    (BankSwitched.of_awaitBank (State.tryEffect_switches (State.awaitBank_pending _ page) hmet hrepeat hplain)).of_sameBanks
      (s.seqWritten_sameBanks page seq) (.of_regs rfl)⟩

end

/-- Settles O57: CONFIG_COMMIT by the branches of R450, the boundary by those of R451; what stands between the registers of a bank
and what its page does there leaves the banks as they are. -/
theorem banksAreCheckedThenTakeEffect : Obligations.BanksAreCheckedThenTakeEffect := by
  unfold Obligations.BanksAreCheckedThenTakeEffect
  refine ⟨fun page seq s hlive => ⟨fun h => ?_, configCommit_badCrc hlive, fun hopen hcrc _ => configCommit_badField hlive hopen hcrc,
    fun hopen hcrc hpass => ⟨?_, ?_⟩⟩, fun page s hup => ⟨fun h => ?_, fun hpend hmet hclear => ⟨fun o ho => ?_, fun hpass hplain => ?_,
    fun hpass hrow hinit => ?_⟩⟩, fun s hup => ⟨fun hclear hpend => ?_, fun h => ?_⟩⟩
  · rw [exec_configCommit hlive, State.commit_ignored h]
  · rw [exec_configCommit_pends hlive hopen hcrc hpass, ← State.pendBank_eq]
    rfl
  · rintro _ rfl _ rfl
    exact ⟨configCommit_waits hlive hopen hcrc hpass, configCommit_switches hlive hopen hcrc hpass⟩
  · rw [exec_commitTakeEffect hup, State.tryEffect_of_not h]
  · exact ⟨_, exec_commitTakeEffect hup page, by
      rw [State.tryEffect_rejects hpend hmet hclear ho]
      exact s.rejectBank_rejected page 3 o⟩
  · exact ⟨_, exec_commitTakeEffect hup page, State.tryEffect_switches hpend hmet hpass hplain⟩
  · rw [exec_commitTakeEffect hup, State.tryEffect_clears hpend hmet hclear hpass hrow hinit]
  · obtain ⟨⟨hbank, hdone, -⟩, hended⟩ := s.activate_row
    exact ⟨_, exec_rowInitClearDone hup, by simp only [hclear, hpend, Bool.and_true, if_true]; exact ⟨hended, hbank, hdone⟩⟩
  · have hnot : (s.rows.clearing && s.commitPending pROW) = false := by obtain h | h := h <;> simp [h]
    rw [exec_rowInitClearDone hup, hnot]
    rfl

end Sys2Proof.Machine
end

section
/-! SUPPORT. The exception table (R208): where a row's entry is found after it is written, and what its fields read as. -/

namespace Sys2Proof.Machine

open Sys2Proof

/-! ### Places -/

/-- Two places of a row's bucket run are the same or do not meet. -/
theorem places_apart {base log2 tid x a b : Nat} (ha : a ∈ placesOf base log2 tid x) (hb : b ∈ placesOf base log2 tid x) (h : b ≠ a) :
    b + 16 ≤ a ∨ a + 16 ≤ b := by
  simp only [placesOf, List.mem_map, List.mem_range] at ha hb
  obtain ⟨i, -, rfl⟩ := ha
  obtain ⟨j, -, rfl⟩ := hb
  omega

/-- The first of the places whose entry is a hit, with that entry. -/
def firstHit (hit : Nat → Bool) (entry : Nat → Nat) (places : List Nat) : Option (Nat × Nat) :=
  (places.map fun a => (a, entry a)).find? fun e => hit e.2

section

variable {hit : Nat → Bool} {f g : Nat → Nat} {a : Nat}

theorem firstHit_cons_hit (l : List Nat) (h : hit (f a) = true) : firstHit hit f (a :: l) = some (a, f a) := by
  unfold firstHit
  exact List.find?_cons_of_pos (p := fun e => hit e.2) (a := (a, f a)) h

theorem firstHit_cons_miss (l : List Nat) (h : ¬hit (f a) = true) : firstHit hit f (a :: l) = firstHit hit f l := by
  unfold firstHit
  exact List.find?_cons_of_neg (p := fun e => hit e.2) (a := (a, f a)) h

theorem firstHit_some {l : List Nat} {w : Nat} (h : firstHit hit f l = some (a, w)) : a ∈ l ∧ hit w = true := by
  unfold firstHit at h
  obtain ⟨b, hb, he⟩ := List.mem_map.1 (List.mem_of_find?_eq_some h)
  rw [Prod.mk.injEq] at he
  exact ⟨he.1 ▸ hb, List.find?_some (p := fun e => hit e.2) (a := (a, w)) h⟩

/-- A place that was the first hit, or is made one where there was none, is the first hit. -/
theorem firstHit_of_hit (l : List Nat) (ha : a ∈ l) (hself : hit (g a) = true) (hother : ∀ b, b ∈ l → b ≠ a → g b = f b)
    (hfirst : ∀ e, firstHit hit f l = some e → e.1 = a) : firstHit hit g l = some (a, g a) := by
  induction l with
  | nil => cases ha
  | cons b l ih =>
    by_cases hb : b = a
    · subst hb
      exact firstHit_cons_hit l hself
    · have hmiss : ¬hit (f b) = true := fun h => hb (hfirst _ (firstHit_cons_hit l h))
      rw [firstHit_cons_miss l (by rwa [hother b (List.mem_cons_self ..) hb])]
      rw [firstHit_cons_miss l hmiss] at hfirst
      exact ih ((List.mem_cons.1 ha).resolve_left (Ne.symm hb)) (fun c hc => hother c (List.mem_cons_of_mem b hc)) hfirst

end

/-- An entry in use that bears the row's key. -/
def excHit (tid x w : Nat) : Bool := nfld w 54 52 != 0 && nfld w 51 40 == tid && nfld w 39 0 == x

/-- The entry at an address of the exception table. -/
def State.entryAt (s : State) (a : Nat) : Nat := s.extNat a 16

/-- The places of a row's entry. -/
def State.excPlaces (s : State) (tid x : Nat) : List Nat := placesOf s.excBase s.excLog2 tid x

theorem State.exc?_eq (s : State) (tid x : Nat) : s.exc? tid x = firstHit (excHit tid x) s.entryAt (s.excPlaces tid x) := rfl

theorem State.exc?_some {s : State} {tid x a w : Nat} (h : s.exc? tid x = some (a, w)) : a ∈ s.excPlaces tid x ∧ excHit tid x w = true :=
  firstHit_some ((s.exc?_eq tid x).symm.trans h)

/-- A row's places lie where ROW's configuration has them. -/
theorem State.excPlaces_congr {s t : State} (h : ∀ o, 0x100 ≤ o → o < 0x800 → t.cfg pROW o = s.cfg pROW o) (tid x : Nat) :
    t.excPlaces tid x = s.excPlaces tid x := by
  have hbase : t.excBase = s.excBase := by
    rw [State.excBase, State.cfgAddr, h _ (by decide) (by decide), h _ (by decide) (by decide), State.excBase, State.cfgAddr]
  have hlog : t.excLog2 = s.excLog2 := by rw [State.excLog2, h _ (by decide) (by decide), State.excLog2]
  rw [State.excPlaces, hbase, hlog, State.excPlaces]

/-- A row's entry is read from ROW's configuration and from external memory. -/
theorem State.exc?_congr {s t : State} (hcfg : ∀ o, 0x100 ≤ o → o < 0x800 → t.cfg pROW o = s.cfg pROW o) (hext : t.ext = s.ext) (tid x : Nat) :
    t.exc? tid x = s.exc? tid x := by
  have hentry : t.entryAt = s.entryAt := funext fun a => by rw [State.entryAt, State.extNat, hext, State.entryAt, State.extNat]
  rw [State.exc?_eq, State.exc?_eq, State.excPlaces_congr hcfg, hentry]

theorem State.entryAt_extPutNat_self (s : State) (a : Nat) {v : Nat} (hv : v < 2 ^ 128) : (s.extPutNat a 16 v).entryAt a = v := by
  rw [State.entryAt, State.extNat_extPutNat, Nat.mod_eq_of_lt (by omega)]

theorem State.entryAt_extPutNat_apart (s : State) {a b : Nat} (v : Nat) (h : b + 16 ≤ a ∨ a + 16 ≤ b) :
    (s.extPutNat a 16 v).entryAt b = s.entryAt b := by
  rw [State.entryAt, State.extNat, State.extPutNat_ext, Mem.nat, Mem.read_write_apart _ _ (by rwa [leBytes_length]), State.entryAt, State.extNat, Mem.nat]

/-- A row's entry written at its place, or at a place of its own where it had none, is the row's entry. -/
theorem State.exc?_extPutNat {s : State} {tid x a v : Nat} (ha : a ∈ s.excPlaces tid x)
    (hfirst : ∀ e, s.exc? tid x = some e → e.1 = a) (hv : v < 2 ^ 128) (hhit : excHit tid x v = true) :
    (s.extPutNat a 16 v).exc? tid x = some (a, v) := by
  have hnoted := s.extPutNat_noted a 16 v
  have hplaces : (s.extPutNat a 16 v).excPlaces tid x = s.excPlaces tid x :=
    State.excPlaces_congr (fun o ho ho' => hnoted.cfg (by decide) (by decide) (by decide) (by omega) ho') tid x
  have hself := s.entryAt_extPutNat_self a hv
  have hhit' : excHit tid x ((s.extPutNat a 16 v).entryAt a) = true := by
    rw [hself]
    exact hhit
  rw [State.exc?_eq, hplaces, firstHit_of_hit (f := s.entryAt) (g := (s.extPutNat a 16 v).entryAt) _ ha hhit'
    (fun b hb hne => s.entryAt_extPutNat_apart v (places_apart ha hb hne)) hfirst, hself]

/-! ### Fields -/

section

variable {tid x st owner expiry : Nat} (ht : tid < 2 ^ 12) (hx : x < 2 ^ 40) (hst : st < 8) (ho : owner < 2 ^ 13)
include ht hx hst ho

theorem excBits_lt : excBits tid x st owner 0 expiry < 2 ^ 128 := by
  unfold excBits
  omega

omit ho in
theorem excState_excBits : excState (excBits tid x st owner 0 expiry) = st := by
  unfold excState excBits nfld
  omega

theorem excOwner_excBits : excOwner (excBits tid x st owner 0 expiry) = owner := by
  unfold excOwner excBits nfld
  omega

omit ho in
theorem excHit_excBits (hne : st ≠ 0) : excHit tid x (excBits tid x st owner 0 expiry) = true := by
  have hstate : nfld (excBits tid x st owner 0 expiry) 54 52 = st := excState_excBits ht hx hst
  have htable : nfld (excBits tid x st owner 0 expiry) 51 40 = tid := by
    unfold excBits nfld
    omega
  have hrow : nfld (excBits tid x st owner 0 expiry) 39 0 = x := by
    unfold excBits nfld
    omega
  simp [excHit, hstate, htable, hrow, hne]

end

/-- The key of an entry fits its fields. -/
theorem key_lt_of_excHit {tid x w : Nat} (h : excHit tid x w = true) : tid < 2 ^ 12 ∧ x < 2 ^ 40 := by
  simp only [excHit, Bool.and_eq_true, beq_iff_eq] at h
  obtain ⟨⟨-, htable⟩, hrow⟩ := h
  unfold nfld at htable hrow
  omega

theorem excOwner_lt (w : Nat) : excOwner w < 2 ^ 13 := Nat.mod_lt _ (by decide)

end Sys2Proof.Machine
end

section
/-! SUPPORT. The timers of the row store (R205, R208, R212, R213). -/

namespace Sys2Proof.Machine

open Sys2Proof

/-! ### GONE_EXPIRY -/

theorem exec_goneExpiry {s : State} (hup : s.up = true) (tid x : Nat) : exec (.goneExpiry tid x) s = .next (s.expireGone tid x) :=
  State.engine_up hup fun s => s.expireGone tid x

/-- A GONE entry whose EXPIRY has passed names the same owner as ROUTE. -/
theorem State.exc?_becomesRoute {s : State} {tid x a w : Nat} (h : s.exc? tid x = some (a, w)) :
    (s.extPutNat a 16 (excBits tid x eROUTE (excOwner w) 0 0)).exc? tid x = some (a, excBits tid x eROUTE (excOwner w) 0 0)
      ∧ excState (excBits tid x eROUTE (excOwner w) 0 0) = 4 ∧ excOwner (excBits tid x eROUTE (excOwner w) 0 0) = excOwner w := by
  obtain ⟨ha, hhit⟩ := State.exc?_some h
  obtain ⟨htid, hx⟩ := key_lt_of_excHit hhit
  have ho := excOwner_lt w
  refine ⟨State.exc?_extPutNat ha (fun e he => ?_) (excBits_lt htid hx (by decide) ho) (excHit_excBits htid hx (by decide) (by decide)),
    excState_excBits htid hx (by decide), excOwner_excBits htid hx (by decide) ho⟩
  rw [h, Option.some.injEq] at he
  rw [← he]

theorem State.expireGone_eq {s : State} {tid x a w : Nat} (h : s.exc? tid x = some (a, w)) (hgone : excState w = 3) : s.expireGone tid x
    = if (BitVec.ofNat 32 s.now - excExpiry w).toNat < 2 ^ 31 then s.extPutNat a 16 (excBits tid x eROUTE (excOwner w) 0 0) else s := by
  unfold State.expireGone
  rw [h]
  simp only [show excState w = eGONE from hgone, decide_true, Bool.true_and, decide_eq_true_eq]

/-! ### PROVISIONAL_PROBE -/

theorem exec_provisionalProbe {s : State} (hup : s.up = true) (tid x : Nat) : exec (.provisionalProbe tid x) s = .next (s.probeRow tid x) :=
  State.engine_up hup fun s => s.probeRow tid x

/-- The time of a PROVISIONAL row's confirmation starts anew. -/
def State.restartProbe (s : State) (tid x : Nat) : State :=
  { s with rows := { s.rows with provisional := mapIf s.rows.provisional (fun (a, y, _) => a == tid && y == x) fun (a, y, _) => (a, y, s.now) } }

section

variable {s : State} {tid x a w : Nat} {e : Nat × Nat × Nat} (hexc : s.exc? tid x = some (a, w)) (hst : excState w = 2)
  (he : s.rows.provisional.find? (fun e => e.1 == tid && e.2.1 == x) = some e)
include hexc hst he

theorem State.probeRow_eq : s.probeRow tid x
    = if e.2.2 + s.fabTimeout ≤ s.now then (s.restartProbe tid x).request (.query tid x) (movePacket (excOwner w) 3 0 tid x []) else s := by
  have hfind : s.rows.provisional.find? (fun (a, y, _) => a == tid && y == x) = some e := he
  have hprov : excState w = ePROV := hst
  unfold State.probeRow
  rw [hexc, hfind]
  simp only [hprov, decide_true, Bool.true_and, decide_eq_true_eq]
  rfl

omit hexc hst in
theorem State.restartProbe_find : (s.restartProbe tid x).rows.provisional.find? (fun e => e.1 == tid && e.2.1 == x) = some (tid, x, s.now) := by
  have hkey := List.find?_some he
  simp only [Bool.and_eq_true, beq_iff_eq] at hkey
  obtain ⟨htid, hx⟩ := hkey
  have hmap := find?_mapIf s.rows.provisional (fun e => e.1 == tid && e.2.1 == x) (fun e => (e.1, e.2.1, s.now)) fun _ => rfl
  rw [he, Option.map_some, htid, hx] at hmap
  exact hmap

end

theorem State.request_rows (s : State) (use : TagUse) (p : Packet) : (s.request use p).rows = s.rows :=
  State.rows_of_mask (M := { regs := true, hq := true, fab := true }) (s.request_mask _ rfl rfl rfl use p) rfl

theorem State.request_ext (s : State) (use : TagUse) (p : Packet) : (s.request use p).ext = s.ext :=
  State.ext_of_mask (M := { regs := true, hq := true, fab := true }) (s.request_mask _ rfl rfl rfl use p) rfl

/-- A request for which a tag is free goes out. -/
theorem State.request_sent {s : State} (h : s.tagsFull = false) (use : TagUse) (p : Packet) : ∃ q, (s.request use p).fab.sent = s.fab.sent ++ [q]
    ∧ q.dest = p.dest ∧ q.op = p.op ∧ q.payload = p.payload := by
  unfold State.request State.launch
  rw [h, if_neg (by decide)]
  exact ⟨_, State.send_sent _ _, rfl, rfl, rfl⟩

/-! ### The move point -/

/-- From `s` to `t` the row store's own record has changed in its skew counts only. -/
def SkewOnly (s t : State) : Prop := t.rows = { s.rows with skew := t.rows.skew }

namespace SkewOnly

variable {s t u : State}

theorem of_rows (h : t.rows = s.rows) : SkewOnly s t := by rw [SkewOnly, h]

theorem trans (h : SkewOnly s t) (k : SkewOnly t u) : SkewOnly s u := by
  unfold SkewOnly at *
  rw [k, h]

theorem skew (h : SkewOnly s t) (tid : Nat) (f : Skew → Skew) : SkewOnly s (t.skew tid f) := by
  unfold SkewOnly State.skew at *
  simp only []
  rw [h]

theorem foldl {α : Type} {f : State → α → State} (h : ∀ s x, SkewOnly s (f s x)) (l : List α) (s : State) : SkewOnly s (l.foldl f s) := by
  induction l generalizing s with
  | nil => exact .of_rows rfl
  | cons x l ih => exact (h s x).trans (ih _)

end SkewOnly

/-- What a row that moves in external memory changes beside the row store's own record. -/
def rowMask : Mask := { regs := true, ext := true, tags := true, hq := true, armed := true }

theorem SkewOnly.of_mask {s t : State} (h : t.mask rowMask = s.mask rowMask) : SkewOnly s t := .of_rows (State.rows_of_mask h rfl)

theorem State.readRow_skewOnly (s : State) (t : Tab) (l : Loc) : SkewOnly s (s.readRow t l).2 := .of_mask (s.readRow_mask _ rfl rfl rfl t l)

theorem State.encodeInto_skewOnly (s : State) (t x dr : Nat) (sat : Bool) (mode : Nat → RMode) (ws : List Word) :
    SkewOnly s (s.encodeInto t x dr sat mode ws).2 := .of_mask (s.encodeInto_mask _ rfl t x dr sat mode ws)

theorem State.demote_skewOnly (s : State) (t : Tab) (a x h : Nat) : SkewOnly s (s.demote t a x h).2 := by
  unfold State.demote
  split
  · exact .of_rows rfl
  · rename_i home _
    simp only []
    split
    · exact s.readRow_skewOnly t _
    · split
      · rename_i u heq
        exact (s.readRow_skewOnly t _).trans (by rw [show u = _ from (congrArg Prod.snd heq).symm]; exact State.encodeInto_skewOnly _ _ _ _ _ _ _)
      · rename_i img u heq
        have hu : SkewOnly s u :=
          (s.readRow_skewOnly t _).trans (by rw [show u = _ from (congrArg Prod.snd heq).symm]; exact State.encodeInto_skewOnly _ _ _ _ _ _ _)
        refine (hu.trans ?_).skew _ _
        refine .of_mask ?_
        simp [rowMask]

theorem State.demoteRow_skewOnly (s : State) (c : Nat × Nat) : SkewOnly s (s.demoteRow c).2 := by
  unfold State.demoteRow
  split
  · exact s.demote_skewOnly _ _ _ _
  · exact .of_rows rfl

theorem State.makeHot_skewOnly (s : State) (t : Tab) (x a h : Nat) (home : Loc) (img : List Byte) : SkewOnly s (s.makeHot t x a h home img) := by
  unfold State.makeHot
  refine SkewOnly.skew (.of_mask ?_) _ _
  simp [rowMask]

theorem State.promote_skewOnly (s : State) (c : Nat × Nat) : SkewOnly s (s.promote c) := by
  unfold State.promote
  split
  · rename_i t _
    split
    · rename_i home _ _
      split
      · exact .of_rows rfl
      · split
        · simp only []
          split
          · exact s.readRow_skewOnly t home
          · split
            · rename_i u heq
              exact ((s.readRow_skewOnly t home).trans
                (by rw [show u = _ from (congrArg Prod.snd heq).symm]; exact State.encodeInto_skewOnly _ _ _ _ _ _ _)).trans (State.makeHot_skewOnly _ _ _ _ _ _ _)
            · rename_i u heq
              exact (s.readRow_skewOnly t home).trans
                (by rw [show u = _ from (congrArg Prod.snd heq).symm]; exact State.encodeInto_skewOnly _ _ _ _ _ _ _)
        · exact .of_mask (s.count_mask _ rfl _ _ _)
    · exact .of_rows rfl
  · exact .of_rows rfl

/-- At the move point every candidate is worked off (R205). -/
theorem State.movePoint_rows (s : State) : s.movePoint.rows = { s.rows with skew := s.movePoint.rows.skew, promote := [], demote := [] } := by
  have hmoved : SkewOnly s ((s.rows.demote.foldl (fun s c => (s.demoteRow c).2) s).rows.promote.foldl (fun s c => s.promote c)
      (s.rows.demote.foldl (fun s c => (s.demoteRow c).2) s)) :=
    (SkewOnly.foldl (fun s c => s.demoteRow_skewOnly c) _ s).trans (.foldl (fun s c => s.promote_skewOnly c) _ _)
  unfold State.movePoint
  simp only []
  rw [show _ = _ from hmoved]

/-! ### SKEW_WINDOW_END -/

theorem exec_skewWindowEnd {s : State} (hup : s.up = true) : exec .skewWindowEnd s = .next s.windowEnd := State.engine_up hup fun s => s.windowEnd

/-- The popularity counters are decayed, and the rows that have grown cold are candidates for demotion. -/
def State.scanned (s : State) : State :=
  { s.decay with
    rows := { s.decay.rows with demote := s.decay.rows.demote ++ s.decay.demoteScan.filter fun c => !s.decay.rows.demote.contains c } }

/-- A window in which no step has closed works its candidates off at its end. -/
def State.workedOff (s : State) : State := if s.rows.closedInWindow then s else s.movePoint

theorem State.windowEnd_early {s : State}
    (h : s.rows.adopted = false ∨ s.cfgN pROW 0x140 = 0 ∨ s.now < s.rows.windowStart + s.cfgN pROW 0x140) : s.windowEnd = s := by
  have hnot : (!s.rows.adopted || decide (s.cfgN pROW 0x140 = 0) || decide (s.now < s.rows.windowStart + s.cfgN pROW 0x140)) = true := by
    obtain h | h | h := h <;> simp [h]
  unfold State.windowEnd
  simp only [hnot, if_true]

theorem State.windowEnd_due {s : State} (hadopted : s.rows.adopted = true) (hlen : s.cfgN pROW 0x140 ≠ 0)
    (hdue : s.rows.windowStart + s.cfgN pROW 0x140 ≤ s.now) : s.windowEnd
      = { s.scanned.workedOff.skewReport with
          rows := { s.scanned.workedOff.skewReport.rows with
            windowNo := s.scanned.workedOff.skewReport.rows.windowNo + 1
            windowStart := s.scanned.workedOff.skewReport.rows.windowStart + s.cfgN pROW 0x140, closedInWindow := false, skew := [] } } := by
  have hgo : (!s.rows.adopted || decide (s.cfgN pROW 0x140 = 0) || decide (s.now < s.rows.windowStart + s.cfgN pROW 0x140)) = false := by
    simp [hadopted, hlen, hdue]
  unfold State.windowEnd
  simp only [hgo, Bool.false_eq_true, if_false]
  rfl

theorem State.scanned_rows (s : State) : s.scanned.rows = { s.rows with demote := s.scanned.rows.demote } := by
  have hdecay : s.decay.rows = s.rows := State.rows_of_mask (M := rowMask) (s.decay_mask _ rfl rfl rfl rfl rfl) rfl
  unfold State.scanned
  rw [hdecay]

theorem State.workedOff_rows (s : State) : s.workedOff.rows
    = { s.rows with skew := s.workedOff.rows.skew, promote := s.workedOff.rows.promote, demote := s.workedOff.rows.demote } := by
  unfold State.workedOff
  split
  · rfl
  · rw [s.movePoint_rows]

theorem State.workedOff_candidates {s : State} (h : s.rows.closedInWindow = false) : s.workedOff.rows.promote = [] ∧ s.workedOff.rows.demote = [] := by
  unfold State.workedOff
  rw [h, if_neg (by decide), s.movePoint_rows]
  exact ⟨rfl, rfl⟩

theorem State.skewReport_rows (s : State) : s.skewReport.rows = s.rows :=
  State.rows_of_mask (M := rowMask) (s.skewReport_mask _ rfl rfl rfl rfl rfl) rfl

/-- The report's number shows in SKEW_SEQ (R213). -/
theorem State.skewReport_number (s : State) : s.skewReport.reg pROW 0xF00 = BitVec.ofNat 32 s.rows.windowNo := by
  unfold State.skewReport
  dsimp only
  split
  · rw [State.reg_raise _ _ _ (by decide) (by decide)]
    exact State.reg_setReg_self _ _ _ _
  · exact State.reg_setReg_self _ _ _ _

/-- What a window that ends hands to the next. -/
theorem State.windowEnd_hands {s : State} (hadopted : s.rows.adopted = true) (hlen : s.cfgN pROW 0x140 ≠ 0)
    (hdue : s.rows.windowStart + s.cfgN pROW 0x140 ≤ s.now) :
    s.windowEnd.rows.windowNo = s.rows.windowNo + 1 ∧ s.windowEnd.rows.windowStart = s.rows.windowStart + s.cfgN pROW 0x140
      ∧ s.windowEnd.rows.skew = [] ∧ s.windowEnd.rows.closedInWindow = false
      ∧ s.windowEnd.reg pROW 0xF00 = BitVec.ofNat 32 s.rows.windowNo
      ∧ (s.rows.closedInWindow = false → s.windowEnd.rows.promote = [] ∧ s.windowEnd.rows.demote = []) := by
  have hnumber : s.scanned.workedOff.rows.windowNo = s.rows.windowNo := by rw [State.workedOff_rows, State.scanned_rows]
  have hstart : s.scanned.workedOff.rows.windowStart = s.rows.windowStart := by rw [State.workedOff_rows, State.scanned_rows]
  have hreg : s.windowEnd.reg pROW 0xF00 = s.scanned.workedOff.skewReport.reg pROW 0xF00 := by
    rw [State.windowEnd_due hadopted hlen hdue]
    rfl
  rw [hreg, State.skewReport_number, hnumber, State.windowEnd_due hadopted hlen hdue]
  simp only [State.skewReport_rows, hnumber, hstart, true_and]
  intro hclosed
  exact State.workedOff_candidates (by rw [State.scanned_rows]; exact hclosed)

theorem State.windowEnd_keeps (s : State) : s.windowEnd.hostMem = s.hostMem ∧ s.windowEnd.imem = s.imem := by
  have hmask := s.windowEnd_mask { rowMask with rows := true } rfl rfl rfl rfl rfl rfl
  exact ⟨State.hostMem_of_mask hmask rfl, State.imem_of_mask hmask rfl⟩

/-- Settles O42: each timer by what its command does once it is due. -/
theorem rowTimersRunOut : Obligations.RowTimersRunOut := by
  unfold Obligations.RowTimersRunOut
  refine fun tid x s hup => ⟨fun a w hexc hgone => ⟨fun hpassed => ?_, fun hearly => ?_⟩, fun a w e hexc hprov he => ⟨fun hdue hfree => ?_, fun hearly => ?_⟩,
    fun hadopted hlen hdue => ?_, fun hearly => ?_⟩
  · obtain ⟨hfound, hstate, howner⟩ := State.exc?_becomesRoute hexc
    exact ⟨_, _, by rw [exec_goneExpiry hup, State.expireGone_eq hexc hgone, if_pos hpassed], hfound, hstate, howner, fun k hk => s.get_extPutNat_outside a 16 _ hk⟩
  · rw [exec_goneExpiry hup, State.expireGone_eq hexc hgone, if_neg (Nat.not_lt.2 hearly)]
  · obtain ⟨q, hsent, hdest, hop, hpayload⟩ := State.request_sent (s := s.restartProbe tid x) hfree (.query tid x) (movePacket (excOwner w) 3 0 tid x [])
    refine ⟨_, q, by rw [exec_provisionalProbe hup, State.probeRow_eq hexc hprov he, if_pos hdue], hsent, hdest, hop,
      hpayload.trans (List.append_nil _), ?_, ?_⟩
    · rw [State.request_rows]
      exact State.restartProbe_find he
    · exact State.request_ext _ _ _
  · rw [exec_provisionalProbe hup, State.probeRow_eq hexc hprov he, if_neg (by omega)]
  · obtain ⟨hnumber, hstart, hskew, hclosed, hreg, hcandidates⟩ := State.windowEnd_hands hadopted hlen hdue
    obtain ⟨hhost, himem⟩ := s.windowEnd_keeps
    exact ⟨_, exec_skewWindowEnd hup, hnumber, hstart, hskew, hclosed, hreg, hcandidates, hhost, himem⟩
  · rw [exec_skewWindowEnd hup, State.windowEnd_early hearly]

end Sys2Proof.Machine
end

section
/-! SUPPORT. Rows that move to a new owner (R210, R212, R330): what taking and settling a row leave of the fabric unit and of the
engine's id, and how each ROW_MOVE is answered. -/

namespace Sys2Proof.Machine

open Sys2Proof

/-! ### The engine's id -/

/-- The two states are of one engine: SELF_ID in force is the same. -/
def SameId (s t : State) : Prop := t.selfId = s.selfId

namespace SameId

variable {s t u : State}

theorem refl (s : State) : SameId s s := rfl

theorem of_regs (h : t.regs = s.regs) : SameId s t := by
  unfold SameId State.selfId State.regN State.reg
  rw [h]

theorem trans (h : SameId s t) (k : SameId t u) : SameId s u := Eq.trans k h

theorem ite {c : Prop} [Decidable c] (ht : SameId s t) (hu : SameId s u) : SameId s (if c then t else u) := by
  split
  · exact ht
  · exact hu

end SameId

theorem State.extWriteTag_sameId (s : State) (a : Nat) (bs : List Byte) (new : Tag) (poison : Bool) : SameId s (s.extWriteTag a bs new poison) :=
  State.selfId_foldl _ (fun s k => s.selfId_writeTag _ _ _ _ k) _ _

theorem State.extWrite_sameId (s : State) (a : Nat) (bs : List Byte) (poison : Bool) : SameId s (s.extWrite a bs poison) :=
  s.extWriteTag_sameId _ _ _ _

theorem State.writeRowImage_sameId (s : State) (t : Tab) (l : Loc) (image : List Byte) (step : Nat) (poison : Bool) :
    SameId s (s.writeRowImage t l image step poison) := by
  unfold State.writeRowImage
  exact .ite (s.extWriteTag_sameId _ _ _ _) (SameId.trans (.of_regs rfl) (State.extWriteTag_sameId _ _ _ _ _))

theorem State.excDel_sameId (s : State) (tid x : Nat) : SameId s (s.excDel tid x) := by
  unfold State.excDel
  split
  · exact s.selfId_extPutNat _ _ _
  · exact .refl s

/-- An exception entry that is written is written in one of its places (R208). -/
theorem State.excPut_eq_some {s u : State} {tid x w : Nat} (h : s.excPut tid x w = some u) : ∃ a, u = s.extPutNat a 16 w := by
  unfold State.excPut at h
  split at h
  · exact ⟨_, (Option.some.inj h).symm⟩
  · obtain ⟨a, -, ha⟩ := Option.map_eq_some_iff.1 h
    exact ⟨a, ha.symm⟩

theorem State.excPut_sameId {s u : State} {tid x w : Nat} (h : s.excPut tid x w = some u) : SameId s u := by
  obtain ⟨a, rfl⟩ := State.excPut_eq_some h
  exact s.selfId_extPutNat _ _ _

theorem State.excPut_getD_sameId (s : State) (tid x w : Nat) : SameId s ((s.excPut tid x w).getD s) := by
  cases h : s.excPut tid x w with
  | none => exact .refl s
  | some u => exact State.excPut_sameId h

/-- What settling a row moves: its image and its state, from the migration basin to its home. -/
def State.bringHome (s : State) (t : Tab) (home : Loc) (x k : Nat) : State :=
  let (r, s) := s.readRow t (s.migLoc t x k)
  let (a, n) := s.stateOf t home
  let s := s.writeRowImage t home r.image r.step r.poison
  if n = 0 then s else s.extWrite a (s.ext? (s.migStateAddr k) n) (s.extPoison (s.migStateAddr k) n)

theorem State.bringHome_sameId (s : State) (t : Tab) (home : Loc) (x k : Nat) : SameId s (s.bringHome t home x k) := by
  have hread : SameId s (s.readRow t (s.migLoc t x k)).2 := s.selfId_readRow _ _
  have himage := hread.trans (State.writeRowImage_sameId _ t home (s.readRow t (s.migLoc t x k)).1.image (s.readRow t (s.migLoc t x k)).1.step
    (s.readRow t (s.migLoc t x k)).1.poison)
  unfold State.bringHome
  exact .ite himage (himage.trans (State.extWrite_sameId _ _ _ _))

/-- A PROVISIONAL row is waited for no longer. -/
def State.unprovision (s : State) (tid x : Nat) : State :=
  { s with rows := { s.rows with provisional := s.rows.provisional.filter fun (a, y, _) => !(a == tid && y == x) } }

theorem State.settleRow_eq {s : State} {tid x a w : Nat} {t : Tab} (he : s.exc? tid x = some (a, w)) (ht : s.tab tid = .ok t) : s.settleRow tid x
    = if excState w != ePROV then s
      else match (s.unprovision tid x).mapLoc t x false with
        | some home => (((s.unprovision tid x).bringHome t home x (excSlot w)).excDel tid x).freeBasin (excSlot w)
        | none => ((s.unprovision tid x).excPut tid x (excBits tid x eOWNED (s.unprovision tid x).selfId (excSlot w) 0)).getD (s.unprovision tid x) := by
  unfold State.settleRow
  rw [he, ht]
  rfl

theorem State.settleRow_sameId (s : State) (tid x : Nat) : SameId s (s.settleRow tid x) := by
  by_cases h : ∃ a w t, s.exc? tid x = some (a, w) ∧ s.tab tid = .ok t
  · obtain ⟨a, w, t, he, ht⟩ := h
    have hunprovision : SameId s (s.unprovision tid x) := .of_regs rfl
    rw [State.settleRow_eq he ht]
    refine .ite (.refl s) ?_
    split
    · exact ((hunprovision.trans (State.bringHome_sameId _ _ _ _ _)).trans (State.excDel_sameId _ _ _)).trans (.of_regs rfl)
    · exact hunprovision.trans (State.excPut_getD_sameId _ _ _ _)
  · unfold State.settleRow
    split
    · rename_i a w t he ht
      exact absurd ⟨a, w, t, he, ht⟩ h
    · exact .refl s

/-! ### A row taken -/

/-- A row stored in the migration basin from sector `k` on (R210). -/
def State.storeInbound (s : State) (t : Tab) (i : Inbound) (k : Nat) : State :=
  let s := s.writeRowImage t (s.migLoc t i.row k) i.image s.lastClosed i.bad
  if i.state.isEmpty then s else s.extWrite (s.migStateAddr k) i.state i.stateBad

theorem State.storeInbound_sameId (s : State) (t : Tab) (i : Inbound) (k : Nat) : SameId s (s.storeInbound t i k) := by
  have himage := s.writeRowImage_sameId t (s.migLoc t i.row k) i.image s.lastClosed i.bad
  unfold State.storeInbound
  exact .ite himage (himage.trans (State.extWrite_sameId _ _ _ _))

theorem State.storeInbound_rows (s : State) (t : Tab) (i : Inbound) (k : Nat) : (s.storeInbound t i k).rows = s.rows := by
  refine State.rows_of_mask (M := rowMask) ?_ rfl
  simp [State.storeInbound, rowMask]

/-- From `s` to `t` a row may have been taken: the packets of rows still to come and the engine's id stay. -/
def MayTake (s t : State) : Prop := SameId s t ∧ t.rows.inbound = s.rows.inbound

theorem State.takeRow_mayTake (s : State) (i : Inbound) : MayTake s (s.takeRow i).2 := by
  have herr : ∀ b, MayTake s (s.err pROW b) := fun b =>
    ⟨s.selfId_err pROW b, by rw [State.rows_of_mask (M := rowMask) (s.err_mask _ rfl rfl pROW b) rfl]⟩
  unfold State.takeRow
  split
  · rename_i t _
    dsimp only
    split
    · exact ⟨.refl s, rfl⟩
    · split
      · exact herr 4
      · rename_i k _
        split
        · exact herr 3
        · rename_i u hput
          have hrows : u.rows = s.rows := State.rows_of_mask (M := rowMask) (State.excPut_mask _ rfl rfl rfl rfl rfl _ _ _ _ _ hput) rfl
          refine ⟨((State.excPut_sameId hput).trans (u.storeInbound_sameId t i k)).trans (.of_regs rfl), ?_⟩
          exact (congrArg Rows.inbound (u.storeInbound_rows t i k)).trans (by rw [hrows])
  · exact ⟨.refl s, rfl⟩

/-! ### What a ROW_MOVE is answered -/

theorem State.answer_ext (s : State) (p : Packet) (status : Nat) (payload : List Byte) : (s.answer p status payload).ext = s.ext :=
  State.ext_of_mask (M := { regs := true, hq := true, fab := true }) (s.answer_mask _ rfl rfl rfl p status payload 0 0) rfl

theorem State.answer_rows (s : State) (p : Packet) (status : Nat) (payload : List Byte) : (s.answer p status payload).rows = s.rows :=
  State.rows_of_mask (M := { regs := true, hq := true, fab := true }) (s.answer_mask _ rfl rfl rfl p status payload 0 0) rfl

theorem State.take_ext (s : State) (p : Packet) : (s.take p).ext = s.ext := State.ext_of_mask (M := { fab := true }) (s.take_mask _ rfl p) rfl

theorem State.answerMove_ext (s : State) (p : Packet) (a : Nat) : (s.answerMove p a).ext = s.ext := s.answer_ext p 0 _

theorem State.answerMove_rows (s : State) (p : Packet) (a : Nat) : (s.answerMove p a).rows = s.rows := s.answer_rows p 0 _

/-- The packets of rows still to come once `p` is taken. -/
def State.takenMove (s : State) (p : Packet) : State := (s.take p).dropStale

section

variable {s v : State} {p : Packet}

theorem State.takenMove_sameId : SameId s (s.takenMove p) := SameId.trans (s.take_selfId p) (.of_regs rfl)

theorem State.takenMove_sent : (s.takenMove p).fab.sent = s.fab.sent := s.take_sent p

/-- An answer given after work that sent nothing. -/
theorem State.answerMove_answers (hfab : v.fab = (s.takenMove p).fab) (hid : SameId (s.takenMove p) v) (a : Nat) :
    Answers s (v.answerMove p a) p 0 (leBytes 1 a) :=
  State.answer_answers (by rw [hfab, State.takenMove_sent]) (State.takenMove_sameId.trans hid) p 0 _

theorem State.receiveMove_own (ha : Arrives s p 6) (f : State → State) : s.receiveMove p (mvKind p) f
    = if s.refusedLevel p then (((s.take p).count pFAB 0xF1C).err pFAB 4).answer p 2 [] else f (s.takenMove p) := by
  have hlevel : (s.take p).refusedLevel p = s.refusedLevel p := by rw [State.refusedLevel, State.take_selfId, State.refusedLevel]
  unfold State.receiveMove
  simp only [bne_self_eq_false, Bool.and_false, Bool.false_and, Bool.false_eq_true, if_false]
  rw [State.receive_arrives ha, hlevel]
  rfl

end

/-! ### The commands at the new owner -/

/-- The row that an OFFER brings. -/
def offered (s : State) (p : Packet) : Inbound :=
  { table := mvTable p, row := mvRow p, src := p.src, image := p.payload.drop 16, stateBytes := mvNum p, state := [], step := 0
    bad := anyBad p, since := s.now }

/-- The row that a STATE packet belongs to. -/
def ofMove (p : Packet) (i : Inbound) : Bool := i.table == mvTable p && i.row == mvRow p && i.src == p.src

/-- A row with one more STATE packet. -/
def Inbound.join (i : Inbound) (s : State) (p : Packet) : Inbound :=
  { i with state := i.state ++ p.payload.drop 16, stateBad := i.stateBad || anyBad p, since := s.now }

/-- A row is awaited. -/
def State.await (s : State) (i : Inbound) : State := { s with rows := { s.rows with inbound := s.rows.inbound ++ [i] } }

section

variable {s : State} {p : Packet} (ha : Arrives s p 6) (hlevel : s.refusedLevel p = false)
include ha hlevel

theorem exec_rowOffer (hkind : mvKind p = 1) : exec (.rowOffer p) s
    = .next (if mvNum p = 0 then ((s.takenMove p).dropInbound p).lastPacket p (offered s p)
      else (((s.takenMove p).dropInbound p).await (offered s p)).answerMove p aSTORED) := by
  have hnow : (s.takenMove p).now = s.now := s.take_now p
  change execRowOffer p s = _
  rw [execRowOffer, State.engine_up ha.1, ← hkind, State.receiveMove_own ha, hlevel, offered, ← hnow]
  rfl

theorem exec_state (hkind : mvKind p = 4) : exec (.state p) s = .next ((s.takenMove p).joinState p) := by
  change execState p s = _
  rw [execState, State.engine_up ha.1, ← hkind, State.receiveMove_own ha, hlevel]
  rfl

theorem exec_moveConfirm (hkind : mvKind p = 2) :
    exec (.moveConfirm p) s = .next (((s.takenMove p).settleRow (mvTable p) (mvRow p)).answerMove p aSTORED) := by
  change execMoveConfirm p s = _
  rw [execMoveConfirm, State.engine_up ha.1, ← hkind, State.receiveMove_own ha, hlevel]
  rfl

theorem exec_query (hkind : mvKind p = 3) : exec (.query p) s
    = .next ((s.takenMove p).answerMove p (if (s.takenMove p).gaveTo (mvTable p) (mvRow p) p.src then aHELD else aNOT_HELD)) := by
  change execQuery p s = _
  rw [execQuery, State.engine_up ha.1, ← hkind, State.receiveMove_own ha, hlevel]
  rfl

end

/-- A STATE packet by what is known of its row (R330). -/
theorem State.joinState_none {s : State} {p : Packet} (h : ∀ i, i ∈ s.rows.inbound → ¬(i.table = mvTable p ∧ i.row = mvRow p ∧ i.src = p.src)) :
    s.joinState p = s.answerMove p aREFUSE := by
  have hfind : s.rows.inbound.find? (fun i => i.table == mvTable p && i.row == mvRow p && i.src == p.src) = none := by
    rw [List.find?_eq_none]
    intro i hi
    simpa [and_assoc] using h i hi
  rw [State.joinState, hfind]

section

variable {s : State} {p : Packet} {i : Inbound}
  (h : s.rows.inbound.find? (fun i => i.table == mvTable p && i.row == mvRow p && i.src == p.src) = some i)
include h

theorem State.joinState_some : s.joinState p
    = if i.state.length ≠ mvNum p then (s.dropInbound p).answerMove p aREFUSE
      else if i.stateBytes ≤ i.state.length + (p.payload.drop 16).length then
        (s.dropInbound p).lastPacket p { i.join s p with state := (i.state ++ p.payload.drop 16).take i.stateBytes }
      else ((s.dropInbound p).await (i.join s p)).answerMove p aSTORED := by
  have hlength : (i.join s p).state.length = i.state.length + (p.payload.drop 16).length := List.length_append
  unfold State.joinState
  rw [h]
  change (if (i.join s p).state.length - (p.payload.drop 16).length != mvNum p then _ else if i.stateBytes ≤ (i.join s p).state.length then _ else _) = _
  rw [hlength, Nat.add_sub_cancel]
  simp only [bne_iff_ne]
  rfl

theorem State.not_mem_dropInbound : i ∉ (s.dropInbound p).rows.inbound := by
  intro hmem
  have hmine := List.find?_some h
  have hkept := (List.mem_filter.1 hmem).2
  rw [hmine] at hkept
  exact absurd hkept (by decide)

end

/-- The last packet of a row is answered by whether the row could be taken, and leaves what taking it left. -/
theorem lastPacket_spec {s v : State} {p : Packet} (hfab : v.fab = (s.takenMove p).fab) (hid : SameId (s.takenMove p) v) (i : Inbound) :
    Answers s (v.lastPacket p i) p 0 (leBytes 1 (if (v.takeRow i).1 then aACCEPT else aREFUSE))
      ∧ (v.lastPacket p i).rows.basin = (v.takeRow i).2.rows.basin ∧ (v.lastPacket p i).ext = (v.takeRow i).2.ext
      ∧ (v.lastPacket p i).rows.inbound = v.rows.inbound := by
  obtain ⟨htaken, hinbound⟩ := v.takeRow_mayTake i
  have hsent : (v.takeRow i).2.fab = (s.takenMove p).fab :=
    (State.fab_of_mask (M := { rowMask with rows := true }) (v.takeRow_mask _ rfl rfl rfl rfl rfl rfl i) rfl).trans hfab
  have hlast : v.lastPacket p i = (v.takeRow i).2.answerMove p (if (v.takeRow i).1 then aACCEPT else aREFUSE) := rfl
  rw [hlast]
  refine ⟨State.answerMove_answers hsent (hid.trans htaken) _, ?_, State.answer_ext _ _ _ _, ?_⟩
  · exact congrArg Rows.basin (State.answer_rows _ _ _ _)
  · exact (congrArg Rows.inbound (State.answer_rows _ _ _ _)).trans hinbound

theorem State.dropInbound_sameId (s : State) (p : Packet) : SameId s (s.dropInbound p) := .of_regs rfl

theorem State.await_sameId (s : State) (i : Inbound) : SameId s (s.await i) := .of_regs rfl

theorem State.dropInbound_ext (s : State) (p : Packet) : (s.dropInbound p).ext = s.ext := rfl

theorem State.await_ext (s : State) (i : Inbound) : (s.await i).ext = s.ext := rfl

theorem State.takenMove_ext (s : State) (p : Packet) : (s.takenMove p).ext = s.ext := s.take_ext p

/-- The command settles the row whose last packet is `p`: it is taken if there is room for it, and answered so (R210, R330). -/
def SettlesLast (c : Instr) (s : State) (p : Packet) (i : Inbound) : Prop :=
  ∃ t, exec c s = .next t ∧ Answers s t p 0 (leBytes 1 (if (((s.takenMove p).dropInbound p).takeRow i).1 then aACCEPT else aREFUSE))
    ∧ t.rows.basin = (((s.takenMove p).dropInbound p).takeRow i).2.rows.basin ∧ t.ext = (((s.takenMove p).dropInbound p).takeRow i).2.ext
    ∧ t.rows.inbound = (s.takenMove p).rows.inbound.filter fun i => !(i.table == mvTable p && i.row == mvRow p && i.src == p.src)

theorem SettlesLast.of_exec {c : Instr} {s : State} {p : Packet} {i : Inbound}
    (h : exec c s = .next (((s.takenMove p).dropInbound p).lastPacket p i)) : SettlesLast c s p i := by
  have hinbound : ((s.takenMove p).dropInbound p).rows.inbound
      = (s.takenMove p).rows.inbound.filter fun i => !(i.table == mvTable p && i.row == mvRow p && i.src == p.src) := rfl
  obtain ⟨hanswer, hbasin, hext, hkept⟩ := lastPacket_spec (s := s) (p := p) (v := (s.takenMove p).dropInbound p) rfl (State.dropInbound_sameId _ p) i
  exact ⟨_, h, hanswer, hbasin, hext, hkept.trans hinbound⟩

/-- A row that is awaited is answered STORED. -/
theorem awaited_spec (s : State) (p : Packet) (i : Inbound) : Answers s ((((s.takenMove p).dropInbound p).await i).answerMove p aSTORED) p 0 (leBytes 1 aSTORED)
    ∧ i ∈ ((((s.takenMove p).dropInbound p).await i).answerMove p aSTORED).rows.inbound
    ∧ ((((s.takenMove p).dropInbound p).await i).answerMove p aSTORED).ext = s.ext := by
  have hfab : (((s.takenMove p).dropInbound p).await i).fab = (s.takenMove p).fab := rfl
  have hid : SameId (s.takenMove p) (((s.takenMove p).dropInbound p).await i) := (State.dropInbound_sameId _ p).trans (State.await_sameId _ i)
  have hmem : i ∈ (((s.takenMove p).dropInbound p).await i).rows.inbound := List.mem_append_right _ (List.mem_singleton_self _)
  exact ⟨State.answerMove_answers hfab hid _, by rwa [State.answerMove_rows], by
    rw [State.answerMove_ext, State.await_ext, State.dropInbound_ext, State.takenMove_ext]⟩

/-- A STATE packet out of order drops its row. -/
theorem outOfOrder_spec {s : State} {p : Packet} {i : Inbound}
    (h : (s.takenMove p).rows.inbound.find? (fun i => i.table == mvTable p && i.row == mvRow p && i.src == p.src) = some i) :
    Answers s (((s.takenMove p).dropInbound p).answerMove p aREFUSE) p 0 (leBytes 1 aREFUSE)
      ∧ i ∉ (((s.takenMove p).dropInbound p).answerMove p aREFUSE).rows.inbound := by
  have hfab : ((s.takenMove p).dropInbound p).fab = (s.takenMove p).fab := rfl
  refine ⟨State.answerMove_answers hfab (State.dropInbound_sameId _ p) _, ?_⟩
  rw [State.answerMove_rows]
  exact State.not_mem_dropInbound h

/-- The command is the one of the ROW_MOVE's KIND. -/
def MoveCmd (c : Instr) (p : Packet) : Prop :=
  c = .rowOffer p ∧ mvKind p = 1 ∨ c = .moveConfirm p ∧ mvKind p = 2 ∨ c = .query p ∧ mvKind p = 3 ∨ c = .state p ∧ mvKind p = 4

theorem exec_move {c : Instr} {p : Packet} (hc : MoveCmd c p) : ∃ f, ∀ s, exec c s = s.engine fun s => s.receiveMove p (mvKind p) f := by
  obtain ⟨rfl, hkind⟩ | ⟨rfl, hkind⟩ | ⟨rfl, hkind⟩ | ⟨rfl, hkind⟩ := hc <;> rw [hkind] <;> exact ⟨_, fun _ => rfl⟩

/-- A ROW_MOVE from another rack is refused (R338). -/
theorem exec_move_otherRack {c : Instr} {s : State} {p : Packet} (ha : Arrives s p 6) (hlevel : s.refusedLevel p = true) (hc : MoveCmd c p) :
    exec c s = .next ((((s.take p).count pFAB 0xF1C).err pFAB 4).answer p 2 []) := by
  obtain ⟨f, hf⟩ := exec_move hc
  rw [hf, State.engine_up ha.1, State.receiveMove_own ha, hlevel, if_pos rfl]

theorem refusedMove_spec (s : State) (p : Packet) : Answers s ((((s.take p).count pFAB 0xF1C).err pFAB 4).answer p 2 []) p 2 []
    ∧ ((((s.take p).count pFAB 0xF1C).err pFAB 4).answer p 2 []).rows = s.rows
    ∧ ((((s.take p).count pFAB 0xF1C).err pFAB 4).answer p 2 []).ext = s.ext := by
  have hcount := (s.take p).count_mask { regs := true, hq := true } rfl pFAB 0xF1C 1
  have herr := State.err_mask { regs := true, hq := true } rfl rfl ((s.take p).count pFAB 0xF1C) pFAB 4
  have hmask := herr.trans hcount
  refine ⟨State.answer_answers ?_ ?_ p 2 [], ?_, ?_⟩
  · rw [State.fab_of_mask hmask rfl, State.take_sent]
  · rw [State.selfId_err, State.selfId_count _ _ (by decide), State.take_selfId]
  · rw [State.answer_rows, State.rows_of_mask hmask rfl, State.take_rows]
  · rw [State.answer_ext, State.ext_of_mask hmask rfl, State.take_ext]

/-- Whether this engine gave a row away is read from the row's exception entry (R212). -/
theorem State.gaveTo_takenMove (s : State) (p : Packet) (tid x who : Nat) : (s.takenMove p).gaveTo tid x who = s.gaveTo tid x who := by
  have hexc : (s.takenMove p).exc? tid x = s.exc? tid x := by
    refine State.exc?_congr (t := s.takenMove p) (fun o _ _ => ?_) (s.take_ext p) tid x
    have hreg : ∀ y, (s.takenMove p).reg pROW y = s.reg pROW y := fun y => s.take_reg p pROW y
    rw [State.cfg, State.bankB, hreg, hreg, hreg, State.cfg, State.bankB]
  rw [State.gaveTo, hexc, State.gaveTo]

theorem State.gaveTo_iff {s : State} {tid x who : Nat} :
    s.gaveTo tid x who = true ↔ ∃ a w, s.exc? tid x = some (a, w) ∧ (excState w = 3 ∨ excState w = 4) ∧ excOwner w = who := by
  unfold State.gaveTo
  cases h : s.exc? tid x with
  | none => simp
  | some e =>
    obtain ⟨a, w⟩ := e
    simp [eGONE, eROUTE]

end Sys2Proof.Machine
end

section
/-! SUPPORT. The old owner's side of a row that moves (R210, R212): what a freed tag, a sent packet and the gradients passed on leave
of the row store, and what an answer to its move or to its query comes to. -/

namespace Sys2Proof.Machine

open Sys2Proof

/-! ### The engine's id while packets are sent -/

theorem State.count_sameId (s : State) {P o : Nat} (n : Nat) (h : pFAB * 0x1000 + 0xF00 ≠ P * 0x1000 + o) : SameId s (s.count P o n) :=
  s.selfId_count n h

theorem State.flitsLeave_sameId (s : State) (n vc k : Nat) : SameId s (s.flitsLeave n vc k) := by
  have hcount : SameId s (s.count pVCH (0xF00 + 4 * vc) k) := s.count_sameId k (by simp only [pFAB, pVCH]; omega)
  unfold State.flitsLeave
  exact .ite ((hcount.trans (.of_regs rfl)).trans (State.count_sameId (P := pERR) (o := 0xF34) _ 1 (by decide))) hcount

theorem State.sendHead_sameId (s : State) (n vc : Nat) : SameId s (s.sendHead n vc) := by
  unfold State.sendHead
  dsimp only
  split
  · exact SameId.trans (.of_regs rfl) (State.flitsLeave_sameId _ n vc _)
  · exact .refl s

theorem State.arbTurn_sameId (s : State) (n : Nat) : SameId s (s.arbTurn n) := by
  unfold State.arbTurn
  dsimp only
  split
  · exact .of_regs rfl
  · exact .ite (SameId.trans (.of_regs rfl) (State.sendHead_sameId _ n _)) (.of_regs rfl)

theorem State.arbStep_sameId (s : State) (n : Nat) : SameId s (s.arbStep n) := by
  unfold State.arbStep
  dsimp only
  split
  · exact .ite (s.sendHead_sameId n 0) (s.arbTurn_sameId n)
  · exact s.arbTurn_sameId n

theorem State.pumpFuel_sameId (n fuel : Nat) (s : State) : SameId s (State.pumpFuel n fuel s) := by
  induction fuel generalizing s with
  | zero => exact .refl s
  | succ fuel ih => exact .ite ((s.arbStep_sameId n).trans (ih _)) (.refl s)

theorem State.sendOut_sameId (s : State) (p : Packet) (from_ : Option Nat) : SameId s (s.sendOut p from_) := by
  unfold State.sendOut
  split
  · exact .of_regs rfl
  · split
    · exact SameId.trans (.of_regs rfl) (State.pumpFuel_sameId _ _ _)
    · exact (s.count_sameId (P := pFAB) (o := 0xF20) 1 (by decide)).trans (State.selfId_err _ pFAB 5)

theorem State.send_sameId (s : State) (p : Packet) : SameId s (s.send p) := SameId.trans (.of_regs rfl) (State.sendOut_sameId _ p none)

theorem State.launch_sameId (s : State) (use : TagUse) (p : Packet) : SameId s (s.launch use p) :=
  SameId.trans (.of_regs rfl) (State.send_sameId _ _)

/-! ### A tag freed -/

/-- From `s` to `t` requests that waited for a tag may have gone: what the row store is read through stays. -/
structure TagFreed (s t : State) : Prop where
  id : SameId s t
  reg : ∀ x, x < 0x1000 → t.reg pROW x = s.reg pROW x
  mask : t.mask { regs := true, hq := true, fab := true } = s.mask { regs := true, hq := true, fab := true }

theorem TagFreed.trans {s t u : State} (h : TagFreed s t) (k : TagFreed t u) : TagFreed s u :=
  ⟨h.id.trans k.id, fun x hx => (k.reg x hx).trans (h.reg x hx), k.mask.trans h.mask⟩

theorem TagFreed.refl (s : State) : TagFreed s s := ⟨.refl s, fun _ _ => rfl, rfl⟩

theorem TagFreed.foldl {α : Type} {f : State → α → State} (h : ∀ s x, TagFreed s (f s x)) (l : List α) (s : State) : TagFreed s (l.foldl f s) := by
  induction l generalizing s with
  | nil => exact .refl s
  | cons x l ih => exact (h s x).trans (ih _)

theorem TagFreed.of_fab (s : State) (f : Fabric) : TagFreed s { s with fab := f } := ⟨.of_regs rfl, fun _ _ => rfl, rfl⟩

theorem State.launch_tagFreed (s : State) (use : TagUse) (p : Packet) : TagFreed s (s.launch use p) :=
  ⟨s.launch_sameId use p, fun _ hx => State.send_reg _ _ (by decide) (by decide) (by decide) hx, s.launch_mask _ rfl rfl rfl use p⟩

theorem State.freeTag_tagFreed (s : State) (k : Nat) : TagFreed s (s.freeTag k) := by
  have hset : TagFreed s (s.setTagSt k { gen := (s.tagSt k).gen }) := .of_fab s _
  refine hset.trans (TagFreed.foldl (fun u x => ?_) _ _)
  obtain ⟨use, p⟩ := x
  dsimp only
  split
  · exact .refl u
  · exact (TagFreed.of_fab u _).trans (State.launch_tagFreed _ use p)

/-- The response `p` taken and its tag freed. -/
def State.responded (s : State) (p : Packet) : State := (s.take p).freeTag p.tag

theorem State.responded_tagFreed (s : State) (p : Packet) : TagFreed s (s.responded p) := by
  have htake : TagFreed s (s.take p) :=
    ⟨s.take_selfId p, fun x _ => s.take_reg p pROW x, s.take_mask _ rfl p⟩
  exact htake.trans (State.freeTag_tagFreed _ _)

/-! ### What is read of the row store -/

namespace TagFreed

variable {s t : State} (h : TagFreed s t)
include h

theorem ext : t.ext = s.ext := State.ext_of_mask h.mask rfl
theorem rows : t.rows = s.rows := State.rows_of_mask h.mask rfl
theorem now : t.now = s.now := by rw [State.now, State.aoUs_of_mask h.mask rfl, State.now]

theorem cfg {o : Nat} (ho : 0x100 ≤ o) (ho' : o < 0x800) : t.cfg pROW o = s.cfg pROW o :=
  SameBanks.cfg (fun x hx => h.reg x (by simp only [oSTATUS, oCFG_COMMIT] at hx; omega)) ho ho'

theorem extNat (a n : Nat) : t.extNat a n = s.extNat a n := by rw [State.extNat, h.ext, State.extNat]

theorem extPoison (a n : Nat) : t.extPoison a n = s.extPoison a n := by
  simp only [State.extPoison, State.tag, State.tags_of_mask h.mask rfl]

theorem dirSlot (tid k : Nat) : t.dirSlot tid k = s.dirSlot tid k := by
  rw [State.dirSlot, State.cfgAddr, h.cfg (by decide) (by decide), h.cfg (by decide) (by decide), State.dirSlot, State.cfgAddr]

theorem slotRaw (tid k : Nat) : t.slotRaw tid k = s.slotRaw tid k := by rw [State.slotRaw, h.dirSlot, h.extNat, State.slotRaw]

theorem slotSt (tid k : Nat) : t.slotSt tid k = s.slotSt tid k := by
  rw [State.slotSt, h.dirSlot, h.extPoison, h.slotRaw, State.slotSt]

theorem shards (e : Tab) : t.shards e = s.shards e := by simp only [State.shards, State.shardRaw, h.extNat]

theorem entryOk (e : Tab) : t.entryOk e = s.entryOk e := by
  simp only [State.entryOk, State.mapsReadable, h.extPoison, State.membersOk, State.members, h.shards, State.shardRaw, h.extNat,
    show t.selfId = s.selfId from h.id]

theorem dirSlotBad (tid k : Nat) : t.dirSlotBad tid k = s.dirSlotBad tid k := by
  rw [State.dirSlotBad, h.slotSt, h.slotRaw, State.dirSlotBad]

theorem slotIn (tid st : Nat) : t.slotIn tid st = s.slotIn tid st := by simp only [State.slotIn, h.slotSt]

theorem tab (tid : Nat) : t.tab tid = s.tab tid := by
  unfold State.tab
  rw [h.dirSlotBad, h.dirSlotBad, h.slotIn]
  refine if_congr Iff.rfl rfl ?_
  cases s.slotIn tid 1 with
  | none => rfl
  | some k => simp only [h.slotRaw, h.entryOk]

theorem mapOwner (tid x : Nat) : t.mapOwner tid x = s.mapOwner tid x := by
  unfold State.mapOwner
  rw [h.tab]
  split
  · rw [h.shards]
  · rfl

theorem exc? (tid x : Nat) : t.exc? tid x = s.exc? tid x := State.exc?_congr (fun _ ho ho' => h.cfg ho ho') h.ext tid x

theorem excPut_isSome (tid x w : Nat) : (t.excPut tid x w).isSome = (s.excPut tid x w).isSome := by
  have hplaces : placesOf t.excBase t.excLog2 tid x = placesOf s.excBase s.excLog2 tid x :=
    State.excPlaces_congr (fun _ ho ho' => h.cfg ho ho') tid x
  unfold State.excPut
  rw [h.exc?]
  split
  · rfl
  · simp only [Option.isSome_map, hplaces, h.extNat]

end TagFreed

/-! ### What handing a row on leaves -/

/-- From `s` to `t` messages of a row have gone out: external memory, ROW's configuration, the moves under way and the entries that
wait stay. -/
structure HandsOn (s t : State) : Prop where
  banks : KeepsRowBanks s t
  ext : t.ext = s.ext
  moves : t.rows.moves = s.rows.moves
  rest : t.rows.migRest = s.rows.migRest

namespace HandsOn

variable {s t u : State}

theorem trans (h : HandsOn s t) (k : HandsOn t u) : HandsOn s u :=
  ⟨h.banks.trans k.banks, k.ext.trans h.ext, k.moves.trans h.moves, k.rest.trans h.rest⟩

theorem refl (s : State) : HandsOn s s := ⟨.of_regs rfl, rfl, rfl, rfl⟩

theorem ite {c : Prop} [Decidable c] (ht : HandsOn s t) (hu : HandsOn s u) : HandsOn s (if c then t else u) := by
  split
  · exact ht
  · exact hu

theorem foldl {α : Type} {f : State → α → State} (h : ∀ s x, HandsOn s (f s x)) (l : List α) (s : State) : HandsOn s (l.foldl f s) := by
  induction l generalizing s with
  | nil => exact .refl s
  | cons x l ih => exact (h s x).trans (ih _)

theorem of_noted (h : Noted s t) (hext : t.ext = s.ext) (hrows : t.rows = s.rows) : HandsOn s t :=
  ⟨.of_noted h, hext, by rw [hrows], by rw [hrows]⟩

end HandsOn

theorem State.err_handsOn (s : State) (P b : Nat) : HandsOn s (s.err P b) :=
  .of_noted (s.err_noted P b) (State.ext_of_mask (M := { regs := true, hq := true }) (s.err_mask _ rfl rfl P b) rfl)
    (State.rows_of_mask (M := { regs := true, hq := true }) (s.err_mask _ rfl rfl P b) rfl)

theorem State.count_handsOn (s : State) {P o : Nat} (n : Nat) (ho : 0xF00 ≤ o) (ho' : o < 0x1000) : HandsOn s (s.count P o n) :=
  .of_noted (s.count_noted n ho ho') (State.ext_of_mask (M := { regs := true }) (s.count_mask _ rfl P o n) rfl)
    (State.rows_of_mask (M := { regs := true }) (s.count_mask _ rfl P o n) rfl)

theorem State.request_handsOn (s : State) (use : TagUse) (p : Packet) : HandsOn s (s.request use p) :=
  ⟨s.request_keepsRowBanks use p, s.request_ext use p, by rw [s.request_rows], by rw [s.request_rows]⟩

theorem State.takeSeq_handsOn (s : State) (owner step : Nat) : HandsOn s (s.takeSeq owner step).2 := by
  unfold State.takeSeq
  dsimp only
  split <;> exact ⟨.of_regs rfl, rfl, rfl, rfl⟩

theorem State.sendVc3_handsOn (s : State) (use : TagUse) (t : Tab) (x owner step kind mult dimq : Nat) (grad : List Word) :
    HandsOn s (s.sendVc3 use t x owner step kind mult dimq grad) :=
  (s.takeSeq_handsOn owner step).trans (State.request_handsOn _ _ _)

theorem State.sendNotices_handsOn (s : State) (t : Tab) (x owner : Nat) : HandsOn s (s.sendNotices t x owner) := by
  unfold State.sendNotices
  refine .foldl (fun u m => ?_) _ _
  have hcount : ∀ n, HandsOn u { u with rows := { u.rows with notices := n } } := fun n => ⟨.of_regs rfl, rfl, rfl, rfl⟩
  exact (hcount _).trans (State.sendVc3_handsOn _ _ _ _ _ _ _ _ _ _)

/-- A word of the pool whose error is met (R402, R405). -/
theorem State.seeWord_pool_handsOn (s : State) (r w : Nat) : HandsOn s (s.seeWord (.pool r) w) := by
  have hlatent : ∀ l, HandsOn s { s with armed := { s.armed with latent := l } } := fun l => ⟨.of_regs rfl, rfl, rfl, rfl⟩
  have hcorrected : ∀ (u : State) P b, HandsOn u (u.corrected P b) := fun u P b =>
    (u.count_handsOn 1 (by decide) (by decide)).trans (State.err_handsOn _ P b)
  have hpoisoned : ∀ (u : State) P b, HandsOn u (u.poisoning P b) := fun u P b =>
    ((u.count_handsOn 1 (by decide) (by decide)).trans (State.err_handsOn _ P b)).trans (State.err_handsOn _ pERR 0)
  have hmark : ∀ (u : State) k m, HandsOn u (u.setMark k m) := fun u k m => ⟨.of_regs rfl, rfl, rfl, rfl⟩
  unfold State.seeWord
  split
  · exact .refl s
  · rename_i n rest _
    have hmet := hlatent rest
    dsimp only
    split
    · exact hmet.trans (hcorrected _ _ _)
    · exact (hmet.trans (hpoisoned _ _ _)).trans (hmark _ _ _)

theorem State.see_pool_handsOn (s : State) (r a n : Nat) : HandsOn s (s.see (.pool r) a n) :=
  .ite (.refl s) (.foldl (fun s w => s.seeWord_pool_handsOn r w) _ s)

theorem State.seeEntry_handsOn (s : State) (e : MergeEnt) : HandsOn s (s.seeEntry e) :=
  (s.see_pool_handsOn _ _ _).trans (State.see_pool_handsOn _ _ _ _)

theorem State.passOn_handsOn (s : State) (t : Tab) (x dest : Nat) : HandsOn s (s.passOn t x dest) := by
  have hdrop : ∀ es ws, HandsOn s { s with rows := { s.rows with merge := es, weir := ws } } := fun es ws => ⟨.of_regs rfl, rfl, rfl, rfl⟩
  have hlost : ∀ (u : State) n, HandsOn u (if n = 0 then u else (u.count pUPD 0xF34 n).err pUPD 0) := fun u n =>
    .ite (.refl u) ((u.count_handsOn n (by decide) (by decide)).trans (State.err_handsOn _ pUPD 0))
  have hupdate : ∀ (u : State) use step mult g, HandsOn u (u.sendUpdate use t x dest step mult g) := fun u use step mult g =>
    u.sendVc3_handsOn _ _ _ _ _ _ _ _ _
  unfold State.passOn
  refine HandsOn.trans ?_ (HandsOn.foldl (fun u e => hupdate u _ _ _ _) _ _)
  refine HandsOn.trans ?_ (HandsOn.foldl (fun u e => HandsOn.trans (t := u.takePicks _) ⟨.of_regs rfl, rfl, rfl, rfl⟩ (hupdate _ _ _ _ _)) _ _)
  exact ((hdrop _ _).trans (.foldl State.seeEntry_handsOn _ _)).trans (hlost _ _)

theorem State.setRegN_ext_rows (s : State) (P o n : Nat) : (s.setRegN P o n).ext = s.ext ∧ (s.setRegN P o n).rows = s.rows := ⟨rfl, rfl⟩

theorem State.setMig_handsOn (s : State) (busy done : Bool) (moved : Nat) : HandsOn s (s.setMig busy done moved) := by
  have hbanks := s.setMig_keepsRowBanks busy done moved
  unfold State.setMig at hbanks ⊢
  obtain ⟨hext, hrows⟩ := s.setRegN_ext_rows pROW 0xF04 (bit busy * 2 ^ 31 + bit done * 2 ^ 30 + min moved (2 ^ 17 - 1))
  exact ⟨hbanks, hext, by rw [hrows], by rw [hrows]⟩

/-- With no entry waiting, the list only learns whether it is finished. -/
theorem State.migCheck_idle {s : State} (h : s.rows.migRest = []) : s.migCheck = s ∨ ∃ moved, s.migCheck = s.setMig false true moved := by
  have hsame : ({ s with rows := { s.rows with migRest := [] } } : State) = s := by rw [← h]
  unfold State.migCheck
  rw [h]
  simp only [List.foldl_nil, hsame]
  split
  · exact .inr ⟨_, rfl⟩
  · exact .inl rfl

theorem State.migCheck_handsOn {s : State} (h : s.rows.migRest = []) : HandsOn s s.migCheck := by
  obtain hidle | ⟨moved, hdone⟩ := State.migCheck_idle h
  · rw [hidle]
    exact .refl s
  · rw [hdone]
    exact s.setMig_handsOn _ _ _

/-- Of ROW's registers the list writes MIG_STATUS alone. -/
theorem State.migCheck_reg {s : State} (h : s.rows.migRest = []) {o : Nat} (ho : o ≠ 0xF04) : s.migCheck.reg pROW o = s.reg pROW o := by
  obtain hidle | ⟨moved, hdone⟩ := State.migCheck_idle h
  · rw [hidle]
  · rw [hdone]
    exact State.reg_of_setRegN_other rfl ho

/-! ### A move settled -/

theorem State.move?_key {s : State} {tid x : Nat} {m : Move} (h : s.move? tid x = some m) : m.table = tid ∧ m.row = x := by
  have hkey := List.find?_some h
  simpa using hkey

theorem State.move?_dropMove (s : State) (tid x : Nat) : (s.dropMove tid x).move? tid x = none := by
  rw [State.move?, List.find?_eq_none]
  intro m hm
  simpa [or_iff_not_imp_left] using (List.mem_filter.1 hm).2

theorem HandsOn.move? {s t : State} (h : HandsOn s t) (tid x : Nat) : t.move? tid x = s.move? tid x := by rw [State.move?, h.moves, State.move?]

theorem HandsOn.exc? {s t : State} (h : HandsOn s t) (tid x : Nat) : t.exc? tid x = s.exc? tid x :=
  State.exc?_congr (fun _ ho ho' => h.banks.cfg ho ho') h.ext tid x

/-- An entry that finds its place is found there (R208). -/
theorem State.excPut_found {s : State} {tid x v : Nat} (h : (s.excPut tid x v).isSome = true) (hv : v < 2 ^ 128) (hhit : excHit tid x v = true) :
    ∃ a, s.excPut tid x v = some (s.extPutNat a 16 v) ∧ (s.extPutNat a 16 v).exc? tid x = some (a, v) := by
  unfold State.excPut at h ⊢
  cases he : s.exc? tid x with
  | some e =>
    obtain ⟨a, w⟩ := e
    refine ⟨a, rfl, State.exc?_extPutNat (State.exc?_some he).1 (fun e' he' => ?_) hv hhit⟩
    rw [he, Option.some.injEq] at he'
    rw [← he']
  | none =>
    rw [he] at h
    obtain ⟨a, ha⟩ := Option.isSome_iff_exists.1 (Option.isSome_map.symm.trans h)
    refine ⟨a, by rw [ha]; rfl, State.exc?_extPutNat (List.mem_of_find?_eq_some ha) (fun e' he' => ?_) hv hhit⟩
    rw [he] at he'
    cases he'

theorem State.extPutNat_rows (s : State) (a n v : Nat) : (s.extPutNat a n v).rows = s.rows :=
  State.rows_of_mask (M := rowMask) (s.extWrite_mask _ rfl rfl rfl rfl rfl _ _ _) rfl

/-- The GONE entry that an accepted move leaves (R210). -/
def goneBits (s : State) (m : Move) : Nat := excBits m.table m.row eGONE m.dest 0 ((s.now + s.cfgN pROW 0x140) % 2 ^ 32)

/-- The migration basin's sectors of a row that came here by a move of its own are free again. -/
def State.leaveBasin (s : State) (old : Option (Nat × Nat)) (m : Move) : State :=
  match old with
  | some (_, w) => if m.wasOwned then s.freeBasin (excSlot w) else s
  | none => s

theorem State.leaveBasin_handsOn (s : State) (old : Option (Nat × Nat)) (m : Move) : HandsOn s (s.leaveBasin old m) := by
  unfold State.leaveBasin
  split
  · exact .ite ⟨.of_regs rfl, rfl, rfl, rfl⟩ (.refl s)
  · exact .refl s

/-- Steps 4 and 5 of R210, once the move is no longer under way: what was merged follows the row, the new owner and the members are
told. -/
def State.tellMoved (s : State) (t : Tab) (m : Move) : State :=
  let s := s.passOn t m.row m.dest
  let s := s.request (.moveConfirm m.table m.row) (movePacket m.dest 2 0 m.table m.row [])
  let s := s.sendNotices t m.row m.dest
  s.setMig (nbit s.migStatus 31) (nbit s.migStatus 30) (nfld s.migStatus 16 0 + 1)

theorem State.tellMoved_handsOn (s : State) (t : Tab) (m : Move) : HandsOn s (s.tellMoved t m) := by
  have hpass := s.passOn_handsOn t m.row m.dest
  have hconfirm := hpass.trans (State.request_handsOn _ (.moveConfirm m.table m.row) (movePacket m.dest 2 0 m.table m.row []))
  have hnotice := hconfirm.trans (State.sendNotices_handsOn _ t m.row m.dest)
  exact hnotice.trans (State.setMig_handsOn _ _ _ _)

theorem State.moveAccepted_eq {s u : State} {m : Move} {t : Tab} (ht : s.tab m.table = .ok t) (howner : s.mapOwner m.table m.row ≠ some m.dest)
    (hput : s.excPut m.table m.row (goneBits s m) = some u) :
    s.moveAccepted m = (((u.leaveBasin (s.exc? m.table m.row) m).dropMove m.table m.row).tellMoved t m).migCheck := by
  have hroute : s.putRoute m.table m.row eGONE m.dest ((s.now + s.cfgN pROW 0x140) % 2 ^ 32) = some u := by
    rw [State.putRoute, if_neg howner]
    exact hput
  unfold State.moveAccepted
  rw [ht]
  dsimp only
  rw [hroute]
  rfl

/-- A move that is accepted leaves a GONE entry that names the new owner, and the move settled. -/
theorem State.moveAccepted_gone {s : State} {m : Move} {t : Tab} (ht : s.tab m.table = .ok t) (howner : s.mapOwner m.table m.row ≠ some m.dest)
    (hput : (s.excPut m.table m.row (goneBits s m)).isSome = true) (hrest : s.rows.migRest = []) (htable : m.table < 2 ^ 12) (hrow : m.row < 2 ^ 40)
    (hdest : m.dest < 2 ^ 13) :
    (s.moveAccepted m).move? m.table m.row = none ∧ ∃ a, (s.moveAccepted m).exc? m.table m.row = some (a, goneBits s m) := by
  obtain ⟨a, hsome, hfound⟩ := State.excPut_found hput (excBits_lt htable hrow (by decide) hdest) (excHit_excBits htable hrow (by decide) (by decide))
  have hleave := (s.extPutNat a 16 (goneBits s m)).leaveBasin_handsOn (s.exc? m.table m.row) m
  have htell := (((s.extPutNat a 16 (goneBits s m)).leaveBasin (s.exc? m.table m.row) m).dropMove m.table m.row).tellMoved_handsOn t m
  have hrest' : ((((s.extPutNat a 16 (goneBits s m)).leaveBasin (s.exc? m.table m.row) m).dropMove m.table m.row).tellMoved t m).rows.migRest = [] := by
    rw [htell.rest]
    exact hleave.rest.trans ((congrArg Rows.migRest (s.extPutNat_rows _ _ _)).trans hrest)
  have hdone := htell.trans (State.migCheck_handsOn hrest')
  rw [State.moveAccepted_eq ht howner hsome]
  refine ⟨(hdone.move? _ _).trans (State.move?_dropMove _ _ _), a, (hdone.exc? _ _).trans ?_⟩
  have hdrop : ∀ u : State, (u.dropMove m.table m.row).exc? m.table m.row = u.exc? m.table m.row := fun _ => rfl
  rw [hdrop, hleave.exc?, hfound]

/-- A move that is refused is settled, and counts in MIG_REFUSED. -/
theorem State.moveFailed_spec {s : State} {tid x : Nat} (hmove : (s.move? tid x).isSome = true) (hrest : s.rows.migRest = []) :
    (s.moveFailed tid x true).move? tid x = none ∧ (s.moveFailed tid x true).regN pROW 0xF34 = satAdd 32 (s.regN pROW 0xF34) 1
      ∧ (s.moveFailed tid x true).ext = s.ext := by
  have hcount := s.count_handsOn (P := pROW) (o := 0xF34) 1 (by decide) (by decide)
  have hfailed : s.moveFailed tid x true = ((s.count pROW 0xF34).dropMove tid x).migCheck := by
    rw [State.moveFailed, if_pos hmove]
    rfl
  have hrest' : ((s.count pROW 0xF34).dropMove tid x).rows.migRest = [] := hcount.rest.trans hrest
  have hcheck := State.migCheck_handsOn hrest'
  rw [hfailed]
  refine ⟨(hcheck.move? tid x).trans (State.move?_dropMove _ tid x), ?_, hcheck.ext.trans hcount.ext⟩
  rw [← State.regN_count_self]
  exact congrArg BitVec.toNat (State.migCheck_reg hrest' (by decide))

/-- One packet of a move less is unanswered (R330). -/
def State.moveStored (s : State) (tid x : Nat) : State :=
  { s with
    rows := { s.rows with
      moves := mapIf s.rows.moves (fun m => m.table == tid && m.row == x) fun m => { m with unanswered := m.unanswered - 1 } } }

theorem State.move?_moveStored {s : State} {tid x : Nat} {m : Move} (h : s.move? tid x = some m) :
    (s.moveStored tid x).move? tid x = some { m with unanswered := m.unanswered - 1 } := by
  have hmap := find?_mapIf s.rows.moves (fun m => m.table == tid && m.row == x) (fun m => { m with unanswered := m.unanswered - 1 }) fun _ => rfl
  unfold State.move? at h ⊢
  rw [h, Option.map_some] at hmap
  exact hmap

/-! ### The answers (R329) -/

section

variable {p : Packet} {s : State} {u : TagUse} (h : Replies s p [0x86] u) (hst : p.status = 0)
include h hst

/-- An answer to a ROW_MOVE in its turn hands the use of its tag on, with the tag freed. -/
theorem State.moveReply_replies (f : State → TagUse → State) : s.moveReply p (mvAnswer p) f = f (s.responded p) u := by
  obtain ⟨hup, hop, hdest, hok, hturn, hmatch, huse⟩ := h
  have hop' : p.op = 0x86 := List.mem_singleton.1 hop
  unfold State.moveReply State.responded
  simp only [hop', hst, State.receive, List.contains_cons, beq_self_eq_true, Bool.true_or, hdest, hturn, hok, State.respond, State.take_matches, hmatch,
    State.take_tagSt, huse, Bool.not_true, bne_self_eq_false, Bool.or_self, Bool.false_eq_true, if_true, if_false, decide_true, Bool.and_self]

section

variable {tid x : Nat} {lp : Bool} {m : Move} (hu : u = .move tid x lp)
include hu

theorem exec_accept (hm : s.move? tid x = some m) (ha : mvAnswer p = aACCEPT) : exec (.accept p) s = .next ((s.responded p).moveAccepted m) := by
  have hmine : (s.responded p).move? tid x = some m := by rw [State.move?, (s.responded_tagFreed p).rows, ← State.move?, hm]
  change execAccept p s = _
  rw [execAccept, State.engine_up h.1, ← ha, State.moveReply_replies h hst, hu]
  simp only [hmine]

theorem exec_refuse (ha : mvAnswer p = aREFUSE) : exec (.refuse p) s = .next ((s.responded p).moveFailed tid x true) := by
  change execRefuse p s = _
  rw [execRefuse, State.engine_up h.1, ← ha, State.moveReply_replies h hst, hu]

theorem exec_stored (ha : mvAnswer p = aSTORED) : exec (.stored p) s = .next ((s.responded p).moveStored tid x) := by
  change execStored p s = _
  rw [execStored, State.engine_up h.1, ← ha, State.moveReply_replies h hst, hu]
  rfl

end

section

variable {tid x : Nat} (hu : u = .query tid x)
include hu

theorem exec_held (ha : mvAnswer p = aHELD) : exec (.held p) s = .next ((s.responded p).settleRow tid x) := by
  change execHeld p s = _
  rw [execHeld, State.engine_up h.1, ← ha, State.moveReply_replies h hst, hu]

theorem exec_notHeld (ha : mvAnswer p = aNOT_HELD) : exec (.notHeld p) s = .next ((s.responded p).giveUpRow tid x) := by
  change execNotHeld p s = _
  rw [execNotHeld, State.engine_up h.1, ← ha, State.moveReply_replies h hst, hu]

end

end

/-- The entry and the place for it are those of the state that the answer came to. -/
theorem goneBits_responded (s : State) (p : Packet) (m : Move) : goneBits (s.responded p) m = goneBits s m := by
  have hfreed := s.responded_tagFreed p
  rw [goneBits, hfreed.now, State.cfgN, hfreed.cfg (by decide) (by decide), ← State.cfgN, goneBits]

theorem responded_moveAccepted {s : State} {p : Packet} {m : Move} {t : Tab} (ht : s.tab m.table = .ok t)
    (howner : s.mapOwner m.table m.row ≠ some m.dest) (hput : (s.excPut m.table m.row (goneBits s m)).isSome = true) (hrest : s.rows.migRest = [])
    (htable : m.table < 2 ^ 12) (hrow : m.row < 2 ^ 40) (hdest : m.dest < 2 ^ 13) :
    ((s.responded p).moveAccepted m).move? m.table m.row = none
      ∧ ∃ a, ((s.responded p).moveAccepted m).exc? m.table m.row = some (a, goneBits s m) := by
  have hfreed := s.responded_tagFreed p
  have hgone := State.moveAccepted_gone (s := s.responded p) (by rwa [hfreed.tab]) (by rwa [hfreed.mapOwner])
    (by rwa [hfreed.excPut_isSome, goneBits_responded]) (by rwa [hfreed.rows]) htable hrow hdest
  rwa [goneBits_responded] at hgone

/-- Settles O41: the new owner's answers by KIND, the refusal of another rack's, and the old owner's settling of each answer. -/
theorem rowsMoveToTheirNewOwner : Obligations.RowsMoveToTheirNewOwner := by
  unfold Obligations.RowsMoveToTheirNewOwner
  refine ⟨fun p s ha hlevel => ⟨fun i hi hkind => ⟨fun hnone => ?_, fun hsome => ?_⟩, fun hkind => ⟨fun hnone => ?_, fun i bs hfind hbs => ?_⟩,
    fun hkind => ?_, fun hkind => ?_⟩, fun c p s ha hlevel hc => ⟨_, exec_move_otherRack ha hlevel hc, refusedMove_spec s p⟩,
    fun p s u h hst => ⟨fun tid x lp m hu hm => ⟨exec_accept h hst hu hm, exec_refuse h hst hu, fun hans hrest hself t ht htable hrow hdest howner hput => ?_,
      fun hans hrest => ?_, fun hans => ?_⟩, fun tid x hu => ⟨exec_held h hst hu, exec_notHeld h hst hu⟩⟩⟩
  · obtain rfl : i = offered s p := hi
    have hlast : SettlesLast (.rowOffer p) s p (offered s p) := .of_exec (by rw [exec_rowOffer ha hlevel hkind, if_pos hnone])
    exact hlast
  · obtain rfl : i = offered s p := hi
    have hexec := exec_rowOffer ha hlevel hkind
    rw [if_neg hsome] at hexec
    exact ⟨_, hexec, awaited_spec s p _⟩
  · have hunknown : (s.takenMove p).joinState p = (s.takenMove p).answerMove p aREFUSE := State.joinState_none hnone
    refine ⟨_, by rw [exec_state ha hlevel hkind, hunknown], State.answerMove_answers rfl (.refl _) _, State.answer_rows _ _ _ _⟩
  · obtain rfl : bs = p.payload.drop 16 := hbs
    have hknown : (s.takenMove p).rows.inbound.find? (fun i => i.table == mvTable p && i.row == mvRow p && i.src == p.src) = some i := hfind
    have hexec := exec_state ha hlevel hkind
    have hnow : (s.takenMove p).now = s.now := s.take_now p
    have hjoined : i.join (s.takenMove p) p = i.join s p := by rw [Inbound.join, hnow, Inbound.join]
    rw [State.joinState_some hknown, hjoined] at hexec
    refine ⟨fun horder => ?_, fun horder hmore => ?_, fun horder hall => ?_⟩
    · rw [if_pos horder] at hexec
      exact ⟨_, hexec, outOfOrder_spec hknown⟩
    · rw [if_neg (not_not.2 horder), if_neg (by omega)] at hexec
      obtain ⟨hanswer, hmem, -⟩ := awaited_spec s p (i.join s p)
      exact ⟨_, hexec, hanswer, hmem⟩
    · rw [if_neg (not_not.2 horder), if_pos hall] at hexec
      have hlast : SettlesLast (.state p) s p { i.join s p with state := (i.state ++ p.payload.drop 16).take i.stateBytes } := .of_exec hexec
      exact hlast
  · have hmask := (s.takenMove p).settleRow_mask { rowMask with rows := true } rfl rfl rfl rfl rfl rfl (mvTable p) (mvRow p)
    exact ⟨_, exec_moveConfirm ha hlevel hkind, State.answerMove_answers (State.fab_of_mask hmask rfl) (State.settleRow_sameId _ _ _) _,
      State.answer_ext _ _ _ _, State.answer_rows _ _ _ _⟩
  · refine ⟨_, exec_query ha hlevel hkind, State.answer_rows _ _ _ _, (State.answer_ext _ _ _ _).trans (s.take_ext p), fun hgave => ?_, fun hkept => ?_⟩
    · rw [State.gaveTo_takenMove, State.gaveTo_iff.2 hgave]
      exact State.answerMove_answers rfl (.refl _) _
    · have hnot : ¬s.gaveTo (mvTable p) (mvRow p) p.src = true := fun hgave => by
        obtain ⟨a, w, he, hw⟩ := State.gaveTo_iff.1 hgave
        exact hkept a w he hw
      rw [State.gaveTo_takenMove, if_neg hnot]
      exact State.answerMove_answers rfl (.refl _) _
  · obtain ⟨rfl, rfl⟩ := State.move?_key hm
    obtain ⟨hsettled, a, hgone⟩ := responded_moveAccepted (p := p) ht howner hput hrest htable hrow hdest
    exact ⟨_, a, _, exec_accept h hst hu hm hans, hsettled, hgone, excState_excBits htable hrow (by decide), excOwner_excBits htable hrow (by decide) hdest⟩
  · have hfreed := s.responded_tagFreed p
    have hmine : ((s.responded p).move? tid x).isSome = true := by rw [State.move?, hfreed.rows, ← State.move?, hm]; rfl
    obtain ⟨hsettled, hcount, hext⟩ := State.moveFailed_spec hmine (by rwa [hfreed.rows])
    have hbefore : (s.responded p).regN pROW 0xF34 = s.regN pROW 0xF34 := congrArg BitVec.toNat (hfreed.reg 0xF34 (by decide))
    exact ⟨_, exec_refuse h hst hu hans, hsettled, by rw [hcount, hbefore], hext.trans hfreed.ext⟩
  · have hfreed := s.responded_tagFreed p
    have hmine : (s.responded p).move? tid x = some m := by rw [State.move?, hfreed.rows, ← State.move?, hm]
    exact ⟨_, exec_stored h hst hu hans, State.move?_moveStored hmine, hfreed.ext⟩

end Sys2Proof.Machine
end

section
/-! SUPPORT. The answers to row requests and update messages at the requester (R211, R230 to R233, R247, R332): what a packet that is
sent leaves of the fabric unit, how an answer in its turn is handed on, and what each answer and a timeout come to. -/

namespace Sys2Proof.Machine

open Sys2Proof

/-! ### What sending leaves of the fabric unit -/

/-- From `s` to `t` the fabric unit has changed in its ports and in the packets received only. -/
def PortsOnly (s t : State) : Prop := t.fab = { s.fab with ports := t.fab.ports, inbox := t.fab.inbox }

namespace PortsOnly

variable {s t u : State}

theorem of_fab (h : t.fab = s.fab) : PortsOnly s t := by rw [PortsOnly, h]

theorem refl (s : State) : PortsOnly s s := .of_fab rfl

theorem trans (h : PortsOnly s t) (k : PortsOnly t u) : PortsOnly s u := by
  unfold PortsOnly at *
  rw [k, h]

theorem ite {c : Prop} [Decidable c] (ht : PortsOnly s t) (hu : PortsOnly s u) : PortsOnly s (if c then t else u) := by
  split
  · exact ht
  · exact hu

theorem tagSt (h : PortsOnly s t) (k : Nat) : t.tagSt k = s.tagSt k := by rw [State.tagSt, h, State.tagSt]

end PortsOnly

theorem State.setPort_portsOnly (s : State) (n : Nat) (x : Port) : PortsOnly s (s.setPort n x) := rfl

theorem State.count_portsOnly (s : State) (P o n : Nat) : PortsOnly s (s.count P o n) :=
  .of_fab (State.fab_of_mask (M := { regs := true }) (s.count_mask _ rfl P o n) rfl)

theorem State.err_portsOnly (s : State) (P b : Nat) : PortsOnly s (s.err P b) :=
  .of_fab (State.fab_of_mask (M := { regs := true, hq := true }) (s.err_mask _ rfl rfl P b) rfl)

theorem State.flitsLeave_portsOnly (s : State) (n vc k : Nat) : PortsOnly s (s.flitsLeave n vc k) := by
  have hcount : PortsOnly s (s.count pVCH (0xF00 + 4 * vc) k) := s.count_portsOnly _ _ k
  unfold State.flitsLeave
  exact .ite ((hcount.trans (State.setPort_portsOnly _ n _)).trans (State.count_portsOnly _ _ _ 1)) hcount

theorem State.sendHead_portsOnly (s : State) (n vc : Nat) : PortsOnly s (s.sendHead n vc) := by
  unfold State.sendHead
  dsimp only
  split
  · exact (s.setPort_portsOnly n _).trans (State.flitsLeave_portsOnly _ n vc _)
  · exact .refl s

theorem State.arbTurn_portsOnly (s : State) (n : Nat) : PortsOnly s (s.arbTurn n) := by
  unfold State.arbTurn
  dsimp only
  split
  · exact s.setPort_portsOnly n _
  · exact .ite ((s.setPort_portsOnly n _).trans (State.sendHead_portsOnly _ n _)) (s.setPort_portsOnly n _)

theorem State.arbStep_portsOnly (s : State) (n : Nat) : PortsOnly s (s.arbStep n) := by
  unfold State.arbStep
  dsimp only
  split
  · exact .ite (s.sendHead_portsOnly n 0) (s.arbTurn_portsOnly n)
  · exact s.arbTurn_portsOnly n

theorem State.pumpFuel_portsOnly (n fuel : Nat) (s : State) : PortsOnly s (State.pumpFuel n fuel s) := by
  induction fuel generalizing s with
  | zero => exact .refl s
  | succ fuel ih => exact .ite ((s.arbStep_portsOnly n).trans (ih _)) (.refl s)

theorem State.sendOut_portsOnly (s : State) (p : Packet) (from_ : Option Nat) : PortsOnly s (s.sendOut p from_) := by
  unfold State.sendOut
  split
  · rfl
  · split
    · exact (State.setPort_portsOnly s _ _).trans (State.pumpFuel_portsOnly _ _ _)
    · exact (s.count_portsOnly _ _ 1).trans (State.err_portsOnly _ pFAB 5)

/-- A packet that is sent leaves every tag as it was. -/
theorem State.send_tagSt (s : State) (p : Packet) (k : Nat) : (s.send p).tagSt k = s.tagSt k :=
  (State.sendOut_portsOnly _ p none).tagSt k

/-! ### An answer in its turn -/

/-- A well-formed response `p` of STATUS OK and of a KIND `k` listed for its OP, to this engine and in its turn (R18, R228, R247). -/
structure AnswerComes (s : State) (p : Packet) (k : Nat) : Prop where
  up : s.up = true
  dest : p.dest = s.selfId
  ok : packetOk p = true
  turn : s.packetTurn p (s.flowOf p) = true
  status : p.status = 0
  op : p.op = 0x84 ∨ p.op = 0x85
  listed : k ∈ ansKinds p.op
  kind : respKind p = k

namespace AnswerComes

variable {s : State} {p : Packet} {k : Nat} (h : AnswerComes s p k)
include h

theorem answerOf : answerOf p = some k := by
  simp [Machine.answerOf, h.status, h.kind, h.listed]

/-- The answer is taken and acted on. -/
theorem receiveAns (f : State → State) : s.receiveAns p k f = f (s.take p) := by
  have hop : ((if (ansKinds 0x84).contains k then [0x84] else []) ++ (if (ansKinds 0x85).contains k then [0x85] else [])).contains p.op = true := by
    have hlisted : (ansKinds p.op).contains k = true := List.contains_iff_mem.2 h.listed
    rw [List.contains_iff_mem, List.mem_append]
    obtain hop | hop := h.op
    · rw [hop] at hlisted ⊢
      exact .inl (by rw [if_pos hlisted]; exact List.mem_singleton.2 rfl)
    · rw [hop] at hlisted ⊢
      exact .inr (by rw [if_pos hlisted]; exact List.mem_singleton.2 rfl)
  unfold State.receiveAns State.receive
  simp only [h.answerOf, hop, h.dest, h.turn, h.ok, bne_self_eq_false, Bool.and_false, Bool.false_and, Bool.or_false, Bool.not_true, Bool.false_eq_true,
    if_false]

end AnswerComes

/-- The response `p` to a request whose tag is in use for `u` hands that use on, with the tag freed (R332). -/
theorem State.take_respond {s : State} {p : Packet} {u : TagUse} (hmatch : s.matches p = true) (huse : (s.tagSt p.tag).use = some u)
    (f : State → TagUse → State) : (s.take p).respond p f = f (s.responded p) u := by
  simp only [State.respond, State.take_matches, hmatch, State.take_tagSt, huse, Bool.not_true, Bool.false_eq_true, if_false, State.responded]

/-- A response that matches no tag in use is counted, and no more (R332). -/
theorem State.take_respond_late {s : State} {p : Packet} (hlate : s.matches p = false) (f : State → TagUse → State) :
    (s.take p).respond p f = (s.take p).count pFAB 0xF10 := by
  simp only [State.respond, State.take_matches, hlate, Bool.not_false, if_true, State.lateDrop]

theorem Replies.answerComes {s : State} {p : Packet} {u : TagUse} {k : Nat} (h : Replies s p [0x84, 0x85] u) (hst : p.status = 0)
    (hkind : respKind p = k) (hlisted : k ∈ ansKinds p.op) : AnswerComes s p k := by
  obtain ⟨hup, hop, hdest, hok, hturn, -, -⟩ := h
  exact ⟨hup, hdest, hok, hturn, hst, by simpa using hop, hlisted, hkind⟩

/-- The kinds that may answer a row request and an update message alike (R228, R247). -/
theorem forward_listed {p : Packet} : kFORWARD ∈ ansKinds p.op ∧ kNOT_OWNER ∈ ansKinds p.op := by
  unfold ansKinds
  split <;> decide

/-! ### The answers -/

section

variable {s : State} {p : Packet} {u : TagUse} (h : Replies s p [0x84, 0x85] u) (hst : p.status = 0)
include h hst

/-- An answer of KIND `k` in its turn hands the use of its tag on, with the tag freed. -/
theorem State.receiveAns_replies {k : Nat} (hkind : respKind p = k) (hlisted : k ∈ ansKinds p.op) (f : State → TagUse → State) :
    (s.engine fun s => s.receiveAns p k fun s => s.respond p f) = .next (f (s.responded p) u) := by
  have hcomes := h.answerComes hst hkind hlisted
  obtain ⟨-, -, -, -, -, hmatch, huse⟩ := h
  rw [State.engine_up hcomes.up, hcomes.receiveAns, State.take_respond hmatch huse]

theorem exec_row_replies {r tid x n : Nat} {pr : Bool} {pf : Option (Nat × Nat)} (hu : u = .row r tid x n pr pf) (hop : p.op = 0x84)
    (hkind : respKind p = kROW) : exec (.row p) s = .next ((s.responded p).rowCame r tid x pr pf p) := by
  subst hu
  exact State.receiveAns_replies h hst hkind (by rw [hop]; decide) _

theorem exec_current_replies {r tid x n : Nat} {pr : Bool} {pf : Option (Nat × Nat)} (hu : u = .row r tid x n pr pf) (hop : p.op = 0x84)
    (hkind : respKind p = kCURRENT) : exec (.current p) s = .next (((s.responded p).prefetchDone pf).currentCame r tid x) := by
  subst hu
  exact State.receiveAns_replies h hst hkind (by rw [hop]; decide) _

/-- NOT_OWNER fails what the tag was taken for; poisoned and to an update message, as a fault of its data (R233, R247). -/
theorem exec_notOwner_replies (hkind : respKind p = kNOT_OWNER) :
    exec (.notOwner p) s = .next ((s.responded p).useFailed u (if p.op = 0x85 && anyBad p then fECC else fCFG)) :=
  State.receiveAns_replies h hst hkind forward_listed.2 _

theorem exec_stale_replies (hkind : respKind p = kSTALE) (hop : p.op = 0x85) : exec (.stale p) s = .next ((s.responded p).useFailed u fCFG) :=
  State.receiveAns_replies h hst hkind (by rw [hop]; decide) _

theorem exec_merged_replies {b i : Nat} {rows : List Nat} (hu : u = .update b i rows) (hop : p.op = 0x85) (hkind : respKind p = kMERGED) :
    exec (.merged p) s = .next ((s.responded p).arrived b i) := by
  subst hu
  exact State.receiveAns_replies h hst hkind (by rw [hop]; decide) _

theorem exec_forward_comes (hkind : respKind p = kFORWARD) : exec (.forward p) s = .next ((s.take p).forwarded p) := by
  have hcomes := h.answerComes hst hkind forward_listed.1
  change execForward p s = _
  rw [execForward, State.engine_up hcomes.up, hcomes.receiveAns]

/-- A request that is forwarded a second time fails (R211). -/
theorem exec_forward_again (hkind : respKind p = kFORWARD) (hretried : (s.tagSt p.tag).retried = true) :
    exec (.forward p) s = .next (((s.responded p).count pROW 0xF1C).useFailed u fFORWARD) := by
  have hexec := exec_forward_comes h hst hkind
  obtain ⟨-, -, -, -, -, hmatch, huse⟩ := h
  rw [hexec, State.forwarded, State.take_matches, hmatch, State.take_tagSt, hretried, if_neg (by decide), if_pos rfl, State.take_respond hmatch huse]

/-- A request that is forwarded for the first time is resent (R211). -/
theorem exec_forward_first (hkind : respKind p = kFORWARD) (hretried : (s.tagSt p.tag).retried = false) :
    exec (.forward p) s = .next ((s.take p).forwardRetry p) := by
  have hexec := exec_forward_comes h hst hkind
  obtain ⟨-, -, -, -, -, hmatch, -⟩ := h
  rw [hexec, State.forwarded, State.take_matches, hmatch, State.take_tagSt, hretried, if_neg (by decide), if_neg (by decide)]

end

/-- MERGED of a record's gradient: the record waits for one message less. -/
theorem State.barge?_responded_arrived {s : State} {b : Nat} {x : Barge} (hx : s.barge? b = some x) (p : Packet) (i : Nat) :
    ((s.responded p).arrived b i).barge? b = some (x.setOp i fun o => { o with outstanding := o.outstanding - 1 }) := by
  have hsv : (s.responded p).sv = s.sv := (State.freeTag_sv _ _).trans (s.take_sv p)
  have hx' : (s.responded p).barge? b = some x := by rw [State.barge?, hsv]; exact hx
  exact State.barge?_updBarge_self hx' fun _ => rfl

/-! ### The retry -/

/-- A message made out to another owner keeps its tag and generation, and changes no more than the row store's SEQUENCEs. -/
theorem State.reseq_spec (s : State) (p : Packet) (owner : Nat) :
    ((s.reseq p owner).1.dest = owner ∧ (s.reseq p owner).1.tag = p.tag ∧ (s.reseq p owner).1.gen = p.gen)
      ∧ (s.reseq p owner).2.fab = s.fab ∧ ∀ Q x, (s.reseq p owner).2.reg Q x = s.reg Q x := by
  have hfab := State.fab_of_mask (M := { rows := true }) (State.takeSeq_mask _ rfl s owner (mStep p)) rfl
  unfold State.reseq
  split
  · exact ⟨⟨rfl, rfl, rfl⟩, hfab, fun _ _ => congrArg (SMap.get regReset · _) (s.takeSeq_regs owner _)⟩
  · exact ⟨⟨rfl, rfl, rfl⟩, rfl, fun _ _ => rfl⟩

/-- The retry counts in FORWARD_RETRIES, goes to the owner named, and stands under the same tag and generation (R211). -/
theorem State.forwardRetry_spec (s : State) (p : Packet) :
    ∃ q, (s.forwardRetry p).fab.sent = s.fab.sent ++ [q] ∧ q.dest = respOwner p ∧ q.tag = (s.tagSt p.tag).request.tag
      ∧ q.gen = (s.tagSt p.tag).request.gen ∧ (s.forwardRetry p).regN pROW 0xF18 = satAdd 32 (s.regN pROW 0xF18) 1
      ∧ (s.forwardRetry p).tagSt p.tag = { s.tagSt p.tag with retried := true, request := q } := by
  obtain ⟨⟨hdest, htag, hgen⟩, hfab, hreg⟩ := (s.count pROW 0xF18).reseq_spec (s.tagSt p.tag).request (respOwner p)
  have hcount : (s.count pROW 0xF18).fab = s.fab := State.fab_of_mask (M := { regs := true }) (s.count_mask _ rfl pROW 0xF18 1) rfl
  refine ⟨_, (State.send_sent _ _).trans ?_, hdest, htag, hgen, ?_, (State.send_tagSt _ _ _).trans (SMap.get_put_self _ _ _ _)⟩
  · rw [← hcount, ← hfab]
    rfl
  · rw [← State.regN_count_self]
    exact congrArg BitVec.toNat ((State.send_reg _ _ (by decide) (by decide) (by decide) (by decide)).trans (hreg pROW 0xF18))

/-! ### A late response, and a timeout -/

/-- A response to no tag in use changes nothing but the count of late responses (R332). -/
theorem exec_late {c : Instr} {p : Packet} {s : State} {k : Nat} (h : AnswerComes s p k) (hlate : s.matches p = false)
    (hc : c = .row p ∧ k = kROW ∨ c = .current p ∧ k = kCURRENT ∨ c = .forward p ∧ k = kFORWARD ∨ c = .notOwner p ∧ k = kNOT_OWNER) :
    exec c s = .next ((s.take p).count pFAB 0xF10) := by
  have hrespond : ∀ f, (s.engine fun s => s.receiveAns p k fun s => s.respond p f) = .next ((s.take p).count pFAB 0xF10) := fun f => by
    rw [State.engine_up h.up, h.receiveAns, State.take_respond_late hlate]
  obtain ⟨rfl, rfl⟩ | ⟨rfl, rfl⟩ | ⟨rfl, rfl⟩ | ⟨rfl, rfl⟩ := hc
  · exact hrespond _
  · exact hrespond _
  · change execForward p s = _
    rw [execForward, State.engine_up h.up, h.receiveAns, State.forwarded, State.take_matches, hlate, Bool.not_false, if_pos rfl, State.lateDrop]
  · exact hrespond _

theorem exec_transactionTimeout {s : State} {k : Nat} {u : TagUse} (hup : s.up = true) (huse : (s.tagSt k).use = some u) :
    exec (.transactionTimeout k) s = .next (if (s.tagSt k).since + s.fabTimeout ≤ s.now then
      (((s.setTagSt k { gen := (s.tagSt k).gen, quarantine := some (s.now + s.fabTimeout) }).count pFAB 0xF0C).err pFAB 3).useFailed u fTIMEOUT
      else s) := by
  change execTransactionTimeout k s = _
  rw [execTransactionTimeout, State.engine_up hup, State.tagTimeout]
  simp only [huse]

/-- Settles O40: each answer by KIND, the retry of a FORWARD, the late response, and the timeout of a tag. -/
theorem answersReachTheirRequester : Obligations.AnswersReachTheirRequester := by
  unfold Obligations.AnswersReachTheirRequester
  refine ⟨fun p s u h hst => ⟨fun r tid x n pr pf hu hop => ⟨exec_row_replies h hst hu hop, exec_current_replies h hst hu hop⟩,
      fun hkind hsound => ?_, fun hkind hop hbad => ?_, exec_stale_replies h hst, fun b i rows x hu hop hkind hx => ?_, fun hkind hfirst => ?_,
      exec_forward_again h hst⟩,
    fun c p s hup hdest hok hop hst hturn hlate hc => ?_, fun k s u hup huse => ⟨fun hover => ?_, fun hbefore => ?_⟩⟩
  · have hfate : ¬(p.op = 0x85 && anyBad p) = true := by
      obtain hop | hbad := hsound
      · simp [hop]
      · simp [hbad]
    rw [exec_notOwner_replies h hst hkind, if_neg hfate, State.responded]
  · rw [exec_notOwner_replies h hst hkind, if_pos (by simp [hop, hbad]), State.responded]
  · exact ⟨_, _, exec_merged_replies h hst hu hop hkind, State.barge?_responded_arrived hx p i, rfl⟩
  · obtain ⟨q, hsent, hdest, htag, hgen, hcount, hkept⟩ := (s.take p).forwardRetry_spec p
    have hexec := exec_forward_first h hst hkind hfirst
    obtain ⟨-, -, -, -, -, -, huse⟩ := h
    rw [State.take_tagSt] at htag hgen hkept
    rw [State.take_sent] at hsent
    rw [State.take_regN] at hcount
    exact ⟨_, q, hexec, hcount, hsent, hdest, htag, hgen, by rw [hkept]; exact huse, by rw [hkept], by rw [hkept]⟩
  · have hcomes : ∀ k, k ∈ ansKinds 0x84 → respKind p = k → AnswerComes s p k := fun k hk hkind =>
      ⟨hup, hdest, hok, hturn, hst, .inl hop, by rwa [hop], hkind⟩
    obtain ⟨hc, hkind⟩ | ⟨hc, hkind⟩ | ⟨hc, hkind⟩ | ⟨hc, hkind⟩ := hc
    · exact exec_late (hcomes kROW (by decide) hkind) hlate (.inl ⟨hc, rfl⟩)
    · exact exec_late (hcomes kCURRENT (by decide) hkind) hlate (.inr (.inl ⟨hc, rfl⟩))
    · exact exec_late (hcomes kFORWARD (by decide) hkind) hlate (.inr (.inr (.inl ⟨hc, rfl⟩)))
    · exact exec_late (hcomes kNOT_OWNER (by decide) hkind) hlate (.inr (.inr (.inr ⟨hc, rfl⟩)))
  · rw [exec_transactionTimeout hup huse, if_pos hover]
  · rw [exec_transactionTimeout hup huse, if_neg (by omega)]

end Sys2Proof.Machine
end

section
/-! SUPPORT. Merging a gradient (R251, R253, R254): what the weir takes, what its header's note, a changed entry and its bytes in the
pool leave of the update state and of the engine's id, and the outcomes of a merge one by one. -/

namespace Sys2Proof.Machine

open Sys2Proof

/-! ### The update state -/

@[simp] theorem State.count_rows (s : State) (P o n : Nat) : (s.count P o n).rows = s.rows :=
  State.rows_of_mask (M := { regs := true }) (s.count_mask _ rfl P o n) rfl

@[simp] theorem State.extWrite_rows (s : State) (a : Nat) (bs : List Byte) (poison : Bool) : (s.extWrite a bs poison).rows = s.rows :=
  State.rows_of_mask (M := { regs := true, ext := true, tags := true, hq := true, armed := true })
    (s.extWrite_mask _ rfl rfl rfl rfl rfl a bs poison) rfl

@[simp] theorem State.seeEntry_rows (s : State) (e : MergeEnt) : (s.seeEntry e).rows = s.rows :=
  State.rows_of_mask (M := { regs := true, marks := true, hq := true, tileErrs := true, armed := true })
    (s.seeEntry_mask _ rfl rfl rfl rfl rfl e) rfl

@[simp] theorem State.putEntry_rows (s : State) (e : MergeEnt) (new : Bool) : (s.putEntry e new).rows = s.rows :=
  State.rows_of_mask
    (M := { regs := true, ext := true, tags := true, scratch := true, pool := true, pound := true, marks := true, hq := true
            tileErrs := true, armed := true })
    (s.putEntry_mask _ rfl rfl rfl rfl rfl rfl rfl rfl rfl rfl e new) rfl

/-- The note of the highest step is all that the row store shows of it (R458). -/
theorem State.noteHighest_rows (s : State) (step : Nat) :
    (s.noteHighest step).rows = { s.rows with weirHighest := (s.noteHighest step).rows.weirHighest } := by
  unfold State.noteHighest
  split
  · split
    · rw [State.writeWeir, State.extWrite_rows]
    · rfl
  · rw [State.writeWeir, State.extWrite_rows]

theorem State.noteHighest_noted (s : State) (step : Nat) : Noted s (s.noteHighest step) := by
  have hwrite : ∀ u : State, u.hq = s.hq → u.regs = s.regs → Noted s u.writeWeir := fun u hhq hregs =>
    (Noted.of_same hhq hregs).trans (u.extWrite_noted _ _ _)
  unfold State.noteHighest
  split
  · exact .ite (hwrite _ rfl rfl) (.refl s)
  · exact hwrite _ rfl rfl

/-- After a change of the merge entries these are as given, and the weir's messages are as they were. -/
theorem State.setMerge_rows (s : State) (es : List MergeEnt) (e : MergeEnt) (new : Bool) :
    (s.setMerge es e new).rows = { (s.noteHighest e.step).rows with merge := es } := by
  rw [State.setMerge, State.putEntry_rows, State.count_rows]

theorem State.setMerge_merge (s : State) (es : List MergeEnt) (e : MergeEnt) (new : Bool) : (s.setMerge es e new).rows.merge = es := by
  rw [State.setMerge_rows]

theorem State.setMerge_weir (s : State) (es : List MergeEnt) (e : MergeEnt) (new : Bool) :
    (s.setMerge es e new).rows.weir = s.rows.weir := by
  rw [State.setMerge_rows, State.noteHighest_rows]

/-! ### The engine's id -/

theorem SameId.foldl {α : Type} {f : State → α → State} (h : ∀ s x, SameId s (f s x)) (l : List α) (s : State) : SameId s (l.foldl f s) :=
  State.selfId_foldl f h l s

theorem State.noteHighest_sameId (s : State) (step : Nat) : SameId s (s.noteHighest step) := by
  have hwrite : ∀ u : State, u.regs = s.regs → SameId s u.writeWeir := fun u hregs => SameId.trans (.of_regs hregs) (u.extWrite_sameId _ _ _)
  unfold State.noteHighest
  split
  · exact .ite (hwrite _ rfl) (.refl s)
  · exact hwrite _ rfl

/-- A word of the pool that is lost. -/
theorem State.wordLost_sameId (s : State) (r k : Nat) (m : Mark) :
    SameId s (((s.poisoning (Store.pool r).page 2).countTileErr (.pool r) true).setMark k m) :=
  SameId.trans (t := s.poisoning (Store.pool r).page 2) (s.selfId_poisoning _ _) (.of_regs rfl)

theorem State.seeWord_pool_sameId (s : State) (r w : Nat) : SameId s (s.seeWord (.pool r) w) := by
  unfold State.seeWord
  split
  · exact .refl s
  · rename_i rest _
    have hmet : SameId s { s with armed := { s.armed with latent := rest } } := .of_regs rfl
    exact .ite (hmet.trans ((State.count_sameId (P := pERR) (o := 0xF14) _ 1 (by decide)).trans (State.selfId_err _ _ _)))
      (hmet.trans (State.wordLost_sameId _ r _ _))

theorem State.seeEntry_sameId (s : State) (e : MergeEnt) : SameId s (s.seeEntry e) := by
  have hsee : ∀ (u : State) a n, SameId u (u.see (.pool e.region) a n) := fun u a n =>
    .ite (.refl u) (.foldl (fun v w => v.seeWord_pool_sameId e.region w) _ u)
  exact (hsee s _ _).trans (hsee _ _ _)

/-- An error armed for a region's SRAM that a write meets (R414). -/
theorem State.strike_pool_sameId (s : State) (r w : Nat) : SameId s (s.strike (.pool r) w) := by
  unfold State.strike
  dsimp only
  split
  · rename_i rest _
    have hstruck : SameId s (State.count { s with armed := { s.armed with sram := rest } } pERR 0xF34) :=
      SameId.trans (t := { s with armed := { s.armed with sram := rest } }) (.of_regs rfl) (State.count_sameId _ 1 (by decide))
    exact .ite (hstruck.trans (State.wordLost_sameId _ r _ _)) (hstruck.trans (.of_regs rfl))
  · exact .refl s

theorem State.writeMark_pool_sameId (s : State) (r a n : Nat) (pend : LockMask) (poison : Bool) (w : Nat) :
    SameId s (s.writeMark (.pool r) a n pend poison w) := by
  unfold State.writeMark
  refine SameId.trans ?_ (State.strike_pool_sameId _ r w)
  exact .of_regs rfl

theorem State.wr_pool_sameId (s : State) (r a : Nat) (bs : List Byte) (pend : LockMask) (poison : Bool) :
    SameId s (s.wr (.pool r) a bs pend poison) :=
  SameId.trans (t := { s with pool := Mem.write s.pool (r * poolBytes + a) bs }) (.of_regs rfl)
    (.foldl (fun u w => u.writeMark_pool_sameId r a _ pend poison w) _ _)

theorem State.putEntry_sameId (s : State) (e : MergeEnt) (new : Bool) : SameId s (s.putEntry e new) := by
  unfold State.putEntry
  exact (SameId.ite (s.wr_pool_sameId _ _ _ _ _) (.refl s)).trans (State.wr_pool_sameId _ _ _ _ _ _)

theorem State.setMerge_sameId (s : State) (es : List MergeEnt) (e : MergeEnt) (new : Bool) : SameId s (s.setMerge es e new) := by
  have hnoted : SameId s { s.noteHighest e.step with rows := { (s.noteHighest e.step).rows with merge := es } } :=
    (s.noteHighest_sameId e.step).trans (.of_regs rfl)
  exact hnoted.trans ((State.count_sameId (P := pUPD) (o := 0xF08) _ 1 (by decide)).trans (State.putEntry_sameId _ _ _))

/-! ### The weir (R253) -/

/-- A merge's outcome when the gradient has to go to the weir. -/
def State.spill (s : State) (m : WeirMsg) (bytes : List Byte) : MergeRes :=
  (((s.noteHighest m.step).toWeir m bytes).map MergeRes.held).getD .full

/-- The message as the weir holds it, behind those that its half has. -/
def State.weirMsg (s : State) (m : WeirMsg) (bytes : List Byte) : WeirMsg :=
  { m with
    addr := s.cfgAddr pUPD 0x108 + 4096 + m.step % 2 * s.weirHalf + s.rows.weirUsed.getD (m.step % 2) 0
    bytes := (pad64 bytes).length }

/-- The half of the message's step has no room for it. -/
def State.HalfFull (s : State) (m : WeirMsg) (bytes : List Byte) : Prop :=
  s.weirHalf < s.rows.weirUsed.getD (m.step % 2) 0 + (pad64 bytes).length

theorem State.toWeir_of_full {s : State} {m : WeirMsg} {bytes : List Byte} (h : s.HalfFull m bytes) : s.toWeir m bytes = none := if_pos h

theorem State.toWeir_of_room {s : State} {m : WeirMsg} {bytes : List Byte} (h : ¬s.HalfFull m bytes) :
    ∃ u, s.toWeir m bytes = some u ∧ u.rows.merge = s.rows.merge ∧ u.rows.weir = s.rows.weir ++ [s.weirMsg m bytes] ∧ SameId s u := by
  refine ⟨_, if_neg h, ?_, ?_, ?_⟩
  · rw [State.count_rows, State.extWrite_rows]
  · rw [State.count_rows, State.extWrite_rows]
    rfl
  · exact ((s.extWrite_sameId _ _ _).trans (.of_regs rfl)).trans (State.count_sameId (P := pUPD) (o := 0xF18) _ 1 (by decide))

section

variable {s t : State} (h : Noted s t)
include h

theorem Noted.weirHalf : t.weirHalf = s.weirHalf := by
  rw [State.weirHalf, State.cfgN, h.cfg (by decide) (by decide) (by decide) (by decide) (by decide), State.weirHalf, State.cfgN]

variable (hused : t.rows.weirUsed = s.rows.weirUsed)
include hused

theorem Noted.halfFull_iff (m : WeirMsg) (bytes : List Byte) : t.HalfFull m bytes ↔ s.HalfFull m bytes := by
  rw [State.HalfFull, h.weirHalf, hused, State.HalfFull]

theorem Noted.weirMsg (m : WeirMsg) (bytes : List Byte) : t.weirMsg m bytes = s.weirMsg m bytes := by
  rw [State.weirMsg, h.weirHalf, hused, h.cfgAddr (by decide) (by decide) (by decide) (by decide) (by decide), State.weirMsg]

end

theorem State.spill_of_full {s : State} {m : WeirMsg} {bytes : List Byte} (h : s.HalfFull m bytes) : s.spill m bytes = .full := by
  have hused : (s.noteHighest m.step).rows.weirUsed = s.rows.weirUsed := by rw [State.noteHighest_rows]
  rw [State.spill, State.toWeir_of_full (((s.noteHighest_noted m.step).halfFull_iff hused m bytes).2 h)]
  rfl

/-- A gradient that its half of the weir has room for stands at the end of the weir's messages. -/
theorem State.spill_of_room {s : State} {m : WeirMsg} {bytes : List Byte} (h : ¬s.HalfFull m bytes) :
    ∃ u, s.spill m bytes = .held u ∧ u.rows.merge = s.rows.merge ∧ u.rows.weir = s.rows.weir ++ [s.weirMsg m bytes] ∧ SameId s u := by
  have hnoted := s.noteHighest_noted m.step
  have hused : (s.noteHighest m.step).rows.weirUsed = s.rows.weirUsed := by rw [State.noteHighest_rows]
  have hmerge : (s.noteHighest m.step).rows.merge = s.rows.merge := by rw [State.noteHighest_rows]
  have hweir : (s.noteHighest m.step).rows.weir = s.rows.weir := by rw [State.noteHighest_rows]
  obtain ⟨u, hu, humerge, huweir, huid⟩ := State.toWeir_of_room ((hnoted.halfFull_iff hused m bytes).not.2 h)
  refine ⟨u, by rw [State.spill, hu]; rfl, humerge.trans hmerge, ?_, (s.noteHighest_sameId m.step).trans huid⟩
  rw [huweir, hweir, hnoted.weirMsg hused]

/-! ### The merge buffer (R251) -/

/-- The entry is of the gradient's table, row and step. -/
def sameKey (m : WeirMsg) (e : MergeEnt) : Bool := e.table == m.table && e.row == m.row && e.step == m.step

theorem sameKey_iff {m : WeirMsg} {e : MergeEnt} : sameKey m e = true ↔ e.table = m.table ∧ e.row = m.row ∧ e.step = m.step := by
  simp [sameKey, and_assoc]

/-- An entry that one more gradient has joined. -/
def State.joined (s : State) (m : WeirMsg) (e : MergeEnt) : MergeEnt :=
  { e with mult := (e.mult + m.mult) % 2 ^ 40, grads := e.grads ++ [m.grad], poison := (s.seeEntry e).entryBad e || m.poison }

/-- An entry that a gradient opens at an index place, with its data at an offset. -/
def newEntry (m : WeirMsg) (k o : Nat) : MergeEnt :=
  { table := m.table, row := m.row, step := m.step, region := mergeRegion m.table m.row, place := k, ofs := o, mult := m.mult
    grads := [m.grad], poison := m.poison }

/-- The state in which the gradient has joined the entry `e`. -/
def State.joinEntry (s : State) (m : WeirMsg) (e : MergeEnt) : State :=
  (s.seeEntry e).setMerge (mapIf s.rows.merge (sameKey m) fun _ => s.joined m e) (s.joined m e) false

/-- The state in which the gradient has opened an entry. -/
def State.openEntry (s : State) (m : WeirMsg) (k o : Nat) : State := s.setMerge (s.rows.merge ++ [newEntry m k o]) (newEntry m k o) true

section

variable {s : State} {m : WeirMsg}

theorem State.mergeGrad_shut (h : s.mergeShut (mergeRegion m.table m.row) = true) (bytes : List Byte) :
    s.mergeGrad m bytes = s.spill m bytes := if_pos h

variable (hopen : s.mergeShut (mergeRegion m.table m.row) = false)
include hopen

theorem State.mergeGrad_asleep (h : s.awake (mergeRegion m.table m.row) = false) (bytes : List Byte) :
    s.mergeGrad m bytes = .asleep (mergeRegion m.table m.row) := by
  simp [State.mergeGrad, hopen, h]

variable (hawake : s.awake (mergeRegion m.table m.row) = true)
include hawake

theorem State.mergeGrad_awake (bytes : List Byte) : s.mergeGrad m bytes =
    match s.rows.merge.find? (sameKey m) with
    | some e => .held (s.joinEntry m e)
    | none => match s.mergeRoom (mergeRegion m.table m.row) m.table m.row m.step m.grad.length with
      | some (k, o) => .held (s.openEntry m k o)
      | none => s.spill m bytes := by
  simp only [State.mergeGrad, hopen, hawake, Bool.not_true, Bool.false_eq_true, if_false, State.seeEntry_rows]
  rfl

theorem State.mergeGrad_joins {e : MergeEnt} (h : s.rows.merge.find? (sameKey m) = some e) (bytes : List Byte) :
    s.mergeGrad m bytes = .held (s.joinEntry m e) := by
  rw [State.mergeGrad_awake hopen hawake, h]

theorem State.mergeGrad_opens {k o : Nat} (h : s.rows.merge.find? (sameKey m) = none)
    (hroom : s.mergeRoom (mergeRegion m.table m.row) m.table m.row m.step m.grad.length = some (k, o)) (bytes : List Byte) :
    s.mergeGrad m bytes = .held (s.openEntry m k o) := by
  rw [State.mergeGrad_awake hopen hawake, h, hroom]

theorem State.mergeGrad_spills (h : s.rows.merge.find? (sameKey m) = none)
    (hroom : s.mergeRoom (mergeRegion m.table m.row) m.table m.row m.step m.grad.length = none) (bytes : List Byte) :
    s.mergeGrad m bytes = s.spill m bytes := by
  rw [State.mergeGrad_awake hopen hawake, h, hroom]

end

/-- What a merge can come to. -/
theorem State.mergeGrad_cases (s : State) (m : WeirMsg) (bytes : List Byte) :
    s.mergeGrad m bytes = s.spill m bytes ∨ s.mergeGrad m bytes = .asleep (mergeRegion m.table m.row)
      ∨ (∃ e, s.mergeGrad m bytes = .held (s.joinEntry m e)) ∨ ∃ k o, s.mergeGrad m bytes = .held (s.openEntry m k o) := by
  cases hshut : s.mergeShut (mergeRegion m.table m.row) with
  | true => exact .inl (State.mergeGrad_shut hshut bytes)
  | false => cases hawake : s.awake (mergeRegion m.table m.row) with
    | false => exact .inr (.inl (State.mergeGrad_asleep hshut hawake bytes))
    | true => cases hfind : s.rows.merge.find? (sameKey m) with
      | some e => exact .inr (.inr (.inl ⟨e, State.mergeGrad_joins hshut hawake hfind bytes⟩))
      | none => cases hroom : s.mergeRoom (mergeRegion m.table m.row) m.table m.row m.step m.grad.length with
        | some ko => exact .inr (.inr (.inr ⟨ko.1, ko.2, State.mergeGrad_opens hshut hawake hfind hroom bytes⟩))
        | none => exact .inl (State.mergeGrad_spills hshut hawake hfind hroom bytes)

/-! ### What is found once a gradient is merged -/

theorem State.joinEntry_merge (s : State) (m : WeirMsg) (e : MergeEnt) :
    (s.joinEntry m e).rows.merge = mapIf s.rows.merge (sameKey m) fun _ => s.joined m e := State.setMerge_merge _ _ _ _

theorem State.joinEntry_weir (s : State) (m : WeirMsg) (e : MergeEnt) : (s.joinEntry m e).rows.weir = s.rows.weir := by
  rw [State.joinEntry, State.setMerge_weir, State.seeEntry_rows]

theorem State.openEntry_merge (s : State) (m : WeirMsg) (k o : Nat) :
    (s.openEntry m k o).rows.merge = s.rows.merge ++ [newEntry m k o] := State.setMerge_merge _ _ _ _

theorem State.openEntry_weir (s : State) (m : WeirMsg) (k o : Nat) : (s.openEntry m k o).rows.weir = s.rows.weir :=
  State.setMerge_weir _ _ _ _

/-- Merging keeps the engine's id. -/
theorem State.mergeGrad_sameId {s u : State} {m : WeirMsg} {bytes : List Byte} (h : s.mergeGrad m bytes = .held u) : SameId s u := by
  obtain hspill | hsleep | ⟨e, hjoin⟩ | ⟨k, o, hopened⟩ := s.mergeGrad_cases m bytes
  · rw [hspill] at h
    by_cases hfull : s.HalfFull m bytes
    · rw [State.spill_of_full hfull] at h
      cases h
    · obtain ⟨v, hv, -, -, hid⟩ := State.spill_of_room hfull
      rw [hv] at h
      cases h
      exact hid
  · rw [hsleep] at h
    cases h
  · rw [hjoin] at h
    cases h
    exact (s.seeEntry_sameId e).trans (State.setMerge_sameId _ _ _ _)
  · rw [hopened] at h
    cases h
    exact s.setMerge_sameId _ _ _

theorem getElem?_mapIf {α : Type} (l : List α) (p : α → Bool) (f : α → α) (k : Nat) :
    (mapIf l p f)[k]? = l[k]?.map fun x => if p x then f x else x := List.getElem?_map

/-- The first element that passes is the one that is found. -/
theorem find?_of_first {α : Type} {l : List α} {p : α → Bool} {k : Nat} {x : α} (hx : l[k]? = some x) (hp : p x = true)
    (hfirst : ∀ j y, j < k → l[j]? = some y → p y = false) : l.find? p = some x := by
  obtain ⟨hk, hxk⟩ := List.getElem?_eq_some_iff.1 hx
  refine List.find?_eq_some_iff_getElem.2 ⟨hp, k, hk, hxk, fun j hj => ?_⟩
  rw [hfirst j _ hj (List.getElem?_eq_getElem (by omega))]
  rfl

/-- Of the entries, the joined one takes the place of the first of the gradient's key and step; those of others stand. -/
theorem State.joinEntry_getElem? {s : State} {m : WeirMsg} {e f : MergeEnt} {k : Nat} (hf : s.rows.merge[k]? = some f) :
    (s.joinEntry m e).rows.merge[k]? = some (if sameKey m f then s.joined m e else f) := by
  rw [State.joinEntry_merge, getElem?_mapIf, hf, Option.map_some]

/-- A gradient for the weir finds its half full, or joins the weir. -/
theorem State.spill_settles (s : State) (m : WeirMsg) (bytes : List Byte) :
    (s.spill m bytes = .full ∧ s.HalfFull m bytes)
      ∨ ∃ u, s.spill m bytes = .held u ∧ u.rows.merge = s.rows.merge ∧ u.rows.weir = s.rows.weir ++ [s.weirMsg m bytes] := by
  by_cases hfull : s.HalfFull m bytes
  · exact .inl ⟨State.spill_of_full hfull, hfull⟩
  · obtain ⟨u, hu, hmerge, hweir, -⟩ := State.spill_of_room hfull
    exact .inr ⟨u, hu, hmerge, hweir⟩

/-- Settles O39: the outcomes of a merge, one for each branch of R251, R253 and R254. -/
theorem gradientsMergeByKeyAndStep : Obligations.GradientsMergeByKeyAndStep := by
  unfold Obligations.GradientsMergeByKeyAndStep
  intro s m bytes
  refine ⟨fun hshut res hres => ?shut, fun hopen hsleeps => State.mergeGrad_asleep hopen hsleeps bytes, fun hopen hawake =>
    ⟨fun hsame => ?joins, fun hnone => ?others⟩⟩
  case shut =>
    subst hres
    rw [State.mergeGrad_shut hshut]
    exact s.spill_settles m bytes
  case joins =>
    obtain ⟨e, he, hkey⟩ := hsame
    obtain ⟨e, hfind⟩ := Option.isSome_iff_exists.1 (List.find?_isSome.2 ⟨e, he, sameKey_iff.2 hkey⟩)
    refine ⟨_, State.mergeGrad_joins hopen hawake hfind bytes, s.joinEntry_weir m e, ?_, fun k f hf => ⟨fun hother => ?_, fun hkey hfirst => ?_⟩⟩
    · rw [State.joinEntry_merge, mapIf, List.length_map]
    · rw [State.joinEntry_getElem? hf, if_neg (sameKey_iff.not.2 hother)]
    · have hfound := find?_of_first (p := sameKey m) hf (sameKey_iff.2 hkey) fun j y hj hy =>
        Bool.eq_false_iff.2 (sameKey_iff.not.2 (hfirst j y hj hy))
      rw [State.joinEntry_getElem? hf, if_pos (sameKey_iff.2 hkey)]
      obtain rfl : e = f := Option.some.inj (hfind.symm.trans hfound)
      rfl
  case others =>
    have hfind : s.rows.merge.find? (sameKey m) = none := List.find?_eq_none.2 fun e he => sameKey_iff.not.2 (hnone e he)
    refine ⟨fun k o hroom => ?_, fun hroom res hres => ?_⟩
    · exact ⟨_, newEntry m k o, State.mergeGrad_opens hopen hawake hfind hroom bytes, s.openEntry_merge m k o, ⟨rfl, rfl, rfl⟩, rfl, rfl, rfl,
        rfl, rfl, s.openEntry_weir m k o⟩
    · subst hres
      rw [State.mergeGrad_spills hopen hawake hfind hroom]
      exact s.spill_settles m bytes

end Sys2Proof.Machine
end

section
/-! SUPPORT. Settling an update message or a ROUTE notice at the owner (R459): what the command is once the packet is taken, what each step
leaves unsent and unmerged, and how a merge is answered. -/

namespace Sys2Proof.Machine

open Sys2Proof

/-! ### What a packet taken leaves -/

section

variable (s : State) (p : Packet)

theorem State.take_inWindow (step : Nat) : (s.take p).inWindow step = s.inWindow step := by
  simp only [State.inWindow, State.lastClosed, State.lastApplied, State.take_regN]

theorem State.take_isReplay (q : Packet) : (s.take p).isReplay q = s.isReplay q := by rw [State.isReplay, State.take_rows, State.isReplay]

theorem State.take_heldBefore (q : Packet) : (s.take p).heldBefore q = s.heldBefore q := by
  rw [State.heldBefore, State.take_heldReqs, State.heldBefore]

theorem State.take_mergeShut (r : Nat) : (s.take p).mergeShut r = s.mergeShut r := by
  obtain ⟨f, hf, -, -⟩ := s.take_fab p
  rw [hf]; rfl

theorem State.take_awake (r : Nat) : (s.take p).awake r = s.awake r := by
  obtain ⟨f, hf, -, -⟩ := s.take_fab p
  rw [hf]; rfl

theorem State.take_mergeRoom (r t x step dim : Nat) : (s.take p).mergeRoom r t x step dim = s.mergeRoom r t x step dim := by
  obtain ⟨f, hf, -, -⟩ := s.take_fab p
  rw [hf]; rfl

end

/-! ### The high mark (R250) -/

theorem State.isReplay_congr {s t : State} (h : t.rows.marks = s.rows.marks) (p : Packet) : t.isReplay p = s.isReplay p := by
  rw [State.isReplay, h, State.isReplay]

theorem epochGt_self (a : Nat) : epochGt a a = false := by simp [epochGt]

/-- A message is a replay once its source's high mark stands at it. -/
theorem State.isReplay_setHighMark (s : State) (p : Packet) : (s.setHighMark p).isReplay p = true := by
  simp [State.isReplay, State.setHighMark, epochGt_self]

/-! ### A notice recorded (R208, R210) -/

/-- Where a row's exception entry is written: in place, or at the first free of its places. -/
def State.excPlace? (s : State) (tid x : Nat) : Option Nat :=
  match s.exc? tid x with
  | some (a, _) => some a
  | none => (placesOf s.excBase s.excLog2 tid x).find? fun a => nfld (s.extNat a 16) 54 52 == 0

theorem State.excPut_eq (s : State) (tid x w : Nat) : s.excPut tid x w = (s.excPlace? tid x).map fun a => s.extPutNat a 16 w := by
  unfold State.excPut State.excPlace?
  cases s.exc? tid x with
  | none => rfl
  | some e => rfl

theorem State.excDel_eq (s : State) (tid x : Nat) : s.excDel tid x = (s.exc? tid x).elim s fun e => s.extPutNat e.1 16 0 := by
  unfold State.excDel
  cases s.exc? tid x with
  | none => rfl
  | some e => rfl

theorem State.recordRoute_eq (s : State) (tid x owner : Nat) :
    s.recordRoute tid x owner = (s.putRoute tid x eROUTE owner 0).getD (s.err pROW 3) := by
  unfold State.recordRoute
  cases s.putRoute tid x eROUTE owner 0 with
  | none => rfl
  | some u => rfl

/-- External memory once the row's new owner is recorded. -/
def State.routedExt (s : State) (tid x owner : Nat) : Mem :=
  if s.mapOwner tid x = some owner then (s.exc? tid x).elim s.ext fun e => s.ext.write e.1 (leBytes 16 0)
  else (s.excPlace? tid x).elim s.ext fun a => s.ext.write a (leBytes 16 (excBits tid x eROUTE owner 0 0))

theorem State.recordRoute_ext (s : State) (tid x owner : Nat) : (s.recordRoute tid x owner).ext = s.routedExt tid x owner := by
  rw [State.recordRoute_eq, State.putRoute, State.routedExt, State.excPut_eq, State.excDel_eq]
  by_cases hmap : s.mapOwner tid x = some owner
  · rw [if_pos hmap, if_pos hmap, Option.getD_some]
    cases s.exc? tid x with
    | none => rfl
    | some e => rw [Option.elim_some, Option.elim_some, State.extPutNat_ext]
  · rw [if_neg hmap, if_neg hmap]
    cases s.excPlace? tid x with
    | none => exact State.ext_of_mask (M := { regs := true, hq := true }) (s.err_mask _ rfl rfl pROW 3) rfl
    | some a => rw [Option.map_some, Option.getD_some, Option.elim_some, State.extPutNat_ext]

theorem State.recordRoute_sameId (s : State) (tid x owner : Nat) : SameId s (s.recordRoute tid x owner) := by
  rw [State.recordRoute_eq, State.putRoute]
  by_cases hmap : s.mapOwner tid x = some owner
  · rw [if_pos hmap, Option.getD_some]
    exact s.excDel_sameId tid x
  · rw [if_neg hmap]
    cases hput : s.excPut tid x (excBits tid x eROUTE owner 0 0) with
    | none => exact s.selfId_err pROW 3
    | some u => exact State.excPut_sameId hput

/-- What a notice records does not depend on the fabric unit. -/
theorem State.take_recordRoute_ext (s : State) (p : Packet) (tid x owner : Nat) :
    (((s.take p).setHighMark p).recordRoute tid x owner).ext = ((s.setHighMark p).recordRoute tid x owner).ext := by
  obtain ⟨f, hf, -, -⟩ := s.take_fab p
  rw [State.recordRoute_ext, State.recordRoute_ext, hf]
  rfl

/-! ### Work that sends nothing -/

/-- From `s` to `v`, the engine has worked without sending or holding a packet. -/
structure Quiet (s v : State) : Prop where
  sent : v.fab.sent = s.fab.sent
  held : v.fab.heldReqs = s.fab.heldReqs
  id : SameId s v

/-- From `s` to `t`, nothing has been merged. -/
def Unmerged (s t : State) : Prop := t.rows.merge = s.rows.merge ∧ t.rows.weir = s.rows.weir

theorem Unmerged.of_rows {s t : State} (h : t.rows = s.rows) : Unmerged s t := by
  rw [Unmerged, h]
  exact ⟨rfl, rfl⟩

theorem Unmerged.trans {s t u : State} (h : Unmerged s t) (k : Unmerged t u) : Unmerged s u :=
  ⟨k.left.trans h.left, k.right.trans h.right⟩

namespace Quiet

variable {s t u : State}

theorem of_fab (hfab : t.fab = s.fab) (hid : SameId s t) : Quiet s t := ⟨by rw [hfab], by rw [hfab], hid⟩

theorem trans (h : Quiet s t) (k : Quiet t u) : Quiet s u := ⟨k.sent.trans h.sent, k.held.trans h.held, h.id.trans k.id⟩

end Quiet

theorem State.take_quiet (s : State) (p : Packet) : Quiet s (s.take p) := ⟨s.take_sent p, s.take_heldReqs p, s.take_selfId p⟩

theorem State.count_quiet (s : State) {P o : Nat} (n : Nat) (h : pFAB * 0x1000 + 0xF00 ≠ P * 0x1000 + o) : Quiet s (s.count P o n) :=
  .of_fab (State.fab_of_mask (M := { regs := true }) (s.count_mask _ rfl P o n) rfl) (s.count_sameId n h)

theorem State.err_quiet (s : State) (P b : Nat) : Quiet s (s.err P b) :=
  .of_fab (State.fab_of_mask (M := { regs := true, hq := true }) (s.err_mask _ rfl rfl P b) rfl) (s.selfId_err P b)

theorem State.err_rows (s : State) (P b : Nat) : (s.err P b).rows = s.rows :=
  State.rows_of_mask (M := { regs := true, hq := true }) (s.err_mask _ rfl rfl P b) rfl

theorem State.noteNotOwner_quiet (s : State) : Quiet s s.noteNotOwner := (s.count_quiet 1 (by decide)).trans (State.err_quiet _ pROW 2)

theorem State.noteNotOwner_rows (s : State) : s.noteNotOwner.rows = s.rows := by rw [State.noteNotOwner, State.err_rows, State.count_rows]

theorem State.noteForward_quiet (s : State) (t : Nat) : Quiet s (s.noteForward t) :=
  (s.count_quiet (P := pROW) (o := 0xF14) 1 (by decide)).trans (.of_fab rfl (.of_regs rfl))

theorem State.noteForward_unmerged (s : State) (t : Nat) : Unmerged s (s.noteForward t) :=
  Unmerged.trans (t := s.count pROW 0xF14) (.of_rows (s.count_rows _ _ _)) ⟨rfl, rfl⟩

theorem State.wake_quiet (s : State) (r : Nat) : Quiet s (s.wake r) :=
  .of_fab (State.fab_of_mask (M := { regs := true, regions := true }) (s.wake_mask _ rfl rfl r) rfl) (by
    rw [SameId, State.selfId, State.regN, s.wake_reg r (by decide), State.selfId, State.regN])

theorem State.wake_rows (s : State) (r : Nat) : (s.wake r).rows = s.rows :=
  State.rows_of_mask (M := { regs := true, regions := true }) (s.wake_mask _ rfl rfl r) rfl

theorem State.recordRoute_quiet (s : State) (tid x owner : Nat) : Quiet s (s.recordRoute tid x owner) :=
  .of_fab (State.fab_of_mask (M := { regs := true, ext := true, tags := true, hq := true, armed := true })
    (s.recordRoute_mask _ rfl rfl rfl rfl rfl tid x owner) rfl) (s.recordRoute_sameId tid x owner)

theorem State.recordRoute_rows (s : State) (tid x owner : Nat) : (s.recordRoute tid x owner).rows = s.rows :=
  State.rows_of_mask (M := { regs := true, ext := true, tags := true, hq := true, armed := true })
    (s.recordRoute_mask _ rfl rfl rfl rfl rfl tid x owner) rfl

theorem State.mergeGrad_quiet {s u : State} {m : WeirMsg} {bytes : List Byte} (h : s.mergeGrad m bytes = .held u) : Quiet s u :=
  .of_fab (State.fab_of_mask
    (M := { regs := true, ext := true, tags := true, scratch := true, pool := true, pound := true, marks := true, hq := true
            tileErrs := true, rows := true, armed := true })
    (State.mergeGrad_mask _ rfl rfl rfl rfl rfl rfl rfl rfl rfl rfl rfl s m bytes u h) rfl) (State.mergeGrad_sameId h)

/-! ### Answered or held -/

section

variable {s v : State} {p : Packet} (h : Quiet s v)
include h

/-- An answer to a message after work that sent nothing (R247). -/
theorem Quiet.answers (kind owner : Nat) : Answers s (v.answerUpd p kind owner) p 0 (respHeader 0 owner kind 0 0 (mTable p) (mRow p)) :=
  State.answer_answers h.sent h.id p 0 _

/-- A message held after work that held nothing (R333). -/
theorem Quiet.heldBack : HeldBack s (v.holdReq p s.now) p := ⟨h.sent, congrArg (· ++ _) h.held⟩

end

theorem State.answerUpd_rows (s : State) (p : Packet) (kind owner : Nat) : (s.answerUpd p kind owner).rows = s.rows := s.answer_rows p 0 _

theorem State.answerUpd_regN (s : State) (p : Packet) (kind owner : Nat) {Q x : Nat} (hQ : 0 < Q) (hne : Q ≠ pERR) (hlt : Q < pFAB)
    (hx : x < 0x1000) : (s.answerUpd p kind owner).regN Q x = s.regN Q x :=
  congrArg BitVec.toNat (s.answer_reg p 0 _ 0 0 hQ hne hlt hx)

/-- A message that is answered and otherwise only counted. -/
theorem State.count_answerUpd_regN (s : State) (p : Packet) (kind owner : Nat) {P o : Nat} (hP : 0 < P) (hne : P ≠ pERR) (hlt : P < pFAB)
    (ho : o < 0x1000) : ((s.count P o).answerUpd p kind owner).regN P o = satAdd 32 (s.regN P o) 1 := by
  rw [State.answerUpd_regN _ p kind owner hP hne hlt ho, State.regN_count_self]

theorem State.accessDone_rows (s : State) (r : Nat) : (s.accessDone r).rows = s.rows :=
  State.rows_of_mask (M := { regions := true }) (s.accessDone_mask _ rfl r) rfl

/-! ### The command -/

/-- The command is the one of the message's KIND: ROW_UPDATE of an update message that its payload holds whole, or ROUTE of a notice. -/
def UpdateCmd (c : Instr) (p : Packet) : Prop :=
  c = .rowUpdate p ∧ mKind p = kUPDATE ∧ 32 + 4 * mDim p ≤ p.payload.length ∨ c = .route p ∧ mKind p = kNOTICE

/-- A message settled by its KIND. -/
def State.settleMsg (s : State) (p : Packet) (since : Nat) : State :=
  if mKind p = kUPDATE then s.settleUpdate p since else s.settleNotice p since

/-- A message in its turn is taken and settled. -/
theorem exec_update_arrives {c : Instr} {p : Packet} {s : State} (hc : UpdateCmd c p) (ha : Arrives s p 5) (hf : Fresh s p) :
    exec c s = .next ((s.take p).settleMsg p s.now) := by
  have hfresh : Fresh (s.take p) p := by unfold Fresh; rw [State.take_heldReqs]; exact hf
  have hunhold : (s.take p).unhold p = (s.now, s.take p) := by rw [State.unhold_of_fresh hfresh, State.take_now]
  obtain ⟨rfl, hkind, hfits⟩ | ⟨rfl, hkind⟩ := hc
  · change execRowUpdate p s = _
    rw [execRowUpdate, State.engine_up ha.1, if_neg (by simp [hkind, kUPDATE, kNOTICE]), State.receive_arrives ha, hunhold]
    simp only [hkind, bne_self_eq_false, Bool.false_or, decide_eq_true_eq]
    rw [if_neg (by omega), State.settleMsg, if_pos hkind]
  · change execRoute p s = _
    rw [execRoute, State.engine_up ha.1, if_neg (by simp [hkind]), State.receive_arrives ha, hunhold, State.settleMsg,
      if_neg (by rw [hkind]; decide)]

section

variable {c : Instr} {p : Packet} {s : State} (hc : UpdateCmd c p) (ha : Arrives s p 5) (hf : Fresh s p)
include hc ha hf

/-! ### Step 1: TABLE_SEQ (R217) -/

theorem exec_update_former {f : Tab} (h : s.settleSeq (mTable p) (mSeq p) = .former f) :
    exec c s = .next (((s.take p).count pROW 0xF38).answerUpd p kMERGED s.selfId) := by
  rw [exec_update_arrives hc ha hf, State.settleMsg, State.settleUpdate, State.settleNotice, State.take_settleSeq, h, State.take_selfId]
  exact congrArg _ (ite_self _)

theorem exec_update_held (h : s.settleSeq (mTable p) (mSeq p) = .held) : exec c s = .next ((s.take p).holdReq p s.now) := by
  rw [exec_update_arrives hc ha hf, State.settleMsg, State.settleUpdate, State.settleNotice, State.take_settleSeq, h]
  exact congrArg _ (ite_self _)

theorem exec_update_notOwner (h : s.settleSeq (mTable p) (mSeq p) = .notOwner) :
    exec c s = .next ((s.take p).noteNotOwner.answerUpd p kNOT_OWNER s.selfId) := by
  rw [exec_update_arrives hc ha hf, State.settleMsg, State.settleUpdate, State.settleNotice, State.take_settleSeq, h, State.take_selfId]
  exact congrArg _ (ite_self _)

variable {tab : Tab} (hseq : s.settleSeq (mTable p) (mSeq p) = .active tab)
include hseq

/-! ### Step 2: ownership (R197, R211) -/

section

variable (hkind : mKind p = kUPDATE) (hdim : mDim p = tab.dim)
include hkind hdim

theorem exec_update_active : exec c s = .next (match s.holdOf tab (mRow p) with
    | .gone o => ((s.take p).noteForward tab.id).answerUpd p kFORWARD o
    | .other => (s.take p).noteNotOwner.answerUpd p kNOT_OWNER s.selfId
    | .own _ => (s.take p).mergeMsg p s.now) := by
  rw [exec_update_arrives hc ha hf, State.settleMsg, if_pos hkind, State.settleUpdate, State.take_settleSeq, hseq, State.take_selfId]
  simp only [hdim, bne_self_eq_false, Bool.false_eq_true, if_false, State.take_holdOf] <;> rfl

theorem exec_update_gone {o : Nat} (h : s.holdOf tab (mRow p) = .gone o) :
    exec c s = .next (((s.take p).noteForward tab.id).answerUpd p kFORWARD o) := by
  rw [exec_update_active hc ha hf hseq hkind hdim, h]

theorem exec_update_other (h : s.holdOf tab (mRow p) = .other) :
    exec c s = .next ((s.take p).noteNotOwner.answerUpd p kNOT_OWNER s.selfId) := by
  rw [exec_update_active hc ha hf hseq hkind hdim, h]

theorem exec_update_own {l : Loc} (h : s.holdOf tab (mRow p) = .own l) : exec c s = .next ((s.take p).mergeMsg p s.now) := by
  rw [exec_update_active hc ha hf hseq hkind hdim, h]

end

/-! ### Step 4 for a notice, and its record -/

theorem exec_notice_active (hkind : mKind p = kNOTICE) : exec c s = .next
    (if s.rows.weirShut.contains (mStep p) || s.heldBefore p then (s.take p).holdReq p s.now
    else if s.isReplay p then ((s.take p).count pUPD 0xF0C).answerUpd p kMERGED s.selfId
    else (((s.take p).setHighMark p).recordRoute tab.id (mRow p) (noticeOwner p)).answerUpd p kMERGED s.selfId) := by
  rw [exec_update_arrives hc ha hf, State.settleMsg, if_neg (by rw [hkind]; decide), State.settleNotice, State.take_settleSeq, hseq,
    ← State.take_isReplay s p p, ← State.take_heldBefore s p p, ← State.take_selfId s p, ← State.take_rows s p]

end

/-! ### Steps 3 to 5 for a row that this engine owns -/

/-- What a message brings to its merge. -/
def gradOf (p : Packet) : WeirMsg :=
  { table := mTable p, row := mRow p, step := mStep p, mult := mMult p, grad := mGrad p, poison := anyBad p }

section

variable {s : State} {p : Packet}

theorem State.mergeMsg_stale (h : s.inWindow (mStep p) = false) (since : Nat) :
    s.mergeMsg p since = ((s.count pUPD 0xF10).err pUPD 1).answerUpd p kSTALE s.selfId := by
  simp [State.mergeMsg, h]

variable (hwindow : s.inWindow (mStep p) = true)
include hwindow

theorem State.mergeMsg_stopped (h : s.rows.weirShut.contains (mStep p) = true ∨ s.heldBefore p = true) (since : Nat) :
    s.mergeMsg p since = s.holdReq p since := by
  rw [State.mergeMsg, hwindow, if_neg (by decide), if_pos (by rw [Bool.or_eq_true]; exact h)]

variable (hshut : s.rows.weirShut.contains (mStep p) = false) (hfirst : s.heldBefore p = false)
include hshut hfirst

theorem State.mergeMsg_replay (h : s.isReplay p = true) (since : Nat) :
    s.mergeMsg p since = (s.count pUPD 0xF0C).answerUpd p kMERGED s.selfId := by
  rw [State.mergeMsg, hwindow, if_neg (by decide), hshut, hfirst, if_neg (by decide), if_pos h]

theorem State.mergeMsg_merges (h : s.isReplay p = false) (since : Nat) :
    s.mergeMsg p since = s.afterMerge p since (s.mergeGrad (gradOf p) p.payload) := by
  rw [State.mergeMsg, hwindow, if_neg (by decide), hshut, hfirst, if_neg (by decide), h, if_neg (by decide), gradOf]

end

/-! ### What follows a merge -/

section

variable {s v u : State} {p : Packet}

/-- A message merged, or in the weir, is answered MERGED, and is a replay from then on. -/
theorem State.afterMerge_held (h : Quiet s u) (since : Nat) :
    Answers s (v.afterMerge p since (.held u)) p 0 (respHeader 0 s.selfId kMERGED 0 0 (mTable p) (mRow p))
      ∧ (v.afterMerge p since (.held u)).rows = (u.setHighMark p).rows ∧ (v.afterMerge p since (.held u)).isReplay p = true := by
  have hrows : (v.afterMerge p since (.held u)).rows = (u.setHighMark p).rows :=
    (State.accessDone_rows _ _).trans (State.answerUpd_rows _ _ _ _)
  have hmark : Quiet u (u.setHighMark p) := .of_fab rfl (.of_regs rfl)
  refine ⟨?_, hrows, (State.isReplay_congr (congrArg Rows.marks hrows) p).trans (u.isReplay_setHighMark p)⟩
  have hans := (h.trans hmark).answers (p := p) kMERGED u.selfId
  rw [h.id] at hans
  have hid : u.selfId = s.selfId := h.id
  obtain ⟨hfab, -⟩ := State.accessDone_kept ((u.setHighMark p).answerUpd p kMERGED s.selfId) (mergeRegion (mTable p) (mRow p))
  rw [State.afterMerge, hid, Answers, hfab]
  exact hans

/-- A message that fits nowhere is held, with WEIR_FULL set. -/
theorem State.afterMerge_full (h : Quiet s v) (hrows : v.rows = s.rows) :
    HeldBack s (v.afterMerge p s.now .full) p ∧ bitOf ((v.afterMerge p s.now .full).errStatus pUPD) 2 = true
      ∧ Unmerged s (v.afterMerge p s.now .full) := by
  have hshut : ∀ l, Quiet v { v with rows := { v.rows with weirShut := l } } := fun l => .of_fab rfl (.of_regs rfl)
  refine ⟨((h.trans (hshut _)).trans (State.err_quiet _ pUPD 2)).heldBack, State.bitOf_errStatus_err _ (by decide) (by decide) (by decide), ?_⟩
  refine (Unmerged.of_rows hrows).trans ?_
  rw [Unmerged, State.afterMerge, State.weirFull, State.holdReq_rows, State.err_rows]
  exact ⟨rfl, rfl⟩

/-- A message for a region that sleeps is held while that region wakes (R398). -/
theorem State.afterMerge_asleep (h : Quiet s v) (hrows : v.rows = s.rows) (r : Nat) :
    HeldBack s (v.afterMerge p s.now (.asleep r)) p ∧ Unmerged s (v.afterMerge p s.now (.asleep r)) := by
  refine ⟨(h.trans (v.wake_quiet r)).heldBack, .of_rows ?_⟩
  rw [State.afterMerge, State.holdReq_rows, State.wake_rows, hrows]

end

/-- A gradient whose region is awake and has its entry, or room for one, is merged. -/
theorem State.mergeGrad_merges {s : State} {m : WeirMsg} (hopen : s.mergeShut (mergeRegion m.table m.row) = false)
    (hawake : s.awake (mergeRegion m.table m.row) = true)
    (hplace : (∃ e, e ∈ s.rows.merge ∧ e.table = m.table ∧ e.row = m.row ∧ e.step = m.step)
      ∨ (s.mergeRoom (mergeRegion m.table m.row) m.table m.row m.step m.grad.length).isSome = true) (bytes : List Byte) :
    ∃ u e, s.mergeGrad m bytes = .held u ∧ e ∈ u.rows.merge ∧ (e.table = m.table ∧ e.row = m.row ∧ e.step = m.step) ∧ m.grad ∈ e.grads := by
  cases hfind : s.rows.merge.find? (sameKey m) with
  | some e =>
    have hkey := List.find?_some hfind
    refine ⟨_, s.joined m e, State.mergeGrad_joins hopen hawake hfind bytes, ?_, sameKey_iff.1 hkey, List.mem_append_right _ (List.mem_singleton.2 rfl)⟩
    rw [State.joinEntry_merge, mapIf, List.mem_map]
    exact ⟨e, List.mem_of_find?_eq_some hfind, if_pos hkey⟩
  | none =>
    have hroom := hplace.resolve_left fun ⟨e, he, hkey⟩ => List.find?_eq_none.1 hfind e he (sameKey_iff.2 hkey)
    obtain ⟨⟨k, o⟩, hko⟩ := Option.isSome_iff_exists.1 hroom
    refine ⟨_, newEntry m k o, State.mergeGrad_opens hopen hawake hfind hko bytes, ?_, ⟨rfl, rfl, rfl⟩, List.mem_singleton.2 rfl⟩
    rw [State.openEntry_merge]
    exact List.mem_append_right _ (List.mem_singleton.2 rfl)

/-! ### Steps 3 to 5 of a message that arrives -/

section

variable {c : Instr} {p : Packet} {s : State} (hc : UpdateCmd c p) (ha : Arrives s p 5) (hf : Fresh s p) {tab : Tab} {l : Loc}
  (hseq : s.settleSeq (mTable p) (mSeq p) = .active tab) (hkind : mKind p = kUPDATE) (hdim : mDim p = tab.dim)
  (hown : s.holdOf tab (mRow p) = .own l)
include hc ha hf hseq hkind hdim hown

theorem exec_update_stale (hout : s.inWindow (mStep p) = false) :
    exec c s = .next ((((s.take p).count pUPD 0xF10).err pUPD 1).answerUpd p kSTALE s.selfId) := by
  rw [exec_update_own hc ha hf hseq hkind hdim hown, State.mergeMsg_stale (by rwa [State.take_inWindow]), State.take_selfId]

variable (hwindow : s.inWindow (mStep p) = true)
include hwindow

theorem exec_update_stopped (hstop : s.rows.weirShut.contains (mStep p) = true ∨ s.heldBefore p = true) :
    exec c s = .next ((s.take p).holdReq p s.now) := by
  rw [exec_update_own hc ha hf hseq hkind hdim hown,
    State.mergeMsg_stopped (by rwa [State.take_inWindow]) (by rwa [State.take_rows, State.take_heldBefore])]

variable (hshut : s.rows.weirShut.contains (mStep p) = false) (hfirst : s.heldBefore p = false)
include hshut hfirst

theorem exec_update_replay (hrep : s.isReplay p = true) :
    exec c s = .next (((s.take p).count pUPD 0xF0C).answerUpd p kMERGED s.selfId) := by
  rw [exec_update_own hc ha hf hseq hkind hdim hown, State.mergeMsg_replay (by rwa [State.take_inWindow]) (by rwa [State.take_rows])
    (by rwa [State.take_heldBefore]) (by rwa [State.take_isReplay]), State.take_selfId]

theorem exec_update_merges (hnew : s.isReplay p = false) :
    exec c s = .next ((s.take p).afterMerge p s.now ((s.take p).mergeGrad (gradOf p) p.payload)) := by
  rw [exec_update_own hc ha hf hseq hkind hdim hown, State.mergeMsg_merges (by rwa [State.take_inWindow]) (by rwa [State.take_rows])
    (by rwa [State.take_heldBefore]) (by rwa [State.take_isReplay])]

end

/-! ### The outcomes of a command -/

theorem State.take_unmerged (s : State) (p : Packet) : Unmerged s (s.take p) := .of_rows (s.take_rows p)

section

variable {c : Instr} {p : Packet} {s : State}

/-- Answered, and nothing merged. -/
theorem answered_of_exec {v : State} {kind owner : Nat} (hexec : exec c s = .next (v.answerUpd p kind owner)) (hquiet : Quiet s v)
    (hkept : Unmerged s v) :
    ∃ t, exec c s = .next t ∧ Answers s t p 0 (respHeader 0 owner kind 0 0 (mTable p) (mRow p)) ∧ Unmerged s t :=
  ⟨_, hexec, hquiet.answers kind owner, hkept.trans (.of_rows (v.answerUpd_rows p kind owner))⟩

theorem answered_notOwner_of_exec (hexec : exec c s = .next ((s.take p).noteNotOwner.answerUpd p kNOT_OWNER s.selfId)) :
    ∃ t, exec c s = .next t ∧ Answers s t p 0 (respHeader 0 s.selfId kNOT_OWNER 0 0 (mTable p) (mRow p)) ∧ Unmerged s t :=
  answered_of_exec hexec ((s.take_quiet p).trans (State.noteNotOwner_quiet _))
    ((s.take_unmerged p).trans (.of_rows (State.noteNotOwner_rows _)))

/-- Answered and counted, external memory as it was. -/
theorem counted_of_exec {P o kind owner : Nat} (hexec : exec c s = .next (((s.take p).count P o).answerUpd p kind owner)) (hP : 0 < P)
    (hne : P ≠ pERR) (hlt : P < pFAB) (ho : o < 0x1000) :
    ∃ t, exec c s = .next t ∧ Answers s t p 0 (respHeader 0 owner kind 0 0 (mTable p) (mRow p))
      ∧ t.regN P o = satAdd 32 (s.regN P o) 1 ∧ t.ext = s.ext ∧ Unmerged s t := by
  refine ⟨_, hexec, ((s.take_quiet p).trans (State.count_quiet _ 1 (by simp only [pFAB] at *; omega))).answers kind owner, ?_, ?_,
    ((s.take_unmerged p).trans (.of_rows (State.count_rows _ P o 1))).trans (.of_rows (State.answerUpd_rows _ p kind owner))⟩
  · rw [State.count_answerUpd_regN _ p kind owner hP hne hlt ho, State.take_regN]
  · have hcount : ((s.take p).count P o).ext = (s.take p).ext := State.ext_of_mask (M := { regs := true }) (State.count_mask _ rfl _ P o 1) rfl
    exact (State.answer_ext _ p 0 _).trans (hcount.trans (s.take_ext p))

theorem heldBack_of_exec (hexec : exec c s = .next ((s.take p).holdReq p s.now)) :
    ∃ t, exec c s = .next t ∧ HeldBack s t p ∧ Unmerged s t :=
  ⟨_, hexec, (s.take_quiet p).heldBack, s.take_unmerged p⟩

/-- STALE, counted and flagged (R252). -/
theorem stale_of_exec (hexec : exec c s = .next ((((s.take p).count pUPD 0xF10).err pUPD 1).answerUpd p kSTALE s.selfId)) :
    ∃ t, exec c s = .next t ∧ Answers s t p 0 (respHeader 0 s.selfId kSTALE 0 0 (mTable p) (mRow p))
      ∧ t.regN pUPD 0xF10 = satAdd 32 (s.regN pUPD 0xF10) 1 ∧ bitOf (t.errStatus pUPD) 1 = true ∧ Unmerged s t := by
  have hquiet := (s.take_quiet p).trans ((State.count_quiet _ (P := pUPD) (o := 0xF10) 1 (by decide)).trans (State.err_quiet _ pUPD 1))
  refine ⟨_, hexec, hquiet.answers kSTALE s.selfId, ?_, ?_, (s.take_unmerged p).trans (.of_rows ?_)⟩
  · rw [State.answerUpd_regN _ p _ _ (by decide) (by decide) (by decide) (by decide), State.regN,
      State.reg_err_same _ 1 (by decide) (by decide) (by decide) (by decide), ← State.regN, State.regN_count_self, State.take_regN]
  · rw [State.errStatus, State.answerUpd, State.answer_reg _ p _ _ _ _ (by decide) (by decide) (by decide) (by decide)]
    exact State.bitOf_errStatus_err _ (by decide) (by decide) (by decide)
  · rw [State.answerUpd_rows, State.err_rows, State.count_rows]

/-- A notice recorded is answered MERGED, and is a replay from then on (R210). -/
theorem recorded_of_exec {tid x owner : Nat}
    (hexec : exec c s = .next ((((s.take p).setHighMark p).recordRoute tid x owner).answerUpd p kMERGED s.selfId)) :
    ∃ t, exec c s = .next t ∧ Answers s t p 0 (respHeader 0 s.selfId kMERGED 0 0 (mTable p) (mRow p)) ∧ Unmerged s t
      ∧ t.isReplay p = true ∧ t.ext = ((s.setHighMark p).recordRoute tid x owner).ext := by
  have hquiet : Quiet (s.take p) ((s.take p).setHighMark p) := .of_fab rfl (.of_regs rfl)
  have hkept : Unmerged (s.take p) ((s.take p).setHighMark p) := ⟨rfl, rfl⟩
  have hrows : ((((s.take p).setHighMark p).recordRoute tid x owner).answerUpd p kMERGED s.selfId).rows = ((s.take p).setHighMark p).rows :=
    (State.answerUpd_rows _ _ _ _).trans (State.recordRoute_rows _ _ _ _)
  exact ⟨_, hexec, (((s.take_quiet p).trans hquiet).trans (State.recordRoute_quiet _ _ _ _)).answers _ _,
    ((s.take_unmerged p).trans hkept).trans (.of_rows hrows),
    (State.isReplay_congr (congrArg Rows.marks hrows) p).trans (State.isReplay_setHighMark _ p),
    (State.answer_ext _ p 0 _).trans (s.take_recordRoute_ext p tid x owner)⟩

/-- A message merged, or in the weir (R251, R253). -/
theorem merged_of_exec {m : WeirMsg} {u : State} (hexec : exec c s = .next ((s.take p).afterMerge p s.now ((s.take p).mergeGrad m p.payload)))
    (hu : (s.take p).mergeGrad m p.payload = .held u) :
    ∃ t, exec c s = .next t ∧ Answers s t p 0 (respHeader 0 s.selfId kMERGED 0 0 (mTable p) (mRow p))
      ∧ t.rows.merge = u.rows.merge ∧ t.rows.weir = u.rows.weir ∧ t.isReplay p = true := by
  rw [hu] at hexec
  obtain ⟨hans, hrows, hrep⟩ := State.afterMerge_held (v := s.take p) (p := p) ((s.take_quiet p).trans (State.mergeGrad_quiet hu)) s.now
  exact ⟨_, hexec, hans, by rw [hrows]; rfl, by rw [hrows]; rfl, hrep⟩

/-- A message whose region is awake and has its entry, or room for one. -/
theorem joined_of_exec {m : WeirMsg} (hexec : exec c s = .next ((s.take p).afterMerge p s.now ((s.take p).mergeGrad m p.payload)))
    (hopen : s.mergeShut (mergeRegion m.table m.row) = false) (hawake : s.awake (mergeRegion m.table m.row) = true)
    (hplace : (∃ e, e ∈ s.rows.merge ∧ e.table = m.table ∧ e.row = m.row ∧ e.step = m.step)
      ∨ (s.mergeRoom (mergeRegion m.table m.row) m.table m.row m.step m.grad.length).isSome = true) :
    ∃ t e, exec c s = .next t ∧ Answers s t p 0 (respHeader 0 s.selfId kMERGED 0 0 (mTable p) (mRow p)) ∧ t.isReplay p = true
      ∧ e ∈ t.rows.merge ∧ e.table = m.table ∧ e.row = m.row ∧ e.step = m.step ∧ m.grad ∈ e.grads := by
  obtain ⟨u, e, hu, he, ⟨htable, hrow, hstep⟩, hgrad⟩ := State.mergeGrad_merges (s := s.take p) (by rwa [State.take_mergeShut])
    (by rwa [State.take_awake]) (by rwa [State.take_rows, State.take_mergeRoom]) p.payload
  obtain ⟨t, ht, hans, hmerge, -, hrep⟩ := merged_of_exec hexec hu
  exact ⟨t, e, ht, hans, hrep, by rw [hmerge]; exact he, htable, hrow, hstep, hgrad⟩

end

/-- Settles O38: the command is reduced to what settles the message, step by step, and the merge to its three outcomes. -/
theorem updateMessagesAreSettledInOrder : Obligations.UpdateMessagesAreSettledInOrder := by
  unfold Obligations.UpdateMessagesAreSettledInOrder
  intro c p s ha hf hc
  refine ⟨fun f h => ?former, fun h => heldBack_of_exec (exec_update_held hc ha hf h),
    fun h => answered_notOwner_of_exec (exec_update_notOwner hc ha hf h),
    fun tab hseq hkind hdim => ⟨fun o h => ?gone, fun h => answered_notOwner_of_exec (exec_update_other hc ha hf hseq hkind hdim h),
      fun l hown hout => stale_of_exec (exec_update_stale hc ha hf hseq hkind hdim hown hout),
      fun l hown hwindow => ⟨fun hstop => heldBack_of_exec (exec_update_stopped hc ha hf hseq hkind hdim hown hwindow hstop),
        fun hshut hfirst => ⟨fun hrep => ?replayed, fun hnew m hm => ?merges⟩⟩⟩,
    fun tab hseq hkind => ?notice⟩
  case former =>
    obtain ⟨t, ht, hans, hcount, -, hkept⟩ :=
      counted_of_exec (exec_update_former hc ha hf h) (by decide) (by decide) (by decide) (by decide)
    exact ⟨t, ht, hans, hcount, hkept⟩
  case gone =>
    exact answered_of_exec (exec_update_gone hc ha hf hseq hkind hdim h) ((s.take_quiet p).trans (State.noteForward_quiet _ _))
      ((s.take_unmerged p).trans (State.noteForward_unmerged _ _))
  case replayed =>
    obtain ⟨t, ht, hans, hcount, -, hkept⟩ := counted_of_exec (exec_update_replay hc ha hf hseq hkind hdim hown hwindow hshut hfirst hrep)
      (by decide) (by decide) (by decide) (by decide)
    exact ⟨t, ht, hans, hcount, hkept⟩
  case merges =>
    obtain rfl : m = gradOf p := hm
    have hexec := exec_update_merges hc ha hf hseq hkind hdim hown hwindow hshut hfirst hnew
    refine ⟨joined_of_exec hexec, fun u => merged_of_exec hexec, fun hfull => ?_, fun r hsleeps => ?_⟩
    · rw [hfull] at hexec
      exact ⟨_, hexec, State.afterMerge_full (s.take_quiet p) (s.take_rows p)⟩
    · rw [hsleeps] at hexec
      exact ⟨_, hexec, State.afterMerge_asleep (s.take_quiet p) (s.take_rows p) r⟩
  case notice =>
    have hexec := exec_notice_active hc ha hf hseq hkind
    refine ⟨fun hstop => ?_, fun hshut hfirst => ⟨fun hrep => ?_, fun hnew => ?_⟩⟩
    · rw [if_pos (by rwa [Bool.or_eq_true])] at hexec
      exact heldBack_of_exec hexec
    · rw [hshut, hfirst, if_neg (by decide), if_pos hrep] at hexec
      exact counted_of_exec hexec (by decide) (by decide) (by decide) (by decide)
    · rw [hshut, hfirst, if_neg (by decide), hnew, if_neg (by decide)] at hexec
      exact recorded_of_exec hexec

end Sys2Proof.Machine
end

section
/-! SUPPORT. Closing a manifest (R273, R275, R278): what is written, counted and charged on the way leaves the table of barges, the
barge numbers and the count of closed manifests to the close itself. -/

namespace Sys2Proof.Machine

open Sys2Proof

/-! ### The manifest's rows -/

theorem length_insertBy {α : Type} (le : α → α → Bool) (x : α) (l : List α) : (insertBy le x l).length = l.length + 1 := by
  induction l with
  | nil => rfl
  | cons y l ih =>
    unfold insertBy
    split
    · rfl
    · rw [List.length_cons, ih, List.length_cons]

theorem length_sortBy {α : Type} (le : α → α → Bool) (l : List α) : (sortBy le l).length = l.length := by
  induction l with
  | nil => rfl
  | cons x l ih => rw [sortBy, List.foldr_cons, length_insertBy, ← sortBy, ih, List.length_cons]

theorem length_numberRows (k : Nat) (prev : Option (List Nat)) (l : List (ManRow × Nat)) : (numberRows k prev l).length = l.length := by
  induction l generalizing k prev with
  | nil => rfl
  | cons x l ih =>
    unfold numberRows
    rw [List.length_cons, ih, List.length_cons]

/-! ### What leaves the close to itself -/

/-- From `s` to `t` no manifest has been closed: no barge has come or gone, no barge number is spent, and LKP's count of closed
manifests stands. -/
structure Unclosed (s t : State) : Prop where
  barges : t.sv.barges = s.sv.barges
  bargeNo : t.hq.bargeNo = s.hq.bargeNo
  closes : t.reg pLKP 0xF9C = s.reg pLKP 0xF9C

namespace Unclosed

variable {s t u : State}

theorem refl (s : State) : Unclosed s s := ⟨rfl, rfl, rfl⟩

theorem trans (h : Unclosed s t) (k : Unclosed t u) : Unclosed s u :=
  ⟨k.barges.trans h.barges, k.bargeNo.trans h.bargeNo, k.closes.trans h.closes⟩

theorem ite {a b : State} {c : Prop} [Decidable c] (ha : Unclosed s a) (hb : Unclosed s b) : Unclosed s (if c then a else b) := by
  split
  · exact ha
  · exact hb

theorem foldl {α : Type} {f : State → α → State} (h : ∀ s x, Unclosed s (f s x)) (l : List α) (s : State) :
    Unclosed s (l.foldl f s) := by
  induction l generalizing s with
  | nil => exact refl s
  | cons x l ih => exact (h s x).trans (ih _)

end Unclosed

/-! ### Writing the manifest and its journal entry -/

/-- A poisoning event of external memory shows in the registers of ERR, MEM and GLB alone (R405, R416, R429). -/
theorem State.reg_poisoning_mem (s : State) {Q x : Nat} (hQ : 0 < Q) (herr : Q ≠ pERR) (hmem : Q ≠ pMEM) (hQ' : Q < 0xF1)
    (hx : x < 0x1000) : (s.poisoning pMEM 1).reg Q x = s.reg Q x := by
  rw [State.poisoning, State.reg_err_page _ 0 herr hQ hQ' hx, State.reg_err_page _ 1 hmem hQ hQ' hx,
    State.reg_count_other _ 1 (by simp only [pERR] at *; omega)]

theorem State.reg_writeTag (s : State) (a n : Nat) (new : Tag) (poison : Bool) (k : Nat) {Q x : Nat} (hQ : 0 < Q) (herr : Q ≠ pERR)
    (hmem : Q ≠ pMEM) (hQ' : Q < 0xF1) (hx : x < 0x1000) : (s.writeTag a n new poison k).reg Q x = s.reg Q x := by
  have hcount : ∀ u : State, (u.count pERR 0xF34).reg Q x = u.reg Q x := fun u =>
    u.reg_count_other 1 (by simp only [pERR] at *; omega)
  have harmed : ∀ (b : Bool) (r : Armed), (if b = true then State.count { s with armed := r } pERR 0xF34
      else { s with armed := r }).reg Q x = s.reg Q x := by
    intro b r
    cases b with
    | true => exact hcount _
    | false => rfl
  have hset : ∀ (u : State) (t : Tag), (u.setTag k t).reg Q x = u.reg Q x := fun _ _ => rfl
  unfold State.writeTag
  simp only [hset]
  split
  · rw [State.reg_poisoning_mem _ hQ herr hmem hQ' hx, hcount, harmed]
  · rw [hcount, harmed]
  · exact harmed _ _

theorem State.writeTag_unclosed (s : State) (a n : Nat) (new : Tag) (poison : Bool) (k : Nat) :
    Unclosed s (s.writeTag a n new poison k) where
  barges := by
    rw [State.sv_of_mask (M := { regs := true, tags := true, hq := true, armed := true }) (State.writeTag_mask _ rfl rfl rfl rfl ..) rfl]
  bargeNo := by rw [(s.writeTag_noted a n new poison k).hq]
  closes := s.reg_writeTag a n new poison k (by decide) (by decide) (by decide) (by decide) (by decide)

theorem State.extWrite_unclosed (s : State) (a : Nat) (bs : List Byte) (poison : Bool := false) :
    Unclosed s (s.extWrite a bs poison) := by
  have hbytes : Unclosed s { s with ext := Mem.write s.ext a bs } := ⟨rfl, rfl, rfl⟩
  exact hbytes.trans (.foldl (fun s k => s.writeTag_unclosed _ _ _ _ k) _ _)

theorem State.journalOpen_unclosed (s : State) (j : Nat) (r : Rec) : Unclosed s (s.journalOpen j r) :=
  ((State.extWrite_unclosed _ _ _).trans (State.extWrite_unclosed _ _ _)).trans (State.extWrite_unclosed _ _ _)

/-! ### Counting and charging -/

theorem State.acctCount_unclosed (s : State) (tenant : Nat) (f : Account → Account) : Unclosed s (s.acctCount tenant f) := ⟨rfl, rfl, rfl⟩

theorem State.updBerth_unclosed (s : State) (n : Nat) (f : Berth → Berth) : Unclosed s (s.updBerth n f) := ⟨rfl, rfl, rfl⟩

theorem State.updMooring_unclosed (s : State) (m : Nat) (f : Mooring → Mooring) : Unclosed s (s.updMooring m f) := ⟨rfl, rfl, rfl⟩

theorem State.noteDefers_unclosed (s : State) : Unclosed s s.noteDefers := ⟨rfl, rfl, rfl⟩

/-- A counter of another page. -/
theorem State.count_unclosed (s : State) {P o : Nat} (h : pLKP * 0x1000 + 0xF9C ≠ P * 0x1000 + o) : Unclosed s (s.count P o) where
  barges := by rw [State.sv_of_mask (M := { regs := true }) (s.count_mask _ rfl P o 1) rfl]
  bargeNo := by rw [State.count_hq]
  closes := s.reg_count_other 1 h

theorem State.balance_unclosed (s : State) (n : Nat) (units : Int) : Unclosed s (s.balance n units) := by
  have hset : ∀ x, Unclosed s (s.setAccount n x) := fun _ => ⟨rfl, rfl, rfl⟩
  unfold State.balance
  exact (Unclosed.ite ((hset _).trans (State.count_unclosed _ (by decide))) (hset _)).trans (State.noteDefers_unclosed _)

theorem State.placeRequest_unclosed (s : State) (id : Nat) (rows : List ManRow) (n : Nat) : Unclosed s (s.placeRequest id rows n) := by
  unfold State.placeRequest
  exact ((Unclosed.ite (.refl s) (s.acctCount_unclosed _ _)).trans (State.updBerth_unclosed _ _ _)).trans (State.balance_unclosed _ _ _)

theorem State.closeCounts_unclosed (s : State) (m : Nat) (f : Fill) : Unclosed s (s.closeCounts m f) := by
  have hnoted : Unclosed s { s with sv := { s.sv with accounts := s.sv.accounts.map fun x => (x.1, x.2.noteClose) } } := ⟨rfl, rfl, rfl⟩
  exact hnoted.trans (.foldl (fun s n => s.acctCount_unclosed (s.berth n).tenant _) _ _)

/-! ### The close -/

/-- The rows of a filled manifest as they are written: ordered and numbered by segment (R278). -/
def Fill.numbered (f : Fill) : List (ManRow × Nat) := numberRows 0 none (sortBy rowLe f.rows)

theorem Fill.length_numbered (f : Fill) : f.numbered.length = f.rows.length := by
  rw [Fill.numbered, length_numberRows, length_sortBy]

/-- The barge of the manifest `f` of mooring `m` closed under journal entry `j` (R67, R68, R278, R298). -/
def State.bargeOf (s : State) (m j : Nat) (f : Fill) : Barge :=
  let rows := f.numbered.map (·.1)
  let img := (s.mooring m).image
  { id := s.sv.nextBarge, journal := some j, number := s.hq.bargeNo, mooring := m, carried := f.train
    step := (f.train.bind s.item?).elim 0 (·.f 159 128)
    program := imgProgram img, progLen := imgLen img, progPool := if imgInPool img then some (imgProgOfs img) else none
    need := imgRegions img, maxGap := imgGap img, rows := rows, segs := segsOf f.numbered
    lc := rows.any fun r => r.kind != 2 && s.fillsLc r.berth
    order := s.hq.orders, slots := (rows.map fun r => r.draft + 1).foldl (· + ·) 0, closedAt := s.now }

/-- The manifest of barge `b` written to its mooring's area, and its journal entry opened (R75, R278). -/
def State.writeManifest (s : State) (j : Nat) (b : Barge) : State :=
  let a := s.areaOf b.mooring
  let s := s.extWrite a (summaryBytes b.rows b.segs b.step b.slots)
  let s := s.extWrite (a + 0x1000) (b.rows.flatMap fun r => leBytes 16 r.bits)
  let s := s.extWrite (a + 0x21000) (b.segs.flatMap fun g => leBytes 16 g.bits)
  s.journalOpen j { kind := .barge, value0 := b.number, value1 := b.mooring * 2 ^ 16 + b.rows.length, aoUs := s.now }

/-- The barge `b` joins the waiting ones, with the next barge number spent; the submitted barge it carries is no longer a counted
hold (R70, R182). -/
def State.joinBarge (s : State) (b : Barge) : State :=
  { s with
    sv := { s.sv with
      barges := s.sv.barges ++ [b], nextBarge := b.id + 1, trainCounted := s.sv.trainCounted.filter fun x => some x != b.carried }
    hq := { s.hq with bargeNo := s.hq.bargeNo + 1, orders := s.hq.orders + 1 } }

/-- The mooring's and the placed requests' part in the close that made barge `b` (R271, R280, R288). -/
def State.placeRequests (s : State) (b : Barge) (placed : List Nat) : State :=
  placed.foldl (fun s n => s.placeRequest b.id b.rows n) (s.updMooring b.mooring fun x => { x with
    trainQueue := x.trainQueue.filter fun x => some x != b.carried
    framePos := (x.framePos + 1) % max s.frameLen 1 })

theorem State.close_eq (s : State) (m j : Nat) (f : Fill) : s.close m j f =
    let v := s.closeCounts m f
    let b := v.bargeOf m j f
    (((v.writeManifest j b).joinBarge b).placeRequests b f.placed).count pLKP 0xF9C := rfl

theorem State.writeManifest_unclosed (s : State) (j : Nat) (b : Barge) : Unclosed s (s.writeManifest j b) :=
  (((State.extWrite_unclosed _ _ _).trans (State.extWrite_unclosed _ _ _)).trans (State.extWrite_unclosed _ _ _)).trans
    (State.journalOpen_unclosed _ j _)

theorem State.placeRequests_unclosed (s : State) (b : Barge) (placed : List Nat) : Unclosed s (s.placeRequests b placed) :=
  (s.updMooring_unclosed _ _).trans (.foldl (fun s n => s.placeRequest_unclosed _ _ n) _ _)

/-- A barge joined is worth exactly one barge more, one barge number and, once it is counted, one closed manifest. -/
theorem State.joinBarge_counted {s v : State} (h : Unclosed s v) (b : Barge) (placed : List Nat) :
    let t := ((v.joinBarge b).placeRequests b placed).count pLKP 0xF9C
    t.sv.barges = s.sv.barges ++ [b] ∧ t.hq.bargeNo = s.hq.bargeNo + 1
      ∧ t.regN pLKP 0xF9C = satAdd 32 (s.regN pLKP 0xF9C) 1 := by
  have hplaced := (v.joinBarge b).placeRequests_unclosed b placed
  refine ⟨?_, ?_, ?_⟩
  · rw [State.sv_of_mask (M := { regs := true }) (State.count_mask _ rfl _ pLKP 0xF9C 1) rfl, hplaced.barges, ← h.barges]
    rfl
  · rw [State.count_hq, hplaced.bargeNo, ← h.bargeNo]
    rfl
  · rw [State.regN_count_self, State.regN, hplaced.closes, State.regN, ← h.closes]
    rfl

theorem State.close_joins (s : State) (m j : Nat) (f : Fill) :
    (s.close m j f).sv.barges = s.sv.barges ++ [(s.closeCounts m f).bargeOf m j f]
    ∧ (s.close m j f).hq.bargeNo = s.hq.bargeNo + 1
    ∧ (s.close m j f).regN pLKP 0xF9C = satAdd 32 (s.regN pLKP 0xF9C) 1 := by
  rw [State.close_eq]
  exact State.joinBarge_counted ((s.closeCounts_unclosed m f).trans (State.writeManifest_unclosed _ j _)) _ _

theorem State.manifestClose_closes {s : State} {m j : Nat} (hmay : s.mayClose m = true)
    (hj : ((s.boundary m).noteHold m).journalNext = some j) (hrows : (((s.boundary m).noteHold m).fill m).rows ≠ []) :
    s.manifestClose m = ((s.boundary m).noteHold m).close m j (((s.boundary m).noteHold m).fill m) := by
  unfold State.manifestClose
  simp [hmay, hj, hrows]

theorem State.releaseTrain_frees {s : State} {j : Nat} {it : Item} (hit : s.item? j = some it) (hheld : j ∈ s.sv.trainHeld)
    (hfree : s.trainHeldNow (it.f 75 72) it = false) :
    s.releaseTrain j = { s with sv := { s.sv with trainHeld := s.sv.trainHeld.filter fun x => x != j } } := by
  unfold State.releaseTrain
  simp [hit, hheld, hfree]

/-- Settles O20: only the close itself adds a barge, spends a barge number and counts a manifest. -/
theorem manifestCloseStartsABarge : Obligations.ManifestCloseStartsABarge := by
  unfold Obligations.ManifestCloseStartsABarge
  refine ⟨fun m j s u hup hmay hu hj hrows => ?_, fun j s it hup hit hheld hfree => ?_⟩
  · have hexec : exec (.manifestClose m) s = .next (u.close m j (u.fill m)) := by
      subst hu
      exact (State.engine_up hup fun s => s.manifestClose m).trans (by rw [State.manifestClose_closes hmay hj hrows])
    obtain ⟨hbarges, hno, hcount⟩ := u.close_joins m j (u.fill m)
    refine ⟨_, _, hexec, hbarges, rfl, rfl, rfl, (u.closeCounts_unclosed m _).bargeNo, rfl, rfl, ?_, hno, hcount⟩
    exact (List.length_map _).trans (u.fill m).length_numbered
  · exact (State.engine_up hup fun s => s.releaseTrain j).trans (by rw [State.releaseTrain_frees hit hheld hfree])

end Sys2Proof.Machine
end

section
/-! SUPPORT. The tollhouse's clock (R287, R290): every account is refilled on its own, and a report is one write of external memory,
one register and the next window. -/

namespace Sys2Proof.Machine

open Sys2Proof

/-! ### Refills -/

/-- An account that is not listed is not valid, and stays as it is. -/
theorem State.refill_account (s : State) (n : Nat) : s.refill.account n = (s.account n).refill :=
  SMap.get_map _ Account.refill (fun _ => rfl) _ _

theorem exec_tollRefill {s : State} (hup : s.up = true) (hdue : s.sv.refills < s.refillsDue) :
    exec .tollRefill s = .next { s.refill with sv := { s.refill.sv with refills := s.sv.refills + 1 } } :=
  (State.engine_up hup _).trans (by rw [if_pos hdue])

/-! ### Reports -/

/-- Report number `s.sv.reportNo` written, in the half that its number selects (R290). -/
def State.writeReport (s : State) : State :=
  s.extWrite (s.cfgAddr pTOLL 0x114 + 0x101000 * (s.sv.reportNo % 2)) (s.reportBytes s.sv.reportNo)

/-- Report `w` is shown as the last one, and the next window begins (R290). -/
def State.nextWindow (s : State) (w : Nat) : State :=
  let s := s.setRegN pTOLL 0xF00 (w % 2 ^ 32)
  { s with sv := { s.sv with reportNo := w + 1, reportStart := s.now } }

theorem State.writeReport_ext (s : State) : s.writeReport.ext
    = s.ext.write (s.cfgAddr pTOLL 0x114 + 0x101000 * (s.sv.reportNo % 2)) (s.reportBytes s.sv.reportNo) := by
  rw [State.writeReport, State.extWrite_ext]

theorem State.writeReport_now (s : State) : s.writeReport.now = s.now := by
  rw [State.now, State.writeReport, State.aoUs_of_mask (M := { regs := true, ext := true, tags := true, hq := true, armed := true })
    (State.extWrite_mask _ rfl rfl rfl rfl rfl s _ _ _) rfl, State.now]

theorem State.nextWindow_ext (s : State) (w : Nat) : (s.nextWindow w).ext = s.ext := rfl

theorem State.nextWindow_reportNo (s : State) (w : Nat) : (s.nextWindow w).sv.reportNo = w + 1 := rfl

theorem State.nextWindow_reportStart (s : State) (w : Nat) : (s.nextWindow w).sv.reportStart = s.now := rfl

theorem State.nextWindow_lastReport (s : State) (w : Nat) : (s.nextWindow w).regN pTOLL 0xF00 = w % 2 ^ 32 := by
  have hreg : (s.nextWindow w).reg pTOLL 0xF00 = BitVec.ofNat 32 (w % 2 ^ 32) := State.reg_setReg_self _ _ _ _
  rw [State.regN, hreg, BitVec.toNat_ofNat, Nat.mod_mod]

/-- A report may end with its vector raised. -/
theorem State.report_eq (s : State) : s.report = s.writeReport.nextWindow s.sv.reportNo
    ∨ ∃ v, s.report = (s.writeReport.nextWindow s.sv.reportNo).raise v [] := by
  rw [State.report, ← State.writeReport]
  simp only []
  split
  · exact .inr ⟨_, rfl⟩
  · exact .inl rfl

/-- A vector shows in the queues and in GLB alone (R429). -/
theorem State.report_nextWindow (s : State) : s.report.ext = (s.writeReport.nextWindow s.sv.reportNo).ext
    ∧ s.report.sv = (s.writeReport.nextWindow s.sv.reportNo).sv
    ∧ s.report.regN pTOLL 0xF00 = (s.writeReport.nextWindow s.sv.reportNo).regN pTOLL 0xF00 := by
  have heq := s.report_eq
  generalize s.writeReport.nextWindow s.sv.reportNo = t at heq ⊢
  rcases heq with h | ⟨v, h⟩
  · rw [h]
    exact ⟨rfl, rfl, rfl⟩
  · have hmask := t.raise_mask { regs := true, hq := true } rfl rfl v []
    rw [h, State.regN, State.regN, State.reg_raise _ v [] (by decide) (by decide)]
    exact ⟨State.ext_of_mask hmask rfl, State.sv_of_mask hmask rfl, rfl⟩

theorem exec_tollReport {s : State} (hup : s.up = true) (hdue : s.reportDue = true) : exec .tollReport s = .next s.report :=
  (State.engine_up hup _).trans (by rw [if_pos hdue])

/-- Settles O21. -/
theorem tollhouseRefillsAndReports : Obligations.TollhouseRefillsAndReports := by
  unfold Obligations.TollhouseRefillsAndReports
  refine ⟨fun s hup hdue => ⟨_, exec_tollRefill hup hdue, rfl, s.refill_account, rfl⟩,
    fun s hup hdue => ⟨_, exec_tollReport hup hdue, ?_⟩⟩
  intro a bs
  obtain ⟨hext, hsv, hlast⟩ := s.report_nextWindow
  have hmem : s.report.ext = s.ext.write a bs := by rw [hext, State.nextWindow_ext, State.writeReport_ext]
  rw [hsv, hlast, hmem, State.nextWindow_lastReport, State.nextWindow_reportNo, State.nextWindow_reportStart, State.writeReport_now]
  refine ⟨?_, fun x hx => Mem.get_write_outside _ _ _ _ (by omega), rfl, rfl, rfl⟩
  unfold State.ext?
  rw [hmem, Mem.read_write_self]

end Sys2Proof.Machine
end

section
/-! SUPPORT. The lock-keeper's choice of regions (R303): what `combos` lists, that the order of keys is total and transitive, and
that keeping the better of two along a list leaves a best one. -/

namespace Sys2Proof.Machine

open Sys2Proof

theorem mem_combos {k : Nat} {l rs : List Nat} : rs ∈ combos k l ↔ rs.Sublist l ∧ rs.length = k := by
  induction l generalizing k rs with
  | nil =>
    cases k with
    | zero => simp [combos]
    | succ k =>
      simp only [combos, List.not_mem_nil, List.sublist_nil, false_iff, not_and]
      rintro rfl
      simp
  | cons x l ih =>
    cases k with
    | zero =>
      simp only [combos, List.mem_singleton, List.length_eq_zero_iff]
      exact ⟨fun h => ⟨h ▸ List.nil_sublist _, h⟩, And.right⟩
    | succ k =>
      rw [combos, List.mem_append, List.mem_map, ih, List.sublist_cons_iff]
      constructor
      · rintro (⟨qs, hqs, rfl⟩ | ⟨hsub, hlen⟩)
        · obtain ⟨hsub, hlen⟩ := ih.1 hqs
          exact ⟨.inr ⟨qs, rfl, hsub⟩, by rw [List.length_cons, hlen]⟩
        · exact ⟨.inl hsub, hlen⟩
      · rintro ⟨hsub | ⟨qs, rfl, hsub⟩, hlen⟩
        · exact .inr ⟨hsub, hlen⟩
        · exact .inl ⟨qs, ih.2 ⟨hsub, by simpa using hlen⟩, rfl⟩

/-! ### The order of keys -/

theorem lexLe_cons (x y : Nat) (xs ys : List Nat) :
    lexLe (x :: xs) (y :: ys) = true ↔ x < y ∨ x = y ∧ lexLe xs ys = true := by simp [lexLe]

theorem lexLe_total (a b : List Nat) : lexLe a b = true ∨ lexLe b a = true := by
  induction a generalizing b with
  | nil => exact .inl (by cases b <;> rfl)
  | cons x xs ih =>
    cases b with
    | nil => exact .inr rfl
    | cons y ys =>
      rw [lexLe_cons, lexLe_cons]
      obtain h | rfl | h := Nat.lt_trichotomy x y
      · exact .inl (.inl h)
      · exact (ih ys).imp (fun h => .inr ⟨rfl, h⟩) fun h => .inr ⟨rfl, h⟩
      · exact .inr (.inl h)

theorem lexLe_refl (a : List Nat) : lexLe a a = true := (lexLe_total a a).elim id id

theorem lexLe_trans {a b c : List Nat} (hab : lexLe a b = true) (hbc : lexLe b c = true) : lexLe a c = true := by
  induction a generalizing b c with
  | nil => cases c <;> rfl
  | cons x xs ih =>
    cases b with
    | nil => exact absurd hab (by simp [lexLe])
    | cons y ys =>
      cases c with
      | nil => exact absurd hbc (by simp [lexLe])
      | cons z zs =>
        rw [lexLe_cons] at hab hbc ⊢
        obtain hxy | ⟨rfl, hxs⟩ := hab
        · exact .inl (hbc.elim (hxy.trans ·) fun h => h.1 ▸ hxy)
        · exact hbc.imp_right fun ⟨hyz, hys⟩ => ⟨hyz, ih hxs hys⟩

/-! ### The best of a list -/

/-- The better of a candidate and the best so far, by their keys; the earlier one where they tie (R303). -/
def better (key : List Nat → List Nat) (best : Option (List Nat)) (rs : List Nat) : Option (List Nat) :=
  match best with
  | none => some rs
  | some q => if lexLe (key q) (key rs) then best else some rs

theorem State.choose_eq (s : State) (x : Barge) (free : List Nat) :
    s.choose x free = (combos x.need free).foldl (better (s.placeKey x)) none := rfl

theorem better_some (key : List Nat → List Nat) (q rs : List Nat) : ∃ p, better key (some q) rs = some p ∧ (p = q ∨ p = rs)
    ∧ lexLe (key p) (key q) = true ∧ lexLe (key p) (key rs) = true := by
  by_cases h : lexLe (key q) (key rs) = true
  · exact ⟨q, if_pos h, .inl rfl, lexLe_refl _, h⟩
  · exact ⟨rs, if_neg h, .inr rfl, (lexLe_total _ _).resolve_left h, lexLe_refl _⟩

theorem foldl_better (key : List Nat → List Nat) (l : List (List Nat)) (q : List Nat) :
    ∃ p, l.foldl (better key) (some q) = some p ∧ (p = q ∨ p ∈ l) ∧ ∀ r, r = q ∨ r ∈ l → lexLe (key p) (key r) = true := by
  induction l generalizing q with
  | nil =>
    refine ⟨q, rfl, .inl rfl, ?_⟩
    rintro r (rfl | h)
    · exact lexLe_refl _
    · exact absurd h List.not_mem_nil
  | cons rs l ih =>
    obtain ⟨m, hm, hmem, hq, hrs⟩ := better_some key q rs
    obtain ⟨p, hp, hpmem, hbest⟩ := ih m
    refine ⟨p, by rw [List.foldl_cons, hm, hp], ?_, ?_⟩
    · rcases hpmem with rfl | h
      · exact hmem.imp_right fun h => List.mem_cons.2 (.inl h)
      · exact .inr (List.mem_cons_of_mem _ h)
    · have hpm := hbest m (.inl rfl)
      rintro r (rfl | h)
      · exact lexLe_trans hpm hq
      · rcases List.mem_cons.1 h with rfl | h
        · exact lexLe_trans hpm hrs
        · exact hbest r (.inr h)

/-- Whatever is found best is a member whose key is not above any other's. -/
theorem foldl_better_spec {key : List Nat → List Nat} {l : List (List Nat)} {p : List Nat} (h : l.foldl (better key) none = some p) :
    p ∈ l ∧ ∀ r ∈ l, lexLe (key p) (key r) = true := by
  cases l with
  | nil => exact absurd h (by simp)
  | cons q l =>
    obtain ⟨m, hm, hmem, hbest⟩ := foldl_better key l q
    obtain rfl : m = p := Option.some.inj (hm.symm.trans h)
    exact ⟨List.mem_cons.2 hmem, fun r hr => hbest r (List.mem_cons.1 hr)⟩

/-- A list that is not empty has a best member. -/
theorem foldl_better_exists (key : List Nat → List Nat) {l : List (List Nat)} (h : l ≠ []) : ∃ p, l.foldl (better key) none = some p := by
  obtain ⟨q, l, rfl⟩ := List.exists_cons_of_ne_nil h
  obtain ⟨p, hp, -⟩ := foldl_better key l q
  exact ⟨p, hp⟩

/-- Settles O31: the choice is the best member of the list of all sets of the length that the barge needs. -/
theorem chosenRegionsAreFreeAndBest : Obligations.ChosenRegionsAreFreeAndBest := by
  unfold Obligations.ChosenRegionsAreFreeAndBest
  intro s x free
  rw [State.choose_eq]
  constructor
  · intro rs hrs
    obtain ⟨hmem, hbest⟩ := foldl_better_spec hrs
    obtain ⟨hsub, hlen⟩ := mem_combos.1 hmem
    exact ⟨hlen, hsub, fun qs hqs hq => hbest qs (mem_combos.2 ⟨hqs, hq⟩)⟩
  · intro hneed
    have htake : free.take x.need ∈ combos x.need free :=
      mem_combos.2 ⟨List.take_sublist _ _, by rw [List.length_take, Nat.min_eq_left hneed]⟩
    exact foldl_better_exists _ (List.ne_nil_of_mem htake)

end Sys2Proof.Machine
end

section
/-! SUPPORT. Pre-emption requests (R304, R305, R310, R312): what a request leaves of the barges that it does not name, and what an
unplaced barge is. -/

namespace Sys2Proof.Machine

open Sys2Proof

theorem State.barge?_congr {s t : State} (h : t.sv.barges = s.sv.barges) (k : Nat) : t.barge? k = s.barge? k := by
  rw [State.barge?, h, State.barge?]

theorem State.barge?_updBarge_congr {s t : State} (h : t.sv.barges = s.sv.barges) (b k : Nat) (f : Barge → Barge) :
    (t.updBarge b f).barge? k = (s.updBarge b f).barge? k :=
  State.barge?_congr (congrArg (fun l => mapIf l (·.id == b) f) h) k

/-! ### A request -/

/-- The barge without regions, none of whose records has been fetched. -/
def Barge.cleared (x : Barge) : Barge := { x with regions := [], toLoad := [], ops := [], fetchedAll := false, st := .waiting }

theorem State.barge?_endRequestOf {s : State} {b : Nat} {x : Barge} (hx : s.barge? b = some x) :
    (s.endRequestOf b).barge? b = some x.relieved :=
  (State.barge?_congr (State.endRequestOf_tallied hx).barges b).trans (State.barge?_updBarge_self hx fun _ => rfl)

theorem State.barge?_endRequestOf_other (s : State) {b k : Nat} (hk : k ≠ b) : (s.endRequestOf b).barge? k = s.barge? k := by
  cases hx : s.barge? b with
  | none => simp only [State.endRequestOf, hx]
  | some x =>
    exact (State.barge?_congr (State.endRequestOf_tallied hx).barges k).trans (s.barge?_updBarge_other hk fun _ => rfl)

/-- Nothing that an unplacing does to the regions touches the table of barges. -/
theorem State.barge?_unplace (s : State) (c : Barge) (k : Nat) :
    (s.unplace c).barge? k = (((s.countPreempt c).endRequestOf c.id).updBarge c.id Barge.cleared).barge? k := by
  have hidle : ∀ (l : List Nat) (u : State), (l.foldl State.idle u).sv = u.sv := fun l u =>
    State.sv_of_mask (M := { regions := true }) (State.foldl_mask _ _ (fun t r => t.idle_mask _ rfl r) l u) rfl
  unfold State.unplace
  simp only []
  rw [State.barge?_congr (congrArg Serving.barges (hidle _ _))]
  refine State.barge?_updBarge_congr (congrArg Serving.barges ?_) _ _ _
  split
  · exact State.sv_of_mask (M := { regions := true }) (State.foldl_mask _ _ (fun t p => t.updRegion_mask _ rfl _ _) _ _) rfl
  · rfl

theorem State.barge?_unplace_self {s : State} {c x : Barge} (hx : s.barge? c.id = some x) :
    (s.unplace c).barge? c.id = some x.relieved.cleared := by
  rw [State.barge?_unplace]
  have hx' : (s.countPreempt c).barge? c.id = some x := (State.barge?_congr (s.countPreempt_tallied c).barges _).trans hx
  exact State.barge?_updBarge_self (State.barge?_endRequestOf hx') fun _ => rfl

theorem State.barge?_unplace_other (s : State) {c : Barge} {k : Nat} (hk : k ≠ c.id) : (s.unplace c).barge? k = s.barge? k := by
  rw [State.barge?_unplace, State.barge?_updBarge_other (f := Barge.cleared) _ hk fun _ => rfl, State.barge?_endRequestOf_other _ hk,
    State.barge?_congr (s.countPreempt_tallied c).barges]

/-- The barge has issued no record, outside maintenance: a request unplaces it at once (R305). -/
def State.unplacesAtOnce (s : State) (x : Barge) : Bool :=
  (x.st == .loading || (x.st == .running && x.ops.all (·.st == .waiting))) && !s.hq.maint

theorem State.unplacesAtOnce_iff (s : State) (x : Barge) : s.unplacesAtOnce x = true ↔
    (x.st = .loading ∨ x.st = .running ∧ ∀ o ∈ x.ops, o.st = .waiting) ∧ s.hq.maint = false := by simp [State.unplacesAtOnce]

theorem State.requestPreempt_new {s : State} {x : Barge} (h : x.preempt = none) : s.requestPreempt x =
    if s.unplacesAtOnce x then s.unplace { x with preempt := some s.now }
    else s.updBarge x.id fun y => { y with preempt := some s.now } := by
  simp [State.requestPreempt, State.unplacesAtOnce, h]

/-- From `s` to `t` barges other than `b` have been asked to leave. -/
structure OthersAsked (b : Nat) (s t : State) : Prop where
  barge : t.barge? b = s.barge? b
  hq : t.hq = s.hq
  now : t.now = s.now

theorem State.requestPreempt_othersAsked (s : State) {c : Barge} {b : Nat} (hne : c.id ≠ b) : OthersAsked b s (s.requestPreempt c) where
  barge := by
    unfold State.requestPreempt
    simp only []
    split
    · rfl
    · split
      · exact State.barge?_unplace_other _ hne.symm
      · exact State.barge?_updBarge_other _ hne.symm fun _ => rfl
  hq := State.hq_of_mask (M := { regs := true, regions := true, sv := true }) (s.requestPreempt_mask _ rfl rfl rfl c) rfl
  now := congrArg BitVec.toNat
    (State.aoUs_of_mask (M := { regs := true, regions := true, sv := true }) (s.requestPreempt_mask _ rfl rfl rfl c) rfl)

theorem State.foldl_requestPreempt_othersAsked {b : Nat} {l : List Barge} (h : ∀ c ∈ l, c.id ≠ b) (s : State) :
    OthersAsked b s (l.foldl State.requestPreempt s) := by
  induction l generalizing s with
  | nil => exact ⟨rfl, rfl, rfl⟩
  | cons c l ih =>
    have hc := s.requestPreempt_othersAsked (h c List.mem_cons_self)
    have hl := ih (fun d hd => h d (List.mem_cons_of_mem _ hd)) (s.requestPreempt c)
    exact ⟨hl.barge.trans hc.barge, hl.hq.trans hc.hq, hl.now.trans hc.now⟩

/-! ### PREEMPT -/

/-- PREEMPT asks the barge: it runs, loads or is being restored on a region of the mask (R304). -/
def Barge.askedBy (x : Barge) (mask : BitVec 8) : Bool :=
  (x.st == .running || x.st == .loading || x.st == .restoring) && x.regions.any (bitOf mask ·)

theorem State.preemptMask_eq (s : State) (mask : BitVec 8) :
    s.preemptMask mask = (s.sv.barges.filter (·.askedBy mask)).foldl State.requestPreempt s := rfl

/-- The only barge of its id is asked once, in a state in which only others have been asked before. -/
theorem State.barge?_preemptMask {s : State} {b : Nat} {x : Barge} {mask : BitVec 8} (hone : s.sv.barges.filter (·.id == b) = [x])
    (hasked : x.askedBy mask = true) :
    ∃ u, OthersAsked b s u ∧ (s.preemptMask mask).barge? b = (u.requestPreempt x).barge? b := by
  have hfilter : (s.sv.barges.filter (·.askedBy mask)).filter (·.id == b) = [x] := by
    rw [List.filter_comm, hone, List.filter_singleton, hasked, cond_true]
  obtain ⟨l₁, l₂, hl, hbefore, -, hafter⟩ := List.filter_eq_cons_iff.1 hfilter
  refine ⟨l₁.foldl State.requestPreempt s, State.foldl_requestPreempt_othersAsked (by simpa using hbefore) s, ?_⟩
  rw [State.preemptMask_eq, hl, List.foldl_append, List.foldl_cons]
  exact (State.foldl_requestPreempt_othersAsked (by simpa using hafter) _).barge

theorem exec_preempt_up {s : State} (hup : s.up = true) (mask : BitVec 8) : exec (.preempt mask) s = .next (s.preemptMask mask) :=
  State.engine_up hup fun u => u.preemptMask mask

theorem preempt_asks {s : State} {b : Nat} {x : Barge} {mask : BitVec 8} (hx : s.barge? b = some x)
    (hone : s.sv.barges.filter (·.id == b) = [x]) (hasked : x.askedBy mask = true) (hnew : x.preempt = none) :
    (s.preemptMask mask).barge? b = some (if s.unplacesAtOnce x then x.relieved.cleared else { x with preempt := some s.now }) := by
  obtain ⟨u, hu, hbarge⟩ := State.barge?_preemptMask hone hasked
  have hux : u.barge? b = some x := hu.barge.trans hx
  obtain rfl := barge?_id hx
  rw [hbarge, State.requestPreempt_new hnew, State.unplacesAtOnce, hu.hq, hu.now, ← State.unplacesAtOnce]
  split
  · exact State.barge?_unplace_self (c := { x with preempt := some s.now }) hux
  · exact State.barge?_updBarge_self hux fun _ => rfl

theorem preempt_none {s : State} {mask : BitVec 8} (h : ∀ x ∈ s.sv.barges, ∀ r ∈ x.regions, bitOf mask r = false) :
    s.preemptMask mask = s := by
  have hnone : s.sv.barges.filter (·.askedBy mask) = [] := List.filter_eq_nil_iff.2 fun x hx => by
    have hoff : x.regions.any (bitOf mask ·) = false := List.any_eq_false.2 fun r hr => by simp [h x hx r hr]
    simp [Barge.askedBy, hoff]
  rw [State.preemptMask_eq, hnone, List.foldl_nil]

/-! ### Overdue requests -/

/-- The barge's request is overdue: it is marked, counted, and named if it is the oldest (R310). -/
def State.markOverdue (s : State) (b : Nat) : State :=
  ((s.updBarge b fun y => { y with overdue := true }).count pLKP 0xFC0).nameOverdue

/-- The interrupt that may go with it (R310, R314). -/
def State.raiseOverdue (s : State) : State := if bitOf (s.cfg pLKP 0x32C) 0 then s.raise (fld (s.cfg pLKP 0x32C) 15 8) else s

theorem State.overdueNow_eq {s : State} {b from_ : Nat} {x : Barge} (hx : s.barge? b = some x) (hreq : x.preempt = some from_)
    (hold : x.overdue = false) :
    s.overdueNow b = if s.cfgN pLKP 0x31C ≤ s.now - from_ then (s.markOverdue b).raiseOverdue else s := by
  unfold State.overdueNow
  simp only [hx, State.waited, hreq, hold, Option.isSome_some, Bool.not_false, Bool.true_and, Option.elim_some, decide_eq_true_eq]
  rfl

theorem exec_preemptOverdue_up {s : State} (hup : s.up = true) (b : Nat) : exec (.preemptOverdue b) s = .next (s.overdueNow b) :=
  State.engine_up hup fun u => u.overdueNow b

theorem State.regN_nameOverdue (s : State) {o : Nat} (h : o ≠ 0xFC8) : s.nameOverdue.regN pLKP o = s.regN pLKP o := by
  unfold State.nameOverdue
  split
  · rw [State.regN, State.setRegN, State.reg_setReg_other _ _ (by omega), State.regN]
  · rfl

theorem State.barge?_markOverdue {s : State} {b : Nat} {x : Barge} (hx : s.barge? b = some x) :
    (s.markOverdue b).barge? b = some { x with overdue := true } := by
  have hcount : ∀ u : State, (u.count pLKP 0xFC0).sv = u.sv := fun u =>
    State.sv_of_mask (M := { regs := true }) (u.count_mask _ rfl _ _ _) rfl
  rw [State.markOverdue, State.barge?_congr (State.nameOverdue_tallied _).barges, State.barge?_congr (congrArg Serving.barges (hcount _))]
  exact State.barge?_updBarge_self hx fun _ => rfl

theorem State.regN_markOverdue (s : State) (b : Nat) : (s.markOverdue b).regN pLKP 0xFC0 = satAdd 32 (s.regN pLKP 0xFC0) 1 :=
  (State.regN_nameOverdue _ (by decide)).trans (State.regN_count_self _ _ _)

theorem State.raiseOverdue_sv (s : State) : s.raiseOverdue.sv = s.sv := by
  unfold State.raiseOverdue
  split
  · exact State.sv_of_mask (M := { regs := true, hq := true }) (s.raise_mask _ rfl rfl _ _) rfl
  · rfl

theorem State.raiseOverdue_regN (s : State) : s.raiseOverdue.regN pLKP 0xFC0 = s.regN pLKP 0xFC0 := by
  unfold State.raiseOverdue
  split
  · rw [State.regN, State.reg_raise _ _ _ (by decide) (by decide), State.regN]
  · rfl

/-! ### The commands -/

/-- Settles O33. -/
theorem preemptionHoldsAndRequests : Obligations.PreemptionHoldsAndRequests := by
  unfold Obligations.PreemptionHoldsAndRequests
  intro mask b s hup
  refine ⟨State.engine_up hup (·.holdMask mask), State.engine_up hup (·.releaseMask mask), fun h => ?_, ?_, ?_⟩
  · rw [exec_preempt_up hup, preempt_none h]
  · intro x r hx hr hbit hnew hone
    have hasked (hst : x.st = .running ∨ x.st = .loading ∨ x.st = .restoring) : x.askedBy mask = true := by
      simp only [Barge.askedBy, Bool.and_eq_true, Bool.or_eq_true, beq_iff_eq, List.any_eq_true]
      exact ⟨by tauto, r, hr, hbit⟩
    have hexec := exec_preempt_up hup mask
    constructor
    · intro hst
      have hstays : s.unplacesAtOnce x = false := Bool.eq_false_iff.2 fun h => by
        obtain ⟨hfresh, hnomaint⟩ := (s.unplacesAtOnce_iff x).1 h
        obtain ⟨hrun, ⟨o, ho, hissued⟩ | hmaint⟩ | hrest | ⟨-, hmaint⟩ := hst
        · obtain hload | ⟨-, hwait⟩ := hfresh
          · exact absurd (hrun.symm.trans hload) (by decide)
          · exact hissued (hwait o ho)
        · exact absurd (hmaint.symm.trans hnomaint) (by decide)
        · obtain hload | ⟨hrun, -⟩ := hfresh
          · exact absurd (hrest.symm.trans hload) (by decide)
          · exact absurd (hrest.symm.trans hrun) (by decide)
        · exact absurd (hmaint.symm.trans hnomaint) (by decide)
      have hafter := preempt_asks hx hone (hasked (by tauto)) hnew
      rw [hstays, if_neg (by decide)] at hafter
      exact ⟨_, _, hexec, hafter, rfl⟩
    · intro hmaint hst
      have hafter := preempt_asks hx hone (hasked (by tauto)) hnew
      rw [(s.unplacesAtOnce_iff x).2 ⟨hst, hmaint⟩, if_pos rfl] at hafter
      exact ⟨_, _, hexec, hafter, rfl, rfl, rfl, rfl, rfl⟩
  · intro x from_ hx hreq hold
    rw [exec_preemptOverdue_up hup, State.overdueNow_eq hx hreq hold]
    refine ⟨fun hdue => ?_, fun hearly => by rw [if_neg (by omega)]⟩
    rw [if_pos hdue]
    exact ⟨_, _, rfl, (State.barge?_congr (congrArg Serving.barges (State.raiseOverdue_sv _)) b).trans (State.barge?_markOverdue hx), rfl,
      (State.raiseOverdue_regN _).trans (s.regN_markOverdue b)⟩

end Sys2Proof.Machine
end

section
/-! SUPPORT. A refutation of the placement statement. It speaks of any state of the fabric's ports, and a port's round robin stands at
one of VC1 to VC7 (R334): for VC 2116 the count of flits sent (R345; 0xDF00 + 4 · 2116 = 0x10010) lies where CTRL of region 0 does. A
placement looks for the factor rows that a region's moored copies still lack (R162); when that sends a request to a row's owner, the
port sends its packet of VC 2116 first, its two flits are counted in ISOLATE, and the region behind its plank does not wake (R397). -/

namespace Sys2Proof.Machine

open Sys2Proof

/-- A directory slot in state ACTIVE: one row that engine 0 owns, by the zeros at 0x400, and two members, by the list at 0x500
(R192, R196). -/
def twoMemberSlot : Nat :=
  let b := 1 + 2 ^ 96 + 0x400 * 2 ^ 128 + 2 * 2 ^ 192 + 0x500 * 2 ^ 256 + 2 ^ 896
  b + (crc32c (leBytes 124 b)).toNat * 2 ^ 992

/-- A port in the turn of VC 2116, whose packet of two flits is at the head; the replay buffer has room for three. -/
def strayPort : Port :=
  { st := .up, turn := 2116, inTurn := true, deficit := [(2116, 2)], queue := [{ p := { vc := 2116, payload := List.replicate 80 0 } }]
    replay := List.replicate 253 { seq := 0, vc := 0, frame := 0, content := [] } }

/-- A barge of mooring 0 that waits for one region. -/
def strayWaiting : Barge := { id := 0, need := 1 }

/-- Engine 1, which runs, with that port towards engine 0; region 0 sleeps, and its copy of adapter 1 lacks row 0 of table 0. -/
def strayPlaceState : State :=
  { rst := { active := false, sources := [], step := 5 }
    regs := [(0xCF00, 1)]
    ext := Mem.write (Mem.write [] 0 (leBytes 128 twoMemberSlot)) 0x502 [1]
    regions := [(0, { moored := [{ mooring := 0, adapter := 1, slot := 0, todo := [0] }] })]
    fab := { ports := [(0, strayPort)] }
    sv := { barges := [strayWaiting] } }

/-- The command leaves region 0 neither in RUN nor waking. -/
def leavesRegion0Asleep (c : Instr) (s : State) : Bool := match exec c s with
  | .next t => !((t.region 0).power == .run || (t.region 0).waking.isSome)
  | _ => false

set_option maxRecDepth 20000 in -- the CRC-32C of 124 bytes is evaluated (R193)
theorem bargePlacement_leavesRegion0Asleep : leavesRegion0Asleep .bargePlacement strayPlaceState = true := by decide +kernel

/-- Refutes O32: region 0, which the waiting barge is placed on, is put behind its plank by the send of a request, and sleeps on. -/
theorem not_waitingWorkIsPlacedAndLoaded : ¬ Obligations.WaitingWorkIsPlacedAndLoaded := by
  intro h
  obtain ⟨hplace, -⟩ := h 0 strayPlaceState strayWaiting (by decide) (by decide)
  obtain ⟨hroom, -⟩ := hplace rfl (by decide) rfl rfl rfl rfl (by decide)
  obtain ⟨rs, t, y, hchoose, hexec, -, -, -, -, hawake, -⟩ := hroom (by decide +kernel)
  obtain rfl : rs = [0] := Option.some.inj (hchoose.symm.trans (by decide +kernel))
  obtain ⟨hpower, hwaking⟩ : ¬(t.region 0).power = .run ∧ (t.region 0).waking = none := by
    simpa [leavesRegion0Asleep, hexec] using bargePlacement_leavesRegion0Asleep
  obtain hrun | hwakes := hawake 0 (List.mem_singleton_self 0)
  · exact hpower hrun
  · exact absurd hwakes (by simp [hwaking])

end Sys2Proof.Machine
end

section
/-! SUPPORT. A refutation among the saves and restores. The statement speaks of any physical region, and there are eight (R11): the bit
of tile 66752, in region 4172, is looked for at ERR.QUAR_TILE0 + 4 · 2086 (0x4F20 + 8344 = 0x6FB8), where LKP.RESTORES lies. An error
armed for that tile (R414) strikes the word that a restore writes there, and the quarantine that follows (R408) is taken for a
restore. -/

namespace Sys2Proof.Machine

open Sys2Proof

/-- 64 bytes from the start of the scratchpad of tile 0 in logical region 0 (R112). -/
def strayRange : Nat := 2 ^ 56 + 2 ^ 48 + 2 ^ 32 + 2 ^ 16

/-- A barge that is being restored from slot 0 to region 4172, with that live range. -/
def strayRestored : Barge :=
  { id := 0, need := 1, regions := [4172], st := .restoring, saveSlot := some 0, liveWords := [strayRange] }

/-- The region runs; an error is armed for the next word that its tile 66752 writes, and one poisoning is enough for a
quarantine (R408, R414). -/
def strayRestoreState : State :=
  { rst := { active := false, sources := [], step := 5 }
    regs := [(0x4100, 1)]
    regions := [(4172, { power := .run })]
    sv := { barges := [strayRestored], saveSlots := [0] }
    armed := { sram := [(tPage 66752, 0)] } }

/-- RESTORES after the command. -/
def restoresAfter (b : Nat) (s : State) : Option Nat := match exec (.restoreComplete b) s with
  | .next t => some (t.regN pLKP 0xFB8)
  | _ => none

/-- Refutes O34: the restore to a region beyond the eight quarantines a tile whose bit lies in RESTORES, which then counts two. -/
theorem not_savesAndRestores : ¬ Obligations.SavesAndRestores := by
  intro h
  obtain ⟨-, -, hrestore⟩ := h 0 0 strayRestoreState strayRestored (by decide) ⟨by decide +kernel, rfl⟩ (by decide) rfl rfl
  obtain ⟨t, y, hexec, -, -, -, -, -, -, -, -, -, -, -, hcount, -⟩ :=
    hrestore rfl (by decide +kernel) rfl (by decide +kernel)
  have htwo : restoresAfter 0 strayRestoreState = some 2 := by decide +kernel
  have hone : satAdd 32 (strayRestoreState.regN pLKP 0xFB8) 1 = 1 := by decide +kernel
  rw [restoresAfter, hexec, Option.some.injEq, hcount, hone] at htwo
  exact absurd htwo (by decide)

end Sys2Proof.Machine
end

section
/-! SUPPORT. Flits and packets read back (R323, R328): bytes and numbers both ways, the fields of a flit made from its parts, and the header of
a packet. -/

namespace Sys2Proof.Machine

open Sys2Proof

/-! ### Bytes and numbers (R10) -/

theorem leNat_append (bs cs : List Byte) : leNat (bs ++ cs) = leNat bs + 256 ^ bs.length * leNat cs := by
  induction bs with
  | nil => simp [leNat]
  | cons b bs ih =>
    rw [List.cons_append, leNat, leNat, ih, List.length_cons, pow_succ']
    ring

theorem leNat_lt_two_pow (bs : List Byte) : leNat bs < 2 ^ (8 * bs.length) := by
  rw [pow_mul]
  exact leNat_lt bs

/-- The first bytes of a number read from bytes are those bytes. -/
theorem leBytes_leNat_append (bs cs : List Byte) : leBytes bs.length (leNat (bs ++ cs)) = bs := by
  induction bs with
  | nil => rfl
  | cons b bs ih =>
    have hb : b.toNat < 256 := b.isLt
    have hlow : BitVec.ofNat 8 (b.toNat + 256 * leNat (bs ++ cs)) = b := BitVec.eq_of_toNat_eq (by rw [BitVec.toNat_ofNat]; omega)
    have hhigh : (b.toNat + 256 * leNat (bs ++ cs)) / 256 = leNat (bs ++ cs) := by omega
    rw [List.cons_append, leNat, List.length_cons, leBytes, hlow, hhigh, ih]

theorem toNat_ofNat_of_lt {n v : Nat} (h : v < 2 ^ n) : (BitVec.ofNat n v).toNat = v := by
  rw [BitVec.toNat_ofNat, Nat.mod_eq_of_lt h]

theorem fld_eq_nfld {n : Nat} (w : BitVec n) (hi lo : Nat) : fld w hi lo = nfld w.toNat hi lo := by
  rw [fld, BitVec.extractLsb'_toNat, Nat.shiftRight_eq_div_pow, nfld]

/-- A field within the low bits. -/
theorem nfld_mod (w : Nat) {hi lo m : Nat} (hlo : lo ≤ hi) (hhi : hi < m) : nfld (w % 2 ^ m) hi lo = nfld w hi lo := by
  have hsplit : 2 ^ m = 2 ^ lo * 2 ^ (m - lo) := by rw [← pow_add]; congr 1; omega
  rw [nfld, nfld, hsplit, Nat.mod_mul_right_div_self, Nat.mod_mod_of_dvd _ (pow_dvd_pow 2 (by omega))]

/-! ### Flits (R323) -/

/-- The link control word: SEQ, ACK, VC, FRAME and KIND. -/
def linkControl (seq ack vc frame kind : Nat) : Nat :=
  seq % 4096 * 2 ^ 20 + ack % 4096 * 2 ^ 8 + vc % 8 * 2 ^ 5 + frame % 4 * 2 ^ 3 + kind % 8

/-- The 60 bytes of a flit that its CRC covers. -/
def flitBody (seq ack vc frame kind : Nat) (c : List Byte) : List Byte :=
  leBytes 4 (linkControl seq ack vc frame kind) ++ (c ++ List.replicate 56 0).take 56

section

variable (seq ack vc frame kind : Nat) (c : List Byte)

theorem flitBody_length : (flitBody seq ack vc frame kind c).length = 60 := by
  simp [flitBody, leBytes_length]

theorem flitOf_toNat : (flitOf seq ack vc frame kind c).toNat = leNat (flitBody seq ack vc frame kind c
    ++ leBytes 4 (crc32c (flitBody seq ack vc frame kind c)).toNat) := by
  have hlt := leNat_lt_two_pow (flitBody seq ack vc frame kind c ++ leBytes 4 (crc32c (flitBody seq ack vc frame kind c)).toNat)
  simp only [List.length_append, flitBody_length, leBytes_length, Nat.reduceAdd, Nat.reduceMul] at hlt
  exact toNat_ofNat_of_lt hlt

/-- The bytes that the CRC covers read back. -/
theorem leBytes_flitOf : leBytes 60 (flitOf seq ack vc frame kind c).toNat = flitBody seq ack vc frame kind c := by
  rw [flitOf_toNat]
  simpa only [flitBody_length] using leBytes_leNat_append (flitBody seq ack vc frame kind c) _

/-- The low 32 bits are the link control word. -/
theorem flitOf_low : (flitOf seq ack vc frame kind c).toNat % 2 ^ 32 = linkControl seq ack vc frame kind := by
  have hlt : linkControl seq ack vc frame kind < 2 ^ 32 := by unfold linkControl; omega
  rw [flitOf_toNat, flitBody, List.append_assoc, leNat_append, leBytes_length, leNat_leBytes]
  omega

/-- The high 32 bits are the CRC of the rest. -/
theorem flitOf_crc : fld (flitOf seq ack vc frame kind c) 511 480 = (crc32c (flitBody seq ack vc frame kind c)).toNat := by
  have hcrc : (crc32c (flitBody seq ack vc frame kind c)).toNat < 2 ^ 32 := BitVec.isLt _
  have hbody := leNat_lt (flitBody seq ack vc frame kind c)
  rw [fld_eq_nfld, flitOf_toNat, leNat_append, leNat_leBytes]
  rw [flitBody_length] at hbody ⊢
  unfold nfld
  omega

/-- The fields of the low 32 bits are those of the link control word. -/
theorem fld_flitOf {hi lo : Nat} (hlo : lo ≤ hi) (hhi : hi < 32) :
    fld (flitOf seq ack vc frame kind c) hi lo = nfld (linkControl seq ack vc frame kind) hi lo := by
  rw [fld_eq_nfld, ← flitOf_low seq ack vc frame kind c, nfld_mod _ hlo hhi]

theorem flitSeq_flitOf : flitSeq (flitOf seq ack vc frame kind c) = seq % 4096 := by
  rw [flitSeq, fld_flitOf _ _ _ _ _ _ (by decide) (by decide), nfld, linkControl]
  omega

theorem flitAck_flitOf : flitAck (flitOf seq ack vc frame kind c) = ack % 4096 := by
  rw [flitAck, fld_flitOf _ _ _ _ _ _ (by decide) (by decide), nfld, linkControl]
  omega

theorem flitVc_flitOf : flitVc (flitOf seq ack vc frame kind c) = vc % 8 := by
  rw [flitVc, fld_flitOf _ _ _ _ _ _ (by decide) (by decide), nfld, linkControl]
  omega

theorem flitFrame_flitOf : flitFrame (flitOf seq ack vc frame kind c) = frame % 4 := by
  rw [flitFrame, fld_flitOf _ _ _ _ _ _ (by decide) (by decide), nfld, linkControl]
  omega

theorem flitKind_flitOf : flitKind (flitOf seq ack vc frame kind c) = kind % 8 := by
  rw [flitKind, fld_flitOf _ _ _ _ _ _ (by decide) (by decide), nfld, linkControl]
  omega

theorem flitContent_flitOf : flitContent (flitOf seq ack vc frame kind c) = (c ++ List.replicate 56 0).take 56 := by
  rw [flitContent, leBytes_flitOf]
  exact List.drop_left' (leBytes_length 4 _)

variable {kind}

/-- A flit made of a listed KIND is good. -/
theorem flitGood_flitOf (hkind : kind ≤ 4) : flitGood (flitOf seq ack vc frame kind c) = true := by
  rw [flitGood, leBytes_flitOf, flitOf_crc, flitKind_flitOf]
  simp
  omega

end

/-! ### Packets (R328) -/

/-- Every field lies within its width in the header (R328). -/
structure InWidths (p : Packet) : Prop where
  addr : p.addr < 2 ^ 44
  dest : p.dest < 2 ^ 13
  src : p.src < 2 ^ 13
  tag : p.tag < 2 ^ 17
  gen : p.gen < 8
  vc : p.vc < 8
  op : p.op < 256
  len : p.len < 2 ^ 13
  status : p.status < 16
  rdir : p.rdir < 4
  epoch : p.epoch < 256

namespace InWidths

variable {p : Packet} (h : InWidths p)
include h

theorem header_lt : pktHeader p < 256 ^ 32 := by
  have hpoison := p.poison.isLt
  have himm := p.imm.isLt
  have haddr := h.addr
  unfold pktHeader
  omega

/-- The fields lie next to each other in the header, and read back. -/
theorem header_fields : nfld (pktHeader p) 255 212 = p.addr ∧ nfld (pktHeader p) 211 199 = p.dest ∧ nfld (pktHeader p) 198 186 = p.src
    ∧ nfld (pktHeader p) 185 169 = p.tag ∧ nfld (pktHeader p) 168 166 = p.gen ∧ nfld (pktHeader p) 165 163 = p.vc
    ∧ nfld (pktHeader p) 162 155 = p.op ∧ nfld (pktHeader p) 154 142 = p.len ∧ nfld (pktHeader p) 141 138 = p.status
    ∧ nfld (pktHeader p) 137 136 = p.rdir ∧ nfld (pktHeader p) 135 128 = p.epoch ∧ nfld (pktHeader p) 127 64 = p.poison.toNat
    ∧ nfld (pktHeader p) 63 0 = p.imm.toNat := by
  obtain ⟨haddr, hdest, hsrc, htag, hgen, hvc, hop, hlen, hstatus, hrdir, hepoch⟩ := h
  have hpoison := p.poison.isLt
  have himm := p.imm.isLt
  unfold nfld pktHeader
  refine ⟨?_, ?_, ?_, ?_, ?_, ?_, ?_, ?_, ?_, ?_, ?_, ?_, ?_⟩ <;> omega

/-- A packet read from bytes that begin with its header has every field of it, and what follows the header as its payload. -/
theorem packetOf_header {bs : List Byte} (hhead : leNat (bs.take 32) = pktHeader p) :
    packetOf bs = { p with payload := if p.op = 1 then [] else (bs.drop 32).take p.len } := by
  obtain ⟨haddr, hdest, hsrc, htag, hgen, hvc, hop, hlen, hstatus, hrdir, hepoch, hpoison, himm⟩ := h.header_fields
  simp only [packetOf, hhead, haddr, hdest, hsrc, htag, hgen, hvc, hop, hlen, hstatus, hrdir, hepoch, hpoison, himm, BitVec.ofNat_toNat,
    BitVec.setWidth_eq]

/-- A packet whose payload is as long as its OP and LEN say reads back from its bytes, whatever follows them. -/
theorem packetOf_pktBytes (hlength : p.payload.length = if p.op = 1 then 0 else p.len) (pad : List Byte) :
    packetOf (pktBytes p ++ pad) = p := by
  have hhead : leNat ((pktBytes p ++ pad).take 32) = pktHeader p := by
    rw [pktBytes, List.append_assoc, List.take_left' (leBytes_length 32 _), leNat_leBytes, Nat.mod_eq_of_lt h.header_lt]
  have hbody : (pktBytes p ++ pad).drop 32 = p.payload ++ pad := by
    rw [pktBytes, List.append_assoc, List.drop_left' (leBytes_length 32 _)]
  have hpayload : (if p.op = 1 then [] else (p.payload ++ pad).take p.len) = p.payload := by
    split
    · rw [if_pos ‹p.op = 1›] at hlength
      exact (List.length_eq_zero_iff.1 hlength).symm
    · rw [if_neg ‹p.op ≠ 1›] at hlength
      exact List.take_left' hlength
  rw [h.packetOf_header hhead, hbody, hpayload]

end InWidths

theorem packetOk_length {p : Packet} (h : packetOk p = true) : p.payload.length = if p.op = 1 then 0 else p.len := by
  simp only [packetOk, Bool.and_eq_true, beq_iff_eq] at h
  exact h.2

/-- Settles O47: a flit's low word and content stand in its bytes as they went in, and its CRC is that of the rest; a packet's header holds
each field within its width, and its payload ends where LEN says. -/
theorem packetsAndFlitsReadBack : Obligations.PacketsAndFlitsReadBack := by
  refine ⟨fun seq ack vc frame kind c hkind => ?_, fun p pad hok haddr hdest hsrc htag hgen hvc hop hlen hstatus hrdir hepoch => ?_⟩
  · exact ⟨flitGood_flitOf seq ack vc frame c hkind, flitSeq_flitOf seq ack vc frame kind c, flitAck_flitOf seq ack vc frame kind c,
      flitVc_flitOf seq ack vc frame kind c, flitFrame_flitOf seq ack vc frame kind c,
      (flitKind_flitOf seq ack vc frame kind c).trans (Nat.mod_eq_of_lt (by omega)), flitContent_flitOf seq ack vc frame kind c⟩
  · exact InWidths.packetOf_pktBytes ⟨haddr, hdest, hsrc, htag, hgen, hvc, hop, hlen, hstatus, hrdir, hepoch⟩ (packetOk_length hok) pad

end Sys2Proof.Machine
end

section
/-! SUPPORT. The ports of the fabric: what a port reads as after it or another is changed, what error flags and counters leave of the fabric
unit, and what a link that goes down discards (R323, R325). Then how links come up and go down (R321, R325, R391, R437). -/

namespace Sys2Proof.Machine

open Sys2Proof

/-! ### Ports -/

theorem State.fport_congr {s t : State} (h : t.fab = s.fab) (k : Nat) : t.fport k = s.fport k := by
  rw [State.fport, h, State.fport]

@[simp] theorem State.fport_setPort_self (s : State) (n : Nat) (x : Port) : (s.setPort n x).fport n = x := SMap.get_put_self _ _ _ _

theorem State.fport_setPort_other (s : State) {n k : Nat} (x : Port) (h : k ≠ n) : (s.setPort n x).fport k = s.fport k :=
  SMap.get_put_other _ _ _ _ _ h

@[simp] theorem State.fport_updPort_self (s : State) (n : Nat) (f : Port → Port) : (s.updPort n f).fport n = f (s.fport n) :=
  s.fport_setPort_self n _

theorem State.fport_updPort_other (s : State) {n k : Nat} (f : Port → Port) (h : k ≠ n) : (s.updPort n f).fport k = s.fport k :=
  s.fport_setPort_other _ h

/-- A control flit that a port makes (R323). -/
def Port.controlFlit (x : Port) (kind : Nat) (c : List Byte) : BitVec 512 := flitOf x.lastSeq x.ack 0 0 kind c

/-- A control flit sent joins those of its port. -/
@[simp] theorem State.fport_sendControl_self (s : State) (n kind : Nat) (c : List Byte) : (s.sendControl n kind c).fport n
    = { s.fport n with control := (s.fport n).control ++ [(s.fport n).controlFlit kind c] } :=
  s.fport_updPort_self n _

@[simp] theorem State.count_fab (s : State) (P o n : Nat) : (s.count P o n).fab = s.fab :=
  State.fab_of_mask (M := { regs := true }) (s.count_mask _ rfl P o n) rfl

@[simp] theorem State.err_fab (s : State) (P b : Nat) : (s.err P b).fab = s.fab :=
  State.fab_of_mask (M := { regs := true, hq := true }) (s.err_mask _ rfl rfl P b) rfl

@[simp] theorem State.raise_fab (s : State) (v : Nat) (tags : List Nat) : (s.raise v tags).fab = s.fab :=
  State.fab_of_mask (M := { regs := true, hq := true }) (s.raise_mask _ rfl rfl v tags) rfl

/-- The evaluation of the board master shows in the fabric unit as its outcome alone (R391). -/
theorem State.settleMaster_fab (s : State) : s.settleMaster.fab = { s.fab with master := some s.claimedPos } := by
  unfold State.settleMaster
  simp only []
  split <;> split <;> simp

/-- A control flit of a listed KIND reads back: it is good, of that KIND, and begins with its content. -/
theorem Port.controlFlit_spec (x : Port) {kind m : Nat} {c : List Byte} (hkind : kind ≤ 4) (hc : c.length = m) (hm : m ≤ 56) :
    flitGood (x.controlFlit kind c) = true ∧ flitKind (x.controlFlit kind c) = kind ∧ (flitContent (x.controlFlit kind c)).take m = c := by
  refine ⟨flitGood_flitOf _ _ _ _ _ hkind, ?_, ?_⟩
  · rw [Port.controlFlit, flitKind_flitOf, Nat.mod_eq_of_lt (by omega)]
  · rw [Port.controlFlit, flitContent_flitOf, List.take_take, Nat.min_eq_left hm, List.take_left' hc]

/-! ### A link goes down (R325) -/

/-- The port's state once its link is down. -/
def Port.downed (x : Port) : Port :=
  { x with st := .down, replay := [], queue := [], receiving := [], owed := [], deficit := [], inTurn := false, wasDown := true }

/-- The fabric unit once port `n`'s link is down: the packets in its input buffers are gone with what the port held. -/
theorem State.linkDown_fab (s : State) (n : Nat) : (s.linkDown n).fab =
    { s.fab with
      ports := (s.updPort n Port.downed).fab.ports
      inbox := (s.fab.arrivals.filter (fun a => a.2 == n)).foldl (fun l a => l.erase a.1) s.fab.inbox
      arrivals := s.fab.arrivals.filter (fun a => !(a.2 == n)) } := by
  unfold State.linkDown
  simp only [List.partition_eq_filter_filter]
  split <;> simp only [State.raise_fab, State.err_fab, State.count_fab] <;> rfl

theorem State.fport_linkDown_self (s : State) (n : Nat) : (s.linkDown n).fport n = (s.fport n).downed := by
  rw [State.fport, s.linkDown_fab n]
  exact s.fport_updPort_self n Port.downed

theorem State.fport_linkDown_other (s : State) {n k : Nat} (h : k ≠ n) : (s.linkDown n).fport k = s.fport k := by
  rw [State.fport, s.linkDown_fab n]
  exact s.fport_updPort_other Port.downed h

/-- FAB's flag of a link that went down, which the message of MODE leaves (R327, R447). -/
theorem State.errStatus_linkDown (s : State) (n : Nat) : bitOf ((s.linkDown n).errStatus pFAB) 0 = true := by
  have hflag : ∀ u : State, bitOf ((u.err pFAB 0).errStatus pFAB) 0 = true := fun u =>
    u.bitOf_errStatus_err (by decide) (by decide) (by decide)
  unfold State.linkDown
  simp only []
  split
  · rw [State.errStatus, State.reg_raise _ _ _ (by decide) (by decide)]
    exact hflag _
  · exact hflag _

/-! ### Received flits -/

/-- A good flit of the command's kind at a port that is UP acts once its ACK has (R324). -/
theorem State.rxFlit_up {s : State} {n kind : Nat} {f : BitVec 512} (hst : (s.fport n).st = .up) (hgood : flitGood f = true)
    (hkind : flitKind f = kind) (act : State → State) : s.rxFlit n f false kind act = act (s.ackFlits n (flitAck f)) := by
  simp [State.rxFlit, hst, hgood, hkind]

/-- A good LINK_INIT flit acts at a port in INIT (R321). -/
theorem State.rxFlit_init {s : State} {n : Nat} {f : BitVec 512} (hst : (s.fport n).st = .init) (hgood : flitGood f = true)
    (hkind : flitKind f = kINIT) (act : State → State) : s.rxFlit n f false kINIT act = act s := by
  simp [State.rxFlit, hst, hgood, hkind]

/-! ### Links come up (R321, R391, R437) -/

/-- PCS lock starts LINK_INIT on a TRAINING port out of reset. -/
theorem exec_pcsLock {s : State} {n : Nat} (hup : s.up = true) : exec (.pcsLock n) s = .next (s.locked n) := State.engine_up hup (·.locked n)

theorem State.locked_training {s : State} {n : Nat} (hst : (s.fport n).st = .training) (hreset : (s.fport n).retrain = none) :
    s.locked n = (s.updPort n fun x => { x with st := .init }).sendControl n kINIT (s.initContent n) := by
  simp [State.locked, hst, hreset]

theorem State.initContent_length (s : State) (n : Nat) : (s.initContent n).length = 8 := by
  simp [State.initContent, leBytes_length]

/-- What a port holds of its peer's announcement (R391). -/
def Port.announced (x : Port) (c : List Byte) : Port :=
  { x with peer := leNat (c.take 2) % 2 ^ 13, peerPort := leNat ((c.drop 2).take 1) % 32, peerStrap := leNat ((c.drop 3).take 1) }

/-- The peer that an announcement names: its id and its port. -/
def announcedPeer (c : List Byte) : Nat × Nat := (leNat (c.take 2) % 2 ^ 13, leNat ((c.drop 2).take 1) % 32)

theorem State.initFlit_eq {s : State} {n : Nat} (hst : (s.fport n).st = .init) (c : List Byte) : s.initFlit n c =
    let u := s.updPort n (·.announced c)
    if s.expectedPeer n = some (announcedPeer c) then
      let v := u.updPort n fun x => { x with st := .up }
      if n < 14 then v.settleMaster else v
    else (u.updPort n fun x => { x with st := .miswired }).err pFAB 2 := by
  unfold State.initFlit
  rw [if_neg (by simp [hst])]
  rfl

/-- The expected peer brings the link UP (R321). -/
theorem State.fport_initFlit_expected {s : State} {n : Nat} {c : List Byte} (hst : (s.fport n).st = .init)
    (h : s.expectedPeer n = some (announcedPeer c)) : (s.initFlit n c).fport n = { (s.fport n).announced c with st := .up } := by
  have hmaster : ∀ u : State, u.settleMaster.fport n = u.fport n := fun u => by rw [State.fport, u.settleMaster_fab, State.fport]
  rw [State.initFlit_eq hst, if_pos h]
  simp only []
  split <;> simp [hmaster]

/-- Any other leaves the port MISWIRED, and FAB's flag of it set (R321). -/
theorem State.initFlit_miswired {s : State} {n : Nat} {c : List Byte} (hst : (s.fport n).st = .init)
    (h : s.expectedPeer n ≠ some (announcedPeer c)) : (s.initFlit n c).fport n = { (s.fport n).announced c with st := .miswired }
      ∧ bitOf ((s.initFlit n c).errStatus pFAB) 2 = true := by
  rw [State.initFlit_eq hst, if_neg h]
  exact ⟨by simp [State.fport_congr (State.err_fab _ _ _)], State.bitOf_errStatus_err _ (by decide) (by decide) (by decide)⟩

/-- Settles O46. -/
theorem linksComeUpAndGoDown : Obligations.LinksComeUpAndGoDown := by
  intro n s hup x down
  have hdown : down (s.linkDown n) := by
    have hport := s.fport_linkDown_self n
    refine ⟨?_, ?_, ?_, ?_, s.errStatus_linkDown n, fun k hk => s.fport_linkDown_other hk, ?_, ?_, ?_⟩
    · rw [hport]; rfl
    · rw [hport]; rfl
    · rw [hport]; rfl
    · rw [hport]; rfl
    · rw [s.linkDown_fab n]
    · rw [s.linkDown_fab n]
    · rw [s.linkDown_fab n]
  have hloss : exec (.pcsLockLoss n) s = .next (if x.st == .up || x.st == .init then s.linkDown n else s) :=
    State.engine_up hup fun s => if (s.fport n).st == .up || (s.fport n).st == .init then s.linkDown n else s
  have htimeout : exec (.replayTimeout n) s = .next (s.replayLate n) := State.engine_up hup (·.replayLate n)
  have hrelease : exec (.retrainRelease n) s = .next (s.retrainDone n) := State.engine_up hup (·.retrainDone n)
  refine ⟨fun hst hreset => ?lock, fun hnot => ?noLock, fun f peer pport hst hgood hkind hpeer hpport => ?init, fun hst => ?loss,
    fun hnup hninit => ?noLoss, fun f fs hst hreplay => ⟨fun hlate => ?late, fun hearly => ?early⟩,
    fun e hreset => ⟨fun hover => ?release, fun hnot => ?noRelease⟩⟩
  case lock =>
    obtain ⟨hgood, hkind, hcontent⟩ := ({ x with st := .init } : Port).controlFlit_spec (kind := kINIT) (by decide)
      (s.initContent_length n) (by decide)
    refine ⟨_, _, (exec_pcsLock hup).trans (congrArg _ (State.locked_training hst hreset)), ?_, ?_, hgood, hkind, hcontent⟩
    all_goals simp [x]
  case noLock =>
    have hlocked : s.locked n = s := by
      have hcond : (x.st == .training && x.retrain.isNone) = false := by
        obtain h | h := hnot
        · simp [h]
        · obtain ⟨e, he⟩ := Option.isSome_iff_exists.1 h
          simp [he]
      rw [State.locked, if_neg (by simp [x, hcond])]
    rw [exec_pcsLock hup, hlocked]
  case init =>
    subst hpeer hpport
    have hexec : exec (.linkInit n f) s = .next (s.initFlit n (flitContent f)) := by
      change execLinkInit n f s = _
      rw [execLinkInit, State.engine_up hup, State.rxFlit_init hst hgood hkind]
    by_cases h : s.expectedPeer n = some (announcedPeer (flitContent f))
    · have hport := State.fport_initFlit_expected hst h
      refine ⟨_, hexec, ?_, ?_, ?_, fun _ => ?_, fun hne => absurd h hne⟩
      all_goals rw [hport] <;> rfl
    · obtain ⟨hport, hflag⟩ := State.initFlit_miswired hst h
      refine ⟨_, hexec, ?_, ?_, ?_, fun heq => absurd heq h, fun _ => ⟨?_, hflag⟩⟩
      all_goals rw [hport] <;> rfl
  case loss =>
    have hcond : (x.st == .up || x.st == .init) = true := by simpa using hst
    exact ⟨_, hloss.trans (by rw [if_pos hcond]), hdown⟩
  case noLoss => rw [hloss, if_neg (by simp [hnup, hninit])]
  case late =>
    have hport : s.replayLate n = s.linkDown n := by
      simp [State.replayLate, show (s.fport n).replay = f :: fs from hreplay, show (s.fport n).st = .up from hst, hlate]
    exact ⟨_, htimeout.trans (congrArg _ hport), hdown⟩
  case early =>
    rw [htimeout]
    simp [State.replayLate, show (s.fport n).replay = f :: fs from hreplay, Nat.not_le.2 hearly]
  case release =>
    have hport : s.retrainDone n = s.updPort n fun x => { x with retrain := none } := by
      simp [State.retrainDone, show (s.fport n).retrain = some e from hreset, hover]
    exact ⟨_, hrelease.trans (congrArg _ hport), s.fport_updPort_self n _, fun k hk => s.fport_updPort_other _ hk⟩
  case noRelease =>
    rw [hrelease]
    simp [State.retrainDone, show (s.fport n).retrain = some e from hreset, Nat.not_le.2 hnot]

end Sys2Proof.Machine
end

section
/-! SUPPORT. Received flits (R323 to R326): what the sending of a port's queue leaves of its receiving side, the DATA flits that are accepted,
dropped or answered by a NAK, what a NAK sends again, and the credits that come back. -/

namespace Sys2Proof.Machine

open Sys2Proof

/-! ### What sending leaves -/

/-- A port without what its sending side changes: its state, its peer, and its receiving side. -/
def Port.sansSending (x : Port) : Port :=
  { x with txSeq := 0, replay := [], credits := [], queue := [], deficit := [], turn := 1, inTurn := false, badCrc := false }

/-- From `s` to `t` ports have sent flits: their receiving sides, the packets received and FAB's registers are as they were. -/
structure Pumped (s t : State) : Prop where
  ports : ∀ k, (t.fport k).sansSending = (s.fport k).sansSending
  inbox : t.fab.inbox = s.fab.inbox
  reg : ∀ x, x < 0x1000 → t.reg pFAB x = s.reg pFAB x

namespace Pumped

variable {s t u : State}

theorem refl (s : State) : Pumped s s := ⟨fun _ => rfl, rfl, fun _ _ => rfl⟩

theorem trans (h : Pumped s t) (k : Pumped t u) : Pumped s u :=
  ⟨fun m => (k.ports m).trans (h.ports m), k.inbox.trans h.inbox, fun x hx => (k.reg x hx).trans (h.reg x hx)⟩

theorem ite {c : Prop} [Decidable c] (ht : Pumped s t) (hu : Pumped s u) : Pumped s (if c then t else u) := by
  split
  · exact ht
  · exact hu

variable (h : Pumped s t) (k : Nat)
include h

theorem rxExpect : (t.fport k).rxExpect = (s.fport k).rxExpect := (congrArg Port.rxExpect (h.ports k) :)
theorem nakked : (t.fport k).nakked = (s.fport k).nakked := (congrArg Port.nakked (h.ports k) :)
theorem control : (t.fport k).control = (s.fport k).control := (congrArg Port.control (h.ports k) :)
theorem receiving : (t.fport k).receiving = (s.fport k).receiving := (congrArg Port.receiving (h.ports k) :)

end Pumped

theorem State.setPort_pumped (s : State) (n : Nat) (x : Port) (h : x.sansSending = (s.fport n).sansSending) : Pumped s (s.setPort n x) where
  ports k := by
    by_cases hk : k = n
    · subst hk
      rw [State.fport_setPort_self, h]
    · rw [State.fport_setPort_other _ _ hk]
  inbox := rfl
  reg _ _ := rfl

/-- A counter of another page: of the flits of a VC, or of the errors injected. -/
theorem State.count_pumped (s : State) {P o : Nat} (n : Nat) (h : ∀ x, x < 0x1000 → pFAB * 0x1000 + x ≠ P * 0x1000 + o) : Pumped s (s.count P o n) where
  ports k := by rw [State.fport_congr (s.count_fab P o n)]
  inbox := by rw [s.count_fab P o n]
  reg x hx := s.reg_count_other n (h x hx)

theorem State.flitsLeave_pumped (s : State) (n vc k : Nat) : Pumped s (s.flitsLeave n vc k) := by
  have hcount : Pumped s (s.count pVCH (0xF00 + 4 * vc) k) := s.count_pumped k fun x hx => by simp only [pFAB, pVCH]; omega
  unfold State.flitsLeave
  refine .ite ((hcount.trans (State.setPort_pumped _ n _ ?_)).trans (State.count_pumped _ 1 fun x hx => ?_)) hcount
  · rfl
  · simp only [pFAB, pERR]
    omega

theorem State.sendHead_pumped (s : State) (n vc : Nat) : Pumped s (s.sendHead n vc) := by
  unfold State.sendHead
  dsimp only
  split
  · refine (s.setPort_pumped n _ ?_).trans (State.flitsLeave_pumped _ n vc _)
    rfl
  · exact .refl s

theorem State.arbTurn_pumped (s : State) (n : Nat) : Pumped s (s.arbTurn n) := by
  unfold State.arbTurn
  dsimp only
  split
  · exact s.setPort_pumped n _ rfl
  · have hturn : ∀ x : Port, (if x.inTurn then x else { x with deficit := SMap.upd (fun _ => 0) x.deficit x.turn (· + s.weight x.turn), inTurn := true }
        ).sansSending = x.sansSending := fun x => by split <;> rfl
    exact .ite ((s.setPort_pumped n _ (hturn _)).trans (State.sendHead_pumped _ n _)) (s.setPort_pumped n _ (hturn _))

theorem State.arbStep_pumped (s : State) (n : Nat) : Pumped s (s.arbStep n) := by
  unfold State.arbStep
  dsimp only
  split
  · exact .ite (s.sendHead_pumped n 0) (s.arbTurn_pumped n)
  · exact s.arbTurn_pumped n

theorem State.pumpFuel_pumped (n fuel : Nat) (s : State) : Pumped s (State.pumpFuel n fuel s) := by
  induction fuel generalizing s with
  | zero => exact .refl s
  | succ fuel ih => exact .ite ((s.arbStep_pumped n).trans (ih _)) (.refl s)

theorem State.ackFlits_pumped (s : State) (n ack : Nat) : Pumped s (s.ackFlits n ack) := by
  refine (s.setPort_pumped n _ ?_).trans (State.pumpFuel_pumped n _ _)
  rfl

/-! ### A port with nothing queued -/

theorem State.pump_of_nil {s : State} {n : Nat} (h : (s.fport n).queue = []) : s.pump n = s := by
  have hidle : s.sendable n = false := by simp [State.sendable, Port.head?, h]
  rw [State.pump, h]
  exact if_neg (by simp [hidle])

/-- An ACK frees the flits that it covers, and no more (R324). -/
theorem State.ackFlits_of_nil {s : State} {n : Nat} (h : (s.fport n).queue = []) (ack : Nat) :
    s.ackFlits n ack = s.updPort n fun x => { x with replay := x.replay.filter fun f => !seqCovers f.seq ack } :=
  State.pump_of_nil (by rw [State.fport_updPort_self]; exact h)

/-! ### DATA (R324) -/

theorem flitContent_length (f : BitVec 512) : (flitContent f).length = 56 := by
  rw [flitContent, List.length_drop, leBytes_length]

/-- Buffer space freed shows in what the port owes and in the CREDIT flits that it sends (R326). -/
theorem State.fport_freeFlits (s : State) (n vc cls k : Nat) :
    ∃ owed control, (s.freeFlits n vc cls k).fport n = { s.fport n with owed := owed, control := control } := by
  unfold State.freeFlits
  dsimp only
  split
  · exact ⟨_, _, rfl⟩
  · split
    · exact ⟨_, _, by rw [State.fport_sendControl_self, State.fport_setPort_self]⟩
    · exact ⟨_, _, State.fport_setPort_self _ _ _⟩

theorem State.fport_packetWhole (s : State) (n vc : Nat) (bs : List Byte) :
    ∃ owed control, (s.packetWhole n vc bs).fport n = { s.fport n with owed := owed, control := control } := by
  unfold State.packetWhole
  dsimp only
  split
  · rw [State.badPacket, State.fport_congr (State.err_fab _ _ _)]
    exact s.fport_freeFlits _ _ _ _
  · exact ⟨_, _, rfl⟩

/-- A flit that joins its packet shows in what the port is receiving, owes and sends. -/
theorem State.fport_joinFlit (s : State) (n : Nat) (f : BitVec 512) : ∃ receiving owed control,
    (s.joinFlit n f).fport n = { s.fport n with receiving := receiving, owed := owed, control := control } := by
  unfold State.joinFlit
  dsimp only
  generalize takeFirst (·.1 == flitVc f) (s.fport n).receiving = found
  obtain ⟨old, rest⟩ := found
  dsimp only
  split
  · rw [State.badPacket, State.fport_congr (State.err_fab _ _ _)]
    obtain ⟨owed, control, h⟩ := State.fport_freeFlits (s.setPort n { s.fport n with receiving := rest }) n (flitVc f) _ _
    exact ⟨_, owed, control, h.trans (by rw [State.fport_setPort_self])⟩
  · split
    · obtain ⟨owed, control, h⟩ := State.fport_packetWhole (s.setPort n { s.fport n with receiving := rest }) n (flitVc f)
        (old.elim [] (·.2) ++ flitContent f)
      exact ⟨_, owed, control, h.trans (by rw [State.fport_setPort_self])⟩
    · exact ⟨_, _, _, State.fport_setPort_self _ _ _⟩

/-- A whole well-formed packet in one flit joins the packets received. -/
theorem State.joinFlit_single {s : State} {n : Nat} {f : BitVec 512} {p : Packet} (hframe : flitFrame f = 3)
    (hfirst : ∀ r, r ∈ (s.fport n).receiving → r.1 ≠ flitVc f) (hp : p = packetOf (flitContent f)) (hok : packetOk p = true)
    (hvc : p.vc = flitVc f) (hone : pktFlits p = 1) : (s.joinFlit n f).fab.inbox = s.fab.inbox ++ [p] := by
  subst hp
  have hnone : takeFirst (·.1 == flitVc f) (s.fport n).receiving = (none, (s.fport n).receiving) :=
    takeFirst_none _ _ fun r hr => beq_eq_false_iff_ne.2 (hfirst r hr)
  have hwhole : ∀ u : State, (u.packetWhole n (flitVc f) (flitContent f)).fab.inbox = u.fab.inbox ++ [packetOf (flitContent f)] := fun u => by
    simp [State.packetWhole, hok, hvc, hone, flitContent_length]
  unfold State.joinFlit
  simp only [hnone, hframe]
  exact hwhole _

/-- The expected SEQ is accepted, and ends a NAK. -/
theorem State.dataFlit_expected {s : State} {n : Nat} {f : BitVec 512} (h : flitSeq f = (s.fport n).rxExpect) :
    s.dataFlit n f = (s.setPort n { s.fport n with rxExpect := ((s.fport n).rxExpect + 1) % 4096, nakked := false }).joinFlit n f := by
  rw [State.dataFlit, if_pos h]

theorem State.fport_dataFlit_expected {s : State} {n : Nat} {f : BitVec 512} (h : flitSeq f = (s.fport n).rxExpect) :
    ((s.dataFlit n f).fport n).rxExpect = ((s.fport n).rxExpect + 1) % 4096 ∧ ((s.dataFlit n f).fport n).nakked = false := by
  obtain ⟨receiving, owed, control, hport⟩ := State.fport_joinFlit
    (s.setPort n { s.fport n with rxExpect := ((s.fport n).rxExpect + 1) % 4096, nakked := false }) n f
  rw [State.dataFlit_expected h, hport, State.fport_setPort_self]
  exact ⟨rfl, rfl⟩

theorem State.dataFlit_earlier {s : State} {n : Nat} {f : BitVec 512} (hne : flitSeq f ≠ (s.fport n).rxExpect)
    (h : seqCovers (flitSeq f) (s.fport n).rxExpect = true) : s.dataFlit n f = s.count pFAB 0xF14 := by
  rw [State.dataFlit, if_neg hne, if_pos h]

theorem State.dataFlit_later {s : State} {n : Nat} {f : BitVec 512} (hne : flitSeq f ≠ (s.fport n).rxExpect)
    (h : seqCovers (flitSeq f) (s.fport n).rxExpect = false) : s.dataFlit n f = s.nakOnce n := by
  rw [State.dataFlit, if_neg hne, if_neg (by simp [h])]

/-! ### NAKs sent (R324) -/

theorem State.nakOnce_inbox (s : State) (n : Nat) : (s.nakOnce n).fab.inbox = s.fab.inbox := by
  unfold State.nakOnce
  dsimp only
  split <;> rfl

/-- The port after a NAK is due: one is out, which names the expected SEQ. -/
theorem State.fport_nakOnce (s : State) (n : Nat) : (s.nakOnce n).fport n = { s.fport n with
    nakked := true
    control := if (s.fport n).nakked then (s.fport n).control
      else (s.fport n).control ++ [(s.fport n).controlFlit kNAK (leBytes 2 (s.fport n).rxExpect)] } := by
  unfold State.nakOnce
  cases h : (s.fport n).nakked with
  | true => simp [← h]
  | false =>
    simp only [h, Bool.false_eq_true, if_false, State.fport_sendControl_self, State.fport_setPort_self]
    rfl

/-- The NAK that a port sends reads back as one that names the expected SEQ. -/
theorem Port.nak_spec (x : Port) : flitGood (x.controlFlit kNAK (leBytes 2 x.rxExpect)) = true
    ∧ flitKind (x.controlFlit kNAK (leBytes 2 x.rxExpect)) = 1
    ∧ leNat ((flitContent (x.controlFlit kNAK (leBytes 2 x.rxExpect))).take 2) = x.rxExpect % 2 ^ 16 := by
  obtain ⟨hgood, hkind, hcontent⟩ := x.controlFlit_spec (kind := kNAK) (by decide) (leBytes_length 2 x.rxExpect) (by decide)
  exact ⟨hgood, hkind, by rw [hcontent, leNat_leBytes]; rfl⟩

/-! ### NAKs received (R324, R325) -/

/-- A flit that would need an eighth transmission takes the link DOWN. -/
theorem State.resend_eighth {s : State} {n seq : Nat} {g : ReplayFlit} (hg : g ∈ (s.fport n).replay) (hnamed : seqCovers seq g.seq = true)
    (h7 : 7 ≤ g.sends) : s.resend n seq = s.linkDown n := by
  have hany : ((s.fport n).replay.filter fun f => seqCovers seq f.seq).any (7 ≤ ·.sends) = true :=
    List.any_eq_true.2 ⟨g, List.mem_filter.2 ⟨hg, hnamed⟩, decide_eq_true h7⟩
  rw [State.resend]
  exact if_pos hany

/-- Flits that leave spend an armed CRC error of their port. -/
theorem State.fport_flitsLeave (s : State) (n vc k : Nat) : ∃ b, (s.flitsLeave n vc k).fport n = { s.fport n with badCrc := b } := by
  have hcount : ∀ (u : State) (P o j : Nat), (u.count P o j).fport n = u.fport n := fun u P o j => State.fport_congr (u.count_fab P o j) n
  unfold State.flitsLeave
  dsimp only
  split
  · exact ⟨false, by rw [hcount, State.fport_updPort_self, hcount]⟩
  · exact ⟨_, hcount _ _ _ _⟩

theorem State.fport_flitsLeave_foldl (l : List ReplayFlit) (n : Nat) (s : State) :
    ∃ b, (l.foldl (fun s f => s.flitsLeave n f.vc 1) s).fport n = { s.fport n with badCrc := b } := by
  induction l generalizing s with
  | nil => exact ⟨_, rfl⟩
  | cons f l ih =>
    obtain ⟨b, hb⟩ := ih (s.flitsLeave n f.vc 1)
    obtain ⟨c, hc⟩ := s.fport_flitsLeave n f.vc 1
    exact ⟨b, by rw [List.foldl_cons, hb, hc]⟩

/-- Otherwise every buffered flit from the named SEQ is sent once more. -/
theorem State.fport_resend {s : State} {n : Nat} (seq : Nat) (h : ∀ g, g ∈ (s.fport n).replay → g.sends < 7) :
    ((s.resend n seq).fport n).st = (s.fport n).st ∧ ((s.resend n seq).fport n).replay
      = mapIf (s.fport n).replay (fun f => seqCovers seq f.seq) fun f => { f with sends := f.sends + 1 } := by
  have hfew : ((s.fport n).replay.filter fun f => seqCovers seq f.seq).any (7 ≤ ·.sends) = false := by
    rw [List.any_eq_false]
    intro g hg
    have := h g (List.mem_filter.1 hg).1
    simp
    omega
  unfold State.resend
  dsimp only
  rw [if_neg (by simp [hfew])]
  obtain ⟨b, hb⟩ := State.fport_flitsLeave_foldl ((s.fport n).replay.filter fun f => seqCovers seq f.seq) n (s.updPort n fun x =>
    { x with
      replay := mapIf x.replay (fun f => seqCovers seq f.seq) fun f => { f with sends := f.sends + 1 }
      replays := satAdd 32 x.replays ((s.fport n).replay.filter fun f => seqCovers seq f.seq).length })
  rw [hb, State.fport_updPort_self]
  exact ⟨rfl, rfl⟩

theorem mem_mapIf {α : Type} {l : List α} {x : α} {p : α → Bool} (f : α → α) (hx : x ∈ l) (hp : p x = true) : f x ∈ mapIf l p f :=
  List.mem_map.2 ⟨x, hx, if_pos hp⟩

/-! ### Credits (R326) -/

/-- Each of a list of distinct keys raised by its own amount. -/
theorem get_foldl_upd_add (d : Nat → Nat) (g : Nat → Nat) {l : List Nat} (hl : l.Nodup) (m : SMap Nat) (j : Nat) :
    SMap.get d (l.foldl (fun m i => SMap.upd d m i (· + g i)) m) j = SMap.get d m j + if j ∈ l then g j else 0 := by
  induction l generalizing m with
  | nil => simp
  | cons i l ih =>
    obtain ⟨hi, hl⟩ := List.nodup_cons.1 hl
    rw [List.foldl_cons, ih hl, SMap.upd, SMap.get_put]
    by_cases hj : j = i
    · subst hj
      simp [hi]
    · simp [hj]

/-- A CREDIT flit at a port with nothing queued returns its sixteen counts. -/
theorem State.credit_creditFlit {s : State} {n : Nat} (h : (s.fport n).queue = []) (c : List Byte) {vc cls : Nat} (hvc : vc < 8) (hcls : cls < 2) :
    ((s.creditFlit n c).fport n).credit vc cls = (s.fport n).credit vc cls + leNat ((c.drop (2 * (2 * vc + cls))).take 2) := by
  have hidle : ((s.updPort n fun x => { x with
      credits := (List.range 16).foldl (fun m i => SMap.upd (fun _ => 256) m i (· + leNat ((c.drop (2 * i)).take 2))) x.credits }).fport n).queue
      = [] := by rw [State.fport_updPort_self]; exact h
  have hkey : 2 * vc + cls ∈ List.range 16 := List.mem_range.2 (by omega)
  rw [State.creditFlit, State.pump_of_nil hidle, State.fport_updPort_self]
  exact (get_foldl_upd_add _ (fun i => leNat ((c.drop (2 * i)).take 2)) List.nodup_range _ _).trans (by rw [if_pos hkey]; rfl)

/-! ### The commands -/

section

variable {s : State} {n kind : Nat} {f : BitVec 512} (h : GoodFlit s n f kind)
include h

theorem exec_data_good (hkind : kind = kDATA) : exec (.data n f false) s = .next ((s.ackFlits n (flitAck f)).dataFlit n f) := by
  obtain ⟨hup, hst, hgood, hk⟩ := h
  change execData n f false s = _
  rw [execData, State.engine_up hup, State.rxFlit_up hst hgood (hk.trans hkind)]

theorem exec_nak_good (hkind : kind = kNAK) :
    exec (.nak n f) s = .next ((s.ackFlits n (flitAck f)).resend n (leNat ((flitContent f).take 2) % 4096)) := by
  obtain ⟨hup, hst, hgood, hk⟩ := h
  change execNak n f s = _
  rw [execNak, State.engine_up hup, State.rxFlit_up hst hgood (hk.trans hkind)]

theorem exec_credit_good (hkind : kind = kCREDIT) : exec (.credit n f) s = .next ((s.ackFlits n (flitAck f)).creditFlit n (flitContent f)) := by
  obtain ⟨hup, hst, hgood, hk⟩ := h
  change execCredit n f s = _
  rw [execCredit, State.engine_up hup, State.rxFlit_up hst hgood (hk.trans hkind)]

theorem exec_idle_good (hkind : kind = kIDLE) : exec (.idle n f) s = .next (s.ackFlits n (flitAck f)) := by
  obtain ⟨hup, hst, hgood, hk⟩ := h
  change execIdle n f s = _
  rw [execIdle, State.engine_up hup, State.rxFlit_up hst hgood (hk.trans hkind)]

end

/-- A flit with a bad CRC, a reserved kind or a PCS mark is discarded. -/
theorem exec_data_bad {s : State} {n : Nat} {f : BitVec 512} {mark : Bool} (hup : s.up = true)
    (hst : (s.fport n).st = .up ∨ (s.fport n).st = .init) (hbad : mark = true ∨ flitGood f = false) :
    exec (.data n f mark) s = .next (s.badFlit n) := by
  have hport : ((s.fport n).st != .up && (s.fport n).st != .init) = false := by obtain h | h := hst <;> simp [h]
  have hdrop : (mark || !flitGood f) = true := by obtain h | h := hbad <;> simp [h]
  change execData n f mark s = _
  rw [execData, State.engine_up hup, State.rxFlit]
  simp only [hport, hdrop, Bool.false_eq_true, if_false, if_true]

/-- Settles O45. -/
theorem flitsAreAcceptedInOrder : Obligations.FlitsAreAcceptedInOrder := by
  intro n f s x u
  have hu : Pumped s u := s.ackFlits_pumped n (flitAck f)
  refine ⟨fun h => ⟨fun hseq => ?accepted, fun hne hearlier => ?duplicate, fun hne hlater => ?gap⟩, fun mark hup hst hbad => ?bad,
    fun h => ⟨exec_nak_good h rfl, fun hidle g k hg hk hkept hnamed => ?resends⟩, fun h => ⟨exec_credit_good h rfl, fun hidle => ?credits⟩,
    fun h => exec_idle_good h rfl, fun hidle => ?acks⟩
  case accepted =>
    have hseq' : flitSeq f = (u.fport n).rxExpect := hseq.trans (hu.rxExpect n).symm
    obtain ⟨hexpect, hnakked⟩ := State.fport_dataFlit_expected hseq'
    refine ⟨_, exec_data_good h rfl, hexpect.trans (by rw [hu.rxExpect n]), hnakked, fun hframe hfirst p hp hok hvc hone => ?_⟩
    rw [State.dataFlit_expected hseq', State.joinFlit_single hframe ?_ hp hok hvc hone]
    · exact congrArg (· ++ [p]) hu.inbox
    · rw [State.fport_setPort_self]
      exact fun r hr => hfirst r ((hu.receiving n) ▸ hr)
  case duplicate =>
    rw [← hu.rxExpect n] at hne hearlier
    refine ⟨_, (exec_data_good h rfl).trans (congrArg _ (State.dataFlit_earlier hne hearlier)), ?_, ?_, ?_⟩
    · rw [State.count_fab]
      exact hu.inbox
    · rw [State.fport_congr (State.count_fab _ _ _ _)]
      exact hu.rxExpect n
    · rw [State.regN_count_self, State.regN, State.regN]
      exact congrArg (fun w => satAdd 32 (BitVec.toNat w) 1) (hu.reg 0xF14 (by decide))
  case gap =>
    rw [← hu.rxExpect n] at hne hlater
    refine ⟨_, (exec_data_good h rfl).trans (congrArg _ (State.dataFlit_later hne hlater)), (State.nakOnce_inbox _ n).trans hu.inbox, ?_, ?_,
      fun hfirst => ?_, fun hout => ?_⟩
    all_goals rw [State.fport_nakOnce]
    · exact hu.rxExpect n
    · have hnone : (u.fport n).nakked = false := (hu.nakked n).trans hfirst
      obtain ⟨hgood, hkind, hnames⟩ := (u.fport n).nak_spec
      exact ⟨_, (if_neg (by simp [u, hnone])).trans (congrArg (· ++ _) (hu.control n)), hgood, hkind, hnames.trans (by rw [hu.rxExpect n])⟩
    · exact (if_pos ((hu.nakked n).trans hout)).trans (hu.control n)
  case bad =>
    refine ⟨_, exec_data_bad hup hst hbad, ?_, ?_, ?_, ?_, State.nakOnce_inbox _ n⟩
    all_goals rw [State.badFlit, State.fport_nakOnce, State.fport_updPort_self]
  case resends =>
    have hacked : u.fport n = { x with replay := x.replay.filter fun g => !seqCovers g.seq (flitAck f) } := by
      rw [show u = _ from State.ackFlits_of_nil hidle _, State.fport_updPort_self]
    have hg' : g ∈ (u.fport n).replay := by
      rw [hacked]
      exact List.mem_filter.2 ⟨hg, by simp [hkept]⟩
    subst hk
    have hexec := exec_nak_good h rfl
    refine ⟨fun h7 => ?_, fun hfew => ?_⟩
    · refine ⟨_, hexec.trans (congrArg _ (State.resend_eighth hg' hnamed h7)), ?_, ?_⟩
      all_goals rw [State.fport_linkDown_self]; rfl
    · obtain ⟨-, hst, -, -⟩ := h
      have hfew' : ∀ g, g ∈ (u.fport n).replay → g.sends < 7 := by
        rw [hacked]
        exact fun g hg => hfew g (List.mem_filter.1 hg).1
      obtain ⟨hup, hreplay⟩ := State.fport_resend (leNat ((flitContent f).take 2) % 4096) hfew'
      refine ⟨_, hexec, hup.trans ?_, ?_⟩
      · rw [hacked]; exact hst
      · rw [hreplay]
        exact mem_mapIf (fun g : ReplayFlit => { g with sends := g.sends + 1 }) hg' hnamed
  case credits =>
    have hacked : u.fport n = { x with replay := x.replay.filter fun g => !seqCovers g.seq (flitAck f) } := by
      rw [show u = _ from State.ackFlits_of_nil hidle _, State.fport_updPort_self]
    refine ⟨_, exec_credit_good h rfl, fun vc cls hvc hcls => ?_⟩
    rw [State.credit_creditFlit (by rw [hacked]; exact hidle) _ hvc hcls, hacked]
    rfl
  case acks =>
    have hacked : u = _ := State.ackFlits_of_nil hidle (flitAck f)
    rw [hacked]
    exact ⟨by rw [State.fport_updPort_self], fun k hk => s.fport_updPort_other _ hk, rfl, rfl⟩

end Sys2Proof.Machine
end

section
/-! SUPPORT. Requests at an address (R317, R318, R331): how a request that is taken is judged, the bytes that a READ is answered with, and what a
WRITE, stored sector by sector where a unit of it is poisoned, leaves in external memory (R199, R328, R405). -/

namespace Sys2Proof.Machine

open Sys2Proof

/-! ### Bytes and sectors -/

theorem Mem.read_eq_map (m : Mem) (a n : Nat) : m.read a n = (List.range n).map fun o => m.get (a + o) := by
  induction n generalizing a with
  | zero => rfl
  | succ n ih =>
    rw [Mem.read, ih, List.range_succ_eq_map, List.map_cons, List.map_map]
    exact congrArg _ (List.map_congr_left fun o _ => congrArg m.get (by omega : a + 1 + o = a + (o + 1)))

theorem mem_sectorsOf {a n k : Nat} : k ∈ sectorsOf a n ↔ 0 < n ∧ a / 512 ≤ k ∧ k ≤ (a + n - 1) / 512 := by
  unfold sectorsOf
  split
  · simp
    omega
  · simp only [List.mem_map, List.mem_range]
    constructor
    · rintro ⟨i, hi, rfl⟩
      omega
    · rintro ⟨-, hlo, hhi⟩
      exact ⟨k - a / 512, by omega, by omega⟩

/-- The sector of a byte is among those that a range holding it touches. -/
theorem sector_mem_sectorsOf {a n x : Nat} (h : a ≤ x) (h' : x < a + n) : x / 512 ∈ sectorsOf a n :=
  mem_sectorsOf.2 ⟨by omega, by omega, by omega⟩

/-- A range within one sector touches that sector alone. -/
theorem sectorsOf_within {a n k : Nat} (hn : 0 < n) (hlo : 512 * k ≤ a) (hhi : a + n ≤ 512 * k + 512) : sectorsOf a n = [k] := by
  have hone : (a + n - 1) / 512 - a / 512 + 1 = 1 := by omega
  have hk : a / 512 = k := by omega
  rw [sectorsOf, if_neg (by omega), hone, hk]
  simp

/-! ### The tag of a written sector (R199, R405) -/

/-- A write marks the sector it is at, and no other. -/
theorem State.tag_writeTag_other (s : State) (a n : Nat) (new : Tag) (poison : Bool) {k j : Nat} (h : j ≠ k) :
    (s.writeTag a n new poison k).tag j = s.tag j := by
  have htags : ∀ (u : State) (t : Tag), u.tags = s.tags → (u.setTag k t).tag j = s.tag j := fun u t hu => by
    rw [State.tag, State.setTag, SMap.get_put_other _ _ _ _ _ h, hu, State.tag]
  have hcount : ∀ (u : State) (P o m : Nat), (u.count P o m).tags = u.tags := fun u P o m =>
    State.tags_of_mask (M := { regs := true }) (u.count_mask _ rfl P o m) rfl
  have hpoisoning : ∀ (u : State) (P b : Nat), (u.poisoning P b).tags = u.tags := fun u P b =>
    State.tags_of_mask (M := { regs := true, hq := true }) (u.poisoning_mask _ rfl rfl P b) rfl
  have hinjected : ∀ (b : Bool) (u : State), (if b = true then u.count pERR 0xF34 else u).tags = u.tags := fun b u => by
    cases b with
    | true => exact hcount u pERR 0xF34 1
    | false => rfl
  unfold State.writeTag
  dsimp only
  apply htags
  split
  · rw [hpoisoning, hcount, hinjected]
  · rw [hcount, hinjected]
  · rw [hinjected]

/-- A poisoned write leaves its sector poisoned. -/
theorem State.poison_writeTag_self (s : State) (a n : Nat) (new : Tag) (k : Nat) : ((s.writeTag a n new true k).tag k).poison = true := by
  unfold State.writeTag
  dsimp only
  rw [State.tag_setTag]
  rfl

/-! ### A WRITE stored (R318, R328, R405) -/

/-- Where the bytes of a WRITE that lie in sector `k` begin and end, counted from its address. -/
def sectorFrom (p : Packet) (k : Nat) : Nat := max p.addr (512 * k) - p.addr
def sectorTo (p : Packet) (k : Nat) : Nat := min (p.addr + p.len) (512 * k + 512) - p.addr

/-- Those bytes. -/
def sectorPart (p : Packet) (k : Nat) : List Byte := (p.payload.drop (sectorFrom p k)).take (sectorTo p k - sectorFrom p k)

/-- A unit of the WRITE in sector `k` is poisoned. -/
def sectorBad (p : Packet) (k : Nat) : Bool :=
  (List.range 64).any fun i => sectorFrom p k < 64 * i + 64 && 64 * i < sectorTo p k && unitBad p i

/-- One sector of a WRITE stored. -/
def storeSector (p : Packet) (s : State) (k : Nat) : State :=
  s.extWrite (p.addr + sectorFrom p k) (sectorPart p k) (sectorBad p k)

theorem State.storeUnits_eq (s : State) (p : Packet) : s.storeUnits p = (sectorsOf p.addr p.len).foldl (storeSector p) s := rfl

section

variable {p : Packet} (hlen : p.payload.length = p.len)
include hlen

theorem sectorPart_length (k : Nat) : (sectorPart p k).length = sectorTo p k - sectorFrom p k := by
  rw [sectorPart, List.length_take, List.length_drop, hlen]
  unfold sectorFrom sectorTo
  omega

/-- The bytes of external memory after one sector is stored. -/
theorem get_storeSector (s : State) (k a : Nat) : (storeSector p s k).ext.get a
    = if p.addr ≤ a ∧ a < p.addr + p.len ∧ a / 512 = k then p.payload.getD (a - p.addr) 0 else s.ext.get a := by
  obtain ⟨hinside, houtside⟩ := s.extWrite_bytes (p.addr + sectorFrom p k) (sectorPart p k) (sectorBad p k)
  rw [sectorPart_length hlen] at hinside houtside
  split
  · have hfrom : p.addr + sectorFrom p k ≤ a := by unfold sectorFrom; omega
    have hto : a - (p.addr + sectorFrom p k) < sectorTo p k - sectorFrom p k := by unfold sectorFrom sectorTo; omega
    have hplace : p.addr + sectorFrom p k + (a - (p.addr + sectorFrom p k)) = a := by omega
    have hpayload : sectorFrom p k + (a - (p.addr + sectorFrom p k)) = a - p.addr := by omega
    have h := hinside _ hto
    rw [hplace] at h
    rw [storeSector, h]
    simp [sectorPart, List.getD_eq_getElem?_getD, hto, hpayload]
  · exact houtside a (by unfold sectorFrom sectorTo; omega)

theorem get_foldl_storeSector (l : List Nat) (s : State) (a : Nat) : (l.foldl (storeSector p) s).ext.get a
    = if p.addr ≤ a ∧ a < p.addr + p.len ∧ a / 512 ∈ l then p.payload.getD (a - p.addr) 0 else s.ext.get a := by
  induction l generalizing s with
  | nil => simp
  | cons k l ih =>
    rw [List.foldl_cons, ih, get_storeSector hlen]
    simp only [List.mem_cons]
    by_cases h : p.addr ≤ a ∧ a < p.addr + p.len
    · by_cases hk : a / 512 = k <;> simp [h, hk]
    · rw [if_neg (by tauto), if_neg (by tauto), if_neg (by tauto)]

/-- Stored sector by sector, the payload stands at the address, and no other byte has changed. -/
theorem get_storeUnits (s : State) (a : Nat) : (s.storeUnits p).ext.get a
    = if p.addr ≤ a ∧ a < p.addr + p.len then p.payload.getD (a - p.addr) 0 else s.ext.get a := by
  rw [State.storeUnits_eq, get_foldl_storeSector hlen]
  by_cases h : p.addr ≤ a ∧ a < p.addr + p.len
  · obtain ⟨hlo, hhi⟩ := h
    rw [if_pos ⟨hlo, hhi, sector_mem_sectorsOf hlo hhi⟩, if_pos ⟨hlo, hhi⟩]
  · rw [if_neg (by tauto), if_neg h]

/-- The write of one sector marks that sector alone. -/
theorem storeSector_eq (s : State) {k : Nat} (hk : k ∈ sectorsOf p.addr p.len) : ∃ v : State, v.tags = s.tags
    ∧ storeSector p s k = v.writeTag (p.addr + sectorFrom p k) (sectorTo p k - sectorFrom p k) { kind := 0, owner := s.selfId } (sectorBad p k) k := by
  obtain ⟨hpos, hfirst, hlast⟩ := mem_sectorsOf.1 hk
  have hone : sectorsOf (p.addr + sectorFrom p k) (sectorTo p k - sectorFrom p k) = [k] :=
    sectorsOf_within (by unfold sectorFrom sectorTo; omega) (by unfold sectorFrom; omega) (by unfold sectorFrom sectorTo; omega)
  refine ⟨{ s with ext := Mem.write s.ext (p.addr + sectorFrom p k) (sectorPart p k) }, rfl, ?_⟩
  rw [storeSector, State.extWrite, State.extWriteTag, sectorPart_length hlen, hone]
  rfl

/-- A sector with a poisoned unit is poisoned once it is stored, and stays so. -/
theorem poison_foldl_storeSector {l : List Nat} (hl : ∀ k, k ∈ l → k ∈ sectorsOf p.addr p.len) {j : Nat} (hbad : sectorBad p j = true)
    (s : State) (h : j ∈ l ∨ (s.tag j).poison = true) : ((l.foldl (storeSector p) s).tag j).poison = true := by
  induction l generalizing s with
  | nil => simpa using h
  | cons k l ih =>
    obtain ⟨v, htags, hstore⟩ := storeSector_eq hlen s (hl k List.mem_cons_self)
    refine ih (fun k hk => hl k (List.mem_cons_of_mem _ hk)) _ ?_
    rw [hstore]
    by_cases hjk : j = k
    · subst hjk
      rw [hbad]
      exact .inr (v.poison_writeTag_self _ _ _ j)
    · rw [State.tag_writeTag_other _ _ _ _ _ hjk, State.tag, htags]
      exact h.imp_left fun hj => (List.mem_cons.1 hj).resolve_left hjk

end

/-- A WRITE that is aligned stands in memory as it came: its payload at its address, no other byte changed, and each unit that its map
marks poisoned. -/
theorem State.storeWrite_spec (s : State) {p : Packet} (hlen : p.payload.length = p.len) (halign : p.addr % 64 = 0) (hmax : p.len ≤ 4096) :
    (∀ o, o < p.len → (s.storeWrite p).ext.get (p.addr + o) = p.payload.getD o 0)
      ∧ (∀ a, ¬(p.addr ≤ a ∧ a < p.addr + p.len) → (s.storeWrite p).ext.get a = s.ext.get a)
      ∧ ∀ i, i < p.len / 64 → unitBad p i = true → (s.storeWrite p).extPoison (p.addr + 64 * i) 64 = true := by
  unfold State.storeWrite
  cases hany : anyBad p with
  | false =>
    obtain ⟨hinside, houtside⟩ := s.extWrite_bytes p.addr p.payload false
    rw [hlen] at hinside houtside
    have hclean : p.poison = 0 := by simpa [anyBad] using hany
    exact ⟨hinside, houtside, fun i _ hbad => absurd hbad (by simp [unitBad, bitOf, hclean])⟩
  | true =>
    refine ⟨fun o ho => ?_, fun a ha => ?_, fun i hi hbad => ?_⟩
    · rw [if_pos rfl, get_storeUnits hlen, if_pos ⟨by omega, by omega⟩]
      congr 1
      omega
    · rw [if_pos rfl, get_storeUnits hlen, if_neg ha]
    · have hmarked : sectorBad p ((p.addr + 64 * i) / 512) = true := by
        refine List.any_eq_true.2 ⟨i, List.mem_range.2 (by omega), ?_⟩
        simp only [Bool.and_eq_true, decide_eq_true_eq]
        refine ⟨⟨?_, ?_⟩, hbad⟩
        · unfold sectorFrom
          omega
        · unfold sectorTo
          omega
      refine List.any_eq_true.2 ⟨(p.addr + 64 * i) / 512, sector_mem_sectorsOf le_rfl (by omega), ?_⟩
      rw [if_pos rfl, State.storeUnits_eq]
      exact poison_foldl_storeSector hlen (fun _ hk => hk) hmarked s (.inl (sector_mem_sectorsOf (by omega) (by omega)))

/-! ### How a request is judged (R317, R318, R338) -/

/-- The bytes that a READ, WRITE or FETCH_ADD acts on, and whether its address and LEN are aligned. -/
def memLen (p : Packet) : Nat := if p.op = 3 then 8 else p.len
def memAligned (p : Packet) : Bool := if p.op = 3 then p.addr % 8 == 0 && p.len == 0 else lenAligned p

/-- What a READ is answered with: beside the bytes, in IMM, the committed length that hides some of them (R130). -/
def State.readBytes (s : State) (p : Packet) : List Byte :=
  (s.ext? p.addr p.len).zipIdx.map fun (x, k) =>
    if (if p.vc = 5 then s.kvAbove p.addr p.len else []).any fun (_, b, m) => b ≤ p.addr + k && p.addr + k < b + m
    then Config.kvHidden (p.addr + k) else x
def State.readImm (s : State) (p : Packet) : BitVec 64 :=
  (if p.vc = 5 then s.kvAbove p.addr p.len else []).head?.elim 0 fun (k, _) => BitVec.ofNat 64 (s.berth k).committed

/-- A request that is judged well and not held back, answered OK. -/
def serveMem (p : Packet) (s : State) : State :=
  if p.op = 1 then s.answer p 0 (s.readBytes p) (s.readImm p) (poisonMap (s.extBadUnits p.addr p.len))
  else if p.op = 2 then (s.storeWrite p).answer p 0 []
  else (s.addAt p.addr p.imm).answer p 0 [] (BitVec.ofNat 64 (s.extNat p.addr 8)) (poisonMap (if s.extPoison p.addr 8 then [0] else []))

/-- The command is the one of its OP, and the packet arrives for it. -/
def MemCmd (c : Instr) (p : Packet) (s : State) : Prop :=
  c = .read p ∧ Arrives s p 1 ∨ c = .write p ∧ Arrives s p 2 ∨ c = .fetchAdd p ∧ Arrives s p 3

theorem Arrives.up {s : State} {p : Packet} {op : Nat} (h : Arrives s p op) : s.up = true := h.1
theorem Arrives.op {s : State} {p : Packet} {op : Nat} (h : Arrives s p op) : p.op = op := h.2.1

theorem Arrives.payload_length {s : State} {p : Packet} {op : Nat} (h : Arrives s p op) (hop : op ≠ 1) : p.payload.length = p.len := by
  obtain ⟨-, rfl, -, hok, -⟩ := h
  rw [packetOk_length hok, if_neg hop]

/-- A request that is taken is judged, and served where it passes. -/
theorem exec_mem {c : Instr} {p : Packet} {s : State} (hc : MemCmd c p s) :
    exec c s = .next ((s.take p).serve p (memLen p) (memAligned p) (serveMem p)) := by
  obtain ⟨rfl, ha⟩ | ⟨rfl, ha⟩ | ⟨rfl, ha⟩ := hc
  · have hserve : serveMem p = fun u => u.answer p 0 (u.readBytes p) (u.readImm p) (poisonMap (u.extBadUnits p.addr p.len)) :=
      funext fun u => by simp [serveMem, ha.op]
    change execRead p s = _
    rw [execRead, State.engine_up ha.up, State.receive_arrives ha, hserve, memLen, memAligned, if_neg (by simp [ha.op]), if_neg (by simp [ha.op])]
    rfl
  · have hserve : serveMem p = fun u => (u.storeWrite p).answer p 0 [] := funext fun u => by simp [serveMem, ha.op]
    change execWrite p s = _
    rw [execWrite, State.engine_up ha.up, State.receive_arrives ha, hserve, memLen, memAligned, if_neg (by simp [ha.op]), if_neg (by simp [ha.op])]
  · have hserve : serveMem p = fun u => (u.addAt p.addr p.imm).answer p 0 [] (BitVec.ofNat 64 (u.extNat p.addr 8))
        (poisonMap (if u.extPoison p.addr 8 then [0] else [])) := funext fun u => by simp [serveMem, ha.op]
    change execFetchAdd p s = _
    rw [execFetchAdd, State.engine_up ha.up, State.receive_arrives ha, hserve, memLen, memAligned, if_pos ha.op, if_pos ha.op]

/-- A TEST that is taken is judged by its level and by the weight of VC7 (R329, R334). -/
theorem exec_test {p : Packet} {s : State} (ha : Arrives s p 9) : exec (.test p) s = .next (
    if (s.take p).refusedLevel p then (((s.take p).count pFAB 0xF1C).err pFAB 4).answer p 2 []
    else if (s.take p).weight 7 = 0 then (s.take p).answer p 3 [] else (s.take p).answer p 0 p.payload 0 p.poison) := by
  change execTest p s = _
  rw [execTest, State.engine_up ha.up, State.receive_arrives ha]

theorem memAligned_iff (p : Packet) : memAligned p = true
    ↔ if p.op = 3 then p.addr % 8 = 0 ∧ p.len = 0 else p.addr % 64 = 0 ∧ 64 ≤ p.len ∧ p.len ≤ 4096 ∧ p.len % 64 = 0 := by
  unfold memAligned
  split <;> simp [lenAligned, and_assoc]

section

variable (s : State) (p : Packet)

theorem State.take_weight (vc : Nat) : (s.take p).weight vc = s.weight vc := by
  obtain ⟨f, hf, -, -⟩ := s.take_fab p
  rw [hf]; rfl

theorem State.take_populated : (s.take p).populated = s.populated := by
  obtain ⟨f, hf, -, -⟩ := s.take_fab p
  rw [hf]; rfl

theorem State.take_rangeOpen (a n : Nat) : (s.take p).rangeOpen a n = s.rangeOpen a n := by
  obtain ⟨f, hf, -, -⟩ := s.take_fab p
  rw [hf]; rfl

theorem State.take_extNat (a n : Nat) : (s.take p).extNat a n = s.extNat a n := by rw [State.extNat, State.take_ext, State.extNat]

theorem State.take_readBytes : (s.take p).readBytes p = s.readBytes p := by
  obtain ⟨f, hf, -, -⟩ := s.take_fab p
  rw [hf]; rfl

theorem State.take_readImm : (s.take p).readImm p = s.readImm p := by
  obtain ⟨f, hf, -, -⟩ := s.take_fab p
  rw [hf]; rfl

/-- Only requests for rows, update messages, collective pieces and bell messages may cross racks (R338). -/
theorem State.take_refusedLevel (hop : p.op = 1 ∨ p.op = 2 ∨ p.op = 3 ∨ p.op = 9) :
    (s.take p).refusedLevel p = (idRack p.src != idRack s.selfId) := by
  have hstays : (p.op == 4 || p.op == 5 || p.op == 7 || p.op == 8) = false := by obtain h | h | h | h := hop <;> simp [h]
  rw [State.refusedLevel, State.take_selfId, hstays, Bool.not_false, Bool.and_true]

/-- An answer is no write of memory. -/
theorem State.answer_memory (status : Nat) (payload : List Byte) (imm poison : BitVec 64) : (s.answer p status payload imm poison).ext = s.ext
    ∧ (s.answer p status payload imm poison).tags = s.tags :=
  have h := s.answer_mask { regs := true, hq := true, fab := true } rfl rfl rfl p status payload imm poison
  ⟨State.ext_of_mask h rfl, State.tags_of_mask h rfl⟩

/-- A refused level is answered REFUSED, and nothing else is sent or written. -/
theorem State.refused_answers : Answers s ((((s.take p).count pFAB 0xF1C).err pFAB 4).answer p 2 []) p 2 []
    ∧ ((((s.take p).count pFAB 0xF1C).err pFAB 4).answer p 2 []).ext = s.ext := by
  obtain ⟨hfab, -, -⟩ := (s.take p).refused_spec
  refine ⟨State.answer_answers (by rw [hfab, State.take_sent]) ?_ p 2 [], ?_⟩
  · rw [State.selfId_err, State.selfId_count _ _ (by decide), State.take_selfId]
  · rw [State.answer_ext, State.ext_of_mask (M := { regs := true, hq := true }) (State.err_mask _ rfl rfl _ _ _) rfl,
      State.ext_of_mask (M := { regs := true }) (State.count_mask _ rfl _ _ _ _) rfl, State.take_ext]

/-- Any answer without a payload to a request that is taken. -/
theorem State.take_answers (status : Nat) : Answers s ((s.take p).answer p status []) p status [] ∧ ((s.take p).answer p status []).ext = s.ext :=
  ⟨State.answer_answers (s.take_sent p) (s.take_selfId p) p status [], by rw [State.answer_ext, State.take_ext]⟩

/-! ### The bytes that a READ is answered with (R130) -/

theorem State.ext?_length (a n : Nat) : (s.ext? a n).length = n := by simp [State.ext?, Mem.read_eq_map]

theorem State.readBytes_length : (s.readBytes p).length = p.len := by simp [State.readBytes, State.ext?_length]

/-- Where nothing is hidden, they are those at its address. -/
theorem State.readBytes_clear {p : Packet} (h : p.vc ≠ 5 ∨ s.kvAbove p.addr p.len = []) : s.readBytes p = s.ext? p.addr p.len := by
  have hnone : (if p.vc = 5 then s.kvAbove p.addr p.len else []) = [] := by
    split
    · exact h.resolve_left (not_not.2 ‹_›)
    · rfl
  simp [State.readBytes, hnone]

/-- A byte that no position at or above the committed length covers is the one at its address. -/
theorem State.getD_readBytes {p : Packet} {o : Nat} (ho : o < p.len) (hvc : p.vc = 5)
    (h : ∀ h, h ∈ s.kvAbove p.addr p.len → ¬(h.2.1 ≤ p.addr + o ∧ p.addr + o < h.2.1 + h.2.2)) :
    (s.readBytes p).getD o 0 = s.ext.get (p.addr + o) := by
  have hseen : ((s.kvAbove p.addr p.len).any fun (_, b, m) => b ≤ p.addr + o && p.addr + o < b + m) = false := by
    rw [List.any_eq_false]
    exact fun e he => by simpa using h e he
  have hplace : (s.ext? p.addr p.len)[o]? = some (s.ext.get (p.addr + o)) := by simp [State.ext?, Mem.read_eq_map, ho]
  rw [State.readBytes, List.getD_eq_getElem?_getD, List.getElem?_map, List.getElem?_zipIdx, hplace, if_pos hvc]
  simp only [Option.map_some, Nat.zero_add, hseen]
  rfl

theorem State.readImm_of_head {p : Packet} {h : Nat × Nat × Nat} (hvc : p.vc = 5) (hh : (s.kvAbove p.addr p.len).head? = some h) :
    s.readImm p = BitVec.ofNat 64 (s.berth h.1).committed := by
  rw [State.readImm, if_pos hvc, hh]
  rfl

end

/-! ### Serving -/

section

variable {s : State} {p : Packet} {n : Nat} {al : Bool}

theorem State.serve_badAddr (hlevel : s.refusedLevel p = false) (hbad : al = false ∨ s.populated < p.addr + n) (f : State → State) :
    s.serve p n al f = s.answer p 1 [] := by
  have haddr : (!al || !s.addrOk p.addr n) = true := by
    obtain h | h := hbad
    · simp [h]
    · simp [State.addrOk, Nat.not_le.2 h]
  rw [State.serve, if_neg (by simp [hlevel]), if_pos haddr]

theorem State.serve_open (hlevel : s.refusedLevel p = false) (hal : al = true) (haddr : p.addr + n ≤ s.populated)
    (hopen : s.rangeOpen p.addr n = true) (f : State → State) : s.serve p n al f = s.putBack p := by
  rw [State.serve, if_neg (by simp [hlevel]), if_neg (by simp [hal, State.addrOk, haddr]), if_pos hopen]

theorem State.serve_ok (hlevel : s.refusedLevel p = false) (hal : al = true) (haddr : p.addr + n ≤ s.populated)
    (hopen : s.rangeOpen p.addr n = false) (f : State → State) : s.serve p n al f = f s := by
  rw [State.serve, if_neg (by simp [hlevel]), if_neg (by simp [hal, State.addrOk, haddr]), if_neg (by simp [hopen])]

end

/-! ### What is served is answered OK -/

section

variable (s : State) {p : Packet}

/-- A READ is answered with the bytes at its address, and writes nothing. -/
theorem State.serveMem_read (hop : p.op = 1) : (serveMem p (s.take p)).fab.sent
      = s.fab.sent ++ [response (s.take p) p 0 (s.readBytes p) (s.readImm p) (poisonMap ((s.take p).extBadUnits p.addr p.len))]
    ∧ (serveMem p (s.take p)).ext = s.ext := by
  obtain ⟨hext, -⟩ := (s.take p).answer_memory p 0 (s.readBytes p) (s.readImm p) (poisonMap ((s.take p).extBadUnits p.addr p.len))
  rw [serveMem, if_pos hop, State.take_readBytes, State.take_readImm]
  exact ⟨by rw [State.answer_sent, State.take_sent], hext.trans (s.take_ext p)⟩

/-- A WRITE is answered once it is stored; the answer is no further write. -/
theorem State.serveMem_write (hop : p.op = 2) :
    (serveMem p (s.take p)).fab.sent = s.fab.sent ++ [response ((s.take p).storeWrite p) p 0 []]
      ∧ (serveMem p (s.take p)).ext = ((s.take p).storeWrite p).ext
      ∧ ∀ a n, (serveMem p (s.take p)).extPoison a n = ((s.take p).storeWrite p).extPoison a n := by
  obtain ⟨hext, htags⟩ := ((s.take p).storeWrite p).answer_memory p 0 [] 0 0
  have hfab : ((s.take p).storeWrite p).fab = (s.take p).fab :=
    State.fab_of_mask (M := { regs := true, ext := true, tags := true, hq := true, armed := true }) (State.storeWrite_mask _ rfl rfl rfl rfl rfl _ _) rfl
  rw [serveMem, if_neg (by omega), if_pos hop]
  exact ⟨by rw [State.answer_sent, hfab, State.take_sent], hext, fun a n => by simp only [State.extPoison, State.tag, htags]⟩

/-- A FETCH_ADD is answered with the word as it was before the addend. -/
theorem State.serveMem_fetchAdd (hop : p.op = 3) : (∃ poison, (serveMem p (s.take p)).fab.sent
      = s.fab.sent ++ [response ((s.take p).addAt p.addr p.imm) p 0 [] (BitVec.ofNat 64 (s.extNat p.addr 8)) poison])
    ∧ (serveMem p (s.take p)).ext = ((s.take p).addAt p.addr p.imm).ext := by
  have hfab : ((s.take p).addAt p.addr p.imm).fab = (s.take p).fab :=
    State.fab_of_mask (M := { regs := true, ext := true, tags := true, hq := true, armed := true }) (State.addAt_mask _ rfl rfl rfl rfl rfl _ _ _) rfl
  rw [serveMem, if_neg (by omega), if_neg (by omega), State.take_extNat]
  exact ⟨⟨_, by rw [State.answer_sent, hfab, State.take_sent]⟩, (State.answer_memory _ _ _ _ _ _).1⟩

/-- The word of a FETCH_ADD and the bytes around it. -/
theorem State.addAt_spec (a : Nat) (v : BitVec 64) : (s.addAt a v).extNat a 8 = (s.extNat a 8 + v.toNat) % 2 ^ 64
    ∧ ∀ x, ¬(a ≤ x ∧ x < a + 8) → (s.addAt a v).ext.get x = s.ext.get x := by
  refine ⟨?_, fun x hx => State.get_extPutNat_outside _ _ _ _ hx⟩
  rw [State.addAt, State.extNat_extPutNat]
  exact Nat.mod_mod _ _

end

/-- Settles O43. -/
theorem memoryRequestsAreServed : Obligations.MemoryRequestsAreServed := by
  intro c p s hc n aligned
  have hop : p.op = 1 ∨ p.op = 2 ∨ p.op = 3 ∨ p.op = 9 := by
    obtain ⟨-, ha⟩ | ⟨-, ha⟩ | ⟨-, ha⟩ | ⟨-, ha⟩ := hc <;> simp [ha.op]
  have hmem : p.op ≠ 9 → MemCmd c p s := fun h9 => by
    obtain h | h | h | ⟨-, ha⟩ := hc
    · exact .inl h
    · exact .inr (.inl h)
    · exact .inr (.inr h)
    · exact absurd ha.op h9
  have htest : p.op = 9 → c = .test p ∧ Arrives s p 9 := fun h9 => by
    obtain ⟨-, ha⟩ | ⟨-, ha⟩ | ⟨-, ha⟩ | h := hc
    · exact absurd ha.op (by omega)
    · exact absurd ha.op (by omega)
    · exact absurd ha.op (by omega)
    · exact h
  have hlevel := s.take_refusedLevel p hop
  refine ⟨fun hfar => ?refused, fun hnear h9 => ?memory, fun hnear h9 => ?test⟩
  case refused =>
    have hfar' : (s.take p).refusedLevel p = true := hlevel.trans (by simp [hfar])
    refine ⟨_, ?_, s.refused_answers p⟩
    by_cases h9 : p.op = 9
    · obtain ⟨rfl, ha⟩ := htest h9
      rw [exec_test ha, if_pos hfar']
    · rw [exec_mem (hmem h9), State.serve, if_pos hfar']
  case memory =>
    have hnear' : (s.take p).refusedLevel p = false := hlevel.trans (by simp [hnear])
    have hexec := exec_mem (hmem h9)
    refine ⟨fun hbad => ?_, fun hal haddr hopen => ?_, fun hal haddr hopen => ?_⟩
    · have hbad' : memAligned p = false ∨ (s.take p).populated < p.addr + memLen p := by
        rw [State.take_populated]
        exact hbad.imp_left fun h => by rwa [← Bool.not_eq_true, memAligned_iff]
      exact ⟨_, hexec.trans (congrArg _ (State.serve_badAddr hnear' hbad' _)), s.take_answers p 1⟩
    · rw [State.serve_open hnear' ((memAligned_iff p).2 hal) (by rwa [State.take_populated]) (by rwa [State.take_rangeOpen])] at hexec
      exact ⟨_, hexec, List.mem_cons_self, s.take_sent p, s.take_ext p⟩
    · rw [State.serve_ok hnear' ((memAligned_iff p).2 hal) (by rwa [State.take_populated]) (by rwa [State.take_rangeOpen])] at hexec
      obtain ⟨-, ha⟩ | ⟨-, ha⟩ | ⟨-, ha⟩ := hmem h9
      · obtain ⟨hsent, hext⟩ := s.serveMem_read ha.op
        exact ⟨_, _, hexec, hsent, rfl, rfl, rfl, rfl, rfl, fun _ => ⟨hext, s.readBytes_clear, fun hvc =>
          ⟨s.readBytes_length p, fun o ho => s.getD_readBytes ho hvc, fun h => s.readImm_of_head hvc⟩⟩,
          fun h => absurd h (by simp [ha.op]), fun h => absurd h (by simp [ha.op])⟩
      · obtain ⟨hsent, hext, hpoison⟩ := s.serveMem_write ha.op
        obtain ⟨halign, -, hmax, -⟩ : p.addr % 64 = 0 ∧ 64 ≤ p.len ∧ p.len ≤ 4096 ∧ p.len % 64 = 0 := by
          rwa [show aligned = _ from if_neg (by simp [ha.op])] at hal
        obtain ⟨hinside, houtside, hbad⟩ := (s.take p).storeWrite_spec (ha.payload_length (by decide)) halign hmax
        refine ⟨_, _, hexec, hsent, rfl, rfl, rfl, rfl, rfl, fun h => absurd h (by simp [ha.op]), fun _ => ⟨rfl, ?_, ?_, ?_⟩,
          fun h => absurd h (by simp [ha.op])⟩
        · rwa [hext]
        · rwa [hext, ← s.take_ext p]
        · exact fun i hi h => (hpoison _ _).trans (hbad i hi h)
      · obtain ⟨⟨poison, hsent⟩, hext⟩ := s.serveMem_fetchAdd ha.op
        obtain ⟨hword, houtside⟩ := (s.take p).addAt_spec p.addr p.imm
        refine ⟨_, _, hexec, hsent, rfl, rfl, rfl, rfl, rfl, fun h => absurd h (by simp [ha.op]), fun h => absurd h (by simp [ha.op]),
          fun _ => ⟨rfl, ?_, ?_⟩⟩
        · rw [State.extNat, hext, ← s.take_extNat p, ← hword, State.extNat]
        · rwa [hext, ← s.take_ext p]
  case test =>
    obtain ⟨rfl, ha⟩ := htest h9
    have hnear' : (s.take p).refusedLevel p = false := hlevel.trans (by simp [hnear])
    rw [exec_test ha, if_neg (by simp [hnear']), State.take_weight]
    refine ⟨fun h0 => ⟨_, by rw [if_pos h0], s.take_answers p 3⟩, fun h0 => ⟨_, by rw [if_neg h0], ?_, ?_⟩⟩
    · rw [State.answer_sent, State.take_sent, response_congr (s.take_selfId p)]
    · rw [((s.take p).answer_memory p 0 p.payload 0 p.poison).1, State.take_ext]

end Sys2Proof.Machine
end

section
/-! SUPPORT. Contributions to the bell (R361, R363): a bell message towards the master that this engine takes, what combining it at a tier
comes to, and the ABORT that an abandoned collective's master sends. -/

namespace Sys2Proof.Machine

open Sys2Proof

/-! ### A bell message in its turn (R362) -/

theorem State.bell_arrives {s : State} {p : Packet} {m : BellMsg} {kind : Nat} (h : BellArrives s p m kind)
    (up down : State → BellMsg → State) : s.bell p kind up down = if m.down then down (s.take p) m else up (s.take p) m := by
  obtain ⟨⟨-, hop, hdest, hok, hturn⟩, rfl, hkind, h1, h9⟩ := h
  simp [State.bell, bellKindOk, hop, hdest, hok, hturn, hkind, h1, h9]

/-- The command is the one of the message's kind, of those that go towards the master. -/
def UpwardCmd (c : Instr) (p : Packet) (kind : Nat) : Prop :=
  c = .arrive p ∧ kind = 1 ∨ c = .offer p ∧ kind = 3 ∨ c = .bellBarrier p ∧ kind = 5 ∨ c = .scalar p ∧ kind = 6
    ∨ c = .bellSeal p ∧ kind = 7 ∨ c = .abandon p ∧ kind = 9

theorem exec_upward {c : Instr} {s : State} {p : Packet} {m : BellMsg} {kind : Nat} (hc : UpwardCmd c p kind) (h : BellArrives s p m kind)
    (hup : m.down = false) : exec c s = .next ((s.take p).bellFromBelow p m) := by
  have hbell : ∀ down : State → BellMsg → State,
      s.engine (fun s => s.bell p kind (fun s m => s.bellFromBelow p m) down) = .next ((s.take p).bellFromBelow p m) := fun down => by
    rw [State.engine_up h.1.up, State.bell_arrives h, hup]
    rfl
  obtain ⟨rfl, rfl⟩ | ⟨rfl, rfl⟩ | ⟨rfl, rfl⟩ | ⟨rfl, rfl⟩ | ⟨rfl, rfl⟩ | ⟨rfl, rfl⟩ := hc
  all_goals exact hbell _

/-! ### What taking the packet leaves of the bell -/

section

variable (s : State) (p : Packet)

theorem State.take_col : (s.take p).col = s.col := State.col_of_mask (M := { fab := true }) (s.take_mask _ rfl p) rfl

theorem State.take_levelMembers (level : Nat) : (s.take p).levelMembers level = s.levelMembers level := by
  obtain ⟨f, hf, -, -⟩ := s.take_fab p
  rw [hf]; rfl

theorem State.take_cfg (P o : Nat) : (s.take p).cfg P o = s.cfg P o := by
  obtain ⟨f, hf, -, -⟩ := s.take_fab p
  rw [hf]; rfl

theorem State.take_tierOf (t : Nat) (m : BellMsg) : (s.take p).tierOf t m = s.tierOf t m := by
  rw [State.tierOf, State.take_col, State.take_now, State.tierOf]

theorem State.take_bellResult? (m : BellMsg) : (s.take p).bellResult? m = s.bellResult? m := by
  rw [State.bellResult?, State.take_col, State.bellResult?]

/-- Whether a port is UP, and the engine and the strap that its peer has announced (R391). -/
def Port.masterClaim (x : Port) : PortSt × Nat × Nat := (x.st, x.peer, x.peerStrap)

theorem State.claimants_congr {s t : State} (hreg : ∀ P o, t.reg P o = s.reg P o)
    (hports : ∀ k, (t.fport k).masterClaim = (s.fport k).masterClaim) : t.claimants = s.claimants := by
  have htheirs : ∀ k, (t.fport k).st = (s.fport k).st ∧ (t.fport k).peer = (s.fport k).peer ∧ (t.fport k).peerStrap = (s.fport k).peerStrap :=
    fun k => by simpa [Port.masterClaim] using hports k
  have hid : t.selfId = s.selfId := by rw [State.selfId, State.regN, hreg, State.selfId, State.regN]
  rw [State.claimants, State.strapCode, State.strapFault, hreg, hid]
  refine congrArg (fun l : List Nat => (_ ++ l).eraseDups) (List.filterMap_congr fun k _ => ?_)
  obtain ⟨hst, hpeer, hstrap⟩ := htheirs k
  dsimp only
  rw [hst, hpeer, hstrap]

theorem State.freeFlits_masterClaim (n vc cls k m : Nat) : ((s.freeFlits n vc cls k).fport m).masterClaim = (s.fport m).masterClaim := by
  by_cases hm : m = n
  · subst hm
    obtain ⟨owed, control, hport⟩ := s.fport_freeFlits m vc cls k
    rw [Port.masterClaim, hport]
    rfl
  · have hother : (s.freeFlits n vc cls k).fport m = s.fport m := by
      unfold State.freeFlits
      dsimp only
      split
      · rfl
      · split
        · rw [State.sendControl, State.fport_updPort_other _ _ hm, State.fport_setPort_other _ _ hm]
        · exact State.fport_setPort_other _ _ hm
    rw [hother]

theorem State.take_masterClaim (m : Nat) : ((s.take p).fport m).masterClaim = (s.fport m).masterClaim := by
  unfold State.take
  dsimp only
  split
  · exact State.freeFlits_masterClaim _ _ _ _ _ m
  · rfl

/-- Taking a packet moves no master: neither does it show in what peers have announced, nor in who was last found to be master. -/
theorem State.take_boardMaster : (s.take p).boardMaster = s.boardMaster := by
  have hmaster : (s.take p).fab.master = s.fab.master := by
    unfold State.take
    dsimp only
    split
    · rw [State.freeFlits_fab]
    · rfl
  rw [State.boardMaster, State.masterPos, State.claimedPos, State.claimants_congr (s.take_reg p) (s.take_masterClaim p), hmaster, State.take_selfId]
  rfl

theorem State.take_tierMaster (level tier : Nat) : (s.take p).tierMaster level tier = s.tierMaster level tier := by
  rw [State.tierMaster, State.take_levelMembers, State.take_selfId, State.take_boardMaster, State.take_cfg, State.take_cfg, State.tierMaster]

theorem State.take_tierFrom (level src : Nat) : (s.take p).tierFrom level src = s.tierFrom level src := by
  rw [State.tierFrom, State.take_selfId, State.take_tierMaster, State.take_tierMaster, State.take_tierMaster, State.tierFrom]

end

/-! ### Messages noted (R364) -/

/-- A message noted as received, or as sent, shows in the digests of contexts alone. -/
theorem State.noteRecv_eq (s : State) (src : Nat) (m : BellMsg) : ∃ cs, s.noteRecv src m = { s with col := { s.col with ctxs := cs } } := by
  unfold State.noteRecv
  split
  · exact ⟨_, rfl⟩
  · exact ⟨_, rfl⟩

theorem State.noteSent_eq (s : State) (dest : Nat) (m : BellMsg) : ∃ cs, s.noteSent dest m = { s with col := { s.col with ctxs := cs } } := by
  unfold State.noteSent
  split
  · exact ⟨_, rfl⟩
  · exact ⟨_, rfl⟩

/-! ### One tier (R363) -/

section

variable {s : State} {t src : Nat} {m : BellMsg} (fuel : Nat)

/-- A result that is out is sent again. -/
theorem State.bellUp_result {r : Packet} (hm : m.kind ≠ bABANDON ∨ m.key.barrier = false) (hr : s.bellResult? m = some r) :
    State.bellUp (fuel + 1) s t src m = s.send { r with dest := src } := by
  have hsame : ¬((decide (m.kind = bABANDON) && m.key.barrier) = true) := by
    obtain h | h := hm <;> simp [h]
  simp only [State.bellUp, if_neg hsame, hr]

variable (hr : s.bellResult? m = none)
include hr

/-- A message of a source that is held, or of a collection that is passed on, has no effect. -/
theorem State.bellUp_ignored (hm : m.kind ≠ bABANDON) (hheld : src ∈ (s.tierOf t m).from_ ∨ (s.tierOf t m).passed = true) :
    State.bellUp (fuel + 1) s t src m = s := by
  have hskip : ((s.tierOf t m).from_.contains src || (s.tierOf t m).passed) = true := by simpa using hheld
  simp only [State.bellUp, hm, decide_false, Bool.false_and, Bool.false_eq_true, if_false, hr, hskip, if_true]

/-- A message that its tier's collection still lacks members after is kept. -/
theorem State.bellUp_kept (hm : m.kind ≠ bABANDON) (hnew : src ∉ (s.tierOf t m).from_) (hopen : (s.tierOf t m).passed = false)
    (hneed : (s.tierOf t m).count + m.count < s.tierNeed t) :
    State.bellUp (fuel + 1) s t src m = (s.noteRecv src m).putTier t m ((s.tierOf t m).add src m) := by
  have hskip : ((s.tierOf t m).from_.contains src || (s.tierOf t m).passed) = false := by simp [hnew, hopen]
  have hless : ((s.tierOf t m).add src m).count < (s.noteRecv src m).tierNeed t := by
    obtain ⟨cs, hcs⟩ := s.noteRecv_eq src m
    rwa [hcs]
  simp only [State.bellUp, hm, decide_false, Bool.false_and, Bool.false_eq_true, if_false, hr, hskip, hless, if_true]

/-- The ABORT that answers an ABANDON. -/
def BellMsg.abortOf (m : BellMsg) : BellMsg :=
  { key := m.key, kind := bABORT, down := true, attempt := m.attempt, seq := m.seq, value := leBytes 1 2 }

/-- A collective abandoned at its level's master is aborted, and an engine that no tier knows of is told besides (R361). -/
theorem State.bellUp_abandoned (hm : m.kind = bABANDON) (hkey : m.key.barrier = false) (htop : t = m.key.level) :
    State.bellUp (fuel + 1) s t src m
      = if (s.children m.key t).contains src then s.resultOut m.abortOf else (s.resultOut m.abortOf).sendBell src m.abortOf := by
  simp only [State.bellUp, hkey, Bool.and_false, Bool.false_eq_true, if_false, hr, if_pos hm, if_pos htop]
  rfl

end

/-! ### Messages sent -/

/-- A bell message of that kind has been sent down to an engine. -/
def State.Tells (s : State) (dest kind : Nat) : Prop :=
  ∃ q, q ∈ s.fab.sent ∧ q.dest = dest ∧ q.op = 8 ∧ (bellMsg q).kind = kind ∧ (bellMsg q).down = true

/-- The kind and the direction of a bell message read back (R362). -/
theorem bellMsg_bellPacket (s : State) (dest : Nat) (m : BellMsg) :
    (bellMsg (s.bellPacket dest m)).kind = m.kind % 256 ∧ (bellMsg (s.bellPacket dest m)).down = m.down := by
  have hdown : bit m.down ≤ 1 ∧ (bit m.down == 1) = m.down := by cases m.down <;> decide
  have hhead : ∀ v, leNat ((leBytes 16 v ++ m.value).take 16) = v % 256 ^ 16 := fun v => by
    rw [List.take_left' (leBytes_length 16 _), leNat_leBytes]
  simp only [State.bellPacket, bellMsg, bellPayload, hhead, nbit, show 256 ^ 16 = 2 ^ 128 from rfl]
  refine ⟨?_, ?_⟩
  · rw [nfld_mod _ (by decide) (by decide), nfld]
    omega
  · refine Eq.trans (congrArg (· == 1) ?_) hdown.2
    omega

theorem State.sendBell_sent (s : State) (dest : Nat) (m : BellMsg) :
    (s.sendBell dest m).fab.sent = s.fab.sent ++ [s.bellPacket dest m] := by
  obtain ⟨cs, hcs⟩ := s.noteSent_eq dest m
  rw [State.sendBell, State.send_sent, hcs]

theorem State.sendBell_tells (s : State) (dest : Nat) {m : BellMsg} (hdown : m.down = true) :
    (s.sendBell dest m).Tells dest (m.kind % 256) := by
  obtain ⟨hkind, hd⟩ := bellMsg_bellPacket s dest m
  exact ⟨s.bellPacket dest m, by rw [State.sendBell_sent]; exact List.mem_append_right _ (List.mem_singleton_self _), rfl, rfl, hkind,
    hd.trans hdown⟩

/-- From `s` to `t` packets may have been sent, by the same engine. -/
structure SentOn (s t : State) : Prop where
  sent : ∀ q, q ∈ s.fab.sent → q ∈ t.fab.sent
  id : SameId s t

namespace SentOn

variable {s t u : State}

theorem refl (s : State) : SentOn s s := ⟨fun _ h => h, .refl s⟩

theorem trans (h : SentOn s t) (k : SentOn t u) : SentOn s u := ⟨fun q hq => k.sent q (h.sent q hq), h.id.trans k.id⟩

theorem ite {c : Prop} [Decidable c] (ht : SentOn s t) (hu : SentOn s u) : SentOn s (if c then t else u) := by
  split
  · exact ht
  · exact hu

theorem foldl {α : Type} {f : State → α → State} (h : ∀ s x, SentOn s (f s x)) (l : List α) (s : State) : SentOn s (l.foldl f s) := by
  induction l generalizing s with
  | nil => exact refl s
  | cons x l ih => exact (h s x).trans (ih _)

theorem tells (h : SentOn s t) {dest kind : Nat} (hs : s.Tells dest kind) : t.Tells dest kind := by
  obtain ⟨q, hq, hrest⟩ := hs
  exact ⟨q, h.sent q hq, hrest⟩

end SentOn

theorem State.sendBell_sentOn (s : State) (dest : Nat) (m : BellMsg) : SentOn s (s.sendBell dest m) where
  sent q hq := by
    rw [State.sendBell_sent]
    exact List.mem_append_left _ hq
  id := by
    obtain ⟨cs, hcs⟩ := s.noteSent_eq dest m
    exact SameId.trans (.of_regs (by rw [hcs])) (State.send_sameId _ _)

/-! ### A result on its way down (R363) -/

/-- What a tier sends to one source below it; at the board's tier the engine itself is one of them. -/
def State.spreadTo (t : Nat) (m : BellMsg) (s : State) (c : Nat) : State := if c = s.selfId && t != 0 then s else s.sendBell c m

theorem State.spreadTo_sentOn (t : Nat) (m : BellMsg) (s : State) (c : Nat) : SentOn s (s.spreadTo t m c) :=
  .ite (.refl s) (s.sendBell_sentOn c m)

/-- Every source in the list but the engine itself is told. -/
theorem State.spreadTo_foldl_tells {t : Nat} {m : BellMsg} (hdown : m.down = true) {c : Nat} {cs : List Nat} (hc : c ∈ cs) {s : State}
    (hother : c ≠ s.selfId) : (cs.foldl (State.spreadTo t m) s).Tells c (m.kind % 256) := by
  induction cs generalizing s with
  | nil => exact absurd hc List.not_mem_nil
  | cons x cs ih =>
    have hstep := s.spreadTo_sentOn t m x
    obtain rfl | hc := List.mem_cons.1 hc
    · have htold : s.spreadTo t m c = s.sendBell c m := if_neg (by simp [hother])
      refine (SentOn.foldl (State.spreadTo_sentOn t m) cs _).tells ?_
      rw [htold]
      exact s.sendBell_tells c hdown
    · exact ih hc (by rw [hstep.id]; exact hother)

/-- What a tier no longer keeps once a result goes down from it. -/
def State.tierAnswered (s : State) (t : Nat) (m : BellMsg) : State :=
  { s with
    col := { s.col with
      tiers := s.col.tiers.filter fun e => !(e.key == m.key && e.tier == t && (m.kind == bABORT || downKind e.kind == m.kind))
      arrived := s.col.arrived.filter fun a => !(a.key == m.key && a.tier == t && m.last) } }

theorem State.spreadAt_eq (s : State) (t : Nat) (m : BellMsg) :
    s.spreadAt t m = (s.children m.key t).foldl (State.spreadTo t m) (s.tierAnswered t m) := rfl

theorem State.spreadAt_sentOn (s : State) (t : Nat) (m : BellMsg) : SentOn s (s.spreadAt t m) := by
  have hanswered : SentOn s (s.tierAnswered t m) := ⟨fun _ h => h, .of_regs rfl⟩
  rw [State.spreadAt_eq]
  exact hanswered.trans (.foldl (State.spreadTo_sentOn t m) _ _)

theorem State.bellSpread_sentOn (t : Nat) (s : State) (m : BellMsg) : SentOn s (State.bellSpread t s m) := by
  induction t generalizing s with
  | zero => exact s.spreadAt_sentOn 0 m
  | succ t ih => exact .ite ((s.spreadAt_sentOn (t + 1) m).trans (ih _)) (s.spreadAt_sentOn (t + 1) m)

section

variable {s : State} {m : BellMsg} {c : Nat} (hdown : m.down = true) (hother : c ≠ s.selfId)
include hdown hother

theorem State.spreadAt_tells {t : Nat} (hc : c ∈ s.children m.key t) : (s.spreadAt t m).Tells c (m.kind % 256) :=
  State.spreadTo_foldl_tells (s := s.tierAnswered t m) hdown hc hother

theorem State.bellSpread_tells {t : Nat} (hc : c ∈ s.children m.key t) : (State.bellSpread t s m).Tells c (m.kind % 256) := by
  have htold := State.spreadAt_tells hdown hother hc
  cases t with
  | zero => exact htold
  | succ t =>
    unfold State.bellSpread
    split
    · exact (State.bellSpread_sentOn t _ m).tells htold
    · exact htold

/-- A result that is out is sent to every other engine below its level's master. -/
theorem State.resultOut_tells (hc : c ∈ s.children m.key m.key.level) : (s.resultOut m).Tells c (m.kind % 256) :=
  State.bellSpread_tells (s := s.keepResult m) hdown hother hc

end

/-- An ABORT goes to the engine that abandons a collective at its level's master, whether or not a tier knows of it (R361). -/
theorem State.bellUp_abandoned_tells {s : State} {src : Nat} {m : BellMsg} (fuel : Nat) (hr : s.bellResult? m = none) (hm : m.kind = bABANDON)
    (hkey : m.key.barrier = false) (hother : src ≠ s.selfId) : (State.bellUp (fuel + 1) s m.key.level src m).Tells src bABORT := by
  rw [State.bellUp_abandoned fuel hr hm hkey rfl]
  split
  · next hc => exact State.resultOut_tells (m := m.abortOf) rfl hother (List.contains_iff_mem.1 hc)
  · exact State.sendBell_tells _ src (m := m.abortOf) rfl

/-- Settles O48: the command is combining its message at the tier that its source lies below, and that is taken branch by branch. -/
theorem bellContributionsAreCombined : Obligations.BellContributionsAreCombined := by
  intro c p s m kind t ha hup hc
  have hexec := exec_upward hc ha hup
  obtain ⟨-, -, rfl, -, -⟩ := ha
  refine ⟨fun hnone => ?_, fun hfrom => ?_⟩
  · rw [hexec, State.bellFromBelow, State.take_tierFrom, hnone]
  · have hcombine : exec c s = .next (State.bellUp 4 (s.take p) t p.src m) := by
      rw [hexec, State.bellFromBelow, State.take_tierFrom, hfrom]
    have hresult := s.take_bellResult? p m
    have htier := s.take_tierOf p t m
    refine ⟨hcombine, fun r hkind hr => ⟨_, hcombine, ?_⟩, fun hkind hr => ⟨fun hheld => ?_, fun hnew hopen hneed => ⟨_, hcombine, ?_⟩⟩,
      fun hkind hkey hr htop hother => ?_⟩
    · rw [State.bellUp_result 3 hkind (hresult.trans hr)]
      exact ⟨by rw [State.send_sent, State.take_sent],
        (State.col_of_mask (State.send_mask { regs := true, hq := true, fab := true } rfl rfl rfl _ _) rfl).trans (s.take_col p)⟩
    · rw [hcombine, State.bellUp_ignored 3 (hresult.trans hr) hkind (by rwa [htier])]
    · rw [State.bellUp_kept 3 (hresult.trans hr) hkind (by rwa [htier]) (by rwa [htier])
        (by rwa [htier, State.tierNeed, State.take_levelMembers]), htier]
      obtain ⟨cs, hcs⟩ := (s.take p).noteRecv_eq p.src m
      rw [hcs]
      exact ⟨s.take_sent p, List.mem_append_right _ (List.mem_singleton_self _), rfl, rfl, rfl, rfl, (congrArg Coll.waits (s.take_col p) :),
        (congrArg Coll.results (s.take_col p) :)⟩
    · subst htop
      obtain ⟨q, hq⟩ := State.bellUp_abandoned_tells 3 (hresult.trans hr) hkind hkey (src := p.src) (by rwa [State.take_selfId])
      exact ⟨_, q, hcombine, hq⟩

end Sys2Proof.Machine
end

section
/-! SUPPORT. Refutations among the collectives. A verdict of failure is taken by the first collective of its key and attempt that is
open, moving, complete or sealing (R360), and the statement speaks of the first that is not just open: where two contexts bear one key,
the first of them open, the verdict replays that one. BELL_RESEND is stated for any state of the fabric's ports, and a port's round robin
stands at one of VC1 to VC7 (R334): for VC 1034 the count of flits sent (R345; 0xDF00 + 4 · 1034 = 0xEF28) lies where BELL_RESENDS
does. -/

namespace Sys2Proof.Machine

open Sys2Proof

/-! ### A verdict of failure where two contexts bear its key -/

/-- Collective 0 of class 0. -/
def sharedKey : BellKey := { cls := 0, barrier := false, collId := 0, use := 1, level := 0 }

/-- A context of that collective, of barge 0. -/
def sharedCtx (slot : Nat) (ph : CtxPhase) : Ctx :=
  { slot := slot, b := 0, i := 0, key := sharedKey, kind := 0, redOp := 0, format := 0, bytes := 128, segLog2 := 0, early := false
    lockId := 0, phase := ph }

/-- The verdict of failure on its first attempt. -/
def failedVerdict : Packet :=
  { op := 8, len := 16, payload := bellPayload { key := sharedKey, kind := bSEAL, down := true, fail := true } }

/-- The collective is open in context 0 and sealing in context 1. -/
def sharedKeyState : State :=
  { rst := { active := false, sources := [], step := 5 }
    sv := { barges := [{ id := 0, need := 1 }] }
    col := { ctxs := [sharedCtx 0 .opened, sharedCtx 1 .sealing] } }

/-- The attempt of the collective in a context after the command. -/
def attemptAfter (c : Instr) (s : State) (slot : Nat) : Option Nat := match exec c s with
  | .next t => (t.ctx? (·.slot == slot)).map (·.attempt)
  | _ => none

/-- Refutes O49: the verdict puts the open collective at its second attempt, and the sealing one of the same key stays at its first. -/
theorem not_bellResultsReachTheMember : ¬ Obligations.BellResultsReachTheMember := by
  intro h
  have harrives : BellArrives sharedKeyState failedVerdict (bellMsg failedVerdict) bSEAL :=
    ⟨⟨rfl, rfl, by decide +kernel, by decide +kernel, by decide +kernel⟩, rfl, by decide +kernel, by decide, by decide⟩
  obtain ⟨-, -, -, -, hseal, -⟩ := h _ _ _ _ harrives ⟨by decide +kernel, .inl (by decide +kernel)⟩
  obtain ⟨-, hverdict⟩ := hseal rfl
  obtain ⟨-, hfailed⟩ := hverdict (sharedCtx 1 .sealing) { id := 0, need := 1 } (by decide +kernel) rfl rfl
  obtain ⟨t, hexec, -, -, hreplay, -⟩ := hfailed (by decide +kernel)
  obtain ⟨d, hd, hsecond, -⟩ := hreplay rfl
  have hfirst : attemptAfter (.bellSeal failedVerdict) sharedKeyState 1 = some 0 := by decide +kernel
  have hone : attemptAfter (.bellSeal failedVerdict) sharedKeyState 1 = some 1 := by
    rw [attemptAfter, hexec]
    exact (congrArg (Option.map (·.attempt)) hd).trans (congrArg some hsecond)
  exact absurd (hfirst.symm.trans hone) (by decide)

/-! ### A bell message resent beside a packet of VC 1034 -/

/-- A port in the turn of VC 1034, whose packet of two flits is queued behind one of VC1; the replay buffer has room for three flits. -/
def strayTurnPort : Port :=
  { st := .up, turn := 1034, inTurn := true, deficit := [(1034, 2)]
    queue := [{ p := { vc := 1 } }, { p := { vc := 1034, payload := List.replicate 80 0 } }]
    replay := List.replicate 253 { seq := 0, vc := 0, frame := 0, content := [] } }

/-- An ARRIVE of engine 1 to the board master, engine 0. -/
def waitingArrive : BellWait :=
  { p := { src := 1, op := 8, len := 16, payload := bellPayload { key := sharedKey, kind := bARRIVE, count := 1 } }
    key := sharedKey, kind := bARRIVE, since := 0 }

/-- Engine 1 with that port towards engine 0; the ARRIVE waits for its answer, and BELL_RESEND_US is 0. -/
def strayResendState : State :=
  { rst := { active := false, sources := [], step := 5 }
    regs := [(0xCF00, 1), (0xE120, 0)]
    fab := { ports := [(0, strayTurnPort)] }
    col := { waits := [waitingArrive] } }

/-- BELL_RESENDS after the command. -/
def resendsAfter (c : Instr) (s : State) : Option Nat := match exec c s with
  | .next t => some (t.regN pCOL 0xF28)
  | _ => none

/-- Refutes O50: the ARRIVE is resent, and the two flits of the packet of VC 1034 that the port sends with it are counted as resends. -/
theorem not_piecesAndCollectiveTimers : ¬ Obligations.PiecesAndCollectiveTimers := by
  intro h
  obtain ⟨-, -, -, hresend, -⟩ := h
  obtain ⟨hdue, -⟩ := hresend 0 strayResendState waitingArrive (by decide) rfl
  obtain ⟨t, hexec, -, -, hcount⟩ := hdue (by decide +kernel)
  have hthree : resendsAfter (.bellResend 0) strayResendState = some 3 := by decide +kernel
  have hone : satAdd 32 (strayResendState.regN pCOL 0xF28) 1 = 1 := by decide +kernel
  rw [resendsAfter, hexec, Option.some.injEq, hcount, hone] at hthree
  exact absurd hthree (by decide)

end Sys2Proof.Machine
end

section
/-! SUPPORT. The machine as a whole: the reset state's stores, where it can stop, and what a stopped engine does. -/

namespace Sys2Proof.Machine

open Sys2Proof

/-- Settles O1: a queue with a command in front runs it, an empty one lets a microsecond pass. -/
theorem stepRunsFrontCommand : Obligations.StepRunsFrontCommand := by
  refine ⟨fun c rest s => step_of_front (s := { s with pending := c :: rest }) rfl, fun s hidle => ?_⟩
  rw [step_of_idle hidle, tick]
  split <;> rfl

/-- Settles O2: nothing is listed in any store. -/
theorem resetStateIsCanonical : Obligations.ResetStateIsCanonical :=
  ⟨rfl, rfl, rfl, rfl, rfl, rfl, rfl, rfl, rfl⟩

/-- A command of the engine domain is a change of a running engine's state, or a commit unit. -/
theorem exec_inside {c : Instr} (h : c.outsideEngine = false) :
    (∃ f, ∀ s, exec c s = s.engine f) ∨ ∃ b i u, c = .commitUnit b i u := by
  cases c <;> cases h
  case commitUnit b i u => exact .inr ⟨b, i, u, rfl⟩
  all_goals exact .inl ⟨_, fun _ => rfl⟩

/-- The towpath, the TAP and the reset logic answer a next state to every command. -/
theorem exec_outside {c : Instr} (h : c.outsideEngine = true) (s : State) : ∃ t, exec c s = .next t := by
  cases c <;> cases h
  all_goals exact ⟨_, rfl⟩

theorem State.engine_stopped {s : State} (h : s.up = false) (f : State → State) : s.engine f = .next s := by
  rw [State.engine, h]
  rfl

theorem execCommitUnit_stopped {s : State} (h : s.up = false) (b i u : Nat) : execCommitUnit b i u s = .next s := by
  rw [execCommitUnit, h]
  rfl

/-- Settles O5: every command of the engine domain asks first whether the domain runs. -/
theorem stoppedEngineTakesNoCommand : Obligations.StoppedEngineTakesNoCommand := by
  intro c s hin hdown
  rcases exec_inside hin with ⟨f, hf⟩ | ⟨b, i, u, rfl⟩
  · rw [hf, State.engine_stopped hdown]
  · exact execCommitUnit_stopped hdown b i u

/-- A commit unit has a next state, or meets memory that no port holds. -/
theorem execCommitUnit_next_or_fault (b i u : Nat) (s : State) :
    (∃ t, execCommitUnit b i u s = .next t) ∨ (execCommitUnit b i u s = .fault .beyondPopulated ∧ s.up = true) := by
  unfold execCommitUnit
  split
  case isTrue hup =>
    split
    · exact .inl ⟨_, rfl⟩
    · exact .inr ⟨rfl, hup⟩
  case isFalse => exact .inl ⟨s, rfl⟩

/-- Settles O4: every command has a next state but the commit units, whose write may meet no memory. -/
theorem onlyCommitUnitsFaultAndNothingIsRefused : Obligations.OnlyCommitUnitsFaultAndNothingIsRefused := by
  intro c s
  have hform : (∃ t, exec c s = .next t) ∨ exec c s = .fault .beyondPopulated ∧ s.up = true ∧ ∃ b i u, c = .commitUnit b i u := by
    cases hc : c.outsideEngine with
    | true => exact .inl (exec_outside hc s)
    | false =>
      rcases exec_inside hc with ⟨f, hf⟩ | ⟨b, i, u, rfl⟩
      · exact .inl ⟨_, hf s⟩
      · exact (execCommitUnit_next_or_fault b i u s).imp_right fun ⟨hfault, hup⟩ => ⟨hfault, hup, b, i, u, rfl⟩
  rcases hform with ⟨t, ht⟩ | ⟨hfault, hup, hunit⟩
  · rw [ht]
    exact ⟨fun _ => nofun, fun _ => nofun⟩
  · rw [hfault]
    exact ⟨fun _ => nofun, fun f hf => ⟨(Host.Outcome.fault.inj hf).symm, hup, hunit⟩⟩

end Sys2Proof.Machine
end

section
/-! SUPPORT. The frame of every command: the parts of the state that its mask leaves in sight. -/

namespace Sys2Proof.Machine

open Sys2Proof

/-- The mask that names the listed parts of the state. -/
def maskOf (l : List Part) : Mask where
  pending := decide (Part.pending ∈ l)
  params := decide (Part.params ∈ l)
  aoUs := decide (Part.aoUs ∈ l)
  rst := decide (Part.rst ∈ l)
  regs := decide (Part.regs ∈ l)
  ext := decide (Part.ext ∈ l)
  tags := decide (Part.tags ∈ l)
  hostMem := decide (Part.hostMem ∈ l)
  scratch := decide (Part.scratch ∈ l)
  pool := decide (Part.pool ∈ l)
  pound := decide (Part.pound ∈ l)
  marks := decide (Part.marks ∈ l)
  imem := decide (Part.imem ∈ l)
  hq := decide (Part.hq ∈ l)
  regions := decide (Part.regions ∈ l)
  tileErrs := decide (Part.tileErrs ∈ l)
  errWindowFrom := decide (Part.errWindowFrom ∈ l)
  sv := decide (Part.sv ∈ l)
  rows := decide (Part.rows ∈ l)
  gathers := decide (Part.gathers ∈ l)
  fab := decide (Part.fab ∈ l)
  col := decide (Part.col ∈ l)
  tap := decide (Part.tap ∈ l)
  port := decide (Part.port ∈ l)
  armed := decide (Part.armed ∈ l)
  memCounts := decide (Part.memCounts ∈ l)
  picks := decide (Part.picks ∈ l)

/-- A part that the list leaves out is the same in states that agree under the list's mask. -/
theorem same_of_mask {l : List Part} {s t : State} (h : t.mask (maskOf l) = s.mask (maskOf l)) {p : Part} (hp : p ∉ l) : Same s t p := by
  cases p with
  | pending => exact State.pending_of_mask h (decide_eq_false hp)
  | params => exact State.params_of_mask h (decide_eq_false hp)
  | aoUs => exact State.aoUs_of_mask h (decide_eq_false hp)
  | rst => exact State.rst_of_mask h (decide_eq_false hp)
  | regs => exact State.regs_of_mask h (decide_eq_false hp)
  | ext => exact State.ext_of_mask h (decide_eq_false hp)
  | tags => exact State.tags_of_mask h (decide_eq_false hp)
  | hostMem => exact State.hostMem_of_mask h (decide_eq_false hp)
  | scratch => exact State.scratch_of_mask h (decide_eq_false hp)
  | pool => exact State.pool_of_mask h (decide_eq_false hp)
  | pound => exact State.pound_of_mask h (decide_eq_false hp)
  | marks => exact State.marks_of_mask h (decide_eq_false hp)
  | imem => exact State.imem_of_mask h (decide_eq_false hp)
  | hq => exact State.hq_of_mask h (decide_eq_false hp)
  | regions => exact State.regions_of_mask h (decide_eq_false hp)
  | tileErrs => exact State.tileErrs_of_mask h (decide_eq_false hp)
  | errWindowFrom => exact State.errWindowFrom_of_mask h (decide_eq_false hp)
  | sv => exact State.sv_of_mask h (decide_eq_false hp)
  | rows => exact State.rows_of_mask h (decide_eq_false hp)
  | gathers => exact State.gathers_of_mask h (decide_eq_false hp)
  | fab => exact State.fab_of_mask h (decide_eq_false hp)
  | col => exact State.col_of_mask h (decide_eq_false hp)
  | tap => exact State.tap_of_mask h (decide_eq_false hp)
  | port => exact State.port_of_mask h (decide_eq_false hp)
  | armed => exact State.armed_of_mask h (decide_eq_false hp)
  | memCounts => exact State.memCounts_of_mask h (decide_eq_false hp)
  | picks => exact State.picks_of_mask h (decide_eq_false hp)

/-- Every command stays under the mask of the parts that it may write. -/
theorem exec_mask (c : Instr) (s t : State) : exec c s = .next t → t.mask (maskOf c.writes) = s.mask (maskOf c.writes) := by
  cases c with
  | sqDoorbell queue pointer => apply execSqDoorbell_mask <;> rfl
  | cqDoorbell queue pointer => apply execCqDoorbell_mask <;> rfl
  | sqFetch => apply execSqFetch_mask <;> rfl
  | nop j => apply execNop_mask <;> rfl
  | submitBarge j => apply execSubmitBarge_mask <;> rfl
  | admitRequest j => apply execAdmitRequest_mask <;> rfl
  | cancelRequest j => apply execCancelRequest_mask <;> rfl
  | configEpoch j => apply execConfigEpoch_mask <;> rfl
  | configEpochComplete j => apply execConfigEpochComplete_mask <;> rfl
  | fence j => apply execFence_mask <;> rfl
  | fenceComplete j => apply execFenceComplete_mask <;> rfl
  | create j => apply execCreate_mask <;> rfl
  | replace j => apply execReplace_mask <;> rfl
  | replaceTakeEffect j => apply execReplaceTakeEffect_mask <;> rfl
  | delete j => apply execDelete_mask <;> rfl
  | deleteTakeEffect j => apply execDeleteTakeEffect_mask <;> rfl
  | writeRows j => apply execWriteRows_mask <;> rfl
  | readRows j => apply execReadRows_mask <;> rfl
  | adapterFlip j => apply execAdapterFlip_mask <;> rfl
  | flipTakeEffect j => apply execFlipTakeEffect_mask <;> rfl
  | flipComplete j => apply execFlipComplete_mask <;> rfl
  | trainHoldRelease j => exact execTrainHoldRelease_mask _ rfl j s t
  | cqRecordWrite cq => apply execCqRecordWrite_mask <;> rfl
  | coalTimeExpiry cq => apply execCoalTimeExpiry_mask <;> rfl
  | maintEntry => apply execMaintEntry_mask <;> rfl
  | mm b k => apply execMm_mask <;> rfl
  | delta b k => apply execDelta_mask <;> rfl
  | deltaBackward b k => apply execDeltaBackward_mask <;> rfl
  | attn b k => apply execAttn_mask <;> rfl
  | kvAppend b k => apply execKvAppend_mask <;> rfl
  | kvCommit b k => apply execKvCommit_mask <;> rfl
  | vec b k => apply execVec_mask <;> rfl
  | conv b k => apply execConv_mask <;> rfl
  | gather b k => apply execGather_mask <;> rfl
  | prefetch b k => apply execPrefetch_mask <;> rfl
  | pool b k => apply execPool_mask <;> rfl
  | sgrad b k => apply execSgrad_mask <;> rfl
  | update b k => apply execUpdate_mask <;> rfl
  | coll b k => apply execColl_mask <;> rfl
  | sealColl b k => apply execSeal_mask <;> rfl
  | barrier b k => apply execBarrier_mask <;> rfl
  | lockMark b k => apply execLockMark_mask <;> rfl
  | confirm b k => apply execConfirm_mask <;> rfl
  | savePoint b k => apply execSavePoint_mask <;> rfl
  | opFence b k => apply execOpFence_mask <;> rfl
  | wait b k => apply execWait_mask <;> rfl
  | waitLimitExpiry b k => apply execWaitLimitExpiry_mask <;> rfl
  | signal b k => apply execSignal_mask <;> rfl
  | opComplete b k => apply execOpComplete_mask <;> rfl
  | commitUnit b k u => apply execCommitUnit_mask <;> rfl
  | manifestClose m => apply execManifestClose_mask <;> rfl
  | bargePlacement => apply execBargePlacement_mask <;> rfl
  | wakeComplete r => apply execWakeComplete_mask <;> rfl
  | imageLoadComplete b => apply execImageLoadComplete_mask <;> rfl
  | bargeEnd b => apply execBargeEnd_mask <;> rfl
  | napEntry r => apply execNapEntry_mask <;> rfl
  | offEntry r => apply execOffEntry_mask <;> rfl
  | preempt mask => apply execPreempt_mask <;> rfl
  | hold mask => exact execHold_mask _ rfl mask s t
  | release mask => exact execRelease_mask _ rfl mask s t
  | saveComplete b => apply execSaveComplete_mask <;> rfl
  | restoreComplete b => apply execRestoreComplete_mask <;> rfl
  | preemptOverdue b => apply execPreemptOverdue_mask <;> rfl
  | tollRefill => exact execTollRefill_mask _ rfl s t
  | tollReport => apply execTollReport_mask <;> rfl
  | skewWindowEnd => apply execSkewWindowEnd_mask <;> rfl
  | formerExpiry table => apply execFormerExpiry_mask <;> rfl
  | goneExpiry table row => apply execGoneExpiry_mask <;> rfl
  | provisionalProbe table row => apply execProvisionalProbe_mask <;> rfl
  | rowRead p => apply execRowRead_mask <;> rfl
  | versionProbe p => apply execVersionProbe_mask <;> rfl
  | row p => apply execRow_mask <;> rfl
  | current p => apply execCurrent_mask <;> rfl
  | forward p => apply execForward_mask <;> rfl
  | notOwner p => apply execNotOwner_mask <;> rfl
  | rowUpdate p => apply execRowUpdate_mask <;> rfl
  | merged p => apply execMerged_mask <;> rfl
  | stale p => apply execStale_mask <;> rfl
  | route p => apply execRoute_mask <;> rfl
  | rowOffer p => apply execRowOffer_mask <;> rfl
  | state p => apply execState_mask <;> rfl
  | moveConfirm p => apply execMoveConfirm_mask <;> rfl
  | query p => apply execQuery_mask <;> rfl
  | accept p => apply execAccept_mask <;> rfl
  | refuse p => apply execRefuse_mask <;> rfl
  | stored p => apply execStored_mask <;> rfl
  | held p => apply execHeld_mask <;> rfl
  | notHeld p => apply execNotHeld_mask <;> rfl
  | read p => apply execRead_mask <;> rfl
  | write p => apply execWrite_mask <;> rfl
  | fetchAdd p => apply execFetchAdd_mask <;> rfl
  | test p => apply execTest_mask <;> rfl
  | response p => apply execResponse_mask <;> rfl
  | packetForward port p => apply execPacketForward_mask <;> rfl
  | transactionTimeout tag => apply execTransactionTimeout_mask <;> rfl
  | tagQuarantineExpiry tag => apply execTagQuarantineExpiry_mask <;> rfl
  | heldRequestDiscard k => apply execHeldRequestDiscard_mask <;> rfl
  | data port flit mark => apply execData_mask <;> rfl
  | nak port flit => apply execNak_mask <;> rfl
  | credit port flit => apply execCredit_mask <;> rfl
  | idle port flit => apply execIdle_mask <;> rfl
  | linkInit port flit => apply execLinkInit_mask <;> rfl
  | replayTimeout port => apply execReplayTimeout_mask <;> rfl
  | pcsLock port => exact execPcsLock_mask _ rfl port s t
  | pcsLockLoss port => apply execPcsLockLoss_mask <;> rfl
  | retrainRelease port => exact execRetrainRelease_mask _ rfl port s t
  | arrive p => apply execArrive_mask <;> rfl
  | grant p => apply execGrant_mask <;> rfl
  | offer p => apply execOffer_mask <;> rfl
  | segment p => apply execSegment_mask <;> rfl
  | bellBarrier p => apply execBellBarrier_mask <;> rfl
  | scalar p => apply execScalar_mask <;> rfl
  | bellSeal p => apply execBellSeal_mask <;> rfl
  | abort p => apply execAbort_mask <;> rfl
  | abandon p => apply execAbandon_mask <;> rfl
  | collPiece p => apply execCollPiece_mask <;> rfl
  | pieceTimeout ctx => apply execPieceTimeout_mask <;> rfl
  | sealTimeout level seq => apply execSealTimeout_mask <;> rfl
  | bellResend k => apply execBellResend_mask <;> rfl
  | collLimitExpiry b k => apply execCollLimitExpiry_mask <;> rfl
  | powerOn => apply execPowerOn_mask <;> rfl
  | brownOut => apply execBrownOut_mask <;> rfl
  | pinReset => apply execPinReset_mask <;> rfl
  | watchdog => apply execWatchdog_mask <;> rfl
  | swReset data => apply execSwReset_mask <;> rfl
  | engReset => apply execEngReset_mask <;> rfl
  | clockFailure c => apply execClockFailure_mask <;> rfl
  | lockUp => apply execLockUp_mask <;> rfl
  | resetRelease strapMv => apply execResetRelease_mask <;> rfl
  | pllLock clock => exact execPllLock_mask _ rfl clock s t
  | monitorWindow clock count => apply execMonitorWindow_mask <;> rfl
  | memPortReady port => apply execMemPortReady_mask <;> rfl
  | ctrlParityError u => apply execCtrlParityError_mask <;> rfl
  | wdtKick data => exact execWdtKick_mask _ rfl data s t
  | isolate page => apply execIsolate_mask <;> rfl
  | plankIn page => exact execPlankIn_mask _ rfl page s t
  | resetReq page => apply execResetReq_mask <;> rfl
  | sectorReadComplete sector d => apply execSectorReadComplete_mask <;> rfl
  | sectorWriteResponse port err => apply execSectorWriteResponse_mask <;> rfl
  | hostReadData addr data err => apply execHostReadData_mask <;> rfl
  | hostWriteAck tag err => apply execHostWriteAck_mask <;> rfl
  | vectorUnmask v => apply execVectorUnmask_mask <;> rfl
  | imHoldRelease => apply execImHoldRelease_mask <;> rfl
  | configCommit page seq => apply execConfigCommit_mask <;> rfl
  | commitTakeEffect page => apply execCommitTakeEffect_mask <;> rfl
  | rowInitClearDone => apply execRowInitClearDone_mask <;> rfl
  | injectSram page data => apply execInjectSram_mask <;> rfl
  | injectSector data => apply execInjectSector_mask <;> rfl
  | injectTag data => apply execInjectTag_mask <;> rfl
  | injectFlitCrc data => apply execInjectFlitCrc_mask <;> rfl
  | injectPiece data => apply execInjectPiece_mask <;> rfl
  | injectCtrl page data => apply execInjectCtrl_mask <;> rfl
  | injectClock page data => apply execInjectClock_mask <;> rfl
  | keeperEnable => apply execKeeperEnable_mask <;> rfl
  | imemDataWrite data => apply execImemDataWrite_mask <;> rfl
  | imemDataRead => apply execImemDataRead_mask <;> rfl
  | peek data => apply execPeek_mask <;> rfl
  | peekComplete => apply execPeekComplete_mask <;> rfl
  | towpath dr => apply execTowpath_mask <;> rfl
  | idcode => exact execIdcode_mask _ rfl s t
  | bypass ir => exact execBypass_mask _ rfl ir s t
  | unmappedAccess addr we => apply execUnmappedAccess_mask <;> rfl
  | counterReadClear addr => apply execCounterReadClear_mask <;> rfl
  | registerWrite addr data => apply execRegisterWrite_mask <;> rfl
  | vbakLoss => apply execVbakLoss_mask <;> rfl
  | regionPllLockLoss r => apply execRegionPllLockLoss_mask <;> rfl
  | errWindowEnd => apply execErrWindowEnd_mask <;> rfl
  | w1cWrite addr data => apply execW1cWrite_mask <;> rfl
  | watchdogEnable data => apply execWatchdogEnable_mask <;> rfl
  | tapReset => exact execTapReset_mask _ rfl s t

/-- Settles O6: a command's frame is the mask of the parts that it may write. -/
theorem eachCommandKeepsWhatItDoesNotWrite : Obligations.EachCommandKeepsWhatItDoesNotWrite :=
  fun c s t _ hexec hp => same_of_mask (exec_mask c s t hexec) hp

end Sys2Proof.Machine
end

section
/-! SUPPORT. Reset events (R384 to R387): a source begins an event or joins it, and what an event that takes hold leaves. What the
reset unit and the TAP hold has no say in the flips that a reset cuts short (R189). -/

namespace Sys2Proof.Machine

open Sys2Proof

/-! ### Flips cut short -/

/-- A fold keeps what each of its steps keeps. -/
theorem State.foldl_keeps {α β : Type} (g : State → β) {f : State → α → State} (h : ∀ s x, g (f s x) = g s) (l : List α) (s : State) :
    g (l.foldl f s) = g s := by
  induction l generalizing s with
  | nil => rfl
  | cons x l ih => exact (ih _).trans (h s x)

section

variable {Q x : Nat} (hQ : 0 < Q) (herr : Q ≠ pERR) (hmem : Q ≠ pMEM) (hQ' : Q < 0xF1) (hx : x < 0x1000)
include hQ herr hmem hQ' hx

theorem State.reg_extWrite (s : State) (a : Nat) (bs : List Byte) (poison : Bool := false) : (s.extWrite a bs poison).reg Q x = s.reg Q x :=
  State.foldl_keeps (fun u => u.reg Q x) (fun u k => u.reg_writeTag a bs.length _ poison k hQ herr hmem hQ' hx) _ _

theorem State.reg_cutFlips (s : State) : s.cutFlips.reg Q x = s.reg Q x := by
  refine State.foldl_keeps (fun u => u.reg Q x) (fun u m => ?_) _ _
  split
  · exact State.foldl_keeps (fun u => u.reg Q x) (fun u a => State.reg_extWrite hQ herr hmem hQ' hx u _ _) _ _
  · rfl

end

/-- The state with the reset unit and the TAP as given. -/
def State.withSide (s : State) (r : ResetState) (q : Tap) : State := { s with rst := r, tap := q }

section

variable (s : State) (r : ResetState) (q : Tap)

theorem State.foldl_withSide {α : Type} {f : State → α → State} (h : ∀ s x, f (s.withSide r q) x = (f s x).withSide r q) (l : List α) :
    l.foldl f (s.withSide r q) = (l.foldl f s).withSide r q := by
  induction l generalizing s with
  | nil => rfl
  | cons x l ih => rw [List.foldl_cons, h, ih, List.foldl_cons]

@[simp] theorem State.reg_withSide (P o : Nat) : (s.withSide r q).reg P o = s.reg P o := (rfl)

@[simp] theorem State.cfg_withSide (P o : Nat) : (s.withSide r q).cfg P o = s.cfg P o := (rfl)

@[simp] theorem State.errStatus_withSide (P : Nat) : (s.withSide r q).errStatus P = s.errStatus P := (rfl)

@[simp] theorem State.aoUs_withSide : (s.withSide r q).aoUs = s.aoUs := (rfl)

@[simp] theorem State.setReg_withSide (P o : Nat) (v : Word) : (s.withSide r q).setReg P o v = (s.setReg P o v).withSide r q := (rfl)

@[simp] theorem State.count_withSide (P o n : Nat) : (s.withSide r q).count P o n = (s.count P o n).withSide r q := by
  unfold State.count
  split <;> rfl

@[simp] theorem State.raise_withSide (v : Nat) (tags : List Nat) : (s.withSide r q).raise v tags = (s.raise v tags).withSide r q := by
  have hheld : (s.withSide r q).irqHeld v = s.irqHeld v := rfl
  unfold State.raise State.raiseNow
  split
  · rw [hheld]
    split <;> rfl
  · rfl

@[simp] theorem State.flagged_withSide (P b : Nat) : (s.withSide r q).flagged P b = (s.flagged P b).withSide r q := by
  simp only [State.flagged]
  by_cases h : s.errStatus P = 0
  · rw [if_pos (s.errStatus_withSide r q P ▸ h), if_pos h]
    simp only [State.errStatus_withSide, State.aoUs_withSide, State.setReg_withSide, State.count_withSide]
  · rw [if_neg (s.errStatus_withSide r q P ▸ h), if_neg h]
    simp only [State.errStatus_withSide, State.setReg_withSide, State.count_withSide]

/-- An error event is its flag, and a message of ERR's vector where one is due (R415, R416). -/
theorem State.err_eq (P b : Nat) : s.err P b =
    if !bitOf (s.errStatus P) b && !bitOf (s.reg P oERR_MASK) b && bitOf (s.cfg pERR 0x108) 1 then
      (s.flagged P b).raise (fld (s.cfg pERR 0x108) 15 8)
    else s.flagged P b := rfl

@[simp] theorem State.err_withSide (P b : Nat) : (s.withSide r q).err P b = (s.err P b).withSide r q := by
  rw [State.err_eq, State.err_eq, State.errStatus_withSide, State.reg_withSide, State.cfg_withSide, State.flagged_withSide,
    State.raise_withSide]
  split <;> rfl

@[simp] theorem State.poisoning_withSide (P b : Nat) : (s.withSide r q).poisoning P b = (s.poisoning P b).withSide r q := by
  simp only [State.poisoning, State.count_withSide, State.err_withSide]

theorem State.writeTag_withSide (a n : Nat) (new : Tag) (poison : Bool) (k : Nat) :
    (s.withSide r q).writeTag a n new poison k = (s.writeTag a n new poison k).withSide r q := by
  have htag : (s.withSide r q).tag k = s.tag k := rfl
  have hport : (s.withSide r q).portOf k = s.portOf k := rfl
  have harmed : (s.withSide r q).armed = s.armed := rfl
  have hset : ∀ m, ({ s.withSide r q with armed := m } : State) = ({ s with armed := m } : State).withSide r q := fun _ => rfl
  have hnew : ∀ (u : State) (t : Tag), (u.withSide r q).setTag k t = (u.setTag k t).withSide r q := fun _ _ => rfl
  simp only [State.writeTag, htag, hport, harmed, hset]
  generalize takeFirst (fun x => x.1 == s.portOf k) s.armed.sector = x
  generalize (if new.kind = 0 then (none, s.armed.tag) else takeFirst (fun x => x == s.portOf k) s.armed.tag) = y
  obtain ⟨injT, restT⟩ := y
  obtain ⟨_ | ⟨p, _ | c⟩, rest⟩ := x <;> cases injT <;> simp [hnew]

theorem State.extWrite_withSide (a : Nat) (bs : List Byte) : (s.withSide r q).extWrite a bs = (s.extWrite a bs).withSide r q :=
  State.foldl_withSide { s with ext := Mem.write s.ext a bs } r q (fun s k => s.writeTag_withSide r q _ _ _ _ k) _

theorem State.invertActive_withSide (m a : Nat) : (s.withSide r q).invertActive m a = (s.invertActive m a).withSide r q := by
  have hbase : (s.withSide r q).dirBase m = s.dirBase m := rfl
  have haddr : (s.withSide r q).descAddr m a = s.descAddr m a := by rw [State.descAddr, hbase, State.descAddr]
  have hdesc : (s.withSide r q).desc m a = s.desc m a := by
    rw [State.desc, haddr, State.desc]
    rfl
  rw [State.invertActive, haddr, hdesc, State.extWrite_withSide, State.invertActive]

theorem State.cutFlips_withSide : (s.withSide r q).cutFlips = s.cutFlips.withSide r q := by
  refine State.foldl_withSide s r q (fun s m => ?_) _
  have hmooring : (s.withSide r q).mooring m = s.mooring m := rfl
  have hnow : (s.withSide r q).now = s.now := rfl
  rw [hmooring, hnow]
  split
  · exact State.foldl_withSide _ r q (fun s a => s.invertActive_withSide r q m a) _
  · rfl

end

/-! ### What a reset keeps -/

theorem State.foldl_fixed {α : Type} {f : State → α → State} {s : State} {l : List α} (h : ∀ x, x ∈ l → f s x = s) : l.foldl f s = s := by
  induction l with
  | nil => rfl
  | cons x l ih =>
    rw [List.foldl_cons, h x (List.mem_cons_self ..)]
    exact ih fun y hy => h y (List.mem_cons_of_mem _ hy)

/-- With no descriptor being rewritten there is nothing to cut short. -/
theorem State.cutFlips_of_settled {s : State} (h : ∀ m, m < 16 → (s.mooring m).rewriting = false) : s.cutFlips = s :=
  State.foldl_fixed fun m hm => by rw [h m (List.mem_range.1 hm)]; rfl

theorem State.cutFlips_noted (s : State) : Noted s s.cutFlips :=
  .foldl (fun s _ => .ite (.foldl (fun s _ => s.extWrite_noted _ _ _) _ _) (.refl s)) _ _

/-- The parts of the state that flips cut short may change. -/
theorem State.cutFlips_memoryMask (s : State) :
    s.cutFlips.mask { regs := true, ext := true, tags := true, hq := true, armed := true }
      = s.mask { regs := true, ext := true, tags := true, hq := true, armed := true } :=
  State.cutFlips_mask _ rfl rfl rfl rfl rfl s

/-- What a map reads as when only the entries of some keys are kept. -/
theorem SMap.get_filter_key {α : Type} (d : Nat → α) (p : Nat → Bool) (m : SMap α) (k : Nat) :
    SMap.get d (m.filter fun e => p e.1) k = if p k then SMap.get d m k else d k := by
  induction m with
  | nil => simp [SMap.get]
  | cons e m ih =>
    obtain ⟨i, v⟩ := e
    cases hi : p i with
    | true =>
      rw [List.filter_cons_of_pos (by exact hi)]
      by_cases hk : i = k
      · subst hk; simp [SMap.get, hi]
      · simp [SMap.get, hk, ih]
    | false =>
      rw [List.filter_cons_of_neg (by simp [hi]), ih]
      by_cases hk : i = k
      · subst hk; simp [hi]
      · simp [SMap.get, hk]

/-- The registers that a reset keeps, one by one (R387, R388). -/
theorem State.keptRegs_get (s : State) (a : Nat) : SMap.get regReset s.keptRegs a =
    if a = 0x1F18 then SMap.get regReset s.regs a &&& 0xFFF8F
    else if 0x1F00 ≤ a ∧ a ≤ 0x1F14 then SMap.get regReset s.regs a else regReset a := by
  rw [State.keptRegs, SMap.get_put, SMap.get_filter_key]
  split
  case isTrue h => rw [h]; rfl
  case isFalse => simp only [backupReg, Bool.and_eq_true, decide_eq_true_eq]

theorem State.keptRegs_cutFlips (s : State) (a : Nat) : SMap.get regReset s.cutFlips.keptRegs a = SMap.get regReset s.keptRegs a := by
  have hkept : ∀ o, 0xF00 ≤ o → o < 0x1000 → SMap.get regReset s.cutFlips.regs (0x1000 + o) = SMap.get regReset s.regs (0x1000 + o) :=
    fun o _ ho => State.reg_cutFlips (Q := pRST) (by decide) (by decide) (by decide) (by decide) ho s
  rw [State.keptRegs_get, State.keptRegs_get]
  split
  case isTrue h => rw [h]; rw [hkept 0xF18 (by decide) (by decide)]
  case isFalse =>
    split
    case isTrue h =>
      obtain ⟨o, rfl⟩ : ∃ o, a = 0x1000 + o := ⟨a - 0x1000, by omega⟩
      exact hkept o (by omega) (by omega)
    case isFalse => rfl

theorem State.drainHost_cutFlips (s : State) : s.cutFlips.drainHost = s.drainHost := by
  rw [State.drainHost, s.cutFlips_noted.hq, State.hostMem_of_mask s.cutFlips_memoryMask rfl, State.drainHost]

/-- A reset event with sources `r.sources` takes hold (R386, R387). -/
theorem State.takeHold_tookHold (s : State) {r : ResetState} (q : Tap) {full : Bool} (hvbak : r.vbakLost = s.rst.vbakLost)
    (hfull : (s.withSide r q).rst.sources.any (·.full) = full) : TookHold s (s.withSide r q).takeHold full := by
  have hcut := s.cutFlips_withSide r q
  have hregs : ∀ a, SMap.get regReset s.cutFlips.keptRegs a = _ := fun a => (s.keptRegs_cutFlips a).trans (s.keptRegs_get a)
  have hmask := s.cutFlips_memoryMask
  have himem : s.cutFlips.imem = s.imem := State.imem_of_mask hmask rfl
  have hhost : s.cutFlips.hostMem = s.hostMem := State.hostMem_of_mask hmask rfl
  have hdrain : s.cutFlips.drainHost = s.drainHost := s.drainHost_cutFlips
  have hao : s.cutFlips.aoUs = s.aoUs := State.aoUs_of_mask hmask rfl
  have hparams : s.cutFlips.params = s.params := State.params_of_mask hmask rfl
  have hsettled : (∀ m, m < 16 → (s.mooring m).rewriting = false) → s.cutFlips = s := State.cutFlips_of_settled
  unfold TookHold State.takeHold
  rw [hcut, hfull]
  generalize s.cutFlips = u at *
  cases full with
  | false =>
    refine ⟨rfl, rfl, rfl, rfl, rfl, rfl, hvbak, hregs, himem, nofun, fun _ => ⟨rfl, rfl⟩, fun _ h => ?_, fun _ => hdrain, nofun, rfl, rfl, rfl, rfl,
      rfl, rfl, rfl, rfl, rfl, rfl, rfl, rfl, rfl, rfl, rfl, rfl, rfl, rfl, hao, hparams⟩
    rw [hsettled h]
    exact ⟨rfl, rfl⟩
  | true =>
    refine ⟨rfl, rfl, rfl, rfl, rfl, rfl, hvbak, hregs, rfl, fun _ => ⟨rfl, rfl⟩, nofun, nofun, nofun, fun _ => hhost, rfl, rfl, rfl, rfl,
      rfl, rfl, rfl, rfl, rfl, rfl, rfl, rfl, rfl, rfl, rfl, rfl, rfl, rfl, hao, hparams⟩

/-! ### Sources (R384, R385) -/

theorem State.takeHold_sources (s : State) (r : ResetState) (q : Tap) : (s.withSide r q).takeHold.rst.sources = r.sources := by
  unfold State.takeHold
  rw [s.cutFlips_withSide]
  rfl

theorem State.takeHold_tap (s : State) (r : ResetState) (q : Tap) :
    (s.withSide r q).takeHold.tap = if r.sources.any (·.full) then {} else q := by
  unfold State.takeHold
  rw [s.cutFlips_withSide]
  rfl

/-- The sources of an event that one more source joins. -/
def ResetState.join (r : ResetState) (src : ResetSource) : List ResetSource :=
  if r.sources.contains src then r.sources else r.sources ++ [src]

theorem ResetState.mem_join (r : ResetState) (src : ResetSource) : src ∈ r.join src := by
  unfold ResetState.join
  split
  case isTrue h => exact List.contains_iff_mem.1 h
  case isFalse => exact List.mem_append_right _ (List.mem_singleton_self _)

section

variable (s : State) {r : ResetState} (q : Tap) (src : ResetSource)

theorem State.resetBy_begins (h : r.active = false) :
    (s.withSide r q).resetBy src = (s.withSide { r with active := true, sources := [src] } q).takeHold :=
  if_neg (by rw [State.withSide, h]; decide)

theorem State.resetBy_joins (h : r.active = true) : (s.withSide r q).resetBy src =
    if src.full && !r.full then (s.withSide { r with sources := r.join src } q).takeHold else s.withSide { r with sources := r.join src } q :=
  if_pos h

/-- The state of a reset source's event, before it is asked whether it makes a warm event full. -/
theorem State.resetBy_active_spec (h : r.active = true) (hvbak : r.vbakLost = s.rst.vbakLost) :
    ((s.withSide r q).resetBy src).rst.active = true ∧ ((s.withSide r q).resetBy src).rst.sources = r.join src
      ∧ (src.full = true → r.full = false → TookHold s ((s.withSide r q).resetBy src) true ∧ ((s.withSide r q).resetBy src).tap = {})
      ∧ (src.full = false ∨ r.full = true → (s.withSide r q).resetBy src = s.withSide { r with sources := r.join src } q) := by
  rw [s.resetBy_joins q src h]
  by_cases hnew : (src.full && !r.full) = true
  · rw [if_pos hnew]
    simp only [Bool.and_eq_true, Bool.not_eq_true'] at hnew
    obtain ⟨hfull, hwarm⟩ := hnew
    have hany : (r.join src).any (·.full) = true := List.any_eq_true.2 ⟨src, r.mem_join src, hfull⟩
    have hheld := s.takeHold_tookHold (r := { r with sources := r.join src }) q hvbak hany
    refine ⟨hheld.1, s.takeHold_sources _ q, fun _ _ => ⟨hheld, ?_⟩, fun hno => ?_⟩
    · rw [State.takeHold_tap, if_pos hany]
    · rw [hfull, hwarm] at hno
      exact absurd hno (by decide)
  · rw [if_neg hnew]
    refine ⟨h, rfl, fun hfull hwarm => absurd (by rw [hfull, hwarm]; rfl) hnew, fun _ => rfl⟩

end

/-- The TAP as a command leaves it before its source asserts: ENG_RESET is an instruction of its own. -/
def tapAt (s : State) (c : Instr) : Tap := (if c = .engReset then { s with tap := { s.tap with ir := 0x21 } } else s : State).tap

theorem State.wdtExpired_iff (s : State) : s.wdtExpired = true ↔ Asserts s .watchdog .watchdog := by
  simp [State.wdtExpired, Asserts, and_assoc]

/-- A command by which a source asserts is that source's part in a reset event. -/
theorem Asserts.exec_eq {s : State} {c : Instr} {src : ResetSource} (h : Asserts s c src) :
    ∃ b, exec c s = .next ((s.withSide { s.rst with aoLost := b } (tapAt s c)).resetBy src) := by
  have always {c : Instr} (hc : exec c s = .next (s.resetBy src)) (htap : tapAt s c = s.tap) :
      ∃ b, exec c s = .next ((s.withSide { s.rst with aoLost := b } (tapAt s c)).resetBy src) := ⟨s.rst.aoLost, by rw [hc, htap]; rfl⟩
  obtain ⟨rfl, rfl⟩ | ⟨rfl, rfl⟩ | ⟨rfl, rfl⟩ | ⟨rfl, rfl⟩ | ⟨rfl, rfl, hdue⟩ | ⟨w, rfl, rfl, hlive, hkey, hgo⟩ | ⟨k, rfl, rfl, hk⟩ | ⟨rfl, rfl, hlive, hruns⟩ := h
  · exact always rfl rfl
  · exact always rfl rfl
  · exact always rfl rfl
  · exact ⟨s.rst.aoLost, rfl⟩
  · have hexpired : s.wdtExpired = true := s.wdtExpired_iff.2 (.inr (.inr (.inr (.inr (.inl ⟨rfl, rfl, hdue⟩)))))
    exact always (by rw [exec, execWatchdog, if_pos hexpired]) rfl
  · refine always ?_ rfl
    have hsw : s.swReset w = s.resetBy .software := if_pos (by simp [hkey, hgo])
    rw [exec, execSwReset, State.always_live hlive, hsw]
  · by_cases hao : k = .aoClk
    · refine ⟨true, ?_⟩
      rw [exec, execClockFailure, if_pos hk, if_pos hao]
      rfl
    · refine always ?_ rfl
      rw [exec, execClockFailure, if_pos hk, if_neg hao]
  · refine always ?_ rfl
    rw [exec, execLockUp, if_pos (by simp [hlive, State.keeperRuns, hruns])]

/-- Settles O51: each command that asserts is a source's part in an event; the others find no source. -/
theorem resetSourcesTakeHold : Obligations.ResetSourcesTakeHold := by
  refine ⟨fun c src s h => ?_, fun w s h => ?_, fun s h => ?_, fun k s h => ?_, fun s h => ?_⟩
  · obtain ⟨b, hexec⟩ := h.exec_eq
    refine ⟨fun hidle => ⟨_, hexec, ?_⟩, fun hactive => ⟨_, hexec, ?_⟩⟩
    · rw [s.resetBy_begins (tapAt s c) src (r := { s.rst with aoLost := b }) hidle]
      refine ⟨s.takeHold_sources _ _, s.takeHold_tookHold _ rfl (by simp [State.withSide]), ?_⟩
      rw [State.takeHold_tap, List.any_cons, List.any_nil, Bool.or_false]
      rfl
    · obtain ⟨hact, hsrc, hfull, hkeep⟩ := s.resetBy_active_spec (tapAt s c) src (r := { s.rst with aoLost := b }) hactive rfl
      refine ⟨hact, hsrc, hfull, fun hno => ?_⟩
      rw [hkeep hno]
      exact ⟨rfl, rfl, rfl, rfl, rfl⟩
  · have hsame : s.swReset w = s := if_neg (by simpa [or_iff_not_imp_left] using h)
    rw [exec, execSwReset, State.always, hsame, ite_self]
  · rw [exec, execWatchdog, if_neg (s.wdtExpired_iff.not.2 h)]
  · rw [exec, execClockFailure, if_neg (by simp [h])]
  · rw [exec, execLockUp, if_neg]
    simpa [Asserts, State.keeperRuns] using h

end Sys2Proof.Machine
end

section
/-! SUPPORT. The release of a reset event (R385, R388, R390, R399): the sources' counters in the backup domain, the cause register, and
the strap's conversion. -/

namespace Sys2Proof.Machine

open Sys2Proof

/-! ### Numbers -/

theorem testBit_ofBits (l : List Nat) (i : Nat) : (ofBits l).testBit i = l.contains i := by
  have hfold : ∀ a : Nat, (l.foldl (fun a i => a ||| 2 ^ i) a).testBit i = (a.testBit i || l.contains i) := by
    induction l with
    | nil => intro a; simp
    | cons k l ih =>
      intro a
      rw [List.foldl_cons, ih, Nat.testBit_or, List.contains_cons, Bool.or_assoc]
      congr 2
      by_cases h : i = k
      · subst h; simp [Nat.testBit_two_pow_self]
      · simp [h, Nat.testBit_two_pow_of_ne (Ne.symm h)]
  rw [ofBits, hfold, Nat.zero_testBit, Bool.false_or]

theorem ofBits_lt {l : List Nat} {n : Nat} (h : ∀ i, i ∈ l → i < n) : ofBits l < 2 ^ n := by
  refine Nat.lt_pow_two_of_testBit _ fun i hi => ?_
  rw [testBit_ofBits, List.contains_eq_mem, decide_eq_false]
  exact fun hmem => absurd (h i hmem) (by omega)

theorem nbit_eq_testBit (w i : Nat) : nbit w i = w.testBit i := by
  rw [nbit, Nat.testBit_eq_decide_div_mod_eq]
  exact beq_eq_decide _ _

/-- One half of a word set, and its two halves as read after. -/
theorem nfld_setFld_half {w : Nat} (v : Nat) {h k : Nat} (hw : w < 2 ^ 32) (hh : h < 2) (hk : k < 2) :
    nfld (setFld w (16 * h + 15) (16 * h) v % 2 ^ 32) (16 * k + 15) (16 * k)
      = if k = h then v % 2 ^ 16 else nfld w (16 * k + 15) (16 * k) := by
  obtain rfl | rfl : h = 0 ∨ h = 1 := by omega
  all_goals
    obtain rfl | rfl : k = 0 ∨ k = 1 := by omega
    all_goals
      simp [nfld, setFld]
      omega

/-! ### The counters of the sources (R399) -/

/-- Two sources share each counter register, one to a half. -/
theorem ResetSource.counter_eq (x : ResetSource) : x.counter = (0xF04 + 4 * (x.cause / 2), 16 * (x.cause % 2)) := by
  cases x <;> rfl

theorem ResetSource.cause_lt (x : ResetSource) : x.cause < 8 := by
  cases x <;> decide

/-- The source with a bit of LAST_CAUSE. -/
def ResetSource.ofCause (k : Nat) : ResetSource :=
  [.powerOn, .brownOut, .pin, .watchdog, .software, .debug, .clkFail, .lockUp].getD k .powerOn

theorem ResetSource.cause_injective : Function.Injective ResetSource.cause :=
  Function.LeftInverse.injective (g := ResetSource.ofCause) fun x => by cases x <;> rfl

/-- A source's counter. -/
def State.resets (s : State) (x : ResetSource) : Nat := nfld (s.regN pRST x.counter.1) (x.counter.2 + 15) x.counter.2

/-- A source counts. -/
def State.countReset (s : State) (x : ResetSource) : State :=
  s.setRegN pRST x.counter.1 (setFld (s.regN pRST x.counter.1) (x.counter.2 + 15) x.counter.2 (satAdd 16 (s.resets x) 1))

theorem State.resets_countReset (s : State) (x y : ResetSource) :
    (s.countReset x).resets y = if y = x then satAdd 16 (s.resets y) 1 else s.resets y := by
  have hcause : y = x ↔ y.cause / 2 = x.cause / 2 ∧ y.cause % 2 = x.cause % 2 :=
    ResetSource.cause_injective.eq_iff.symm.trans (by omega)
  have hword (o : Nat) : s.regN pRST o < 2 ^ 32 := (s.reg pRST o).isLt
  simp only [State.resets, State.countReset, x.counter_eq, y.counter_eq]
  by_cases hreg : y.cause / 2 = x.cause / 2
  · rw [hreg, State.regN, State.setRegN, State.reg_setReg_self, BitVec.toNat_ofNat,
      nfld_setFld_half _ (hword _) (Nat.mod_lt _ (by decide)) (Nat.mod_lt _ (by decide))]
    by_cases hhalf : y.cause % 2 = x.cause % 2
    · rw [if_pos hhalf, if_pos (hcause.2 ⟨hreg, hhalf⟩), hhalf, Nat.mod_eq_of_lt (by unfold satAdd; omega)]
    · rw [if_neg hhalf, if_neg fun h => hhalf (hcause.1 h).2]
  · rw [if_neg fun h => hreg (hcause.1 h).1]
    simp only [State.regN, State.setRegN]
    rw [State.reg_setReg_page _ _ _ (by omega)]

/-- A saturating counter advanced twice. -/
theorem satAdd_satAdd (n a b c : Nat) : satAdd n (satAdd n a b) c = satAdd n a (b + c) := by
  unfold satAdd
  omega

theorem State.foldl_countReset_resets (l : List ResetSource) (s : State) (y : ResetSource) :
    (l.foldl State.countReset s).resets y = satAdd 16 (s.resets y) (l.count y) := by
  induction l generalizing s with
  | nil =>
    have hlt : s.resets y < 2 ^ 16 := by
      rw [State.resets, y.counter_eq, nfld]
      exact lt_of_lt_of_eq (Nat.mod_lt _ (by positivity)) (by congr 1; omega)
    rw [List.foldl_nil, List.count_nil, satAdd]
    omega
  | cons x l ih =>
    rw [List.foldl_cons, ih, State.resets_countReset, List.count_cons]
    by_cases h : y = x
    · subst h
      simp only [if_true, beq_self_eq_true, satAdd_satAdd]
      rw [Nat.add_comm]
    · simp [h, Ne.symm h]

theorem State.foldl_countReset_reg (l : List ResetSource) (s : State) {o : Nat} (h : ∀ x : ResetSource, o ≠ x.counter.1) :
    (l.foldl State.countReset s).reg pRST o = s.reg pRST o :=
  State.foldl_keeps (fun u => u.reg pRST o) (fun _ x => State.reg_setReg_page _ _ _ (h x)) l s

/-! ### The record and the strap -/

/-- The state with every source of the event counted. -/
def State.countResets (s : State) : State := s.rst.sources.foldl State.countReset s

/-- What LAST_CAUSE records of an event (R399). -/
def ResetState.causes (r : ResetState) : Nat := ofBits (r.sources.map (·.cause)) + 256 * bit r.vbakLost

theorem State.recordEvent_eq (s : State) : s.recordEvent =
    (s.countResets.setRegN pRST 0xF00 s.rst.causes).setRegN pRST 0xF14 (s.countResets.regN pRST 0xF14 + 1) := rfl

theorem ResetState.causes_spec (r : ResetState) : r.causes < 512 ∧ nbit r.causes 8 = r.vbakLost
    ∧ ∀ x : ResetSource, nbit r.causes x.cause = r.sources.contains x := by
  have hlt : ofBits (r.sources.map (·.cause)) < 2 ^ 8 := ofBits_lt fun i hi => by
    obtain ⟨x, -, rfl⟩ := List.mem_map.1 hi
    exact x.cause_lt
  have hbit : bit r.vbakLost = 0 ∧ r.vbakLost = false ∨ bit r.vbakLost = 1 ∧ r.vbakLost = true := by
    cases r.vbakLost <;> simp [bit]
  have hhigh : r.causes = 2 ^ 8 * bit r.vbakLost + ofBits (r.sources.map (·.cause)) := by rw [ResetState.causes]; omega
  refine ⟨by omega, ?_, fun x => ?_⟩
  · rw [nbit]
    rcases hbit with ⟨hb, hv⟩ | ⟨hb, hv⟩ <;> rw [hv, hhigh, hb, beq_eq_decide] <;> simp <;> omega
  · rw [nbit_eq_testBit, hhigh, Nat.testBit_two_pow_mul_add _ hlt, if_pos x.cause_lt, testBit_ofBits, Bool.eq_iff_iff,
      List.contains_iff_mem, List.contains_iff_mem, List.mem_map_of_injective ResetSource.cause_injective]

theorem State.recordEvent_reg (s : State) {o : Nat} (h1 : o ≠ 0xF00) (h2 : o ≠ 0xF14) : s.recordEvent.reg pRST o = s.countResets.reg pRST o := by
  rw [State.recordEvent_eq, State.setRegN, State.reg_setReg_page _ _ _ h2, State.setRegN, State.reg_setReg_page _ _ _ h1]

/-- The registers of RST that the release leaves as they stand once the event is recorded. -/
theorem State.convertStrap_reg (s : State) (mv : Nat) {o : Nat} (h : o ≠ 0xF18) (hlo : oERR_COUNT < o) (hhi : o < 0x1000) :
    (s.convertStrap mv).reg pRST o = s.reg pRST o := by
  unfold State.convertStrap State.setRegN
  split
  · rw [State.reg_err_same _ 0 (by decide) (by decide) hlo hhi, State.reg_setReg_page _ _ _ h]
  · rw [State.reg_setReg_page _ _ _ h]

/-- The strap as it reads once it is converted (R390). -/
theorem State.convertStrap_spec (s : State) (mv : Nat) :
    (mv < 800 → (s.convertStrap mv).regN pRST 0xF18 = mv * 256 + mv / 50)
      ∧ (800 ≤ mv → (s.convertStrap mv).regN pRST 0xF18 = min mv 4095 * 256 + 128 ∧ bitOf ((s.convertStrap mv).errStatus pRST) 0 = true) := by
  unfold State.convertStrap
  refine ⟨fun hlow => ?_, fun hhigh => ?_⟩
  · rw [if_neg (by omega), State.regN, State.setRegN, State.reg_setReg_self, BitVec.toNat_ofNat]
    omega
  · rw [if_pos hhigh]
    refine ⟨?_, State.bitOf_errStatus_err _ (by decide) (by decide) (by decide)⟩
    rw [State.regN, State.reg_err_same _ 0 (by decide) (by decide) (by decide) (by decide), State.setRegN, State.reg_setReg_self, BitVec.toNat_ofNat]
    omega

/-! ### The release -/

/-- The classes of reset that sample the strap anew (R390). -/
def ResetState.resamples (r : ResetState) : Bool := r.sources.any fun x => x.full || x == .pin

/-- The event recorded, and the strap converted where its class resamples it. -/
def State.strapped (s : State) (mv : Nat) : State := if s.rst.resamples then s.recordEvent.convertStrap mv else s.recordEvent

theorem State.strapped_mask (s : State) (mv : Nat) : (s.strapped mv).mask { regs := true, hq := true } = s.mask { regs := true, hq := true } := by
  rw [State.strapped, State.mask_ite, State.convertStrap_mask _ rfl rfl, State.recordEvent_mask _ rfl, ite_self]

/-- The towpath live at step 3 (R392). -/
def State.relive (s : State) : State :=
  { s with rst := { s.rst with active := false, sources := [], vbakLost := false, aoLost := false, step := 3 } }

theorem State.releaseReset_eq (s : State) (mv : Nat) : s.releaseReset mv =
    if (s.strapped mv).relive.params.ok then (s.strapped mv).relive else (s.strapped mv).relive.err pGLB 2 := rfl

theorem State.releaseReset_reg (s : State) (mv : Nat) {o : Nat} (ho : o < 0x1000) : (s.releaseReset mv).reg pRST o = (s.strapped mv).reg pRST o := by
  rw [State.releaseReset_eq]
  split
  · rfl
  · exact State.reg_err_page _ 2 (by decide) (by decide) (by decide) ho

theorem State.releaseReset_rst (s : State) (mv : Nat) : (s.releaseReset mv).rst =
    { s.rst with active := false, sources := [], vbakLost := false, aoLost := false, step := 3 } := by
  have hrst : (s.strapped mv).rst = s.rst := State.rst_of_mask (s.strapped_mask mv) rfl
  rw [← hrst, State.releaseReset_eq]
  split
  · rfl
  · exact State.rst_of_mask (M := { regs := true, hq := true }) (State.err_mask _ rfl rfl _ pGLB 2) rfl

/-- The registers of RST that the strap does not concern, after a release. -/
theorem State.releaseReset_regN (s : State) (mv : Nat) {o : Nat} (h : o ≠ 0xF18) (hlo : oERR_COUNT < o) (hhi : o < 0x1000) :
    (s.releaseReset mv).regN pRST o = s.recordEvent.regN pRST o := by
  rw [State.regN, State.releaseReset_reg _ _ hhi, State.strapped]
  split
  · rw [State.convertStrap_reg _ _ h hlo hhi, State.regN]
  · rfl

theorem State.releaseReset_resets (s : State) (mv : Nat) (x : ResetSource) :
    (s.releaseReset mv).resets x = satAdd 16 (s.resets x) (s.rst.sources.count x) := by
  have hlt := x.cause_lt
  have hreg : (s.releaseReset mv).regN pRST x.counter.1 = s.countResets.regN pRST x.counter.1 := by
    rw [x.counter_eq, s.releaseReset_regN mv (by omega) (by simp only [oERR_COUNT]; omega) (by omega), State.regN,
      s.recordEvent_reg (by omega) (by omega), State.regN]
  rw [State.resets, hreg]
  exact State.foldl_countReset_resets _ s x

theorem State.countResets_reg (s : State) {o : Nat} (h : o < 0xF04 ∨ 0xF10 < o) : s.countResets.reg pRST o = s.reg pRST o :=
  State.foldl_countReset_reg _ s fun x => by
    have hlt := x.cause_lt
    rw [x.counter_eq]
    simp only []
    omega

theorem ResetState.resamples_iff (r : ResetState) :
    r.resamples = true ↔ .powerOn ∈ r.sources ∨ .brownOut ∈ r.sources ∨ .pin ∈ r.sources := by
  have hclass (x : ResetSource) : (x.full || x == .pin) = true ↔ x = .powerOn ∨ x = .brownOut ∨ x = .pin := by cases x <;> decide
  simp only [ResetState.resamples, List.any_eq_true, hclass]
  constructor
  · rintro ⟨x, hx, rfl | rfl | rfl⟩
    · exact .inl hx
    · exact .inr (.inl hx)
    · exact .inr (.inr hx)
  · rintro (h | h | h)
    · exact ⟨_, h, .inl rfl⟩
    · exact ⟨_, h, .inr (.inl rfl)⟩
    · exact ⟨_, h, .inr (.inr rfl)⟩

/-- VBAK_LOSS returns the backup registers to zero (R388). -/
theorem State.loseVbak_get (s : State) (a : Nat) : SMap.get regReset s.loseVbak.regs a =
    if 0x1F00 ≤ a ∧ a ≤ 0x1F14 then regReset a else SMap.get regReset s.regs a := by
  rw [State.loseVbak, SMap.get_filter_key regReset (fun k => !backupReg k)]
  simp only [backupReg, Bool.not_eq_true', Bool.and_eq_false_iff, decide_eq_false_iff_not, ← not_and_or, ite_not]

theorem State.releaseReset_causes (s : State) (mv : Nat) : (s.releaseReset mv).regN pRST 0xF00 = s.rst.causes := by
  obtain ⟨hlt, -⟩ := s.rst.causes_spec
  rw [s.releaseReset_regN mv (by decide) (by decide) (by decide), State.recordEvent_eq, State.setRegN, State.regN,
    State.reg_setReg_page _ _ _ (by decide), State.setRegN, State.reg_setReg_self, BitVec.toNat_ofNat]
  omega

theorem State.releaseReset_total (s : State) (mv : Nat) : (s.releaseReset mv).regN pRST 0xF14 = (s.regN pRST 0xF14 + 1) % 2 ^ 32 := by
  rw [s.releaseReset_regN mv (by decide) (by decide) (by decide), State.recordEvent_eq, State.setRegN, State.regN, State.reg_setReg_self,
    BitVec.toNat_ofNat, State.regN, s.countResets_reg (.inr (by decide)), State.regN]

/-- Settles O52: the event is recorded, then the strap is converted where its class resamples it. -/
theorem releaseRecordsTheEvent : Obligations.ReleaseRecordsTheEvent := by
  refine ⟨fun mv s hactive => ?_, fun mv s hidle => ?_, fun s => ⟨_, rfl, rfl, s.loseVbak_get⟩⟩
  · have hrst := s.releaseReset_rst mv
    have hcauses := s.releaseReset_causes mv
    obtain ⟨hcause, hvbak, hsource⟩ := s.rst.causes_spec
    have hkept := State.releaseReset_mask { rst := true, regs := true, hq := true } rfl rfl rfl s mv
    refine ⟨s.releaseReset mv, by rw [exec, execResetRelease, if_pos hactive], by rw [hrst], by rw [hrst], by rw [hrst], by rw [hrst],
      by rw [hcauses]; exact hcause, by rw [hcauses]; exact hvbak, fun x => ⟨by rw [hcauses]; exact hsource x, s.releaseReset_resets mv x⟩,
      s.releaseReset_total mv, fun h => ?_, fun h1 h2 h3 => ?_, State.ext_of_mask hkept rfl, State.imem_of_mask hkept rfl,
      State.tap_of_mask hkept rfl⟩
    · obtain ⟨hlow, hhigh⟩ := s.recordEvent.convertStrap_spec mv
      have hstrap : s.strapped mv = s.recordEvent.convertStrap mv := if_pos (s.rst.resamples_iff.2 h)
      rw [State.regN, State.errStatus, s.releaseReset_reg mv (by decide), s.releaseReset_reg mv (by decide), hstrap]
      exact ⟨hlow, hhigh⟩
    · have hstrap : s.strapped mv = s.recordEvent := if_neg (by simp [s.rst.resamples_iff, h1, h2, h3])
      rw [s.releaseReset_reg mv (by decide), hstrap, s.recordEvent_reg (by decide) (by decide), s.countResets_reg (.inr (by decide))]
  · rw [exec, execResetRelease, if_neg (by simp [hidle])]

end Sys2Proof.Machine
end

section
/-! SUPPORT. The TAP: the bits that TOWPATH captures, and the register window it shares with the host's port. -/

namespace Sys2Proof.Machine

open Sys2Proof

/-- A field of 20 bits is the address of an access as the host port takes it. -/
theorem wordAddr_fld (dr : BitVec 64) : wordAddr (fld dr 51 32) = fld dr 51 32 / 4 * 4 :=
  congrArg (· / 4 * 4) (Nat.mod_eq_of_lt (BitVec.isLt _))

theorem bit_le_one (b : Bool) : bit b ≤ 1 := by cases b <;> decide

theorem bit_mod_two (b : Bool) : decide (bit b % 2 = 1) = b := by cases b <;> decide

/-- The captured register holds the three things side by side. -/
theorem Tap.toNat_capture (t : Tap) :
    t.capture.toNat = 2 ^ 63 * bit t.done + 2 ^ 62 * bit t.err + t.rdata.toNat := by
  have := t.rdata.isLt
  have hd := bit_le_one t.done
  have he := bit_le_one t.err
  simp only [Tap.capture, BitVec.toNat_ofNat]
  exact Nat.mod_eq_of_lt (by omega)

theorem Tap.bitOf_capture_done (t : Tap) : bitOf t.capture 63 = t.done := by
  have hr := t.rdata.isLt
  have he := bit_le_one t.err
  have h : (2 ^ 63 * bit t.done + 2 ^ 62 * bit t.err + t.rdata.toNat) / 2 ^ 63 = bit t.done := by omega
  rw [bitOf, BitVec.getLsbD, Nat.testBit_eq_decide_div_mod_eq, t.toNat_capture, h, bit_mod_two]

theorem Tap.bitOf_capture_err (t : Tap) : bitOf t.capture 62 = t.err := by
  have hr := t.rdata.isLt
  have he := bit_le_one t.err
  have h : (2 ^ 63 * bit t.done + 2 ^ 62 * bit t.err + t.rdata.toNat) / 2 ^ 62 % 2 = bit t.err % 2 := by omega
  rw [bitOf, BitVec.getLsbD, Nat.testBit_eq_decide_div_mod_eq, t.toNat_capture, h, bit_mod_two]

theorem Tap.capture_data (t : Tap) : t.capture.extractLsb' 0 32 = t.rdata := by
  have hr := t.rdata.isLt
  apply BitVec.eq_of_toNat_eq
  rw [BitVec.extractLsb'_toNat, t.toNat_capture]
  omega

/-- A field of IDCODE's bits. -/
theorem fld_ofNat {n : Nat} (x hi lo : Nat) (h : x < 2 ^ n) : fld (BitVec.ofNat n x) hi lo = nfld x hi lo := by
  rw [fld, BitVec.extractLsb'_toNat, BitVec.toNat_ofNat, Nat.mod_eq_of_lt h, Nat.shiftRight_eq_div_pow, nfld]

theorem State.idcodeBits_lt (s : State) : s.idcodeBits < 2 ^ 64 := by
  unfold State.idcodeBits
  omega

/-- The TAP after an access: the result `t` and its capture. -/
def Tap.captured (t : Tap) : Tap := { t with dr := t.capture }

/-- One write of the TAP is the host port's write, with the answer captured. -/
theorem State.towpathDr_write (s : State) (dr : BitVec 64) (h : bitOf dr 63 = true) :
    ∃ (e : Bool) (v : State), s.hostRegWrite (fld dr 51 32) (dr.extractLsb' 0 32) = { v with port := { v.port with err := e } }
      ∧ s.towpathDr dr = { v with tap := Tap.captured { v.tap with ir := 0x20, done := true, err := e } } := by
  refine ⟨_, _, rfl, ?_⟩
  rw [State.towpathDr, if_pos h, ← wordAddr_fld]
  rfl

/-- One read of the TAP is the host port's read, with the answer captured. -/
theorem State.towpathDr_read (s : State) (dr : BitVec 64) (h : bitOf dr 63 = false) :
    ∃ (w : Word) (e : Bool) (v : State), s.hostRead (fld dr 51 32) = { v with port := { rdata := w, err := e } }
      ∧ s.towpathDr dr = { v with tap := Tap.captured { v.tap with ir := 0x20, done := true, err := e, rdata := w } } := by
  refine ⟨_, _, _, rfl, ?_⟩
  rw [State.towpathDr, if_neg (by simp [h]), ← wordAddr_fld]
  rfl

/-- Settles O60: one access of the TAP is one access of the host port, and what it captures reads back. -/
theorem theTapReachesTheWindow : Obligations.TheTapReachesTheWindow := by
  unfold Obligations.TheTapReachesTheWindow
  refine ⟨fun dr s h => ?_, fun dr s h => ?_, fun s => ⟨?_, fun ir h1 h2 h3 => ?_, fun ir h => ?_, rfl⟩⟩
  · obtain ⟨e, v, hu, ht⟩ := s.towpathDr_write dr h
    refine ⟨_, _, rfl, rfl, ?_⟩
    rw [hu, ht]
    exact ⟨rfl, rfl, rfl, rfl, Tap.bitOf_capture_done _, Tap.bitOf_capture_err _⟩
  · obtain ⟨w, e, v, hu, ht⟩ := s.towpathDr_read dr h
    refine ⟨_, _, rfl, rfl, ?_⟩
    rw [hu, ht]
    exact ⟨rfl, rfl, rfl, rfl, rfl, Tap.bitOf_capture_done _, Tap.bitOf_capture_err _, Tap.capture_data _⟩
  · have hm : s.params.jtagMfr % 2048 < 2048 := Nat.mod_lt _ (by decide)
    refine ⟨_, rfl, rfl, rfl, ?_, ?_, ?_, ?_, rfl⟩
    · rw [fld_ofNat _ _ _ s.idcodeBits_lt, nfld, State.idcodeBits]; omega
    · rw [fld_ofNat _ _ _ s.idcodeBits_lt, nfld, State.idcodeBits]; omega
    · rw [fld_ofNat _ _ _ s.idcodeBits_lt, nfld, State.idcodeBits]; omega
    · rw [bitOf, BitVec.getLsbD, Nat.testBit_eq_decide_div_mod_eq, BitVec.toNat_ofNat, Nat.mod_eq_of_lt s.idcodeBits_lt,
        State.idcodeBits]
      exact decide_eq_true (by omega)
  · have h : ¬((ir = 0x01 || ir = 0x20 || ir = 0x21) = true) := by
      simpa [and_assoc] using (⟨h1, h2, h3⟩ : ir ≠ 0x01 ∧ ir ≠ 0x20 ∧ ir ≠ 0x21)
    exact congrArg Host.Outcome.next (if_neg h)
  · have h : (ir = 0x01 || ir = 0x20 || ir = 0x21) = true := by simpa [or_assoc] using h
    exact congrArg Host.Outcome.next (if_pos h)

end Sys2Proof.Machine
end

section
/-! SUPPORT. The host register port: what an access of the window does at each kind of address. -/

namespace Sys2Proof.Machine

open Sys2Proof

/-- The register at `a` set to `m`, and the port's error bit down. -/
def State.stores (s : State) (a : Nat) (m : Word) : State :=
  { s with regs := SMap.put regReset s.regs a m, port := { s.port with err := false } }

/-- The port's error bit down. -/
def State.portOk (s : State) : State := { s with port := { s.port with err := false } }

/-! ### Which address is what -/

/-- A register of the table answers at its address. -/
theorem mapped_of_windowDef {a : Nat} {d : RegDef} (h : windowDef? a = some d) : unmapped a = false := by
  unfold windowDef? at h
  unfold unmapped
  by_cases ha : a < 0xA0000
  · rw [if_pos ha] at h
    split at h
    · next hp => simp [ha, hp]
    · cases h
  · rw [if_neg ha] at h
    unfold tableDef? at h
    split at h
    · next ht =>
      simp only [Bool.and_eq_true, decide_eq_true_eq] at ht
      simp; omega
    · split at h
      · next ht =>
        simp only [Bool.and_eq_true, decide_eq_true_eq] at ht
        simp; omega
      · cases h

/-- A register of a page is the page's own. -/
theorem regDef_of_windowDef {a : Nat} {d : RegDef} (h : windowDef? a = some d) (ha : a < 0xA0000) :
    regDef? (a / 0x1000) (a % 0x1000) = some d := by
  unfold windowDef? at h
  rw [if_pos ha] at h
  split at h
  · exact h
  · cases h

theorem page_ofs (a : Nat) : a / 0x1000 * 0x1000 + a % 0x1000 = a := by omega

theorem isW1c_of_windowDef {a : Nat} {d : RegDef} (h : windowDef? a = some d) (hd : d.acc = .w1c) : isW1c a = true := by
  simp [isW1c, h, hd]

/-! ### The port -/

theorem State.hostRegWrite_dead {s : State} (h : s.live = false) (addr : Nat) (w : Word) :
    s.hostRegWrite addr w = s.portOk := by
  have : s.towWrite (wordAddr addr) w = (false, s) := by rw [State.towWrite, if_pos (by simp [h])]
  rw [State.hostRegWrite, this]
  rfl

theorem State.hostRead_dead {s : State} (h : s.live = false) (addr : Nat) :
    s.hostRead addr = { s with port := { rdata := 0xFFFFFFFF, err := false } } := by
  have : s.towRead (wordAddr addr) = (0xFFFFFFFF, false, s) := by rw [State.towRead, if_pos (by simp [h])]
  rw [State.hostRead, this]

section
variable {s : State} {addr : Nat} (hl : s.live = true)
include hl

theorem State.hostRegWrite_unmapped (hu : unmapped (wordAddr addr) = true) (w : Word) :
    s.hostRegWrite addr w = { s.regErr with port := { s.port with err := true } } := by
  have : s.towWrite (wordAddr addr) w = (true, s.regErr) := by rw [State.towWrite, if_neg (by simp [hl]), if_pos hu]
  rw [State.hostRegWrite, this]
  rfl

theorem State.hostRead_unmapped (hu : unmapped (wordAddr addr) = true) :
    s.hostRead addr = { s.regErr with port := { rdata := 0, err := true } } := by
  have : s.towRead (wordAddr addr) = (0, true, s.regErr) := by rw [State.towRead, if_neg (by simp [hl]), if_pos hu]
  rw [State.hostRead, this]

theorem State.hostRead_mapped (hu : unmapped (wordAddr addr) = false) :
    s.hostRead addr = { s.afterRead (wordAddr addr) with port := { rdata := s.value (wordAddr addr), err := false } } := by
  have : s.towRead (wordAddr addr) = (s.value (wordAddr addr), false, s.afterRead (wordAddr addr)) := by
    rw [State.towRead, if_neg (by simp [hl]), if_neg (by simp [hu])]
  rw [State.hostRead, this]

theorem State.hostRegWrite_page (hu : unmapped (wordAddr addr) = false) (ha : wordAddr addr < 0xA0000) (w : Word) :
    s.hostRegWrite addr w = (s.pageWrite (wordAddr addr / 0x1000) (wordAddr addr % 0x1000) w).portOk := by
  have : s.towWrite (wordAddr addr) w = (false, s.pageWrite (wordAddr addr / 0x1000) (wordAddr addr % 0x1000) w) := by
    rw [State.towWrite, if_neg (by simp [hl]), if_neg (by simp [hu]), if_pos ha]
  rw [State.hostRegWrite, this]
  rfl

theorem State.hostRegWrite_table (hu : unmapped (wordAddr addr) = false) (ha : ¬ wordAddr addr < 0xA0000) (w : Word) :
    s.hostRegWrite addr w = (s.tableWrite (wordAddr addr) w).portOk := by
  have : s.towWrite (wordAddr addr) w = (false, s.tableWrite (wordAddr addr) w) := by
    rw [State.towWrite, if_neg (by simp [hl]), if_neg (by simp [hu]), if_neg ha]
  rw [State.hostRegWrite, this]
  rfl

end

/-! ### What a write does to its register -/

/-- A page's register that no command of its own writes is written as its row says. -/
theorem State.pageWrite_plain (s : State) {a : Nat} (ha : a < 0xA0000) (hp : plainReg a = true) (w : Word) :
    s.pageWrite (a / 0x1000) (a % 0x1000) w = s.plainWrite a w := by
  simp only [plainReg, Bool.or_eq_true, Bool.and_eq_true, decide_eq_true_eq, beq_iff_eq, Bool.not_eq_true',
    List.contains_eq_mem, decide_eq_false_iff_not, List.mem_cons, List.not_mem_nil, or_false, not_or] at hp
  obtain hp | ⟨⟨⟨-, hbank⟩, hctrl, herr, hinj⟩, h1, h2, h3, h4, h5, h6, h7, h8, h9, h10⟩ := hp
  · omega
  · have hno : ∀ page o, a ≠ page * 0x1000 + o → ¬(a / 0x1000 = page ∧ a % 0x1000 = o) := by
      rintro page o hne ⟨rfl, rfl⟩
      exact hne (page_ofs a).symm
    have g1 := hno pRST 0x060 h1
    have g2 := hno pRST 0x064 h2
    have g3 := hno pRST 0x068 h3
    have g4 := hno pRST 0x06C h4
    have g5 := hno _ _ h5
    have g6 := hno _ _ h6
    have g7 := hno _ _ h7
    have g8 := hno _ _ h8
    have g9 := hno _ _ h9
    have g10 := hno _ _ h10
    unfold State.pageWrite
    rw [hbank]
    have g910 : ¬(a / 0x1000 = pDBG ∧ (a % 0x1000 = 0x064 ∨ a % 0x1000 = 0x068) ∧ s.peeking = true) :=
      fun ⟨hd, ho, _⟩ => ho.elim (fun h => g9 ⟨hd, h⟩) fun h => g10 ⟨hd, h⟩
    simp only [hctrl, herr, hinj, if_false, Bool.and_eq_true, Bool.or_eq_true, decide_eq_true_eq, and_assoc,
      g1, g2, g3, g4, g5, g6, g7, g8, g910, page_ofs]

/-- A register of the table without a command of its own is written as its row says. -/
theorem State.hostRegWrite_plain {s : State} {addr : Nat} {d : RegDef} (hl : s.live = true)
    (hd : windowDef? (wordAddr addr) = some d) (hp : plainReg (wordAddr addr) = true) (w : Word) :
    s.hostRegWrite addr w = (s.plainWrite (wordAddr addr) w).portOk := by
  have hu := mapped_of_windowDef hd
  by_cases ha : wordAddr addr < 0xA0000
  · rw [State.hostRegWrite_page hl hu ha, s.pageWrite_plain ha hp]
  · have h12 : wordAddr addr % 16 ≠ 12 := by
      simp only [plainReg, Bool.or_eq_true, Bool.and_eq_true, decide_eq_true_eq, bne_iff_ne] at hp
      obtain ⟨-, h⟩ | ⟨⟨⟨h, -⟩, -⟩, -⟩ := hp
      · exact h
      · exact absurd h ha
    rw [State.hostRegWrite_table hl hu ha, State.tableWrite, if_neg (by simp [h12])]

theorem State.plainWrite_rw (s : State) {a : Nat} {d : RegDef} (hd : windowDef? a = some d) (hacc : d.acc = .rw) (w : Word) :
    s.plainWrite a w = s.maskWrite a d.mask w := by
  rw [State.plainWrite, hd]
  simp only [hacc]

theorem State.plainWrite_w1c (s : State) {a : Nat} {d : RegDef} (hd : windowDef? a = some d) (hacc : d.acc = .w1c) (w : Word) :
    s.plainWrite a w = s.w1c a d.mask w := by
  rw [State.plainWrite, hd]
  simp only [hacc]

theorem State.plainWrite_ro (s : State) {a : Nat} {d : RegDef} (hd : windowDef? a = some d) (hacc : d.acc = .ro) (w : Word) :
    s.plainWrite a w = s := by
  rw [State.plainWrite, hd]
  simp only [hacc]

/-- A write of ERR_STATUS clears the bits that the page's chapter names. -/
theorem State.pageWrite_errStatus (s : State) (page : Nat) (w : Word) : s.pageWrite page oERR_STATUS w = s.clearErr page w := rfl

/-- A field register is written through its bank. -/
theorem State.pageWrite_field (s : State) {page o b : Nat} {d : RegDef} (hlo : 0x100 ≤ o)
    (hb : bankOf o = some b) (hd : regDef? page o = some d) (w : Word) :
    s.pageWrite page o w = s.bankWrite page o b d.mask w := by
  have hseq : ¬((o = oCFG_SEQ_A || o = oCFG_SEQ_B) = true) := by
    have : oCFG_SEQ_A < 0x100 ∧ oCFG_SEQ_B < 0x100 := by decide
    simp; omega
  unfold State.pageWrite
  simp only [hb, hd, if_neg hseq]

/-- A bank is A or B. -/
theorem bankOf_le_one {o b : Nat} (h : bankOf o = some b) : b ≤ 1 := by
  unfold bankOf at h
  split at h
  · cases h; decide
  · split at h <;> cases h
    decide

/-- A field of the bank in force, or of a page whose commit is pending, is not written. -/
theorem State.bankWrite_closed (s : State) {page b : Nat} (hb : b ≤ 1)
    (h : b ≠ s.idleBank page ∨ s.commitPending page = true) (o mask : Nat) (w : Word) : s.bankWrite page o b mask w = s := by
  have h1 := bit_le_one (s.bankB page)
  have : b = bit (s.bankB page) ∨ s.commitPending page = true := h.imp_left fun h => by
    unfold State.idleBank at h; omega
  exact if_pos (by simpa using this)

/-- A field of the idle bank is written. -/
theorem State.bankWrite_open (s : State) {page b : Nat} (h : b = s.idleBank page) (hc : s.commitPending page = false)
    (o mask : Nat) (w : Word) : s.bankWrite page o b mask w = s.maskWrite (page * 0x1000 + o) mask w := by
  have h1 := bit_le_one (s.bankB page)
  have : b ≠ bit (s.bankB page) := by unfold State.idleBank at h; omega
  exact if_neg (by simp [this, hc])

/-! ### Accesses of a live towpath -/

section
variable {s : State} {addr : Nat} {d : RegDef} (hl : s.live = true)
include hl

theorem State.hostRegWrite_rw (hd : windowDef? (wordAddr addr) = some d) (hp : plainReg (wordAddr addr) = true)
    (hacc : d.acc = .rw) (w : Word) : s.hostRegWrite addr w = (s.maskWrite (wordAddr addr) d.mask w).portOk := by
  rw [State.hostRegWrite_plain hl hd hp, s.plainWrite_rw hd hacc]

theorem State.hostRegWrite_w1c (hd : windowDef? (wordAddr addr) = some d) (hp : plainReg (wordAddr addr) = true)
    (hacc : d.acc = .w1c) (w : Word) : s.hostRegWrite addr w = (s.w1c (wordAddr addr) d.mask w).portOk := by
  rw [State.hostRegWrite_plain hl hd hp, s.plainWrite_w1c hd hacc]

theorem State.hostRegWrite_ro (hd : windowDef? (wordAddr addr) = some d) (hp : plainReg (wordAddr addr) = true)
    (hacc : d.acc = .ro) (w : Word) : s.hostRegWrite addr w = s.portOk := by
  rw [State.hostRegWrite_plain hl hd hp, s.plainWrite_ro hd hacc]

theorem State.hostRegWrite_errStatus {page : Nat} (hp : page < 0xA0) (hex : pageExists page = true)
    (ha : wordAddr addr = page * 0x1000 + oERR_STATUS) (w : Word) : s.hostRegWrite addr w = (s.clearErr page w).portOk := by
  have ho : oERR_STATUS < 0x1000 := by decide
  have hlt : wordAddr addr < 0xA0000 := by omega
  have hpage : wordAddr addr / 0x1000 = page := by omega
  have hofs : wordAddr addr % 0x1000 = oERR_STATUS := by omega
  have hu : unmapped (wordAddr addr) = false := by simp [unmapped, hlt, hpage, hex]
  rw [State.hostRegWrite_page hl hu hlt, hpage, hofs, s.pageWrite_errStatus]

theorem State.hostRegWrite_field {b : Nat} (hd : windowDef? (wordAddr addr) = some d) (hlt : wordAddr addr < 0xA0000)
    (hlo : 0x100 ≤ wordAddr addr % 0x1000) (hb : bankOf (wordAddr addr % 0x1000) = some b) (w : Word) :
    s.hostRegWrite addr w
      = (s.bankWrite (wordAddr addr / 0x1000) (wordAddr addr % 0x1000) b d.mask w).portOk := by
  rw [State.hostRegWrite_page hl (mapped_of_windowDef hd) hlt, s.pageWrite_field hlo hb (regDef_of_windowDef hd hlt)]

theorem State.hostRead_counter (hd : windowDef? (wordAddr addr) = some d) (hacc : d.acc = .rc)
    (hp : plainCounter (wordAddr addr) = true) :
    s.hostRead addr = { s with regs := SMap.put regReset s.regs (wordAddr addr) 0,
                               port := { rdata := s.value (wordAddr addr), err := false } } := by
  have hclear : s.clearRead (wordAddr addr) = { s with regs := SMap.put regReset s.regs (wordAddr addr) 0 } := by
    simp only [plainCounter, Bool.and_eq_true, Bool.not_eq_true'] at hp
    obtain ⟨⟨h1, h2⟩, h3⟩ := hp
    simp only [beq_eq_decide] at h1 h2 h3
    simp only [State.clearRead, h1, h2, h3, State.setReg, page_ofs, Bool.false_eq_true, if_false]
  have hafter : s.afterRead (wordAddr addr) = s.clearRead (wordAddr addr) := if_pos (by simp [hd, hacc])
  rw [State.hostRead_mapped hl (mapped_of_windowDef hd), hafter, hclear]

theorem State.hostRead_other (hu : unmapped (wordAddr addr) = false)
    (hrc : ∀ d, windowDef? (wordAddr addr) = some d → d.acc ≠ .rc) (hk : wordAddr addr ≠ pKEEP * 0x1000 + 0x064) :
    s.hostRead addr = { s with port := { rdata := s.value (wordAddr addr), err := false } } := by
  have hnot : (windowDef? (wordAddr addr)).any (·.acc == .rc) = false := by
    simpa [Option.any_eq_false] using hrc
  have hafter : s.afterRead (wordAddr addr) = s := by
    rw [State.afterRead, if_neg (by simp [hnot]), if_neg (by simp [hk])]
  rw [State.hostRead_mapped hl hu, hafter]

end

/-- Settles O59: each kind of address answers as its equation above says. -/
theorem registersAreReadAndWritten : Obligations.RegistersAreReadAndWritten := by
  unfold Obligations.RegistersAreReadAndWritten
  refine ⟨fun addr w s hl => ?_, fun addr w s hl => ?_, fun addr w s h => ?_⟩
  · exact ⟨congrArg _ (s.hostRegWrite_dead hl addr w), congrArg _ (s.hostRead_dead hl addr)⟩
  · intro a bump stored old
    have hstored : ∀ m t, t = s.stores a m → stored m t := by
      rintro m t rfl
      exact ⟨rfl, rfl, rfl, fun x => SMap.get_put ..⟩
    refine ⟨fun hu => ?_, fun hu we => ?_, fun d hd hp => ⟨fun hacc => ?_, fun hacc => ?_, fun hacc => ?_⟩,
      fun page hpage hex ha => ?_, fun d b hd hlt hlo _ hb => ⟨fun hclosed => ?_, fun hidle hc => ?_⟩,
      fun d hd hacc hp => ?_, fun hu hrc hk => ?_⟩
    · have hwr : ∀ v, s.hostRegWrite addr v = { bump with port := { s.port with err := true } } :=
        fun v => State.hostRegWrite_unmapped hl hu v
      have hrd : s.hostRead addr = { bump with port := { rdata := 0, err := true } } := State.hostRead_unmapped hl hu
      have hun : ¬((!unmapped (wordAddr addr)) = true) := by simp [show unmapped (wordAddr addr) = true from hu]
      exact ⟨congrArg _ (hwr w), congrArg _ hrd, congrArg _ ((if_neg hun).trans (hwr 0)), congrArg _ ((if_neg hun).trans hrd)⟩
    · exact congrArg Host.Outcome.next (if_pos (by simp [show unmapped (wordAddr addr) = false from hu]))
    · exact ⟨_, rfl, hstored _ _ (State.hostRegWrite_rw hl hd hp hacc w)⟩
    · exact ⟨_, congrArg Host.Outcome.next (if_pos (isW1c_of_windowDef hd hacc)),
        hstored _ _ (State.hostRegWrite_w1c hl hd hp hacc w)⟩
    · exact congrArg Host.Outcome.next (State.hostRegWrite_ro hl hd hp hacc w)
    · refine ⟨_, rfl, hstored _ _ ((State.hostRegWrite_errStatus hl hpage hex ha w).trans ?_)⟩
      simp only [State.clearErr, State.setReg, State.errStatus, State.reg, State.stores, State.portOk, old, ha]
    · refine congrArg Host.Outcome.next ((State.hostRegWrite_field hl hd hlt hlo hb w).trans ?_)
      exact congrArg State.portOk (s.bankWrite_closed (bankOf_le_one hb) hclosed _ _ w)
    · refine ⟨_, rfl, hstored _ _ ((State.hostRegWrite_field hl hd hlt hlo hb w).trans ?_)⟩
      exact congrArg State.portOk ((s.bankWrite_open hidle hc _ _ w).trans (by rw [page_ofs]))
    · refine ⟨_, congrArg Host.Outcome.next (State.hostRead_counter hl hd hacc hp), rfl, ?_, fun x hx => ?_⟩
      · exact SMap.get_put_self ..
      · exact SMap.get_put_other _ _ _ _ _ hx
    · exact congrArg Host.Outcome.next (State.hostRead_other hl hu hrc hk)
  · exact congrArg Host.Outcome.next (if_neg (by simpa [wordAddr] using h))

end Sys2Proof.Machine
end

section
/-! SUPPORT. Host writes and interrupt messages: what one vector's message changes, what an acknowledge means to the messages
and the owner that waited for it, and that the host writes waiting stay what they are meanwhile. -/

namespace Sys2Proof.Machine

open Sys2Proof

/-! ### The vector table and the pending bits -/

/-- The message that vector `v` sends. -/
def State.message (s : State) (v : Nat) : Nat × BitVec (32 + 32) × Word := (v, s.vec v 4 ++ s.vec v 0, s.vec v 8)

theorem State.vec_setIrqPending (s : State) (v : Nat) (b : Bool) {u o : Nat} (hu : u < 256) (ho : o < 16) :
    (s.setIrqPending v b).vec u o = s.vec u o :=
  SMap.get_put_other _ _ _ _ _ (by omega)

theorem State.vec_sendIrq (s : State) (v u o : Nat) : (s.sendIrq v).vec u o = s.vec u o :=
  SMap.get_put_other _ _ _ _ _ (by simp only [pGLB]; omega)

theorem State.irqPending_sendIrq (s : State) (v u : Nat) : (s.sendIrq v).irqPending u = s.irqPending u :=
  congrArg (bitOf · (u % 32)) (SMap.get_put_other _ _ _ _ _ (by simp only [pGLB]; omega))

theorem State.irqPending_setIrqPending (s : State) (v u : Nat) (b : Bool) :
    (s.setIrqPending v b).irqPending u = if u = v then b else s.irqPending u := by
  unfold State.irqPending State.setIrqPending
  by_cases hw : u / 32 = v / 32
  · have hu : u % 32 < 32 := Nat.mod_lt _ (by decide)
    have hbit : (BitVec.ofNat 32 (2 ^ (v % 32))).getLsbD (u % 32) = decide (u = v) := by
      rw [BitVec.getLsbD_ofNat, Nat.testBit_two_pow, decide_eq_true hu, Bool.true_and]
      exact decide_eq_decide.2 (by omega)
    simp only [hw, SMap.get_put_self, bitOf]
    cases b
    · simp only [Bool.false_eq_true, if_false, BitVec.getLsbD_and, BitVec.getLsbD_not, hbit]
      by_cases huv : u = v <;> simp [huv, hu]
    · simp only [if_true, BitVec.getLsbD_or, hbit]
      by_cases huv : u = v <;> simp [huv]
  · have huv : u ≠ v := fun h => hw (by rw [h])
    rw [if_neg huv]
    simp only
    rw [SMap.get_put_other _ _ _ _ _ (by omega)]

theorem State.sendIrq_hq (s : State) (v : Nat) :
    (s.sendIrq v).hq = { s.hq with messages := s.hq.messages ++ [s.message v] } := State.count_hq ..

/-- A message sent counts in IRQ_SENT. -/
theorem State.sendIrq_sent (s : State) (v : Nat) : (s.sendIrq v).regN pGLB 0xF8C = satAdd 32 (s.regN pGLB 0xF8C) 1 :=
  State.regN_count_self ..

theorem State.regN_setIrqPending (s : State) (v : Nat) (b : Bool) {Q x : Nat} (h : Q * 0x1000 + x < 0xF1000) :
    (s.setIrqPending v b).regN Q x = s.regN Q x :=
  congrArg BitVec.toNat (SMap.get_put_other _ _ _ _ _ (by omega))

/-! ### A pending vector offered -/

/-- The vector is pending, and nothing holds it. -/
def State.goesOut (s : State) (v : Nat) : Bool := s.irqPending v && !s.irqHeld v

theorem State.offerPending_of_goesOut {s : State} {v : Nat} (h : s.goesOut v = true) :
    s.offerPending v = (s.setIrqPending v false).sendIrq v := if_pos h

theorem State.offerPending_of_stays {s : State} {v : Nat} (h : s.goesOut v = false) : s.offerPending v = s :=
  if_neg (by simpa [State.goesOut] using h)

theorem State.message_setIrqPending (s : State) (v : Nat) (b : Bool) {u : Nat} (hu : u < 256) :
    (s.setIrqPending v b).message u = s.message u := by
  simp only [State.message, s.vec_setIrqPending v b hu (by decide : 0 < 16), s.vec_setIrqPending v b hu (by decide : 4 < 16),
    s.vec_setIrqPending v b hu (by decide : 8 < 16)]

section
variable {s : State} {v : Nat}

theorem State.offerPending_hq (hv : v < 256) : (s.offerPending v).hq
    = { s.hq with messages := s.hq.messages ++ if s.goesOut v then [s.message v] else [] } := by
  cases h : s.goesOut v
  · rw [State.offerPending_of_stays h]; simp
  · rw [State.offerPending_of_goesOut h, State.sendIrq_hq, s.message_setIrqPending v false hv]; rfl

theorem State.vec_offerPending {u o : Nat} (hu : u < 256) (ho : o < 16) : (s.offerPending v).vec u o = s.vec u o := by
  cases h : s.goesOut v
  · rw [State.offerPending_of_stays h]
  · rw [State.offerPending_of_goesOut h, State.vec_sendIrq, s.vec_setIrqPending v false hu ho]

theorem State.irqPending_offerPending (u : Nat) :
    (s.offerPending v).irqPending u = if u = v then s.irqPending v && s.irqHeld v else s.irqPending u := by
  cases h : s.goesOut v
  · rw [State.offerPending_of_stays h]
    split
    · next huv =>
      subst huv
      revert h
      unfold State.goesOut
      cases s.irqPending u <;> simp
    · rfl
  · rw [State.offerPending_of_goesOut h, State.irqPending_sendIrq, State.irqPending_setIrqPending]
    have : (s.irqPending v && s.irqHeld v) = false := by
      revert h
      unfold State.goesOut
      cases s.irqHeld v <;> simp
    rw [this]

end

/-- The vectors of a list offered in turn, `im_hold` low. -/
def State.offerAll (s : State) (l : List Nat) : State := l.foldl (fun s v => s.offerPending v) s

theorem State.offerAll_spec (l : List Nat) (s : State) (hlt : ∀ v ∈ l, v < 256) (hnd : l.Nodup) (hhold : s.hq.imHold = false) :
    (s.offerAll l).hq = { s.hq with
      messages := s.hq.messages ++ (l.filter fun v => s.irqPending v && !bitOf (s.vec v 12) 0).map s.message }
    ∧ ∀ u, (s.offerAll l).irqPending u = if u ∈ l then s.irqPending u && bitOf (s.vec u 12) 0 else s.irqPending u := by
  induction l generalizing s with
  | nil => simp [State.offerAll]
  | cons v l ih =>
    obtain ⟨hv, hl⟩ := List.forall_mem_cons.1 hlt
    obtain ⟨hvl, hnd⟩ := List.nodup_cons.1 hnd
    have hhq := State.offerPending_hq (s := s) hv
    have hvec : ∀ u ∈ l, ∀ o, o < 16 → (s.offerPending v).vec u o = s.vec u o :=
      fun u hu o ho => State.vec_offerPending (hl u hu) ho
    have hpend : ∀ u ∈ l, (s.offerPending v).irqPending u = s.irqPending u := fun u hu => by
      rw [State.irqPending_offerPending, if_neg fun h : u = v => hvl (h ▸ hu)]
    have hheld : s.irqHeld v = bitOf (s.vec v 12) 0 := by simp [State.irqHeld, hhold]
    have hmsg : ∀ u ∈ l, (s.offerPending v).message u = s.message u := fun u hu => by
      simp only [State.message, hvec u hu 0 (by decide), hvec u hu 4 (by decide), hvec u hu 8 (by decide)]
    obtain ⟨ih1, ih2⟩ := ih (s.offerPending v) hl hnd (by rw [hhq]; exact hhold)
    have hfilter : (l.filter fun u => (s.offerPending v).irqPending u && !bitOf ((s.offerPending v).vec u 12) 0)
        = l.filter fun u => s.irqPending u && !bitOf (s.vec u 12) 0 :=
      List.filter_congr fun u hu => by rw [hpend u hu, hvec u hu 12 (by decide)]
    have hmap : ∀ k : List Nat, (∀ u ∈ k, u ∈ l) → k.map (s.offerPending v).message = k.map s.message :=
      fun k hk => List.map_congr_left fun u hu => hmsg u (hk u hu)
    refine ⟨?_, fun u => ?_⟩
    · change ((s.offerPending v).offerAll l).hq = _
      rw [ih1, hfilter, hmap _ fun u hu => (List.mem_filter.1 hu).1, hhq, List.filter_cons, ← hheld]
      cases h : s.goesOut v <;> unfold State.goesOut at h <;> rw [h] <;> simp
    · change ((s.offerPending v).offerAll l).irqPending u = _
      rw [ih2]
      by_cases hu : u ∈ l
      · rw [if_pos hu, if_pos (List.mem_cons_of_mem v hu), hpend u hu, hvec u hu 12 (by decide)]
      · rw [if_neg hu, State.irqPending_offerPending]
        by_cases huv : u = v
        · rw [if_pos huv, if_pos (huv ▸ List.mem_cons_self), huv, hheld]
        · rw [if_neg huv, if_neg (by simp [hu, huv])]

/-! ### MASK written -/

/-- MASK of vector `v` cleared. -/
def State.maskCleared (s : State) (v : Nat) : State :=
  { s with regs := SMap.put regReset s.regs (0xF0000 + 16 * v + 12) 0 }

theorem State.vec_maskCleared (s : State) (v u : Nat) {o : Nat} (ho : o < 16) :
    (s.maskCleared v).vec u o = if u = v ∧ o = 12 then 0 else s.vec u o := by
  have := SMap.get_put regReset s.regs (0xF0000 + 16 * v + 12) (0xF0000 + 16 * u + o) 0
  rw [State.vec, State.maskCleared, this]
  by_cases h : u = v ∧ o = 12
  · rw [if_pos h, if_pos (by omega)]
  · rw [if_neg h, if_neg (by omega)]
    rfl

theorem State.irqPending_maskCleared (s : State) {v : Nat} (hv : v < 256) (u : Nat) :
    (s.maskCleared v).irqPending u = s.irqPending u :=
  congrArg (bitOf · (u % 32)) (SMap.get_put_other _ _ _ _ _ (by omega))

theorem State.message_maskCleared (s : State) (v u : Nat) : (s.maskCleared v).message u = s.message u := by
  simp only [State.message, s.vec_maskCleared v u (by decide : 0 < 16), s.vec_maskCleared v u (by decide : 4 < 16),
    s.vec_maskCleared v u (by decide : 8 < 16)]
  simp

/-- A cleared MASK holds nothing: only `im_hold` does. -/
theorem State.irqHeld_maskCleared (s : State) (v : Nat) : (s.maskCleared v).irqHeld v = s.hq.imHold := by
  have h : (s.maskCleared v).vec v 12 = 0 := by simp [s.vec_maskCleared v v (by decide : 12 < 16)]
  have hhq : (s.maskCleared v).hq.imHold = s.hq.imHold := rfl
  rw [State.irqHeld, h, hhq]
  simp [bitOf]

theorem State.goesOut_maskCleared (s : State) {v : Nat} (hv : v < 256) :
    (s.maskCleared v).goesOut v = (s.irqPending v && !s.hq.imHold) := by
  rw [State.goesOut, s.irqPending_maskCleared hv, s.irqHeld_maskCleared]

theorem exec_vectorUnmask {s : State} {v : Nat} (h : s.live = true) (hv : v < 256) :
    exec (.vectorUnmask v) s = .next ((s.maskCleared v).offerPending v) :=
  (State.always_live h _).trans (congrArg _ (if_pos hv))

/-! ### The host writes that wait -/

/-- The host writes waiting for their acknowledges. -/
def State.writes (s : State) : List DmaWrite := s.hq.dmaWrites

theorem Noted.writes {s t : State} (h : Noted s t) : t.writes = s.writes := by
  unfold State.writes
  rw [h.hq]

/-- A fate queues a record; it writes nothing to the host yet. -/
theorem State.settle_writes (s : State) (it : Item) (fate v0 v1 detail berth : Nat) (frees : Option Nat) :
    (s.settle it fate v0 v1 detail berth frees).writes = s.writes := by
  rw [← (s.fated_noted it fate (s.fateRec it fate v0 v1 detail berth frees)).writes, State.settle_eq]
  by_cases h : it.type = 2
  · simp only [h, if_true]; rfl
  · simp only [h, if_false]; rfl

theorem State.settleJ_writes (s : State) (j fate v0 : Nat) : (s.settleJ j fate v0).writes = s.writes := by
  unfold State.settleJ
  split
  · exact State.settle_writes ..
  · rfl

theorem State.endRequest_writes (s : State) (n fate : Nat) : (s.endRequest n fate).writes = s.writes := by
  have hcancels : ∀ u : State, (u.resolveCancels n fate).writes = u.writes :=
    fun u => State.foldl_keeps State.writes (fun _ _ => State.settle_writes ..) _ u
  unfold State.endRequest State.fateRequest
  split
  · rfl
  · simp only
    split
    · rfl
    · split
      · exact (hcancels _).trans (State.settle_writes ..)
      · rfl

theorem State.failRowOf_writes (s : State) (b : Barge) (r : ManRow) (fate : Nat) : (s.failRowOf b r fate).writes = s.writes := by
  have hupd : ∀ (u : State) f, (u.updBarge b.id f).writes = u.writes := fun _ _ => rfl
  unfold State.failRowOf
  simp only
  rw [hupd]
  split
  · split
    · exact State.settleJ_writes ..
    · rfl
  · exact State.endRequest_writes ..

theorem State.failBerthRow_writes (s : State) (n fate : Nat) : (s.failBerthRow n fate).writes = s.writes := by
  unfold State.failBerthRow
  split
  · split
    · exact State.failRowOf_writes ..
    · exact State.endRequest_writes ..
  · exact State.endRequest_writes ..

theorem State.rowsAcked_writes (s : State) (j : Nat) : (s.rowsAcked j).writes = s.writes := by
  unfold State.rowsAcked
  split
  · simp only
    split
    · rfl
    · split <;> exact State.settle_writes ..
  · rfl

/-- What an acknowledge means to its owner adds no write. -/
theorem State.ownerAcked_writes (s : State) (o : DmaOwner) (err : Bool) : (s.ownerAcked o err).writes = s.writes := by
  cases o with
  | record c => rfl
  | output n j =>
    unfold State.ownerAcked
    simp only
    split
    · exact State.failBerthRow_writes ..
    · rfl
  | rowData j k =>
    refine (State.rowsAcked_writes ..).trans ?_
    split <;> rfl

theorem State.raiseNow_eq (s : State) (v : Nat) : s.raiseNow v = s.raise v [] := rfl

theorem State.ackIrqs_writes (s : State) (t : Nat) : (s.ackIrqs t).writes = s.writes := by
  refine State.foldl_keeps State.writes (fun u x => ?_) _ _
  unfold State.writes
  rw [State.raiseNow_eq, State.raise_hq]

/-- Without a write that waits for a tag, a freed one stays free. -/
theorem State.retag_of_all {s : State} (h : ∀ x ∈ s.writes, x.tag < 256) (t : Nat) : s.retag t = s := by
  have : takeFirst (fun w : DmaWrite => 256 ≤ w.tag) s.hq.dmaWrites = (none, s.hq.dmaWrites) :=
    takeFirst_none _ _ fun x hx => decide_eq_false (Nat.not_le.2 (h x hx))
  unfold State.retag
  rw [this]

theorem takeFirst_append {α : Type} {f : α → Bool} {pre post : List α} {w : α} (hpre : ∀ x ∈ pre, f x = false) (hw : f w = true) :
    takeFirst f (pre ++ w :: post) = (some w, pre ++ post) := by
  induction pre with
  | nil => simp [takeFirst, hw]
  | cons x pre ih =>
    obtain ⟨hx, hpre⟩ := List.forall_mem_cons.1 hpre
    simp [takeFirst, hx, ih hpre]

/-- The write that waits for a tag takes the freed one. -/
theorem State.retag_writes {s : State} {pre : List DmaWrite} {x : DmaWrite} (h : s.writes = pre ++ [x])
    (hpre : ∀ y ∈ pre, y.tag < 256) (hx : 256 ≤ x.tag) (t : Nat) : (s.retag t).writes = pre ++ [{ x with tag := t }] := by
  have hfound : takeFirst (fun w : DmaWrite => 256 ≤ w.tag) s.hq.dmaWrites = (some x, pre ++ []) := by
    rw [show s.hq.dmaWrites = pre ++ [x] from h]
    exact takeFirst_append (fun y hy => decide_eq_false (Nat.not_le.2 (hpre y hy))) (decide_eq_true hx)
  have hother : pre.map (fun y : DmaWrite => { y with tag := if y.tag = x.tag then t else y.tag }) = pre := by
    refine (List.map_congr_left fun y hy => ?_).trans pre.map_id
    have : y.tag ≠ x.tag := by have := hpre y hy; omega
    simp [this]
  unfold State.retag
  rw [hfound]
  change s.writes.map _ = _
  rw [h, List.map_append, hother]
  simp

/-! ### The acknowledge -/

/-- The acknowledged write taken away, its bytes in host memory unless it failed. -/
def State.written (s : State) (w : DmaWrite) (rest : List DmaWrite) (err : Bool) : State :=
  { s with hostMem := if err then s.hostMem else Mem.write s.hostMem w.addr w.bytes
           hq := { s.hq with dmaWrites := rest } }

/-- An error of a host write noted. -/
def State.noteWriteErr (s : State) (err : Bool) : State := if err then (s.count pGLB 0xF84).err pGLB 1 else s

theorem State.hostAck_found {s : State} {tag : Nat} {pre post : List DmaWrite} {w : DmaWrite} (hlt : tag < 256)
    (hs : s.hq.dmaWrites = pre ++ w :: post) (hw : w.tag = tag) (hpre : ∀ x ∈ pre, x.tag ≠ tag) (err : Bool) :
    s.hostAck tag err = ((((s.written w (pre ++ post) err).noteWriteErr err).ackIrqs tag).retag tag).ownerAcked w.owner err := by
  have hfound : takeFirst (fun x : DmaWrite => x.tag == tag && decide (tag < 256)) s.hq.dmaWrites = (some w, pre ++ post) := by
    rw [hs]
    exact takeFirst_append (fun x hx => by simp [hpre x hx]) (by simp [hw, hlt])
  unfold State.hostAck
  rw [hfound]
  rfl

theorem State.hostAck_none {s : State} {tag : Nat} (h : 256 ≤ tag ∨ ∀ x ∈ s.hq.dmaWrites, x.tag ≠ tag) (err : Bool) :
    s.hostAck tag err = s := by
  have : takeFirst (fun x : DmaWrite => x.tag == tag && decide (tag < 256)) s.hq.dmaWrites = (none, s.hq.dmaWrites) := by
    refine takeFirst_none _ _ fun x hx => ?_
    rcases h with h | h
    · simp; omega
    · simp [h x hx]
  unfold State.hostAck
  rw [this]

theorem State.noteWriteErr_writes (s : State) (err : Bool) : (s.noteWriteErr err).writes = s.writes := by
  cases err
  · rfl
  · exact (State.err_noted _ _ _).writes.trans (by rw [State.writes, State.count_hq]; rfl)

theorem State.noteWriteErr_hostMem (s : State) (err : Bool) : (s.noteWriteErr err).hostMem = s.hostMem := by
  cases err
  · rfl
  · exact State.hostMem_of_mask (M := { regs := true, hq := true }) (by simp [State.noteWriteErr]) rfl

theorem State.ackIrqs_hostMem (s : State) (t : Nat) : (s.ackIrqs t).hostMem = s.hostMem :=
  State.hostMem_of_mask (M := { regs := true, hq := true }) (State.ackIrqs_mask _ rfl rfl s t) rfl

theorem State.retag_hostMem (s : State) (t : Nat) : (s.retag t).hostMem = s.hostMem :=
  State.hostMem_of_mask (M := { hq := true }) (State.retag_mask _ rfl s t) rfl

/-- It leaves host memory. -/
theorem State.ownerAcked_hostMem (s : State) (o : DmaOwner) (err : Bool) : (s.ownerAcked o err).hostMem = s.hostMem :=
  State.hostMem_of_mask (M := { regs := true, ext := true, tags := true, hq := true, sv := true, armed := true })
    (State.ownerAcked_mask _ rfl rfl rfl rfl rfl rfl s o err) rfl

theorem State.retag_regs (s : State) (t : Nat) : (s.retag t).regs = s.regs := by
  unfold State.retag
  split <;> rfl

/-- Messages that go out leave the pages' registers but IRQ_SENT. -/
theorem State.reg_ackIrqs (s : State) (t : Nat) {Q x : Nat} (hne : Q * 0x1000 + x ≠ 0xF8C) (hx : Q * 0x1000 + x < 0xF1000) :
    (s.ackIrqs t).reg Q x = s.reg Q x := by
  unfold State.ackIrqs
  simp only
  rw [State.foldl_keeps (fun u => u.reg Q x) fun u y => by rw [State.raiseNow_eq, State.reg_raise_off u y.1 [] hne hx]]
  rfl

/-- The acknowledge of a record's write leaves the pages' registers but IRQ_SENT. -/
theorem State.reg_recordAcked (s : State) (t c : Nat) (err : Bool) {Q x : Nat} (hne : Q * 0x1000 + x ≠ 0xF8C)
    (hx : Q * 0x1000 + x < 0xF1000) : (((s.ackIrqs t).retag t).ownerAcked (.record c) err).reg Q x = s.reg Q x := by
  rw [← s.reg_ackIrqs t hne hx]
  exact congrArg (SMap.get regReset · _) (State.retag_regs ..)

/-- A failed write counts in HDMA_WR_ERRS and sets GLB's flag (R432). -/
theorem State.noteWriteErr_spec (s : State) : (s.noteWriteErr true).regN pGLB 0xF84 = satAdd 32 (s.regN pGLB 0xF84) 1
    ∧ bitOf ((s.noteWriteErr true).errStatus pGLB) 1 = true := by
  refine ⟨?_, ?_⟩
  · rw [← State.regN_count_self]
    refine congrArg BitVec.toNat ((State.reg_err_glb _ _ _ (by decide) (by decide)).trans ?_)
    exact State.reg_flagged_other _ (by decide) (by decide) (by decide)
  · rw [State.errStatus, State.noteWriteErr, if_pos rfl, State.reg_err_glb _ _ _ (by decide) (by decide),
      State.reg_flagged_errStatus, bitOf, BitVec.getLsbD_or]
    simp

/-- A message that waits for further writes goes on waiting. -/
theorem State.ackIrqs_waits {s : State} {v t : Nat} {tags : List Nat} (h : s.hq.irqWait = [(v, tags)])
    (hne : tags.filter (· != t) ≠ []) :
    s.ackIrqs t = { s with hq := { s.hq with irqWait := [(v, tags.filter (· != t))] } } := by
  have he : (tags.filter (· != t)).isEmpty = false := by simpa using hne
  unfold State.ackIrqs
  simp only [h, List.map_cons, List.map_nil, List.filter_cons, he, List.filter_nil, Bool.not_false, if_true,
    Bool.false_eq_true, if_false, List.foldl_nil]

/-- A message that waits for no write any more is raised. -/
theorem State.ackIrqs_raises {s : State} {v t : Nat} {tags : List Nat} (h : s.hq.irqWait = [(v, tags)])
    (he : tags.filter (· != t) = []) :
    s.ackIrqs t = ({ s with hq := { s.hq with irqWait := [] } } : State).raiseNow v := by
  unfold State.ackIrqs
  simp only [h, List.map_cons, List.map_nil, List.filter_cons, he, List.filter_nil, List.isEmpty_nil, Bool.not_true, if_true,
    Bool.false_eq_true, if_false, List.foldl_nil, List.foldl_cons]

/-- What an acknowledge does to the one message that waits. -/
theorem State.ackIrqs_one (s : State) {v : Nat} {tags : List Nat} (h : s.hq.irqWait = [(v, tags)]) (t : Nat) :
    (tags.filter (· != t) ≠ [] → (s.ackIrqs t).hq.irqWait = [(v, tags.filter (· != t))]
        ∧ (s.ackIrqs t).hq.messages = s.hq.messages ∧ (s.ackIrqs t).regs = s.regs)
      ∧ (tags.filter (· != t) = [] → (s.ackIrqs t).hq.irqWait = []
        ∧ (s.irqHeld v = false → (s.ackIrqs t).hq.messages = s.hq.messages ++ [s.message v]
          ∧ (s.ackIrqs t).regN pGLB 0xF8C = satAdd 32 (s.regN pGLB 0xF8C) 1)
        ∧ (s.irqHeld v = true → (s.ackIrqs t).hq.messages = s.hq.messages ∧ (s.ackIrqs t).irqPending v = true)) := by
  refine ⟨fun hne => ?_, fun he => ?_⟩
  · rw [State.ackIrqs_waits h hne]
    exact ⟨rfl, rfl, rfl⟩
  · rw [State.ackIrqs_raises h he]
    by_cases hheld : s.irqHeld v = true
    · have hnow : ({ s with hq := { s.hq with irqWait := [] } } : State).raiseNow v
          = ({ s with hq := { s.hq with irqWait := [] } } : State).setIrqPending v true := if_pos hheld
      rw [hnow, State.irqPending_setIrqPending, if_pos rfl]
      exact ⟨rfl, fun h => absurd hheld (by simp [h]), fun _ => ⟨rfl, rfl⟩⟩
    · have hnow : ({ s with hq := { s.hq with irqWait := [] } } : State).raiseNow v
          = ({ s with hq := { s.hq with irqWait := [] } } : State).sendIrq v := if_neg hheld
      rw [hnow, State.sendIrq_hq, State.sendIrq_sent]
      exact ⟨rfl, fun _ => ⟨rfl, rfl⟩, fun h => absurd h hheld⟩

theorem exec_hostWriteAck {s : State} (h : s.up = true) (tag : Nat) (err : Bool) :
    exec (.hostWriteAck tag err) s = .next (s.hostAck tag err) := State.engine_up h fun s => s.hostAck tag err

theorem exec_imHoldRelease {s : State} (h : s.up = true) :
    exec .imHoldRelease s = .next (({ s with hq := { s.hq with imHold := false } } : State).offerAll (List.range 256)) :=
  State.engine_up h fun s => ({ s with hq := { s.hq with imHold := false } } : State).offerAll (List.range 256)

/-- Settles O56: an acknowledge takes its write, wakes what waited for it and frees its tag; a vector that nothing holds any more
goes out once. -/
theorem hostWritesAndInterruptsGoOut : Obligations.HostWritesAndInterruptsGoOut := by
  refine ⟨fun tag err s pre post w hup hlt hs hw hpre => ?_, fun tag err s hup h => ?_, fun v s hl => ⟨fun hv => ?_, fun hv => ?_⟩,
    fun s hup => ?_⟩
  · have hexec := (exec_hostWriteAck hup tag err).trans (congrArg _ (State.hostAck_found hlt hs hw hpre err))
    have hwrites : ((((s.written w (pre ++ post) err).noteWriteErr err).ackIrqs tag)).writes = pre ++ post := by
      rw [State.ackIrqs_writes, State.noteWriteErr_writes]; rfl
    refine ⟨_, hexec, ?_, fun hall => ?_,
      fun c x ho hpost hp hx => ?_, fun he c ho _ => ?_, fun c he ho hall v tags hv hwait => ?_⟩
    · rw [State.ownerAcked_hostMem, State.retag_hostMem, State.ackIrqs_hostMem, State.noteWriteErr_hostMem]
      rfl
    · refine (State.ownerAcked_writes ..).trans ?_
      rw [State.retag_of_all (by rw [hwrites]; exact hall), hwrites]
    · refine (State.ownerAcked_writes ..).trans ?_
      subst hpost
      exact State.retag_writes hwrites hp hx tag
    · subst he
      rw [ho]
      obtain ⟨hcount, hflag⟩ := (s.written w (pre ++ post) true).noteWriteErr_spec
      refine ⟨?_, ?_⟩
      · rw [State.regN, State.reg_recordAcked _ _ _ _ (by decide) (by decide)]
        exact hcount
      · rw [State.errStatus, State.reg_recordAcked _ _ _ _ (by decide) (by decide)]
        exact hflag
    · subst he
      rw [State.retag_of_all (by rw [hwrites]; exact hall), ho]
      obtain ⟨hwaits, hraises⟩ := (s.written w (pre ++ post) false).ackIrqs_one hwait tag
      exact ⟨hwaits, hraises⟩
  · exact (exec_hostWriteAck hup tag err).trans (congrArg _ (State.hostAck_none h err))
  · refine ⟨_, exec_vectorUnmask hl hv, ?_, fun hp hi => ?_, fun hstay => ?_, fun u hu huv => ?_⟩
    · rw [State.vec_offerPending hv (by decide), s.vec_maskCleared v v (by decide), if_pos ⟨rfl, rfl⟩]
    · have hgo : (s.maskCleared v).goesOut v = true := by rw [s.goesOut_maskCleared hv, hp, hi]; rfl
      refine ⟨?_, ?_, ?_⟩
      · rw [State.offerPending_hq hv, if_pos hgo, s.message_maskCleared]
        rfl
      · rw [State.irqPending_offerPending, if_pos rfl, s.irqHeld_maskCleared, hi, Bool.and_false]
      · rw [State.offerPending_of_goesOut hgo, State.sendIrq_sent, State.regN_setIrqPending _ _ _ (by decide)]
        refine congrArg (satAdd 32 · 1) (congrArg BitVec.toNat (SMap.get_put_other _ _ _ _ _ ?_))
        simp only [pGLB]; omega
    · have hgo : (s.maskCleared v).goesOut v = false := by
        rw [s.goesOut_maskCleared hv]
        rcases hstay with h | h <;> simp [h]
      rw [State.offerPending_of_stays hgo]
      exact ⟨rfl, s.irqPending_maskCleared hv v⟩
    · rw [State.vec_offerPending hu (by decide), s.vec_maskCleared v u (by decide), if_neg fun h => huv h.1,
        State.irqPending_offerPending, if_neg huv, s.irqPending_maskCleared hv]
      exact ⟨rfl, rfl⟩
  · exact (State.always_live hl _).trans (congrArg _ (if_neg (Nat.not_lt.2 hv)))
  · obtain ⟨hhq, hpend⟩ := State.offerAll_spec (List.range 256) { s with hq := { s.hq with imHold := false } }
      (fun v hv => List.mem_range.1 hv) List.nodup_range rfl
    refine ⟨_, exec_imHoldRelease hup, by rw [hhq], ?_, fun v hv => ?_⟩
    · rw [hhq]
      rfl
    · rw [hpend v, if_pos (List.mem_range.2 hv)]
      rfl

end Sys2Proof.Machine
end

section
/-! SUPPORT. Region power: what stays of error flags through a quarantine, of a region's power through the start of the barges
that hold it, and each command of R398. -/

namespace Sys2Proof.Machine

open Sys2Proof

/-! ### Error flags stay set -/

/-- From `s` to `t` events have raised error flags and counted: flags that were set are set still, and the registers of the pages
below their counters have not changed, but for the four of the flags (R444, R447). -/
structure FlagsRaised (s t : State) : Prop where
  kept : ∀ Q b, Q < 0xF1 → bitOf (s.errStatus Q) b = true → bitOf (t.errStatus Q) b = true
  reg : ∀ Q x, Q < 0xF1 → x < 0x020 ∨ 0x030 ≤ x → x < 0xF00 → t.reg Q x = s.reg Q x

theorem FlagsRaised.refl (s : State) : FlagsRaised s s := ⟨fun _ _ _ h => h, fun _ _ _ _ _ => rfl⟩

theorem FlagsRaised.trans {s t u : State} (h : FlagsRaised s t) (k : FlagsRaised t u) : FlagsRaised s u :=
  ⟨fun Q b hQ hb => k.kept Q b hQ (h.kept Q b hQ hb), fun Q x hQ hx hx' => (k.reg Q x hQ hx hx').trans (h.reg Q x hQ hx hx')⟩

theorem FlagsRaised.of_regs {s t : State} (h : t.regs = s.regs) : FlagsRaised s t :=
  ⟨fun Q b _ hb => by rwa [State.errStatus, State.reg, h], fun Q x _ _ _ => by rw [State.reg, State.reg, h]⟩

theorem FlagsRaised.ite {s a b : State} {c : Prop} [Decidable c] (ha : FlagsRaised s a) (hb : FlagsRaised s b) :
    FlagsRaised s (if c then a else b) := by
  split
  · exact ha
  · exact hb

theorem FlagsRaised.foldl {α : Type} {f : State → α → State} (h : ∀ s x, FlagsRaised s (f s x)) (l : List α) (s : State) :
    FlagsRaised s (l.foldl f s) := by
  induction l generalizing s with
  | nil => exact .refl s
  | cons x l ih => exact (h s x).trans (ih _)

/-- A register in the range of a page's counters and status is set. -/
theorem State.setReg_flagsRaised (s : State) (P : Nat) {o : Nat} (v : Word) (ho : 0xF00 ≤ o ∧ o < 0x1000) :
    FlagsRaised s (s.setReg P o v) :=
  ⟨fun Q b _ hb => by rwa [State.errStatus, s.reg_setReg_other v (by simp only [oERR_STATUS]; omega)],
   fun Q x _ _ hx => s.reg_setReg_other v (by omega)⟩

theorem State.count_flagsRaised (s : State) (P : Nat) {o : Nat} (n : Nat) (ho : 0xF00 ≤ o ∧ o < 0x1000) :
    FlagsRaised s (s.count P o n) := .ite (.refl s) (s.setReg_flagsRaised P _ ho)

theorem State.raise_flagsRaised (s : State) (v : Nat) (tags : List Nat) : FlagsRaised s (s.raise v tags) where
  kept Q b hQ hb := by
    rwa [State.errStatus, State.reg_raise_off _ _ _ (by simp only [oERR_STATUS]; omega) (by simp only [oERR_STATUS]; omega)]
  reg Q x hQ _ hx := State.reg_raise_off _ _ _ (by omega) (by omega)

theorem State.err_flagsRaised (s : State) (P k : Nat) : FlagsRaised s (s.err P k) := by
  have hother : ∀ Q x, x < 0x1000 → Q ≠ P ∨ x < 0x020 ∨ 0x030 ≤ x → (s.flagged P k).reg Q x = s.reg Q x := fun Q x hx h =>
    State.reg_flagged_other _ (by simp only [oERR_STATUS]; omega) (by simp only [oERR_FIRST]; omega)
      (by simp only [oERR_COUNT]; omega)
  have hflagged : FlagsRaised s (s.flagged P k) := by
    refine ⟨fun Q b _ hb => ?_, fun Q x _ hx hx' => hother Q x (by omega) (.inr hx)⟩
    by_cases hP : Q = P
    · subst hP
      rw [State.errStatus, State.reg_flagged_errStatus, bitOf, BitVec.getLsbD_or, Bool.or_eq_true]
      exact .inl hb
    · rwa [State.errStatus, hother Q _ (by decide) (.inl hP)]
  obtain h | h := s.err_flagged P k
  · rwa [h]
  · rw [h]
    exact hflagged.trans (State.raise_flagsRaised _ _ _)

theorem State.poisoning_flagsRaised (s : State) (P k : Nat) : FlagsRaised s (s.poisoning P k) :=
  ((s.count_flagsRaised pERR (o := 0xF18) 1 (by decide)).trans (State.err_flagsRaised _ P k)).trans (State.err_flagsRaised _ pERR 0)

theorem State.noteFate_flagsRaised (s : State) (fate : Nat) : FlagsRaised s (s.noteFate fate) := .ite (s.err_flagsRaised pERR 4) (.refl s)

theorem State.writeTag_flagsRaised (s : State) (a n : Nat) (new : Tag) (poison : Bool) (k : Nat) :
    FlagsRaised s (s.writeTag a n new poison k) := by
  have hcount : ∀ u : State, FlagsRaised u (u.count pERR 0xF34) := fun u => u.count_flagsRaised pERR 1 (by decide)
  have harmed : ∀ (b : Bool) (r : Armed),
      FlagsRaised s (if b = true then State.count { s with armed := r } pERR 0xF34 else { s with armed := r }) :=
    fun b r => by
      have hr : FlagsRaised s { s with armed := r } := .of_regs rfl
      exact .ite (hr.trans (hcount _)) hr
  have hset : ∀ (u : State) (t : Tag), FlagsRaised s u → FlagsRaised s (u.setTag k t) := fun u t hu => hu.trans (.of_regs rfl)
  unfold State.writeTag
  apply hset
  split
  · exact ((harmed _ _).trans (hcount _)).trans (State.poisoning_flagsRaised _ _ _)
  · exact (harmed _ _).trans (hcount _)
  · exact harmed _ _

theorem State.extWrite_flagsRaised (s : State) (a : Nat) (bs : List Byte) (poison : Bool) : FlagsRaised s (s.extWrite a bs poison) :=
  FlagsRaised.trans (t := { s with ext := Mem.write s.ext a bs }) (.of_regs rfl) (.foldl (fun s k => s.writeTag_flagsRaised _ _ _ _ k) _ _)

theorem State.settle_flagsRaised (s : State) (it : Item) (fate v0 v1 detail berth : Nat) (frees : Option Nat) :
    FlagsRaised s (s.settle it fate v0 v1 detail berth frees) :=
  FlagsRaised.trans ((s.noteFate_flagsRaised fate).trans (State.extWrite_flagsRaised _ _ _ _)) (.of_regs (s.settle_regs it fate v0 v1 detail berth frees))

theorem State.settleJ_flagsRaised (s : State) (j fate : Nat) : FlagsRaised s (s.settleJ j fate) := by
  unfold State.settleJ
  split
  · exact s.settle_flagsRaised _ _ _ _ _ _ _
  · exact .refl s

theorem State.endRequest_flagsRaised (s : State) (n fate : Nat) : FlagsRaised s (s.endRequest n fate) := by
  have hcancels : ∀ u : State, FlagsRaised u (u.resolveCancels n fate) :=
    fun u => .foldl (fun s it => s.settle_flagsRaised it _ _ _ _ _ _) _ u
  have hberth : ∀ x, FlagsRaised s (s.setBerth n x) := fun x => .of_regs rfl
  unfold State.endRequest State.fateRequest
  refine .ite (.refl s) (.ite (.refl s) ?_)
  split
  · exact ((hberth _).trans (State.settle_flagsRaised _ _ _ _ _ _ _ _)).trans (hcancels _)
  · exact .refl s

theorem State.failBarge_flagsRaised (s : State) (b fate : Nat) : FlagsRaised s (s.failBarge b fate) := by
  cases hx : s.barge? b with
  | none => simp only [State.failBarge, hx]; exact .refl s
  | some x =>
    cases hf : x.failed with
    | some f => rw [State.failBarge_of_failed hx (by simp [hf])]; exact .refl s
    | none =>
      have habandon : FlagsRaised s (s.abandonWork b fate x) := .of_regs rfl
      have hrows : FlagsRaised (s.abandonWork b fate x)
          (x.rows.foldl (fun s r => if r.kind = 2 then s else s.endRequest r.berth fate) (s.abandonWork b fate x)) :=
        .foldl (fun s r => .ite (.refl s) (s.endRequest_flagsRaised _ _)) _ _
      refine habandon.trans ?_
      unfold State.failBarge
      simp only [hx, hf, Option.isSome_none, Bool.false_eq_true, if_false]
      refine FlagsRaised.trans ?_ (State.noteFate_flagsRaised _ _)
      split
      · exact hrows.trans (State.settleJ_flagsRaised _ _ _)
      · exact hrows

theorem State.failRegion_flagsRaised (s : State) (r fate : Nat) : FlagsRaised s (s.failRegion r fate) :=
  .foldl (fun s (b : Barge) => s.failBarge_flagsRaised b.id fate) _ _

/-! ### A region's merge entries leave for the weir -/

theorem State.corrected_flagsRaised (s : State) (P k : Nat) : FlagsRaised s (s.corrected P k) :=
  (s.count_flagsRaised pERR (o := 0xF14) 1 (by decide)).trans (State.err_flagsRaised _ P k)

/-- Reading a pool notes the errors that it meets. -/
theorem State.see_pool_flagsRaised (s : State) (r a n : Nat) : FlagsRaised s (s.see (.pool r) a n) := by
  have hword : ∀ (u : State) (w : Nat), FlagsRaised u (u.seeWord (.pool r) w) := fun u w => by
    unfold State.seeWord
    split
    · exact .refl u
    · next rest _ =>
      have hlatent : FlagsRaised u { u with armed := { u.armed with latent := rest } } := .of_regs rfl
      refine hlatent.trans (.ite (State.corrected_flagsRaised _ _ _) ?_)
      exact (State.poisoning_flagsRaised _ _ _).trans (.of_regs rfl)
  exact .ite (.refl s) (.foldl hword _ _)

theorem State.loseRow_flagsRaised (s : State) : FlagsRaised s s.loseRow :=
  (s.count_flagsRaised pUPD (o := 0xF34) 1 (by decide)).trans (State.err_flagsRaised _ _ _)

theorem State.toWeir_flagsRaised {s t : State} {m : WeirMsg} {bs : List Byte} (h : s.toWeir m bs = some t) : FlagsRaised s t := by
  have hqueued : ∀ (u : State) rows, FlagsRaised u (({ u with rows := rows } : State).count pUPD 0xF18) := fun u rows => by
    have hrows : FlagsRaised u { u with rows := rows } := .of_regs rfl
    exact hrows.trans (State.count_flagsRaised _ pUPD 1 (by decide))
  unfold State.toWeir at h
  simp only at h
  split at h
  · cases h
  · cases h
    exact (State.extWrite_flagsRaised _ _ _ _).trans (hqueued _ _)

theorem State.mergeToWeir_flagsRaised (s : State) (r : Nat) : FlagsRaised s (s.mergeToWeir r) := by
  have hmerge : FlagsRaised s { s with rows := { s.rows with merge := s.rows.merge.filter (·.region != r) } } := .of_regs rfl
  refine hmerge.trans (.foldl (fun u e => ?_) _ _)
  have hsee : FlagsRaised u (u.seeEntry e) := (u.see_pool_flagsRaised _ _ _).trans (State.see_pool_flagsRaised _ _ _ _)
  have hpicks : ∀ n, FlagsRaised (u.seeEntry e) ((u.seeEntry e).takePicks n) := fun n => .of_regs rfl
  refine hsee.trans (.ite (State.loseRow_flagsRaised _) ?_)
  dsimp only
  split
  · next h => exact (hpicks _).trans (State.toWeir_flagsRaised h)
  · exact (hpicks _).trans (State.loseRow_flagsRaised _)

/-! ### Quarantine -/

theorem State.region_congr {s t : State} (h : t.regions = s.regions) (r : Nat) : t.region r = s.region r := by
  unfold State.region
  rw [h]

theorem State.failRegion_regions (s : State) (r fate : Nat) : (s.failRegion r fate).regions = s.regions :=
  State.regions_of_mask
    (M := { regs := true, ext := true, tags := true, marks := true, hq := true, sv := true, gathers := true, armed := true })
    (s.failRegion_mask _ rfl rfl rfl rfl rfl rfl rfl rfl r fate) rfl

theorem State.mergeToWeir_regions (s : State) (r : Nat) : (s.mergeToWeir r).regions = s.regions :=
  State.regions_of_mask
    (M := { regs := true, ext := true, tags := true, marks := true, hq := true, tileErrs := true, rows := true, armed := true,
            picks := true })
    (s.mergeToWeir_mask _ rfl rfl rfl rfl rfl rfl rfl rfl rfl r) rfl

theorem State.quarantine_quarantined (s : State) (r b : Nat) : ((s.quarantine r b).region r).quarantined = true := by
  unfold State.quarantine
  simp only
  split
  · assumption
  · rw [State.region_congr (State.mergeToWeir_regions _ _), State.region_congr (State.failRegion_regions _ _ _),
      State.region_updRegion_self]

theorem State.quarantine_flagsRaised (s : State) (r b : Nat) : FlagsRaised (s.err (rPage r) b) (s.quarantine r b) := by
  have hupd : ∀ (u : State) f, FlagsRaised u (u.updRegion r f) := fun u f => .of_regs rfl
  refine .ite (.refl _) ?_
  exact (((State.err_flagsRaised _ pERR 2).trans (hupd _ _)).trans (State.failRegion_flagsRaised _ _ _)).trans
    (State.mergeToWeir_flagsRaised _ _)

/-! ### The start of the barges on a region -/

/-- From `s` to `t` each region has the power state and the wake that it had, and each region that a barge holds is held still. -/
structure PowerKept (s t : State) : Prop where
  power : ∀ q, (t.region q).power = (s.region q).power
  waking : ∀ q, (t.region q).waking = (s.region q).waking
  busy : ∀ q, s.busyRegion q = true → t.busyRegion q = true

theorem PowerKept.refl (s : State) : PowerKept s s := ⟨fun _ => rfl, fun _ => rfl, fun _ h => h⟩

theorem PowerKept.trans {s t u : State} (h : PowerKept s t) (k : PowerKept t u) : PowerKept s u :=
  ⟨fun q => (k.power q).trans (h.power q), fun q => (k.waking q).trans (h.waking q), fun q hq => k.busy q (h.busy q hq)⟩

theorem PowerKept.foldl {α : Type} {f : State → α → State} (h : ∀ s x, PowerKept s (f s x)) (l : List α) (s : State) :
    PowerKept s (l.foldl f s) := by
  induction l generalizing s with
  | nil => exact .refl s
  | cons x l ih => exact (h s x).trans (ih _)

/-- A change of a region's other fields, the barges untouched. -/
theorem PowerKept.of_region {s t : State} {r : Nat} {f : Region → Region} (hsv : t.sv = s.sv)
    (h : ∀ q, t.region q = (s.updRegion r f).region q) (hp : ∀ x, (f x).power = x.power) (hw : ∀ x, (f x).waking = x.waking) :
    PowerKept s t := by
  have hcase : ∀ q, t.region q = if q = r then f (s.region q) else s.region q := fun q => by
    rw [h]
    by_cases hq : q = r
    · rw [if_pos hq, hq, State.region_updRegion_self]
    · rw [if_neg hq, State.region_updRegion_other _ _ hq]
  refine ⟨fun q => ?_, fun q => ?_, fun q hq => ?_⟩
  · rw [hcase]; split
    · exact hp _
    · rfl
  · rw [hcase]; split
    · exact hw _
    · rfl
  · rwa [State.busyRegion, hsv]

/-- A barge changed so that it holds what it held. -/
theorem State.updBarge_powerKept (s : State) (id : Nat) (f : Barge → Barge) (h : ∀ x r, r ∈ x.holds → r ∈ (f x).holds) :
    PowerKept s (s.updBarge id f) := by
  refine ⟨fun _ => rfl, fun _ => rfl, fun q hq => ?_⟩
  simp only [State.busyRegion, State.updBarge, mapIf, List.any_map, List.any_eq_true, Function.comp, List.contains_iff_mem] at hq ⊢
  obtain ⟨x, hx, hr⟩ := hq
  refine ⟨x, hx, ?_⟩
  split
  · exact h x q hr
  · exact hr

theorem State.setUses_powerKept (s : State) (r n : Nat) : PowerKept s (s.setUses r n) := by
  have hmask := State.setUses_mask
    { regs := true, ext := true, tags := true, scratch := true, pool := true, pound := true, marks := true, hq := true,
      regions := true, tileErrs := true, armed := true } rfl rfl rfl rfl rfl rfl rfl rfl rfl rfl rfl s r n
  exact .of_region (State.sv_of_mask hmask rfl) (fun q => s.region_setUses r n q) (fun _ => rfl) fun _ => rfl

theorem State.startRegions_powerKept (s : State) (b : Barge) : PowerKept s (s.startRegions b) := by
  have hreseed : ∀ (u : State) r (x y : BitVec 32), PowerKept u (u.updRegion r fun z =>
      if z.reseed then { z with reseed := false, draws := 0, seed := x ++ y } else z) := fun u r x y =>
    .of_region rfl (fun _ => rfl) (fun z => by split <;> rfl) fun z => by split <;> rfl
  have hmarks : ∀ (u : State) p f, PowerKept u (u.mapMarks p f) := fun _ _ _ => ⟨fun _ => rfl, fun _ => rfl, fun _ h => h⟩
  exact .foldl (fun u r => ((hmarks u _ _).trans (State.setUses_powerKept _ r 0)).trans (hreseed _ r _ _)) _ _

theorem State.startBeside_powerKept (s : State) (id : Nat) : PowerKept s (s.startBeside id) := by
  unfold State.startBeside
  split
  · dsimp only
    split
    · exact .refl s
    · exact .foldl (fun u k => u.updBarge_powerKept k (fun x => { x with alone := false }) fun _ _ h => h) _ _
  · exact .refl s

/-- A barge that starts holds its regions as it did while it loaded. -/
theorem State.tryStart_powerKept (s : State) (id : Nat) : PowerKept s (s.tryStart id) := by
  have hrun : ∀ (x : Barge) gap bound r, r ∈ x.holds →
      r ∈ ({ x with st := .running, gapFrom := gap, gapBound := bound } : Barge).holds := fun x gap bound r h => by
    unfold Barge.holds at h ⊢
    split at h
    · cases h
    · exact h
  unfold State.tryStart
  split
  · split
    · exact ((s.startRegions_powerKept _).trans (State.updBarge_powerKept _ id _ fun x r h => hrun x _ _ r h)).trans
        (State.startBeside_powerKept _ id)
    · exact .refl s
  · exact .refl s

/-- An access that ends leaves a region that a barge holds as it is. -/
theorem State.accessDone_of_busy {s : State} {r : Nat} (h : s.busyRegion r = true) : s.accessDone r = s := by
  unfold State.accessDone State.idle
  rw [if_pos h, ite_self]

/-! ### NAP_ENTRY and OFF_ENTRY -/

section
variable {s : State} {r : Nat}

theorem State.maySink_of {p : Power} {after d : Nat} (hr : r < 8) (hp : (s.region r).power = p)
    (hw : (s.region r).waking = none) (hq : (s.region r).quarantined = false) (hi : s.isolated (rPage r) = false)
    (hb : s.busyRegion r = false) (ht : (s.region r).idleSince + after ≤ s.now) (hd : d ≤ s.deepest r) :
    s.maySink r p after d = true := by
  simp [State.maySink, hr, hp, hw, hq, hi, hb, ht, hd]

theorem State.maySink_of_busy (h : s.busyRegion r = true) (p : Power) (after d : Nat) : s.maySink r p after d = false := by
  simp [State.maySink, h]

theorem exec_napEntry (hup : s.up = true) : exec (.napEntry r) s = .next
    (if s.maySink r .doze (s.cfgN pPWR 0x104) 2 then (s.updRegion r fun x => { x with power := .nap }).unlock r else s) :=
  State.engine_up hup _

theorem exec_offEntry (hup : s.up = true) : exec (.offEntry r) s = .next
    (if s.maySink r .nap (s.cfgN pPWR 0x108) 3 && !(s.rows.merge.any (·.region == r)) then
      (s.updRegion r fun x => { x with power := .off }).dropSram r else s) :=
  State.engine_up hup _

end

theorem State.region_unlock (s : State) (c q : Nat) : (s.unlock c).region q = s.region q := rfl

theorem State.region_dropSram (s : State) (r q : Nat) : (s.dropSram r).region q
    = (s.updRegion r fun x => { x with pieces := [], cache := [], moored := [] }).region q := rfl

/-- The pool of a region that goes off reads as an unwritten one, and the others as they were. -/
theorem State.pool_dropSram (s : State) (r q : Nat) {a : Nat} (ha : a < poolBytes) :
    (s.dropSram r).pool.get (q * poolBytes + a) = if q = r then Mem.get [] 0 else s.pool.get (q * poolBytes + a) := by
  have hget := SMap.get_filter_key Mem.dflt (fun k => !(decide (r * poolBytes ≤ k) && decide (k < (r + 1) * poolBytes))) s.pool
    (q * poolBytes + a)
  have hin : (decide (r * poolBytes ≤ q * poolBytes + a) && decide (q * poolBytes + a < (r + 1) * poolBytes)) = decide (q = r) := by
    rw [← Bool.decide_and]
    refine decide_eq_decide.2 ?_
    simp only [poolBytes] at ha ⊢
    omega
  rw [hin] at hget
  refine hget.trans ?_
  by_cases h : q = r
  · simp [h]; rfl
  · simp [h]; rfl

theorem State.mark_dropSram (s : State) {r k : Nat} (h : inRegion r k = true) : (s.dropSram r).mark k = {} := by
  refine (SMap.get_filter_key (fun _ => {}) (fun k => !inRegion r k) s.marks k).trans ?_
  simp [h]

/-! ### WAKE_COMPLETE -/

/-- The region in RUN, its wake counted. -/
def State.wakeUp (s : State) (r : Nat) (p : Power) : State :=
  (s.updRegion r fun x => { x with power := .run, waking := none }).countWake p

section
variable {s : State} {r : Nat} {p : Power}

theorem State.region_wakeUp : ((s.wakeUp r p).region r).power = .run ∧ ((s.wakeUp r p).region r).waking = none := by
  have h : (s.wakeUp r p).region r = { s.region r with power := .run, waking := none } := by
    rw [State.wakeUp, State.countWake, State.region_congr (State.regions_of_mask (State.count_mask { regs := true } rfl _ _ _ _) rfl)]
    exact s.region_updRegion_self r fun x => { x with power := .run, waking := none }
  rw [h]
  exact ⟨rfl, rfl⟩

theorem State.busyRegion_wakeUp (q : Nat) : (s.wakeUp r p).busyRegion q = s.busyRegion q := by
  have hsv : (s.wakeUp r p).sv.barges = s.sv.barges := by
    rw [State.wakeUp, State.countWake, State.sv_of_mask (State.count_mask { regs := true } rfl _ _ _ _) rfl]
    rfl
  rw [State.busyRegion, hsv]
  rfl

theorem exec_wakeComplete (hup : s.up = true) : exec (.wakeComplete r) s = .next (s.wakeDone r) :=
  State.engine_up hup fun s => s.wakeDone r

theorem State.wakeDone_refused (hw : (s.region r).waking = some p) (h : s.mayRelease r p = false) : s.wakeDone r = s := by
  unfold State.wakeDone
  simp [hw, h]

/-- A wake that the clock allows brings a region that a barge holds to RUN. -/
theorem State.wakeDone_released (hw : (s.region r).waking = some p) (hrel : s.mayRelease r p = true)
    (hclk : (p == .off && !s.clkGood r) = false) (hb : s.busyRegion r = true) :
    ((s.wakeDone r).region r).power = .run ∧ ((s.wakeDone r).region r).waking = none := by
  have hkept : PowerKept (s.wakeUp r p) (((s.wakeUp r p).sv.barges.filter fun b => b.holds.contains r).foldl
      (fun s b => s.tryStart b.id) (s.wakeUp r p)) := .foldl (fun u (b : Barge) => u.tryStart_powerKept b.id) _ _
  have hdone : s.wakeDone r = (((s.wakeUp r p).sv.barges.filter fun b => b.holds.contains r).foldl
      (fun s b => s.tryStart b.id) (s.wakeUp r p)).accessDone r := by
    unfold State.wakeDone
    simp only [hw, hrel, hclk, Bool.not_true, Bool.false_eq_true, if_false]
    rfl
  rw [hdone, State.accessDone_of_busy (hkept.busy r ((State.busyRegion_wakeUp r).trans hb)), hkept.power, hkept.waking]
  exact State.region_wakeUp

/-- A release that FORCE_RELEASE alone allows ends in quarantine (R396). -/
theorem State.wakeDone_forced (hw : (s.region r).waking = some .off) (hclk : s.clkGood r = false) (hf : s.forced r = true)
    (hl : r ∈ s.rst.locked) : s.wakeDone r = ((s.wakeUp r .off).err pCLK 1).quarantine r 0 := by
  have hrel : s.mayRelease r .off = true := by simp [State.mayRelease, hf, hl]
  have hforce : (Power.off == Power.off && !s.clkGood r) = true := by rw [hclk]; rfl
  unfold State.wakeDone
  simp only [hw, hrel, hforce, Bool.not_true, Bool.false_eq_true, if_false, if_true]
  rfl

end

/-- The quarantine leaves the override's flag set. -/
theorem State.errStatus_forced (s : State) (r b : Nat) : bitOf (((s.err pCLK 1).quarantine r b).errStatus pCLK) 1 = true :=
  ((State.err_flagsRaised _ _ _).trans (State.quarantine_flagsRaised _ r b)).kept pCLK 1 (by decide)
    (s.bitOf_errStatus_err (by decide) (by decide) (by decide))

/-- Settles O36: a region that a barge holds neither naps nor goes off, and the start of barges leaves its wake as it ended. -/
theorem regionPowerFollowsIdleness : Obligations.RegionPowerFollowsIdleness := by
  intro r s hup hr x
  refine ⟨fun hw hq hi hb => ⟨fun hp ht hd => ?_, fun hp ht hd hm => ?_⟩, fun hb => ⟨?_, ?_⟩, fun p hw => ⟨fun hb h => ?_, ?_, ?_⟩⟩
  · refine ⟨_, (exec_napEntry hup).trans (congrArg _ (if_pos (State.maySink_of hr hp hw hq hi hb ht hd))), ?_, ?_, rfl, rfl,
      fun q hqr => ?_⟩
    · rw [State.region_unlock, State.region_updRegion_self]
    · simp [State.unlock]
    · rw [State.region_unlock, State.region_updRegion_other _ _ hqr]
  · have hnone : s.rows.merge.any (·.region == r) = false := by simpa [List.any_eq_false] using hm
    have hmay : (s.maySink r .nap (s.cfgN pPWR 0x108) 3 && !(s.rows.merge.any (·.region == r))) = true := by
      rw [State.maySink_of hr hp hw hq hi hb ht hd, hnone]; rfl
    have hself : ((s.updRegion r fun x => { x with power := .off }).dropSram r).region r
        = { x with power := .off, pieces := [], cache := [], moored := [] } := by
      rw [State.region_dropSram, State.region_updRegion_self, State.region_updRegion_self]
    refine ⟨_, (exec_offEntry hup).trans (congrArg _ (if_pos hmay)), ?_, ?_, ?_, ?_, fun a ha => ?_, fun q a hqr ha => ?_,
      fun k hk => State.mark_dropSram _ hk, fun q hqr => ?_⟩
    · rw [hself]
    · rw [hself]
    · rw [hself]
    · rw [hself]
    · exact (State.pool_dropSram _ r r ha).trans (if_pos rfl)
    · exact (State.pool_dropSram _ r q ha).trans (if_neg hqr)
    · rw [State.region_dropSram, State.region_updRegion_other _ _ hqr, State.region_updRegion_other _ _ hqr]
  · exact (exec_napEntry hup).trans (congrArg _ (if_neg (by rw [State.maySink_of_busy hb]; decide)))
  · exact (exec_offEntry hup).trans (congrArg _ (if_neg (by simp [State.maySink_of_busy hb])))
  · have hrel : s.mayRelease r p = true ∧ (p == .off && !s.clkGood r) = false := by
      rcases h with rfl | ⟨rfl, hl⟩ | ⟨rfl, hg⟩
      · exact ⟨rfl, rfl⟩
      · exact ⟨by simpa [State.mayRelease] using hl, rfl⟩
      · simp [State.mayRelease, hg]
    exact ⟨_, exec_wakeComplete hup, State.wakeDone_released hw hrel.1 hrel.2 hb⟩
  · rintro rfl hg hf hl
    refine ⟨_, exec_wakeComplete hup, ?_, ?_⟩
    · rw [State.wakeDone_forced hw hg hf hl]
      exact State.quarantine_quarantined _ _ _
    · rw [State.wakeDone_forced hw hg hf hl]
      exact State.errStatus_forced _ _ _
  · intro h
    refine (exec_wakeComplete hup).trans (congrArg _ (State.wakeDone_refused hw ?_))
    rcases h with rfl | ⟨rfl, hl⟩ | ⟨rfl, hg, hf⟩
    · rfl
    · simpa [State.mayRelease] using hl
    · rcases hf with hf | hl
      · simp [State.mayRelease, hg, hf]
      · simp [State.mayRelease, hg, hl]

end Sys2Proof.Machine
end

section
/-! SUPPORT. Control faults and fatal errors: the quarantine bit of a tile, and what the record of a fatal error leaves. -/

namespace Sys2Proof.Machine

open Sys2Proof

/-! ### The quarantine bit of a tile -/

/-- A bit of a word set or cleared reads so. -/
theorem bitOf_put (w : Word) (b : Bool) {i : Nat} (hi : i < 32) :
    bitOf (if b then w ||| BitVec.ofNat 32 (2 ^ i) else w &&& ~~~(BitVec.ofNat 32 (2 ^ i))) i = b := by
  have hbit : (BitVec.ofNat 32 (2 ^ i)).getLsbD i = true := by
    rw [BitVec.getLsbD_ofNat, Nat.testBit_two_pow_self, decide_eq_true hi]; rfl
  cases b
  · simp only [Bool.false_eq_true, if_false, bitOf, BitVec.getLsbD_and, BitVec.getLsbD_not, hbit, Bool.not_true, Bool.and_false]
  · simp only [if_true, bitOf, BitVec.getLsbD_or, hbit, Bool.or_true]

theorem State.tileQuar_setTileQuar (s : State) (t : Nat) (b : Bool) : (s.setTileQuar t b).tileQuar t = b := by
  unfold State.tileQuar State.setTileQuar
  rw [State.reg_setReg_self]
  exact bitOf_put _ b (Nat.mod_lt _ (by decide))

theorem State.setTileQuar_flagsRaised (s : State) {t : Nat} (ht : t < 128) (b : Bool) : FlagsRaised s (s.setTileQuar t b) :=
  s.setReg_flagsRaised pERR _ (by omega)

theorem ErrKept.tileQuar {s u : State} (h : ErrKept s u) {t : Nat} (ht : t < 128) : u.tileQuar t = s.tileQuar t := by
  unfold State.tileQuar
  rw [h _ (by omega) (by omega)]

theorem State.markTileQuar_tileQuar (s : State) {t : Nat} (ht : t < 128) : (s.markTileQuar t).tileQuar t = true := by
  unfold State.markTileQuar
  split
  · assumption
  · rw [((State.err_errKept _ _ _).trans (State.err_errKept _ _ _)).tileQuar ht, State.tileQuar_setTileQuar]

theorem State.markTileQuar_flagsRaised (s : State) {t : Nat} (ht : t < 128) : FlagsRaised s (s.markTileQuar t) :=
  .ite (.refl s) (((s.setTileQuar_flagsRaised ht true).trans (State.err_flagsRaised _ _ _)).trans (State.err_flagsRaised _ _ _))

theorem State.sv_markTileQuar (s : State) (t : Nat) : (s.markTileQuar t).sv = s.sv :=
  State.sv_of_mask (M := { regs := true, hq := true }) (s.markTileQuar_mask _ rfl rfl t) rfl

theorem State.sv_err (s : State) (P b : Nat) : (s.err P b).sv = s.sv :=
  State.sv_of_mask (M := { regs := true, hq := true }) (s.err_mask _ rfl rfl P b) rfl

/-- Without barges a tile's control fault is its flag and its quarantine alone. -/
theorem State.tileCtrlFault_eq {s : State} (h : s.sv.barges = []) (t : Nat) :
    s.tileCtrlFault t = (s.err (tPage t) 3).markTileQuar t :=
  State.failNamed_of_no_barge (by rw [State.sv_markTileQuar, State.sv_err, h])

theorem State.tileCtrlFault_spec {s : State} (h : s.sv.barges = []) {t : Nat} (ht : t < 128) :
    (s.tileCtrlFault t).tileQuar t = true ∧ bitOf ((s.tileCtrlFault t).errStatus (tPage t)) 3 = true := by
  have hpage : 0 < tPage t ∧ tPage t < 0xF1 := by simp only [tPage, pTILE]; omega
  rw [State.tileCtrlFault_eq h]
  exact ⟨State.markTileQuar_tileQuar _ ht, (State.markTileQuar_flagsRaised _ ht).kept _ _ hpage.2
    (s.bitOf_errStatus_err hpage.1 hpage.2 (by decide))⟩

/-- A region's control fault sets its flag and quarantines it (R408). -/
theorem State.quarantine_spec (s : State) {r : Nat} (hr : r < 8) :
    ((s.quarantine r 3).region r).quarantined = true ∧ bitOf ((s.quarantine r 3).errStatus (rPage r)) 3 = true := by
  have hpage : 0 < rPage r ∧ rPage r < 0xF1 := by simp only [rPage, pREGION]; omega
  exact ⟨s.quarantine_quarantined r 3, (s.quarantine_flagsRaised r 3).kept _ _ hpage.2
    (s.bitOf_errStatus_err hpage.1 hpage.2 (by decide))⟩

/-! ### A fatal error (R412) -/

/-- The engine quiesces: begun host writes complete, and none waits. -/
def State.quiesced (s : State) : State := { s with hostMem := s.drainHost, hq := { s.hq with dmaWrites := [], irqWait := [] } }

/-- The quiesced engine with the fatal error recorded and its flag raised. -/
def State.fatalNoted (s : State) (page : Nat) : State := ((s.quiesced.fatalRecord page).setRegN pERR 0xF30 (256 + page)).flagFatal

theorem State.fatal_eq (s : State) (page : Nat) : s.fatal page =
    if bitOf ((s.fatalNoted page).cfg pERR 0x108) 0 then (s.fatalNoted page).resetBy .software
    else { s.fatalNoted page with rst := { (s.fatalNoted page).rst with halted := true } } := rfl

theorem State.fatalRecord_flagsRaised (s : State) (page : Nat) : FlagsRaised s (s.fatalRecord page) :=
  .ite (.refl s) (s.extWrite_flagsRaised _ _ _)

theorem State.flagFatal_flagsRaised (s : State) : FlagsRaised s s.flagFatal :=
  .ite ((s.err_flagsRaised pERR 3).trans (State.raise_flagsRaised _ _ _)) (s.err_flagsRaised pERR 3)

theorem State.fatalNoted_flagsRaised (s : State) (page : Nat) : FlagsRaised s (s.fatalNoted page) := by
  have hquiet : FlagsRaised s s.quiesced := .of_regs rfl
  exact ((hquiet.trans (State.fatalRecord_flagsRaised _ page)).trans (State.setReg_flagsRaised _ pERR _ (by decide))).trans
    (State.flagFatal_flagsRaised _)

/-- Events leave the fields of ERR in force. -/
theorem FlagsRaised.cfg {s t : State} (h : FlagsRaised s t) {P o : Nat} (hP : P < 0xF1) (ho : 0x030 ≤ o) (ho' : o < 0x800) :
    t.cfg P o = s.cfg P o := by
  unfold State.cfg State.bankB
  rw [h.reg P oSTATUS hP (by decide) (by decide), h.reg P (o + 0x700) hP (.inr (by omega)) (by omega),
    h.reg P o hP (.inr ho) (by omega)]

theorem State.raise_noted (s : State) (v : Nat) (tags : List Nat) : Noted s (s.raise v tags) where
  hq := s.raise_hq v tags
  reg Q x hQ _ hlt _ hx := s.reg_raise v tags hQ (by simp only [pFAB] at hlt; omega)

theorem State.flagFatal_noted (s : State) : Noted s s.flagFatal :=
  .ite ((s.err_noted pERR 3).trans (State.raise_noted _ _ _)) (s.err_noted pERR 3)

theorem State.fatalRecord_noted (s : State) (page : Nat) : Noted s (s.fatalRecord page) := .ite (.refl s) (s.extWrite_noted _ _ _)

/-- Of the queues only the messages have changed since the engine quiesced. -/
theorem State.fatalNoted_noted (s : State) (page : Nat) : Noted s.quiesced (s.fatalNoted page) :=
  ((State.fatalRecord_noted _ page).trans (State.setReg_noted _ _ (by decide) (by decide))).trans (State.flagFatal_noted _)

theorem State.flagFatal_reg (s : State) {x : Nat} (hx : oERR_COUNT < x) (hx' : x < 0x1000) : s.flagFatal.reg pERR x = s.reg pERR x := by
  have hraise : ∀ (u : State) v, (u.raise v).reg pERR x = u.reg pERR x := fun u v =>
    u.reg_raise v [] (by decide) (by simp only [pERR]; omega)
  unfold State.flagFatal
  simp only
  split
  · rw [hraise, s.reg_err_counts pERR 3 hx hx']
  · exact s.reg_err_counts pERR 3 hx hx'

/-- FATAL_CAUSE names the page. -/
theorem State.fatalNoted_cause (s : State) {page : Nat} (hp : page < 256) : (s.fatalNoted page).regN pERR 0xF30 = 256 + page := by
  rw [State.regN, State.fatalNoted, State.flagFatal_reg _ (by decide) (by decide), State.setRegN, State.reg_setReg_self,
    BitVec.toNat_ofNat, Nat.mod_eq_of_lt (by omega)]

theorem State.fatalNoted_flag (s : State) (page : Nat) : bitOf ((s.fatalNoted page).errStatus pERR) 3 = true := by
  have herr : ∀ u : State, bitOf ((u.err pERR 3).errStatus pERR) 3 = true :=
    fun u => u.bitOf_errStatus_err (by decide) (by decide) (by decide)
  have hflag : ∀ u : State, bitOf (u.flagFatal.errStatus pERR) 3 = true := fun u => by
    unfold State.flagFatal
    simp only
    split
    · exact (State.raise_flagsRaised _ _ _).kept _ _ (by decide) (herr u)
    · exact herr u
  exact hflag _

theorem State.fatalNoted_rst (s : State) (page : Nat) : (s.fatalNoted page).rst = s.rst := by
  have hmask : (s.fatalNoted page).mask { regs := true, ext := true, tags := true, hq := true, armed := true }
      = s.quiesced.mask { regs := true, ext := true, tags := true, hq := true, armed := true } := by
    simp [State.fatalNoted, State.flagFatal]
  rw [State.rst_of_mask hmask rfl]
  rfl

/-- An engine that runs is in no reset event. -/
theorem State.idle_of_up {s : State} (h : s.up = true) : s.rst.active = false := by
  simp only [State.up, Bool.and_eq_true, Bool.not_eq_true'] at h
  exact h.1.2

/-- A source that begins an event is its only one, and its class is the event's. -/
theorem State.resetBy_rst {s : State} (h : s.rst.active = false) (src : ResetSource) :
    (s.resetBy src).rst.active = true ∧ (s.resetBy src).rst.sources = [src] ∧ (s.resetBy src).rst.full = src.full := by
  have hbegins := s.resetBy_begins s.tap src (r := s.rst) h
  rw [show s.resetBy src = _ from hbegins]
  refine ⟨rfl, s.takeHold_sources _ _, ?_⟩
  exact Bool.or_false _

/-- A fatal error halts the engine, or resets it as a software source under FATAL_RESET (R412). -/
theorem State.fatal_halts {s : State} {page : Nat} (hp : page < 256) (h : bitOf (s.cfg pERR 0x108) 0 = false) :
    (s.fatal page).rst.halted = true ∧ (s.fatal page).regN pERR 0xF30 = 256 + page
      ∧ bitOf ((s.fatal page).errStatus pERR) 3 = true ∧ (s.fatal page).hq.items = s.hq.items ∧ (s.fatal page).hq.dmaWrites = [] := by
  have hcfg : bitOf ((s.fatalNoted page).cfg pERR 0x108) 0 = false := by
    rw [(s.fatalNoted_flagsRaised page).cfg (by decide) (by decide) (by decide), h]
  have hhq := (s.fatalNoted_noted page).hq
  rw [State.fatal_eq, if_neg (by simp [hcfg])]
  exact ⟨rfl, s.fatalNoted_cause hp, s.fatalNoted_flag page, by rw [hhq]; rfl, by rw [hhq]; rfl⟩

theorem State.fatal_resets {s : State} (page : Nat) (hi : s.rst.active = false) (h : bitOf (s.cfg pERR 0x108) 0 = true) :
    (s.fatal page).rst.active = true ∧ (s.fatal page).rst.sources = [.software] ∧ (s.fatal page).rst.full = false := by
  have hcfg : bitOf ((s.fatalNoted page).cfg pERR 0x108) 0 = true := by
    rw [(s.fatalNoted_flagsRaised page).cfg (by decide) (by decide) (by decide), h]
  rw [State.fatal_eq, if_pos hcfg]
  exact State.resetBy_rst (by rw [s.fatalNoted_rst, hi]) .software

end Sys2Proof.Machine
end

section
/-! SUPPORT. Error injection: what ERR_INJECT schedules, by TYPE and page. -/

namespace Sys2Proof.Machine

open Sys2Proof

/-- A write of ERR_INJECT that counts: ARM is set while INJECT_EN is 1 (R414). -/
def State.arming (s : State) (w : Word) : Prop := bitOf w 31 = true ∧ bitOf (s.cfg pERR 0x108) 2 = true

section
variable {s : State} {page : Nat} {w : Word} {ty : Nat}

theorem State.injectAs_armed (hty : injType w = ty) (ha : s.arming w) (hok : s.injOk page w = true) :
    s.injectAs ty page w = s.arm page w := by
  obtain ⟨harm, hen⟩ := ha
  rw [State.injectAs, if_pos hty, State.errInject, if_pos (by simp [harm, hen, hok])]

theorem State.injectAs_ignored (h : ¬(s.arming w ∧ injType w = ty ∧ s.injOk page w = true)) : s.injectAs ty page w = s := by
  unfold State.injectAs State.errInject
  split
  · next hty =>
    refine if_neg fun hc => h ?_
    simp only [Bool.and_eq_true] at hc
    obtain ⟨⟨harm, hen⟩, hok⟩ := hc
    exact ⟨⟨harm, hen⟩, hty, hok⟩
  · rfl

/-- A write that schedules an error exactly when it counts, has the TYPE and its page accepts it. -/
theorem State.injectAs_eq {C : Prop} [Decidable C] {t : State} (hc : C ↔ s.arming w ∧ injType w = ty ∧ s.injOk page w = true)
    (harm : injType w = ty → s.arm page w = t) : s.injectAs ty page w = if C then t else s := by
  split
  · next h =>
    obtain ⟨ha, hty, hok⟩ := hc.1 h
    rw [State.injectAs_armed hty ha hok, harm hty]
  · next h => exact State.injectAs_ignored fun hi => h (hc.2 hi)

end

/-! ### Which page accepts which TYPE -/

section
variable {s : State} {page : Nat} {w : Word}

theorem isTile_iff : isTile page = true ↔ 0x20 ≤ page ∧ page ≤ 0x9F := by
  rw [isTile, Bool.and_eq_true, decide_eq_true_eq, decide_eq_true_eq]
  rfl

theorem isRegion_iff : isRegion page = true ↔ pREGION ≤ page ∧ page < pKEEP := by simp [isRegion]

theorem State.injOk_sram (h : injType w = 1) : s.injOk page w = true
    ↔ ((0x20 ≤ page ∧ page ≤ 0x9F) ∨ (pREGION ≤ page ∧ page < pKEEP)) ∧ injSymbols w ≤ 10 := by
  simp [State.injOk, h, isTile_iff, isRegion_iff]

theorem State.injOk_sector (h : injType w = 2) :
    s.injOk pMEM w = true ↔ injSymbols w ≤ 10 ∧ injSelect w < s.params.memPorts := by
  simp [State.injOk, h]

theorem State.injOk_tag (h : injType w = 3) : s.injOk pMEM w = true ↔ injSelect w < s.params.memPorts := by
  simp [State.injOk, h]

theorem State.injOk_flitCrc (h : injType w = 4) : s.injOk pFAB w = true ↔ injSelect w < s.params.fabPorts := by
  simp [State.injOk, h]

theorem State.injOk_piece (h : injType w = 5) : s.injOk pFAB w = true := by
  simp [State.injOk, h]

theorem State.injOk_ctrl (h : injType w = 6) : s.injOk page w = true
    ↔ ((0x20 ≤ page ∧ page ≤ 0x9F) ∨ (pREGION ≤ page ∧ page < pKEEP)) ∨ page = pERR := by
  simp [State.injOk, h, isTile_iff, isRegion_iff]

theorem State.injOk_clock (h : injType w = 7) : s.injOk page w = true ↔ pREGION ≤ page ∧ page < pKEEP := by
  simp [State.injOk, h, isRegion_iff]

end

/-! ### A control fault injected happens at once -/

theorem State.arm_ctrl (s : State) (page : Nat) {w : Word} (h : injType w = 6) :
    s.arm page w = (s.count pERR 0xF34).ctrlFault (ctrlUnitOf page) := by
  simp only [State.arm, h]

theorem ctrlUnitOf_tile {k : Nat} (hk : k < 128) : ctrlUnitOf (tPage k) = .tile k := by
  have h : isTile (tPage k) = true := isTile_iff.2 (by simp only [tPage, pTILE]; omega)
  rw [ctrlUnitOf, if_pos h]
  simp [tPage]

/-- A tile's injected control fault is counted and quarantines it. -/
theorem State.ctrlFault_injected_tile {s : State} (h : s.sv.barges = []) {k : Nat} (hk : k < 128) :
    ((s.count pERR 0xF34).ctrlFault (.tile k)).tileQuar k = true
      ∧ ((s.count pERR 0xF34).ctrlFault (.tile k)).regN pERR 0xF34 = satAdd 32 (s.regN pERR 0xF34) 1 := by
  have hb : (s.count pERR 0xF34).sv.barges = [] := by
    rw [State.sv_of_mask (State.count_mask { regs := true } rfl _ _ _ _) rfl, h]
  have hfault : (s.count pERR 0xF34).ctrlFault (.tile k) = ((s.count pERR 0xF34).err (tPage k) 3).markTileQuar k :=
    (if_pos hk).trans (State.tileCtrlFault_eq hb k)
  have hmark : ∀ u : State, (u.markTileQuar k).regN pERR 0xF34 = u.regN pERR 0xF34 := fun u => by
    unfold State.markTileQuar
    split
    · rfl
    · rw [State.regN_err_counts _ _ _ (by decide) (by decide), State.regN_err_counts _ _ _ (by decide) (by decide)]
      exact congrArg BitVec.toNat (State.reg_setReg_other _ _ (by omega))
  rw [hfault]
  refine ⟨State.markTileQuar_tileQuar _ hk, ?_⟩
  rw [hmark, State.regN_err_counts _ _ _ (by decide) (by decide), State.regN_count_self]

/-- An injected control fault of ERR halts the engine, unless FATAL_RESET is set. -/
theorem State.ctrlFault_injected_err {s : State} (h : bitOf (s.cfg pERR 0x108) 0 = false) :
    ((s.count pERR 0xF34).ctrlFault (ctrlUnitOf pERR)).rst.halted = true
      ∧ ((s.count pERR 0xF34).ctrlFault (ctrlUnitOf pERR)).regN pERR 0xF30 = 256 + pERR := by
  have hcfg : bitOf ((s.count pERR 0xF34).cfg pERR 0x108) 0 = false := by
    rw [(s.count_flagsRaised pERR (o := 0xF34) 1 (by decide)).cfg (by decide) (by decide) (by decide), h]
  obtain ⟨hhalt, hcause, -⟩ := State.fatal_halts (page := pERR) (by decide) hcfg
  exact ⟨hhalt, hcause⟩

end Sys2Proof.Machine
end

section
/-! SUPPORT. Stop planks and block reset: ISOLATE and IDLE of a unit, and what a block reset leaves of a tile, a region and the
fabric unit. -/

namespace Sys2Proof.Machine

open Sys2Proof

/-! ### ISOLATE and the plank -/

/-- ISOLATE of a page set. -/
def State.barred (s : State) (page : Nat) : State := s.setReg page oCTRL (s.reg page oCTRL ||| 2)

section
variable {s : State} {page : Nat}

theorem State.barred_isolated : (s.barred page).isolated page = true := by
  rw [State.isolated, State.barred, State.reg_setReg_self, bitOf, BitVec.getLsbD_or]
  simp

theorem State.barred_status : (s.barred page).reg page oSTATUS = s.reg page oSTATUS :=
  s.reg_setReg_other _ (by simp only [oSTATUS, oCTRL]; omega)

theorem State.tryPlank_idle (hp : hasPlank page = true) (hi : s.isolated page = true) (hu : s.unitIdle page = true) :
    s.tryPlank page = s.setReg page oSTATUS (s.reg page oSTATUS ||| 1) := if_pos (by simp [hp, hi, hu])

theorem State.tryPlank_stays (h : hasPlank page = false ∨ s.isolated page = false ∨ s.unitIdle page = false) :
    s.tryPlank page = s := if_neg (by rcases h with h | h | h <;> simp [h])

theorem State.tryPlank_isolated (hi : s.isolated page = true) : (s.tryPlank page).isolated page = true := by
  unfold State.tryPlank
  split
  · rwa [State.isolated, State.reg_setReg_other _ _ (by simp only [oSTATUS, oCTRL]; omega)]
  · exact hi

/-- The plank of an isolated idle unit is in. -/
theorem State.tryPlank_plank (hp : hasPlank page = true) (hi : s.isolated page = true) (hu : s.unitIdle page = true) :
    (s.tryPlank page).plank page = true := by
  have hbit : bitOf ((s.tryPlank page).reg page oSTATUS) 0 = true := by
    rw [State.tryPlank_idle hp hi hu, State.reg_setReg_self, bitOf, BitVec.getLsbD_or]
    simp
  rw [State.plank, State.tryPlank_isolated hi, hbit]
  rfl

/-- A unit that is isolated already, or has no plank, is not isolated. -/
theorem State.setIsolate_stays (h : hasPlank page = false ∨ s.isolated page = true) : s.setIsolate page = s :=
  if_pos (by rcases h with h | h <;> simp [h])

theorem State.setIsolate_other (hp : hasPlank page = true) (hi : s.isolated page = false) (hr : isRegion page = false) :
    s.setIsolate page = (s.barred page).tryPlank page := by
  rw [State.setIsolate, if_neg (by simp [hp, hi])]
  simp only [hr, Bool.false_eq_true, if_false]
  rfl

/-- Without merge entries nothing goes to the weir. -/
theorem State.mergeToWeir_of_none (h : s.rows.merge = []) (r : Nat) : s.mergeToWeir r = s := by
  unfold State.mergeToWeir
  simp only [h, List.filter_nil, List.foldl_nil]
  rw [← h]

theorem State.setIsolate_region (hp : hasPlank page = true) (hi : s.isolated page = false) (hm : s.rows.merge = []) :
    s.setIsolate page = (s.barred page).tryPlank page := by
  have hmerge : (s.barred page).mergeToWeir (page - pREGION) = s.barred page :=
    State.mergeToWeir_of_none (s := s.barred page) hm _
  rw [State.setIsolate, if_neg (by simp [hp, hi])]
  change State.tryPlank (if isRegion page then (s.barred page).mergeToWeir (page - pREGION) else s.barred page) page = _
  rw [hmerge, ite_self]

/-- Isolated, the unit's plank goes in if it is idle, and its STATUS stays if it is not. -/
theorem State.barred_spec (hp : hasPlank page = true) : ((s.barred page).tryPlank page).isolated page = true
    ∧ (s.unitIdle page = true → ((s.barred page).tryPlank page).plank page = true)
    ∧ (s.unitIdle page = false → ((s.barred page).tryPlank page).reg page oSTATUS = s.reg page oSTATUS) := by
  have hidle : (s.barred page).unitIdle page = s.unitIdle page := rfl
  refine ⟨State.tryPlank_isolated State.barred_isolated, fun h => ?_, fun h => ?_⟩
  · exact State.tryPlank_plank hp State.barred_isolated (hidle.trans h)
  · rw [State.tryPlank_stays (.inr (.inr (hidle.trans h))), State.barred_status]

/-! ### RESET_REQ -/

/-- A busy unit's request is refused and recorded. -/
theorem State.requestReset_busy (hp : hasPlank page = true) (hi : s.idleBit page = false) :
    s.requestReset page = (s.setRegN pRST 0x06C (2 ^ 31 + page)).err pRST 3 := by
  rw [State.requestReset, if_neg (by simp [hp]), if_neg (by simp [hi])]

theorem State.requestReset_idle (hp : hasPlank page = true) (hi : s.idleBit page = true) :
    s.requestReset page = s.blockReset page := by
  rw [State.requestReset, if_neg (by simp [hp]), if_pos hi]

theorem State.requestReset_none (hp : hasPlank page = false) : s.requestReset page = s := if_pos (by simp [hp])

theorem State.blockRefused_spec (hpage : page < 256) :
    ((s.setRegN pRST 0x06C (2 ^ 31 + page)).err pRST 3).regN pRST 0x06C = 2 ^ 31 + page
      ∧ bitOf (((s.setRegN pRST 0x06C (2 ^ 31 + page)).err pRST 3).errStatus pRST) 3 = true
      ∧ ((s.setRegN pRST 0x06C (2 ^ 31 + page)).err pRST 3).regions = s.regions
      ∧ ((s.setRegN pRST 0x06C (2 ^ 31 + page)).err pRST 3).fab = s.fab := by
  have hmask := (s.setRegN pRST 0x06C (2 ^ 31 + page)).err_mask { regs := true, hq := true } rfl rfl pRST 3
  refine ⟨?_, State.bitOf_errStatus_err _ (by decide) (by decide) (by decide), State.regions_of_mask hmask rfl,
    State.fab_of_mask hmask rfl⟩
  rw [State.regN, State.reg_err_same _ 3 (by decide) (by decide) (by decide) (by decide), State.setRegN, State.reg_setReg_self,
    BitVec.toNat_ofNat, Nat.mod_eq_of_lt (by omega)]

end

/-! ### The block reset of a tile or a region -/

/-- From `s` to `t` registers have been set to zero and the quarantine bits and clock flags of units have changed: no register
below a page's counters, and nothing of the rows. -/
structure BlockCleared (s t : State) : Prop where
  ctrl : ∀ Q, t.reg Q oCTRL = s.reg Q oCTRL
  merge : t.rows.merge = s.rows.merge

theorem BlockCleared.refl (s : State) : BlockCleared s s := ⟨fun _ => rfl, rfl⟩

theorem BlockCleared.trans {s t u : State} (h : BlockCleared s t) (k : BlockCleared t u) : BlockCleared s u :=
  ⟨fun Q => (k.ctrl Q).trans (h.ctrl Q), k.merge.trans h.merge⟩

theorem BlockCleared.foldl {α : Type} {f : State → α → State} {l : List α} (h : ∀ s x, x ∈ l → BlockCleared s (f s x)) (s : State) :
    BlockCleared s (l.foldl f s) := by
  induction l generalizing s with
  | nil => exact .refl s
  | cons x l ih =>
    exact (h s x List.mem_cons_self).trans (ih (fun s y hy => h s y (List.mem_cons_of_mem x hy)) _)

theorem State.setReg_blockCleared (s : State) (P : Nat) {o : Nat} (v : Word) (ho : o % 0x1000 ≠ 0x010) :
    BlockCleared s (s.setReg P o v) := ⟨fun Q => s.reg_setReg_other v (by simp only [oCTRL]; omega), rfl⟩

theorem State.zeroCounters_blockCleared (s : State) (P : Nat) {os : List Nat} (h : ∀ o ∈ os, o % 0x1000 ≠ 0x010) :
    BlockCleared s (s.zeroCounters P os) := .foldl (fun s o ho => s.setReg_blockCleared P 0 (h o ho)) s

theorem BlockCleared.of_same {s t : State} (hregs : t.regs = s.regs) (hrows : t.rows = s.rows) : BlockCleared s t :=
  ⟨fun Q => by rw [State.reg, State.reg, hregs], by rw [hrows]⟩

/-- What a block reset does to a tile's registers. -/
def State.tileCleared (s : State) (t : Nat) : State := (s.setTileQuar t false).zeroCounters (tPage t) [0xF00, 0xF04, 0xF08]

theorem State.clearTile_eq (s : State) (t : Nat) :
    s.clearTile t = { s.tileCleared t with tileErrs := SMap.put (fun _ => (0, 0)) (s.tileCleared t).tileErrs t (0, 0) } := rfl

theorem State.clearTile_blockCleared (s : State) {t : Nat} (ht : t < 128) : BlockCleared s (s.clearTile t) := by
  have hquar : BlockCleared s (s.setTileQuar t false) := s.setReg_blockCleared pERR _ (by omega)
  have hcount : BlockCleared (s.setTileQuar t false) (s.tileCleared t) := State.zeroCounters_blockCleared _ _ (by decide)
  have hforget : BlockCleared (s.tileCleared t) (s.clearTile t) := by
    have h := s.clearTile_eq t
    generalize s.tileCleared t = u at *
    rw [h]
    exact .of_same rfl rfl
  exact (hquar.trans hcount).trans hforget

theorem State.zeroCounters_tileQuar (s : State) {P t : Nat} {os : List Nat} (ht : t < 128)
    (h : ∀ o ∈ os, P * 0x1000 + o < pERR * 0x1000 ∨ pERR * 0x1000 + 0x1000 ≤ P * 0x1000 + o) :
    (s.zeroCounters P os).tileQuar t = s.tileQuar t := by
  have hset : ∀ (u : State) (l : List Nat), (∀ o ∈ l, o ∈ os) → (u.zeroCounters P l).tileQuar t = u.tileQuar t := fun u l hl => by
    induction l generalizing u with
    | nil => rfl
    | cons o l ih =>
      obtain ⟨ho, hl⟩ := List.forall_mem_cons.1 hl
      refine (ih (u.setReg P o 0) hl).trans ?_
      have := h o ho
      rw [State.tileQuar, u.reg_setReg_other 0 (by omega)]
      rfl
  exact hset s os fun _ h => h

/-- A cleared tile is quarantined no longer. -/
theorem State.clearTile_tileQuar (s : State) {t : Nat} (ht : t < 128) : (s.clearTile t).tileQuar t = false := by
  have h : (s.tileCleared t).tileQuar t = (s.setTileQuar t false).tileQuar t :=
    State.zeroCounters_tileQuar _ ht fun o _ => by simp only [tPage, pTILE, pERR]; omega
  have htile : (s.clearTile t).tileQuar t = (s.tileCleared t).tileQuar t := by
    rw [s.clearTile_eq t, State.tileQuar, State.tileQuar, State.reg, State.reg]
  rw [htile, h, State.tileQuar_setTileQuar]

/-- Region `r` goes off, with nothing for the weir. -/
def State.sunk (s : State) (r : Nat) : State :=
  ((s.unlock r).dropSram r).updRegion r fun x => { x with power := .off, waking := none, idleSince := s.now }

theorem State.regionOff_eq {s : State} (h : s.rows.merge = []) (r : Nat) : s.regionOff r = s.sunk r := by
  unfold State.regionOff
  rw [State.mergeToWeir_of_none h]
  rfl

theorem State.sunk_blockCleared (s : State) (r : Nat) : BlockCleared s (s.sunk r) :=
  (State.setReg_blockCleared s pCLK (o := 0xF00) _ (by decide)).trans (.of_same rfl rfl)

theorem State.sunk_regs (s : State) (r : Nat) : (s.sunk r).regs = (s.setClkGood r false).regs := rfl

theorem State.sunk_tileQuar (s : State) (r t : Nat) (ht : t < 128) : (s.sunk r).tileQuar t = s.tileQuar t := by
  have hclk : ErrKept s (s.setClkGood r false) := fun o ho ho' => s.reg_setReg_other _ (by simp only [pERR, pCLK]; omega)
  have hregs : ErrKept (s.setClkGood r false) (s.sunk r) := .of_regs (s.sunk_regs r)
  exact (hclk.trans hregs).tileQuar ht

/-- The region is off and empty, and its pool reads as zero. -/
theorem State.sunk_spec (s : State) (r : Nat) : ((s.sunk r).region r).power = .off ∧ ((s.sunk r).region r).pieces = []
    ∧ ((s.sunk r).region r).cache = [] ∧ ∀ a, a < poolBytes → (s.sunk r).pool.get (r * poolBytes + a) = 0 := by
  have hregion : (s.sunk r).region r = { (s.unlock r).region r with
      pieces := [], cache := [], moored := [], power := .off, waking := none, idleSince := s.now } := by
    rw [State.sunk, State.region_updRegion_self, State.region_dropSram, State.region_updRegion_self]
  rw [hregion]
  exact ⟨rfl, rfl, rfl, fun a ha => ((s.unlock r).pool_dropSram r r ha).trans (if_pos rfl)⟩

theorem State.blockReset_tile {s : State} {page : Nat} (hm : s.rows.merge = []) (h : isTile page = true) (hf : page ≠ pFAB) :
    s.blockReset page = (s.clearTile (page - pTILE)).sunk (regionOfPage page) := by
  have hpage := isTile_iff.1 h
  have hmerge := (s.clearTile_blockCleared (t := page - pTILE) (by simp only [pTILE]; omega)).merge
  rw [State.blockReset, if_neg hf, if_pos h, State.regionOff_eq (hmerge.trans hm)]

/-- The region's tiles cleared. -/
def State.tilesCleared (s : State) (r : Nat) : State := (List.range 16).foldl (fun s j => s.clearTile (16 * r + j)) s

theorem State.tilesCleared_blockCleared (s : State) {r : Nat} (hr : r < 8) : BlockCleared s (s.tilesCleared r) :=
  .foldl (fun s j hj => s.clearTile_blockCleared (by have := List.mem_range.1 hj; omega)) s

theorem State.blockReset_region {s : State} {page : Nat} (hm : s.rows.merge = []) (h : isRegion page = true) (hf : page ≠ pFAB) :
    s.blockReset page = ((((s.tilesCleared (page - pREGION)).sunk (page - pREGION)).zeroCounters page
      [0xF40, 0xF44, 0xF4C, 0xF50, 0xF54, 0xF58]).updRegion (page - pREGION) fun x => { x with quarantined := false }) := by
  have hpage := isRegion_iff.1 h
  simp only [pREGION, pKEEP] at hpage
  have ht : isTile page = false := Bool.eq_false_iff.2 fun ht => by have := isTile_iff.1 ht; omega
  have hmerge := (s.tilesCleared_blockCleared (r := page - pREGION) (by simp only [pREGION]; omega)).merge
  rw [State.blockReset, if_neg hf, if_neg (by simp [ht])]
  rw [← State.regionOff_eq (hmerge.trans hm)]
  rfl

end Sys2Proof.Machine
end

section
/-! SUPPORT. The block reset of the fabric unit, and the statement about faults, planks and injections. -/

namespace Sys2Proof.Machine

open Sys2Proof

/-! ### The block reset of the fabric unit -/

/-- A link that is neither OFF nor DOWN taken down. -/
def State.portReset (s : State) (n : Nat) : State :=
  if (s.fport n).st == .off || (s.fport n).st == .down then s else s.linkDown n

theorem State.fport_portReset_self (s : State) (n : Nat) :
    ((s.portReset n).fport n).st = if (s.fport n).st = .off then .off else .down := by
  unfold State.portReset
  cases h : (s.fport n).st <;> simp [h, State.fport_linkDown_self, Port.downed]

theorem State.fport_portReset_other (s : State) {n k : Nat} (h : k ≠ n) : (s.portReset n).fport k = s.fport k := by
  unfold State.portReset
  split
  · rfl
  · exact s.fport_linkDown_other h

theorem State.fport_portsReset (l : List Nat) (s : State) (k : Nat) : ((l.foldl State.portReset s).fport k).st
    = if k ∈ l ∧ (s.fport k).st ≠ .off then .down else (s.fport k).st := by
  induction l generalizing s with
  | nil => simp
  | cons n l ih =>
    rw [List.foldl_cons, ih]
    by_cases hk : k = n
    · subst hk
      rw [State.fport_portReset_self]
      by_cases hoff : (s.fport k).st = .off <;> simp [hoff]
    · rw [State.fport_portReset_other _ hk]
      simp [hk]

theorem State.blockReset_fab (s : State) {n : Nat} (hn : n < 24) :
    ((s.blockReset pFAB).fport n).st = if (s.fport n).st = .off then .off else .down := by
  have heq : s.blockReset pFAB = (List.range 24).foldl State.portReset s := if_pos rfl
  rw [heq, State.fport_portsReset]
  by_cases hoff : (s.fport n).st = .off <;> simp [hoff, hn]

/-! ### The block reset of a tile or a region -/

/-- A region's counters at zero, and its quarantine at an end. -/
def State.readmitted (s : State) (page r : Nat) (os : List Nat) : State :=
  (s.zeroCounters page os).updRegion r fun x => { x with quarantined := false }

theorem State.region_readmitted (s : State) (page r : Nat) (os : List Nat) :
    (s.readmitted page r os).region r = { s.region r with quarantined := false } := by
  have hregions : (s.zeroCounters page os).regions = s.regions :=
    State.foldl_keeps State.regions (f := fun s o => s.setReg page o 0) (fun _ _ => rfl) os s
  rw [State.readmitted, State.region_updRegion_self, State.region_congr hregions]

theorem State.pool_readmitted (s : State) (page r : Nat) (os : List Nat) : (s.readmitted page r os).pool = s.pool :=
  State.foldl_keeps State.pool (f := fun s o => s.setReg page o 0) (fun _ _ => rfl) os s

theorem State.isolated_readmitted (s : State) (page r : Nat) {os : List Nat} (h : ∀ o ∈ os, o % 0x1000 ≠ 0x010) (Q : Nat) :
    (s.readmitted page r os).isolated Q = s.isolated Q :=
  congrArg (bitOf · 1) ((s.zeroCounters_blockCleared page h).ctrl Q)

theorem BlockCleared.isolated {s t : State} (h : BlockCleared s t) (Q : Nat) : t.isolated Q = s.isolated Q :=
  congrArg (bitOf · 1) (h.ctrl Q)

section
variable {s : State} {page : Nat} (hm : s.rows.merge = []) (hf : page ≠ pFAB)
include hm hf

theorem State.blockReset_tile_spec (h : isTile page = true) :
    ((s.blockReset page).region (regionOfPage page)).power = .off
      ∧ ((s.blockReset page).region (regionOfPage page)).pieces = []
      ∧ ((s.blockReset page).region (regionOfPage page)).cache = []
      ∧ (s.blockReset page).tileQuar (page - pTILE) = false
      ∧ (∀ a, a < poolBytes → (s.blockReset page).pool.get (regionOfPage page * poolBytes + a) = 0)
      ∧ (s.blockReset page).isolated page = s.isolated page := by
  have hpage := isTile_iff.1 h
  have ht : page - pTILE < 128 := by simp only [pTILE]; omega
  obtain ⟨hpower, hpieces, hcache, hpool⟩ := (s.clearTile (page - pTILE)).sunk_spec (regionOfPage page)
  rw [State.blockReset_tile hm h hf]
  refine ⟨hpower, hpieces, hcache, ?_, hpool,
    ((s.clearTile_blockCleared ht).trans (State.sunk_blockCleared _ (regionOfPage page))).isolated page⟩
  rw [State.sunk_tileQuar _ _ _ ht, s.clearTile_tileQuar ht]

theorem State.blockReset_region_spec (h : isRegion page = true) :
    ((s.blockReset page).region (page - pREGION)).power = .off
      ∧ ((s.blockReset page).region (page - pREGION)).pieces = []
      ∧ ((s.blockReset page).region (page - pREGION)).cache = []
      ∧ ((s.blockReset page).region (page - pREGION)).quarantined = false
      ∧ (∀ a, a < poolBytes → (s.blockReset page).pool.get ((page - pREGION) * poolBytes + a) = 0)
      ∧ (s.blockReset page).isolated page = s.isolated page := by
  have hpage := isRegion_iff.1 h
  have hr : page - pREGION < 8 := by simp only [pREGION, pKEEP] at hpage ⊢; omega
  obtain ⟨hpower, hpieces, hcache, hpool⟩ := (s.tilesCleared (page - pREGION)).sunk_spec (page - pREGION)
  have hsunk : BlockCleared s ((s.tilesCleared (page - pREGION)).sunk (page - pREGION)) :=
    (s.tilesCleared_blockCleared hr).trans (State.sunk_blockCleared _ _)
  have hreset : s.blockReset page = ((s.tilesCleared (page - pREGION)).sunk (page - pREGION)).readmitted page (page - pREGION)
      [0xF40, 0xF44, 0xF4C, 0xF50, 0xF54, 0xF58] := State.blockReset_region hm h hf
  rw [hreset, State.region_readmitted, State.pool_readmitted, State.isolated_readmitted _ _ _ (by decide)]
  exact ⟨hpower, hpieces, hcache, rfl, hpool, hsunk.isolated page⟩

/-- Either unit of a page: its region is off and empty, its quarantine is over, and ISOLATE is kept. -/
theorem State.blockReset_unit_spec (hp : hasPlank page = true) :
    ((s.blockReset page).region (regionOfPage page)).power = .off
      ∧ ((s.blockReset page).region (regionOfPage page)).pieces = []
      ∧ ((s.blockReset page).region (regionOfPage page)).cache = []
      ∧ (isRegion page = true → ((s.blockReset page).region (regionOfPage page)).quarantined = false)
      ∧ (isTile page = true → (s.blockReset page).tileQuar (page - pTILE) = false)
      ∧ (∀ a, a < poolBytes → (s.blockReset page).pool.get (regionOfPage page * poolBytes + a) = 0)
      ∧ (s.blockReset page).isolated page = s.isolated page := by
  cases ht : isTile page with
  | true =>
    have hr : ¬ isRegion page = true := fun hr => by
      have h1 := isTile_iff.1 ht
      have h2 := isRegion_iff.1 hr
      simp only [pREGION, pKEEP] at h2
      omega
    obtain ⟨hpower, hpieces, hcache, hquar, hpool, hisolated⟩ := State.blockReset_tile_spec hm hf ht
    exact ⟨hpower, hpieces, hcache, fun h => absurd h hr, fun _ => hquar, hpool, hisolated⟩
  | false =>
    have hr : isRegion page = true := by simpa [hasPlank, ht, hf] using hp
    have hregion : regionOfPage page = page - pREGION := if_neg (by simp [ht])
    obtain ⟨hpower, hpieces, hcache, hquar, hpool, hisolated⟩ := State.blockReset_region_spec hm hf hr
    rw [hregion]
    exact ⟨hpower, hpieces, hcache, fun _ => hquar, fun h => absurd h (by decide), hpool, hisolated⟩

end

/-! ### Commands of a running engine -/

theorem exec_ctrlParityError {s : State} (h : s.up = true) (u : CtrlUnit) :
    exec (.ctrlParityError u) s = .next (s.ctrlFault u) := State.engine_up h fun s => s.ctrlFault u

theorem exec_errWindowEnd {s : State} (h : s.up = true) : exec .errWindowEnd s = .next
    (if s.errWindowFrom + s.cfgN pERR 0x104 ≤ s.now then { s with tileErrs := [], errWindowFrom := s.now } else s) :=
  State.engine_up h _

/-- A control fault of an engine page is fatal. -/
theorem State.ctrlFault_engine {s : State} {page : Nat} (hex : pageExists page = true) (hlt : page < pTILE)
    (hreg : ¬(pREGION ≤ page ∧ page < pKEEP)) : s.ctrlFault (.engine page) = s.fatal page :=
  if_pos (by simp [hex, hlt]; omega)

theorem exec_isolate {s : State} (h : s.live = true) (page : Nat) : exec (.isolate page) s = .next (s.setIsolate page) :=
  State.always_live h fun s => s.setIsolate page

theorem exec_plankIn {s : State} (h : s.live = true) (page : Nat) : exec (.plankIn page) s = .next (s.tryPlank page) :=
  State.always_live h fun s => s.tryPlank page

theorem exec_resetReq {s : State} (h : s.live = true) (page : Nat) : exec (.resetReq page) s = .next (s.requestReset page) :=
  State.always_live h fun s => s.requestReset page

/-- Settles O54: faults raise their flags and what follows, an injection is scheduled where its page accepts it, and a block reset
clears its unit. -/
theorem faultsPlanksAndInjections : Obligations.FaultsPlanksAndInjections := by
  refine ⟨fun k s hup hb => ⟨fun hk => ?_, fun hk hq hm => ?_⟩, fun page s hup hex hlt hreg => ⟨fun h => ?_, fun h => ?_⟩,
    fun s hup => ⟨fun h => ?_, fun h => ?_⟩, fun page w s hl => ?_, fun page s hl => ?_⟩
  · refine ⟨_, exec_ctrlParityError hup _, ?_⟩
    rw [State.ctrlFault, if_pos hk]
    exact State.tileCtrlFault_spec hb hk
  · refine ⟨_, exec_ctrlParityError hup _, ?_⟩
    rw [State.ctrlFault, if_pos hk]
    exact s.quarantine_spec hk
  · refine ⟨_, exec_ctrlParityError hup _, ?_⟩
    rw [State.ctrlFault_engine hex hlt hreg]
    exact State.fatal_halts (by simp only [pTILE] at hlt; omega) h
  · refine ⟨_, exec_ctrlParityError hup _, ?_⟩
    rw [State.ctrlFault_engine hex hlt hreg]
    exact State.fatal_resets page (State.idle_of_up hup) h
  · exact (exec_errWindowEnd hup).trans (congrArg _ (if_pos h))
  · exact (exec_errWindowEnd hup).trans (congrArg _ (if_neg (Nat.not_le.2 h)))
  · intro armed ty sy sel tr
    refine ⟨?_, ?_, ?_, fun ha hty hsel => ?_, fun h => ?_, ?_, fun ha hty hb k hk hpage => ?_, fun ha hty hpage h => ?_, fun h => ?_, ?_⟩
    · exact (State.always_live hl _).trans (congrArg _ (State.injectAs_eq
        (and_congr_right fun _ => and_congr_right fun hty => (State.injOk_sram hty).symm) fun hty => by
        simp only [State.arm, hty]; rfl))
    · exact (State.always_live hl _).trans (congrArg _ (State.injectAs_eq
        (and_congr_right fun _ => and_congr_right fun hty => (State.injOk_sector hty).symm) fun hty => by
        simp only [State.arm, hty]; rfl))
    · exact (State.always_live hl _).trans (congrArg _ (State.injectAs_eq
        (and_congr_right fun _ => and_congr_right fun hty => (State.injOk_tag hty).symm) fun hty => by
        simp only [State.arm, hty]; rfl))
    · have harm : s.injectAs 4 pFAB w = s.updPort sel fun x => { x with badCrc := true } :=
        (State.injectAs_armed hty ha ((State.injOk_flitCrc hty).2 hsel)).trans (by
          simp only [State.arm, show injType w = 4 from hty]; rfl)
      refine ⟨_, (State.always_live hl _).trans (congrArg _ harm), ?_, fun k hk => ?_⟩
      · exact s.fport_updPort_self sel _
      · exact s.fport_updPort_other _ hk
    · refine (State.always_live hl _).trans (congrArg _ (State.injectAs_ignored fun ⟨ha, hty, hok⟩ => ?_))
      have hsel := (State.injOk_flitCrc hty).1 hok
      rcases h with h | h | h
      · exact h ha
      · exact h hty
      · exact Nat.not_le.2 hsel h
    · exact (State.always_live hl _).trans (congrArg _ (State.injectAs_eq
        (and_congr_right fun _ => (and_iff_left_of_imp State.injOk_piece).symm) fun hty => by simp only [State.arm, hty]))
    · subst hpage
      have harm : s.injectAs 6 (tPage k) w = (s.count pERR 0xF34).ctrlFault (.tile k) := by
        rw [State.injectAs_armed hty ha ((State.injOk_ctrl hty).2 (.inl (.inl ?_))), s.arm_ctrl _ hty, ctrlUnitOf_tile hk]
        simp only [tPage, pTILE]; omega
      exact ⟨_, (State.always_live hl _).trans (congrArg _ harm), State.ctrlFault_injected_tile hb hk⟩
    · subst hpage
      have harm : s.injectAs 6 pERR w = (s.count pERR 0xF34).ctrlFault (ctrlUnitOf pERR) := by
        rw [State.injectAs_armed hty ha ((State.injOk_ctrl hty).2 (.inr rfl)), s.arm_ctrl _ hty]
      exact ⟨_, (State.always_live hl _).trans (congrArg _ harm), State.ctrlFault_injected_err h⟩
    · refine (State.always_live hl _).trans (congrArg _ (State.injectAs_ignored fun ⟨ha, hty, hok⟩ => ?_))
      have hpage := (State.injOk_ctrl hty).1 hok
      rcases h with h | h | h
      · exact h ha
      · exact h hty
      · exact hpage.elim h.1 h.2
    · exact (State.always_live hl _).trans (congrArg _ (State.injectAs_eq
        (and_congr_right fun _ => and_congr_right fun hty => (State.injOk_clock hty).symm) fun hty => by
        simp only [State.arm, hty]))
  · refine ⟨fun hp hi hr => ?_, fun hp hi _ hm => ?_, fun h => ?_, fun hp hi hu => ?_, fun h => ?_, fun hp hi hpage => ?_,
      fun hp hi hf hm => ?_, fun hi => ?_, fun hp => ?_⟩
    · refine ⟨_, exec_isolate hl page, ?_⟩
      rw [State.setIsolate_other hp hi hr]
      exact State.barred_spec hp
    · refine ⟨_, exec_isolate hl page, ?_⟩
      rw [State.setIsolate_region hp hi hm]
      obtain ⟨hisolated, hplank, -⟩ := State.barred_spec (s := s) hp
      exact ⟨hisolated, hplank⟩
    · exact (exec_isolate hl page).trans (congrArg _ (State.setIsolate_stays h))
    · refine ⟨_, exec_plankIn hl page, State.tryPlank_plank hp hi hu, ?_, ?_⟩
      · rw [State.tryPlank_idle hp hi hu]; rfl
      · rw [State.tryPlank_idle hp hi hu]; rfl
    · exact (exec_plankIn hl page).trans (congrArg _ (State.tryPlank_stays h))
    · refine ⟨_, exec_resetReq hl page, ?_⟩
      rw [State.requestReset_busy hp hi]
      exact State.blockRefused_spec hpage
    · refine ⟨_, exec_resetReq hl page, ?_⟩
      rw [State.requestReset_idle hp hi]
      exact State.blockReset_unit_spec hm hf hp
    · refine ⟨_, exec_resetReq hl pFAB, fun n hn => ?_⟩
      rw [State.requestReset_idle rfl hi]
      exact s.blockReset_fab hn
    · exact (exec_resetReq hl page).trans (congrArg _ (State.requestReset_none hp))

end Sys2Proof.Machine
end
